-- ==== Sys2Proof/Word.lean ====
section
/-! DEFINITION. The word types of the block and their plainest arithmetic. Multi-byte values are little-endian and bit 0
is the least significant bit of every field (R1). -/

namespace Sys2Proof

/-- A byte of memory. -/
abbrev Byte := BitVec 8

/-- A 32-bit register or word (R580). -/
abbrev Word := BitVec 32

/-- A 64-bit accumulator or supervisor register. -/
abbrev Dword := BitVec 64

/-- Bits hi down to lo of a number, as a number. -/
def bits (hi lo n : Nat) : Nat := (n >>> lo) % 2 ^ (hi + 1 - lo)

/-- One bit of a number. -/
def bit (k n : Nat) : Bool := n.testBit k

/-- 1 for true, 0 for false. -/
def b2n (b : Bool) : Nat := if b then 1 else 0

/-- The integer that the low w bits of n spell in two's complement. -/
def sext (w n : Nat) : Int :=
  let m := n % 2 ^ w
  if m < 2 ^ (w - 1) then (m : Int) else (m : Int) - (2 ^ w : Nat)

/-- The low w bits of an integer in two's complement. -/
def wrapTo (w : Nat) (z : Int) : Nat := (z % ((2 ^ w : Nat) : Int)).toNat

/-- An integer held between two limits. -/
def clampI (lo hi z : Int) : Int := if z < lo then lo else if hi < z then hi else z

/-- n with its field of width w at lo replaced by v. -/
def setBits (lo w v n : Nat) : Nat :=
  (n >>> (lo + w)) <<< (lo + w) + (v % 2 ^ w) <<< lo + n % 2 ^ lo

end Sys2Proof
end

