-- ==== Sys2Proof/Syntax.lean ====
section
/-! DEFINITION. The commands of the block: one constructor per row of spec/opcode_table.json, in the order of the table. -/

namespace Sys2Proof

/-- The core that executes an instruction: a logical lane engine (R6, R34) or a physical supervisor core (R359). -/
inductive Core where
  | lane (e : Fin 512)
  | sup (k : Fin 10)
  deriving DecidableEq, Repr

/-- Who makes an access from outside the cores' instruction streams: a supervisor core, a lane engine, a DMA channel, the host, another
device, or the debug port. -/
inductive Initiator where
  | sup (k : Fin 10)
  | lane (e : Fin 512)
  | dma (m : Fin 32)
  | host
  | remote (d : Fin 64)
  | debug
  deriving DecidableEq, Repr

/-- What the steps of an encoder classification receive (R512): whether pair A changed level during the burst on pair C, whether A and B
were driven throughout the differential step, and the states of Z, B and A accepted in the single-ended step. -/
structure EncSeen where
  changed : Bool
  driven  : Bool
  states  : List (BitVec 3)
  deriving DecidableEq, Repr

/-- The commands. What happens outside the block is an operand of the command it happens in. [DESIGN CHOICE, log entry 7] -/
inductive Instr where
  /-- ADD (R60): Lane engine adds two registers modulo 2^32 in 1 ec; on a supervisor core the same opcode acts on 64 bits and sets flags under R362. -/
  | add (c : Core) (rd ra rb : BitVec 5)
  /-- SUB (R60): Lane engine subtracts two registers modulo 2^32 in 1 ec. -/
  | sub (c : Core) (rd ra rb : BitVec 5)
  /-- AND (R60): Bitwise AND of two registers. -/
  | and (c : Core) (rd ra rb : BitVec 5)
  /-- OR (R60): Bitwise OR of two registers. -/
  | or (c : Core) (rd ra rb : BitVec 5)
  /-- XOR (R60): Bitwise XOR of two registers. -/
  | xor (c : Core) (rd ra rb : BitVec 5)
  /-- ANDN (R60): AND of ra with the complement of rb. -/
  | andn (c : Core) (rd ra rb : BitVec 5)
  /-- MOV (R60): Copies ra to rd. -/
  | mov (c : Core) (rd ra : BitVec 5)
  /-- NOP (R60): No effect for 1 ec. -/
  | nop (c : Core)
  /-- SHL (R60): Logical left shift by rb[4:0]. -/
  | shl (c : Core) (rd ra rb : BitVec 5)
  /-- SHR (R60): Logical right shift by rb[4:0]. -/
  | shr (c : Core) (rd ra rb : BitVec 5)
  /-- SAR (R60): Arithmetic right shift by rb[4:0]. -/
  | sar (c : Core) (rd ra rb : BitVec 5)
  /-- ROR (R60): Rotate right by rb[4:0]. -/
  | ror (c : Core) (rd ra rb : BitVec 5)
  /-- SHLI (R60): Logical left shift by the sh field. -/
  | shli (c : Core) (rd ra : BitVec 5) (sh : BitVec 6)
  /-- SHRI (R60): Logical right shift by the sh field. -/
  | shri (c : Core) (rd ra : BitVec 5) (sh : BitVec 6)
  /-- SARI (R60): Arithmetic right shift by the sh field. -/
  | sari (c : Core) (rd ra : BitVec 5) (sh : BitVec 6)
  /-- RORI (R60): Rotate right by the sh field. -/
  | rori (c : Core) (rd ra : BitVec 5) (sh : BitVec 6)
  /-- MIN (R60): Signed minimum of two registers. -/
  | min (c : Core) (rd ra rb : BitVec 5)
  /-- MAX (R60): Signed maximum of two registers. -/
  | max (c : Core) (rd ra rb : BitVec 5)
  /-- MINU (R60): Unsigned minimum of two registers. -/
  | minu (c : Core) (rd ra rb : BitVec 5)
  /-- MAXU (R60): Unsigned maximum of two registers. -/
  | maxu (c : Core) (rd ra rb : BitVec 5)
  /-- ABS (R60): Saturating absolute value. -/
  | abs (c : Core) (rd ra : BitVec 5)
  /-- NEG (R60): Wrapping negation. -/
  | neg (c : Core) (rd ra : BitVec 5)
  /-- ADDS (R60): Saturating int32/Q31 addition. -/
  | adds (c : Core) (rd ra rb : BitVec 5)
  /-- SUBS (R60): Saturating int32/Q31 subtraction. -/
  | subs (c : Core) (rd ra rb : BitVec 5)
  /-- ADDS15 (R60): Saturating Q15 addition with sign extension. -/
  | adds15 (c : Core) (rd ra rb : BitVec 5)
  /-- SUBS15 (R60): Saturating Q15 subtraction with sign extension. -/
  | subs15 (c : Core) (rd ra rb : BitVec 5)
  /-- SAT15 (R60): Saturates an int32 to the Q15 range. -/
  | sat15 (c : Core) (rd ra : BitVec 5)
  /-- CLZ (R60): Counts leading zero bits. -/
  | clz (c : Core) (rd ra : BitVec 5)
  /-- MUL (R60): Low 32 bits of the product in 2 ec. -/
  | mul (c : Core) (rd ra rb : BitVec 5)
  /-- MULH (R60): High 32 bits of the signed product. -/
  | mulh (c : Core) (rd ra rb : BitVec 5)
  /-- MULHU (R60): High 32 bits of the unsigned product. -/
  | mulhu (c : Core) (rd ra rb : BitVec 5)
  /-- QMUL15 (R60): Q15 multiply rounded half up and saturated. -/
  | qmul15 (c : Core) (rd ra rb : BitVec 5)
  /-- QMUL31 (R60): Q31 multiply rounded half up and saturated. -/
  | qmul31 (c : Core) (rd ra rb : BitVec 5)
  /-- MAC (R61): Adds a product to an accumulator, wrapping. -/
  | mac (c : Core) (n : BitVec 2) (ra rb : BitVec 5)
  /-- MSU (R61): Subtracts a product from an accumulator, wrapping. -/
  | msu (c : Core) (n : BitVec 2) (ra rb : BitVec 5)
  /-- MACS (R61): Adds a product to an accumulator, saturating. -/
  | macs (c : Core) (n : BitVec 2) (ra rb : BitVec 5)
  /-- MSUS (R61): Subtracts a product from an accumulator, saturating. -/
  | msus (c : Core) (n : BitVec 2) (ra rb : BitVec 5)
  /-- ACLR (R61): Clears an accumulator. -/
  | aclr (c : Core) (n : BitVec 2)
  /-- ALD (R61): Loads a shifted sign-extended register into an accumulator. -/
  | ald (c : Core) (n : BitVec 2) (ra sh : BitVec 5)
  /-- ARD (R61): Reads an accumulator shifted, rounded half up and saturated. -/
  | ard (c : Core) (rd : BitVec 5) (n : BitVec 2) (sh : BitVec 5)
  /-- ARDL (R61): Reads the low 32 bits of a shifted accumulator. -/
  | ardl (c : Core) (rd : BitVec 5) (n : BitVec 2) (sh : BitVec 5)
  /-- ARDH (R61): Reads bits [63:32] of an accumulator. -/
  | ardh (c : Core) (rd : BitVec 5) (n : BitVec 2)
  /-- FADD (R42): Binary32 addition in 3 ec. -/
  | fadd (c : Core) (rd ra rb : BitVec 5)
  /-- FSUB (R42): Binary32 subtraction in 3 ec. -/
  | fsub (c : Core) (rd ra rb : BitVec 5)
  /-- FMUL (R42): Binary32 multiplication in 3 ec. -/
  | fmul (c : Core) (rd ra rb : BitVec 5)
  /-- FMA (R63): Fused multiply-add with one rounding. -/
  | fma (c : Core) (rd ra rb rc : BitVec 5)
  /-- FMS (R63): Fused rc minus product with one rounding. -/
  | fms (c : Core) (rd ra rb rc : BitVec 5)
  /-- FDIV (R63): Binary32 division in 14 ec. -/
  | fdiv (c : Core) (rd ra rb : BitVec 5)
  /-- FSQRT (R63): Binary32 square root in 16 ec. -/
  | fsqrt (c : Core) (rd ra : BitVec 5)
  /-- FMIN (R63): Binary32 minimum with fixed NaN and signed-zero handling. -/
  | fmin (c : Core) (rd ra rb : BitVec 5)
  /-- FMAX (R63): Binary32 maximum with fixed NaN and signed-zero handling. -/
  | fmax (c : Core) (rd ra rb : BitVec 5)
  /-- FABS (R63): Clears the sign of a binary32 value. -/
  | fabs (c : Core) (rd ra : BitVec 5)
  /-- FNEG (R63): Inverts the sign of a binary32 value. -/
  | fneg (c : Core) (rd ra : BitVec 5)
  /-- FCVTIF (R63): Converts int32 to binary32. -/
  | fcvtif (c : Core) (rd ra : BitVec 5)
  /-- FCVTFI (R42): Converts binary32 to int32, saturating. -/
  | fcvtfi (c : Core) (rd ra : BitVec 5)
  /-- FCVTQF (R63): Converts Q31 to binary32. -/
  | fcvtqf (c : Core) (rd ra : BitVec 5)
  /-- FCVTFQ (R63): Converts binary32 to Q31, saturating. -/
  | fcvtfq (c : Core) (rd ra : BitVec 5)
  /-- ADDI (R62): Adds a sign-extended immediate. -/
  | addi (c : Core) (rd ra : BitVec 5) (imm : BitVec 16)
  /-- ANDI (R62): ANDs a zero-extended immediate. -/
  | andi (c : Core) (rd ra : BitVec 5) (imm : BitVec 16)
  /-- ORI (R62): ORs a zero-extended immediate. -/
  | ori (c : Core) (rd ra : BitVec 5) (imm : BitVec 16)
  /-- XORI (R62): XORs a zero-extended immediate. -/
  | xori (c : Core) (rd ra : BitVec 5) (imm : BitVec 16)
  /-- MOVI (R62): Moves a sign-extended immediate. -/
  | movi (c : Core) (rd : BitVec 5) (imm : BitVec 16)
  /-- MOVHI (R62): Moves an immediate into bits [31:16]. -/
  | movhi (c : Core) (rd : BitVec 5) (imm : BitVec 16)
  /-- BEQ (R64): Branches if ra equals rb; also JMP. -/
  | beq (c : Core) (ra rb : BitVec 5) (off : BitVec 13)
  /-- BNE (R64): Branches if ra differs from rb. -/
  | bne (c : Core) (ra rb : BitVec 5) (off : BitVec 13)
  /-- BLT (R64): Branches if ra is signed-less than rb. -/
  | blt (c : Core) (ra rb : BitVec 5) (off : BitVec 13)
  /-- BGE (R64): Branches if ra is signed-greater or equal to rb. -/
  | bge (c : Core) (ra rb : BitVec 5) (off : BitVec 13)
  /-- BLTU (R64): Branches if ra is unsigned-less than rb. -/
  | bltu (c : Core) (ra rb : BitVec 5) (off : BitVec 13)
  /-- BGEU (R64): Branches if ra is unsigned-greater or equal to rb. -/
  | bgeu (c : Core) (ra rb : BitVec 5) (off : BitVec 13)
  /-- BFLT (R47): Branches if ra is binary32-less than rb. -/
  | bflt (c : Core) (ra rb : BitVec 5) (off : BitVec 13)
  /-- BFGE (R47): Branches if ra is binary32-greater or equal to rb. -/
  | bfge (c : Core) (ra rb : BitVec 5) (off : BitVec 13)
  /-- BEQI (R64): Branches if ra equals an immediate. -/
  | beqi (c : Core) (ra simm : BitVec 5) (off : BitVec 13)
  /-- BNEI (R64): Branches if ra differs from an immediate. -/
  | bnei (c : Core) (ra simm : BitVec 5) (off : BitVec 13)
  /-- BLTI (R64): Branches if ra is signed-less than an immediate. -/
  | blti (c : Core) (ra simm : BitVec 5) (off : BitVec 13)
  /-- BGEI (R64): Branches if ra is signed-greater or equal to an immediate. -/
  | bgei (c : Core) (ra simm : BitVec 5) (off : BitVec 13)
  /-- BLTUI (R64): Branches if ra is unsigned-less than an immediate. -/
  | bltui (c : Core) (ra simm : BitVec 5) (off : BitVec 13)
  /-- BGEUI (R64): Branches if ra is unsigned-greater or equal to an immediate. -/
  | bgeui (c : Core) (ra simm : BitVec 5) (off : BitVec 13)
  /-- CALL (R66): Pushes the return index and jumps to the target. -/
  | call (c : Core) (target : BitVec 12)
  /-- RET (R66): Pops the return stack and continues there. -/
  | ret (c : Core)
  /-- CALLR (R66): Checks the register target, pushes the return index and jumps. -/
  | callr (c : Core) (ra : BitVec 5)
  /-- JR (R66): Checks the register target and jumps. -/
  | jr (c : Core) (ra : BitVec 5)
  /-- LDW (R67): Loads a word from local memory, merging from the store buffer. -/
  | ldw (c : Core) (wide : Bool) (rd ra : BitVec 5) (simm : BitVec 13)
  /-- LDH (R67): Loads a sign-extended halfword from local memory. -/
  | ldh (c : Core) (rd ra : BitVec 5) (simm : BitVec 13)
  /-- LDHU (R67): Loads a zero-extended halfword from local memory. -/
  | ldhu (c : Core) (rd ra : BitVec 5) (simm : BitVec 13)
  /-- LDB (R67): Loads a sign-extended byte from local memory. -/
  | ldb (c : Core) (rd ra : BitVec 5) (simm : BitVec 13)
  /-- LDBU (R67): Loads a zero-extended byte from local memory. -/
  | ldbu (c : Core) (rd ra : BitVec 5) (simm : BitVec 13)
  /-- STW (R68): Places a local word store in the store buffer. -/
  | stw (c : Core) (wide : Bool) (rs ra : BitVec 5) (simm : BitVec 13)
  /-- STH (R68): Places a local halfword store in the store buffer. -/
  | sth (c : Core) (rs ra : BitVec 5) (simm : BitVec 13)
  /-- STB (R68): Places a local byte store in the store buffer. -/
  | stb (c : Core) (rs ra : BitVec 5) (simm : BitVec 13)
  /-- LDS (R98): Loads a word from shared memory in the engine's read phase. -/
  | lds (c : Core) (rd ra : BitVec 5) (simm : BitVec 13)
  /-- LDSH (R98): Loads a sign-extended halfword from shared memory. -/
  | ldsh (c : Core) (rd ra : BitVec 5) (simm : BitVec 13)
  /-- LDSHU (R98): Loads a zero-extended halfword from shared memory. -/
  | ldshu (c : Core) (rd ra : BitVec 5) (simm : BitVec 13)
  /-- LDSB (R98): Loads a sign-extended byte from shared memory. -/
  | ldsb (c : Core) (rd ra : BitVec 5) (simm : BitVec 13)
  /-- LDSBU (R98): Loads a zero-extended byte from shared memory. -/
  | ldsbu (c : Core) (rd ra : BitVec 5) (simm : BitVec 13)
  /-- STS (R93): Places a shared word store in the store buffer, or in the hold buffer of a duplicated task. -/
  | sts (c : Core) (rs ra : BitVec 5) (simm : BitVec 13)
  /-- STSH (R93): Places a shared halfword store in the store buffer. -/
  | stsh (c : Core) (rs ra : BitVec 5) (simm : BitVec 13)
  /-- STSB (R93): Places a shared byte store in the store buffer. -/
  | stsb (c : Core) (rs ra : BitVec 5) (simm : BitVec 13)
  /-- LDC (R70): Loads a word through a capability window. -/
  | ldc (c : Core) (rd ra : BitVec 5) (simm : BitVec 13)
  /-- LDCH (R70): Loads a sign-extended halfword through a window. -/
  | ldch (c : Core) (rd ra : BitVec 5) (simm : BitVec 13)
  /-- LDCHU (R70): Loads a zero-extended halfword through a window. -/
  | ldchu (c : Core) (rd ra : BitVec 5) (simm : BitVec 13)
  /-- LDCB (R70): Loads a sign-extended byte through a window. -/
  | ldcb (c : Core) (rd ra : BitVec 5) (simm : BitVec 13)
  /-- LDCBU (R70): Loads a zero-extended byte through a window. -/
  | ldcbu (c : Core) (rd ra : BitVec 5) (simm : BitVec 13)
  /-- STC (R68): Issues a word store through a capability window directly to the resource. -/
  | stc (c : Core) (rs ra : BitVec 5) (simm : BitVec 13)
  /-- STCH (R68): Issues a halfword store through a window. -/
  | stch (c : Core) (rs ra : BitVec 5) (simm : BitVec 13)
  /-- STCB (R68): Issues a byte store through a window. -/
  | stcb (c : Core) (rs ra : BitVec 5) (simm : BitVec 13)
  /-- CMOV (R73): Copies a capability register with its tag. -/
  | cmov (c : Core) (cd cs : BitVec 3)
  /-- CNARROW (R73): Narrows a capability's base and length. -/
  | cnarrow (c : Core) (cd cs : BitVec 3) (ra rb : BitVec 5)
  /-- CPERM (R73): ANDs a capability's permissions. -/
  | cperm (c : Core) (cd cs : BitVec 3) (ra : BitVec 5)
  /-- CCLR (R73): Clears a capability's tag. -/
  | cclr (c : Core) (cd : BitVec 3)
  /-- CLD (R73): Loads a 16-byte granule with its tag into a capability register. -/
  | cld (c : Core) (cd : BitVec 3) (ra : BitVec 5)
  /-- CST (R73): Stores a tagged capability to a granule and sets its tag. -/
  | cst (c : Core) (cs : BitVec 3) (ra : BitVec 5)
  /-- SMP (R74): Reads a sample port into a register. -/
  | smp (c : Core) (rd : BitVec 5) (port : BitVec 3)
  /-- EDGE (R75): Writes an edge-pair field through a capability in its last ec. -/
  | edge (c : Core) (cap : BitVec 3) (index : BitVec 5) (field : BitVec 8) (rs rt : BitVec 5)
  /-- LOOK (R80): Reads and interpolates a one-dimensional Lode table. -/
  | look (c : Core) (rd ra : BitVec 5) (cap : BitVec 3)
  /-- INTERP2 (R301): Reads and interpolates a two-dimensional Lode table. -/
  | interp2 (c : Core) (rd ra : BitVec 5) (cap : BitVec 3)
  /-- INTERP3 (R301): Reads and interpolates a three-dimensional Lode table. -/
  | interp3 (c : Core) (rd ra : BitVec 5) (cap : BitVec 3)
  /-- WALK (R305): Walks a Lode region tree to its declared depth and returns the leaf word. -/
  | walk (c : Core) (rd ra : BitVec 5) (cap nm1 : BitVec 3) (depth : BitVec 5)
  /-- SEND (R82): Places a register value on a board-network route. -/
  | send (c : Core) (reg : BitVec 5) (route : BitVec 8)
  /-- RECV (R82): Reads the message held for a route and marks it read. -/
  | recv (c : Core) (reg : BitVec 5) (route : BitVec 8)
  /-- END (R84): Ends the task. -/
  | endTask (c : Core)
  /-- IFENCE (R72): Discards prefetched instructions. -/
  | ifence (c : Core)
  /-- TIME (R76): Reads the 64-bit Quartz into a register pair. -/
  | time (c : Core) (rd : BitVec 5)
  /-- TIN (R77): Reads a task-input snapshot. -/
  | tin (c : Core) (rd n : BitVec 5)
  /-- SIG (R78): Issues an event with new lineage on the channel a capability names. -/
  | sig (c : Core) (cap : BitVec 3)
  /-- REP (R52): Repeats the following instruction N times with optional register advance. -/
  | rep (c : Core) (rsrc advRb advRa advRd ainc : Bool) (cnt : BitVec 5) (nm1 : BitVec 6)
  /-- WAKE_LEAD (R88): The square opens an engine clock 4 ec before the start slot and loads the start state. -/
  | wakeLead (sq : Fin 64) (idx : Fin 4096) (f : Nat)
  /-- TASK_START (R118): In the first ec of a start slot the square checks, gates and captures inputs, and starts the task. -/
  | taskStart (sq : Fin 64) (idx : Fin 4096) (f : Nat)
  /-- BUDGET_EXPIRY (R58): The overrun guard stops a task whose budget runs out before END. -/
  | budgetExpiry (e : Fin 512)
  /-- LOCAL_STORE_DRAIN (R91): A local store-buffer entry is written to instruction or data memory. -/
  | localStoreDrain (e : Fin 512)
  /-- SHARED_STORE_DRAIN (R92): The oldest shared entry for the write-connected bank is written, with its epoch checked. -/
  | sharedStoreDrain (e : Fin 512)
  /-- WINDOW_STORE_EFFECT (R111): A window store reaches its resource at t + 3 or t + 4 and is judged against the owner. -/
  | windowStoreEffect (k : Nat)
  /-- MESSAGE_LINK_CROSSING (R104): A message crosses one link, with link-direction collisions judged. -/
  | messageLinkCrossing (k : Nat)
  /-- MESSAGE_ARRIVAL (R104): A message arrives and is written to the receive register, or dropped. -/
  | messageArrival (k : Nat)
  /-- SIGNATURE_COMPARE (R398): At ec E the square compares the two copies' signatures. -/
  | signatureCompare (e : Fin 512)
  /-- HOLD_RELEASE (R398): One held effect of ENGINE is released per ec after a match. -/
  | holdRelease (e : Fin 512)
  /-- SNAPSHOT_COPY (R401): The snapshot window copy completes and the slot becomes current. -/
  | snapshotCopy (e : Fin 512)
  /-- FAILOVER_SELF_TEST_DONE (R403): Built-in self-test of both engines completes and the failing one is retired. -/
  | failoverSelfTestDone (sq : Fin 64) (enginePass partnerPass : Bool)
  /-- FAILOVER_LOAD (R403): The reserve and survivor are loaded with memories and snapshots. -/
  | failoverLoad (sq : Fin 64)
  /-- FAILOVER_RETARGET (R403): MAP, both banks' stamps and capability sets are updated and engines enter SERVING. -/
  | failoverRetarget (sq : Fin 64)
  /-- ROTATING_TEST_SEGMENT (R408): A 50-ec self-test segment completes in a gap of an engine. -/
  | rotatingTestSegment (sq : Fin 64) (n : Fin 9) (pass : Bool)
  /-- ROTLATE (R408): An engine's test exceeds 1,000 µs. -/
  | rotlate (sq : Fin 64) (n : Fin 9)
  /-- COMPARE_UNIT_TEST (R410): Every 1,000 µs test values are injected into each compare unit. -/
  | compareUnitTest (failSq : BitVec 64) (failPair : BitVec 5)
  /-- PAIR_FAULT (R412): A supervisor pair mismatch stops the pair and may bring in pair 4. -/
  | pairFault (p : Fin 5) (cause : BitVec 2)
  /-- SPLIT (R413): A PMODE write of split makes the checker an independent core. -/
  | split (j : Fin 4)
  /-- PAIR_REJOIN (R414): A PMODE write rejoins a split pair after the checker is ready. -/
  | pairRejoin (j : Fin 4) (mode : BitVec 2)
  /-- PAIR_REJOIN_COPY_DONE (R414): The state copy into the checker completes and both cores resume. -/
  | pairRejoinCopyDone (j : Fin 4)
  /-- TEST (R415): RDC command running a full self-test of a physical engine. -/
  | test (sq : Fin 64) (n : BitVec 4)
  /-- TEST_DONE (R415): A commanded engine self-test completes with pass or fail. -/
  | testDone (pass : Bool)
  /-- REJOIN (R415): RDC command returning a tested engine as SPARE or serving. -/
  | rejoin (sq : Fin 64) (n : BitVec 4) (src : Bool) (log : Fin 8) (peer : BitVec 4)
  /-- REJOIN_DONE (R415): A rejoin transfer of an engine completes. -/
  | rejoinDone
  /-- REFRESH (R416): RDC command reloading a stale or held square from the image. -/
  | refresh (sq : Fin 64)
  /-- REFRESH_DONE (R416): A refresh completes, stamping the square and clearing SAFE HOLD. -/
  | refreshDone
  /-- TESTPAIR (R415): RDC command self-testing a supervisor pair. -/
  | testpair (p : BitVec 4)
  /-- TESTPAIR_DONE (R415): A pair self-test completes. -/
  | testpairDone (pass : Bool)
  /-- REJOINPAIR (R415): RDC command making a tested pair SPARE. -/
  | rejoinpair (p : BitVec 4)
  /-- WEAR_MEASURE (R419): A wear monitor measures its margin once per second and may warn. -/
  | wearMeasure (i : Fin 66) (slack : BitVec 12)
  /-- START (R133): SCH.CTL START requests a bank start at the origin, or is refused. -/
  | start (who : Initiator) (bank : Bool)
  /-- SWREQ (R134): SCH.CTL SWREQ requests a bank switch at a frame boundary. -/
  | swreq (who : Initiator) (bank : Bool)
  /-- CANCEL (R137): SCH.CTL CANCEL withdraws a pending start or switch. -/
  | cancel (who : Initiator)
  /-- PLAN_ORIGIN (R133): At the origin the started bank becomes active and the device enters RUN. -/
  | planOrigin
  /-- SWITCH_CHECK (R134): In ec B − 4 the switch is checked and committed or refused. -/
  | switchCheck
  /-- FRAME_BOUNDARY (R113): A frame starts; switches, flips and pending mode changes take effect. -/
  | frameBoundary
  /-- GO (R151): SCH.LDCTL GO starts a board-image load. -/
  | go (who : Initiator) (bank : Bool)
  /-- LOAD_ABORT (R154): SCH.LDCTL ABORT stops a load under way with error 0x0C. -/
  | loadAbort (who : Initiator)
  /-- LOAD_COMPLETE (R151): The loader finishes its steps, stamps and validates the bank, or fails. -/
  | loadComplete
  /-- EP_VALUE_WRITE (R171): A value write reaches an edge pair's shadow, on time or late. -/
  | epValueWrite (who : Initiator) (p : Fin 204) (code : Fin 6) (v : Word)
  /-- EP_ORIGIN_WRITE (R166): An origin write arms the carrier, or is discarded once started. -/
  | epOriginWrite (who : Initiator) (p : Fin 204) (part : Fin 3) (v : Word)
  /-- EP_TIMETABLE_WRITE (R175): A timetable write queues, places late or discards an edge. -/
  | epTimetableWrite (e : Fin 512) (n : Fin 192) (field : Fin 4) (v : Word) (fine : Fin 128)
  /-- QPUSH (R175): A supervisor QPUSH write queues an edge at QTIME plus FINE. -/
  | qpush (who : Initiator) (p : Fin 204) (v : Word)
  /-- EP_CTL_WRITE (R190): A CTL write enables or stops the pair, flushing queues and disarming the origin. -/
  | epCtlWrite (who : Initiator) (p : Fin 204) (v : Word)
  /-- LOAD_POINT (R170): At a period start the pair takes its shadows. -/
  | loadPoint (p : Fin 204)
  /-- PEAK_LOAD_POINT (R170): At the peak in up-down mode with LOADPK the pair takes its duties. -/
  | peakLoadPoint (p : Fin 204)
  /-- COMPARE_MATCH (R169): The reference S changes at a compare position of the period. -/
  | compareMatch (p : Fin 204) (b : Bool)
  /-- TIMETABLE_EDGE (R176): A queued edge sets its output at its instant and leaves the queue. -/
  | timetableEdge (p : Fin 204) (b : Bool)
  /-- DEAD_TIME_EXPIRY (R173): An output becomes active when its dead time after an S change ends. -/
  | deadTimeExpiry (p : Fin 204) (b : Bool)
  /-- MAXON_EXPIRY (R180): An output active for MAXON qt becomes inactive. -/
  | maxonExpiry (p : Fin 204) (b : Bool)
  /-- READBACK_MISMATCH (R183): A 16-qt readback mismatch sets RBFAULT and drives the safe state. -/
  | readbackMismatch (p : Fin 204)
  /-- RBFAULT_RELEASE (R183): Writing 1 to RBFAULT releases the pair. -/
  | rbfaultRelease (who : Initiator) (p : Fin 204)
  /-- STEER (R184): A STEER write with ACTIVE = 1 steers a reserve pair. -/
  | steer (who : Initiator) (g : Fin 12) (m : BitVec 4)
  /-- STEER_COMPLETE (R185): The register copy ends and the balls pass to the reserve pair. -/
  | steerComplete (g : Fin 12)
  /-- UNSTEER (R186): A STEER write with ACTIVE = 0 returns the balls outside RUN. -/
  | unsteer (who : Initiator) (g : Fin 12)
  /-- SWTRIG (R198): CV CTL SWTRIG presents a software trigger. -/
  | swtrig (who : Initiator) (c : Fin 64)
  /-- ARM (R199): A write of ARM or TRIGF arms or disarms the timed trigger. -/
  | arm (who : Initiator) (c : Fin 64) (trigf : Bool) (v : Word)
  /-- CONVERTER_DISABLE (R202): A write of EN = 0 ends the scan and clears ARM. -/
  | converterDisable (who : Initiator) (c : Fin 64)
  /-- TIMED_TRIGGER (R198): A timed trigger instant is presented 8 qt ahead and accepted or overrun. -/
  | timedTrigger (c : Fin 64)
  /-- SCAN_START (R201): A scan begins at its sample instant with settings latched. -/
  | scanStart (c : Fin 64)
  /-- POSITION_DELIVERY (R207): A scan position's result goes to bound sample ports and LAST. -/
  | positionDelivery (c : Fin 64) (v : BitVec 32)
  /-- SCAN_END (R201): The scan ends and sends the scan-end event. -/
  | scanEnd (c : Fin 64)
  /-- HANDOVER_DUE (R210): A spare-slice hand-over becomes due ROTINT µs after the last. -/
  | handoverDue (g : Fin 8)
  /-- HANDOVER_COMPARE (R211): The two slices' codes of one position are compared. -/
  | handoverCompare (c : Fin 64) (a b : BitVec 32)
  /-- UNCHECKED_HANDOVER (R213): With no scan in ROTINT µs the hand-over is made without comparison. -/
  | uncheckedHandover (g : Fin 8)
  /-- CALIBRATION_DONE (R215): A slice calibration completes or fails: whether its corrections fit the fields of SL.CAL,
  and what they are there. -/
  | calibrationDone (n : Fin 72) (fits : Bool) (offs gainc : BitVec 16)
  /-- COMPARATOR_ASSERT (R229): The raw comparator output asserts on a threshold crossing. -/
  | comparatorAssert (c : Fin 204) (v : BitVec 32)
  /-- COMPARATOR_RELEASE (R229): The raw output releases past the hysteresis. -/
  | comparatorRelease (c : Fin 204) (v : BitVec 32)
  /-- BLANKING_END (R233): A blanking window ends and held outputs follow the raw output. -/
  | blankingEnd (c : Fin 204)
  /-- CMP_STEER (R236): A STEER write steers a reserve comparator. -/
  | cmpSteer (who : Initiator) (g : Fin 12) (m : BitVec 4)
  /-- CMP_STEER_COMPLETE (R237): The copy ends and the reserve serves the logical comparator. -/
  | cmpSteerComplete (g : Fin 12)
  /-- CMP_UNSTEER (R238): A STEER write with ACTIVE = 0 unsteers outside RUN. -/
  | cmpUnsteer (who : Initiator) (g : Fin 12)
  /-- NET_TRIP (R240): An enabled routed source asserts and its net trips. -/
  | netTrip (src : Fin 388)
  /-- NET_RELEASE (R245): A write to RELL or RELH releases a LATCH net if no source is asserted. -/
  | netRelease (who : Initiator) (k : Fin 64)
  /-- FOLLOW_RELEASE (R246): A FOLLOW net releases after HOLD qt without a source. -/
  | followRelease (k : Fin 64)
  /-- SWTRIP (R239): FLT.SWTRIP GO asserts source 386 for one ec. -/
  | swtrip (who : Initiator)
  /-- TDATA (R244): A routing-table write, discarded in RUN. -/
  | tdata (who : Initiator) (i : BitVec 10) (v : Word)
  /-- DECIMATION_BOUNDARY (R264): At a boundary the sinc filter result is written with SEQ and event. -/
  | decimationBoundary (i : Fin 64) (bs : BitVec 1024)
  /-- STUCK_DETECTED (R266): STUCKN equal samples of an input, with their level, set STUCK and raise a safety event. -/
  | stuckDetected (input : Fin 64 × Bool)
  /-- FAST_TRIP_ASSERT (R267): The fast-trip filter count crosses a threshold and asserts. -/
  | fastTripAssert (i : Fin 64) (bs : BitVec 32)
  /-- FAST_TRIP_RELEASE (R267): The fast-trip filter releases. -/
  | fastTripRelease (i : Fin 64) (bs : BitVec 32)
  /-- TRANSITION_ACCEPTED (R270): A line level held FILT + 1 qt is accepted and decoded. -/
  | transitionAccepted (p : Fin 24) (lines : BitVec 3)
  /-- FRAME_START (R276): A synchronous-serial frame starts on its period or an event. -/
  | frameStart (p : Fin 24)
  /-- FRAME_COMPLETE (R278): After its last sample a frame is checked and sets the position. -/
  | frameComplete (p : Fin 24) (bs : BitVec 40) (high : Bool)
  /-- SPEED_COMPUTE (R280): At each SPWIN tick the interface computes the speed. -/
  | speedCompute (p : Fin 24)
  /-- COUNT (R283): A write to POS COUNT sets the position, refused in serial mode. -/
  | count (who : Initiator) (p : Fin 24) (v : Word)
  /-- DESCRIPTOR_WRITE (R297): A Lode descriptor word write, checked when W0 is written. -/
  | descriptorWrite (who : Initiator) (d : BitVec 12) (i : Fin 8) (v : Word)
  /-- FLIP (R306): A write of 1 to FLIP requests a half flip. -/
  | flip (who : Initiator) (d : BitVec 12)
  /-- EVENT_DELIVERY (R316): An event carried by a channel reaches its bound consumers 2 or 3 ec later. -/
  | eventDelivery
  /-- CDATA (R324): A consumer-entry write, discarded where the plan owns it. -/
  | cdata (who : Initiator) (i : BitVec 8) (v : Word)
  /-- LINK_ENABLE (R337): Writing EN = 1 puts a driver link in TRAIN. -/
  | linkEnable (who : Initiator) (d : Fin 64) (v : Word)
  /-- LINK_DISABLE (R337): Writing EN = 0 puts the link in OFF. -/
  | linkDisable (who : Initiator) (d : Fin 64) (v : Word)
  /-- RETRAIN (R337): Writing RETRAIN leads to TRAIN with cause 5. -/
  | retrain (who : Initiator) (d : Fin 64) (v : Word)
  /-- SYMBOLS_VALID (R337): 64 consecutive valid symbols send DREQ in TRAIN or retrain from LOST. -/
  | symbolsValid (d : Fin 64)
  /-- TRAINING_TIMEOUT (R337): A link not UP within 2 ms enters LOST. -/
  | trainingTimeout (d : Fin 64)
  /-- RECEIVE_TIMEOUT (R347): RXTO without a valid frame declares loss. -/
  | receiveTimeout (d : Fin 64)
  /-- STATUS (R339): A received STATUS frame gives a delay echo and partner state. -/
  | status (d : Fin 64) (tag stat : BitVec 8) (turn : BitVec 16) (t2 : Nat)
  /-- FAULT (R348): A received FAULT frame sets FAULTACT, records and sends the fault event. -/
  | fault (d : Fin 64) (code : BitVec 6) (chan : BitVec 2) (tick : BitVec 24) (fine : BitVec 7)
  /-- DESC (R338): A received partner descriptor is accepted or refused. -/
  | desc (d : Fin 64) (v : BitVec 256)
  /-- HB_READY (R341): At each HBPER multiple an HB frame becomes ready, or the previous is dropped. -/
  | hbReady (d : Fin 64)
  /-- EDGE_FRAME (R344): An EDGE frame departs at a symbol boundary carrying pending edges. -/
  | edgeFrame (d : Fin 64)
  /-- FLUSH (R346): A FLUSH frame departs after a termination or on-time limit. -/
  | flush (d : Fin 64)
  /-- TRIP (R345): A TRIP frame departs when the bound pair enters its safe state. -/
  | trip (d : Fin 64)
  /-- RELEASE (R345): A RELEASE frame departs when the pair leaves its safe state. -/
  | release (d : Fin 64)
  /-- HB (R341): An HB frame departs with TIME, CABLE and TAG. -/
  | hb (d : Fin 64)
  /-- DREQ (R337): A DREQ frame departs requesting the descriptor. -/
  | dreq (d : Fin 64)
  /-- BC (R362): Supervisor conditional branch on flags. -/
  | bc (k : Fin 10) (cond : BitVec 4) (off : BitVec 22)
  /-- CALLS (R362): Supervisor relative call writing s31. -/
  | calls (k : Fin 10) (off : BitVec 26)
  /-- COPYB (R372): Supervisor block copy, interruptible. -/
  | copyb (k : Fin 10) (rd ra rb : BitVec 5) (upTo : Nat)
  /-- FILLB (R372): Supervisor block fill. -/
  | fillb (k : Fin 10) (rd ra rb : BitVec 5) (upTo : Nat)
  /-- CRCB (R372): Supervisor CRC-32 over a block. -/
  | crcb (k : Fin 10) (rd ra rb : BitVec 5) (upTo : Nat)
  /-- CAS (R372): Supervisor atomic compare-and-swap in shared SRAM. -/
  | cas (k : Fin 10) (rd ra rb : BitVec 5)
  /-- MOVK (R362): Supervisor insert of a 16-bit immediate. -/
  | movk (k : Fin 10) (rd : BitVec 5) (imm : BitVec 16) (hw : BitVec 2)
  /-- ISYNC (R371): Drains the store buffer and discards prefetched instructions. -/
  | isync (k : Fin 10)
  /-- SYNC (R363): Waits until the store buffer is empty. -/
  | sync (k : Fin 10)
  /-- RETX (R380): Returns from an entry, never gaining privilege. -/
  | retx (k : Fin 10)
  /-- GATE (R377): Enters a gate handler at a lower ring. -/
  | gate (k : Fin 10) (n : BitVec 15)
  /-- RDSR (R360): Reads a system register. -/
  | rdsr (k : Fin 10) (rd : BitVec 5) (sr : BitVec 10)
  /-- WRSR (R360): Writes a system register. -/
  | wrsr (k : Fin 10) (ra : BitVec 5) (sr : BitVec 10)
  /-- WAIT (R363): Stops issue until an interrupt can be taken. -/
  | wait (k : Fin 10)
  /-- TRAP (R363): Takes exception 0x0C with code n. -/
  | trap (k : Fin 10) (n : BitVec 15)
  /-- CMINT (R383): Ring-0 creation of a capability. -/
  | cmint (k : Fin 10) (cd : BitVec 3) (ra rb : BitVec 5)
  /-- REPI (R373): Interruptible supervisor repeat counting down a register. -/
  | repi (k : Fin 10) (ainc : Bool) (cnt : BitVec 5) (upTo : Nat)
  /-- REPN (R373): Uninterruptible supervisor repeat of up to 64 bodies. -/
  | repn (k : Fin 10) (rsrc ainc : Bool) (cnt : BitVec 5) (nm1 : BitVec 6)
  /-- INTERRUPT_ENTRY (R385): A core takes a pending enabled interrupt and enters its handler. -/
  | interruptEntry (k : Fin 10)
  /-- SUP_STORE_DRAIN (R370): A supervisor store-buffer entry drains to memory or a device. -/
  | supStoreDrain (k : Fin 10)
  /-- DOORBELL (R392): Writing RING pends the core's doorbell interrupt; ACK clears it. -/
  | doorbell (who : Initiator) (k : Fin 10) (ring ack : Bool)
  /-- DMA_GO (R387): CTL GO starts a DMA transfer or sets OVR. -/
  | dmaGo (who : Initiator) (m : Fin 32)
  /-- DMA_ELEMENT (R387): One element moves; at LEN 0 the transfer completes. -/
  | dmaElement (m : Fin 32)
  /-- WIPE (R429): A wipe poisons every listed SRAM and completes within 3 ms. -/
  | wipe
  /-- SCRUB_VISIT (R440): The scrubber reads one word after PACE idle cycles and corrects it. -/
  | scrubVisit (m : Fin 2048)
  /-- VALID (R437): Writing RDATA VALID starts a remap of ROW. -/
  | valid (who : Initiator) (row : BitVec 12)
  /-- REMAP_COMPLETE (R437): The row copy ends and the entry becomes valid. -/
  | remapComplete (m : Fin 2048) (x : Fin 8)
  /-- INJ (R442): Arms error injection into the next write to a macro in SERVICE. -/
  | inj (who : Initiator) (v : Word)
  /-- SEQUENCE_WRITE (R448): A key, command or operand write of a flash command sequence. -/
  | sequenceWrite (by_ : Fin 42) (bank : Bool) (off : BitVec 27) (v : Word)
  /-- SEQUENCE_TIMEOUT (R448): More than 40 bc between sequence writes closes the sequence. -/
  | sequenceTimeout (bank : Bool)
  /-- PROGRAM_WORD (R454): Programs one flash word. -/
  | programWord (by_ : Fin 42) (bank : Bool) (word : BitVec 22) (data : BitVec 256)
  /-- PROGRAM_BUFFER (R455): Programs N words of one 1 KiB page. -/
  | programBuffer (by_ : Fin 42) (bank : Bool) (word : BitVec 22) (n : BitVec 5) (data : BitVec 8192)
  /-- ERASE_SECTOR (R457): Erases a sector with marker protection. -/
  | eraseSector (by_ : Fin 42) (bank : Bool) (sector : BitVec 10)
  /-- ERASE_SUSPEND (R458): Suspends an erase. -/
  | eraseSuspend (by_ : Fin 42) (bank : Bool)
  /-- ERASE_RESUME (R458): Resumes a suspended erase. -/
  | eraseResume (by_ : Fin 42) (bank : Bool)
  /-- CASTLE (R464): Programs generation bits to make this bank's boot block active. -/
  | castle (by_ : Fin 42) (bank : Bool)
  /-- BLANK_CHECK (R449): Checks whether a sector is erased. -/
  | blankCheck (by_ : Fin 42) (bank : Bool) (sector : BitVec 10)
  /-- READ_STATUS (R449): Makes the next read return the bank status. -/
  | readStatus (by_ : Fin 42) (bank : Bool)
  /-- CLEAR_STATUS (R449): Clears the bank's W1C status fields. -/
  | clearStatus (by_ : Fin 42) (bank : Bool)
  /-- LOCK_SECTOR (R470): Permanently locks a sector. -/
  | lockSector (by_ : Fin 42) (bank : Bool) (sector : BitVec 10)
  /-- OPTION_PROGRAM (R469): Programs an option row by clearing bits. -/
  | optionProgram (by_ : Fin 42) (bank : Bool) (row : BitVec 7) (data : BitVec 256)
  /-- ABORT (R459): Stops the bank's flash operation within 20 µs. -/
  | abort (by_ : Fin 42) (bank : Bool)
  /-- FLASH_OPERATION_DONE (R449): A flash operation ends, clearing BUSY and setting DONE. -/
  | flashOperationDone (bank : Bool) (bad : Option (Fin 32))
  /-- SECTOR_REPLACEMENT (R460): An erase not verified in 200 ms brings in a spare sector. -/
  | sectorReplacement (bank : Bool)
  /-- HOST_READ (R482): A PCI Express read request from the host. -/
  | hostRead (bar : Fin 4) (off : BitVec 32) (n : Fin 513)
  /-- HOST_WRITE (R482): A PCI Express write request from the host. -/
  | hostWrite (bar : Fin 3) (off : BitVec 32) (n : Fin 257) (data : BitVec 2048)
  /-- SPI_READ (R479): An SPI target transaction with command 0x0B. -/
  | spiRead (cmd : BitVec 8) (addr : BitVec 32) (n : Fin 257)
  /-- SPI_WRITE (R479): An SPI target transaction with command 0x02. -/
  | spiWrite (addr : BitVec 32) (n : Fin 257) (data : BitVec 2048)
  /-- HOST_READ_TIMEOUT (R482): A remote read unanswered within 32 µs completes with an error. -/
  | hostReadTimeout
  /-- POST (R485): The writer publishes a mailbox result. -/
  | post (who : Initiator) (m : BitVec 8) (len : BitVec 6)
  /-- SNAPSHOT (R486): A reader's read including byte 0 snapshots and consumes a mailbox. -/
  | snapshot (who : Initiator) (m : BitVec 8)
  /-- NUMCMD (R501): NUMCMD GO sends NUMSET to the UID in UIDL and UIDH. -/
  | numcmd (who : Initiator) (num : BitVec 6)
  /-- HELLO (R493): A received HELLO updates neighbour, role, routes and conflicts. -/
  | hello (p : Fin 4) (num : BitVec 6) (dist port flags : BitVec 8) (sub tree : BitVec 64) (claims : Bool)
  /-- HELLO_SEND (R493): Each UP port sends HELLO at least every 500 ns. -/
  | helloSend (p : Fin 4)
  /-- RDREQ (R492): A received remote read request. -/
  | rdreq (p : Fin 4) (dst : BitVec 8) (src : BitVec 6) (hops : BitVec 8) (tag : BitVec 16) (off : BitVec 40) (n : Fin 257)
  /-- RDCPL (R492): A received read completion. -/
  | rdcpl (p : Fin 4) (dst : BitVec 8) (src : BitVec 6) (hops : BitVec 8) (tag : BitVec 16) (status : BitVec 8) (n : Fin 257) (data : BitVec 2048)
  /-- WR (R492): A received remote write. -/
  | wr (p : Fin 4) (dst : BitVec 8) (src : BitVec 6) (hops : BitVec 8) (tag : BitVec 16) (off : BitVec 40) (n : Fin 257) (data : BitVec 2048)
  /-- IRQ (R492): A received MSI-X vector forwarded to the root. -/
  | irq (p : Fin 4) (dst : BitVec 8) (src : BitVec 6) (hops : BitVec 8) (tag : BitVec 16) (vec : BitVec 16)
  /-- SYNC_EXCHANGE (R497): Every 10,000 qt a non-root device sends SYNCREQ. -/
  | syncExchange (lag : BitVec 16)
  /-- SYNCREQ (R497): A received SYNCREQ is stamped and answered with SYNCRESP. -/
  | syncreq (p : Fin 4) (num : BitVec 16) (t2 : BitVec 71) (turn : Nat)
  /-- SYNCRESP (R497): A received SYNCRESP yields the rack offset, trims, steps or locks Quartz. -/
  | syncresp (p : Fin 4) (num : BitVec 16) (t2 t3 t4 : BitVec 71) (roff : BitVec 32) (rlock : Bool)
  /-- EXCHANGE_MISSED (R32): No SYNCRESP by T1 + 2,500 qt; four misses enter HOLDOVER. -/
  | exchangeMissed
  /-- RESET (R496): A received RESET frame asserts a Gedan remote reset if enabled. -/
  | reset (p : Fin 4) (dst : BitVec 8) (src : BitVec 6) (hops : BitVec 8) (tag : BitVec 16)
  /-- WAKE (R496): A received WAKE frame or burst wakes a neighbour. -/
  | wake (p : Fin 4) (dst : BitVec 8) (src : BitVec 6) (hops : BitVec 8)
  /-- NUMSET (R495): A received NUMSET assigns a new device number. -/
  | numset (p : Fin 4) (src : BitVec 6) (hops : BitVec 8) (uid : BitVec 64) (num : BitVec 6)
  /-- CONFLICT (R495): A received CONFLICT frame sets CONFLICT. -/
  | conflict (p : Fin 4) (dst : BitVec 8) (src : BitVec 6) (hops : BitVec 8) (tag : BitVec 16) (num : BitVec 6)
  /-- PORT_TIMEOUT (R494): A port without valid frames for 2 µs enters LOST and routes recompute. -/
  | portTimeout (p : Fin 4)
  /-- LANE_FAILURE (R490): A failed lane moves to the spare lane or takes the port LOST. -/
  | laneFailure (p : Fin 4) (lane : Bool)
  /-- ALARM_FIRE (R26): An armed alarm fires when Quartz equals its target. -/
  | alarmFire (a : Fin 8)
  /-- ALMXC (R27): An alarm control write arms it; a past target fires late next ec. -/
  | almxc (who : Initiator) (a : Fin 8) (v : Word)
  /-- LOADID (R508): MSR GO with OP LOADID requests load identification. -/
  | loadid (who : Initiator) (target : BitVec 8) (timed irqen : Bool)
  /-- TDR (R511): MSR GO with OP TDR requests reflectometry. -/
  | tdr (who : Initiator) (target : BitVec 8) (timed irqen tlink : Bool) (line : BitVec 2)
  /-- ENCTYPE (R512): MSR GO with OP ENCTYPE requests encoder classification. -/
  | enctype (who : Initiator) (target : BitVec 8) (timed irqen : Bool)
  /-- MEASUREMENT_START (R506): At Ts MSR checks conditions and starts the measurement. -/
  | measurementStart
  /-- LOADID_SAMPLE (R508): MSR presents a LOADID converter trigger and takes its result. -/
  | loadidSample
  /-- LOADID_END (R509): At Ts + TON + TOFF MSR disables the pair and fits l and r. -/
  | loadidEnd
  /-- TDR_DONE (R511): A reflectometry run completes with its results. -/
  | tdrDone (rtt : List (Fin 65536)) (mv : List Int)
  /-- ENCTYPE_DONE (R512): An encoder classification completes. -/
  | enctypeDone (seen : EncSeen) (levels : BitVec 3)
  /-- MEASUREMENT_ABORT (R507): MSR CTL ABORT ends a measurement with error 0x7. -/
  | measurementAbort (who : Initiator)
  /-- RAIL_CONVERSION (R504): Every 4 bc MSR converts the next supply rail. -/
  | railConversion (v : BitVec 12)
  /-- SWITCH_OVER (R516): VMAIN out of range for 200 ns switches the supply to VBKP. -/
  | switchOver
  /-- SWITCH_BACK (R517): VMAIN qualified for 10 ms switches the supply back. -/
  | switchBack
  /-- SUPPLY_OUT_OF_RANGE (R518): Source 384 asserts when no supply or a rail is in range. -/
  | supplyOutOfRange (what : Fin 13)
  /-- BROWN_OUT (R518): VHOLD below 8.0 V asserts the brown-out reset. -/
  | brownOut
  /-- SENSOR_OVERCURRENT (R519): A sensor supply in current limit for 1 ms switches off. -/
  | sensorOvercurrent (which : Bool)
  /-- PHASE_FAILURE (R520): A regulator phase fails and the spare phase replaces it. -/
  | phaseFailure (k : Fin 8)
  /-- DOMEN (R523): A DOMEN write powers domains on or off. -/
  | domen (who : Initiator) (v : Word)
  /-- DOMAIN_POWERED (R523): A switched domain finishes powering and is released. -/
  | domainPowered
  /-- MODE_REQUEST (R526): PMU.MODEREQ GO requests a mode transition. -/
  | modeRequest (who : Initiator) (mode : BitVec 4)
  /-- MODE_TRANSITION_DONE (R525): A timed mode transition completes. -/
  | modeTransitionDone
  /-- FORCEBKP (R536): A FORCEBKP write forces or ends use of VBKP. -/
  | forcebkp (who : Initiator) (v : Bool)
  /-- WAKE_PIN (R528): WAKE held low for 4 bc wakes the device. -/
  | wakePin
  /-- WAKE_TIMER (R528): The Bedrock timer expires and wakes the device. -/
  | wakeTimer
  /-- WAKE_BURST (R528): A Gedan wake burst on lane 0 wakes the device. -/
  | wakeBurst (p : Fin 4)
  /-- CLOCK_MONITOR_FAIL (R532): Engine clock loss asserts Flint source 385. -/
  | clockMonitorFail
  /-- CLOCK_MONITOR_RELEASE (R532): After 1,250 qt of lock source 385 releases. -/
  | clockMonitorRelease
  /-- REFLOST (R532): Loss of the reference oscillator is flagged. -/
  | reflost
  /-- UNLOCK (R532): The supervisor or link PLL loses lock. -/
  | unlock (link : Bool)
  /-- POWER_ON (R538): VAON rising resets every domain. -/
  | powerOn (main bkp : Bool)
  /-- RESETN (R538): RESETN low for 1 µs resets every domain except AON. -/
  | resetn
  /-- WATCHDOG_EXPIRY (R541): The watchdog reaching 0 asserts the watchdog reset. -/
  | watchdogExpiry
  /-- WDKICK (R541): A WDKICK write reloads the watchdog or resets the device. -/
  | wdkick (who : Initiator) (v : Word)
  /-- SWRST (R542): A keyed SWRST write asserts the software global reset. -/
  | swrst (who : Initiator) (v : Word)
  /-- DEBUG_RESET (R538): A DBG request resets the device in permitted states. -/
  | debugReset
  /-- RESET_HOLD_END (R538): After 16 bc the reset ends and OPTION LOAD begins. -/
  | resetHoldEnd (bootsel : Bool)
  /-- OPTION_LOAD_DONE (R543): Option load completes and the device enters BRING-UP. -/
  | optionLoadDone (bad : BitVec 136) (badLife : Bool)
  /-- DOMAIN_RELEASE (R545): After each gap the next domain leaves reset. -/
  | domainRelease
  /-- BOOT_VERIFICATION_DONE (R548): Boot verification ends and logical pair 0 starts or is held. -/
  | bootVerificationDone
  /-- CSTART (R551): A CSTART write starts a logical supervisor pair. -/
  | cstart (who : Initiator) (v : BitVec 4)
  /-- BLKCTL (R552): BLKCTL GO starts a single-block reset. -/
  | blkctl (who : Initiator) (v : Word)
  /-- BLOCK_RESET_DONE (R552): The block idles or times out and is reset. -/
  | blockResetDone (idle : Bool)
  /-- LCS_CMD (R554): A keyed LCS.CMD write starts a life-cycle change. -/
  | lcsCmd (who : Initiator) (v : Word)
  /-- LIFE_CYCLE_RESET (R553): The life-cycle change completes and asserts its reset. -/
  | lifeCycleReset
  /-- ESCALATION_RESET (R560): 4 bc after an ACT 0b11 event the escalation reset asserts. -/
  | escalationReset
  /-- SAFEN_LOW (R565): SAFEN low for 8 ec raises a class-14 event. -/
  | safenLow
  /-- ACK (R563): A ring-0 ACK write clears ESC if allowed. -/
  | ack (who : Initiator)
  /-- SWEV (R577): SWEV GO raises a class-15 event. -/
  | swev (who : Initiator)
  /-- TXDATA (R595): A general-port transmit byte write is queued or discarded. -/
  | txdata (who : Initiator) (port : Fin 10) (v : Word)
  /-- BYTE_DONE (R595): A general port completes a byte transfer or receives a byte. -/
  | byteDone (port : Fin 10) (sent : Bool) (byte : Option (BitVec 8)) (errs : BitVec 3) (alert : Bool)
  /-- GPIO_INTERRUPT (R595): A GPIO pin meets its interrupt condition and sets IFLAG. -/
  | gpioInterrupt (pin : Fin 96) (level : Bool)
  /-- EXTEST (R605): A boundary-scan instruction takes control of the balls where allowed. -/
  | extest (on : Bool)
  /-- REGISTER_WRITE (R4): A write to a register with no row of its own acts by field type. -/
  | registerWrite (who : Initiator) (addr : BitVec 40) (v : Word)
  /-- PLL_LOCK (R530): A PLL reaches lock after the CLK domain is released, so Quartz counts, the root reports LOCK and option load may begin. -/
  | pllLock (which : Fin 3)
  /-- SUPPLY_RETURN (R518): A supply or monitored rail comes back within its range, so source 384 releases and the qualification of VMAIN under R517 starts. -/
  | supplyReturn (what : Fin 13)
  /-- VBKP_LOSS (R517): VBKP leaves its range while the device runs from it and VMAIN is in range but not qualified, so the device switches to VMAIN at once. -/
  | vbkpLoss
  /-- SAFEN_EDGE (R565): The SAFEN ball changes level: a fall starts the 8-ec interval and a rise ends it and clears SAFENLOW. -/
  | safenEdge (level : Bool)
  /-- DOMAIN_POWER_REMOVED (R523): A domain cleared in DOMEN loses its power within 100 µs, losing its state and making its squares STALE. -/
  | domainPowerRemoved
  /-- ERASE_SUSPENDED (R458): A running erase stops and SUSP sets, within 20 µs of ERASE SUSPEND. -/
  | eraseSuspended (bank : Bool)
  /-- GEDAN_PORT_UP (R493): A Gedan port completes training and enters UP, gaining its lanes and starting HELLO. -/
  | gedanPortUp (p : Fin 4)
  /-- PCIE_LINK_CHANGE (R480): The PCI Express link enters or leaves L0, changing LINKUP and whether the device is the root. -/
  | pcieLinkChange (up : Bool)
  /-- SPI_ROOT_LAPSE (R480): One second passes without a valid SPI target command, so a device without an L0 link stops being the root. -/
  | spiRootLapse
  /-- DEBUG_HALT (R384): A debug halt request or breakpoint makes a supervisor core take vector 0x0D and enter the debug-halted state. -/
  | debugHalt (k : Fin 10)
  /-- DEBUG_ACCESS (R555): The debug port reads or writes memory or registers, with the refusals of R430, R434 and R452. -/
  | debugAccess (write : Bool) (addr : BitVec 40) (size : Fin 4) (data : BitVec 64)
  /-- DLK_FRAME_DISCARD (R332): A driver-link frame arrives with a CRC or code error, a reserved type, or is cut short by K27.7, and is discarded and counted in FERRCNT. -/
  | dlkFrameDiscard (d : Fin 64)
  /-- GEDAN_FRAME_DISCARD (R491): A Gedan frame arrives with a CRC or code error, a reserved type or HOPS at 64, and is discarded and counted in FCRC. -/
  | gedanFrameDiscard (p : Fin 4)
  deriving DecidableEq, Repr

end Sys2Proof
end

