-- ==== Sys2Proof/Decode.lean ====
section
/-! DEFINITION. The command that a word spells. The spec's command table gives no row any bits, so no word spells one. The words of
lane-engine instructions, which a repeat prefix reads as data, are decoded and encoded in Machine/Encoding.lean. -/

namespace Sys2Proof

/-- The command that a word spells by the table's bits: none, since no row of the table has bits. [DESIGN CHOICE, log entry 4] -/
def decodeTableWord (_nbits _w : Nat) : Option Instr := none

end Sys2Proof
end

