-- ==== Sys2Proof/Machine/Regs.lean ====
section
/-! DEFINITION. The register map: every register of the field tables of spec/02 to spec/26, its reset value, the access
masks of its field types (R4), its number of instances, its place in the 40-bit physical map (R579 to R595), and one
name per field. -/

namespace Sys2Proof.Machine

/-- The registers of the block. A register that a selector reaches (FLT.TDATA, LOD.DDATA, EVF.CDATA, SUP.IDATA,
RDC.WDATA, MEM.RDATA, HIF.APER, MSR.SDATA, SAF.CCNT) has one instance per selected entry. -/
inductive Reg where
  | QTZ_ALMC
  | QTZ_STATUS
  | QTZ_CTL
  | QTZ_OFFSET
  | QTZ_TRIM
  | QTZ_MISSCNT
  | SQ_FENCED
  | SQ_PORTSTAT
  | SQ_ROUTESTAT
  | SQ_ABORT
  | SQ_ABORTL
  | SQ_ABORTH
  | SQ_ABORTCNT
  | SCH_CTL
  | SCH_STATUS
  | SCH_BANKA
  | SCH_BANKB
  | SCH_GENA
  | SCH_GENB
  | SCH_ORIGINL
  | SCH_ORIGINH
  | SCH_FRAMEL
  | SCH_FRAMEH
  | SQ_SLOTSTAT
  | SQ_EPOCH
  | SQ_PLANEPOCH
  | SCH_LDSRCL
  | SCH_LDSRCH
  | SCH_LDCTL
  | SCH_LDSTAT
  | SCH_LDERR
  | EP_CTL
  | EP_PERIOD
  | EP_DUTYA
  | EP_DUTYB
  | EP_DTRISE
  | EP_DTFALL
  | EP_MAXON
  | EP_ORIGINL
  | EP_ORIGINH
  | EP_ORIGINF
  | EP_CNT
  | EP_QTIME
  | EP_QPUSH
  | EP_QSTAT
  | EP_STAT
  | EP_COUNT
  | EP_STEER
  | CV_CTL
  | CV_SCAN
  | CV_GAIN
  | CV_FRONT
  | CV_TRIGL
  | CV_TRIGH
  | CV_TRIGF
  | CV_TPER
  | CV_EVDLY
  | CV_USCALE
  | CV_UOFF
  | CV_LAST
  | CV_STAT
  | CV_COUNT
  | CV_ROT
  | CV_ROTSTAT
  | SL_STAT
  | SL_CAL
  | SQ_SPSTAT
  | CMP_CTL
  | CMP_HI
  | CMP_LO
  | CMP_HYST
  | CMP_RAMP
  | CMP_BLANK
  | CMP_STAT
  | CMP_COUNT
  | CMP_STEER
  | FLT_TSEL
  | FLT_STAT
  | FLT_NETL
  | FLT_NETH
  | FLT_RELL
  | FLT_RELH
  | FLT_SWTRIP
  | FLT_FIRST
  | FLT_FIRSTL
  | FLT_FIRSTH
  | FLT_TRIPCNT
  | FLT_SRCE
  | FLT_PAIRE
  | FLT_NETE
  | SDI_CTL
  | SDI_FTRIP
  | SDI_STUCK
  | SDI_RESULT
  | SDI_RSTAT
  | SDI_STAT
  | SDI_COUNT
  | SDI_CLK
  | POS_CTL
  | POS_COUNT
  | POS_RANGE
  | POS_IDXCNT
  | POS_EDGET
  | POS_MINGAP
  | POS_SPWIN
  | POS_SPCFG
  | POS_SPEED
  | POS_SPSTAT
  | POS_CMPVAL
  | POS_CMPSTEP
  | POS_SSICFG
  | POS_SSIPER
  | POS_SSITIM
  | POS_SSIEXT
  | POS_STAT
  | POS_ERRCNT
  | POS_HITCNT
  | LOD_W0
  | LOD_W1
  | LOD_W2
  | LOD_W3
  | LOD_W4
  | LOD_W5
  | LOD_W6
  | LOD_W7
  | LOD_DSEL
  | LOD_STAT
  | LOD_FLIPCNT
  | LOD_LASTL
  | LOD_LASTH
  | EVC_CTL
  | EVC_STAT
  | EVG_CTL
  | EVG_FLAGS
  | EVF_CSEL
  | EVF_CDATA
  | EVF_STAT
  | EVF_DROPCNT
  | EVF_COLLCNT
  | DLK_CTL
  | DLK_TIMING
  | DLK_STAT
  | DLK_CABLE
  | DLK_FAULT
  | DLK_FTIMEL
  | DLK_FTIMEH
  | DLK_COUNT
  | DLK_FCOUNT
  | DLK_DESCA
  | DLK_DESCB
  | DLK_DESCC
  | DLK_DESCD
  | DLK_DESCE
  | DLK_DESCF
  | DLK_DESCG
  | DLK_DESCH
  | SUP_STAT
  | SUP_DOORBELL
  | SUP_BPMISS
  | SUP_ISEL
  | SUP_IDATA
  | DMA_CTL
  | DMA_SRCOFF
  | DMA_DSTOFF
  | DMA_LEN
  | DMA_STAT
  | DMA_CAPSA
  | DMA_CAPSB
  | DMA_CAPSC
  | DMA_CAPSD
  | DMA_CAPDA
  | DMA_CAPDB
  | DMA_CAPDC
  | DMA_CAPDD
  | SQ_MAP
  | SQ_PSTATE
  | SQ_TESTED
  | SQ_SNAP
  | SQ_SNAPST
  | SQ_DUPSTAT
  | RDC_CTL
  | RDC_CMD
  | RDC_STAT
  | RDC_FOREC
  | RDC_FOTIMEL
  | RDC_FOTIMEH
  | RDC_FOCNT
  | RDC_PMODE
  | RDC_PMAP
  | RDC_PSTATE
  | RDC_PFAULT
  | RDC_SIGWIN
  | RDC_JOIN
  | RDC_SPLITL
  | RDC_SPLITH
  | RDC_CMPFAILL
  | RDC_CMPFAILH
  | RDC_WSEL
  | RDC_WDATA
  | RDC_WTHR
  | MEM_CTL
  | MEM_STAT
  | MEM_ELOG
  | MEM_ELOGL
  | MEM_ELOGH
  | MEM_CECNT
  | MEM_UECNT
  | MEM_RSEL
  | MEM_RDATA
  | MEM_LAPSEL
  | MEM_LAP
  | MEM_INJ
  | FLC_STATA
  | FLC_STATB
  | FLC_CTL
  | FLC_FADDRA
  | FLC_FADDRB
  | FLC_GEN
  | FLC_ABNCNT
  | FLC_ABNSEL
  | FLC_ABNDATA
  | FLC_SSEL
  | FLC_SINFO
  | FLC_SPARE
  | FLC_OPTSEL
  | FLC_OPTDATA
  | FLC_CORRCNT
  | HIF_CTL
  | HIF_STAT
  | HIF_ERRADDR
  | HIF_ERRCNT
  | HIF_APERSEL
  | HIF_APER
  | HIF_UIDL
  | HIF_UIDH
  | HIF_NUMCMD
  | MBX_CTL
  | MBX_POST
  | MBX_STAT
  | GDN_CTL
  | GDN_STAT
  | GDN_NBR
  | GDN_ERRCNT
  | GDN_NUM
  | GDN_TREEL
  | GDN_TREEH
  | MSR_CTL
  | MSR_STARTL
  | MSR_STARTH
  | MSR_LTIME
  | MSR_LSAMP
  | MSR_LVOLT
  | MSR_TCFG
  | MSR_STAT
  | MSR_RES0
  | MSR_RES1
  | MSR_RES2
  | MSR_RES3
  | MSR_SSEL
  | MSR_SDATA
  | PMU_MODE
  | PMU_MODEREQ
  | PMU_STAT
  | PMU_SUPPLY
  | PMU_SWCNT
  | PMU_DOMEN
  | PMU_DOMSTAT
  | PMU_SNSCTL
  | PMU_REGSTAT
  | PMU_WAKEEN
  | PMU_WAKETIME
  | CLK_CTL
  | CLK_STAT
  | CLK_UNLCNT
  | RST_CAUSE
  | RST_OLSTAT
  | RST_STAT
  | RST_SWRST
  | RST_WDCTL
  | RST_WDKICK
  | RST_BLKCTL
  | RST_BLKSTAT
  | RST_BOOTSTAT
  | RST_CSTART
  | RST_CENTRYL
  | RST_CENTRYH
  | LCS_STATE
  | LCS_CMD
  | LCS_STAT
  | LCS_DEVTAGL
  | LCS_DEVTAGH
  | SAF_CTL
  | SAF_STAT
  | SAF_ACT
  | SAF_PEND
  | SAF_FIRST
  | SAF_FIRSTL
  | SAF_FIRSTH
  | SAF_CSEL
  | SAF_CCNT
  | SAF_ACK
  | SAF_SWEV
  | QTZ_ALML
  | QTZ_ALMH
  | QTZ_TIMEL
  | QTZ_TIMEH
  | GPIO_DIRA
  | GPIO_OUTA
  | GPIO_INA
  | GPIO_ODA
  | GPIO_IFLAGA
  | GPIO_DIRB
  | GPIO_OUTB
  | GPIO_INB
  | GPIO_ODB
  | GPIO_IFLAGB
  | GPIO_DIRC
  | GPIO_OUTC
  | GPIO_INC
  | GPIO_ODC
  | GPIO_IFLAGC
  | GPIO_IMODEA
  | GPIO_IMODEB
  | GPIO_IMODEC
  | GPIO_IMODED
  | GPIO_IMODEE
  | GPIO_IMODEF
  | PMB_CTL
  | PMB_TXDATA
  | PMB_RXDATA
  | PMB_STAT
  | SPI_CTL
  | SPI_TXDATA
  | SPI_RXDATA
  | SPI_STAT
  | UART_CTL
  | UART_TXDATA
  | UART_RXDATA
  | UART_STAT
  | DBG_STAT
  deriving DecidableEq, Repr

/-- What the field table of a register says of it: the reset value, and which bits are RW, W1C, W1S and RC (R4);
every other bit is RO, WO or reserved, so it is never stored by a write (R5). -/
structure RegSpec where
  reset : Nat
  rw    : Nat
  w1c   : Nat
  w1s   : Nat
  rc    : Nat
  wo    : Nat
  count : Nat
  deriving DecidableEq, Repr

/-- The field tables, one row per register. -/
def Reg.spec : Reg → RegSpec
  | .QTZ_ALMC => ⟨0x00000000, 0xFFFFFF03, 0x1C, 0x0, 0x0, 0x0, 8⟩
  | .QTZ_STATUS => ⟨0x00000000, 0x0, 0x30, 0x0, 0x0, 0x0, 1⟩
  | .QTZ_CTL => ⟨0x00000003, 0x3, 0x0, 0x0, 0x0, 0x0, 1⟩
  | .QTZ_OFFSET => ⟨0x00000000, 0x0, 0x0, 0x0, 0x0, 0x0, 1⟩
  | .QTZ_TRIM => ⟨0x00000000, 0x0, 0x0, 0x0, 0x0, 0x0, 1⟩
  | .QTZ_MISSCNT => ⟨0x00000000, 0x0, 0x0, 0x0, 0x1FFFF, 0x0, 1⟩
  | .SQ_FENCED => ⟨0x00000000, 0x0, 0x0, 0x0, 0x1FFFF, 0x0, 64⟩
  | .SQ_PORTSTAT => ⟨0x00000000, 0x0, 0x0, 0x0, 0x3FFFF, 0x0, 64⟩
  | .SQ_ROUTESTAT => ⟨0x00000000, 0x0, 0x0, 0x0, 0x7FFFFFF, 0x0, 64⟩
  | .SQ_ABORT => ⟨0x00000000, 0x0, 0x8000, 0x0, 0x0, 0x0, 64⟩
  | .SQ_ABORTL => ⟨0x00000000, 0x0, 0x0, 0x0, 0x0, 0x0, 64⟩
  | .SQ_ABORTH => ⟨0x00000000, 0x0, 0x0, 0x0, 0x0, 0x0, 64⟩
  | .SQ_ABORTCNT => ⟨0x00000000, 0x0, 0x0, 0x0, 0x1FF, 0x0, 64⟩
  | .SCH_CTL => ⟨0x00000000, 0x4, 0x0, 0x0, 0x0, 0xB, 1⟩
  | .SCH_STATUS => ⟨0x00000000, 0x0, 0x388, 0x0, 0x0, 0x0, 1⟩
  | .SCH_BANKA => ⟨0x00000000, 0x0, 0x0, 0x0, 0x0, 0x0, 1⟩
  | .SCH_BANKB => ⟨0x00000000, 0x0, 0x0, 0x0, 0x0, 0x0, 1⟩
  | .SCH_GENA => ⟨0x00000000, 0x0, 0x0, 0x0, 0x0, 0x0, 1⟩
  | .SCH_GENB => ⟨0x00000000, 0x0, 0x0, 0x0, 0x0, 0x0, 1⟩
  | .SCH_ORIGINL => ⟨0x00000000, 0xFFFFFFFF, 0x0, 0x0, 0x0, 0x0, 1⟩
  | .SCH_ORIGINH => ⟨0x00000000, 0xFFFFFFFF, 0x0, 0x0, 0x0, 0x0, 1⟩
  | .SCH_FRAMEL => ⟨0x00000000, 0x0, 0x0, 0x0, 0x0, 0x0, 1⟩
  | .SCH_FRAMEH => ⟨0x00000000, 0x0, 0x0, 0x0, 0x0, 0x0, 1⟩
  | .SQ_SLOTSTAT => ⟨0x00000000, 0x0, 0x0, 0x0, 0x7FFFFFF, 0x0, 64⟩
  | .SQ_EPOCH => ⟨0x00000000, 0x0, 0x0, 0x0, 0x0, 0x0, 64⟩
  | .SQ_PLANEPOCH => ⟨0x00000000, 0x0, 0x0, 0x0, 0x0, 0x0, 64⟩
  | .SCH_LDSRCL => ⟨0x00000000, 0xFFFFFFFF, 0x0, 0x0, 0x0, 0x0, 1⟩
  | .SCH_LDSRCH => ⟨0x00000000, 0xFF, 0x0, 0x0, 0x0, 0x0, 1⟩
  | .SCH_LDCTL => ⟨0x00000000, 0x2, 0x0, 0x0, 0x0, 0x5, 1⟩
  | .SCH_LDSTAT => ⟨0x00000000, 0x0, 0xE, 0x0, 0x0, 0x0, 1⟩
  | .SCH_LDERR => ⟨0x00000000, 0x0, 0x0, 0x0, 0x0, 0x0, 1⟩
  | .EP_CTL => ⟨0x00000500, 0x3FFF, 0x0, 0x0, 0x0, 0x0, 204⟩
  | .EP_PERIOD => ⟨0x00000000, 0xFFFFFFFF, 0x0, 0x0, 0x0, 0x0, 204⟩
  | .EP_DUTYA => ⟨0x00000000, 0xFFFFFFFF, 0x0, 0x0, 0x0, 0x0, 204⟩
  | .EP_DUTYB => ⟨0x00000000, 0xFFFFFFFF, 0x0, 0x0, 0x0, 0x0, 204⟩
  | .EP_DTRISE => ⟨0x00000000, 0xFFFFF, 0x0, 0x0, 0x0, 0x0, 204⟩
  | .EP_DTFALL => ⟨0x00000000, 0xFFFFF, 0x0, 0x0, 0x0, 0x0, 204⟩
  | .EP_MAXON => ⟨0x00000000, 0xFFFFFFFF, 0x0, 0x0, 0x0, 0x0, 204⟩
  | .EP_ORIGINL => ⟨0x00000000, 0xFFFFFFFF, 0x0, 0x0, 0x0, 0x0, 204⟩
  | .EP_ORIGINH => ⟨0x00000000, 0xFFFFFFFF, 0x0, 0x0, 0x0, 0x0, 204⟩
  | .EP_ORIGINF => ⟨0x00000000, 0x7F, 0x0, 0x0, 0x0, 0x0, 204⟩
  | .EP_CNT => ⟨0x00000000, 0x0, 0x0, 0x0, 0x0, 0x0, 204⟩
  | .EP_QTIME => ⟨0x00000000, 0xFFFFFFFF, 0x0, 0x0, 0x0, 0x0, 204⟩
  | .EP_QPUSH => ⟨0x00000000, 0x0, 0x0, 0x0, 0x0, 0x37F, 204⟩
  | .EP_QSTAT => ⟨0x00000000, 0x0, 0x0, 0x0, 0x0, 0x0, 204⟩
  | .EP_STAT => ⟨0x00000000, 0x0, 0xFF, 0x0, 0x0, 0x0, 204⟩
  | .EP_COUNT => ⟨0x00000000, 0x0, 0x0, 0x0, 0x7FFFFFF, 0x0, 204⟩
  | .EP_STEER => ⟨0x00000000, 0x1F, 0x40, 0x0, 0x0, 0x0, 12⟩
  | .CV_CTL => ⟨0x00003200, 0xFFF3F, 0x0, 0x0, 0x0, 0x40, 64⟩
  | .CV_SCAN => ⟨0x00000000, 0xFFF, 0x0, 0x0, 0x0, 0x0, 64⟩
  | .CV_GAIN => ⟨0x00000000, 0x7FFFFFF, 0x0, 0x0, 0x0, 0x0, 64⟩
  | .CV_FRONT => ⟨0x00000000, 0x7FFF, 0x0, 0x0, 0x0, 0x0, 64⟩
  | .CV_TRIGL => ⟨0x00000000, 0xFFFFFFFF, 0x0, 0x0, 0x0, 0x0, 64⟩
  | .CV_TRIGH => ⟨0x00000000, 0xFFFFFFFF, 0x0, 0x0, 0x0, 0x0, 64⟩
  | .CV_TRIGF => ⟨0x00000000, 0x7F, 0x0, 0x0, 0x0, 0x0, 64⟩
  | .CV_TPER => ⟨0x00000000, 0xFFFFFFFF, 0x0, 0x0, 0x0, 0x0, 64⟩
  | .CV_EVDLY => ⟨0x00000000, 0xFFFFF, 0x0, 0x0, 0x0, 0x0, 64⟩
  | .CV_USCALE => ⟨0x3F800000, 0xFFFFFFFF, 0x0, 0x0, 0x0, 0x0, 64⟩
  | .CV_UOFF => ⟨0x00000000, 0xFFFFFFFF, 0x0, 0x0, 0x0, 0x0, 64⟩
  | .CV_LAST => ⟨0x00000000, 0x0, 0x0, 0x0, 0x0, 0x0, 64⟩
  | .CV_STAT => ⟨0x00000000, 0x0, 0xFF, 0x0, 0x0, 0x0, 64⟩
  | .CV_COUNT => ⟨0x00000000, 0x0, 0x0, 0x0, 0x3FFFF, 0x0, 64⟩
  | .CV_ROT => ⟨0x004000FA, 0x1FFFFFF, 0x0, 0x0, 0x0, 0x0, 8⟩
  | .CV_ROTSTAT => ⟨0x00000018, 0x0, 0x0, 0x0, 0x1FFFF80, 0x0, 8⟩
  | .SL_STAT => ⟨0x00000001, 0x0, 0x20, 0x0, 0x1FF0000, 0x0, 72⟩
  | .SL_CAL => ⟨0x00000000, 0x0, 0x0, 0x0, 0x0, 0x0, 72⟩
  | .SQ_SPSTAT => ⟨0x00000000, 0x0, 0x0, 0x0, 0x1FF, 0x0, 64⟩
  | .CMP_CTL => ⟨0x0FF00000, 0xFF07FFF, 0x0, 0x0, 0x0, 0x0, 204⟩
  | .CMP_HI => ⟨0x00000FFF, 0xFFF, 0x0, 0x0, 0x0, 0x0, 204⟩
  | .CMP_LO => ⟨0x00000000, 0xFFF, 0x0, 0x0, 0x0, 0x0, 204⟩
  | .CMP_HYST => ⟨0x00000000, 0xFF, 0x0, 0x0, 0x0, 0x0, 204⟩
  | .CMP_RAMP => ⟨0x00000000, 0xFFFF, 0x0, 0x0, 0x0, 0x0, 204⟩
  | .CMP_BLANK => ⟨0x00000000, 0xFFFF, 0x0, 0x0, 0x0, 0x0, 204⟩
  | .CMP_STAT => ⟨0x00000000, 0x0, 0x1C, 0x0, 0x0, 0x0, 204⟩
  | .CMP_COUNT => ⟨0x00000000, 0x0, 0x0, 0x0, 0x1FFFF, 0x0, 204⟩
  | .CMP_STEER => ⟨0x00000000, 0x1F, 0x40, 0x0, 0x0, 0x0, 12⟩
  | .FLT_TSEL => ⟨0x00000000, 0x3FF, 0x0, 0x0, 0x0, 0x0, 1⟩
  | .FLT_STAT => ⟨0x00000000, 0x0, 0x3, 0x0, 0x0, 0x0, 1⟩
  | .FLT_NETL => ⟨0x00000000, 0x0, 0x0, 0x0, 0x0, 0x0, 1⟩
  | .FLT_NETH => ⟨0x00000000, 0x0, 0x0, 0x0, 0x0, 0x0, 1⟩
  | .FLT_RELL => ⟨0x00000000, 0x0, 0x0, 0x0, 0x0, 0xFFFFFFFF, 1⟩
  | .FLT_RELH => ⟨0x00000000, 0x0, 0x0, 0x0, 0x0, 0xFFFFFFFF, 1⟩
  | .FLT_SWTRIP => ⟨0x00000000, 0x0, 0x0, 0x0, 0x0, 0x1, 1⟩
  | .FLT_FIRST => ⟨0x00000000, 0x0, 0x10000, 0x0, 0x0, 0x0, 1⟩
  | .FLT_FIRSTL => ⟨0x00000000, 0x0, 0x0, 0x0, 0x0, 0x0, 1⟩
  | .FLT_FIRSTH => ⟨0x00000000, 0x0, 0x0, 0x0, 0x0, 0x0, 1⟩
  | .FLT_TRIPCNT => ⟨0x00000000, 0x0, 0x0, 0x0, 0x1FFFF, 0x0, 1⟩
  | .FLT_SRCE => ⟨0x00000000, 0x7F, 0x0, 0x0, 0x0, 0x0, 512⟩
  | .FLT_PAIRE => ⟨0x00000000, 0xFFFFFF, 0x0, 0x0, 0x0, 0x0, 192⟩
  | .FLT_NETE => ⟨0x00000102, 0x3FFF, 0x0, 0x0, 0xFF000000, 0x0, 64⟩
  | .SDI_CTL => ⟨0x000000FC, 0x7FFFFFFF, 0x0, 0x0, 0x0, 0x0, 64⟩
  | .SDI_FTRIP => ⟨0x00000810, 0xFFFFF, 0x0, 0x0, 0x0, 0x0, 64⟩
  | .SDI_STUCK => ⟨0x00000000, 0xFFFF, 0x0, 0x0, 0x0, 0x0, 64⟩
  | .SDI_RESULT => ⟨0x00000000, 0x0, 0x0, 0x0, 0x0, 0x0, 64⟩
  | .SDI_RSTAT => ⟨0x00000000, 0x0, 0x0, 0x0, 0x0, 0x0, 64⟩
  | .SDI_STAT => ⟨0x00000000, 0x0, 0xE, 0x0, 0x0, 0x0, 64⟩
  | .SDI_COUNT => ⟨0x00000000, 0x0, 0x0, 0x0, 0x3FFFF, 0x0, 64⟩
  | .SDI_CLK => ⟨0x0000007D, 0xFFF, 0x0, 0x0, 0x0, 0x0, 16⟩
  | .POS_CTL => ⟨0x00000000, 0x3FFFFFF, 0x0, 0x0, 0x0, 0x0, 24⟩
  | .POS_COUNT => ⟨0x00000000, 0xFFFFFFFF, 0x0, 0x0, 0x0, 0x0, 24⟩
  | .POS_RANGE => ⟨0xFFFFFFFF, 0xFFFFFFFF, 0x0, 0x0, 0x0, 0x0, 24⟩
  | .POS_IDXCNT => ⟨0x00000000, 0x0, 0x0, 0x0, 0x0, 0x0, 24⟩
  | .POS_EDGET => ⟨0x00000000, 0x0, 0x0, 0x0, 0x0, 0x0, 24⟩
  | .POS_MINGAP => ⟨0x00000000, 0xFFFF, 0x0, 0x0, 0x0, 0x0, 24⟩
  | .POS_SPWIN => ⟨0x0001E848, 0xFFFFFF, 0x0, 0x0, 0x0, 0x0, 24⟩
  | .POS_SPCFG => ⟨0x00002010, 0xFFFF, 0x0, 0x0, 0x0, 0x0, 24⟩
  | .POS_SPEED => ⟨0x00000000, 0x0, 0x0, 0x0, 0x0, 0x0, 24⟩
  | .POS_SPSTAT => ⟨0x00000000, 0x0, 0x0, 0x0, 0x0, 0x0, 24⟩
  | .POS_CMPVAL => ⟨0x00000000, 0xFFFFFFFF, 0x0, 0x0, 0x0, 0x0, 24⟩
  | .POS_CMPSTEP => ⟨0x00000000, 0xFFFFFFFF, 0x0, 0x0, 0x0, 0x0, 24⟩
  | .POS_SSICFG => ⟨0x00000001, 0x3FF, 0x0, 0x0, 0x0, 0x0, 24⟩
  | .POS_SSIPER => ⟨0x00000000, 0xFFFFFFFF, 0x0, 0x0, 0x0, 0x0, 24⟩
  | .POS_SSITIM => ⟨0x640001F4, 0xFFFFFFFF, 0x0, 0x0, 0x0, 0x0, 24⟩
  | .POS_SSIEXT => ⟨0x00000000, 0x0, 0x0, 0x0, 0x0, 0x0, 24⟩
  | .POS_STAT => ⟨0x00000000, 0x0, 0x3F, 0x0, 0x0, 0x0, 24⟩
  | .POS_ERRCNT => ⟨0x00000000, 0x0, 0x0, 0x0, 0x7FFFFFF, 0x0, 24⟩
  | .POS_HITCNT => ⟨0x00000000, 0x0, 0x0, 0x0, 0x1FFFF, 0x0, 24⟩
  | .LOD_W0 => ⟨0x00000000, 0xFF1F, 0x0, 0x20000, 0x0, 0x0, 4096⟩
  | .LOD_W1 => ⟨0x00000000, 0x1FFFFFFF, 0x0, 0x0, 0x0, 0x0, 4096⟩
  | .LOD_W2 => ⟨0x00000000, 0x1FFFFFFF, 0x0, 0x0, 0x0, 0x0, 4096⟩
  | .LOD_W3 => ⟨0x00000000, 0x3FFFFFFF, 0x0, 0x0, 0x0, 0x0, 4096⟩
  | .LOD_W4 => ⟨0x00000000, 0xFFFFFFFF, 0x0, 0x0, 0x0, 0x0, 4096⟩
  | .LOD_W5 => ⟨0x00000000, 0xFFFFFFFF, 0x0, 0x0, 0x0, 0x0, 4096⟩
  | .LOD_W6 => ⟨0x00000000, 0xFFFFFFFF, 0x0, 0x0, 0x0, 0x0, 4096⟩
  | .LOD_W7 => ⟨0x00000000, 0xFFFFFFFF, 0x0, 0x0, 0x0, 0x0, 4096⟩
  | .LOD_DSEL => ⟨0x00000000, 0x7FFF, 0x0, 0x0, 0x0, 0x0, 1⟩
  | .LOD_STAT => ⟨0x00000000, 0x0, 0x3, 0x0, 0x0, 0x0, 1⟩
  | .LOD_FLIPCNT => ⟨0x00000000, 0x0, 0x0, 0x0, 0x1FFFF, 0x0, 1⟩
  | .LOD_LASTL => ⟨0x00000000, 0x0, 0x0, 0x0, 0x0, 0x0, 1⟩
  | .LOD_LASTH => ⟨0x00000000, 0x0, 0x0, 0x0, 0x0, 0x0, 1⟩
  | .EVC_CTL => ⟨0x00000000, 0xFFF1FF, 0x0, 0x0, 0x0, 0x0, 1024⟩
  | .EVC_STAT => ⟨0x00000000, 0x0, 0x7F, 0x0, 0x0, 0x0, 1024⟩
  | .EVG_CTL => ⟨0x0000FFFF, 0xFFFF, 0x0, 0x0, 0x0, 0x0, 64⟩
  | .EVG_FLAGS => ⟨0x00000000, 0x0, 0xFFFF, 0x0, 0x0, 0x0, 64⟩
  | .EVF_CSEL => ⟨0x00000000, 0xFF, 0x0, 0x0, 0x0, 0x0, 1⟩
  | .EVF_CDATA => ⟨0x00000000, 0x7FF, 0x0, 0x0, 0x0, 0x0, 248⟩
  | .EVF_STAT => ⟨0x00000000, 0x0, 0x1, 0x0, 0x0, 0x0, 1⟩
  | .EVF_DROPCNT => ⟨0x00000000, 0x0, 0x0, 0x0, 0x1FFFF, 0x0, 1⟩
  | .EVF_COLLCNT => ⟨0x00000000, 0x0, 0x0, 0x0, 0x1FFFF, 0x0, 1⟩
  | .DLK_CTL => ⟨0x00002400, 0x1F7FF, 0x0, 0x0, 0x0, 0x800, 64⟩
  | .DLK_TIMING => ⟨0x0EA604E2, 0xFFFFFFF, 0x0, 0x0, 0x0, 0x0, 64⟩
  | .DLK_STAT => ⟨0x00000000, 0x0, 0x1F80, 0x0, 0x0, 0x0, 64⟩
  | .DLK_CABLE => ⟨0x00000000, 0x0, 0x0, 0x0, 0x0, 0x0, 64⟩
  | .DLK_FAULT => ⟨0x00000000, 0x0, 0x400, 0x0, 0x0, 0x0, 64⟩
  | .DLK_FTIMEL => ⟨0x00000000, 0x0, 0x0, 0x0, 0x0, 0x0, 64⟩
  | .DLK_FTIMEH => ⟨0x00000000, 0x0, 0x0, 0x0, 0x0, 0x0, 64⟩
  | .DLK_COUNT => ⟨0x00000000, 0x0, 0x0, 0x0, 0x7FFFFFF, 0x0, 64⟩
  | .DLK_FCOUNT => ⟨0x00000000, 0x0, 0x0, 0x0, 0x1FFFF, 0x0, 64⟩
  | .DLK_DESCA => ⟨0x00000000, 0x0, 0x0, 0x0, 0x0, 0x0, 64⟩
  | .DLK_DESCB => ⟨0x00000000, 0x0, 0x0, 0x0, 0x0, 0x0, 64⟩
  | .DLK_DESCC => ⟨0x00000000, 0x0, 0x0, 0x0, 0x0, 0x0, 64⟩
  | .DLK_DESCD => ⟨0x00000000, 0x0, 0x0, 0x0, 0x0, 0x0, 64⟩
  | .DLK_DESCE => ⟨0x00000000, 0x0, 0x0, 0x0, 0x0, 0x0, 64⟩
  | .DLK_DESCF => ⟨0x00000000, 0x0, 0x0, 0x0, 0x0, 0x0, 64⟩
  | .DLK_DESCG => ⟨0x00000000, 0x0, 0x0, 0x0, 0x0, 0x0, 64⟩
  | .DLK_DESCH => ⟨0x00000000, 0x0, 0x0, 0x0, 0x0, 0x0, 64⟩
  | .SUP_STAT => ⟨0x00000000, 0x0, 0x0, 0x0, 0x0, 0x0, 10⟩
  | .SUP_DOORBELL => ⟨0x00000000, 0x0, 0x0, 0x1, 0x0, 0x2, 10⟩
  | .SUP_BPMISS => ⟨0x00000000, 0x0, 0x0, 0x0, 0x1FFFF, 0x0, 10⟩
  | .SUP_ISEL => ⟨0x00000000, 0x3FF, 0x0, 0x0, 0x0, 0x0, 1⟩
  | .SUP_IDATA => ⟨0x00000000, 0xFF, 0x0, 0x0, 0x0, 0x0, 1024⟩
  | .DMA_CTL => ⟨0x00000078, 0xFD, 0x0, 0x0, 0x0, 0x2, 32⟩
  | .DMA_SRCOFF => ⟨0x00000000, 0xFFFFFFFF, 0x0, 0x0, 0x0, 0x0, 32⟩
  | .DMA_DSTOFF => ⟨0x00000000, 0xFFFFFFFF, 0x0, 0x0, 0x0, 0x0, 32⟩
  | .DMA_LEN => ⟨0x00000000, 0xFFFFFF, 0x0, 0x0, 0x0, 0x0, 32⟩
  | .DMA_STAT => ⟨0x00000000, 0x0, 0x90E, 0x0, 0x0, 0x0, 32⟩
  | .DMA_CAPSA => ⟨0x00000000, 0xFFFFFFFF, 0x0, 0x0, 0x0, 0x0, 32⟩
  | .DMA_CAPSB => ⟨0x00000000, 0xFFFFFFFF, 0x0, 0x0, 0x0, 0x0, 32⟩
  | .DMA_CAPSC => ⟨0x00000000, 0xFFFFFFFF, 0x0, 0x0, 0x0, 0x0, 32⟩
  | .DMA_CAPSD => ⟨0x00000000, 0xFFFFFFFF, 0x0, 0x0, 0x0, 0x0, 32⟩
  | .DMA_CAPDA => ⟨0x00000000, 0xFFFFFFFF, 0x0, 0x0, 0x0, 0x0, 32⟩
  | .DMA_CAPDB => ⟨0x00000000, 0xFFFFFFFF, 0x0, 0x0, 0x0, 0x0, 32⟩
  | .DMA_CAPDC => ⟨0x00000000, 0xFFFFFFFF, 0x0, 0x0, 0x0, 0x0, 32⟩
  | .DMA_CAPDD => ⟨0x00000000, 0xFFFFFFFF, 0x0, 0x0, 0x0, 0x0, 32⟩
  | .SQ_MAP => ⟨0x76543210, 0x0, 0x0, 0x0, 0x0, 0x0, 64⟩
  | .SQ_PSTATE => ⟨0x01000000, 0x0, 0x0, 0x0, 0x0, 0x0, 64⟩
  | .SQ_TESTED => ⟨0x00000000, 0x0, 0x0, 0x0, 0x0, 0x0, 64⟩
  | .SQ_SNAP => ⟨0x00000000, 0x1F3FFF, 0x0, 0x0, 0x0, 0x0, 64⟩
  | .SQ_SNAPST => ⟨0x00000000, 0x0, 0x10000, 0x0, 0x0, 0x0, 64⟩
  | .SQ_DUPSTAT => ⟨0x00000000, 0x0, 0x0, 0x0, 0x3FFFF, 0x0, 64⟩
  | .RDC_CTL => ⟨0x00000007, 0xF, 0x0, 0x0, 0x0, 0x0, 1⟩
  | .RDC_CMD => ⟨0x00000000, 0x0, 0x0, 0x0, 0x0, 0x3FFFFF, 1⟩
  | .RDC_STAT => ⟨0x00000000, 0x0, 0x30C, 0x0, 0x0, 0x0, 1⟩
  | .RDC_FOREC => ⟨0x00000000, 0x0, 0x8000, 0x0, 0x0, 0x0, 1⟩
  | .RDC_FOTIMEL => ⟨0x00000000, 0x0, 0x0, 0x0, 0x0, 0x0, 1⟩
  | .RDC_FOTIMEH => ⟨0x00000000, 0x0, 0x0, 0x0, 0x0, 0x0, 1⟩
  | .RDC_FOCNT => ⟨0x00000000, 0x0, 0x0, 0x0, 0x1FFFF, 0x0, 1⟩
  | .RDC_PMODE => ⟨0x00000000, 0xFFFF, 0x0, 0x0, 0x0, 0x0, 1⟩
  | .RDC_PMAP => ⟨0x00000688, 0x0, 0x0, 0x0, 0x0, 0x0, 1⟩
  | .RDC_PSTATE => ⟨0x00001000, 0x0, 0x0, 0x0, 0x0, 0x0, 1⟩
  | .RDC_PFAULT => ⟨0x00000000, 0x0, 0x40, 0x0, 0x0, 0x0, 1⟩
  | .RDC_SIGWIN => ⟨0x00010000, 0xFFFFFF, 0x0, 0x0, 0x0, 0x0, 1⟩
  | .RDC_JOIN => ⟨0x00000000, 0x0, 0x0, 0xF, 0x0, 0x0, 1⟩
  | .RDC_SPLITL => ⟨0x00000000, 0xFFFFFFFF, 0x0, 0x0, 0x0, 0x0, 1⟩
  | .RDC_SPLITH => ⟨0x00000000, 0xFF, 0x0, 0x0, 0x0, 0x0, 1⟩
  | .RDC_CMPFAILL => ⟨0x00000000, 0x0, 0x0, 0x0, 0x0, 0x0, 1⟩
  | .RDC_CMPFAILH => ⟨0x00000000, 0x0, 0x0, 0x0, 0x0, 0x0, 1⟩
  | .RDC_WSEL => ⟨0x00000000, 0x7F, 0x0, 0x0, 0x0, 0x0, 1⟩
  | .RDC_WDATA => ⟨0x00000000, 0x0, 0x1000000, 0x0, 0x0, 0x0, 66⟩
  | .RDC_WTHR => ⟨0x00000028, 0xFFF, 0x0, 0x0, 0x0, 0x0, 1⟩
  | .MEM_CTL => ⟨0x00010003, 0x7FFF3, 0x0, 0x0, 0x0, 0x0, 1⟩
  | .MEM_STAT => ⟨0x00000000, 0x0, 0x7E, 0x0, 0x0, 0x0, 1⟩
  | .MEM_ELOG => ⟨0x00000000, 0x0, 0x80000000, 0x0, 0x0, 0x0, 1⟩
  | .MEM_ELOGL => ⟨0x00000000, 0x0, 0x0, 0x0, 0x0, 0x0, 1⟩
  | .MEM_ELOGH => ⟨0x00000000, 0x0, 0x0, 0x0, 0x0, 0x0, 1⟩
  | .MEM_CECNT => ⟨0x00000000, 0x0, 0x0, 0x0, 0x1FFFF, 0x0, 1⟩
  | .MEM_UECNT => ⟨0x00000000, 0x0, 0x0, 0x0, 0x1FFFF, 0x0, 1⟩
  | .MEM_RSEL => ⟨0x00000000, 0x3FFF, 0x0, 0x0, 0x0, 0x0, 1⟩
  | .MEM_RDATA => ⟨0x00000000, 0xFFF, 0x0, 0x1000, 0x0, 0x0, 16032⟩
  | .MEM_LAPSEL => ⟨0x00000000, 0x7, 0x0, 0x0, 0x0, 0x0, 1⟩
  | .MEM_LAP => ⟨0x00010000, 0x0, 0x0, 0x0, 0x0, 0x0, 1⟩
  | .MEM_INJ => ⟨0x00000000, 0x3FFF, 0x0, 0x0, 0x0, 0x0, 1⟩
  | .FLC_STATA => ⟨0x00000000, 0x0, 0x3DFFC, 0x0, 0x0, 0x0, 1⟩
  | .FLC_STATB => ⟨0x00000000, 0x0, 0x3DFFC, 0x0, 0x0, 0x0, 1⟩
  | .FLC_CTL => ⟨0x00000000, 0x3, 0x0, 0x0, 0x0, 0x0, 1⟩
  | .FLC_FADDRA => ⟨0x00000000, 0x0, 0x0, 0x0, 0x0, 0x0, 1⟩
  | .FLC_FADDRB => ⟨0x00000000, 0x0, 0x0, 0x0, 0x0, 0x0, 1⟩
  | .FLC_GEN => ⟨0x00000000, 0x0, 0x0, 0x0, 0x0, 0x0, 1⟩
  | .FLC_ABNCNT => ⟨0x00000000, 0x0, 0x0, 0x0, 0x0, 0x0, 1⟩
  | .FLC_ABNSEL => ⟨0x00000000, 0xF, 0x0, 0x0, 0x0, 0x0, 1⟩
  | .FLC_ABNDATA => ⟨0x00000000, 0x0, 0x0, 0x0, 0x0, 0x0, 1⟩
  | .FLC_SSEL => ⟨0x00000000, 0x7FF, 0x0, 0x0, 0x0, 0x0, 1⟩
  | .FLC_SINFO => ⟨0x00000000, 0x0, 0x0, 0x0, 0x0, 0x0, 1⟩
  | .FLC_SPARE => ⟨0x00000000, 0x0, 0x0, 0x0, 0x0, 0x0, 1⟩
  | .FLC_OPTSEL => ⟨0x00000000, 0x3FF, 0x0, 0x0, 0x0, 0x0, 1⟩
  | .FLC_OPTDATA => ⟨0x00000000, 0x0, 0x0, 0x0, 0x0, 0x0, 1⟩
  | .FLC_CORRCNT => ⟨0x00000000, 0x0, 0x0, 0x0, 0x1FFFF, 0x0, 1⟩
  | .HIF_CTL => ⟨0x00000003, 0x7, 0x0, 0x0, 0x0, 0x0, 1⟩
  | .HIF_STAT => ⟨0x00000000, 0x0, 0x3C, 0x0, 0x0, 0x0, 1⟩
  | .HIF_ERRADDR => ⟨0x00000000, 0x0, 0x0, 0x0, 0x0, 0x0, 1⟩
  | .HIF_ERRCNT => ⟨0x00000000, 0x0, 0x0, 0x0, 0x1FFFF, 0x0, 1⟩
  | .HIF_APERSEL => ⟨0x00000000, 0x3F, 0x0, 0x0, 0x0, 0x0, 1⟩
  | .HIF_APER => ⟨0x00000000, 0x3FF, 0x0, 0x0, 0x0, 0x0, 64⟩
  | .HIF_UIDL => ⟨0x00000000, 0xFFFFFFFF, 0x0, 0x0, 0x0, 0x0, 1⟩
  | .HIF_UIDH => ⟨0x00000000, 0xFFFFFFFF, 0x0, 0x0, 0x0, 0x0, 1⟩
  | .HIF_NUMCMD => ⟨0x00000000, 0x0, 0x0, 0x0, 0x0, 0x7F, 1⟩
  | .MBX_CTL => ⟨0x00000000, 0x7F, 0x0, 0x0, 0x0, 0x0, 256⟩
  | .MBX_POST => ⟨0x00000000, 0x0, 0x0, 0x0, 0x0, 0x3F, 256⟩
  | .MBX_STAT => ⟨0x00000000, 0x0, 0x40000, 0x0, 0x0, 0x0, 256⟩
  | .GDN_CTL => ⟨0x00000003, 0x3, 0x0, 0x0, 0x0, 0x0, 4⟩
  | .GDN_STAT => ⟨0x00000000, 0x0, 0x180, 0x0, 0x0, 0x0, 4⟩
  | .GDN_NBR => ⟨0x00003FC0, 0x0, 0x0, 0x0, 0x0, 0x0, 4⟩
  | .GDN_ERRCNT => ⟨0x00000000, 0x0, 0x0, 0x0, 0x3FFFF, 0x0, 4⟩
  | .GDN_NUM => ⟨0x00000000, 0x0, 0x0, 0x0, 0x0, 0x0, 1⟩
  | .GDN_TREEL => ⟨0x00000000, 0x0, 0x0, 0x0, 0x0, 0x0, 1⟩
  | .GDN_TREEH => ⟨0x00000000, 0x0, 0x0, 0x0, 0x0, 0x0, 1⟩
  | .MSR_CTL => ⟨0x00000000, 0x3FFFC, 0x0, 0x0, 0x0, 0x3, 1⟩
  | .MSR_STARTL => ⟨0x00000000, 0xFFFFFFFF, 0x0, 0x0, 0x0, 0x0, 1⟩
  | .MSR_STARTH => ⟨0x00000000, 0xFFFFFFFF, 0x0, 0x0, 0x0, 0x0, 1⟩
  | .MSR_LTIME => ⟨0x00000000, 0xFFFFFFFF, 0x0, 0x0, 0x0, 0x0, 1⟩
  | .MSR_LSAMP => ⟨0x00032100, 0xFFFFFFFF, 0x0, 0x0, 0x0, 0x0, 1⟩
  | .MSR_LVOLT => ⟨0x00000000, 0xFFFFFFFF, 0x0, 0x0, 0x0, 0x0, 1⟩
  | .MSR_TCFG => ⟨0x0000CA9B, 0xFFFFF, 0x0, 0x0, 0x0, 0x0, 1⟩
  | .MSR_STAT => ⟨0x00000000, 0x0, 0xE, 0x0, 0x0, 0x0, 1⟩
  | .MSR_RES0 => ⟨0x00000000, 0x0, 0x0, 0x0, 0x0, 0x0, 1⟩
  | .MSR_RES1 => ⟨0x00000000, 0x0, 0x0, 0x0, 0x0, 0x0, 1⟩
  | .MSR_RES2 => ⟨0x00000000, 0x0, 0x0, 0x0, 0x0, 0x0, 1⟩
  | .MSR_RES3 => ⟨0x00000000, 0x0, 0x0, 0x0, 0x0, 0x0, 1⟩
  | .MSR_SSEL => ⟨0x00000000, 0xF, 0x0, 0x0, 0x0, 0x0, 1⟩
  | .MSR_SDATA => ⟨0x00000000, 0x0, 0x0, 0x0, 0x0, 0x0, 16⟩
  | .PMU_MODE => ⟨0x00000003, 0x0, 0x0, 0x0, 0x0, 0x0, 1⟩
  | .PMU_MODEREQ => ⟨0x00000005, 0xF, 0x0, 0x0, 0x0, 0x10, 1⟩
  | .PMU_STAT => ⟨0x00000000, 0x0, 0x38361, 0x0, 0x0, 0x0, 1⟩
  | .PMU_SUPPLY => ⟨0x00000000, 0x10, 0x0, 0x0, 0x0, 0x0, 1⟩
  | .PMU_SWCNT => ⟨0x00000000, 0x0, 0x0, 0x0, 0x1FFFF, 0x0, 1⟩
  | .PMU_DOMEN => ⟨0x000FFFFF, 0xEFFE0, 0x0, 0x0, 0x0, 0x0, 1⟩
  | .PMU_DOMSTAT => ⟨0x00000000, 0x0, 0x0, 0x0, 0x0, 0x0, 1⟩
  | .PMU_SNSCTL => ⟨0x00000000, 0x3, 0xC, 0x0, 0x0, 0x0, 1⟩
  | .PMU_REGSTAT => ⟨0x00000000, 0x0, 0x0, 0x0, 0x0, 0x0, 1⟩
  | .PMU_WAKEEN => ⟨0x00000000, 0x3F, 0x0, 0x0, 0x0, 0x0, 1⟩
  | .PMU_WAKETIME => ⟨0x00000000, 0xFFFFFFFF, 0x0, 0x0, 0x0, 0x0, 1⟩
  | .CLK_CTL => ⟨0x00000001, 0x1, 0x0, 0x0, 0x0, 0x0, 1⟩
  | .CLK_STAT => ⟨0x00000000, 0x0, 0x70, 0x0, 0x0, 0x0, 1⟩
  | .CLK_UNLCNT => ⟨0x00000000, 0x0, 0x0, 0x0, 0x1FF, 0x0, 1⟩
  | .RST_CAUSE => ⟨0x00000001, 0x0, 0x0, 0x0, 0x0, 0x0, 1⟩
  | .RST_OLSTAT => ⟨0x00000000, 0x0, 0x0, 0x0, 0x1F, 0x0, 1⟩
  | .RST_STAT => ⟨0x00000000, 0x0, 0x3, 0x0, 0x0, 0x0, 1⟩
  | .RST_SWRST => ⟨0x00000000, 0x0, 0x0, 0x0, 0x0, 0xFFFFFFFF, 1⟩
  | .RST_WDCTL => ⟨0xFFFF0000, 0xFFFF0000, 0x0, 0x1, 0x0, 0x0, 1⟩
  | .RST_WDKICK => ⟨0x00000000, 0x0, 0x0, 0x0, 0x0, 0xFFFFFFFF, 1⟩
  | .RST_BLKCTL => ⟨0x01000000, 0xFFFF007F, 0x0, 0x0, 0x0, 0x80, 1⟩
  | .RST_BLKSTAT => ⟨0x00000000, 0x0, 0x2, 0x0, 0x0, 0x0, 1⟩
  | .RST_BOOTSTAT => ⟨0x00000000, 0x0, 0x0, 0x0, 0x0, 0x0, 1⟩
  | .RST_CSTART => ⟨0x00000000, 0x0, 0x0, 0xF, 0x0, 0x0, 1⟩
  | .RST_CENTRYL => ⟨0x00000000, 0xFFFFFFFF, 0x0, 0x0, 0x0, 0x0, 1⟩
  | .RST_CENTRYH => ⟨0x00000000, 0xFF, 0x0, 0x0, 0x0, 0x0, 1⟩
  | .LCS_STATE => ⟨0x00000000, 0x0, 0x0, 0x0, 0x0, 0x0, 1⟩
  | .LCS_CMD => ⟨0x00000000, 0x0, 0x0, 0x0, 0x0, 0xFFFF0007, 1⟩
  | .LCS_STAT => ⟨0x00000000, 0x0, 0x1, 0x0, 0x0, 0x0, 1⟩
  | .LCS_DEVTAGL => ⟨0x00000000, 0x0, 0x0, 0x0, 0x0, 0x0, 1⟩
  | .LCS_DEVTAGH => ⟨0x00000000, 0x0, 0x0, 0x0, 0x0, 0x0, 1⟩
  | .SAF_CTL => ⟨0x00000000, 0x2, 0x0, 0x1, 0x0, 0x0, 1⟩
  | .SAF_STAT => ⟨0x00000000, 0x0, 0x30, 0x0, 0x0, 0x0, 1⟩
  | .SAF_ACT => ⟨0x29559569, 0xFFFFFFFF, 0x0, 0x0, 0x0, 0x0, 1⟩
  | .SAF_PEND => ⟨0x00000000, 0x0, 0xFFFF, 0x0, 0x0, 0x0, 1⟩
  | .SAF_FIRST => ⟨0x00000000, 0x0, 0x1000, 0x0, 0x0, 0x0, 1⟩
  | .SAF_FIRSTL => ⟨0x00000000, 0x0, 0x0, 0x0, 0x0, 0x0, 1⟩
  | .SAF_FIRSTH => ⟨0x00000000, 0x0, 0x0, 0x0, 0x0, 0x0, 1⟩
  | .SAF_CSEL => ⟨0x00000000, 0xF, 0x0, 0x0, 0x0, 0x0, 1⟩
  | .SAF_CCNT => ⟨0x00000000, 0x0, 0x0, 0x0, 0x1FFFF, 0x0, 16⟩
  | .SAF_ACK => ⟨0x00000000, 0x0, 0x0, 0x0, 0x0, 0x1, 1⟩
  | .SAF_SWEV => ⟨0x00000000, 0x0, 0x0, 0x0, 0x0, 0x1, 1⟩
  | .QTZ_ALML => ⟨0x00000000, 0xFFFFFFFF, 0x0, 0x0, 0x0, 0x0, 8⟩
  | .QTZ_ALMH => ⟨0x00000000, 0xFFFFFFFF, 0x0, 0x0, 0x0, 0x0, 8⟩
  | .QTZ_TIMEL => ⟨0x00000000, 0x0, 0x0, 0x0, 0x0, 0x0, 1⟩
  | .QTZ_TIMEH => ⟨0x00000000, 0x0, 0x0, 0x0, 0x0, 0x0, 1⟩
  | .GPIO_DIRA => ⟨0x00000000, 0xFFFFFFFF, 0x0, 0x0, 0x0, 0x0, 1⟩
  | .GPIO_OUTA => ⟨0x00000000, 0xFFFFFFFF, 0x0, 0x0, 0x0, 0x0, 1⟩
  | .GPIO_INA => ⟨0x00000000, 0x0, 0x0, 0x0, 0x0, 0x0, 1⟩
  | .GPIO_ODA => ⟨0x00000000, 0xFFFFFFFF, 0x0, 0x0, 0x0, 0x0, 1⟩
  | .GPIO_IFLAGA => ⟨0x00000000, 0x0, 0xFFFFFFFF, 0x0, 0x0, 0x0, 1⟩
  | .GPIO_DIRB => ⟨0x00000000, 0xFFFFFFFF, 0x0, 0x0, 0x0, 0x0, 1⟩
  | .GPIO_OUTB => ⟨0x00000000, 0xFFFFFFFF, 0x0, 0x0, 0x0, 0x0, 1⟩
  | .GPIO_INB => ⟨0x00000000, 0x0, 0x0, 0x0, 0x0, 0x0, 1⟩
  | .GPIO_ODB => ⟨0x00000000, 0xFFFFFFFF, 0x0, 0x0, 0x0, 0x0, 1⟩
  | .GPIO_IFLAGB => ⟨0x00000000, 0x0, 0xFFFFFFFF, 0x0, 0x0, 0x0, 1⟩
  | .GPIO_DIRC => ⟨0x00000000, 0xFFFFFFFF, 0x0, 0x0, 0x0, 0x0, 1⟩
  | .GPIO_OUTC => ⟨0x00000000, 0xFFFFFFFF, 0x0, 0x0, 0x0, 0x0, 1⟩
  | .GPIO_INC => ⟨0x00000000, 0x0, 0x0, 0x0, 0x0, 0x0, 1⟩
  | .GPIO_ODC => ⟨0x00000000, 0xFFFFFFFF, 0x0, 0x0, 0x0, 0x0, 1⟩
  | .GPIO_IFLAGC => ⟨0x00000000, 0x0, 0xFFFFFFFF, 0x0, 0x0, 0x0, 1⟩
  | .GPIO_IMODEA => ⟨0x00000000, 0xFFFFFFFF, 0x0, 0x0, 0x0, 0x0, 1⟩
  | .GPIO_IMODEB => ⟨0x00000000, 0xFFFFFFFF, 0x0, 0x0, 0x0, 0x0, 1⟩
  | .GPIO_IMODEC => ⟨0x00000000, 0xFFFFFFFF, 0x0, 0x0, 0x0, 0x0, 1⟩
  | .GPIO_IMODED => ⟨0x00000000, 0xFFFFFFFF, 0x0, 0x0, 0x0, 0x0, 1⟩
  | .GPIO_IMODEE => ⟨0x00000000, 0xFFFFFFFF, 0x0, 0x0, 0x0, 0x0, 1⟩
  | .GPIO_IMODEF => ⟨0x00000000, 0xFFFFFFFF, 0x0, 0x0, 0x0, 0x0, 1⟩
  | .PMB_CTL => ⟨0x00000000, 0xFFF, 0x0, 0x0, 0x0, 0x0, 4⟩
  | .PMB_TXDATA => ⟨0x00000000, 0x0, 0x0, 0x0, 0x0, 0xFFF, 4⟩
  | .PMB_RXDATA => ⟨0x00000000, 0x0, 0x0, 0x0, 0x0, 0x0, 4⟩
  | .PMB_STAT => ⟨0x00000000, 0x0, 0x5E, 0x0, 0x0, 0x0, 4⟩
  | .SPI_CTL => ⟨0x00000900, 0xFF1F, 0x0, 0x0, 0x0, 0x0, 4⟩
  | .SPI_TXDATA => ⟨0x00000000, 0x0, 0x0, 0x0, 0x0, 0x1FF, 4⟩
  | .SPI_RXDATA => ⟨0x00000000, 0x0, 0x0, 0x0, 0x0, 0x0, 4⟩
  | .SPI_STAT => ⟨0x00000000, 0x0, 0x6, 0x0, 0x0, 0x0, 4⟩
  | .UART_CTL => ⟨0x00000400, 0xFFFFFF1F, 0x0, 0x0, 0x0, 0x0, 2⟩
  | .UART_TXDATA => ⟨0x00000000, 0x0, 0x0, 0x0, 0x0, 0xFF, 2⟩
  | .UART_RXDATA => ⟨0x00000000, 0x0, 0x0, 0x0, 0x0, 0x0, 2⟩
  | .UART_STAT => ⟨0x00000000, 0x0, 0x1C, 0x0, 0x0, 0x0, 2⟩
  | .DBG_STAT => ⟨0x00000000, 0x0, 0x0, 0x0, 0x0, 0x0, 1⟩

/-- The reset values, in the order of the registers. -/
def regResets : List Nat :=
  [0x0, 0x0, 0x3, 0x0, 0x0, 0x0, 0x0, 0x0, 0x0, 0x0, 0x0, 0x0, 0x0, 0x0, 0x0, 0x0, 0x0, 0x0, 0x0, 0x0, 0x0, 0x0, 0x0, 0x0, 0x0, 0x0, 0x0, 0x0, 0x0, 0x0, 0x0, 0x500, 0x0, 0x0, 0x0, 0x0, 0x0, 0x0, 0x0, 0x0] ++
  [0x0, 0x0, 0x0, 0x0, 0x0, 0x0, 0x0, 0x0, 0x3200, 0x0, 0x0, 0x0, 0x0, 0x0, 0x0, 0x0, 0x0, 0x3F800000, 0x0, 0x0, 0x0, 0x0, 0x4000FA, 0x18, 0x1, 0x0, 0x0, 0xFF00000, 0xFFF, 0x0, 0x0, 0x0, 0x0, 0x0, 0x0, 0x0, 0x0, 0x0, 0x0, 0x0] ++
  [0x0, 0x0, 0x0, 0x0, 0x0, 0x0, 0x0, 0x0, 0x0, 0x102, 0xFC, 0x810, 0x0, 0x0, 0x0, 0x0, 0x0, 0x7D, 0x0, 0x0, 0xFFFFFFFF, 0x0, 0x0, 0x0, 0x1E848, 0x2010, 0x0, 0x0, 0x0, 0x0, 0x1, 0x0, 0x640001F4, 0x0, 0x0, 0x0, 0x0, 0x0, 0x0, 0x0] ++
  [0x0, 0x0, 0x0, 0x0, 0x0, 0x0, 0x0, 0x0, 0x0, 0x0, 0x0, 0x0, 0xFFFF, 0x0, 0x0, 0x0, 0x0, 0x0, 0x0, 0x2400, 0xEA604E2, 0x0, 0x0, 0x0, 0x0, 0x0, 0x0, 0x0, 0x0, 0x0, 0x0, 0x0, 0x0, 0x0, 0x0, 0x0, 0x0, 0x0, 0x0, 0x0] ++
  [0x0, 0x78, 0x0, 0x0, 0x0, 0x0, 0x0, 0x0, 0x0, 0x0, 0x0, 0x0, 0x0, 0x0, 0x76543210, 0x1000000, 0x0, 0x0, 0x0, 0x0, 0x7, 0x0, 0x0, 0x0, 0x0, 0x0, 0x0, 0x0, 0x688, 0x1000, 0x0, 0x10000, 0x0, 0x0, 0x0, 0x0, 0x0, 0x0, 0x0, 0x28] ++
  [0x10003, 0x0, 0x0, 0x0, 0x0, 0x0, 0x0, 0x0, 0x0, 0x0, 0x10000, 0x0, 0x0, 0x0, 0x0, 0x0, 0x0, 0x0, 0x0, 0x0, 0x0, 0x0, 0x0, 0x0, 0x0, 0x0, 0x0, 0x3, 0x0, 0x0, 0x0, 0x0, 0x0, 0x0, 0x0, 0x0, 0x0, 0x0, 0x0, 0x3] ++
  [0x0, 0x3FC0, 0x0, 0x0, 0x0, 0x0, 0x0, 0x0, 0x0, 0x0, 0x32100, 0x0, 0xCA9B, 0x0, 0x0, 0x0, 0x0, 0x0, 0x0, 0x0, 0x3, 0x5, 0x0, 0x0, 0x0, 0xFFFFF, 0x0, 0x0, 0x0, 0x0, 0x0, 0x1, 0x0, 0x0, 0x1, 0x0, 0x0, 0x0, 0xFFFF0000, 0x0] ++
  [0x1000000, 0x0, 0x0, 0x0, 0x0, 0x0, 0x0, 0x0, 0x0, 0x0, 0x0, 0x0, 0x0, 0x29559569, 0x0, 0x0, 0x0, 0x0, 0x0, 0x0, 0x0, 0x0, 0x0, 0x0, 0x0, 0x0, 0x0, 0x0, 0x0, 0x0, 0x0, 0x0, 0x0, 0x0, 0x0, 0x0, 0x0, 0x0, 0x0, 0x0] ++
  [0x0, 0x0, 0x0, 0x0, 0x0, 0x0, 0x0, 0x0, 0x0, 0x0, 0x0, 0x900, 0x0, 0x0, 0x0, 0x400, 0x0, 0x0, 0x0, 0x0]


/-- Where a register stands in the 40-bit physical map: its first address, the distance between instances (R579 to R595).
Registers that a selector reaches have no place of their own. -/
structure RegPlace where
  reg    : Reg
  base   : Nat
  stride : Nat
  count  : Nat
  deriving DecidableEq, Repr

/-- Part 1 of the register map of R584 to R595. -/
def regPlaces0 : List RegPlace := [
  ⟨.QTZ_ALMC, 0x400000048, 0x10, 8⟩,
  ⟨.QTZ_STATUS, 0x400000008, 0x1, 1⟩,
  ⟨.QTZ_CTL, 0x40000000C, 0x1, 1⟩,
  ⟨.QTZ_OFFSET, 0x400000010, 0x1, 1⟩,
  ⟨.QTZ_TRIM, 0x400000014, 0x1, 1⟩,
  ⟨.QTZ_MISSCNT, 0x400000018, 0x1, 1⟩,
  ⟨.SQ_FENCED, 0x200090000, 0x100000, 64⟩,
  ⟨.SQ_PORTSTAT, 0x200090004, 0x100000, 64⟩,
  ⟨.SQ_ROUTESTAT, 0x200090008, 0x100000, 64⟩,
  ⟨.SQ_ABORT, 0x200090018, 0x100000, 64⟩,
  ⟨.SQ_ABORTL, 0x20009001C, 0x100000, 64⟩,
  ⟨.SQ_ABORTH, 0x200090020, 0x100000, 64⟩,
  ⟨.SQ_ABORTCNT, 0x200090024, 0x100000, 64⟩,
  ⟨.SCH_CTL, 0x400010000, 0x1, 1⟩,
  ⟨.SCH_STATUS, 0x400010004, 0x1, 1⟩,
  ⟨.SCH_BANKA, 0x400010008, 0x1, 1⟩,
  ⟨.SCH_BANKB, 0x40001000C, 0x1, 1⟩,
  ⟨.SCH_GENA, 0x400010010, 0x1, 1⟩,
  ⟨.SCH_GENB, 0x400010014, 0x1, 1⟩,
  ⟨.SCH_ORIGINL, 0x400010018, 0x1, 1⟩,
  ⟨.SCH_ORIGINH, 0x40001001C, 0x1, 1⟩,
  ⟨.SCH_FRAMEL, 0x400010020, 0x1, 1⟩,
  ⟨.SCH_FRAMEH, 0x400010024, 0x1, 1⟩,
  ⟨.SQ_SLOTSTAT, 0x20009000C, 0x100000, 64⟩,
  ⟨.SQ_EPOCH, 0x200090010, 0x100000, 64⟩,
  ⟨.SQ_PLANEPOCH, 0x200090014, 0x100000, 64⟩,
  ⟨.SCH_LDSRCL, 0x400010040, 0x1, 1⟩,
  ⟨.SCH_LDSRCH, 0x400010044, 0x1, 1⟩,
  ⟨.SCH_LDCTL, 0x400010048, 0x1, 1⟩,
  ⟨.SCH_LDSTAT, 0x40001004C, 0x1, 1⟩,
  ⟨.SCH_LDERR, 0x400010050, 0x1, 1⟩,
  ⟨.EP_CTL, 0x400170000, 0x100, 204⟩,
  ⟨.EP_PERIOD, 0x400170004, 0x100, 204⟩,
  ⟨.EP_DUTYA, 0x400170008, 0x100, 204⟩,
  ⟨.EP_DUTYB, 0x40017000C, 0x100, 204⟩,
  ⟨.EP_DTRISE, 0x400170010, 0x100, 204⟩,
  ⟨.EP_DTFALL, 0x400170014, 0x100, 204⟩,
  ⟨.EP_MAXON, 0x400170018, 0x100, 204⟩,
  ⟨.EP_ORIGINL, 0x40017001C, 0x100, 204⟩,
  ⟨.EP_ORIGINH, 0x400170020, 0x100, 204⟩,
  ⟨.EP_ORIGINF, 0x400170024, 0x100, 204⟩,
  ⟨.EP_CNT, 0x400170028, 0x100, 204⟩,
  ⟨.EP_QTIME, 0x40017002C, 0x100, 204⟩,
  ⟨.EP_QPUSH, 0x400170030, 0x100, 204⟩,
  ⟨.EP_QSTAT, 0x400170034, 0x100, 204⟩,
  ⟨.EP_STAT, 0x400170038, 0x100, 204⟩,
  ⟨.EP_COUNT, 0x40017003C, 0x100, 204⟩,
  ⟨.EP_STEER, 0x40017C040, 0x100, 12⟩]

/-- Part 2 of the register map of R584 to R595. -/
def regPlaces1 : List RegPlace := [
  ⟨.CV_CTL, 0x400140000, 0x100, 64⟩,
  ⟨.CV_SCAN, 0x400140004, 0x100, 64⟩,
  ⟨.CV_GAIN, 0x400140008, 0x100, 64⟩,
  ⟨.CV_FRONT, 0x40014000C, 0x100, 64⟩,
  ⟨.CV_TRIGL, 0x400140010, 0x100, 64⟩,
  ⟨.CV_TRIGH, 0x400140014, 0x100, 64⟩,
  ⟨.CV_TRIGF, 0x400140018, 0x100, 64⟩,
  ⟨.CV_TPER, 0x40014001C, 0x100, 64⟩,
  ⟨.CV_EVDLY, 0x400140020, 0x100, 64⟩,
  ⟨.CV_USCALE, 0x400140024, 0x100, 64⟩,
  ⟨.CV_UOFF, 0x400140028, 0x100, 64⟩,
  ⟨.CV_LAST, 0x40014002C, 0x100, 64⟩,
  ⟨.CV_STAT, 0x400140030, 0x100, 64⟩,
  ⟨.CV_COUNT, 0x400140034, 0x100, 64⟩,
  ⟨.CV_ROT, 0x400140038, 0x800, 8⟩,
  ⟨.CV_ROTSTAT, 0x40014003C, 0x800, 8⟩,
  ⟨.SL_STAT, 0x400150000, 0x100, 72⟩,
  ⟨.SL_CAL, 0x400150004, 0x100, 72⟩,
  ⟨.SQ_SPSTAT, 0x200090028, 0x100000, 64⟩,
  ⟨.CMP_CTL, 0x400160000, 0x100, 204⟩,
  ⟨.CMP_HI, 0x400160004, 0x100, 204⟩,
  ⟨.CMP_LO, 0x400160008, 0x100, 204⟩,
  ⟨.CMP_HYST, 0x40016000C, 0x100, 204⟩,
  ⟨.CMP_RAMP, 0x400160010, 0x100, 204⟩,
  ⟨.CMP_BLANK, 0x400160014, 0x100, 204⟩,
  ⟨.CMP_STAT, 0x400160018, 0x100, 204⟩,
  ⟨.CMP_COUNT, 0x40016001C, 0x100, 204⟩,
  ⟨.CMP_STEER, 0x40016C020, 0x100, 12⟩,
  ⟨.FLT_TSEL, 0x400040000, 0x1, 1⟩,
  ⟨.FLT_STAT, 0x400040008, 0x1, 1⟩,
  ⟨.FLT_NETL, 0x40004000C, 0x1, 1⟩,
  ⟨.FLT_NETH, 0x400040010, 0x1, 1⟩,
  ⟨.FLT_RELL, 0x400040014, 0x1, 1⟩,
  ⟨.FLT_RELH, 0x400040018, 0x1, 1⟩,
  ⟨.FLT_SWTRIP, 0x40004001C, 0x1, 1⟩,
  ⟨.FLT_FIRST, 0x400040020, 0x1, 1⟩,
  ⟨.FLT_FIRSTL, 0x400040024, 0x1, 1⟩,
  ⟨.FLT_FIRSTH, 0x400040028, 0x1, 1⟩,
  ⟨.FLT_TRIPCNT, 0x40004002C, 0x1, 1⟩,
  ⟨.SDI_CTL, 0x400120000, 0x100, 64⟩,
  ⟨.SDI_FTRIP, 0x400120004, 0x100, 64⟩,
  ⟨.SDI_STUCK, 0x400120008, 0x100, 64⟩,
  ⟨.SDI_RESULT, 0x40012000C, 0x100, 64⟩,
  ⟨.SDI_RSTAT, 0x400120010, 0x100, 64⟩,
  ⟨.SDI_STAT, 0x400120014, 0x100, 64⟩,
  ⟨.SDI_COUNT, 0x400120018, 0x100, 64⟩,
  ⟨.SDI_CLK, 0x40012001C, 0x100, 16⟩,
  ⟨.POS_CTL, 0x400130000, 0x100, 24⟩]

/-- Part 3 of the register map of R584 to R595. -/
def regPlaces2 : List RegPlace := [
  ⟨.POS_COUNT, 0x400130004, 0x100, 24⟩,
  ⟨.POS_RANGE, 0x400130008, 0x100, 24⟩,
  ⟨.POS_IDXCNT, 0x40013000C, 0x100, 24⟩,
  ⟨.POS_EDGET, 0x400130010, 0x100, 24⟩,
  ⟨.POS_MINGAP, 0x400130014, 0x100, 24⟩,
  ⟨.POS_SPWIN, 0x400130018, 0x100, 24⟩,
  ⟨.POS_SPCFG, 0x40013001C, 0x100, 24⟩,
  ⟨.POS_SPEED, 0x400130020, 0x100, 24⟩,
  ⟨.POS_SPSTAT, 0x400130024, 0x100, 24⟩,
  ⟨.POS_CMPVAL, 0x400130028, 0x100, 24⟩,
  ⟨.POS_CMPSTEP, 0x40013002C, 0x100, 24⟩,
  ⟨.POS_SSICFG, 0x400130030, 0x100, 24⟩,
  ⟨.POS_SSIPER, 0x400130034, 0x100, 24⟩,
  ⟨.POS_SSITIM, 0x400130038, 0x100, 24⟩,
  ⟨.POS_SSIEXT, 0x40013003C, 0x100, 24⟩,
  ⟨.POS_STAT, 0x400130040, 0x100, 24⟩,
  ⟨.POS_ERRCNT, 0x400130044, 0x100, 24⟩,
  ⟨.POS_HITCNT, 0x400130048, 0x100, 24⟩,
  ⟨.LOD_DSEL, 0x400020000, 0x1, 1⟩,
  ⟨.LOD_STAT, 0x400020008, 0x1, 1⟩,
  ⟨.LOD_FLIPCNT, 0x40002000C, 0x1, 1⟩,
  ⟨.LOD_LASTL, 0x400020010, 0x1, 1⟩,
  ⟨.LOD_LASTH, 0x400020014, 0x1, 1⟩,
  ⟨.EVC_CTL, 0x400032000, 0x8, 1024⟩,
  ⟨.EVC_STAT, 0x400032004, 0x8, 1024⟩,
  ⟨.EVG_CTL, 0x400030800, 0x8, 64⟩,
  ⟨.EVG_FLAGS, 0x400030804, 0x8, 64⟩,
  ⟨.EVF_CSEL, 0x400030000, 0x1, 1⟩,
  ⟨.EVF_STAT, 0x400030008, 0x1, 1⟩,
  ⟨.EVF_DROPCNT, 0x40003000C, 0x1, 1⟩,
  ⟨.EVF_COLLCNT, 0x400030010, 0x1, 1⟩,
  ⟨.DLK_CTL, 0x400110000, 0x100, 64⟩,
  ⟨.DLK_TIMING, 0x400110004, 0x100, 64⟩,
  ⟨.DLK_STAT, 0x400110008, 0x100, 64⟩,
  ⟨.DLK_CABLE, 0x40011000C, 0x100, 64⟩,
  ⟨.DLK_FAULT, 0x400110010, 0x100, 64⟩,
  ⟨.DLK_FTIMEL, 0x400110014, 0x100, 64⟩,
  ⟨.DLK_FTIMEH, 0x400110018, 0x100, 64⟩,
  ⟨.DLK_COUNT, 0x40011001C, 0x100, 64⟩,
  ⟨.DLK_FCOUNT, 0x400110020, 0x100, 64⟩,
  ⟨.DLK_DESCA, 0x400110040, 0x100, 64⟩,
  ⟨.DLK_DESCB, 0x400110044, 0x100, 64⟩,
  ⟨.DLK_DESCC, 0x400110048, 0x100, 64⟩,
  ⟨.DLK_DESCD, 0x40011004C, 0x100, 64⟩,
  ⟨.DLK_DESCE, 0x400110050, 0x100, 64⟩,
  ⟨.DLK_DESCF, 0x400110054, 0x100, 64⟩,
  ⟨.DLK_DESCG, 0x400110058, 0x100, 64⟩,
  ⟨.DLK_DESCH, 0x40011005C, 0x100, 64⟩]

/-- Part 4 of the register map of R584 to R595. -/
def regPlaces3 : List RegPlace := [
  ⟨.SUP_STAT, 0x4000F0000, 0x100, 10⟩,
  ⟨.SUP_DOORBELL, 0x4000F0004, 0x100, 10⟩,
  ⟨.SUP_BPMISS, 0x4000F0008, 0x100, 10⟩,
  ⟨.SUP_ISEL, 0x4000F000C, 0x1, 1⟩,
  ⟨.DMA_CTL, 0x400100000, 0x100, 32⟩,
  ⟨.DMA_SRCOFF, 0x400100004, 0x100, 32⟩,
  ⟨.DMA_DSTOFF, 0x400100008, 0x100, 32⟩,
  ⟨.DMA_LEN, 0x40010000C, 0x100, 32⟩,
  ⟨.DMA_STAT, 0x400100010, 0x100, 32⟩,
  ⟨.DMA_CAPSA, 0x400100020, 0x100, 32⟩,
  ⟨.DMA_CAPSB, 0x400100024, 0x100, 32⟩,
  ⟨.DMA_CAPSC, 0x400100028, 0x100, 32⟩,
  ⟨.DMA_CAPSD, 0x40010002C, 0x100, 32⟩,
  ⟨.DMA_CAPDA, 0x400100030, 0x100, 32⟩,
  ⟨.DMA_CAPDB, 0x400100034, 0x100, 32⟩,
  ⟨.DMA_CAPDC, 0x400100038, 0x100, 32⟩,
  ⟨.DMA_CAPDD, 0x40010003C, 0x100, 32⟩,
  ⟨.SQ_MAP, 0x20009002C, 0x100000, 64⟩,
  ⟨.SQ_PSTATE, 0x200090030, 0x100000, 64⟩,
  ⟨.SQ_TESTED, 0x200090034, 0x100000, 64⟩,
  ⟨.SQ_SNAP, 0x200090038, 0x100000, 64⟩,
  ⟨.SQ_SNAPST, 0x20009003C, 0x100000, 64⟩,
  ⟨.SQ_DUPSTAT, 0x200090040, 0x100000, 64⟩,
  ⟨.RDC_CTL, 0x400050000, 0x1, 1⟩,
  ⟨.RDC_CMD, 0x400050004, 0x1, 1⟩,
  ⟨.RDC_STAT, 0x400050008, 0x1, 1⟩,
  ⟨.RDC_FOREC, 0x40005000C, 0x1, 1⟩,
  ⟨.RDC_FOTIMEL, 0x400050010, 0x1, 1⟩,
  ⟨.RDC_FOTIMEH, 0x400050014, 0x1, 1⟩,
  ⟨.RDC_FOCNT, 0x400050018, 0x1, 1⟩,
  ⟨.RDC_PMODE, 0x40005001C, 0x1, 1⟩,
  ⟨.RDC_PMAP, 0x400050020, 0x1, 1⟩,
  ⟨.RDC_PSTATE, 0x400050024, 0x1, 1⟩,
  ⟨.RDC_PFAULT, 0x400050028, 0x1, 1⟩,
  ⟨.RDC_SIGWIN, 0x40005002C, 0x1, 1⟩,
  ⟨.RDC_JOIN, 0x400050030, 0x1, 1⟩,
  ⟨.RDC_SPLITL, 0x400050034, 0x1, 1⟩,
  ⟨.RDC_SPLITH, 0x400050038, 0x1, 1⟩,
  ⟨.RDC_CMPFAILL, 0x40005003C, 0x1, 1⟩,
  ⟨.RDC_CMPFAILH, 0x400050040, 0x1, 1⟩,
  ⟨.RDC_WSEL, 0x400050044, 0x1, 1⟩,
  ⟨.RDC_WTHR, 0x40005004C, 0x1, 1⟩,
  ⟨.MEM_CTL, 0x400060000, 0x1, 1⟩,
  ⟨.MEM_STAT, 0x400060004, 0x1, 1⟩,
  ⟨.MEM_ELOG, 0x400060008, 0x1, 1⟩,
  ⟨.MEM_ELOGL, 0x40006000C, 0x1, 1⟩,
  ⟨.MEM_ELOGH, 0x400060010, 0x1, 1⟩,
  ⟨.MEM_CECNT, 0x400060014, 0x1, 1⟩]

/-- Part 5 of the register map of R584 to R595. -/
def regPlaces4 : List RegPlace := [
  ⟨.MEM_UECNT, 0x400060018, 0x1, 1⟩,
  ⟨.MEM_RSEL, 0x40006001C, 0x1, 1⟩,
  ⟨.MEM_LAPSEL, 0x400060024, 0x1, 1⟩,
  ⟨.MEM_LAP, 0x400060028, 0x1, 1⟩,
  ⟨.MEM_INJ, 0x40006002C, 0x1, 1⟩,
  ⟨.FLC_STATA, 0x400070004, 0x1, 1⟩,
  ⟨.FLC_STATB, 0x400070008, 0x1, 1⟩,
  ⟨.FLC_CTL, 0x400070000, 0x1, 1⟩,
  ⟨.FLC_FADDRA, 0x40007000C, 0x1, 1⟩,
  ⟨.FLC_FADDRB, 0x400070010, 0x1, 1⟩,
  ⟨.FLC_GEN, 0x400070014, 0x1, 1⟩,
  ⟨.FLC_ABNCNT, 0x400070018, 0x1, 1⟩,
  ⟨.FLC_ABNSEL, 0x40007001C, 0x1, 1⟩,
  ⟨.FLC_ABNDATA, 0x400070020, 0x1, 1⟩,
  ⟨.FLC_SSEL, 0x400070024, 0x1, 1⟩,
  ⟨.FLC_SINFO, 0x400070028, 0x1, 1⟩,
  ⟨.FLC_SPARE, 0x40007002C, 0x1, 1⟩,
  ⟨.FLC_OPTSEL, 0x400070030, 0x1, 1⟩,
  ⟨.FLC_OPTDATA, 0x400070034, 0x1, 1⟩,
  ⟨.FLC_CORRCNT, 0x400070038, 0x1, 1⟩,
  ⟨.HIF_CTL, 0x4000E9000, 0x1, 1⟩,
  ⟨.HIF_STAT, 0x4000E9004, 0x1, 1⟩,
  ⟨.HIF_ERRADDR, 0x4000E9008, 0x1, 1⟩,
  ⟨.HIF_ERRCNT, 0x4000E900C, 0x1, 1⟩,
  ⟨.HIF_APERSEL, 0x4000E9010, 0x1, 1⟩,
  ⟨.HIF_UIDL, 0x4000E9018, 0x1, 1⟩,
  ⟨.HIF_UIDH, 0x4000E901C, 0x1, 1⟩,
  ⟨.HIF_NUMCMD, 0x4000E9020, 0x1, 1⟩,
  ⟨.MBX_CTL, 0x4000E8000, 0x10, 256⟩,
  ⟨.MBX_POST, 0x4000E8004, 0x10, 256⟩,
  ⟨.MBX_STAT, 0x4000E8008, 0x10, 256⟩,
  ⟨.GDN_CTL, 0x4000E9080, 0x20, 4⟩,
  ⟨.GDN_STAT, 0x4000E9084, 0x20, 4⟩,
  ⟨.GDN_NBR, 0x4000E9088, 0x20, 4⟩,
  ⟨.GDN_ERRCNT, 0x4000E908C, 0x20, 4⟩,
  ⟨.GDN_NUM, 0x4000E9090, 0x1, 1⟩,
  ⟨.GDN_TREEL, 0x4000E9094, 0x1, 1⟩,
  ⟨.GDN_TREEH, 0x4000E9098, 0x1, 1⟩,
  ⟨.MSR_CTL, 0x400090000, 0x1, 1⟩,
  ⟨.MSR_STARTL, 0x400090004, 0x1, 1⟩,
  ⟨.MSR_STARTH, 0x400090008, 0x1, 1⟩,
  ⟨.MSR_LTIME, 0x40009000C, 0x1, 1⟩,
  ⟨.MSR_LSAMP, 0x400090010, 0x1, 1⟩,
  ⟨.MSR_LVOLT, 0x400090014, 0x1, 1⟩,
  ⟨.MSR_TCFG, 0x400090018, 0x1, 1⟩,
  ⟨.MSR_STAT, 0x40009001C, 0x1, 1⟩,
  ⟨.MSR_RES0, 0x400090020, 0x1, 1⟩,
  ⟨.MSR_RES1, 0x400090024, 0x1, 1⟩]

/-- Part 6 of the register map of R584 to R595. -/
def regPlaces5 : List RegPlace := [
  ⟨.MSR_RES2, 0x400090028, 0x1, 1⟩,
  ⟨.MSR_RES3, 0x40009002C, 0x1, 1⟩,
  ⟨.MSR_SSEL, 0x400090030, 0x1, 1⟩,
  ⟨.PMU_MODE, 0x4000A0000, 0x1, 1⟩,
  ⟨.PMU_MODEREQ, 0x4000A0004, 0x1, 1⟩,
  ⟨.PMU_STAT, 0x4000A0008, 0x1, 1⟩,
  ⟨.PMU_SUPPLY, 0x4000A000C, 0x1, 1⟩,
  ⟨.PMU_SWCNT, 0x4000A0010, 0x1, 1⟩,
  ⟨.PMU_DOMEN, 0x4000A0014, 0x1, 1⟩,
  ⟨.PMU_DOMSTAT, 0x4000A0018, 0x1, 1⟩,
  ⟨.PMU_SNSCTL, 0x4000A001C, 0x1, 1⟩,
  ⟨.PMU_REGSTAT, 0x4000A0020, 0x1, 1⟩,
  ⟨.PMU_WAKEEN, 0x4000A0024, 0x1, 1⟩,
  ⟨.PMU_WAKETIME, 0x4000A0028, 0x1, 1⟩,
  ⟨.CLK_CTL, 0x4000B0000, 0x1, 1⟩,
  ⟨.CLK_STAT, 0x4000B0004, 0x1, 1⟩,
  ⟨.CLK_UNLCNT, 0x4000B0008, 0x1, 1⟩,
  ⟨.RST_CAUSE, 0x4000C0000, 0x1, 1⟩,
  ⟨.RST_OLSTAT, 0x4000C0004, 0x1, 1⟩,
  ⟨.RST_STAT, 0x4000C0008, 0x1, 1⟩,
  ⟨.RST_SWRST, 0x4000C000C, 0x1, 1⟩,
  ⟨.RST_WDCTL, 0x4000C0010, 0x1, 1⟩,
  ⟨.RST_WDKICK, 0x4000C0014, 0x1, 1⟩,
  ⟨.RST_BLKCTL, 0x4000C0018, 0x1, 1⟩,
  ⟨.RST_BLKSTAT, 0x4000C001C, 0x1, 1⟩,
  ⟨.RST_BOOTSTAT, 0x4000C0020, 0x1, 1⟩,
  ⟨.RST_CSTART, 0x4000C0024, 0x1, 1⟩,
  ⟨.RST_CENTRYL, 0x4000C0028, 0x1, 1⟩,
  ⟨.RST_CENTRYH, 0x4000C002C, 0x1, 1⟩,
  ⟨.LCS_STATE, 0x4000D0000, 0x1, 1⟩,
  ⟨.LCS_CMD, 0x4000D0004, 0x1, 1⟩,
  ⟨.LCS_STAT, 0x4000D0008, 0x1, 1⟩,
  ⟨.LCS_DEVTAGL, 0x4000D000C, 0x1, 1⟩,
  ⟨.LCS_DEVTAGH, 0x4000D0010, 0x1, 1⟩,
  ⟨.SAF_CTL, 0x400080000, 0x1, 1⟩,
  ⟨.SAF_STAT, 0x400080004, 0x1, 1⟩,
  ⟨.SAF_ACT, 0x400080008, 0x1, 1⟩,
  ⟨.SAF_PEND, 0x40008000C, 0x1, 1⟩,
  ⟨.SAF_FIRST, 0x400080010, 0x1, 1⟩,
  ⟨.SAF_FIRSTL, 0x400080014, 0x1, 1⟩,
  ⟨.SAF_FIRSTH, 0x400080018, 0x1, 1⟩,
  ⟨.SAF_CSEL, 0x40008001C, 0x1, 1⟩,
  ⟨.SAF_ACK, 0x400080024, 0x1, 1⟩,
  ⟨.SAF_SWEV, 0x400080028, 0x1, 1⟩,
  ⟨.QTZ_ALML, 0x400000040, 0x10, 8⟩,
  ⟨.QTZ_ALMH, 0x400000044, 0x10, 8⟩,
  ⟨.QTZ_TIMEL, 0x400000000, 0x1, 1⟩,
  ⟨.QTZ_TIMEH, 0x400000004, 0x1, 1⟩]

/-- Part 7 of the register map of R584 to R595. -/
def regPlaces6 : List RegPlace := [
  ⟨.GPIO_DIRA, 0x400180000, 0x1, 1⟩,
  ⟨.GPIO_OUTA, 0x400180010, 0x1, 1⟩,
  ⟨.GPIO_INA, 0x400180020, 0x1, 1⟩,
  ⟨.GPIO_ODA, 0x400180030, 0x1, 1⟩,
  ⟨.GPIO_IFLAGA, 0x400180060, 0x1, 1⟩,
  ⟨.GPIO_DIRB, 0x400180004, 0x1, 1⟩,
  ⟨.GPIO_OUTB, 0x400180014, 0x1, 1⟩,
  ⟨.GPIO_INB, 0x400180024, 0x1, 1⟩,
  ⟨.GPIO_ODB, 0x400180034, 0x1, 1⟩,
  ⟨.GPIO_IFLAGB, 0x400180064, 0x1, 1⟩,
  ⟨.GPIO_DIRC, 0x400180008, 0x1, 1⟩,
  ⟨.GPIO_OUTC, 0x400180018, 0x1, 1⟩,
  ⟨.GPIO_INC, 0x400180028, 0x1, 1⟩,
  ⟨.GPIO_ODC, 0x400180038, 0x1, 1⟩,
  ⟨.GPIO_IFLAGC, 0x400180068, 0x1, 1⟩,
  ⟨.GPIO_IMODEA, 0x400180040, 0x1, 1⟩,
  ⟨.GPIO_IMODEB, 0x400180044, 0x1, 1⟩,
  ⟨.GPIO_IMODEC, 0x400180048, 0x1, 1⟩,
  ⟨.GPIO_IMODED, 0x40018004C, 0x1, 1⟩,
  ⟨.GPIO_IMODEE, 0x400180050, 0x1, 1⟩,
  ⟨.GPIO_IMODEF, 0x400180054, 0x1, 1⟩,
  ⟨.PMB_CTL, 0x400190000, 0x100, 4⟩,
  ⟨.PMB_TXDATA, 0x400190004, 0x100, 4⟩,
  ⟨.PMB_RXDATA, 0x400190008, 0x100, 4⟩,
  ⟨.PMB_STAT, 0x40019000C, 0x100, 4⟩,
  ⟨.SPI_CTL, 0x4001A0000, 0x100, 4⟩,
  ⟨.SPI_TXDATA, 0x4001A0004, 0x100, 4⟩,
  ⟨.SPI_RXDATA, 0x4001A0008, 0x100, 4⟩,
  ⟨.SPI_STAT, 0x4001A000C, 0x100, 4⟩,
  ⟨.UART_CTL, 0x4001B0000, 0x100, 2⟩,
  ⟨.UART_TXDATA, 0x4001B0004, 0x100, 2⟩,
  ⟨.UART_RXDATA, 0x4001B0008, 0x100, 2⟩,
  ⟨.UART_STAT, 0x4001B000C, 0x100, 2⟩,
  ⟨.DBG_STAT, 0x4001C0000, 0x1, 1⟩]

/-- The register map of R584 to R595. -/
def regPlaces : List RegPlace :=
  regPlaces0 ++ regPlaces1 ++ regPlaces2 ++ regPlaces3 ++ regPlaces4 ++ regPlaces5 ++ regPlaces6

/-- The register at a physical address, with its instance number. -/
def regAt (a : Nat) : Option (Reg × Nat) :=
  match regPlaces.find? (fun p => p.base ≤ a && (a - p.base) % p.stride == 0 && (a - p.base) / p.stride < p.count) with
  | some p => some (p.reg, (a - p.base) / p.stride)
  | none   => none

/-- A field: its register, its least significant bit and its width. -/
structure Fld where
  reg   : Reg
  lo    : Nat
  width : Nat
  deriving DecidableEq, Repr

namespace F

/-- QTZ.ALMC.ARM, RW, R28. -/
def QTZ_ALMC_ARM : Fld := ⟨.QTZ_ALMC, 0, 1⟩
/-- QTZ.ALMC.IRQ, RW, R28. -/
def QTZ_ALMC_IRQ : Fld := ⟨.QTZ_ALMC, 1, 1⟩
/-- QTZ.ALMC.FIRED, W1C, R28. -/
def QTZ_ALMC_FIRED : Fld := ⟨.QTZ_ALMC, 2, 1⟩
/-- QTZ.ALMC.LATE, W1C, R28. -/
def QTZ_ALMC_LATE : Fld := ⟨.QTZ_ALMC, 3, 1⟩
/-- QTZ.ALMC.WERR, W1C, R28. -/
def QTZ_ALMC_WERR : Fld := ⟨.QTZ_ALMC, 4, 1⟩
/-- QTZ.ALMC.PERIOD, RW, R28. -/
def QTZ_ALMC_PERIOD : Fld := ⟨.QTZ_ALMC, 8, 24⟩
/-- QTZ.STATUS.STATE, RO, R33. -/
def QTZ_STATUS_STATE : Fld := ⟨.QTZ_STATUS, 0, 2⟩
/-- QTZ.STATUS.LOCK, RO, R33. -/
def QTZ_STATUS_LOCK : Fld := ⟨.QTZ_STATUS, 2, 1⟩
/-- QTZ.STATUS.ROOT, RO, R33. -/
def QTZ_STATUS_ROOT : Fld := ⟨.QTZ_STATUS, 3, 1⟩
/-- QTZ.STATUS.STEPPED, W1C, R33. -/
def QTZ_STATUS_STEPPED : Fld := ⟨.QTZ_STATUS, 4, 1⟩
/-- QTZ.STATUS.LOSTLOCK, W1C, R33. -/
def QTZ_STATUS_LOSTLOCK : Fld := ⟨.QTZ_STATUS, 5, 1⟩
/-- QTZ.STATUS.UPPORT, RO, R33. -/
def QTZ_STATUS_UPPORT : Fld := ⟨.QTZ_STATUS, 6, 2⟩
/-- QTZ.CTL.DISC, RW, R33. -/
def QTZ_CTL_DISC : Fld := ⟨.QTZ_CTL, 0, 1⟩
/-- QTZ.CTL.STEPEN, RW, R33. -/
def QTZ_CTL_STEPEN : Fld := ⟨.QTZ_CTL, 1, 1⟩
/-- QTZ.OFFSET.OFFSET, RO, R33. -/
def QTZ_OFFSET_OFFSET : Fld := ⟨.QTZ_OFFSET, 0, 32⟩
/-- QTZ.TRIM.TRIM, RO, R33. -/
def QTZ_TRIM_TRIM : Fld := ⟨.QTZ_TRIM, 0, 16⟩
/-- QTZ.MISSCNT.COUNT, RC, R33. -/
def QTZ_MISSCNT_COUNT : Fld := ⟨.QTZ_MISSCNT, 0, 16⟩
/-- QTZ.MISSCNT.SAT, RC, R33. -/
def QTZ_MISSCNT_SAT : Fld := ⟨.QTZ_MISSCNT, 16, 1⟩
/-- SQ.FENCED.COUNT, RC, R108. -/
def SQ_FENCED_COUNT : Fld := ⟨.SQ_FENCED, 0, 16⟩
/-- SQ.FENCED.SAT, RC, R108. -/
def SQ_FENCED_SAT : Fld := ⟨.SQ_FENCED, 16, 1⟩
/-- SQ.PORTSTAT.LODECONF, RC, R109. -/
def SQ_PORTSTAT_LODECONF : Fld := ⟨.SQ_PORTSTAT, 0, 8⟩
/-- SQ.PORTSTAT.SBFULL, RC, R109. -/
def SQ_PORTSTAT_SBFULL : Fld := ⟨.SQ_PORTSTAT, 8, 8⟩
/-- SQ.PORTSTAT.LODESAT, RC, R109. -/
def SQ_PORTSTAT_LODESAT : Fld := ⟨.SQ_PORTSTAT, 16, 1⟩
/-- SQ.PORTSTAT.SBSAT, RC, R109. -/
def SQ_PORTSTAT_SBSAT : Fld := ⟨.SQ_PORTSTAT, 17, 1⟩
/-- SQ.ROUTESTAT.RXMISS, RC, R110. -/
def SQ_ROUTESTAT_RXMISS : Fld := ⟨.SQ_ROUTESTAT, 0, 8⟩
/-- SQ.ROUTESTAT.LOST, RC, R110. -/
def SQ_ROUTESTAT_LOST : Fld := ⟨.SQ_ROUTESTAT, 8, 8⟩
/-- SQ.ROUTESTAT.UNBOUND, RC, R110. -/
def SQ_ROUTESTAT_UNBOUND : Fld := ⟨.SQ_ROUTESTAT, 16, 8⟩
/-- SQ.ROUTESTAT.RXSAT, RC, R110. -/
def SQ_ROUTESTAT_RXSAT : Fld := ⟨.SQ_ROUTESTAT, 24, 1⟩
/-- SQ.ROUTESTAT.LOSTSAT, RC, R110. -/
def SQ_ROUTESTAT_LOSTSAT : Fld := ⟨.SQ_ROUTESTAT, 25, 1⟩
/-- SQ.ROUTESTAT.UNBSAT, RC, R110. -/
def SQ_ROUTESTAT_UNBSAT : Fld := ⟨.SQ_ROUTESTAT, 26, 1⟩
/-- SQ.ABORT.CAUSE, RO, R132. -/
def SQ_ABORT_CAUSE : Fld := ⟨.SQ_ABORT, 0, 8⟩
/-- SQ.ABORT.ENGINE, RO, R132. -/
def SQ_ABORT_ENGINE : Fld := ⟨.SQ_ABORT, 8, 3⟩
/-- SQ.ABORT.PHYS, RO, R132. -/
def SQ_ABORT_PHYS : Fld := ⟨.SQ_ABORT, 11, 4⟩
/-- SQ.ABORT.VALID, W1C, R132. -/
def SQ_ABORT_VALID : Fld := ⟨.SQ_ABORT, 15, 1⟩
/-- SQ.ABORT.PC, RO, R132. -/
def SQ_ABORT_PC : Fld := ⟨.SQ_ABORT, 16, 12⟩
/-- SQ.ABORT.DUP, RO, R132. -/
def SQ_ABORT_DUP : Fld := ⟨.SQ_ABORT, 28, 1⟩
/-- SQ.ABORTL.TICKL, RO, R132. -/
def SQ_ABORTL_TICKL : Fld := ⟨.SQ_ABORTL, 0, 32⟩
/-- SQ.ABORTH.TICKH, RO, R132. -/
def SQ_ABORTH_TICKH : Fld := ⟨.SQ_ABORTH, 0, 32⟩
/-- SQ.ABORTCNT.COUNT, RC, R132. -/
def SQ_ABORTCNT_COUNT : Fld := ⟨.SQ_ABORTCNT, 0, 8⟩
/-- SQ.ABORTCNT.SAT, RC, R132. -/
def SQ_ABORTCNT_SAT : Fld := ⟨.SQ_ABORTCNT, 8, 1⟩
/-- SCH.CTL.START, WO, R142. -/
def SCH_CTL_START : Fld := ⟨.SCH_CTL, 0, 1⟩
/-- SCH.CTL.SWREQ, WO, R142. -/
def SCH_CTL_SWREQ : Fld := ⟨.SCH_CTL, 1, 1⟩
/-- SCH.CTL.SWBANK, RW, R142. -/
def SCH_CTL_SWBANK : Fld := ⟨.SCH_CTL, 2, 1⟩
/-- SCH.CTL.CANCEL, WO, R142. -/
def SCH_CTL_CANCEL : Fld := ⟨.SCH_CTL, 3, 1⟩
/-- SCH.STATUS.ACTIVE, RO, R142. -/
def SCH_STATUS_ACTIVE : Fld := ⟨.SCH_STATUS, 0, 1⟩
/-- SCH.STATUS.RUNNING, RO, R142. -/
def SCH_STATUS_RUNNING : Fld := ⟨.SCH_STATUS, 1, 1⟩
/-- SCH.STATUS.PENDING, RO, R142. -/
def SCH_STATUS_PENDING : Fld := ⟨.SCH_STATUS, 2, 1⟩
/-- SCH.STATUS.REFUSED, W1C, R142. -/
def SCH_STATUS_REFUSED : Fld := ⟨.SCH_STATUS, 3, 1⟩
/-- SCH.STATUS.REFCAUSE, RO, R142. -/
def SCH_STATUS_REFCAUSE : Fld := ⟨.SCH_STATUS, 4, 3⟩
/-- SCH.STATUS.LATE, W1C, R142. -/
def SCH_STATUS_LATE : Fld := ⟨.SCH_STATUS, 7, 1⟩
/-- SCH.STATUS.WERR, W1C, R142. -/
def SCH_STATUS_WERR : Fld := ⟨.SCH_STATUS, 8, 1⟩
/-- SCH.STATUS.CANCELLED, W1C, R142. -/
def SCH_STATUS_CANCELLED : Fld := ⟨.SCH_STATUS, 9, 1⟩
/-- SCH.BANKA.LENM, RO, R142. -/
def SCH_BANKA_LENM : Fld := ⟨.SCH_BANKA, 0, 16⟩
/-- SCH.BANKA.VALID, RO, R142. -/
def SCH_BANKA_VALID : Fld := ⟨.SCH_BANKA, 16, 1⟩
/-- SCH.BANKA.RACK, RO, R142. -/
def SCH_BANKA_RACK : Fld := ⟨.SCH_BANKA, 17, 1⟩
/-- SCH.BANKB.LENM, RO, R142. -/
def SCH_BANKB_LENM : Fld := ⟨.SCH_BANKB, 0, 16⟩
/-- SCH.BANKB.VALID, RO, R142. -/
def SCH_BANKB_VALID : Fld := ⟨.SCH_BANKB, 16, 1⟩
/-- SCH.BANKB.RACK, RO, R142. -/
def SCH_BANKB_RACK : Fld := ⟨.SCH_BANKB, 17, 1⟩
/-- SCH.GENA.GEN, RO, R142. -/
def SCH_GENA_GEN : Fld := ⟨.SCH_GENA, 0, 32⟩
/-- SCH.GENB.GEN, RO, R142. -/
def SCH_GENB_GEN : Fld := ⟨.SCH_GENB, 0, 32⟩
/-- SCH.ORIGINL.ORIGIN, RW, R142. -/
def SCH_ORIGINL_ORIGIN : Fld := ⟨.SCH_ORIGINL, 0, 32⟩
/-- SCH.ORIGINH.ORIGIN, RW, R142. -/
def SCH_ORIGINH_ORIGIN : Fld := ⟨.SCH_ORIGINH, 0, 32⟩
/-- SCH.FRAMEL.FRAME, RO, R142. -/
def SCH_FRAMEL_FRAME : Fld := ⟨.SCH_FRAMEL, 0, 32⟩
/-- SCH.FRAMEH.FRAME, RO, R142. -/
def SCH_FRAMEH_FRAME : Fld := ⟨.SCH_FRAMEH, 0, 32⟩
/-- SQ.SLOTSTAT.MISSED, RC, R142. -/
def SQ_SLOTSTAT_MISSED : Fld := ⟨.SQ_SLOTSTAT, 0, 8⟩
/-- SQ.SLOTSTAT.OVERRUN, RC, R142. -/
def SQ_SLOTSTAT_OVERRUN : Fld := ⟨.SQ_SLOTSTAT, 8, 8⟩
/-- SQ.SLOTSTAT.SKIPPED, RC, R142. -/
def SQ_SLOTSTAT_SKIPPED : Fld := ⟨.SQ_SLOTSTAT, 16, 8⟩
/-- SQ.SLOTSTAT.MISSSAT, RC, R142. -/
def SQ_SLOTSTAT_MISSSAT : Fld := ⟨.SQ_SLOTSTAT, 24, 1⟩
/-- SQ.SLOTSTAT.OVRSAT, RC, R142. -/
def SQ_SLOTSTAT_OVRSAT : Fld := ⟨.SQ_SLOTSTAT, 25, 1⟩
/-- SQ.SLOTSTAT.SKIPSAT, RC, R142. -/
def SQ_SLOTSTAT_SKIPSAT : Fld := ⟨.SQ_SLOTSTAT, 26, 1⟩
/-- SQ.SLOTSTAT.STALE, RO, R142. -/
def SQ_SLOTSTAT_STALE : Fld := ⟨.SQ_SLOTSTAT, 27, 1⟩
/-- SQ.SLOTSTAT.HOLD, RO, R142. -/
def SQ_SLOTSTAT_HOLD : Fld := ⟨.SQ_SLOTSTAT, 28, 1⟩
/-- SQ.EPOCH.SQEPOCH, RO, R142. -/
def SQ_EPOCH_SQEPOCH : Fld := ⟨.SQ_EPOCH, 0, 16⟩
/-- SQ.PLANEPOCH.EPOCHA, RO, R142. -/
def SQ_PLANEPOCH_EPOCHA : Fld := ⟨.SQ_PLANEPOCH, 0, 16⟩
/-- SQ.PLANEPOCH.EPOCHB, RO, R142. -/
def SQ_PLANEPOCH_EPOCHB : Fld := ⟨.SQ_PLANEPOCH, 16, 16⟩
/-- SCH.LDSRCL.ADDR, RW, R157. -/
def SCH_LDSRCL_ADDR : Fld := ⟨.SCH_LDSRCL, 0, 32⟩
/-- SCH.LDSRCH.ADDR, RW, R157. -/
def SCH_LDSRCH_ADDR : Fld := ⟨.SCH_LDSRCH, 0, 8⟩
/-- SCH.LDCTL.GO, WO, R157. -/
def SCH_LDCTL_GO : Fld := ⟨.SCH_LDCTL, 0, 1⟩
/-- SCH.LDCTL.BANK, RW, R157. -/
def SCH_LDCTL_BANK : Fld := ⟨.SCH_LDCTL, 1, 1⟩
/-- SCH.LDCTL.ABORT, WO, R157. -/
def SCH_LDCTL_ABORT : Fld := ⟨.SCH_LDCTL, 2, 1⟩
/-- SCH.LDSTAT.BUSY, RO, R157. -/
def SCH_LDSTAT_BUSY : Fld := ⟨.SCH_LDSTAT, 0, 1⟩
/-- SCH.LDSTAT.DONE, W1C, R157. -/
def SCH_LDSTAT_DONE : Fld := ⟨.SCH_LDSTAT, 1, 1⟩
/-- SCH.LDSTAT.ERR, W1C, R157. -/
def SCH_LDSTAT_ERR : Fld := ⟨.SCH_LDSTAT, 2, 1⟩
/-- SCH.LDSTAT.WERR, W1C, R157. -/
def SCH_LDSTAT_WERR : Fld := ⟨.SCH_LDSTAT, 3, 1⟩
/-- SCH.LDSTAT.ERRCODE, RO, R157. -/
def SCH_LDSTAT_ERRCODE : Fld := ⟨.SCH_LDSTAT, 8, 8⟩
/-- SCH.LDERR.SECT, RO, R157. -/
def SCH_LDERR_SECT : Fld := ⟨.SCH_LDERR, 0, 13⟩
/-- SCH.LDERR.ITEM, RO, R157. -/
def SCH_LDERR_ITEM : Fld := ⟨.SCH_LDERR, 13, 12⟩
/-- EP.CTL.ENABLE, RW, R190. -/
def EP_CTL_ENABLE : Fld := ⟨.EP_CTL, 0, 1⟩
/-- EP.CTL.TT, RW, R190. -/
def EP_CTL_TT : Fld := ⟨.EP_CTL, 1, 1⟩
/-- EP.CTL.UPDN, RW, R190. -/
def EP_CTL_UPDN : Fld := ⟨.EP_CTL, 2, 1⟩
/-- EP.CTL.COMPL, RW, R190. -/
def EP_CTL_COMPL : Fld := ⟨.EP_CTL, 3, 1⟩
/-- EP.CTL.LOADPK, RW, R190. -/
def EP_CTL_LOADPK : Fld := ⟨.EP_CTL, 4, 1⟩
/-- EP.CTL.POLA, RW, R190. -/
def EP_CTL_POLA : Fld := ⟨.EP_CTL, 5, 1⟩
/-- EP.CTL.POLB, RW, R190. -/
def EP_CTL_POLB : Fld := ⟨.EP_CTL, 6, 1⟩
/-- EP.CTL.SAFEA, RW, R190. -/
def EP_CTL_SAFEA : Fld := ⟨.EP_CTL, 7, 2⟩
/-- EP.CTL.SAFEB, RW, R190. -/
def EP_CTL_SAFEB : Fld := ⟨.EP_CTL, 9, 2⟩
/-- EP.CTL.TERMEN, RW, R190. -/
def EP_CTL_TERMEN : Fld := ⟨.EP_CTL, 11, 1⟩
/-- EP.CTL.RBEN, RW, R190. -/
def EP_CTL_RBEN : Fld := ⟨.EP_CTL, 12, 1⟩
/-- EP.CTL.LATESAFE, RW, R190. -/
def EP_CTL_LATESAFE : Fld := ⟨.EP_CTL, 13, 1⟩
/-- EP.PERIOD.PERIOD, RW, R191. -/
def EP_PERIOD_PERIOD : Fld := ⟨.EP_PERIOD, 0, 32⟩
/-- EP.DUTYA.DUTY, RW, R191. -/
def EP_DUTYA_DUTY : Fld := ⟨.EP_DUTYA, 0, 32⟩
/-- EP.DUTYB.DUTY, RW, R191. -/
def EP_DUTYB_DUTY : Fld := ⟨.EP_DUTYB, 0, 32⟩
/-- EP.DTRISE.DT, RW, R191. -/
def EP_DTRISE_DT : Fld := ⟨.EP_DTRISE, 0, 20⟩
/-- EP.DTFALL.DT, RW, R191. -/
def EP_DTFALL_DT : Fld := ⟨.EP_DTFALL, 0, 20⟩
/-- EP.MAXON.MAXON, RW, R191. -/
def EP_MAXON_MAXON : Fld := ⟨.EP_MAXON, 0, 32⟩
/-- EP.ORIGINL.TICK, RW, R191. -/
def EP_ORIGINL_TICK : Fld := ⟨.EP_ORIGINL, 0, 32⟩
/-- EP.ORIGINH.TICK, RW, R191. -/
def EP_ORIGINH_TICK : Fld := ⟨.EP_ORIGINH, 0, 32⟩
/-- EP.ORIGINF.FINE, RW, R191. -/
def EP_ORIGINF_FINE : Fld := ⟨.EP_ORIGINF, 0, 7⟩
/-- EP.CNT.COUNT, RO, R191. -/
def EP_CNT_COUNT : Fld := ⟨.EP_CNT, 0, 32⟩
/-- EP.QTIME.TICK, RW, R191. -/
def EP_QTIME_TICK : Fld := ⟨.EP_QTIME, 0, 32⟩
/-- EP.QPUSH.FINE, WO, R191. -/
def EP_QPUSH_FINE : Fld := ⟨.EP_QPUSH, 0, 7⟩
/-- EP.QPUSH.KIND, WO, R191. -/
def EP_QPUSH_KIND : Fld := ⟨.EP_QPUSH, 8, 2⟩
/-- EP.QSTAT.QA, RO, R191. -/
def EP_QSTAT_QA : Fld := ⟨.EP_QSTAT, 0, 5⟩
/-- EP.QSTAT.QB, RO, R191. -/
def EP_QSTAT_QB : Fld := ⟨.EP_QSTAT, 8, 5⟩
/-- EP.STAT.LATE, W1C, R192. -/
def EP_STAT_LATE : Fld := ⟨.EP_STAT, 0, 1⟩
/-- EP.STAT.QFULL, W1C, R192. -/
def EP_STAT_QFULL : Fld := ⟨.EP_STAT, 1, 1⟩
/-- EP.STAT.ORDER, W1C, R192. -/
def EP_STAT_ORDER : Fld := ⟨.EP_STAT, 2, 1⟩
/-- EP.STAT.MODEERR, W1C, R192. -/
def EP_STAT_MODEERR : Fld := ⟨.EP_STAT, 3, 1⟩
/-- EP.STAT.CLAMP, W1C, R192. -/
def EP_STAT_CLAMP : Fld := ⟨.EP_STAT, 4, 1⟩
/-- EP.STAT.SHORT, W1C, R192. -/
def EP_STAT_SHORT : Fld := ⟨.EP_STAT, 5, 1⟩
/-- EP.STAT.MAXON, W1C, R192. -/
def EP_STAT_MAXON : Fld := ⟨.EP_STAT, 6, 1⟩
/-- EP.STAT.RBFAULT, W1C, R192. -/
def EP_STAT_RBFAULT : Fld := ⟨.EP_STAT, 7, 1⟩
/-- EP.STAT.TRIPPED, RO, R192. -/
def EP_STAT_TRIPPED : Fld := ⟨.EP_STAT, 8, 1⟩
/-- EP.STAT.STARTED, RO, R192. -/
def EP_STAT_STARTED : Fld := ⟨.EP_STAT, 9, 1⟩
/-- EP.COUNT.LATECNT, RC, R192. -/
def EP_COUNT_LATECNT : Fld := ⟨.EP_COUNT, 0, 8⟩
/-- EP.COUNT.DROPCNT, RC, R192. -/
def EP_COUNT_DROPCNT : Fld := ⟨.EP_COUNT, 8, 8⟩
/-- EP.COUNT.TERMCNT, RC, R192. -/
def EP_COUNT_TERMCNT : Fld := ⟨.EP_COUNT, 16, 8⟩
/-- EP.COUNT.LATESAT, RC, R192. -/
def EP_COUNT_LATESAT : Fld := ⟨.EP_COUNT, 24, 1⟩
/-- EP.COUNT.DROPSAT, RC, R192. -/
def EP_COUNT_DROPSAT : Fld := ⟨.EP_COUNT, 25, 1⟩
/-- EP.COUNT.TERMSAT, RC, R192. -/
def EP_COUNT_TERMSAT : Fld := ⟨.EP_COUNT, 26, 1⟩
/-- EP.STEER.MEMBER, RW, R193. -/
def EP_STEER_MEMBER : Fld := ⟨.EP_STEER, 0, 4⟩
/-- EP.STEER.ACTIVE, RW, R193. -/
def EP_STEER_ACTIVE : Fld := ⟨.EP_STEER, 4, 1⟩
/-- EP.STEER.BUSY, RO, R193. -/
def EP_STEER_BUSY : Fld := ⟨.EP_STEER, 5, 1⟩
/-- EP.STEER.ERR, W1C, R193. -/
def EP_STEER_ERR : Fld := ⟨.EP_STEER, 6, 1⟩
/-- CV.CTL.EN, RW, R221. -/
def CV_CTL_EN : Fld := ⟨.CV_CTL, 0, 1⟩
/-- CV.CTL.FMT, RW, R221. -/
def CV_CTL_FMT : Fld := ⟨.CV_CTL, 1, 2⟩
/-- CV.CTL.TRIGSEL, RW, R221. -/
def CV_CTL_TRIGSEL : Fld := ⟨.CV_CTL, 3, 2⟩
/-- CV.CTL.ARM, RW, R221. -/
def CV_CTL_ARM : Fld := ⟨.CV_CTL, 5, 1⟩
/-- CV.CTL.SWTRIG, WO, R221. -/
def CV_CTL_SWTRIG : Fld := ⟨.CV_CTL, 6, 1⟩
/-- CV.CTL.PACE, RW, R221. -/
def CV_CTL_PACE : Fld := ⟨.CV_CTL, 8, 12⟩
/-- CV.SCAN.MASK, RW, R222. -/
def CV_SCAN_MASK : Fld := ⟨.CV_SCAN, 0, 12⟩
/-- CV.GAIN.GAIN, RW, R222. -/
def CV_GAIN_GAIN : Fld := ⟨.CV_GAIN, 0, 27⟩
/-- CV.FRONT.FILT, RW, R222. -/
def CV_FRONT_FILT : Fld := ⟨.CV_FRONT, 0, 10⟩
/-- CV.FRONT.BIAS, RW, R222. -/
def CV_FRONT_BIAS : Fld := ⟨.CV_FRONT, 10, 5⟩
/-- CV.TRIGL.TICK, RW, R222. -/
def CV_TRIGL_TICK : Fld := ⟨.CV_TRIGL, 0, 32⟩
/-- CV.TRIGH.TICK, RW, R222. -/
def CV_TRIGH_TICK : Fld := ⟨.CV_TRIGH, 0, 32⟩
/-- CV.TRIGF.FINE, RW, R222. -/
def CV_TRIGF_FINE : Fld := ⟨.CV_TRIGF, 0, 7⟩
/-- CV.TPER.TPER, RW, R222. -/
def CV_TPER_TPER : Fld := ⟨.CV_TPER, 0, 32⟩
/-- CV.EVDLY.DELAY, RW, R222. -/
def CV_EVDLY_DELAY : Fld := ⟨.CV_EVDLY, 0, 20⟩
/-- CV.USCALE.SCALE, RW, R222. -/
def CV_USCALE_SCALE : Fld := ⟨.CV_USCALE, 0, 32⟩
/-- CV.UOFF.OFFS, RW, R222. -/
def CV_UOFF_OFFS : Fld := ⟨.CV_UOFF, 0, 32⟩
/-- CV.LAST.CODE, RO, R223. -/
def CV_LAST_CODE : Fld := ⟨.CV_LAST, 0, 16⟩
/-- CV.LAST.SRC, RO, R223. -/
def CV_LAST_SRC : Fld := ⟨.CV_LAST, 16, 4⟩
/-- CV.LAST.SEQ, RO, R223. -/
def CV_LAST_SEQ : Fld := ⟨.CV_LAST, 20, 8⟩
/-- CV.LAST.ERR, RO, R223. -/
def CV_LAST_ERR : Fld := ⟨.CV_LAST, 28, 1⟩
/-- CV.STAT.OVR, W1C, R223. -/
def CV_STAT_OVR : Fld := ⟨.CV_STAT, 0, 1⟩
/-- CV.STAT.LATE, W1C, R223. -/
def CV_STAT_LATE : Fld := ⟨.CV_STAT, 1, 1⟩
/-- CV.STAT.WERR, W1C, R223. -/
def CV_STAT_WERR : Fld := ⟨.CV_STAT, 2, 1⟩
/-- CV.STAT.RANGE, W1C, R223. -/
def CV_STAT_RANGE : Fld := ⟨.CV_STAT, 3, 1⟩
/-- CV.STAT.MISMATCH, W1C, R223. -/
def CV_STAT_MISMATCH : Fld := ⟨.CV_STAT, 4, 1⟩
/-- CV.STAT.CFGERR, W1C, R223. -/
def CV_STAT_CFGERR : Fld := ⟨.CV_STAT, 5, 1⟩
/-- CV.STAT.NRDY, W1C, R223. -/
def CV_STAT_NRDY : Fld := ⟨.CV_STAT, 6, 1⟩
/-- CV.STAT.UNCHECKED, W1C, R223. -/
def CV_STAT_UNCHECKED : Fld := ⟨.CV_STAT, 7, 1⟩
/-- CV.STAT.BUSY, RO, R223. -/
def CV_STAT_BUSY : Fld := ⟨.CV_STAT, 8, 1⟩
/-- CV.STAT.SLICE, RO, R223. -/
def CV_STAT_SLICE : Fld := ⟨.CV_STAT, 9, 4⟩
/-- CV.COUNT.OVRCNT, RC, R223. -/
def CV_COUNT_OVRCNT : Fld := ⟨.CV_COUNT, 0, 8⟩
/-- CV.COUNT.RANGECNT, RC, R223. -/
def CV_COUNT_RANGECNT : Fld := ⟨.CV_COUNT, 8, 8⟩
/-- CV.COUNT.OVRSAT, RC, R223. -/
def CV_COUNT_OVRSAT : Fld := ⟨.CV_COUNT, 16, 1⟩
/-- CV.COUNT.RANGESAT, RC, R223. -/
def CV_COUNT_RANGESAT : Fld := ⟨.CV_COUNT, 17, 1⟩
/-- CV.ROT.ROTEN, RW, R224. -/
def CV_ROT_ROTEN : Fld := ⟨.CV_ROT, 0, 1⟩
/-- CV.ROT.ROTINT, RW, R224. -/
def CV_ROT_ROTINT : Fld := ⟨.CV_ROT, 1, 16⟩
/-- CV.ROT.CMPTOL, RW, R224. -/
def CV_ROT_CMPTOL : Fld := ⟨.CV_ROT, 17, 8⟩
/-- CV.ROTSTAT.SPARE, RO, R224. -/
def CV_ROTSTAT_SPARE : Fld := ⟨.CV_ROTSTAT, 0, 4⟩
/-- CV.ROTSTAT.DIR, RO, R224. -/
def CV_ROTSTAT_DIR : Fld := ⟨.CV_ROTSTAT, 4, 1⟩
/-- CV.ROTSTAT.NOSPARE, RO, R224. -/
def CV_ROTSTAT_NOSPARE : Fld := ⟨.CV_ROTSTAT, 5, 1⟩
/-- CV.ROTSTAT.CALDONE, RO, R224. -/
def CV_ROTSTAT_CALDONE : Fld := ⟨.CV_ROTSTAT, 6, 1⟩
/-- CV.ROTSTAT.MISCNT, RC, R224. -/
def CV_ROTSTAT_MISCNT : Fld := ⟨.CV_ROTSTAT, 7, 8⟩
/-- CV.ROTSTAT.MISSAT, RC, R224. -/
def CV_ROTSTAT_MISSAT : Fld := ⟨.CV_ROTSTAT, 15, 1⟩
/-- CV.ROTSTAT.UNCHKCNT, RC, R224. -/
def CV_ROTSTAT_UNCHKCNT : Fld := ⟨.CV_ROTSTAT, 16, 8⟩
/-- CV.ROTSTAT.UNCHKSAT, RC, R224. -/
def CV_ROTSTAT_UNCHKSAT : Fld := ⟨.CV_ROTSTAT, 24, 1⟩
/-- SL.STAT.STATE, RO, R225. -/
def SL_STAT_STATE : Fld := ⟨.SL_STAT, 0, 2⟩
/-- SL.STAT.CONV, RO, R225. -/
def SL_STAT_CONV : Fld := ⟨.SL_STAT, 2, 3⟩
/-- SL.STAT.CALFAIL, W1C, R225. -/
def SL_STAT_CALFAIL : Fld := ⟨.SL_STAT, 5, 1⟩
/-- SL.STAT.CALCNT, RC, R225. -/
def SL_STAT_CALCNT : Fld := ⟨.SL_STAT, 16, 8⟩
/-- SL.STAT.CALSAT, RC, R225. -/
def SL_STAT_CALSAT : Fld := ⟨.SL_STAT, 24, 1⟩
/-- SL.CAL.OFFS, RO, R225. -/
def SL_CAL_OFFS : Fld := ⟨.SL_CAL, 0, 16⟩
/-- SL.CAL.GAINC, RO, R225. -/
def SL_CAL_GAINC : Fld := ⟨.SL_CAL, 16, 16⟩
/-- SQ.SPSTAT.STALE, RC, R226. -/
def SQ_SPSTAT_STALE : Fld := ⟨.SQ_SPSTAT, 0, 8⟩
/-- SQ.SPSTAT.STALESAT, RC, R226. -/
def SQ_SPSTAT_STALESAT : Fld := ⟨.SQ_SPSTAT, 8, 1⟩
/-- CMP.CTL.EN, RW, R255. -/
def CMP_CTL_EN : Fld := ⟨.CMP_CTL, 0, 1⟩
/-- CMP.CTL.BIAS, RW, R255. -/
def CMP_CTL_BIAS : Fld := ⟨.CMP_CTL, 1, 1⟩
/-- CMP.CTL.INPUT, RW, R255. -/
def CMP_CTL_INPUT : Fld := ⟨.CMP_CTL, 2, 8⟩
/-- CMP.CTL.MODE, RW, R255. -/
def CMP_CTL_MODE : Fld := ⟨.CMP_CTL, 10, 2⟩
/-- CMP.CTL.SHADOW, RW, R255. -/
def CMP_CTL_SHADOW : Fld := ⟨.CMP_CTL, 12, 1⟩
/-- CMP.CTL.RAMPEN, RW, R255. -/
def CMP_CTL_RAMPEN : Fld := ⟨.CMP_CTL, 13, 1⟩
/-- CMP.CTL.BTRIP, RW, R255. -/
def CMP_CTL_BTRIP : Fld := ⟨.CMP_CTL, 14, 1⟩
/-- CMP.CTL.LINK, RW, R255. -/
def CMP_CTL_LINK : Fld := ⟨.CMP_CTL, 20, 8⟩
/-- CMP.HI.HI, RW, R256. -/
def CMP_HI_HI : Fld := ⟨.CMP_HI, 0, 12⟩
/-- CMP.LO.LO, RW, R256. -/
def CMP_LO_LO : Fld := ⟨.CMP_LO, 0, 12⟩
/-- CMP.HYST.HYST, RW, R256. -/
def CMP_HYST_HYST : Fld := ⟨.CMP_HYST, 0, 8⟩
/-- CMP.RAMP.SLOPE, RW, R256. -/
def CMP_RAMP_SLOPE : Fld := ⟨.CMP_RAMP, 0, 16⟩
/-- CMP.BLANK.BLANKT, RW, R256. -/
def CMP_BLANK_BLANKT : Fld := ⟨.CMP_BLANK, 0, 12⟩
/-- CMP.BLANK.EDGESEL, RW, R256. -/
def CMP_BLANK_EDGESEL : Fld := ⟨.CMP_BLANK, 12, 4⟩
/-- CMP.STAT.OUT, RO, R257. -/
def CMP_STAT_OUT : Fld := ⟨.CMP_STAT, 0, 1⟩
/-- CMP.STAT.RAW, RO, R257. -/
def CMP_STAT_RAW : Fld := ⟨.CMP_STAT, 1, 1⟩
/-- CMP.STAT.LATE, W1C, R257. -/
def CMP_STAT_LATE : Fld := ⟨.CMP_STAT, 2, 1⟩
/-- CMP.STAT.ORDER, W1C, R257. -/
def CMP_STAT_ORDER : Fld := ⟨.CMP_STAT, 3, 1⟩
/-- CMP.STAT.CFGERR, W1C, R257. -/
def CMP_STAT_CFGERR : Fld := ⟨.CMP_STAT, 4, 1⟩
/-- CMP.STAT.BLANKING, RO, R257. -/
def CMP_STAT_BLANKING : Fld := ⟨.CMP_STAT, 5, 1⟩
/-- CMP.STAT.HIEFF, RO, R257. -/
def CMP_STAT_HIEFF : Fld := ⟨.CMP_STAT, 16, 12⟩
/-- CMP.COUNT.ASSERTCNT, RC, R257. -/
def CMP_COUNT_ASSERTCNT : Fld := ⟨.CMP_COUNT, 0, 16⟩
/-- CMP.COUNT.SAT, RC, R257. -/
def CMP_COUNT_SAT : Fld := ⟨.CMP_COUNT, 16, 1⟩
/-- CMP.STEER.MEMBER, RW, R257. -/
def CMP_STEER_MEMBER : Fld := ⟨.CMP_STEER, 0, 4⟩
/-- CMP.STEER.ACTIVE, RW, R257. -/
def CMP_STEER_ACTIVE : Fld := ⟨.CMP_STEER, 4, 1⟩
/-- CMP.STEER.BUSY, RO, R257. -/
def CMP_STEER_BUSY : Fld := ⟨.CMP_STEER, 5, 1⟩
/-- CMP.STEER.ERR, W1C, R257. -/
def CMP_STEER_ERR : Fld := ⟨.CMP_STEER, 6, 1⟩
/-- FLT.TSEL.INDEX, RW, R258. -/
def FLT_TSEL_INDEX : Fld := ⟨.FLT_TSEL, 0, 10⟩
/-- FLT.STAT.WERR, W1C, R258. -/
def FLT_STAT_WERR : Fld := ⟨.FLT_STAT, 0, 1⟩
/-- FLT.STAT.RELERR, W1C, R258. -/
def FLT_STAT_RELERR : Fld := ⟨.FLT_STAT, 1, 1⟩
/-- FLT.STAT.ANY, RO, R258. -/
def FLT_STAT_ANY : Fld := ⟨.FLT_STAT, 2, 1⟩
/-- FLT.NETL.TRIPPED, RO, R258. -/
def FLT_NETL_TRIPPED : Fld := ⟨.FLT_NETL, 0, 32⟩
/-- FLT.NETH.TRIPPED, RO, R258. -/
def FLT_NETH_TRIPPED : Fld := ⟨.FLT_NETH, 0, 32⟩
/-- FLT.RELL.REL, WO, R258. -/
def FLT_RELL_REL : Fld := ⟨.FLT_RELL, 0, 32⟩
/-- FLT.RELH.REL, WO, R258. -/
def FLT_RELH_REL : Fld := ⟨.FLT_RELH, 0, 32⟩
/-- FLT.SWTRIP.GO, WO, R258. -/
def FLT_SWTRIP_GO : Fld := ⟨.FLT_SWTRIP, 0, 1⟩
/-- FLT.FIRST.SRC, RO, R258. -/
def FLT_FIRST_SRC : Fld := ⟨.FLT_FIRST, 0, 10⟩
/-- FLT.FIRST.NET, RO, R258. -/
def FLT_FIRST_NET : Fld := ⟨.FLT_FIRST, 10, 6⟩
/-- FLT.FIRST.VALID, W1C, R258. -/
def FLT_FIRST_VALID : Fld := ⟨.FLT_FIRST, 16, 1⟩
/-- FLT.FIRSTL.TICK, RO, R258. -/
def FLT_FIRSTL_TICK : Fld := ⟨.FLT_FIRSTL, 0, 32⟩
/-- FLT.FIRSTH.TICK, RO, R258. -/
def FLT_FIRSTH_TICK : Fld := ⟨.FLT_FIRSTH, 0, 32⟩
/-- FLT.TRIPCNT.COUNT, RC, R258. -/
def FLT_TRIPCNT_COUNT : Fld := ⟨.FLT_TRIPCNT, 0, 16⟩
/-- FLT.TRIPCNT.SAT, RC, R258. -/
def FLT_TRIPCNT_SAT : Fld := ⟨.FLT_TRIPCNT, 16, 1⟩
/-- FLT.SRCE.EN, RW, R259. -/
def FLT_SRCE_EN : Fld := ⟨.FLT_SRCE, 0, 1⟩
/-- FLT.SRCE.NET, RW, R259. -/
def FLT_SRCE_NET : Fld := ⟨.FLT_SRCE, 1, 6⟩
/-- FLT.SRCE.ACTIVE, RO, R259. -/
def FLT_SRCE_ACTIVE : Fld := ⟨.FLT_SRCE, 7, 1⟩
/-- FLT.PAIRE.ENA, RW, R259. -/
def FLT_PAIRE_ENA : Fld := ⟨.FLT_PAIRE, 0, 1⟩
/-- FLT.PAIRE.NETA, RW, R259. -/
def FLT_PAIRE_NETA : Fld := ⟨.FLT_PAIRE, 1, 6⟩
/-- FLT.PAIRE.ENB, RW, R259. -/
def FLT_PAIRE_ENB : Fld := ⟨.FLT_PAIRE, 7, 1⟩
/-- FLT.PAIRE.NETB, RW, R259. -/
def FLT_PAIRE_NETB : Fld := ⟨.FLT_PAIRE, 8, 6⟩
/-- FLT.PAIRE.TERMEN, RW, R259. -/
def FLT_PAIRE_TERMEN : Fld := ⟨.FLT_PAIRE, 14, 1⟩
/-- FLT.PAIRE.TERMSRC, RW, R259. -/
def FLT_PAIRE_TERMSRC : Fld := ⟨.FLT_PAIRE, 15, 9⟩
/-- FLT.NETE.MODE, RW, R259. -/
def FLT_NETE_MODE : Fld := ⟨.FLT_NETE, 0, 1⟩
/-- FLT.NETE.SEV, RW, R259. -/
def FLT_NETE_SEV : Fld := ⟨.FLT_NETE, 1, 1⟩
/-- FLT.NETE.HOLD, RW, R259. -/
def FLT_NETE_HOLD : Fld := ⟨.FLT_NETE, 2, 12⟩
/-- FLT.NETE.TRIPPED, RO, R259. -/
def FLT_NETE_TRIPPED : Fld := ⟨.FLT_NETE, 14, 1⟩
/-- FLT.NETE.FIRST, RO, R259. -/
def FLT_NETE_FIRST : Fld := ⟨.FLT_NETE, 15, 9⟩
/-- FLT.NETE.COUNT, RC, R259. -/
def FLT_NETE_COUNT : Fld := ⟨.FLT_NETE, 24, 7⟩
/-- FLT.NETE.SAT, RC, R259. -/
def FLT_NETE_SAT : Fld := ⟨.FLT_NETE, 31, 1⟩
/-- SDI.CTL.EN, RW, R289. -/
def SDI_CTL_EN : Fld := ⟨.SDI_CTL, 0, 1⟩
/-- SDI.CTL.ORD, RW, R289. -/
def SDI_CTL_ORD : Fld := ⟨.SDI_CTL, 1, 1⟩
/-- SDI.CTL.OSRM, RW, R289. -/
def SDI_CTL_OSRM : Fld := ⟨.SDI_CTL, 2, 8⟩
/-- SDI.CTL.CLKSEL, RW, R289. -/
def SDI_CTL_CLKSEL : Fld := ⟨.SDI_CTL, 10, 4⟩
/-- SDI.CTL.SH, RW, R289. -/
def SDI_CTL_SH : Fld := ⟨.SDI_CTL, 14, 5⟩
/-- SDI.CTL.FTEN, RW, R289. -/
def SDI_CTL_FTEN : Fld := ⟨.SDI_CTL, 19, 1⟩
/-- SDI.CTL.DSKEW, RW, R289. -/
def SDI_CTL_DSKEW : Fld := ⟨.SDI_CTL, 20, 11⟩
/-- SDI.FTRIP.FLEN, RW, R289. -/
def SDI_FTRIP_FLEN : Fld := ⟨.SDI_FTRIP, 0, 6⟩
/-- SDI.FTRIP.FHI, RW, R289. -/
def SDI_FTRIP_FHI : Fld := ⟨.SDI_FTRIP, 6, 6⟩
/-- SDI.FTRIP.FLO, RW, R289. -/
def SDI_FTRIP_FLO : Fld := ⟨.SDI_FTRIP, 12, 6⟩
/-- SDI.FTRIP.FHIEN, RW, R289. -/
def SDI_FTRIP_FHIEN : Fld := ⟨.SDI_FTRIP, 18, 1⟩
/-- SDI.FTRIP.FLOEN, RW, R289. -/
def SDI_FTRIP_FLOEN : Fld := ⟨.SDI_FTRIP, 19, 1⟩
/-- SDI.STUCK.STUCKN, RW, R289. -/
def SDI_STUCK_STUCKN : Fld := ⟨.SDI_STUCK, 0, 16⟩
/-- SDI.RESULT.RESULT, RO, R289. -/
def SDI_RESULT_RESULT : Fld := ⟨.SDI_RESULT, 0, 32⟩
/-- SDI.RSTAT.SEQ, RO, R289. -/
def SDI_RSTAT_SEQ : Fld := ⟨.SDI_RSTAT, 0, 8⟩
/-- SDI.STAT.FT, RO, R289. -/
def SDI_STAT_FT : Fld := ⟨.SDI_STAT, 0, 1⟩
/-- SDI.STAT.STUCK, W1C, R289. -/
def SDI_STAT_STUCK : Fld := ⟨.SDI_STAT, 1, 1⟩
/-- SDI.STAT.SAT, W1C, R289. -/
def SDI_STAT_SAT : Fld := ⟨.SDI_STAT, 2, 1⟩
/-- SDI.STAT.CFGERR, W1C, R289. -/
def SDI_STAT_CFGERR : Fld := ⟨.SDI_STAT, 3, 1⟩
/-- SDI.COUNT.FTCNT, RC, R289. -/
def SDI_COUNT_FTCNT : Fld := ⟨.SDI_COUNT, 0, 8⟩
/-- SDI.COUNT.STKCNT, RC, R289. -/
def SDI_COUNT_STKCNT : Fld := ⟨.SDI_COUNT, 8, 8⟩
/-- SDI.COUNT.FTSAT, RC, R289. -/
def SDI_COUNT_FTSAT : Fld := ⟨.SDI_COUNT, 16, 1⟩
/-- SDI.COUNT.STKSAT, RC, R289. -/
def SDI_COUNT_STKSAT : Fld := ⟨.SDI_COUNT, 17, 1⟩
/-- SDI.CLK.DIV, RW, R289. -/
def SDI_CLK_DIV : Fld := ⟨.SDI_CLK, 0, 11⟩
/-- SDI.CLK.CEN, RW, R289. -/
def SDI_CLK_CEN : Fld := ⟨.SDI_CLK, 11, 1⟩
/-- POS.CTL.EN, RW, R290. -/
def POS_CTL_EN : Fld := ⟨.POS_CTL, 0, 1⟩
/-- POS.CTL.MODE, RW, R290. -/
def POS_CTL_MODE : Fld := ⟨.POS_CTL, 1, 2⟩
/-- POS.CTL.TERM, RW, R290. -/
def POS_CTL_TERM : Fld := ⟨.POS_CTL, 3, 4⟩
/-- POS.CTL.SE, RW, R290. -/
def POS_CTL_SE : Fld := ⟨.POS_CTL, 7, 1⟩
/-- POS.CTL.REV, RW, R290. -/
def POS_CTL_REV : Fld := ⟨.POS_CTL, 8, 1⟩
/-- POS.CTL.IDXRST, RW, R290. -/
def POS_CTL_IDXRST : Fld := ⟨.POS_CTL, 9, 1⟩
/-- POS.CTL.IDXGATE, RW, R290. -/
def POS_CTL_IDXGATE : Fld := ⟨.POS_CTL, 10, 1⟩
/-- POS.CTL.IDXAB, RW, R290. -/
def POS_CTL_IDXAB : Fld := ⟨.POS_CTL, 11, 2⟩
/-- POS.CTL.GRAY, RW, R290. -/
def POS_CTL_GRAY : Fld := ⟨.POS_CTL, 13, 1⟩
/-- POS.CTL.PAR, RW, R290. -/
def POS_CTL_PAR : Fld := ⟨.POS_CTL, 14, 1⟩
/-- POS.CTL.SSIEV, RW, R290. -/
def POS_CTL_SSIEV : Fld := ⟨.POS_CTL, 15, 1⟩
/-- POS.CTL.CMPEN, RW, R290. -/
def POS_CTL_CMPEN : Fld := ⟨.POS_CTL, 16, 1⟩
/-- POS.CTL.SAFE, RW, R290. -/
def POS_CTL_SAFE : Fld := ⟨.POS_CTL, 17, 1⟩
/-- POS.CTL.FILT, RW, R290. -/
def POS_CTL_FILT : Fld := ⟨.POS_CTL, 18, 8⟩
/-- POS.COUNT.POS, RW, R291. -/
def POS_COUNT_POS : Fld := ⟨.POS_COUNT, 0, 32⟩
/-- POS.RANGE.RANGEM, RW, R291. -/
def POS_RANGE_RANGEM : Fld := ⟨.POS_RANGE, 0, 32⟩
/-- POS.IDXCNT.POS, RO, R291. -/
def POS_IDXCNT_POS : Fld := ⟨.POS_IDXCNT, 0, 32⟩
/-- POS.EDGET.TICK, RO, R291. -/
def POS_EDGET_TICK : Fld := ⟨.POS_EDGET, 0, 32⟩
/-- POS.MINGAP.MINGAP, RW, R291. -/
def POS_MINGAP_MINGAP : Fld := ⟨.POS_MINGAP, 0, 16⟩
/-- POS.SPWIN.SPWIN, RW, R291. -/
def POS_SPWIN_SPWIN : Fld := ⟨.POS_SPWIN, 0, 24⟩
/-- POS.SPCFG.NLO, RW, R291. -/
def POS_SPCFG_NLO : Fld := ⟨.POS_SPCFG, 0, 8⟩
/-- POS.SPCFG.NHI, RW, R291. -/
def POS_SPCFG_NHI : Fld := ⟨.POS_SPCFG, 8, 8⟩
/-- POS.SPEED.SPEED, RO, R291. -/
def POS_SPEED_SPEED : Fld := ⟨.POS_SPEED, 0, 32⟩
/-- POS.SPSTAT.METHOD, RO, R291. -/
def POS_SPSTAT_METHOD : Fld := ⟨.POS_SPSTAT, 0, 1⟩
/-- POS.CMPVAL.CMPVAL, RW, R291. -/
def POS_CMPVAL_CMPVAL : Fld := ⟨.POS_CMPVAL, 0, 32⟩
/-- POS.CMPSTEP.CMPSTEP, RW, R291. -/
def POS_CMPSTEP_CMPSTEP : Fld := ⟨.POS_CMPSTEP, 0, 32⟩
/-- POS.SSICFG.PBITS, RW, R291. -/
def POS_SSICFG_PBITS : Fld := ⟨.POS_SSICFG, 0, 6⟩
/-- POS.SSICFG.EBITS, RW, R291. -/
def POS_SSICFG_EBITS : Fld := ⟨.POS_SSICFG, 6, 4⟩
/-- POS.SSIPER.SSIPER, RW, R291. -/
def POS_SSIPER_SSIPER : Fld := ⟨.POS_SSIPER, 0, 32⟩
/-- POS.SSITIM.DIV, RW, R291. -/
def POS_SSITIM_DIV : Fld := ⟨.POS_SSITIM, 0, 11⟩
/-- POS.SSITIM.DSKEW, RW, R291. -/
def POS_SSITIM_DSKEW : Fld := ⟨.POS_SSITIM, 11, 11⟩
/-- POS.SSITIM.RECOV, RW, R291. -/
def POS_SSITIM_RECOV : Fld := ⟨.POS_SSITIM, 22, 10⟩
/-- POS.SSIEXT.EXT, RO, R291. -/
def POS_SSIEXT_EXT : Fld := ⟨.POS_SSIEXT, 0, 8⟩
/-- POS.STAT.FAST, W1C, R292. -/
def POS_STAT_FAST : Fld := ⟨.POS_STAT, 0, 1⟩
/-- POS.STAT.ILLEGAL, W1C, R292. -/
def POS_STAT_ILLEGAL : Fld := ⟨.POS_STAT, 1, 1⟩
/-- POS.STAT.SSIERR, W1C, R292. -/
def POS_STAT_SSIERR : Fld := ⟨.POS_STAT, 2, 1⟩
/-- POS.STAT.OVR, W1C, R292. -/
def POS_STAT_OVR : Fld := ⟨.POS_STAT, 3, 1⟩
/-- POS.STAT.SKIP, W1C, R292. -/
def POS_STAT_SKIP : Fld := ⟨.POS_STAT, 4, 1⟩
/-- POS.STAT.CFGERR, W1C, R292. -/
def POS_STAT_CFGERR : Fld := ⟨.POS_STAT, 5, 1⟩
/-- POS.STAT.DIR, RO, R292. -/
def POS_STAT_DIR : Fld := ⟨.POS_STAT, 6, 1⟩
/-- POS.STAT.LINES, RO, R292. -/
def POS_STAT_LINES : Fld := ⟨.POS_STAT, 7, 3⟩
/-- POS.ERRCNT.ILLCNT, RC, R292. -/
def POS_ERRCNT_ILLCNT : Fld := ⟨.POS_ERRCNT, 0, 8⟩
/-- POS.ERRCNT.FASTCNT, RC, R292. -/
def POS_ERRCNT_FASTCNT : Fld := ⟨.POS_ERRCNT, 8, 8⟩
/-- POS.ERRCNT.SSICNT, RC, R292. -/
def POS_ERRCNT_SSICNT : Fld := ⟨.POS_ERRCNT, 16, 8⟩
/-- POS.ERRCNT.ILLSAT, RC, R292. -/
def POS_ERRCNT_ILLSAT : Fld := ⟨.POS_ERRCNT, 24, 1⟩
/-- POS.ERRCNT.FASTSAT, RC, R292. -/
def POS_ERRCNT_FASTSAT : Fld := ⟨.POS_ERRCNT, 25, 1⟩
/-- POS.ERRCNT.SSISAT, RC, R292. -/
def POS_ERRCNT_SSISAT : Fld := ⟨.POS_ERRCNT, 26, 1⟩
/-- POS.HITCNT.COUNT, RC, R292. -/
def POS_HITCNT_COUNT : Fld := ⟨.POS_HITCNT, 0, 16⟩
/-- POS.HITCNT.SAT, RC, R292. -/
def POS_HITCNT_SAT : Fld := ⟨.POS_HITCNT, 16, 1⟩
/-- LOD.W0.KIND, RW, R296. -/
def LOD_W0_KIND : Fld := ⟨.LOD_W0, 0, 3⟩
/-- LOD.W0.VFMT, RW, R296. -/
def LOD_W0_VFMT : Fld := ⟨.LOD_W0, 3, 1⟩
/-- LOD.W0.STEP, RW, R296. -/
def LOD_W0_STEP : Fld := ⟨.LOD_W0, 4, 1⟩
/-- LOD.W0.DIM, RW, R296. -/
def LOD_W0_DIM : Fld := ⟨.LOD_W0, 8, 3⟩
/-- LOD.W0.DEPTH, RW, R296. -/
def LOD_W0_DEPTH : Fld := ⟨.LOD_W0, 11, 5⟩
/-- LOD.W0.HALF, RO, R296. -/
def LOD_W0_HALF : Fld := ⟨.LOD_W0, 16, 1⟩
/-- LOD.W0.FLIP, W1S, R296. -/
def LOD_W0_FLIP : Fld := ⟨.LOD_W0, 17, 1⟩
/-- LOD.W1.BASE0, RW, R296. -/
def LOD_W1_BASE0 : Fld := ⟨.LOD_W1, 0, 24⟩
/-- LOD.W1.SH0, RW, R296. -/
def LOD_W1_SH0 : Fld := ⟨.LOD_W1, 24, 5⟩
/-- LOD.W2.BASE1, RW, R296. -/
def LOD_W2_BASE1 : Fld := ⟨.LOD_W2, 0, 24⟩
/-- LOD.W2.SH1, RW, R296. -/
def LOD_W2_SH1 : Fld := ⟨.LOD_W2, 24, 5⟩
/-- LOD.W3.SIZE, RW, R296. -/
def LOD_W3_SIZE : Fld := ⟨.LOD_W3, 0, 25⟩
/-- LOD.W3.SH2, RW, R296. -/
def LOD_W3_SH2 : Fld := ⟨.LOD_W3, 25, 5⟩
/-- LOD.W4.ORG0, RW, R296. -/
def LOD_W4_ORG0 : Fld := ⟨.LOD_W4, 0, 32⟩
/-- LOD.W5.ORG1, RW, R296. -/
def LOD_W5_ORG1 : Fld := ⟨.LOD_W5, 0, 32⟩
/-- LOD.W6.ORG2, RW, R296. -/
def LOD_W6_ORG2 : Fld := ⟨.LOD_W6, 0, 32⟩
/-- LOD.W7.NM, RW, R296. -/
def LOD_W7_NM : Fld := ⟨.LOD_W7, 0, 32⟩
/-- LOD.DSEL.INDEX, RW, R311. -/
def LOD_DSEL_INDEX : Fld := ⟨.LOD_DSEL, 0, 15⟩
/-- LOD.STAT.DERR, W1C, R311. -/
def LOD_STAT_DERR : Fld := ⟨.LOD_STAT, 0, 1⟩
/-- LOD.STAT.FLIPERR, W1C, R311. -/
def LOD_STAT_FLIPERR : Fld := ⟨.LOD_STAT, 1, 1⟩
/-- LOD.STAT.PENDING, RO, R311. -/
def LOD_STAT_PENDING : Fld := ⟨.LOD_STAT, 2, 1⟩
/-- LOD.FLIPCNT.COUNT, RC, R311. -/
def LOD_FLIPCNT_COUNT : Fld := ⟨.LOD_FLIPCNT, 0, 16⟩
/-- LOD.FLIPCNT.SAT, RC, R311. -/
def LOD_FLIPCNT_SAT : Fld := ⟨.LOD_FLIPCNT, 16, 1⟩
/-- LOD.LASTL.TICK, RO, R311. -/
def LOD_LASTL_TICK : Fld := ⟨.LOD_LASTL, 0, 32⟩
/-- LOD.LASTH.TICK, RO, R311. -/
def LOD_LASTH_TICK : Fld := ⟨.LOD_LASTH, 0, 32⟩
/-- EVC.CTL.EN, RW, R328. -/
def EVC_CTL_EN : Fld := ⟨.EVC_CTL, 0, 1⟩
/-- EVC.CTL.IRQ, RW, R328. -/
def EVC_CTL_IRQ : Fld := ⟨.EVC_CTL, 1, 1⟩
/-- EVC.CTL.SEC, RW, R328. -/
def EVC_CTL_SEC : Fld := ⟨.EVC_CTL, 2, 1⟩
/-- EVC.CTL.DOM, RW, R328. -/
def EVC_CTL_DOM : Fld := ⟨.EVC_CTL, 3, 6⟩
/-- EVC.CTL.SRC, RW, R328. -/
def EVC_CTL_SRC : Fld := ⟨.EVC_CTL, 12, 12⟩
/-- EVC.STAT.FLAG, W1C, R329. -/
def EVC_STAT_FLAG : Fld := ⟨.EVC_STAT, 0, 1⟩
/-- EVC.STAT.AGAIN, W1C, R329. -/
def EVC_STAT_AGAIN : Fld := ⟨.EVC_STAT, 1, 1⟩
/-- EVC.STAT.LOOP, W1C, R329. -/
def EVC_STAT_LOOP : Fld := ⟨.EVC_STAT, 2, 1⟩
/-- EVC.STAT.HOPS, W1C, R329. -/
def EVC_STAT_HOPS : Fld := ⟨.EVC_STAT, 3, 1⟩
/-- EVC.STAT.COLL, W1C, R329. -/
def EVC_STAT_COLL : Fld := ⟨.EVC_STAT, 4, 1⟩
/-- EVC.STAT.DIS, W1C, R329. -/
def EVC_STAT_DIS : Fld := ⟨.EVC_STAT, 5, 1⟩
/-- EVC.STAT.WERR, W1C, R329. -/
def EVC_STAT_WERR : Fld := ⟨.EVC_STAT, 6, 1⟩
/-- EVC.STAT.ORIG, RO, R329. -/
def EVC_STAT_ORIG : Fld := ⟨.EVC_STAT, 8, 10⟩
/-- EVC.STAT.HOP, RO, R329. -/
def EVC_STAT_HOP : Fld := ⟨.EVC_STAT, 18, 3⟩
/-- EVG.CTL.MASK, RW, R330. -/
def EVG_CTL_MASK : Fld := ⟨.EVG_CTL, 0, 16⟩
/-- EVG.FLAGS.FLAG, W1C, R330. -/
def EVG_FLAGS_FLAG : Fld := ⟨.EVG_FLAGS, 0, 16⟩
/-- EVF.CSEL.INDEX, RW, R330. -/
def EVF_CSEL_INDEX : Fld := ⟨.EVF_CSEL, 0, 8⟩
/-- EVF.CDATA.CHAN, RW, R330. -/
def EVF_CDATA_CHAN : Fld := ⟨.EVF_CDATA, 0, 10⟩
/-- EVF.CDATA.EN, RW, R330. -/
def EVF_CDATA_EN : Fld := ⟨.EVF_CDATA, 10, 1⟩
/-- EVF.STAT.WERR, W1C, R330. -/
def EVF_STAT_WERR : Fld := ⟨.EVF_STAT, 0, 1⟩
/-- EVF.DROPCNT.COUNT, RC, R330. -/
def EVF_DROPCNT_COUNT : Fld := ⟨.EVF_DROPCNT, 0, 16⟩
/-- EVF.DROPCNT.SAT, RC, R330. -/
def EVF_DROPCNT_SAT : Fld := ⟨.EVF_DROPCNT, 16, 1⟩
/-- EVF.COLLCNT.COUNT, RC, R330. -/
def EVF_COLLCNT_COUNT : Fld := ⟨.EVF_COLLCNT, 0, 16⟩
/-- EVF.COLLCNT.SAT, RC, R330. -/
def EVF_COLLCNT_SAT : Fld := ⟨.EVF_COLLCNT, 16, 1⟩
/-- DLK.CTL.EN, RW, R355. -/
def DLK_CTL_EN : Fld := ⟨.DLK_CTL, 0, 1⟩
/-- DLK.CTL.BIND, RW, R355. -/
def DLK_CTL_BIND : Fld := ⟨.DLK_CTL, 1, 1⟩
/-- DLK.CTL.PAIR, RW, R355. -/
def DLK_CTL_PAIR : Fld := ⟨.DLK_CTL, 2, 8⟩
/-- DLK.CTL.AUTO, RW, R355. -/
def DLK_CTL_AUTO : Fld := ⟨.DLK_CTL, 10, 1⟩
/-- DLK.CTL.RETRAIN, WO, R355. -/
def DLK_CTL_RETRAIN : Fld := ⟨.DLK_CTL, 11, 1⟩
/-- DLK.CTL.LMARGIN, RW, R355. -/
def DLK_CTL_LMARGIN : Fld := ⟨.DLK_CTL, 12, 4⟩
/-- DLK.CTL.LATESAFE, RW, R355. -/
def DLK_CTL_LATESAFE : Fld := ⟨.DLK_CTL, 16, 1⟩
/-- DLK.TIMING.HBPER, RW, R355. -/
def DLK_TIMING_HBPER : Fld := ⟨.DLK_TIMING, 0, 16⟩
/-- DLK.TIMING.RXTO, RW, R355. -/
def DLK_TIMING_RXTO : Fld := ⟨.DLK_TIMING, 16, 12⟩
/-- DLK.STAT.STATE, RO, R356. -/
def DLK_STAT_STATE : Fld := ⟨.DLK_STAT, 0, 3⟩
/-- DLK.STAT.LCAUSE, RO, R356. -/
def DLK_STAT_LCAUSE : Fld := ⟨.DLK_STAT, 3, 3⟩
/-- DLK.STAT.FAULTACT, RO, R356. -/
def DLK_STAT_FAULTACT : Fld := ⟨.DLK_STAT, 6, 1⟩
/-- DLK.STAT.LATE, W1C, R356. -/
def DLK_STAT_LATE : Fld := ⟨.DLK_STAT, 7, 1⟩
/-- DLK.STAT.DRIFT, W1C, R356. -/
def DLK_STAT_DRIFT : Fld := ⟨.DLK_STAT, 8, 1⟩
/-- DLK.STAT.FERR, W1C, R356. -/
def DLK_STAT_FERR : Fld := ⟨.DLK_STAT, 9, 1⟩
/-- DLK.STAT.HBDROP, W1C, R356. -/
def DLK_STAT_HBDROP : Fld := ⟨.DLK_STAT, 10, 1⟩
/-- DLK.STAT.WERR, W1C, R356. -/
def DLK_STAT_WERR : Fld := ⟨.DLK_STAT, 11, 1⟩
/-- DLK.STAT.PLATE, W1C, R356. -/
def DLK_STAT_PLATE : Fld := ⟨.DLK_STAT, 12, 1⟩
/-- DLK.CABLE.C, RO, R356. -/
def DLK_CABLE_C : Fld := ⟨.DLK_CABLE, 0, 16⟩
/-- DLK.CABLE.LEAD, RO, R356. -/
def DLK_CABLE_LEAD : Fld := ⟨.DLK_CABLE, 16, 8⟩
/-- DLK.FAULT.CODE, RO, R356. -/
def DLK_FAULT_CODE : Fld := ⟨.DLK_FAULT, 0, 8⟩
/-- DLK.FAULT.CHAN, RO, R356. -/
def DLK_FAULT_CHAN : Fld := ⟨.DLK_FAULT, 8, 2⟩
/-- DLK.FAULT.VALID, W1C, R356. -/
def DLK_FAULT_VALID : Fld := ⟨.DLK_FAULT, 10, 1⟩
/-- DLK.FAULT.FINE, RO, R356. -/
def DLK_FAULT_FINE : Fld := ⟨.DLK_FAULT, 11, 7⟩
/-- DLK.FTIMEL.TICK, RO, R356. -/
def DLK_FTIMEL_TICK : Fld := ⟨.DLK_FTIMEL, 0, 32⟩
/-- DLK.FTIMEH.TICK, RO, R356. -/
def DLK_FTIMEH_TICK : Fld := ⟨.DLK_FTIMEH, 0, 32⟩
/-- DLK.COUNT.FERRCNT, RC, R356. -/
def DLK_COUNT_FERRCNT : Fld := ⟨.DLK_COUNT, 0, 8⟩
/-- DLK.COUNT.LATECNT, RC, R356. -/
def DLK_COUNT_LATECNT : Fld := ⟨.DLK_COUNT, 8, 8⟩
/-- DLK.COUNT.HBDCNT, RC, R356. -/
def DLK_COUNT_HBDCNT : Fld := ⟨.DLK_COUNT, 16, 8⟩
/-- DLK.COUNT.FERRSAT, RC, R356. -/
def DLK_COUNT_FERRSAT : Fld := ⟨.DLK_COUNT, 24, 1⟩
/-- DLK.COUNT.LATESAT, RC, R356. -/
def DLK_COUNT_LATESAT : Fld := ⟨.DLK_COUNT, 25, 1⟩
/-- DLK.COUNT.HBDSAT, RC, R356. -/
def DLK_COUNT_HBDSAT : Fld := ⟨.DLK_COUNT, 26, 1⟩
/-- DLK.FCOUNT.COUNT, RC, R356. -/
def DLK_FCOUNT_COUNT : Fld := ⟨.DLK_FCOUNT, 0, 16⟩
/-- DLK.FCOUNT.SAT, RC, R356. -/
def DLK_FCOUNT_SAT : Fld := ⟨.DLK_FCOUNT, 16, 1⟩
/-- DLK.DESCA.DESC, RO, R356. -/
def DLK_DESCA_DESC : Fld := ⟨.DLK_DESCA, 0, 32⟩
/-- DLK.DESCB.DESC, RO, R356. -/
def DLK_DESCB_DESC : Fld := ⟨.DLK_DESCB, 0, 32⟩
/-- DLK.DESCC.DESC, RO, R356. -/
def DLK_DESCC_DESC : Fld := ⟨.DLK_DESCC, 0, 32⟩
/-- DLK.DESCD.DESC, RO, R356. -/
def DLK_DESCD_DESC : Fld := ⟨.DLK_DESCD, 0, 32⟩
/-- DLK.DESCE.DESC, RO, R356. -/
def DLK_DESCE_DESC : Fld := ⟨.DLK_DESCE, 0, 32⟩
/-- DLK.DESCF.DESC, RO, R356. -/
def DLK_DESCF_DESC : Fld := ⟨.DLK_DESCF, 0, 32⟩
/-- DLK.DESCG.DESC, RO, R356. -/
def DLK_DESCG_DESC : Fld := ⟨.DLK_DESCG, 0, 32⟩
/-- DLK.DESCH.DESC, RO, R356. -/
def DLK_DESCH_DESC : Fld := ⟨.DLK_DESCH, 0, 32⟩
/-- SUP.STAT.STATE, RO, R392. -/
def SUP_STAT_STATE : Fld := ⟨.SUP_STAT, 0, 2⟩
/-- SUP.STAT.DFAULT, RO, R392. -/
def SUP_STAT_DFAULT : Fld := ⟨.SUP_STAT, 2, 1⟩
/-- SUP.STAT.RING, RO, R392. -/
def SUP_STAT_RING : Fld := ⟨.SUP_STAT, 3, 2⟩
/-- SUP.STAT.XDEPTH, RO, R392. -/
def SUP_STAT_XDEPTH : Fld := ⟨.SUP_STAT, 5, 4⟩
/-- SUP.DOORBELL.RING, W1S, R392. -/
def SUP_DOORBELL_RING : Fld := ⟨.SUP_DOORBELL, 0, 1⟩
/-- SUP.DOORBELL.ACK, WO, R392. -/
def SUP_DOORBELL_ACK : Fld := ⟨.SUP_DOORBELL, 1, 1⟩
/-- SUP.BPMISS.COUNT, RC, R392. -/
def SUP_BPMISS_COUNT : Fld := ⟨.SUP_BPMISS, 0, 16⟩
/-- SUP.BPMISS.SAT, RC, R392. -/
def SUP_BPMISS_SAT : Fld := ⟨.SUP_BPMISS, 16, 1⟩
/-- SUP.ISEL.INDEX, RW, R392. -/
def SUP_ISEL_INDEX : Fld := ⟨.SUP_ISEL, 0, 10⟩
/-- SUP.IDATA.EN, RW, R392. -/
def SUP_IDATA_EN : Fld := ⟨.SUP_IDATA, 0, 1⟩
/-- SUP.IDATA.LEVEL, RW, R392. -/
def SUP_IDATA_LEVEL : Fld := ⟨.SUP_IDATA, 1, 4⟩
/-- SUP.IDATA.TARGET, RW, R392. -/
def SUP_IDATA_TARGET : Fld := ⟨.SUP_IDATA, 5, 3⟩
/-- SUP.IDATA.PEND, RO, R392. -/
def SUP_IDATA_PEND : Fld := ⟨.SUP_IDATA, 8, 1⟩
/-- DMA.CTL.EN, RW, R393. -/
def DMA_CTL_EN : Fld := ⟨.DMA_CTL, 0, 1⟩
/-- DMA.CTL.GO, WO, R393. -/
def DMA_CTL_GO : Fld := ⟨.DMA_CTL, 1, 1⟩
/-- DMA.CTL.EVTRIG, RW, R393. -/
def DMA_CTL_EVTRIG : Fld := ⟨.DMA_CTL, 2, 1⟩
/-- DMA.CTL.SINC, RW, R393. -/
def DMA_CTL_SINC : Fld := ⟨.DMA_CTL, 3, 1⟩
/-- DMA.CTL.DINC, RW, R393. -/
def DMA_CTL_DINC : Fld := ⟨.DMA_CTL, 4, 1⟩
/-- DMA.CTL.WIDTH, RW, R393. -/
def DMA_CTL_WIDTH : Fld := ⟨.DMA_CTL, 5, 2⟩
/-- DMA.CTL.IRQ, RW, R393. -/
def DMA_CTL_IRQ : Fld := ⟨.DMA_CTL, 7, 1⟩
/-- DMA.SRCOFF.OFF, RW, R393. -/
def DMA_SRCOFF_OFF : Fld := ⟨.DMA_SRCOFF, 0, 32⟩
/-- DMA.DSTOFF.OFF, RW, R393. -/
def DMA_DSTOFF_OFF : Fld := ⟨.DMA_DSTOFF, 0, 32⟩
/-- DMA.LEN.LEN, RW, R393. -/
def DMA_LEN_LEN : Fld := ⟨.DMA_LEN, 0, 24⟩
/-- DMA.STAT.BUSY, RO, R393. -/
def DMA_STAT_BUSY : Fld := ⟨.DMA_STAT, 0, 1⟩
/-- DMA.STAT.DONE, W1C, R393. -/
def DMA_STAT_DONE : Fld := ⟨.DMA_STAT, 1, 1⟩
/-- DMA.STAT.OVR, W1C, R393. -/
def DMA_STAT_OVR : Fld := ⟨.DMA_STAT, 2, 1⟩
/-- DMA.STAT.ERR, W1C, R393. -/
def DMA_STAT_ERR : Fld := ⟨.DMA_STAT, 3, 1⟩
/-- DMA.STAT.ERRCODE, RO, R393. -/
def DMA_STAT_ERRCODE : Fld := ⟨.DMA_STAT, 4, 4⟩
/-- DMA.STAT.DOUBT, W1C, R393. -/
def DMA_STAT_DOUBT : Fld := ⟨.DMA_STAT, 8, 1⟩
/-- DMA.STAT.STAG, RO, R393. -/
def DMA_STAT_STAG : Fld := ⟨.DMA_STAT, 9, 1⟩
/-- DMA.STAT.DTAG, RO, R393. -/
def DMA_STAT_DTAG : Fld := ⟨.DMA_STAT, 10, 1⟩
/-- DMA.STAT.WERR, W1C, R393. -/
def DMA_STAT_WERR : Fld := ⟨.DMA_STAT, 11, 1⟩
/-- DMA.CAPSA.CAP, RW, R393. -/
def DMA_CAPSA_CAP : Fld := ⟨.DMA_CAPSA, 0, 32⟩
/-- DMA.CAPSB.CAP, RW, R393. -/
def DMA_CAPSB_CAP : Fld := ⟨.DMA_CAPSB, 0, 32⟩
/-- DMA.CAPSC.CAP, RW, R393. -/
def DMA_CAPSC_CAP : Fld := ⟨.DMA_CAPSC, 0, 32⟩
/-- DMA.CAPSD.CAP, RW, R393. -/
def DMA_CAPSD_CAP : Fld := ⟨.DMA_CAPSD, 0, 32⟩
/-- DMA.CAPDA.CAP, RW, R393. -/
def DMA_CAPDA_CAP : Fld := ⟨.DMA_CAPDA, 0, 32⟩
/-- DMA.CAPDB.CAP, RW, R393. -/
def DMA_CAPDB_CAP : Fld := ⟨.DMA_CAPDB, 0, 32⟩
/-- DMA.CAPDC.CAP, RW, R393. -/
def DMA_CAPDC_CAP : Fld := ⟨.DMA_CAPDC, 0, 32⟩
/-- DMA.CAPDD.CAP, RW, R393. -/
def DMA_CAPDD_CAP : Fld := ⟨.DMA_CAPDD, 0, 32⟩
/-- SQ.MAP.PHYS, RO, R423. -/
def SQ_MAP_PHYS : Fld := ⟨.SQ_MAP, 0, 32⟩
/-- SQ.PSTATE.STATE, RO, R423. -/
def SQ_PSTATE_STATE : Fld := ⟨.SQ_PSTATE, 0, 27⟩
/-- SQ.TESTED.TESTED, RO, R423. -/
def SQ_TESTED_TESTED : Fld := ⟨.SQ_TESTED, 0, 9⟩
/-- SQ.SNAP.WBASE, RW, R423. -/
def SQ_SNAP_WBASE : Fld := ⟨.SQ_SNAP, 0, 10⟩
/-- SQ.SNAP.WLEN, RW, R423. -/
def SQ_SNAP_WLEN : Fld := ⟨.SQ_SNAP, 10, 4⟩
/-- SQ.SNAP.SBASE, RW, R423. -/
def SQ_SNAP_SBASE : Fld := ⟨.SQ_SNAP, 16, 5⟩
/-- SQ.SNAPST.CUR, RO, R423. -/
def SQ_SNAPST_CUR : Fld := ⟨.SQ_SNAPST, 0, 8⟩
/-- SQ.SNAPST.VALID, RO, R423. -/
def SQ_SNAPST_VALID : Fld := ⟨.SQ_SNAPST, 8, 8⟩
/-- SQ.SNAPST.WERR, W1C, R423. -/
def SQ_SNAPST_WERR : Fld := ⟨.SQ_SNAPST, 16, 1⟩
/-- SQ.DUPSTAT.MISCNT, RC, R423. -/
def SQ_DUPSTAT_MISCNT : Fld := ⟨.SQ_DUPSTAT, 0, 8⟩
/-- SQ.DUPSTAT.HOVCNT, RC, R423. -/
def SQ_DUPSTAT_HOVCNT : Fld := ⟨.SQ_DUPSTAT, 8, 8⟩
/-- SQ.DUPSTAT.MISSAT, RC, R423. -/
def SQ_DUPSTAT_MISSAT : Fld := ⟨.SQ_DUPSTAT, 16, 1⟩
/-- SQ.DUPSTAT.HOVSAT, RC, R423. -/
def SQ_DUPSTAT_HOVSAT : Fld := ⟨.SQ_DUPSTAT, 17, 1⟩
/-- RDC.CTL.AUTO, RW, R424. -/
def RDC_CTL_AUTO : Fld := ⟨.RDC_CTL, 0, 1⟩
/-- RDC.CTL.ROTTEST, RW, R424. -/
def RDC_CTL_ROTTEST : Fld := ⟨.RDC_CTL, 1, 1⟩
/-- RDC.CTL.CMPTEST, RW, R424. -/
def RDC_CTL_CMPTEST : Fld := ⟨.RDC_CTL, 2, 1⟩
/-- RDC.CTL.STEERAUTO, RW, R424. -/
def RDC_CTL_STEERAUTO : Fld := ⟨.RDC_CTL, 3, 1⟩
/-- RDC.CMD.OP, WO, R424. -/
def RDC_CMD_OP : Fld := ⟨.RDC_CMD, 0, 4⟩
/-- RDC.CMD.SQ, WO, R424. -/
def RDC_CMD_SQ : Fld := ⟨.RDC_CMD, 4, 6⟩
/-- RDC.CMD.PHYS, WO, R424. -/
def RDC_CMD_PHYS : Fld := ⟨.RDC_CMD, 10, 4⟩
/-- RDC.CMD.SRC, WO, R424. -/
def RDC_CMD_SRC : Fld := ⟨.RDC_CMD, 14, 1⟩
/-- RDC.CMD.LOG, WO, R424. -/
def RDC_CMD_LOG : Fld := ⟨.RDC_CMD, 15, 3⟩
/-- RDC.CMD.PEER, WO, R424. -/
def RDC_CMD_PEER : Fld := ⟨.RDC_CMD, 18, 4⟩
/-- RDC.STAT.DEGR, RO, R424. -/
def RDC_STAT_DEGR : Fld := ⟨.RDC_STAT, 0, 1⟩
/-- RDC.STAT.CMDBUSY, RO, R424. -/
def RDC_STAT_CMDBUSY : Fld := ⟨.RDC_STAT, 1, 1⟩
/-- RDC.STAT.CMDDONE, W1C, R424. -/
def RDC_STAT_CMDDONE : Fld := ⟨.RDC_STAT, 2, 1⟩
/-- RDC.STAT.CMDERR, W1C, R424. -/
def RDC_STAT_CMDERR : Fld := ⟨.RDC_STAT, 3, 1⟩
/-- RDC.STAT.ERRCODE, RO, R424. -/
def RDC_STAT_ERRCODE : Fld := ⟨.RDC_STAT, 4, 4⟩
/-- RDC.STAT.ROTLATE, W1C, R424. -/
def RDC_STAT_ROTLATE : Fld := ⟨.RDC_STAT, 8, 1⟩
/-- RDC.STAT.WEARWARN, W1C, R424. -/
def RDC_STAT_WEARWARN : Fld := ⟨.RDC_STAT, 9, 1⟩
/-- RDC.STAT.FOBUSY, RO, R424. -/
def RDC_STAT_FOBUSY : Fld := ⟨.RDC_STAT, 10, 1⟩
/-- RDC.FOREC.SQ, RO, R425. -/
def RDC_FOREC_SQ : Fld := ⟨.RDC_FOREC, 0, 6⟩
/-- RDC.FOREC.LOG, RO, R425. -/
def RDC_FOREC_LOG : Fld := ⟨.RDC_FOREC, 6, 3⟩
/-- RDC.FOREC.PHYS, RO, R425. -/
def RDC_FOREC_PHYS : Fld := ⟨.RDC_FOREC, 9, 4⟩
/-- RDC.FOREC.OUTCOME, RO, R425. -/
def RDC_FOREC_OUTCOME : Fld := ⟨.RDC_FOREC, 13, 2⟩
/-- RDC.FOREC.VALID, W1C, R425. -/
def RDC_FOREC_VALID : Fld := ⟨.RDC_FOREC, 15, 1⟩
/-- RDC.FOTIMEL.TICK, RO, R425. -/
def RDC_FOTIMEL_TICK : Fld := ⟨.RDC_FOTIMEL, 0, 32⟩
/-- RDC.FOTIMEH.TICK, RO, R425. -/
def RDC_FOTIMEH_TICK : Fld := ⟨.RDC_FOTIMEH, 0, 32⟩
/-- RDC.FOCNT.COUNT, RC, R425. -/
def RDC_FOCNT_COUNT : Fld := ⟨.RDC_FOCNT, 0, 16⟩
/-- RDC.FOCNT.SAT, RC, R425. -/
def RDC_FOCNT_SAT : Fld := ⟨.RDC_FOCNT, 16, 1⟩
/-- RDC.PMODE.MODE, RW, R425. -/
def RDC_PMODE_MODE : Fld := ⟨.RDC_PMODE, 0, 16⟩
/-- RDC.PMAP.PAIR, RO, R425. -/
def RDC_PMAP_PAIR : Fld := ⟨.RDC_PMAP, 0, 12⟩
/-- RDC.PSTATE.STATE, RO, R425. -/
def RDC_PSTATE_STATE : Fld := ⟨.RDC_PSTATE, 0, 15⟩
/-- RDC.PSTATE.CKFAIL, RO, R425. -/
def RDC_PSTATE_CKFAIL : Fld := ⟨.RDC_PSTATE, 15, 5⟩
/-- RDC.PSTATE.TESTED, RO, R425. -/
def RDC_PSTATE_TESTED : Fld := ⟨.RDC_PSTATE, 20, 5⟩
/-- RDC.PFAULT.PHYS, RO, R425. -/
def RDC_PFAULT_PHYS : Fld := ⟨.RDC_PFAULT, 0, 3⟩
/-- RDC.PFAULT.CAUSE, RO, R425. -/
def RDC_PFAULT_CAUSE : Fld := ⟨.RDC_PFAULT, 3, 2⟩
/-- RDC.PFAULT.TAKEN, RO, R425. -/
def RDC_PFAULT_TAKEN : Fld := ⟨.RDC_PFAULT, 5, 1⟩
/-- RDC.PFAULT.VALID, W1C, R425. -/
def RDC_PFAULT_VALID : Fld := ⟨.RDC_PFAULT, 6, 1⟩
/-- RDC.SIGWIN.WINDOW, RW, R425. -/
def RDC_SIGWIN_WINDOW : Fld := ⟨.RDC_SIGWIN, 0, 24⟩
/-- RDC.JOIN.READY, W1S, R425. -/
def RDC_JOIN_READY : Fld := ⟨.RDC_JOIN, 0, 4⟩
/-- RDC.SPLITL.TSB, RW, R425. -/
def RDC_SPLITL_TSB : Fld := ⟨.RDC_SPLITL, 0, 32⟩
/-- RDC.SPLITH.TSB, RW, R425. -/
def RDC_SPLITH_TSB : Fld := ⟨.RDC_SPLITH, 0, 8⟩
/-- RDC.CMPFAILL.FAIL, RO, R425. -/
def RDC_CMPFAILL_FAIL : Fld := ⟨.RDC_CMPFAILL, 0, 32⟩
/-- RDC.CMPFAILH.FAIL, RO, R425. -/
def RDC_CMPFAILH_FAIL : Fld := ⟨.RDC_CMPFAILH, 0, 32⟩
/-- RDC.WSEL.INDEX, RW, R425. -/
def RDC_WSEL_INDEX : Fld := ⟨.RDC_WSEL, 0, 7⟩
/-- RDC.WDATA.SLACK, RO, R425. -/
def RDC_WDATA_SLACK : Fld := ⟨.RDC_WDATA, 0, 12⟩
/-- RDC.WDATA.INIT, RO, R425. -/
def RDC_WDATA_INIT : Fld := ⟨.RDC_WDATA, 12, 12⟩
/-- RDC.WDATA.WARN, W1C, R425. -/
def RDC_WDATA_WARN : Fld := ⟨.RDC_WDATA, 24, 1⟩
/-- RDC.WTHR.THR, RW, R425. -/
def RDC_WTHR_THR : Fld := ⟨.RDC_WTHR, 0, 12⟩
/-- MEM.CTL.SCRUBEN, RW, R444. -/
def MEM_CTL_SCRUBEN : Fld := ⟨.MEM_CTL, 0, 1⟩
/-- MEM.CTL.AUTOREMAP, RW, R444. -/
def MEM_CTL_AUTOREMAP : Fld := ⟨.MEM_CTL, 1, 1⟩
/-- MEM.CTL.PACE, RW, R444. -/
def MEM_CTL_PACE : Fld := ⟨.MEM_CTL, 4, 15⟩
/-- MEM.STAT.WIPING, RO, R444. -/
def MEM_STAT_WIPING : Fld := ⟨.MEM_STAT, 0, 1⟩
/-- MEM.STAT.CE, W1C, R444. -/
def MEM_STAT_CE : Fld := ⟨.MEM_STAT, 1, 1⟩
/-- MEM.STAT.UE, W1C, R444. -/
def MEM_STAT_UE : Fld := ⟨.MEM_STAT, 2, 1⟩
/-- MEM.STAT.REMAP, W1C, R444. -/
def MEM_STAT_REMAP : Fld := ⟨.MEM_STAT, 3, 1⟩
/-- MEM.STAT.REMAPFULL, W1C, R444. -/
def MEM_STAT_REMAPFULL : Fld := ⟨.MEM_STAT, 4, 1⟩
/-- MEM.STAT.SCRUBUE, W1C, R444. -/
def MEM_STAT_SCRUBUE : Fld := ⟨.MEM_STAT, 5, 1⟩
/-- MEM.STAT.WERR, W1C, R444. -/
def MEM_STAT_WERR : Fld := ⟨.MEM_STAT, 6, 1⟩
/-- MEM.ELOG.MACRO, RO, R444. -/
def MEM_ELOG_MACRO : Fld := ⟨.MEM_ELOG, 0, 11⟩
/-- MEM.ELOG.ROW, RO, R444. -/
def MEM_ELOG_ROW : Fld := ⟨.MEM_ELOG, 11, 12⟩
/-- MEM.ELOG.WORD, RO, R444. -/
def MEM_ELOG_WORD : Fld := ⟨.MEM_ELOG, 23, 3⟩
/-- MEM.ELOG.POISON, RO, R444. -/
def MEM_ELOG_POISON : Fld := ⟨.MEM_ELOG, 26, 1⟩
/-- MEM.ELOG.INIT, RO, R444. -/
def MEM_ELOG_INIT : Fld := ⟨.MEM_ELOG, 27, 3⟩
/-- MEM.ELOG.VALID, W1C, R444. -/
def MEM_ELOG_VALID : Fld := ⟨.MEM_ELOG, 31, 1⟩
/-- MEM.ELOGL.TICK, RO, R444. -/
def MEM_ELOGL_TICK : Fld := ⟨.MEM_ELOGL, 0, 32⟩
/-- MEM.ELOGH.TICK, RO, R444. -/
def MEM_ELOGH_TICK : Fld := ⟨.MEM_ELOGH, 0, 32⟩
/-- MEM.CECNT.COUNT, RC, R444. -/
def MEM_CECNT_COUNT : Fld := ⟨.MEM_CECNT, 0, 16⟩
/-- MEM.CECNT.SAT, RC, R444. -/
def MEM_CECNT_SAT : Fld := ⟨.MEM_CECNT, 16, 1⟩
/-- MEM.UECNT.COUNT, RC, R444. -/
def MEM_UECNT_COUNT : Fld := ⟨.MEM_UECNT, 0, 16⟩
/-- MEM.UECNT.SAT, RC, R444. -/
def MEM_UECNT_SAT : Fld := ⟨.MEM_UECNT, 16, 1⟩
/-- MEM.RSEL.MACRO, RW, R444. -/
def MEM_RSEL_MACRO : Fld := ⟨.MEM_RSEL, 0, 11⟩
/-- MEM.RSEL.ENTRY, RW, R444. -/
def MEM_RSEL_ENTRY : Fld := ⟨.MEM_RSEL, 11, 3⟩
/-- MEM.RDATA.ROW, RW, R444. -/
def MEM_RDATA_ROW : Fld := ⟨.MEM_RDATA, 0, 12⟩
/-- MEM.RDATA.VALID, W1S, R444. -/
def MEM_RDATA_VALID : Fld := ⟨.MEM_RDATA, 12, 1⟩
/-- MEM.RDATA.BUSY, RO, R444. -/
def MEM_RDATA_BUSY : Fld := ⟨.MEM_RDATA, 13, 1⟩
/-- MEM.LAPSEL.CLASS, RW, R444. -/
def MEM_LAPSEL_CLASS : Fld := ⟨.MEM_LAPSEL, 0, 3⟩
/-- MEM.LAP.MS, RO, R444. -/
def MEM_LAP_MS : Fld := ⟨.MEM_LAP, 0, 16⟩
/-- MEM.LAP.NONE, RO, R444. -/
def MEM_LAP_NONE : Fld := ⟨.MEM_LAP, 16, 1⟩
/-- MEM.INJ.MACRO, RW, R444. -/
def MEM_INJ_MACRO : Fld := ⟨.MEM_INJ, 0, 11⟩
/-- MEM.INJ.MODE, RW, R444. -/
def MEM_INJ_MODE : Fld := ⟨.MEM_INJ, 11, 2⟩
/-- MEM.INJ.ARM, RW, R444. -/
def MEM_INJ_ARM : Fld := ⟨.MEM_INJ, 13, 1⟩
/-- FLC.STATA.BUSY, RO, R476. -/
def FLC_STATA_BUSY : Fld := ⟨.FLC_STATA, 0, 1⟩
/-- FLC.STATA.SUSP, RO, R476. -/
def FLC_STATA_SUSP : Fld := ⟨.FLC_STATA, 1, 1⟩
/-- FLC.STATA.DONE, W1C, R476. -/
def FLC_STATA_DONE : Fld := ⟨.FLC_STATA, 2, 1⟩
/-- FLC.STATA.SELFBANK, W1C, R476. -/
def FLC_STATA_SELFBANK : Fld := ⟨.FLC_STATA, 3, 1⟩
/-- FLC.STATA.SEQERR, W1C, R476. -/
def FLC_STATA_SEQERR : Fld := ⟨.FLC_STATA, 4, 1⟩
/-- FLC.STATA.CMDERR, W1C, R476. -/
def FLC_STATA_CMDERR : Fld := ⟨.FLC_STATA, 5, 1⟩
/-- FLC.STATA.MODEERR, W1C, R476. -/
def FLC_STATA_MODEERR : Fld := ⟨.FLC_STATA, 6, 1⟩
/-- FLC.STATA.LOCKERR, W1C, R476. -/
def FLC_STATA_LOCKERR : Fld := ⟨.FLC_STATA, 7, 1⟩
/-- FLC.STATA.ABNERR, W1C, R476. -/
def FLC_STATA_ABNERR : Fld := ⟨.FLC_STATA, 8, 1⟩
/-- FLC.STATA.TWICEERR, W1C, R476. -/
def FLC_STATA_TWICEERR : Fld := ⟨.FLC_STATA, 9, 1⟩
/-- FLC.STATA.VERIFY, W1C, R476. -/
def FLC_STATA_VERIFY : Fld := ⟨.FLC_STATA, 10, 1⟩
/-- FLC.STATA.SPAREUSED, W1C, R476. -/
def FLC_STATA_SPAREUSED : Fld := ⟨.FLC_STATA, 11, 1⟩
/-- FLC.STATA.ABORTED, W1C, R476. -/
def FLC_STATA_ABORTED : Fld := ⟨.FLC_STATA, 12, 1⟩
/-- FLC.STATA.BLANK, RO, R476. -/
def FLC_STATA_BLANK : Fld := ⟨.FLC_STATA, 13, 1⟩
/-- FLC.STATA.BUSYRD, W1C, R476. -/
def FLC_STATA_BUSYRD : Fld := ⟨.FLC_STATA, 14, 1⟩
/-- FLC.STATA.DOUBT, W1C, R476. -/
def FLC_STATA_DOUBT : Fld := ⟨.FLC_STATA, 15, 1⟩
/-- FLC.STATA.CAPERR, W1C, R476. -/
def FLC_STATA_CAPERR : Fld := ⟨.FLC_STATA, 16, 1⟩
/-- FLC.STATA.GENFULL, W1C, R476. -/
def FLC_STATA_GENFULL : Fld := ⟨.FLC_STATA, 17, 1⟩
/-- FLC.STATA.OP, RO, R476. -/
def FLC_STATA_OP : Fld := ⟨.FLC_STATA, 24, 8⟩
/-- FLC.STATB.BUSY, RO, R476. -/
def FLC_STATB_BUSY : Fld := ⟨.FLC_STATB, 0, 1⟩
/-- FLC.STATB.SUSP, RO, R476. -/
def FLC_STATB_SUSP : Fld := ⟨.FLC_STATB, 1, 1⟩
/-- FLC.STATB.DONE, W1C, R476. -/
def FLC_STATB_DONE : Fld := ⟨.FLC_STATB, 2, 1⟩
/-- FLC.STATB.SELFBANK, W1C, R476. -/
def FLC_STATB_SELFBANK : Fld := ⟨.FLC_STATB, 3, 1⟩
/-- FLC.STATB.SEQERR, W1C, R476. -/
def FLC_STATB_SEQERR : Fld := ⟨.FLC_STATB, 4, 1⟩
/-- FLC.STATB.CMDERR, W1C, R476. -/
def FLC_STATB_CMDERR : Fld := ⟨.FLC_STATB, 5, 1⟩
/-- FLC.STATB.MODEERR, W1C, R476. -/
def FLC_STATB_MODEERR : Fld := ⟨.FLC_STATB, 6, 1⟩
/-- FLC.STATB.LOCKERR, W1C, R476. -/
def FLC_STATB_LOCKERR : Fld := ⟨.FLC_STATB, 7, 1⟩
/-- FLC.STATB.ABNERR, W1C, R476. -/
def FLC_STATB_ABNERR : Fld := ⟨.FLC_STATB, 8, 1⟩
/-- FLC.STATB.TWICEERR, W1C, R476. -/
def FLC_STATB_TWICEERR : Fld := ⟨.FLC_STATB, 9, 1⟩
/-- FLC.STATB.VERIFY, W1C, R476. -/
def FLC_STATB_VERIFY : Fld := ⟨.FLC_STATB, 10, 1⟩
/-- FLC.STATB.SPAREUSED, W1C, R476. -/
def FLC_STATB_SPAREUSED : Fld := ⟨.FLC_STATB, 11, 1⟩
/-- FLC.STATB.ABORTED, W1C, R476. -/
def FLC_STATB_ABORTED : Fld := ⟨.FLC_STATB, 12, 1⟩
/-- FLC.STATB.BLANK, RO, R476. -/
def FLC_STATB_BLANK : Fld := ⟨.FLC_STATB, 13, 1⟩
/-- FLC.STATB.BUSYRD, W1C, R476. -/
def FLC_STATB_BUSYRD : Fld := ⟨.FLC_STATB, 14, 1⟩
/-- FLC.STATB.DOUBT, W1C, R476. -/
def FLC_STATB_DOUBT : Fld := ⟨.FLC_STATB, 15, 1⟩
/-- FLC.STATB.CAPERR, W1C, R476. -/
def FLC_STATB_CAPERR : Fld := ⟨.FLC_STATB, 16, 1⟩
/-- FLC.STATB.GENFULL, W1C, R476. -/
def FLC_STATB_GENFULL : Fld := ⟨.FLC_STATB, 17, 1⟩
/-- FLC.STATB.OP, RO, R476. -/
def FLC_STATB_OP : Fld := ⟨.FLC_STATB, 24, 8⟩
/-- FLC.CTL.DOUBTX, RW, R477. -/
def FLC_CTL_DOUBTX : Fld := ⟨.FLC_CTL, 0, 1⟩
/-- FLC.CTL.IRQEN, RW, R477. -/
def FLC_CTL_IRQEN : Fld := ⟨.FLC_CTL, 1, 1⟩
/-- FLC.FADDRA.OFFSET, RO, R477. -/
def FLC_FADDRA_OFFSET : Fld := ⟨.FLC_FADDRA, 0, 27⟩
/-- FLC.FADDRB.OFFSET, RO, R477. -/
def FLC_FADDRB_OFFSET : Fld := ⟨.FLC_FADDRB, 0, 27⟩
/-- FLC.GEN.GENA, RO, R477. -/
def FLC_GEN_GENA : Fld := ⟨.FLC_GEN, 0, 11⟩
/-- FLC.GEN.ACTIVE, RO, R477. -/
def FLC_GEN_ACTIVE : Fld := ⟨.FLC_GEN, 11, 1⟩
/-- FLC.GEN.GENB, RO, R477. -/
def FLC_GEN_GENB : Fld := ⟨.FLC_GEN, 16, 11⟩
/-- FLC.ABNCNT.COUNT, RO, R477. -/
def FLC_ABNCNT_COUNT : Fld := ⟨.FLC_ABNCNT, 0, 12⟩
/-- FLC.ABNSEL.INDEX, RW, R477. -/
def FLC_ABNSEL_INDEX : Fld := ⟨.FLC_ABNSEL, 0, 4⟩
/-- FLC.ABNDATA.SECTOR, RO, R477. -/
def FLC_ABNDATA_SECTOR : Fld := ⟨.FLC_ABNDATA, 0, 10⟩
/-- FLC.ABNDATA.BANK, RO, R477. -/
def FLC_ABNDATA_BANK : Fld := ⟨.FLC_ABNDATA, 10, 1⟩
/-- FLC.ABNDATA.VALID, RO, R477. -/
def FLC_ABNDATA_VALID : Fld := ⟨.FLC_ABNDATA, 11, 1⟩
/-- FLC.SSEL.SECTOR, RW, R477. -/
def FLC_SSEL_SECTOR : Fld := ⟨.FLC_SSEL, 0, 10⟩
/-- FLC.SSEL.BANK, RW, R477. -/
def FLC_SSEL_BANK : Fld := ⟨.FLC_SSEL, 10, 1⟩
/-- FLC.SINFO.LOCKED, RO, R477. -/
def FLC_SINFO_LOCKED : Fld := ⟨.FLC_SINFO, 0, 1⟩
/-- FLC.SINFO.ABANDONED, RO, R477. -/
def FLC_SINFO_ABANDONED : Fld := ⟨.FLC_SINFO, 1, 1⟩
/-- FLC.SINFO.REPLACED, RO, R477. -/
def FLC_SINFO_REPLACED : Fld := ⟨.FLC_SINFO, 2, 1⟩
/-- FLC.SPARE.SPAREA, RO, R477. -/
def FLC_SPARE_SPAREA : Fld := ⟨.FLC_SPARE, 0, 6⟩
/-- FLC.SPARE.SPAREB, RO, R477. -/
def FLC_SPARE_SPAREB : Fld := ⟨.FLC_SPARE, 8, 6⟩
/-- FLC.OPTSEL.INDEX, RW, R477. -/
def FLC_OPTSEL_INDEX : Fld := ⟨.FLC_OPTSEL, 0, 10⟩
/-- FLC.OPTDATA.DATA, RO, R477. -/
def FLC_OPTDATA_DATA : Fld := ⟨.FLC_OPTDATA, 0, 32⟩
/-- FLC.CORRCNT.COUNT, RC, R477. -/
def FLC_CORRCNT_COUNT : Fld := ⟨.FLC_CORRCNT, 0, 16⟩
/-- FLC.CORRCNT.SAT, RC, R477. -/
def FLC_CORRCNT_SAT : Fld := ⟨.FLC_CORRCNT, 16, 1⟩
/-- HIF.CTL.PCIEEN, RW, R501. -/
def HIF_CTL_PCIEEN : Fld := ⟨.HIF_CTL, 0, 1⟩
/-- HIF.CTL.SPIEN, RW, R501. -/
def HIF_CTL_SPIEN : Fld := ⟨.HIF_CTL, 1, 1⟩
/-- HIF.CTL.RRSTEN, RW, R501. -/
def HIF_CTL_RRSTEN : Fld := ⟨.HIF_CTL, 2, 1⟩
/-- HIF.STAT.LINKUP, RO, R501. -/
def HIF_STAT_LINKUP : Fld := ⟨.HIF_STAT, 0, 1⟩
/-- HIF.STAT.ROOT, RO, R501. -/
def HIF_STAT_ROOT : Fld := ⟨.HIF_STAT, 1, 1⟩
/-- HIF.STAT.REFUSED, W1C, R501. -/
def HIF_STAT_REFUSED : Fld := ⟨.HIF_STAT, 2, 1⟩
/-- HIF.STAT.TIMEOUT, W1C, R501. -/
def HIF_STAT_TIMEOUT : Fld := ⟨.HIF_STAT, 3, 1⟩
/-- HIF.STAT.SPIERR, W1C, R501. -/
def HIF_STAT_SPIERR : Fld := ⟨.HIF_STAT, 4, 1⟩
/-- HIF.STAT.ABSENTRD, W1C, R501. -/
def HIF_STAT_ABSENTRD : Fld := ⟨.HIF_STAT, 5, 1⟩
/-- HIF.ERRADDR.ADDR, RO, R501. -/
def HIF_ERRADDR_ADDR : Fld := ⟨.HIF_ERRADDR, 0, 32⟩
/-- HIF.ERRCNT.COUNT, RC, R501. -/
def HIF_ERRCNT_COUNT : Fld := ⟨.HIF_ERRCNT, 0, 16⟩
/-- HIF.ERRCNT.SAT, RC, R501. -/
def HIF_ERRCNT_SAT : Fld := ⟨.HIF_ERRCNT, 16, 1⟩
/-- HIF.APERSEL.SLOT, RW, R501. -/
def HIF_APERSEL_SLOT : Fld := ⟨.HIF_APERSEL, 0, 6⟩
/-- HIF.APER.BASE, RW, R501. -/
def HIF_APER_BASE : Fld := ⟨.HIF_APER, 0, 10⟩
/-- HIF.UIDL.UID, RW, R501. -/
def HIF_UIDL_UID : Fld := ⟨.HIF_UIDL, 0, 32⟩
/-- HIF.UIDH.UID, RW, R501. -/
def HIF_UIDH_UID : Fld := ⟨.HIF_UIDH, 0, 32⟩
/-- HIF.NUMCMD.NUM, WO, R501. -/
def HIF_NUMCMD_NUM : Fld := ⟨.HIF_NUMCMD, 0, 6⟩
/-- HIF.NUMCMD.GO, WO, R501. -/
def HIF_NUMCMD_GO : Fld := ⟨.HIF_NUMCMD, 6, 1⟩
/-- MBX.CTL.DIR, RW, R502. -/
def MBX_CTL_DIR : Fld := ⟨.MBX_CTL, 0, 1⟩
/-- MBX.CTL.IRQ, RW, R502. -/
def MBX_CTL_IRQ : Fld := ⟨.MBX_CTL, 1, 1⟩
/-- MBX.CTL.VEC, RW, R502. -/
def MBX_CTL_VEC : Fld := ⟨.MBX_CTL, 2, 5⟩
/-- MBX.POST.LEN, WO, R502. -/
def MBX_POST_LEN : Fld := ⟨.MBX_POST, 0, 6⟩
/-- MBX.STAT.SEQ, RO, R502. -/
def MBX_STAT_SEQ : Fld := ⟨.MBX_STAT, 0, 16⟩
/-- MBX.STAT.READY, RO, R502. -/
def MBX_STAT_READY : Fld := ⟨.MBX_STAT, 16, 1⟩
/-- MBX.STAT.CONSUMED, RO, R502. -/
def MBX_STAT_CONSUMED : Fld := ⟨.MBX_STAT, 17, 1⟩
/-- MBX.STAT.OVW, W1C, R502. -/
def MBX_STAT_OVW : Fld := ⟨.MBX_STAT, 18, 1⟩
/-- GDN.CTL.EN, RW, R503. -/
def GDN_CTL_EN : Fld := ⟨.GDN_CTL, 0, 1⟩
/-- GDN.CTL.SPAREEN, RW, R503. -/
def GDN_CTL_SPAREEN : Fld := ⟨.GDN_CTL, 1, 1⟩
/-- GDN.STAT.STATE, RO, R503. -/
def GDN_STAT_STATE : Fld := ⟨.GDN_STAT, 0, 2⟩
/-- GDN.STAT.ROLE, RO, R503. -/
def GDN_STAT_ROLE : Fld := ⟨.GDN_STAT, 2, 2⟩
/-- GDN.STAT.SPARE, RO, R503. -/
def GDN_STAT_SPARE : Fld := ⟨.GDN_STAT, 4, 2⟩
/-- GDN.STAT.DISCONLY, RO, R503. -/
def GDN_STAT_DISCONLY : Fld := ⟨.GDN_STAT, 6, 1⟩
/-- GDN.STAT.CONFLICT, W1C, R503. -/
def GDN_STAT_CONFLICT : Fld := ⟨.GDN_STAT, 7, 1⟩
/-- GDN.STAT.LOST, W1C, R503. -/
def GDN_STAT_LOST : Fld := ⟨.GDN_STAT, 8, 1⟩
/-- GDN.NBR.NUM, RO, R503. -/
def GDN_NBR_NUM : Fld := ⟨.GDN_NBR, 0, 6⟩
/-- GDN.NBR.DIST, RO, R503. -/
def GDN_NBR_DIST : Fld := ⟨.GDN_NBR, 6, 8⟩
/-- GDN.NBR.PORT, RO, R503. -/
def GDN_NBR_PORT : Fld := ⟨.GDN_NBR, 14, 2⟩
/-- GDN.NBR.ROOT, RO, R503. -/
def GDN_NBR_ROOT : Fld := ⟨.GDN_NBR, 16, 1⟩
/-- GDN.NBR.LOCK, RO, R503. -/
def GDN_NBR_LOCK : Fld := ⟨.GDN_NBR, 17, 1⟩
/-- GDN.NBR.VALID, RO, R503. -/
def GDN_NBR_VALID : Fld := ⟨.GDN_NBR, 18, 1⟩
/-- GDN.ERRCNT.FCRC, RC, R503. -/
def GDN_ERRCNT_FCRC : Fld := ⟨.GDN_ERRCNT, 0, 8⟩
/-- GDN.ERRCNT.LANEERR, RC, R503. -/
def GDN_ERRCNT_LANEERR : Fld := ⟨.GDN_ERRCNT, 8, 8⟩
/-- GDN.ERRCNT.FCRCSAT, RC, R503. -/
def GDN_ERRCNT_FCRCSAT : Fld := ⟨.GDN_ERRCNT, 16, 1⟩
/-- GDN.ERRCNT.LANESAT, RC, R503. -/
def GDN_ERRCNT_LANESAT : Fld := ⟨.GDN_ERRCNT, 17, 1⟩
/-- GDN.NUM.NUM, RO, R503. -/
def GDN_NUM_NUM : Fld := ⟨.GDN_NUM, 0, 6⟩
/-- GDN.NUM.ASSIGNED, RO, R503. -/
def GDN_NUM_ASSIGNED : Fld := ⟨.GDN_NUM, 6, 1⟩
/-- GDN.NUM.STRAP, RO, R503. -/
def GDN_NUM_STRAP : Fld := ⟨.GDN_NUM, 8, 6⟩
/-- GDN.TREEL.TREE, RO, R503. -/
def GDN_TREEL_TREE : Fld := ⟨.GDN_TREEL, 0, 32⟩
/-- GDN.TREEH.TREE, RO, R503. -/
def GDN_TREEH_TREE : Fld := ⟨.GDN_TREEH, 0, 32⟩
/-- MSR.CTL.GO, WO, R514. -/
def MSR_CTL_GO : Fld := ⟨.MSR_CTL, 0, 1⟩
/-- MSR.CTL.ABORT, WO, R514. -/
def MSR_CTL_ABORT : Fld := ⟨.MSR_CTL, 1, 1⟩
/-- MSR.CTL.OP, RW, R514. -/
def MSR_CTL_OP : Fld := ⟨.MSR_CTL, 2, 3⟩
/-- MSR.CTL.TIMED, RW, R514. -/
def MSR_CTL_TIMED : Fld := ⟨.MSR_CTL, 5, 1⟩
/-- MSR.CTL.IRQEN, RW, R514. -/
def MSR_CTL_IRQEN : Fld := ⟨.MSR_CTL, 6, 1⟩
/-- MSR.CTL.TLINK, RW, R514. -/
def MSR_CTL_TLINK : Fld := ⟨.MSR_CTL, 7, 1⟩
/-- MSR.CTL.TARGET, RW, R514. -/
def MSR_CTL_TARGET : Fld := ⟨.MSR_CTL, 8, 8⟩
/-- MSR.CTL.LINE, RW, R514. -/
def MSR_CTL_LINE : Fld := ⟨.MSR_CTL, 16, 2⟩
/-- MSR.STARTL.TICK, RW, R514. -/
def MSR_STARTL_TICK : Fld := ⟨.MSR_STARTL, 0, 32⟩
/-- MSR.STARTH.TICK, RW, R514. -/
def MSR_STARTH_TICK : Fld := ⟨.MSR_STARTH, 0, 32⟩
/-- MSR.LTIME.TON, RW, R514. -/
def MSR_LTIME_TON : Fld := ⟨.MSR_LTIME, 0, 16⟩
/-- MSR.LTIME.TOFF, RW, R514. -/
def MSR_LTIME_TOFF : Fld := ⟨.MSR_LTIME, 16, 16⟩
/-- MSR.LSAMP.CONV, RW, R514. -/
def MSR_LSAMP_CONV : Fld := ⟨.MSR_LSAMP, 0, 6⟩
/-- MSR.LSAMP.NS, RW, R514. -/
def MSR_LSAMP_NS : Fld := ⟨.MSR_LSAMP, 6, 6⟩
/-- MSR.LSAMP.SPACE, RW, R514. -/
def MSR_LSAMP_SPACE : Fld := ⟨.MSR_LSAMP, 12, 10⟩
/-- MSR.LSAMP.SKIP, RW, R514. -/
def MSR_LSAMP_SKIP : Fld := ⟨.MSR_LSAMP, 22, 10⟩
/-- MSR.LVOLT.VOLT, RW, R514. -/
def MSR_LVOLT_VOLT : Fld := ⟨.MSR_LVOLT, 0, 32⟩
/-- MSR.TCFG.VF, RW, R514. -/
def MSR_TCFG_VF : Fld := ⟨.MSR_TCFG, 0, 10⟩
/-- MSR.TCFG.THR, RW, R514. -/
def MSR_TCFG_THR : Fld := ⟨.MSR_TCFG, 10, 10⟩
/-- MSR.STAT.BUSY, RO, R514. -/
def MSR_STAT_BUSY : Fld := ⟨.MSR_STAT, 0, 1⟩
/-- MSR.STAT.DONE, W1C, R514. -/
def MSR_STAT_DONE : Fld := ⟨.MSR_STAT, 1, 1⟩
/-- MSR.STAT.ERR, W1C, R514. -/
def MSR_STAT_ERR : Fld := ⟨.MSR_STAT, 2, 1⟩
/-- MSR.STAT.WERR, W1C, R514. -/
def MSR_STAT_WERR : Fld := ⟨.MSR_STAT, 3, 1⟩
/-- MSR.STAT.ERRCODE, RO, R514. -/
def MSR_STAT_ERRCODE : Fld := ⟨.MSR_STAT, 4, 4⟩
/-- MSR.RES0.RES, RO, R514. -/
def MSR_RES0_RES : Fld := ⟨.MSR_RES0, 0, 32⟩
/-- MSR.RES1.RES, RO, R514. -/
def MSR_RES1_RES : Fld := ⟨.MSR_RES1, 0, 32⟩
/-- MSR.RES2.RES, RO, R514. -/
def MSR_RES2_RES : Fld := ⟨.MSR_RES2, 0, 32⟩
/-- MSR.RES3.RES, RO, R514. -/
def MSR_RES3_RES : Fld := ⟨.MSR_RES3, 0, 32⟩
/-- MSR.SSEL.RAIL, RW, R514. -/
def MSR_SSEL_RAIL : Fld := ⟨.MSR_SSEL, 0, 4⟩
/-- MSR.SDATA.VAL, RO, R514. -/
def MSR_SDATA_VAL : Fld := ⟨.MSR_SDATA, 0, 12⟩
/-- PMU.MODE.CUR, RO, R535. -/
def PMU_MODE_CUR : Fld := ⟨.PMU_MODE, 0, 4⟩
/-- PMU.MODE.PREV, RO, R535. -/
def PMU_MODE_PREV : Fld := ⟨.PMU_MODE, 4, 4⟩
/-- PMU.MODEREQ.MODE, RW, R535. -/
def PMU_MODEREQ_MODE : Fld := ⟨.PMU_MODEREQ, 0, 4⟩
/-- PMU.MODEREQ.GO, WO, R535. -/
def PMU_MODEREQ_GO : Fld := ⟨.PMU_MODEREQ, 4, 1⟩
/-- PMU.MODEREQ.PEND, RO, R535. -/
def PMU_MODEREQ_PEND : Fld := ⟨.PMU_MODEREQ, 5, 1⟩
/-- PMU.STAT.MODEERR, W1C, R535. -/
def PMU_STAT_MODEERR : Fld := ⟨.PMU_STAT, 0, 1⟩
/-- PMU.STAT.MCAUSE, RO, R535. -/
def PMU_STAT_MCAUSE : Fld := ⟨.PMU_STAT, 1, 3⟩
/-- PMU.STAT.ONBKP, RO, R535. -/
def PMU_STAT_ONBKP : Fld := ⟨.PMU_STAT, 4, 1⟩
/-- PMU.STAT.SWITCHED, W1C, R535. -/
def PMU_STAT_SWITCHED : Fld := ⟨.PMU_STAT, 5, 1⟩
/-- PMU.STAT.SWBACK, W1C, R535. -/
def PMU_STAT_SWBACK : Fld := ⟨.PMU_STAT, 6, 1⟩
/-- PMU.STAT.OOR, RO, R535. -/
def PMU_STAT_OOR : Fld := ⟨.PMU_STAT, 7, 1⟩
/-- PMU.STAT.OOREV, W1C, R535. -/
def PMU_STAT_OOREV : Fld := ⟨.PMU_STAT, 8, 1⟩
/-- PMU.STAT.WOKE, W1C, R535. -/
def PMU_STAT_WOKE : Fld := ⟨.PMU_STAT, 9, 1⟩
/-- PMU.STAT.WSRC, RO, R535. -/
def PMU_STAT_WSRC : Fld := ⟨.PMU_STAT, 10, 3⟩
/-- PMU.STAT.WPORT, RO, R535. -/
def PMU_STAT_WPORT : Fld := ⟨.PMU_STAT, 13, 2⟩
/-- PMU.STAT.SNSOC, W1C, R535. -/
def PMU_STAT_SNSOC : Fld := ⟨.PMU_STAT, 15, 1⟩
/-- PMU.STAT.REGSPARE, W1C, R535. -/
def PMU_STAT_REGSPARE : Fld := ⟨.PMU_STAT, 16, 1⟩
/-- PMU.STAT.DOMERR, W1C, R535. -/
def PMU_STAT_DOMERR : Fld := ⟨.PMU_STAT, 17, 1⟩
/-- PMU.SUPPLY.MAINOK, RO, R536. -/
def PMU_SUPPLY_MAINOK : Fld := ⟨.PMU_SUPPLY, 0, 1⟩
/-- PMU.SUPPLY.BKPOK, RO, R536. -/
def PMU_SUPPLY_BKPOK : Fld := ⟨.PMU_SUPPLY, 1, 1⟩
/-- PMU.SUPPLY.MAINQUAL, RO, R536. -/
def PMU_SUPPLY_MAINQUAL : Fld := ⟨.PMU_SUPPLY, 2, 1⟩
/-- PMU.SUPPLY.HOLDOK, RO, R536. -/
def PMU_SUPPLY_HOLDOK : Fld := ⟨.PMU_SUPPLY, 3, 1⟩
/-- PMU.SUPPLY.FORCEBKP, RW, R536. -/
def PMU_SUPPLY_FORCEBKP : Fld := ⟨.PMU_SUPPLY, 4, 1⟩
/-- PMU.SWCNT.COUNT, RC, R536. -/
def PMU_SWCNT_COUNT : Fld := ⟨.PMU_SWCNT, 0, 16⟩
/-- PMU.SWCNT.SAT, RC, R536. -/
def PMU_SWCNT_SAT : Fld := ⟨.PMU_SWCNT, 16, 1⟩
/-- PMU.DOMEN.FIXED, RO, R536. -/
def PMU_DOMEN_FIXED : Fld := ⟨.PMU_DOMEN, 0, 5⟩
/-- PMU.DOMEN.RANK, RW, R536. -/
def PMU_DOMEN_RANK : Fld := ⟨.PMU_DOMEN, 5, 8⟩
/-- PMU.DOMEN.LODE, RW, R536. -/
def PMU_DOMEN_LODE : Fld := ⟨.PMU_DOMEN, 13, 1⟩
/-- PMU.DOMEN.ANAW, RW, R536. -/
def PMU_DOMEN_ANAW : Fld := ⟨.PMU_DOMEN, 14, 1⟩
/-- PMU.DOMEN.ANAE, RW, R536. -/
def PMU_DOMEN_ANAE : Fld := ⟨.PMU_DOMEN, 15, 1⟩
/-- PMU.DOMEN.EDGE, RO, R536. -/
def PMU_DOMEN_EDGE : Fld := ⟨.PMU_DOMEN, 16, 1⟩
/-- PMU.DOMEN.DLNK, RW, R536. -/
def PMU_DOMEN_DLNK : Fld := ⟨.PMU_DOMEN, 17, 1⟩
/-- PMU.DOMEN.HOST, RW, R536. -/
def PMU_DOMEN_HOST : Fld := ⟨.PMU_DOMEN, 18, 1⟩
/-- PMU.DOMEN.GENIO, RW, R536. -/
def PMU_DOMEN_GENIO : Fld := ⟨.PMU_DOMEN, 19, 1⟩
/-- PMU.DOMSTAT.ON, RO, R536. -/
def PMU_DOMSTAT_ON : Fld := ⟨.PMU_DOMSTAT, 0, 20⟩
/-- PMU.SNSCTL.EN5, RW, R536. -/
def PMU_SNSCTL_EN5 : Fld := ⟨.PMU_SNSCTL, 0, 1⟩
/-- PMU.SNSCTL.EN33, RW, R536. -/
def PMU_SNSCTL_EN33 : Fld := ⟨.PMU_SNSCTL, 1, 1⟩
/-- PMU.SNSCTL.OC5, W1C, R536. -/
def PMU_SNSCTL_OC5 : Fld := ⟨.PMU_SNSCTL, 2, 1⟩
/-- PMU.SNSCTL.OC33, W1C, R536. -/
def PMU_SNSCTL_OC33 : Fld := ⟨.PMU_SNSCTL, 3, 1⟩
/-- PMU.SNSCTL.PG5, RO, R536. -/
def PMU_SNSCTL_PG5 : Fld := ⟨.PMU_SNSCTL, 4, 1⟩
/-- PMU.SNSCTL.PG33, RO, R536. -/
def PMU_SNSCTL_PG33 : Fld := ⟨.PMU_SNSCTL, 5, 1⟩
/-- PMU.REGSTAT.SPARE, RO, R536. -/
def PMU_REGSTAT_SPARE : Fld := ⟨.PMU_REGSTAT, 0, 8⟩
/-- PMU.REGSTAT.FAIL, RO, R536. -/
def PMU_REGSTAT_FAIL : Fld := ⟨.PMU_REGSTAT, 8, 8⟩
/-- PMU.WAKEEN.PIN, RW, R536. -/
def PMU_WAKEEN_PIN : Fld := ⟨.PMU_WAKEEN, 0, 1⟩
/-- PMU.WAKEEN.GEDAN, RW, R536. -/
def PMU_WAKEEN_GEDAN : Fld := ⟨.PMU_WAKEEN, 1, 4⟩
/-- PMU.WAKEEN.TIMER, RW, R536. -/
def PMU_WAKEEN_TIMER : Fld := ⟨.PMU_WAKEEN, 5, 1⟩
/-- PMU.WAKETIME.BC, RW, R536. -/
def PMU_WAKETIME_BC : Fld := ⟨.PMU_WAKETIME, 0, 32⟩
/-- CLK.CTL.AUTOGATE, RW, R537. -/
def CLK_CTL_AUTOGATE : Fld := ⟨.CLK_CTL, 0, 1⟩
/-- CLK.STAT.REFOK, RO, R537. -/
def CLK_STAT_REFOK : Fld := ⟨.CLK_STAT, 0, 1⟩
/-- CLK.STAT.ENGLOCK, RO, R537. -/
def CLK_STAT_ENGLOCK : Fld := ⟨.CLK_STAT, 1, 1⟩
/-- CLK.STAT.SUPLOCK, RO, R537. -/
def CLK_STAT_SUPLOCK : Fld := ⟨.CLK_STAT, 2, 1⟩
/-- CLK.STAT.LNKLOCK, RO, R537. -/
def CLK_STAT_LNKLOCK : Fld := ⟨.CLK_STAT, 3, 1⟩
/-- CLK.STAT.MONFAIL, W1C, R537. -/
def CLK_STAT_MONFAIL : Fld := ⟨.CLK_STAT, 4, 1⟩
/-- CLK.STAT.REFLOST, W1C, R537. -/
def CLK_STAT_REFLOST : Fld := ⟨.CLK_STAT, 5, 1⟩
/-- CLK.STAT.UNLOCK, W1C, R537. -/
def CLK_STAT_UNLOCK : Fld := ⟨.CLK_STAT, 6, 1⟩
/-- CLK.UNLCNT.COUNT, RC, R537. -/
def CLK_UNLCNT_COUNT : Fld := ⟨.CLK_UNLCNT, 0, 8⟩
/-- CLK.UNLCNT.SAT, RC, R537. -/
def CLK_UNLCNT_SAT : Fld := ⟨.CLK_UNLCNT, 8, 1⟩
/-- RST.CAUSE.CAUSE, RO, R557. -/
def RST_CAUSE_CAUSE : Fld := ⟨.RST_CAUSE, 0, 4⟩
/-- RST.OLSTAT.RESTARTS, RC, R557. -/
def RST_OLSTAT_RESTARTS : Fld := ⟨.RST_OLSTAT, 0, 4⟩
/-- RST.OLSTAT.SAT, RC, R557. -/
def RST_OLSTAT_SAT : Fld := ⟨.RST_OLSTAT, 4, 1⟩
/-- RST.STAT.WERR, W1C, R557. -/
def RST_STAT_WERR : Fld := ⟨.RST_STAT, 0, 1⟩
/-- RST.STAT.OLERR, W1C, R557. -/
def RST_STAT_OLERR : Fld := ⟨.RST_STAT, 1, 1⟩
/-- RST.SWRST.KEY, WO, R557. -/
def RST_SWRST_KEY : Fld := ⟨.RST_SWRST, 0, 32⟩
/-- RST.WDCTL.EN, W1S, R557. -/
def RST_WDCTL_EN : Fld := ⟨.RST_WDCTL, 0, 1⟩
/-- RST.WDCTL.PERIOD, RW, R557. -/
def RST_WDCTL_PERIOD : Fld := ⟨.RST_WDCTL, 16, 16⟩
/-- RST.WDKICK.KEY, WO, R557. -/
def RST_WDKICK_KEY : Fld := ⟨.RST_WDKICK, 0, 32⟩
/-- RST.BLKCTL.BLOCK, RW, R557. -/
def RST_BLKCTL_BLOCK : Fld := ⟨.RST_BLKCTL, 0, 7⟩
/-- RST.BLKCTL.GO, WO, R557. -/
def RST_BLKCTL_GO : Fld := ⟨.RST_BLKCTL, 7, 1⟩
/-- RST.BLKCTL.BLKTO, RW, R557. -/
def RST_BLKCTL_BLKTO : Fld := ⟨.RST_BLKCTL, 16, 16⟩
/-- RST.BLKSTAT.BUSY, RO, R557. -/
def RST_BLKSTAT_BUSY : Fld := ⟨.RST_BLKSTAT, 0, 1⟩
/-- RST.BLKSTAT.DONE, W1C, R557. -/
def RST_BLKSTAT_DONE : Fld := ⟨.RST_BLKSTAT, 1, 1⟩
/-- RST.BLKSTAT.IDLE, RO, R557. -/
def RST_BLKSTAT_IDLE : Fld := ⟨.RST_BLKSTAT, 2, 1⟩
/-- RST.BOOTSTAT.RESULT, RO, R557. -/
def RST_BOOTSTAT_RESULT : Fld := ⟨.RST_BOOTSTAT, 0, 2⟩
/-- RST.BOOTSTAT.SKIPPED, RO, R557. -/
def RST_BOOTSTAT_SKIPPED : Fld := ⟨.RST_BOOTSTAT, 2, 1⟩
/-- RST.BOOTSTAT.BOOTSEL, RO, R557. -/
def RST_BOOTSTAT_BOOTSEL : Fld := ⟨.RST_BOOTSTAT, 3, 1⟩
/-- RST.BOOTSTAT.HELD, RO, R557. -/
def RST_BOOTSTAT_HELD : Fld := ⟨.RST_BOOTSTAT, 4, 1⟩
/-- RST.BOOTSTAT.FAILACT, RO, R557. -/
def RST_BOOTSTAT_FAILACT : Fld := ⟨.RST_BOOTSTAT, 5, 3⟩
/-- RST.BOOTSTAT.FAILOTH, RO, R557. -/
def RST_BOOTSTAT_FAILOTH : Fld := ⟨.RST_BOOTSTAT, 8, 3⟩
/-- RST.CSTART.START, W1S, R557. -/
def RST_CSTART_START : Fld := ⟨.RST_CSTART, 0, 4⟩
/-- RST.CENTRYL.ADDR, RW, R557. -/
def RST_CENTRYL_ADDR : Fld := ⟨.RST_CENTRYL, 0, 32⟩
/-- RST.CENTRYH.ADDR, RW, R557. -/
def RST_CENTRYH_ADDR : Fld := ⟨.RST_CENTRYH, 0, 8⟩
/-- LCS.STATE.ST, RO, R557. -/
def LCS_STATE_ST : Fld := ⟨.LCS_STATE, 0, 3⟩
/-- LCS.STATE.RQ, RO, R557. -/
def LCS_STATE_RQ : Fld := ⟨.LCS_STATE, 3, 3⟩
/-- LCS.CMD.TARGET, WO, R557. -/
def LCS_CMD_TARGET : Fld := ⟨.LCS_CMD, 0, 3⟩
/-- LCS.CMD.KEY, WO, R557. -/
def LCS_CMD_KEY : Fld := ⟨.LCS_CMD, 16, 16⟩
/-- LCS.STAT.ERR, W1C, R557. -/
def LCS_STAT_ERR : Fld := ⟨.LCS_STAT, 0, 1⟩
/-- LCS.DEVTAGL.TAG, RO, R557. -/
def LCS_DEVTAGL_TAG : Fld := ⟨.LCS_DEVTAGL, 0, 32⟩
/-- LCS.DEVTAGH.TAG, RO, R557. -/
def LCS_DEVTAGH_TAG : Fld := ⟨.LCS_DEVTAGH, 0, 32⟩
/-- SAF.CTL.LOCK, W1S, R576. -/
def SAF_CTL_LOCK : Fld := ⟨.SAF_CTL, 0, 1⟩
/-- SAF.CTL.FREADY, RW, R576. -/
def SAF_CTL_FREADY : Fld := ⟨.SAF_CTL, 1, 1⟩
/-- SAF.STAT.ESC, RO, R576. -/
def SAF_STAT_ESC : Fld := ⟨.SAF_STAT, 0, 1⟩
/-- SAF.STAT.ACTLVL, RO, R576. -/
def SAF_STAT_ACTLVL : Fld := ⟨.SAF_STAT, 1, 2⟩
/-- SAF.STAT.SAFENLOW, RO, R576. -/
def SAF_STAT_SAFENLOW : Fld := ⟨.SAF_STAT, 3, 1⟩
/-- SAF.STAT.LOCKERR, W1C, R576. -/
def SAF_STAT_LOCKERR : Fld := ⟨.SAF_STAT, 4, 1⟩
/-- SAF.STAT.ACKERR, W1C, R576. -/
def SAF_STAT_ACKERR : Fld := ⟨.SAF_STAT, 5, 1⟩
/-- SAF.ACT.ACT, RW, R576. -/
def SAF_ACT_ACT : Fld := ⟨.SAF_ACT, 0, 32⟩
/-- SAF.PEND.PEND, W1C, R576. -/
def SAF_PEND_PEND : Fld := ⟨.SAF_PEND, 0, 16⟩
/-- SAF.FIRST.CLASS, RO, R577. -/
def SAF_FIRST_CLASS : Fld := ⟨.SAF_FIRST, 0, 4⟩
/-- SAF.FIRST.UNIT, RO, R577. -/
def SAF_FIRST_UNIT : Fld := ⟨.SAF_FIRST, 4, 8⟩
/-- SAF.FIRST.VALID, W1C, R577. -/
def SAF_FIRST_VALID : Fld := ⟨.SAF_FIRST, 12, 1⟩
/-- SAF.FIRSTL.TICK, RO, R577. -/
def SAF_FIRSTL_TICK : Fld := ⟨.SAF_FIRSTL, 0, 32⟩
/-- SAF.FIRSTH.TICK, RO, R577. -/
def SAF_FIRSTH_TICK : Fld := ⟨.SAF_FIRSTH, 0, 32⟩
/-- SAF.CSEL.CLASS, RW, R577. -/
def SAF_CSEL_CLASS : Fld := ⟨.SAF_CSEL, 0, 4⟩
/-- SAF.CCNT.COUNT, RC, R577. -/
def SAF_CCNT_COUNT : Fld := ⟨.SAF_CCNT, 0, 16⟩
/-- SAF.CCNT.SAT, RC, R577. -/
def SAF_CCNT_SAT : Fld := ⟨.SAF_CCNT, 16, 1⟩
/-- SAF.ACK.ACK, WO, R577. -/
def SAF_ACK_ACK : Fld := ⟨.SAF_ACK, 0, 1⟩
/-- SAF.SWEV.GO, WO, R577. -/
def SAF_SWEV_GO : Fld := ⟨.SAF_SWEV, 0, 1⟩
/-- QTZ.ALML.TICK, RW, R584. -/
def QTZ_ALML_TICK : Fld := ⟨.QTZ_ALML, 0, 32⟩
/-- QTZ.ALMH.TICK, RW, R584. -/
def QTZ_ALMH_TICK : Fld := ⟨.QTZ_ALMH, 0, 32⟩
/-- QTZ.TIMEL.TICK, RO, R584. -/
def QTZ_TIMEL_TICK : Fld := ⟨.QTZ_TIMEL, 0, 32⟩
/-- QTZ.TIMEH.TICK, RO, R584. -/
def QTZ_TIMEH_TICK : Fld := ⟨.QTZ_TIMEH, 0, 32⟩
/-- GPIO.DIRA.DIR, RW, R595. -/
def GPIO_DIRA_DIR : Fld := ⟨.GPIO_DIRA, 0, 32⟩
/-- GPIO.OUTA.OUT, RW, R595. -/
def GPIO_OUTA_OUT : Fld := ⟨.GPIO_OUTA, 0, 32⟩
/-- GPIO.INA.IN, RO, R595. -/
def GPIO_INA_IN : Fld := ⟨.GPIO_INA, 0, 32⟩
/-- GPIO.ODA.OD, RW, R595. -/
def GPIO_ODA_OD : Fld := ⟨.GPIO_ODA, 0, 32⟩
/-- GPIO.IFLAGA.IFLAG, W1C, R595. -/
def GPIO_IFLAGA_IFLAG : Fld := ⟨.GPIO_IFLAGA, 0, 32⟩
/-- GPIO.DIRB.DIR, RW, R595. -/
def GPIO_DIRB_DIR : Fld := ⟨.GPIO_DIRB, 0, 32⟩
/-- GPIO.OUTB.OUT, RW, R595. -/
def GPIO_OUTB_OUT : Fld := ⟨.GPIO_OUTB, 0, 32⟩
/-- GPIO.INB.IN, RO, R595. -/
def GPIO_INB_IN : Fld := ⟨.GPIO_INB, 0, 32⟩
/-- GPIO.ODB.OD, RW, R595. -/
def GPIO_ODB_OD : Fld := ⟨.GPIO_ODB, 0, 32⟩
/-- GPIO.IFLAGB.IFLAG, W1C, R595. -/
def GPIO_IFLAGB_IFLAG : Fld := ⟨.GPIO_IFLAGB, 0, 32⟩
/-- GPIO.DIRC.DIR, RW, R595. -/
def GPIO_DIRC_DIR : Fld := ⟨.GPIO_DIRC, 0, 32⟩
/-- GPIO.OUTC.OUT, RW, R595. -/
def GPIO_OUTC_OUT : Fld := ⟨.GPIO_OUTC, 0, 32⟩
/-- GPIO.INC.IN, RO, R595. -/
def GPIO_INC_IN : Fld := ⟨.GPIO_INC, 0, 32⟩
/-- GPIO.ODC.OD, RW, R595. -/
def GPIO_ODC_OD : Fld := ⟨.GPIO_ODC, 0, 32⟩
/-- GPIO.IFLAGC.IFLAG, W1C, R595. -/
def GPIO_IFLAGC_IFLAG : Fld := ⟨.GPIO_IFLAGC, 0, 32⟩
/-- GPIO.IMODEA.IMODE, RW, R595. -/
def GPIO_IMODEA_IMODE : Fld := ⟨.GPIO_IMODEA, 0, 32⟩
/-- GPIO.IMODEB.IMODE, RW, R595. -/
def GPIO_IMODEB_IMODE : Fld := ⟨.GPIO_IMODEB, 0, 32⟩
/-- GPIO.IMODEC.IMODE, RW, R595. -/
def GPIO_IMODEC_IMODE : Fld := ⟨.GPIO_IMODEC, 0, 32⟩
/-- GPIO.IMODED.IMODE, RW, R595. -/
def GPIO_IMODED_IMODE : Fld := ⟨.GPIO_IMODED, 0, 32⟩
/-- GPIO.IMODEE.IMODE, RW, R595. -/
def GPIO_IMODEE_IMODE : Fld := ⟨.GPIO_IMODEE, 0, 32⟩
/-- GPIO.IMODEF.IMODE, RW, R595. -/
def GPIO_IMODEF_IMODE : Fld := ⟨.GPIO_IMODEF, 0, 32⟩
/-- PMB.CTL.EN, RW, R595. -/
def PMB_CTL_EN : Fld := ⟨.PMB_CTL, 0, 1⟩
/-- PMB.CTL.TGT, RW, R595. -/
def PMB_CTL_TGT : Fld := ⟨.PMB_CTL, 1, 1⟩
/-- PMB.CTL.SPEED, RW, R595. -/
def PMB_CTL_SPEED : Fld := ⟨.PMB_CTL, 2, 2⟩
/-- PMB.CTL.PEC, RW, R595. -/
def PMB_CTL_PEC : Fld := ⟨.PMB_CTL, 4, 1⟩
/-- PMB.CTL.OWN, RW, R595. -/
def PMB_CTL_OWN : Fld := ⟨.PMB_CTL, 5, 7⟩
/-- PMB.TXDATA.BYTE, WO, R595. -/
def PMB_TXDATA_BYTE : Fld := ⟨.PMB_TXDATA, 0, 8⟩
/-- PMB.TXDATA.START, WO, R595. -/
def PMB_TXDATA_START : Fld := ⟨.PMB_TXDATA, 8, 1⟩
/-- PMB.TXDATA.STOP, WO, R595. -/
def PMB_TXDATA_STOP : Fld := ⟨.PMB_TXDATA, 9, 1⟩
/-- PMB.TXDATA.READ, WO, R595. -/
def PMB_TXDATA_READ : Fld := ⟨.PMB_TXDATA, 10, 1⟩
/-- PMB.TXDATA.NACK, WO, R595. -/
def PMB_TXDATA_NACK : Fld := ⟨.PMB_TXDATA, 11, 1⟩
/-- PMB.RXDATA.BYTE, RO, R595. -/
def PMB_RXDATA_BYTE : Fld := ⟨.PMB_RXDATA, 0, 8⟩
/-- PMB.RXDATA.VALID, RO, R595. -/
def PMB_RXDATA_VALID : Fld := ⟨.PMB_RXDATA, 8, 1⟩
/-- PMB.STAT.BUSY, RO, R595. -/
def PMB_STAT_BUSY : Fld := ⟨.PMB_STAT, 0, 1⟩
/-- PMB.STAT.DONE, W1C, R595. -/
def PMB_STAT_DONE : Fld := ⟨.PMB_STAT, 1, 1⟩
/-- PMB.STAT.NACK, W1C, R595. -/
def PMB_STAT_NACK : Fld := ⟨.PMB_STAT, 2, 1⟩
/-- PMB.STAT.ARBLOST, W1C, R595. -/
def PMB_STAT_ARBLOST : Fld := ⟨.PMB_STAT, 3, 1⟩
/-- PMB.STAT.PECERR, W1C, R595. -/
def PMB_STAT_PECERR : Fld := ⟨.PMB_STAT, 4, 1⟩
/-- PMB.STAT.ALERT, RO, R595. -/
def PMB_STAT_ALERT : Fld := ⟨.PMB_STAT, 5, 1⟩
/-- PMB.STAT.OVR, W1C, R595. -/
def PMB_STAT_OVR : Fld := ⟨.PMB_STAT, 6, 1⟩
/-- SPI.CTL.EN, RW, R595. -/
def SPI_CTL_EN : Fld := ⟨.SPI_CTL, 0, 1⟩
/-- SPI.CTL.MODE, RW, R595. -/
def SPI_CTL_MODE : Fld := ⟨.SPI_CTL, 1, 2⟩
/-- SPI.CTL.CS, RW, R595. -/
def SPI_CTL_CS : Fld := ⟨.SPI_CTL, 3, 2⟩
/-- SPI.CTL.DIV, RW, R595. -/
def SPI_CTL_DIV : Fld := ⟨.SPI_CTL, 8, 8⟩
/-- SPI.TXDATA.BYTE, WO, R595. -/
def SPI_TXDATA_BYTE : Fld := ⟨.SPI_TXDATA, 0, 8⟩
/-- SPI.TXDATA.END, WO, R595. -/
def SPI_TXDATA_END : Fld := ⟨.SPI_TXDATA, 8, 1⟩
/-- SPI.RXDATA.BYTE, RO, R595. -/
def SPI_RXDATA_BYTE : Fld := ⟨.SPI_RXDATA, 0, 8⟩
/-- SPI.RXDATA.VALID, RO, R595. -/
def SPI_RXDATA_VALID : Fld := ⟨.SPI_RXDATA, 8, 1⟩
/-- SPI.STAT.BUSY, RO, R595. -/
def SPI_STAT_BUSY : Fld := ⟨.SPI_STAT, 0, 1⟩
/-- SPI.STAT.DONE, W1C, R595. -/
def SPI_STAT_DONE : Fld := ⟨.SPI_STAT, 1, 1⟩
/-- SPI.STAT.OVR, W1C, R595. -/
def SPI_STAT_OVR : Fld := ⟨.SPI_STAT, 2, 1⟩
/-- UART.CTL.EN, RW, R595. -/
def UART_CTL_EN : Fld := ⟨.UART_CTL, 0, 1⟩
/-- UART.CTL.PARITY, RW, R595. -/
def UART_CTL_PARITY : Fld := ⟨.UART_CTL, 1, 2⟩
/-- UART.CTL.STOP2, RW, R595. -/
def UART_CTL_STOP2 : Fld := ⟨.UART_CTL, 3, 1⟩
/-- UART.CTL.RTSCTS, RW, R595. -/
def UART_CTL_RTSCTS : Fld := ⟨.UART_CTL, 4, 1⟩
/-- UART.CTL.DIV, RW, R595. -/
def UART_CTL_DIV : Fld := ⟨.UART_CTL, 8, 24⟩
/-- UART.TXDATA.BYTE, WO, R595. -/
def UART_TXDATA_BYTE : Fld := ⟨.UART_TXDATA, 0, 8⟩
/-- UART.RXDATA.BYTE, RO, R595. -/
def UART_RXDATA_BYTE : Fld := ⟨.UART_RXDATA, 0, 8⟩
/-- UART.RXDATA.VALID, RO, R595. -/
def UART_RXDATA_VALID : Fld := ⟨.UART_RXDATA, 8, 1⟩
/-- UART.STAT.TXFULL, RO, R595. -/
def UART_STAT_TXFULL : Fld := ⟨.UART_STAT, 0, 1⟩
/-- UART.STAT.RXVALID, RO, R595. -/
def UART_STAT_RXVALID : Fld := ⟨.UART_STAT, 1, 1⟩
/-- UART.STAT.PARERR, W1C, R595. -/
def UART_STAT_PARERR : Fld := ⟨.UART_STAT, 2, 1⟩
/-- UART.STAT.FRAMEERR, W1C, R595. -/
def UART_STAT_FRAMEERR : Fld := ⟨.UART_STAT, 3, 1⟩
/-- UART.STAT.OVR, W1C, R595. -/
def UART_STAT_OVR : Fld := ⟨.UART_STAT, 4, 1⟩
/-- DBG.STAT.ATTACHED, RO, R595. -/
def DBG_STAT_ATTACHED : Fld := ⟨.DBG_STAT, 0, 1⟩
/-- DBG.STAT.LCSTATE, RO, R595. -/
def DBG_STAT_LCSTATE : Fld := ⟨.DBG_STAT, 1, 3⟩
/-- DBG.STAT.HELD, RO, R595. -/
def DBG_STAT_HELD : Fld := ⟨.DBG_STAT, 4, 1⟩

end F

end Sys2Proof.Machine
end

