-- ==== Sys2Proof/Machine/Blocks.lean ====
section
/-! DEFINITION. Which block each register belongs to, by the block numbers of R582; the SQ registers are block 29 and the GDN
registers block 30. -/

namespace Sys2Proof.Machine

/-- Runs of registers of one block, in the order of `Reg`. -/
def regRuns : List (Nat × Nat) := [
  (0, 6), (29, 7), (1, 10), (29, 3), (1, 5), (23, 17), (20, 16), (21, 2), (29, 1), (22, 9), (4, 14), (18, 8),
  (19, 19), (2, 13), (3, 9), (17, 17), (15, 5), (16, 13), (29, 6), (5, 20), (6, 12), (7, 15), (14, 12), (30, 7),
  (9, 14), (10, 11), (11, 3), (12, 12), (13, 5), (8, 11), (0, 4), (24, 21), (25, 4), (26, 4), (27, 4), (28, 1)]

/-- The block of the register at a place of `Reg`, from a list of runs. -/
def blockOf : List (Nat × Nat) → Nat → Nat
  | [], _ => 31
  | (b, n) :: t, i => if i < n then b else blockOf t (i - n)

/-- The block of a register's key. -/
def keyBlock (k : Nat) : Nat := blockOf regRuns (k / 65536)

/-- The instance of a register's key. -/
def keyInst (k : Nat) : Nat := k % 65536

end Sys2Proof.Machine
end

