-- ==== Sys2Proof/Config.lean ====
section
/-! DEFINITION. What an implementation fixes and the spec leaves open. Every constant here is opaque: nothing can be proved
of its value. -/

namespace Sys2Proof.Config

/-- The value of the n-th free choice the model takes. [DESIGN CHOICE, log entry 8] -/
opaque freeValue : Nat → Nat

/-- SHA-384 of a string of bytes, as 48 bytes read as a little-endian number (R144); the spec names the function and does
not give it. [DESIGN CHOICE, log entry 9] -/
opaque sha384 : List Byte → Nat

/-- Whether an ECDSA P-384 signature (r, s) over a digest verifies under a public key (R144, R151); the spec names the
scheme and does not give it. [DESIGN CHOICE, log entry 9] -/
opaque ecdsaOk : Nat → Nat → Nat → Nat → Bool

/-- The check column of a data bit in the code of R426; the spec gives the columns' weights, not the columns.
[DESIGN CHOICE, log entry 47] -/
opaque checkColumn : Nat → BitVec 8

/-- The 4 check bytes of a flash word of 32 bytes of data (R428); the spec gives the code's strength, not the code, and the check bits of
the words all 0 and all ones (R454), which the model does not ask of this constant. [DESIGN CHOICE, log entry 44] -/
opaque flashCheck : Nat → BitVec 32

/-- The device's unique identifier of 64 bits (R492, R495); the spec gives no register for it. [DESIGN CHOICE, log entry 9] -/
opaque deviceUid : Nat

/-- Whether interrupt source 169 pends for a value of LOD.STAT (R386): the table says that the Lode's chapter states the condition,
and it states none. [DESIGN CHOICE, log entry 9] -/
opaque lodIrq : Nat → Bool

end Sys2Proof.Config
end

