-- ==== Sys2Proof/Machine/Tab.lean ====
section
/-! DEFINITION. Sparse tables: lists of (key, entry) pairs in one canonical form, keys strictly rising and no entry equal
to what an unlisted key reads as. Memory is such a table of bytes. Also two small list helpers. -/

namespace Sys2Proof.Machine

/-- A sparse table. -/
abbrev Tab (α : Type) := List (Nat × α)

/-- The entry at a key; an unlisted key reads as `d` gives it. -/
def Tab.look {α : Type} (d : Nat → α) : Tab α → Nat → α
  | [], k => d k
  | (k', v) :: t, k => if k = k' then v else Tab.look d t k

/-- Every entry but those at a key. -/
def Tab.drop {α : Type} : Tab α → Nat → Tab α
  | [], _ => []
  | (k', v) :: t, k => if k = k' then Tab.drop t k else (k', v) :: Tab.drop t k

/-- An entry put in front of the first greater key. -/
def Tab.ins {α : Type} : Tab α → Nat → α → Tab α
  | [], k, v => [(k, v)]
  | (k', w) :: t, k, v => if k < k' then (k, v) :: (k', w) :: t else (k', w) :: Tab.ins t k v

/-- Writing an entry; writing what an unlisted key reads as removes it. -/
def Tab.put {α : Type} [DecidableEq α] (d : Nat → α) (t : Tab α) (k : Nat) (v : α) : Tab α :=
  if v = d k then Tab.drop t k else Tab.ins (Tab.drop t k) k v

/-- The canonical form. -/
abbrev Tab.wf {α : Type} [DecidableEq α] (d : Nat → α) (t : Tab α) : Prop :=
  t.Pairwise (fun p q => p.1 < q.1) ∧ ∀ p ∈ t, p.2 ≠ d p.1

/-- The bytes of a number, least significant first (R1). -/
def leBytes : Nat → Nat → List Byte
  | 0, _ => []
  | n + 1, v => BitVec.ofNat 8 v :: leBytes n (v / 256)

/-- The number that bytes spell, least significant first (R1). -/
def ofLeBytes : List Byte → Nat
  | [] => 0
  | b :: t => b.toNat + 256 * ofLeBytes t

/-- The result of applying f to 0, 1, …, n − 1 in turn. -/
def repeatN {σ : Type} (n : Nat) (f : Nat → σ → σ) (s : σ) : σ :=
  (List.range n).foldl (fun acc k => f k acc) s

end Sys2Proof.Machine
end

