-- ==== Sys2Proof/Machine/State.lean ====
section
/-! DEFINITION. The state of the block: plain data, holding every register (in `regs`), every memory (in `mem`, with the
check state of its words in `chk` and its capability tags in `tags`), and the state of every sequencer, buffer and engine
that the spec gives the device; and the queue of commands. -/

namespace Sys2Proof.Machine

/-- Why the block could stop. No meaning stops: every effect of the spec is a next state. -/
inductive Fault where
  /-- Raised by no meaning; kept so that the type is closed and inhabited. Safe. -/
  | none
  deriving DecidableEq, Repr

/-- Why a command could have no meaning. -/
inductive Refusal where
  /-- The command of this mnemonic is not modelled yet; raised by the dispatch arm of that command. Safe. -/
  | notModelled (mnemonic : String)
  deriving DecidableEq, Repr

/-- An agent that reaches registers and memory (R11, R14, R22). -/
inductive Agent where
  | sup (k : Nat)
  | lane (e : Nat)
  | dma (m : Nat)
  | host
  | remote (d : Nat)
  | debug
  | loader
  deriving DecidableEq, Repr

/-- The check state of a 64-bit word of SRAM (R426, R427, R432). -/
inductive Chk where
  | valid
  | poison
  | corr
  | uncorr
  deriving DecidableEq, Repr

/-- A write of an aligned 64-bit word of a square's memories or of the Lode, kept for the reads of its own ec (R96, R98, R295): the
ec, the logical engine whose store buffer wrote it (none for a supervisor port), the address, the bytes written, the word after
and before, and the check state and the granule's tag before. -/
structure MemWrite where
  at_  : Nat
  eng  : Option Nat
  win  : Bool
  addr : Nat
  en   : Nat
  new  : Nat
  old  : Nat
  chk  : Chk
  tag  : Bool
  deriving DecidableEq, Repr

/-- A capability: 128 bits and a tag (R34, R381). -/
structure Cap where
  tag : Bool
  val : BitVec 128
  deriving DecidableEq, Repr

/-- An untagged capability of zeros. -/
def Cap.none : Cap := ⟨false, 0⟩

/-- The lineage of an event: its originating channel and its hop count (R320). -/
structure Lineage where
  orig : Nat
  hop  : Nat
  deriving DecidableEq, Repr

/-- An entry of a store buffer: an aligned 64-bit word at a local address, a byte enable per byte, the ec in which it
entered, the physical engine whose slot it carries, and whether a CST wrote it (R90, R94). -/
structure SbEntry where
  addr : Nat
  en   : Nat
  data : Nat
  cst  : Bool
  at_  : Nat
  phys : Nat
  deriving DecidableEq, Repr

/-- An effect that leaves an engine (R83, R396). -/
inductive Effect where
  | sts (addr size value : Nat)
  | cst (addr : Nat) (cap : Cap)
  | stc (k offset size value : Nat) (cap : Cap)
  | edge (cap : Cap) (index field value fine : Nat)
  | send (route value : Nat)
  | sig (cap : Cap)
  deriving DecidableEq, Repr

/-- An entry of a hold buffer: the effect, the instruction that placed it, and the epoch of the slot (R396, R398, R614). -/
structure Held where
  pc    : Nat
  phys  : Nat
  eff   : Effect
  deriving DecidableEq, Repr

/-- A word of instruction memory in the form it had when a write of it began, the check state of its 64-bit word then, and how many
instructions still execute it in that form (R72, R87). -/
structure OldForm where
  idx  : Nat
  word : Nat
  chk  : Chk
  left : Nat
  deriving DecidableEq, Repr

/-- The part a logical engine plays in a task (R126). -/
inductive DupRole where
  | single
  | engine (partner : Nat)
  | partner (engine : Nat)
  deriving DecidableEq, Repr

/-- A Lode request that a square port has sent (R100, R101): its ec, whether it was served, the destination register, and the first
ec after the instruction. -/
structure LodeReq where
  at_    : Nat
  served : Bool
  rd     : Nat
  next   : Nat
  deriving DecidableEq, Repr

/-- A logical lane engine (R34), its task (R117, R118), its store buffer (R90), its hold buffer and signature (R396,
R397), the effects of an earlier task still to be released (R400), whether a task has run since the bank became active and
the start of the previous one (R209), the ec after each sample port's last delivery and the word it replaced (R207, R209), the Lode requests it has
sent (R101), its return-stack mode of each bank (R51, R148) and its high-word latch (R22). -/
structure Eng where
  w        : Tab Word
  acc      : Tab Dword
  cap      : Tab Cap
  sp       : Tab Word
  stack    : List Nat
  pc       : Nat
  trapA    : Bool
  trapB    : Bool
  woken    : Bool
  running  : Bool
  slot     : Nat
  start    : Nat
  used     : Nat
  budget   : Nat
  role     : DupRole
  compared : Bool
  local_   : List SbEntry
  shared   : List SbEntry
  drained  : Nat
  hold     : List Held
  rel      : List Held
  lode     : List LodeReq
  overflow : Bool
  sig      : Word
  relAt    : Nat
  old      : List OldForm
  latch    : Option (Nat × Nat)
  snapAt   : Option Nat
  ran      : Bool
  before   : Option Nat
  spAt     : Tab Nat
  spOld    : Tab Word
  deriving DecidableEq, Repr

/-- An engine right after reset: every register 0, no task, every buffer empty (R35, R107, R429). [DESIGN CHOICE, log entry 2] -/
def Eng.init : Eng :=
  { w := [], acc := [], cap := [], sp := [], stack := [], pc := 0, trapA := true, trapB := true, woken := false, running := false, slot := 0,
    start := 0, used := 0, budget := 0, role := .single, compared := true, local_ := [], shared := [], drained := 0,
    hold := [], rel := [], lode := [], overflow := false, sig := 0, relAt := 0, old := [], latch := none, snapAt := none, ran := false, before := none, spAt := [], spOld := [] }

/-- A physical engine: the epoch of its slot (R394), its self-test under way (the state it came from), and how many
segments of its rotating test are done (R408). -/
structure Phys where
  epoch    : Nat
  before   : Option Nat
  segments : Nat
  deriving DecidableEq, Repr

/-- A physical engine right after reset. -/
def Phys.init : Phys := ⟨0, none, 0⟩

/-- The phase of a square's failover (R403, R409): the logical engines concerned and, once known, what was retired. -/
inductive FoPhase where
  | idle
  | selfTest (engine partner : Nat) (at_ : Nat) (recorded : Bool)
  | load (log retired reserve : Nat) (survivor : Option Nat) (windows : Bool) (at_ : Nat)
  | retarget (log retired reserve : Nat) (survivor : Option Nat) (at_ : Nat)
  deriving DecidableEq, Repr

/-- A square: its failover, and what R129 asks of it: whether it was powered down since it was loaded, and the plan
generation it recorded; the engine that its rotating test is testing, the tick at which that test began and whether it was reported late
(R408); and the banks whose slot table holds 0 where no entry was written (R152). -/
structure Square where
  fo       : FoPhase
  lost     : Bool
  warm     : Bool
  gen      : Nat
  rotEng   : Nat
  rotAt    : Nat
  rotSaid  : Bool
  clear    : Nat
  deriving DecidableEq, Repr

/-- A square right after reset. -/
def Square.init : Square := ⟨.idle, false, false, 0, 0, 0, false, 0⟩

/-- A receive register: the last message, whether it has been read, whether the route has received one since the bank became
active (R82, R138), and the ec of the last arrival with the value and the two marks before it, which a RECV of that ec sees (R82). -/
structure Rx where
  value : Nat
  fresh : Bool
  any   : Bool
  came  : Option (Nat × Nat × Bool × Bool)
  deriving DecidableEq, Repr

/-- A receive register that holds nothing. -/
def Rx.init : Rx := ⟨0, false, false, none⟩

/-- The events that reached a task input in the last ec in which any did (R119, R120): the ec, the input's word and first tick before
that ec, how many came in it, and the lowest of their channels. -/
structure TinEc where
  at_   : Nat
  word  : Nat
  first : Nat
  count : Nat
  chan  : Nat
  deriving DecidableEq, Repr

/-- A message on the board network (R104): who sent it, whether a match released it (R400), when, its path, its destination, its
epoch and bank, and how many links it has crossed. -/
structure Msg where
  src     : Nat
  rel     : Bool
  route   : Nat
  sent    : Nat
  path    : Nat
  hops    : Nat
  dstSq   : Nat
  dstEng  : Nat
  peer    : Nat
  value   : Nat
  epoch   : Nat
  bank    : Nat
  crossed : Nat
  deriving DecidableEq, Repr

/-- A window store on its way (R111): its engine, instruction, epoch, resource and value, the ec of its
effect, the start of the task that issued it (none for a released effect), and whether that task was duplicated. -/
structure WStore where
  eng    : Nat
  phys   : Nat
  pc     : Nat
  epoch  : Nat
  cap    : Cap
  offset : Nat
  size   : Nat
  value  : Nat
  due    : Nat
  task   : Option Nat
  dup    : Bool
  deriving DecidableEq, Repr

/-- What the schedule controller has pending (R133, R134). -/
inductive Pending where
  | none
  | start (bank : Nat) (origin : Nat)
  | switch (bank : Nat) (asked : Nat)
  | committed (bank : Nat) (boundary : Nat)
  deriving DecidableEq, Repr

/-- A load under way (R151): its bank and source, the header and section table it read, and SQEPOCH of the plan's squares as step 4
read it. -/
structure Load where
  bank : Nat
  src  : Nat
  head : List Byte
  squares : List (Nat × Nat)
  deriving DecidableEq, Repr

/-- The schedule controller: the origin of the active bank, the squares of each bank's plan (R143), what is pending, the load, and the footprints of both banks
(R155: keys 2 × granule + bank and, for Lode descriptors, a table of their own). -/
structure Sched where
  origin : Nat
  mask   : Nat × Nat
  pend   : Pending
  load   : Option Load
  foot   : Tab Bool
  footD  : Tab Bool
  deriving DecidableEq, Repr

/-- The schedule controller right after reset. -/
def Sched.init : Sched := ⟨0, (0, 0), .none, none, [], []⟩

/-- An edge queued for an output (R175): its instant in fine steps, its level, and the ec in which its write took effect. -/
structure QEdge where
  at_   : Nat
  lvl   : Bool
  wrote : Nat
  deriving DecidableEq, Repr

/-- One switching output of a pair: its reference S (R169), its level, the instants at which it last became active (R180) and at
which its dead time ends (R173), whether the on-time limit ended it (R180), its queue and last executed edge (R175), and how
many compare positions of the period have passed (R169). -/
structure Outp where
  ref   : Bool
  out   : Bool
  on    : Nat
  dt    : Option Nat
  maxed : Bool
  queue : List QEdge
  last  : Option Nat
  phase : Nat
  deriving DecidableEq, Repr

/-- An output at rest. -/
def Outp.init : Outp := ⟨false, false, 0, none, false, [], none, 0⟩

/-- What a lane engine wrote to a register or queue of a pair in an ec (R165): the ec, the engine, the registers that changed with their
values before and after, the output whose queue took an edge (1 A, 2 B), whether a late event was sent, and the pair's origin, carrier
and outputs before it. -/
structure LaneWrite where
  at_    : Nat
  eng    : Nat
  regs   : List (Nat × Word × Word)
  queued : Nat
  late   : Bool
  on     : Bool
  armed  : Bool
  set    : Bool
  start  : Nat
  origin : Nat
  wait   : Bool
  a      : Outp
  b      : Outp
  deriving DecidableEq, Repr

/-- A physical edge pair beside its registers: the origin armed and its instant (R166), the carrier start fixed and its instant, the start of the
period under way, the values in use (R170), the shadow writes that a load point to come may be too early for, oldest first: code, the first
tick of a load point that takes it, and the value it replaced (R171, R343), the peak passed,
a termination (R179), outputs held inactive after a release (R178) or a steering (R185), the last commanded change (R183), the
ec after a release (R247), the tick after a termination (R247), lane writes of an ec (R165), whether the balls are driven, the ec
after the last write of a dead time in timetable mode, which leaves the dead times of before for the edges up to that write's ec (R173),
the ec after the last write of MAXON with the limit before it (R180), and the ec after the last queued edge of output A to active with the
outputs before it (R247). -/
structure Pair where
  on      : Bool
  armed   : Bool
  origin  : Nat
  set     : Bool
  start   : Nat
  pstart  : Nat
  per     : Nat
  dutyA   : Nat
  dutyB   : Nat
  pkA     : Nat
  pkB     : Nat
  rise    : Nat
  fall    : Nat
  held    : List (Nat × Nat × Word)
  peak    : Bool
  term    : Bool
  wait    : Bool
  holdBy  : Option Nat
  cmd     : Nat
  relAt   : Nat
  termAt  : Nat
  lanes   : List (Nat × LaneWrite)
  a       : Outp
  b       : Outp
  driven  : Bool
  dtAt    : Nat
  maxAt   : Nat
  maxWas  : Nat
  aonAt   : Nat
  aonA    : Outp
  aonB    : Outp
  deriving DecidableEq, Repr

/-- A pair right after reset (R188). -/
def Pair.init : Pair :=
  { on := false, armed := false, origin := 0, set := false, start := 0, pstart := 0, per := 16, dutyA := 0, dutyB := 0, pkA := 0, pkB := 0, rise := 0,
    fall := 0, held := [], peak := false, term := false, wait := false, holdBy := none, cmd := 0, relAt := 0, termAt := 0,
    lanes := [], a := .init, b := .init, driven := false, dtAt := 0, maxAt := 0, maxWas := 0,
    aonAt := 0, aonA := .init, aonB := .init }

/-- What an edge pair tells the comparators, the driver links and the redundancy controller in a command: an edge at a ball
(0 A active, 1 A inactive, 2 B active, 3 B inactive), a load point, the entry to and exit from the safe state, and output
levels to flush; each with the logical pair and its instant in fine steps. -/
inductive Note where
  | edge (n kind at_ : Nat)
  | load (n at_ : Nat)
  | safe (n at_ : Nat)
  | driven (n at_ : Nat)
  | flush (n at_ : Nat)
  | degr
  deriving DecidableEq, Repr

/-- A scan (R201, R202, R211): its instant in fine steps, its sources, the settings it took, the positions delivered, the
slice that makes its codes, the outgoing slice's codes that a hand-over scan compared, the sequence numbers of positions sampled
by its end, the positions compared and those that failed, whether it has ended, and its cause (R320). -/
structure Scan where
  at_    : Nat
  srcs   : List Nat
  pace   : Nat
  fmt    : Nat
  gain   : Nat
  bias   : Nat
  scale  : Word
  offs   : Word
  done   : Nat
  hand   : Bool
  slice  : Nat
  codes  : List Nat
  seqs   : List Nat
  comp   : Nat
  fails  : List Nat
  ended  : Bool
  cause  : Option Lineage
  deriving DecidableEq, Repr

/-- A converter beside its registers: the next timed instant (R199), the pending trigger and its cause (R200, R320), the scans not
yet ended or delivered, oldest first, and the sequence number of each source (R205). -/
structure Conv where
  next  : Nat
  pend  : Option (Nat × Option Lineage)
  scans : List Scan
  seq   : Tab Nat
  setAt : Nat
  setWas : List (Nat × Word)
  deriving DecidableEq, Repr

/-- A converter right after reset. -/
def Conv.init : Conv := ⟨0, none, [], [], 0, []⟩

/-- A converter group's rotation (R210 to R213): the tick at which the next hand-over becomes due, the tick at which the one that
waits became due, and whether the last hand-over scan of the same converter failed. -/
structure Rot where
  next  : Option Nat
  due   : Option Nat
  retry : Bool
  deriving DecidableEq, Repr

/-- A rotation at rest. -/
def Rot.init : Rot := ⟨none, none, false⟩

/-- A trip net beside its entry (R246, R247, R249): the ec after the last one in which an enabled source routed to it was asserted,
the ec after its trip, and the ec after its release. -/
structure Net where
  last  : Nat
  trip  : Nat
  freed : Nat
  deriving DecidableEq, Repr

/-- A comparator beside its registers: HI and LO in use, the values that an unshadowed write of an ec leaves in use to its end, the
shadow writes not yet taken with their ecs, newest first (R231), the ramp's load point and its HI (R232), and the end of the blanking
window (R233). -/
structure Cmpr where
  hi     : Nat
  lo     : Nat
  hiWas  : Option (Nat × Nat)
  loWas  : Option (Nat × Nat)
  hiLog  : List (Nat × Nat)
  loLog  : List (Nat × Nat)
  ramp   : Option (Nat × Nat)
  blank  : Option Nat
  warned : Nat
  deriving DecidableEq, Repr

/-- A comparator right after reset (R256). -/
def Cmpr.init : Cmpr := ⟨0xFFF, 0, none, none, [], [], none, none, 0⟩

/-- A bitstream input beside its registers: the tick after which the edges of its clock count, where the clock stopped, the samples of
the edges before, the samples at the fast-trip filter's enable (R262, R265, R267), the boundaries passed since the enable, the last
one's tick (R264), and the last stuck episode: its level and the samples taken when it was found (R266). -/
structure Sdi where
  from_ : Nat
  till  : Option Nat
  took  : Nat
  ftAt  : Nat
  count : Nat
  last  : Nat
  stuck : Option (Bool × Nat)
  deriving DecidableEq, Repr

/-- A bitstream input right after reset. -/
def Sdi.init : Sdi := ⟨0, none, 0, 0, 0, 0, none⟩

/-- What the decoder did in an ec, with COUNT, IDXCNT, CMPVAL and HITCNT before it: a COUNT write of that ec comes first (R283). -/
structure Moved where
  ec     : Nat
  back   : Option Bool
  index  : Bool
  count  : Word
  idxcnt : Word
  cmpval : Word
  hitcnt : Word
  deriving DecidableEq, Repr

/-- A position interface beside its registers: legal steps since its enable (R280), the last step's tick, sign and distance from the
one before (R273, R280), the steps of the window under way and their net, the last step at the previous window's end and the
net since it, the last speed tick, the frame under way with its cause, the last frame start (R277), the last timed frame
instant, a CMPVAL and a CMPSTEP written in an ec with the value before it (R283), the ec after that in which each line's level was
accepted (R270), and what the decoder did last (R283). -/
structure Pos where
  steps  : Nat
  last   : Option Nat
  neg    : Bool
  gap    : Nat
  inWin  : Nat
  base   : Option Nat
  net    : Int
  speed  : Nat
  frames : List (Nat × Option Lineage)
  prevF  : Option Nat
  timed  : Nat
  wrote  : Option (Nat × Nat)
  wroteS : Option (Nat × Nat)
  accs   : Tab Nat
  moved  : Option Moved
  deriving DecidableEq, Repr

/-- A position interface right after reset. -/
def Pos.init : Pos := ⟨0, none, false, 0, 0, none, 0, 0, [], none, 0, none, none, [], none⟩

/-- An event that a channel carries (R313, R316): its channel, the ec of its issue, the clock domain of its source (0 engine,
1 link, 2 supervisor), the power domain of its source, its lineage, its rank in a collision (R318, R400: 0 for the source, then twice the
engine + 1 for a released SIG, + 2 for a task's), whether the consumers in the clock domain of its source have been reached, and the channel's STAT before it. -/
structure Flight where
  chan  : Nat
  at_   : Nat
  clk   : Nat
  dom   : Nat
  lin   : Lineage
  rank  : Nat
  near  : Bool
  was   : Word
  deriving DecidableEq, Repr

/-- An increment of a saturating counter (R25): its count and SAT fields, the instance, its ec, and the register before the first one of that
ec. -/
structure Counted where
  cnt  : Fld
  sat  : Fld
  inst : Nat
  ec   : Nat
  was  : Word
  deriving DecidableEq, Repr

/-- What a group action left in a channel (R322): the ec after which EN changed, plus 1; the EN held before; and the ec, plus 1,
of the last disable action. -/
structure ChanAct where
  act   : Nat
  old   : Bool
  dis   : Nat
  deriving DecidableEq, Repr

/-- An edge of an output for a link: its key (twice its instant, plus 1 for B), its level, and the ec in which it is known (R343, R344). -/
structure LinkEdge where
  key   : Nat
  lvl   : Bool
  ready : Nat
  deriving DecidableEq, Repr

/-- A frame under way on a link (R336): its type, the tick at which its last bit leaves, when it became ready, and its TAG (HB) or
levels (FLUSH). -/
structure Tx where
  kind  : Nat
  stop  : Nat
  ready : Nat
  arg   : Nat
  deriving DecidableEq, Repr

/-- A driver link beside its registers: the tick of its entry into TRAIN (R337), DREQ to be sent, the last TAG and the HB frames
awaiting their echo with the instant T1 in fine steps (R339), the last measurements in half fine steps, newest first, the tick
of the last valid frame received (R347), the HB ready with its tick and the last HBPER multiple (R341), TRIP (true) and RELEASE
frames ready with their ticks (R345), FLUSH frames ready with their levels and instants (R346), the keys of each output's last edge sent (twice its
instant, plus 1 for output B), edges made before a frame took them (R344), the instants of the last edges of the EDGE frames sent (R344), the frame under way, and the
bytes of the last frame. -/
structure Dlk where
  train  : Nat
  dreq   : Bool
  tag    : Nat
  echo   : List (Nat × Nat)
  meas   : List Int
  rx     : Nat
  hb     : Option Nat
  hbLast : Nat
  trips  : List (Bool × Nat)
  flush  : List (Nat × Nat)
  sent   : Nat
  sentB  : Nat
  pend   : List LinkEdge
  flight : List Nat
  tx     : Option Tx
  wire   : List Byte
  deriving DecidableEq, Repr

/-- A link right after reset. -/
def Dlk.init : Dlk := ⟨0, false, 0, [], [], 0, none, 0, [], [], 0, 0, [], [], none, []⟩

/-- A store waiting in a supervisor core's store buffer (R370): the instruction that issued it, and the capability of a CST. -/
structure SupStore where
  addr  : Nat
  size  : Nat
  value : Nat
  pc    : Nat
  cap   : Option Cap
  deriving DecidableEq, Repr

/-- A supervisor core (R359, R360): its registers, PST, capabilities, PC and system registers, the ring stack (R379), the
store buffer (R370), the return-address predictor, the branch target buffer, newest entry first: the key it was written under, the branch
and its target; the number of prediction keys drawn (R367), for a REPN that awaits a remote answer its complete repetitions plus 1
(R373), how many instructions it has retired since the last comparison of signatures (R411), and the flash words that its line buffer
holds, newest first (R446). -/
structure Sup where
  s     : Tab Dword
  pst   : Nat
  cap   : Tab Cap
  pc    : Nat
  tsbr  : Nat
  gtbr  : Nat
  gtlim : Nat
  vtbr  : Nat
  xring : List Nat
  rgnb  : Tab Dword
  rgnl  : Tab Dword
  sb    : List SupStore
  ras   : List Nat
  btb   : List (Nat × Nat × Nat)
  key   : Nat
  rep   : Nat
  retired : Nat
  lines : List Nat
  deriving DecidableEq, Repr

/-- A core right after reset: ring 0, IE = 0, XRING empty (R391). [DESIGN CHOICE, log entry 2] -/
def Sup.init : Sup := ⟨[], 0, [], 0, 0, 0, 0, 0, [], [], [], [], [], [], 0, 0, 0, []⟩

/-- A DMA channel's state beside its registers: the tags of CAPS and CAPD are STAT.STAG and STAT.DTAG; here the lineage of
the event that started it (R320). -/
structure Dma where
  lin : Option Lineage
  deriving DecidableEq, Repr

/-- The RDC command under way (R415). -/
inductive RdcCmd where
  | test (sq n : Nat)
  | rejoin (sq n : Nat) (src : Bool) (log peer : Nat)
  | refresh (sq : Nat)
  | testPair (p before : Nat)
  deriving DecidableEq, Repr

/-- The scrubber in a macro (R439, R441): the next word, the tick at which its lap began, and the words that it corrected on this
lap and on the one before (R437). -/
structure Scrub where
  pos   : Nat
  start : Option Nat
  fixed : List Nat
  prev  : List Nat
  deriving DecidableEq, Repr

/-- A scrubber that has visited nothing. -/
def Scrub.init : Scrub := ⟨0, none, [], []⟩

/-- How far a command sequence has come (R448): the second key, the command word, or operands of a command, with the (offset,
value) pairs received. -/
inductive FStep where
  | key2
  | command
  | operands (code : Nat) (got : List (Nat × Nat))
  deriving DecidableEq, Repr

/-- An open command sequence: its initiator, its step, and the tick of its last write (R448). -/
structure FSeq where
  by_  : Agent
  step : FStep
  at_  : Nat
  deriving DecidableEq, Repr

/-- An operation of a bank: its code, the offset, sector or row it acts on, and its data words (R449). -/
structure FOp where
  code  : Nat
  place : Nat
  words : List Nat
  deriving DecidableEq, Repr

/-- A flash bank beside its registers and its array: the open sequence, the operation, the sector of an erase suspended or about
to be, whether a suspend was asked for, the initiators whose next read returns the status (R449), the 0 bits of its
generation field (R463), the sectors with a marker, ABANDONED, locked, replaced and with a failed verification (R457, R460,
R461, R470), the spare sectors used, and what the happenings of one ec ask for (R471): the ec after the start of the operation, the ec of
the suspend asked for, and the ec of the last ABORT with the operation it stopped and ABORTED before it. -/
structure FBank where
  seq    : Option FSeq
  op     : Option FOp
  erase  : Option Nat
  asked  : Bool
  status : List Agent
  gen    : Nat
  marks  : List Nat
  abn    : List Nat
  locks  : List Nat
  repl   : List Nat
  bad    : List Nat
  used   : Nat
  began  : Nat
  askedAt : Nat
  cut    : Option (Nat × FOp × Bool)
  deriving DecidableEq, Repr

/-- A bank as delivered: its hidden rows erased. -/
def FBank.init : FBank := ⟨none, none, none, false, [], 0, [], [], [], [], [], 0, 0, 0, none⟩

/-- A Gedan port beside its registers: the neighbour's SUBTREE and TREE (R493), whether the neighbour names this device as its
upstream, the tick of the last valid frame (R494), the tick of the last HELLO sent, whether a lane has failed since it trained
(R490), whether a HELLO has told the neighbour's number, the last frame sent as it went over the first and the second serving lane (R489),
and the tick at which the last wake burst on lane 0 ends (R496). -/
structure Gport where
  sub   : Nat
  tree  : Nat
  claim : Bool
  rx    : Nat
  hello : Nat
  lane  : Bool
  heard : Bool
  wire  : List Byte × List Byte
  burst : Option Nat
  deriving DecidableEq, Repr

/-- A port right after reset. -/
def Gport.init : Gport := ⟨0, 0, false, 0, 0, false, false, ([], []), none⟩

/-- A host read as it came (R479, R480): over SPI or not, its host-space address and how many bytes it asks for. -/
structure HostReq where
  spi  : Bool
  addr : Nat
  size : Nat
  deriving DecidableEq, Repr

/-- What has been read for a host read that needs several accesses (R491): the status and the bytes so far, and the host-space addresses and
lengths that follow. -/
structure HostDone where
  status : Nat
  data   : List Byte
  rest   : List (Nat × Nat)
  deriving DecidableEq, Repr

/-- A remote read that awaits its completion (R482, R483): its tag, its initiator, the device, how many bytes, the host-space or physical
address read, the tick at which it times out, and for the host the read that it belongs to and what has been read for it. -/
structure Greq where
  tag  : Nat
  by_  : Agent
  dev  : Nat
  size : Nat
  addr : Nat
  due  : Nat
  host : Option (HostReq × HostDone)
  deriving DecidableEq, Repr

/-- A post, for a snapshot and a write of the staging area in its ec (R485, R487): the tick, the 64 bytes as a snapshot before the post
returns them, those that it leaves, and STAT.OVW before the post. -/
structure Posted where
  at_  : Nat
  page : List Byte
  left : List Byte
  ovw  : Bool
  deriving DecidableEq, Repr

/-- A completion to the host (R14, R482): 0 successful, 1 Unsupported Request, 2 successful and poisoned; and its bytes. -/
structure Reply where
  status : Nat
  data   : List Byte
  deriving DecidableEq, Repr

/-- The exchanges with the upstream neighbour (R32, R497): the number and T1 in fine steps of the one under way, the next number,
good and missed ones in a row, and whether the first valid offset has been judged (R30). -/
structure Sync where
  cur    : Option (Nat × Nat)
  next   : Nat
  good   : Nat
  missed : Nat
  judged : Bool
  deriving DecidableEq, Repr

/-- No exchange. -/
def Sync.init : Sync := ⟨none, 0, 0, 0, false⟩

/-- A measurement under way (R505 to R508): its operation and the CTL value that requested it, Ts, whether Ts has passed, how many
samples have been presented (phase 1 before phase 2), whether the pair has been disabled, the result words taken in each
phase, whether the device has been in a mode of R506 since the request (R507), and whether the device-side termination of the pair under
test is open (R511). -/
structure Meas where
  op    : Nat
  ctl   : Nat
  ts    : Nat
  begun : Bool
  shown : Nat
  ended : Bool
  got1  : List Word
  got2  : List Word
  listed : Bool
  opened : Bool
  deriving DecidableEq, Repr

/-- The supplies as they are, whether or not the PMU shows them (R515 to R517): VMAIN and VBKP in range, VMAIN in the window of R517,
VHOLD at 14.0 V or above, and whether VBKP is the supply in use. -/
structure Supply where
  main  : Bool
  bkp   : Bool
  win   : Bool
  hold  : Bool
  onBkp : Bool
  deriving DecidableEq, Repr

/-- The path of R538 to R549: the reset hold, option load awaited or under way, the release of the domain at a place of the order of
R545, the wipe, boot verification, and the end of the path. -/
inductive Boot where
  | hold
  | load
  | release (n : Nat)
  | wipe
  | verify
  | done
  deriving DecidableEq, Repr

/-- The queues of a general port (R595). -/
structure Port where
  tx : List Nat
  rx : List Nat
  deriving DecidableEq, Repr

/-- A port with empty queues. -/
def Port.init : Port := ⟨[], []⟩

/-- The state of the block. -/
structure State where
  /-- Quartz (R18). -/
  now     : Nat
  /-- Every register that does not hold its reset value, by register and instance. -/
  regs    : Tab Word
  /-- Every byte of memory that does not hold what an unlisted byte reads as, by physical address (R579). -/
  mem     : List Host.Cell
  /-- The check state of 64-bit words of SRAM, by physical address / 8 (R426). -/
  chk     : Tab Chk
  /-- Capability tags of 16-byte granules, by physical address / 16 (R40). -/
  tags    : Tab Bool
  /-- Recent writes of the squares' memories and of the Lode, newest first (R96, R98, R295). -/
  hist    : List MemWrite
  /-- The logical lane engines. -/
  eng     : Tab Eng
  /-- The physical lane engines, by 9 × square + number. -/
  phys    : Tab Phys
  /-- The squares. -/
  sq      : Tab Square
  /-- The receive registers, by bank, engine and route (R82, R103). -/
  rx      : Tab Rx
  /-- The tick of the first event counted in each live task input (R123), by bank, engine and input. -/
  tinAt   : Tab Nat
  /-- The last ec's events of each task input (R118, R120), by bank, engine and input. -/
  tinEc   : Tab (Option TinEc)
  /-- Messages on the board network, oldest first. -/
  msgs    : List Msg
  /-- Window stores on their way, oldest first. -/
  wstores : List WStore
  /-- The schedule controller. -/
  sched   : Sched
  /-- The tick at which an alarm armed late, or passed by a step of Quartz, fires; 0 for none (R27). -/
  almLate : Tab Nat
  /-- The physical edge pairs. -/
  eps     : Tab Pair
  /-- What edge pairs did in this command that other blocks have not yet taken (R231, R233, R345, R346). -/
  notes   : List Note
  /-- The logical pair that a measurement window holds (R181). -/
  window  : Option Nat
  /-- The converters. -/
  convs   : Tab Conv
  /-- The rotations of the converter groups. -/
  rots    : Tab Rot
  /-- The trip nets. -/
  nets    : Tab Net
  /-- Entries of Flint's table written lately, by index: the ec of the write and the entry before it (R244). -/
  fltWas  : Tab (Option (Nat × Word))
  /-- The physical comparators. -/
  cmps    : Tab Cmpr
  /-- The voltage last sensed at each AIN pin, signed, in units of 2^-28 of 2.5 V (R228). [DESIGN CHOICE, log entry 121] -/
  ain     : Tab Word
  /-- The bitstream inputs. -/
  sdis    : Tab Sdi
  /-- The position interfaces. -/
  poss    : Tab Pos
  /-- The tick of each Lode descriptor's last half flip (R81, R306). -/
  flipAt  : Tab Nat
  /-- Events that channels carry and consumers have not all been reached by (R316), in the order of their issue. -/
  flights : List Flight
  /-- Events of the ec of the last such drop that a source's event kept from a channel, with the channel's STAT before them; `near` marks a
  source's own that a channel with EN = 0 dropped (R313, R318). -/
  beaten  : List Flight
  /-- The increments of saturating counters of this ec (R25). -/
  counted : List Counted
  /-- Group actions on channels (R322). -/
  chanAct : Tab ChanAct
  /-- The driver links. -/
  dlks    : Tab Dlk
  /-- The physical supervisor cores. -/
  sup     : Tab Sup
  /-- The DMA channels. -/
  dma     : Tab Dma
  /-- The RDC command under way (R415). -/
  rdc     : Option RdcCmd
  /-- Logical pairs whose checker takes the primary's state before they resume (R414). -/
  joins   : List Nat
  /-- The scrubber, by macro. -/
  scrubs  : Tab Scrub
  /-- The length in ms of each macro's last completed lap (R441). -/
  laps    : Tab (Option Nat)
  /-- The rows of remap tables that serve nothing (R437), by macro × 8 + entry: the spare row of an entry not in effect, the row that it
replaces of one in effect; each word with its check state and tag. -/
  spares  : Tab (List (Nat × Chk × Bool))
  /-- The wipe under way (R429): its power domains, and whether the TCMs of physical pair 0 are kept. -/
  wipe    : Option (List Nat × Bool)
  /-- The flash banks, 0 for A and 1 for B. -/
  banks   : Tab FBank
  /-- The option rows, by row × 8 + word; an erased word reads all ones (R465). -/
  opt     : Tab Word
  /-- What the last option load found to fail its check bits (R543): bit r for option row r; of banks A and B, bits 128 and 129 for the
  generation fields, 130 and 131 for the locks, 132 and 133 for the replacements, 134 and 135 for the markers. -/
  optBad  : BitVec 136
  /-- The life-cycle field: its state count and its request count (R553). -/
  life    : Nat × Nat
  /-- The snapshot latches of the mailboxes, by initiator: the mailbox and its 64 bytes (R486). -/
  snaps   : Tab (Option (Nat × List Byte))
  /-- The last post of each mailbox (R487). -/
  posts   : Tab (Option Posted)
  /-- The tick of the last write of each mailbox's staging area, and its 56 bytes before the first write of that ec (R485). -/
  staged  : Tab (Option (Nat × List Byte))
  /-- The Gedan ports. -/
  gports  : Tab Gport
  /-- Remote reads under way. -/
  greqs   : List Greq
  /-- A completion that an initiator other than the host has not yet used (R483), by initiator: the address read, the status
  (0 good, 1 a bus error, 2 failed check bits) and the value. -/
  rgot    : Tab (Option (Nat × Nat × Nat))
  /-- The next request tag. -/
  gtag    : Nat
  /-- The exchanges with the upstream neighbour. -/
  sync    : Sync
  /-- The tick of the last valid SPI target command while it makes the device the root (R480). -/
  spiAt   : Option Nat
  /-- The last completion to the host, over PCI Express or SPI. -/
  reply   : Option Reply
  /-- The bytes that the SPI target returned in its last read transaction after the address (R479). -/
  spiOut  : List Byte
  /-- The last response to the debug port (R555). -/
  dreply  : Option Reply
  /-- The last MSI-X vector sent to the host (R485). -/
  msix    : Option Nat
  /-- The six device-number straps (R493, R602). -/
  straps  : Nat
  /-- The measurement under way (R504 to R512). -/
  meas    : Option Meas
  /-- The last measurement that came to its normal end, its tick, and DONE before it (R507). -/
  measWas : Option (Nat × Meas × Bool)
  /-- The rail that MSR converts next (R504). -/
  rail    : Nat
  /-- The path from a reset or wake to software. -/
  boot    : Boot
  /-- A mode requested and awaiting its frame boundary (R526). -/
  modeReq : Option Nat
  /-- The mode that a timed transition leads to (R525). -/
  trans   : Option Nat
  /-- Domains that a DOMEN write is powering, and those it is removing power from (R523). -/
  rising  : List Nat
  falling : List Nat
  /-- The tick since which VMAIN has stayed in the window of R517. -/
  mainAt  : Option Nat
  /-- A wake source latched during the entry into a sleep mode (R527): WSRC and WPORT. -/
  woke    : Option (Nat × Nat)
  /-- The tick of the last entry into a sleep mode (R528). -/
  sleepAt : Nat
  /-- The tick at which the watchdog, last reloaded, reaches 0 (R541). -/
  wdAt    : Nat
  /-- The block of a single-block reset under way (R552). -/
  block   : Option Nat
  /-- The ticks at which safety-escalation resets are due (R560). -/
  escDue  : List Nat
  /-- The level of SAFEN, and the tick of its last fall while it awaits the 8 ec of R565. -/
  safen   : Bool
  safenAt : Option Nat
  /-- The tick at which the engine PLL last locked (R532). -/
  lockAt  : Nat
  /-- Sensor supplies switched off in current limit until their enable is rewritten (R519): bit 0 SNS5, bit 1 SNS33. -/
  snsOff  : Nat
  /-- The supplies. [DESIGN CHOICE, log entry 65] -/
  supply  : Supply
  /-- The internal rails outside their windows (R504, R518, R521): bit i for rail i. -/
  rails   : Nat
  /-- The ec after the last escalation, and the tick of the last request carried out with PMU.MODE before it (R527). -/
  escAt   : Nat
  reqAt   : Option (Nat × Nat)
  /-- Whether the device woke from DEEP SLEEP, which retains the TCMs of physical pair 0 (R429, R524). -/
  tcmKept : Bool
  /-- The queues of the general ports: PMB 0–3 at 0–3, SPI 0–3 at 4–7, UART 0–1 at 8–9. -/
  ports   : Tab Port
  /-- Whether a boundary-scan instruction controls the balls (R605). -/
  extest  : Bool
  /-- The high-word latches of the initiators other than lane engines (R22): key of the counter, high word. -/
  latch   : Tab (Option (Nat × Nat))
  /-- Safety events raised in this command and not yet acted on (R558, R564): class and UNIT. -/
  raised  : List (Nat × Nat)
  /-- The model's own counter of free values taken; no statement rests on its value. -/
  free    : Nat
  /-- The commands that wait, first in, first out. -/
  pending : List Instr
  deriving DecidableEq, Repr

/-- The machine right after reset: every register at its reset value, no memory listed, every unit idle.
[DESIGN CHOICE, log entries 2, 55] -/
def State.reset : State :=
  { now := 0, regs := [], mem := [], chk := [], tags := [], hist := [], eng := [], phys := [], sq := [], rx := [], tinAt := [], tinEc := [], msgs := [],
    wstores := [], sched := .init,
    almLate := [],
    eps := [], notes := [], window := none,
    convs := [], rots := [],
    nets := [], fltWas := [], cmps := [], ain := [],
    sdis := [], poss := [],
    flipAt := [],
    flights := [], beaten := [], counted := [], chanAct := [],
    dlks := [],
    sup := [], dma := [],
    rdc := none, joins := [],
    scrubs := [], laps := [], spares := [], wipe := none,
    banks := [], opt := [], optBad := 0, life := (0, 0),
    snaps := [], posts := [], staged := [], gports := [], greqs := [], rgot := [], gtag := 0, sync := .init, spiAt := none, reply := none, spiOut := [], dreply := none, msix := none, straps := 63,
    meas := none, measWas := none, rail := 0,
    boot := .hold, modeReq := none, trans := none, rising := [], falling := [], mainAt := none, woke := none, sleepAt := 0, wdAt := 0,
    block := none, escDue := [], safen := false, safenAt := none, lockAt := 0, snsOff := 0,
    supply := ⟨false, false, false, false, false⟩, rails := 0, escAt := 0, reqAt := none, tcmKept := false,
    ports := [], extest := false,
    latch := [], raised := [], free := 0, pending := [] }

end Sys2Proof.Machine
end

