-- ==== Sys2Proof/Machine/Ops.lean ====
section
/-! DEFINITION. The named operations over registers, memory, counters, safety events, capabilities and owners that every
family of commands shares. -/

namespace Sys2Proof.Machine

/-! Registers (R4, R5). -/

/-- The key of a register's instance. -/
def Reg.key (r : Reg) (i : Nat) : Nat := r.ctorIdx * 65536 + i

/-- What an unlisted register reads as: its reset value. -/
def regDefault (k : Nat) : Word := BitVec.ofNat 32 (regResets.getD (k / 65536) 0)

/-- The value a register holds. -/
def State.reg (s : State) (r : Reg) (i : Nat) : Word := Tab.look regDefault s.regs (r.key i)

/-- A register given a value. -/
def State.setReg (s : State) (r : Reg) (i : Nat) (v : Word) : State :=
  { s with regs := Tab.put regDefault s.regs (r.key i) v }

/-- A register as a number. -/
def State.regN (s : State) (r : Reg) (i : Nat) : Nat := (s.reg r i).toNat

/-- A register given a number. -/
def State.setRegN (s : State) (r : Reg) (i : Nat) (v : Nat) : State := s.setReg r i (BitVec.ofNat 32 v)

/-- The value of a field. -/
def State.fld (s : State) (f : Fld) (i : Nat) : Nat := bits (f.lo + f.width - 1) f.lo (s.regN f.reg i)

/-- A field given a value. -/
def State.setFld (s : State) (f : Fld) (i : Nat) (v : Nat) : State :=
  s.setRegN f.reg i (setBits f.lo f.width v (s.regN f.reg i))

/-- Whether a one-bit field is 1. -/
def State.flag (s : State) (f : Fld) (i : Nat) : Bool := s.fld f i == 1

/-- A 64-bit value held in two registers, low and high. -/
def State.pair (s : State) (lo hi : Reg) (i : Nat) : Nat := s.regN lo i + 2 ^ 32 * s.regN hi i

/-- A 64-bit value written to two registers, low and high. -/
def State.setPair (s : State) (lo hi : Reg) (i : Nat) (v : Nat) : State :=
  (s.setRegN lo i (v % 2 ^ 32)).setRegN hi i (v / 2 ^ 32)

/-- An increment of this ec kept in mind, with the register before the first one: a read of this ec is before it (R25). -/
def State.remark (s : State) (cnt sat : Fld) (i : Nat) : State :=
  let l := s.counted.filter (fun c => c.ec == s.now)
  let was := ((l.find? (fun c => c.cnt.reg == cnt.reg && c.inst == i)).map (·.was)).getD (s.reg cnt.reg i)
  { s with counted := l ++ [⟨cnt, sat, i, s.now, was⟩] }

/-- One more event in a saturating counter: at all ones it is lost and sets SAT (R24). -/
def State.bump (s : State) (cnt sat : Fld) (i : Nat) : State :=
  let s := s.remark cnt sat i
  if s.fld cnt i = 2 ^ cnt.width - 1 then s.setFld sat i 1 else s.setFld cnt i (s.fld cnt i + 1)

/-- n more events in a saturating counter (R24). -/
def State.bumpN (n : Nat) (s : State) (cnt sat : Fld) (i : Nat) : State :=
  repeatN n (fun _ s => s.bump cnt sat i) s

/-- The increments of this ec in a register (R25). -/
def State.recent (s : State) (r : Reg) (i : Nat) : List Counted := s.counted.filter (fun c => c.ec == s.now && c.cnt.reg == r && c.inst == i)

/-- What a read of a register returns of its RC bits, of value v: what they held before the increments of its ec (R25). -/
def State.rcValue (s : State) (r : Reg) (i rc v : Nat) : Nat :=
  match s.recent r i with
  | [] => v
  | c :: _ => v - (v &&& rc) + (c.was.toNat &&& rc)

/-- A read clears the RC bits of a register; the increments of its ec are counted after it (R25). -/
def State.rcClear (s : State) (r : Reg) (i rc : Nat) : State :=
  if rc = 0 then s
  else
    let l := s.recent r i
    let s := { s with counted := s.counted.filter (fun c => !l.contains c) }
    l.foldl (fun s c => s.bump c.cnt c.sat i) (s.setRegN r i (s.regN r i - (s.regN r i &&& rc)))

/-! Logical engines (R6, R7). -/

/-- A logical engine. -/
def State.engine (s : State) (e : Nat) : Eng := Tab.look (fun _ => Eng.init) s.eng e

/-- A logical engine given a state. -/
def State.setEng (s : State) (e : Nat) (g : Eng) : State := { s with eng := Tab.put (fun _ => Eng.init) s.eng e g }

/-- The physical engine that MAP gives a logical engine, 15 for none (R423). -/
def State.physOf (s : State) (e : Nat) : Nat := bits (4 * (e % 8) + 3) (4 * (e % 8)) (s.regN .SQ_MAP (e / 8))

/-! Time (R2, R18). -/

/-- Whether the engine clock runs: its PLL is locked, which it never is while CLK is unpowered (R18, R531, R532). -/
def State.engClock (s : State) : Bool := s.flag F.CLK_STAT_ENGLOCK 0

/-- A happening carries Quartz to its instant, while the engine clock runs; Quartz never goes back for it (R18).
[DESIGN CHOICE, log entry 6] -/
def State.reach (s : State) (t : Nat) : State := { s with now := if s.engClock then max s.now t else s.now }

/-- What the engine clock times does not happen while that clock stands: t is the state in which it has (R18, R532).
[DESIGN CHOICE, log entry 6] -/
def State.clocked (s t : State) : State := if s.engClock then t else s

/-- The full instant of a short instant, as a block that evaluates it now expands it (R20). -/
def expandShort (now short : Nat) : Nat :=
  let b := if 2 ^ 31 ≤ now then now - 2 ^ 31 else 0
  b + (short + 2 ^ 32 - b % 2 ^ 32) % 2 ^ 32

/-- A free value taken: the value, and the state that has taken it. [DESIGN CHOICE, log entry 8] -/
def State.takeFree (s : State) : Nat × State := (Config.freeValue s.free, { s with free := s.free + 1 })

/-! Domains and modes (R9, R522, R524). -/

/-- The mode's code (R524): 0 BEDROCK, 1 DEEP SLEEP, 2 WARM SLEEP, 3 OPTION LOAD, 4 BRING-UP, 5 STANDBY, 6 RUN, 7 RUN DEGRADED,
8 SAFE HOLD, 9 SERVICE, 10 FLASH MAINTENANCE, 11 LIFE-CYCLE TRANSITION. -/
def State.mode (s : State) : Nat := s.fld F.PMU_MODE_CUR 0

/-- Whether a domain is powered and out of reset, and not merely retained in WARM SLEEP (R522, R525). [DEDUCED, log entry 56] -/
def State.alive (s : State) (d : Nat) : Bool :=
  bit d (s.regN .PMU_DOMSTAT 0) && !(s.mode == 2 && 5 ≤ d && d ≤ 13)

/-- Whether the device is in RUN or RUN DEGRADED. -/
def State.inRun (s : State) : Bool := s.mode == 6 || s.mode == 7

/-- The domain of a square: rank r in domain 4 + r (R9). -/
def sqDom (sq : Nat) : Nat := 5 + sq / 8

/-- The domain of an analog unit of the west tile or the east tile. -/
def anaDom (west : Bool) : Nat := if west then 14 else 15

/-! Safety events (R558). -/

/-- A block raises a safety event of a class; a block whose domain is unpowered or in reset raises none (R558). -/
def State.raiseEv (s : State) (dom cls unit : Nat) : State :=
  if s.alive dom then { s with raised := s.raised ++ [(cls, unit)] } else s

/-! Memory (R1, R426 to R432, R579, R581). -/

/-- What a byte that nothing has written reads as: 0xFF in the flash banks (an erased word) and in the bindings of a square
(nothing bound, R152), 0 elsewhere. [DESIGN CHOICE, log entry 10] -/
def memDefault (a : Nat) : Byte :=
  if a < 0x10000000 then 0xFF
  else if 0x200000000 ≤ a && a < 0x204000000 && 0xB9000 ≤ a % 0x100000 && a % 0x100000 < 0xBB000 then 0xFF
  else 0

/-- Memory in its canonical form: addresses strictly rising, and no entry equal to what an unlisted address reads as. -/
abbrev Memory.wf (m : List Host.Cell) : Prop := Tab.wf memDefault m

/-- The byte at a physical address. -/
def State.byte (s : State) (a : Nat) : Byte := Tab.look memDefault s.mem a

/-- A byte written. -/
def State.setByte (s : State) (a : Nat) (v : Byte) : State := { s with mem := Tab.put memDefault s.mem a v }

/-- n bytes from an address, least significant first. -/
def State.bytes (s : State) (a n : Nat) : List Byte := (List.range n).map (fun k => s.byte (a + k))

/-- The little-endian number of n bytes at an address. -/
def State.peek (s : State) (a n : Nat) : Nat := ofLeBytes (s.bytes a n)

/-- Bytes written from an address on. -/
def State.setBytes (s : State) (a : Nat) : List Byte → State
  | [] => s
  | b :: t => State.setBytes (s.setByte a b) (a + 1) t

/-- A little-endian number written in n bytes. -/
def State.poke (s : State) (a n v : Nat) : State := s.setBytes a (leBytes n v)

/-- The first address of square space (R579). -/
def sqSpace : Nat := 0x200000000

/-- The first address of a square (R579). -/
def sqBase (sq : Nat) : Nat := sqSpace + sq * 0x100000

/-- Whether an address lies in shared SRAM or in the TCM of a core, which fills half its slot (R579). -/
def isCoreRam (a : Nat) : Bool :=
  (0x20000000 ≤ a && a < 0x21000000) || (0x30000000 ≤ a && a < 0x30A00000 && a % 0x100000 < 0x80000)

/-- Whether an address lies in an SRAM of R426. -/
def isSram (a : Nat) : Bool :=
  isCoreRam a ||
  (0x100000000 ≤ a && a < 0x104000000) ||
  (sqSpace ≤ a && a < sqSpace + 0x4000000 &&
    ((a % 0x100000 < 0x90000 && a % 0x10000 < 0xC000) || (0xA0000 ≤ a % 0x100000 && a % 0x100000 < 0xB0000) ||
      0xC0000 ≤ a % 0x100000))

/-- The check state of a word that nothing has written: poison in SRAM, valid elsewhere. [DESIGN CHOICE, log entry 10] -/
def chkDefault (w : Nat) : Chk := if isSram (8 * w) then .poison else .valid

/-- Whether an address lies in a slot table that a load has cleared: words it did not write hold 0 (R152). -/
def State.slotClear (s : State) (a : Nat) : Bool :=
  sqSpace ≤ a && a < sqSpace + 0x4000000 && 0xA0000 ≤ a % 0x100000 && a % 0x100000 < 0xB0000 &&
    bit (a % 0x100000 / 0x8000 % 2) (Tab.look (fun _ => Square.init) s.sq ((a - sqSpace) / 0x100000)).clear

/-- The check state of the 64-bit word that holds an address. -/
def State.chkAt (s : State) (a : Nat) : Chk :=
  match Tab.look chkDefault s.chk (a / 8) with
  | .poison => if s.slotClear a then .valid else .poison
  | c => c

/-- The check state of a word given. -/
def State.setChk (s : State) (a : Nat) (c : Chk) : State := { s with chk := Tab.put chkDefault s.chk (a / 8) c }

/-- A word is uncorrectable for every reader when it is poisoned or uncorrectable (R427). -/
def Chk.bad (c : Chk) : Bool := c == .poison || c == .uncorr

/-- The capability tag of the granule that holds an address (R40). [DEDUCED, log entry 88] -/
def State.tagAt (s : State) (a : Nat) : Bool := Tab.look (fun _ => false) s.tags (a / 16)

/-- The capability tag of a granule given. -/
def State.setTag (s : State) (a : Nat) (t : Bool) : State := { s with tags := Tab.put (fun _ => false) s.tags (a / 16) t }

/-- A word poisoned: its data 0 and its tag clear (R427). -/
def State.poisonWord (s : State) (a : Nat) : State :=
  ((s.poke (a / 8 * 8) 8 0).setChk a .poison).setTag a false

/-- Words poisoned from an address on. -/
def State.poisonWords (s : State) (a n : Nat) : State := repeatN n (fun k s => s.poisonWord (a + 8 * k)) s

/-- The bytes of a 64-bit word that a mask selects, written. -/
def State.pokeMask (s : State) (w en v : Nat) : State :=
  repeatN 8 (fun k s => if bit k en then s.setByte (w + k) (BitVec.ofNat 8 (v >>> (8 * k))) else s) s

/-- The macro, row and word of an address (R436). -/
def macroOf (a : Nat) : Nat × Nat × Nat :=
  let loc (m off : Nat) : Nat × Nat × Nat := (m, off / 64, off % 64 / 8)
  if sqSpace ≤ a then
    let sq := (a - sqSpace) / 0x100000
    let o := (a - sqSpace) % 0x100000
    if 0xC0000 ≤ o then loc (1152 + 8 * sq + o / 8 % 8) ((o - 0xC0000) / 64 * 8)
    else if o % 0x10000 < 0x4000 then loc (9 * sq + o / 0x10000) (o % 0x10000)
    else loc (576 + 9 * sq + o / 0x10000) (o % 0x10000 - 0x4000)
  else if 0x100000000 ≤ a then loc (1748 + (a - 0x100000000) / 0x40000) ((a - 0x100000000) % 0x40000)
  else if 0x30000000 ≤ a then
    loc (1664 + 2 * ((a - 0x30000000) / 0x100000) + (a - 0x30000000) % 0x100000 / 0x40000) (a % 0x40000)
  else loc (1684 + (a - 0x20000000) / 0x40000) (a % 0x40000)

/-- A failed read in ec t of a word of a check state is counted in UECNT, recorded in ELOG while it is free, and sets UE (R435); for
every reader but the scrubber it raises a safety event of class 8 (R434). -/
def State.logUEAt (s : State) (t : Nat) (c : Chk) (a init : Nat) (event : Bool) : State :=
  let (m, row, word) := macroOf a
  let cls := if m < 576 then 0 else if m < 1152 then 1 else if m < 1664 then 2 else if m < 1684 then 3 else if m < 1748 then 4 else 5
  let s := (s.bump F.MEM_UECNT_COUNT F.MEM_UECNT_SAT 0).setFld F.MEM_STAT_UE 0 1
  let s := if s.flag F.MEM_ELOG_VALID 0 then s else
    ((s.setRegN .MEM_ELOG 0 (m + row * 2 ^ 11 + word * 2 ^ 23 + b2n (c == .poison) * 2 ^ 26 + init * 2 ^ 27 + 2 ^ 31)).setPair
      .MEM_ELOGL .MEM_ELOGH 0 t)
  if event then s.raiseEv 4 8 cls else s

/-- A failed read now of a word of a check state. -/
def State.logUEAs (s : State) (c : Chk) (a init : Nat) (event : Bool) : State := s.logUEAt s.now c a init event

/-- A failed read of a word as it stands. -/
def State.logUE (s : State) (a init : Nat) (event : Bool) : State := s.logUEAs (s.chkAt a) a init event

/-- A correctable word read is counted in CECNT and sets CE (R433). -/
def State.logCE (s : State) : State := (s.bump F.MEM_CECNT_COUNT F.MEM_CECNT_SAT 0).setFld F.MEM_STAT_CE 0 1

/-- Bytes of one aligned 64-bit word put under a mask, after the state of the word (R71, R432). A full word is valid; a
correctable word is corrected and counted; a poisoned word's other bytes become 0; an uncorrectable word stays so and is
logged, with no fault to the writer. Any write clears the granule's tag (R40). [DEDUCED, log entry 20] -/
def State.putMask (s : State) (w en v init : Nat) : State :=
  let s := if isSram w then s.setTag w false else s
  if !isSram w then s.pokeMask w en v
  else if en = 255 then (s.poke w 8 v).setChk w .valid
  else match s.chkAt w with
    | .valid => s.pokeMask w en v
    | .corr => (s.logCE.pokeMask w en v).setChk w .valid
    | .poison => ((s.poke w 8 0).pokeMask w en v).setChk w .valid
    | .uncorr => (s.logUE w init false).pokeMask w en v

/-! Accesses of one ec (R96, R98, R99, R295). -/

/-- How many ec a write is remembered: longer than any instruction, a repeated WALK included. [DESIGN CHOICE, log entry 109] -/
def histSpan : Nat := 8192

/-- Whether an address lies in a memory whose accesses of one ec R96, R98 or R295 order: the Lode, and the instruction, data and
shared memories of the squares. -/
def isTimed (a : Nat) : Bool :=
  (0x100000000 ≤ a && a < 0x104000000) ||
  (sqSpace ≤ a && a < sqSpace + 0x4000000 && ((a % 0x100000 < 0x90000 && a % 0x10000 < 0xC000) || 0xC0000 ≤ a % 0x100000))

/-- Whether a remembered write wrote a byte. -/
def MemWrite.covers (x : MemWrite) (a : Nat) : Bool := x.addr ≤ a && a < x.addr + 8 && bit (a - x.addr) x.en

/-- A byte as it stood before the remembered writes that a test holds of. -/
def State.byteWhen (s : State) (p : MemWrite → Bool) (a : Nat) : Byte :=
  s.hist.foldl (fun b x => if p x && x.covers a then BitVec.ofNat 8 (x.old >>> (8 * (a - x.addr))) else b) (s.byte a)

/-- The check state of the word that holds an address before the remembered writes that a test holds of. -/
def State.chkWhen (s : State) (p : MemWrite → Bool) (a : Nat) : Chk :=
  s.hist.foldl (fun c x => if p x && x.addr == a / 8 * 8 then x.chk else c) (s.chkAt a)

/-- The tag of the granule that holds an address before the remembered writes that a test holds of. -/
def State.tagWhen (s : State) (p : MemWrite → Bool) (a : Nat) : Bool :=
  s.hist.foldl (fun t x => if p x && x.addr / 16 == a / 16 then x.tag else t) (s.tagAt a)

/-- The test of a read in ec u: the writes of that ec and later ones (R96, R98). -/
def MemWrite.from_ (u : Nat) (x : MemWrite) : Bool := u ≤ x.at_

/-- The test of a supervisor-port read now at an address: the writes of this ec by engines, window stores among them (R96, R111).
[DESIGN CHOICE, log entry 109] -/
def MemWrite.now_ (now a : Nat) (x : MemWrite) : Bool := isTimed a && (x.eng.isSome || x.win) && now ≤ x.at_

/-- The bytes of an aligned word that a supervisor-port write in ec u may write: those that no engine writes in that ec (R96). -/
def State.portMask (s : State) (u w en : Nat) : Nat :=
  if isTimed w then s.hist.foldl (fun m x => if x.eng.isSome && x.at_ == u && x.addr == w then m - (m &&& x.en) else m) en else en

/-- A word's write in ec u remembered, with the engine whose store buffer it is of, or as a window store: t is the state that holds it. -/
def State.remember (s t : State) (u : Nat) (eng : Option Nat) (win : Bool) (w en : Nat) : State :=
  if isTimed w then
    { t with hist := ⟨u, eng, win, w, en, t.peek w 8, s.peek w 8, s.chkAt w, s.tagAt w⟩ :: t.hist.filter (fun x => u ≤ x.at_ + histSpan) }
  else t

/-- A byte as the entries of a store buffer leave it, oldest first (R69). -/
def bufByte (l : List SbEntry) (a : Nat) (b : Byte) : Byte :=
  l.foldl (fun b x =>
    if x.addr ≤ a && a < x.addr + 8 && bit (a - x.addr) x.en then BitVec.ofNat 8 (x.data >>> (8 * (a - x.addr))) else b) b

/-- The form in which an engine's instruction memory, at a physical address, holds an instruction word now (R72). -/
def State.formAt (s : State) (g : Eng) (im idx left : Nat) : OldForm :=
  ⟨idx, ofLeBytes ((List.range 4).map (fun j => bufByte g.local_ (4 * idx + j) (s.byte (im + 4 * idx + j)))), s.chkAt (im + 4 * idx), left⟩

/-- A write in ec u by another agent of a word of instruction memory leaves an engine that runs from it the words that its fetch stage
holds: that of the instruction under way and of the next two (R87, R88). [DEDUCED, log entry 110] -/
def State.holdFetch (s : State) (u w en : Nat) : State :=
  let o := (w - sqSpace) % 0x100000
  if sqSpace ≤ w && w < sqSpace + 0x4000000 && o < 0x90000 && o % 0x10000 < 0x4000 then
    repeatN 8 (fun k s =>
      let e := 8 * ((w - sqSpace) / 0x100000) + k
      let g := s.engine e
      if (g.running || g.woken) && s.physOf e == o / 0x10000 then
        let left := if g.running && g.start + g.used ≤ u then 3 else 2
        let words := (List.range 2).filter (fun i => en / 16 ^ i % 16 != 0)
        s.setEng e { g with old := g.old ++ words.map (fun i => s.formAt g (w - o % 0x10000) (o % 0x10000 / 4 + i) left) }
      else s) s
  else s

/-- A written word without its reserved bits: bits [61:54] of a route-table entry read 0 (R5, R103). -/
def routeBits (w v : Nat) : Nat :=
  if sqSpace ≤ w && w < sqSpace + 0x4000000 && 0xB0000 ≤ w % 0x100000 && w % 0x100000 < 0xB8000 then v &&& 0xC03FFFFFFFFFFFFF else v

/-- Whether the check columns of data bits 0 and 1 are one of the 8 complementary pairs of R426. -/
def pair01 : Bool := Config.checkColumn 0 ^^^ Config.checkColumn 1 == 0xFF

/-- The word that a supervisor-port write has just stored takes an armed injection (R442). Data bits 0 and 1 inverted in a word that
holds just those bits read as poison where their columns are complements, else as uncorrectable (R426, R427).
[DESIGN CHOICE, log entry 47] -/
def State.inject (s : State) (a : Nat) : State :=
  if !isSram a || !s.flag F.MEM_INJ_ARM 0 || (macroOf a).1 != s.fld F.MEM_INJ_MACRO 0 then s
  else
    let mode := s.fld F.MEM_INJ_MODE 0
    let s := s.setFld F.MEM_INJ_ARM 0 0
    if s.chkAt a != .valid then s
    else if mode = 1 then s.setChk a .corr
    else if mode = 2 then s.setChk a (if s.peek (a / 8 * 8) 8 = 3 && pair01 then .poison else .uncorr)
    else s

/-- Bytes of one aligned 64-bit word written in ec u: by the store buffer of an engine, or through a supervisor port, which an engine
write of the same ec prevails over (R96) and which an armed injection may strike (R442). `win` marks a window store (R111). -/
def State.writeMaskAt (s : State) (u : Nat) (eng : Option Nat) (win : Bool) (w en v init : Nat) : State :=
  let m := if eng.isSome then en else s.portMask u w en
  if m = 0 then s
  else
    let t := match eng with
      | some _ => s.putMask w m (routeBits w v) init
      | none => ((s.holdFetch u w m).putMask w m (routeBits w v) init).inject w
    s.remember t u eng win w m

/-- Bytes of one aligned 64-bit word written now through a supervisor port. -/
def State.writeMask (s : State) (w en v init : Nat) : State := s.writeMaskAt s.now none false w en v init

/-- n bytes written in ec u at an address, n a power of two up to 8 and the address a multiple of n. -/
def State.writeMemAt (s : State) (u : Nat) (win : Bool) (a n v init : Nat) : State :=
  s.writeMaskAt u none win (a / 8 * 8) ((2 ^ n - 1) <<< (a % 8)) (v <<< (8 * (a % 8))) init

/-- n bytes written now at an address. -/
def State.writeMem (s : State) (a n v init : Nat) : State := s.writeMemAt s.now false a n v init

/-- The word that holds an address poisoned now through a supervisor port (R427): a byte that an engine writes in this ec stays, in a
word with good check bits (R96, R432), and a fetch stage keeps the words that it holds (R87). -/
def State.portPoison (s : State) (a : Nat) : State :=
  let w := a / 8 * 8
  let m := s.portMask s.now w 255
  let t := s.holdFetch s.now w 255
  let t := if m = 255 then t.poisonWord w else (t.pokeMask w m 0).setChk w .valid
  s.remember t s.now none false w m

/-- What a check state of the word that holds an address makes of a read in ec t by an initiator of R444: whether it fails, and the
state that has logged it (R433 to R435). -/
def State.checkAt (s : State) (t : Nat) (c : Chk) (a init : Nat) : Bool × State :=
  if !isSram a then (false, s)
  else match c with
    | .valid => (false, s)
    | .corr => (false, s.logCE)
    | _ => (true, s.logUEAt t c a init true)

/-- The same for a read now. -/
def State.checkAs (s : State) (c : Chk) (a init : Nat) : Bool × State := s.checkAt s.now c a init

/-- A read now of the word that holds an address. -/
def State.checkRead (s : State) (a init : Nat) : Bool × State := s.checkAs (s.chkAt a) a init

/-- The checks of the words that hold n bytes at an address, as a supervisor-port read now finds them (R96, R434). -/
def State.portCheck (s : State) (a init : Nat) : Nat → Bool × State
  | 0 => (false, s)
  | m + 1 =>
    let (bad, t) := s.checkAs (s.chkWhen (MemWrite.now_ s.now a) a) a init
    let (rest, u) := State.portCheck t (a + 8) init m
    (bad || rest, u)

/-- A read through a supervisor port now of n bytes at an address: whether the check of a word fails, the value and the state that has
logged it; an engine write of this ec is not seen (R96). -/
def State.portRead (s : State) (a n init : Nat) : Bool × Nat × State :=
  let p := MemWrite.now_ s.now a
  let (bad, t) := s.portCheck a init ((n + 7) / 8)
  (bad, ofLeBytes ((List.range n).map (fun k => s.byteWhen p (a + k))), t)

/-! Squares and engines (R6, R7). -/

/-- A physical engine, by its square and number. -/
def State.physEng (s : State) (sq n : Nat) : Phys := Tab.look (fun _ => Phys.init) s.phys (9 * sq + n)

/-- A physical engine given a state. -/
def State.setPhys (s : State) (sq n : Nat) (p : Phys) : State :=
  { s with phys := Tab.put (fun _ => Phys.init) s.phys (9 * sq + n) p }

/-- A square. -/
def State.square (s : State) (sq : Nat) : Square := Tab.look (fun _ => Square.init) s.sq sq

/-- A square given a state. -/
def State.setSquare (s : State) (sq : Nat) (q : Square) : State := { s with sq := Tab.put (fun _ => Square.init) s.sq sq q }

/-- The state code of a physical engine (R407). -/
def State.pstate (s : State) (sq n : Nat) : Nat := bits (3 * n + 2) (3 * n) (s.regN .SQ_PSTATE sq)

/-- A physical engine's state code given; its TESTED bit clears (R415). -/
def State.setPstate (s : State) (sq n code : Nat) : State :=
  let s := s.setRegN .SQ_PSTATE sq (setBits (3 * n) 3 code (s.regN .SQ_PSTATE sq))
  s.setRegN .SQ_TESTED sq (setBits n 1 0 (s.regN .SQ_TESTED sq))

/-- SQEPOCH of a square (R127). -/
def State.sqEpoch (s : State) (sq : Nat) : Nat := s.fld F.SQ_EPOCH_SQEPOCH sq

/-- The epoch of the slot of a physical engine, which an effect of its engine carries (R83, R394). -/
def State.slotEpoch (s : State) (sq n : Nat) : Nat := (s.physEng sq n).epoch

/-- The active bank (R142). -/
def State.bank (s : State) : Nat := s.fld F.SCH_STATUS_ACTIVE 0

/-- Whether a bank is active (R142). -/
def State.bankOn (s : State) : Bool := s.flag F.SCH_STATUS_RUNNING 0

/-- The stamp of a bank for a square (R127). -/
def State.planEpoch (s : State) (b sq : Nat) : Nat :=
  if b = 0 then s.fld F.SQ_PLANEPOCH_EPOCHA sq else s.fld F.SQ_PLANEPOCH_EPOCHB sq

/-- The plan generation of a bank (R142). -/
def State.bankGen (s : State) (b : Nat) : Nat := if b = 0 then s.regN .SCH_GENA 0 else s.regN .SCH_GENB 0

/-- The frame length of a bank in slots (R112, R142). -/
def State.frameLen (s : State) (b : Nat) : Nat :=
  (if b = 0 then s.fld F.SCH_BANKA_LENM 0 else s.fld F.SCH_BANKB_LENM 0) + 1

/-- An epoch mismatch is counted in FENCED of the issuing square (R83, R108). -/
def State.fence (s : State) (sq : Nat) : State := s.bump F.SQ_FENCED_COUNT F.SQ_FENCED_SAT sq

/-- Whether a square is STALE (R129). -/
def State.stale (s : State) (sq : Nat) : Bool :=
  (s.bankOn && s.sqEpoch sq != s.planEpoch s.bank sq) || (s.square sq).lost ||
    ((s.square sq).warm && s.bankOn && (s.square sq).gen != s.bankGen s.bank)

/-- Whether a square is in SAFE HOLD (R405). -/
def State.sqHold (s : State) (sq : Nat) : Bool := s.flag F.SQ_SLOTSTAT_HOLD sq

/-! Capabilities (R381, R382). -/

/-- BASE. -/
def Cap.base (c : Cap) : Nat := bits 39 0 c.val.toNat
/-- LENGTH. -/
def Cap.len (c : Cap) : Nat := bits 79 40 c.val.toNat
/-- PERMS. -/
def Cap.perms (c : Cap) : Nat := bits 87 80 c.val.toNat
/-- OTYPE. -/
def Cap.otype (c : Cap) : Nat := bits 91 88 c.val.toNat
/-- DOMAIN. -/
def Cap.domain (c : Cap) : Nat := bits 97 92 c.val.toNat
/-- EPK. -/
def Cap.epk (c : Cap) : Bool := bit 98 c.val.toNat
/-- SQUARE. -/
def Cap.square (c : Cap) : Nat := bits 104 99 c.val.toNat
/-- EPOCH. -/
def Cap.epoch (c : Cap) : Nat := bits 120 105 c.val.toNat
/-- Whether a permission bit is set: 0 R, 1 W, 2 EW, 3 SG, 4 LC, 5 SC, 6 FC. -/
def Cap.may (c : Cap) (k : Nat) : Bool := bit k c.perms
/-- A capability with a field replaced. -/
def Cap.withBits (c : Cap) (lo w v : Nat) : Cap := { c with val := BitVec.ofNat 128 (setBits lo w v c.val.toNat) }

/-- How many instances an object type has; a MEM capability reaches the 40-bit map (R10, R381, R579). -/
def otypeCount : Nat → Nat
  | 1 => 2 ^ 40
  | 2 => 192
  | 3 => 64
  | 4 => 192
  | 5 => 64
  | 6 => 24
  | 7 => 4096
  | 8 => 1024
  | 9 => 2
  | _ => 0

/-- Whether a capability has a reserved object type or a reserved bit at 1 (R382, R383). -/
def Cap.reserved (c : Cap) : Bool :=
  c.otype == 0 || 9 < c.otype || bit 87 c.val.toNat || bits 127 121 c.val.toNat != 0

/-- Whether a capability may be used: tagged, its epoch matching, its range within its type, and of length 1 where its type
names exactly one instance (R382). -/
def State.capUsable (s : State) (c : Cap) : Bool :=
  c.tag && (!c.epk || c.epoch == s.sqEpoch c.square) && c.base + c.len ≤ otypeCount c.otype &&
    (c.otype < 7 || c.len == 1)

/-- Whether a tagged capability names an instance of a type. -/
def Cap.names (c : Cap) (ot i : Nat) : Bool :=
  c.tag && c.otype == ot && c.base ≤ i && i < c.base + c.len && (ot < 7 || c.len == 1)

/-- Where a bank's capability set of a logical engine lies (R581). -/
def capsAddr (b e k : Nat) : Nat := sqBase (e / 8) + 0xB8000 + b * 0x400 + e % 8 * 0x80 + 16 * k

/-- Where a bank's tag word of a square lies (R581). -/
def tagWordAddr (b sq : Nat) : Nat := sqBase sq + 0xB8800 + 8 * b

/-- capk of a logical engine's capability set in a bank (R381, R581). -/
def State.bankCap (s : State) (b e k : Nat) : Cap :=
  ⟨bit (8 * (e % 8) + k) (s.peek (tagWordAddr b (e / 8)) 8), BitVec.ofNat 128 (s.peek (capsAddr b e k) 16)⟩

/-- Whether a bank names an instance of a type by a capability (R12, R13); an event channel only by one of its own domain (R325). -/
def State.bankNames (s : State) (b ot i : Nat) : Bool :=
  (List.range 64).any (fun sq =>
    s.peek (tagWordAddr b sq) 8 != 0 &&
      (List.range 64).any (fun j =>
        let c := s.bankCap b (8 * sq + j / 8) (j % 8)
        c.names ot i && (ot != 8 || c.domain == s.fld F.EVC_CTL_DOM i)))

/-- Whether the plan owns an instance of a type: in RUN and RUN DEGRADED, what the running bank names (R12). -/
def State.planOwns (s : State) (ot i : Nat) : Bool := s.inRun && s.bankOn && s.bankNames s.bank ot i

/-- Whether an agent is the owner of a resource, given whether the plan owns it (R11, R12, R14). A lane engine acts for the
plan; every other agent reaches what the supervisor owns. [DESIGN CHOICE, log entry 19 and DEDUCED, log entry 80] -/
def Agent.owner (a : Agent) (plan : Bool) : Bool :=
  match a with
  | .lane _ => plan
  | _ => !plan

/-! CRC-32 (R372, R397). -/

/-- One bit of the reflected CRC-32. -/
def crcBit (c : BitVec 32) : BitVec 32 := if c.getLsbD 0 then (c >>> 1) ^^^ 0xEDB88320#32 else c >>> 1

/-- One byte of the reflected CRC-32 without inversion. -/
def crcByte (c : BitVec 32) (b : Byte) : BitVec 32 :=
  repeatN 8 (fun _ c => crcBit c) (c ^^^ b.setWidth 32)

/-- The reflected CRC-32 over bytes. -/
def crcBytes (c : BitVec 32) (l : List Byte) : BitVec 32 := l.foldl crcByte c

end Sys2Proof.Machine
end

