-- ==== Sys2Proof/Machine/Event.lean ====
section
/-! DEFINITION. The event fabric (R312 to R330): what presents an event to a channel, what a channel does with it, lineage,
loops, collisions, and the registers whose writes the fabric judges. -/

namespace Sys2Proof.Machine

/-- Something other blocks take at the end of the command. -/
def State.note (s : State) (x : Note) : State := { s with notes := s.notes ++ [x] }

/-- Whether a source number is listed (R314); 0 selects no source. -/
def srcListed (n : Nat) : Bool :=
  n == 0 || (1 ≤ n && n ≤ 8) || (0x100 ≤ n && n < 0x400 && n % 4 != 3) || (0x400 ≤ n && n < 0x680) ||
    (0x680 ≤ n && n < 0x780 && n % 4 != 3) || (0x780 ≤ n && n < 0x840 && n % 8 < 6) || (0x840 ≤ n && n < 0x9E2)

/-- The clock domain of a source (R314): 0 engine, 1 link, 2 supervisor. -/
def srcClk (n : Nat) : Nat :=
  if (0x680 ≤ n && n < 0x840) || (0x8C0 ≤ n && n < 0x9C0) then 1 else if 0x9C0 ≤ n && n < 0x9E0 then 2 else 0

/-- What an untouched channel keeps of group actions. -/
def ChanAct.init : ChanAct := ⟨0, false, 0⟩

/-- What a channel keeps of group actions. -/
def State.chanActOf (s : State) (k : Nat) : ChanAct := Tab.look (fun _ => ChanAct.init) s.chanAct k

/-- EN of a channel as an event presented in ec t sees it: a group action in t acts from t + 1 on (R322). -/
def State.chanEn (s : State) (k t : Nat) : Bool :=
  let a := s.chanActOf k
  if a.act = t + 1 then a.old else s.flag F.EVC_CTL_EN k

/-- A channel carries an event: FLAG, AGAIN, and the lineage of the event (R323). A carried event that replaces another of its
ec leaves AGAIN as it was. -/
def State.carry (s : State) (f : Flight) (again : Bool) : State :=
  let k := f.chan
  let f := { f with was := s.reg .EVC_STAT k }
  let s := if again && s.flag F.EVC_STAT_FLAG k then s.setFld F.EVC_STAT_AGAIN k 1 else s
  let s := ((s.setFld F.EVC_STAT_FLAG k 1).setFld F.EVC_STAT_ORIG k f.lin.orig).setFld F.EVC_STAT_HOP k f.lin.hop
  { s with flights := s.flights ++ [f] }

/-- An event dropped against another of its ec (R318). -/
def State.collide (s : State) (k : Nat) : State :=
  ((s.setFld F.EVC_STAT_COLL k 1).bump F.EVF_COLLCNT_COUNT F.EVF_COLLCNT_SAT 0).raiseEv 0 7 0

/-- A caused event dropped by the loop or hop check (R321). -/
def State.loopDrop (s : State) (k : Nat) (stat : Fld) : State :=
  ((s.setFld stat k 1).bump F.EVF_DROPCNT_COUNT F.EVF_DROPCNT_SAT 0).raiseEv 0 7 0

/-- An event kept from a channel is kept in mind for its ec: the event that kept it out may be taken back (R165, R247). -/
def State.beat (s : State) (f : Flight) : State := { s with beaten := s.beaten.filter (fun x => x.at_ == f.at_) ++ [f] }

/-- An event presented to channel k in ec t, with the lineage of its cause if it has one: the loop and hop check (R321), EN
(R313), then the collision rule (R318). -/
def State.present (s : State) (k t clk dom rank : Nat) (cause : Option Lineage) : State :=
  match cause with
  | some c =>
    if c.orig = k then
      let s := s.loopDrop k F.EVC_STAT_LOOP
      if c.hop = 7 then s.setFld F.EVC_STAT_HOPS k 1 else s
    else if c.hop = 7 then s.loopDrop k F.EVC_STAT_HOPS
    else go ⟨c.orig, c.hop + 1⟩
  | none => go ⟨k, 0⟩
where
  /-- The event with its own lineage. -/
  go (lin : Lineage) : State :=
    let f : Flight := ⟨k, t, clk, dom, lin, rank, false, s.reg .EVC_STAT k⟩
    if !s.chanEn k t then (if rank = 0 then s.beat { f with near := true } else s).setFld F.EVC_STAT_DIS k 1
    else
      match s.flights.find? (fun x => x.chan == k && x.at_ == t) with
      | none => s.carry f true
      | some x =>
        let s := s.collide k
        if rank < x.rank then
          { (if rank = 0 then s.beat x else s) with flights := s.flights.filter (fun y => y.chan != k || y.at_ != t) }.carry f false
        else if x.rank = 0 then s.beat { f with was := x.was } else s

/-- A source issues an event in ec t: each channel that names it carries a copy (R314). A source whose power domain is off
raises none. -/
def State.emit (s : State) (src t dom : Nat) (cause : Option Lineage) : State :=
  if !s.alive dom then s
  else repeatN 1024 (fun k s =>
    if s.fld F.EVC_CTL_SRC k = src then s.present k t (srcClk src) dom 0 cause else s) s

/-- A source's event taken back from its channel: STAT is as before it, and the events of its ec that it kept out are presented again
(R318). A safety event of their drop stands. [DESIGN CHOICE, log entry 14] -/
def State.unpresent (s : State) (f : Flight) : State :=
  let l := s.beaten.filter (fun g => g.chan == f.chan && g.at_ == f.at_ && !g.near)
  let s := { s with flights := s.flights.filter (fun y => y.chan != f.chan || y.at_ != f.at_), beaten := s.beaten.filter (fun g => !l.contains g) }
  let s := s.setReg .EVC_STAT f.chan ((l.head?.map (·.was)).getD f.was)
  let s := if s.flag F.EVF_COLLCNT_SAT 0 then s else s.setFld F.EVF_COLLCNT_COUNT 0 (s.fld F.EVF_COLLCNT_COUNT 0 - l.length)
  l.foldl (fun s g => present.go s g.chan g.at_ g.clk g.dom g.rank g.lin) s

/-- An event that a source issued in ec t taken back: what another happening of that ec undoes (R165, R247). -/
def State.retract (s : State) (src t : Nat) : State :=
  let gone (f : Flight) : Bool := f.at_ == t && f.rank == 0 && s.fld F.EVC_CTL_SRC f.chan == src
  let s' := (s.flights.filter gone).foldl (fun s f => s.unpresent f) s
  (s.beaten.filter (fun g => gone g && g.near)).foldl (fun s g => s.setFld F.EVC_STAT_DIS g.chan (bits 5 5 g.was.toNat)) s'

/-- SIG of a logical engine on channel k in ec t, in the epoch of the slot that issues it: a stale one is fenced and takes no
part in collisions (R78, R319); one that a match releases prevails over one of the engine's new task (R400). -/
def State.presentSig (s : State) (e phys k t : Nat) (rel : Bool) : State :=
  let sq := e / 8
  if s.slotEpoch sq phys != s.sqEpoch sq then s.fence sq
  else s.present k t 0 (sqDom sq) (2 * e + (if rel then 1 else 2)) none

/-- A reset of a power domain discards the events in flight from its sources (R326). -/
def State.dropFlights (s : State) (dom : Nat) : State :=
  { s with flights := s.flights.filter (fun f => f.dom != dom) }

/-! Group actions (R322). -/

/-- The channels of group g that an action may change when channel k drives it: those of MASK with k's owner and, where k is not
secure, those not secure. -/
def State.groupReach (s : State) (g k : Nat) : List Nat :=
  (List.range 16).filterMap (fun i =>
    let c := 16 * g + i
    if bit i (s.fld F.EVG_CTL_MASK g) && s.planOwns 8 c == s.planOwns 8 k &&
        (s.flag F.EVC_CTL_SEC k || !s.flag F.EVC_CTL_SEC c) then some c else none)

/-- EN of a channel changed by a group action that is reached in ec t; a disable in that ec prevails. -/
def State.groupSet (s : State) (t : Nat) (en : Bool) (c : Nat) : State :=
  let a := s.chanActOf c
  if en && a.dis == t + 1 then s
  else
    let old := if a.act = t + 1 then a.old else s.flag F.EVC_CTL_EN c
    let a' : ChanAct := ⟨t + 1, old, if en then a.dis else t + 1⟩
    { s.setFld F.EVC_CTL_EN c (b2n en) with chanAct := Tab.put (fun _ => ChanAct.init) s.chanAct c a' }

/-- A group action reached by channel k in ec t. -/
def State.groupAction (s : State) (t g k : Nat) (en : Bool) : State :=
  (s.groupReach g k).foldl (fun s c => s.groupSet t en c) s

/-! Consumers (R315, R316). -/

/-- Whether consumer entry i listens to channel k. -/
def State.consumes (s : State) (i k : Nat) : Bool := s.flag F.EVF_CDATA_EN i && s.fld F.EVF_CDATA_CHAN i == k

/-- The clock domain of consumer entry i (R315). -/
def consumerClk (i : Nat) : Nat := if i < 64 then 0 else if i < 88 then 1 else if i < 120 then 2 else 0

/-- Whether the plan owns the consumer of entry i (R324): a converter or position interface it names. -/
def State.consumerOwned (s : State) (i : Nat) : Bool :=
  if i < 64 then s.planOwns 3 i else if i < 88 then s.planOwns 6 (i - 64) else false

/-- The next ec in which an event in flight reaches consumers. -/
def Flight.due (f : Flight) : Nat := if f.near then f.at_ + 3 else f.at_ + 2

/-- The earliest ec in which any event in flight reaches consumers. -/
def State.nextDelivery (s : State) : Option Nat :=
  s.flights.foldl (fun (m : Option Nat) f => match m with
    | none => some f.due
    | some t => some (min t f.due)) none

/-! Register writes that the fabric judges (R314, R324, R325, R328). -/

/-- A write of EVC[k].CTL: a reserved SRC leaves CTL and sets WERR. -/
def State.writeEvcCtl (s : State) (k v : Nat) : State :=
  if !srcListed (bits 23 12 v) then s.setFld F.EVC_STAT_WERR k 1
  else
    { s.setRegN .EVC_CTL k (setBits 9 3 0 v % 2 ^ 24) with
      chanAct := Tab.put (fun _ => ChanAct.init) s.chanAct k ChanAct.init }

/-- A write of CDATA for entry i: discarded with WERR while the plan owns the consumer, the held channel or the written one;
entries 248 to 255 ignore writes. -/
def State.writeCdata (s : State) (i v : Nat) : State :=
  if 248 ≤ i then s
  else if s.consumerOwned i || s.planOwns 8 (s.fld F.EVF_CDATA_CHAN i) || s.planOwns 8 (bits 9 0 v) then
    s.setFld F.EVF_STAT_WERR 0 1
  else s.setRegN .EVF_CDATA i (v % 2 ^ 11)

/-- EVG[g].FLAGS as it reads (R323). -/
def State.groupFlags (s : State) (g : Nat) : Nat :=
  (List.range 16).foldl (fun n i => n + b2n (s.flag F.EVC_STAT_FLAG (16 * g + i)) * 2 ^ i) 0

/-- A write of EVG[g].FLAGS clears the flags it names (R323). -/
def State.writeGroupFlags (s : State) (g v : Nat) : State :=
  repeatN 16 (fun i s => if bit i v then s.setFld F.EVC_STAT_FLAG (16 * g + i) 0 else s) s

end Sys2Proof.Machine
end

