-- ==== Sys2Proof/Machine/Ep.lean ====
section
/-! DEFINITION. Edge pairs (R159 to R193): steering, writes and their deadlines, the carrier, dead time, the edge timetable, trips,
terminations, the on-time limit and readback. Instants are in fine steps: 128 × tick + fine. -/

namespace Sys2Proof.Machine

/-- An edge pair. -/
def State.ep (s : State) (n : Nat) : Pair := Tab.look (fun _ => Pair.init) s.eps n
/-- An edge pair given a state. -/
def State.setEp (s : State) (n : Nat) (p : Pair) : State := { s with eps := Tab.put (fun _ => Pair.init) s.eps n p }
/-- An edge pair changed. -/
def State.modEp (s : State) (n : Nat) (f : Pair → Pair) : State := s.setEp n (f (s.ep n))
/-- One output of a pair: A, or B. -/
def Pair.outp (p : Pair) (b : Bool) : Outp := if b then p.b else p.a
/-- One output of a pair given a state. -/
def Pair.setOutp (p : Pair) (b : Bool) (o : Outp) : Pair := if b then { p with b := o } else { p with a := o }

/-! Steering (R160, R184 to R186). -/

/-- The reserve steered to logical pair n, once the balls have passed to it. -/
def State.epSteered (s : State) (g m : Nat) : Bool :=
  s.flag F.EP_STEER_ACTIVE g && !s.flag F.EP_STEER_BUSY g && s.fld F.EP_STEER_MEMBER g == m

/-- The physical pair that serves a logical pair (R160). [DEDUCED, log entry 106] -/
def State.epPhys (s : State) (n : Nat) : Nat := if s.epSteered (n / 16) (n % 16) then 192 + n / 16 else n

/-- The logical pair a physical pair serves, if any (R160). -/
def State.epLogical (s : State) (p : Nat) : Option Nat :=
  if p < 192 then (if s.epPhys p = p then some p else none)
  else
    let g := p - 192
    let m := s.fld F.EP_STEER_MEMBER g
    if s.epSteered g m then some (16 * g + m) else none

/-- The link that is UP and carries a logical pair, if any (R342). -/
def State.epLink (s : State) (n : Nat) : Option Nat :=
  (List.range 64).find? (fun d => s.flag F.DLK_CTL_BIND d && s.fld F.DLK_CTL_PAIR d == n && s.fld F.DLK_STAT_STATE d == 3)

/-- How far ahead of a load point a write must fall: 8 qt, or LEAD where an UP link carries the pair (R171, R343). -/
def State.epLead (s : State) (p : Nat) : Nat :=
  match (s.epLogical p).bind s.epLink with
  | some d => s.fld F.DLK_CABLE_LEAD d
  | none => 8

/-- The earliest instant that a write of ec t can place (R166, R175, R343). -/
def State.epEarliest (s : State) (p t : Nat) : Nat :=
  match (s.epLogical p).bind s.epLink with
  | some d => (t + s.fld F.DLK_CABLE_LEAD d) * 128
  | none => (t + 7) * 128 + 32

/-! Whether the balls are driven (R181). -/

/-- Whether a steering under way holds the balls of logical pair n in their safe state (R185). -/
def State.epTaking (s : State) (n : Nat) : Bool :=
  s.flag F.EP_STEER_ACTIVE (n / 16) && s.flag F.EP_STEER_BUSY (n / 16) && s.fld F.EP_STEER_MEMBER (n / 16) == n % 16

/-- Whether a pair drives its balls (R181, R185). -/
def State.epDrives (s : State) (p : Nat) : Bool :=
  match s.epLogical p with
  | none => false
  | some n =>
    s.flag F.EP_CTL_ENABLE p && s.alive 16 &&
      (s.inRun || ((s.mode == 5 || s.mode == 9) && s.window == some n)) &&
      !s.flag F.EP_STAT_TRIPPED p && !s.flag F.EP_STAT_RBFAULT p && (s.ep p).holdBy.isNone && !s.epTaking n

/-- The level of a ball: none for high impedance, else whether it is high (R160, R181). -/
def State.epBall (s : State) (n : Nat) (b : Bool) : Option Bool :=
  let p := s.epPhys n
  if s.epDrives p then some (((s.ep p).outp b).out != s.flag (if b then F.EP_CTL_POLB else F.EP_CTL_POLA) p)
  else match s.fld (if b then F.EP_CTL_SAFEB else F.EP_CTL_SAFEA) p with
    | 0 => some false
    | 1 => some true
    | _ => none

/-- The balls of a pair enter or leave the safe state, which is a commanded change (R181, R183, R345). [DEDUCED, log entry 119] -/
def State.epRefresh (s : State) (p : Nat) : State :=
  let d := s.epDrives p
  if (s.ep p).driven == d then s
  else
    let s := s.modEp p (fun x => { x with driven := d, cmd := 128 * s.now })
    match s.epLogical p with
    | some n => s.note (if d then .driven n (128 * s.now) else .safe n (128 * s.now))
    | none => s

/-- Every pair's balls follow R181. -/
def State.epRefreshAll (s : State) : State := (s.eps.map (·.1)).foldl (fun s p => s.epRefresh p) s

/-! Outputs (R169, R172 to R174). -/

/-- Whether a pair's outputs stay inactive whatever S does: tripped, faulted, or waiting after a release (R177, R178, R183). -/
def State.epHeld (s : State) (p : Nat) : Bool :=
  s.flag F.EP_STAT_TRIPPED p || s.flag F.EP_STAT_RBFAULT p || (s.ep p).wait || (s.ep p).holdBy.isSome

/-- An output takes a commanded level at an instant (R176, R180): a commanded change of its ball while the pair drives it (R183).
[DESIGN CHOICE, log entry 130] -/
def State.epSetOut (s : State) (p : Nat) (b lvl : Bool) (at_ : Nat) : State :=
  let x := s.ep p
  let o := x.outp b
  if s.epHeld p || (o.out == lvl && !o.maxed) then s
  else
    let o' := { o with out := lvl, on := if lvl then at_ else o.on, maxed := if lvl then false else o.maxed }
    let d := s.epDrives p
    let s := s.setEp p { x.setOutp b o' with cmd := if d then at_ else x.cmd }
    if o.out == lvl then s
    else match s.epLogical p with
      | some n => if d then s.note (.edge n ((if b then 2 else 0) + (if lvl then 0 else 1)) at_) else s
      | none => s

/-- The dead times in use for an edge of S, rising and falling: in carrier mode those taken at the period start, in timetable mode the
registers, as they were before a write for an edge that lies no later than its ec (R173). -/
def State.epDead (s : State) (p at_ : Nat) : Nat × Nat :=
  if s.flag F.EP_CTL_TT p && decide ((s.ep p).dtAt ≤ at_ / 128) then (s.fld F.EP_DTRISE_DT p, s.fld F.EP_DTFALL_DT p)
  else ((s.ep p).rise, (s.ep p).fall)

/-- The dead times of timetable mode kept for the edges up to the ec of a write (R173). -/
def State.epHoldDead (s : State) (p t : Nat) : State :=
  if (s.ep p).dtAt = t + 1 then s
  else s.modEp p (fun x => { x with rise := s.fld F.EP_DTRISE_DT p, fall := s.fld F.EP_DTFALL_DT p, dtAt := t + 1 })

/-- The on-time limit kept to the end of the ec of a write of MAXON (R180). -/
def State.epHoldMax (s : State) (p t : Nat) : State :=
  if (s.ep p).maxAt = t + 1 then s else s.modEp p (fun x => { x with maxAt := t + 1, maxWas := s.regN .EP_MAXON p })

/-- A dead time begun for an output; a dead time of 0 ends at once (R173). -/
def State.epStartDead (s : State) (p : Nat) (b : Bool) (at_ len : Nat) : State :=
  if s.epHeld p then s
  else if len = 0 then s.epSetOut p b true at_
  else s.modEp p (fun x => x.setOutp b { x.outp b with dt := some (at_ + len) })

/-- A dead time under way cut short suppresses its pulse (R174). -/
def State.epCutDead (s : State) (p : Nat) (b : Bool) : State :=
  if ((s.ep p).outp b).dt.isSome then
    (s.modEp p (fun x => x.setOutp b { x.outp b with dt := none })).setFld F.EP_STAT_SHORT p 1
  else s

/-- The outputs follow reference S of output A, or of output B where the outputs are independent (R172, R173). -/
def State.epFollow (s : State) (p : Nat) (b lvl : Bool) (at_ : Nat) : State :=
  if s.flag F.EP_CTL_COMPL p then
    if b then s
    else
      let (rise, fall) := s.epDead p at_
      if lvl then ((s.epCutDead p true).epSetOut p true false at_).epStartDead p false at_ rise
      else ((s.epCutDead p false).epSetOut p false false at_).epStartDead p true at_ fall
  else s.epSetOut p b lvl at_

/-- The reference of an output changes (R169). -/
def State.epRef (s : State) (p : Nat) (b lvl : Bool) (at_ : Nat) : State :=
  let o := (s.ep p).outp b
  if o.ref == lvl then s
  else (s.modEp p (fun x => x.setOutp b { x.outp b with ref := lvl })).epFollow p b lvl at_

/-- The outputs follow their references from rest: at a carrier start, or at the period start after a release (R166, R178). -/
def State.epFromRest (s : State) (p : Nat) (a b : Bool) (at_ : Nat) : State :=
  let s := s.modEp p (fun x => { x with wait := false, a := { x.a with ref := a, out := false, dt := none }, b := { x.b with ref := b, out := false, dt := none } })
  (s.epFollow p false a at_).epFollow p true b at_

/-! The carrier (R166 to R170). -/

/-- The compare position of a duty for a period, in fine steps (R169). -/
def compareAt (duty p : Nat) : Nat := ((if 2 ^ 31 ≤ duty then 0 else duty) * p * 128 + 2 ^ 30) / 2 ^ 31

/-- The length of a period in fine steps (R168). -/
def State.epLen (s : State) (p per : Nat) : Nat := (if s.flag F.EP_CTL_UPDN p then 2 * per else per) * 128

/-- A shadow as a load point at an instant takes it: the last value written early enough for it, which later writes do not displace
(R171, R343). -/
def State.epTaken (s : State) (p : Nat) (r : Reg) (code at_ : Nat) : Nat :=
  match (s.ep p).held.find? (fun x => x.1 == code && decide (at_ / 128 < x.2.1)) with
  | some x => x.2.2.toNat
  | none => s.regN r p

/-- An event of the logical pair that a physical pair serves (R170, R314). -/
def State.epEvent (s : State) (p j t : Nat) : State :=
  match s.epLogical p with
  | some n => s.emit (0x100 + 4 * n + j) t 16 none
  | none => s

/-- A late write (R171); `told` where one of its ec that loses to it has raised the safety event. -/
def State.epLate (s : State) (p t : Nat) (told : Bool) : State :=
  let s := (s.setFld F.EP_STAT_LATE p 1).bump F.EP_COUNT_LATECNT F.EP_COUNT_LATESAT p
  let s := s.epEvent p 1 t
  if s.flag F.EP_CTL_LATESAFE p && !told then s.raiseEv 16 10 p else s

/-- In carrier mode the armed, enabled carrier's start is fixed in ec t (R166, R190): a shadow write too near it is late (R171). -/
def State.epSchedule (s : State) (p t : Nat) : State :=
  if !s.flag F.EP_CTL_ENABLE p || s.flag F.EP_CTL_TT p || !(s.ep p).armed || s.flag F.EP_STAT_STARTED p then s
  else
    let o := (s.ep p).origin
    let e := s.epEarliest p t
    let len := s.epLen p (max 16 (s.regN .EP_PERIOD p))
    let start := if o < e then o + (e - o + len - 1) / len * len else o
    let s := repeatN ((s.ep p).held.countP (fun x => decide (start / 128 < x.2.1))) (fun _ s => s.epLate p t false) s
    let s := s.modEp p (fun x => { x with set := true, start := start })
    if o < e then s.setFld F.EP_STAT_LATE p 1 else s

/-- The next period start, or the carrier start (R168, R170). -/
def State.epNextLoad (s : State) (p : Nat) : Option Nat :=
  let x := s.ep p
  if s.flag F.EP_STAT_STARTED p then some (x.pstart + s.epLen p x.per) else if x.set then some x.start else none

/-- The peak of the period under way, where it is a load point still to come (R170). -/
def State.epNextPeak (s : State) (p : Nat) : Option Nat :=
  let x := s.ep p
  if s.flag F.EP_STAT_STARTED p && s.flag F.EP_CTL_UPDN p && s.flag F.EP_CTL_LOADPK p && !x.peak then some (x.pstart + x.per * 128)
  else none

/-- The tick of the next load point that takes a register: 0 and 1 the duties (R170). -/
def State.epLambda (s : State) (p code : Nat) : Option Nat :=
  match (if code < 2 then s.epNextPeak p else none) with
  | some t => some (t / 128)
  | none => (s.epNextLoad p).map (· / 128)

/-- A write or edge discarded and counted in DROPCNT (R165, R177). -/
def State.epDrop (s : State) (p : Nat) : State := s.bump F.EP_COUNT_DROPCNT F.EP_COUNT_DROPSAT p

/-- A write that the pair does not use (R164, R167, R190). -/
def State.epModeErr (s : State) (p : Nat) : State := s.setFld F.EP_STAT_MODEERR p 1

/-- QSTAT shows the occupancy of both queues (R176). -/
def State.epQstat (s : State) (p : Nat) : State :=
  (s.setFld F.EP_QSTAT_QA p (s.ep p).a.queue.length).setFld F.EP_QSTAT_QB p (s.ep p).b.queue.length

/-! Two lane writes in one ec (R165). -/

/-- How a lane write to a register or queue meets an earlier one of its ec. -/
inductive LaneRace where
  | first
  | loses
  | wins (old : List (Nat × LaneWrite))

/-- Whether the writes of two keys reach one register or one queue (R165): of one key, or two edges for one queue, or two writes of QPUSH.
Keys 0x20 to 0x27 are edges: bit 1 for queue B, bit 2 for a write of QPUSH. -/
def raceMeets (j k : Nat) : Bool :=
  let edge (x : Nat) : Bool := 0x20 ≤ x && x < 0x28
  j == k || (edge j && edge k && (bit 1 j == bit 1 k || (bit 2 j && bit 2 k)))

/-- How a write of a lane engine in ec t meets the writes of that ec that reach what it reaches. [DESIGN CHOICE, log entry 14] -/
def State.epRace (s : State) (p key t : Nat) (lane : Option Nat) : LaneRace :=
  match lane with
  | none => .first
  | some e =>
    let met := (s.ep p).lanes.filter (fun x => raceMeets x.1 key && x.2.at_ == t)
    if met.any (fun x => decide (x.2.eng < e)) then .loses
    else match met.filter (fun x => decide (e < x.2.eng)) with
      | [] => .first
      | l => .wins l

/-- The registers of a pair that a lane's write to it can change. -/
def epTouched : List Reg :=
  [.EP_CTL, .EP_PERIOD, .EP_DUTYA, .EP_DUTYB, .EP_DTRISE, .EP_DTFALL, .EP_MAXON, .EP_ORIGINL, .EP_ORIGINH, .EP_ORIGINF, .EP_QTIME,
   .EP_STAT, .EP_COUNT]

/-- A register after a write that replaced `old` by `new` is taken back: of STAT the bits that the write changed, of COUNT what it
added, and any other register where nothing else has written it since. -/
def undoWord (r : Reg) (old new cur : Word) : Word :=
  if r = .EP_STAT then (cur &&& ~~~(new &&& ~~~old)) ||| (old &&& ~~~new)
  else if r = .EP_COUNT then BitVec.ofNat 32 (cur.toNat - (new.toNat - old.toNat))
  else if cur = new then old else cur

/-- Whether lateness of a write under a key depends on its ec alone, so that the writes of one ec are late together (R171). -/
def lateTogether (key : Nat) : Bool := key < 6

/-- Whether a write under a key may change the pair's carrier and outputs at once: those of CTL and STAT (R183, R190). -/
def reshapes (key : Nat) : Bool := key == 0x30 || key == 0x31

/-- A queue without the last edge written in an ec. -/
def cutEdge (t : Nat) (l : List QEdge) : List QEdge := (l.reverse.eraseP (fun q => q.wrote == t)).reverse

/-- The effect of the engine that loses is taken back (R165). A late write that loses to another late write leaves the lateness that they
share; a safety event that it raised stands. [DESIGN CHOICE, log entry 14] -/
def State.epUndo (s : State) (p key : Nat) (w : LaneWrite) : State :=
  let s := epTouched.foldl (fun s r =>
    match w.regs.find? (fun x => x.1 == r.key p) with
    | none => s
    | some (_, old, new) =>
      if r = .EP_COUNT && lateTogether key then s
      else s.setReg r p (undoWord r (if r = .EP_STAT ∧ lateTogether key = true then old ||| (new &&& 1) else old) new (s.reg r p))) s
  let s := if w.late && !lateTogether key then
      (match s.epLogical p with | some n => s.retract (0x100 + 4 * n + 1) w.at_ | none => s) else s
  let s := s.modEp p (fun x =>
    if reshapes key then
      { x with on := w.on, armed := w.armed, set := w.set, start := w.start, origin := w.origin, wait := w.wait, a := w.a, b := w.b }
    else
      let cut (k : Nat) (o : Outp) : Outp := if w.queued = k then { o with queue := cutEdge w.at_ o.queue } else o
      { x with armed := w.armed, set := w.set, start := w.start, origin := w.origin, a := cut 1 x.a, b := cut 2 x.b })
  let s := s.modEp p (fun x => { x with lanes := x.lanes.filter (fun y => y.1 != key || y.2.at_ != w.at_) })
  s.epQstat p

/-- A write of a lane engine put on record for its ec (R165): `s` is the state before it. Records of the last 64 ec stay. -/
def State.epRecord (t s : State) (p key ec : Nat) (lane : Option Nat) : State :=
  match lane with
  | none => t
  | some e =>
    let was := s.ep p
    let x := t.ep p
    let w : LaneWrite :=
      { at_ := ec, eng := e
        regs := (epTouched.filter (fun r => t.reg r p != s.reg r p)).map (fun r => (r.key p, s.reg r p, t.reg r p))
        queued := if was.a.queue.length < x.a.queue.length then 1 else if was.b.queue.length < x.b.queue.length then 2 else 0
        late := t.flights != s.flights || t.beaten != s.beaten
        on := was.on, armed := was.armed, set := was.set, start := was.start, origin := was.origin, wait := was.wait, a := was.a, b := was.b }
    t.modEp p (fun x => { x with lanes := (key, w) :: x.lanes.filter (fun y => (y.1 != key || y.2.at_ != ec) && decide (ec < y.2.at_ + 64)) })

/-- A write under a key, raced against the other lane writes of its ec (R165). -/
def State.epRaced (s : State) (p key t : Nat) (lane : Option Nat) (act : State → State) : State :=
  match s.epRace p key t lane with
  | .first => (act s).epRecord s p key t lane
  | .loses => s.epDrop p
  | .wins l =>
    let s := l.foldl (fun s w => (s.epUndo p w.1 w.2).epDrop p) s
    (act s).epRecord s p key t lane

/-- Whether a lane's write meets a late write of its ec that loses to it: the lateness has been told already (R165, R171). -/
def State.epToldLate (s : State) (p key t : Nat) (lane : Option Nat) : Bool :=
  match s.epRace p key t lane with
  | .wins l => l.any (fun w => w.2.late || w.2.regs.any (fun x => x.1 == Reg.key .EP_COUNT p))
  | _ => false

/-! Writes (R161 to R167, R171, R175). -/

/-- The register of a value field (R161). -/
def epValueReg : Nat → Reg
  | 0 => .EP_DUTYA
  | 1 => .EP_DUTYB
  | 2 => .EP_PERIOD
  | 3 => .EP_DTRISE
  | 4 => .EP_DTFALL
  | _ => .EP_MAXON

/-- A value write in ec t (R161, R164, R169, R171): codes 0 to 5. -/
def State.epValue (s : State) (p code v t : Nat) (lane : Option Nat) : State :=
  let r := epValueReg code
  if code < 3 ∧ s.flag F.EP_CTL_TT p then s.epModeErr p
  else
    let told := s.epToldLate p code t lane
    s.epRaced p code t lane (fun s =>
    let old := s.reg r p
    let w := if code = 3 ∨ code = 4 then v % 2 ^ 20 else v
    let s := if code < 2 ∧ 2 ^ 31 ≤ w then s.setFld F.EP_STAT_CLAMP p 1 else s
    let s := if code = 5 then s.epHoldMax p t
      else if (code = 3 ∨ code = 4) ∧ s.flag F.EP_CTL_TT p = true then s.epHoldDead p t
      else s
    let s := if code < 5 ∧ s.flag F.EP_CTL_TT p = false then
        let by_ := t + s.epLead p
        let s := s.modEp p (fun x => { x with held := x.held.filter (fun y => t < y.2.1) ++ [(code, by_, old)] })
        match s.epLambda p code with
        | some l => if t < l && decide (l < by_) && !told then s.epLate p t false else s
        | none => s
      else s
    s.setRegN r p w)

/-- An origin write in ec t (R166, R167): the registers given, and whether it arms the carrier at the origin that they then hold. -/
def State.epOrigin (s : State) (p t : Nat) (regs : List (Reg × Nat)) (arms : Bool) (lane : Option Nat) : State :=
  if s.flag F.EP_STAT_STARTED p || s.flag F.EP_CTL_TT p then s.epModeErr p
  else s.epRaced p 0x10 t lane (fun s =>
    let s := regs.foldl (fun s x => s.setRegN x.1 p x.2) s
    if arms then
      let o := s.pair .EP_ORIGINL .EP_ORIGINH p * 128 + s.fld F.EP_ORIGINF_FINE p
      (s.modEp p (fun x => { x with armed := true, origin := o })).epSchedule p t
    else s)

/-- A timetable write in ec t of an edge at an instant in fine steps, by QPUSH or not (R164, R165, R175, R177, R247). -/
def State.epEdge (s : State) (p : Nat) (b lvl : Bool) (at_ t : Nat) (lane : Option Nat) (push : Bool := false) : State :=
  if !s.flag F.EP_CTL_TT p || (b && s.flag F.EP_CTL_COMPL p) then s.epModeErr p
  else
    let key := 0x20 + 2 * b2n b + 4 * b2n push
    let told := s.epToldLate p key t lane
    s.epRaced p key t lane (fun s =>
    let x := s.ep p
    let o := x.outp b
    if s.flag F.EP_STAT_TRIPPED p || x.relAt == t + 1 then s.epDrop p
    else if 16 ≤ o.queue.length then s.setFld F.EP_STAT_QFULL p 1
    else
      let prev := match o.queue.getLast? with
        | some q => some q.at_
        | none => o.last
      if (match prev with | some q => decide (at_ < q + 512) | none => false) then s.setFld F.EP_STAT_ORDER p 1
      else
        let late := o.queue.isEmpty && decide (at_ < s.epEarliest p t)
        let i := if late then s.epEarliest p t else at_
        let s := s.modEp p (fun x => x.setOutp b { x.outp b with queue := o.queue ++ [⟨i, lvl, t⟩] })
        (if late then s.epLate p t told else s).epQstat p)

/-- The queues emptied without a count (R182, R190). -/
def State.epFlush (s : State) (p : Nat) : State :=
  (s.modEp p (fun x => { x with a := { x.a with queue := [] }, b := { x.b with queue := [] } })).epQstat p

/-- The carrier stopped, the origin disarmed, the queues flushed and the outputs at rest: ENABLE written 0 (R167, R190). -/
def State.epStop (s : State) (p : Nat) : State :=
  let s := s.epFlush p
  let s := s.modEp p (fun x => { x with
    on := false, armed := false, set := false, peak := false, term := false, wait := false,
    a := { x.a with ref := false, out := false, dt := none, maxed := false, phase := 0 },
    b := { x.b with ref := false, out := false, dt := none, maxed := false, phase := 0 } })
  s.setFld F.EP_STAT_STARTED p 0

/-- A write of CTL in ec t (R190): while ENABLE is 1 the six mode bits stay, and a write that changes one sets MODEERR. A carrier start
that is fixed stays (R166). Queue B is not used with COMPL = 1 (R176), and a change of a low or high safe level is a commanded change of its
ball (R183). [DESIGN CHOICE, log entries 130, 131] -/
def State.epCtl (s : State) (p v t : Nat) : State :=
  let old := s.regN .EP_CTL p
  let fixed := bit 0 old && bits 6 1 old != bits 6 1 v
  let new := (if fixed then setBits 1 6 (bits 6 1 old) v else v) % 2 ^ 14
  let s := if fixed then s.epModeErr p else s
  let s := s.setRegN .EP_CTL p new
  let moved := !s.epDrives p && ((bits 8 7 old != bits 8 7 new && bits 8 7 new < 2) || (bits 10 9 old != bits 10 9 new && bits 10 9 new < 2))
  let s := if moved then s.modEp p (fun x => { x with cmd := 128 * t }) else s
  let s := if !bit 0 new then s.epStop p
    else
      let s := if bit 3 new then (s.modEp p (fun x => { x with b := { x.b with queue := [] } })).epQstat p else s
      let s := s.modEp p (fun x => { x with on := true })
      if (s.ep p).set then s else s.epSchedule p t
  s.epRefresh p

/-- QPUSH: an edge at QTIME plus FINE (R175, R191). -/
def State.epQpush (s : State) (p v t : Nat) (lane : Option Nat) : State :=
  let k := bits 9 8 v
  s.epEdge p (bit 1 k) (!bit 0 k) (expandShort t (s.regN .EP_QTIME p) * 128 + bits 6 0 v) t lane true

/-- The effect of EDGE with a field code on the pair that serves a logical pair (R161). -/
def State.epField (s : State) (n field v fine t : Nat) (lane : Option Nat) : State :=
  let p := s.epPhys n
  if field < 6 then s.epValue p field v t lane
  else
    let i := expandShort t v
    if field = 0x10 then
      s.epOrigin p t [(.EP_ORIGINL, i % 2 ^ 32), (.EP_ORIGINH, i / 2 ^ 32), (.EP_ORIGINF, fine)] true lane
    else s.epEdge p (bit 1 field) (!bit 0 field) (i * 128 + fine) t lane

/-- Whether a field code is listed (R161, R162). -/
def epFieldListed (field : Nat) : Bool := field < 6 || field == 0x10 || (0x20 ≤ field && field < 0x24)

/-! Load points and compare positions (R169, R170). -/

/-- The registers of load point codes taken into use; an on-time value displaced by a late write is taken (R170, R171). -/
def State.epTakeDuties (s : State) (p at_ : Nat) (valley : Bool) : State :=
  let da := s.epTaken p .EP_DUTYA 0 at_
  let db := s.epTaken p .EP_DUTYB 1 at_
  s.modEp p (fun x => { x with dutyA := if valley then da else x.dutyA, dutyB := if valley then db else x.dutyB, pkA := da, pkB := db })

/-- A period start (R166, R170, R178): the shadows are taken, S restarts, and the event is sent. -/
def State.epLoad (s : State) (p : Nat) : State :=
  match s.epNextLoad p with
  | none => s
  | some at_ =>
    if !s.flag F.EP_CTL_ENABLE p then s
    else
      let s := s.reach (at_ / 128)
      let first := !s.flag F.EP_STAT_STARTED p
      let per := s.epTaken p .EP_PERIOD 2 at_
      let rise := s.epTaken p .EP_DTRISE 3 at_
      let fall := s.epTaken p .EP_DTFALL 4 at_
      let s := s.epTakeDuties p at_ true
      let s := if per < 16 then s.setFld F.EP_STAT_CLAMP p 1 else s
      let s := s.modEp p (fun x => { x with
        pstart := at_, per := max 16 per, rise := rise, fall := fall, peak := false, term := false, set := true,
        a := { x.a with phase := 0 }, b := { x.b with phase := 0 } })
      let x := s.ep p
      let ra := decide (0 < compareAt x.dutyA x.per)
      let rb := decide (0 < compareAt x.dutyB x.per)
      let s := s.setFld F.EP_STAT_STARTED p 1
      let s := if first || (x.wait && !s.flag F.EP_STAT_TRIPPED p && !s.flag F.EP_STAT_RBFAULT p) then s.epFromRest p ra rb at_
        else (s.epRef p false ra at_).epRef p true rb at_
      let s := s.epEvent p 0 (at_ / 128)
      match s.epLogical p with
      | some n => s.note (.load n at_)
      | none => s

/-- The peak in up-down mode with LOADPK (R170): the duties are taken. -/
def State.epPeak (s : State) (p : Nat) : State :=
  match s.epNextPeak p with
  | none => s
  | some at_ => ((s.reach (at_ / 128)).epTakeDuties p at_ false).modEp p (fun x => { x with peak := true })

/-- The next compare position of an output's reference in the period under way, the level S takes there, and the phase it
leaves (R169). -/
def State.epNextCompare (s : State) (p : Nat) (b : Bool) : Option (Nat × Bool × Nat) :=
  let x := s.ep p
  let o := x.outp b
  let half := x.per * 128
  let c1 := compareAt (if b then x.dutyB else x.dutyA) x.per
  if !s.flag F.EP_STAT_STARTED p then none
  else if !s.flag F.EP_CTL_UPDN p then
    if o.phase = 0 ∧ 0 < c1 ∧ c1 < half then some (x.pstart + c1, false, 1) else none
  else
    let pk := s.flag F.EP_CTL_LOADPK p
    let c2 := compareAt (if pk then (if b then x.pkB else x.pkA) else (if b then x.dutyB else x.dutyA)) x.per
    let known := !pk || x.peak
    if o.phase = 0 ∧ 0 < c1 ∧ c1 < half then some (x.pstart + c1, false, 1)
    else if o.phase = 0 ∧ half ≤ c1 ∧ known ∧ c2 < half then some (x.pstart + half, false, 1)
    else if o.phase < 2 ∧ known ∧ 0 < c2 ∧ c2 < half then some (x.pstart + 2 * half - c2, true, 2)
    else if o.phase < 2 ∧ known ∧ half ≤ c2 ∧ c1 < half then some (x.pstart + half, true, 2)
    else none

/-- S changes at a compare position; after a termination output A's S stays inactive (R169, R179). -/
def State.epCompare (s : State) (p : Nat) (b : Bool) : State :=
  match s.epNextCompare p b with
  | none => s
  | some (at_, lvl, ph) =>
    let s := (s.reach (at_ / 128)).modEp p (fun x => x.setOutp b { x.outp b with phase := ph })
    if lvl && !b && (s.ep p).term then s else s.epRef p b lvl at_

/-! The edge timetable (R176). -/

/-- The first queued edge of an output is made in timetable mode (R176, R178, R179, R190, R247); one to the level that the reference holds starts an output that
the on-time limit ended (R180). -/
def State.epQueueEdge (s : State) (p : Nat) (b : Bool) : State :=
  match (if s.flag F.EP_CTL_TT p then ((s.ep p).outp b).queue else []) with
  | [] => s
  | q :: rest =>
    let s := s.reach (q.at_ / 128)
    let s := s.modEp p (fun x => { x.setOutp b { x.outp b with queue := rest, last := some q.at_ } with
      wait := if s.flag F.EP_STAT_TRIPPED p || s.flag F.EP_STAT_RBFAULT p then x.wait else false })
    let s := s.epQstat p
    if q.lvl && !b && (s.ep p).termAt == q.at_ / 128 + 1 then s
    else
      let s := if q.lvl && !b then s.modEp p (fun x => { x with term := false, aonAt := q.at_ / 128 + 1, aonA := x.a, aonB := x.b }) else s
      let x := s.ep p
      let ended := (x.outp b).ref == q.lvl && (if s.flag F.EP_CTL_COMPL p then (x.outp (!q.lvl)).maxed else q.lvl && (x.outp b).maxed)
      let s := if ended then s.epFollow p b q.lvl q.at_ else s.epRef p b q.lvl q.at_
      match s.epLogical p with
      | some n => if q.lvl && !b then s.note (.load n q.at_) else s
      | none => s

/-! Dead time and the on-time limit (R173, R174, R180). -/

/-- The next instant at which reference S of output A may change: a compare position, the next period start, or a queued edge. -/
def State.epNextRef (s : State) (p : Nat) : Option Nat :=
  if s.flag F.EP_CTL_TT p then (s.ep p).a.queue.head?.map (·.at_)
  else match s.epNextCompare p false with
    | some x => some x.1
    | none => s.epNextLoad p

/-- A dead time ends and its output becomes active; S changing no later suppresses it instead (R173, R174). -/
def State.epDeadEnd (s : State) (p : Nat) (b : Bool) : State :=
  match ((s.ep p).outp b).dt with
  | none => s
  | some at_ =>
    if (match s.epNextRef p with | some x => decide (x ≤ at_) | none => false) then s
    else ((s.reach (at_ / 128)).modEp p (fun x => x.setOutp b { x.outp b with dt := none })).epSetOut p b true at_

/-- The instant at which an output that became active at `on` reaches its limit: that of before a write of MAXON up to the end of the
write's ec, the one written from the next ec on (R180). -/
def State.epLimit (s : State) (p on : Nat) : Option Nat :=
  let x := s.ep p
  let m := s.regN .EP_MAXON p
  if x.maxWas ≠ 0 ∧ on + x.maxWas * 128 < x.maxAt * 128 then some (on + x.maxWas * 128)
  else if m = 0 then none
  else some (max (on + m * 128) (x.maxAt * 128))

/-- An output active for MAXON qt becomes inactive (R180). -/
def State.epMaxon (s : State) (p : Nat) (b : Bool) : State :=
  let o := (s.ep p).outp b
  match if o.out then s.epLimit p o.on else none with
  | none => s
  | some at_ =>
    let s := (s.reach (at_ / 128)).epSetOut p b false at_
    let s := s.modEp p (fun x => x.setOutp b { x.outp b with maxed := true })
    let s := (s.setFld F.EP_STAT_MAXON p 1).raiseEv 16 10 p
    match s.epLogical p with
    | some n => s.note (.flush n at_)
    | none => s

/-! Trips, terminations, readback (R177 to R179, R182, R183). -/

/-- Outputs driven inactive with every dead time dropped. -/
def Pair.rest (x : Pair) : Pair :=
  { x with a := { x.a with out := false, dt := none }, b := { x.b with out := false, dt := none } }

/-- Flint trips the pair (R177). -/
def State.epTrip (s : State) (p : Nat) : State :=
  let x := s.ep p
  let s := s.bumpN (x.a.queue.length + x.b.queue.length) F.EP_COUNT_DROPCNT F.EP_COUNT_DROPSAT p
  (((s.epFlush p).modEp p Pair.rest).setFld F.EP_STAT_TRIPPED p 1).epRefresh p

/-- After a release the outputs stay inactive until the next period start, or follow the edges written from here on (R178). -/
def State.epResume (s : State) (p : Nat) : State :=
  let s := s.modEp p (fun x => { x.rest with wait := true, relAt := s.now + 1 })
  let s := if s.flag F.EP_CTL_TT p then
    (s.epFlush p).modEp p (fun x => { x with a := { x.a with ref := false }, b := { x.b with ref := false } }) else s
  s.epRefresh p

/-- Flint releases the pair (R178). -/
def State.epUntrip (s : State) (p : Nat) : State := (s.setFld F.EP_STAT_TRIPPED p 0).epResume p

/-- Output A's edge to active of the ec of a termination taken back: it is consumed, and the outputs are as before it (R247). What it told
other blocks stands. [DESIGN CHOICE, log entry 131] -/
def Pair.unmade (x : Pair) : Pair :=
  { x with term := true, a := { x.aonA with queue := x.a.queue, last := x.a.last, phase := x.a.phase },
           b := { x.aonB with queue := x.b.queue, last := x.b.last, phase := x.b.phase } }

/-- A termination of output A's S in ec t (R179, R247): counted, and S inactive until the next period start or edge to active. A link
flushes where outputs follow S (R346). -/
def State.epTerminate (s : State) (p t : Nat) : State :=
  if !s.flag F.EP_CTL_TERMEN p then s
  else
    let s := (s.bump F.EP_COUNT_TERMCNT F.EP_COUNT_TERMSAT p).epEvent p 2 t
    let s := s.modEp p (fun x => { x with termAt := t + 1 })
    if (s.ep p).a.ref then
      let undo := s.flag F.EP_CTL_TT p && (s.ep p).aonAt == t + 1 && !(s.ep p).aonA.ref
      let s := if undo then s.modEp p Pair.unmade else (s.modEp p (fun x => { x with term := true })).epRef p false false (t * 128)
      match s.epLogical p with
      | some n => if s.epHeld p then s else s.note (.flush n (t * 128))
      | none => s
    else s

/-- Whether a pair puts a level on one of its balls: a high-impedance safe state is none (R181, R183). -/
def State.epLevels (s : State) (p : Nat) : Bool :=
  s.alive 16 && (match s.epLogical p with
    | some n => (s.epBall n false).isSome || (s.epBall n true).isSome
    | none => false)

/-- A readback mismatch of 16 qt (R183): not before 32 qt after the last commanded change. [DESIGN CHOICE, log entry 130] -/
def State.epReadback (s : State) (p : Nat) : State :=
  if !s.flag F.EP_CTL_RBEN p || !s.epLevels p || s.flag F.EP_STAT_RBFAULT p || decide (s.now < (s.ep p).cmd / 128 + 32) then s
  else (((s.modEp p Pair.rest).setFld F.EP_STAT_RBFAULT p 1).raiseEv 16 10 p).epRefresh p

/-- Writing 1 to RBFAULT releases the pair, and a reserve steered for it (R183, R185). [DESIGN CHOICE, log entry 29] -/
def State.epRbRelease (s : State) (p : Nat) : State :=
  if !s.flag F.EP_STAT_RBFAULT p then s
  else
    let s := (s.setFld F.EP_STAT_RBFAULT p 0).epResume p
    repeatN 12 (fun g s =>
      if (s.ep (192 + g)).holdBy = some p then (s.modEp (192 + g) (fun x => { x with holdBy := none })).epResume (192 + g) else s) s

/-- The device leaves RUN or RUN DEGRADED: every pair's queues are flushed without a count (R182). -/
def State.epLeaveRun (s : State) : State := (s.eps.map (·.1)).foldl (fun s p => s.epFlush p) s

/-- CNT as it reads: the carrier's count in whole qt at the start of the ec (R168). [DESIGN CHOICE, log entry 120] -/
def State.epCount (s : State) (p : Nat) : Nat :=
  let x := s.ep p
  if !s.flag F.EP_STAT_STARTED p then 0
  else
    let len := s.epLen p x.per
    let k := (128 * s.now - x.pstart) % len
    if s.flag F.EP_CTL_UPDN p ∧ x.per * 128 < k then (len - k) / 128 else k / 128

/-! Steering (R184 to R186). -/

/-- The registers that a steering copies: every one but STAT, COUNT and STEER (R185). -/
def epCopied : List Reg :=
  [.EP_CTL, .EP_PERIOD, .EP_DUTYA, .EP_DUTYB, .EP_DTRISE, .EP_DTFALL, .EP_MAXON, .EP_ORIGINL, .EP_ORIGINH, .EP_ORIGINF,
   .EP_CNT, .EP_QTIME]

/-- A STEER write of reserve g (R184, R186). -/
def State.epSteer (s : State) (g v : Nat) : State :=
  let m := bits 3 0 v
  let err (s : State) : State := s.setFld F.EP_STEER_ERR g 1
  let s := if bit 6 v then s.setFld F.EP_STEER_ERR g 0 else s
  if bit 4 v then
    if s.flag F.EP_STEER_ACTIVE g || s.epDrives (s.epPhys (16 * g + m)) || s.flag F.EP_CTL_ENABLE (192 + g) then err s
    else (((s.setFld F.EP_STEER_MEMBER g m).setFld F.EP_STEER_ACTIVE g 1).setFld F.EP_STEER_BUSY g 1).note .degr
  else if s.inRun then err s
  else
    let s := ((s.setFld F.EP_STEER_MEMBER g m).setFld F.EP_STEER_ACTIVE g 0).setFld F.EP_STEER_BUSY g 0
    (((s.epStop (192 + g)).setFld F.EP_CTL_ENABLE (192 + g) 0).epRefresh (192 + g)).note .degr

/-- A steering's copy ends and the balls pass to the reserve (R185). STARTED goes with the carrier, TRIPPED with the logical
pair; the queues are not copied. -/
def State.epSteerDone (s : State) (g : Nat) : State :=
  if !s.flag F.EP_STEER_BUSY g then s
  else
    let p := 16 * g + s.fld F.EP_STEER_MEMBER g
    let r := 192 + g
    let s := epCopied.foldl (fun s x => s.setReg x r (s.reg x p)) s
    let s := (s.setFld F.EP_STAT_STARTED r (s.fld F.EP_STAT_STARTED p)).setFld F.EP_STAT_TRIPPED r (s.fld F.EP_STAT_TRIPPED p)
    let x := s.ep p
    let s := (s.setEp r { x with
      holdBy := if s.flag F.EP_STAT_RBFAULT p then some p else none, driven := false, lanes := [],
      a := { x.a with queue := [] }, b := { x.b with queue := [] } }).epQstat r
    let s := s.setFld F.EP_STEER_BUSY g 0
    let s := (s.epStop p).setFld F.EP_CTL_ENABLE p 0
    ((s.setFld F.EP_STAT_TRIPPED p 0).epRefresh p).epRefresh r

end Sys2Proof.Machine
end

