-- ==== Sys2Proof/Machine/Flint.lean ====
section
/-! DEFINITION. Flint (R239 to R249, R258, R259): sources, nets, trips and terminations of logical edge pairs, releases, and the
routing table. A trip reaches the pairs in the ec in which its source asserts, within every bound of R242. -/

namespace Sys2Proof.Machine

/-- A net. -/
def State.net (s : State) (k : Nat) : Net := Tab.look (fun _ => (⟨0, 0, 0⟩ : Net)) s.nets k
/-- A net given a state. -/
def State.setNet (s : State) (k : Nat) (x : Net) : State := { s with nets := Tab.put (fun _ => (⟨0, 0, 0⟩ : Net)) s.nets k x }

/-- NETL, NETH and STAT.ANY follow the nets (R258). -/
def State.fltShow (s : State) : State :=
  let m := (List.range 64).foldl (fun n k => n + s.fld F.FLT_NETE_TRIPPED k * 2 ^ k) 0
  (s.setPair .FLT_NETL .FLT_NETH 0 m).setFld F.FLT_STAT_ANY 0 (b2n (m != 0))

/-! Settings (R244). -/

/-- A table entry's settings as they hold in ec t: a write holds from the ec after it (R244). -/
def State.fltSet (s : State) (i t : Nat) (r : Reg) (n : Nat) : Nat :=
  match Tab.look (fun _ => none) s.fltWas i with
  | some (at_, old) => if t ≤ at_ then old.toNat else s.regN r n
  | none => s.regN r n

/-- Whether a source is routed in ec t, and to which net (R259). -/
def State.srcRoute (s : State) (src t : Nat) : Option Nat :=
  let v := s.fltSet src t .FLT_SRCE src
  if bit 0 v then some (bits 6 1 v) else none

/-- A pair entry's settings in ec t (R259). -/
def State.pairSet (s : State) (n t : Nat) : Nat := s.fltSet (512 + n) t .FLT_PAIRE n

/-- A net entry's settings in ec t (R259). -/
def State.netSet (s : State) (k t : Nat) : Nat := s.fltSet (704 + k) t .FLT_NETE k

/-- Whether pair settings listen to a net (R241, R259). -/
def pairHears (v k : Nat) : Bool := (bit 0 v && bits 6 1 v == k) || (bit 7 v && bits 13 8 v == k)

/-- Whether an entry was written in ec t. -/
def State.fltFresh (s : State) (i t : Nat) : Bool :=
  match Tab.look (fun _ => none) s.fltWas i with
  | some (at_, _) => at_ == t
  | none => false

/-! Pairs (R241). -/

/-- Whether a logical pair is tripped in ec t: one of its enabled nets is (R241). -/
def State.fltTripped (s : State) (n t : Nat) : Bool :=
  let v := s.pairSet n t
  (bit 0 v && s.flag F.FLT_NETE_TRIPPED (bits 6 1 v)) || (bit 7 v && s.flag F.FLT_NETE_TRIPPED (bits 13 8 v))

/-- The pair serving a logical pair follows the nets it listens to in ec t (R241). -/
def State.fltPairAt (s : State) (n t : Nat) : State :=
  let p := s.epPhys n
  if s.fltTripped n t == s.flag F.EP_STAT_TRIPPED p then s
  else
    let s := s.reach t
    if s.fltTripped n t then s.epTrip p else s.epUntrip p

/-- A logical pair follows its nets in ec t, and in the next one where its entry was written in ec t (R241, R244). -/
def State.fltPair (s : State) (n t : Nat) : State :=
  let s' := s.fltPairAt n t
  if s.fltFresh (512 + n) t then s'.fltPairAt n (t + 1) else s'

/-- Every logical pair that listens to a net follows it. -/
def State.fltPairs (s : State) (k t : Nat) : State :=
  repeatN 192 (fun n s => if pairHears (s.pairSet n t) k || pairHears (s.pairSet n (t + 1)) k then s.fltPair n t else s) s

/-- A STEER write of reserve g (R184, R186): unsteering gives the balls back to the pair that was steered away, which its nets may hold
tripped (R241). -/
def State.fltSteer (s : State) (g v : Nat) : State :=
  let m := s.fld F.EP_STEER_MEMBER g
  let t := s.epSteer g v
  if bit 4 v || s.inRun then t else t.fltPair (16 * g + m) t.now

/-! Trips (R239, R240, R249). -/

/-- FLT.FIRST takes a trip while its record is free; of trips in one ec it keeps the lowest net, and there the lowest source
(R249). -/
def State.fltFirst (s : State) (k src t : Nat) : State :=
  let put (s : State) : State :=
    ((s.setRegN .FLT_FIRST 0 (src + k * 2 ^ 10 + 2 ^ 16)).setPair .FLT_FIRSTL .FLT_FIRSTH 0 t)
  if !s.flag F.FLT_FIRST_VALID 0 then put s
  else if s.pair .FLT_FIRSTL .FLT_FIRSTH 0 = t then
    let k0 := s.fld F.FLT_FIRST_NET 0
    if k < k0 ∨ (k = k0 ∧ src < s.fld F.FLT_FIRST_SRC 0) then put s else s
  else s

/-- A net is tripped in ec t: its trip event, and the pairs that listen (R240, R241, R249). -/
def State.netTrips (s : State) (k src t : Nat) : State :=
  let x := s.net k
  let s := s.setNet k { x with last := max x.last (t + 1), trip := t + 1 }
  let s := ((s.setFld F.FLT_NETE_TRIPPED k 1).setFld F.FLT_NETE_FIRST k src).bump F.FLT_NETE_COUNT F.FLT_NETE_SAT k
  let s := ((s.bump F.FLT_TRIPCNT_COUNT F.FLT_TRIPCNT_SAT 0).fltFirst k src t).emit (0x840 + 2 * k) t 16 none
  let s := if bit 1 (s.netSet k t) then s.raiseEv 16 0 k else s
  (s.fltPairs k t).fltShow

/-- A net whose release and trip meet in ec t stays tripped: the release is refused and its event taken back (R247). -/
def State.netKept (s : State) (k t : Nat) : State :=
  let x := s.net k
  let s := (s.setNet k { x with last := max x.last (t + 1), freed := 0 }).retract (0x841 + 2 * k) t
  ((((s.setFld F.FLT_NETE_TRIPPED k 1).setFld F.FLT_STAT_RELERR 0 1).fltPairs k t)).fltShow

/-- A source is asserted in ec t on the net it is routed to (R240, R247, R249): its net trips, or the trip of that ec takes the lower
source, or a release of that ec is refused. [DESIGN CHOICE, log entry 15] -/
def State.netAssert (s : State) (k src t : Nat) : State :=
  let x := s.net k
  if s.flag F.FLT_NETE_TRIPPED k then
    let s := s.setNet k { x with last := max x.last (t + 1) }
    if x.trip = t + 1 then
      let s := if src < s.fld F.FLT_NETE_FIRST k then s.setFld F.FLT_NETE_FIRST k src else s
      s.fltFirst k src t
    else s
  else if x.freed = t + 1 then s.netKept k t
  else s.netTrips k src t

/-- A source asserts in ec t (R240); a level source whose entry was written in that ec asserts on its new route in the next (R244). -/
def State.fltAssert (s : State) (src t : Nat) : State :=
  if !s.alive 16 then s
  else
    let s' := match s.srcRoute src t with
      | some k => s.netAssert k src t
      | none => s
    match (if s.fltFresh src t && s.flag F.FLT_SRCE_ACTIVE src then s.srcRoute src (t + 1) else none) with
    | some k => (s'.reach (t + 1)).netAssert k src (t + 1)
    | none => s'

/-- A pulse source is asserted for one ec (R239). -/
def State.fltPulse (s : State) (src : Nat) : State := s.fltAssert src s.now

/-- A routed source was asserted up to ec t on the net that it was routed to then (R246). -/
def State.netLast (s : State) (src t : Nat) : State :=
  match s.srcRoute src t with
  | some k => s.setNet k { s.net k with last := max (s.net k).last (t + 1) }
  | none => s

/-- A level source rises or falls in ec t (R239); it was asserted up to the ec before its fall. -/
def State.fltLevel (s : State) (src : Nat) (lvl : Bool) (t : Nat) : State :=
  if s.flag F.FLT_SRCE_ACTIVE src == lvl then s
  else
    let s := s.setFld F.FLT_SRCE_ACTIVE src (b2n lvl)
    if lvl then s.fltAssert src t else if t = 0 then s else s.netLast src (t - 1)

/-- Whether an enabled source routed to a net is asserted. -/
def State.netAsserted (s : State) (k : Nat) : Bool :=
  (List.range 388).any (fun i => s.srcRoute i s.now == some k && s.flag F.FLT_SRCE_ACTIVE i)

/-- A net is released in ec t: its release event, and the pairs that listen (R241, R249). -/
def State.netFree (s : State) (k t : Nat) : State :=
  let s := s.setNet k { s.net k with freed := t + 1 }
  (((s.setFld F.FLT_NETE_TRIPPED k 0).emit (0x841 + 2 * k) t 16 none).fltPairs k t).fltShow

/-- A write of 1 to a net's release bit (R245, R246, R247): none for a FOLLOW net, nor without the engine clock, which a release needs
(R240); refused while a source is asserted or in the ec of a trip or a pulse. -/
def State.netRelease (s : State) (k : Nat) : State :=
  if bit 0 (s.netSet k s.now) || !s.flag F.FLT_NETE_TRIPPED k || !s.engClock then s
  else if s.netAsserted k || (s.net k).last == s.now + 1 then s.setFld F.FLT_STAT_RELERR 0 1
  else s.netFree k s.now

/-- HOLD of a net; below 64 it acts as 64 (R259). -/
def State.netHold (s : State) (k : Nat) : Nat := max 64 (bits 13 2 (s.netSet k s.now))

/-- The ec in which a net's settings last began to hold (R244). -/
def State.netSince (s : State) (k : Nat) : Nat :=
  match Tab.look (fun _ => none) s.fltWas (704 + k) with
  | some (w, _) => w + 1
  | none => 0

/-- A FOLLOW net releases itself in ec a + HOLD + 1, a the last ec in which a source was asserted (R246), but not before the settings
that make it do so hold (R244); a release needs the engine clock (R240). -/
def State.netFollow (s : State) (k : Nat) : State :=
  if !bit 0 (s.netSet k s.now) || !s.flag F.FLT_NETE_TRIPPED k || s.netAsserted k || !s.engClock then s
  else
    let t := max ((s.net k).last + s.netHold k) (s.netSince k)
    (s.reach t).netFree k t

/-- A termination source pulses in ec t: every pair that selects it takes it (R248). -/
def State.fltTerminate (s : State) (src t : Nat) : State :=
  repeatN 192 (fun n s =>
    let v := s.pairSet n t
    if bit 14 v && bits 23 15 v == src then s.epTerminate (s.epPhys n) t else s) s

/-- A source asserts, as the happening names it: a pulse source for this ec, a level source while its condition holds (R240).
[DESIGN CHOICE, log entry 15] -/
def State.netTrip (s : State) (src : Nat) : State :=
  if (320 ≤ src ∧ src < 384) ∨ src = 386 ∨ s.flag F.FLT_SRCE_ACTIVE src then s.fltAssert src s.now else s

/-! The routing table (R243, R244, R259). -/

/-- The register that a table entry is, if it is one (R243). -/
def fltEntry (i : Nat) : Option (Reg × Nat) :=
  if i < 388 then some (.FLT_SRCE, i)
  else if 512 ≤ i ∧ i < 704 then some (.FLT_PAIRE, i - 512)
  else if 704 ≤ i ∧ i < 768 then some (.FLT_NETE, i - 704)
  else none

/-- The settings of an entry kept for the ec of a write of it (R244). -/
def State.fltHold (s : State) (i : Nat) (r : Reg) (n : Nat) : State :=
  if s.fltFresh i s.now then s else { s with fltWas := Tab.put (fun _ => none) s.fltWas i (some (s.now, s.reg r n)) }

/-- A write of TDATA to entry i (R244, R259): discarded in RUN, else it holds from the next ec on. A write that enables an asserted
source trips its net in that ec, and an asserted source leaves the net it was routed to (R246). -/
def State.fltWrite (s : State) (i v : Nat) : State :=
  if s.inRun then s.setFld F.FLT_STAT_WERR 0 1
  else match fltEntry i with
    | none => s
    | some (.FLT_SRCE, n) =>
      let s := s.fltHold i .FLT_SRCE n
      let s := if s.flag F.FLT_SRCE_ACTIVE n then s.netLast n s.now else s
      let s := s.setRegN .FLT_SRCE n (v % 2 ^ 7 + s.fld F.FLT_SRCE_ACTIVE n * 2 ^ 7)
      match (if s.flag F.FLT_SRCE_ACTIVE n && s.alive 16 then s.srcRoute n (s.now + 1) else none) with
      | some k => let t := s.now + 1; (s.reach t).netAssert k n t
      | none => s
    | some (.FLT_PAIRE, n) =>
      if 255 < bits 23 15 v then s.setFld F.FLT_STAT_WERR 0 1
      else ((s.fltHold i .FLT_PAIRE n).setRegN .FLT_PAIRE n (v % 2 ^ 24)).fltPairAt n (s.now + 1)
    | some (_, k) =>
      let s := s.fltHold i .FLT_NETE k
      s.setRegN .FLT_NETE k (setBits 0 14 (v % 2 ^ 14) (s.regN .FLT_NETE k))

/-- A read of TDATA for entry i; a net entry's COUNT and SAT clear (R253). -/
def State.fltRead (s : State) (i : Nat) : Nat × State :=
  match fltEntry i with
  | none => (0, s)
  | some (.FLT_NETE, k) => (s.rcValue .FLT_NETE k (Reg.spec .FLT_NETE).rc (s.regN .FLT_NETE k), s.rcClear .FLT_NETE k (Reg.spec .FLT_NETE).rc)
  | some (r, n) => (s.regN r n, s)

end Sys2Proof.Machine
end

