-- ==== Sys2Proof/Machine/Cmp.lean ====
section
/-! DEFINITION. Comparators (R227 to R238, R255 to R257): thresholds, the ramp, blanking, outputs and reserves; and what edge
pairs tell them. -/

namespace Sys2Proof.Machine

/-- A physical comparator. -/
def State.cmp (s : State) (c : Nat) : Cmpr := Tab.look (fun _ => Cmpr.init) s.cmps c
/-- A physical comparator given a state. -/
def State.setCmp (s : State) (c : Nat) (x : Cmpr) : State := { s with cmps := Tab.put (fun _ => Cmpr.init) s.cmps c x }

/-- The domain of a physical comparator (R9). -/
def cmpDom (c : Nat) : Nat := anaDom (c < 96 || (192 ≤ c && c < 198))

/-- Whether a reserve serves logical comparator 16g + m (R237). -/
def State.cmpSteered (s : State) (g m : Nat) : Bool :=
  s.flag F.CMP_STEER_ACTIVE g && !s.flag F.CMP_STEER_BUSY g && s.fld F.CMP_STEER_MEMBER g == m

/-- The physical comparator that serves a logical one (R227). -/
def State.cmpPhys (s : State) (n : Nat) : Nat := if s.cmpSteered (n / 16) (n % 16) then 192 + n / 16 else n

/-- The logical comparator that a physical one serves, if any. -/
def State.cmpLogical (s : State) (c : Nat) : Option Nat :=
  if c < 192 then (if s.cmpPhys c = c then some c else none)
  else
    let m := s.fld F.CMP_STEER_MEMBER (c - 192)
    if s.cmpSteered (c - 192) m then some (16 * (c - 192) + m) else none

/-- The AIN pin that a comparator watches (R228). -/
def State.cmpPin (s : State) (c : Nat) : Nat :=
  s.fld F.CMP_CTL_INPUT c + (if c < 96 ∨ (192 ≤ c ∧ c < 198) then 0 else 160)

/-- The pin that a comparator watches takes a voltage; every comparator on that pin senses it (R228). -/
def State.setAin (s : State) (c : Nat) (v : Word) : State := { s with ain := Tab.put (fun _ => 0) s.ain (s.cmpPin c) v }

/-- What a comparator senses, in 2^-16 of a threshold code: with BIAS the pin's voltage shifted by 1.25 V (R228). -/
def State.cmpSees (s : State) (c : Nat) : Int :=
  (Tab.look (fun _ => 0) s.ain (s.cmpPin c)).toInt + (if s.flag F.CMP_CTL_BIAS c then 2048 * 2 ^ 16 else 0)

/-- HI in use in ec t: an unshadowed write holds from the ec after it (R231). -/
def Cmpr.hiIn (x : Cmpr) (t : Nat) : Nat :=
  match x.hiWas with
  | some (u, v) => if t ≤ u then v else x.hi
  | none => x.hi

/-- LO in use in ec t (R231). -/
def Cmpr.loIn (x : Cmpr) (t : Nat) : Nat :=
  match x.loWas with
  | some (u, v) => if t ≤ u then v else x.lo
  | none => x.lo

/-- The effective HI in ec t (R232). [DEDUCED, log entry 40] -/
def State.cmpHi (s : State) (c t : Nat) : Nat :=
  let x := s.cmp c
  match x.ramp with
  | some (l, hi) =>
    if s.flag F.CMP_CTL_RAMPEN c then (hi * 2 ^ 16 - s.fld F.CMP_RAMP_SLOPE c * (t - l)) / 2 ^ 16 else x.hiIn t
  | none => x.hiIn t

/-- Whether the thresholds are out of order in OUTSIDE or INSIDE mode (R230). -/
def State.cmpOrder (s : State) (c t : Nat) : Bool := decide (2 ≤ s.fld F.CMP_CTL_MODE c) && decide (s.cmpHi c t ≤ (s.cmp c).loIn t)

/-- A running comparator whose thresholds are out of order in ec t sets ORDER (R230). -/
def State.cmpNote (s : State) (c t : Nat) : State :=
  if s.flag F.CMP_CTL_EN c && s.cmpOrder c t then s.setFld F.CMP_STAT_ORDER c 1 else s

/-- Whether what a comparator senses asserts the raw output (R229, R230). -/
def State.cmpAsserts (s : State) (c t : Nat) : Bool :=
  let x := s.cmpSees c
  let hi : Int := s.cmpHi c t * 2 ^ 16
  let lo : Int := (s.cmp c).loIn t * 2 ^ 16
  s.cmpOrder c t ||
    match s.fld F.CMP_CTL_MODE c with
    | 0 => decide (hi < x)
    | 1 => decide (x < lo)
    | 2 => decide (hi < x) || decide (x < lo)
    | _ => decide (lo < x) && decide (x < hi)

/-- Whether what it senses releases the raw output; a threshold moved by HYST stays in 0 to 4,095 (R229, R230). -/
def State.cmpReleases (s : State) (c t : Nat) : Bool :=
  let x := s.cmpSees c
  let h := s.fld F.CMP_HYST_HYST c
  let hi := s.cmpHi c t
  let lo := (s.cmp c).loIn t
  let hiDn : Int := (hi - h : Nat) * 2 ^ 16
  let loUp : Int := min 4095 (lo + h) * 2 ^ 16
  let hiUp : Int := min 4095 (hi + h) * 2 ^ 16
  let loDn : Int := (lo - h : Nat) * 2 ^ 16
  !s.cmpOrder c t &&
    match s.fld F.CMP_CTL_MODE c with
    | 0 => decide (x < hiDn)
    | 1 => decide (loUp < x)
    | 2 => decide (x < hiDn) && decide (loUp < x)
    | _ => decide (hiUp ≤ x) || decide (x ≤ loDn)

/-- The termination pulse of a comparator (R234). -/
def State.cmpTerminate (s : State) (c t : Nat) : State :=
  match s.cmpLogical c with
  | some n => s.fltTerminate n t
  | none => s

/-- The outputs follow the raw output and blanking in ec t (R233, R234): the trip level, and the blanked output with its
events, its count and its termination. -/
def State.cmpShow (s : State) (c t : Nat) : State :=
  let raw := s.flag F.CMP_STAT_RAW c && s.flag F.CMP_CTL_EN c
  let blanked := (s.cmp c).blank.isSome
  let out := raw && !blanked
  let trip := raw && !(blanked && s.flag F.CMP_CTL_BTRIP c)
  let was := s.flag F.CMP_STAT_OUT c
  let s := (s.setFld F.CMP_STAT_OUT c (b2n out)).setFld F.CMP_STAT_BLANKING c (b2n blanked)
  let s := match s.cmpLogical c with
    | some n => s.fltLevel n (trip || !s.alive (cmpDom c)) t
    | none => s
  if out == was then s
  else
    let s := match s.cmpLogical c with
      | some n => s.emit (0x400 + 2 * n + b2n was) t (cmpDom c) none
      | none => s
    if out then (s.bump F.CMP_COUNT_ASSERTCNT F.CMP_COUNT_SAT c).cmpTerminate c t else s

/-- The raw output takes a level. -/
def State.cmpRaw (s : State) (c t : Nat) (lvl : Bool) : State := (s.setFld F.CMP_STAT_RAW c (b2n lvl)).cmpShow c t

/-- Thresholds out of order assert the raw output (R230). [DEDUCED, log entry 40] -/
def State.cmpCheck (s : State) (c t : Nat) : State :=
  if s.flag F.CMP_CTL_EN c && s.cmpOrder c t then (s.cmpNote c t).cmpRaw c t true else s

/-- The input crosses a threshold, or the ramp brings HI to or below LO, and the raw output asserts (R229, R230). -/
def State.cmpAssert (s : State) (c : Nat) : State :=
  if !s.alive (cmpDom c) || !s.flag F.CMP_CTL_EN c || !s.cmpAsserts c s.now then s
  else if s.flag F.CMP_STAT_RAW c then s.cmpNote c s.now
  else (s.cmpNote c s.now).cmpRaw c s.now true

/-- The input moves back past the hysteresis and the raw output releases (R229). -/
def State.cmpRelease (s : State) (c : Nat) : State :=
  if !s.alive (cmpDom c) || !s.flag F.CMP_STAT_RAW c || !s.cmpReleases c s.now then s else s.cmpRaw c s.now false

/-- A blanking window ends (R233). -/
def State.cmpBlankEnd (s : State) (c : Nat) : State :=
  match (s.cmp c).blank with
  | none => s
  | some t => ((s.reach t).setCmp c { s.cmp c with blank := none }).cmpShow c t

/-! What edge pairs tell comparators (R231 to R234). -/

/-- The newest of some shadow writes that is on time for a load point of tick t (R231). -/
def shadowTaken (t : Nat) (l : List (Nat × Nat)) : Option Nat := (l.find? (fun w => w.1 + 8 ≤ t)).map (·.2)

/-- The shadow writes that a load point of tick t leaves: those too late for it. -/
def shadowLeft (t : Nat) (l : List (Nat × Nat)) : List (Nat × Nat) := l.takeWhile (fun w => t < w.1 + 8)

/-- A shadow write in ec t beside those not yet taken: one that it can never follow at a load point is forgotten. -/
def shadowPut (t v : Nat) (l : List (Nat × Nat)) : List (Nat × Nat) := (t, v) :: shadowLeft t l ++ (l.dropWhile (fun w => t < w.1 + 8)).take 1

/-- Whether a shadow write is too late for a load point of tick t, of which its own ec could not tell (R231). -/
def shadowLate (t warned : Nat) (l : List (Nat × Nat)) : Bool := l.any (fun w => w.1 < t && t < w.1 + 8 && warned ≤ w.1)

/-- A load point of the linked pair: shadows on time for it are taken and a later one is late, the ramp restarts, and an output that is
asserted at it terminates again in the ec after it (R231, R232, R234). [DEDUCED, log entry 40] -/
def State.cmpLoad (s : State) (c t : Nat) : State :=
  let s := s.cmpNote c (t - 1)
  let x := s.cmp c
  let s := if s.flag F.CMP_CTL_SHADOW c && (shadowLate t x.warned x.hiLog || shadowLate t x.warned x.loLog) then s.setFld F.CMP_STAT_LATE c 1
    else s
  let x := if s.flag F.CMP_CTL_SHADOW c then
      { x with hi := (shadowTaken t x.hiLog).getD x.hi, hiLog := shadowLeft t x.hiLog,
               lo := (shadowTaken t x.loLog).getD x.lo, loLog := shadowLeft t x.loLog }
    else x
  let s := s.setCmp c { x with ramp := if s.flag F.CMP_CTL_RAMPEN c then some (t, x.hiIn t) else none }
  let s := s.cmpCheck c t
  if s.flag F.CMP_STAT_OUT c then s.cmpTerminate c (t + 1) else s

/-- An edge of the linked pair that EDGESEL selects opens a blanking window of a running comparator at the ball (R233).
[DEDUCED, log entry 40] -/
def State.cmpEdge (s : State) (c kind t : Nat) : State :=
  let len := s.fld F.CMP_BLANK_BLANKT c
  if len = 0 ∨ s.flag F.CMP_CTL_EN c = false ∨ bit kind (s.fld F.CMP_BLANK_EDGESEL c) = false then s
  else (s.setCmp c { s.cmp c with blank := some (t + len) }).cmpShow c t

/-- Every comparator linked to a logical pair. -/
def State.cmpLinked (s : State) (n : Nat) : List Nat :=
  (List.range 204).filter (fun c => s.fld F.CMP_CTL_LINK c == n && s.alive (cmpDom c))

/-! Writes (R231, R235). -/

/-- The tick of the next load point of a logical pair: a period start, or a queued edge of output A to active (R231). -/
def State.cmpLambda (s : State) (n : Nat) : Option Nat :=
  let p := s.epPhys n
  if 192 ≤ n then none
  else if s.flag F.EP_CTL_TT p then ((s.ep p).a.queue.find? (·.lvl)).map (fun q => q.at_ / 128)
  else (s.epNextLoad p).map (· / 128)

/-- A write of CTL (R235, R255): refused with CFGERR where R235 says so. -/
def State.cmpCtl (s : State) (c v t : Nat) : State :=
  let link := bits 27 20 v
  if 159 < bits 9 2 v ∨ (192 ≤ link ∧ link ≤ 254) ∨ (bits 13 12 v ≠ 0 ∧ link = 255) then s.setFld F.CMP_STAT_CFGERR c 1
  else
    let s := (s.cmpNote c t).setRegN .CMP_CTL c (v % 2 ^ 28 &&& 0xFF07FFF)
    let x := s.cmp c
    let x := if bit 12 v then x else { x with hi := s.fld F.CMP_HI_HI c, lo := s.fld F.CMP_LO_LO c, hiLog := [], loLog := [] }
    let x := if bit 13 v then x else { x with ramp := none }
    let s := s.setCmp c (if bit 0 v then x else { x with blank := none })
    if bit 0 v then (s.cmpCheck c t).cmpShow c t else s.cmpRaw c t false

/-- A write of HI or LO (R231): from the ec after it, or a shadow under its deadline. -/
def State.cmpThreshold (s : State) (c v t : Nat) (lo : Bool) : State :=
  let w := v % 2 ^ 12
  let s := (s.cmpNote c t).setRegN (if lo then Reg.CMP_LO else Reg.CMP_HI) c w
  let x := s.cmp c
  if s.flag F.CMP_CTL_SHADOW c then
    let s := s.setCmp c (if lo then { x with loLog := shadowPut t w x.loLog } else { x with hiLog := shadowPut t w x.hiLog })
    match s.cmpLambda (s.fld F.CMP_CTL_LINK c) with
    | some l => if t < l ∧ l < t + 8 then (s.setCmp c { s.cmp c with warned := t + 1 }).setFld F.CMP_STAT_LATE c 1 else s
    | none => s
  else
    (s.setCmp c (if lo then { x with lo := w, loWas := some (t, x.loIn t) } else { x with hi := w, hiWas := some (t, x.hiIn t) })).cmpCheck c (t + 1)

/-! Reserves (R236 to R238). -/

/-- The registers that a steering copies (R237). -/
def cmpCopied : List Reg := [.CMP_CTL, .CMP_HI, .CMP_LO, .CMP_HYST, .CMP_RAMP, .CMP_BLANK]

/-- A STEER write of reserve g (R236 to R238): an accepted one copies the settings, on which the reserve runs from then on and forms
its outputs. [DEDUCED, log entry 40] -/
def State.cmpSteer (s : State) (g v : Nat) : State :=
  let m := bits 3 0 v
  let r := 192 + g
  let err (s : State) : State := s.setFld F.CMP_STEER_ERR g 1
  let s := if bit 6 v then s.setFld F.CMP_STEER_ERR g 0 else s
  if bit 4 v then
    if s.flag F.CMP_STEER_ACTIVE g || s.flag F.CMP_CTL_EN r then err s
    else
      let c := 16 * g + m
      let s := cmpCopied.foldl (fun s x => s.setReg x r (s.reg x c)) s
      let s := s.setCmp r (s.cmp c)
      let s := s.setFld F.CMP_STAT_RAW r (b2n (s.flag F.CMP_CTL_EN r && (s.cmpAsserts r s.now || (s.flag F.CMP_STAT_RAW c && !s.cmpReleases r s.now))))
      let s := (s.cmpNote r s.now).cmpShow r s.now
      (((s.setFld F.CMP_STEER_MEMBER g m).setFld F.CMP_STEER_ACTIVE g 1).setFld F.CMP_STEER_BUSY g 1).note .degr
  else if s.inRun then err s
  else
    let was := s.flag F.CMP_STEER_ACTIVE g
    let n := 16 * g + s.fld F.CMP_STEER_MEMBER g
    let s := ((s.setFld F.CMP_STEER_MEMBER g m).setFld F.CMP_STEER_ACTIVE g 0).setFld F.CMP_STEER_BUSY g 0
    let s := ((s.setFld F.CMP_CTL_EN r 0).setFld F.CMP_STAT_RAW r 0).setFld F.CMP_STAT_OUT r 0
    if was then (s.cmpShow n s.now).note .degr else s

/-- The copy ends and the reserve serves the logical comparator (R237). -/
def State.cmpSteerDone (s : State) (g : Nat) : State :=
  if !s.flag F.CMP_STEER_BUSY g then s
  else
    let c := 16 * g + s.fld F.CMP_STEER_MEMBER g
    let s := s.setFld F.CMP_STEER_BUSY g 0
    let s := ((s.setFld F.CMP_CTL_EN c 0).setFld F.CMP_STAT_RAW c 0).setFld F.CMP_STAT_OUT c 0
    s.cmpShow (192 + g) s.now

/-- STAT as it reads: ORDER while the thresholds are out of order, and HIEFF the effective HI of a running comparator (R230, R257).
[DEDUCED, log entry 40] -/
def State.cmpStat (s : State) (c : Nat) : Nat :=
  setBits 16 12 (if s.flag F.CMP_CTL_EN c then s.cmpHi c s.now else 0) ((s.cmpNote c s.now).regN .CMP_STAT c)

end Sys2Proof.Machine
end

