-- ==== Sys2Proof/Machine/F32.lean ====
section
/-! DEFINITION. Binary32 arithmetic as R42, R47 and R63 fix it: rounding to nearest with ties to even, subnormal inputs
taken as zero, results judged for subnormality after rounding, one NaN. -/

namespace Sys2Proof.Machine

/-- What a binary32 word stands for: a NaN, an infinity, or (−1)^neg × m × 2^e with m = 0 for a zero. -/
inductive FVal where
  | nan
  | inf (neg : Bool)
  | fin (neg : Bool) (m : Nat) (e : Int)
  deriving DecidableEq, Repr

/-- The quiet NaN of every NaN result (R42). -/
def fNaN : Word := 0x7FC00000#32

/-- A word read as binary32; a subnormal is taken as zero with the same sign (R42). -/
def fDecode (x : Word) : FVal :=
  let n := x.toNat
  let neg := bit 31 n
  let ex := bits 30 23 n
  let fr := bits 22 0 n
  if ex = 255 then (if fr = 0 then .inf neg else .nan)
  else if ex = 0 then .fin neg 0 0
  else .fin neg (2 ^ 23 + fr) ((ex : Int) - 150)

/-- An infinity. -/
def fInf (neg : Bool) : Word := BitVec.ofNat 32 (b2n neg * 2 ^ 31 + 255 * 2 ^ 23)

/-- A zero. -/
def fZero (neg : Bool) : Word := BitVec.ofNat 32 (b2n neg * 2 ^ 31)

/-- The binary32 nearest to (−1)^neg × (m + something in (0, 1) if sticky) × 2^e, ties to even. The 24-bit rounding is made as
if the exponent were unbounded; only then is a value below 2^−126 written as zero (R42). With sticky, m must have more than
25 bits. -/
def fRound (neg : Bool) (m : Nat) (e : Int) (sticky : Bool) : Word :=
  if m = 0 then fZero neg
  else
    let len := Nat.log2 m + 1
    let (q, ex) :=
      if len ≤ 24 then (m <<< (24 - len), e - (24 - len : Nat))
      else
        let sh := len - 24
        let q := m >>> sh
        let rem := m % 2 ^ sh
        let half := 2 ^ (sh - 1)
        let up := half < rem || (rem == half && (sticky || q % 2 == 1))
        if up then (if q + 1 = 2 ^ 24 then (2 ^ 23, e + (sh : Int) + 1) else (q + 1, e + (sh : Int))) else (q, e + (sh : Int))
    let field := ex + 150
    if field ≤ 0 then fZero neg
    else if 255 ≤ field then fInf neg
    else BitVec.ofNat 32 (b2n neg * 2 ^ 31 + field.toNat * 2 ^ 23 + (q - 2 ^ 23))

/-- The binary32 nearest to z × 2^e; an exact zero has the sign given. -/
def fOfInt (z : Int) (e : Int) (zeroNeg : Bool) : Word :=
  if z = 0 then fZero zeroNeg else fRound (decide (z < 0)) z.natAbs e false

/-- The signed integer m of a finite value, scaled to an exponent not above its own. -/
def fScaled (neg : Bool) (m : Nat) (e e0 : Int) : Int :=
  let v : Int := (m : Int) * ((2 ^ (e - e0).toNat : Nat) : Int)
  if neg then -v else v

/-- The exact sum of two finite values, rounded once. A zero sum of unlike signs is +0. -/
def fSum (n1 : Bool) (m1 : Nat) (e1 : Int) (n2 : Bool) (m2 : Nat) (e2 : Int) : Word :=
  let e0 := if e1 ≤ e2 then e1 else e2
  fOfInt (fScaled n1 m1 e1 e0 + fScaled n2 m2 e2 e0) e0 (n1 && n2)

/-- ra × rb + rc with the sign of the product inverted where asked, rounded once (R63). -/
def fFma (negProd : Bool) (a b c : Word) : Word :=
  match fDecode a, fDecode b, fDecode c with
  | .nan, _, _ => fNaN
  | _, .nan, _ => fNaN
  | _, _, .nan => fNaN
  | .inf n1, .inf n2, .inf n3 => if (n1 ^^ n2 ^^ negProd) = n3 then fInf n3 else fNaN
  | .inf n1, .inf n2, .fin _ _ _ => fInf (n1 ^^ n2 ^^ negProd)
  | .inf n1, .fin n2 m _, .inf n3 => if m = 0 then fNaN else if (n1 ^^ n2 ^^ negProd) = n3 then fInf n3 else fNaN
  | .inf n1, .fin n2 m _, .fin _ _ _ => if m = 0 then fNaN else fInf (n1 ^^ n2 ^^ negProd)
  | .fin n1 m _, .inf n2, .inf n3 => if m = 0 then fNaN else if (n1 ^^ n2 ^^ negProd) = n3 then fInf n3 else fNaN
  | .fin n1 m _, .inf n2, .fin _ _ _ => if m = 0 then fNaN else fInf (n1 ^^ n2 ^^ negProd)
  | .fin _ _ _, .fin _ _ _, .inf n3 => fInf n3
  | .fin n1 m1 e1, .fin n2 m2 e2, .fin n3 m3 e3 => fSum (n1 ^^ n2 ^^ negProd) (m1 * m2) (e1 + e2) n3 m3 e3

/-- Addition, with the sign of the second operand inverted where asked (FADD, FSUB). -/
def fAdd (negB : Bool) (a b : Word) : Word :=
  match fDecode a, fDecode b with
  | .nan, _ => fNaN
  | _, .nan => fNaN
  | .inf n1, .inf n2 => if n1 = (n2 ^^ negB) then fInf n1 else fNaN
  | .inf n1, .fin _ _ _ => fInf n1
  | .fin _ _ _, .inf n2 => fInf (n2 ^^ negB)
  | .fin n1 m1 e1, .fin n2 m2 e2 => fSum n1 m1 e1 (n2 ^^ negB) m2 e2

/-- Multiplication. -/
def fMul (a b : Word) : Word :=
  match fDecode a, fDecode b with
  | .nan, _ => fNaN
  | _, .nan => fNaN
  | .inf n1, .inf n2 => fInf (n1 ^^ n2)
  | .inf n1, .fin n2 m _ => if m = 0 then fNaN else fInf (n1 ^^ n2)
  | .fin n1 m _, .inf n2 => if m = 0 then fNaN else fInf (n1 ^^ n2)
  | .fin n1 m1 e1, .fin n2 m2 e2 => fRound (n1 ^^ n2) (m1 * m2) (e1 + e2) false

/-- Division (R63). -/
def fDiv (a b : Word) : Word :=
  match fDecode a, fDecode b with
  | .nan, _ => fNaN
  | _, .nan => fNaN
  | .inf _, .inf _ => fNaN
  | .inf n1, .fin n2 _ _ => fInf (n1 ^^ n2)
  | .fin n1 _ _, .inf n2 => fZero (n1 ^^ n2)
  | .fin n1 m1 e1, .fin n2 m2 e2 =>
    if m2 = 0 then (if m1 = 0 then fNaN else fInf (n1 ^^ n2))
    else if m1 = 0 then fZero (n1 ^^ n2)
    else
      let num := m1 <<< 50
      fRound (n1 ^^ n2) (num / m2) (e1 - e2 - 50) (num % m2 != 0)

/-- The integer square root of a number below 2^88. -/
def isqrt (n : Nat) : Nat :=
  repeatN 44 (fun i r => let t := r + 2 ^ (43 - i); if t * t ≤ n then t else r) 0

/-- Square root (R63). -/
def fSqrt (a : Word) : Word :=
  match fDecode a with
  | .nan => fNaN
  | .inf neg => if neg then fNaN else fInf false
  | .fin neg m e =>
    if m = 0 then fZero neg
    else if neg then fNaN
    else
      let (m, e) := if e % 2 = 0 then (m, e) else (2 * m, e - 1)
      let n := m <<< 60
      let r := isqrt n
      fRound false r ((e - 60) / 2) (r * r != n)

/-- A word with a subnormal taken as the zero of its sign. -/
def fFlush (a : Word) : Word :=
  match fDecode a with
  | .fin neg 0 _ => fZero neg
  | _ => a

/-- Whether a NaN. -/
def fIsNaN (a : Word) : Bool := fDecode a == .nan

/-- The integer order of a binary32 that is no NaN: larger words for larger values, −0 below +0. -/
def fOrder (a : Word) : Int :=
  let n := (fFlush a).toNat
  if n < 2 ^ 31 then (n : Int) else -((n : Int) - 2 ^ 31) - 1

/-- Less, false with a NaN; −0 equals +0 (R47). -/
def fLt (a b : Word) : Bool :=
  !fIsNaN a && !fIsNaN b && decide (fOrder a < fOrder b) &&
    !((fFlush a).toNat % 2 ^ 31 == 0 && (fFlush b).toNat % 2 ^ 31 == 0)

/-- Greater or equal, false with a NaN; −0 equals +0 (R47). -/
def fGe (a b : Word) : Bool := !fIsNaN a && !fIsNaN b && !fLt a b

/-- Minimum (R63). -/
def fMin (a b : Word) : Word :=
  if fIsNaN a then (if fIsNaN b then fNaN else fFlush b)
  else if fIsNaN b then fFlush a
  else if fOrder a ≤ fOrder b then fFlush a else fFlush b

/-- Maximum (R63). -/
def fMax (a b : Word) : Word :=
  if fIsNaN a then (if fIsNaN b then fNaN else fFlush b)
  else if fIsNaN b then fFlush a
  else if fOrder b ≤ fOrder a then fFlush a else fFlush b

/-- Absolute value (R63). -/
def fAbs (a : Word) : Word := if fIsNaN a then fNaN else fFlush a &&& 0x7FFFFFFF#32

/-- Negation (R63). -/
def fNeg (a : Word) : Word := if fIsNaN a then fNaN else fFlush a ^^^ 0x80000000#32

/-- The integer nearest to m × 2^e, ties to even. -/
def fToNat (m : Nat) (e : Int) : Nat :=
  if 0 ≤ e then m <<< e.toNat
  else
    let sh := (-e).toNat
    let q := m >>> sh
    let rem := m % 2 ^ sh
    let half := 2 ^ (sh - 1)
    if half < rem || (rem == half && q % 2 == 1) then q + 1 else q

/-- A binary32 times 2^k converted to a signed 32-bit integer: nearest, ties to even, saturated, 0 for a NaN (R42, R63). -/
def fToInt (k : Int) (a : Word) : Int :=
  match fDecode a with
  | .nan => 0
  | .inf neg => if neg then -2 ^ 31 else 2 ^ 31 - 1
  | .fin neg m e =>
    let e := e + k
    let v : Int := if 40 < e then (if m = 0 then 0 else 2 ^ 40) else (fToNat m e : Int)
    clampI (-2 ^ 31) (2 ^ 31 - 1) (if neg then -v else v)

/-- A signed 32-bit integer times 2^k converted to binary32, nearest, ties to even (R63). -/
def fFromInt (k : Int) (a : Word) : Word := fOfInt a.toInt k false

end Sys2Proof.Machine
end

