-- ==== Sys2Proof/Machine/Cv.lean ====
section
/-! DEFINITION. Converters (R194 to R226): triggers, scans, result formats, delivery to sample ports, the rotation of the spare
slice, and calibration. -/

namespace Sys2Proof.Machine

/-- A converter. -/
def State.conv (s : State) (c : Nat) : Conv := Tab.look (fun _ => Conv.init) s.convs c
/-- A converter given a state. -/
def State.setConv (s : State) (c : Nat) (x : Conv) : State := { s with convs := Tab.put (fun _ => Conv.init) s.convs c x }
/-- A converter group's rotation. -/
def State.rot (s : State) (g : Nat) : Rot := Tab.look (fun _ => Rot.init) s.rots g
/-- A converter group's rotation given a state. -/
def State.setRot (s : State) (g : Nat) (x : Rot) : State := { s with rots := Tab.put (fun _ => Rot.init) s.rots g x }

/-- The domain of a converter or of a group's slices (R9). -/
def cvDom (c : Nat) : Nat := anaDom (c < 32)

/-- The length of a scan ends its last position (R201). -/
def Scan.stop (x : Scan) : Nat := x.at_ + x.srcs.length * x.pace * 128

/-- The scan in progress. -/
def Conv.running (x : Conv) : Option Scan := x.scans.find? (fun y => !y.ended)

/-- BUSY, and the slice that serves (R210, R223). -/
def State.cvShow (s : State) (c : Nat) : State :=
  let x := s.conv c
  s.setFld F.CV_STAT_BUSY c (b2n (x.pend.isSome || x.running.isSome))

/-- The local slice that serves local converter k with spare position sp (R210). -/
def sliceOf (sp k : Nat) : Nat := if k < sp then k else k + 1

/-- The slice that stands for a converter, by the spare position of its group (R210). -/
def State.cvSlice (s : State) (c : Nat) : Nat := 9 * (c / 8) + sliceOf (s.fld F.CV_ROTSTAT_SPARE (c / 8)) (c % 8)

/-- STAT as it reads: SLICE names the slice that serves, and 0 while the slice still makes its first calibration and so serves
nothing (R218, R223, R225). -/
def State.cvStat (s : State) (c : Nat) : Nat :=
  setBits 9 4 (if s.fld F.SL_STAT_STATE (s.cvSlice c) = 0 then s.cvSlice c - 9 * (c / 8) else 0) (s.regN .CV_STAT c)

/-! Triggers (R198 to R200). -/

/-- An overrun (R200). -/
def State.cvOverrun (s : State) (c t : Nat) (cause : Option Lineage) : State :=
  ((s.setFld F.CV_STAT_OVR c 1).bump F.CV_COUNT_OVRCNT F.CV_COUNT_OVRSAT c).emit (0x581 + 4 * c) t (cvDom c) cause

/-- A trigger presented in ec t with a sample instant (R200). -/
def State.cvPresent (s : State) (c inst t : Nat) (cause : Option Lineage) : State :=
  let x := s.conv c
  if !s.alive (cvDom c) || !s.flag F.CV_CTL_EN c then s
  else if !s.flag F.CV_ROTSTAT_CALDONE (c / 8) then s.setFld F.CV_STAT_NRDY c 1
  else match x.pend with
    | some p => if p.1 = inst then s else s.cvOverrun c t cause
    | none =>
      if (match x.running with | some y => decide (inst < y.stop) | none => false) then s.cvOverrun c t cause
      else (s.setConv c { x with pend := some (inst, cause) }).cvShow c

/-- A software trigger in ec t (R198). -/
def State.cvSoft (s : State) (c t : Nat) : State := s.cvPresent c ((t + 8) * 128) t none

/-- An event trigger that arrives in ec t (R198); it inherits the lineage of its event (R320). -/
def State.cvEvent (s : State) (c t : Nat) (cause : Lineage) : State :=
  if bit 1 (s.fld F.CV_CTL_TRIGSEL c) then
    s.cvPresent c ((t + 8) * 128 + s.fld F.CV_EVDLY_DELAY c) t (some cause)
  else s

/-- The timed trigger armed in ec t (R199). -/
def State.cvArm (s : State) (c t : Nat) : State :=
  let first := s.pair .CV_TRIGL .CV_TRIGH c * 128 + s.fld F.CV_TRIGF_FINE c
  let per := s.regN .CV_TPER c * 128
  let lim := (t + 8) * 128
  let next := if lim ≤ first then first
    else if per = 0 then lim + s.fld F.CV_TRIGF_FINE c
    else first + (lim - first + per - 1) / per * per
  let s := (s.setConv c { s.conv c with next := next }).setFld F.CV_CTL_ARM c 1
  if first < lim then s.setFld F.CV_STAT_LATE c 1 else s

/-- The next instant of the timed trigger is presented 8 qt ahead (R198, R199); a one-shot clears ARM, lost or not.
[DESIGN CHOICE, log entry 132] -/
def State.cvTimed (s : State) (c : Nat) : State :=
  if !s.flag F.CV_CTL_ARM c then s
  else
    let x := s.conv c
    let t := x.next / 128 - 8
    let s := s.reach t
    let per := s.regN .CV_TPER c * 128
    let s := if per = 0 then s.setFld F.CV_CTL_ARM c 0 else s.setConv c { x with next := x.next + per }
    if bit 0 (s.fld F.CV_CTL_TRIGSEL c) then s.cvPresent c x.next t none else s

/-! Rotation (R210 to R215). -/

/-- The local converter that the next hand-over of a group concerns, and whether it steps up (R210). [DESIGN CHOICE, log entry 32] -/
def State.rotNext (s : State) (g : Nat) : Nat × Bool :=
  let sp := s.fld F.CV_ROTSTAT_SPARE g
  if s.flag F.CV_ROTSTAT_DIR g then (sp - 1, false) else (sp, true)

/-- A slice's state code and the converter it serves (R225). [DEDUCED, log entry 31] -/
def State.setSlice (s : State) (n st conv : Nat) : State := (s.setFld F.SL_STAT_STATE n st).setFld F.SL_STAT_CONV n conv

/-- Whether the hand-over that waits may begin: the spare is calibrated (R210). -/
def State.rotReady (s : State) (g : Nat) : Bool :=
  (s.rot g).due.isSome && s.flag F.CV_ROT_ROTEN g && !s.flag F.CV_ROTSTAT_NOSPARE g &&
    s.fld F.SL_STAT_STATE (9 * g + s.fld F.CV_ROTSTAT_SPARE g) == 2

/-- The hand-over is made: the spare serves the converter, and the slice that served it takes a state (R210, R211). -/
def State.rotStep (s : State) (g outState : Nat) : State :=
  let sp := s.fld F.CV_ROTSTAT_SPARE g
  let (k, up) := s.rotNext g
  let out := if up then sp + 1 else sp - 1
  let s := (s.setSlice (9 * g + sp) 0 k).setSlice (9 * g + out) outState 0
  let s := s.setFld F.CV_ROTSTAT_SPARE g out
  if out = 8 then s.setFld F.CV_ROTSTAT_DIR g 1 else if out = 0 then s.setFld F.CV_ROTSTAT_DIR g 0 else s

/-- ROTINT in qt; below 100 it acts as 100 (R224). [DESIGN CHOICE, log entry 32] -/
def State.rotInt (s : State) (g : Nat) : Nat := max 100 (s.fld F.CV_ROT_ROTINT g) * 1250

/-- The hand-over that waited is settled, and the next becomes due ROTINT after it was (R210). [DEDUCED, log entry 31] -/
def State.rotSettle (s : State) (g : Nat) (retry : Bool) : State :=
  let x := s.rot g
  s.setRot g ⟨x.due.map (fun d => max s.now (d + s.rotInt g)), none, retry⟩

/-- A hand-over becomes due (R210). -/
def State.rotDue (s : State) (g : Nat) : State :=
  match (s.rot g).next with
  | none => s
  | some t =>
    if !s.flag F.CV_ROT_ROTEN g || s.flag F.CV_ROTSTAT_NOSPARE g then s
    else
      let s := s.reach t
      s.setRot g { s.rot g with next := none, due := some t }

/-- A write of ROT (R210, R224). ROTEN cleared forgets the hand-over that waits and a first failure, but not a hand-over scan in progress,
which still steps at its end. [DESIGN CHOICE, log entry 132] -/
def State.rotWrite (s : State) (g v : Nat) : State :=
  let was := s.flag F.CV_ROT_ROTEN g
  let s := s.setRegN .CV_ROT g (v % 2 ^ 25)
  if bit 0 v then
    if was then s else s.setRot g ⟨some (s.now + s.rotInt g), none, false⟩
  else s.setRot g .init

/-- A group loses its spare (R215). -/
def State.rotNoSpare (s : State) (g : Nat) : State :=
  ((s.setFld F.CV_ROTSTAT_NOSPARE g 1).setRot g .init).note .degr

/-- A hand-over not made within ROTINT of its due instant is made without comparison once the converter has no scan (R213): a scan that
started meanwhile was no hand-over scan where the spare was not ready. [DESIGN CHOICE, log entry 132] -/
def State.rotUnchecked (s : State) (g : Nat) : State :=
  match (s.rot g).due with
  | none => s
  | some d =>
    let c := 8 * g + (s.rotNext g).1
    if !s.rotReady g || (s.conv c).pend.isSome || (s.conv c).running.isSome then s
    else
      let s := s.reach (d + s.rotInt g)
      let s := (s.setFld F.CV_STAT_UNCHECKED c 1).bump F.CV_ROTSTAT_UNCHKCNT F.CV_ROTSTAT_UNCHKSAT g
      (s.rotStep g 1).rotSettle g false

/-- Whether the corrections that a calibration found, an offset in 1/16 code and a gain in units of 2^-20, lie within ±64 codes and
±1 % (R215, R225). -/
def calPasses (offs gainc : Nat) : Bool :=
  decide ((sext 16 offs).natAbs ≤ 64 * 16) && decide ((sext 16 gainc).natAbs * 100 ≤ 2 ^ 20)

/-- A calibration of a slice ends with the corrections it found, and fails where they exceed their limits or do not even fit the fields
of SL.CAL (R215, R218): the first calibrations of all nine slices set CALDONE. [DESIGN CHOICE, log entry 30] -/
def State.calDone (s : State) (n : Nat) (fits : Bool) (offs gainc : Nat) : State :=
  let g := n / 9
  let j := n % 9
  let sp := s.fld F.CV_ROTSTAT_SPARE g
  if !s.alive (anaDom (n < 36)) || s.fld F.SL_STAT_STATE n != 1 then s
  else
    let s :=
      if fits && calPasses offs gainc then
        let s := (s.setRegN .SL_CAL n (offs % 2 ^ 16 + gainc % 2 ^ 16 * 2 ^ 16)).bump F.SL_STAT_CALCNT F.SL_STAT_CALSAT n
        if j = sp then s.setSlice n 2 0 else s.setSlice n 0 (if j < sp then j else j - 1)
      else
        let s := ((s.setSlice n 3 0).setFld F.SL_STAT_CALFAIL n 1).raiseEv (anaDom (n < 36)) 9 (8 * g + min j 7)
        let s := if j = sp then s else
          repeatN 9 (fun i s => if s.fld F.SL_STAT_STATE (9 * g + i) == 0 || (i == sp && s.fld F.SL_STAT_STATE (9 * g + i) == 2) then
            s.setSlice (9 * g + i) 0 (if i < j then i else i - 1) else s) (s.setFld F.CV_ROTSTAT_SPARE g j)
        s.rotNoSpare g
    if (List.range 9).all (fun i => s.fld F.SL_STAT_STATE (9 * g + i) != 1) then s.setFld F.CV_ROTSTAT_CALDONE g 1 else s

/-! Scans (R201, R202, R207, R211, R212). -/

/-- The registers that a scan start takes into use (R202). -/
def cvSets : List Reg := [.CV_CTL, .CV_SCAN, .CV_GAIN, .CV_FRONT, .CV_USCALE, .CV_UOFF]

/-- What a scan start takes into use, kept for the ec of a write of it: a scan that starts in that ec is made with it (R202). -/
def State.cvHold (s : State) (c t : Nat) : State :=
  let x := s.conv c
  if x.setAt = t + 1 then s else s.setConv c { x with setAt := t + 1, setWas := cvSets.map (fun r => (r.key 0, s.reg r c)) }

/-- A register as the scan start of ec t takes it (R202). -/
def State.cvSet (s : State) (c t : Nat) (r : Reg) : Word :=
  let x := s.conv c
  match (if x.setAt = t + 1 then x.setWas.find? (fun w => w.1 == r.key 0) else none) with
  | some w => w.2
  | none => s.reg r c

/-- A field as the scan start of ec t takes it. -/
def State.cvField (s : State) (c t : Nat) (f : Fld) : Nat := bits (f.lo + f.width - 1) f.lo (s.cvSet c t f.reg).toNat

/-- The pending trigger's scan begins (R201, R202, R211); a scan mask of 0 starts none. -/
def State.cvStart (s : State) (c : Nat) : State :=
  let x := s.conv c
  match x.pend with
  | none => s
  | some (inst, cause) =>
    let t := inst / 128
    let s := s.reach t
    let srcs := (List.range 12).filter (fun i => bit i (s.cvField c t F.CV_SCAN_MASK))
    if srcs.isEmpty then (s.setConv c { x with pend := none }).cvShow c
    else
      let g := c / 8
      let hand := s.rotReady g && (s.rotNext g).1 == c % 8
      let sc : Scan := { at_ := inst, srcs := srcs, pace := max 50 (s.cvField c t F.CV_CTL_PACE), fmt := s.cvField c t F.CV_CTL_FMT,
                         gain := (s.cvSet c t .CV_GAIN).toNat, bias := s.cvField c t F.CV_FRONT_BIAS, scale := s.cvSet c t .CV_USCALE,
                         offs := s.cvSet c t .CV_UOFF, done := 0, hand := hand, slice := s.cvSlice c, codes := [], seqs := [], comp := 0, fails := [],
                         ended := false, cause := cause }
      (s.setConv c { x with pend := none, scans := x.scans ++ [sc] }).cvShow c

/-- The next sequence number of a source (R205). -/
def State.cvSeq (s : State) (c src : Nat) : Nat × State :=
  let x := s.conv c
  let q := (Tab.look (fun _ => 0) x.seq src + 1) % 256
  (q, s.setConv c { x with seq := Tab.put (fun _ => 0) x.seq src q })

/-- The gain exponent of a source (R196). -/
def Scan.gainExp (x : Scan) (src : Nat) : Nat := if src < 9 then bits (3 * src + 2) (3 * src) x.gain else 0

/-- Whether a source is differential (R195). -/
def isDiff (src : Nat) : Bool := decide (5 ≤ src) && decide (src < 9)

/-- A quotient by 2^k rounded to nearest, ties to even. [DESIGN CHOICE, log entry 121] -/
def rndShift (k : Nat) (z : Int) : Int :=
  let r := z % 2 ^ k
  let q := z / 2 ^ k
  if r * 2 < 2 ^ k ∨ r * 2 = 2 ^ k ∧ q % 2 = 0 then q else q + 1

/-- The code of an input before its clamp (R195, R197): z is the input in units of 2^-28 of 2.5 V (the difference of the two pins
for a differential source), and for source 11 the temperature in units of 2^-16 °C. [DESIGN CHOICE, log entry 121] -/
def Scan.rawCode (x : Scan) (src : Nat) (z : Int) : Int :=
  let g : Int := z * 2 ^ x.gainExp src
  if src = 11 then rndShift 9 (z + 64 * 2 ^ 16)
  else if isDiff src then rndShift 13 g
  else if src = 9 ∨ (src < 5 ∧ bit src x.bias = true) then rndShift 12 g + 32768
  else rndShift 12 g

/-- A code with the offset and the gain correction of the slice that made it, held in its range (R197, R225).
[DESIGN CHOICE, log entry 121] -/
def calCode (cal src : Nat) (raw : Int) : Nat :=
  let z := rndShift 24 ((raw * 16 + sext 16 (bits 15 0 cal)) * (2 ^ 20 + sext 16 (bits 31 16 cal)))
  wrapTo 16 (if isDiff src then clampI (-32768) 32767 z else clampI 0 65535 z)

/-- The corrected code that a slice makes of an input of a scan's source (R197). -/
def State.sliceCode (s : State) (x : Scan) (n src : Nat) (z : Int) : Nat := calCode (s.regN .SL_CAL n) src (x.rawCode src z)

/-- The input value of a code in the SCALED format (R204). -/
def Scan.scaled (x : Scan) (src code : Nat) : Word :=
  let g : Int := x.gainExp src
  if src = 11 then fOfInt ((code : Int) - 8192) (-7) false
  else
    let v :=
      if isDiff src then fOfInt (5 * sext 16 code) (-16 - g) false
      else if src = 9 ∨ (src < 5 ∧ bit src x.bias = true) then fOfInt (5 * ((code : Int) - 32768)) (-17 - g) false
      else fOfInt (5 * (code : Int)) (-17 - g) false
    fMul (fAdd true v x.offs) x.scale

/-- The result word of a position (R203, R204). -/
def Scan.word (x : Scan) (src code seq : Nat) (err : Bool) : Word :=
  match x.fmt with
  | 0 => BitVec.ofNat 32 (code + seq * 2 ^ 16 + b2n err * 2 ^ 31)
  | 1 => BitVec.ofNat 32 (code * 2 ^ 16)
  | _ => x.scaled src code

/-- Whether a code lies at an end of its range (R197). -/
def codeClamped (src code : Nat) : Bool :=
  if isDiff src then code == 0x8000 || code == 0x7FFF else code == 0 || code == 0xFFFF

/-- Where a sample-port binding of a bank lies (R149, R581). -/
def bindAddr (b e p : Nat) : Nat := sqBase (e / 8) + 0xB9000 + b * 0x1000 + e % 8 * 0x200 + 4 * p

/-- A word delivered in ec t to every sample port that the active bank binds to a converter and source, in powered squares
(R207, R208). -/
def State.cvDeliver (s : State) (c src t : Nat) (w : Word) : State :=
  if !s.bankOn then s
  else repeatN 4096 (fun i s =>
    let e := i / 8
    let p := i % 8
    let a := bindAddr s.bank e p
    if s.alive (sqDom (e / 8)) && (s.byte a).toNat == c && (s.byte (a + 1)).toNat == src then
      let g := s.engine e
      s.setEng e { g with sp := Tab.put (fun _ => 0) g.sp p w, spOld := Tab.put (fun _ => 0) g.spOld p (Tab.look (fun _ => 0) g.sp p),
                          spAt := Tab.put (fun _ => 0) g.spAt p (t + 1) }
    else s) s

/-- The first scan of a converter with a position still to deliver, as its place in the list. -/
def Conv.toDeliver (x : Conv) : Option Nat := x.scans.findIdx? (fun y => y.done < y.srcs.length)

/-- A scan that has ended and delivered everything leaves the list. -/
def Conv.tidy (x : Conv) : Conv := { x with scans := x.scans.filter (fun y => !(y.ended && y.srcs.length ≤ y.done)) }

/-- The corrected code of the next position to deliver, from its input: in a hand-over scan the code of the outgoing slice that was
compared (R197, R211). -/
def State.cvCode (s : State) (c : Nat) (z : Int) : Nat :=
  match (s.conv c).toDeliver.bind (fun i => (s.conv c).scans[i]?) with
  | none => 0
  | some y => (y.codes[y.done]?).getD (s.sliceCode y y.slice (y.srcs.getD y.done 0) z)

/-- The next position's result, with the corrected code of its slice, goes to the sample ports and LAST; the last position sends
the scan-end event (R197, R205, R207, R314). -/
def State.cvPosition (s : State) (c code : Nat) : State :=
  match (s.conv c).toDeliver with
  | none => s
  | some i =>
    match (s.conv c).scans[i]? with
    | none => s
    | some y =>
      let k := y.done
      let src := y.srcs.getD k 0
      let t := y.at_ / 128 + k * y.pace + 56
      let s := s.reach t
      let (q, s) := match y.seqs with
        | q :: _ => (q, s)
        | [] => s.cvSeq c src
      let err := y.fails.contains k
      let x := s.conv c
      let s := s.setConv c { x with scans := x.scans.set i { y with done := k + 1, seqs := y.seqs.tail } }.tidy
      let s := s.cvDeliver c src t (y.word src code q err)
      let s := s.setRegN .CV_LAST c (code + src * 2 ^ 16 + q * 2 ^ 20 + b2n err * 2 ^ 28)
      let s := if codeClamped src code then
          ((s.setFld F.CV_STAT_RANGE c 1).bump F.CV_COUNT_RANGECNT F.CV_COUNT_RANGESAT c).emit (0x580 + 4 * c) t (cvDom c) y.cause
        else s
      if k + 1 = y.srcs.length then s.emit (0x583 + 4 * c) t (cvDom c) y.cause else s

/-- The tolerance of a hand-over compare; 0 acts as 1 (R224). -/
def State.cvTol (s : State) (g : Nat) : Nat := max 1 (s.fld F.CV_ROT_CMPTOL g)

/-- The corrected codes that the outgoing and the incoming slice make of their inputs at the next position of a hand-over scan are
compared (R211, R212). [DESIGN CHOICE, log entry 30] -/
def State.cvCompare (s : State) (c : Nat) (a b : Int) : State :=
  match (s.conv c).running with
  | none => s
  | some y =>
    if !y.hand || y.srcs.length ≤ y.comp then s
    else
      let k := y.comp
      let t := y.at_ / 128 + k * y.pace + 48
      let s := s.reach t
      let src := y.srcs.getD k 0
      let ka := s.sliceCode y y.slice src a
      let kb := s.sliceCode y (9 * (c / 8) + s.fld F.CV_ROTSTAT_SPARE (c / 8)) src b
      let za := if isDiff src then sext 16 ka else (ka : Int)
      let zb := if isDiff src then sext 16 kb else (kb : Int)
      let ok := decide ((za - zb).natAbs ≤ s.cvTol (c / 8))
      let x := s.conv c
      let y' := { y with comp := k + 1, codes := y.codes ++ [ka], fails := if ok then y.fails else y.fails ++ [k] }
      let s := s.setConv c { x with scans := x.scans.map (fun (z : Scan) => if z.at_ = y.at_ then y' else z) }
      if ok ∨ y.fails ≠ [] then s
      else
        let s := (s.setFld F.CV_STAT_MISMATCH c 1).bump F.CV_ROTSTAT_MISCNT F.CV_ROTSTAT_MISSAT (c / 8)
        (s.emit (0x582 + 4 * c) t (cvDom c) y.cause).raiseEv (cvDom c) 9 c

/-- The sequence numbers of the positions of a scan that are sampled and not yet delivered, drawn in order (R205). -/
def State.cvDraw (s : State) (c : Nat) (srcs : List Nat) : List Nat × State :=
  srcs.foldl (fun (a : List Nat × State) src => let (q, s) := a.2.cvSeq c src; (a.1 ++ [q], s)) ([], s)

/-- The scan in progress ends, and with it its hand-over (R201, R211, R212). -/
def State.cvEnd (s : State) (c : Nat) : State :=
  match (s.conv c).running with
  | none => s
  | some y =>
    let (qs, s) := (s.reach (y.stop / 128)).cvDraw c (y.srcs.drop y.done)
    let x := s.conv c
    let s := (s.setConv c { x with scans := x.scans.map (fun (z : Scan) => if z.at_ = y.at_ then { z with ended := true, seqs := qs } else z) }.tidy).cvShow c
    let g := c / 8
    if !y.hand || y.comp < y.srcs.length then s
    else if y.fails = [] then (s.rotStep g 1).rotSettle g false
    else if (s.rot g).retry then ((s.rotStep g 3).rotSettle g false).rotNoSpare g
    else
      let sp := s.fld F.CV_ROTSTAT_SPARE g
      (s.setSlice (9 * g + sp) 1 0).rotSettle g true

/-- EN written 0 in ec t (R202, R214): the scan in progress, what it has not delivered and the pending scan are dropped, and ARM
clears; a scan that has ended delivers what it holds. Positions already sampled have taken their sequence numbers (R205). -/
def State.cvDisable (s : State) (c t : Nat) : State :=
  let x := s.conv c
  let sampled := (x.scans.filter (fun y => !y.ended)).flatMap (fun y => (List.range y.srcs.length).filterMap (fun k =>
    if y.done ≤ k && decide (y.at_ / 128 + k * y.pace ≤ t) then y.srcs[k]? else none))
  let s := sampled.foldl (fun s src => (s.cvSeq c src).2) s
  let s := (s.setConv c { s.conv c with pend := none, scans := x.scans.filter (fun y => y.ended) }).setFld F.CV_CTL_ARM c 0
  (s.setFld F.CV_CTL_EN c 0).cvShow c

/-! Writes (R199, R206, R221, R222). -/

/-- A write of CTL in ec t. -/
def State.cvCtl (s : State) (c v t : Nat) : State :=
  if bits 2 1 v = 3 then s.setFld F.CV_STAT_CFGERR c 1
  else
    let armed := s.flag F.CV_CTL_ARM c
    let s := s.setRegN .CV_CTL c (setBits 5 3 (b2n armed) v % 2 ^ 20)
    if !bit 0 v then s.cvDisable c t
    else
      let s := if bit 5 v then (if armed then s else s.cvArm c t) else s.setFld F.CV_CTL_ARM c 0
      if bit 6 v then s.cvSoft c t else s

/-- Whether a GAIN value carries a reserved code (R196, R206). -/
def gainReserved (v : Nat) : Bool := (List.range 9).any (fun i => decide (4 < bits (3 * i + 2) (3 * i) v))

/-- A write of a data register of a converter in ec t. -/
def State.cvWrite (s : State) (r : Reg) (c v t : Nat) : State :=
  let s := if cvSets.contains r then s.cvHold c t else s
  match r with
  | .CV_CTL => s.cvCtl c v t
  | .CV_SCAN => if v / 2 ^ 12 = 0 then s.setRegN r c v else s.setFld F.CV_STAT_CFGERR c 1
  | .CV_GAIN => if gainReserved v then s.setFld F.CV_STAT_CFGERR c 1 else s.setRegN r c (v % 2 ^ 27)
  | .CV_TRIGL => if s.flag F.CV_CTL_ARM c then s.setFld F.CV_STAT_WERR c 1 else s.setRegN r c v
  | .CV_TRIGH => if s.flag F.CV_CTL_ARM c then s.setFld F.CV_STAT_WERR c 1 else s.setRegN r c v
  | .CV_TPER => if s.flag F.CV_CTL_ARM c then s.setFld F.CV_STAT_WERR c 1 else s.setRegN r c v
  | .CV_TRIGF => (s.setRegN r c (v % 2 ^ 7)).cvArm c t
  | _ => s

end Sys2Proof.Machine
end

