-- ==== Sys2Proof/Machine/Dlk.lean ====
section
/-! DEFINITION. Driver links (R331 to R356): states, frames sent and received, time transfer, edges over the link, trips and faults. -/

namespace Sys2Proof.Machine

/-- A driver link. -/
def State.dlk (s : State) (d : Nat) : Dlk := Tab.look (fun _ => Dlk.init) s.dlks d
/-- A driver link given a state. -/
def State.setDlk (s : State) (d : Nat) (x : Dlk) : State := { s with dlks := Tab.put (fun _ => Dlk.init) s.dlks d x }
/-- A driver link changed. -/
def State.modDlk (s : State) (d : Nat) (f : Dlk → Dlk) : State := s.setDlk d (f (s.dlk d))

/-- The state of a link (R337): 0 OFF, 1 TRAIN, 2 MEASURE, 3 UP, 4 LOST. -/
def State.dlkSt (s : State) (d : Nat) : Nat := s.fld F.DLK_STAT_STATE d

/-- HBPER and RXTO in use (R355). -/
def State.hbPer (s : State) (d : Nat) : Nat := min 10000 (max 625 (s.fld F.DLK_TIMING_HBPER d))
/-- RXTO in use (R355). -/
def State.rxTo (s : State) (d : Nat) : Nat := min 3750 (max 625 (s.fld F.DLK_TIMING_RXTO d))

/-- An event of a link (R349). -/
def State.dlkEvent (s : State) (d j t : Nat) : State := s.emit (0x8C0 + 4 * d + j) t 17 none

/-- Flint source 256 + d follows FAULTACT, EN and the state (R348). -/
def State.dlkFlint (s : State) (d : Nat) : State :=
  s.fltLevel (256 + d) (s.flag F.DLK_STAT_FAULTACT d || (s.flag F.DLK_CTL_EN d && s.dlkSt d != 3)) s.now

/-- Everything not yet sent discarded: on leaving UP, and in OFF (R337, R353). -/
def Dlk.clear (x : Dlk) : Dlk := { x with dreq := false, hb := none, trips := [], flush := [], pend := [], flight := [], tx := none }

/-- A link's state code given. -/
def State.dlkGo (s : State) (d st : Nat) : State :=
  let s := if s.dlkSt d = 3 ∨ st = 0 then s.modDlk d Dlk.clear else s
  (s.setFld F.DLK_STAT_STATE d st).dlkFlint d

/-- Entry into TRAIN (R337). -/
def State.dlkTrain (s : State) (d : Nat) : State :=
  (s.modDlk d (fun x => { x.clear with train := s.now, echo := [], meas := [], rx := s.now })).dlkGo d 1

/-- Entry into LOST with its cause (R337, R349). -/
def State.dlkLost (s : State) (d cause : Nat) : State :=
  ((s.setFld F.DLK_STAT_LCAUSE d cause).dlkGo d 4).dlkEvent d 1 s.now

/-! Enabling and state changes (R337, R342, R352). -/

/-- Another link bound to a pair (R342). -/
def State.dlkBound (s : State) (d n : Nat) : Bool :=
  (List.range 64).any (fun i => i != d && s.flag F.DLK_CTL_BIND i && s.fld F.DLK_CTL_PAIR i == n)

/-- A write of CTL (R337, R342, R352, R355). -/
def State.dlkCtl (s : State) (d v : Nat) : State :=
  let old := s.regN .DLK_CTL d
  let werr (s : State) : State := s.setFld F.DLK_STAT_WERR d 1
  let locked := 0xF7FF
  if s.inRun && decide ((old &&& locked) ≠ (v &&& locked)) then werr s
  else if 191 < bits 9 2 v ∨ (bit 1 v = true ∧ s.dlkBound d (bits 9 2 v) = true) then werr s
  else
    let s := s.setRegN .DLK_CTL d (v &&& 0x1F7FF)
    if !bit 0 v then (if bit 0 old then s.dlkGo d 0 else s)
    else if !bit 0 old then s.dlkTrain d
    else if bit 11 v && s.dlkSt d != 0 then (s.setFld F.DLK_STAT_LCAUSE d 5).dlkTrain d
    else s

/-- A write of TIMING, discarded in RUN where it changes anything (R352). -/
def State.dlkTiming (s : State) (d v : Nat) : State :=
  if s.inRun && decide (v % 2 ^ 28 ≠ s.regN .DLK_TIMING d) then s.setFld F.DLK_STAT_WERR d 1 else s.setRegN .DLK_TIMING d (v % 2 ^ 28)

/-- 64 consecutive valid symbols (R337). -/
def State.dlkSymbols (s : State) (d : Nat) : State :=
  if !s.alive 17 then s
  else if s.dlkSt d = 1 then s.modDlk d (fun x => { x with dreq := true })
  else if s.dlkSt d = 4 ∧ s.flag F.DLK_CTL_AUTO d = true then s.dlkTrain d
  else s

/-- A link not UP 2 ms after its entry into TRAIN (R337). [DEDUCED, log entry 36] -/
def State.dlkTrainTimeout (s : State) (d : Nat) : State :=
  if s.dlkSt d = 1 ∨ s.dlkSt d = 2 then (s.reach ((s.dlk d).train + 2500000)).dlkLost d 1 else s

/-- RXTO without a valid frame in MEASURE or UP (R347). [DEDUCED, log entry 36] -/
def State.dlkRxTimeout (s : State) (d : Nat) : State :=
  if s.dlkSt d = 2 ∨ s.dlkSt d = 3 then ((s.reach ((s.dlk d).rx + s.rxTo d)).dlkLost d 2).raiseEv 17 3 d else s

/-! Frames received (R332, R334, R338 to R340, R348). -/

/-- A discarded frame (R332). -/
def State.dlkDiscard (s : State) (d : Nat) : State :=
  if !s.alive 17 || s.dlkSt d == 0 then s
  else (s.setFld F.DLK_STAT_FERR d 1).bump F.DLK_COUNT_FERRCNT F.DLK_COUNT_FERRSAT d

/-- The average of measurements, each in half fine steps, to the nearest fine step; a tie is open (R339). [DEDUCED, log entry 35] -/
def State.dlkAverage (s : State) (l : List Int) : Nat × State :=
  let sum := l.foldl (· + ·) 0
  let n : Int := 2 * (l.length : Int)
  let (v, s) := s.takeFree
  let q := if 2 * (sum % n) = n then sum / n + (v % 2 : Nat) else (2 * sum + n) / (2 * n)
  (q.toNat, s)

/-- ⌈c / 128⌉ + 71, the least lead for a cable delay (R340). -/
def leadFor (c : Nat) : Nat := 71 + (c + 127) / 128

/-- Entry into UP (R337, R340): LEAD is fixed. -/
def State.dlkUp (s : State) (d : Nat) : State :=
  let s := s.setFld F.DLK_CABLE_LEAD d (leadFor (s.fld F.DLK_CABLE_C d) + s.fld F.DLK_CTL_LMARGIN d)
  let s := s.modDlk d (fun x => { x with sent := 256 * s.now, sentB := 256 * s.now, rx := s.now })
  (s.dlkGo d 3).dlkEvent d 2 s.now

/-- A delay echo (R339, R340). -/
def State.dlkEcho (s : State) (d tag turn t2 : Nat) : State :=
  match (s.dlk d).echo.find? (fun x => x.1 == tag) with
  | none => s
  | some (_, t1) =>
    let s := s.modDlk d (fun x => { x with echo := x.echo.filter (fun y => y.1 != tag) })
    if t1 + 1250 * 128 < t2 then s
    else
      let m : Int := (t2 : Int) - t1 - turn
      let s := s.modDlk d (fun x => { x with meas := (m :: x.meas).take 16 })
      if (s.dlk d).meas.length < 16 then s
      else
        let (c, s) := s.dlkAverage (s.dlk d).meas
        let s := s.setFld F.DLK_CABLE_C d c
        if s.dlkSt d = 2 then (if 20480 < c then s.dlkLost d 4 else s.dlkUp d)
        else if s.dlkSt d = 3 ∧ s.fld F.DLK_CABLE_LEAD d < leadFor c then (s.setFld F.DLK_STAT_DRIFT d 1).raiseEv 17 3 d
        else s

/-- A STATUS frame (R334, R339, R348); t2 is the instant of its first bit in fine steps after the present tick's start, back in
time. -/
def State.dlkStatus (s : State) (d tag stat turn t2 : Nat) : State :=
  if !s.alive 17 || s.dlkSt d == 0 then s
  else
    let s := s.modDlk d (fun x => { x with rx := s.now })
    let s := if bit 2 stat then s.setFld F.DLK_STAT_PLATE d 1 else s
    let s := if bit 0 stat then s else (s.setFld F.DLK_STAT_FAULTACT d 0).dlkFlint d
    if tag = 0 then s else s.dlkEcho d tag turn t2

/-- The latest tick, not after now, whose low 24 bits match (R348). -/
def expandFault (now low : Nat) : Nat := now - (now + 2 ^ 24 - low % 2 ^ 24) % 2 ^ 24

/-- A FAULT frame (R334, R348). -/
def State.dlkFaultFrame (s : State) (d code chan tick fine : Nat) : State :=
  if !s.alive 17 || s.dlkSt d == 0 then s
  else
    let s := s.modDlk d (fun x => { x with rx := s.now })
    let s := (s.setFld F.DLK_STAT_FAULTACT d 1).bump F.DLK_FCOUNT_COUNT F.DLK_FCOUNT_SAT d
    let s := if s.flag F.DLK_FAULT_VALID d then s
      else (s.setRegN .DLK_FAULT d (code + chan * 2 ^ 8 + 2 ^ 10 + fine * 2 ^ 11)).setPair .DLK_FTIMEL .DLK_FTIMEH d (expandFault s.now tick)
    (s.dlkEvent d 0 s.now).dlkFlint d

/-- A field of a descriptor. -/
def descField (v : BitVec 256) (off n : Nat) : Nat := v.toNat / 2 ^ (8 * off) % 2 ^ (8 * n)

/-- Whether a partner descriptor is accepted (R338). -/
def State.dlkAccepts (s : State) (d : Nat) (v : BitVec 256) : Bool :=
  let ch := descField v 6 1
  let b := s.flag F.DLK_CTL_BIND d && s.flag F.EP_CTL_COMPL (s.epPhys (s.fld F.DLK_CTL_PAIR d))
  descField v 5 1 == 1 && decide (descField v 8 2 ≤ 14) && decide (descField v 0xA 2 ≤ s.hbPer d) &&
    decide (s.hbPer d ≤ descField v 0xC 2) && bit 0 ch && (!b || bit 1 ch)

/-- The registers that hold the descriptor (R356). -/
def descRegs : List Reg := [.DLK_DESCA, .DLK_DESCB, .DLK_DESCC, .DLK_DESCD, .DLK_DESCE, .DLK_DESCF, .DLK_DESCG, .DLK_DESCH]

/-- A DESC frame (R337, R338). -/
def State.dlkDesc (s : State) (d : Nat) (v : BitVec 256) : State :=
  if !s.alive 17 || s.dlkSt d == 0 then s
  else
    let s := s.modDlk d (fun x => { x with rx := s.now })
    let s := repeatN 8 (fun i s => s.setRegN (descRegs.getD i .DLK_DESCA) d (descField v (4 * i) 4)) s
    if s.dlkSt d ≠ 1 then s
    else if s.dlkAccepts d v then (s.modDlk d (fun x => { x with dreq := false, hbLast := s.now / s.hbPer d * s.hbPer d })).dlkGo d 2
    else s.dlkLost d 3

/-! Heartbeats (R341). -/

/-- The frame under way at a tick ends unfinished and is ready again, an HB with its TAG (R336). The edges of an EDGE frame are pending
again, or discarded, as the frame that cuts it says (R345, R346). -/
def Dlk.cut (x : Dlk) (t : Nat) : Dlk :=
  match x.tx with
  | none => x
  | some f =>
    if f.stop ≤ t then x
    else
      let x := { x with tx := none }
      match f.kind with
      | 1 => { x with flight := x.flight.tail }
      | 2 => { x with flush := (f.arg, f.ready) :: x.flush }
      | 3 => { x with trips := (true, f.ready) :: x.trips }
      | 4 => { x with trips := (false, f.ready) :: x.trips }
      | 5 => { x with hb := some (x.hb.getD f.ready), tag := f.arg - 1, echo := x.echo.filter (fun y => y.1 != f.arg) }
      | _ => { x with dreq := true }

/-- The next multiple of HBPER (R337, R341): an HB becomes ready in MEASURE and UP, one not yet complete is dropped; in LOST a TRIP
takes its place. -/
def State.dlkHbReady (s : State) (d : Nat) : State :=
  let st := s.dlkSt d
  if !s.alive 17 || st < 2 then s
  else
    let x := s.dlk d
    let t := (max x.hbLast (s.now - 1) / s.hbPer d + 1) * s.hbPer d
    let s := s.reach t
    if st = 4 then s.modDlk d (fun x => { x with hbLast := t, trips := x.trips ++ [(true, t)] })
    else
      let under := match x.tx with | some f => f.kind == 5 && decide (t < f.stop) | none => false
      let late := x.hb.isSome || under
      let s := s.modDlk d (fun x => { (if under then x.cut t else x) with hb := some t, hbLast := t, tag := x.tag })
      if late then ((s.setFld F.DLK_STAT_HBDROP d 1).bump F.DLK_COUNT_HBDCNT F.DLK_COUNT_HBDSAT d).raiseEv 17 3 d else s

/-! Frames sent (R331 to R333, R335, R336). -/

/-- One byte into the CRC-16 of a frame (R332). -/
def crc16Byte (c : Nat) (b : Byte) : Nat :=
  repeatN 8 (fun _ c => if bit 15 c then (2 * c % 2 ^ 16) ^^^ 0x1021 else 2 * c % 2 ^ 16) (c ^^^ b.toNat * 256)

/-- A frame: its bytes from TYPE, then its CRC low byte first (R332). -/
def frameBytes (l : List Byte) : List Byte := l ++ leBytes 2 (l.foldl crc16Byte 0xFFFF)

/-- The symbols of a frame of each type (R333). -/
def frameSymbols : Nat → Nat
  | 1 => 10
  | 2 => 5
  | 3 => 4
  | 4 => 4
  | 5 => 17
  | _ => 4

/-- The first symbol boundary not before a tick (R331). -/
def symbolBoundary (t : Nat) : Nat := (t + 4) / 5 * 5

/-- When a frame of a type may start, given that it is ready at a tick (R336): at a boundary, after the frame under way unless it
preempts it. A TRIP, RELEASE or FLUSH cuts what was under way when it becomes ready, so each waits for another of them that the order
of priority then starts. [DESIGN CHOICE, log entry 123] -/
def State.dlkSlot (s : State) (d kind ready : Nat) : Nat :=
  let free := match (s.dlk d).tx with
    | some f =>
      let pre := (2 ≤ kind && kind ≤ 4 && (f.kind == 1 || 5 ≤ f.kind)) || (kind == 1 && 5 ≤ f.kind)
      if pre then 0 else f.stop
    | none => 0
  symbolBoundary (max (max s.now ready) free)

/-- A frame departs at a boundary; one that it preempts is ready again (R336). -/
def State.dlkSend (s : State) (d kind t ready arg : Nat) (fields : List Byte) (flags : Nat) : State :=
  (s.reach t).modDlk d (fun x =>
    { x.cut t with tx := some ⟨kind, t + 5 * frameSymbols kind, ready, arg⟩
                   wire := frameBytes (BitVec.ofNat 8 (16 * kind + flags) :: fields) })

/-- A symbol of a link: a control symbol or a data symbol, with the number 32y + x of Kx.y or Dx.y (R331, R332). -/
inductive Symbol where
  | k (v : Nat)
  | d (v : Nat)
  deriving DecidableEq, Repr

/-- The symbol that a link sends from the boundary at tick t: none in electrical idle, K27.7 and the bytes of the frame under way, and
between frames the idle pair K28.5 D16.2 in turn (R331, R332, R337). The 8b/10b code of a symbol is the standard's, which the spec
names. [DEDUCED, log entry 128] -/
def State.dlkSymbol (s : State) (d t : Nat) : Option Symbol :=
  let idle (n : Nat) : Symbol := if n % 2 = 0 then .k 0xBC else .d 0x50
  if !s.alive 17 || s.dlkSt d == 0 then none
  else match (s.dlk d).tx with
    | none => some (idle (t / 5))
    | some f =>
      let start := f.stop - 5 * frameSymbols f.kind
      if t < start then some (idle (t / 5))
      else if f.stop ≤ t then some (idle ((t - f.stop) / 5))
      else match (t - start) / 5 with
        | 0 => some (.k 0xFB)
        | n + 1 => some (.d ((s.dlk d).wire.getD n 0).toNat)

/-! Edges over the link (R342 to R344). -/

/-- A change of a reference that is to come: its instant and level, the ec in which it is known, and the dead times it uses. -/
structure RefChange where
  at_   : Nat
  lvl   : Bool
  ready : Nat
  rise  : Nat
  fall  : Nat
  deriving DecidableEq, Repr

/-- The changes of a reference within a period that starts at `start`, after its start (R169): `c1` and `c2` are the compare
positions, `ph` the phase passed. -/
def periodChanges (start half : Nat) (updn : Bool) (c1 c2 ph r1 r2 rise fall : Nat) : List RefChange :=
  if !updn then (if ph = 0 ∧ 0 < c1 ∧ c1 < half then [⟨start + c1, false, r1, rise, fall⟩] else [])
  else
    (if ph = 0 ∧ 0 < c1 ∧ c1 < half then [⟨start + c1, false, r1, rise, fall⟩] else []) ++
    (if ph = 0 ∧ half ≤ c1 ∧ c2 < half then [⟨start + half, false, r2, rise, fall⟩] else []) ++
    (if ph < 2 ∧ 0 < c2 ∧ (c2 < half ∨ c1 < half) then [⟨start + 2 * half - min c2 half, true, r2, rise, fall⟩] else [])

/-- The changes of an output's reference in the periods from the load point at an instant on, as far as their values are soon known
(R343). [DESIGN CHOICE, log entry 123] -/
def State.laterChanges (s : State) (p lead : Nat) (b : Bool) (l : Nat) : Nat → List RefChange
  | 0 => []
  | n + 1 =>
    let updn := s.flag F.EP_CTL_UPDN p
    let pk := updn && s.flag F.EP_CTL_LOADPK p
    let known (i : Nat) : Nat := i / 128 + 1 - lead
    let r := if b then Reg.EP_DUTYB else .EP_DUTYA
    let code := b2n b
    let per := max 16 (s.epTaken p .EP_PERIOD 2 l)
    let c := compareAt (s.epTaken p r code l) per
    let mid := l + per * 128
    let c2 := if pk then compareAt (s.epTaken p r code mid) per else c
    let rise := s.epTaken p .EP_DTRISE 3 l
    let fall := s.epTaken p .EP_DTFALL 4 l
    let next := l + s.epLen p per
    ⟨l, decide (0 < c), known l, rise, fall⟩ ::
      (periodChanges l (per * 128) updn c c2 0 (known l) (if pk then known mid else known l) rise fall ++
        if known next ≤ s.now + 64 then s.laterChanges p lead b next n else [])

/-- The changes of an output's reference known in ec now: the rest of the period under way, and further periods once their values
are known (R343); or the queued edges (R344). -/
def State.refChanges (s : State) (p lead : Nat) (b : Bool) : List RefChange :=
  let x := s.ep p
  if s.flag F.EP_CTL_TT p then
    (x.outp b).queue.map (fun q => ⟨q.at_, q.lvl, q.wrote + 1, s.fld F.EP_DTRISE_DT p, s.fld F.EP_DTFALL_DT p⟩)
  else
    let updn := s.flag F.EP_CTL_UPDN p
    let pk := updn && s.flag F.EP_CTL_LOADPK p
    let known (l : Nat) : Nat := l / 128 + 1 - lead
    let half := x.per * 128
    let now_ :=
      if !s.flag F.EP_STAT_STARTED p || x.wait then []
      else
        let c1 := compareAt (if b then x.dutyB else x.dutyA) x.per
        let d2 := if !pk then (if b then x.dutyB else x.dutyA) else if x.peak then (if b then x.pkB else x.pkA)
          else s.epTaken p (if b then .EP_DUTYB else .EP_DUTYA) (if b then 1 else 0) (x.pstart + half)
        let l := periodChanges x.pstart half updn c1 (compareAt d2 x.per) (x.outp b).phase (known x.pstart)
          (if pk then known (x.pstart + half) else known x.pstart) x.rise x.fall
        if x.term && !b then l.filter (fun c => !c.lvl) else l
    now_ ++ match s.epNextLoad p with
      | none => []
      | some l => s.laterChanges p lead b l 24

/-- The edges of complementary outputs that changes of S give, from the present levels (R173, R174). -/
def complEdges (ref a b : Bool) : List RefChange → List LinkEdge
  | [] => []
  | c :: t =>
    if c.lvl == ref then complEdges ref a b t
    else
      let next := (t.find? (fun n => n.lvl != c.lvl)).map (·.at_)
      let on := c.at_ + (if c.lvl then c.rise else c.fall)
      let goes := match next with | some n => decide (on < n) | none => true
      let offs : List LinkEdge := if (if c.lvl then b else a) then [⟨2 * c.at_ + b2n c.lvl, false, c.ready⟩] else []
      let ons : List LinkEdge := if goes then [⟨2 * on + b2n (!c.lvl), true, c.ready⟩] else []
      offs ++ ons ++ complEdges c.lvl (c.lvl && goes) (!c.lvl && goes) t

/-- The edges of an independent output that changes of its reference give. -/
def soloEdges (b ref : Bool) : List RefChange → List LinkEdge
  | [] => []
  | c :: t => if c.lvl == ref then soloEdges b ref t else ⟨2 * c.at_ + b2n b, c.lvl, c.ready⟩ :: soloEdges b c.lvl t

/-- An edge put in its place by key. -/
def insertEdge (e : LinkEdge) : List LinkEdge → List LinkEdge
  | [] => [e]
  | x :: t => if e.key < x.key then e :: x :: t else x :: insertEdge e t

/-- Whether an edge lies after the last one of its output that a frame took (R344). -/
def Dlk.unsent (x : Dlk) (e : LinkEdge) : Bool := decide ((if bit 0 e.key then x.sentB else x.sent) < e.key)

/-- A frame takes an edge: it and the earlier ones of its output are sent (R344). -/
def Dlk.take (x : Dlk) (e : LinkEdge) : Dlk :=
  let x := if bit 0 e.key then { x with sentB := e.key } else { x with sent := e.key }
  { x with pend := x.pend.filter x.unsent }

/-- Every edge up to an instant is sent or discarded, and none is pending (R345, R346). -/
def Dlk.sweep (x : Dlk) (at_ : Nat) : Dlk := { x with sent := 2 * at_, sentB := 2 * at_ + 1, pend := [] }

/-- The edges of the pair bound to link d that are still to be sent, in order of instant: those made before a frame took them, and those
to come (R342 to R344). -/
def State.linkEdges (s : State) (d : Nat) : List LinkEdge :=
  let n := s.fld F.DLK_CTL_PAIR d
  let p := s.epPhys n
  let old := (s.dlk d).pend.filter (s.dlk d).unsent
  if !s.flag F.DLK_CTL_BIND d || !s.epDrives p then []
  else
    let x := s.ep p
    let lead := s.fld F.DLK_CABLE_LEAD d
    let rest := !s.flag F.EP_CTL_TT p && (x.wait || !s.flag F.EP_STAT_STARTED p)
    let l :=
      if s.flag F.EP_CTL_COMPL p then
        let dead (b : Bool) : List LinkEdge :=
          match (x.outp b).dt with
          | some t =>
            let next := (s.refChanges p lead false).find? (fun c => c.lvl != x.a.ref)
            if (match next with | some c => decide (t < c.at_) | none => true) then [⟨2 * t + b2n b, true, 0⟩] else []
          | none => []
        let first := s.refChanges p lead false
        let ref0 := if rest then !(match first with | c :: _ => c.lvl | [] => true) else x.a.ref
        dead false ++ dead true ++ complEdges ref0 (x.a.out || x.a.dt.isSome) (x.b.out || x.b.dt.isSome) first
      else soloEdges false (if rest then false else x.a.ref) (s.refChanges p lead false) ++
        soloEdges true (if rest then false else x.b.ref) (s.refChanges p lead true)
    (l.foldl (fun acc e => insertEdge e acc) old).filter (s.dlk d).unsent

/-- The boundary at which the next EDGE frame departs, with its edges (R336, R344); none while it is held or nothing is ready. -/
def State.nextEdgeFrame (s : State) (d : Nat) : Option (Nat × LinkEdge × Option LinkEdge) :=
  match s.linkEdges d with
  | [] => none
  | e :: rest =>
    let inst := e.key / 2
    let hold := (inst + 127) / 128 - 2 ^ 14
    let t := s.dlkSlot d 1 (max (e.ready + 2) hold)
    let second := match rest with
      | f :: _ =>
        let gap := f.key / 2 - inst
        if 1 ≤ gap ∧ gap ≤ 1048575 ∧ f.ready ≤ t then some f else none
      | [] => none
    if 4 ≤ ((s.dlk d).flight.filter (fun i => decide (128 * t < i))).length then none else some (t, e, second)

/-- Whether a TRIP, RELEASE or FLUSH is ready at a boundary. -/
def State.dlkUrgent (s : State) (d t : Nat) : Bool :=
  let x := s.dlk d
  x.trips.any (fun y => decide (y.2 ≤ t)) || x.flush.any (fun f => decide (f.2 / 128 ≤ t))

/-- Whether an EDGE frame is ready at a boundary. -/
def State.dlkEdgeDue (s : State) (d t : Nat) : Bool :=
  s.dlkSt d == 3 && (match s.nextEdgeFrame d with | some x => decide (x.1 ≤ t) | none => false)

/-- An EDGE frame departs (R335, R344). -/
def State.dlkEdgeFrame (s : State) (d : Nat) : State :=
  if !s.alive 17 || s.dlkSt d != 3 then s
  else match s.nextEdgeFrame d with
    | none => s
    | some (t, e, second) =>
      if s.dlkUrgent d t then s
      else
        let inst := e.key / 2
        let gap := match second with | some f => f.key / 2 - inst | none => 0
        let last := match second with | some f => f | none => e
        let flags := (e.key % 2) * 8 + b2n e.lvl * 4 + b2n second.isSome * 2 + (match second with | some f => f.key % 2 | none => 0)
        let lvl2 := match second with | some f => b2n f.lvl | none => 0
        let fields := leBytes 2 (inst / 128) ++ leBytes 1 (inst % 128) ++ leBytes 3 (gap + lvl2 * 2 ^ 20)
        let s := s.dlkSend d 1 t (e.ready + 2) 0 fields flags
        let s := s.modDlk d (fun x => { (x.take e).take last with flight := (last.key / 2) :: x.flight.filter (fun i => decide (128 * t < i)) })
        if inst < (t + 50 + 14) * 128 + s.fld F.DLK_CABLE_C d then
          let s := ((s.setFld F.DLK_STAT_LATE d 1).bump F.DLK_COUNT_LATECNT F.DLK_COUNT_LATESAT d).dlkEvent d 3 t
          if s.flag F.DLK_CTL_LATESAFE d then s.raiseEv 17 3 d else s
        else s

/-- A FLUSH frame departs (R346). -/
def State.dlkFlushFrame (s : State) (d : Nat) : State :=
  match (s.dlk d).flush with
  | [] => s
  | (lv, r) :: rest =>
    let t := s.dlkSlot d 2 (r / 128)
    if !s.alive 17 || s.dlkSt d != 3 || (s.dlk d).trips.any (fun y => decide (y.2 ≤ t)) then s
    else (s.dlkSend d 2 t r lv (leBytes 1 lv) 0).modDlk d (fun x => { x with flush := rest, flight := [] })

/-- A TRIP frame departs, or a RELEASE (R336, R345): in the order in which the pair's state changed. -/
def State.dlkTripFrame (s : State) (d : Nat) (trip : Bool) : State :=
  match (s.dlk d).trips with
  | [] => s
  | (k, r) :: rest =>
    if !s.alive 17 || s.dlkSt d < 3 || k != trip then s
    else (s.dlkSend d (if trip then 3 else 4) (s.dlkSlot d 3 r) r 0 [] 0).modDlk d (fun x => { x with trips := rest, flight := [] })

/-- An HB frame departs (R333, R339, R341). -/
def State.dlkHbFrame (s : State) (d : Nat) : State :=
  match (s.dlk d).hb with
  | none => s
  | some r =>
    let t := s.dlkSlot d 5 r
    if !s.alive 17 || !(s.dlkSt d == 2 || s.dlkSt d == 3) || s.dlkUrgent d t || s.dlkEdgeDue d t then s
    else
      let tag := (s.dlk d).tag % 255 + 1
      let fields := leBytes 1 tag ++ leBytes 8 t ++ leBytes 2 (s.fld F.DLK_CABLE_C d) ++ leBytes 2 (s.hbPer d)
      (s.dlkSend d 5 t r tag fields 0).modDlk d (fun x =>
        { x with hb := none, tag := tag, echo := (tag, (t + 85) * 128) :: x.echo.filter (fun y => y.1 != tag) })

/-- A DREQ frame departs (R337). -/
def State.dlkDreqFrame (s : State) (d : Nat) : State :=
  let t := s.dlkSlot d 6 s.now
  if !s.alive 17 || s.dlkSt d != 1 || !(s.dlk d).dreq then s
  else (s.dlkSend d 6 t s.now 0 [] 0).modDlk d (fun x => { x with dreq := false })

/-! What edge pairs tell links (R345, R346). -/

/-- An edge that a pair made at its balls is pending for the link that is UP for it, unless a frame has taken it (R342, R344). -/
def State.dlkMade (s : State) (n kind at_ : Nat) : State :=
  match s.epLink n with
  | none => s
  | some d =>
    s.modDlk d (fun x =>
      let e : LinkEdge := ⟨2 * at_ + kind / 2, kind % 2 == 0, 0⟩
      if x.unsent e then { x with pend := insertEdge e x.pend } else x)

/-- The link that is UP for a logical pair takes a TRIP or a RELEASE: each preempts what is under way and discards the pending edges; a
FLUSH of the ec of a TRIP is not sent (R336, R345, R346). -/
def State.dlkSafe (s : State) (n at_ : Nat) (trip : Bool) : State :=
  match s.epLink n with
  | none => s
  | some d => s.modDlk d (fun x =>
      let x := x.cut (symbolBoundary (at_ / 128))
      { x.sweep at_ with
        trips := x.trips ++ [(trip, at_ / 128)]
        flush := if trip then x.flush.filter (fun f => f.2 / 128 != at_ / 128) else x.flush })

/-- The link that is UP for a logical pair takes a FLUSH with the output levels, which preempts what is under way; a TRIP of the same ec
stands alone (R336, R346). -/
def State.dlkFlush (s : State) (n at_ : Nat) : State :=
  match s.epLink n with
  | none => s
  | some d =>
    if (s.dlk d).trips.any (fun y => y.1 && y.2 == at_ / 128) then s
    else
      let p := s.epPhys n
      s.modDlk d (fun x =>
        let x := x.cut (symbolBoundary (at_ / 128))
        { x.sweep at_ with flush := x.flush ++ [(b2n (s.ep p).a.out + 2 * b2n (s.ep p).b.out, at_)] })

end Sys2Proof.Machine
end

