-- ==== Sys2Proof/Machine/Flags.lean ====
section
/-! DEFINITION. Integer, fixed-point and accumulator arithmetic (R60, R61, R62), its 64-bit supervisor forms and the flags
N, Z, C, V (R361, R362). -/

namespace Sys2Proof.Machine

/-- The flags a supervisor instruction computes: N, Z, C, V. -/
structure Flags where
  n : Bool
  z : Bool
  c : Bool
  v : Bool
  deriving DecidableEq, Repr

/-- Which flags an instruction writes (R362). -/
inductive FlagSet where
  | keep
  | nz (n z : Bool)
  | nzcv (f : Flags)
  deriving DecidableEq, Repr

/-- The signed range of a width. -/
def satS (w : Nat) (z : Int) : Int := clampI (-((2 ^ (w - 1) : Nat) : Int)) (((2 ^ (w - 1) : Nat) : Int) - 1) z

/-- A saturated sum or difference. -/
def satAdd {w : Nat} (a b : BitVec w) : BitVec w := BitVec.ofInt w (satS w (a.toInt + b.toInt))
/-- A saturated difference. -/
def satSub {w : Nat} (a b : BitVec w) : BitVec w := BitVec.ofInt w (satS w (a.toInt - b.toInt))

/-- The Q15 value of a register: its bits [15:0], signed (R41). -/
def q15 {w : Nat} (a : BitVec w) : Int := sext 16 a.toNat

/-- ADDS15 (R60): the Q15 sum, saturated, sign-extended. -/
def addS15 {w : Nat} (a b : BitVec w) : BitVec w := BitVec.ofInt w (satS 16 (q15 a + q15 b))
/-- SUBS15 (R60). -/
def subS15 {w : Nat} (a b : BitVec w) : BitVec w := BitVec.ofInt w (satS 16 (q15 a - q15 b))
/-- SAT15 (R60): a signed register held in the Q15 range. -/
def sat15 {w : Nat} (a : BitVec w) : BitVec w := BitVec.ofInt w (satS 16 a.toInt)
/-- ABS (R60): the absolute value, saturated. -/
def absS {w : Nat} (a : BitVec w) : BitVec w := BitVec.ofInt w (satS w (a.toInt.natAbs : Int))
/-- MIN, signed. -/
def minS {w : Nat} (a b : BitVec w) : BitVec w := if a.toInt ≤ b.toInt then a else b
/-- MAX, signed. -/
def maxS {w : Nat} (a b : BitVec w) : BitVec w := if a.toInt ≤ b.toInt then b else a
/-- MINU. -/
def minU {w : Nat} (a b : BitVec w) : BitVec w := if a.toNat ≤ b.toNat then a else b
/-- MAXU. -/
def maxU {w : Nat} (a b : BitVec w) : BitVec w := if a.toNat ≤ b.toNat then b else a

/-- The number of leading 0 bits: the width for 0 (R60). -/
def clz {w : Nat} (a : BitVec w) : Nat := if a.toNat = 0 then w else w - 1 - Nat.log2 a.toNat

/-- MULH: the high half of the signed product. -/
def mulH {w : Nat} (a b : BitVec w) : BitVec w := BitVec.ofInt w ((a.toInt * b.toInt) / ((2 ^ w : Nat) : Int))
/-- MULHU: the high half of the unsigned product. -/
def mulHU {w : Nat} (a b : BitVec w) : BitVec w := BitVec.ofNat w (a.toNat * b.toNat / 2 ^ w)

/-- QMUL15: the Q15 product rounded half up, saturated, sign-extended (R60). -/
def qMul15 {w : Nat} (a b : BitVec w) : BitVec w := BitVec.ofInt w (satS 16 ((q15 a * q15 b + 0x4000) / 2 ^ 15))
/-- QMUL31: the Q31 product of bits [31:0] rounded half up, saturated, sign-extended (R60). -/
def qMul31 {w : Nat} (a b : BitVec w) : BitVec w :=
  BitVec.ofInt w (satS 32 ((sext 32 a.toNat * sext 32 b.toNat + 2 ^ 30) / 2 ^ 31))

/-- The flags of a sum (R361): carry out of the top bit, signed overflow. -/
def addFlags (a b : Dword) : Flags :=
  let r := a + b
  ⟨r.msb, r == 0, decide (2 ^ 64 ≤ a.toNat + b.toNat), decide (a.toInt + b.toInt ≠ r.toInt)⟩

/-- The flags of a difference (R361): C is 1 when no borrow. -/
def subFlags (a b : Dword) : Flags :=
  let r := a - b
  ⟨r.msb, r == 0, decide (b.toNat ≤ a.toNat), decide (a.toInt - b.toInt ≠ r.toInt)⟩

/-- The flags N and Z of a result. -/
def nzOf (r : Dword) : FlagSet := .nz r.msb (r == 0)

/-- The flags of a saturated result: N and Z of it, C and V of the exact operation. -/
def withResult (f : Flags) (r : Dword) : Flags := { f with n := r.msb, z := r == 0 }

/-- MAC and its kin (R61): the accumulator plus or minus the product, wrapping or saturating. -/
def macAcc (sub sat : Bool) (acc : Dword) (a b : Word) : Dword :=
  let p := a.toInt * b.toInt
  let t := if sub then acc.toInt - p else acc.toInt + p
  BitVec.ofInt 64 (if sat then satS 64 t else t)

/-- ALD (R61). -/
def aldAcc (a : Word) (sh : Nat) : Dword := BitVec.ofInt 64 (a.toInt * ((2 ^ sh : Nat) : Int))

/-- ARD (R61): shifted right, rounded half up, saturated to int32. -/
def ardVal (acc : Dword) (sh : Nat) : Word :=
  let r := if sh = 0 then acc.toInt else (acc.toInt + ((2 ^ (sh - 1) : Nat) : Int)) / ((2 ^ sh : Nat) : Int)
  BitVec.ofInt 32 (satS 32 r)

/-- ARDL (R61). -/
def ardlVal (acc : Dword) (sh : Nat) : Word := (acc.sshiftRight sh).setWidth 32

/-- ARDH (R61). -/
def ardhVal (acc : Dword) : Word := (acc >>> 32).setWidth 32

end Sys2Proof.Machine
end

