-- ==== Sys2Proof/Machine/Encoding.lean ====
section
/-! DEFINITION. The words of lane-engine instructions, from the formats of R43 and the opcode map of R45: an encoder, and a
decoder that reads any word and answers none for one that R44 calls illegal. A repeat prefix reads its body through the
decoder; the legality of a word on a supervisor core (R362). The commands themselves carry no words: the opcode table gives no row
any bits. -/

namespace Sys2Proof.Machine

/-- The field of width w at bit lo of a word. -/
def wf (lo w n : Nat) : Nat := n / 2 ^ lo % 2 ^ w

/-- A 5-bit operand of a word. -/
def op5 (lo n : Nat) : BitVec 5 := BitVec.ofNat 5 (wf lo 5 n)

/-- An instruction where its unused fields are 0. -/
def legal (b : Bool) (i : Instr) : Option Instr := if b then some i else none

/-- Format R (R43). -/
def packR (op rd ra rb sh func : Nat) : Nat := op * 2 ^ 26 + rd * 2 ^ 21 + ra * 2 ^ 16 + rb * 2 ^ 11 + sh * 2 ^ 6 + func

/-- Format A (R43). -/
def packA (rd ra rb sh acc func : Nat) : Nat := packR 3 rd ra rb sh (acc * 16 + func)

/-- Format I (R43). -/
def packI (op rd ra imm : Nat) : Nat := op * 2 ^ 26 + rd * 2 ^ 21 + ra * 2 ^ 16 + imm

/-- Formats B and BI (R43). -/
def packB (op ra rb cond off : Nat) : Nat := op * 2 ^ 26 + ra * 2 ^ 21 + rb * 2 ^ 16 + cond * 2 ^ 13 + off

/-- Format M (R43). -/
def packM (op rd ra size u simm : Nat) : Nat :=
  op * 2 ^ 26 + rd * 2 ^ 21 + ra * 2 ^ 16 + size * 2 ^ 14 + u * 2 ^ 13 + simm

/-- Format C (R43). -/
def packC (cd cs ra rb func : Nat) : Nat :=
  0x15 * 2 ^ 26 + cd * 2 ^ 23 + cs * 2 ^ 20 + ra * 2 ^ 15 + rb * 2 ^ 10 + func

/-- Format P (R43). -/
def packP (cap rs rt index field : Nat) : Nat :=
  0x17 * 2 ^ 26 + cap * 2 ^ 23 + rs * 2 ^ 18 + rt * 2 ^ 13 + index * 2 ^ 8 + field

/-- Format L (R43). -/
def packL (rd ra cap nm1 depth func : Nat) : Nat :=
  0x18 * 2 ^ 26 + rd * 2 ^ 21 + ra * 2 ^ 16 + cap * 2 ^ 13 + nm1 * 2 ^ 10 + depth * 2 ^ 5 + func

/-- Format N (R43). -/
def packN (reg route func : Nat) : Nat := 0x19 * 2 ^ 26 + reg * 2 ^ 21 + route * 2 ^ 8 + func

/-- Format S (R43). -/
def packS (rd cap n func : Nat) : Nat := 0x1A * 2 ^ 26 + rd * 2 ^ 21 + cap * 2 ^ 18 + n * 2 ^ 6 + func

/-- Format X (R43, R52). -/
def packX (rsrc rb ra rd ainc cnt nm1 : Nat) : Nat :=
  0x1B * 2 ^ 26 + rsrc * 2 ^ 25 + rb * 2 ^ 14 + ra * 2 ^ 13 + rd * 2 ^ 12 + ainc * 2 ^ 11 + cnt * 2 ^ 6 + nm1

/-- Opcode 0x01: the ALU group (R45, R46). -/
def decodeAlu (c : Core) (n : Nat) : Option Instr :=
  let rd := op5 21 n; let ra := op5 16 n; let rb := op5 11 n; let sh := wf 6 5 n
  match wf 0 6 n with
  | 0 => legal (sh == 0) (.add c rd ra rb)
  | 1 => legal (sh == 0) (.sub c rd ra rb)
  | 2 => legal (sh == 0) (.and c rd ra rb)
  | 3 => legal (sh == 0) (.or c rd ra rb)
  | 4 => legal (sh == 0) (.xor c rd ra rb)
  | 5 => legal (sh == 0) (.andn c rd ra rb)
  | 8 => legal (sh == 0) (.shl c rd ra rb)
  | 9 => legal (sh == 0) (.shr c rd ra rb)
  | 10 => legal (sh == 0) (.sar c rd ra rb)
  | 11 => legal (sh == 0) (.ror c rd ra rb)
  | 16 => legal (sh == 0) (.min c rd ra rb)
  | 17 => legal (sh == 0) (.max c rd ra rb)
  | 18 => legal (sh == 0) (.minu c rd ra rb)
  | 19 => legal (sh == 0) (.maxu c rd ra rb)
  | 22 => legal (sh == 0) (.adds c rd ra rb)
  | 23 => legal (sh == 0) (.subs c rd ra rb)
  | 24 => legal (sh == 0) (.adds15 c rd ra rb)
  | 25 => legal (sh == 0) (.subs15 c rd ra rb)
  | 6 => legal (rb == 0 && sh == 0) (.mov c rd ra)
  | 20 => legal (rb == 0 && sh == 0) (.abs c rd ra)
  | 21 => legal (rb == 0 && sh == 0) (.neg c rd ra)
  | 26 => legal (rb == 0 && sh == 0) (.sat15 c rd ra)
  | 27 => legal (rb == 0 && sh == 0) (.clz c rd ra)
  | 7 => legal (rd == 0 && ra == 0 && rb == 0 && sh == 0) (.nop c)
  | 12 => legal (rb == 0) (.shli c rd ra (BitVec.ofNat 6 sh))
  | 13 => legal (rb == 0) (.shri c rd ra (BitVec.ofNat 6 sh))
  | 14 => legal (rb == 0) (.sari c rd ra (BitVec.ofNat 6 sh))
  | 15 => legal (rb == 0) (.rori c rd ra (BitVec.ofNat 6 sh))
  | _ => none

/-- Opcode 0x02: the multiply group (R46). -/
def decodeMul (c : Core) (n : Nat) : Option Instr :=
  let rd := op5 21 n; let ra := op5 16 n; let rb := op5 11 n; let sh := wf 6 5 n
  match wf 0 6 n with
  | 0 => legal (sh == 0) (.mul c rd ra rb)
  | 1 => legal (sh == 0) (.mulh c rd ra rb)
  | 2 => legal (sh == 0) (.mulhu c rd ra rb)
  | 3 => legal (sh == 0) (.qmul15 c rd ra rb)
  | 4 => legal (sh == 0) (.qmul31 c rd ra rb)
  | _ => none

/-- Opcode 0x03: the accumulator group (R46). -/
def decodeAcc (c : Core) (n : Nat) : Option Instr :=
  let rd := op5 21 n; let ra := op5 16 n; let rb := op5 11 n; let sh := op5 6 n; let acc := BitVec.ofNat 2 (wf 4 2 n)
  match wf 0 4 n with
  | 0 => legal (rd == 0 && sh == 0) (.mac c acc ra rb)
  | 1 => legal (rd == 0 && sh == 0) (.msu c acc ra rb)
  | 2 => legal (rd == 0 && sh == 0) (.macs c acc ra rb)
  | 3 => legal (rd == 0 && sh == 0) (.msus c acc ra rb)
  | 4 => legal (rd == 0 && ra == 0 && rb == 0 && sh == 0) (.aclr c acc)
  | 5 => legal (rd == 0 && rb == 0) (.ald c acc ra sh)
  | 6 => legal (ra == 0 && rb == 0) (.ard c rd acc sh)
  | 7 => legal (ra == 0 && rb == 0) (.ardl c rd acc sh)
  | 8 => legal (ra == 0 && rb == 0 && sh == 0) (.ardh c rd acc)
  | _ => none

/-- Opcode 0x04: the floating-point group (R46). -/
def decodeFp (c : Core) (n : Nat) : Option Instr :=
  let rd := op5 21 n; let ra := op5 16 n; let rb := op5 11 n; let rc := op5 6 n
  match wf 0 6 n with
  | 0 => legal (rc == 0) (.fadd c rd ra rb)
  | 1 => legal (rc == 0) (.fsub c rd ra rb)
  | 2 => legal (rc == 0) (.fmul c rd ra rb)
  | 5 => legal (rc == 0) (.fdiv c rd ra rb)
  | 7 => legal (rc == 0) (.fmin c rd ra rb)
  | 8 => legal (rc == 0) (.fmax c rd ra rb)
  | 3 => some (.fma c rd ra rb rc)
  | 4 => some (.fms c rd ra rb rc)
  | 6 => legal (rb == 0 && rc == 0) (.fsqrt c rd ra)
  | 9 => legal (rb == 0 && rc == 0) (.fabs c rd ra)
  | 10 => legal (rb == 0 && rc == 0) (.fneg c rd ra)
  | 11 => legal (rb == 0 && rc == 0) (.fcvtif c rd ra)
  | 12 => legal (rb == 0 && rc == 0) (.fcvtfi c rd ra)
  | 13 => legal (rb == 0 && rc == 0) (.fcvtqf c rd ra)
  | 14 => legal (rb == 0 && rc == 0) (.fcvtfq c rd ra)
  | _ => none

/-- Opcode 0x0B: compare registers and branch (R47). -/
def decodeBr (c : Core) (n : Nat) : Option Instr :=
  let ra := op5 21 n; let rb := op5 16 n; let off := BitVec.ofNat 13 (wf 0 13 n)
  match wf 13 3 n with
  | 0 => some (.beq c ra rb off)
  | 1 => some (.bne c ra rb off)
  | 2 => some (.blt c ra rb off)
  | 3 => some (.bge c ra rb off)
  | 4 => some (.bltu c ra rb off)
  | 5 => some (.bgeu c ra rb off)
  | 6 => some (.bflt c ra rb off)
  | 7 => some (.bfge c ra rb off)
  | _ => none

/-- Opcode 0x0C: compare with an immediate and branch (R47). -/
def decodeBri (c : Core) (n : Nat) : Option Instr :=
  let ra := op5 21 n; let simm := op5 16 n; let off := BitVec.ofNat 13 (wf 0 13 n)
  match wf 13 3 n with
  | 0 => some (.beqi c ra simm off)
  | 1 => some (.bnei c ra simm off)
  | 2 => some (.blti c ra simm off)
  | 3 => some (.bgei c ra simm off)
  | 4 => some (.bltui c ra simm off)
  | 5 => some (.bgeui c ra simm off)
  | _ => none

/-- Opcode 0x0F: loads (R46). -/
def decodeLd (c : Core) (n : Nat) : Option Instr :=
  let rd := op5 21 n; let ra := op5 16 n; let simm := BitVec.ofNat 13 (wf 0 13 n)
  match wf 13 3 n with
  | 4 => some (.ldw c false rd ra simm)
  | 2 => some (.ldh c rd ra simm)
  | 3 => some (.ldhu c rd ra simm)
  | 0 => some (.ldb c rd ra simm)
  | 1 => some (.ldbu c rd ra simm)
  | _ => none

/-- Opcode 0x11: loads (R46). -/
def decodeLds (c : Core) (n : Nat) : Option Instr :=
  let rd := op5 21 n; let ra := op5 16 n; let simm := BitVec.ofNat 13 (wf 0 13 n)
  match wf 13 3 n with
  | 4 => some (.lds c rd ra simm)
  | 2 => some (.ldsh c rd ra simm)
  | 3 => some (.ldshu c rd ra simm)
  | 0 => some (.ldsb c rd ra simm)
  | 1 => some (.ldsbu c rd ra simm)
  | _ => none

/-- Opcode 0x13: loads (R46). -/
def decodeLdc (c : Core) (n : Nat) : Option Instr :=
  let rd := op5 21 n; let ra := op5 16 n; let simm := BitVec.ofNat 13 (wf 0 13 n)
  match wf 13 3 n with
  | 4 => some (.ldc c rd ra simm)
  | 2 => some (.ldch c rd ra simm)
  | 3 => some (.ldchu c rd ra simm)
  | 0 => some (.ldcb c rd ra simm)
  | 1 => some (.ldcbu c rd ra simm)
  | _ => none

/-- Opcode 0x10: stores (R46). -/
def decodeSt (c : Core) (n : Nat) : Option Instr :=
  let rs := op5 21 n; let ra := op5 16 n; let simm := BitVec.ofNat 13 (wf 0 13 n)
  match wf 13 3 n with
  | 4 => some (.stw c false rs ra simm)
  | 2 => some (.sth c rs ra simm)
  | 0 => some (.stb c rs ra simm)
  | _ => none

/-- Opcode 0x12: stores (R46). -/
def decodeSts (c : Core) (n : Nat) : Option Instr :=
  let rs := op5 21 n; let ra := op5 16 n; let simm := BitVec.ofNat 13 (wf 0 13 n)
  match wf 13 3 n with
  | 4 => some (.sts c rs ra simm)
  | 2 => some (.stsh c rs ra simm)
  | 0 => some (.stsb c rs ra simm)
  | _ => none

/-- Opcode 0x14: stores (R46). -/
def decodeStc (c : Core) (n : Nat) : Option Instr :=
  let rs := op5 21 n; let ra := op5 16 n; let simm := BitVec.ofNat 13 (wf 0 13 n)
  match wf 13 3 n with
  | 4 => some (.stc c rs ra simm)
  | 2 => some (.stch c rs ra simm)
  | 0 => some (.stcb c rs ra simm)
  | _ => none

/-- Opcode 0x15: the capability group (R48). -/
def decodeCap (c : Core) (n : Nat) : Option Instr :=
  let cd := BitVec.ofNat 3 (wf 23 3 n); let cs := BitVec.ofNat 3 (wf 20 3 n); let ra := op5 15 n; let rb := op5 10 n
  match wf 0 10 n with
  | 0 => legal (ra == 0 && rb == 0) (.cmov c cd cs)
  | 1 => some (.cnarrow c cd cs ra rb)
  | 2 => legal (rb == 0) (.cperm c cd cs ra)
  | 3 => legal (cs == 0 && ra == 0 && rb == 0) (.cclr c cd)
  | 4 => legal (cs == 0 && rb == 0) (.cld c cd ra)
  | 5 => legal (cd == 0 && rb == 0) (.cst c cs ra)
  | _ => none

/-- Opcode 0x18: the Lode group (R48). -/
def decodeLode (c : Core) (n : Nat) : Option Instr :=
  let rd := op5 21 n; let ra := op5 16 n; let cap := BitVec.ofNat 3 (wf 13 3 n); let nm1 := wf 10 3 n
  let depth := wf 5 5 n
  match wf 0 5 n with
  | 0 => legal (nm1 == 0 && depth == 0) (.look c rd ra cap)
  | 1 => legal (nm1 == 1 && depth == 0 && decide (ra.toNat + 1 ≤ 31)) (.interp2 c rd ra cap)
  | 2 => legal (nm1 == 2 && depth == 0 && decide (ra.toNat + 2 ≤ 31)) (.interp3 c rd ra cap)
  | 3 => legal (decide (1 ≤ depth) && decide (depth ≤ 24) && decide (ra.toNat + nm1 ≤ 31))
      (.walk c rd ra cap (BitVec.ofNat 3 nm1) (BitVec.ofNat 5 depth))
  | _ => none

/-- Opcode 0x1A: the system group (R48). -/
def decodeSys (c : Core) (n : Nat) : Option Instr :=
  let rd := op5 21 n; let cap := BitVec.ofNat 3 (wf 18 3 n); let k := op5 6 n
  if wf 11 7 n ≠ 0 then none
  else match wf 0 6 n with
    | 0 => legal (rd == 0 && cap == 0 && k == 0) (.endTask c)
    | 1 => legal (rd == 0 && cap == 0 && k == 0) (.ifence c)
    | 2 => legal (cap == 0 && k == 0 && rd.toNat % 2 == 0) (.time c rd)
    | 3 => legal (cap == 0 && decide (k.toNat < 8)) (.tin c rd k)
    | 4 => legal (rd == 0 && k == 0) (.sig c cap)
    | _ => none

/-- The instruction a word spells on a lane engine; none where R44 calls it illegal. -/
def decodeLane (c : Core) (word : Word) : Option Instr :=
  let n := word.toNat
  match wf 26 6 n with
  | 0x01 => decodeAlu c n
  | 0x02 => decodeMul c n
  | 0x03 => decodeAcc c n
  | 0x04 => decodeFp c n
  | 0x05 => some (.addi c (op5 21 n) (op5 16 n) (BitVec.ofNat 16 (wf 0 16 n)))
  | 0x06 => some (.andi c (op5 21 n) (op5 16 n) (BitVec.ofNat 16 (wf 0 16 n)))
  | 0x07 => some (.ori c (op5 21 n) (op5 16 n) (BitVec.ofNat 16 (wf 0 16 n)))
  | 0x08 => some (.xori c (op5 21 n) (op5 16 n) (BitVec.ofNat 16 (wf 0 16 n)))
  | 0x09 => legal (op5 16 n == 0) (.movi c (op5 21 n) (BitVec.ofNat 16 (wf 0 16 n)))
  | 0x0A => legal (op5 16 n == 0) (.movhi c (op5 21 n) (BitVec.ofNat 16 (wf 0 16 n)))
  | 0x0B => decodeBr c n
  | 0x0C => decodeBri c n
  | 0x0D => legal (wf 12 14 n == 0) (.call c (BitVec.ofNat 12 (wf 0 12 n)))
  | 0x0E =>
    if wf 21 5 n ≠ 0 || wf 6 10 n ≠ 0 then none
    else match wf 0 6 n with
      | 0 => legal (op5 16 n == 0) (.ret c)
      | 1 => some (.callr c (op5 16 n))
      | 2 => some (.jr c (op5 16 n))
      | _ => none
  | 0x0F => decodeLd c n
  | 0x10 => decodeSt c n
  | 0x11 => decodeLds c n
  | 0x12 => decodeSts c n
  | 0x13 => decodeLdc c n
  | 0x14 => decodeStc c n
  | 0x15 => decodeCap c n
  | 0x16 => legal (wf 3 18 n == 0) (.smp c (op5 21 n) (BitVec.ofNat 3 (wf 0 3 n)))
  | 0x17 => some (.edge c (BitVec.ofNat 3 (wf 23 3 n)) (op5 8 n) (BitVec.ofNat 8 (wf 0 8 n)) (op5 18 n) (op5 13 n))
  | 0x18 => decodeLode c n
  | 0x19 =>
    if wf 16 5 n ≠ 0 || wf 4 4 n ≠ 0 then none
    else match wf 0 4 n with
      | 0 => some (.send c (op5 21 n) (BitVec.ofNat 8 (wf 8 8 n)))
      | 1 => some (.recv c (op5 21 n) (BitVec.ofNat 8 (wf 8 8 n)))
      | _ => none
  | 0x1A => decodeSys c n
  | 0x1B =>
    legal (wf 15 10 n == 0 && (wf 25 1 n == 1 || wf 6 5 n == 0))
      (.rep c (wf 25 1 n == 1) (wf 14 1 n == 1) (wf 13 1 n == 1) (wf 12 1 n == 1) (wf 11 1 n == 1) (op5 6 n)
        (BitVec.ofNat 6 (wf 0 6 n)))
  | _ => none

/-- The word of the operation that a word of the lane profile selects, with every operand at a value that R44 admits: its opcode and the
func, cond or size of its format (R43, R45), and of a WALK its dimension and a depth that R79 admits. -/
def plain (n : Nat) : Nat :=
  let op := wf 26 6 n
  let keep (lo w : Nat) : Nat := op * 2 ^ 26 + wf lo w n * 2 ^ lo
  if op = 0x01 ∨ op = 0x02 ∨ op = 0x04 ∨ op = 0x0E ∨ op = 0x1A then keep 0 6
  else if op = 0x03 ∨ op = 0x15 ∨ op = 0x19 then keep 0 4
  else if op = 0x0B ∨ op = 0x0C ∨ (0x0F ≤ op ∧ op ≤ 0x14) then keep 13 3
  else if op = 0x18 then
    match wf 0 5 n with
    | 1 => packL 0 0 0 1 0 1
    | 2 => packL 0 0 0 2 0 2
    | 3 => packL 0 0 0 (wf 10 3 n) (max 1 (min 24 (wf 5 5 n))) 3
    | _ => keep 0 5
  else op * 2 ^ 26

/-- The count of R59 for the instruction that a word of the lane profile selects by its opcode and func, whether R44 admits its operands
or not; a word that selects none counts 1. [DESIGN CHOICE, log entry 129] -/
def wordCount (n : Nat) : Nat :=
  let func := wf 0 6 n
  if (decodeLane (.lane 0) (BitVec.ofNat 32 (plain n))).isNone then 1
  else match wf 26 6 n with
    | 0x02 => 2
    | 0x03 => if wf 0 4 n < 4 ∨ wf 0 4 n = 6 then 2 else 1
    | 0x04 => if func < 3 ∨ 11 ≤ func then 3 else if func < 5 then 4 else if func = 5 then 14 else if func = 6 then 16 else 1
    | 0x0B => 2
    | 0x0C => 2
    | 0x0D => 3
    | 0x0E => if func = 2 then 2 else 3
    | 0x0F => 2
    | 0x11 => 4
    | 0x13 => 6
    | 0x15 => match wf 0 4 n with
      | 1 => 2
      | 4 => 5
      | 5 => 2
      | _ => 1
    | 0x17 => 3
    | 0x18 => match wf 0 5 n with
      | 0 => 12
      | 1 => 16
      | 2 => 24
      | _ => 12 + 4 * wf 5 5 n
    | 0x19 => if wf 0 4 n = 0 then 2 else 1
    | 0x1A => match func with
      | 1 => 3
      | 2 => 2
      | 4 => 2
      | _ => 1
    | _ => 1

/-- The body of a repeat prefix on a supervisor core, as R362 reads its word: none for an opcode or encoding that R362 or R373 calls
illegal. -/
def decodeSupBody (c : Core) (n : Nat) : Option Instr :=
  match wf 26 6 n with
  | 0x01 =>
    let func := wf 0 6 n
    if 12 ≤ func ∧ func ≤ 15 then
      if 1 < wf 11 5 n then none
      else
        let rd := op5 21 n; let ra := op5 16 n; let sh := BitVec.ofNat 6 (wf 11 1 n * 32 + wf 6 5 n)
        match func with
        | 12 => some (.shli c rd ra sh)
        | 13 => some (.shri c rd ra sh)
        | 14 => some (.sari c rd ra sh)
        | _ => some (.rori c rd ra sh)
    else decodeAlu c n
  | 0x02 => decodeMul c n
  | 0x04 => decodeFp c n
  | 0x05 => some (.addi c (op5 21 n) (op5 16 n) (BitVec.ofNat 16 (wf 0 16 n)))
  | 0x06 => some (.andi c (op5 21 n) (op5 16 n) (BitVec.ofNat 16 (wf 0 16 n)))
  | 0x07 => some (.ori c (op5 21 n) (op5 16 n) (BitVec.ofNat 16 (wf 0 16 n)))
  | 0x08 => some (.xori c (op5 21 n) (op5 16 n) (BitVec.ofNat 16 (wf 0 16 n)))
  | 0x09 => legal (op5 16 n == 0) (.movi c (op5 21 n) (BitVec.ofNat 16 (wf 0 16 n)))
  | 0x0A => legal (op5 16 n == 0) (.movhi c (op5 21 n) (BitVec.ofNat 16 (wf 0 16 n)))
  | 0x0F => if wf 13 3 n = 6 then some (.ldw c true (op5 21 n) (op5 16 n) (BitVec.ofNat 13 (wf 0 13 n))) else decodeLd c n
  | 0x10 => if wf 13 3 n = 6 then some (.stw c true (op5 21 n) (op5 16 n) (BitVec.ofNat 13 (wf 0 13 n))) else decodeSt c n
  | _ => none

/-- Whether a word is an instruction of a supervisor core: its opcode, func and size are none that R362, R363 or R373 calls illegal,
fields that it does not use are 0 (R43, R363), and a block instruction names three different registers other than s0 (R372). The
spec gives CMINT no func, so that any func of opcode 0x15 that R73 leaves free is taken for it. [DESIGN CHOICE, log entry 111] -/
def legalSup (n : Nat) : Bool :=
  let c : Core := .sup 0
  let rd := wf 21 5 n
  let ra := wf 16 5 n
  let rb := wf 11 5 n
  match wf 26 6 n with
  | 0x0B => (decodeBr c n).isSome
  | 0x0C => (decodeBri c n).isSome
  | 0x0E => rd == 0 && wf 6 10 n == 0 && (wf 0 6 n == 0 && ra == 0 || wf 0 6 n == 1 || wf 0 6 n == 2)
  | 0x15 => (decodeCap c n).isSome || wf 4 6 n == 0 && decide (6 ≤ wf 0 4 n) && wf 20 3 n == 0
  | 0x1A =>
    match wf 0 6 n with
    | 0x02 => wf 6 15 n == 0
    | 0x10 => wf 6 20 n == 0
    | 0x11 => wf 6 20 n == 0
    | 0x12 => wf 6 20 n == 0
    | 0x13 => wf 6 5 n == 0
    | 0x14 => wf 6 5 n == 0
    | 0x15 => wf 6 5 n == 0
    | 0x16 => wf 6 20 n == 0
    | 0x17 => wf 6 5 n == 0
    | _ => false
  | 0x1B => wf 15 9 n == 0 && wf 12 3 n == 0 && (wf 24 1 n == 1 || wf 25 1 n == 1)
  | 0x20 => wf 22 4 n != 15
  | 0x21 => true
  | 0x22 => wf 6 5 n == 0 &&
    (wf 0 6 n == 3 || decide (wf 0 6 n < 3) && rd != 0 && ra != 0 && rb != 0 && rd != ra && rd != rb && ra != rb)
  | 0x23 => wf 18 3 n == 0
  | _ => (decodeSupBody c n).isSome

/-- The number a lane-engine instruction is encoded as; none for a command that is no lane-engine instruction, and for an
operand that the lane profile has no encoding for. -/
def encodeLaneN : Instr → Option Nat
  | .add _ rd ra rb => some (packR 1 rd.toNat ra.toNat rb.toNat 0 0)
  | .sub _ rd ra rb => some (packR 1 rd.toNat ra.toNat rb.toNat 0 1)
  | .and _ rd ra rb => some (packR 1 rd.toNat ra.toNat rb.toNat 0 2)
  | .or _ rd ra rb => some (packR 1 rd.toNat ra.toNat rb.toNat 0 3)
  | .xor _ rd ra rb => some (packR 1 rd.toNat ra.toNat rb.toNat 0 4)
  | .andn _ rd ra rb => some (packR 1 rd.toNat ra.toNat rb.toNat 0 5)
  | .shl _ rd ra rb => some (packR 1 rd.toNat ra.toNat rb.toNat 0 8)
  | .shr _ rd ra rb => some (packR 1 rd.toNat ra.toNat rb.toNat 0 9)
  | .sar _ rd ra rb => some (packR 1 rd.toNat ra.toNat rb.toNat 0 10)
  | .ror _ rd ra rb => some (packR 1 rd.toNat ra.toNat rb.toNat 0 11)
  | .min _ rd ra rb => some (packR 1 rd.toNat ra.toNat rb.toNat 0 16)
  | .max _ rd ra rb => some (packR 1 rd.toNat ra.toNat rb.toNat 0 17)
  | .minu _ rd ra rb => some (packR 1 rd.toNat ra.toNat rb.toNat 0 18)
  | .maxu _ rd ra rb => some (packR 1 rd.toNat ra.toNat rb.toNat 0 19)
  | .adds _ rd ra rb => some (packR 1 rd.toNat ra.toNat rb.toNat 0 22)
  | .subs _ rd ra rb => some (packR 1 rd.toNat ra.toNat rb.toNat 0 23)
  | .adds15 _ rd ra rb => some (packR 1 rd.toNat ra.toNat rb.toNat 0 24)
  | .subs15 _ rd ra rb => some (packR 1 rd.toNat ra.toNat rb.toNat 0 25)
  | .mov _ rd ra => some (packR 1 rd.toNat ra.toNat 0 0 6)
  | .abs _ rd ra => some (packR 1 rd.toNat ra.toNat 0 0 20)
  | .neg _ rd ra => some (packR 1 rd.toNat ra.toNat 0 0 21)
  | .sat15 _ rd ra => some (packR 1 rd.toNat ra.toNat 0 0 26)
  | .clz _ rd ra => some (packR 1 rd.toNat ra.toNat 0 0 27)
  | .nop _ => some (packR 1 0 0 0 0 7)
  | .shli _ rd ra sh => if sh.toNat < 32 then some (packR 1 rd.toNat ra.toNat 0 sh.toNat 12) else none
  | .shri _ rd ra sh => if sh.toNat < 32 then some (packR 1 rd.toNat ra.toNat 0 sh.toNat 13) else none
  | .sari _ rd ra sh => if sh.toNat < 32 then some (packR 1 rd.toNat ra.toNat 0 sh.toNat 14) else none
  | .rori _ rd ra sh => if sh.toNat < 32 then some (packR 1 rd.toNat ra.toNat 0 sh.toNat 15) else none
  | .mul _ rd ra rb => some (packR 2 rd.toNat ra.toNat rb.toNat 0 0)
  | .mulh _ rd ra rb => some (packR 2 rd.toNat ra.toNat rb.toNat 0 1)
  | .mulhu _ rd ra rb => some (packR 2 rd.toNat ra.toNat rb.toNat 0 2)
  | .qmul15 _ rd ra rb => some (packR 2 rd.toNat ra.toNat rb.toNat 0 3)
  | .qmul31 _ rd ra rb => some (packR 2 rd.toNat ra.toNat rb.toNat 0 4)
  | .mac _ acc ra rb => some (packA 0 ra.toNat rb.toNat 0 acc.toNat 0)
  | .msu _ acc ra rb => some (packA 0 ra.toNat rb.toNat 0 acc.toNat 1)
  | .macs _ acc ra rb => some (packA 0 ra.toNat rb.toNat 0 acc.toNat 2)
  | .msus _ acc ra rb => some (packA 0 ra.toNat rb.toNat 0 acc.toNat 3)
  | .aclr _ acc => some (packA 0 0 0 0 acc.toNat 4)
  | .ald _ acc ra sh => some (packA 0 ra.toNat 0 sh.toNat acc.toNat 5)
  | .ard _ rd acc sh => some (packA rd.toNat 0 0 sh.toNat acc.toNat 6)
  | .ardl _ rd acc sh => some (packA rd.toNat 0 0 sh.toNat acc.toNat 7)
  | .ardh _ rd acc => some (packA rd.toNat 0 0 0 acc.toNat 8)
  | .fadd _ rd ra rb => some (packR 4 rd.toNat ra.toNat rb.toNat 0 0)
  | .fsub _ rd ra rb => some (packR 4 rd.toNat ra.toNat rb.toNat 0 1)
  | .fmul _ rd ra rb => some (packR 4 rd.toNat ra.toNat rb.toNat 0 2)
  | .fdiv _ rd ra rb => some (packR 4 rd.toNat ra.toNat rb.toNat 0 5)
  | .fmin _ rd ra rb => some (packR 4 rd.toNat ra.toNat rb.toNat 0 7)
  | .fmax _ rd ra rb => some (packR 4 rd.toNat ra.toNat rb.toNat 0 8)
  | .fma _ rd ra rb rc => some (packR 4 rd.toNat ra.toNat rb.toNat rc.toNat 3)
  | .fms _ rd ra rb rc => some (packR 4 rd.toNat ra.toNat rb.toNat rc.toNat 4)
  | .fsqrt _ rd ra => some (packR 4 rd.toNat ra.toNat 0 0 6)
  | .fabs _ rd ra => some (packR 4 rd.toNat ra.toNat 0 0 9)
  | .fneg _ rd ra => some (packR 4 rd.toNat ra.toNat 0 0 10)
  | .fcvtif _ rd ra => some (packR 4 rd.toNat ra.toNat 0 0 11)
  | .fcvtfi _ rd ra => some (packR 4 rd.toNat ra.toNat 0 0 12)
  | .fcvtqf _ rd ra => some (packR 4 rd.toNat ra.toNat 0 0 13)
  | .fcvtfq _ rd ra => some (packR 4 rd.toNat ra.toNat 0 0 14)
  | .addi _ rd ra imm => some (packI 5 rd.toNat ra.toNat imm.toNat)
  | .andi _ rd ra imm => some (packI 6 rd.toNat ra.toNat imm.toNat)
  | .ori _ rd ra imm => some (packI 7 rd.toNat ra.toNat imm.toNat)
  | .xori _ rd ra imm => some (packI 8 rd.toNat ra.toNat imm.toNat)
  | .movi _ rd imm => some (packI 9 rd.toNat 0 imm.toNat)
  | .movhi _ rd imm => some (packI 10 rd.toNat 0 imm.toNat)
  | .beq _ ra rb off => some (packB 0x0B ra.toNat rb.toNat 0 off.toNat)
  | .bne _ ra rb off => some (packB 0x0B ra.toNat rb.toNat 1 off.toNat)
  | .blt _ ra rb off => some (packB 0x0B ra.toNat rb.toNat 2 off.toNat)
  | .bge _ ra rb off => some (packB 0x0B ra.toNat rb.toNat 3 off.toNat)
  | .bltu _ ra rb off => some (packB 0x0B ra.toNat rb.toNat 4 off.toNat)
  | .bgeu _ ra rb off => some (packB 0x0B ra.toNat rb.toNat 5 off.toNat)
  | .bflt _ ra rb off => some (packB 0x0B ra.toNat rb.toNat 6 off.toNat)
  | .bfge _ ra rb off => some (packB 0x0B ra.toNat rb.toNat 7 off.toNat)
  | .beqi _ ra simm off => some (packB 0x0C ra.toNat simm.toNat 0 off.toNat)
  | .bnei _ ra simm off => some (packB 0x0C ra.toNat simm.toNat 1 off.toNat)
  | .blti _ ra simm off => some (packB 0x0C ra.toNat simm.toNat 2 off.toNat)
  | .bgei _ ra simm off => some (packB 0x0C ra.toNat simm.toNat 3 off.toNat)
  | .bltui _ ra simm off => some (packB 0x0C ra.toNat simm.toNat 4 off.toNat)
  | .bgeui _ ra simm off => some (packB 0x0C ra.toNat simm.toNat 5 off.toNat)
  | .call _ target => some (0x0D * 2 ^ 26 + target.toNat)
  | .ret _ => some (packI 0x0E 0 0 0)
  | .callr _ ra => some (packI 0x0E 0 ra.toNat 1)
  | .jr _ ra => some (packI 0x0E 0 ra.toNat 2)
  | .ldw _ wide rd ra simm => if wide then none else some (packM 15 rd.toNat ra.toNat 2 0 simm.toNat)
  | .ldh _ rd ra simm => some (packM 15 rd.toNat ra.toNat 1 0 simm.toNat)
  | .ldhu _ rd ra simm => some (packM 15 rd.toNat ra.toNat 1 1 simm.toNat)
  | .ldb _ rd ra simm => some (packM 15 rd.toNat ra.toNat 0 0 simm.toNat)
  | .ldbu _ rd ra simm => some (packM 15 rd.toNat ra.toNat 0 1 simm.toNat)
  | .lds _ rd ra simm => some (packM 17 rd.toNat ra.toNat 2 0 simm.toNat)
  | .ldsh _ rd ra simm => some (packM 17 rd.toNat ra.toNat 1 0 simm.toNat)
  | .ldshu _ rd ra simm => some (packM 17 rd.toNat ra.toNat 1 1 simm.toNat)
  | .ldsb _ rd ra simm => some (packM 17 rd.toNat ra.toNat 0 0 simm.toNat)
  | .ldsbu _ rd ra simm => some (packM 17 rd.toNat ra.toNat 0 1 simm.toNat)
  | .ldc _ rd ra simm => some (packM 19 rd.toNat ra.toNat 2 0 simm.toNat)
  | .ldch _ rd ra simm => some (packM 19 rd.toNat ra.toNat 1 0 simm.toNat)
  | .ldchu _ rd ra simm => some (packM 19 rd.toNat ra.toNat 1 1 simm.toNat)
  | .ldcb _ rd ra simm => some (packM 19 rd.toNat ra.toNat 0 0 simm.toNat)
  | .ldcbu _ rd ra simm => some (packM 19 rd.toNat ra.toNat 0 1 simm.toNat)
  | .stw _ wide rs ra simm => if wide then none else some (packM 16 rs.toNat ra.toNat 2 0 simm.toNat)
  | .sth _ rs ra simm => some (packM 16 rs.toNat ra.toNat 1 0 simm.toNat)
  | .stb _ rs ra simm => some (packM 16 rs.toNat ra.toNat 0 0 simm.toNat)
  | .sts _ rs ra simm => some (packM 18 rs.toNat ra.toNat 2 0 simm.toNat)
  | .stsh _ rs ra simm => some (packM 18 rs.toNat ra.toNat 1 0 simm.toNat)
  | .stsb _ rs ra simm => some (packM 18 rs.toNat ra.toNat 0 0 simm.toNat)
  | .stc _ rs ra simm => some (packM 20 rs.toNat ra.toNat 2 0 simm.toNat)
  | .stch _ rs ra simm => some (packM 20 rs.toNat ra.toNat 1 0 simm.toNat)
  | .stcb _ rs ra simm => some (packM 20 rs.toNat ra.toNat 0 0 simm.toNat)
  | .cmov _ cd cs => some (packC cd.toNat cs.toNat 0 0 0)
  | .cnarrow _ cd cs ra rb => some (packC cd.toNat cs.toNat ra.toNat rb.toNat 1)
  | .cperm _ cd cs ra => some (packC cd.toNat cs.toNat ra.toNat 0 2)
  | .cclr _ cd => some (packC cd.toNat 0 0 0 3)
  | .cld _ cd ra => some (packC cd.toNat 0 ra.toNat 0 4)
  | .cst _ cs ra => some (packC 0 cs.toNat ra.toNat 0 5)
  | .smp _ rd port => some (packI 0x16 rd.toNat 0 port.toNat)
  | .edge _ cap index field rs rt => some (packP cap.toNat rs.toNat rt.toNat index.toNat field.toNat)
  | .look _ rd ra cap => some (packL rd.toNat ra.toNat cap.toNat 0 0 0)
  | .interp2 _ rd ra cap => if ra.toNat + 1 ≤ 31 then some (packL rd.toNat ra.toNat cap.toNat 1 0 1) else none
  | .interp3 _ rd ra cap => if ra.toNat + 2 ≤ 31 then some (packL rd.toNat ra.toNat cap.toNat 2 0 2) else none
  | .walk _ rd ra cap nm1 depth =>
    if 1 ≤ depth.toNat ∧ depth.toNat ≤ 24 ∧ ra.toNat + nm1.toNat ≤ 31 then
      some (packL rd.toNat ra.toNat cap.toNat nm1.toNat depth.toNat 3) else none
  | .send _ reg route => some (packN reg.toNat route.toNat 0)
  | .recv _ reg route => some (packN reg.toNat route.toNat 1)
  | .endTask _ => some (packS 0 0 0 0)
  | .ifence _ => some (packS 0 0 0 1)
  | .time _ rd => if rd.toNat % 2 = 0 then some (packS rd.toNat 0 0 2) else none
  | .tin _ rd n => if n.toNat < 8 then some (packS rd.toNat 0 n.toNat 3) else none
  | .sig _ cap => some (packS 0 cap.toNat 0 4)
  | .rep _ rsrc advRb advRa advRd ainc cnt nm1 =>
    if rsrc = true ∨ cnt.toNat = 0 then
      some (packX (b2n rsrc) (b2n advRb) (b2n advRa) (b2n advRd) (b2n ainc) cnt.toNat nm1.toNat) else none
  | _ => none

/-- The word of a lane-engine instruction. -/
def encodeLane (i : Instr) : Option Word := (encodeLaneN i).map (BitVec.ofNat 32)

end Sys2Proof.Machine
end

