-- ==== Sys2Proof/Machine/Lane.lean ====
section
/-! DEFINITION. A lane engine: its registers, its task and the ec of each instruction (R56 to R58), aborts and budget stops
(R55, R65, R125, R132), its fetches (R72), its loads and its store buffer (R67 to R71, R90 to R93). -/

namespace Sys2Proof.Machine

/-- What an instruction of a lane engine comes to: it goes on to the next index, to a target, ends the task, or aborts; or a resource
refuses its access in an ec (R614). -/
inductive LRes where
  | seq (s : State)
  | jump (s : State) (target : Nat)
  | stop (s : State)
  | abort (s : State) (code : Nat)
  | refuse (s : State) (at_ : Nat)

/-! Registers (R34). -/

/-- A w register. -/
def Eng.getW (g : Eng) (r : Nat) : Word := Tab.look (fun _ => 0) g.w r
/-- A w register written. -/
def Eng.putW (g : Eng) (r : Nat) (v : Word) : Eng := { g with w := Tab.put (fun _ => 0) g.w r v }
/-- An accumulator. -/
def Eng.getAcc (g : Eng) (n : Nat) : Dword := Tab.look (fun _ => 0) g.acc n
/-- An accumulator written. -/
def Eng.putAcc (g : Eng) (n : Nat) (v : Dword) : Eng := { g with acc := Tab.put (fun _ => 0) g.acc n v }
/-- A capability register. -/
def Eng.getCap (g : Eng) (k : Nat) : Cap := Tab.look (fun _ => Cap.none) g.cap k
/-- A capability register written. -/
def Eng.putCap (g : Eng) (k : Nat) (v : Cap) : Eng := { g with cap := Tab.put (fun _ => Cap.none) g.cap k v }
/-- A sample port. -/
def Eng.getSp (g : Eng) (k : Nat) : Word := Tab.look (fun _ => 0) g.sp k
/-- A sample port delivered. -/
def Eng.putSp (g : Eng) (k : Nat) (v : Word) : Eng := { g with sp := Tab.put (fun _ => 0) g.sp k v }

/-- A w register of a logical engine. -/
def State.w (s : State) (e : Nat) (r : BitVec 5) : Word := (s.engine e).getW r.toNat
/-- A w register of a logical engine written. -/
def State.setW (s : State) (e : Nat) (r : BitVec 5) (v : Word) : State := s.setEng e ((s.engine e).putW r.toNat v)
/-- An accumulator of a logical engine. -/
def State.acc (s : State) (e : Nat) (n : BitVec 2) : Dword := (s.engine e).getAcc n.toNat
/-- An accumulator of a logical engine written. -/
def State.setAcc (s : State) (e : Nat) (n : BitVec 2) (v : Dword) : State := s.setEng e ((s.engine e).putAcc n.toNat v)
/-- A capability register of a logical engine. -/
def State.lcap (s : State) (e : Nat) (k : BitVec 3) : Cap := (s.engine e).getCap k.toNat
/-- A capability register of a logical engine written. -/
def State.setLcap (s : State) (e : Nat) (k : BitVec 3) (v : Cap) : State := s.setEng e ((s.engine e).putCap k.toNat v)

/-- Whether the engine's return stack traps when full, in the active bank (R51, R148). -/
def State.trapMode (s : State) (e : Nat) : Bool :=
  if s.bank = 0 then (s.engine e).trapA else (s.engine e).trapB

/-! Aborts and stops (R55, R58, R125, R132). -/

/-- The abort record of a square: filled while VALID is 0, counted in ABORTCNT while it is 1 (R132). -/
def State.recordAbortAs (s : State) (e phys cause pc tick : Nat) (dup : Bool) : State :=
  let sq := e / 8
  if s.flag F.SQ_ABORT_VALID sq then s.bump F.SQ_ABORTCNT_COUNT F.SQ_ABORTCNT_SAT sq
  else
    (s.setRegN .SQ_ABORT sq (cause + e % 8 * 2 ^ 8 + phys * 2 ^ 11 + 2 ^ 15 + pc % 2 ^ 12 * 2 ^ 16 + b2n dup * 2 ^ 28)).setPair
      .SQ_ABORTL .SQ_ABORTH sq tick

/-- The abort record takes the task that an engine runs. -/
def State.recordAbort (s : State) (e cause pc tick : Nat) : State :=
  s.recordAbortAs e (s.physOf e) cause pc tick ((s.engine e).role != .single)

/-- One 12-byte record of a signature (R397). -/
def sigRecord (w0 w1 w2 : Nat) : List Byte := leBytes 4 w0 ++ leBytes 4 w1 ++ leBytes 4 w2

/-- A copy's signature takes a record (R397). -/
def Eng.sign (g : Eng) (r : List Byte) : Eng := { g with sig := crcBytes g.sig r }

/-- The task ends: a copy of a duplicated task appends its termination record (R397), and the clock closes (R117). -/
def Eng.endTask (g : Eng) (cause : Nat) : Eng :=
  let g := if g.role = .single then g else g.sign (sigRecord (0xF + cause * 2 ^ 8) 0 0)
  { g with running := false, woken := false }

/-- The task aborts (R55): the square records it and raises a safety event. -/
def State.laneAbort (s : State) (e cause pc tick : Nat) : State :=
  let s := (s.recordAbort e cause pc tick).raiseEv (sqDom (e / 8)) 4 (e / 8)
  s.setEng e ((s.engine e).endTask cause)

/-- The overrun guard stops the task in ec S + BUDGET (R58, R125), and the square's budget-stop source of Flint asserts for
one ec. -/
def State.budgetStop (s : State) (e : Nat) (pc : Nat) : State :=
  let g := s.engine e
  let t := g.start + g.budget
  let s := s.reach t
  let s := (s.recordAbort e 9 pc t).bump F.SQ_SLOTSTAT_OVERRUN F.SQ_SLOTSTAT_OVRSAT (e / 8)
  let s := (s.raiseEv (sqDom (e / 8)) 4 (e / 8)).fltPulse (320 + e / 8)
  s.setEng e ((s.engine e).endTask 9)

/-! Fetches (R72). -/

/-- Where a local address of an engine lies in the physical map (R37, R581). -/
def State.laneAddr (s : State) (e a : Nat) : Nat :=
  let b := sqBase (e / 8)
  let p := s.physOf e
  if a < 0x4000 then b + p * 0x10000 + a
  else if a < 0x40000 then b + p * 0x10000 + 0x4000 + (a - 0x10000)
  else b + 0xC0000 + (a - 0x40000)

/-- A byte as the entries of a hold buffer leave it (R396). -/
def heldByte (l : List Held) (a : Nat) (b : Byte) : Byte :=
  l.foldl (fun b x =>
    match x.eff with
    | .sts addr size v => if addr ≤ a && a < addr + size then BitVec.ofNat 8 (v >>> (8 * (a - addr))) else b
    | .cst addr c => if addr ≤ a && a < addr + 16 then BitVec.ofNat 8 (c.val.toNat >>> (8 * (a - addr))) else b
    | _ => b) b

/-- A byte of a local address as the engine's buffers leave it over what memory gives: the youngest of its own entries that writes
it (R69, R396, R400). -/
def Eng.overlay (g : Eng) (a : Nat) (m : Byte) : Byte :=
  if a < 0x40000 then bufByte g.local_ a m
  else heldByte g.hold a (heldByte g.rel a (bufByte g.shared a m))

/-- A byte of a local address as the engine reads it now (R69). -/
def State.laneByte (s : State) (e a : Nat) : Byte := (s.engine e).overlay a (s.byte (s.laneAddr e a))

/-- n bytes of a local address as the engine reads them now. -/
def State.laneBytes (s : State) (e a n : Nat) : Nat := ofLeBytes ((List.range n).map (fun k => s.laneByte e (a + k)))

/-- A byte as remembered writes of an engine's own store buffer in ec u or later leave it: in ec u its buffer still held them. -/
def State.ownSince (s : State) (e u a : Nat) (b : Byte) : Byte :=
  s.hist.foldr (fun x b => if x.eng == some e && x.from_ u && x.covers a then BitVec.ofNat 8 (x.new >>> (8 * (a - x.addr))) else b) b

/-- A byte of a local address as the engine reads it in ec u: memory as it stood before any write of that ec, under the engine's own
stores (R69, R96, R98). -/
def State.laneByteAt (s : State) (e u a : Nat) : Byte :=
  let p := s.laneAddr e a
  (s.engine e).overlay a (s.ownSince e u p (s.byteWhen (MemWrite.from_ u) p))

/-- n bytes of a local address as the engine reads them in ec u. -/
def State.laneBytesAt (s : State) (e u a n : Nat) : Nat := ofLeBytes ((List.range n).map (fun k => s.laneByteAt e u (a + k)))

/-- What the check of the word at a local address makes of the engine's read in ec u (R71, R96). -/
def State.laneCheckAt (s : State) (e u a : Nat) : Bool × State :=
  s.checkAt u (s.chkWhen (MemWrite.from_ u) (s.laneAddr e a)) (s.laneAddr e a) 0

/-- The two banks of shared memory to which logical engine e is read-connected in an ec (R97). -/
def readBanks (e t : Nat) : List Nat := [(e + t) % 8, (e + t + 4) % 8]

/-- The ec in which an instruction whose first ec is t reads the k-th 64-bit word of a load or CLD at a local address: the second and
the third from its own memories, the one of its first four in which the engine is read-connected to the word's bank from shared
memory (R95, R98). -/
def readEc (e t k a : Nat) : Nat :=
  if a < 0x40000 then t + 1 + k
  else ((List.range 4).map (fun i => t + i)).find? (fun u => (readBanks e u).contains (a / 8 % 8)) |>.getD t

/-- The form in which the engine executes the instruction at an index: the form a write found, for the instructions that its fetch
stage held, else the current one (R72, R87). Whether the fetch fails its check, the word, and the state that has logged it. -/
def State.laneFetch (s : State) (e idx : Nat) : Bool × Nat × State :=
  match (s.engine e).old.find? (fun o => o.idx == idx) with
  | some o =>
    let (bad, t) := s.checkAs o.chk (s.laneAddr e (4 * idx)) 0
    (bad, o.word, t)
  | none =>
    let (bad, s) := s.checkRead (s.laneAddr e (4 * idx)) 0
    (bad, s.laneBytes e (4 * idx) 4, s)

/-- Whether a word is an instruction of the lane profile (R44). -/
def legalWord (e w : Nat) : Bool := (decodeLane (.lane (Fin.ofNat 512 e)) (BitVec.ofNat 32 w)).isSome

/-- The old forms that are still executed after one more instruction (R72). [DEDUCED, log entry 98] -/
def ageOld (l : List OldForm) : List OldForm :=
  (l.map (fun o => { o with left := o.left - 1 })).filter (fun o => o.left != 0)

/-- The instruction's count is spent and the task goes on at an index. -/
def State.laneAdvance (s : State) (e cnt pc : Nat) : State :=
  let g := s.engine e
  s.setEng e { g with used := g.used + cnt, pc := pc, old := ageOld g.old }

/-- An instruction of a count, on a running engine. Its first ec follows the counts spent (R56). A fetch that fails its check
aborts under 0x07; a fetched word that R44 calls illegal aborts under 0x01, whatever instruction the command names; an instruction
whose first or last ec falls outside the budget window has no effect and the task stops under 0x09, an illegal one too (R55, R58); a
completed instruction at index 4,095 that goes on aborts under 0x02 (R65). On an engine that runs no task, and while the engine clock
stands (R18), nothing happens. [DESIGN CHOICE, log entry 111] -/
def State.laneRun (s : State) (e cnt : Nat) (f : State → LRes) : State :=
  let g := s.engine e
  let first := g.start + g.used
  if !g.running || !s.engClock then s
  else if g.budget < g.used + 1 then s.budgetStop e g.pc
  else
    let (bad, w, u) := (s.reach first).laneFetch e g.pc
    if bad then u.laneAbort e 7 g.pc first
    else if !legalWord e w then (if g.budget < g.used + wordCount w then u.budgetStop e g.pc else u.laneAbort e 1 g.pc first)
    else if g.budget < g.used + cnt then u.budgetStop e g.pc
    else match f (u.reach (first + cnt - 1)) with
      | .seq s =>
        if g.pc = 4095 then (s.laneAdvance e cnt 4095).laneAbort e 2 4095 first
        else s.laneAdvance e cnt (g.pc + 1)
      | .jump s t => s.laneAdvance e cnt t
      | .stop s =>
        let s := s.laneAdvance e cnt g.pc
        s.setEng e ((s.engine e).endTask 0)
      | .abort s code => s.laneAbort e code g.pc first
      | .refuse s t => s.laneAbort e 4 g.pc t

/-! Branches and the return stack (R48, R50, R51, R64). -/

/-- A compare-and-branch: its target is checked whether it is taken or not (R64). -/
def State.laneBranch (s : State) (e : Nat) (off : BitVec 13) (taken : Bool) : LRes :=
  let pc := (s.engine e).pc
  let t : Int := (pc : Int) + off.toInt
  if t < 0 ∨ 4095 < t then .abort s 2
  else if taken then .jump s t.toNat
  else .seq s

/-- A push onto the return stack (R51): none where a full stack traps. An entry has 12 bits, so the index that would follow 4,095 is
kept as 0 (R34, R50). [DESIGN CHOICE, log entry 112] -/
def State.lanePush (s : State) (e ret : Nat) : Option State :=
  let g := s.engine e
  if g.stack.length < 8 then some (s.setEng e { g with stack := ret % 4096 :: g.stack })
  else if s.trapMode e then none
  else some (s.setEng e { g with stack := ret % 4096 :: g.stack.take 7 })

/-- The fault of a register jump to a byte address (R48, R66). -/
def jumpFault (a : Word) : Option Nat :=
  if 0x3FFF < a.toNat then some 2 else if a.toNat % 4 ≠ 0 then some 3 else none

/-! Loads (R37, R38, R67 to R71). -/

/-- The regions of the local map that opcodes serve (R37). -/
inductive Region where
  | own
  | shared
  | window
  deriving DecidableEq, Repr

/-- Whether a region holds an address (R37). -/
def Region.holds (r : Region) (a : Nat) : Bool :=
  match r with
  | .own => a < 0x4000 || (0x10000 ≤ a && a < 0x18000)
  | .shared => 0x40000 ≤ a && a < 0x80000
  | .window => 0x80000 ≤ a && a < 0x100000

/-- The fault of an access of n bytes at an address (R38). -/
def Region.fault (r : Region) (a n : Nat) : Option Nat :=
  if !r.holds a then some 2 else if a % n ≠ 0 then some 3 else none

/-- The effective address of a load or store (R38). -/
def State.laneEA (s : State) (e : Nat) (ra : BitVec 5) (simm : BitVec 13) : Nat :=
  wrapTo 32 ((s.w e ra).toNat + simm.toInt)

/-- A value of n bytes extended to a register: by its sign or by zeros (R46). -/
def extend (n : Nat) (signed : Bool) (v : Nat) : Word :=
  if signed then BitVec.ofInt 32 (sext (8 * n) v) else BitVec.ofNat 32 v

/-- A load of the LD or LDS family (R67, R69), its memory read in the ec of R95 or R98. [DEDUCED, log entry 102] -/
def State.laneLoad (s : State) (e : Nat) (r : Region) (n : Nat) (signed : Bool) (rd ra : BitVec 5) (simm : BitVec 13) : LRes :=
  let a := s.laneEA e ra simm
  match r.fault a n with
  | some c => .abort s c
  | none =>
    let u := readEc e ((s.engine e).start + (s.engine e).used) 0 a
    let (bad, t) := s.laneCheckAt e u a
    if bad then .abort t 8 else .seq (t.setW e rd (extend n signed (s.laneBytesAt e u a n)))

/-! The store buffer (R90, R93). -/

/-- The bytes of an aligned word that two masks select, the newer over the older. -/
def mergeWord (en data en' data' : Nat) : Nat × Nat :=
  (en ||| en', ofLeBytes ((List.range 8).map (fun k =>
    if bit k en' then BitVec.ofNat 8 (data' >>> (8 * k)) else if bit k en then BitVec.ofNat 8 (data >>> (8 * k)) else 0)))

/-- Entries of a granule that a CST wrote lose that mark when a later store writes a byte of the granule (R40). -/
def unmark (granule : Nat) (l : List SbEntry) : List SbEntry :=
  l.map (fun x => if x.addr / 16 = granule then { x with cst := false } else x)

/-- One aligned word placed in the shared part: it merges into a waiting entry of its word, or takes a free entry of the
16; none where it finds no room (R90, R93). -/
def placeShared (l : List SbEntry) (x : SbEntry) : Option (List SbEntry) :=
  if l.any (fun y => y.addr == x.addr) then
    some (l.map (fun y => if y.addr = x.addr then
      { y with en := (mergeWord y.en y.data x.en x.data).1, data := (mergeWord y.en y.data x.en x.data).2, cst := x.cst } else y))
  else if l.length < 16 then some (l ++ [x]) else none

/-- A store that finds no room is discarded, counted and raises a safety event (R93). -/
def State.sbFull (s : State) (e : Nat) : State :=
  (s.bump F.SQ_PORTSTAT_SBFULL F.SQ_PORTSTAT_SBSAT (e / 8)).raiseEv (sqDom (e / 8)) 7 (e / 8)

/-- Whether an entry's slot is still in epoch with its square; a destination drops one that is not (R83, R94). [DEDUCED, log entry 25] -/
def State.slotInEpoch (s : State) (sq phys : Nat) : Bool := s.slotEpoch sq phys == s.sqEpoch sq

/-- An entry written to memory in ec u, its epoch checked: a stale one is dropped and counted in FENCED. The last waiting word of
a CST sets the granule's tag, whatever another engine wrote there between its two words (R40, R83, R90, R94).
[DESIGN CHOICE, log entry 113] -/
def State.drainEntry (s : State) (e u : Nat) (x : SbEntry) (rest : List SbEntry) : State :=
  let sq := e / 8
  if !s.slotInEpoch sq x.phys then s.fence sq
  else
    let b := sqBase sq
    let a := if x.addr < 0x4000 then b + x.phys * 0x10000 + x.addr
      else if x.addr < 0x40000 then b + x.phys * 0x10000 + 0x4000 + (x.addr - 0x10000)
      else b + 0xC0000 + (x.addr - 0x40000)
    let s := s.writeMaskAt u (some e) false a x.en x.data 0
    if x.cst && !rest.any (fun y => y.addr / 16 == x.addr / 16 && y.cst) then s.setTag a true else s

/-- The first ec after t in which an engine is write-connected to the bank of an address (R97). [DESIGN CHOICE, log entry 105] -/
def drainEc (e a t : Nat) : Nat :=
  t + 1 + (a / 8 % 8 + 16 - (e + t + 1) % 8) % 8

/-- The shared entry that drains next: for each bank its oldest entry, of these the one drained first; its place in the buffer and
its ec (R92). [DESIGN CHOICE, log entry 105] -/
def Eng.nextShared (g : Eng) (e : Nat) : Option (Nat × Nat) :=
  let oldest := (List.range 8).filterMap (fun b => g.shared.findIdx? (fun x => x.addr / 8 % 8 == b))
  let due := oldest.filterMap (fun i => g.shared[i]?.map (fun x => (i, drainEc e x.addr (max x.at_ g.drained))))
  due.foldl (fun acc x =>
    match acc with
    | some y => if x.2 < y.2 then some x else acc
    | none => some x) none

/-- The shared entry of an engine that drains next is written (R92, R94). -/
def State.drainShared (s : State) (e : Nat) : State :=
  let g := s.engine e
  match g.nextShared e with
  | none => s
  | some (i, u) =>
    match g.shared[i]? with
    | none => s
    | some x =>
      let rest := g.shared.eraseIdx i
      ((s.reach u).setEng e { g with shared := rest, drained := u }).drainEntry e u x rest

/-- Shared entries that drain before ec t are in memory by then (R92); one that drains in ec t itself goes when its command comes.
[DESIGN CHOICE, log entry 105] -/
def State.drainSharedBefore (s : State) (e t : Nat) : State :=
  repeatN (s.engine e).shared.length (fun _ s =>
    match (s.engine e).nextShared e with
    | some (_, u) => if u < t then s.drainShared e else s
    | none => s) s

/-- A shared store of n bytes enters the store buffer in ec t with the slot of a physical engine (R68, R93, R94). -/
def State.placeSts (s : State) (e phys t a n v : Nat) : State :=
  let s := s.drainSharedBefore e t
  let g := s.engine e
  let x : SbEntry := ⟨a / 8 * 8, (2 ^ n - 1) <<< (a % 8), (v % 2 ^ (8 * n)) <<< (8 * (a % 8)), false, t, phys⟩
  match placeShared (unmark (a / 16) g.shared) x with
  | some l => s.setEng e { g with shared := l }
  | none => s.sbFull e

/-- A CST to shared memory enters the store buffer in ec t: both words or none (R90, R93). -/
def State.placeCst (s : State) (e phys t a : Nat) (c : Cap) : State :=
  let s := s.drainSharedBefore e t
  let g := s.engine e
  let x (k : Nat) : SbEntry := ⟨a + 8 * k, 255, c.val.toNat / 2 ^ (64 * k) % 2 ^ 64, true, t, phys⟩
  match (placeShared g.shared (x 0)).bind (fun l => placeShared l (x 1)) with
  | some l => s.setEng e { g with shared := l }
  | none => s.sbFull e

/-- The oldest local entry is written, in the ec after it entered (R91). -/
def State.drainLocal (s : State) (e : Nat) : State :=
  let g := s.engine e
  match g.local_ with
  | [] => s
  | x :: rest => ((s.reach (x.at_ + 1)).setEng e { g with local_ := rest }).drainEntry e (x.at_ + 1) x rest

/-- Local entries that entered before ec t are in memory by then (R91). -/
def State.drainLocalBefore (s : State) (e t : Nat) : State :=
  repeatN (s.engine e).local_.length (fun _ s =>
    match (s.engine e).local_ with
    | x :: _ => if x.at_ < t then s.drainLocal e else s
    | [] => s) s

/-- A local entry enters the store buffer in ec t (R90). -/
def State.placeLocal (s : State) (e t a en v : Nat) (cst : Bool) : State :=
  let s := s.drainLocalBefore e t
  let g := s.engine e
  let l := if cst then g.local_ else unmark (a / 16) g.local_
  s.setEng e { g with local_ := l ++ [⟨a, en, v, cst, t, s.physOf e⟩] }

/-- The size code of n bytes (R46). -/
def sizeCode (n : Nat) : Nat := if n = 1 then 0 else if n = 2 then 1 else 2

/-- Whether a local store of n bytes reaches the square's snapshot window (R401). -/
def State.inWindow (s : State) (e a n : Nat) : Bool :=
  let sq := e / 8
  let lo := 0x10000 + 32 * s.fld F.SQ_SNAP_WBASE sq
  let hi := min (lo + 64 * min 8 (s.fld F.SQ_SNAP_WLEN sq)) 0x18000
  lo < a + n && a < hi

/-- A store of the ST family (R67, R68): the value's low bytes enter the local part of the store buffer. A store into the
engine's own instructions leaves the next two instructions in the form it finds, its check bits included (R72): both of the 64-bit
word, whose other one a poisoned word would take to 0 with it (R432). A copy of a duplicated task signs a
store into the snapshot window (R397). -/
def State.laneStore (s : State) (e n : Nat) (rs ra : BitVec 5) (simm : BitVec 13) (t : Nat) : LRes :=
  let a := s.laneEA e ra simm
  match Region.own.fault a n with
  | some c => .abort s c
  | none =>
    let v := (s.w e rs).toNat % 2 ^ (8 * n)
    let g := s.engine e
    let g := if a < 0x4000 then { g with old := g.old ++ (List.range 2).map (fun i => s.formAt g (s.laneAddr e 0) (a / 8 * 2 + i) 3) } else g
    let g := if g.role ≠ .single ∧ s.inWindow e a n then g.sign (sigRecord (7 + sizeCode n * 2 ^ 8) a v) else g
    .seq ((s.setEng e g).placeLocal e t (a / 8 * 8) ((2 ^ n - 1) <<< (a % 8)) (v <<< (8 * (a % 8))) false)

/-- The last ec of the instruction of a count that an engine executes now. -/
def State.laneLast (s : State) (e cnt : Nat) : Nat := (s.engine e).start + (s.engine e).used + cnt - 1

end Sys2Proof.Machine
end

