-- ==== Sys2Proof/Machine/LaneOps.lean ====
section
/-! DEFINITION. What each lane-engine instruction computes, without its ec: integer and fixed point (R60), accumulators (R61),
immediates (R62), floating point (R63), branches and calls (R64, R66), loads and stores of the engine's own memories (R67,
R68), capability registers (R73), sample ports, time and task inputs (R74, R76, R77), received messages (R82) and the end of
a task (R84). -/

namespace Sys2Proof.Machine

/-- A w register gets a value. -/
def laneSet (e : Nat) (rd : BitVec 5) (v : Word) (s : State) : LRes := .seq (s.setW e rd v)

/-- ADD on a lane engine (R60). -/
def laneAdd (e : Nat) (rd ra rb : BitVec 5) (s : State) : LRes :=
  let a := s.w e ra; let b := s.w e rb; laneSet e rd (a + b) s
/-- SUB on a lane engine (R60). -/
def laneSub (e : Nat) (rd ra rb : BitVec 5) (s : State) : LRes :=
  let a := s.w e ra; let b := s.w e rb; laneSet e rd (a - b) s
/-- AND on a lane engine (R60). -/
def laneAnd (e : Nat) (rd ra rb : BitVec 5) (s : State) : LRes :=
  let a := s.w e ra; let b := s.w e rb; laneSet e rd (a &&& b) s
/-- OR on a lane engine (R60). -/
def laneOr (e : Nat) (rd ra rb : BitVec 5) (s : State) : LRes :=
  let a := s.w e ra; let b := s.w e rb; laneSet e rd (a ||| b) s
/-- XOR on a lane engine (R60). -/
def laneXor (e : Nat) (rd ra rb : BitVec 5) (s : State) : LRes :=
  let a := s.w e ra; let b := s.w e rb; laneSet e rd (a ^^^ b) s
/-- ANDN on a lane engine (R60). -/
def laneAndn (e : Nat) (rd ra rb : BitVec 5) (s : State) : LRes :=
  let a := s.w e ra; let b := s.w e rb; laneSet e rd (a &&& ~~~b) s
/-- SHL on a lane engine (R60). -/
def laneShl (e : Nat) (rd ra rb : BitVec 5) (s : State) : LRes :=
  let a := s.w e ra; let b := s.w e rb; laneSet e rd (a <<< (b.toNat % 32)) s
/-- SHR on a lane engine (R60). -/
def laneShr (e : Nat) (rd ra rb : BitVec 5) (s : State) : LRes :=
  let a := s.w e ra; let b := s.w e rb; laneSet e rd (a >>> (b.toNat % 32)) s
/-- SAR on a lane engine (R60). -/
def laneSar (e : Nat) (rd ra rb : BitVec 5) (s : State) : LRes :=
  let a := s.w e ra; let b := s.w e rb; laneSet e rd (a.sshiftRight (b.toNat % 32)) s
/-- ROR on a lane engine (R60). -/
def laneRor (e : Nat) (rd ra rb : BitVec 5) (s : State) : LRes :=
  let a := s.w e ra; let b := s.w e rb; laneSet e rd (a.rotateRight (b.toNat % 32)) s
/-- MIN on a lane engine (R60). -/
def laneMin (e : Nat) (rd ra rb : BitVec 5) (s : State) : LRes :=
  let a := s.w e ra; let b := s.w e rb; laneSet e rd (minS a b) s
/-- MAX on a lane engine (R60). -/
def laneMax (e : Nat) (rd ra rb : BitVec 5) (s : State) : LRes :=
  let a := s.w e ra; let b := s.w e rb; laneSet e rd (maxS a b) s
/-- MINU on a lane engine (R60). -/
def laneMinu (e : Nat) (rd ra rb : BitVec 5) (s : State) : LRes :=
  let a := s.w e ra; let b := s.w e rb; laneSet e rd (minU a b) s
/-- MAXU on a lane engine (R60). -/
def laneMaxu (e : Nat) (rd ra rb : BitVec 5) (s : State) : LRes :=
  let a := s.w e ra; let b := s.w e rb; laneSet e rd (maxU a b) s
/-- ADDS on a lane engine (R60). -/
def laneAdds (e : Nat) (rd ra rb : BitVec 5) (s : State) : LRes :=
  let a := s.w e ra; let b := s.w e rb; laneSet e rd (satAdd a b) s
/-- SUBS on a lane engine (R60). -/
def laneSubs (e : Nat) (rd ra rb : BitVec 5) (s : State) : LRes :=
  let a := s.w e ra; let b := s.w e rb; laneSet e rd (satSub a b) s
/-- ADDS15 on a lane engine (R60). -/
def laneAdds15 (e : Nat) (rd ra rb : BitVec 5) (s : State) : LRes :=
  let a := s.w e ra; let b := s.w e rb; laneSet e rd (addS15 a b) s
/-- SUBS15 on a lane engine (R60). -/
def laneSubs15 (e : Nat) (rd ra rb : BitVec 5) (s : State) : LRes :=
  let a := s.w e ra; let b := s.w e rb; laneSet e rd (subS15 a b) s
/-- MUL on a lane engine (R60). -/
def laneMul (e : Nat) (rd ra rb : BitVec 5) (s : State) : LRes :=
  let a := s.w e ra; let b := s.w e rb; laneSet e rd (a * b) s
/-- MULH on a lane engine (R60). -/
def laneMulh (e : Nat) (rd ra rb : BitVec 5) (s : State) : LRes :=
  let a := s.w e ra; let b := s.w e rb; laneSet e rd (mulH a b) s
/-- MULHU on a lane engine (R60). -/
def laneMulhu (e : Nat) (rd ra rb : BitVec 5) (s : State) : LRes :=
  let a := s.w e ra; let b := s.w e rb; laneSet e rd (mulHU a b) s
/-- QMUL15 on a lane engine (R60). -/
def laneQmul15 (e : Nat) (rd ra rb : BitVec 5) (s : State) : LRes :=
  let a := s.w e ra; let b := s.w e rb; laneSet e rd (qMul15 a b) s
/-- QMUL31 on a lane engine (R60). -/
def laneQmul31 (e : Nat) (rd ra rb : BitVec 5) (s : State) : LRes :=
  let a := s.w e ra; let b := s.w e rb; laneSet e rd (qMul31 a b) s
/-- FADD on a lane engine (R63). -/
def laneFadd (e : Nat) (rd ra rb : BitVec 5) (s : State) : LRes :=
  let a := s.w e ra; let b := s.w e rb; laneSet e rd (fAdd false a b) s
/-- FSUB on a lane engine (R63). -/
def laneFsub (e : Nat) (rd ra rb : BitVec 5) (s : State) : LRes :=
  let a := s.w e ra; let b := s.w e rb; laneSet e rd (fAdd true a b) s
/-- FMUL on a lane engine (R63). -/
def laneFmul (e : Nat) (rd ra rb : BitVec 5) (s : State) : LRes :=
  let a := s.w e ra; let b := s.w e rb; laneSet e rd (fMul a b) s
/-- FDIV on a lane engine (R63). -/
def laneFdiv (e : Nat) (rd ra rb : BitVec 5) (s : State) : LRes :=
  let a := s.w e ra; let b := s.w e rb; laneSet e rd (fDiv a b) s
/-- FMIN on a lane engine (R63). -/
def laneFmin (e : Nat) (rd ra rb : BitVec 5) (s : State) : LRes :=
  let a := s.w e ra; let b := s.w e rb; laneSet e rd (fMin a b) s
/-- FMAX on a lane engine (R63). -/
def laneFmax (e : Nat) (rd ra rb : BitVec 5) (s : State) : LRes :=
  let a := s.w e ra; let b := s.w e rb; laneSet e rd (fMax a b) s
/-- MOV on a lane engine (R60). -/
def laneMov (e : Nat) (rd ra : BitVec 5) (s : State) : LRes :=
  let a := s.w e ra; laneSet e rd (a) s
/-- ABS on a lane engine (R60). -/
def laneAbs (e : Nat) (rd ra : BitVec 5) (s : State) : LRes :=
  let a := s.w e ra; laneSet e rd (absS a) s
/-- NEG on a lane engine (R60). -/
def laneNeg (e : Nat) (rd ra : BitVec 5) (s : State) : LRes :=
  let a := s.w e ra; laneSet e rd (-a) s
/-- SAT15 on a lane engine (R60). -/
def laneSat15 (e : Nat) (rd ra : BitVec 5) (s : State) : LRes :=
  let a := s.w e ra; laneSet e rd (sat15 a) s
/-- CLZ on a lane engine (R60). -/
def laneClz (e : Nat) (rd ra : BitVec 5) (s : State) : LRes :=
  let a := s.w e ra; laneSet e rd (BitVec.ofNat 32 (clz a)) s
/-- FSQRT on a lane engine (R63). -/
def laneFsqrt (e : Nat) (rd ra : BitVec 5) (s : State) : LRes :=
  let a := s.w e ra; laneSet e rd (fSqrt a) s
/-- FABS on a lane engine (R63). -/
def laneFabs (e : Nat) (rd ra : BitVec 5) (s : State) : LRes :=
  let a := s.w e ra; laneSet e rd (fAbs a) s
/-- FNEG on a lane engine (R63). -/
def laneFneg (e : Nat) (rd ra : BitVec 5) (s : State) : LRes :=
  let a := s.w e ra; laneSet e rd (fNeg a) s
/-- FCVTIF on a lane engine (R63). -/
def laneFcvtif (e : Nat) (rd ra : BitVec 5) (s : State) : LRes :=
  let a := s.w e ra; laneSet e rd (fFromInt 0 a) s
/-- FCVTFI on a lane engine (R63). -/
def laneFcvtfi (e : Nat) (rd ra : BitVec 5) (s : State) : LRes :=
  let a := s.w e ra; laneSet e rd (BitVec.ofInt 32 (fToInt 0 a)) s
/-- FCVTQF on a lane engine (R63). -/
def laneFcvtqf (e : Nat) (rd ra : BitVec 5) (s : State) : LRes :=
  let a := s.w e ra; laneSet e rd (fFromInt (-31) a) s
/-- FCVTFQ on a lane engine (R63). -/
def laneFcvtfq (e : Nat) (rd ra : BitVec 5) (s : State) : LRes :=
  let a := s.w e ra; laneSet e rd (BitVec.ofInt 32 (fToInt 31 a)) s
/-- SHLI on a lane engine (R60); a shift of 32 or more has a non-zero rb field, which R44 calls illegal. [DEDUCED, log entry 102] -/
def laneShli (e : Nat) (rd ra : BitVec 5) (sh : BitVec 6) (s : State) : LRes :=
  let a := s.w e ra
  if 32 ≤ sh.toNat then .abort s 1 else laneSet e rd (a <<< sh.toNat) s
/-- SHRI on a lane engine (R60); a shift of 32 or more has a non-zero rb field, which R44 calls illegal. -/
def laneShri (e : Nat) (rd ra : BitVec 5) (sh : BitVec 6) (s : State) : LRes :=
  let a := s.w e ra
  if 32 ≤ sh.toNat then .abort s 1 else laneSet e rd (a >>> sh.toNat) s
/-- SARI on a lane engine (R60); a shift of 32 or more has a non-zero rb field, which R44 calls illegal. -/
def laneSari (e : Nat) (rd ra : BitVec 5) (sh : BitVec 6) (s : State) : LRes :=
  let a := s.w e ra
  if 32 ≤ sh.toNat then .abort s 1 else laneSet e rd (a.sshiftRight sh.toNat) s
/-- RORI on a lane engine (R60); a shift of 32 or more has a non-zero rb field, which R44 calls illegal. -/
def laneRori (e : Nat) (rd ra : BitVec 5) (sh : BitVec 6) (s : State) : LRes :=
  let a := s.w e ra
  if 32 ≤ sh.toNat then .abort s 1 else laneSet e rd (a.rotateRight sh.toNat) s
/-- MAC (R61). -/
def laneMac (e : Nat) (n : BitVec 2) (ra rb : BitVec 5) (s : State) : LRes :=
  .seq (s.setAcc e n (macAcc false false (s.acc e n) (s.w e ra) (s.w e rb)))
/-- MSU (R61). -/
def laneMsu (e : Nat) (n : BitVec 2) (ra rb : BitVec 5) (s : State) : LRes :=
  .seq (s.setAcc e n (macAcc true false (s.acc e n) (s.w e ra) (s.w e rb)))
/-- MACS (R61). -/
def laneMacs (e : Nat) (n : BitVec 2) (ra rb : BitVec 5) (s : State) : LRes :=
  .seq (s.setAcc e n (macAcc false true (s.acc e n) (s.w e ra) (s.w e rb)))
/-- MSUS (R61). -/
def laneMsus (e : Nat) (n : BitVec 2) (ra rb : BitVec 5) (s : State) : LRes :=
  .seq (s.setAcc e n (macAcc true true (s.acc e n) (s.w e ra) (s.w e rb)))
/-- ACLR (R61). -/
def laneAclr (e : Nat) (n : BitVec 2) (s : State) : LRes := .seq (s.setAcc e n 0)
/-- ALD (R61). -/
def laneAld (e : Nat) (n : BitVec 2) (ra sh : BitVec 5) (s : State) : LRes := .seq (s.setAcc e n (aldAcc (s.w e ra) sh.toNat))
/-- ARD (R61). -/
def laneArd (e : Nat) (rd : BitVec 5) (n : BitVec 2) (sh : BitVec 5) (s : State) : LRes := laneSet e rd (ardVal (s.acc e n) sh.toNat) s
/-- ARDL (R61). -/
def laneArdl (e : Nat) (rd : BitVec 5) (n : BitVec 2) (sh : BitVec 5) (s : State) : LRes := laneSet e rd (ardlVal (s.acc e n) sh.toNat) s
/-- ARDH (R61). -/
def laneArdh (e : Nat) (rd : BitVec 5) (n : BitVec 2) (s : State) : LRes := laneSet e rd (ardhVal (s.acc e n)) s
/-- FMA on a lane engine (R63). -/
def laneFma (e : Nat) (rd ra rb rc : BitVec 5) (s : State) : LRes := laneSet e rd (fFma false (s.w e ra) (s.w e rb) (s.w e rc)) s
/-- FMS on a lane engine (R63). -/
def laneFms (e : Nat) (rd ra rb rc : BitVec 5) (s : State) : LRes := laneSet e rd (fFma true (s.w e ra) (s.w e rb) (s.w e rc)) s
/-- ADDI on a lane engine (R62). -/
def laneAddi (e : Nat) (rd ra : BitVec 5) (imm : BitVec 16) (s : State) : LRes := laneSet e rd (s.w e ra + imm.signExtend 32) s
/-- ANDI on a lane engine (R62). -/
def laneAndi (e : Nat) (rd ra : BitVec 5) (imm : BitVec 16) (s : State) : LRes := laneSet e rd (s.w e ra &&& imm.setWidth 32) s
/-- ORI on a lane engine (R62). -/
def laneOri (e : Nat) (rd ra : BitVec 5) (imm : BitVec 16) (s : State) : LRes := laneSet e rd (s.w e ra ||| imm.setWidth 32) s
/-- XORI on a lane engine (R62). -/
def laneXori (e : Nat) (rd ra : BitVec 5) (imm : BitVec 16) (s : State) : LRes := laneSet e rd (s.w e ra ^^^ imm.setWidth 32) s
/-- MOVI on a lane engine (R62). -/
def laneMovi (e : Nat) (rd : BitVec 5) (imm : BitVec 16) (s : State) : LRes := laneSet e rd (imm.signExtend 32) s
/-- MOVHI on a lane engine (R62). -/
def laneMovhi (e : Nat) (rd : BitVec 5) (imm : BitVec 16) (s : State) : LRes := laneSet e rd (imm.setWidth 32 <<< 16) s

/-- The comparison of BEQ (R47), at either width. -/
def condEq {w : Nat} (a b : BitVec w) : Bool := a == b
/-- The comparison of BNE (R47), at either width. -/
def condNe {w : Nat} (a b : BitVec w) : Bool := a != b
/-- The comparison of BLT (R47), at either width. -/
def condLt {w : Nat} (a b : BitVec w) : Bool := BitVec.slt a b
/-- The comparison of BGE (R47), at either width. -/
def condGe {w : Nat} (a b : BitVec w) : Bool := !BitVec.slt a b
/-- The comparison of BLTU (R47), at either width. -/
def condLtu {w : Nat} (a b : BitVec w) : Bool := BitVec.ult a b
/-- The comparison of BGEU (R47), at either width. -/
def condGeu {w : Nat} (a b : BitVec w) : Bool := !BitVec.ult a b

/-- CALL (R66): a push onto a full stack traps or overwrites the oldest entry (R51). -/
def laneCall (e : Nat) (target : BitVec 12) (s : State) : LRes :=
  match s.lanePush e ((s.engine e).pc + 1) with
  | some s => .jump s target.toNat
  | none => .abort s 5
/-- RET (R66): an empty stack aborts under 0x06. -/
def laneRet (e : Nat) (s : State) : LRes :=
  let g := s.engine e
  match g.stack with
  | [] => .abort s 6
  | t :: rest => .jump (s.setEng e { g with stack := rest }) t
/-- CALLR (R66): the target is checked before the push. -/
def laneCallr (e : Nat) (ra : BitVec 5) (s : State) : LRes :=
  let a := s.w e ra
  match jumpFault a with
  | some c => .abort s c
  | none =>
    match s.lanePush e ((s.engine e).pc + 1) with
    | some s => .jump s (a.toNat / 4)
    | none => .abort s 5
/-- JR (R66). -/
def laneJr (e : Nat) (ra : BitVec 5) (s : State) : LRes :=
  let a := s.w e ra
  match jumpFault a with
  | some c => .abort s c
  | none => .jump s (a.toNat / 4)

/-- CMOV on a lane engine (R73). -/
def laneCmov (e : Nat) (cd cs : BitVec 3) (s : State) : LRes := .seq (s.setLcap e cd (s.lcap e cs))

/-- A capability narrowed (R73): none where it is untagged or the new range would not lie within it. -/
def capNarrow (c : Cap) (off len : Nat) : Option Cap :=
  if !c.tag || c.len < off + len then none else some ((c.withBits 0 40 (c.base + off)).withBits 40 40 len)

/-- A capability's permissions masked (R73): none where it is untagged. -/
def capPerm (c : Cap) (mask : Nat) : Option Cap :=
  if !c.tag then none else some (c.withBits 80 8 (c.perms &&& (mask % 256)))

/-- CNARROW on a lane engine (R73). -/
def laneCnarrow (e : Nat) (cd cs : BitVec 3) (ra rb : BitVec 5) (s : State) : LRes :=
  match capNarrow (s.lcap e cs) (s.w e ra).toNat (s.w e rb).toNat with
  | some c => .seq (s.setLcap e cd c)
  | none => .abort s 4
/-- CPERM on a lane engine (R73). -/
def laneCperm (e : Nat) (cd cs : BitVec 3) (ra : BitVec 5) (s : State) : LRes :=
  match capPerm (s.lcap e cs) (s.w e ra).toNat with
  | some c => .seq (s.setLcap e cd c)
  | none => .abort s 4
/-- CCLR on a lane engine (R73). -/
def laneCclr (e : Nat) (cd : BitVec 3) (s : State) : LRes := .seq (s.setLcap e cd { s.lcap e cd with tag := false })

/-- The fault of CLD and CST at an address (R48): outside data memory and shared memory, or not a multiple of 16. -/
def granuleFault (a : Nat) : Option Nat :=
  if !((0x10000 ≤ a && a < 0x18000) || (0x40000 ≤ a && a < 0x80000)) then some 2 else if a % 16 ≠ 0 then some 3 else none

/-- The tag a granule carries for the engine in ec u: as memory held it before the writes of other agents in that ec, then as the
entries of its store buffer and of its hold buffer would leave it (R40, R69, R96, R396). -/
def State.laneTag (s : State) (e u a : Nat) : Bool :=
  let g := s.engine e
  let buf := if a < 0x40000 then g.local_ else g.shared
  let mine := buf.filter (fun x => x.addr / 16 == a / 16)
  let t := if mine.isEmpty then s.tagWhen (fun x => x.from_ u && x.eng != some e) (s.laneAddr e a) else mine.any (fun x => x.cst)
  let step (t : Bool) (h : Held) : Bool :=
    match h.eff with
    | .cst addr c => if addr = a then c.tag else t
    | .sts addr size _ => if addr / 16 = a / 16 ∨ (addr + size - 1) / 16 = a / 16 then false else t
    | _ => t
  if a < 0x40000 then t else (g.rel ++ g.hold).foldl step t

/-- CLD on a lane engine (R69, R73), each of its two words read in its own ec (R95, R98); the tag is read with the second. -/
def laneCld (e : Nat) (cd : BitVec 3) (ra : BitVec 5) (s : State) : LRes :=
  let a := (s.w e ra).toNat
  match granuleFault a with
  | some c => .abort s c
  | none =>
    let t := (s.engine e).start + (s.engine e).used
    let u0 := readEc e t 0 a
    let u1 := readEc e t 1 (a + 8)
    let (bad0, r) := s.laneCheckAt e u0 a
    let (bad1, r) := r.laneCheckAt e u1 (a + 8)
    if bad0 || bad1 then .abort r 8
    else .seq (r.setLcap e cd ⟨s.laneTag e (max u0 u1) a, BitVec.ofNat 128 (s.laneBytesAt e u0 a 8 + 2 ^ 64 * s.laneBytesAt e u1 (a + 8) 8)⟩)

/-- SMP (R74): a delivery of its own ec leaves it the value held before (R36); with no delivery since the previous task began, or
since the bank became active, it counts as stale (R209). -/
def laneSmp (e : Nat) (rd : BitVec 5) (port : BitVec 3) (s : State) : LRes :=
  let g := s.engine e
  let t := g.start + g.used
  let at_ := Tab.look (fun _ => 0) g.spAt port.toNat
  let v := if at_ = t + 1 then Tab.look (fun _ => 0) g.spOld port.toNat else g.getSp port.toNat
  let s := if at_ = 0 || at_ ≤ g.before.getD s.sched.origin then s.bump F.SQ_SPSTAT_STALE F.SQ_SPSTAT_STALESAT (e / 8) else s
  laneSet e rd v s

/-- TIME on a lane engine (R76): Quartz in the first ec of TIME, into an even register and the next. -/
def laneTime (e : Nat) (rd : BitVec 5) (s : State) : LRes :=
  if rd.toNat % 2 = 1 then .abort s 1
  else
    let g := s.engine e
    let t := g.start + g.used
    .seq (s.setEng e ((g.putW rd.toNat (BitVec.ofNat 32 t)).putW (rd.toNat + 1) (BitVec.ofNat 32 (t / 2 ^ 32))))

/-- Where task input n of a logical engine lies (R581). -/
def tinAddr (b e n : Nat) : Nat := sqBase (e / 8) + 0xBB000 + b * 0x400 + e % 8 * 0x40 + 4 * n

/-- TIN (R77): the snapshot of a task input. -/
def laneTin (e : Nat) (rd n : BitVec 5) (s : State) : LRes :=
  if 8 ≤ n.toNat then .abort s 1
  else laneSet e rd (BitVec.ofNat 32 (s.peek (tinAddr s.bank e n.toNat + 0x20) 4)) s

/-- Where entry r of a logical engine's route table lies (R581). -/
def routeAddr (b e r : Nat) : Nat := sqBase (e / 8) + 0xB0000 + b * 0x4000 + e % 8 * 0x800 + 8 * r

/-- A route entry is in use (R103). -/
def routeValid (x : Nat) : Bool := bit 63 x
/-- A route entry is inbound (R103). -/
def routeIn (x : Nat) : Bool := bit 62 x

/-- The key of a receive register. -/
def rxKey (b e r : Nat) : Nat := (b * 512 + e) * 256 + r

/-- A receive register. -/
def State.rxAt (s : State) (b e r : Nat) : Rx := Tab.look (fun _ => Rx.init) s.rx (rxKey b e r)
/-- A receive register written. -/
def State.setRx (s : State) (b e r : Nat) (x : Rx) : State := { s with rx := Tab.put (fun _ => Rx.init) s.rx (rxKey b e r) x }

/-- A receive register as a RECV in ec t finds it: a message of that ec has not reached it yet (R82). -/
def Rx.seen (r : Rx) (t : Nat) : Nat × Bool × Bool :=
  match r.came with
  | some (u, v, fresh, any) => if t ≤ u then (v, fresh, any) else (r.value, r.fresh, r.any)
  | none => (r.value, r.fresh, r.any)

/-- A receive register after a RECV in ec t: what the RECV found is marked read (R82). -/
def Rx.taken (r : Rx) (t : Nat) : Rx :=
  match r.came with
  | some (u, v, _, any) => if t ≤ u then { r with came := some (u, v, false, any) } else { r with fresh := false }
  | none => { r with fresh := false }

/-- RECV (R82): the message held for an inbound route, marked read; without a new one since the last RECV the last one again,
a receive miss. The route entry is used as it reads, whatever its check bits (R106 names them for SEND alone).
[DESIGN CHOICE, log entry 127] -/
def laneRecv (e : Nat) (reg : BitVec 5) (route : BitVec 8) (s : State) : LRes :=
  let x := s.peek (routeAddr s.bank e route.toNat) 8
  if !routeValid x || !routeIn x then .abort s 0xA
  else
    let r := s.rxAt s.bank e route.toNat
    let t := (s.engine e).start + (s.engine e).used
    let (v, fresh, any) := r.seen t
    let u := if fresh then s else
      (s.bump F.SQ_ROUTESTAT_RXMISS F.SQ_ROUTESTAT_RXSAT (e / 8)).raiseEv (sqDom (e / 8)) 7 (e / 8)
    laneSet e reg (BitVec.ofNat 32 (if any then v else 0)) (u.setRx s.bank e route.toNat (r.taken t))

/-- IFENCE (R72): every prefetched instruction is discarded. -/
def laneIfence (e : Nat) (s : State) : LRes := .seq (s.setEng e { s.engine e with old := [] })

end Sys2Proof.Machine
end

