-- ==== Sys2Proof/Machine/Task.lean ====
section
/-! DEFINITION. The slot table and the tasks it starts (R114 to R130), the board network (R102 to R106, R138), and the
stopping of tasks when the device leaves RUN (R139). -/

namespace Sys2Proof.Machine

/-! Slot-table entries (R114). -/

/-- Where entry i of a bank's slot table of a square lies (R581). -/
def slotAddr (b sq i : Nat) : Nat := sqBase sq + 0xA0000 + b * 0x8000 + 8 * i

/-- START. -/
def slotStart (x : Nat) : Nat := bits 15 0 x
/-- ENTRY. -/
def slotEntry (x : Nat) : Nat := bits 27 16 x
/-- BUDGET. -/
def slotBudget (x : Nat) : Nat := bits 43 28 x
/-- ENGINE. -/
def slotEngine (x : Nat) : Nat := bits 46 44 x
/-- PARTNER. -/
def slotPartner (x : Nat) : Nat := bits 49 47 x
/-- GATE. -/
def slotGate (x : Nat) : Nat := bits 52 50 x
/-- DUP. -/
def slotDup (x : Nat) : Bool := bit 53 x
/-- EVG. -/
def slotEvg (x : Nat) : Bool := bit 54 x
/-- PSETUP. -/
def slotPsetup (x : Nat) : Bool := bit 55 x
/-- VALID. -/
def slotValid (x : Nat) : Bool := bit 63 x

/-- Entry i of a slot table. -/
def State.slot (s : State) (b sq i : Nat) : Nat := s.peek (slotAddr b sq i) 8

/-- Whether a slot table reaches entry i: it ends at its first entry with VALID = 0 (R115). -/
def State.slotReached (s : State) (b sq i : Nat) : Bool :=
  (List.range (i + 1)).all (fun j => slotValid (s.slot b sq j))

/-- The bank and origin that a wake lead uses: a bank that is about to become active from ec origin − 4 on, else the
active bank (R136). -/
def State.wakeBank (s : State) : Option (Nat × Nat) :=
  match s.sched.pend with
  | .committed b t => some (b, t)
  | .start b t => some (b, t)
  | _ => if s.bankOn then some (s.bank, s.sched.origin) else none

/-- The engines an entry starts: ENGINE and, for a duplicated task, PARTNER, as logical engine numbers (R126). -/
def slotEngines (sq x : Nat) : List Nat :=
  if slotDup x then [8 * sq + slotEngine x, 8 * sq + slotPartner x] else [8 * sq + slotEngine x]

/-- The register state of R35, loaded during the wake lead. -/
def State.wakeEngine (s : State) (b e entry start : Nat) : State :=
  let g := s.engine e
  let caps := repeatN 8 (fun k t => Tab.put (fun _ => Cap.none) t k (s.bankCap b e k)) []
  s.setEng e { g with w := Tab.put (fun _ => 0) [] 0 (BitVec.ofNat 32 start), acc := [], stack := [], cap := caps, pc := entry, old := [], woken := true }

/-- The wake lead of slot-table entry idx in frame f opens the clocks of its engines in ec S − 4 and loads their start
state (R88, R117, R136). A peripheral-setup entry is passed over after frame 0 (R124). -/
def State.wakeLead (s : State) (sq idx f : Nat) : State :=
  match s.wakeBank with
  | none => s
  | some (b, origin) =>
    let x := s.slot b sq idx
    let es := slotEngines sq x
    let start := origin + (f * s.frameLen b + slotStart x) * 64
    if !s.alive (sqDom sq) || !s.slotReached b sq idx || (slotPsetup x && f != 0) || s.sqHold sq ||
        es.any (fun e => (s.engine e).running) || start < 4 then s
    else es.foldl (fun s e => s.wakeEngine b e (slotEntry x) start) (s.reach (start - 4))

/-! Task inputs (R119 to R123). -/

/-- The key of a task input. -/
def tinKey (b e n : Nat) : Nat := (b * 512 + e) * 8 + n

/-- The word and first tick of a task input before any event of ec t (R118, R120). -/
def State.inputBefore (s : State) (b e n t : Nat) : Nat × Nat :=
  match Tab.look (fun _ => none) s.tinEc (tinKey b e n) with
  | some r => if r.at_ = t then (r.word, r.first) else (s.peek (tinAddr b e n) 4, Tab.look (fun _ => 0) s.tinAt (tinKey b e n))
  | none => (s.peek (tinAddr b e n) 4, Tab.look (fun _ => 0) s.tinAt (tinKey b e n))

/-- The word of a task input that held x once k events of one ec have reached it, on channels of which chan is the lowest (R119,
R123). -/
def inputWord (x k chan : Nat) : Nat :=
  let c := bits 2 0 x
  min 7 (c + k) + b2n (bit 3 x || 1 < k) * 8 + b2n (bit 4 x || 7 < c + k) * 16 + (if c = 0 then chan else bits 17 8 x) * 2 ^ 8

/-- A task input that held word x with its first event at a tick takes k events of ec t. -/
def State.putInput (s : State) (b e n x first k chan t : Nat) : State :=
  let key := tinKey b e n
  { s.poke (tinAddr b e n) 4 (if k = 0 then x else inputWord x k chan) with
    tinAt := Tab.put (fun _ => 0) s.tinAt key (if bits 2 0 x = 0 ∧ k ≠ 0 then t else first)
    tinEc := Tab.put (fun _ => none) s.tinEc key (some ⟨t, x, first, k, chan⟩) }

/-- k events reach a task input in one ec t, on channels of which chan is the lowest, beside those that have already reached it in
that ec (R119, R123). [DEDUCED, log entry 96] -/
def State.countInput (s : State) (b e n k chan t : Nat) : State :=
  let (x, first) := s.inputBefore b e n t
  match Tab.look (fun _ => none) s.tinEc (tinKey b e n) with
  | some r =>
    if r.at_ = t ∧ r.count ≠ 0 then s.putInput b e n x first (r.count + k) (min r.chan chan) t else s.putInput b e n x first k chan t
  | none => s.putInput b e n x first k chan t

/-- The task inputs of an engine, as they stood before any event of ec t, copied to its snapshot with the delay since the first
event; the cleared inputs then count the events of that ec (R120, R123). [DEDUCED, log entry 96] -/
def State.captureInputs (s : State) (b e t : Nat) : State :=
  repeatN 8 (fun n s =>
    let (x, first) := s.inputBefore b e n t
    let delay := if bits 2 0 x = 0 then 0 else min (t - first) 0x3FFF
    let (k, chan) := match Tab.look (fun _ => none) s.tinEc (tinKey b e n) with
      | some r => if r.at_ = t then (r.count, r.chan) else (0, 0)
      | none => (0, 0)
    (s.poke (tinAddr b e n + 0x20) 4 (x % 2 ^ 18 + delay * 2 ^ 18)).putInput b e n 0 0 k chan t) s

/-- Every task input and snapshot of a bank cleared (R122). -/
def State.clearInputs (s : State) (b : Nat) : State :=
  { s with
    mem := s.mem.filter (fun p => !(sqSpace ≤ p.1 && p.1 < sqSpace + 0x4000000 &&
      0xBB000 + b * 0x400 ≤ p.1 % 0x100000 && p.1 % 0x100000 < 0xBB000 + (b + 1) * 0x400))
    tinAt := s.tinAt.filter (fun p => !(b * 4096 ≤ p.1 && p.1 < (b + 1) * 4096))
    tinEc := s.tinEc.filter (fun p => !(b * 4096 ≤ p.1 && p.1 < (b + 1) * 4096)) }

/-- The receive registers of a bank take the state "received nothing" (R138). -/
def State.clearRx (s : State) (b : Nat) : State :=
  { s with rx := s.rx.filter (fun p => !(b * 131072 ≤ p.1 && p.1 < (b + 1) * 131072)) }

/-! Starting a task (R118, R121, R124, R126, R130). -/

/-- Whether an engine can serve: its physical engine is SERVING (R130, R407). -/
def State.serving (s : State) (e : Nat) : Bool := s.physOf e < 9 && s.pstate (e / 8) (s.physOf e) == 0

/-- Whether a task is missed at its capture ec (R130). -/
def State.missed (s : State) (b sq idx : Nat) (es : List Nat) : Bool :=
  s.stale sq || es.any (fun e => !s.serving e) || (s.chkAt (slotAddr b sq idx)).bad

/-- An engine starts its task in the first ec of its start slot, its inputs captured (R118, R126, R397). -/
def State.startTask (s : State) (b idx x start e : Nat) (role : DupRole) : State :=
  let s := s.captureInputs b e start
  let g := s.engine e
  s.setEng e { g with running := true, slot := idx, start := start, used := 0, budget := slotBudget x, role := role, compared := role == .single,
                      hold := [], overflow := false, sig := 0xFFFFFFFF#32, latch := none,
                      before := if g.ran then some g.start else none, ran := true }

/-- The clocks of engines that start no task close again (R117, R121). -/
def State.sleepEngines (s : State) (es : List Nat) : State :=
  es.foldl (fun s e => s.setEng e { s.engine e with woken := false }) s

/-- The first ec of the start slot of entry idx in frame f: the task is missed, skipped or started (R118, R130); one whose square has come to
SAFE HOLD since the wake lead closes its clocks (R117, R130). [DESIGN CHOICE, log entry 5] -/
def State.taskStart (s : State) (sq idx f : Nat) : State :=
  let b := s.bank
  let x := s.slot b sq idx
  let es := slotEngines sq x
  let start := s.sched.origin + (f * s.frameLen b + slotStart x) * 64
  if !s.bankOn || !s.inRun || !s.alive (sqDom sq) || !s.slotReached b sq idx || (slotPsetup x && f != 0) ||
      es.any (fun e => !(s.engine e).woken || (s.engine e).running) then s
  else
    let s := s.reach start
    if s.sqHold sq then s.sleepEngines es
    else if s.missed b sq idx es then
      ((s.bump F.SQ_SLOTSTAT_MISSED F.SQ_SLOTSTAT_MISSSAT sq).raiseEv (sqDom sq) 5 sq).sleepEngines es
    else if slotEvg x && bits 2 0 (s.inputBefore b (8 * sq + slotEngine x) (slotGate x) start).1 == 0 then
      (s.bump F.SQ_SLOTSTAT_SKIPPED F.SQ_SLOTSTAT_SKIPSAT sq).sleepEngines es
    else if slotDup x then
      (s.startTask b idx x start (8 * sq + slotEngine x) (.engine (8 * sq + slotPartner x))).startTask b idx x start
        (8 * sq + slotPartner x) (.partner (8 * sq + slotEngine x))
    else s.startTask b idx x start (8 * sq + slotEngine x) .single

/-- Every running task stops at the end of the ec in which the device leaves RUN; a duplicated task is not compared and its
hold buffers are discarded (R139), also where both copies have executed END and the compare is still to come.
[DESIGN CHOICE, log entry 133] -/
def State.stopTasks (s : State) : State :=
  { s with eng := s.eng.map (fun p => (p.1,
      if p.2.running ∨ p.2.woken ∨ !p.2.compared then
        { p.2 with running := false, woken := false, compared := true, hold := if p.2.role = .single then p.2.hold else [] }
      else p.2)) }

/-! The board network (R102 to R106). -/

/-- The square a step of a route leads to: none off the board (R103). -/
def stepTo (sq dir : Nat) : Option Nat :=
  match dir with
  | 0 => if sq % 8 < 7 then some (sq + 1) else none
  | 1 => if 0 < sq % 8 then some (sq - 1) else none
  | 2 => if sq / 8 < 7 then some (sq + 8) else none
  | _ => if 0 < sq / 8 then some (sq - 8) else none

/-- The square a path has reached after n steps. -/
def pathAt (sq path : Nat) : Nat → Option Nat
  | 0 => some sq
  | n + 1 => (pathAt sq path n).bind (fun q => stepTo q (bits (2 * n + 1) (2 * n) path))

/-- The link a message crosses k-th (k from 1), as the square it leaves and the direction, and the ec (R104). -/
def Msg.link (m : Msg) (k : Nat) : Option (Nat × Nat × Nat) :=
  if k = 0 ∨ m.hops < k then none
  else (pathAt (m.src / 8) m.path (k - 1)).map (fun q => (q, bits (2 * k - 1) (2 * k - 2) m.path, m.sent + 1 + k))

/-- A message dropped on its way counts in LOST of the sender's square and raises a safety event (R105). -/
def State.lostMsg (s : State) (m : Msg) : State :=
  let sq := m.src / 8
  (s.bump F.SQ_ROUTESTAT_LOST F.SQ_ROUTESTAT_LOSTSAT sq).raiseEv (sqDom sq) 7 sq

/-- SEND in ec t: the value of a route's message on its way (R82, R104); whether a match releases it (R400). A route entry that fails its check sends
nothing and counts in LOST (R106). [DEDUCED, log entries 25, 94] -/
def State.sendMsg (s : State) (e phys t route value : Nat) (rel : Bool) : State :=
  let sq := e / 8
  let a := routeAddr s.bank e route
  let x := s.peek a 8
  if (s.chkAt a).bad then
    (s.bump F.SQ_ROUTESTAT_LOST F.SQ_ROUTESTAT_LOSTSAT sq).raiseEv (sqDom sq) 7 sq
  else
    { s with msgs := s.msgs ++ [{ src := e, rel := rel, route := route, sent := t, path := bits 31 0 x, hops := bits 36 32 x, dstSq := bits 42 37 x,
                                  dstEng := bits 45 43 x, peer := bits 53 46 x, value := value, epoch := s.slotEpoch sq phys,
                                  bank := s.bank, crossed := 0 }] }

/-- Messages other than the k-th that a test of place and message holds of. -/
def State.otherMsgs (s : State) (k : Nat) (p : Nat → Msg → Bool) : List Nat :=
  (List.range s.msgs.length).filter (fun j => j != k && (match s.msgs[j]? with | some m => p j m | none => false))

/-- Whether message o at place j proceeds before message m at place k where they meet: the one of the lower logical engine; of one
engine's two a released one before one of its new task, else the one that was sent first, which R105 leaves open (R105, R400).
[DESIGN CHOICE, log entry 114] -/
def Msg.wins (o : Msg) (j : Nat) (m : Msg) (k : Nat) : Bool :=
  o.src < m.src || (o.src == m.src && (if o.rel = m.rel then j < k else o.rel))

/-- The messages at some places taken off the network. -/
def State.removeMsgs (s : State) (js : List Nat) : State :=
  { s with msgs := (List.range s.msgs.length).filterMap (fun j => if js.contains j then none else s.msgs[j]?) }

/-- The messages at some places counted in LOST (R105). -/
def State.countLost (s : State) (js : List Nat) : State :=
  js.foldl (fun t j => match s.msgs[j]? with | some m => t.lostMsg m | none => t) s

/-- The messages at some places dropped, each counted in LOST (R105). -/
def State.dropMsgs (s : State) (js : List Nat) : State := (s.countLost js).removeMsgs js

/-- The k-th message in flight crosses its next link: of two on one link direction in one ec, the one from the lower
logical engine proceeds and the other is dropped; one that would enter an unpowered square is dropped (R104, R105). A path is
followed as its entry writes it; a step off the board loses the message. [DESIGN CHOICE, log entry 115] -/
def State.crossLink (s : State) (k : Nat) : State :=
  match s.msgs[k]? with
  | none => s
  | some m =>
    match m.link (m.crossed + 1) with
    | none => s
    | some (q, dir, t) =>
      let s := s.reach t
      let meets (o : Msg) : Bool := (List.range (o.hops + 1)).any (fun j => o.link j == some (q, dir, t))
      match stepTo q dir with
      | none => s.dropMsgs [k]
      | some nxt =>
        if !s.alive (sqDom nxt) then s.dropMsgs [k]
        else if !(s.otherMsgs k (fun j o => meets o && o.wins j m k)).isEmpty then s.dropMsgs [k]
        else
          let losers := s.otherMsgs k (fun j o => meets o && m.wins k o j)
          { s with msgs := s.msgs.set k { m with crossed := m.crossed + 1 } }.dropMsgs losers

/-- The k-th message in flight arrives in ec t + 4 + h: fenced on an epoch mismatch, dropped against a lower engine's
arrival at the same engine, dropped at an unsuitable inbound entry, else written to the receive register (R83, R104 to
R106). The collision is judged before the inbound entry, which is used as it reads, whatever its check bits.
[DESIGN CHOICE, log entries 115, 127] -/
def State.arrive (s : State) (k : Nat) : State :=
  match s.msgs[k]? with
  | none => s
  | some m =>
    if m.crossed < m.hops then s
    else
      let t := m.sent + 4 + m.hops
      let s := s.reach t
      let gone (s : State) : State := { s with msgs := s.msgs.eraseIdx k }
      let dst := 8 * m.dstSq + m.dstEng
      let inEpoch (o : Msg) : Bool := o.epoch == s.sqEpoch (o.src / 8)
      let meets (o : Msg) : Bool :=
        o.sent + 4 + o.hops == t && 8 * o.dstSq + o.dstEng == dst && inEpoch o && o.crossed == o.hops
      if !inEpoch m then (gone s).fence (m.src / 8)
      else if !s.alive (sqDom m.dstSq) then s.dropMsgs [k]
      else if !(s.otherMsgs k (fun j o => meets o && o.wins j m k)).isEmpty then s.dropMsgs [k]
      else
        let x := s.peek (routeAddr m.bank dst m.peer) 8
        let losers := s.otherMsgs k (fun j o => meets o && m.wins k o j)
        let s := (s.countLost losers).removeMsgs (k :: losers)
        if routeValid x && routeIn x && bits 42 37 x == m.src / 8 && bits 45 43 x == m.src % 8 && bits 53 46 x == m.route then
          let r := s.rxAt m.bank dst m.peer
          s.setRx m.bank dst m.peer ⟨m.value, true, true, some (t, r.value, r.fresh, r.any)⟩
        else (s.bump F.SQ_ROUTESTAT_UNBOUND F.SQ_ROUTESTAT_UNBSAT m.dstSq).raiseEv (sqDom m.dstSq) 7 m.dstSq

end Sys2Proof.Machine
end

