-- ==== Sys2Proof/Machine/Redundancy.lean ====
section
/-! DEFINITION. Redundancy of the squares: duplicated tasks and their comparison (R396 to R402), retirement and failover
(R394, R395, R403 to R406), engine states (R407), rotating and compare-unit tests (R408 to R410), the RDC's engine commands
(R415), spares and DEGR (R417, R418), wear monitors (R419). -/

namespace Sys2Proof.Machine

/-- The device takes a mode; PREV holds the mode before it (R535). -/
def State.setMode (s : State) (m : Nat) : State :=
  let cur := s.mode
  (s.setFld F.PMU_MODE_PREV 0 cur).setFld F.PMU_MODE_CUR 0 m

/-- Whether a powered square lacks a SPARE engine or is in SAFE HOLD (R418). [DEDUCED, log entry 26] -/
def State.sqDegraded (s : State) (sq : Nat) : Bool :=
  s.alive (sqDom sq) && (s.sqHold sq || !(List.range 9).any (fun n => s.pstate sq n == 1))

/-- The state code of a physical supervisor pair (R425). -/
def State.pairState (s : State) (p : Nat) : Nat := bits (3 * p + 2) (3 * p) (s.fld F.RDC_PSTATE_STATE 0)

/-- A physical pair's state code given. -/
def State.setPairState (s : State) (p code : Nat) : State :=
  s.setFld F.RDC_PSTATE_STATE 0 (setBits (3 * p) 3 code (s.fld F.RDC_PSTATE_STATE 0))

/-- Whether redundancy is reduced (R418). [DEDUCED, log entry 26] -/
def State.degraded (s : State) : Bool :=
  (List.range 64).any s.sqDegraded || !(List.range 5).any (fun p => s.pairState p == 1) ||
    (List.range 12).any (fun k => s.flag F.EP_STEER_ACTIVE k || s.flag F.CMP_STEER_ACTIVE k) ||
    (List.range 8).any (fun g => s.flag F.CV_ROTSTAT_NOSPARE g) ||
    s.regN .RDC_CMPFAILL 0 != 0 || s.regN .RDC_CMPFAILH 0 != 0 || s.fld F.RDC_PSTATE_CKFAIL 0 != 0 ||
    (List.range 4).any (fun p => s.fld F.GDN_STAT_SPARE p != 0) || s.fld F.PMU_REGSTAT_SPARE 0 != 0

/-- DEGR follows R418, and the device is in RUN DEGRADED while it is 1 in RUN (R418, R525). -/
def State.refreshDegr (s : State) : State :=
  let d := s.degraded
  let s := s.setFld F.RDC_STAT_DEGR 0 (b2n d)
  if s.mode = 6 ∧ d = true then s.setMode 7 else if s.mode = 7 ∧ d = false then s.setMode 6 else s

/-! Epochs and retirement (R394, R395). -/

/-- An epoch given to every tagged capability register of an engine (R395). -/
def Eng.restamp (g : Eng) (ep : Nat) : Eng :=
  { g with cap := repeatN 8 (fun k t =>
      let c := Tab.look (fun _ => Cap.none) t k
      if c.tag then Tab.put (fun _ => Cap.none) t k (c.withBits 105 16 ep) else t) g.cap }

/-- The slot epoch of a physical engine becomes SQEPOCH (R395). -/
def State.takeEpoch (s : State) (sq n : Nat) : State := s.setPhys sq n { s.physEng sq n with epoch := s.sqEpoch sq }

/-- An engine enters SERVING with SQEPOCH as its slot epoch (R395, R407). -/
def State.enterServing (s : State) (sq n : Nat) : State := (s.setPstate sq n 0).takeEpoch sq n

/-- A load ends with an error (R153, R158). -/
def State.loadFail (s : State) (code sect item : Nat) : State :=
  let s := { s with sched := { s.sched with load := none } }
  let s := ((s.setFld F.SCH_LDSTAT_BUSY 0 0).setFld F.SCH_LDSTAT_ERR 0 1).setFld F.SCH_LDSTAT_ERRCODE 0 code
  (s.setFld F.SCH_LDERR_SECT 0 sect).setFld F.SCH_LDERR_ITEM 0 item

/-- A load whose plan has a square with another SQEPOCH than step 4 of R151 read stops in that ec (R154). -/
def State.loadWatch (s : State) : State :=
  match s.sched.load with
  | some ld => if ld.squares.any (fun p => s.sqEpoch p.1 != p.2) then s.loadFail 0xB 0 0 else s
  | none => s

/-- A retirement (R395): SQEPOCH rises by 1, every SERVING or SPARE engine takes it as its slot epoch and restamps its
capability registers, and the retired engine enters QUARANTINE with its old epoch; a load of a plan with the square stops (R154). -/
def State.retire (s : State) (sq n : Nat) : State :=
  let s := s.setPstate sq n 4
  let ep := s.sqEpoch sq + 1
  let s := (s.setFld F.SQ_EPOCH_SQEPOCH sq ep).loadWatch
  let s := repeatN 9 (fun m s => if s.pstate sq m = 0 ∨ s.pstate sq m = 1 then s.takeEpoch sq m else s) s
  repeatN 8 (fun k s =>
    let e := 8 * sq + k
    if s.serving e then s.setEng e ((s.engine e).restamp ep) else s) s

/-- FOBUSY is 1 while a failover is under way in some square (R424). -/
def State.refreshFoBusy (s : State) : State :=
  s.setFld F.RDC_STAT_FOBUSY 0 (b2n ((List.range 64).any (fun sq => (s.square sq).fo != .idle)))

/-- The phase of a square's failover given. -/
def State.setFo (s : State) (sq : Nat) (p : FoPhase) : State :=
  (s.setSquare sq { s.square sq with fo := p }).refreshFoBusy

/-- The failover record is filled while its VALID is 0, and the failover is counted (R422, R425); whether it was filled. -/
def State.foRecord (s : State) (sq log phys outcome tick : Nat) : Bool × State :=
  let s := s.bump F.RDC_FOCNT_COUNT F.RDC_FOCNT_SAT 0
  if s.flag F.RDC_FOREC_VALID 0 then (false, s)
  else (true, (s.setRegN .RDC_FOREC 0 (sq + log * 2 ^ 6 + phys * 2 ^ 9 + outcome * 2 ^ 13 + 2 ^ 15)).setPair
    .RDC_FOTIMEL .RDC_FOTIMEH 0 tick)

/-- A square enters SAFE HOLD (R404, R405, R407): its hold buffers are discarded, every engine that is not in QUARANTINE or
FAILED becomes STALE, MAP stays, and a safety event is raised. -/
def State.enterSqHold (s : State) (sq : Nat) : State :=
  let s := s.setFld F.SQ_SLOTSTAT_HOLD sq 1
  let s := repeatN 9 (fun n s => if s.pstate sq n = 4 ∨ s.pstate sq n = 6 then s else s.setPstate sq n 5) s
  let s := repeatN 8 (fun k s =>
    let e := 8 * sq + k
    let g := s.engine e
    s.setEng e { g with hold := [], rel := [], compared := true, snapAt := none }) s
  ((s.setFo sq .idle).raiseEv (sqDom sq) 13 sq).refreshDegr

/-- The engine in state SPARE of a square, if any. -/
def State.spareOf (s : State) (sq : Nat) : Option Nat := (List.range 9).find? (fun n => s.pstate sq n == 1)

/-- The failover record completed with the engine retired and the outcome (R425). -/
def State.foOutcome (s : State) (filled : Bool) (phys outcome : Nat) : State :=
  if filled then (s.setFld F.RDC_FOREC_PHYS 0 phys).setFld F.RDC_FOREC_OUTCOME 0 outcome else s

/-- A failover under way ends in SAFE HOLD of its square (R404); its record, where its engine is not yet retired, says so.
[DESIGN CHOICE, log entry 117] -/
def State.failoverHold (s : State) (sq : Nat) : State :=
  match (s.square sq).fo with
  | .selfTest e _ _ filled => (s.foOutcome filled (s.physOf e) 2).enterSqHold sq
  | _ => s.enterSqHold sq

/-- A mismatch of a duplicated task starts a failover (R403), or ends one under way in SAFE HOLD (R404). -/
def State.startFailover (s : State) (e p tick : Nat) : State :=
  let sq := e / 8
  if (s.square sq).fo ≠ .idle then s.failoverHold sq
  else
    let (filled, s) := s.foRecord sq (e % 8) (s.physOf e) 0 tick
    let s := (s.setPstate sq (s.physOf e) 2).setPstate sq (s.physOf p) 2
    s.setFo sq (.selfTest e p tick filled)

/-! Duplicated tasks (R396 to R401). -/

/-- In ec E the two copies of a duplicated task are compared: a match releases ENGINE's hold buffer and starts the snapshot,
an overflow or a mismatch discards both, is counted and raises a safety event, and a mismatch starts a failover (R398,
R399, R401). -/
def State.compareCopies (s : State) (e : Nat) : State :=
  let g := s.engine e
  match g.role with
  | .engine p =>
    if g.compared then s
    else
      let sq := e / 8
      let ec := g.start + g.budget
      let s := if (s.engine e).running then s.budgetStop e (s.engine e).pc else s
      let s := if (s.engine p).running then s.budgetStop p (s.engine p).pc else s
      let s := s.reach ec
      let g := s.engine e
      let h := s.engine p
      let match_ := !g.overflow && !h.overflow && g.sig == h.sig && !s.sqHold sq
      let wlen := min 8 (s.fld F.SQ_SNAP_WLEN sq)
      let g' := { g with compared := true, hold := [], rel := if match_ then g.rel ++ g.hold else [], relAt := ec + 1, snapAt := if match_ ∧ wlen ≠ 0 then some ec else none }
      let overflowed := g.overflow || h.overflow
      let s := (s.setEng e g').setEng p { h with compared := true, hold := [] }
      if s.sqHold sq then s
      else if overflowed then (s.bump F.SQ_DUPSTAT_HOVCNT F.SQ_DUPSTAT_HOVSAT sq).raiseEv (sqDom sq) 6 sq
      else if match_ then s
      else ((s.bump F.SQ_DUPSTAT_MISCNT F.SQ_DUPSTAT_MISSAT sq).raiseEv (sqDom sq) 6 sq).startFailover e p ec
  | _ => s

/-- One word copied from memory to memory; a word that fails its check leaves poison (R403, R434). [DEDUCED, log entry 20] -/
def State.copyWord (s : State) (src dst : Nat) : State :=
  let (bad, s) := s.checkRead src 4
  if bad then s.portPoison dst else s.writeMask dst 255 (s.peek src 8) 4

/-- Words copied from memory to memory. -/
def State.copyWords (s : State) (src dst n : Nat) : State := repeatN n (fun k s => s.copyWord (src + 8 * k) (dst + 8 * k)) s

/-- Where the memory of a physical engine begins (R581). -/
def physBase (sq n : Nat) : Nat := sqBase sq + n * 0x10000

/-- The snapshot window of a square: its offset in data memory and its length in words, cut at the end of data memory
(R401). -/
def State.snapWindow (s : State) (sq : Nat) : Nat × Nat :=
  let off := 32 * s.fld F.SQ_SNAP_WBASE sq
  (off, (min (off + 64 * min 8 (s.fld F.SQ_SNAP_WLEN sq)) 0x8000 - off) / 8)

/-- Where snapshot slot k of a logical engine lies in shared memory (R401). -/
def State.snapSlot (s : State) (sq log k : Nat) : Nat :=
  sqBase sq + 0xC0000 + s.fld F.SQ_SNAP_SBASE sq * 0x2000 + log * 0x400 + k * 512

/-- The snapshot copy completes: the window is in the slot that was not current, and that slot becomes current (R401). -/
def State.snapshotCopy (s : State) (e : Nat) : State :=
  let g := s.engine e
  match g.snapAt with
  | none => s
  | some ec =>
    let sq := e / 8
    let log := e % 8
    let s := s.reach (ec + 8 * min 8 (s.fld F.SQ_SNAP_WLEN sq))
    let k := 1 - bits log log (s.fld F.SQ_SNAPST_CUR sq)
    let (off, n) := s.snapWindow sq
    let s := s.copyWords (physBase sq (s.physOf e) + 0x4000 + off) (s.snapSlot sq log k) n
    let s := s.setFld F.SQ_SNAPST_CUR sq (setBits log 1 k (s.fld F.SQ_SNAPST_CUR sq))
    let s := s.setFld F.SQ_SNAPST_VALID sq (setBits log 1 1 (s.fld F.SQ_SNAPST_VALID sq))
    s.setEng e { s.engine e with snapAt := none }

/-- A physical engine's window written from the current snapshot slot of a logical engine; without a valid snapshot no
window is written (R403). -/
def State.loadWindow (s : State) (sq log n : Nat) : State :=
  if bit log (s.fld F.SQ_SNAPST_VALID sq) then
    let (off, k) := s.snapWindow sq
    s.copyWords (s.snapSlot sq log (bits log log (s.fld F.SQ_SNAPST_CUR sq))) (physBase sq n + 0x4000 + off) k
  else s

/-- The instruction and data memories of a physical engine copied to another of its square (R403, R415). -/
def State.copyEngine (s : State) (sq src dst : Nat) : State :=
  (s.copyWords (physBase sq src) (physBase sq dst) 2048).copyWords (physBase sq src + 0x4000) (physBase sq dst + 0x4000) 4096

/-! Failover (R403, R404, R409). -/

/-- The self-test of both engines of a failover completes (R403): the failing one is retired and the other loads; with both
passing, both failing, no SPARE or SQEPOCH at its end the square enters SAFE HOLD without retirement (R404).
[DESIGN CHOICE, log entry 17] -/
def State.failoverTested (s : State) (sq : Nat) (enginePass partnerPass : Bool) : State :=
  match (s.square sq).fo with
  | .selfTest e p tick filled =>
    let s := s.reach (tick + 6250)
    match s.spareOf sq with
    | none => s.failoverHold sq
    | some r =>
      if enginePass = partnerPass ∨ s.sqEpoch sq = 0xFFFF then s.failoverHold sq
      else
        let (bad, good, oc) := if enginePass then (p, e, 1) else (e, p, 0)
        let nb := s.physOf bad
        let ng := s.physOf good
        let s := (s.foOutcome filled nb oc).retire sq nb
        (s.setPstate sq ng 3).setFo sq (.load (bad % 8) nb r (some good) true tick)
  | _ => s

/-- The reserve and, after a duplicated task's mismatch, the survivor are loaded with memories and snapshot windows (R403,
R409). [DESIGN CHOICE, log entry 18] -/
def State.failoverLoad (s : State) (sq : Nat) : State :=
  match (s.square sq).fo with
  | .load log nb r sv windows tick =>
    let s := (s.setPstate sq r 3).copyEngine sq nb r
    let s := if windows then s.loadWindow sq log r else s
    let s := match sv, windows with
      | some e, true => s.loadWindow sq (e % 8) (s.physOf e)
      | _, _ => s
    (s.setFo sq (.retarget log nb r sv tick)).refreshDegr
  | _ => s

/-- The stamps of both banks for a square become SQEPOCH, and so do the epochs of its capability sets (R127). -/
def State.restampBanks (s : State) (sq : Nat) : State :=
  let ep := s.sqEpoch sq
  let s := (s.setFld F.SQ_PLANEPOCH_EPOCHA sq ep).setFld F.SQ_PLANEPOCH_EPOCHB sq ep
  repeatN 128 (fun i s =>
    let b := i / 64
    let e := 8 * sq + i % 64 / 8
    let c := s.bankCap b e (i % 8)
    if c.tag then s.poke (capsAddr b e (i % 8)) 16 (c.withBits 105 16 ep).val.toNat else s) s

/-- The retarget of a failover: MAP names the reserve, both banks' stamps and capability sets are updated, and the reserve
and the survivor enter SERVING with SQEPOCH (R127, R395, R403). [DESIGN CHOICE, log entry 18] -/
def State.failoverRetarget (s : State) (sq : Nat) : State :=
  match (s.square sq).fo with
  | .retarget log _ r sv _ =>
    let s := s.setRegN .SQ_MAP sq (setBits (4 * log) 4 r (s.regN .SQ_MAP sq))
    let s := (s.restampBanks sq).enterServing sq r
    let s := match sv with
      | some e => s.enterServing sq (s.physOf e)
      | none => s
    (s.setFo sq .idle).refreshDegr
  | _ => s

/-! Rotating and compare-unit tests (R408 to R410). -/

/-- Whether a bank whose origin is `o` starts a task of a logical engine at or after ec t and before ec u, of the entries of its slot
table from i on (R115, R124, R136). -/
def State.startsIn (s : State) (b o e t u : Nat) : Nat → Nat → Bool
  | 0, _ => false
  | fuel + 1, i =>
    let x := s.slot b (e / 8) i
    let first := o + slotStart x * 64
    let p := s.frameLen b * 64
    let next := if t ≤ first ∨ slotPsetup x then first else first + (t - first + p - 1) / p * p
    slotValid x && (((slotEngines (e / 8) x).contains e && decide (t ≤ next) && decide (next < u)) || s.startsIn b o e t u fuel (i + 1))

/-- Whether a logical engine has a task that starts at or after ec t and before ec u: one of the active bank before a committed switch,
or one of the bank that is about to become active (R136). -/
def State.taskWithin (s : State) (e t u : Nat) : Bool :=
  let live (b o u : Nat) : Bool := s.startsIn b o e t u 4096 0
  match s.sched.pend with
  | .start b o => live b o u
  | .committed b o => live s.bank s.sched.origin (min u o) || live b o u
  | _ => s.bankOn && s.inRun && live s.bank s.sched.origin u

/-- Whether the rotating test may run a segment on a physical engine now: no task on it, its store buffer and hold buffer
empty, and no wake lead of it within 58 ec, 8 after the segment (R400, R408). -/
def State.rotGap (s : State) (sq n : Nat) : Bool :=
  (List.range 8).all (fun k =>
    let e := 8 * sq + k
    let g := s.engine e
    s.physOf e != n || (!g.running && !g.woken && g.local_.isEmpty && g.shared.isEmpty && g.rel.isEmpty && g.hold.isEmpty &&
      !s.taskWithin e s.now (s.now + 62)))

/-- An engine fails its rotating test: it is retired, or fails; one that fails during a failover of its square ends that in SAFE
HOLD (R404, R409). [DESIGN CHOICE, log entry 117] -/
def State.rotFail (s : State) (sq n : Nat) : State :=
  let log := ((List.range 8).find? (fun k => s.physOf (8 * sq + k) == n)).getD 0
  if (s.square sq).fo ≠ .idle then
    let (_, s) := s.foRecord sq log n 2 s.now
    (if s.pstate sq n = 1 then s.setPstate sq n 6 else s).failoverHold sq
  else if s.pstate sq n = 1 then
    let (_, s) := s.foRecord sq 0 n 3 s.now
    (s.setPstate sq n 6).refreshDegr
  else if s.pstate sq n = 0 then
      match s.spareOf sq with
      | none =>
        let (_, s) := s.foRecord sq log n 2 s.now
        s.enterSqHold sq
      | some r =>
        if s.sqEpoch sq = 0xFFFF then
          let (_, s) := s.foRecord sq log n 2 s.now
          s.enterSqHold sq
        else
          let (_, s) := s.foRecord sq log n 3 s.now
          (s.retire sq n).setFo sq (.load log n r none false s.now)
  else s

/-- A 50-ec segment of the rotating test of a physical engine completes in a gap; the 125th completes the test, and the next
engine of the square is tested (R408). [DESIGN CHOICE, log entry 17] -/
def State.rotSegment (s : State) (sq n : Nat) (pass : Bool) : State :=
  let q := s.square sq
  if !s.flag F.RDC_CTL_ROTTEST 0 || !s.alive (sqDom sq) || q.rotEng != n || !s.rotGap sq n then s
  else
    let s := s.reach (s.now + 50)
    let p := s.physEng sq n
    if pass ∧ p.segments + 1 < 125 then s.setPhys sq n { p with segments := p.segments + 1 }
    else
      let s := (s.setPhys sq n { p with segments := 0 }).setSquare sq { q with rotEng := (n + 1) % 9, rotAt := s.now, rotSaid := false }
      if pass then s else s.rotFail sq n

/-- 1,000 µs have passed since the rotating test of an engine began and it is not complete: it is reported, once (R408). -/
def State.rotLate (s : State) (sq n : Nat) : State :=
  let q := s.square sq
  if !s.flag F.RDC_CTL_ROTTEST 0 || !s.alive (sqDom sq) || q.rotEng != n || q.rotSaid then s
  else
    let s := (s.reach (q.rotAt + 1250000)).setSquare sq { q with rotSaid := true }
    (s.setFld F.RDC_STAT_ROTLATE 0 1).raiseEv (sqDom sq) 11 sq

/-- The rotating test of a square begins with the engine whose turn it is (R408). -/
def State.rotBegin (s : State) (sq : Nat) : State := s.setSquare sq { s.square sq with rotAt := s.now, rotSaid := false }

/-- A write of RDC.CTL: a test that it switches on begins (R408, R424). -/
def State.rdcCtl (s : State) (v : Nat) : State :=
  let on := bit 1 v && !s.flag F.RDC_CTL_ROTTEST 0
  let s := s.setRegN .RDC_CTL 0 (v % 16)
  if on then repeatN 64 (fun q s => s.rotBegin q) s else s

/-- The compare-unit test (R410): a unit that fails sets its bit and raises a safety event. -/
def State.compareUnitTest (s : State) (failSq failPair : Nat) : State :=
  if !s.flag F.RDC_CTL_CMPTEST 0 || !s.alive 4 then s
  else
    let s := s.setPair .RDC_CMPFAILL .RDC_CMPFAILH 0 (s.pair .RDC_CMPFAILL .RDC_CMPFAILH 0 ||| failSq)
    let s := s.setFld F.RDC_PSTATE_CKFAIL 0 (s.fld F.RDC_PSTATE_CKFAIL 0 ||| failPair)
    let s := repeatN 64 (fun q s => if bit q failSq then s.raiseEv 4 11 q else s) s
    (repeatN 5 (fun p s => if bit p failPair then s.raiseEv 4 11 (2 * p) else s) s).refreshDegr

/-- A wear monitor measures its margin; a margin below WTHR sets WARN and WEARWARN (R419). [DESIGN CHOICE, log entry 17] -/
def State.wearMeasure (s : State) (i slack : Nat) : State :=
  let dom := if i < 64 then sqDom i else anaDom (i == 64)
  if !s.alive dom || !s.alive 4 then s
  else
    let s := s.setFld F.RDC_WDATA_SLACK i slack
    if slack < s.fld F.RDC_WTHR_THR 0 then (s.setFld F.RDC_WDATA_WARN i 1).setFld F.RDC_STAT_WEARWARN 0 1 else s

/-! RDC commands (R415, R416, R424). -/

/-- A command is refused with an ERRCODE (R424). -/
def State.rdcErr (s : State) (code : Nat) : State :=
  (s.setFld F.RDC_STAT_CMDERR 0 1).setFld F.RDC_STAT_ERRCODE 0 code

/-- An accepted command begins: CMDBUSY (R424). -/
def State.rdcBegin (s : State) (c : RdcCmd) : State :=
  { s.setFld F.RDC_STAT_CMDBUSY 0 1 with rdc := some c }

/-- A command completes: CMDBUSY clears and CMDDONE sets (R424). -/
def State.rdcDone (s : State) : State :=
  { (s.setFld F.RDC_STAT_CMDBUSY 0 0).setFld F.RDC_STAT_CMDDONE 0 1 with rdc := none }

/-- A command fails: CMDBUSY clears and CMDERR sets with its ERRCODE (R424). -/
def State.rdcFail (s : State) (code : Nat) : State :=
  { (s.setFld F.RDC_STAT_CMDBUSY 0 0).rdcErr code with rdc := none }

/-- TEST (R415): an engine in QUARANTINE, SPARE, STALE or FAILED, with no failover in its square, enters TEST. -/
def State.rdcTest (s : State) (sq n : Nat) : State :=
  if !s.alive 4 then s
  else if s.flag F.RDC_STAT_CMDBUSY 0 then s.rdcErr 5
  else
    let st := s.pstate sq n
    if 9 ≤ n ∨ !s.alive (sqDom sq) ∨ !(st = 1 ∨ st = 4 ∨ st = 5 ∨ st = 6) then s.rdcErr 1
    else if (s.square sq).fo ≠ .idle then s.rdcErr 5
    else
      let tested := s.regN .SQ_TESTED sq
      let s := ((s.setPhys sq n { s.physEng sq n with before := some st }).setPstate sq n 2).setRegN .SQ_TESTED sq tested
      (s.rdcBegin (.test sq n)).refreshDegr

/-- A commanded engine self-test completes (R415): a pass returns the engine to its earlier state, FAILED too, and sets its TESTED
bit; a fail gives FAILED. [DESIGN CHOICE, log entry 17] -/
def State.rdcTestDone (s : State) (pass : Bool) : State :=
  match s.rdc with
  | some (.test sq n) =>
    let before := (s.physEng sq n).before.getD 6
    let s := s.setPhys sq n { s.physEng sq n with before := none }
    let s := if s.pstate sq n ≠ 2 then s
      else if pass then
        (s.setPstate sq n before).setRegN .SQ_TESTED sq (setBits n 1 1 (s.regN .SQ_TESTED sq))
      else s.setPstate sq n 6
    s.rdcDone.refreshDegr
  | _ => s

/-- REJOIN (R415): a tested engine becomes SPARE or begins to serve a logical engine that has none. -/
def State.rdcRejoin (s : State) (sq n : Nat) (src : Bool) (log peer : Nat) : State :=
  if !s.alive 4 then s
  else if s.flag F.RDC_STAT_CMDBUSY 0 then s.rdcErr 5
  else
    let st := s.pstate sq n
    if 9 ≤ n ∨ !s.alive (sqDom sq) ∨ !(st = 1 ∨ st = 4 ∨ st = 5) then s.rdcErr 1
    else if !bit n (s.regN .SQ_TESTED sq) then s.rdcErr 2
    else if src ∧ (s.serving (8 * sq + log) ∨ 9 ≤ peer ∨ s.pstate sq peer ≠ 0) then s.rdcErr 1
    else s.rdcBegin (.rejoin sq n src log peer)

/-- A rejoin transfer completes (R415): with SRC = 0 the engine is SPARE with poisoned memories; with SRC = 1 its memories are
those of PEER, its window is LOG's snapshot, and it serves LOG. -/
def State.rdcRejoinDone (s : State) : State :=
  match s.rdc with
  | some (.rejoin sq n src log peer) =>
    if src then
      let s := (s.copyEngine sq peer n).loadWindow sq log n
      let s := s.setRegN .SQ_MAP sq (setBits (4 * log) 4 n (s.regN .SQ_MAP sq))
      ((s.restampBanks sq).enterServing sq n).rdcDone.refreshDegr
    else
      let s := (s.poisonWords (physBase sq n) 2048).poisonWords (physBase sq n + 0x4000) 4096
      ((s.setPstate sq n 1).takeEpoch sq n).rdcDone.refreshDegr
  | _ => s

end Sys2Proof.Machine
end

