-- ==== Sys2Proof/Machine/Mem.lean ====
section
/-! DEFINITION. Memory integrity: the wipe (R429, R430), remap tables (R437, R438), the scrubber (R439 to R441) and error
injection (R442). -/

namespace Sys2Proof.Machine

/-- How many 64-bit words a macro has (R436). -/
def macroWords (m : Nat) : Nat := if m < 576 then 2048 else if m < 1664 then 4096 else 32768

/-- The physical address of word i of a macro (R436, R579, R581). -/
def macroAddr (m i : Nat) : Nat :=
  if m < 576 then sqBase (m / 9) + m % 9 * 0x10000 + 8 * i
  else if m < 1152 then sqBase ((m - 576) / 9) + (m - 576) % 9 * 0x10000 + 0x4000 + 8 * i
  else if m < 1664 then sqBase ((m - 1152) / 8) + 0xC0000 + 64 * i + 8 * ((m - 1152) % 8)
  else if m < 1684 then 0x30000000 + (m - 1664) / 2 * 0x100000 + (m - 1664) % 2 * 0x40000 + 8 * i
  else if m < 1748 then 0x20000000 + (m - 1684) * 0x40000 + 8 * i
  else 0x100000000 + (m - 1748) * 0x40000 + 8 * i

/-- The class of a macro's memory (R444). -/
def macroClass (m : Nat) : Nat :=
  if m < 576 then 0 else if m < 1152 then 1 else if m < 1664 then 2 else if m < 1684 then 3 else if m < 1748 then 4 else 5

/-- The power domain of a macro (R9). -/
def macroDom (m : Nat) : Nat :=
  if m < 576 then sqDom (m / 9) else if m < 1152 then sqDom ((m - 576) / 9) else if m < 1664 then sqDom ((m - 1152) / 8)
  else if m < 1748 then 4 else 13

/-! The wipe (R429). -/

/-- The power domain of a memory address. -/
def memDomain (a : Nat) : Nat := if sqSpace ≤ a then sqDom ((a - sqSpace) / 0x100000) else if 0x100000000 ≤ a then 13 else 4

/-- The power domain of the SRAM at an address; none outside the SRAMs of R426. -/
def sramDom (a : Nat) : Option Nat :=
  if !isSram a then none
  else if sqSpace ≤ a then some (sqDom ((a - sqSpace) / 0x100000))
  else if 0x100000000 ≤ a then some 13 else some 4

/-- Whether an address lies in a TCM of physical pair 0. -/
def inTcm0 (a : Nat) : Bool := 0x30000000 ≤ a && a < 0x30200000

/-- Whether a wipe of some domains reaches an address. -/
def wiped (doms : List Nat) (keep : Bool) (a : Nat) : Bool :=
  match sramDom a with
  | some d => doms.contains d && !(keep && inTcm0 a)
  | none => false

/-- Whether an address lies in the part of a square that a wipe empties without poison: route tables, and task inputs and
snapshots (R107, R142). -/
def sqCleared (a : Nat) : Bool :=
  sqSpace ≤ a && a < sqSpace + 0x4000000 &&
    ((0xB0000 ≤ a % 0x100000 && a % 0x100000 < 0xB8000) || (0xBB000 ≤ a % 0x100000 && a % 0x100000 < 0xBB800))

/-- The poison pattern in every SRAM word of some domains, and route tables and task inputs cleared (R107, R142, R427, R429).
[DEDUCED, log entry 52] -/
def State.wipeSram (s : State) (doms : List Nat) (keep : Bool) : State :=
  { s with
    mem := s.mem.filter (fun p => !(wiped doms keep p.1 || (sqCleared p.1 && doms.contains (sqDom ((p.1 - sqSpace) / 0x100000)))))
    chk := s.chk.filter (fun p => !wiped doms keep (8 * p.1))
    tags := s.tags.filter (fun p => !wiped doms keep (16 * p.1)) }

/-- The registers and buffers of a logical engine cleared (R429); its return-stack modes belong to the banks. -/
def Eng.wipe (g : Eng) : Eng := { Eng.init with trapA := g.trapA, trapB := g.trapB }

/-- The register files and buffers of the engines and cores of some domains cleared (R429); snapshots become invalid (R421), and no
slot table is one that a load has emptied (R152). -/
def State.wipeFiles (s : State) (doms : List Nat) : State :=
  let s := { s with
    eng := s.eng.map (fun p => (p.1, if doms.contains (sqDom (p.1 / 8)) then p.2.wipe else p.2))
    sup := if doms.contains 4 then s.sup.map (fun p => (p.1, { Sup.init with key := p.2.key + 1 })) else s.sup }
  repeatN 64 (fun q s => if doms.contains (sqDom q) then (s.setRegN .SQ_SNAPST q 0).setSquare q { s.square q with clear := 0 } else s) s

/-- A wipe begins in some domains (R429): it joins one under way. -/
def State.beginWipe (s : State) (doms : List Nat) (keep : Bool) : State :=
  let w := match s.wipe with
    | some (ds, k) => (ds ++ doms.filter (fun d => !ds.contains d), k && keep)
    | none => (doms, keep)
  { s with wipe := some w }.setFld F.MEM_STAT_WIPING 0 1

/-- The wipe under way completes (R429). -/
def State.endWipe (s : State) : State :=
  match s.wipe with
  | none => s
  | some (ds, k) => { (s.wipeSram ds k).wipeFiles ds with wipe := none }.setFld F.MEM_STAT_WIPING 0 0

/-- Whether a wipe is under way in the SRAM at an address (R430). -/
def State.underWipe (s : State) (a : Nat) : Bool :=
  match s.wipe with
  | some (ds, k) => wiped ds k a
  | none => false

/-! Remap tables (R437). -/

/-- Entry x of a macro's remap table. [DESIGN CHOICE, log entry 48] -/
def remapEntry (m x : Nat) : Nat := 8 * m + x

/-- A row of a macro as storage holds it: each word with its check state and the tag of its granule. -/
def State.rowGet (s : State) (m row : Nat) : List (Nat × Chk × Bool) :=
  (List.range 8).map (fun i =>
    let a := macroAddr m (8 * row + i)
    (s.peek a 8, s.chkAt a, s.tagAt a))

/-- A row of a macro given its words. -/
def State.rowPut (s : State) (m row : Nat) (l : List (Nat × Chk × Bool)) : State :=
  repeatN 8 (fun i s =>
    match l[i]? with
    | some (v, c, t) =>
      let a := macroAddr m (8 * row + i)
      let s := (s.poke a 8 v).setChk a c
      if a % 16 = 0 then s.setTag a t else s
    | none => s) s

/-- The row that an entry of a remap table keeps out of service; one that nothing has written holds free values.
[DESIGN CHOICE, log entry 48] -/
def State.spareRow (s : State) (m x : Nat) : List (Nat × Chk × Bool) × State :=
  match Tab.look (fun _ => []) s.spares (remapEntry m x) with
  | [] =>
    let n := s.free
    ((List.range 8).map (fun i =>
      let c := Config.freeValue (n + 8 + i) % 4
      (Config.freeValue (n + i) % 2 ^ 64, (if c = 0 then .valid else if c = 1 then .poison else if c = 2 then .corr else .uncorr), false)),
      { s with free := n + 16 })
  | l => (l, s)

/-- An entry in effect and the row that it redirects change places (R437). -/
def State.rowSwap (s : State) (m x : Nat) : State :=
  let row := s.fld F.MEM_RDATA_ROW (remapEntry m x)
  if s.flag F.MEM_RDATA_VALID (remapEntry m x) && !s.flag F.MEM_RDATA_BUSY (remapEntry m x) && 8 * row < macroWords m then
    let (l, s) := s.spareRow m x
    { s.rowPut m row l with spares := Tab.put (fun _ => []) s.spares (remapEntry m x) (s.rowGet m row) }
  else s

/-- Every row of a macro is served from its own place. -/
def State.unserve (s : State) (m : Nat) : State := repeatN 8 (fun x s => s.rowSwap m x) s

/-- Every row of a macro is served as its remap table says (R437); of two entries that redirect one row the lower one serves it.
[DESIGN CHOICE, log entry 48] -/
def State.serve (s : State) (m : Nat) : State := repeatN 8 (fun x s => s.rowSwap m (7 - x)) s

/-- A change of a macro's remap table: from then on its rows are served as the new table says (R437). -/
def State.retable (s : State) (m : Nat) (f : State → State) : State := (f (s.unserve m)).serve m

/-- The copy of a row into a remap entry begins. -/
def State.remapBegin (s : State) (m x row : Nat) : State :=
  (s.setFld F.MEM_RDATA_ROW (remapEntry m x) row).setFld F.MEM_RDATA_BUSY (remapEntry m x) 1

/-- A write of RDATA (R437, R444). [DESIGN CHOICE, log entry 48] -/
def State.writeRdata (s : State) (v : Nat) : State :=
  let m := s.fld F.MEM_RSEL_MACRO 0
  let x := s.fld F.MEM_RSEL_ENTRY 0
  if 2004 ≤ m || s.flag F.MEM_RDATA_BUSY (remapEntry m x) then s.setFld F.MEM_STAT_WERR 0 1
  else if bit 12 v then s.retable m (fun s => s.remapBegin m x (bits 11 0 v))
  else s.retable m (fun s => s.setFld F.MEM_RDATA_ROW (remapEntry m x) (bits 11 0 v))

/-- The row copy into a remap entry ends and the spare row serves the row (R437): its words with a correctable error are corrected. -/
def State.remapDone (s : State) (m x : Nat) : State :=
  if !s.flag F.MEM_RDATA_BUSY (remapEntry m x) || !s.alive 4 then s
  else
    let row := s.fld F.MEM_RDATA_ROW (remapEntry m x)
    let copy := (s.rowGet m row).map (fun (v, c, t) => (v, if c = .corr then Chk.valid else c, t))
    (s.setFld F.MEM_STAT_REMAP 0 1).retable m (fun s =>
      { (s.setFld F.MEM_RDATA_BUSY (remapEntry m x) 0).setFld F.MEM_RDATA_VALID (remapEntry m x) 1 with
        spares := Tab.put (fun _ => []) s.spares (remapEntry m x) copy })

/-- A row remapped by MEM itself (R437): into the lowest entry not in use, or REMAPFULL. -/
def State.autoRemap (s : State) (m row : Nat) : State :=
  let inUse (x : Nat) : Bool := s.flag F.MEM_RDATA_VALID (remapEntry m x) || s.flag F.MEM_RDATA_BUSY (remapEntry m x)
  if (List.range 8).any (fun x => s.flag F.MEM_RDATA_BUSY (remapEntry m x) && s.fld F.MEM_RDATA_ROW (remapEntry m x) == row) then s
  else
    match (List.range 8).find? (fun x => !inUse x) with
    | some x => s.remapBegin m x row
    | none => (s.setFld F.MEM_STAT_REMAPFULL 0 1).raiseEv 4 8 (macroClass m)

/-! The scrubber (R439 to R441). -/

/-- The scrubber in a macro. -/
def State.scrub (s : State) (m : Nat) : Scrub := Tab.look (fun _ => Scrub.init) s.scrubs m
/-- The scrubber in a macro given a state. -/
def State.setScrub (s : State) (m : Nat) (x : Scrub) : State := { s with scrubs := Tab.put (fun _ => Scrub.init) s.scrubs m x }

/-- The scrubber reads the next word of a macro (R437, R439 to R441); a lap that ends is recorded in ms. [DEDUCED, log entry 46] -/
def State.scrubVisit (s : State) (m : Nat) : State :=
  if 2004 ≤ m || !s.flag F.MEM_CTL_SCRUBEN 0 || s.flag F.MEM_STAT_WIPING 0 || !s.alive 4 || !s.alive (macroDom m) then s
  else
    let x := s.scrub m
    let a := macroAddr m x.pos
    let start := x.start.getD s.now
    let (s, x) := match s.chkAt a with
      | .corr =>
        let s := s.logCE.setChk a .valid
        let s := if s.flag F.MEM_CTL_AUTOREMAP 0 && x.prev.contains x.pos then s.autoRemap m (x.pos / 8) else s
        (s, { x with fixed := x.pos :: x.fixed })
      | .uncorr => ((s.logUE a 3 true).setFld F.MEM_STAT_SCRUBUE 0 1, x)
      | .poison => ((s.logUE a 3 false).setFld F.MEM_STAT_SCRUBUE 0 1, x)
      | .valid => (s, x)
    if x.pos + 1 < macroWords m then s.setScrub m { x with pos := x.pos + 1, start := some start }
    else
      { s.setScrub m ⟨0, some s.now, [], x.fixed⟩ with laps := Tab.put (fun _ => none) s.laps m (some ((s.now - start) / 1250000)) }

/-- MEM.LAP as it reads (R441): the longest last lap of the selected class. [DEDUCED, log entry 46] -/
def State.memLap (s : State) : Nat :=
  let c := s.fld F.MEM_LAPSEL_CLASS 0
  let l := s.laps.filterMap (fun p => if macroClass p.1 = c && p.1 < 2004 then p.2 else none)
  if 6 ≤ c then 0 else if l.isEmpty then 2 ^ 16 else min 0xFFFF (l.foldl max 0)

/-! Injection (R442). -/

/-- A write of MEM.INJ. -/
def State.writeInj (s : State) (v : Nat) : State :=
  if bit 13 v && s.mode != 9 then s.setFld F.MEM_STAT_WERR 0 1 else s.setRegN .MEM_INJ 0 (v % 2 ^ 14)

end Sys2Proof.Machine
end

