-- ==== Sys2Proof/Machine/SupRegs.lean ====
section
/-! DEFINITION. The registers of a supervisor core (R359 to R361), and which logical core it is (R411). -/

namespace Sys2Proof.Machine

/-- A physical supervisor core. -/
def State.core (s : State) (k : Nat) : Sup := Tab.look (fun _ => Sup.init) s.sup k
/-- A physical supervisor core given a state. -/
def State.setCore (s : State) (k : Nat) (c : Sup) : State := { s with sup := Tab.put (fun _ => Sup.init) s.sup k c }

/-- s0 reads 0 (R359). -/
def Sup.getS (c : Sup) (r : Nat) : Dword := if r = 0 then 0 else Tab.look (fun _ => 0) c.s r
/-- Writes to s0 are ignored (R359). -/
def Sup.putS (c : Sup) (r : Nat) (v : Dword) : Sup := if r = 0 then c else { c with s := Tab.put (fun _ => 0) c.s r v }
/-- A capability register. -/
def Sup.getC (c : Sup) (k : Nat) : Cap := Tab.look (fun _ => Cap.none) c.cap k
/-- A capability register written. -/
def Sup.putC (c : Sup) (k : Nat) (v : Cap) : Sup := { c with cap := Tab.put (fun _ => Cap.none) c.cap k v }
/-- RING of PST (R361). -/
def Sup.ring (c : Sup) : Nat := bits 1 0 c.pst
/-- PLVL of PST (R361). -/
def Sup.plvl (c : Sup) : Nat := bits 16 12 c.pst

/-- An s register. -/
def State.sreg (s : State) (k : Nat) (r : BitVec 5) : Dword := (s.core k).getS r.toNat
/-- An s register written. -/
def State.setSreg (s : State) (k : Nat) (r : BitVec 5) (v : Dword) : State := s.setCore k ((s.core k).putS r.toNat v)

/-- A saved word as PST holds it: reserved bits read 0 (R5, R361). -/
def pstOf (n : Nat) : Nat := bits 1 0 n + bits 8 4 n * 2 ^ 4 + bits 16 12 n * 2 ^ 12

/-- A saved word as PC holds it: bits [1:0] are 0 (R359). -/
def pcOf (n : Nat) : Nat := n % 2 ^ 40 / 4 * 4

/-- The flags of PST after an instruction (R361, R362). -/
def Sup.setFlags (c : Sup) (f : FlagSet) : Sup :=
  match f with
  | .keep => c
  | .nz n z => { c with pst := setBits 4 2 (b2n n + 2 * b2n z) c.pst }
  | .nzcv f => { c with pst := setBits 4 4 (b2n f.n + 2 * b2n f.z + 4 * b2n f.c + 8 * b2n f.v) c.pst }

/-- Every TSB switch draws a new prediction key (R367). -/
def Sup.newKey (c : Sup) : Sup := { c with key := c.key + 1 }

/-! Logical and physical cores (R411). -/

/-- The logical pair that a physical pair serves, if any (R411). -/
def State.logicalPair (s : State) (p : Nat) : Option Nat :=
  (List.range 4).find? (fun j => bits (3 * j + 2) (3 * j) (s.fld F.RDC_PMAP_PAIR 0) == p && s.pairState p == 0)

/-- The mode of a logical pair: 0 lockstep, 1 signature, 2 split (R425). -/
def State.pairMode (s : State) (j : Nat) : Nat := bits (4 * j + 1) (4 * j) (s.fld F.RDC_PMODE_MODE 0)

/-- The logical core that a physical core is, if it runs a stream of its own: the primary of its pair, or a checker in
split mode (R411). -/
def State.logicalCore (s : State) (k : Nat) : Option Nat :=
  match s.logicalPair (k / 2) with
  | some j => if k % 2 = 0 then some (2 * j) else if s.pairMode j = 2 then some (2 * j + 1) else none
  | none => none

end Sys2Proof.Machine
end

