-- ==== Sys2Proof/Machine/Flash.lean ====
section
/-! DEFINITION. The flash controller: command sequences, operations, abandoned erases, castling, option rows and locks (R445 to
R477). -/

namespace Sys2Proof.Machine

/-! Banks (R445, R463, R476). -/

/-- A bank. -/
def State.fbank (s : State) (k : Nat) : FBank := Tab.look (fun _ => FBank.init) s.banks k
/-- A bank given a state. -/
def State.setFbank (s : State) (k : Nat) (x : FBank) : State := { s with banks := Tab.put (fun _ => FBank.init) s.banks k x }
/-- A bank changed. -/
def State.modFbank (s : State) (k : Nat) (f : FBank → FBank) : State := s.setFbank k (f (s.fbank k))

/-- The status register of a bank. -/
def flcStat (k : Nat) : Reg := if k = 0 then .FLC_STATA else .FLC_STATB
/-- A status bit of a bank (R476). -/
def State.fst (s : State) (k b : Nat) : Bool := bit b (s.regN (flcStat k) 0)
/-- A status bit of a bank given. -/
def State.setFst (s : State) (k b : Nat) (v : Bool) : State := s.setRegN (flcStat k) 0 (setBits b 1 (b2n v) (s.regN (flcStat k) 0))
/-- FADDR of a bank (R477). -/
def State.setFaddr (s : State) (k off : Nat) : State := s.setRegN (if k = 0 then .FLC_FADDRA else .FLC_FADDRB) 0 off

/-- The first address of a bank. -/
def bankBase (k : Nat) : Nat := k * 0x8000000

/-- The valid generation of a bank with c leading 0 bits (R463): none for bank B with c = 0. -/
def validGen (k c : Nat) : Option Nat := if k = 0 then some (c / 2 * 2) else if c = 0 then none else some ((c - 1) / 2 * 2 + 1)

/-- Whether option load found an item to fail its check bits, so that it stands at its erased value until it is read again (R543). -/
def State.itemBad (s : State) (i : Nat) : Bool := s.optBad.getLsbD i

/-- The 0 bits of a bank's generation field as they were read (R463, R543). -/
def State.bankGen0 (s : State) (k : Nat) : Nat := if s.itemBad (128 + k) then 0 else (s.fbank k).gen

/-- Whether a sector is locked as the locks were read (R470, R543). -/
def State.locked (s : State) (k sec : Nat) : Bool := !s.itemBad (130 + k) && (s.fbank k).locks.contains sec

/-- The active twin (R463). -/
def State.activeTwin (s : State) : Nat :=
  match validGen 1 (s.bankGen0 1) with
  | some g => if s.bankGen0 0 / 2 * 2 < g then 1 else 0
  | none => 0

/-- FLC.GEN as it reads (R477). -/
def State.flcGen (s : State) : Nat :=
  s.bankGen0 0 / 2 * 2 + s.activeTwin * 2 ^ 11 + (validGen 1 (s.bankGen0 1)).getD 0x7FF * 2 ^ 16

/-- The ABANDONED sectors, as bank × 1,024 + sector in ascending order (R461). -/
def State.abandoned (s : State) : List Nat :=
  (List.range 1024).filter (fun n => (s.fbank 0).abn.contains n) ++
    ((List.range 1024).filter (fun n => (s.fbank 1).abn.contains n)).map (fun n => 1024 + n)

/-- FLC.ABNDATA as it reads (R477). [DEDUCED, log entry 43] -/
def State.flcAbn (s : State) : Nat :=
  match s.abandoned[s.fld F.FLC_ABNSEL_INDEX 0]? with
  | some x => x + 2 ^ 11
  | none => 0

/-- FLC.SINFO as it reads (R470, R477). -/
def State.flcSinfo (s : State) : Nat :=
  let k := s.fld F.FLC_SSEL_BANK 0
  let x := s.fbank k
  let n := s.fld F.FLC_SSEL_SECTOR 0
  b2n (s.locked k n) + b2n (x.abn.contains n) * 2 + b2n (!s.itemBad (132 + k) && x.repl.contains n) * 4

/-- FLC.SPARE as it reads (R460, R477). -/
def State.flcSpare (s : State) : Nat := (32 - (s.fbank 0).used) + (32 - (s.fbank 1).used) * 2 ^ 8

/-- Word w of option row r (R465). -/
def State.optWord (s : State) (r w : Nat) : Nat := (Tab.look (fun _ => 0xFFFFFFFF#32) s.opt (8 * r + w)).toNat
/-- Word w of option row r programmed. -/
def State.setOpt (s : State) (r w v : Nat) : State :=
  { s with opt := Tab.put (fun _ => 0xFFFFFFFF#32) s.opt (8 * r + w) (BitVec.ofNat 32 v) }

/-- The rows of the item that an option row belongs to (R466, R543): the minimum plan generation, a key slot, the repair log and the device
keys have several. [DEDUCED, log entry 67] -/
def optItem (r : Nat) : List Nat :=
  if r = 1 ∨ r = 2 then [1, 2]
  else if 4 ≤ r ∧ r < 16 then (List.range 3).map (fun i => 4 + (r - 4) / 3 * 3 + i)
  else if 16 ≤ r ∧ r < 48 then (List.range 32).map (fun i => 16 + i)
  else if 48 ≤ r ∧ r < 64 then (List.range 16).map (fun i => 48 + i)
  else [r]

/-- Word w of option row r as option load took it: an item with a failed word stands at its erased value (R543). -/
def State.optLoad (s : State) (r w : Nat) : Nat := if (optItem r).any s.itemBad then 2 ^ 32 - 1 else s.optWord r w

/-- FLC.OPTDATA as it reads: rows 48 to 63 return 0 (R465, R554). -/
def State.flcOpt (s : State) : Nat :=
  let i := s.fld F.FLC_OPTSEL_INDEX 0
  if 48 ≤ i / 8 && i / 8 < 64 then 0 else s.optWord (i / 8) (i % 8)

/-- The minimum plan generation (R466, R467): the largest valid slot. -/
def State.minGen (s : State) : Nat :=
  (List.range 8).foldl (fun m i =>
    let lo := s.optLoad (1 + i / 4) (i % 4 * 2)
    let hi := s.optLoad (1 + i / 4) (i % 4 * 2 + 1)
    if lo + hi = 2 ^ 32 - 1 then max m lo else m) 0

/-- A number of n words of the option rows from word i of row r on. -/
def State.optNum (s : State) (r i n : Nat) : Nat :=
  (List.range n).foldl (fun v k => v + s.optLoad (r + (i + k) / 8) ((i + k) % 8) * 2 ^ (32 * k)) 0

/-- The public key of a slot: none where it is empty or revoked (R466, R467). -/
def State.flashKey (s : State) (k : Nat) : Option (Nat × Nat) :=
  let x := s.optNum (4 + 3 * k) 0 12
  let y := s.optNum (4 + 3 * k) 12 12
  if (x = 2 ^ 384 - 1 ∧ y = 2 ^ 384 - 1) ∨ bits (8 * k + 7) (8 * k) (s.optLoad 3 0) = 0 then none else some (x, y)

/-- Entry i of the repair log: its low word, where the entry takes effect (R468). -/
def State.repairEntry (s : State) (i : Nat) : Option Nat :=
  let lo := s.optLoad (16 + i / 4) (i % 4 * 2)
  let hi := s.optLoad (16 + i / 4) (i % 4 * 2 + 1)
  if lo + hi = 2 ^ 32 - 1 ∧ (lo % 16 = 1 ∨ lo % 16 = 2) then some lo else none

/-! Reads (R446, R447, R452, R462). -/

/-- The bank and offset that an address of flash or of the boot window reaches (R445). -/
def State.flashAt (s : State) (a : Nat) : Nat × Nat :=
  if a < 0x10000000 then (a / 0x8000000, a % 0x8000000) else (s.activeTwin, a - 0x10000000)

/-- A flash word of a bank whose code the controller cannot correct (R428, R446). -/
def State.flashBad (s : State) (k off : Nat) : Bool := (s.chkAt (bankBase k + off / 32 * 32)).bad

/-- The line buffers of the cores without the lines that a test names (R446). -/
def State.dropLines (s : State) (p : Nat → Bool) : State :=
  repeatN 10 (fun k s =>
    if (s.core k).lines.any p then s.setCore k { s.core k with lines := (s.core k).lines.filter (fun a => !p a) } else s) s

/-- The lines that hold a word of n bytes of a bank from an offset on go (R446). -/
def State.dropWords (s : State) (k off n : Nat) : State :=
  s.dropLines (fun a => let (j, o) := s.flashAt a; j == k && decide (off / 32 * 32 ≤ o) && decide (o < off + n))

/-- Whether an agent's line buffer holds the flash word at an address (R446). -/
def State.lineHit (s : State) (by_ : Agent) (a : Nat) : Bool :=
  match by_ with
  | .sup k => (s.core k).lines.contains (a / 32 * 32)
  | _ => false

/-- A core's line buffer takes the flash word at an address (R446): of its 4 lines the oldest goes. [DESIGN CHOICE, log entry 45] -/
def State.lineFill (s : State) (by_ : Agent) (a : Nat) : State :=
  match by_ with
  | .sup k => s.setCore k { s.core k with lines := (a / 32 * 32 :: (s.core k).lines).take 4 }
  | _ => s

/-- What a read of flash comes to: refused, failed, or its value with the INCOMPLETE attribute. -/
inductive FRead where
  | refused
  | bad (doubt : Bool)
  | ok (v : Nat) (doubt : Bool)
  deriving DecidableEq, Repr

/-- A read of n bytes of one flash word by an agent (R446, R449, R452, R462); one in the ec in which a command word starts an operation is
served (R471). [DESIGN CHOICE, log entry 44] -/
def State.flashRead (s : State) (by_ : Agent) (a n : Nat) : FRead × State :=
  let (k, off) := s.flashAt a
  let x := s.fbank k
  if off = 0x7A40 ∧ a < 0x10000000 ∧ x.status.contains by_ then
    (.ok (s.regN (flcStat k) 0 % 2 ^ (8 * n)) false, s.setFbank k { x with status := x.status.filter (fun b => b ≠ by_) })
  else if s.fst k 0 && !s.fst k 1 && x.began != s.now + 1 then (.refused, s.setFst k 14 true)
  else
    let doubt := x.abn.contains (off / 0x20000) || (s.fst k 1 && x.erase == some (off / 0x20000))
    let s := if doubt then s.setFst k 15 true else s
    let w := bankBase k + off / 32 * 32
    if s.lineHit by_ a then (.ok (s.peek (bankBase k + off) n) doubt, s)
    else if s.flashBad k off then
      let (v, s) := s.takeFree
      (.bad doubt, (s.bump F.MEM_UECNT_COUNT F.MEM_UECNT_SAT 0).setFld F.MEM_STAT_UE 0 1 |>.raiseEv 4 8 (v % 256))
    else
      let s := if s.chkAt w == .corr then s.bump F.FLC_CORRCNT_COUNT F.FLC_CORRCNT_SAT 0 else s
      (.ok (s.peek (bankBase k + off) n) doubt, s.lineFill by_ a)

/-! Commands (R449, R451). -/

/-- Whether the bank accepts a command in the mode of the device (R451). -/
def State.flashMode (s : State) (k code row : Nat) : Bool :=
  let m := s.mode
  if m = 10 then true
  else if m = 5 ∨ m = 6 ∨ m = 7 ∨ m = 8 ∨ m = 9 then
    if k = s.activeTwin then code == 0x50 || code == 0x51 || code == 0x40
    else code != 0x70 || (16 ≤ row && row < 48) || (64 ≤ row && row < 128)
  else code == 0x50 || code == 0x51

/-- Whether a code is one of R449. -/
def flashCode (code : Nat) : Bool := [0x10, 0x11, 0x20, 0x21, 0x22, 0x30, 0x40, 0x50, 0x51, 0x60, 0x70, 0xF0].contains code

/-- Whether a bank takes a command while it is busy (R451): one operation runs at a time, beside an erase that is suspended. -/
def State.flashFree (s : State) (k code : Nat) : Bool :=
  let x := s.fbank k
  if !s.fst k 0 then true
  else if code = 0x50 ∨ code = 0x51 ∨ code = 0xF0 ∨ code = 0x21 then true
  else if s.fst k 1 then (code == 0x22 || code == 0x10 || code == 0x11) && x.op.isNone
  else false

/-- An operation begins (R449). -/
def State.flashBegin (s : State) (k : Nat) (o : FOp) : State :=
  let s := (s.modFbank k (fun x => { x with op := some o, began := s.now + 1 })).setFst k 0 true
  s.setRegN (flcStat k) 0 (setBits 24 8 o.code (s.regN (flcStat k) 0))

/-- An operation ends (R449): BUSY stays 1 while an erase is suspended. [DEDUCED, log entry 43] -/
def State.flashEnd (s : State) (k : Nat) : State :=
  let s := (s.modFbank k (fun x => { x with op := none })).setFst k 2 true
  if (s.fbank k).erase.isSome then s else s.setFst k 0 false

/-- A flash word holds nothing known: its bytes and the state of its code are free values (R454, R459). [DESIGN CHOICE, log entry 44] -/
def State.flashScramble (s : State) (k off : Nat) : State :=
  let a := bankBase k + off / 32 * 32
  let s := repeatN 4 (fun i s => let (v, s) := s.takeFree; s.poke (a + 8 * i) 8 v) s
  let (v, s) := s.takeFree
  s.setChk a (if v % 3 = 0 then .valid else if v % 3 = 1 then .corr else .uncorr)

/-- The words of a sector hold nothing known (R452, R459). -/
def State.sectorScramble (s : State) (k sec : Nat) : State :=
  repeatN 4096 (fun i s => s.flashScramble k (sec * 0x20000 + 32 * i)) (s.dropWords k (sec * 0x20000) 0x20000)

/-- The eight 32-bit words of a flash word or row as one number. -/
def wordsNum (l : List Nat) : Nat := l.foldr (fun v acc => v % 2 ^ 32 + 2 ^ 32 * acc) 0

/-- The check bits of a valid flash word (R428, R454). [DESIGN CHOICE, log entry 44] -/
def flashCheckOf (v : Nat) : BitVec 32 :=
  if v = 0 then 0 else if v = 2 ^ 256 - 1 then BitVec.allOnes 32 else Config.flashCheck v

/-- Whether the check of R454 accepts new data at an offset of a bank: no data bit and no check bit rises. The check bits of a word with
errors are a free value. [DESIGN CHOICE, log entry 44] -/
def State.flashAccepts (s : State) (k off v : Nat) : Bool × State :=
  let old := s.peek (bankBase k + off) 32
  if v &&& (2 ^ 256 - 1 - old) ≠ 0 then (false, s)
  else if v = 0 then (true, s)
  else
    let (c, s) := if s.chkAt (bankBase k + off) = .valid then (flashCheckOf old, s) else
      let (f, s) := s.takeFree
      (BitVec.ofNat 32 f, s)
    (decide (flashCheckOf v &&& ~~~ c = 0), s)

/-- Every word of a program passes the check of R454. -/
def State.flashAcceptsAll (s : State) (k : Nat) : Nat → List Nat → Bool × State
  | _, [] => (true, s)
  | off, v :: t =>
    let (ok, s) := s.flashAccepts k off v
    if ok then s.flashAcceptsAll k (off + 32) t else (false, s)

/-- A program of flash words from an offset on (R454, R455). -/
def State.flashProgram (s : State) (k code off : Nat) (ws : List Nat) : State :=
  let x := s.fbank k
  let sec := off / 0x20000
  if 1024 < off % 1024 + 32 * ws.length ∨ ws = [] then s.setFst k 5 true
  else if x.erase = some sec then s.setFst k 5 true
  else if s.locked k sec then s.setFst k 7 true
  else if x.abn.contains sec then s.setFst k 8 true
  else
    let (ok, s) := s.flashAcceptsAll k off ws
    if ok then s.flashBegin k ⟨code, off, ws⟩ else s.setFst k 9 true

/-- The first word of a sector that is not erased, as its place (R449). -/
def State.notErased (s : State) (k sec : Nat) : Option Nat :=
  let lo := bankBase k + sec * 0x20000
  let bad := (s.mem.filter (fun p => lo ≤ p.1 && p.1 < lo + 0x20000)).map (fun p => (p.1 - lo) / 32)
  let unc := (s.chk.filter (fun p => lo / 8 ≤ p.1 && p.1 < (lo + 0x20000) / 8)).map (fun p => (8 * p.1 - lo) / 32)
  match bad ++ unc with
  | [] => none
  | a :: l => some (l.foldl min a)

/-- CASTLE on a bank (R462 to R464). -/
def State.flashCastle (s : State) (k : Nat) : State :=
  let g := (validGen (1 - k) (s.bankGen0 (1 - k))).getD 0
  if k = s.activeTwin then s.setFst k 5 true
  else if s.abandoned.any (fun x => x % 1024 < 16) then s.setFst k 8 true
  else if 1024 < g + 1 then s.setFst k 17 true
  else s.flashBegin k ⟨0x30, g, []⟩

/-- OPTION PROGRAM of a row (R469). -/
def State.flashOption (s : State) (k row : Nat) (ws : List Nat) : State :=
  if (48 ≤ row && row < 64) || !s.flashMode k 0x70 row then s.setFst k 6 true
  else if (List.range 8).any (fun w => (ws.getD w 0) &&& (2 ^ 32 - 1 - s.optWord row w) != 0) then s.setFst k 9 true
  else s.flashBegin k ⟨0x70, row, ws⟩

/-- ERASE SUSPEND (R458): accepted while the erase runs and no suspend is under way. -/
def State.flashSuspend (s : State) (k : Nat) : State :=
  match (s.fbank k).op with
  | some o => if o.code = 0x20 ∧ (s.fbank k).asked = false then s.modFbank k (fun x => { x with asked := true, askedAt := s.now }) else s.setFst k 5 true
  | none => s.setFst k 5 true

/-- A suspended erase stops (R458); the words of its sector hold anything (R452). [DESIGN CHOICE, log entry 44] -/
def State.flashSuspended (s : State) (k : Nat) : State :=
  match (s.fbank k).op with
  | some o =>
    if o.code = 0x20 ∧ (s.fbank k).asked = true then
      ((s.sectorScramble k o.place).modFbank k (fun x => { x with op := none, erase := some o.place, asked := false })).setFst k 1 true
    else s
  | none => s

/-- ERASE RESUME (R458). -/
def State.flashResume (s : State) (k : Nat) : State :=
  match (s.fbank k).erase with
  | some sec =>
    if s.fst k 1 && (s.fbank k).op.isNone then
      ((s.modFbank k (fun x => { x with erase := none })).setFst k 1 false).flashBegin k ⟨0x20, sec, []⟩
    else s.setFst k 5 true
  | none => s.setFst k 5 true

/-- The sector becomes ABANDONED (R459, R461) and holds anything. [DESIGN CHOICE, log entry 44] -/
def State.flashAbandon (s : State) (k sec : Nat) : State :=
  (s.sectorScramble k sec).modFbank k (fun x => { x with abn := if x.abn.contains sec then x.abn else sec :: x.abn })

/-- An operation stopped in the middle (R459, R464, R469): words programmed hold anything, an erase leaves its marker and the
sector holds anything, a castle some of its bits, a row some of its cleared bits, and a lock either state. [DESIGN CHOICE, log entry 44] -/
def State.flashCut (s : State) (k : Nat) (o : FOp) : State :=
  match o.code with
  | 0x10 | 0x11 =>
    repeatN (o.words.length) (fun i s => s.flashScramble k (o.place + 32 * i)) (s.dropWords k o.place (32 * o.words.length))
  | 0x20 => s.flashAbandon k o.place
  | 0x30 =>
    let (v, s) := s.takeFree
    let c := (s.fbank k).gen
    s.modFbank k (fun x => { x with gen := c + v % (o.place + 1 - c) })
  | 0x60 =>
    let (v, s) := s.takeFree
    if v % 2 = 0 then s else s.modFbank k (fun x => { x with locks := o.place :: x.locks.filter (fun n => n ≠ o.place) })
  | 0x70 =>
    repeatN 8 (fun w s =>
      let (v, s) := s.takeFree
      let new := o.words.getD w 0 % 2 ^ 32
      s.setOpt o.place w (s.optWord o.place w &&& (new ||| v % 2 ^ 32))) s
  | _ => s

/-- ABORT (R459): the operation, or the suspended erase, stops; with neither, nothing happens. -/
def State.flashAbort (s : State) (k : Nat) : State :=
  match (s.fbank k).op with
  | some o =>
    let x := (s.now, o, s.fst k 12)
    let s := ((s.flashCut k o).modFbank k (fun b => { b with op := none, asked := false, cut := some x })).setFst k 12 true
    if (s.fbank k).erase.isSome then s else s.setFst k 0 false
  | none =>
    match (s.fbank k).erase with
    | some sec =>
      ((((s.flashAbandon k sec).modFbank k (fun x => { x with erase := none })).setFst k 1 false).setFst k 0 false).setFst k 12 true
    | none => s

/-- CLEAR STATUS (R449): every W1C field. -/
def State.flashClear (s : State) (k : Nat) : State :=
  s.setRegN (flcStat k) 0 (s.regN (flcStat k) 0 &&& (2 ^ 32 - 1 - (flcStat k).spec.w1c))

/-- A command with all of its operands starts (R449, R451): the mode, then the state of the bank, then its own refusals. -/
def State.flashRun (s : State) (by_ : Agent) (k code place : Nat) (ws : List Nat) : State :=
  if !flashCode code then s.setFst k 5 true
  else if !s.flashMode k code place then s.setFst k 6 true
  else if !s.flashFree k code then s.setFst k 5 true
  else
    match code with
    | 0x10 | 0x11 => s.flashProgram k code place ws
    | 0x20 =>
      if s.locked k place then s.setFst k 7 true
      else (s.modFbank k (fun x => { x with marks := place :: x.marks.filter (fun n => n ≠ place) })).flashBegin k ⟨0x20, place, []⟩
    | 0x21 => s.flashSuspend k
    | 0x22 => s.flashResume k
    | 0x30 => s.flashCastle k
    | 0x40 | 0x60 => s.flashBegin k ⟨code, place, []⟩
    | 0x50 => s.modFbank k (fun x => { x with status := by_ :: x.status.filter (fun b => b ≠ by_) })
    | 0x51 => s.flashClear k
    | 0x70 => s.flashOption k place ws
    | _ => s.flashAbort k

/-- The sector is erased: its words, its check states and its failed verification (R457). -/
def State.flashErased (s : State) (k sec : Nat) : State :=
  let lo := bankBase k + sec * 0x20000
  let s := s.dropWords k (sec * 0x20000) 0x20000
  let s := { s with mem := s.mem.filter (fun p => !(lo ≤ p.1 && p.1 < lo + 0x20000)),
                    chk := s.chk.filter (fun p => !(lo ≤ 8 * p.1 && 8 * p.1 < lo + 0x20000)) }
  s.modFbank k (fun x => { x with marks := x.marks.filter (fun n => n ≠ sec), abn := x.abn.filter (fun n => n ≠ sec),
                                  bad := x.bad.filter (fun n => n ≠ sec) })

/-- Another sector in place of one (R460); with no spare left the erase fails at a word that the spec does not name, and the sector holds
anything. [DESIGN CHOICE, log entry 44] -/
def State.flashReplace (s : State) (k sec : Nat) : State :=
  if (s.fbank k).used < 32 then
    ((s.modFbank k (fun x => { x with used := x.used + 1, repl := sec :: x.repl.filter (fun n => n ≠ sec) })).flashErased k sec).setFst k 11 true
  else
    let (v, s) := (s.sectorScramble k sec).takeFree
    (s.setFst k 10 true).setFaddr k (sec * 0x20000 + v % 4096 * 32)

/-- An operation that an ABORT of this ec has stopped completes all the same (R471). -/
def State.flashUncut (s : State) (k : Nat) : State :=
  match (s.fbank k).op, (s.fbank k).cut with
  | none, some (t, o, was) =>
    if t = s.now then ((s.modFbank k (fun x => { x with op := some o, cut := none })).setFst k 12 was).setFst k 0 true else s
  | _, _ => s

/-- A suspend asked for in the ec in which the erase completes is refused (R471). -/
def State.flashAsked (s : State) (k : Nat) : State :=
  if (s.fbank k).asked && (s.fbank k).askedAt == s.now then s.setFst k 5 true else s

/-- An operation ends (R449, R454, R455, R457, R460, R464, R469, R470). `fail` names the first word of a program that fails its
read-back; it reads as anything. An erase of a sector whose program failed brings in a spare. -/
def State.flashDone (s : State) (k : Nat) (fail : Option Nat) : State :=
  let s := (s.flashUncut k).flashAsked k
  match (s.fbank k).op with
  | none => s
  | some o =>
    let s := match o.code with
      | 0x10 | 0x11 =>
        let s := s.dropWords k o.place (32 * o.words.length)
        let s := repeatN o.words.length (fun i (s : State) =>
          (s.poke (bankBase k + o.place + 32 * i) 32 (o.words.getD i 0)).setChk (bankBase k + o.place + 32 * i) .valid) s
        match fail with
        | some i =>
          if i < o.words.length then
            (((s.flashScramble k (o.place + 32 * i)).setFst k 10 true).setFaddr k (o.place + 32 * i)).modFbank k
              (fun x => { x with bad := o.place / 0x20000 :: x.bad.filter (fun n => n ≠ o.place / 0x20000) })
          else s
        | none => s
      | 0x20 => if (s.fbank k).bad.contains o.place then s.flashReplace k o.place else s.flashErased k o.place
      | 0x30 => (s.modFbank k (fun x => { x with gen := o.place + 1 })).dropLines (fun a => decide (0x10000000 ≤ a))
      | 0x40 =>
        match s.notErased k o.place with
        | none => s.setFst k 13 true
        | some i => (s.setFst k 13 false).setFaddr k (o.place * 0x20000 + 32 * i)
      | 0x60 => s.modFbank k (fun x => { x with locks := o.place :: x.locks.filter (fun n => n ≠ o.place) })
      | 0x70 => repeatN 8 (fun w s => s.setOpt o.place w (s.optWord o.place w &&& o.words.getD w 0)) s
      | _ => s
    (s.modFbank k (fun x => { x with asked := false })).flashEnd k

/-- An erase not verified in 200 ms, or whose marker row does not erase (R460): a spare sector is brought in, or VERIFY sets. -/
def State.flashSpare (s : State) (k : Nat) : State :=
  match (s.fbank k).op with
  | some o => if o.code = 0x20 then ((s.flashReplace k o.place).modFbank k (fun x => { x with asked := false })).flashEnd k else s
  | none => s

/-! Sequences (R448, R450, R453, R471). -/

/-- Whether an initiator may start a sequence on a bank (R450). -/
def State.flashMay (s : State) (by_ : Agent) (k : Nat) : Bool :=
  let ok (c : Cap) : Bool := s.capUsable c && c.otype == 9 && c.may 6 && c.base == k
  match by_ with
  | .sup n => ok ((s.core n).getC 7)
  | .dma m => ok ⟨s.flag F.DMA_STAT_DTAG m, BitVec.ofNat 128
      (s.regN .DMA_CAPDA m + s.regN .DMA_CAPDB m * 2 ^ 32 + s.regN .DMA_CAPDC m * 2 ^ 64 + s.regN .DMA_CAPDD m * 2 ^ 96)⟩
  | _ => false

/-- The gap that closes a sequence: 40 bc, in qt (R448). [DEDUCED, log entry 42] -/
def seqGap : Nat := 12500

/-- An open sequence closes with SEQERR. [DEDUCED, log entry 42] -/
def State.seqBreak (s : State) (k : Nat) : State := (s.modFbank k (fun x => { x with seq := none })).setFst k 4 true

/-- The gap since the last write of an open sequence has passed (R448). -/
def State.seqTimeout (s : State) (k : Nat) : State :=
  if (s.fbank k).seq.isSome then s.seqBreak k else s

/-- The order of the initiators of sequences (R471). -/
def Agent.order : Agent → Nat
  | .sup k => k
  | .dma m => 10 + m
  | _ => 42

/-- An open sequence whose time has passed closes (R448). -/
def State.seqExpire (s : State) (k : Nat) : State :=
  match (s.fbank k).seq with
  | some q => if q.at_ + seqGap < s.now then s.seqBreak k else s
  | none => s

/-- A sequence that another initiator has opened in this ec gives way to one of a lower number (R471). -/
def State.seqYield (s : State) (by_ : Agent) (k : Nat) : State :=
  match (s.fbank k).seq with
  | some q => if q.step = .key2 ∧ q.at_ = s.now ∧ by_.order < q.by_.order then s.seqBreak k else s
  | none => s

/-- How many operand writes a command takes, given those received (R449). -/
def flashOperands (code : Nat) (got : List (Nat × Nat)) : Nat :=
  match code with
  | 0x10 => 8
  | 0x11 => match got with | (_, n) :: _ => 1 + 8 * (n + 1) | [] => 1
  | 0x20 | 0x30 | 0x40 | 0x60 => 1
  | 0x70 => 9
  | _ => 0

/-- Whether an operand write fits the next step of a command (R449). -/
def flashFits (code : Nat) (got : List (Nat × Nat)) (off v : Nat) : Bool :=
  let n := got.length
  match code with
  | 0x10 => if n = 0 then off % 32 == 0 else got.head?.map (·.1 + 4 * n) == some off
  | 0x11 => if n = 0 then off % 32 == 0 && v < 32 else got.head?.map (·.1 + 4 * (n - 1)) == some off
  | 0x30 => off == 0 && v == 0xD0
  | 0x70 => off == 0 && (n != 0 || v < 128)
  | _ => v == 0xD0

/-- Every eight words gathered into one flash word. -/
def gather : Nat → List Nat → List Nat
  | 0, _ => []
  | n + 1, l => wordsNum (l.take 8) :: gather n (l.drop 8)

/-- A command whose operands are complete runs (R449). -/
def State.flashStart (s : State) (by_ : Agent) (k code : Nat) (got : List (Nat × Nat)) : State :=
  let s := s.modFbank k (fun x => { x with seq := none })
  let off := (got.head?.map (·.1)).getD 0
  let vs := got.map (·.2)
  match code with
  | 0x10 => s.flashRun by_ k code off (gather 1 vs)
  | 0x11 => s.flashRun by_ k code off (gather ((vs.headD 0) + 1) vs.tail)
  | 0x20 | 0x40 | 0x60 => s.flashRun by_ k code (off / 0x20000) []
  | 0x70 => s.flashRun by_ k code (vs.headD 0) vs.tail
  | _ => s.flashRun by_ k code 0 []

/-- The command word of a sequence (R448, R449, R451, R453): `pc` is where the storing instruction of a core lies.
[DEDUCED, log entry 42] -/
def State.flashCommand (s : State) (by_ : Agent) (k v : Nat) (pc : Option Nat) : State :=
  let closed := s.modFbank k (fun x => { x with seq := none })
  let self := match pc with
    | some a => a < 0x10200000 && (s.flashAt a).1 == k
    | none => false
  let code := v % 256
  if 256 ≤ v then s.seqBreak k
  else if self then closed.setFst k 3 true
  else if !flashCode code then closed.setFst k 5 true
  else if !s.flashMode k code 16 then closed.setFst k 6 true
  else if !s.flashFree k code then closed.setFst k 5 true
  else if flashOperands code [] = 0 then s.flashStart by_ k code []
  else s.modFbank k (fun x => { x with seq := some ⟨by_, .operands code [], s.now⟩ })

/-- A 32-bit write to a bank by an initiator that R450 admits (R448); a write of other size fits no step. -/
def State.flashWrite (s : State) (by_ : Agent) (k off v size : Nat) (pc : Option Nat) : State :=
  let s := s.seqExpire k
  let s := if size = 4 ∧ off = 0x7A40 ∧ v = 0x4B594F56 then s.seqYield by_ k else s
  let go (st : FStep) : State := s.modFbank k (fun x => { x with seq := some ⟨by_, st, s.now⟩ })
  match (s.fbank k).seq with
  | none => if size = 4 ∧ off = 0x7A40 ∧ v = 0x4B594F56 then go .key2 else s.setFst k 4 true
  | some q =>
    if q.by_ ≠ by_ then s.setFst k 4 true
    else if size ≠ 4 then s.seqBreak k
    else
      match q.step with
      | .key2 => if off = 0x4B10 ∧ v = 0xB62D then go .command else s.seqBreak k
      | .command => if off = 0x7A40 then s.flashCommand by_ k v pc else s.seqBreak k
      | .operands code got =>
        if !flashFits code got off v then s.seqBreak k
        else
          let got := got ++ [(off, v)]
          if code = 0x11 ∧ got.length = 1 ∧ 1024 < off % 1024 + 32 * (v + 1) then
            (s.modFbank k (fun x => { x with seq := none })).setFst k 5 true
          else if flashOperands code got = got.length then s.flashStart by_ k code got
          else go (.operands code got)

/-- A reset of the FLASH domain or of FLC (R475): an operation ends as under ABORT, the registers take their reset values, and the
markers are read again. -/
def State.flashReset (s : State) : State :=
  let one (k : Nat) (s : State) : State :=
    let s := match (s.fbank k).op with
      | some o => s.flashCut k o
      | none => s
    s.modFbank k (fun x => { x with
      seq := none, op := none, erase := none, asked := false, status := [], abn := x.marks,
      began := 0, askedAt := 0, cut := none })
  { (one 1 (one 0 s)) with optBad := s.optBad &&& (2 ^ 128 - 1), regs := (one 1 (one 0 s)).regs.filter (fun p =>
      !(Reg.FLC_STATA.ctorIdx ≤ p.1 / 65536 && p.1 / 65536 ≤ Reg.FLC_CORRCNT.ctorIdx)) }

end Sys2Proof.Machine
end

