-- ==== Sys2Proof/Machine/Lode.lean ====
section
/-! DEFINITION. The Lode (R293 to R311): descriptors and their checks, coordinates, interpolation, region walks and half flips. -/

namespace Sys2Proof.Machine

/-- The register of a descriptor word. -/
def lodWord : Nat → Reg
  | 0 => .LOD_W0
  | 1 => .LOD_W1
  | 2 => .LOD_W2
  | 3 => .LOD_W3
  | 4 => .LOD_W4
  | 5 => .LOD_W5
  | 6 => .LOD_W6
  | _ => .LOD_W7

/-- The lengths minus 1 of the axes of a map of dimension m (R296). -/
def lodNm (m nm : Nat) : List Nat :=
  match m with
  | 1 => [bits 23 0 nm]
  | 2 => [bits 15 0 nm, bits 31 16 nm]
  | _ => [bits 9 0 nm, bits 20 10 nm, bits 31 21 nm]

/-- Whether the eight words of a descriptor pass the check of R297, their reserved bits apart. -/
def lodCheck (w : List Nat) : Bool :=
  let g (i : Nat) : Nat := w.getD i 0
  let kind := bits 2 0 (g 0)
  let step := bit 4 (g 0)
  let dim := bits 10 8 (g 0)
  let depth := bits 15 11 (g 0)
  let b0 := bits 23 0 (g 1)
  let b1 := bits 23 0 (g 2)
  let size := bits 24 0 (g 3)
  let sh0 := bits 28 24 (g 1)
  let sh1 := bits 28 24 (g 2)
  let sh2 := bits 29 25 (g 3)
  let unused :=
    match kind with
    | 1 => dim == 0 && depth == 0 && sh1 == 0 && sh2 == 0 && g 5 == 0 && g 6 == 0 && g 7 < 2 ^ 24
    | 2 => !step && dim == 0 && depth == 0 && sh2 == 0 && g 6 == 0
    | 3 => !step && dim == 0 && depth == 0
    | 4 => !step && sh0 == 0 && sh1 == 0 && sh2 == 0 && g 4 == 0 && g 5 == 0 && g 6 == 0 && g 7 == 0
    | _ => false
  let halves := b0 % 256 == 0 && b1 % 256 == 0 && b0 + size ≤ 16777216 && b1 + size ≤ 16777216 &&
    (b0 == b1 || b0 + size ≤ b1 || b1 + size ≤ b0)
  let shape :=
    if kind = 4 then 1 ≤ depth && depth ≤ 24 && size % 2 == 0 && 4 ≤ size
    else (lodNm kind (g 7)).all (fun n => 1 ≤ n) && size == (lodNm kind (g 7)).foldl (fun p n => p * (n + 1)) 1
  unused && halves && shape

/-- The words of descriptor d. -/
def State.lodWords (s : State) (d : Nat) : List Nat := (List.range 8).map (fun i => s.regN (lodWord i) d)

/-- PENDING follows the FLIP bits (R311). -/
def State.lodPending (s : State) : State :=
  s.setFld F.LOD_STAT_PENDING 0 (b2n ((List.range 4096).any (fun d => s.flag F.LOD_W0_FLIP d)))

/-- One descriptor's half flips at tick t (R306). -/
def State.lodFlipOne (s : State) (d t : Nat) : State :=
  let s := (s.setFld F.LOD_W0_HALF d (1 - s.fld F.LOD_W0_HALF d)).setFld F.LOD_W0_FLIP d 0
  let s := (s.bump F.LOD_FLIPCNT_COUNT F.LOD_FLIPCNT_SAT 0).setPair .LOD_LASTL .LOD_LASTH 0 t
  { s with flipAt := Tab.put (fun _ => 0) s.flipAt d t }

/-- Every pending flip takes effect at tick t (R306). [DEDUCED, log entry 37] -/
def State.lodFlipAll (s : State) (t : Nat) : State :=
  (repeatN 4096 (fun d s => if s.flag F.LOD_W0_FLIP d then s.lodFlipOne d t else s) s).setFld F.LOD_STAT_PENDING 0 0

/-- A write of 1 to FLIP (R306): it waits for a frame boundary while a bank is active, else acts in the next ec. [DEDUCED, log entry 37] -/
def State.lodFlip (s : State) (d : Nat) : State :=
  if s.fld F.LOD_W0_KIND d = 0 ∨ s.fld F.LOD_W1_BASE0 d = s.fld F.LOD_W2_BASE1 d then s.setFld F.LOD_STAT_FLIPERR 0 1
  else if s.bankOn then (s.setFld F.LOD_W0_FLIP d 1).setFld F.LOD_STAT_PENDING 0 1
  else if s.flag F.LOD_W0_FLIP d then s
  else s.lodFlipOne d (s.now + 1)

/-- A write of a descriptor word (R297, R306); its reserved bits are ignored (R4). -/
def State.lodWrite (s : State) (d i v : Nat) : State :=
  let derr (s : State) : State := s.setFld F.LOD_STAT_DERR 0 1
  if i = 0 then
    let keep := s.regN .LOD_W0 d / 2 ^ 16 % 4 * 2 ^ 16
    let new := (v &&& 0xFF1F) + keep
    let kind := bits 2 0 v
    let s :=
      if kind = 0 then s.setRegN .LOD_W0 d new
      else if lodCheck ((v &&& 0xFF1F) :: (s.lodWords d).tail) then s.setRegN .LOD_W0 d new
      else derr (s.setFld F.LOD_W0_KIND d 0)
    if bit 17 v then s.lodFlip d else s
  else if s.fld F.LOD_W0_KIND d ≠ 0 then derr s
  else s.setRegN (lodWord i) d (v &&& (match i with | 1 => 0x1FFFFFFF | 2 => 0x1FFFFFFF | 3 => 0x3FFFFFFF | _ => 0xFFFFFFFF))

/-- Every descriptor and LOD register cleared (R309). -/
def State.lodClear (s : State) : State :=
  let lod : List Reg := [.LOD_W0, .LOD_W1, .LOD_W2, .LOD_W3, .LOD_W4, .LOD_W5, .LOD_W6, .LOD_W7, .LOD_DSEL, .LOD_STAT, .LOD_FLIPCNT,
    .LOD_LASTL, .LOD_LASTH]
  { s with regs := s.regs.filter (fun x => !lod.any (fun r => r.ctorIdx == x.1 / 65536)), flipAt := [] }

/-! Reading (R293, R294, R81). -/

/-- Where entry e lies (R293). -/
def lodAddr (e : Nat) : Nat := 0x100000000 + 4 * e

/-- The half that is current for an instruction whose first ec is t (R81). -/
def State.lodHalf (s : State) (d t : Nat) : Nat :=
  let h := s.fld F.LOD_W0_HALF d
  if t < Tab.look (fun _ => 0) s.flipAt d then 1 - h else h

/-- The base entry of the half current for an instruction whose first ec is t. -/
def State.lodBase (s : State) (d t : Nat) : Nat :=
  if s.lodHalf d t = 0 then s.fld F.LOD_W1_BASE0 d else s.fld F.LOD_W2_BASE1 d

/-- The ecs in which a Lode instruction of dimension m whose first ec is t sends its requests; m = 0 for a WALK of a depth (R100). -/
def lodeRequests (m depth t : Nat) : List Nat :=
  match m with
  | 0 => (List.range (depth + 1)).map (fun i => t + 2 + 4 * i)
  | 1 => [t + 2]
  | 2 => [t + 2, t + 3]
  | _ => [t + 2, t + 3, t + 4, t + 5]

/-- Entry e as it stood before any write of ec u (R295). -/
def State.lodEntry (s : State) (u e : Nat) : Nat :=
  ofLeBytes ((List.range 4).map (fun k => s.byteWhen (MemWrite.from_ u) (lodAddr e + k)))

/-- The check of the 64-bit word that holds entry e, for a request of ec u (R79, R295, R434). -/
def State.lodCheckAt (s : State) (u e : Nat) : Bool × State :=
  s.checkAt u (s.chkWhen (MemWrite.from_ u) (lodAddr e)) (lodAddr e) 0

/-- A request of ec u reads entries e and e + 1 (R294, R300): none where a check fails; both of one 64-bit word are one read of it
(R433). -/
def State.lodRead (s : State) (u e : Nat) : Option (Nat × Nat) × State :=
  let (bad0, t) := s.lodCheckAt u e
  let (bad1, t) := if e % 2 = 0 then (false, t) else t.lodCheckAt u (e + 1)
  (if bad0 || bad1 then none else some (s.lodEntry u e, s.lodEntry u (e + 1)), t)

/-- Requests, each with its first entry, read in order; none where any check fails. -/
def State.lodReadAll (s : State) : List (Nat × Nat) → Option (List Nat) × State
  | [] => (some [], s)
  | (u, e) :: t =>
    let (v, s) := s.lodRead u e
    let (r, s) := State.lodReadAll s t
    ((v.bind (fun x => r.map (fun l => x.1 :: x.2 :: l))), s)

/-! Coordinates and interpolation (R299 to R303). -/

/-- The grid index and fraction of a coordinate (R299). -/
def lodCoord (x : Word) (org sh nm : Nat) : Nat × Nat :=
  let p := (clampI 0 ((nm * 2 ^ sh : Nat) : Int) (x.toInt - sext 32 org)).toNat
  let i := p / 2 ^ sh
  let f := (p - i * 2 ^ sh) * 65536 / 2 ^ sh
  if i = nm then (nm - 1, 65536) else (i, f)

/-- The weight of corner k of a cell (R301). -/
def lodWeight (fs : List Nat) (k : Nat) : Nat :=
  ((List.range fs.length).zip fs).foldl (fun w p => w * (if bit p.1 k then p.2 else 65536 - p.2)) 1

/-- Integer corners combined, rounded once, half up (R301). -/
def lodInterpI (m : Nat) (fs vs : List Nat) : Word :=
  let sum := ((List.range vs.length).zip vs).foldl (fun (t : Int) p => t + lodWeight fs p.1 * sext 32 p.2) 0
  BitVec.ofInt 32 ((sum + (2 ^ (16 * m - 1) : Nat)) / ((2 ^ (16 * m) : Nat) : Int))

/-- A finite binary32 in units of 2^−149; none for a NaN or an infinity. -/
def lodFix (v : Nat) : Option Int :=
  match fDecode (BitVec.ofNat 32 v) with
  | .fin neg m e => some ((if neg then -1 else 1) * (m : Int) * ((2 ^ (e + 149).toNat : Nat) : Int))
  | _ => none

/-- Binary32 corners combined exactly, rounded once (R302). [DEDUCED, log entry 38] -/
def lodInterpF (m : Nat) (fs vs : List Nat) : Word :=
  let sum := ((List.range vs.length).zip vs).foldl (fun (t : Option Int) p =>
    t.bind (fun a => (lodFix p.2).map (fun b => a + lodWeight fs p.1 * b))) (some 0)
  match sum with
  | none => fNaN
  | some z => fOfInt z (-149 - 16 * (m : Int)) false

/-- The corner entries of a cell, in the order of their corner numbers (R299, R300). -/
def lodCorners (base : Nat) (is nms : List Nat) : List Nat :=
  let i (a : Nat) : Nat := is.getD a 0
  let n (a : Nat) : Nat := nms.getD a 0 + 1
  (List.range (2 ^ is.length)).map (fun k =>
    let j (a : Nat) : Nat := i a + (if bit a k then 1 else 0)
    match is.length with
    | 1 => base + j 0
    | 2 => base + j 0 + n 0 * j 1
    | _ => base + j 0 + n 0 * (j 1 + n 1 * j 2))

/-- What a Lode instruction comes to, a word or an abort code, and how many of its requests it has sent. -/
abbrev LodRes := Except Nat Word × Nat

/-- LOOK, INTERP2 or INTERP3, of dimension m, on descriptor d with its coordinates and first ec (R298 to R303): a mismatch sends no
request, any other all of them (R300). Requests that are not served read nothing, and the instruction then gives 0 (R101).
[DESIGN CHOICE, log entry 13] -/
def State.lodMap (s : State) (d m : Nat) (xs : List Word) (t : Nat) (lost : Nat → Bool) : LodRes × State :=
  if !s.alive 13 || s.fld F.LOD_W0_KIND d != m then ((.error 0x0B, 0), s)
  else
    let nms := lodNm m (s.regN .LOD_W7 d)
    let shs := [s.fld F.LOD_W1_SH0 d, s.fld F.LOD_W2_SH1 d, s.fld F.LOD_W3_SH2 d]
    let orgs := [s.regN .LOD_W4 d, s.regN .LOD_W5 d, s.regN .LOD_W6 d]
    let cs := (List.range m).map (fun a => lodCoord (xs.getD a 0) (orgs.getD a 0) (shs.getD a 0) (nms.getD a 0))
    let fs := cs.map (·.2)
    let us := lodeRequests m 0 t
    let es := lodCorners (s.lodBase d t) (cs.map (·.1)) nms
    let asks := (List.range us.length).map (fun j => (us.getD j 0, es.getD (2 * j) 0))
    match s.lodReadAll (asks.filter (fun x => !lost x.1)) with
    | (none, s) => ((if us.any lost then .ok 0 else .error 8, us.length), s)
    | (some vs, s) =>
      if us.any lost then ((.ok 0, us.length), s)
      else if m = 1 ∧ s.flag F.LOD_W0_STEP d = true then
        ((.ok (BitVec.ofNat 32 (if fs.getD 0 0 = 65536 then vs.getD 1 0 else vs.getD 0 0)), us.length), s)
      else if s.flag F.LOD_W0_VFMT d then ((.ok (lodInterpF m fs vs), us.length), s)
      else ((.ok (lodInterpI m fs vs), us.length), s)

/-- The nodes of a walk from offset o, with the levels left and the number and ec of the next request: a request every 4 ec
(R100, R304, R305). From a request that is not served on the walk reads nothing, sends its requests, and gives 0 (R101).
[DESIGN CHOICE, log entry 13] -/
def State.lodNodes (s : State) (base size n : Nat) (flt : Bool) (xs : List Word) (lost : Nat → Bool) :
    Nat → Nat → Nat → Nat → LodRes × State
  | 0, o, k, u =>
    if lost u then ((.ok 0, k + 1), s)
    else match s.lodRead u (base + o) with
    | (some (v, _), s) => ((.ok (BitVec.ofNat 32 v), k + 1), s)
    | (none, s) => ((.error 8, k + 1), s)
  | lvl + 1, o, k, u =>
    if lost u then ((.ok 0, k + lvl + 2), s)
    else match s.lodRead u (base + o) with
    | (some (th, c), s) =>
      let axis := bits 2 0 c
      let child := bits 31 8 c
      let x := xs.getD axis 0
      let y := BitVec.ofNat 32 th
      let greater := if flt then fLt y x else decide (y.toInt < x.toInt)
      let o' := if bit 3 c then child else if greater then child + 2 else child
      if n ≤ axis then ((.error 0x0B, k + 1), s)
      else if o' % 2 = 1 ∨ size ≤ o' + 1 then ((.error 0x0B, k + 1), s)
      else State.lodNodes s base size n flt xs lost lvl o' (k + 1) (u + 4)
    | (none, s) => ((.error 8, k + 1), s)

/-- WALK with n coordinates and a declared depth (R298, R305). -/
def State.lodWalk (s : State) (d n depth : Nat) (xs : List Word) (t : Nat) (lost : Nat → Bool) : LodRes × State :=
  if !s.alive 13 || s.fld F.LOD_W0_KIND d != 4 || s.fld F.LOD_W0_DIM d + 1 != n || s.fld F.LOD_W0_DEPTH d != depth then
    ((.error 0x0B, 0), s)
  else s.lodNodes (s.lodBase d t) (s.fld F.LOD_W3_SIZE d) n (s.flag F.LOD_W0_VFMT d) xs lost depth 0 0 (t + 2)

/-! Ownership (R307). -/

/-- Whether the plan owns an entry: it lies in the current half of a table it names, or in the other while a flip is pending. -/
def State.lodEntryOwned (s : State) (e : Nat) : Bool :=
  s.inRun && s.bankOn && (List.range 4096).any (fun d =>
    let sz := s.fld F.LOD_W3_SIZE d
    let b0 := s.fld F.LOD_W1_BASE0 d
    let b1 := s.fld F.LOD_W2_BASE1 d
    let in0 := b0 ≤ e && e < b0 + sz
    let in1 := b1 ≤ e && e < b1 + sz
    let h := s.fld F.LOD_W0_HALF d
    let fl := s.flag F.LOD_W0_FLIP d
    s.fld F.LOD_W0_KIND d != 0 && ((in0 && (h == 0 || fl)) || (in1 && (h == 1 || fl))) && s.planOwns 7 d)

/-- Whether a supervisor write of a descriptor word is refused: the plan owns it, but for a FLIP that changes nothing else
(R307). -/
def State.lodRefused (s : State) (d i v : Nat) : Bool :=
  s.planOwns 7 d && !(i == 0 && bit 17 v && (v &&& 0xFF1F) == (s.regN .LOD_W0 d &&& 0xFF1F))

end Sys2Proof.Machine
end

