-- ==== Sys2Proof/Machine/Sched.lean ====
section
/-! DEFINITION. The schedule controller: starts, switches, their withdrawal, and the frames of the active bank (R133 to R139,
R142). -/

namespace Sys2Proof.Machine

/-- VALID of a bank (R142). -/
def State.bankValid (s : State) (b : Nat) : Bool := if b = 0 then s.flag F.SCH_BANKA_VALID 0 else s.flag F.SCH_BANKB_VALID 0
/-- RACK of a bank (R142). -/
def State.bankRack (s : State) (b : Nat) : Bool := if b = 0 then s.flag F.SCH_BANKA_RACK 0 else s.flag F.SCH_BANKB_RACK 0
/-- The squares that belong to a bank's plan (R143). -/
def State.bankMask (s : State) (b : Nat) : Nat := if b = 0 then s.sched.mask.1 else s.sched.mask.2

/-- Whether a start or switch is pending (R142). -/
def State.schPending (s : State) : Bool := s.flag F.SCH_STATUS_PENDING 0

/-- The first condition of R133 other than the origin that refuses a bank, as its REFCAUSE; 0 for none. [DEDUCED, log entry 41] -/
def State.schRefuses (s : State) (b : Nat) : Nat :=
  if !s.bankValid b then 1
  else if s.bankRack b && !s.flag F.QTZ_STATUS_LOCK 0 then 2
  else if (List.range 64).any (fun q => s.sqEpoch q != s.planEpoch b q) then 3
  else 0

/-- A refusal (R133, R134). -/
def State.schRefuse (s : State) (cause : Nat) : State :=
  (s.setFld F.SCH_STATUS_REFUSED 0 1).setFld F.SCH_STATUS_REFCAUSE 0 cause

/-- What is pending given, and PENDING with it. -/
def State.schPend (s : State) (p : Pending) : State :=
  { s with sched := { s.sched with pend := p } }.setFld F.SCH_STATUS_PENDING 0 (match p with | .none => 0 | _ => 1)

/-- The length of a frame of the active bank in qt (R112). -/
def State.frameQt (s : State) : Nat := s.frameLen s.bank * 64

/-- The frames begun since the active bank became active (R142). -/
def State.frame (s : State) : Nat := s.pair .SCH_FRAMEL .SCH_FRAMEH 0

/-- The boundary of a switch: the first B for which B − 4 lies after the ec of the request (R134). -/
def State.switchAt (s : State) (asked : Nat) : Nat :=
  s.sched.origin + ((asked + 4 - s.sched.origin) / s.frameQt + 1) * s.frameQt

/-- A pending start or switch is withdrawn (R137); the engines whose clocks a wake lead of a withdrawn start opened start no task, and
close again (R117). -/
def State.schWithdraw (s : State) : State :=
  if s.schPending then
    let s := match s.sched.pend with
      | .start _ _ => s.sleepEngines ((s.eng.map (fun (p : Nat × Eng) => p.1)).filter (fun e => (s.engine e).woken))
      | _ => s
    (s.schPend .none).setFld F.SCH_STATUS_CANCELLED 0 1
  else s

/-- A discarded write of SCH (R135, R137). -/
def State.schWerr (s : State) : State := s.setFld F.SCH_STATUS_WERR 0 1

/-- CANCEL (R137): it acts before ec origin − 4 or B − 4. -/
def State.schCancel (s : State) : State :=
  match s.sched.pend with
  | .start _ o => if s.now + 4 < o then s.schWithdraw else s.schWerr
  | .switch _ asked => if s.now + 4 < s.switchAt asked then s.schWithdraw else s.schWerr
  | _ => s.schWerr

/-- START of a bank (R133). -/
def State.schStart (s : State) (b : Nat) : State :=
  let o := s.pair .SCH_ORIGINL .SCH_ORIGINH 0
  let late := o < s.now + 64
  let c := s.schRefuses b
  if c ≠ 0 then (if late then s.setFld F.SCH_STATUS_LATE 0 1 else s).schRefuse c
  else if late then (s.setFld F.SCH_STATUS_LATE 0 1).schRefuse 4
  else s.schPend (.start b o)

/-- A write of SCH.CTL (R133 to R137). -/
def State.schCtl (s : State) (v : Nat) : State :=
  if !s.alive 4 then s
  else if bit 3 v then s.schCancel
  else if s.schPending || (bit 0 v && s.mode != 5) || (bit 1 v && !s.inRun) then s.schWerr
  else
    let s := s.setFld F.SCH_CTL_SWBANK 0 (bits 2 2 v)
    let b := bits 2 2 v
    if bit 0 v then s.schStart b
    else if bit 1 v then s.schPend (.switch b s.now)
    else s

/-- A write of ORIGINL or ORIGINH (R135). -/
def State.schOrigin (s : State) (high : Bool) (v : Nat) : State :=
  if s.mode != 5 || s.schPending then s.schWerr else s.setRegN (if high then .SCH_ORIGINH else .SCH_ORIGINL) 0 v

/-- Ec B − 4 of a requested switch: the checks, and the commitment or refusal (R134). [DEDUCED, log entry 39] -/
def State.switchCheck (s : State) : State :=
  match s.sched.pend with
  | .switch b asked =>
    let t := s.switchAt asked
    let s := s.reach (t - 4)
    if !s.inRun || !s.bankOn then s
    else if b = s.bank then (s.schPend .none).schRefuse 1
    else
      let c := s.schRefuses b
      if c ≠ 0 then (s.schPend .none).schRefuse c else s.schPend (.committed b t)
  | _ => s

/-- A bank becomes active at an instant (R13, R122, R134, R138, R209). -/
def State.schActivate (s : State) (b t : Nat) : State :=
  let s := (s.schPend .none).reach t
  let s := (s.setFld F.SCH_STATUS_ACTIVE 0 b).setFld F.SCH_STATUS_RUNNING 0 1
  let s := ((s.setPair .SCH_FRAMEL .SCH_FRAMEH 0 0).clearInputs b).clearRx b
  { s with sched := { s.sched with origin := t }, eng := s.eng.map (fun p => (p.1, { p.2 with ran := false, before := none })) }

/-- The plan stops: no bank is active, and a pending switch is withdrawn (R137, R139). -/
def State.schStop (s : State) : State := (s.schWithdraw.setFld F.SCH_STATUS_RUNNING 0 0).stopTasks

/-- The instant of the next frame boundary of the active bank. -/
def State.nextBoundary (s : State) : Nat := s.sched.origin + (s.frame + 1) * s.frameQt

/-- A frame boundary at tick t of a bank that stays in RUN: a committed switch takes effect, or the next frame begins (R134); half
flips take effect (R306); the boundary sends its event, and a switch its own (R314). [DESIGN CHOICE, log entry 5] -/
def State.schBoundary (s : State) (t : Nat) : State :=
  let s := s.reach t
  let s := match s.sched.pend with
    | .committed b _ => (s.schActivate b t).emit 0x9E1 t 4 none
    | _ => s.setPair .SCH_FRAMEL .SCH_FRAMEH 0 (s.frame + 1)
  (s.lodFlipAll t).emit 0x9E0 t 4 none

end Sys2Proof.Machine
end

