-- ==== Sys2Proof/Machine/Loader.lean ====
section
/-! DEFINITION. The board-image loader (R143 to R158) and REFRESH, which shares its checks and writes (R415, R416). -/

namespace Sys2Proof.Machine

/-! Reading an image (R143 to R146, R154). -/

/-- A read of n bytes of an image, at most 32 within one flash word, with supervisor authority: none where it fails or comes back
INCOMPLETE (R154, R446, R452, R462). -/
def State.imgPiece (s : State) (a n : Nat) : Option (List Byte) × State :=
  if a < 0x10200000 then
    if !s.alive 3 then (none, s)
    else match s.flashRead .loader a n with
      | (.ok v false, s) => (some (leBytes n v), s)
      | (_, s) => (none, s)
  else if isSram a && !s.underWipe a then
    let (bad, v, s) := s.portRead a n 4
    (if bad then none else some (leBytes n v), s)
  else (none, s)

/-- n bytes of an image in k pieces of up to 32 bytes, each within one flash word. -/
def State.imgPieces (s : State) (a n : Nat) : Nat → Option (List Byte) × State
  | 0 => (some [], s)
  | k + 1 =>
    match s.imgPiece a (min 32 n) with
    | (some l, s) =>
      match s.imgPieces (a + 32) (n - 32) k with
      | (some t, s) => (some (l ++ t), s)
      | (none, s) => (none, s)
    | (none, s) => (none, s)

/-- n bytes of an image from an address that is a multiple of 32. -/
def State.imgBytes (s : State) (a n : Nat) : Option (List Byte) × State := s.imgPieces a n ((n + 31) / 32)

/-- A little-endian field of n bytes at an offset. -/
def fieldAt (l : List Byte) (off n : Nat) : Nat := ofLeBytes ((l.drop off).take n)

/-- An entry of the section table (R145). -/
structure Sect where
  type   : Nat
  square : Nat
  engine : Nat
  flags  : Nat
  dest   : Nat
  offset : Nat
  len    : Nat
  digest : Nat
  deriving DecidableEq, Repr

/-- The section-table entries of a header and section table. -/
def sectsOf (l : List Byte) : List Sect :=
  (List.range (fieldAt l 0x14 2)).map (fun i =>
    let o := 0x100 + 64 * i
    ⟨fieldAt l o 1, fieldAt l (o + 1) 1, fieldAt l (o + 2) 1, fieldAt l (o + 3) 1, fieldAt l (o + 4) 4, fieldAt l (o + 8) 4,
      fieldAt l (o + 12) 4, fieldAt l (o + 16) 48⟩)

/-- Whether a header meets R143. -/
def headerOk (l : List Byte) : Bool :=
  fieldAt l 0 4 == 0x4942594B && fieldAt l 4 2 == 1 && fieldAt l 6 2 == 0x100 && fieldAt l 8 4 % 32 == 0 &&
    fieldAt l 0x12 2 < 2 && 1 ≤ fieldAt l 0x14 2 && fieldAt l 0x14 2 ≤ 8192 && fieldAt l 0x16 1 < 4 && fieldAt l 0x17 1 == 0 &&
    fieldAt l 0x20 224 == 0

/-- Whether a section-table entry meets R145 and R147. -/
def Sect.ok (x : Sect) : Bool :=
  let eng := x.engine < 8
  let whole := x.engine == 0xFF
  let fits (n : Nat) : Bool := x.dest % 8 == 0 && x.len % 8 == 0 && x.dest + x.len ≤ n
  x.square < 64 && 1 ≤ x.len &&
    match x.type with
    | 1 => eng && x.flags < 2 && fits 0x4000
    | 2 => eng && x.flags == 0 && fits 0x8000
    | 3 => whole && x.flags == 0 && fits 0x40000
    | 4 => whole && x.flags == 0 && x.dest == 0 && fits 0x8000
    | 5 => eng && x.flags == 0 && fits 0x800
    | 6 => eng && x.dest == 0 && x.len == 128
    | 7 => eng && x.flags == 0 && x.dest == 0 && 32 ≤ x.len && x.len ≤ 288 && x.len % 4 == 0
    | 8 => whole && x.square == 0 && x.flags < 2 && x.dest < 4096
    | _ => false

/-- Whether two sections may not stand in one image (R148). -/
def Sect.clash (x y : Sect) : Bool :=
  x.type == y.type && x.square == y.square && x.engine == y.engine &&
    match x.type with
    | 1 => x.flags != y.flags || (x.dest < y.dest + y.len && y.dest < x.dest + x.len)
    | 2 | 3 | 5 => x.dest < y.dest + y.len && y.dest < x.dest + x.len
    | 8 => x.dest == y.dest
    | _ => true

/-- The first entry of a section table that breaks R145 to R148; the number of entries where the table or the signature itself
does not fit (R146). -/
def badSect (size : Nat) (l : List Sect) : Option Nat :=
  let first := (0x100 + 64 * l.length + 96 + 31) / 32 * 32
  (List.range l.length).find? (fun i =>
    match l[i]? with
    | none => false
    | some x =>
      let lo := match i with
        | 0 => first
        | j + 1 => match l[j]? with | some y => y.offset + y.len | none => first
      !x.ok || x.offset % 32 != 0 || x.offset < lo || (i == 0 && x.offset != first) || size < x.offset + x.len || (l.take i).any (fun y => x.clash y))

/-! Footprints (R155). -/

/-- Granule g of part p of the footprints: instruction memory (0), data memory (1) of a logical engine, shared memory of a square
(2), the Lode (3). -/
def granuleId (p unit g : Nat) : Nat :=
  match p with
  | 0 => unit * 48 + g
  | 1 => unit * 48 + 16 + g
  | 2 => 24576 + unit * 256 + g
  | _ => 40960 + g

/-- Whether a bank's footprint holds a granule. -/
def State.footHas (s : State) (b g : Nat) : Bool := Tab.look (fun _ => false) s.sched.foot (2 * g + b)
/-- Whether a bank's footprint holds a descriptor. -/
def State.footHasD (s : State) (b d : Nat) : Bool := Tab.look (fun _ => false) s.sched.footD (2 * d + b)
/-- A granule added to a bank's footprint. -/
def State.footAdd (s : State) (b g : Nat) : State :=
  { s with sched := { s.sched with foot := Tab.put (fun _ => false) s.sched.foot (2 * g + b) true } }
/-- A descriptor added to a bank's footprint. -/
def State.footAddD (s : State) (b d : Nat) : State :=
  { s with sched := { s.sched with footD := Tab.put (fun _ => false) s.sched.footD (2 * d + b) true } }

/-- Where a granule lies; none for an engine without a physical engine. -/
def State.granuleAddr (s : State) (g : Nat) : Option Nat :=
  if g < 24576 then
    let e := g / 48
    let p := s.physOf e
    if 9 ≤ p then none
    else if g % 48 < 16 then some (physBase (e / 8) p + 1024 * (g % 48))
    else some (physBase (e / 8) p + 0x4000 + 1024 * (g % 48 - 16))
  else if g < 40960 then some (sqBase ((g - 24576) / 256) + 0xC0000 + 1024 * ((g - 24576) % 256))
  else some (0x100000000 + 1024 * (g - 40960))

/-- The granules that a section writes (R155). -/
def Sect.granules (x : Sect) : List Nat :=
  let run := (List.range ((x.dest + x.len - 1) / 1024 + 1)).drop (x.dest / 1024)
  match x.type with
  | 1 => run.map (granuleId 0 (8 * x.square + x.engine))
  | 2 => run.map (granuleId 1 (8 * x.square + x.engine))
  | 3 => run.map (granuleId 2 x.square)
  | _ => []

/-- Step 2 of R151: granules of the target's footprint that the active bank's does not hold are poisoned, and the footprint is
cleared. No write reaches a memory under wipe, which poisons it, nor one without power (R430, R523). -/
def State.clearFoot (s : State) (b : Nat) : State :=
  let mine := (s.sched.foot.filter (fun p => p.1 % 2 == b)).map (fun p => p.1 / 2)
  let s := mine.foldl (fun s g =>
    if s.bankOn && s.footHas (1 - b) g then s
    else match s.granuleAddr g with
      | some a => if !s.alive (memDomain a) || s.underWipe a then s else repeatN 128 (fun k s => s.portPoison (a + 8 * k)) s
      | none => s) s
  { s with sched := { s.sched with foot := s.sched.foot.filter (fun p => p.1 % 2 != b), footD := s.sched.footD.filter (fun p => p.1 % 2 != b) } }

/-! Errors and acceptance (R150, R157, R158). -/

/-- Steps 3 and 4 of R151: the header, the section table, and the squares and engines that the image names; its header and section
table with its sections, or the error. [DEDUCED, log entry 49] -/
def State.loadHead (s : State) (src : Nat) : Except (Nat × Nat) (List Byte) × State :=
  match s.imgBytes src 0x100 with
  | (none, s) => (.error (2, 0), s)
  | (some h, s) =>
    if !headerOk h then (.error (1, 0), s)
    else
      let size := fieldAt h 8 4
      let n := fieldAt h 0x14 2
      if size < 0x100 + 64 * n + 96 then (.error (5, 0), s)
      else
        match s.imgBytes (src + 0x100) (64 * n) with
        | (none, s) => (.error (2, 0), s)
        | (some t, s) =>
          match badSect size (sectsOf (h ++ t)) with
          | some i => (.error (5, i), s)
          | none => (.ok (h ++ t), s)

/-- Whether the squares of an image are powered and out of SAFE HOLD (R151 step 4). -/
def State.maskOk (s : State) (mask : Nat) : Bool :=
  (List.range 64).all (fun q => !bit q mask || (s.alive (sqDom q) && !s.sqHold q))

/-- The first section of an image that names a square outside its mask, or code or data of an engine without a SERVING physical
engine, with the SECT that R158 reports. -/
def State.sectHomeless (s : State) (mask : Nat) (l : List Sect) : Option Nat :=
  match (List.range l.length).find? (fun i =>
    match l[i]? with
    | none => false
    | some x => (x.type != 8 && !bit x.square mask) || ((x.type == 1 || x.type == 2) && !s.serving (8 * x.square + x.engine))) with
  | some i => match l[i]? with
    | some x => if x.type ≠ 8 && !bit x.square mask then some 0 else some i
    | none => some 0
  | none => none

/-- The VALID bit of a bank given. -/
def State.setBankValid (s : State) (b : Nat) (v : Bool) : State :=
  if b = 0 then s.setFld F.SCH_BANKA_VALID 0 (b2n v) else s.setFld F.SCH_BANKB_VALID 0 (b2n v)

/-- The bank of a pending start or switch. -/
def State.pendBank (s : State) : Option Nat :=
  match s.sched.pend with
  | .start b _ => some b
  | .switch b _ => some b
  | .committed b _ => some b
  | .none => none

/-- Whether the mode allows a load (R150). [DEDUCED, log entry 49] -/
def State.loadMode (s : State) : Bool := s.mode == 4 || s.mode == 5 || s.inRun

/-- GO (R150, R151 steps 1 to 4). -/
def State.loadGo (s : State) (b : Nat) : State :=
  if !s.loadMode || s.flag F.SCH_LDSTAT_BUSY 0 || (s.bankOn && s.bank == b) || s.pendBank == some b then
    s.setFld F.SCH_LDSTAT_WERR 0 1
  else
    let src := s.pair .SCH_LDSRCL .SCH_LDSRCH 0
    let s := (s.setFld F.SCH_LDCTL_BANK 0 b).setBankValid b false
    let s := ((s.setFld F.SCH_LDSTAT_DONE 0 0).setFld F.SCH_LDSTAT_ERR 0 0).setFld F.SCH_LDSTAT_ERRCODE 0 0
    let s := ((s.setRegN .SCH_LDERR 0 0).setFld F.SCH_LDSTAT_BUSY 0 1).clearFoot b
    match s.loadHead src with
    | (.error (c, i), s) => s.loadFail c i 0
    | (.ok l, s) =>
      let mask := fieldAt l 0x18 8
      if !s.maskOk mask then s.loadFail 0xA 0 0
      else match s.sectHomeless mask (sectsOf l) with
        | some i => s.loadFail 0xA i 0
        | none =>
          { s with sched := { s.sched with load := some ⟨b, src, l,
              ((List.range 64).filter (fun q => bit q mask)).map (fun q => (q, s.sqEpoch q))⟩ } }

/-! Section checks (R103, R115, R116, R149, R308, R382). -/

/-- The number of the first item that a test refuses. -/
def firstBad (n : Nat) (bad : Nat → Bool) : Option Nat := (List.range n).find? bad

/-- The 64-bit entries of a section. -/
def entry64 (l : List Byte) (i : Nat) : Nat := fieldAt l (8 * i) 8

/-- A slot-table entry that R116 refuses. -/
def slotBad (x : Nat) : Bool :=
  slotValid x && (slotBudget x == 0 || (slotDup x && slotPartner x == slotEngine x) || (!slotDup x && slotPartner x != 0) ||
    (!slotEvg x && slotGate x != 0) || (slotEvg x && slotPsetup x) || bits 62 56 x != 0)

/-- The engines that an entry starts, within its square. -/
def slotUses (x : Nat) : List Nat := if slotDup x then [slotEngine x, slotPartner x] else [slotEngine x]

/-- The first entry of a SLOTS section that breaks R115 or R116, among those before the first with VALID = 0. -/
def slotsBad (l : List Byte) (n : Nat) : Option Nat :=
  let live := ((List.range n).takeWhile (fun i => slotValid (entry64 l i))).length
  firstBad live (fun i =>
    let x := entry64 l i
    slotBad x || (i != 0 && slotStart x < slotStart (entry64 l (i - 1))) ||
      (List.range i).any (fun j =>
        slotStart (entry64 l j) == slotStart x && (slotUses (entry64 l j)).any (fun e => (slotUses x).contains e)))

/-- Route r of a logical engine as an image gives it, 0 where it gives none (R103); none where its read fails (R154). -/
def State.imgRoute (s : State) (src : Nat) (sects : List Sect) (e r : Nat) : Option Nat × State :=
  match sects.find? (fun x => x.type == 5 && 8 * x.square + x.engine == e && x.dest ≤ 8 * r && 8 * r < x.dest + x.len) with
  | some x =>
    match s.imgPiece (src + x.offset + (8 * r - x.dest)) 8 with
    | (some l, s) => (some (fieldAt l 0 8), s)
    | (none, s) => (none, s)
  | none => (some 0, s)

/-- Whether R103 refuses an outbound entry that engine (sq, eng) holds, by itself. An inbound entry is accepted as it stands.
[DEDUCED, log entry 51] -/
def routeBad (sq v : Nat) : Bool :=
  let hops := bits 36 32 v
  16 < hops || bits 31 0 v / 4 ^ hops != 0 || pathAt sq (bits 31 0 v) hops != some (bits 42 37 v)

/-- Whether an entry is the inbound one that route r of an engine asks of its peer (R103). -/
def peerBad (sq eng r peer : Nat) : Bool :=
  !routeValid peer || !routeIn peer || bits 42 37 peer != sq || bits 45 43 peer != eng || bits 53 46 peer != r

/-- The first of some entries of a ROUTES section that R103 refuses; an error where the read of a peer's entry fails.
[DEDUCED, log entry 51] -/
def State.routesBad (s : State) (src : Nat) (sects : List Sect) (x : Sect) (l : List Byte) : List Nat → Except Unit (Option Nat) × State
  | [] => (.ok none, s)
  | i :: t =>
    let v := entry64 l i
    if !routeValid v || routeIn v then s.routesBad src sects x l t
    else if routeBad x.square v then (.ok (some i), s)
    else match s.imgRoute src sects (8 * bits 42 37 v + bits 45 43 v) (bits 53 46 v) with
      | (none, s) => (.error (), s)
      | (some p, s) => if peerBad x.square x.engine (x.dest / 8 + i) p then (.ok (some i), s) else s.routesBad src sects x l t

/-- The first capability of a CAPS section that R382 refuses. -/
def capsBad (flags : Nat) (l : List Byte) : Option Nat :=
  firstBad 8 (fun k =>
    let c : Cap := ⟨true, BitVec.ofNat 128 (fieldAt l (16 * k) 16)⟩
    bit k flags && (c.reserved || bits 120 98 c.val.toNat != 0))

/-- The first item of a BIND section that R149 refuses: ports, then task inputs. -/
def bindBad (l : List Byte) (len : Nat) : Option Nat :=
  firstBad (len / 4) (fun i =>
    let a := fieldAt l (4 * i) 1
    let b := fieldAt l (4 * i + 1) 1
    let c := fieldAt l (4 * i + 2) 2
    if i < 8 then (a != 0xFF && (64 ≤ a || 12 ≤ b)) || c != 0 else 8 ≤ a || b != 0 || 1024 ≤ c)

/-- The words of a LODE section's descriptor. -/
def descWords (l : List Byte) : List Nat := (List.range 8).map (fun i => fieldAt l (4 * i) 4)

/-- Whether R308 refuses a LODE section; reserved bits of its descriptor count as fields that the kind does not use (R297).
[DEDUCED, log entry 116] -/
def lodeBad (l : List Byte) (len : Nat) : Bool :=
  let w := descWords l
  let g (i : Nat) : Nat := w.getD i 0
  let size := bits 24 0 (g 3)
  len < 32 || len != 32 + 4 * size || !lodCheck w || bits 17 16 (g 0) != 0 || bits 7 5 (g 0) != 0 || bits 31 18 (g 0) != 0 ||
    bits 31 29 (g 1) != 0 || bits 31 29 (g 2) != 0 || bits 31 30 (g 3) != 0

/-- The granules of both halves of a LODE section's table. -/
def lodeGranules (l : List Byte) : List Nat :=
  let w := descWords l
  let b (i : Nat) : Nat := bits 23 0 (w.getD i 0)
  let size := bits 24 0 (w.getD 3 0)
  let run (lo : Nat) : List Nat := (List.range ((lo + size - 1) / 256 + 1)).drop (lo / 256)
  (run (b 1) ++ (run (b 2)).filter (fun g => !(run (b 1)).contains g)).map (granuleId 3 0)

/-! Writing a section (R127, R149, R152, R156, R308). -/

/-- Whole 64-bit words of a section written to memory. -/
def State.loadWords (s : State) (a : Nat) (l : List Byte) : State :=
  repeatN (l.length / 8) (fun i s => s.writeMask (a + 8 * i) 255 (fieldAt l (8 * i) 8) 4) s

/-- A section written into a bank whose stamp for a square will be `ep`. A flip pending on a descriptor stays pending, since none can
be withdrawn (R306). -/
def State.loadSect (s : State) (b ep : Nat) (x : Sect) (l : List Byte) : State :=
  let e := 8 * x.square + x.engine
  let base := sqBase x.square
  match x.type with
  | 1 =>
    let g := s.engine e
    let s := s.setEng e (if b = 0 then { g with trapA := bit 0 x.flags } else { g with trapB := bit 0 x.flags })
    s.loadWords (physBase x.square (s.physOf e) + x.dest) l
  | 2 => s.loadWords (physBase x.square (s.physOf e) + 0x4000 + x.dest) l
  | 3 => s.loadWords (base + 0xC0000 + x.dest) l
  | 4 => s.loadWords (base + 0xA0000 + b * 0x8000) l
  | 5 =>
    let a := base + 0xB0000 + b * 0x4000 + x.engine * 0x800 + x.dest
    repeatN (l.length / 8) (fun i s => s.poke (a + 8 * i) 8 (routeBits (a + 8 * i) (fieldAt l (8 * i) 8))) s
  | 6 =>
    let s := repeatN 8 (fun k s =>
      let c : Cap := ⟨bit k x.flags, BitVec.ofNat 128 (fieldAt l (16 * k) 16)⟩
      s.poke (capsAddr b e k) 16 (((c.withBits 98 1 1).withBits 99 6 x.square).withBits 105 16 ep).val.toNat) s
    s.setBytes (tagWordAddr b x.square + x.engine) [BitVec.ofNat 8 x.flags]
  | 7 => s.setBytes (bindAddr b e 0) l
  | _ =>
    let w := descWords l
    let g (i : Nat) : Nat := w.getD i 0
    let half (s : State) (lo : Nat) : State :=
      repeatN (l.length / 4 - 8) (fun i s => s.writeMem (lodAddr (lo + i)) 4 (fieldAt l (32 + 4 * i) 4) 4) s
    let s := half s (bits 23 0 (g 1))
    let s := if bit 0 x.flags && bits 23 0 (g 1) != bits 23 0 (g 2) then half s (bits 23 0 (g 2)) else s
    let flip := s.fld F.LOD_W0_FLIP x.dest
    (repeatN 8 (fun i s => s.setRegN (lodWord i) x.dest (g i)) s).setFld F.LOD_W0_FLIP x.dest flip

/-- The empty state of R152 in every plan part of a bank. [DEDUCED, log entry 50] -/
def State.emptyBank (s : State) (b : Nat) : State :=
  let part (a : Nat) : Bool :=
    let o := a % 0x100000
    sqSpace ≤ a && a < sqSpace + 0x4000000 &&
      ((0xA0000 + b * 0x8000 ≤ o && o < 0xA8000 + b * 0x8000) || (0xB0000 + b * 0x4000 ≤ o && o < 0xB4000 + b * 0x4000) ||
        (0xB8000 + b * 0x400 ≤ o && o < 0xB8400 + b * 0x400) || (0xB8800 + 8 * b ≤ o && o < 0xB8808 + 8 * b) ||
        (0xB9000 + b * 0x1000 ≤ o && o < 0xBA000 + b * 0x1000))
  let s := { s with
    mem := s.mem.filter (fun p => !part p.1)
    chk := s.chk.filter (fun p => !(part (8 * p.1)))
    eng := s.eng.map (fun p => (p.1, if b = 0 then { p.2 with trapA := true } else { p.2 with trapB := true })) }
  repeatN 64 (fun q s => s.setSquare q { s.square q with clear := setBits b 1 1 (s.square q).clear }) s

/-! Completion (R151 steps 5 to 9). -/

/-- What the destination checks of step 7 refuse of a section, as error code and ITEM (R151); an error where a read of the image fails. A
LODE section whose domain is unpowered is refused. [DESIGN CHOICE, log entry 134] -/
def State.sectBad (s : State) (src : Nat) (sects : List Sect) (x : Sect) (l : List Byte) : Except Unit (Option (Nat × Nat)) × State :=
  match x.type with
  | 4 => (.ok ((slotsBad l (x.len / 8)).map (fun j => (8, j))), s)
  | 5 =>
    match s.routesBad src sects x l (List.range (x.len / 8)) with
    | (.ok j, s) => (.ok (j.map (fun j => (9, j))), s)
    | (.error _, s) => (.error (), s)
  | 6 => (.ok ((capsBad x.flags l).map (fun j => (5, j))), s)
  | 7 => (.ok ((bindBad l x.len).map (fun j => (5, j))), s)
  | 8 => (.ok (if lodeBad l x.len || !s.alive 13 then some (0xD, 0) else none), s)
  | _ => (.ok none, s)

/-- The granules that a section writes (R155). -/
def Sect.writes (x : Sect) (l : List Byte) : List Nat := if x.type = 8 then lodeGranules l else x.granules

/-- Whether the active bank's footprint holds something that a section writes (R155). -/
def State.sectHeld (s : State) (x : Sect) (l : List Byte) : Bool :=
  s.bankOn && ((x.writes l).any (fun g => s.footHas s.bank g) || (x.type == 8 && s.footHasD s.bank x.dest))

/-- Step 7 for one section up to its write: its bytes where its digest and its checks pass, or the error; `share` passes over the check of
R155 for a REFRESH (R151, R416). -/
def State.sectCheck (s : State) (src i : Nat) (sects : List Sect) (share : Bool) (x : Sect) : Except (Nat × Nat × Nat) (List Byte) × State :=
  match s.imgBytes (src + x.offset) x.len with
  | (none, s) => (.error (2, 0, 0), s)
  | (some l, s) =>
    if Config.sha384 l ≠ x.digest then (.error (6, i, 0), s)
    else match s.sectBad src sects x l with
      | (.error _, s) => (.error (2, 0, 0), s)
      | (.ok (some (c, j)), s) => (.error (c, i, j), s)
      | (.ok none, s) => if !share && s.sectHeld x l then (.error (7, i, 0), s) else (.ok l, s)

/-- A section that passed its checks joins the footprint and is written (R151, R155). -/
def State.sectPlace (s : State) (b ep : Nat) (x : Sect) (l : List Byte) : State :=
  let s := (x.writes l).foldl (fun s g => s.footAdd b g) s
  (if x.type = 8 then s.footAddD b x.dest else s).loadSect b ep x l

/-- The stamp that a load gives a square's capabilities. -/
def stampOf (eps : List (Nat × Nat)) (x : Sect) : Nat := ((eps.find? (fun p => p.1 == x.square)).map (·.2)).getD 0

/-- Step 7 over sections with their places in the section table. -/
def State.loadAll (s : State) (b src : Nat) (eps : List (Nat × Nat)) (all : List Sect) : List (Sect × Nat) → Except (Nat × Nat × Nat) Unit × State
  | [] => (.ok (), s)
  | (x, i) :: t =>
    match s.sectCheck src i all false x with
    | (.error c, s) => (.error c, s)
    | (.ok l, s) => (s.sectPlace b (stampOf eps x) x l).loadAll b src eps all t

/-- Step 1 of R416 over sections with their places in the section table: their bytes, or the first error. -/
def State.checkAll (s : State) (src : Nat) (all : List Sect) : List (Sect × Nat) → Except (Nat × Nat × Nat) (List (Sect × List Byte)) × State
  | [] => (.ok [], s)
  | (x, i) :: t =>
    match s.sectCheck src i all true x with
    | (.error c, s) => (.error c, s)
    | (.ok l, s) =>
      match s.checkAll src all t with
      | (.error c, s) => (.error c, s)
      | (.ok r, s) => (.ok ((x, l) :: r), s)

/-- Whether a wipe is under way in the memory that a section goes to, so that its write waits (R430). [DESIGN CHOICE, log entry 134] -/
def State.sectWiped (s : State) (x : Sect) : Bool := s.underWipe (if x.type = 8 then 0x100000000 else sqBase x.square + 0xC0000)

/-- Whether a budget window leaves its frame (P2). -/
def slotLong (len x : Nat) : Bool := len * 64 < slotStart x * 64 + slotBudget x + 4

/-- How many ec a task keeps its engines after its budget: 4, and for a duplicated task those of its snapshot copy (P3, R402). -/
def State.slotTail (s : State) (sq x : Nat) : Nat := if slotDup x then max 4 (8 * min 8 (s.fld F.SQ_SNAP_WLEN sq) + 1) else 4

/-- The first entry of a square's slot table that breaks P2 or P3, also across the end of the frame (R140). -/
def State.slotsTight (s : State) (b sq len : Nat) : Option Nat :=
  let live := ((List.range 4096).takeWhile (fun i => slotValid (s.slot b sq i))).length
  firstBad live (fun i =>
    let x := s.slot b sq i
    slotLong len x ||
      (List.range live).any (fun j =>
        let y := s.slot b sq j
        j != i && (slotUses x).any (fun e => (slotUses y).contains e) &&
          (if slotStart x ≤ slotStart y then slotStart y * 64 < slotStart x * 64 + slotBudget x + s.slotTail sq x
           else (len + slotStart y) * 64 < slotStart x * 64 + slotBudget x + s.slotTail sq x)) ||
      (len + slotStart x) * 64 < slotStart x * 64 + slotBudget x + s.slotTail sq x)

/-- Step 8: the section and entry that break P2 or P3. -/
def State.loadTight (s : State) (b len : Nat) (sects : List Sect) : Option (Nat × Nat) :=
  (List.range sects.length).findSome? (fun i =>
    match sects[i]? with
    | some x => if x.type = 4 then (s.slotsTight b x.square len).map (fun j => (i, j)) else none
    | none => none)

/-- The signature of an image (R144, R151 step 5). -/
def State.imgSigned (s : State) (src : Nat) (l : List Byte) : Except Nat Unit × State :=
  match s.imgBytes (src + l.length) 96 with
  | (none, s) => (.error 2, s)
  | (some g, s) =>
    match s.flashKey (fieldAt l 0x16 1) with
    | none => (.error 3, s)
    | some (x, y) =>
      (if Config.ecdsaOk (x + y * 2 ^ 384) (Config.sha384 l) (fieldAt g 0 48) (fieldAt g 48 48) then .ok () else .error 3, s)

/-- Step 9 (R129, R142, R151). [DEDUCED, log entry 50] -/
def State.loadCommit (s : State) (b : Nat) (l : List Byte) (eps : List (Nat × Nat)) : State :=
  let gen := fieldAt l 0x0C 4
  let s := eps.foldl (fun s p =>
    let s := if b = 0 then s.setFld F.SQ_PLANEPOCH_EPOCHA p.1 (s.sqEpoch p.1) else s.setFld F.SQ_PLANEPOCH_EPOCHB p.1 (s.sqEpoch p.1)
    s.setSquare p.1 { s.square p.1 with gen := gen, lost := false, warm := false }) s
  let bankReg := fieldAt l 0x10 2 + 2 ^ 16 + fieldAt l 0x12 2 * 2 ^ 17
  let s := if b = 0 then (s.setRegN .SCH_BANKA 0 bankReg).setRegN .SCH_GENA 0 gen
    else (s.setRegN .SCH_BANKB 0 bankReg).setRegN .SCH_GENB 0 gen
  let mask := fieldAt l 0x18 8
  let m := s.sched.mask
  let s := { s with sched := { s.sched with load := none, mask := if b = 0 then (mask, m.2) else (m.1, mask) } }
  (s.setFld F.SCH_LDSTAT_BUSY 0 0).setFld F.SCH_LDSTAT_DONE 0 1

/-- Steps 5 to 9 of the load under way (R151 to R156); it waits while a memory that it writes is under wipe (R430). -/
def State.loadComplete (s : State) : State :=
  match s.sched.load with
  | none => s
  | some ld =>
    let l := ld.head
    let b := ld.bank
    if (sectsOf l).any (fun x => s.sectWiped x) then s
    else if ld.squares.any (fun p => s.sqEpoch p.1 != p.2) then s.loadFail 0xB 0 0
    else
      match s.imgSigned ld.src l with
      | (.error c, s) => s.loadFail c 0 0
      | (.ok _, s) =>
        if fieldAt l 0x0C 4 < s.minGen then s.loadFail 4 0 0
        else
          let s := s.emptyBank b
          match s.loadAll b ld.src ld.squares (sectsOf l) (sectsOf l).zipIdx with
          | (.error (c, i, j), s) => s.loadFail c i j
          | (.ok _, s) =>
            match s.loadTight b (fieldAt l 0x10 2 + 1) (sectsOf l) with
            | some (i, j) => s.loadFail 8 i j
            | none => s.loadCommit b l ld.squares

/-- REFRESH fails (R416). -/
def State.refreshFail (s : State) (c i j : Nat) : State := (s.loadFail c i j).rdcFail 3

/-- ABORT, or the modes of R150 left (R154): it stops a load, and a REFRESH, which reports as a load does (R416). [DEDUCED, log entry 49] -/
def State.loadStop (s : State) : State :=
  if s.sched.load.isSome then s.loadFail 0xC 0 0
  else match s.rdc with
    | some (.refresh _) => s.refreshFail 0xC 0 0
    | _ => s

/-- A write of SCH.LDCTL (R150, R157): ABORT acts before GO of the same write. [DESIGN CHOICE, log entry 134] -/
def State.loadCtl (s : State) (v : Nat) : State :=
  if !s.alive 4 then s
  else
    let s := if bit 2 v then s.loadStop else s
    if bit 0 v then s.loadGo (bits 1 1 v)
    else s.setFld F.SCH_LDCTL_BANK 0 (bits 1 1 v)

/-- A write of LDSRCL or LDSRCH (R157); bits [4:0] of LDSRCL are stored as 0. [DESIGN CHOICE, log entry 134] -/
def State.loadSrc (s : State) (high : Bool) (v : Nat) : State :=
  if s.flag F.SCH_LDSTAT_BUSY 0 then s.setFld F.SCH_LDSTAT_WERR 0 1
  else if high then s.setRegN .SCH_LDSRCH 0 (v % 256) else s.setRegN .SCH_LDSRCL 0 (v / 32 * 32)

/-! REFRESH (R415, R416). -/

/-- REFRESH is accepted or refused (R415). -/
def State.refreshGo (s : State) (sq : Nat) : State :=
  if !s.alive 4 then s
  else if s.flag F.RDC_STAT_CMDBUSY 0 then s.rdcErr 5
  else if !s.sqHold sq && !s.stale sq then s.rdcErr 4
  else if s.flag F.SCH_LDSTAT_BUSY 0 then s.rdcErr 5
  else if !s.alive (sqDom sq) then s.rdcErr 4
  else if s.inRun && (List.range 8).any (fun e => (s.engine (8 * sq + e)).running) then s.rdcErr 4
  else (s.rdcBegin (.refresh sq)).setFld F.SCH_LDSTAT_BUSY 0 1

/-- Step 2 of R416: logical engines take the lowest-numbered TESTED engines that are not FAILED, and a ninth becomes SPARE. -/
def State.refreshMap (s : State) (sq : Nat) : State :=
  let ok := (List.range 9).filter (fun n => bit n (s.regN .SQ_TESTED sq) && s.pstate sq n != 6)
  let map := (List.range 8).foldl (fun m e => m + (ok.getD e 0xF) * 16 ^ e) 0
  let s := s.setRegN .SQ_MAP sq map
  let s := (ok.take 8).foldl (fun s n => s.enterServing sq n) s
  match ok[8]? with
  | some n => (s.setPstate sq n 1).takeEpoch sq n
  | none => s

/-- The rejoin transfer completes (R416): every section of the square is verified before the square is mapped and written. Code and data of
a logical engine left without a physical engine go nowhere. It waits for a wipe as a load does. -/
def State.refreshDone (s : State) : State :=
  match s.rdc with
  | some (.refresh sq) =>
    let b := s.bank
    let src := s.pair .SCH_LDSRCL .SCH_LDSRCH 0
    if s.underWipe (sqBase sq + 0xC0000) then s else
    match s.loadHead src with
    | (.error (c, i), s) => s.refreshFail c i 0
    | (.ok l, s) =>
      match s.imgSigned src l with
      | (.error c, s) => s.refreshFail c 0 0
      | (.ok _, s) =>
        if fieldAt l 0x0C 4 < s.minGen || fieldAt l 0x0C 4 != s.bankGen b then s.refreshFail 4 0 0
        else
          let mine := (sectsOf l).zipIdx.filter (fun x => x.1.square == sq && x.1.type != 8)
          match s.checkAll src (sectsOf l) mine with
          | (.error (c, i, j), s) => s.refreshFail c i j
          | (.ok ls, s) =>
            let s := s.refreshMap sq
            let ep := s.sqEpoch sq
            let s := ls.foldl (fun s x =>
              if x.1.type < 3 ∧ 9 ≤ s.physOf (8 * sq + x.1.engine) then s else s.sectPlace b ep x.1 x.2) s
            let s := if b = 0 then s.setFld F.SQ_PLANEPOCH_EPOCHA sq (s.sqEpoch sq) else s.setFld F.SQ_PLANEPOCH_EPOCHB sq (s.sqEpoch sq)
            let s := s.setSquare sq { s.square sq with gen := fieldAt l 0x0C 4, lost := false, warm := false }
            let s := ((s.setFld F.SQ_SLOTSTAT_HOLD sq 0).setFld F.SCH_LDSTAT_BUSY 0 0).setFld F.SCH_LDSTAT_DONE 0 1
            s.rdcDone.refreshDegr
  | _ => s

end Sys2Proof.Machine
end

