-- ==== Sys2Proof/Machine/Pos.lean ====
section
/-! DEFINITION. Position interfaces (R268 to R284, R290 to R292): quadrature and Hall decoding, index, synchronous-serial frames,
speed and compare. -/

namespace Sys2Proof.Machine

/-- A position interface. -/
def State.pos (s : State) (p : Nat) : Pos := Tab.look (fun _ => Pos.init) s.poss p
/-- A position interface given a state. -/
def State.setPos (s : State) (p : Nat) (x : Pos) : State := { s with poss := Tab.put (fun _ => Pos.init) s.poss p x }

/-- RANGE (R274). -/
def State.posRange (s : State) (p : Nat) : Nat := s.regN .POS_RANGE p + 1

/-- An event of a position interface (R314). -/
def State.posEvent (s : State) (p j t : Nat) (cause : Option Lineage) : State := s.emit (0x780 + 8 * p + j) t 17 cause

/-- With SAFE a fault raises a safety event (R284). -/
def State.posSafe (s : State) (p : Nat) : State := if s.flag F.POS_CTL_SAFE p then s.raiseEv 17 12 p else s

/-- The place of (A, B) in the quadrature sequence 00, 10, 11, 01 (R271). -/
def quadPlace (a b : Bool) : Nat := match a, b with | false, false => 0 | true, false => 1 | true, true => 2 | false, true => 3

/-- The place of a Hall state in the sequence 1, 3, 2, 6, 4, 5; none for 0 and 7 (R271, R272). -/
def hallPlace (h : Nat) : Option Nat := [1, 3, 2, 6, 4, 5].findIdx? (fun x => x == h)

/-- What a change of lines is to the decoder: nothing, an illegal transition, or a step and whether it is backward. -/
inductive Step where
  | none
  | illegal
  | step (back : Bool)
  deriving DecidableEq, Repr

/-- The decoder's judgement of a change of (A, B, Z) or (U, V, W), levels in bits 0 to 2 (R271, R272). -/
def decodeLines (hall rev : Bool) (old new : Nat) : Step :=
  if hall then
    if old = new then .none
    else match hallPlace old, hallPlace new with
      | _, none => .illegal
      | none, some _ => .illegal
      | some i, some j => if (i + 1) % 6 = j then .step rev else if (j + 1) % 6 = i then .step (!rev) else .illegal
  else
    let i := quadPlace (bit 0 old) (bit 1 old)
    let j := quadPlace (bit 0 new) (bit 1 new)
    if i = j then .none
    else if (i + 1) % 4 = j then .step rev
    else if (j + 1) % 4 = i then .step (!rev)
    else .illegal

/-- A step of d at time t beside the position (R280, R281): the first since EN is the one that the count method counts from.
[DESIGN CHOICE, log entry 122] -/
def Pos.stepped (x : Pos) (t : Nat) (neg : Bool) (d : Int) : Pos :=
  { x with steps := x.steps + 1, last := some t, neg := neg, gap := t - x.last.getD t, inWin := x.inWin + 1,
           base := if x.steps = 0 then some t else x.base, net := if x.steps = 0 then 0 else x.net + d }

/-- A legal step of time t beside the position (R271, R273, R280). -/
def State.posStep (s : State) (p t : Nat) (back : Bool) : State :=
  let x := s.pos p
  let fast := match x.last with
    | some l => decide (s.fld F.POS_MINGAP_MINGAP p ≠ 0 ∧ t - l < s.fld F.POS_MINGAP_MINGAP p)
    | none => false
  let s := s.setPos p (x.stepped t back (if back then -1 else 1))
  let s := (s.setFld F.POS_STAT_DIR p (b2n back)).setRegN .POS_EDGET p (t % 2 ^ 32)
  if fast then
    (((s.setFld F.POS_STAT_FAST p 1).bump F.POS_ERRCNT_FASTCNT F.POS_ERRCNT_FASTSAT p).posEvent p 4 s.now none).posSafe p
  else s

/-- A word as ec t sees it, with what a write of an ec replaced: the write acts from the next ec (R283). -/
def heldWord (w : Option (Nat × Nat)) (t v : Nat) : Nat :=
  match w with
  | some (u, old) => if t ≤ u then old else v
  | none => v

/-- CMPVAL as the compare of ec now sees it (R283). -/
def State.cmpVal (s : State) (p : Nat) : Nat := heldWord (s.pos p).wrote s.now (s.regN .POS_CMPVAL p)

/-- CMPSTEP as the compare of ec now sees it (R283). -/
def State.cmpStep (s : State) (p : Nat) : Int := sext 32 (heldWord (s.pos p).wroteS s.now (s.regN .POS_CMPSTEP p))

/-- CMPVAL advances after a hit, unless a write of this ec replaces it (R282, R283). -/
def State.cmpAdvance (s : State) (p v : Nat) (k : Int) : State :=
  let step := s.cmpStep p
  if (match (s.pos p).wrote with | some (t, _) => decide (t = s.now) | none => false) then s
  else s.setRegN .POS_CMPVAL p (((v : Int) + k * step) % (s.posRange p : Int)).toNat

/-- n hits counted (R282). [DEDUCED, log entry 33] -/
def State.posHits (s : State) (p n : Nat) : State :=
  let c := s.fld F.POS_HITCNT_COUNT p
  if 0xFFFF < c + n then (s.setFld F.POS_HITCNT_COUNT p 0xFFFF).setFld F.POS_HITCNT_SAT p 1 else s.setFld F.POS_HITCNT_COUNT p (c + n)

/-- Compare after a step in quadrature or Hall mode (R282). -/
def State.posCompare (s : State) (p : Nat) : State :=
  let v := s.cmpVal p
  if !s.flag F.POS_CTL_CMPEN p || decide (s.posRange p ≤ v) || v != s.regN .POS_COUNT p then s
  else ((s.posEvent p 3 s.now none).posHits p 1).cmpAdvance p v 1

/-- What a step and an index make of the position in ec now (R274, R275, R282): the wrap event, the latch and the reset, the compare.
[DEDUCED, log entry 33] -/
def State.posMove (s : State) (p : Nat) (d : Option Bool) (index : Bool) : State :=
  let r := s.posRange p
  let pos := s.regN .POS_COUNT p
  let s := s.setPos p { s.pos p with moved := some ⟨s.now, d, index, s.reg .POS_COUNT p, s.reg .POS_IDXCNT p, s.reg .POS_CMPVAL p, s.reg .POS_HITCNT p⟩ }
  let s := match d with
    | none => s
    | some true => if pos = 0 then (s.setRegN .POS_COUNT p (r - 1)).posEvent p 2 s.now none else s.setRegN .POS_COUNT p (pos - 1)
    | some false => if r ≤ pos + 1 then (s.setRegN .POS_COUNT p 0).posEvent p 1 s.now none else s.setRegN .POS_COUNT p (pos + 1)
  let s := if index then
      let s := (s.setReg .POS_IDXCNT p (s.reg .POS_COUNT p)).posEvent p 0 s.now none
      if s.flag F.POS_CTL_IDXRST p then s.setRegN .POS_COUNT p 0 else s
    else s
  if d.isSome then s.posCompare p else s

/-- The levels that reach the decoder of those a change in ec now brings: a pair's level changes again no sooner than FILT + 1 qt after
it was last accepted (R270). -/
def State.posTaken (s : State) (p old new : Nat) : Nat :=
  let soon (k : Nat) : Bool :=
    let a := Tab.look (fun _ => 0) (s.pos p).accs k
    a != 0 && decide (s.now < a + s.fld F.POS_CTL_FILT p)
  (List.range 3).foldl (fun n k => n + b2n (if soon k then bit k old else bit k new) * 2 ^ k) 0

/-- New levels of A, B and Z, or U, V and W, are accepted in ec now (R270 to R275, R282, R283). [DEDUCED, log entry 33] -/
def State.posLines (s : State) (p new : Nat) : State :=
  if !s.alive 17 || !s.flag F.POS_CTL_EN p || decide (2 ≤ s.fld F.POS_CTL_MODE p) then s
  else
    let old := s.fld F.POS_STAT_LINES p
    let hall := s.fld F.POS_CTL_MODE p == 1
    let lines := s.posTaken p old new
    let s := (List.range 3).foldl (fun s k => if bit k lines == bit k old then s
      else s.setPos p { s.pos p with accs := Tab.put (fun _ => 0) (s.pos p).accs k (s.now + 1) }) s
    let t := s.now - s.fld F.POS_CTL_FILT p
    let d := decodeLines hall (s.flag F.POS_CTL_REV p) old lines
    let s := s.setFld F.POS_STAT_LINES p lines
    let s := match d with
      | .none => s
      | .illegal =>
        (((s.setFld F.POS_STAT_ILLEGAL p 1).bump F.POS_ERRCNT_ILLCNT F.POS_ERRCNT_ILLSAT p).posEvent p 4 s.now none).posSafe p
      | .step back => s.posStep p t back
    let ab := b2n (bit 0 lines) * 2 + b2n (bit 1 lines)
    let index := !hall && bit 2 lines && !bit 2 old && (!s.flag F.POS_CTL_IDXGATE p || ab == s.fld F.POS_CTL_IDXAB p)
    match d with
    | .step back => s.posMove p (some back) index
    | _ => if index then s.posMove p none true else s

/-! Synchronous serial (R276 to R279). -/

/-- PBITS, EBITS and DIV in use (R291). -/
def State.ssiCfg (s : State) (p : Nat) : Nat × Nat × Nat :=
  (min 32 (max 1 (s.fld F.POS_SSICFG_PBITS p)), min 8 (s.fld F.POS_SSICFG_EBITS p), min 1250 (max 40 (s.fld F.POS_SSITIM_DIV p)))

/-- A frame start at tick f: an overrun before the last frame's recovery, else the frame begins (R276, R277). -/
def State.ssiBegin (s : State) (p f : Nat) (cause : Option Lineage) : State :=
  let x := s.pos p
  let (pb, eb, div) := s.ssiCfg p
  if (match x.prevF with | some g => decide (f < g + (pb + eb + 1) * div + s.fld F.POS_SSITIM_RECOV p * 64) | none => false) then
    ((s.setFld F.POS_STAT_OVR p 1).bump F.POS_ERRCNT_SSICNT F.POS_ERRCNT_SSISAT p).posSafe p
  else s.setPos p { x with frames := x.frames ++ [(f, cause)], prevF := some f }

/-- The level of pair C's clock at tick t (R276): high, but low for DIV / 2 qt from each DIV of the last frame. -/
def State.ssiClock (s : State) (p t : Nat) : Bool :=
  match (s.pos p).prevF with
  | none => true
  | some f =>
    let (pb, eb, div) := s.ssiCfg p
    !(decide (f ≤ t) && decide (t < f + (pb + eb + 1) * div) && decide ((t - f) % div < div / 2))

/-- Whether an interface runs frames. -/
def State.ssiRuns (s : State) (p : Nat) : Bool := s.alive 17 && s.flag F.POS_CTL_EN p && s.fld F.POS_CTL_MODE p == 2

/-- The next timed frame start (R276). -/
def State.ssiTimed (s : State) (p : Nat) : State :=
  let per := s.regN .POS_SSIPER p
  if !s.ssiRuns p || per == 0 then s
  else
    let f := (max s.now ((s.pos p).timed + 1) + per - 1) / per * per
    ((s.reach f).setPos p { s.pos p with timed := f }).ssiBegin p f none

/-- An event that reaches the interface in ec t starts a frame in the next (R276, R320). -/
def State.ssiEvent (s : State) (p t : Nat) (cause : Lineage) : State :=
  if s.ssiRuns p && s.flag F.POS_CTL_SSIEV p then s.ssiBegin p (t + 1) (some cause) else s

/-- Gray code to binary. -/
def grayToBin (n v : Nat) : Nat := repeatN n (fun k x => x ^^^ (v >>> (k + 1))) v

/-- The shortest signed distance from a to b modulo r; two equally short ones leave the sign open (R279). [DESIGN CHOICE, log entry 34] -/
def shortest (a b r : Nat) (free : Bool) : Int :=
  let d := (b + r - a % r) % r
  if 2 * d = r then (if free then (d : Int) else -(d : Int))
  else if 2 * d < r then (d : Int) else (d : Int) - r

/-- Compare over the range that a frame's step covers (R282): one event, and every further multiple of CMPSTEP skipped. -/
def State.ssiCompare (s : State) (p old : Nat) (d : Int) (cause : Option Lineage) : State :=
  let r := s.posRange p
  let v := s.cmpVal p
  let len := d.natAbs
  let off := if 0 ≤ d then (v + r - old % r) % r else (old + r - v % r) % r
  if !s.flag F.POS_CTL_CMPEN p || decide (r ≤ v) || off == 0 || decide (len < off) then s
  else
    let step := (if 0 ≤ d then 1 else -1) * s.cmpStep p
    let more := if step = 0 then 0 else if 0 < step then (len - off) / step.natAbs else (off - 1) / step.natAbs
    let s := ((s.posEvent p 3 s.now cause).posHits p (1 + more)).cmpAdvance p v (1 + more)
    if more = 0 then s else s.setFld F.POS_STAT_SKIP p 1

/-- The oldest frame under way is complete (R278, R279, R281): its bits, first received most significant, and whether data read high at its start.
[DESIGN CHOICE, log entry 34] -/
def State.ssiDone (s : State) (p : Nat) (bs : BitVec 40) (high : Bool) : State :=
  match (s.pos p).frames with
  | [] => s
  | (f, cause) :: later =>
    let (pb, eb, div) := s.ssiCfg p
    let nb := pb + eb
    let s := s.reach (f + nb * div + s.fld F.POS_SSITIM_DSKEW p + 1)
    let s := s.setPos p { s.pos p with frames := later }
    let v := bs.toNat % 2 ^ nb
    let odd := (List.range nb).foldl (fun b k => b != bit k v) false
    if !s.ssiRuns p then s
    else if !high || (s.flag F.POS_CTL_PAR p && odd) then
      (((s.setFld F.POS_STAT_SSIERR p 1).bump F.POS_ERRCNT_SSICNT F.POS_ERRCNT_SSISAT p).posEvent p 4 s.now cause).posSafe p
    else
      let raw := v / 2 ^ eb
      let new := if s.flag F.POS_CTL_GRAY p then grayToBin pb raw else raw
      let r := s.posRange p
      let old := s.regN .POS_COUNT p
      let (fv, s) := s.takeFree
      let d := shortest old new r (fv % 2 == 1)
      let x := s.pos p
      let s := s.setPos p (x.stepped f (decide (d < 0)) d)
      let s := ((s.setRegN .POS_COUNT p new).setRegN .POS_EDGET p (f % 2 ^ 32)).setRegN .POS_SSIEXT p (v % 2 ^ eb)
      let s := if d = 0 then s else s.setFld F.POS_STAT_DIR p (b2n (decide (d < 0)))
      let s := if (old : Int) + d < 0 then s.posEvent p 2 s.now cause
        else if (r : Int) ≤ old + d then s.posEvent p 1 s.now cause else s
      s.ssiCompare p old d cause

/-! Speed (R280, R281). -/

/-- The binary32 nearest to num / den. -/
def fOfRatio (neg : Bool) (num den : Nat) : Word :=
  if num = 0 ∨ den = 0 then 0 else fRound neg (num * 2 ^ 128 / den) (-128) (num * 2 ^ 128 % den != 0)

/-- Ticks per second. -/
def qtHz : Nat := 1250000000

/-- The speed of a window that ends at tick tw, by the period method (R280). -/
def Pos.speedT (x : Pos) (tw : Nat) : Word :=
  match x.last with
  | none => 0
  | some t1 => if x.steps < 2 then 0 else fOfRatio x.neg qtHz (max x.gap (tw - t1))

/-- The speed by the count method; the period method where no step lies in the window (R280). [DESIGN CHOICE, log entry 122] -/
def Pos.speedM (x : Pos) (tw : Nat) : Word :=
  match x.base, x.last with
  | some t0, some t1 =>
    if x.inWin = 0 ∨ t1 ≤ t0 then x.speedT tw
    else if x.steps < 2 then 0 else fOfRatio (decide (x.net < 0)) (x.net.natAbs * qtHz) (t1 - t0)
  | _, _ => x.speedT tw

/-- The speed at the next multiple of SPWIN (R280, R281). -/
def State.posSpeed (s : State) (p : Nat) : State :=
  if !s.alive 17 || !s.flag F.POS_CTL_EN p then s
  else
    let x := s.pos p
    let win := max 1250 (s.fld F.POS_SPWIN_SPWIN p)
    let tw := (x.speed / win + 1) * win
    let s := s.reach tw
    let hi := s.fld F.POS_SPCFG_NHI p
    let lo := min hi (s.fld F.POS_SPCFG_NLO p)
    let m := if s.fld F.POS_CTL_MODE p = 2 then true
      else if s.flag F.POS_SPSTAT_METHOD p then decide (lo ≤ x.inWin) else decide (hi ≤ x.inWin)
    let v := if m then x.speedM tw else x.speedT tw
    let s := (s.setReg .POS_SPEED p v).setFld F.POS_SPSTAT_METHOD p (b2n m)
    let s := s.setPos p { x with speed := tw, inWin := 0, base := x.last, net := 0 }
    s.posEvent p 5 tw none

/-! Writes (R269, R279, R283). -/

/-- A write of COUNT in ec t: refused in synchronous-serial mode; the position stays in its range (R274, R279). What the decoder did in
that ec comes after it, so it is done again from the position written (R283). -/
def State.posCount (s : State) (p v t : Nat) : State :=
  if s.fld F.POS_CTL_MODE p = 2 then s.setFld F.POS_STAT_CFGERR p 1
  else
    let w := v % 2 ^ 32 % s.posRange p
    match (s.pos p).moved with
    | some m =>
      if m.ec ≠ t then s.setRegN .POS_COUNT p w
      else
        let s := [0, 1, 2, 3].foldl (fun s j => s.retract (0x780 + 8 * p + j) t) s
        let s := (s.setReg .POS_IDXCNT p m.idxcnt).setReg .POS_HITCNT p m.hitcnt
        let s := if ((s.pos p).wrote.map (·.1)) = some t then s else s.setReg .POS_CMPVAL p m.cmpval
        (s.setRegN .POS_COUNT p w).posMove p m.back m.index
    | none => s.setRegN .POS_COUNT p w

/-- A write of CTL in ec t (R269). -/
def State.posCtl (s : State) (p v t : Nat) : State :=
  let old := s.regN .POS_CTL p
  let mask := 0x3FC6186
  if bits 2 1 v = 3 then s.setFld F.POS_STAT_CFGERR p 1
  else
    let fixed := bit 0 old && decide (old &&& mask ≠ v &&& mask)
    let new := if fixed then (old &&& mask) + (v % 2 ^ 26 &&& (0x3FFFFFF - mask)) else v % 2 ^ 26
    let s := if fixed then s.setFld F.POS_STAT_CFGERR p 1 else s
    let s := s.setRegN .POS_CTL p new
    if bit 0 new && !bit 0 old then s.setPos p { Pos.init with speed := t, timed := t } else s

/-- A write of CMPVAL in ec t acts from the next ec (R283). -/
def State.posCmpval (s : State) (p v t : Nat) : State :=
  (s.setPos p { s.pos p with wrote := some (t, heldWord (s.pos p).wrote t (s.regN .POS_CMPVAL p)) }).setRegN .POS_CMPVAL p v

/-- A write of CMPSTEP in ec t acts from the next ec (R283). -/
def State.posCmpstep (s : State) (p v t : Nat) : State :=
  (s.setPos p { s.pos p with wroteS := some (t, heldWord (s.pos p).wroteS t (s.regN .POS_CMPSTEP p)) }).setRegN .POS_CMPSTEP p v

end Sys2Proof.Machine
end

