-- ==== Sys2Proof/Machine/Sdi.lean ====
section
/-! DEFINITION. Bitstream inputs (R260 to R267, R289): decimation, stuck streams and the fast-trip filter. The samples are operands:
bit 0 is the last one taken. -/

namespace Sys2Proof.Machine

/-- A bitstream input. -/
def State.sdi (s : State) (i : Nat) : Sdi := Tab.look (fun _ => Sdi.init) s.sdis i
/-- A bitstream input given a state. -/
def State.setSdi (s : State) (i : Nat) (x : Sdi) : State := { s with sdis := Tab.put (fun _ => Sdi.init) s.sdis i x }

/-- The divider of a clock output (R261, R289). -/
def State.sdiDiv (s : State) (k : Nat) : Nat := min 1250 (max 40 (s.fld F.SDI_CLK_DIV k))

/-- The moving sum of R samples, with zeros before the first (R263). -/
def boxcar (r : Nat) (l : List Int) : List Int :=
  (((l.zip (List.replicate r 0 ++ l)).foldl (fun (acc : Int × List Int) p =>
    let v := acc.1 + p.1 - p.2
    (v, v :: acc.2)) (0, [])).2).reverse

/-- The exact sinc^N response to samples, oldest first (R263). -/
def sincN (n r : Nat) (l : List Int) : Int := ((repeatN n (fun _ l => boxcar r l) l).getLast?).getD 0

/-- The last n samples as −1 and +1, oldest first; bit 0 is the last taken (R262). -/
def samplesOf (bs : BitVec 1024) (n : Nat) : List Int :=
  (List.range n).map (fun k => if bs.getLsbD (n - 1 - k) then (1 : Int) else -1)

/-- A result shifted with rounding half up and saturated, and whether it was (R264). -/
def sdiScale (y : Int) (sh : Int) : Int × Bool :=
  let v := if 0 ≤ sh then y * (2 ^ sh.toNat : Nat) else (y + (2 ^ ((-sh).toNat - 1) : Nat)) / ((2 ^ (-sh).toNat : Nat) : Int)
  let r := clampI (-2 ^ 31) (2 ^ 31 - 1) v
  (r, decide (r ≠ v))

/-- The level of clock output k at tick t (R261): high from each multiple of DIV for DIV / 2 qt. -/
def State.sdclk (s : State) (k t : Nat) : Bool :=
  s.alive 17 && s.flag F.SDI_CLK_CEN k && decide (t % s.sdiDiv k < s.sdiDiv k / 2)

/-- How many rising edges an input's clock had that count, up to tick t (R261). -/
def State.sdiEdges (s : State) (i t : Nat) : Nat :=
  let x := s.sdi i
  let div := s.sdiDiv (s.fld F.SDI_CTL_CLKSEL i)
  x.took + ((match x.till with | some u => min t u | none => t) / div - x.from_ / div)

/-- How many samples an input took since its enable and up to tick t (R262, R265). -/
def State.sdiTaken (s : State) (i t : Nat) : Nat := s.sdiEdges i (t - s.fld F.SDI_CTL_DSKEW i)

/-- Whether an input runs: enabled, with its domain powered. -/
def State.sdiRuns (s : State) (i : Nat) : Bool := s.alive 17 && s.flag F.SDI_CTL_EN i

/-- Whether an input still samples in ec t: its clock runs, or its last edge's sample was the last to come. -/
def State.sdiSamples (s : State) (i t : Nat) : Bool :=
  s.sdiRuns i && match (s.sdi i).till with | some u => decide (t ≤ u + s.fld F.SDI_CTL_DSKEW i + 1) | none => true

/-- The next decimation boundary, if the clock has that edge: none of the first N since the enable delivers a result (R264, R265). -/
def State.sdiBoundary (s : State) (i : Nat) (bs : BitVec 1024) : State :=
  if !s.sdiRuns i then s
  else
    let x := s.sdi i
    let r := max 15 (s.fld F.SDI_CTL_OSRM i) + 1
    let n := 3 + s.fld F.SDI_CTL_ORD i
    let span := s.sdiDiv (s.fld F.SDI_CTL_CLKSEL i) * r
    let e := (x.last / span + 1) * span
    if (match x.till with | some u => decide (u < e) | none => false) then s else
    let t := e + s.fld F.SDI_CTL_DSKEW i + 4
    let s := (s.reach t).setSdi i { x with count := x.count + 1, last := e }
    if x.count < n then s
    else
      let (v, sat) := sdiScale (sincN n r (samplesOf bs (n * r))) (sext 5 (s.fld F.SDI_CTL_SH i))
      let s := (s.setRegN .SDI_RESULT i (wrapTo 32 v)).setFld F.SDI_RSTAT_SEQ i (s.fld F.SDI_RSTAT_SEQ i + 1)
      let s := if sat then s.setFld F.SDI_STAT_SAT i 1 else s
      s.emit (0x680 + 4 * i) t 17 none

/-- The fewest samples after which STUCKN equal ones at a level can be a new run: one at the level of the last episode follows a
sample of the other (R266). -/
def Sdi.runFrom (x : Sdi) (v : Bool) : Nat :=
  match x.stuck with
  | some (w, n) => if v = w then n + 1 else n
  | none => 0

/-- The count of equal samples reaches STUCKN, at level v (R266). -/
def State.sdiStuck (s : State) (i : Nat) (v : Bool) : State :=
  let n := s.fld F.SDI_STUCK_STUCKN i
  let x := s.sdi i
  let all := s.sdiTaken i s.now
  if !s.sdiSamples i s.now || n == 0 || decide (all < x.runFrom v + n) then s
  else
    let s := s.setSdi i { x with stuck := some (v, all) }
    let s := (s.setFld F.SDI_STAT_STUCK i 1).bump F.SDI_COUNT_STKCNT F.SDI_COUNT_STKSAT i
    (s.emit (0x681 + 4 * i) s.now 17 none).raiseEv 17 12 i

/-- FLEN of the fast-trip filter (R289). -/
def State.ftLen (s : State) (i : Nat) : Nat := min 32 (max 4 (s.fld F.SDI_FTRIP_FLEN i))

/-- Whether the fast-trip condition holds for the last samples (R267). -/
def State.ftHolds (s : State) (i : Nat) (bs : BitVec 32) : Bool :=
  let n := (List.range (s.ftLen i)).countP (fun k => bs.getLsbD k)
  (s.flag F.SDI_FTRIP_FHIEN i && decide (s.fld F.SDI_FTRIP_FHI i ≤ n)) ||
    (s.flag F.SDI_FTRIP_FLOEN i && decide (n ≤ s.fld F.SDI_FTRIP_FLO i))

/-- The filter's output takes a level (R267). -/
def State.ftSet (s : State) (i : Nat) (lvl : Bool) : State :=
  (s.setFld F.SDI_STAT_FT i (b2n lvl)).fltLevel (192 + i) lvl s.now

/-- The fast-trip filter asserts (R267): not before it holds FLEN new samples. -/
def State.ftAssert (s : State) (i : Nat) (bs : BitVec 32) : State :=
  if !s.sdiSamples i s.now || !s.flag F.SDI_CTL_FTEN i || s.flag F.SDI_STAT_FT i || !s.ftHolds i bs ||
      decide (s.sdiTaken i (s.now - 1) < (s.sdi i).ftAt + s.ftLen i) then s
  else
    let s := (s.ftSet i true).bump F.SDI_COUNT_FTCNT F.SDI_COUNT_FTSAT i
    (s.emit (0x682 + 4 * i) s.now 17 none).fltTerminate (192 + i) s.now

/-- The fast-trip filter releases (R267). -/
def State.ftRelease (s : State) (i : Nat) (bs : BitVec 32) : State :=
  if !s.alive 17 || !s.flag F.SDI_STAT_FT i || s.ftHolds i bs then s else s.ftSet i false

/-- A write of CTL in ec t (R265): five fields stay while EN is 1. -/
def State.sdiCtl (s : State) (i v t : Nat) : State :=
  let old := s.regN .SDI_CTL i
  let mask := 0x7FF7FFFE
  let fixed := bit 0 old && decide (old &&& mask ≠ v &&& mask)
  let new := if fixed then (old &&& mask) + (v &&& 0x80001) else v % 2 ^ 31
  let s := if fixed then s.setFld F.SDI_STAT_CFGERR i 1 else s
  let s := s.setRegN .SDI_CTL i new
  let x := s.sdi i
  let cen := s.flag F.SDI_CLK_CEN (bits 13 10 new)
  let x := if bit 0 new && !bit 0 old then
      { x with from_ := t - bits 30 20 new, till := if cen then none else some (t - bits 30 20 new), took := 0, ftAt := 0, count := 0, last := t,
               stuck := none }
    else x
  let s := s.setSdi i x
  let s := if bit 19 new && !bit 19 old then s.setSdi i { x with ftAt := s.sdiTaken i t } else s
  if s.flag F.SDI_STAT_FT i && !(bit 0 new && bit 19 new) then s.ftSet i false else s

/-- A write of FTRIP (R267): nothing changes while FTEN is 1. -/
def State.sdiFtrip (s : State) (i v : Nat) : State :=
  if s.flag F.SDI_CTL_FTEN i && decide (v % 2 ^ 20 ≠ s.regN .SDI_FTRIP i) then s.setFld F.SDI_STAT_CFGERR i 1
  else s.setRegN .SDI_FTRIP i (v % 2 ^ 20)

/-- A write of CLK in ec t, discarded in RUN (R285): the inputs on that clock keep the samples of the edges it had (R261, R262). -/
def State.sdiClk (s : State) (k v t : Nat) : State :=
  if s.inRun then s.setFld F.SDI_STAT_CFGERR k 1
  else
    let was := s.flag F.SDI_CLK_CEN k
    let s := repeatN 64 (fun i s =>
      if s.fld F.SDI_CTL_CLKSEL i != k || !s.flag F.SDI_CTL_EN i then s
      else
        let x := s.sdi i
        if !bit 11 v then (if was then s.setSdi i { x with till := some t } else s)
        else s.setSdi i { x with took := s.sdiEdges i t, from_ := t, till := none, last := max x.last t }) s
    s.setRegN .SDI_CLK k (v % 2 ^ 12)

end Sys2Proof.Machine
end

