-- ==== Sys2Proof/Machine/Reset.lean ====
section
/-! DEFINITION. Resets and releases of blocks and power domains (R107, R142, R188, R208, R218, R252, R287, R309, R326, R353, R391,
R421, R438, R443, R475, R498, R500, R513, R545, R552). -/

namespace Sys2Proof.Machine

/-! Registers (R4, R578). -/

/-- The place in `Reg` of a register's key. -/
def keyReg (k : Nat) : Nat := k / 65536

/-- Registers whose keys pass a test take their reset values. -/
def State.dropKeys (s : State) (p : Nat → Bool) : State := { s with regs := s.regs.filter (fun x => !p x.1) }

/-- Every register of a block takes its reset value. -/
def State.dropBlock (s : State) (b : Nat) : State := s.dropKeys (fun k => keyBlock k == b)

/-- Whether a key is of a register. -/
def keyOf (r : Reg) (k : Nat) : Bool := keyReg k == r.ctorIdx

/-! Squares and tables. -/

/-- An engine's task, buffers and sample ports discarded (R107, R208). -/
def Eng.reset (g : Eng) : Eng :=
  { g with
    woken := false, running := false, role := .single, compared := true, local_ := [], shared := [], hold := [], rel := [],
    lode := [], overflow := false, old := [], latch := none, snapAt := none, ran := false, before := none, sp := [], spAt := [],
    spOld := [] }

/-- Whether a message's path touches a square: one that has passed it counts too. [DESIGN CHOICE, log entry 125] -/
def Msg.touches (m : Msg) (q : Nat) : Bool := (List.range (m.hops + 1)).any (fun j => pathAt (m.src / 8) m.path j == some q)

/-- The state that a physical engine keeps through a single-block reset of its square: one that an abandoned failover left in TEST or
LOADING becomes STALE, and no other state changes (R7, R407, R421). [DESIGN CHOICE, log entry 125] -/
def State.settleSquare (s : State) (q : Nat) : State :=
  if (s.square q).fo = .idle then s
  else repeatN 9 (fun n s =>
    if s.pstate q n = 3 ∨ (s.pstate q n = 2 ∧ (s.physEng q n).before = none) then s.setPstate q n 5 else s) s

/-- A reset of a square's task inputs, buffers, messages and receive registers, and of its registers but those that a test keeps (R107,
R142, R208). [DEDUCED, log entry 58] -/
def State.clearSquare (s : State) (q : Nat) (keep : Nat → Bool) : State :=
  let s := s.dropKeys (fun k => keyBlock k == 29 && keyInst k == q && !keep k)
  let input (a : Nat) : Bool := sqBase q + 0xBB000 ≤ a && a < sqBase q + 0xBB800
  let s := { s with
    eng := s.eng.map (fun (p : Nat × Eng) => if p.1 / 8 = q then (p.1, p.2.reset) else p)
    rx := s.rx.filter (fun p => p.1 % 131072 / 2048 != q)
    mem := s.mem.filter (fun p => !input p.1)
    tinAt := s.tinAt.filter (fun p => p.1 % 4096 / 64 != q)
    tinEc := s.tinEc.filter (fun p => p.1 % 4096 / 64 != q)
    msgs := s.msgs.filter (fun m => !m.touches q)
    wstores := s.wstores.filter (fun w => w.eng / 8 != q) }
  (((s.setSquare q { s.square q with fo := .idle, rotEng := 0 }).rotBegin q).refreshFoBusy).loadWatch

/-- A single-block reset of a square: MAP, PSTATE and TESTED are kept, which change only as the redundancy rules say (R7, R107, R421,
R552). [DEDUCED, log entry 58] -/
def State.rstSquare (s : State) (q : Nat) : State :=
  let s := (s.settleSquare q).clearSquare q (fun k => keyOf .SQ_MAP k || keyOf .SQ_PSTATE k || keyOf .SQ_TESTED k)
  { s with phys := s.phys.map (fun (p : Nat × Phys) => if p.1 / 9 = q then (p.1, { p.2 with epoch := 0, segments := 0 }) else p) }

/-- A reset of a square by its RANK domain; at the release it takes MAP and PSTATE from the repair log (R107, R421). -/
def State.downSquare (s : State) (q : Nat) : State :=
  let s := s.clearSquare q (fun _ => false)
  { s with phys := s.phys.filter (fun p => p.1 / 9 != q) }

/-- A reset of the Lode's descriptors and registers; footprints of both banks in the Lode go with a loss of its entries (R155,
R309). -/
def State.rstLode (s : State) (entries : Bool) : State :=
  let s := s.lodClear
  if entries then
    { s with sched := { s.sched with foot := s.sched.foot.filter (fun p => p.1 / 2 < 40960), footD := [] } }
  else s

/-! Analog tiles. -/

/-- Whether a key belongs to converter group g or to its slices. -/
def inGroup (g k : Nat) : Bool :=
  (keyBlock k == 20 && (if keyOf .CV_ROT k || keyOf .CV_ROTSTAT k then keyInst k == g else keyInst k / 8 == g)) ||
    (keyBlock k == 21 && keyInst k / 9 == g)

/-- A reset of a converter group (R218): nothing under way, no sequence number, the spare at slice 8, calibration to come. -/
def State.rstGroup (s : State) (g : Nat) : State :=
  let s := s.dropKeys (inGroup g)
  { s with
    convs := s.convs.filter (fun p => p.1 / 8 != g)
    rots := s.rots.filter (fun p => p.1 != g) }

/-- The trip output of a logical comparator as Flint sees it after a change of its tile or of its settings (R239). -/
def State.cmpSense (s : State) (n : Nat) : State :=
  let c := s.cmpPhys n
  let raw := s.flag F.CMP_STAT_RAW c && s.flag F.CMP_CTL_EN c
  let trip := raw && !((s.cmp c).blank.isSome && s.flag F.CMP_CTL_BTRIP c)
  s.fltLevel n (trip || !s.alive (cmpDom c)) s.now

/-- A reset of comparators 16g to 16g + 15 and reserve 192 + g, which it unsteers (R252, R552). -/
def State.rstCmp (s : State) (g : Nat) : State :=
  let mine (c : Nat) : Bool := c == 192 + g || (c / 16 == g && decide (c < 192))
  let s := s.dropKeys (fun k => keyBlock k == 22 && (if keyOf .CMP_STEER k then keyInst k == g else mine (keyInst k)))
  let s := { s with cmps := s.cmps.filter (fun p => !mine p.1) }
  repeatN 16 (fun i s => s.cmpSense (16 * g + i)) s

/-! Edge pairs, Flint, links and inputs. -/

/-- A reset of the edge pairs (R188): every ball stands in its safe state, and a pair whose nets are tripped is tripped still (R241). -/
def State.rstEp (s : State) : State :=
  let off := (s.eps.filter (fun p => p.2.driven)).filterMap (fun p => s.epLogical p.1)
  let s := off.foldl (fun s n => s.note (.safe n (128 * s.now))) s
  repeatN 192 (fun n s => s.fltPair n s.now) { s.dropBlock 23 with eps := [], window := none }

/-- A reset of Flint (R252): no net is tripped and nothing is routed; ACTIVE keeps showing the conditions of the sources. -/
def State.rstFlt (s : State) : State :=
  let act := s.regs.filterMap (fun p => if keyOf .FLT_SRCE p.1 && bit 7 p.2.toNat then some (p.1, BitVec.ofNat 32 128) else none)
  let s := s.dropBlock 4
  let s := act.foldl (fun s p => { s with regs := Tab.put regDefault s.regs p.1 p.2 }) { s with nets := [], fltWas := [] }
  repeatN 192 (fun n s => s.fltPair n s.now) s

/-- A reset of the driver links (R353). -/
def State.rstDlk (s : State) : State :=
  let s := { s.dropBlock 17 with dlks := [] }
  repeatN 64 (fun d s => s.dlkFlint d) s

/-- A reset of the bitstream inputs (R287). -/
def State.rstSdi (s : State) : State :=
  let s := { s.dropBlock 18 with sdis := [] }
  repeatN 64 (fun i s => s.fltLevel (192 + i) false s.now) s

/-- A reset of the position interfaces (R287). -/
def State.rstPos (s : State) : State := { s.dropBlock 19 with poss := [] }

/-- A reset of the event fabric (R326). -/
def State.rstFabric (s : State) : State := { s.dropBlock 3 with chanAct := [], flights := [], beaten := [] }

/-! The supervisor complex. -/

/-- A reset of the schedule controller (R142): both banks not VALID, nothing pending, no load. -/
def State.rstSch (s : State) : State := { s.dropBlock 1 with sched := .init }

/-- A reset of the redundancy controller: a command under way is abandoned; failovers continue (R421). -/
def State.rstRdc (s : State) : State := { s.dropBlock 5 with rdc := none, joins := [] }.refreshFoBusy

/-- A reset of MEM leaves the remap tables (R443). -/
def State.rstMem (s : State) : State :=
  { s.dropKeys (fun k => keyBlock k == 6 && !keyOf .MEM_RDATA k) with scrubs := [], laps := [] }.setFld F.MEM_STAT_WIPING 0 (b2n s.wipe.isSome)

/-- A reset of the supervisor cores (R391): each draws a new prediction key and is stopped until it is
started (R549, R551). -/
def State.rstSup (s : State) : State := repeatN 10 (fun k s => (s.setFld F.SUP_STAT_STATE k 3).setCore k { Sup.init with key := (s.core k).key + 1 }) (s.dropBlock 15)

/-- A reset of the DMA channels (R391). -/
def State.rstDma (s : State) : State := { s.dropBlock 16 with dma := [] }

/-! The host's blocks and the general ports (R498, R500). -/

/-- Where the payload of mailbox m, from its header on, and its staging area lie. -/
def mbxAddr (m : Nat) : Nat := 0x4000E0000 + 64 * m

/-- A reset of HIF: requests of this device that await an answer are dropped. [DEDUCED, log entry 58] -/
def State.rstHif (s : State) : State :=
  { s.dropKeys (fun k => keyBlock k == 14 && keyReg k < Reg.MBX_CTL.ctorIdx) with greqs := [], spiAt := none }

/-- A reset of the mailboxes and of every mailbox byte. -/
def State.rstMbx (s : State) : State :=
  { s.dropKeys (fun k => keyBlock k == 14 && Reg.MBX_CTL.ctorIdx ≤ keyReg k) with
    mem := s.mem.filter (fun p => !(mbxAddr 0 ≤ p.1 && p.1 < mbxAddr 0 + 0x8000)), snaps := [], posts := [], staged := [] }

/-- A reset of one Gedan port, which then trains again; NUM and the TREE pair belong to no single port's training. -/
def State.rstGdn (s : State) (p : Nat) : State :=
  let shared (k : Nat) : Bool := keyOf .GDN_NUM k || keyOf .GDN_TREEL k || keyOf .GDN_TREEH k
  let s := { s.dropKeys (fun k => keyBlock k == 30 && keyInst k == p && !shared k) with gports := s.gports.filter (fun x => x.1 != p) }
  if s.alive 18 then s.setFld F.GDN_STAT_STATE p 1 else s

/-- The device number read from the strap balls (R493, R500). [DESIGN CHOICE, log entry 55] -/
def State.readStraps (s : State) : State :=
  ((s.setFld F.GDN_NUM_NUM 0 s.straps).setFld F.GDN_NUM_ASSIGNED 0 0).setFld F.GDN_NUM_STRAP 0 s.straps

/-- A reset of the HOST domain's blocks, the number apart. -/
def State.rstHost (s : State) : State :=
  repeatN 4 (fun p s => s.rstGdn p) { s.rstHif.rstMbx.dropBlock 30 with sync := .init, reply := none, spiOut := [], msix := none }

/-- A reset of the general ports (R498): the levels at the balls are not theirs to reset. -/
def State.rstGeneral (s : State) : State :=
  let balls (k : Nat) : Bool := keyOf .GPIO_INA k || keyOf .GPIO_INB k || keyOf .GPIO_INC k
  { s.dropKeys (fun k => 24 ≤ keyBlock k && keyBlock k ≤ 28 && !balls k) with ports := [] }

/-! Domains. -/

/-- DOMSTAT bit of a domain given (R536). -/
def State.setDom (s : State) (d : Nat) (v : Bool) : State :=
  s.setRegN .PMU_DOMSTAT 0 (setBits d 1 (b2n v) (s.regN .PMU_DOMSTAT 0))

/-- The comparators of a tile. -/
def tileGroups (west : Bool) : List Nat := if west then [0, 1, 2, 3, 4, 5] else [6, 7, 8, 9, 10, 11]

/-- A reset of a domain other than AON and PMU, with the events in flight from its sources discarded (R326). The high-word latch of an
initiator in it stays (R22). [DESIGN CHOICE, log entry 133] -/
def State.rstDomain (s : State) (d : Nat) : State :=
  let s := s.dropFlights d
  if 5 ≤ d ∧ d ≤ 12 then repeatN 8 (fun i s => s.downSquare (8 * (d - 5) + i)) s
  else match d with
    | 2 => { (s.dropBlock 0).dropBlock 11 with sync := .init, almLate := [] }
    | 3 => s.flashReset
    | 4 => s.rstSch.rstRdc.rstMem.rstSup.rstDma
    | 13 => s.rstLode true
    | 14 => (tileGroups true).foldl (fun s g => s.rstCmp g) (repeatN 4 (fun g s => s.rstGroup g) s)
    | 15 => (tileGroups false).foldl (fun s g => s.rstCmp g) (repeatN 4 (fun g s => s.rstGroup (4 + g)) s)
    | 16 => s.rstEp.rstFlt
    | 17 => s.rstDlk.rstSdi.rstPos
    | 18 => s.rstHost
    | 19 => s.rstGeneral
    | _ => s

/-- A domain loses power (R523): its state and its memories are lost, and its squares become STALE (R129). -/
def State.powerOff (s : State) (d : Nat) (keepTcm : Bool) : State :=
  let s := (s.setDom d false).rstDomain d
  let s := (s.wipeSram [d] keepTcm).wipeFiles [d]
  let s := { s with spares := s.spares.filter (fun p => macroDom (p.1 / 8) != d || (keepTcm && inTcm0 (macroAddr (p.1 / 8) 0))) }
  if 5 ≤ d ∧ d ≤ 12 then repeatN 8 (fun i s => s.setSquare (8 * (d - 5) + i) { s.square (8 * (d - 5) + i) with lost := true, clear := 0 }) s
  else s

/-- MAP and PSTATE of a square as the repair log gives them (R421, R468), and its rotating test
begins (R408). [DEDUCED, log entry 58] -/
def State.repairSquare (s : State) (q : Nat) : State :=
  repeatN 128 (fun i s =>
    match s.repairEntry i with
    | some v => if v % 16 = 1 ∧ bits 9 4 v = q ∧ bits 13 10 v < 9 then s.setPstate q (bits 13 10 v) 4 else s
    | none => s) (s.rotBegin q)

/-- The remap tables of a domain's memories as the repair log gives them (R438, R468). -/
def State.repairRows (s : State) (d : Nat) : State :=
  let old (k : Nat) : Bool := keyOf .MEM_RDATA k && macroDom (keyInst k / 8) == d && keyInst k / 8 < 2004
  let log := (List.range 128).filterMap (fun i =>
    (s.repairEntry i).filter (fun v => v % 16 = 2 && bits 14 4 v < 2004 && macroDom (bits 14 4 v) == d))
  let s := (((s.regs.filter (fun p => old p.1)).map (fun p => keyInst p.1 / 8)).eraseDups.foldl (fun s m => s.unserve m) s).dropKeys old
  let s := log.foldl (fun s v =>
    let x := remapEntry (bits 14 4 v) (bits 29 27 v)
    (s.setFld F.MEM_RDATA_ROW x (bits 26 15 v)).setFld F.MEM_RDATA_VALID x 1) s
  (log.map (bits 14 4)).eraseDups.foldl (fun s m => s.serve m) s

/-- A domain leaves reset (R421, R438, R493, R545): its comparators' outputs reach Flint again. -/
def State.releaseDomain (s : State) (d : Nat) : State :=
  let s := s.setDom d true
  if 5 ≤ d ∧ d ≤ 12 then (repeatN 8 (fun i s => s.repairSquare (8 * (d - 5) + i)) s).repairRows d
  else match d with
    | 4 => s.repairRows 4
    | 13 => (s.rstLode true).repairRows 13
    | 14 => repeatN 96 (fun n s => s.cmpSense n) s
    | 15 => repeatN 96 (fun n s => s.cmpSense (96 + n)) s
    | 18 => repeatN 4 (fun p s => s.setFld F.GDN_STAT_STATE p 1) s.readStraps
    | _ => s

/-- The wipe's effect on the blocks that their chapters name, beside the memories (R142, R188, R218, R252, R287, R309, R326, R353,
R391, R498, R500). [DEDUCED, log entry 52] -/
def State.wipeBlocks (s : State) : State :=
  let s := ((((s.rstEp.rstFlt).rstDlk).rstSdi).rstPos).rstFabric
  let s := repeatN 12 (fun g s => s.rstCmp g) s
  let s := { s.dropKeys (fun k => keyOf .CV_LAST k) with convs := s.convs.map (fun (p : Nat × Conv) => (p.1, { p.2 with seq := [] })) }
  ((s.rstLode true).rstSup.rstDma).rstHost.readStraps.rstGeneral

end Sys2Proof.Machine
end

