-- ==== Sys2Proof/Machine/Msr.lean ====
section
/-! DEFINITION. Measurement (R504 to R514): supply levels, load identification, reflectometry and encoder classification. -/

namespace Sys2Proof.Machine

/-! Supply levels (R504). -/

/-- The next rail is converted; rails 14 and 15 read 0. -/
def State.railConvert (s : State) (v : Nat) : State :=
  if !s.alive 1 then s
  else { s.setFld F.MSR_SDATA_VAL s.rail (if s.rail < 14 then v else 0) with rail := (s.rail + 1) % 16 }

/-! Ends (R505 to R507, R513). -/

/-- TARGET of the measurement. -/
def Meas.target (m : Meas) : Nat := bits 15 8 m.ctl

/-- Whether the measurement drives a pair now. -/
def Meas.drives (m : Meas) : Bool := m.op == 1 && m.begun && !m.ended

/-- ENABLE = 0 is written to the pair in use (R507, R508). -/
def State.msrRelease (s : State) : State :=
  match s.meas with
  | some m =>
    if m.drives then
      let p := s.epPhys m.target
      { s with window := none }.epCtl p (s.regN .EP_CTL p / 2 * 2) s.now
    else s
  | none => s

/-- The four results. -/
def State.msrResults (s : State) (a b c d : Nat) : State :=
  (((s.setRegN .MSR_RES0 0 a).setRegN .MSR_RES1 0 b).setRegN .MSR_RES2 0 c).setRegN .MSR_RES3 0 d

/-- ERR and its code (R514). -/
def State.msrErr (s : State) (code : Nat) : State := (s.setFld F.MSR_STAT_ERR 0 1).setFld F.MSR_STAT_ERRCODE 0 code

/-- The measurement is over. -/
def State.msrIdle (s : State) : State := { s.setFld F.MSR_STAT_BUSY 0 0 with meas := none }

/-- The measurement whose normal end fell in this ec, over which a case of R507 prevails, with DONE before it. -/
def State.msrEnded (s : State) : Option (Meas × Bool) :=
  match s.measWas with
  | some (t, m, was) => if t = s.now then some (m, was) else none
  | none => none

/-- The measurement that a case of R507 would end. -/
def State.msrUnder (s : State) : Option Meas :=
  match s.meas with
  | some m => some m
  | none => s.msrEnded.map (·.1)

/-- A measurement under way ends with an error and its results read 0; so does one whose normal end fell in this ec (R507). -/
def State.msrFail (s : State) (code : Nat) : State :=
  if s.meas.isSome then ((s.msrRelease.msrIdle).msrResults 0 0 0 0).msrErr code
  else match s.msrEnded with
    | some (_, was) => (({ s with measWas := none }.setFld F.MSR_STAT_DONE 0 (b2n was)).msrResults 0 0 0 0).msrErr code
    | none => s

/-- A measurement completes. -/
def State.msrDone (s : State) : State :=
  { s.msrIdle.setFld F.MSR_STAT_DONE 0 1 with measWas := s.meas.map (fun m => (s.now, m, s.flag F.MSR_STAT_DONE 0)) }

/-- A reset of MSR (R513). -/
def State.rstMsr (s : State) : State := { (s.msrFail 7).dropBlock 9 with rail := 0, measWas := none }

/-! Requests (R505, R514). -/

/-- Whether the device is in a mode of R506. [DESIGN CHOICE, log entry 62] -/
def State.msrMode (s : State) : Bool := s.mode == 5 || s.mode == 9 || s.inRun

/-- The first tick of a measurement (R505); none where the named instant is too near. -/
def State.msrTs (s : State) (v : Nat) : Option Nat :=
  if !bit 5 v then some (s.now + 64)
  else
    let t := s.pair .MSR_STARTL .MSR_STARTH 0
    if t < s.now + 64 then none else some t

/-- A write of MSR.CTL (R505, R507, R514). [DESIGN CHOICE, log entry 62] -/
def State.msrCtl (s : State) (v : Nat) : State :=
  let op := bits 4 2 v
  let werr (s : State) : State := s.setFld F.MSR_STAT_WERR 0 1
  if !s.alive 1 then s
  else if op = 0 ∨ 3 < op then werr s
  else
    let s := if bit 1 v then s.msrFail 7 else s
    if bit 0 v && s.flag F.MSR_STAT_BUSY 0 then werr s
    else
      let s := s.setRegN .MSR_CTL 0 (v % 2 ^ 18 / 4 * 4)
      if !bit 0 v then s
      else
        match s.msrTs v with
        | none => s.msrErr 2
        | some t => { s.setFld F.MSR_STAT_BUSY 0 1 with meas := some ⟨op, v, t, false, 0, false, [], [], s.msrMode, false⟩ }

/-- Whether a register refuses writes while a measurement is under way (R514). -/
def msrLocked (r : Reg) : Bool := [Reg.MSR_LTIME, .MSR_LSAMP, .MSR_LVOLT, .MSR_TCFG].contains r

/-! The conditions at Ts (R506, R508). -/

/-- Whether the plan owns a resource of a measurement (R506, R507). -/
def State.msrOwned (s : State) (m : Meas) : Bool :=
  match m.op with
  | 1 => s.planOwns 2 m.target || s.planOwns 3 (s.fld F.MSR_LSAMP_CONV 0)
  | 2 => bit 7 m.ctl && s.planOwns 6 m.target
  | _ => s.planOwns 6 m.target

/-- The state that LOADID requires of its pair and converter, and of its operands (R506, R508). -/
def State.loadidOk (s : State) (m : Meas) : Bool :=
  let n := m.target
  let p := s.epPhys n
  let x := s.ep p
  let c := s.fld F.MSR_LSAMP_CONV 0
  let ns := s.fld F.MSR_LSAMP_NS 0
  let last := s.fld F.MSR_LSAMP_SKIP 0 + (ns - 1) * s.fld F.MSR_LSAMP_SPACE 0
  decide (n < 192) && s.flag F.EP_CTL_ENABLE p && s.flag F.EP_CTL_TT p && s.flag F.EP_CTL_COMPL p && x.a.queue.isEmpty &&
    x.b.queue.isEmpty && !s.flag F.EP_STAT_TRIPPED p && s.flag F.CV_CTL_EN c && s.fld F.CV_CTL_FMT c == 2 &&
    ((List.range 12).filter (fun i => bit i (s.fld F.CV_SCAN_MASK c))).length == 1 && (s.conv c).pend.isNone &&
    decide (4 ≤ ns) && decide (max 50 (s.fld F.CV_CTL_PACE c) ≤ s.fld F.MSR_LSAMP_SPACE 0) &&
    decide (last < s.fld F.MSR_LTIME_TON 0) && decide (last < s.fld F.MSR_LTIME_TOFF 0)

/-- The resources' required state (R506). -/
def State.msrReady (s : State) (m : Meas) : Bool :=
  match m.op with
  | 1 => s.loadidOk m
  | 2 => if bit 7 m.ctl then decide (m.target < 24) && !s.flag F.POS_CTL_EN m.target
      else decide (m.target < 64) && !s.flag F.DLK_CTL_EN m.target
  | _ => decide (m.target < 24) && !s.flag F.POS_CTL_EN m.target

/-- Ts (R506): the conditions are checked, and LOADID queues its two edges as by QPUSH in that ec (R175, R508). -/
def State.msrStart (s : State) : State :=
  match s.meas with
  | none => s
  | some m =>
    if m.begun then s
    else
      let s := s.reach m.ts
      if !s.msrMode then s.msrIdle.msrErr 3
      else if s.msrOwned m || !s.msrReady m then s.msrIdle.msrErr 1
      else
        let s := { s with meas := some { m with begun := true, opened := m.op == 2 } }
        if m.op ≠ 1 then s
        else
          let p := s.epPhys m.target
          let s := { s with window := some m.target }.epRefresh p
          let s := s.epEdge p false true (m.ts * 128) m.ts none
          s.epEdge p false false ((m.ts + s.fld F.MSR_LTIME_TON 0) * 128) m.ts none

/-! LOADID (R508, R509). -/

/-- The instant of a sample, phase 1 before phase 2. -/
def State.sampleAt (s : State) (m : Meas) (i : Nat) : Nat :=
  let ns := s.fld F.MSR_LSAMP_NS 0
  m.ts + (if ns ≤ i then s.fld F.MSR_LTIME_TON 0 else 0) + s.fld F.MSR_LSAMP_SKIP 0 +
    (if ns ≤ i then i - ns else i) * s.fld F.MSR_LSAMP_SPACE 0

/-- The next trigger is presented 8 qt ahead of its instant (R508); an overrun or a disabled converter ends the measurement
(R507). [DEDUCED, log entry 12] -/
def State.loadidSample (s : State) : State :=
  match s.meas with
  | none => s
  | some m =>
    if !m.drives || 2 * s.fld F.MSR_LSAMP_NS 0 ≤ m.shown then s
    else
      let c := s.fld F.MSR_LSAMP_CONV 0
      let i := s.sampleAt m m.shown
      let s := (s.reach (i - 8)).cvPresent c (i * 128) (i - 8) none
      if (s.conv c).pend.map (·.1) = some (i * 128) then { s with meas := some { m with shown := m.shown + 1 } }
      else s.msrFail 5

/-- A sum in binary32, in order. [DESIGN CHOICE, log entry 11] -/
def fSumOf (l : List Word) : Word := l.foldl (fun a b => fAdd false a b) 0

/-- The least-squares slope and the mean of one phase (R509). [DESIGN CHOICE, log entry 11] -/
def loadidFit (ts vs : List Word) : Word × Word :=
  let n := fOfInt (ts.length : Int) 0 false
  let tm := fDiv (fSumOf ts) n
  let im := fDiv (fSumOf vs) n
  let dt := ts.map (fun t => fAdd true t tm)
  let di := vs.map (fun v => fAdd true v im)
  (fDiv (fSumOf ((dt.zip di).map (fun p => fMul p.1 p.2))) (fSumOf (dt.map (fun d => fMul d d))), im)

/-- Whether a value is a finite number above 0. -/
def fPositive (x : Word) : Bool := !fIsNaN x && x != fInf false && fLt 0 x

/-- The results of a load identification (R509). -/
def State.loadidResult (s : State) (m : Meas) : State :=
  let times := (List.range (s.fld F.MSR_LSAMP_NS 0)).map (fun k =>
    fDiv (fOfInt ((s.fld F.MSR_LSAMP_SKIP 0 + k * s.fld F.MSR_LSAMP_SPACE 0 : Nat) : Int) 0 false) (fOfInt 1250000000 0 false))
  let (b1, i1) := loadidFit times m.got1
  let (b2, i2) := loadidFit times m.got2
  let l := fDiv (s.reg .MSR_LVOLT 0) (fAdd true b1 (fDiv (fMul b2 i1) i2))
  let r := fDiv (fMul (fNeg l) b2) i2
  if fFlush i2 &&& 0x7FFFFFFF#32 = 0 ∨ fPositive l = false then
    (s.msrIdle.msrResults fNaN.toNat fNaN.toNat b1.toNat b2.toNat).msrErr 6
  else (s.msrResults l.toNat r.toNat b1.toNat b2.toNat).msrDone

/-- The results once the pair is disabled and every word is in (R508). -/
def State.loadidSettle (s : State) : State :=
  match s.meas with
  | some m =>
    let ns := s.fld F.MSR_LSAMP_NS 0
    if m.op = 1 ∧ m.ended = true ∧ m.got1.length = ns ∧ m.got2.length = ns then s.loadidResult m else s
  | none => s

/-- The word that MSR takes from the next delivery of a converter, if it is a sample of its (R508). [DEDUCED, log entry 12] -/
def State.msrWord (s : State) (c code : Nat) : Option Word :=
  match s.meas with
  | none => none
  | some m =>
    if m.op ≠ 1 ∨ m.begun = false ∨ s.fld F.MSR_LSAMP_CONV 0 ≠ c then none
    else
      match (s.conv c).toDeliver.bind (fun i => (s.conv c).scans[i]?) with
      | none => none
      | some y =>
        let got := m.got1.length + m.got2.length
        if got < m.shown ∧ y.at_ = s.sampleAt m got * 128 then some (y.word (y.srcs.getD y.done 0) code 0 false) else none

/-- A delivery of a converter, and the word that MSR takes of it (R207, R508). -/
def State.deliver (s : State) (c code : Nat) : State :=
  match s.msrWord c code, s.meas with
  | some w, some m =>
    let s := s.cvPosition c code
    let m := if m.got1.length < s.fld F.MSR_LSAMP_NS 0 then { m with got1 := m.got1 ++ [w] } else { m with got2 := m.got2 ++ [w] }
    { s with meas := some m }.loadidSettle
  | _, _ => s.cvPosition c code

/-- Ts + TON + TOFF (R508): the pair is disabled. -/
def State.loadidEnd (s : State) : State :=
  match s.meas with
  | none => s
  | some m =>
    if !m.drives || m.shown < 2 * s.fld F.MSR_LSAMP_NS 0 then s
    else
      let s := (s.reach (m.ts + s.fld F.MSR_LTIME_TON 0 + s.fld F.MSR_LTIME_TOFF 0)).msrRelease
      { s with meas := some { m with ended := true } }.loadidSettle

/-! TDR and ENCTYPE (R511, R512). -/

/-- The length in cm of a round trip in fine steps, rounded to the nearest (R511). [DEDUCED, log entry 64] -/
def tdrLength (rtt vf : Nat) : Nat :=
  let v := min 1000 (max 500 vf)
  (rtt * 625 * v * 299792458 + 10 ^ 15) / (2 * 10 ^ 15)

/-- Whether the device-side termination of a pair stands: bit `line` of CTL.TERM of position interface p, or for a driver link always, but
for the pair that a TDR has opened until it ends (R268, R507, R511). -/
def State.terminated (s : State) (pos : Bool) (p line : Nat) : Bool :=
  let here (m : Meas) : Bool := m.opened && bit 7 m.ctl == pos && m.target == p && (!pos || bits 17 16 m.ctl == line)
  (!pos || bit line (s.fld F.POS_CTL_TERM p)) && !s.meas.any here

/-- The first reflection that counts (R511): of those sampled, each a round trip in fine steps and a height in mV above the step's own
polarity, the nearest within 32,768 fine steps whose magnitude exceeds the threshold: its round trip and KIND. -/
def firstReflection (thr : Nat) : List (Nat × Int) → Option (Nat × Nat)
  | [] => none
  | (t, v) :: l =>
    let rest := firstReflection thr l
    if t ≤ 32768 && decide (thr < v.natAbs) && !(rest.any (fun x => x.1 < t)) then some (t, if 0 < v then 1 else 2) else rest

/-- A reflectometry run completes with what it sampled (R511). -/
def State.tdrDone (s : State) (l : List (Nat × Int)) : State :=
  match s.meas with
  | some m =>
    if m.op ≠ 2 ∨ m.begun = false then s
    else match firstReflection (s.fld F.MSR_TCFG_THR 0) l with
      | none => (s.msrResults 0 0 0 0).msrDone
      | some (rtt, kind) => (s.msrResults (rtt % 2 ^ 16 + kind * 2 ^ 16) (tdrLength rtt (s.fld F.MSR_TCFG_VF 0)) 0 0).msrDone
  | none => s

/-- TYPE by the first of the three steps of R512 that succeeds: pair A changed level in the burst; A and B were driven throughout; every
state accepted single-ended lies in 1 to 6. -/
def encType (x : EncSeen) : Nat :=
  if x.changed then 3 else if x.driven then 1 else if x.states.all (fun v => v != 0 && v != 7) then 2 else 0

/-- An encoder classification completes with what its steps received (R512). -/
def State.encDone (s : State) (x : EncSeen) (levels : Nat) : State :=
  match s.meas with
  | some m => if m.op ≠ 3 ∨ m.begun = false then s else (s.msrResults (encType x + levels * 4) 0 0 0).msrDone
  | none => s

/-! What ends a measurement by itself (R507). -/

/-- A measurement whose conditions no longer hold ends; one that has not yet been in a mode of R506 has left none (R507).
[DESIGN CHOICE, log entry 62] -/
def State.msrWatch (s : State) : State :=
  match s.msrUnder with
  | none => s
  | some m =>
    let p := s.epPhys m.target
    if !s.msrMode && !m.listed then s
    else if !s.msrMode then s.msrFail 3
    else if !m.listed then { s with meas := s.meas.map (fun m => { m with listed := true }) }
    else if m.begun && s.msrOwned m then s.msrFail 1
    else if m.op = 1 ∧ m.begun = true ∧ (s.meas = none ∨ m.ended = false) ∧ (s.flag F.EP_STAT_TRIPPED p || s.flag F.EP_STAT_RBFAULT p) then s.msrFail 4
    else if m.op = 1 ∧ m.begun = true ∧ s.flag F.CV_CTL_EN (s.fld F.MSR_LSAMP_CONV 0) = false then s.msrFail 5
    else s

end Sys2Proof.Machine
end

