-- ==== Sys2Proof/Machine/Gedan.lean ====
section
/-! DEFINITION. Gedan ports and rack time (R29 to R32, R480, R489 to R497): frames, discovery, numbers, routes, and synchronisation
exchanges. -/

namespace Sys2Proof.Machine

/-- A Gedan port. -/
def State.gport (s : State) (p : Nat) : Gport := Tab.look (fun _ => Gport.init) s.gports p
/-- A Gedan port given a state. -/
def State.setGport (s : State) (p : Nat) (x : Gport) : State := { s with gports := Tab.put (fun _ => Gport.init) s.gports p x }
/-- A Gedan port changed. -/
def State.modGport (s : State) (p : Nat) (f : Gport → Gport) : State := s.setGport p (f (s.gport p))

/-- The device number in use (R493). -/
def State.devNum (s : State) : Nat := s.fld F.GDN_NUM_NUM 0

/-- Whether the device is the root (R480). -/
def State.isRoot (s : State) : Bool := s.flag F.HIF_STAT_LINKUP 0 || s.spiAt.isSome

/-- Whether a port is UP. -/
def State.gdnUp (s : State) (p : Nat) : Bool := s.alive 18 && s.fld F.GDN_STAT_STATE p == 2

/-- Whether a port's neighbour has been heard since UP and its port passes more than discovery (R495). -/
def State.gdnHeard (s : State) (p : Nat) : Bool := s.gdnUp p && s.flag F.GDN_NBR_VALID p && !s.flag F.GDN_STAT_DISCONLY p

/-! Discovery and routes (R493). -/

/-- The upstream port: of the ports whose neighbours report a DIST below 0xFF the one with the lowest, the lower number in a tie. -/
def State.gdnUpstream (s : State) : Option Nat :=
  if s.isRoot then none
  else
    let ports := (List.range 4).filter (fun p => s.gdnHeard p && decide (s.fld F.GDN_NBR_DIST p < 0xFF))
    ports.foldl (fun (m : Option Nat) p =>
      match m with
      | none => some p
      | some q => if s.fld F.GDN_NBR_DIST p < s.fld F.GDN_NBR_DIST q then some p else some q) none

/-- DIST of this device. -/
def State.gdnDist (s : State) : Nat :=
  if s.isRoot then 0
  else match s.gdnUpstream with
    | some p => s.fld F.GDN_NBR_DIST p + 1
    | none => 0xFF

/-- The role code of a port: 0 none, 1 upstream, 2 downstream, 3 standby. -/
def State.gdnRole (s : State) (p : Nat) : Nat :=
  if !s.gdnUp p then 0
  else if s.gdnUpstream = some p then 1
  else if (s.gport p).claim then 2
  else 3

/-- SUBTREE: this device's number and every downstream SUBTREE. -/
def State.gdnSubtree (s : State) : Nat :=
  (List.range 4).foldl (fun m p => if s.gdnRole p = 2 ∧ s.gdnHeard p = true then m ||| (s.gport p).sub else m) (2 ^ s.devNum)

/-- TREE: the root's SUBTREE, passed down; 0 where no port leads to the root. [DEDUCED, log entry 69] -/
def State.gdnTree (s : State) : Nat :=
  if s.isRoot then s.gdnSubtree
  else match s.gdnUpstream with
    | some p => (s.gport p).tree
    | none => 0

/-- Whether a device is in the tree. -/
def State.gdnHas (s : State) (d : Nat) : Bool := bit d s.gdnTree

/-- The port by which a frame for device d leaves. -/
def State.gdnPortTo (s : State) (d : Nat) : Option Nat :=
  match (List.range 4).find? (fun p => s.gdnRole p == 2 && s.gdnHeard p && bit d (s.gport p).sub) with
  | some p => some p
  | none => s.gdnUpstream

/-! Frames (R491, R492). -/

/-- A frame: its header, payload and CRC-32 (R491). -/
def gdnFrame (type dst src hops tag : Nat) (payload : List Byte) : List Byte :=
  let l := [BitVec.ofNat 8 type, BitVec.ofNat 8 dst, BitVec.ofNat 8 src, BitVec.ofNat 8 hops] ++ leBytes 2 tag ++
    leBytes 2 payload.length ++ payload
  l ++ leBytes 4 (crcBytes 0xFFFFFFFF#32 l ^^^ 0xFFFFFFFF#32).toNat

/-- The bytes of a frame that go over serving lane b: 8 at a time over each in turn, beginning with lane 0 (R489). -/
def servingBytes (frame : List Byte) (b : Nat) : List Byte := (frame.zipIdx.filter (fun x => x.2 / 8 % 2 == b)).map (·.1)

/-- A frame leaves by a port, striped over its two serving lanes. -/
def State.gdnOut (s : State) (p : Nat) (frame : List Byte) : State :=
  s.modGport p (fun x => { x with wire := (servingBytes frame 0, servingBytes frame 1) })

/-- A frame of this device leaves toward device d, if a port leads there. -/
def State.gdnSend (s : State) (type d tag : Nat) (payload : List Byte) : State :=
  match s.gdnPortTo d with
  | some p => s.gdnOut p (gdnFrame type d s.devNum 0 tag payload)
  | none => s

/-- A discarded frame is counted (R491). -/
def State.gdnDiscard (s : State) (p : Nat) : State :=
  if !s.gdnUp p then s else s.bump F.GDN_ERRCNT_FCRC F.GDN_ERRCNT_FCRCSAT p

/-- A frame for another device goes on toward it; one whose HOPS reaches 64 is discarded (R491, R492). -/
def State.gdnForward (s : State) (p type dst src hops tag : Nat) (payload : List Byte) : State :=
  if 64 ≤ hops + 1 then s.gdnDiscard p
  else match s.gdnPortTo dst with
    | some q => s.gdnOut q (gdnFrame type dst src (hops + 1) tag payload)
    | none => s

/-- Whether a port passes frames other than HELLO, NUMSET and SYNC: not in DISCONLY (R495), nor on standby (R493). -/
def State.gdnPasses (s : State) (p : Nat) : Bool := s.gdnUp p && !s.flag F.GDN_STAT_DISCONLY p && s.gdnRole p != 3

/-- Whether a port passes NUMSET: in DISCONLY too (R495), and on no other standby port (R493). [DEDUCED, log entry 69] -/
def State.numPasses (s : State) (p : Nat) : Bool := s.gdnUp p && (s.flag F.GDN_STAT_DISCONLY p || s.gdnRole p != 3)

/-- A frame other than HELLO, NUMSET or SYNC received on a port: one for this device acts, another goes on. -/
def State.gdnTake (s : State) (p type dst src hops tag : Nat) (payload : List Byte) (act : State → State) : State :=
  if !s.gdnPasses p then s
  else
    let s := s.modGport p (fun x => { x with rx := s.now })
    if dst = s.devNum ∨ dst = 0xFF then act s else s.gdnForward p type dst src hops tag payload

/-! Quartz and the root (R29, R32, R480). -/

/-- LOCK given; LOSTLOCK sets when it falls. -/
def State.setLock (s : State) (v : Bool) : State :=
  let s := if s.flag F.QTZ_STATUS_LOCK 0 && !v then s.setFld F.QTZ_STATUS_LOSTLOCK 0 1 else s
  s.setFld F.QTZ_STATUS_LOCK 0 (b2n v)

/-- STATE of Quartz given. -/
def State.qtzState (s : State) (v : Nat) : State := s.setFld F.QTZ_STATUS_STATE 0 v

/-- STATE, LOCK, ROOT and UPPORT follow the root and the upstream port (R29, R32). -/
def State.quartzTree (s : State) : State :=
  if !s.alive 2 then s
  else
    let s := s.setFld F.QTZ_STATUS_ROOT 0 (b2n s.isRoot)
    if s.isRoot then
      { (s.qtzState 0).setFld F.QTZ_STATUS_UPPORT 0 0 with sync := { s.sync with cur := none, good := 0, missed := 0, judged := false } }.setLock
        s.engClock
    else match s.gdnUpstream with
      | none => { (s.qtzState 0).setFld F.QTZ_STATUS_UPPORT 0 0 with sync := { s.sync with cur := none, good := 0, missed := 0, judged := false } }.setLock
          false
      | some p =>
        let s := s.setFld F.QTZ_STATUS_UPPORT 0 p
        if s.fld F.QTZ_STATUS_STATE 0 = 0 then
          { s.qtzState 1 with sync := { s.sync with cur := none, good := 0, missed := 0, judged := false } }.setLock false
        else s

/-- Roles, TREE, ROOT and Quartz's state follow the ports (R480, R493, R494). -/
def State.gdnRefresh (s : State) : State :=
  let t := s.gdnTree
  let roles := (List.range 4).map s.gdnRole
  let s := s.setFld F.HIF_STAT_ROOT 0 (b2n s.isRoot)
  let s := repeatN 4 (fun p s => s.setFld F.GDN_STAT_ROLE p (roles.getD p 0)) s
  let s := if s.alive 18 then s.setPair .GDN_TREEL .GDN_TREEH 0 t else s
  s.quartzTree

/-! Ports (R490, R493 to R495, R503). -/

/-- What a port knows of its neighbour discarded. -/
def State.gdnForget (s : State) (p : Nat) : State :=
  (s.modGport p (fun x => { x with sub := 0, tree := 0, claim := false, heard := false })).setReg .GDN_NBR p (regDefault (Reg.GDN_NBR.key p))

/-- A port completes training, and gives up a spare in use (R490, R493). [DEDUCED, log entry 70] -/
def State.gdnPortUp (s : State) (p : Nat) : State :=
  if !s.alive 18 || !s.flag F.GDN_CTL_EN p || s.gdnUp p then s
  else
    let s := ((s.gdnForget p).setFld F.GDN_STAT_STATE p 2).setFld F.GDN_STAT_SPARE p 0
    ((s.setFld F.GDN_STAT_DISCONLY p 0).modGport p (fun x => { x with rx := s.now, hello := s.now, lane := false })).gdnRefresh.refreshDegr

/-- A port enters LOST (R494). -/
def State.gdnLost (s : State) (p : Nat) : State :=
  (((s.modGport p (fun x => { x with sub := 0, claim := false })).setFld F.GDN_NBR_VALID p 0).setFld F.GDN_STAT_STATE p 3
    |>.setFld F.GDN_STAT_LOST p 1).gdnRefresh

/-- No valid frame for 2,500 qt (R494). -/
def State.gdnTimeout (s : State) (p : Nat) : State :=
  if !s.gdnUp p then s else (s.reach ((s.gport p).rx + 2500)).gdnLost p

/-- A lane fails (R490): its traffic moves to a free spare; a second failure, or one with no spare allowed, takes the port to
LOST. [DEDUCED, log entry 70] -/
def State.gdnLaneFail (s : State) (p : Nat) (lane : Bool) : State :=
  if !s.gdnUp p then s
  else
    let s := s.bump F.GDN_ERRCNT_LANEERR F.GDN_ERRCNT_LANESAT p
    if (s.gport p).lane || !s.flag F.GDN_CTL_SPAREEN p then s.gdnLost p
    else ((s.modGport p (fun x => { x with lane := true })).setFld F.GDN_STAT_SPARE p (1 + b2n lane)).refreshDegr

/-- A write of GDN[p].CTL (R503): EN trains the port or takes it OFF, where a spare in use stays so until the port next trains (R490). -/
def State.gdnCtl (s : State) (p v : Nat) : State :=
  let was := s.flag F.GDN_CTL_EN p
  let s := s.setRegN .GDN_CTL p (v % 4)
  if bit 0 v && !was then s.setFld F.GDN_STAT_STATE p 1
  else if !bit 0 v && was then ((s.gdnForget p).setFld F.GDN_STAT_STATE p 0).gdnRefresh
  else s

/-- The payload of HELLO on a port (R492): a port in DISCONLY tells its neighbour of the conflict (R16). [DEDUCED, log entry 70] -/
def State.helloPayload (s : State) (p : Nat) : List Byte :=
  leBytes 1 s.devNum ++ leBytes 8 Config.deviceUid ++ leBytes 1 s.gdnDist ++ leBytes 1 p ++
    leBytes 1 (b2n s.isRoot + b2n (s.flag F.QTZ_STATUS_LOCK 0) * 2 + b2n (s.flag F.GDN_STAT_DISCONLY p) * 4) ++
    leBytes 8 s.gdnSubtree ++ leBytes 8 s.gdnTree

/-- HELLO leaves by a port (R493). -/
def State.helloSend (s : State) (p : Nat) : State :=
  if !s.gdnUp p then s
  else (s.gdnOut p (gdnFrame 1 0xFF s.devNum 0 0 (s.helloPayload p))).modGport p (fun x => { x with hello := s.now })

/-- HELLO received on a port (R493, R495): a number that TREE holds outside the SUBTREE the port had puts the port in DISCONLY and is
reported to its holder, and what the neighbour says of its tree is not taken while it is refused; a free number that the host has assigned
ends DISCONLY, not the number refused. A
neighbour that says it refuses this device's number reports the conflict here too (R16). [DEDUCED, log entry 69] -/
def State.hello (s : State) (p num dist port flags sub tree : Nat) (claims : Bool) : State :=
  if !s.gdnUp p then s
  else
    let disc := s.flag F.GDN_STAT_DISCONLY p
    let taken := (disc && num == s.fld F.GDN_NBR_NUM p) || (bit num s.gdnTree && !bit num (s.gport p).sub && !(s.gdnUpstream == some p))
    let s := s.modGport p (fun x => { x with
      rx := s.now, sub := if taken then 0 else sub, tree := tree, claim := claims && !taken, heard := true })
    let s := s.setRegN .GDN_NBR p (num + dist * 2 ^ 6 + port * 2 ^ 14 + flags % 4 * 2 ^ 16 + 2 ^ 18)
    let s :=
      if taken then
        let s := (s.setFld F.GDN_STAT_DISCONLY p 1).setFld F.GDN_STAT_CONFLICT p 1
        if num = s.devNum || disc then s else s.gdnSend 0x54 num 0 (leBytes 1 num)
      else s.setFld F.GDN_STAT_DISCONLY p 0
    (if bit 2 flags && !taken then s.setFld F.GDN_STAT_CONFLICT p 1 else s).gdnRefresh

/-- CONFLICT received (R495): the device that holds the number sets its own CONFLICT. [DEDUCED, log entry 69] -/
def State.conflict (s : State) (p num : Nat) : State :=
  if num = s.devNum then s.setFld F.GDN_STAT_CONFLICT p 1 else s

/-- The device takes a number (R495). -/
def State.takeNum (s : State) (num : Nat) : State :=
  ((s.setFld F.GDN_NUM_NUM 0 num).setFld F.GDN_NUM_ASSIGNED 0 1).gdnRefresh

/-- NUMSET leaves by every port but one that passes it. [DEDUCED, log entry 69] -/
def State.numFlood (s : State) (but : Option Nat) (uid num src hops : Nat) : State :=
  repeatN 4 (fun p s =>
    if s.numPasses p && but != some p then s.gdnOut p (gdnFrame 0x52 0xFF src hops 0 (leBytes 8 uid ++ leBytes 1 num)) else s) s

/-- NUMSET received (R495): the device whose UID it names takes the number; others pass it on. -/
def State.numSet (s : State) (p src hops uid num : Nat) : State :=
  if !s.numPasses p then s
  else
    let s := s.modGport p (fun x => { x with rx := s.now })
    if uid = Config.deviceUid then s.takeNum num
    else if 64 ≤ hops + 1 then s.gdnDiscard p
    else s.numFlood (some p) uid num src (hops + 1)

/-- HIF.NUMCMD.GO (R501): NUMSET for the UID in UIDL and UIDH. -/
def State.numCmd (s : State) (num : Nat) : State :=
  if !s.alive 18 then s
  else
    let uid := s.pair .HIF_UIDL .HIF_UIDH 0
    if uid = Config.deviceUid then s.takeNum num else s.numFlood none uid num s.devNum 0

/-- Where the MSI-X table and the pending-bit array of BAR4 lie beside the device's own map. [PRESUMED, log entry 63] -/
def msixBase : Nat := 0x600000000

/-- Whether the table masks a vector: bit 0 of the last word of its entry. [PRESUMED, log entry 63] -/
def State.msixMasked (s : State) (vec : Nat) : Bool := bit 0 (s.byte (msixBase + 16 * vec + 12)).toNat

/-- The bit of a vector in the pending-bit array given. [PRESUMED, log entry 63] -/
def State.setMsixPend (s : State) (vec v : Nat) : State :=
  let a := msixBase + 0x8000 + vec / 8
  s.setByte a (BitVec.ofNat 8 (setBits (vec % 8) 1 v (s.byte a).toNat))

/-- The root signals an MSI-X vector to the host, or keeps one that the table masks as pending (R478). [PRESUMED, log entry 63] -/
def State.msixSend (s : State) (vec : Nat) : State :=
  if s.msixMasked vec then s.setMsixPend vec 1 else { s with msix := some vec }

/-- The vectors of the table entries from `lo` to `hi` that are pending and no longer masked are sent (R478). [PRESUMED, log entry 63] -/
def State.msixUnmask (s : State) (lo hi : Nat) : State :=
  repeatN (hi + 1 - lo) (fun k s =>
    let v := lo + k
    if bit (v % 8) (s.byte (msixBase + 0x8000 + v / 8)).toNat && !s.msixMasked v then { s.setMsixPend v 0 with msix := some v } else s) s

/-- An MSI-X vector of this device on its way to the host (R485, R492): sent by the root, passed on toward it by every other device. -/
def State.sendIrq (s : State) (vec : Nat) : State :=
  if s.isRoot then s.msixSend vec
  else match s.gdnUpstream with
    | some p => s.gdnOut p (gdnFrame 0x21 0xFF s.devNum 0 0 (leBytes 2 vec))
    | none => s

/-- An IRQ frame received: signalled by the root, passed on toward it by every other device with its source and one hop more (R491,
R492). -/
def State.passIrq (s : State) (p src hops vec : Nat) : State :=
  if s.isRoot then s.msixSend vec
  else if 64 ≤ hops + 1 then s.gdnDiscard p
  else match s.gdnUpstream with
    | some q => s.gdnOut q (gdnFrame 0x21 0xFF src (hops + 1) 0 (leBytes 2 vec))
    | none => s

/-- WAKE received (R496): for a neighbour, whose number a HELLO has told and whose port is not UP, it leaves as a burst of 20 µs on
lane 0. -/
def State.wakeFrame (s : State) (p dst src hops : Nat) : State :=
  if !s.gdnPasses p || dst == s.devNum then s
  else
    let s := s.modGport p (fun x => { x with rx := s.now })
    match (List.range 4).find? (fun q =>
        q != p && !s.gdnUp q && s.flag F.GDN_CTL_EN q && (s.gport q).heard && s.fld F.GDN_NBR_NUM q == dst) with
    | some q => s.modGport q (fun x => { x with burst := some (s.now + 25000) })
    | none => s.gdnForward p 0x41 dst src hops 0 []

/-! Rack time (R29 to R32, R497). -/

/-- Quartz stepped by whole ticks (R27, R30): alarms whose targets it passes, or lands on, fire in the next ec, as one that waits to
fire late does where its target is still passed; what was written before it holds at once.
[DEDUCED, log entry 71 and DESIGN CHOICE, log entry 126] -/
def State.stepQuartz (s : State) (d : Int) : State :=
  let old := s.now
  let new := ((old : Int) + d).toNat
  let s := { s with now := new, fltWas := [], eps := s.eps.map (fun (p : Nat × Pair) => (p.1, { p.2 with dtAt := 0, maxAt := 0 })) }
  repeatN 8 (fun a s =>
    let t := s.pair .QTZ_ALML .QTZ_ALMH a
    if s.flag F.QTZ_ALMC_ARM a && (decide (old < t) || Tab.look (fun _ => 0) s.almLate a != 0) then
      { s with almLate := Tab.put (fun _ => 0) s.almLate a (if t ≤ new then new + 1 else 0) }
    else s) s

/-- A missed exchange (R32). [DEDUCED, log entry 71] -/
def State.syncMissed (s : State) : State :=
  match s.sync.cur with
  | none => s
  | some (_, t1) =>
    let s := (s.reach (t1 / 128 + 2500)).bump F.QTZ_MISSCNT_COUNT F.QTZ_MISSCNT_SAT 0
    let m := s.sync.missed + 1
    let s := { s with sync := { s.sync with cur := none, missed := m, good := 0 } }
    if m = 4 then (s.setLock false).qtzState 3 else s

/-- The exchange of the next tick that is a multiple of 10,000 begins; T1 follows the tick by `lag` fine steps (R497). -/
def State.syncExchange (s : State) (lag : Nat) : State :=
  if !s.alive 2 then s
  else match s.gdnUpstream with
    | none => s
    | some p =>
      let s := s.syncMissed
      let s := s.reach ((s.now + 9999) / 10000 * 10000)
      let n := s.sync.next
      let s := s.gdnOut p (gdnFrame 0x30 0xFF s.devNum 0 0 (leBytes 2 n))
      { s with sync := { s.sync with cur := some (n, s.now * 128 + lag), next := (n + 1) % 65536 } }

/-- SYNCREQ received at t2 and answered `turn` fine steps later (R497). -/
def State.syncReq (s : State) (p num t2 turn : Nat) : State :=
  if !s.gdnUp p || !s.alive 2 then s
  else
    let s := (s.reach (t2 / 128)).modGport p (fun x => { x with rx := max s.now (t2 / 128) })
    let t3 := t2 + min turn 160000
    let off := if s.isRoot then 0 else s.regN .QTZ_OFFSET 0
    let lock := s.isRoot || s.flag F.QTZ_STATUS_LOCK 0
    s.gdnOut p (gdnFrame 0x31 0xFF s.devNum 0 0 (leBytes 2 num ++ leBytes 8 (t2 / 128) ++ leBytes 1 (t2 % 128) ++ leBytes 8 (t3 / 128) ++
      leBytes 1 (t3 % 128) ++ leBytes 4 off ++ leBytes 1 (b2n lock)))

/-- The trim after an exchange: its value within ±15,000 is open (R31, R33). [DESIGN CHOICE, log entry 72] -/
def State.qtzTrim (s : State) : State :=
  if !s.flag F.QTZ_CTL_DISC 0 then s
  else
    let (v, s) := s.takeFree
    s.setFld F.QTZ_TRIM_TRIM 0 (wrapTo 16 ((v % 30001 : Nat) - 15000))

/-- An offset from rack time, judged (R30, R32): the step of the first one, then good, bad and lost lock. The first valid offset is that
since an upstream port was gained. [DEDUCED, log entry 71 and DESIGN CHOICE, log entry 133] -/
def State.syncJudge (s : State) (off : Int) (rlock : Bool) : State :=
  let a := off.natAbs
  let first := !s.sync.judged
  let s := { s with sync := { s.sync with judged := true } }
  let s := if s.fld F.QTZ_STATUS_STATE 0 = 3 then s.qtzState 1 else s
  if first && s.fld F.QTZ_STATUS_STATE 0 == 1 && !s.inRun && s.flag F.QTZ_CTL_STEPEN 0 && decide (160000 < a) then
    { (s.stepQuartz (-(off.tdiv 128))).setFld F.QTZ_STATUS_STEPPED 0 1 with sync := { s.sync with good := 0 } }
  else
    let s := s.qtzTrim
    let s := if s.flag F.QTZ_STATUS_LOCK 0 && decide (40 < a) then (s.setLock false).qtzState 1 else s
    if !rlock || decide (32 < a) then { s with sync := { s.sync with good := 0 } }
    else
      let g := s.sync.good + 1
      let s := { s with sync := { s.sync with good := g } }
      if g = 16 then (s.setLock true).qtzState 2 else s

/-- SYNCRESP received at t4 (R497). -/
def State.syncResp (s : State) (p num t2 t3 t4 : Nat) (roff : BitVec 32) (rlock : Bool) : State :=
  if !s.gdnUp p || !s.alive 2 then s
  else
    let s := (s.reach (t4 / 128)).modGport p (fun x => { x with rx := max s.now (t4 / 128) })
    match s.sync.cur with
    | none => s
    | some (n, t1) =>
      if n ≠ num ∨ s.gdnUpstream ≠ some p then s
      else if t1 + 320000 < t4 then s.syncMissed
      else
        let off := (((t1 : Int) - t2) + ((t4 : Int) - t3)).tdiv 2 + roff.toInt
        let s := { s with sync := { s.sync with cur := none, missed := 0 } }
        (s.setRegN .QTZ_OFFSET 0 (wrapTo 32 (clampI (-0x7FFFFFFF) 0x7FFFFFFF off))).syncJudge off rlock

end Sys2Proof.Machine
end

