-- ==== Sys2Proof/Machine/Power.lean ====
section
/-! DEFINITION. Supplies, clocks, domains and operating modes (R515 to R537), and the path of every start: resets, option load, the
release of the domains, boot verification, single-block resets and life cycle (R538 to R557). -/

namespace Sys2Proof.Machine

/-! Supplies (R515 to R520, R536). -/

/-- The registers of the PMU show the supplies while the PMU runs (R521, R535, R536). -/
def State.supplyShow (s : State) : State :=
  if !s.alive 1 then s
  else
    let s := (s.setFld F.PMU_SUPPLY_MAINOK 0 (b2n s.supply.main)).setFld F.PMU_SUPPLY_BKPOK 0 (b2n s.supply.bkp)
    (s.setFld F.PMU_SUPPLY_HOLDOK 0 (b2n s.supply.hold)).setFld F.PMU_STAT_ONBKP 0 (b2n s.supply.onBkp)

/-- The domains that a rail of R521 feeds: it is monitored while one of them is powered. [DESIGN CHOICE, log entry 65] -/
def railDoms (i : Nat) : List Nat :=
  match i with
  | 4 => [4, 5, 6, 7, 8, 9, 10, 11, 12, 13, 16]
  | 5 => [4, 5, 6, 7, 8, 9, 10, 11, 12, 13]
  | 6 => [14]
  | 7 => [15]
  | 8 => [19]
  | 9 => [17, 18]
  | 10 => [3]
  | 11 => [0]
  | 12 => [2]
  | _ => []

/-- The condition of source 384 (R518, R521). -/
def State.supplyBad (s : State) : Bool :=
  s.alive 1 && ((!s.supply.main && !s.supply.bkp) || (List.range 13).any (fun i => bit i s.rails && (railDoms i).any s.alive))

/-- Source 384, OOR and the safety event follow the condition of R518. [DEDUCED, log entry 66] -/
def State.supplyOor (s : State) : State :=
  let c := s.supplyBad
  let s := if c == s.flag F.FLT_SRCE_ACTIVE 384 then s else s.fltLevel 384 c s.now
  if c == s.flag F.PMU_STAT_OOR 0 then s
  else
    let s := s.setFld F.PMU_STAT_OOR 0 (b2n c)
    if c then (s.setFld F.PMU_STAT_OOREV 0 1).raiseEv 1 1 0 else s

/-- The device takes the other supply (R516, R517); while the PMU does not run, the selection of R515 only. On VBKP the qualification of
VMAIN begins. [DESIGN CHOICE, log entry 65] -/
def State.supplyTake (s : State) (bkp : Bool) : State :=
  let s := { s with supply := { s.supply with onBkp := bkp } }
  if !s.alive 1 then s
  else
    let s := s.supplyShow.setFld (if bkp then F.PMU_STAT_SWITCHED else F.PMU_STAT_SWBACK) 0 1 |>.bump F.PMU_SWCNT_COUNT F.PMU_SWCNT_SAT 0
    if bkp then { s.setFld F.PMU_SUPPLY_MAINQUAL 0 0 with mainAt := s.mainAt.map (fun _ => s.now) } else s

/-- The selection of a supply (R515 to R517, R521, R536). -/
def State.supplySelect (s : State) : State :=
  let x := s.supply
  if !s.alive 1 then s.supplyTake (!x.main)
  else if x.onBkp then (if !x.bkp && x.main then s.supplyTake false else s)
  else if x.bkp && (!x.main || s.flag F.PMU_SUPPLY_FORCEBKP 0) then s.supplyTake true
  else s

/-- VMAIN is in the window of R517 from now on, or outside it. -/
def State.mainWindow (s : State) (ok : Bool) : State :=
  let s := { s with supply := { s.supply with win := ok }, mainAt := if ok then some s.now else none }
  if ok then s else s.setFld F.PMU_SUPPLY_MAINQUAL 0 0

/-- A supply condition changes: 0 VMAIN in its range and in the window of R517; 1 VBKP in its range; 2 VMAIN in its range and outside the
window of R517, whatever `ok` says; 3 VHOLD at 14.0 V or above; 4 to 12 that rail in its window. [DESIGN CHOICE, log entry 65] -/
def State.supplyChange (s : State) (what : Nat) (ok : Bool) : State :=
  let s := match what with
    | 0 => { s with supply := { s.supply with main := ok } }.mainWindow ok
    | 1 => { s with supply := { s.supply with bkp := ok } }
    | 2 => { s with supply := { s.supply with main := true } }.mainWindow false
    | 3 => { s with supply := { s.supply with hold := ok } }
    | _ => { s with rails := setBits what 1 (b2n (!ok)) s.rails }
  s.supplyShow.supplySelect.supplyOor

/-- VMAIN leaves its range for 200 ns with VBKP in range (R516). -/
def State.switchOver (s : State) : State :=
  if s.supply.onBkp || !s.supply.bkp then s else s.supplyChange 0 false

/-- VMAIN has stayed in the window of R517 for 40,000 bc: it is qualified, and the device takes it unless FORCEBKP holds VBKP (R536). -/
def State.switchBack (s : State) : State :=
  match s.mainAt with
  | none => s
  | some t =>
    if !s.supply.onBkp || !s.alive 1 then s
    else
      let s := (s.reach (t + 12500000)).setFld F.PMU_SUPPLY_MAINQUAL 0 1
      if s.flag F.PMU_SUPPLY_FORCEBKP 0 then s else (s.supplyTake false).supplyOor

/-- VBKP leaves its range while the device runs from it and VMAIN is in range (R517). -/
def State.vbkpLoss (s : State) : State :=
  if !s.supply.onBkp || !s.supply.main then s else s.supplyChange 1 false

/-- A refused request or write (R526, R536). -/
def State.modeErr (s : State) (c : Nat) : State := (s.setFld F.PMU_STAT_MODEERR 0 1).setFld F.PMU_STAT_MCAUSE 0 c

/-- A write of FORCEBKP (R536): cleared, the device goes back to a VMAIN that is qualified (R517). -/
def State.forceBkp (s : State) (v : Bool) : State :=
  if v == s.flag F.PMU_SUPPLY_FORCEBKP 0 then s
  else if v && s.mode != 9 then s.modeErr 1
  else
    let s := s.setFld F.PMU_SUPPLY_FORCEBKP 0 (b2n v)
    if v then s.supplySelect
    else if s.supply.onBkp && s.flag F.PMU_SUPPLY_MAINQUAL 0 then (s.supplyTake false).supplyOor
    else s

/-- Whether a sensor supply runs: SNS5, or SNS33 (R519). [DEDUCED, log entry 66] -/
def State.snsRuns (s : State) (b : Bool) : Bool :=
  s.flag (if b then F.PMU_SNSCTL_EN33 else F.PMU_SNSCTL_EN5) 0 && (s.mode == 2 || (4 ≤ s.mode && s.mode ≤ 11)) && !bit (b2n b) s.snsOff

/-- A sensor supply in current limit for 1 ms (R519). -/
def State.snsOver (s : State) (b : Bool) : State :=
  if !s.snsRuns b then s
  else { (s.setFld (if b then F.PMU_SNSCTL_OC33 else F.PMU_SNSCTL_OC5) 0 1).setFld F.PMU_STAT_SNSOC 0 1 with
    snsOff := setBits (b2n b) 1 1 s.snsOff }

/-- A write of SNSCTL (R519): an enable written 0 ends a switch-off. [DEDUCED, log entry 66] -/
def State.snsWrite (s : State) (v : Nat) : State :=
  let s := s.setRegN .PMU_SNSCTL 0 (v % 4 + (s.regN .PMU_SNSCTL 0 &&& (0xC - (v &&& 0xC))))
  let off := if bit 0 v then s.snsOff else setBits 0 1 0 s.snsOff
  { s with snsOff := if bit 1 v then off else setBits 1 1 0 off }

/-- SNSCTL as it reads (R519, R536). -/
def State.snsRead (s : State) : Nat := s.regN .PMU_SNSCTL 0 + b2n (s.snsRuns false) * 16 + b2n (s.snsRuns true) * 32

/-- A regulator loses a phase (R520). -/
def State.phaseFail (s : State) (k : Nat) : State :=
  if !s.alive 1 then s
  else if bit k (s.fld F.PMU_REGSTAT_SPARE 0) then s.setFld F.PMU_REGSTAT_FAIL 0 (setBits k 1 1 (s.fld F.PMU_REGSTAT_FAIL 0))
  else ((s.setFld F.PMU_REGSTAT_SPARE 0 (setBits k 1 1 (s.fld F.PMU_REGSTAT_SPARE 0))).setFld F.PMU_STAT_REGSPARE 0 1).refreshDegr

/-! Clocks (R530, R532). -/

/-- A PLL reaches lock: 0 engine, 1 supervisor, 2 link. -/
def State.pllLock (s : State) (which : Nat) : State :=
  if !s.alive 2 then s
  else match which with
    | 0 => { s.setFld F.CLK_STAT_ENGLOCK 0 1 with lockAt := s.now }.gdnRefresh
    | 1 => s.setFld F.CLK_STAT_SUPLOCK 0 1
    | _ => s.setFld F.CLK_STAT_LNKLOCK 0 1

/-- The clock monitor finds the engine clock lost (R532). -/
def State.clkFail (s : State) : State :=
  if !s.alive 2 then s
  else
    let s := (s.setFld F.CLK_STAT_ENGLOCK 0 0).gdnRefresh
    if s.flag F.FLT_SRCE_ACTIVE 385 then s
    else (((s.setFld F.CLK_STAT_MONFAIL 0 1).bump F.CLK_UNLCNT_COUNT F.CLK_UNLCNT_SAT 0).raiseEv 2 2 0).fltLevel 385 true s.now

/-- Source 385 releases after 1,250 qt of lock (R532). -/
def State.clkRelease (s : State) : State :=
  if !s.flag F.FLT_SRCE_ACTIVE 385 || !s.flag F.CLK_STAT_ENGLOCK 0 then s
  else
    let s := s.reach (s.lockAt + 1250)
    s.fltLevel 385 false s.now

/-- The reference oscillator is lost (R532). -/
def State.refLost (s : State) : State :=
  if !s.alive 2 then s else ((s.setFld F.CLK_STAT_REFOK 0 0).setFld F.CLK_STAT_REFLOST 0 1).raiseEv 2 2 0

/-- The supervisor PLL, or the link PLL, loses lock (R532). -/
def State.pllUnlock (s : State) (link : Bool) : State :=
  if !s.alive 2 then s
  else ((s.setFld (if link then F.CLK_STAT_LNKLOCK else F.CLK_STAT_SUPLOCK) 0 0).setFld F.CLK_STAT_UNLOCK 0 1).raiseEv 2 2 0

/-! Domains (R522, R523). -/

/-- Whether DOMEN switches a domain (R522). -/
def switched (d : Nat) : Bool := (5 ≤ d && d ≤ 15) || (17 ≤ d && d ≤ 19)

/-- DOMEN's bit of a domain. -/
def State.domen (s : State) (d : Nat) : Bool := bit d (s.regN .PMU_DOMEN 0)

/-- DOMSTAT's bit of a domain. -/
def State.domOn (s : State) (d : Nat) : Bool := bit d (s.regN .PMU_DOMSTAT 0)

/-- What depends on which domains are powered follows them. -/
def State.domSettle (s : State) : State := ((s.epRefreshAll.gdnRefresh).refreshDegr).supplyOor.msrWatch

/-- A domain is powered and released; CLK starts the reference and Quartz at 0 (R18, R530), PMU shows the supplies and begins to qualify
VMAIN (R517, R521). -/
def State.domUp (s : State) (d : Nat) : State :=
  let s := s.releaseDomain d
  if d = 2 then
    { s.setFld F.CLK_STAT_REFOK 0 1 with
      now := 0, mainAt := s.mainAt.map (fun _ => 0), safenAt := s.safenAt.map (fun _ => 0), lockAt := 0, escAt := 0, reqAt := none,
      counted := [] }.domSettle
  else if d = 1 then { s with mainAt := if s.supply.win then some s.now else none }.supplyShow.supplySelect.domSettle
  else s.domSettle

/-- A RANK or LODE domain released outside BRING-UP is wiped (R429). -/
def State.domUpWiped (s : State) (d : Nat) : State :=
  let s := s.domUp d
  if 5 ≤ d ∧ d ≤ 13 then s.beginWipe [d] false else s

/-- A domain loses its power; MSR lies in PMU, the clock monitor in CLK (R513, R523, R532). -/
def State.domDown (s : State) (d : Nat) (keepTcm : Bool) : State :=
  let s := if d = 1 then { s.rstMsr with snsOff := 0 } else s
  let s := s.powerOff d keepTcm
  let s := if d = 2 then s.fltLevel 385 false s.now else s
  s.domSettle

/-- A write of DOMEN (R523). [DEDUCED, log entry 68] -/
def State.domenWrite (s : State) (v : Nat) : State :=
  let old := s.regN .PMU_DOMEN 0
  let want := (v &&& 0xEFFE0) ||| 0x1001F
  let drops := (old &&& (0xFFFFF - want)) != 0
  let new := if s.inRun then old ||| want else want
  let s := if s.inRun && drops then s.setFld F.PMU_STAT_DOMERR 0 1 else s
  let s := s.setRegN .PMU_DOMEN 0 new
  if s.mode < 5 ∨ 10 < s.mode then s
  else
    let doms := (List.range 20).filter switched
    { s with rising := s.rising.filter (fun d => bit d new) ++ doms.filter (fun d => bit d new && !s.domOn d && !s.rising.contains d)
             falling := s.falling.filter (fun d => !bit d new) ++ doms.filter (fun d => !bit d new && s.domOn d && !s.falling.contains d) }

/-- A domain finishes powering (R523). -/
def State.domPowered (s : State) : State :=
  match s.rising with
  | [] => s
  | d :: rest => { s with rising := rest }.domUpWiped d

/-- A domain's power is removed (R523). -/
def State.domRemoved (s : State) : State :=
  match s.falling with
  | [] => s
  | d :: rest => { s with falling := rest }.domDown d false

/-! Modes (R524 to R527). -/

/-- A pending request is discarded (R526, R527). -/
def State.dropReq (s : State) : State :=
  if s.modeReq.isSome then { (s.setFld F.PMU_MODEREQ_PEND 0 0).modeErr 6 with modeReq := none } else s

/-- A timed transition under way is discarded (R527). -/
def State.dropTrans (s : State) : State := if s.trans.isSome then { s.modeErr 6 with trans := none } else s

/-- The device enters a mode other than RUN and RUN DEGRADED: leaving RUN stops the plan (R139, R182), leaving STANDBY withdraws a
pending start (R137), a load goes on only where R150 lets it, and from BRING-UP or WARM SLEEP the domains that DOMEN leaves off
lose their power and those that it enables begin to be powered (R523, R546). -/
def State.enterMode (s : State) (m : Nat) : State :=
  let was := s.mode
  let s := if s.inRun then (s.schStop.epLeaveRun).dropReq else s
  let s := if was = 5 then s.schWithdraw else s
  let s := if m = 4 ∨ m = 5 then s else s.loadStop
  let s := s.setMode m
  let s := if (was = 4 ∨ was = 2) ∧ 5 ≤ m ∧ m ≤ 10 then
      let s := repeatN 20 (fun d s => if switched d && !s.domen d && s.domOn d then s.domDown d false else s) s
      { s with rising := s.rising ++ (List.range 20).filter (fun d => switched d && s.domen d && !s.domOn d && !s.rising.contains d) }
    else s
  s.domSettle

/-- Whether R525 has a transition on request from one mode to another. -/
def modeLeads (cur m : Nat) : Bool :=
  match cur with
  | 4 => m == 5 || m == 8 || m == 9 || m == 10
  | 5 => m == 8 || m == 9 || m == 10 || m ≤ 2
  | 6 => m == 5 || m == 8
  | 7 => m == 5 || m == 8
  | 8 => m == 5 || m == 9
  | 9 => m == 5 || m == 8
  | 10 => m == 5 || m == 8
  | 2 => m == 5
  | _ => false

/-- Whether the device is escalated (R560). -/
def State.escalated (s : State) : Bool := s.flag F.SAF_STAT_ESC 0

/-- Whether a condition of R525 keeps a request from its transition. [DEDUCED, log entry 68] -/
def State.modeBlocked (s : State) (m : Nat) : Bool :=
  (s.mode == 4 && s.boot != .done) || (s.escalated && ((s.mode == 4 && m != 8) || s.mode == 8)) ||
    (m ≤ 1 && s.regN .PMU_WAKEEN 0 == 0)

/-- The lowest cause for which a request is refused; 0 for none (R526). [DEDUCED, log entry 68] -/
def State.modeRefused (s : State) (m : Nat) : Nat :=
  if !modeLeads s.mode m then 1
  else if s.schPending then 2
  else if (s.fst 0 0 || s.fst 1 0) && (s.mode == 10 || m ≤ 2) then 3
  else if s.modeBlocked m then 4
  else if s.modeReq.isSome then 5
  else 0

/-- The exit from WARM SLEEP powers FLASH, EDGE and what DOMEN enables (R524, R525). -/
def State.warmExit (s : State) : State :=
  repeatN 20 (fun d s => if !s.domOn d && (d == 3 || d == 16 || (switched d && s.domen d)) then s.domUpWiped d else s) s

/-- A request of a mode by software of a ring (R526): one to leave RUN or RUN DEGRADED waits, one in the ec of an escalation or while the
escalation leads out of WARM SLEEP is discarded (R527). [DESIGN CHOICE, log entry 61] -/
def State.modeRequest (s : State) (m ring : Nat) : State :=
  if ring ≠ 0 ∨ s.alive 4 = false then s
  else
    let s := s.setFld F.PMU_MODEREQ_MODE 0 m
    let c := s.modeRefused m
    if s.escAt = s.now + 1 then s.modeErr 6
    else if c ≠ 0 then s.modeErr c
    else if s.inRun then { s.setFld F.PMU_MODEREQ_PEND 0 1 with modeReq := some m }
    else if m ≤ 2 then { s with trans := some m }
    else if s.mode = 2 then (if s.trans = some 8 then s.modeErr 6 else { s with trans := some m }.warmExit)
    else { s with trans := none, reqAt := some (s.now, s.regN .PMU_MODE 0) }.enterMode m

/-- Every powered square left WARM SLEEP (R129). [DEDUCED, log entry 56] -/
def State.warmSquares (s : State) : State :=
  repeatN 64 (fun q s => if s.domOn (sqDom q) then s.setSquare q { s.square q with warm := true } else s) s

/-- A wake source from a sleep mode (R525, R527, R528): its code and port. -/
def State.wake (s : State) (code port : Nat) : State :=
  let deep := s.mode == 1
  if s.mode ≤ 1 then
    let s := ((s.setMode 3).setFld F.PMU_STAT_WOKE 0 1).setFld F.PMU_STAT_WSRC 0 code
    { s.setFld F.PMU_STAT_WPORT 0 port with boot := .release 1, woke := none, tcmKept := deep }
  else match s.trans with
    | some m => if m ≤ 1 then { s with woke := some (code, port) } else s
    | none => s

/-- A timed transition completes (R525): WARM SLEEP holds the RANK and LODE domains that DOMEN enables and no other (R524); the exit from WARM SLEEP waits for the calibration of every powered group (R218). -/
def State.modeDone (s : State) : State :=
  match s.trans with
  | none => s
  | some m =>
    if 2 < m then
      if (List.range 8).any (fun g => s.alive (anaDom (g < 4)) && !s.flag F.CV_ROTSTAT_CALDONE g) then s
      else { s with trans := none }.warmSquares.enterMode m
    else
      let off := (List.range 20).filter (fun d =>
        if m = 2 then [3, 14, 15, 16, 17, 19].contains d || (5 ≤ d && d ≤ 13 && !s.domen d) else if m = 1 then 2 ≤ d else 1 ≤ d)
      let s := { s with trans := none, rising := [], falling := [], sleepAt := s.now }
      let s := if m = 2 && !s.domOn 18 then s.domUp 18 else s
      let s := if m = 2 then repeatN 14 (fun d s => if 5 ≤ d ∧ s.domen d ∧ s.domOn d = false then s.domUpWiped d else s) s else s
      let s := s.enterMode m
      let s := off.foldl (fun s d => if s.domOn d then s.domDown d (m == 1) else s) s
      match s.woke with
      | some (c, p) => s.wake c p
      | none => s

/-- A request carried out in the ec of an escalation counts as discarded (R527). -/
def State.reqBeaten (s : State) : State :=
  match s.reqAt with
  | some (t, old) =>
    if t = s.now then (if old % 16 = 8 then s.setRegN .PMU_MODE 0 old else s.setFld F.PMU_MODE_PREV 0 (old % 16)).modeErr 6 else s
  | none => s

/-- The mode outcome of an escalation (R527, R562). -/
def State.escalate (s : State) : State :=
  let s := { s with escAt := s.now + 1 }
  match s.mode with
  | 2 => if s.trans = some 8 then s else { s.dropTrans with trans := some 8 }.warmExit
  | 5 => ((s.dropTrans.dropReq).enterMode 8).reqBeaten
  | 6 => s.enterMode 8
  | 7 => s.enterMode 8
  | 8 => s.reqBeaten
  | 9 => (s.enterMode 8).reqBeaten
  | 10 => (s.enterMode 8).reqBeaten
  | _ => s

/-! Frame boundaries and origins (R133, R134, R525 to R527, R314). -/

/-- The next frame boundary: a request that waits is carried out and prevails over a switch; otherwise the bank goes on (R526). -/
def State.frameBoundary (s : State) : State :=
  if !s.bankOn || !s.inRun then s
  else
    let t := s.nextBoundary
    let s := match s.sched.pend with
      | .switch _ asked => if s.switchAt asked - 4 < t then s.switchCheck else s
      | _ => s
    match s.modeReq with
    | some m =>
      let s := ((s.reach t).lodFlipAll t).emit 0x9E0 t 4 none
      { s.setFld F.PMU_MODEREQ_PEND 0 0 with modeReq := none, reqAt := some (s.now, s.regN .PMU_MODE 0) }.enterMode m
    | none => (s.schBoundary t).msrWatch

/-- The origin of an accepted start (R133, R525): the bank becomes active and the device enters RUN. -/
def State.planOrigin (s : State) : State :=
  match s.sched.pend with
  | .start b o =>
    if s.mode ≠ 5 then s
    else
      let s := ((s.schActivate b o).lodFlipAll o).emit 0x9E0 o 4 none
      let s := { s with trans := none }.setMode (if s.degraded then 7 else 6)
      s.epRefreshAll.msrWatch
  | _ => s

/-! Resets (R538 to R540, R544). -/

/-- The bits of a register that a reset other than power-on leaves (R326, R534, R540, R557, R575): those marked as kept, the event
fabric's, and those that show a condition the reset does not end. -/
def keepMask (k : Nat) : Nat :=
  if keyBlock k = 3 then 2 ^ 32 - 1
  else if [Reg.PMU_SWCNT, .PMU_REGSTAT, .RST_OLSTAT, .SAF_PEND, .SAF_FIRST, .SAF_FIRSTL, .SAF_FIRSTH, .SAF_CCNT, .GPIO_INA, .GPIO_INB,
    .GPIO_INC].any (fun r => keyOf r k) then 2 ^ 32 - 1
  else if keyOf .PMU_STAT k then 0x10160
  else if keyOf .SAF_STAT k then 0xF
  else if keyOf .FLT_SRCE k then 0x80
  else if keyOf .PMU_DOMSTAT k then 1
  else 0

/-- The registers that a reset other than power-on leaves. [DEDUCED, log entry 53] -/
def keepRegs (t : Tab Word) : Tab Word :=
  t.foldr (fun p kept => Tab.put regDefault kept p.1 (p.2 &&& BitVec.ofNat 32 (keepMask p.1))) []

/-- The state outside the memories and the registers that every reset clears. -/
def State.clearUnits (s : State) : State :=
  { s with
    eng := s.eng.map (fun (p : Nat × Eng) => (p.1, p.2.reset)), phys := [], rx := [], msgs := [], wstores := [], sched := .init, almLate := [],
    eps := [], notes := [], window := none, convs := [], rots := [], nets := [], fltWas := [], cmps := [], sdis := [], poss := [], flipAt := [],
    flights := [], beaten := [], dlks := [], sup := [], dma := [], rdc := none, joins := [], scrubs := [], laps := [], wipe := none, snaps := [], posts := [], staged := [], gports := [],
    greqs := [], rgot := [], dreply := none, sync := .init, spiAt := none, reply := none, spiOut := [], msix := none, meas := none, measWas := none,
    rail := 0, modeReq := none, trans := none,
    rising := [], falling := [], woke := none, block := none, escDue := [], snsOff := 0, ports := [], extest := false, latch := [],
    escAt := 0, reqAt := none, tcmKept := false, counted := [] }

/-- The reset sources that assert in the ec of another (R539, R541, R560): the watchdog that reaches 0, and an escalation whose time is
over. -/
def State.alsoResets (s : State) : List Nat :=
  (if s.flag F.RST_WDCTL_EN 0 && decide (1 < s.mode) && s.wdAt == s.now then [4] else []) ++ (if s.escDue.contains s.now then [5] else [])

/-- A reset with a cause (R538 to R540, R544), the lowest of those of its ec (R539): a power-on resets every domain, any other source every domain except AON.
[DEDUCED, log entry 53 and DESIGN CHOICE, log entry 54] -/
def State.deviceReset (s : State) (cause : Nat) : State :=
  let again := decide (s.mode = 3) && s.boot != .hold
  let cause := s.alsoResets.foldl min cause
  let s := s.flashReset
  let s := { s with
    sq := s.sq.map (fun (p : Nat × Square) => (p.1, { p.2 with fo := .idle, rotEng := 0 }))
    mem := s.mem.filter (fun p => !(mbxAddr 0 ≤ p.1 && p.1 < mbxAddr 0 + 0x8000))
    regs := keepRegs s.regs, boot := .hold }.clearUnits
  let s := (s.clearInputs 0).clearInputs 1
  let s := s.setFld F.RST_CAUSE_CAUSE 0 cause
  if again then s.bump F.RST_OLSTAT_RESTARTS F.RST_OLSTAT_SAT 0 else s

/-- VAON rises (R538): power-on, with VMAIN and VBKP in range as given (R515). The flash die, the option area, the balls and the
commands that wait are what a power-on leaves. -/
def State.powerOn (s : State) (main bkp : Bool) : State :=
  let s := s.flashReset
  { State.reset with
    mem := s.mem.filter (fun p => p.1 < 0x10000000), chk := s.chk.filter (fun p => 8 * p.1 < 0x10000000), banks := s.banks, opt := s.opt,
    life := s.life, straps := s.straps, safen := s.safen, free := s.free, pending := s.pending, supply := ⟨main, bkp, main, false, !main⟩ }

/-- VHOLD falls below 8.0 V (R518, R538). -/
def State.brownOut (s : State) : State := { s with supply := { s.supply with hold := false } }.deviceReset 2

/-- The reset hold ends (R538, R550): AON is released, BOOTSEL is sampled, and after a power-on the level of SAFEN begins its
interval (R565). -/
def State.holdEnd (s : State) (bootsel : Bool) : State :=
  if s.boot ≠ .hold then s
  else
    let fresh := !s.domOn 0
    let s := { (s.setDom 0 true).setFld F.RST_BOOTSTAT_BOOTSEL 0 (b2n bootsel) with boot := .release 1 }
    if fresh then { s.setFld F.SAF_STAT_SAFENLOW 0 (b2n (!s.safen)) with safenAt := if s.safen then none else some s.now } else s

/-! Option load and the release of the domains (R543 to R546). -/

/-- The order of R545. -/
def releaseOrder : List Nat := [0, 1, 2, 3, 4, 13, 5, 6, 7, 8, 9, 10, 11, 12, 14, 15, 16, 17, 18, 19]

/-- The domains that hold SRAM. -/
def sramDoms : List Nat := [4, 5, 6, 7, 8, 9, 10, 11, 12, 13]

/-- The next domain leaves reset (R545); after FLASH option load follows, after GENIO the wipe, which spares the TCMs of pair 0 on a
wake from DEEP SLEEP (R429). -/
def State.domainRelease (s : State) : State :=
  match s.boot with
  | .release n =>
    let s := s.domUp (releaseOrder.getD n 19)
    if n = 3 then { s with boot := .load }
    else if 19 ≤ n then { s with boot := .wipe }.beginWipe sramDoms s.tcmKept
    else { s with boot := .release (n + 1) }
  | _ => s

/-- The watchdog's expiry from now on (R541). [DESIGN CHOICE, log entry 59] -/
def State.wdLoad (s : State) : State := { s with wdAt := s.now + max 1 (s.fld F.RST_WDCTL_PERIOD 0) * 1280000 }

/-- The watchdog's reset state, then what option row 0 says of it (R541, R551). -/
def State.wdBoot (s : State) : State :=
  let s := s.setReg .RST_WDCTL 0 (regDefault (Reg.RST_WDCTL.key 0))
  if bit 3 (s.optLoad 0 0) then s
  else ((s.setFld F.RST_WDCTL_PERIOD 0 (bits 15 0 (s.optLoad 0 3))).setFld F.RST_WDCTL_EN 0 1).wdLoad

/-- LCS.STATE and DEVTAG as option load gives them (R543, R557). -/
def State.lcsLoad (s : State) : State :=
  let keys := (List.range 16).flatMap (fun r => (List.range 8).flatMap (fun w => leBytes 4 (s.optLoad (48 + r) w)))
  let tag := Config.sha384 keys
  (s.setRegN .LCS_STATE 0 (s.life.1 + s.life.2 * 8)).setPair .LCS_DEVTAGL .LCS_DEVTAGH 0 (tag % 2 ^ 64)

/-- The life-cycle state in force (R553). -/
def State.lcState (s : State) : Nat := s.fld F.LCS_STATE_ST 0

/-- Every domain powered and a wipe begun, in LIFE-CYCLE TRANSITION (R524, R553). -/
def State.lcEnter (s : State) : State :=
  let s := s.enterMode 11
  let s := { s with trans := none, rising := [], falling := [], boot := .done }
  (repeatN 20 (fun i s => if s.domOn (releaseOrder.getD i 0) then s else s.domUp (releaseOrder.getD i 0)) s).beginWipe sramDoms false

/-- Option load completes (R543, R545, R554): `bad` names the items that failed their check bits, as `State.optBad` does,
and `badLife` the life-cycle field. [DESIGN CHOICE, log entry 27 and DEDUCED, log entry 67] -/
def State.optionLoaded (s : State) (bad : BitVec 136) (badLife : Bool) : State :=
  if s.boot ≠ .load ∨ s.flag F.CLK_STAT_SUPLOCK 0 = false then s
  else
    let s : State := { s with optBad := bad }
    let s := if bad = 0 then s else s.setFld F.RST_STAT_OLERR 0 1
    let s : State := repeatN 2 (fun k s => if s.itemBad (134 + k) then s.modFbank k (fun x => { x with abn := [] }) else s) s
    let s : State := s.lcsLoad.wdBoot
    let s := if badLife then (s.setRegN .LCS_STATE 0 0).setFld F.RST_STAT_OLERR 0 1 else s
    let s : State := repeatN 66 (fun i s => let (v, s) := s.takeFree; s.setFld F.RDC_WDATA_INIT i v) s
    if s.lcState < s.fld F.LCS_STATE_RQ 0 then s.lcEnter
    else { s.setMode 4 with boot := .release 4 }

/-- The wipe under way completes (R429, R430): in BRING-UP and LIFE-CYCLE TRANSITION with its effect on the blocks; boot
verification follows in BRING-UP. [DEDUCED, log entry 52] -/
def State.wipeDone (s : State) : State :=
  if s.wipe.isNone then s
  else
    let s := s.endWipe
    if s.boot = .wipe then { s.wipeBlocks.rstMsr.domSettle with boot := .verify }
    else if s.mode = 11 then s.wipeBlocks.rstMem.rstMsr.domSettle
    else s

/-! Boot verification (R547 to R551). -/

/-- Whether n bytes at the start of a bank cannot be read for verification (R548). -/
def State.bootUnread (s : State) (k n : Nat) : Bool :=
  (List.range (n / 32)).any (fun i => s.flashBad k (32 * i)) || (s.fbank k).abn.any (fun x => x * 0x20000 < n)

/-- The header check of R547. -/
def State.bootHeader (s : State) (k : Nat) : Bool :=
  let at_ (o n : Nat) : Nat := s.peek (bankBase k + o) n
  let size := at_ 8 4
  let entry := at_ 0xC 4
  at_ 0 4 == 0x5442594B && at_ 4 2 == 1 && at_ 6 1 < 4 && at_ 7 1 == 0 && size % 32 == 0 && decide (0x200 ≤ size) && decide (size ≤ 0x200000) &&
    entry % 4 == 0 && decide (0x100 ≤ entry) && decide (entry < size) && at_ 0x10 112 == 0 && at_ 0xE0 32 == 0

/-- The result of verifying a twin (R548), coded as FAILACT: 0 for accepted. -/
def State.bootVerify (s : State) (k : Nat) : Nat :=
  let size := s.peek (bankBase k + 8) 4
  if s.bootUnread k 0x100 then 4
  else if !s.bootHeader k then 1
  else match s.flashKey (s.peek (bankBase k + 6) 1) with
    | none => 2
    | some (x, y) =>
      if s.bootUnread k size then 4
      else
        let digest := Config.sha384 (s.bytes (bankBase k) 0x80 ++ s.bytes (bankBase k + 0x100) (size - 0x100))
        if Config.ecdsaOk (x + y * 2 ^ 384) digest (s.peek (bankBase k + 0x80) 48) (s.peek (bankBase k + 0xB0) 48) then 0 else 3

/-- Logical pair j starts at an address (R549, R551): both its cores from the state after reset. [DEDUCED, log entry 57] -/
def State.startPair (s : State) (j pc : Nat) : State :=
  let p := bits (3 * j + 2) (3 * j) (s.fld F.RDC_PMAP_PAIR 0)
  let one (k : Nat) (s : State) : State :=
    ((s.setCore k { Sup.init with pc := pc, key := (s.core k).key + 1 }).setFld F.SUP_STAT_STATE k 0).setFld F.SUP_STAT_DFAULT k 0
  one (2 * p + 1) (one (2 * p) s)

/-- The results recorded, and logical pair 0 started or held (R548 to R550). -/
def State.bootResult (s : State) (result act oth pc : Nat) : State :=
  let s := ((s.setFld F.RST_BOOTSTAT_RESULT 0 result).setFld F.RST_BOOTSTAT_FAILACT 0 act).setFld F.RST_BOOTSTAT_FAILOTH 0 oth
  let s := { s with boot := .done }
  if s.flag F.RST_BOOTSTAT_BOOTSEL 0 && (s.lcState == 1 || s.lcState == 3) then s.setFld F.RST_BOOTSTAT_HELD 0 1
  else if result = 3 then s
  else s.startPair 0 pc

/-- Boot verification ends (R548 to R550, R555): in BLANK none runs and pair 0 is held, in END no core ever starts.
[DEDUCED, log entry 67] -/
def State.bootDone (s : State) : State :=
  if s.boot ≠ .verify ∨ s.lcState = 4 then s
  else if s.lcState = 0 then { (s.setFld F.RST_BOOTSTAT_SKIPPED 0 1).setFld F.RST_BOOTSTAT_HELD 0 1 with boot := .done }
  else
    let k := s.activeTwin
    let a := s.bootVerify k
    if a = 0 then s.bootResult 1 0 0 (0x10000000 + s.peek (bankBase k + 0xC) 4)
    else if !bit 2 (s.optLoad 0 0) then s.bootResult 3 a 0 0
    else
      let o := s.bootVerify (1 - k)
      if o = 0 then s.bootResult 2 a 0 (bankBase (1 - k) + s.peek (bankBase (1 - k) + 0xC) 4) else s.bootResult 3 a o 0

/-- A write of CSTART (R551): bits 1 to 3 from ring 0, bit 0 from the debug port while pair 0 is held. [DEDUCED, log entry 57] -/
def State.cstart (s : State) (v ring : Nat) (debug : Bool) : State :=
  let pc := s.pair .RST_CENTRYL .RST_CENTRYH 0 / 4 * 4
  let s := repeatN 3 (fun i s =>
    if bit (i + 1) v && ring == 0 && !bit (i + 1) (s.fld F.RST_CSTART_START 0) && s.alive 4 then
      (s.setFld F.RST_CSTART_START 0 (setBits (i + 1) 1 1 (s.fld F.RST_CSTART_START 0))).startPair (i + 1) pc
    else s) s
  if bit 0 v && debug && s.flag F.RST_BOOTSTAT_HELD 0 then
    ((s.setFld F.RST_CSTART_START 0 (setBits 0 1 1 (s.fld F.RST_CSTART_START 0))).setFld F.RST_BOOTSTAT_HELD 0 0).startPair 0 pc
  else s

/-! Watchdog, software reset, single-block reset (R541, R542, R552). -/

/-- A discarded write of RST (R557). -/
def State.rstWerr (s : State) : State := s.setFld F.RST_STAT_WERR 0 1

/-- The watchdog reaches 0 (R541). -/
def State.wdExpire (s : State) : State :=
  if !s.flag F.RST_WDCTL_EN 0 || s.mode ≤ 1 then s else (s.reach s.wdAt).deviceReset 4

/-- A write of WDKICK (R541). -/
def State.wdKick (s : State) (v : Nat) : State := if v = 0xC35A then s.wdLoad else s.deviceReset 4

/-- A write of WDCTL (R541, R557): EN sets and stays. -/
def State.wdCtl (s : State) (v : Nat) : State :=
  let was := s.flag F.RST_WDCTL_EN 0
  let s := s.setFld F.RST_WDCTL_PERIOD 0 (bits 31 16 v)
  if bit 0 v && !was then (s.setFld F.RST_WDCTL_EN 0 1).wdLoad else s

/-- A write of SWRST (R542). -/
def State.swRst (s : State) (v ring : Nat) : State := if ring = 0 ∧ v = 0xD1E5 then s.deviceReset 6 else s.rstWerr

/-- A debug reset, in the states of R555. -/
def State.debugReset (s : State) : State :=
  if s.alive 19 && (s.lcState == 0 || s.lcState == 1 || s.lcState == 3) then s.deviceReset 8 else s

/-- A RESET frame for this device (R496). -/
def State.remoteReset (s : State) : State := if s.flag F.HIF_CTL_RRSTEN 0 then s.deviceReset 7 else s

/-- A write of BLKCTL (R552). -/
def State.blkCtl (s : State) (v : Nat) : State :=
  let code := bits 6 0 v
  if bit 7 v && (decide (0x63 < code) || s.flag F.RST_BLKSTAT_BUSY 0 || (s.inRun && code < 0x5B)) then s.rstWerr
  else
    let s := (s.setFld F.RST_BLKCTL_BLOCK 0 code).setFld F.RST_BLKCTL_BLKTO 0 (bits 31 16 v)
    if bit 7 v then { s.setFld F.RST_BLKSTAT_BUSY 0 1 with block := some code } else s

/-- The effect of a single-block reset (R552). -/
def State.rstBlock (s : State) (code : Nat) : State :=
  if code < 0x40 then s.rstSquare code
  else if code < 0x48 then s.rstGroup (code - 0x40)
  else if code < 0x54 then s.rstCmp (code - 0x48)
  else match code with
    | 0x54 => s.rstEp
    | 0x55 => s.rstFlt
    | 0x56 => s.rstSdi
    | 0x57 => s.rstPos
    | 0x58 => s.rstLode false
    | 0x59 => s.rstFabric
    | 0x5A => s.rstDlk
    | 0x5B => s.rstDma
    | 0x5C => s.rstMem
    | 0x5D => s.flashReset
    | 0x5E => s.rstMsr
    | 0x5F => s.rstHif
    | _ => s.rstGdn (code - 0x60)

/-- The block is idle or its time is over, and it is reset (R552). -/
def State.blockDone (s : State) (idle : Bool) : State :=
  match s.block with
  | none => s
  | some code =>
    let s := ({ s with block := none }.rstBlock code).domSettle
    ((s.setFld F.RST_BLKSTAT_BUSY 0 0).setFld F.RST_BLKSTAT_DONE 0 1).setFld F.RST_BLKSTAT_IDLE 0 (b2n idle)

/-! Life cycle (R553, R554). -/

/-- A write of LCS.CMD (R554). -/
def State.lcsCmd (s : State) (v ring : Nat) : State :=
  let target := bits 2 0 v
  if bits 31 16 v ≠ 0xA5C3 ∨ ring ≠ 0 ∨ (s.mode ≠ 5 ∧ s.mode ≠ 9) then s
  else if target ≤ s.lcState ∨ 4 < target ∨ s.fst 0 0 = true ∨ s.fst 1 0 = true then s.setFld F.LCS_STAT_ERR 0 1
  else { s.setFld F.LCS_STATE_RQ 0 target with life := (s.life.1, target) }.lcEnter

/-- Option rows 48 to 63 given by a function of row and word. [DESIGN CHOICE, log entry 107] -/
def State.setKeys (s : State) (f : State → Nat × State) : State :=
  repeatN 128 (fun i s => let (v, s) := f s; s.setOpt (48 + i / 8) (i % 8) v) s

/-- The life-cycle change completes (R553): from step 2 to the reset. [DESIGN CHOICE, log entry 107] -/
def State.lcFinish (s : State) : State :=
  if s.mode ≠ 11 then s
  else
    let s := s.wipeDone
    let t := s.fld F.LCS_STATE_RQ 0
    let s := if t = 1 then s.setKeys (fun s => let (v, s) := s.takeFree; (v % 2 ^ 32, s))
      else if t = 3 ∨ t = 4 then s.setKeys (fun s => (0, s))
      else s
    let s := (s.modFbank 0 (fun x => { x with locks := [] })).modFbank 1 (fun x => { x with locks := [] })
    { s with life := (t, t) }.deviceReset 9

end Sys2Proof.Machine
end

