-- ==== Sys2Proof/Machine/Finish.lean ====
section
/-! DEFINITION. What ends every command: safety events are counted, recorded and acted on (R558 to R564, R575), and what edge pairs
did reaches comparators, driver links and the redundancy controller. Also the commands of the safety controller (R563, R565). -/

namespace Sys2Proof.Machine

/-! Safety events (R558 to R564). -/

/-- The action of a class (R559, R560); a class 14 below 0b10 acts as 0b10 (R575). -/
def State.actOf (s : State) (c : Nat) : Nat :=
  let a := bits (2 * c + 1) (2 * c) (s.regN .SAF_ACT 0)
  if c = 14 then max a 2 else a

/-- An event counted in its class, and its class pends (R558). -/
def State.safCount (s : State) (c : Nat) : State :=
  (s.bump F.SAF_CCNT_COUNT F.SAF_CCNT_SAT c).setRegN .SAF_PEND 0 (setBits c 1 1 (s.regN .SAF_PEND 0))

/-- The event of the lowest class among some (R564); of one class, the first raised. [DEDUCED, log entry 76] -/
def lowestEvent : List (Nat × Nat) → Option (Nat × Nat)
  | [] => none
  | x :: t => match lowestEvent t with
    | some y => if y.1 < x.1 then some y else some x
    | none => some x

/-- The first-event record takes an event while it is free; of the events of one ec it keeps the lowest class (R558, R564).
[DEDUCED, log entry 76] -/
def State.safFirst (s : State) (c unit : Nat) : State :=
  if !s.flag F.SAF_FIRST_VALID 0 || (s.pair .SAF_FIRSTL .SAF_FIRSTH 0 == s.now && decide (c < s.fld F.SAF_FIRST_CLASS 0)) then
    (s.setRegN .SAF_FIRST 0 (c + unit % 256 * 2 ^ 4 + 2 ^ 12)).setPair .SAF_FIRSTL .SAF_FIRSTH 0 s.now
  else s

/-- The action that some events of one ec take: the highest ACT among their classes (R560, R564). ESC sets and source 387 asserts
at once, within the bounds of R561. [DESIGN CHOICE, log entry 16] -/
def State.safAct (s : State) (a : Nat) : State :=
  let s := s.setFld F.SAF_STAT_ACTLVL 0 (max a (s.fld F.SAF_STAT_ACTLVL 0))
  if a < 2 then s
  else
    let s := ((s.setFld F.SAF_STAT_ESC 0 1).fltLevel 387 true s.now).escalate
    if a = 3 then { s with escDue := s.escDue ++ [s.now + 1250] } else s

/-- The events raised in this command are counted, recorded and acted on. -/
def State.safEvents (s : State) : State :=
  let l := s.raised
  let s := { s with raised := [] }
  let a := l.foldl (fun m (x : Nat × Nat) => max m (s.actOf x.1)) 0
  let s := l.foldl (fun s (x : Nat × Nat) => s.safCount x.1) s
  let s := match lowestEvent l with
    | some x => s.safFirst x.1 x.2
    | none => s
  s.safAct a

/-! What edge pairs did. -/

/-- One note taken by the blocks it concerns (R231, R233, R345, R346, R418). -/
def State.takeNote (s : State) : Note → State
  | .edge n kind at_ => (s.cmpLinked n).foldl (fun s c => s.cmpEdge c kind (at_ / 128)) (s.dlkMade n kind at_)
  | .load n at_ => (s.cmpLinked n).foldl (fun s c => s.cmpLoad c (at_ / 128)) s
  | .safe n at_ => s.dlkSafe n at_ true
  | .driven n at_ => s.dlkSafe n at_ false
  | .flush n at_ => s.dlkFlush n at_
  | .degr => s.refreshDegr

/-- The notes of this command taken in order. -/
def State.takeNotes (s : State) : State :=
  let l := s.notes
  l.foldl (fun s x => s.takeNote x) { s with notes := [] }

/-- One round: notes, events, then what pairs and a measurement make of both. [DESIGN CHOICE, log entry 3] -/
def State.settleOnce (s : State) : State :=
  if s.raised = [] ∧ s.notes = [] then s else s.takeNotes.safEvents.epRefreshAll.msrWatch

/-- What ends a command. An event or a note may bring further ones; 100 rounds are more than any chain of them has.
[DESIGN CHOICE, log entry 3] -/
def State.finish (s : State) : State :=
  if s.raised = [] ∧ s.notes = [] then s
  else { repeatN 100 (fun _ s => s.settleOnce) s with raised := [], notes := [] }

/-! Commands of the safety controller. -/

/-- A write of SAF.CTL: LOCK sets and is never cleared by a write (R576). -/
def State.safCtl (s : State) (v : Nat) : State :=
  s.setRegN .SAF_CTL 0 (b2n (bit 0 v || s.flag F.SAF_CTL_LOCK 0) + b2n (bit 1 v) * 2)

/-- A write of SAF.ACT (R575). -/
def State.safActWrite (s : State) (v : Nat) : State :=
  let lowers := (List.range 16).any (fun c => decide (bits (2 * c + 1) (2 * c) v < bits (2 * c + 1) (2 * c) (s.regN .SAF_ACT 0)))
  if s.flag F.SAF_CTL_LOCK 0 && lowers then s.setFld F.SAF_STAT_LOCKERR 0 1 else s.setRegN .SAF_ACT 0 v

/-- Whether an acknowledgement is accepted (R563). -/
def State.ackOk (s : State) : Bool :=
  s.safen && (List.range 16).all (fun c => !bit c (s.regN .SAF_PEND 0) || decide (s.actOf c < 2))

/-- A write of 1 to SAF.ACK by software of a ring (R563). -/
def State.safAck (s : State) (ring : Nat) : State :=
  if ring ≠ 0 then s
  else if !s.ackOk then s.setFld F.SAF_STAT_ACKERR 0 1
  else ((s.setFld F.SAF_STAT_ESC 0 0).setFld F.SAF_STAT_ACTLVL 0 0).fltLevel 387 false s.now

/-- A write of 1 to SAF.SWEV.GO (R559). -/
def State.safSwev (s : State) : State := s.raiseEv 0 15 0

/-- The level of SAFEN changes (R565). -/
def State.safenEdge (s : State) (lvl : Bool) : State :=
  if s.safen == lvl then s
  else
    let s := { s with safen := lvl }
    if s.boot = .hold then s
    else { s.setFld F.SAF_STAT_SAFENLOW 0 (b2n (!lvl)) with safenAt := if lvl then none else some s.now }

/-- SAFEN has stayed low for 8 ec, or 2 bc without the engine clock (R565). -/
def State.safenLow (s : State) : State :=
  match s.safenAt with
  | none => s
  | some t => { s.reach (t + if s.engClock then 8 else 625) with safenAt := none }.raiseEv 0 14 0

/-- The safety-escalation reset asserts (R560). [DESIGN CHOICE, log entry 16] -/
def State.escReset (s : State) : State :=
  match s.escDue with
  | [] => s
  | t :: rest => { s.reach t with escDue := rest }.deviceReset 5

/-- FAULTN is driven low (R566). -/
def State.faultnLow (s : State) : Bool := s.flag F.SAF_STAT_ESC 0 || !s.flag F.SAF_CTL_FREADY 0 || s.boot == .hold

end Sys2Proof.Machine
end

