-- ==== Sys2Proof/Machine/Irq.lean ====
section
/-! DEFINITION. Quartz alarms (R26 to R28), and the conditions of the interrupt sources (R385, R386). -/

namespace Sys2Proof.Machine

/-! Alarms. -/

/-- The target of an alarm. -/
def State.almTarget (s : State) (a : Nat) : Nat := s.pair .QTZ_ALML .QTZ_ALMH a

/-- A tick at which an alarm fires late; 0 for none. -/
def State.setAlmLate (s : State) (a t : Nat) : State := { s with almLate := Tab.put (fun _ => 0) s.almLate a t }

/-- A write of ALMxC (R27, R28): the W1C bits clear; arming at a past target fires in the next ec. -/
def State.almCtl (s : State) (a v : Nat) : State :=
  let old := s.regN .QTZ_ALMC a
  let kept := bits 4 2 old - (bits 4 2 old &&& bits 4 2 v)
  let s := s.setRegN .QTZ_ALMC a (v % 4 + kept * 4 + bits 31 8 v * 2 ^ 8)
  if !bit 0 v then s.setAlmLate a 0
  else if !bit 0 old && decide (s.almTarget a ≤ s.now) then s.setAlmLate a (s.now + 1)
  else s

/-- A write of a half of an alarm's target (R28). -/
def State.almWrite (s : State) (a v : Nat) (high : Bool) : State :=
  if s.flag F.QTZ_ALMC_ARM a then s.setFld F.QTZ_ALMC_WERR a 1
  else if high then s.setRegN .QTZ_ALMH a v else s.setRegN .QTZ_ALML a v

/-- An armed alarm fires (R26, R27): in the ec of its target, or late in the ec fixed for it. -/
def State.almFire (s : State) (a : Nat) : State :=
  if !s.alive 2 || !s.flag F.QTZ_ALMC_ARM a then s
  else
    let late := Tab.look (fun _ => 0) s.almLate a
    let target := s.almTarget a
    let t := if late = 0 then target else late
    let s := (s.reach t).setAlmLate a 0
    let s := s.setFld F.QTZ_ALMC_FIRED a 1
    let s := if late = 0 then s else s.setFld F.QTZ_ALMC_LATE a 1
    let per := s.fld F.QTZ_ALMC_PERIOD a
    let s := if per = 0 then s.setFld F.QTZ_ALMC_ARM a 0
      else s.setPair .QTZ_ALML .QTZ_ALMH a (target + ((t - target) / max per 64 + 1) * max per 64)
    s.emit (1 + a) t 2 none

/-! Interrupt sources (R386). -/

/-- Whether a register shows some bit of a mask. -/
def State.anyOf (s : State) (r : Reg) (i mask : Nat) : Bool := s.regN r i &&& mask != 0

/-- The sources 169 to 177 of single blocks (R419, R435, R475, R500, R513, R534, R577). [DEDUCED, log entry 75] -/
def State.irqBlock (s : State) (n : Nat) : Bool :=
  match n with
  | 168 => s.flag F.SCH_LDSTAT_DONE 0 || s.flag F.SCH_LDSTAT_ERR 0 || s.flag F.SCH_STATUS_REFUSED 0
  | 169 => Config.lodIrq (s.regN .LOD_STAT 0)
  | 170 => s.flag F.FLT_STAT_ANY 0
  | 171 => s.flag F.FLC_CTL_IRQEN 0 && (s.anyOf .FLC_STATA 0 (Reg.spec .FLC_STATA).w1c || s.anyOf .FLC_STATB 0 (Reg.spec .FLC_STATB).w1c)
  | 172 => s.anyOf .MEM_STAT 0 (Reg.spec .MEM_STAT).w1c
  | 173 => s.flag F.RDC_STAT_WEARWARN 0
  | 174 => (List.range 16).any (fun c => bit c (s.regN .SAF_PEND 0) && decide (1 ≤ s.actOf c))
  | 175 => s.anyOf .PMU_STAT 0 (Reg.spec .PMU_STAT).w1c || s.anyOf .CLK_STAT 0 (Reg.spec .CLK_STAT).w1c
  | 176 => s.flag F.MSR_CTL_IRQEN 0 && (s.flag F.MSR_STAT_DONE 0 || s.flag F.MSR_STAT_ERR 0)
  | 177 => s.anyOf .HIF_STAT 0 (Reg.spec .HIF_STAT).w1c
  | _ => false

/-- The sources 528 to 635 of the general ports (R595). -/
def State.irqGeneral (s : State) (n : Nat) : Bool :=
  if n < 560 then bit (n - 528) (s.regN .GPIO_IFLAGA 0)
  else if n < 592 then bit (n - 560) (s.regN .GPIO_IFLAGB 0)
  else if n < 624 then bit (n - 592) (s.regN .GPIO_IFLAGC 0)
  else if n < 628 then s.anyOf .PMB_STAT (n - 624) (Reg.spec .PMB_STAT).w1c || s.flag F.PMB_STAT_ALERT (n - 624)
  else if n < 632 then s.anyOf .SPI_STAT (n - 628) (Reg.spec .SPI_STAT).w1c
  else if n = 633 ∨ n = 634 then s.anyOf .UART_STAT (n - 633) (Reg.spec .UART_STAT).w1c
  else false

/-- Whether an interrupt source is pending: its condition holds (R385, R386). A mailbox source pends while the posted result has
not been taken. [DEDUCED, log entry 75] -/
def State.irqPending (s : State) (n : Nat) : Bool :=
  if n < 64 then (List.range 16).any (fun i => s.flag F.EVC_STAT_FLAG (16 * n + i) && s.flag F.EVC_CTL_IRQ (16 * n + i))
  else if n < 72 then s.flag F.QTZ_ALMC_FIRED (n - 64) && s.flag F.QTZ_ALMC_IRQ (n - 64)
  else if n < 104 then s.flag F.DMA_STAT_DONE (n - 72) && s.flag F.DMA_CTL_IRQ (n - 72)
  else if n < 168 then s.flag F.SQ_ABORT_VALID (n - 104) || s.regN .SQ_SLOTSTAT (n - 104) % 2 ^ 24 != 0
  else if n < 178 then s.irqBlock n
  else if n < 182 then s.anyOf .GDN_STAT (n - 178) (Reg.spec .GDN_STAT).w1c
  else if n < 246 then s.anyOf .DLK_STAT (n - 182) (Reg.spec .DLK_STAT).w1c
  else if n < 256 then false
  else if n < 512 then s.flag F.MBX_STAT_READY (n - 256) && s.flag F.MBX_CTL_DIR (n - 256) && s.flag F.MBX_CTL_IRQ (n - 256)
  else if n < 522 then s.flag F.SUP_DOORBELL_RING (n - 512)
  else if n < 528 then false
  else if n < 636 then s.irqGeneral n
  else false

/-- Whether a source reaches a physical core by its TARGET: its logical core, or either core of a pair that runs one stream (R385,
R411). [DEDUCED, log entry 75] -/
def State.irqReaches (s : State) (n k : Nat) : Bool :=
  match s.logicalCore k with
  | none => false
  | some l =>
    let t := s.fld F.SUP_IDATA_TARGET n
    if s.pairMode (l / 2) = 2 then t == l else t / 2 == l / 2

end Sys2Proof.Machine
end

