-- ==== Sys2Proof/Machine/Mbx.lean ====
section
/-! DEFINITION. Mailboxes (R484 to R487, R502), the initiators of R22, and the remote view of a device (R483). -/

namespace Sys2Proof.Machine

/-- The number of an initiator's latches (R22, R483, R486). -/
def Agent.key : Agent → Nat
  | .sup k => k
  | .dma m => 16 + m
  | .host => 64
  | .debug => 65
  | .loader => 66
  | .remote d => 128 + d
  | .lane e => 256 + e

/-- Whether an initiator is the host for what the host owns: the host itself, and a remote initiator, since the host reaches the
mailboxes of other devices through the Gedan links only (R482, R483, R499). -/
def Agent.asHost : Agent → Bool
  | .host => true
  | .remote _ => true
  | _ => false

/-- Whether an initiator is the supervisor for what the supervisor owns: neither the host nor a lane engine, since the plan owns no
resource of R499. -/
def Agent.asSup : Agent → Bool
  | .lane _ => false
  | a => !a.asHost

/-! Mailboxes. A mailbox's payload lies in its read view; LEN and OVW of the current result lie in the header's bytes. -/

/-- Where the staging area of mailbox m lies (R482). -/
def stagingAddr (m : Nat) : Nat := mbxAddr m + 0x4000

/-- The header of a mailbox with a given READY (R484). -/
def State.mbxHeader (s : State) (m : Nat) (ready : Bool) : Nat :=
  s.fld F.MBX_STAT_SEQ m + b2n ready * 2 ^ 16 + s.fld F.MBX_STAT_CONSUMED m * 2 ^ 17 +
    (s.byte (mbxAddr m + 2)).toNat % 2 * 2 ^ 19 + (s.byte (mbxAddr m + 4)).toNat * 2 ^ 32

/-- The 64 bytes of a mailbox as they stand. -/
def State.mbxLive (s : State) (m : Nat) (ready : Bool) : List Byte :=
  leBytes 8 (s.mbxHeader m ready) ++ s.bytes (mbxAddr m + 8) 56

/-- Whether an initiator is the reader of mailbox m (R499). -/
def State.mbxReader (s : State) (a : Agent) (m : Nat) : Bool := if s.flag F.MBX_CTL_DIR m then a.asSup else a.asHost

/-- Whether an initiator is the writer of mailbox m (R485, R499). -/
def State.mbxWriter (s : State) (a : Agent) (m : Nat) : Bool := if s.flag F.MBX_CTL_DIR m then a.asHost else a.asSup

/-- The post of mailbox m in this ec. -/
def State.postNow (s : State) (m : Nat) : Option Posted :=
  match Tab.look (fun _ => none) s.posts m with
  | some p => if p.at_ = s.now then some p else none
  | none => none

/-- The result over which a post of this ec came, taken by a snapshot of the same ec: the post has overwritten nothing (R485, R487). -/
def State.postUnder (s : State) (m : Nat) (p : Posted) : State :=
  let s := { s with posts := Tab.put (fun _ => none) s.posts m (some { p with page := p.left }) }
  if p.page = p.left then s
  else (s.setByte (mbxAddr m + 2) 0).setFld F.MBX_STAT_OVW m (b2n p.ovw)

/-- A snapshot by the reader (R486): the 64 bytes go into its latch, and the first after a post consumes; one in the ec of a post takes the
state before it (R487). -/
def State.mbxSnap (s : State) (a : Agent) (m : Nat) : State :=
  let latch (l : List Byte) (s : State) : State := { s with snaps := Tab.put (fun _ => none) s.snaps a.key (some (m, l)) }
  match s.postNow m with
  | some p => latch p.page (s.postUnder m p)
  | none =>
    let ready := s.flag F.MBX_STAT_READY m
    let s := latch (s.mbxLive m ready) s
    if ready then (s.setFld F.MBX_STAT_READY m 0).setFld F.MBX_STAT_CONSUMED m 1 else s

/-- n bytes of the read view of mailbox m from an offset on (R486). -/
def State.mbxRead (s : State) (a : Agent) (m off n : Nat) : List Byte × State :=
  if s.mbxReader a m then
    let s := if off = 0 then s.mbxSnap a m else s
    match Tab.look (fun _ => none) s.snaps a.key with
    | some (m', l) => ((if m' = m then (l.drop off).take n else ((s.mbxLive m (s.flag F.MBX_STAT_READY m)).drop off).take n), s)
    | none => (((s.mbxLive m (s.flag F.MBX_STAT_READY m)).drop off).take n, s)
  else (((s.mbxLive m false).drop off).take n, s)

/-- The payload of a staging area as it stood before this ec (R485). -/
def State.stagedOld (s : State) (m : Nat) : List Byte :=
  match Tab.look (fun _ => none) s.staged m with
  | some (t, l) => if t = s.now then l else s.bytes (stagingAddr m + 8) 56
  | none => s.bytes (stagingAddr m + 8) 56

/-- Four bytes of a staging area written. -/
def State.stage (s : State) (m a v : Nat) : State :=
  { s with staged := Tab.put (fun _ => none) s.staged m (some (s.now, s.stagedOld m)) }.poke a 4 v

/-- A post recorded for a snapshot of its ec; of two posts in one ec the state before the first counts (R487). -/
def State.postNote (s : State) (m : Nat) : State :=
  if (s.postNow m).isSome then s
  else
    let taken := (s.setFld F.MBX_STAT_READY m 0).setFld F.MBX_STAT_CONSUMED m 1
    let left := if s.flag F.MBX_STAT_READY m then taken.mbxLive m false else s.mbxLive m false
    let p : Posted := ⟨s.now, s.mbxLive m (s.flag F.MBX_STAT_READY m), left, s.flag F.MBX_STAT_OVW m⟩
    { s with posts := Tab.put (fun _ => none) s.posts m (some p) }

/-- A post (R485, R502). [PRESUMED, log entry 63] -/
def State.mbxPost (s : State) (m len : Nat) : State :=
  let was := s.flag F.MBX_STAT_READY m
  let s := (s.postNote m).setBytes (mbxAddr m + 8) (s.stagedOld m)
  let s := (s.setByte (mbxAddr m + 4) (BitVec.ofNat 8 (min len 56))).setByte (mbxAddr m + 2) (BitVec.ofNat 8 (b2n was))
  let s := s.setFld F.MBX_STAT_SEQ m (s.fld F.MBX_STAT_SEQ m + 1)
  let s := (s.setFld F.MBX_STAT_READY m 1).setFld F.MBX_STAT_CONSUMED m 0
  let s := if was then s.setFld F.MBX_STAT_OVW m 1 else s
  if s.flag F.MBX_CTL_IRQ m && !s.flag F.MBX_CTL_DIR m then s.sendIrq (s.devNum * 32 + s.fld F.MBX_CTL_VEC m) else s

/-! The remote view (R483). -/

/-- The local address that a remote-view offset reaches. -/
def viewAddr (o : Nat) : Option Nat :=
  if o < 0x30A00000 then some o
  else if 0x100000000 ≤ o ∧ o < 0x104000000 then some o
  else if 0x180000000 ≤ o ∧ o < 0x184000000 then some (0x200000000 + (o - 0x180000000))
  else if 0x1C0000000 ≤ o ∧ o < 0x1C1000000 then some (0x400000000 + (o - 0x1C0000000))
  else none

/-- The first address of the remote devices (R579). -/
def remoteBase : Nat := 0x8000000000

/-- The device and the view offset of a remote address (R483). -/
def remoteAt (a : Nat) : Nat × Nat := ((a - remoteBase) / 0x200000000, (a - remoteBase) % 0x200000000)

end Sys2Proof.Machine
end

