-- ==== Sys2Proof/Machine/Pairs.lean ====
section
/-! DEFINITION. Supervisor pairs and the commands of the redundancy controller (R411 to R417, R424, R425). A checker in lockstep or
signature mode runs the primary's stream, so its own registers say nothing until it is split; a mismatch of the two is the
happening PAIR_FAULT. -/

namespace Sys2Proof.Machine

/-- A core stopped (R392). -/
def State.stopCore (s : State) (k : Nat) : State := s.setFld F.SUP_STAT_STATE k 3

/-- The physical pair that serves a logical pair (R425). -/
def State.physPair (s : State) (j : Nat) : Nat := bits (3 * j + 2) (3 * j) (s.fld F.RDC_PMAP_PAIR 0)

/-- Where a logical pair starts after a core reset (R549, R551): pair 0 at the ENTRY of the accepted twin, else CENTRY. -/
def State.pairStartAt (s : State) (j : Nat) : Nat :=
  let k := s.activeTwin
  let r := s.fld F.RST_BOOTSTAT_RESULT 0
  if j = 0 ∧ r = 1 then 0x10000000 + s.peek (bankBase k + 0xC) 4
  else if j = 0 ∧ r = 2 then bankBase (1 - k) + s.peek (bankBase (1 - k) + 0xC) 4
  else s.pair .RST_CENTRYL .RST_CENTRYH 0 / 4 * 4

/-- The fault of a physical pair is recorded while no other is (R412, R425). -/
def State.pfault (s : State) (p cause : Nat) (taken : Bool) : State :=
  if s.flag F.RDC_PFAULT_VALID 0 then s else s.setRegN .RDC_PFAULT 0 (p + cause * 2 ^ 3 + b2n taken * 2 ^ 5 + 2 ^ 6)

/-- The retired instructions after which the signatures of a pair are compared: a WINDOW below 256 acts as 256 (R411, R425). -/
def State.sigWindow (s : State) : Nat := max 256 (s.fld F.RDC_SIGWIN_WINDOW 0)

/-- Whether a pair has come to the end of a window, where the checker compares its signatures (R411). [DESIGN CHOICE, log entry 28] -/
def State.sigDue (s : State) (p : Nat) : Bool := decide (s.sigWindow ≤ (s.core (2 * p)).retired)

/-- A mismatch of a pair in lockstep or signature mode (R412): the pair stops, and pair 4 takes over where AUTO lets it. The faulty
pair's self-test ends in QUARANTINE. [DESIGN CHOICE, log entry 28 and DEDUCED, log entry 77] -/
def State.pairFault (s : State) (p cause : Nat) : State :=
  match s.logicalPair p with
  | none => s
  | some j =>
    if !s.alive 4 || s.pairMode j != cause || 1 < cause || s.fld F.SUP_STAT_STATE (2 * p) == 3 || (cause == 1 && !s.sigDue p) then s
    else
      let taken := s.flag F.RDC_CTL_AUTO 0 && s.pairState 4 == 1
      let s := (((s.stopCore (2 * p)).stopCore (2 * p + 1)).raiseEv 4 11 (2 * p)).pfault p cause taken
      if !taken then s
      else
        let s := s.setFld F.RDC_PMAP_PAIR 0 (setBits (3 * j) 3 4 (s.fld F.RDC_PMAP_PAIR 0))
        (((s.setPairState 4 0).setPairState p 3).startPair j (s.pairStartAt j)).refreshDegr

/-! Modes of a pair (R411, R413, R414). -/

/-- The mode of a logical pair given: a window of signature comparison begins (R411). [DESIGN CHOICE, log entry 28] -/
def State.setPairMode (s : State) (j m : Nat) : State :=
  let s := s.setFld F.RDC_PMODE_MODE 0 (setBits (4 * j) 2 m (s.fld F.RDC_PMODE_MODE 0))
  let k := 2 * s.physPair j
  s.setCore k { s.core k with retired := 0 }

/-- The state of the checker of a split pair (R413): from the TSB at an address, and the system registers of the stream that it has run,
which is the primary's (R411). -/
def State.splitCore (s : State) (old : Sup) (a : Nat) : Sup :=
  let regs := repeatN 32 (fun r t => if r = 0 then t else Tab.put (fun _ => 0) t r (BitVec.ofNat 64 (s.peek (a + 8 * r) 8))) []
  let caps := repeatN 8 (fun r t =>
    Tab.put (fun _ => Cap.none) t r ⟨s.tagAt (a + 0x140 + 16 * r), BitVec.ofNat 128 (s.peek (a + 0x140 + 16 * r) 16)⟩) []
  { old.newKey with s := regs, cap := caps, pc := pcOf (s.peek (a + 0x100) 8), pst := setBits 8 1 0 (pstOf (s.peek (a + 0x108) 8)),
                    tsbr := a, xring := [], sb := [], ras := [], btb := [], rep := 0, retired := 0 }

/-- The words of the TSB that a split restores, read as a core reads them: a failed word is logged, and what it restores is a free value
(R413, R434). [DESIGN CHOICE, log entry 28] -/
def State.splitRead (s : State) (a : Nat) : State :=
  repeatN 56 (fun i s =>
    if i = 0 ∨ (34 ≤ i ∧ i < 40) then s
    else
      let (bad, s) := s.portCheck (a + 8 * i) 1 1
      if bad then
        let (v, t) := s.takeFree
        t.poke (a + 8 * i) 8 v
      else s) s

/-- A logical pair becomes split (R413). [DESIGN CHOICE, log entry 28 and DEDUCED, log entry 77] -/
def State.pairSplit (s : State) (j : Nat) : State :=
  let s := s.setPairMode j 2
  let p := s.physPair j
  if s.logicalPair p != some j then s
  else
    let a := s.pair .RDC_SPLITL .RDC_SPLITH 0 / 512 * 512
    let t := s.splitRead a
    let s := { t with mem := s.mem }
    (s.setCore (2 * p + 1) (t.splitCore (t.core (2 * p)) a)).setFld F.SUP_STAT_STATE (2 * p + 1) 0

/-- A split pair is to run one stream again (R414): accepted while its checker awaits it. -/
def State.pairRejoin (s : State) (j m : Nat) : State :=
  if !bit j (s.fld F.RDC_JOIN_READY 0) then s.rdcErr 6
  else { s.setPairMode j m with joins := s.joins ++ [j] }

/-- Whether a pair is between an accepted rejoin and its resumption (R414). -/
def State.joining (s : State) (k : Nat) : Bool := s.joins.any (fun j => s.physPair j == k / 2)

/-- The copy into the checker is complete and both cores resume (R414). -/
def State.pairRejoinDone (s : State) (j : Nat) : State :=
  if !s.joins.contains j then s
  else
    let p := s.physPair j
    let c := { (s.core (2 * p)).newKey with ras := [], btb := [] }
    let s := { s with joins := s.joins.filter (fun x => x != j) }
    let s := s.setFld F.RDC_JOIN_READY 0 (setBits j 1 0 (s.fld F.RDC_JOIN_READY 0))
    ((((s.setCore (2 * p) c).setCore (2 * p + 1) c).setFld F.SUP_STAT_STATE (2 * p) 0).setFld F.SUP_STAT_STATE (2 * p + 1) 0)

/-- One pair's new mode of a PMODE write. -/
def State.pmodeOne (s : State) (j m : Nat) : State :=
  let old := s.pairMode j
  if old = m then s
  else if m = 2 then s.pairSplit j
  else if old = 2 then s.pairRejoin j m
  else s.setPairMode j m

/-- A write of PMODE (R413, R414, R425): a reserved mode or a rejoin whose checker is not ready discards the whole write.
[DEDUCED, log entry 77] -/
def State.pmodeWrite (s : State) (v : Nat) : State :=
  let want (j : Nat) : Nat := bits (4 * j + 1) (4 * j) v
  if (List.range 4).any (fun j => want j == 3) then s.setFld F.RDC_STAT_CMDERR 0 1
  else if (List.range 4).any (fun j => s.pairMode j == 2 && want j != 2 && !bit j (s.fld F.RDC_JOIN_READY 0)) then s.rdcErr 6
  else repeatN 4 (fun j s => s.pmodeOne j (want j)) s

/-! Pair tests (R415). -/

/-- TESTED of a pair given. -/
def State.setPairTested (s : State) (p : Nat) (v : Bool) : State :=
  s.setFld F.RDC_PSTATE_TESTED 0 (setBits p 1 (b2n v) (s.fld F.RDC_PSTATE_TESTED 0))

/-- TESTPAIR. [DEDUCED, log entry 77] -/
def State.rdcTestPair (s : State) (p : Nat) : State :=
  if !s.alive 4 then s
  else if s.flag F.RDC_STAT_CMDBUSY 0 then s.rdcErr 5
  else
    let st := s.pairState p
    if 5 ≤ p ∨ !(st = 1 ∨ st = 3 ∨ st = 4) then s.rdcErr 1
    else ((s.setPairState p 2).rdcBegin (.testPair p st)).refreshDegr

/-- A pair's self-test completes: a pass returns it to the state it held and sets TESTED, a fail gives FAILED. -/
def State.rdcTestPairDone (s : State) (pass : Bool) : State :=
  match s.rdc with
  | some (.testPair p before) =>
    let s := if pass then (s.setPairState p before).setPairTested p true else (s.setPairState p 4).setPairTested p false
    s.rdcDone.refreshDegr
  | _ => s

/-- REJOINPAIR. [DEDUCED, log entry 77] -/
def State.rdcRejoinPair (s : State) (p : Nat) : State :=
  if !s.alive 4 then s
  else if s.flag F.RDC_STAT_CMDBUSY 0 then s.rdcErr 5
  else if 5 ≤ p then s.rdcErr 1
  else if !bit p (s.fld F.RDC_PSTATE_TESTED 0) then s.rdcErr 2
  else (((s.setPairState p 1).stopCore (2 * p)).stopCore (2 * p + 1)).setFld F.RDC_STAT_CMDDONE 0 1 |>.refreshDegr

/-- A write of RDC.CMD (R415, R424); the ERRCODE of a command that the table does not list is open.
[DESIGN CHOICE, log entry 78 and DEDUCED, log entry 103] -/
def State.rdcCmd (s : State) (v : Nat) : State :=
  let sq := bits 9 4 v
  let n := bits 13 10 v
  match bits 3 0 v with
  | 1 => s.rdcTest sq n
  | 2 => s.rdcRejoin sq n (bit 14 v) (bits 17 15 v) (bits 21 18 v)
  | 3 => s.refreshGo sq
  | 4 => s.rdcTestPair n
  | 5 => s.rdcRejoinPair n
  | _ =>
    if s.flag F.RDC_STAT_CMDBUSY 0 then s.rdcErr 5
    else
      let (e, s) := s.takeFree
      s.rdcErr (e % 16)

/-! Steering on a readback fault (R417). -/

/-- With STEERAUTO, the controller steers the reserve of a pair in RBFAULT; a refused steering sets CMDERR. [DEDUCED, log entry 79] -/
def State.steerAuto (s : State) (p : Nat) : State :=
  if !s.alive 4 || !s.flag F.RDC_CTL_STEERAUTO 0 || !s.flag F.EP_STAT_RBFAULT p then s
  else if 192 ≤ p then s.rdcErr 1
  else
    let g := p / 16
    let was := s.flag F.EP_STEER_ERR g
    let s := (s.setFld F.EP_STEER_ERR g 0).epSteer g (p % 16 + 16)
    if s.flag F.EP_STEER_ERR g then s.rdcErr 1 else s.setFld F.EP_STEER_ERR g (b2n was)

end Sys2Proof.Machine
end

