-- ==== Sys2Proof/Machine/Ports.lean ====
section
/-! DEFINITION. The general ports (R498, R595, R600), and the balls they and others drive: HIRQN (R601), the states of R602, and
boundary scan (R605). -/

namespace Sys2Proof.Machine

/-- A general port: PMB n at n, SPI n at 4 + n, UART n at 8 + n. -/
def State.port (s : State) (q : Nat) : Port := Tab.look (fun _ => Port.init) s.ports q
/-- A port given a state. -/
def State.setPort (s : State) (q : Nat) (x : Port) : State := { s with ports := Tab.put (fun _ => Port.init) s.ports q x }

/-- The status register of a port, with its instance. -/
def portStat (q : Nat) : Reg × Nat := if q < 4 then (.PMB_STAT, q) else if q < 8 then (.SPI_STAT, q - 4) else (.UART_STAT, q - 8)

/-- OVR of a port sets. -/
def State.portOvr (s : State) (q : Nat) : State :=
  if q < 4 then s.setFld F.PMB_STAT_OVR q 1 else if q < 8 then s.setFld F.SPI_STAT_OVR (q - 4) 1 else s.setFld F.UART_STAT_OVR (q - 8) 1

/-- BUSY of a controller, TXFULL and RXVALID of a UART follow the queues. -/
def State.portShow (s : State) (q : Nat) : State :=
  let x := s.port q
  if q < 4 then s.setFld F.PMB_STAT_BUSY q (b2n (!x.tx.isEmpty))
  else if q < 8 then s.setFld F.SPI_STAT_BUSY (q - 4) (b2n (!x.tx.isEmpty))
  else (s.setFld F.UART_STAT_TXFULL (q - 8) (b2n (decide (16 ≤ x.tx.length)))).setFld F.UART_STAT_RXVALID (q - 8) (b2n (!x.rx.isEmpty))

/-- A write of TXDATA: queued, or discarded with OVR where the queue is full. [DEDUCED, log entry 84] -/
def State.portTx (s : State) (q v : Nat) : State :=
  if !s.alive 19 then s
  else
    let x := s.port q
    let w := if q < 4 then 12 else if q < 8 then 9 else 8
    if 16 ≤ x.tx.length then s.portOvr q else (s.setPort q { x with tx := x.tx ++ [v % 2 ^ w] }).portShow q

/-- RXDATA as it reads: the oldest byte received, with VALID. -/
def State.portRx (s : State) (q : Nat) : Nat :=
  match (s.port q).rx with
  | b :: _ => b % 256 + 256
  | [] => 0

/-- The byte that a read of RXDATA returned leaves the queue. [DEDUCED, log entry 84] -/
def State.portPop (s : State) (q : Nat) : State := (s.setPort q { s.port q with rx := (s.port q).rx.tail }).portShow q

/-- Whether a port is enabled. -/
def State.portOn (s : State) (q : Nat) : Bool :=
  if q < 4 then s.flag F.PMB_CTL_EN q else if q < 8 then s.flag F.SPI_CTL_EN (q - 4) else s.flag F.UART_CTL_EN (q - 8)

/-- The error flags of a byte: NACK, of a controller ARBLOST and with PEC a packet error of a PMB port; with a parity bit PARERR, and
FRAMEERR, of a UART. [DEDUCED, log entry 84] -/
def State.portErr (s : State) (q errs : Nat) : State :=
  let set (f : Fld) (i k : Nat) (able : Bool) (s : State) : State := if bit k errs && able then s.setFld f i 1 else s
  if q < 4 then
    set F.PMB_STAT_PECERR q 2 (s.flag F.PMB_CTL_PEC q) (set F.PMB_STAT_ARBLOST q 1 (!s.flag F.PMB_CTL_TGT q) (set F.PMB_STAT_NACK q 0 true s))
  else if q < 8 then s
  else
    let p := s.fld F.UART_CTL_PARITY (q - 8)
    set F.UART_STAT_FRAMEERR (q - 8) 1 true (set F.UART_STAT_PARERR (q - 8) 0 (p == 1 || p == 2) s)

/-- Whether a port takes a byte from its line: a PMB controller only where the transmit byte that completes asks for a read, an SPI
controller only while it clocks a transmit byte; a PMB target and a UART at any time (R498, R595). [DEDUCED, log entry 84] -/
def State.portTakes (s : State) (q : Nat) (sent : Bool) : Bool :=
  match (s.port q).tx with
  | v :: _ => if q < 4 then s.flag F.PMB_CTL_TGT q || (sent && bit 10 v) else if q < 8 then sent else true
  | [] => if q < 4 then s.flag F.PMB_CTL_TGT q else decide (8 ≤ q)

/-- A port completes its oldest transmit byte, or receives a byte, or both: DONE of a controller sets, and a byte received is queued
or discarded with OVR. `alert` is the level of SMBALERT# of a PMB port (true: low). [DEDUCED, log entry 84] -/
def State.portByte (s : State) (q : Nat) (sent : Bool) (got : Option Nat) (errs : Nat) (alert : Bool) : State :=
  let s := if q < 4 ∧ s.alive 19 = true then s.setFld F.PMB_STAT_ALERT q (b2n alert) else s
  if !s.alive 19 || !s.portOn q then s
  else
    let x := s.port q
    let got := if s.portTakes q sent then got else none
    let s := if sent && !x.tx.isEmpty then
        let s := s.setPort q { x with tx := x.tx.tail }
        if q < 4 then s.setFld F.PMB_STAT_DONE q 1 else if q < 8 then s.setFld F.SPI_STAT_DONE (q - 4) 1 else s
      else s
    let s := s.portErr q errs
    let s := match got with
      | some b => let x := s.port q
        if 16 ≤ x.rx.length then s.portOvr q else s.setPort q { x with rx := x.rx ++ [b % 256] }
      | none => s
    s.portShow q

/-! GPIO. -/

/-- The registers of a letter: DIR, OUT, IN, OD, IFLAG. -/
def gpioRegs (l : Nat) : Reg × Reg × Reg × Reg × Reg :=
  match l with
  | 0 => (.GPIO_DIRA, .GPIO_OUTA, .GPIO_INA, .GPIO_ODA, .GPIO_IFLAGA)
  | 1 => (.GPIO_DIRB, .GPIO_OUTB, .GPIO_INB, .GPIO_ODB, .GPIO_IFLAGB)
  | _ => (.GPIO_DIRC, .GPIO_OUTC, .GPIO_INC, .GPIO_ODC, .GPIO_IFLAGC)

/-- IMODE of a pin. -/
def State.gpioMode (s : State) (x : Nat) : Nat :=
  let r : Reg := match x / 16 with
    | 0 => .GPIO_IMODEA | 1 => .GPIO_IMODEB | 2 => .GPIO_IMODEC | 3 => .GPIO_IMODED | 4 => .GPIO_IMODEE | _ => .GPIO_IMODEF
  bits (2 * (x % 16) + 1) (2 * (x % 16)) (s.regN r 0)

/-- Whether a pin carries an alternate function of R600. -/
def State.gpioAlt (s : State) (x : Nat) : Bool :=
  (x < 12 && s.flag F.SPI_CTL_EN (x / 3)) ||
    (12 ≤ x && x < 16 && s.flag F.UART_CTL_EN ((x - 12) / 2) && s.flag F.UART_CTL_RTSCTS ((x - 12) / 2))

/-- Whether GPIO drives a pin, and the level: an open-drain output drives low only. -/
def State.gpioDrives (s : State) (x : Nat) : Option Bool :=
  let (d, o, _, od, _) := gpioRegs (x / 32)
  let k := x % 32
  let out := bit k (s.regN o 0)
  if s.gpioAlt x || !bit k (s.regN d 0) then none
  else if bit k (s.regN od 0) && out then none
  else some out

/-- The level at a GPIO ball: what GPIO drives, else the level that IN last took from outside. -/
def State.gpioLevel (s : State) (x : Nat) : Bool :=
  match s.gpioDrives x with
  | some v => v
  | none => bit (x % 32) (s.regN (gpioRegs (x / 32)).2.2.1 0)

/-- IN of a letter as it reads. [DEDUCED, log entry 84] -/
def State.gpioIn (s : State) (l : Nat) : Nat :=
  (List.range 32).foldl (fun n k => n + b2n (s.gpioLevel (32 * l + k)) * 2 ^ k) 0

/-- A pin's interrupt condition judged on a change of its level (R595). -/
def State.gpioJudge (s : State) (x : Nat) (old : Bool) : State :=
  let new := s.gpioLevel x
  let met := match s.gpioMode x with
    | 1 => !old && new
    | 2 => old && !new
    | 3 => !new
    | _ => false
  let r := (gpioRegs (x / 32)).2.2.2.2
  if met then s.setRegN r 0 (setBits (x % 32) 1 1 (s.regN r 0)) else s

/-- The ball of a pin takes a level from outside. -/
def State.gpioEdge (s : State) (x : Nat) (lvl : Bool) : State :=
  if !s.alive 19 then s
  else
    let old := s.gpioLevel x
    let r := (gpioRegs (x / 32)).2.2.1
    (s.setRegN r 0 (setBits (x % 32) 1 (b2n lvl) (s.regN r 0))).gpioJudge x old

/-- The pins of a letter whose level a change of the registers moves from what it is now meet their conditions. -/
def State.gpioMoved (s : State) (l : Nat) (t : State) : State :=
  repeatN 32 (fun k u =>
    let x := 32 * l + k
    if u.gpioLevel x == s.gpioLevel x then u else u.gpioJudge x (s.gpioLevel x)) t

/-- A write of a GPIO register of a letter. -/
def State.gpioWrite (s : State) (r : Reg) (l v : Nat) : State := s.gpioMoved l (s.setRegN r 0 v)

/-- A low level seen by every pin whose interrupt asks for it, while it lasts: after its flag was cleared or its condition written
(R498, R595). [DEDUCED, log entry 84] -/
def State.gpioLevels (s : State) : State :=
  repeatN 96 (fun x s => if s.gpioMode x = 3 then s.gpioJudge x (s.gpioLevel x) else s) s

/-! Balls. -/

/-- HIRQN is driven low (R601). -/
def State.hirqnLow (s : State) : Bool :=
  s.alive 18 && (List.range 256).any (fun m => !s.flag F.MBX_CTL_DIR m && s.flag F.MBX_CTL_IRQ m && s.flag F.MBX_STAT_READY m)

/-- The states of R602. -/
inductive Ball where
  | highZ
  | idle
  | pullDown
  | pullUp
  | low
  | input
  | terminated
  | discharged
  | safe
  | active
  deriving DecidableEq, Repr

/-- The ball groups of R602; FAULTN and HIRQN have their own rules. [DEDUCED, log entry 85] -/
inductive BallGroup where
  | ain
  | edge
  | linkTx
  | linkRx
  | sdclk (k : Nat)
  | sense
  | posC (p : Nat)
  | serial
  | general
  | resetWake
  | safenBoot
  | devnum
  | sns
  deriving DecidableEq, Repr

/-- Whether the device is in the Reset column of R602: a reset, OPTION LOAD, BRING-UP or LIFE-CYCLE TRANSITION. [DEDUCED, log entry 85] -/
def State.ballReset (s : State) : Bool := s.boot == .hold || s.mode == 3 || s.mode == 4 || s.mode == 11

/-- The state of a ball group under power (R602); `active` stands for the state that the group's own chapter gives.
[DEDUCED, log entry 85] -/
def State.ball (s : State) (g : BallGroup) : Ball :=
  let sleep := decide (s.mode ≤ 2)
  match g with
  | .ain => if s.ballReset || sleep then .highZ else .input
  | .edge => if s.ballReset then .pullDown else if sleep then .pullDown else if s.inRun then .active else .safe
  | .linkTx => if s.ballReset || sleep || !s.alive 17 then .idle else .active
  | .linkRx => if s.ballReset then .terminated else if sleep then .highZ else .terminated
  | .sdclk k => if s.ballReset || sleep || !s.alive 17 || !s.flag F.SDI_CLK_CEN k then .low else .active
  | .sense => if s.ballReset || sleep || !s.alive 17 then .highZ else .input
  | .posC p => if s.ballReset || sleep || !s.alive 17 then .highZ else if s.fld F.POS_CTL_MODE p = 2 then .active else .input
  | .serial => if s.ballReset || sleep || !s.alive 18 then .idle else .active
  | .general => if s.ballReset then .input else if sleep then .highZ else if s.alive 19 then .active else .input
  | .resetWake => .pullUp
  | .safenBoot => .pullDown
  | .devnum => .pullUp
  | .sns => if s.ballReset then .discharged else if s.mode ≤ 1 then .discharged else .active

/-! Boundary scan (R605). -/

/-- Whether the device accepts a boundary-scan instruction that controls the balls (R555, R605). -/
def State.scanOk (s : State) : Bool := s.mode == 9 || s.flag F.RST_BOOTSTAT_HELD 0

/-- Such an instruction takes control of the balls where it is accepted, or ends. -/
def State.setExtest (s : State) (on : Bool) : State :=
  if !s.alive 19 then s
  else if on then (if s.scanOk then { s.setFld F.DBG_STAT_ATTACHED 0 1 with extest := true } else s)
  else { s with extest := false }

end Sys2Proof.Machine
end

