-- ==== Sys2Proof/Machine/Bus.lean ====
section
/-! DEFINITION. The 40-bit physical map (R579 to R595): reads and writes of registers by field type (R4, R5) and by the rules of their
chapters, ownership (R11 to R14), high-word latches (R22), memories (R426 to R434), flash (R445 to R452) and remote devices (R483). -/

namespace Sys2Proof.Machine

/-- What keeps an access from completing: a refusal under R14, a bus error, failed check bits, or an answer still awaited.
[DESIGN CHOICE, log entry 108] -/
inductive BusErr where
  | refused
  | bus
  | check
  | wait
  deriving DecidableEq, Repr

/-- The initiator code of R444. -/
def Agent.init : Agent → Nat
  | .lane _ => 0
  | .sup _ => 1
  | .dma _ => 2
  | .loader => 4
  | _ => 5

/-- The ring of an agent: only a supervisor core has one; every other agent stands in none that a ring-0 rule admits.
[DEDUCED, log entry 60] -/
def State.agentRing (s : State) : Agent → Nat
  | .sup k => (s.core k).ring
  | _ => 3

/-! Where registers stand. -/

/-- The register at a physical address, selected entries resolved by their selector (R585 to R590). -/
def State.slotAt (s : State) (a : Nat) : Option (Reg × Nat) :=
  if a = 0x400040004 then fltEntry (s.fld F.FLT_TSEL_INDEX 0)
  else if a = 0x400020004 then some (lodWord (s.fld F.LOD_DSEL_INDEX 0 % 8), s.fld F.LOD_DSEL_INDEX 0 / 8)
  else if a = 0x400030004 then some (.EVF_CDATA, s.fld F.EVF_CSEL_INDEX 0)
  else if a = 0x4000F0010 then some (.SUP_IDATA, s.fld F.SUP_ISEL_INDEX 0)
  else if a = 0x400050048 then (if s.fld F.RDC_WSEL_INDEX 0 < 66 then some (.RDC_WDATA, s.fld F.RDC_WSEL_INDEX 0) else none)
  else if a = 0x400060020 then some (.MEM_RDATA, remapEntry (s.fld F.MEM_RSEL_MACRO 0) (s.fld F.MEM_RSEL_ENTRY 0))
  else if a = 0x4000E9014 then some (.HIF_APER, s.fld F.HIF_APERSEL_SLOT 0)
  else if a = 0x400090034 then some (.MSR_SDATA, s.fld F.MSR_SSEL_RAIL 0)
  else if a = 0x400080020 then some (.SAF_CCNT, s.fld F.SAF_CSEL_CLASS 0)
  else regAt a

/-- The power domain of a block of the peripheral space, given the instance that an address lies in (R9, R582). -/
def blockDomain (blk inst : Nat) : Nat :=
  match blk with
  | 0x00 => 2
  | 0x01 => 4
  | 0x02 => 13
  | 0x03 => 0
  | 0x04 => 16
  | 0x05 => 4
  | 0x06 => 4
  | 0x07 => 3
  | 0x08 => 0
  | 0x09 => 1
  | 0x0A => 0
  | 0x0B => 2
  | 0x0C => 0
  | 0x0D => 0
  | 0x0E => 18
  | 0x0F => 4
  | 0x10 => 4
  | 0x11 => 17
  | 0x12 => 17
  | 0x13 => 17
  | 0x14 => cvDom inst
  | 0x15 => anaDom (inst < 36)
  | 0x16 => cmpDom inst
  | 0x17 => 16
  | _ => 19

/-- The power domain of a register address. -/
def addrDomain (a : Nat) : Nat :=
  if a < 0x400000000 then sqDom ((a - sqSpace) / 0x100000) else blockDomain ((a - 0x400000000) / 0x10000) (a % 0x10000 / 0x100)

/-- The code by which a single-block reset names the block of a register address (R552); none where no instance stands (R5). -/
def addrBlockCode (a : Nat) : Option Nat :=
  let inst := a % 0x10000 / 0x100
  if a < 0x400000000 then some ((a - sqSpace) / 0x100000)
  else match (a - 0x400000000) / 0x10000 with
    | 0x02 => some 0x58
    | 0x03 => some 0x59
    | 0x04 => some 0x55
    | 0x06 => some 0x5C
    | 0x07 => some 0x5D
    | 0x09 => some 0x5E
    | 0x0E => if 0x9080 ≤ a % 0x10000 ∧ a % 0x10000 < 0x9100 then some (0x60 + (a % 0x10000 - 0x9080) / 0x20)
              else if 0x9000 ≤ a % 0x10000 then some 0x5F else none
    | 0x10 => some 0x5B
    | 0x11 => some 0x5A
    | 0x12 => some 0x56
    | 0x13 => some 0x57
    | 0x14 => if inst < 64 then some (0x40 + inst / 8) else none
    | 0x15 => if inst < 72 then some (0x40 + inst / 9) else none
    | 0x16 => if inst < 192 then some (0x48 + inst / 16) else if inst < 204 then some (0x48 + (inst - 192)) else none
    | 0x17 => some 0x54
    | _ => none

/-- Whether a register address answers: its domain is powered and no single-block reset of its block is under way (R14, R523,
R552). -/
def State.answers (s : State) (a : Nat) : Bool :=
  s.alive (addrDomain a) && (s.block.isNone || addrBlockCode a != s.block)

/-! Ownership (R187, R216, R250, R285, R307, R324, R325, R499). -/

/-- Whether the plan owns a register. -/
def State.regPlan (s : State) (r : Reg) (i : Nat) : Bool :=
  match keyBlock (r.key i) with
  | 0x17 => r != .EP_STEER && (match s.epLogical i with | some n => s.planOwns 2 n | none => false)
  | 0x14 => r != .CV_ROT && r != .CV_ROTSTAT && s.planOwns 3 i
  | 0x16 => r != .CMP_STEER && (match s.cmpLogical i with | some n => s.planOwns 4 n | none => false)
  | 0x12 => r != .SDI_CLK && s.planOwns 5 i
  | 0x13 => s.planOwns 6 i
  | 0x03 => r == .EVC_CTL && s.planOwns 8 i
  | _ => false

/-- Whether a register belongs to the host (R499). [DEDUCED, log entry 80] -/
def hostReg (r : Reg) : Bool :=
  [Reg.HIF_STAT, .HIF_ERRADDR, .HIF_ERRCNT, .HIF_APERSEL, .HIF_APER, .HIF_UIDL, .HIF_UIDH, .HIF_NUMCMD].contains r

/-- Whether a secure channel keeps a ring from a register of the fabric (R325): its CTL and STAT, and FLAGS of a group that holds
one. [DESIGN CHOICE, log entry 82] -/
def State.secRefused (s : State) (ring : Nat) (r : Reg) (i : Nat) : Bool :=
  ring != 0 && ((r == .EVC_CTL || r == .EVC_STAT) && s.flag F.EVC_CTL_SEC i ||
    r == .EVG_FLAGS && (List.range 16).any (fun k => s.flag F.EVC_CTL_SEC (16 * i + k)))

/-- Whether an agent may access a register: it owns it (R14), and the party of a mailbox's post is its writer (R485).
[DEDUCED, log entry 80] -/
def State.regMay (s : State) (who : Agent) (r : Reg) (i : Nat) : Bool :=
  if hostReg r then who.asHost
  else if r = .MBX_POST then s.mbxWriter who i
  else who.owner (s.regPlan r i) && !s.secRefused (s.agentRing who) r i

/-! Reading a register (R4, R22, R25). -/

/-- The high register of a pair read under R22, by its low one: Quartz, the counters and the pairs that their chapters name so. An alarm's
target, which no chapter names so, is read without the latch. [DESIGN CHOICE, log entry 118] -/
def highOf : Reg → Option Reg
  | .QTZ_TIMEL => some .QTZ_TIMEH
  | .SCH_ORIGINL => some .SCH_ORIGINH
  | .SCH_FRAMEL => some .SCH_FRAMEH
  | .SQ_ABORTL => some .SQ_ABORTH
  | .EP_ORIGINL => some .EP_ORIGINH
  | .CV_TRIGL => some .CV_TRIGH
  | .FLT_FIRSTL => some .FLT_FIRSTH
  | .LOD_LASTL => some .LOD_LASTH
  | .DLK_FTIMEL => some .DLK_FTIMEH
  | .RDC_FOTIMEL => some .RDC_FOTIMEH
  | .MEM_ELOGL => some .MEM_ELOGH
  | .MSR_STARTL => some .MSR_STARTH
  | .SAF_FIRSTL => some .SAF_FIRSTH
  | _ => none

/-- The low register of a pair read under R22, by its high one. -/
def lowOf (r : Reg) : Option Reg :=
  [Reg.QTZ_TIMEL, .SCH_ORIGINL, .SCH_FRAMEL, .SQ_ABORTL, .EP_ORIGINL, .CV_TRIGL, .FLT_FIRSTL, .LOD_LASTL, .DLK_FTIMEL, .RDC_FOTIMEL,
    .MEM_ELOGL, .MSR_STARTL, .SAF_FIRSTL].find? (fun l => highOf l == some r)

/-- A register that no other rule computes, write-only bits reading 0. -/
def State.regHeld (s : State) (r : Reg) (i : Nat) : Nat := s.regN r i - (s.regN r i &&& (Reg.spec r).wo)

/-- What a flash register shows (R445 to R476). -/
def State.flcView (s : State) (r : Reg) : Nat :=
  match r with
  | .FLC_GEN => s.flcGen
  | .FLC_ABNCNT => s.abandoned.length
  | .FLC_ABNDATA => s.flcAbn
  | .FLC_SINFO => s.flcSinfo
  | .FLC_SPARE => s.flcSpare
  | .FLC_OPTDATA => s.flcOpt
  | _ => s.regHeld r 0

/-- What a general port's register shows (R595). -/
def State.portView (s : State) (r : Reg) (i : Nat) : Nat :=
  match r with
  | .GPIO_INA => s.gpioIn 0
  | .GPIO_INB => s.gpioIn 1
  | .GPIO_INC => s.gpioIn 2
  | .PMB_RXDATA => s.portRx i
  | .SPI_RXDATA => s.portRx (4 + i)
  | .UART_RXDATA => s.portRx (8 + i)
  | .DBG_STAT => s.fld F.DBG_STAT_ATTACHED 0 + s.lcState * 2 + s.fld F.RST_BOOTSTAT_HELD 0 * 16
  | _ => s.regHeld r i

/-- What a register shows. -/
def State.regView (s : State) (r : Reg) (i : Nat) : Nat :=
  match r with
  | .QTZ_TIMEL => s.now % 2 ^ 32
  | .QTZ_TIMEH => s.now / 2 ^ 32 % 2 ^ 32
  | .EP_CNT => s.epCount i
  | .CV_STAT => s.cvStat i
  | .CMP_STAT => s.cmpStat i
  | .EVG_FLAGS => s.groupFlags i
  | .EVF_CDATA => if 248 ≤ i then 0 else s.regN r i
  | .SUP_STAT => s.regN r i + (s.core i).ring * 2 ^ 3 + (s.core i).xring.length * 2 ^ 5
  | .SUP_IDATA => s.regN r i + b2n (s.irqPending i) * 2 ^ 8
  | .MEM_LAP => s.memLap
  | .MEM_RDATA => if 8 * 2004 ≤ i then 0 else s.regN r i
  | .PMU_SNSCTL => s.snsRead
  | .SQ_SLOTSTAT => setBits 27 1 (b2n (s.stale i)) (s.regN r i)
  | _ =>
    match keyBlock (r.key i) with
    | 0x07 => s.flcView r
    | 0x18 => s.portView r i
    | 0x19 => s.portView r i
    | 0x1A => s.portView r i
    | 0x1B => s.portView r i
    | 0x1C => s.portView r i
    | _ => s.regHeld r i

/-- The high-word latch of an initiator (R22). -/
def State.latchOf (s : State) (who : Agent) : Option (Nat × Nat) :=
  match who with
  | .lane e => (s.engine e).latch
  | _ => Tab.look (fun _ => none) s.latch who.key

/-- A latch given. -/
def State.setLatch (s : State) (who : Agent) (v : Option (Nat × Nat)) : State :=
  match who with
  | .lane e => s.setEng e { s.engine e with latch := v }
  | _ => { s with latch := Tab.put (fun _ => none) s.latch who.key v }

/-- What a read of a register leaves: RC fields clear (R4, R25), and a byte read from a port leaves its queue. -/
def State.regReadEffect (s : State) (r : Reg) (i : Nat) : State :=
  let s := s.rcClear r i (Reg.spec r).rc
  match r with
  | .PMB_RXDATA => s.portPop i
  | .SPI_RXDATA => s.portPop (4 + i)
  | .UART_RXDATA => s.portPop (8 + i)
  | _ => s

/-- A read of a register by an initiator. -/
def State.regRead (s : State) (who : Agent) (r : Reg) (i : Nat) : Nat × State :=
  let v := s.rcValue r i (Reg.spec r).rc (s.regView r i)
  match highOf r with
  | some h => (v, (s.regReadEffect r i).setLatch who (some (r.key i, s.regView h i)))
  | none =>
    match lowOf r with
    | some l =>
      match s.latchOf who with
      | some (k, hv) => if k = l.key i then (hv, s) else (v, s.regReadEffect r i)
      | none => (v, s.regReadEffect r i)
    | none => (v, s.regReadEffect r i)

/-! Writing a register. -/

/-- A write that acts by field type alone (R4). -/
def State.regPlain (s : State) (r : Reg) (i v : Nat) : State :=
  let m := Reg.spec r
  let old := s.regN r i
  let kept := old - (old &&& (m.rw ||| (m.w1c &&& v)))
  s.setRegN r i ((kept ||| (v &&& m.rw)) ||| (v &&& m.w1s))

/-- Writes of QTZ, SCH, LOD and the fabric. -/
def State.writeCore (s : State) (r : Reg) (i v : Nat) : State :=
  match r with
  | .QTZ_ALMC => s.almCtl i v
  | .QTZ_ALML => s.almWrite i v false
  | .QTZ_ALMH => s.almWrite i v true
  | .SCH_CTL => s.schCtl v
  | .SCH_ORIGINL => s.schOrigin false v
  | .SCH_ORIGINH => s.schOrigin true v
  | .SCH_LDSRCL => s.loadSrc false v
  | .SCH_LDSRCH => s.loadSrc true v
  | .SCH_LDCTL => s.loadCtl v
  | .EVC_CTL => s.writeEvcCtl i v
  | .EVF_CDATA => s.writeCdata i v
  | .EVG_FLAGS => s.writeGroupFlags i v
  | _ => s.regPlain r i v

/-- Writes of Flint. -/
def State.writeFlt (s : State) (r : Reg) (i v : Nat) : State :=
  match r with
  | .FLT_SRCE => s.fltWrite i v
  | .FLT_PAIRE => s.fltWrite (512 + i) v
  | .FLT_NETE => s.fltWrite (704 + i) v
  | .FLT_RELL => repeatN 32 (fun k s => if bit k v then s.netRelease k else s) s
  | .FLT_RELH => repeatN 32 (fun k s => if bit k v then s.netRelease (32 + k) else s) s
  | .FLT_SWTRIP => if bit 0 v then s.fltPulse 386 else s
  | .FLT_FIRST => if bit 16 v then (s.setRegN .FLT_FIRST 0 0).setPair .FLT_FIRSTL .FLT_FIRSTH 0 0 else s
  | _ => s.regPlain r i v

/-- Writes of an edge pair in ec t. QTIME takes a write in either mode. [DESIGN CHOICE, log entry 131] -/
def State.writeEp (s : State) (r : Reg) (i v t : Nat) (lane : Option Nat) : State :=
  match r with
  | .EP_CTL => s.epRaced i 0x30 t lane (fun s => s.epCtl i v t)
  | .EP_DUTYA => s.epValue i 0 v t lane
  | .EP_DUTYB => s.epValue i 1 v t lane
  | .EP_PERIOD => s.epValue i 2 v t lane
  | .EP_DTRISE => s.epValue i 3 v t lane
  | .EP_DTFALL => s.epValue i 4 v t lane
  | .EP_MAXON => s.epValue i 5 v t lane
  | .EP_ORIGINL => s.epOrigin i t [(.EP_ORIGINL, v)] false lane
  | .EP_ORIGINH => s.epOrigin i t [(.EP_ORIGINH, v)] false lane
  | .EP_ORIGINF => s.epOrigin i t [(.EP_ORIGINF, v % 2 ^ 7)] true lane
  | .EP_QPUSH => s.epQpush i v t lane
  | .EP_STAT => s.epRaced i 0x31 t lane (fun s => (if bit 7 v then s.epRbRelease i else s).regPlain r i v)
  | .EP_QTIME => s.epRaced i 0x32 t lane (fun s => s.regPlain r i v)
  | .EP_STEER => s.fltSteer i v
  | _ => s.regPlain r i v

/-- Writes of a converter or comparator in ec t. -/
def State.writeAna (s : State) (r : Reg) (i v t : Nat) : State :=
  match r with
  | .CV_CTL => (s.cvWrite r i v t).msrWatch
  | .CV_SCAN => s.cvWrite r i v t
  | .CV_GAIN => s.cvWrite r i v t
  | .CV_FRONT => (s.cvHold i t).regPlain r i v
  | .CV_USCALE => (s.cvHold i t).regPlain r i v
  | .CV_UOFF => (s.cvHold i t).regPlain r i v
  | .CV_TRIGL => s.cvWrite r i v t
  | .CV_TRIGH => s.cvWrite r i v t
  | .CV_TRIGF => s.cvWrite r i v t
  | .CV_TPER => s.cvWrite r i v t
  | .CV_ROT => s.rotWrite i v
  | .CMP_CTL => s.cmpCtl i v t
  | .CMP_HI => s.cmpThreshold i v t false
  | .CMP_LO => s.cmpThreshold i v t true
  | .CMP_STEER => s.cmpSteer i v
  | _ => s.regPlain r i v

/-- Writes of a bitstream input, a position interface or a driver link in ec t. -/
def State.writeSense (s : State) (r : Reg) (i v t : Nat) : State :=
  match r with
  | .SDI_CTL => s.sdiCtl i v t
  | .SDI_FTRIP => s.sdiFtrip i v
  | .SDI_CLK => s.sdiClk i v t
  | .POS_CTL => s.posCtl i v t
  | .POS_COUNT => s.posCount i v t
  | .POS_CMPVAL => s.posCmpval i v t
  | .POS_CMPSTEP => s.posCmpstep i v t
  | .DLK_CTL => s.dlkCtl i v
  | .DLK_TIMING => s.dlkTiming i v
  | _ => s.regPlain r i v

/-- Writes of MEM, FLC, MSR, PMU, CLK, RST and LCS by software of a ring. [DEDUCED, log entry 60] -/
def State.writePower (s : State) (r : Reg) (i v ring : Nat) (debug : Bool) : State :=
  match r with
  | .MEM_RDATA => s.writeRdata v
  | .MEM_INJ => s.writeInj v
  | .MSR_CTL => s.msrCtl v
  | .PMU_MODEREQ => if bit 4 v then s.modeRequest (v % 16) ring else if ring = 0 then s.setFld F.PMU_MODEREQ_MODE 0 v else s
  | .PMU_DOMEN => s.domenWrite v
  | .PMU_SUPPLY => s.forceBkp (bit 4 v)
  | .PMU_SNSCTL => s.snsWrite v
  | .RST_SWRST => s.swRst v ring
  | .RST_WDCTL => s.wdCtl v
  | .RST_WDKICK => s.wdKick v
  | .RST_BLKCTL => s.blkCtl v
  | .RST_CSTART => s.cstart v ring debug
  | .LCS_CMD => s.lcsCmd v ring
  | _ => if msrLocked r && s.flag F.MSR_STAT_BUSY 0 then s.setFld F.MSR_STAT_WERR 0 1 else s.regPlain r i v

/-- Writes of SAF, which need ring 0 (R575). [DEDUCED, log entry 60] -/
def State.writeSaf (s : State) (r : Reg) (i v ring : Nat) : State :=
  if ring ≠ 0 then s
  else match r with
    | .SAF_CTL => s.safCtl v
    | .SAF_ACT => s.safActWrite v
    | .SAF_ACK => if bit 0 v then s.safAck ring else s
    | .SAF_SWEV => if bit 0 v then s.safSwev else s
    | _ => s.regPlain r i v

/-! DMA registers (R387, R389, R393). -/

/-- A channel completes (R387): its event carries the lineage of the event that started it. -/
def State.dmaFinish (s : State) (m : Nat) : State :=
  let lin := (Tab.look (fun _ => (⟨none⟩ : Dma)) s.dma m).lin
  ((s.setFld F.DMA_STAT_BUSY m 0).setFld F.DMA_STAT_DONE m 1).emit (0x9C0 + m) s.now 4 lin

/-- A start of a channel (R387). -/
def State.dmaStart (s : State) (m : Nat) (lin : Option Lineage) : State :=
  if s.flag F.DMA_STAT_BUSY m then s.setFld F.DMA_STAT_OVR m 1
  else if !s.flag F.DMA_CTL_EN m then s
  else
    let s := { s.setFld F.DMA_STAT_BUSY m 1 with dma := Tab.put (fun _ => (⟨none⟩ : Dma)) s.dma m ⟨lin⟩ }
    if s.fld F.DMA_LEN_LEN m = 0 then s.dmaFinish m else s

/-- A write of a channel's register (R389): while BUSY only GO acts; a word of a capability register clears its tag. -/
def State.dmaWrite (s : State) (r : Reg) (m v : Nat) : State :=
  let busy := s.flag F.DMA_STAT_BUSY m
  let werr (s : State) : State := s.setFld F.DMA_STAT_WERR m 1
  match r with
  | .DMA_STAT => s.regPlain r m v
  | .DMA_CTL =>
    let s := if busy then (if bit 1 v && v &&& 0xFD == s.regN .DMA_CTL m &&& 0xFD then s else werr s) else s.regPlain r m v
    if bit 1 v && !s.flag F.DMA_STAT_ERR m then s.dmaStart m none else s
  | _ =>
    if busy then werr s
    else
      let s := s.regPlain r m v
      if [Reg.DMA_CAPSA, .DMA_CAPSB, .DMA_CAPSC, .DMA_CAPSD].contains r then s.setFld F.DMA_STAT_STAG m 0
      else if [Reg.DMA_CAPDA, .DMA_CAPDB, .DMA_CAPDC, .DMA_CAPDD].contains r then s.setFld F.DMA_STAT_DTAG m 0
      else s

/-- A capability stored to CAPS or CAPD by a supervisor core (R389). [DESIGN CHOICE, log entry 83] -/
def State.dmaCap (s : State) (m : Nat) (dst : Bool) (c : Cap) : State :=
  if s.flag F.DMA_STAT_BUSY m then s.setFld F.DMA_STAT_WERR m 1
  else
    let v := c.val.toNat
    let put (s : State) (r : Reg) (k : Nat) : State := s.setRegN r m (v / 2 ^ (32 * k) % 2 ^ 32)
    if dst then ((((put (put (put (put s .DMA_CAPDA 0) .DMA_CAPDB 1) .DMA_CAPDC 2) .DMA_CAPDD 3)).setFld F.DMA_STAT_DTAG m (b2n c.tag)))
    else ((((put (put (put (put s .DMA_CAPSA 0) .DMA_CAPSB 1) .DMA_CAPSC 2) .DMA_CAPSD 3)).setFld F.DMA_STAT_STAG m (b2n c.tag)))

/-- Writes of SUP, DMA, RDC, SQ, the host's blocks and the general ports. -/
def State.writeOther (s : State) (r : Reg) (i v : Nat) : State :=
  match r with
  | .SUP_DOORBELL => if bit 1 v then s.setFld F.SUP_DOORBELL_RING i 0 else if bit 0 v then s.setFld F.SUP_DOORBELL_RING i 1 else s
  | .RDC_CTL => s.rdcCtl v
  | .RDC_CMD => s.rdcCmd v
  | .RDC_PMODE => s.pmodeWrite v
  | .SQ_SNAP => if s.bankOn then s.setFld F.SQ_SNAPST_WERR i 1 else s.regPlain r i v
  | .HIF_NUMCMD => if bit 6 v then s.numCmd (v % 64) else s
  | .MBX_POST => s.mbxPost i (v % 64)
  | .GDN_CTL => s.gdnCtl i v
  | .GPIO_DIRA => s.gpioWrite r 0 v
  | .GPIO_DIRB => s.gpioWrite r 1 v
  | .GPIO_DIRC => s.gpioWrite r 2 v
  | .GPIO_OUTA => s.gpioWrite r 0 v
  | .GPIO_OUTB => s.gpioWrite r 1 v
  | .GPIO_OUTC => s.gpioWrite r 2 v
  | .GPIO_ODA => s.gpioWrite r 0 v
  | .GPIO_ODB => s.gpioWrite r 1 v
  | .GPIO_ODC => s.gpioWrite r 2 v
  | .GPIO_IMODEA => (s.regPlain r i v).gpioLevels
  | .GPIO_IMODEB => (s.regPlain r i v).gpioLevels
  | .GPIO_IMODEC => (s.regPlain r i v).gpioLevels
  | .GPIO_IMODED => (s.regPlain r i v).gpioLevels
  | .GPIO_IMODEE => (s.regPlain r i v).gpioLevels
  | .GPIO_IMODEF => (s.regPlain r i v).gpioLevels
  | .GPIO_IFLAGA => (s.regPlain r i v).gpioLevels
  | .GPIO_IFLAGB => (s.regPlain r i v).gpioLevels
  | .GPIO_IFLAGC => (s.regPlain r i v).gpioLevels
  | .SPI_CTL => s.gpioMoved 0 (s.regPlain r i v)
  | .UART_CTL => s.gpioMoved 0 (s.regPlain r i v)
  | .PMB_TXDATA => s.portTx i v
  | .SPI_TXDATA => s.portTx (4 + i) v
  | .UART_TXDATA => s.portTx (8 + i) v
  | _ => if keyBlock (r.key i) = 0x10 then s.dmaWrite r i v else s.regPlain r i v

/-- A write of a register in ec t by an agent that may access it. -/
def State.regWrite (s : State) (who : Agent) (r : Reg) (i v t : Nat) : State :=
  let lane : Option Nat := match who with
    | .lane e => some e
    | _ => none
  let b := keyBlock (r.key i)
  if b = 0 ∨ b = 1 ∨ b = 3 then s.writeCore r i v
  else if b = 2 then (match (List.range 8).find? (fun k => lodWord k == r) with
    | some k => s.lodWrite i k v
    | none => s.regPlain r i v)
  else if b = 4 then s.writeFlt r i v
  else if b = 0x17 then s.writeEp r i v t lane
  else if b = 0x14 ∨ b = 0x15 ∨ b = 0x16 then s.writeAna r i v t
  else if b = 0x11 ∨ b = 0x12 ∨ b = 0x13 then s.writeSense r i v t
  else if b = 6 ∨ b = 7 ∨ (9 ≤ b ∧ b ≤ 13) then s.writePower r i v (s.agentRing who) (who == .debug)
  else if b = 8 then s.writeSaf r i v (s.agentRing who)
  else s.writeOther r i v

/-- Whether a write of a register is refused beside ownership: the Lode's words that the plan owns (R307), and CTL of a channel that
the plan owns, which only group actions change (R324). -/
def State.regKept (s : State) (r : Reg) (i v : Nat) : Bool :=
  (r == .EVC_CTL && s.regPlan r i) ||
  match (List.range 8).find? (fun k => lodWord k == r) with
  | some k => s.lodRefused i k v
  | none => false

/-! The host region (R482). -/

/-- Whether an address lies in the mailbox read views or staging areas. -/
def isMbx (a : Nat) : Bool := 0x4000E0000 ≤ a && a < 0x4000E8000

/-- A 32-bit read of a mailbox area (R486, R499). [DEDUCED, log entry 81] -/
def State.mbxWordRead (s : State) (who : Agent) (a : Nat) : Except BusErr Nat × State :=
  let o := a - 0x4000E0000
  let m := o % 0x4000 / 64
  if o < 0x4000 then
    let (l, s) := s.mbxRead who m (o % 64) 4
    (.ok (ofLeBytes l), s)
  else if !s.mbxWriter who m then (.error .refused, s)
  else (.ok (if o % 64 < 8 then 0 else s.peek a 4), s)

/-- A 32-bit write of a mailbox area: the read view ignores it, the staging area takes it from its writer (R482, R499).
[DEDUCED, log entry 81] -/
def State.mbxWordWrite (s : State) (who : Agent) (a v : Nat) : Option BusErr × State :=
  let o := a - 0x4000E0000
  let m := o % 0x4000 / 64
  if o < 0x4000 then (none, s)
  else if !s.mbxWriter who m then (some .refused, s)
  else if o % 64 < 8 then (none, s)
  else (none, s.stage m a v)

/-! Register space (R580). -/

/-- Whether an address lies in a block's register space. -/
def isRegs (a : Nat) : Bool :=
  (0x400000000 ≤ a && a < 0x4001D0000) || (sqSpace ≤ a && a < sqSpace + 0x4000000 && 0x90000 ≤ a % 0x100000 && a % 0x100000 < 0x90044)

/-- Whether an agent may use a data register whose selector names a reserved entry: those of Flint and of the wear monitors are the
supervisor's (R14, R250, R420). -/
def Agent.mayData (who : Agent) (a : Nat) : Bool := (a != 0x400040004 && a != 0x400050048) || who.owner false

/-- A 32-bit read of register space; a reserved offset reads 0 (R5). -/
def State.wordRead (s : State) (who : Agent) (a : Nat) : Except BusErr Nat × State :=
  if !s.answers a then (.error .refused, s)
  else if isMbx a then s.mbxWordRead who a
  else match s.slotAt a with
    | none => (if who.mayData a then .ok 0 else .error .refused, s)
    | some (r, i) =>
      if !s.regMay who r i then (.error .refused, s)
      else
        let (v, s) := s.regRead who r i
        (.ok v, s)

/-- A 32-bit write of register space in ec t; a reserved offset ignores it (R5). -/
def State.wordWriteAt (s : State) (who : Agent) (a v t : Nat) : Option BusErr × State :=
  if !s.answers a then (some .refused, s)
  else if isMbx a then s.mbxWordWrite who a v
  else match s.slotAt a with
    | none =>
      if !who.mayData a then (some .refused, s)
      else (none, if a = 0x400040004 then s.fltWrite (s.fld F.FLT_TSEL_INDEX 0) v else s)
    | some (r, i) => if !s.regMay who r i || s.regKept r i v then (some .refused, s) else (none, s.regWrite who r i v t)

/-- A 32-bit write of register space now. -/
def State.wordWrite (s : State) (who : Agent) (a v : Nat) : Option BusErr × State := s.wordWriteAt who a v s.now

/-! Memories. -/

/-- Whether an address lies in a memory outside flash: an SRAM, or a part of a square that holds plan state (R579, R581). -/
def isMemory (a : Nat) : Bool :=
  isSram a || (sqSpace ≤ a && a < sqSpace + 0x4000000 &&
    ((0xB0000 ≤ a % 0x100000 && a % 0x100000 < 0xB8810) || (0xB9000 ≤ a % 0x100000 && a % 0x100000 < 0xBB800)))

/-- Whether an address lies in a part of a square that is read-only through the supervisor port: its slot tables (R114), and its
capability sets, tags, bindings, task inputs and snapshots (R581). [DESIGN CHOICE, log entry 82] -/
def planReadOnly (a : Nat) : Bool :=
  sqSpace ≤ a && ((0xA0000 ≤ a % 0x100000 && a % 0x100000 < 0xB0000) || (0xB8000 ≤ a % 0x100000 && a % 0x100000 < 0xBB800))

/-- What a wipe makes of an access to a memory it writes (R430): none for a DMA channel or the loader yet, refused for others. -/
def Agent.wipeErr : Agent → BusErr
  | .dma _ => .wait
  | .loader => .wait
  | _ => .refused

/-- A read of n bytes of memory (R96, R434). -/
def State.memRead (s : State) (who : Agent) (a n : Nat) : Except BusErr Nat × State :=
  if !s.alive (memDomain a) then (.error .refused, s)
  else if s.underWipe a then (.error who.wipeErr, s)
  else
    let (bad, v, s) := s.portRead a n who.init
    if bad then (.error .check, s) else (.ok v, s)

/-- Whether a write to a memory is refused: a square's memories in RUN (R107), and Lode entries the plan owns (R307). -/
def State.memKept (s : State) (who : Agent) (a n : Nat) : Bool :=
  (sqSpace ≤ a && s.inRun && who != .loader) ||
    (0x100000000 ≤ a && a < 0x104000000 && (List.range ((a % 4 + n + 3) / 4)).any (fun k => s.lodEntryOwned ((a - 0x100000000) / 4 + k)))

/-- A write of n bytes of memory, which an armed injection may strike (R432, R442). -/
def State.memWrite (s : State) (who : Agent) (a n v : Nat) : Option BusErr × State :=
  if !s.alive (memDomain a) then (some .refused, s)
  else if s.underWipe a then (some who.wipeErr, s)
  else if s.memKept who a n then (some .refused, s)
  else if planReadOnly a then (none, s)
  else (none, s.writeMem a n v who.init)

/-! Flash (R447, R448, R450, R452). -/

/-- A read of n bytes of flash: the value, and whether it is doubtful. [DESIGN CHOICE, log entry 45] -/
def State.flashBusRead (s : State) (who : Agent) (a n : Nat) : Except BusErr (Nat × Bool) × State :=
  if !s.alive 3 then (.error .refused, s)
  else match s.flashRead who a n with
    | (.refused, s) => (.error .bus, s)
    | (.bad _, s) => (.error .check, s)
    | (.ok v d, s) => (.ok (v, d), s)

/-- A write of n bytes to flash goes to the controller of the bank; the boot window takes none. `pc` is where a core's store lies. -/
def State.flashBusWrite (s : State) (who : Agent) (a n v : Nat) (pc : Option Nat) : Option BusErr × State :=
  if !s.alive 3 then (some .refused, s)
  else if 0x10000000 ≤ a then (some .refused, s)
  else
    let k := a / 0x8000000
    let off := a % 0x8000000
    if !s.flashMay who k then (some .refused, s.setFst k 16 true)
    else if n = 8 then (none, (s.flashWrite who k off (v % 2 ^ 32) 4 pc).flashWrite who k (off + 4) (v / 2 ^ 32) 4 pc)
    else (none, s.flashWrite who k off v n pc)

/-! The local map. -/

/-- m register words read in order at an address; the first error ends it. -/
def State.wordsRead (s : State) (who : Agent) (a : Nat) : Nat → Except BusErr Nat × State
  | 0 => (.ok 0, s)
  | m + 1 =>
    match s.wordRead who a with
    | (.error e, s) => (.error e, s)
    | (.ok lo, s) =>
      match State.wordsRead s who (a + 4) m with
      | (.error e, s) => (.error e, s)
      | (.ok hi, s) => (.ok (lo + hi * 2 ^ 32), s)

/-- A read of n bytes (1, 2, 4, 8 or 16, aligned) at a local physical address: the value, and whether flash calls it doubtful. -/
def State.localRead (s : State) (who : Agent) (a n : Nat) : Except BusErr (Nat × Bool) × State :=
  if a < 0x10200000 then s.flashBusRead who a n
  else if isMemory a then
    match s.memRead who a n with
    | (.ok v, s) => (.ok (v, false), s)
    | (.error e, s) => (.error e, s)
  else if !isRegs a || n < 4 then (.error .bus, s)
  else match s.wordsRead who a (n / 4) with
    | (.error e, s) => (.error e, s)
    | (.ok v, s) => (.ok (v, false), s)

/-- A write of n bytes at a local physical address. -/
def State.localWrite (s : State) (who : Agent) (a n v : Nat) (pc : Option Nat) : Option BusErr × State :=
  if a < 0x10200000 then s.flashBusWrite who a n v pc
  else if isMemory a then s.memWrite who a n v
  else if !isRegs a || n < 4 then (some .bus, s)
  else match s.wordWrite who a (v % 2 ^ 32) with
    | (some e, s) => (some e, s)
    | (none, s) => if n = 4 then (none, s) else s.wordWrite who (a + 4) (v / 2 ^ 32)

/-! Remote devices (R483, R492). -/

/-- The offset of a remote access as its frame carries it. -/
def viewBytes (o : Nat) : List Byte := leBytes 5 o

/-- A request to a device leaves with a new tag and awaits its completion for 32 µs (R482). [DEDUCED, log entry 74] -/
def State.remoteAsk (s : State) (who : Agent) (d o n a : Nat) : State :=
  let s := s.gdnSend 0x10 d s.gtag (viewBytes o ++ leBytes 2 n)
  { s with greqs := s.greqs ++ [⟨s.gtag, who, d, n, a, s.now + 40000, none⟩], gtag := (s.gtag + 1) % 65536 }

/-- A completion awaiting an initiator. -/
def State.gotOf (s : State) (who : Agent) : Option (Nat × Nat × Nat) := Tab.look (fun _ => none) s.rgot who.key
/-- A completion given to an initiator, or taken from it. [DEDUCED, log entry 74] -/
def State.setGot (s : State) (who : Agent) (x : Option (Nat × Nat × Nat)) : State :=
  { s with rgot := Tab.put (fun _ => none) s.rgot who.key x }

/-- A read of another device (R483): asked for at the first attempt, and completed by the attempt after its answer has come.
[DEDUCED, log entry 74] -/
def State.remoteRead (s : State) (who : Agent) (d o n a : Nat) : Except BusErr (Nat × Bool) × State :=
  match s.gotOf who with
  | some (a', st, v) =>
    let s := s.setGot who none
    if a' ≠ a then (if s.gdnHas d then (.error .wait, s.remoteAsk who d o n a) else (.error .bus, s))
    else if st = 0 then (.ok (v, false), s)
    else (.error (if st = 2 then .check else .bus), s)
  | none =>
    if s.greqs.any (fun q => q.by_ == who) then (.error .wait, s)
    else if s.gdnHas d then (.error .wait, s.remoteAsk who d o n a)
    else (.error .bus, s)

/-- A read of n bytes at a physical address (R483, R579). -/
def State.busRead (s : State) (who : Agent) (a n : Nat) : Except BusErr (Nat × Bool) × State :=
  if a < remoteBase then s.localRead who a n
  else
    let (d, o) := remoteAt a
    match viewAddr o with
    | none => (.error .refused, s)
    | some l =>
      if !s.alive 18 then (.error .refused, s)
      else if d = s.devNum then s.localRead who l n
      else s.remoteRead who d o n a

/-- A write of n bytes at a physical address; one to another device leaves as a WR frame. `pc` is where a core's store lies. -/
def State.busWrite (s : State) (who : Agent) (a n v : Nat) (pc : Option Nat) : Option BusErr × State :=
  if a < remoteBase then s.localWrite who a n v pc
  else
    let (d, o) := remoteAt a
    match viewAddr o with
    | none => (some .refused, s)
    | some l =>
      if !s.alive 18 then (some .refused, s)
      else if d = s.devNum then s.localWrite who l n v pc
      else if !s.gdnHas d then (some .bus, s)
      else (none, s.gdnSend 0x12 d 0 (viewBytes o ++ leBytes n v))

/-- A capability register stored at a 16-byte-aligned address (R40, R389): with its tag in the memories that hold tags and in a DMA
channel's capability registers, as two plain words anywhere else. [DEDUCED, log entry 88] -/
def State.busWriteCap (s : State) (who : Agent) (a : Nat) (c : Cap) (pc : Option Nat) : Option BusErr × State :=
  let v := c.val.toNat
  let m := (a - 0x400100000) / 0x100
  if 0x400100000 ≤ a ∧ a < 0x400102000 ∧ (a % 0x100 = 0x20 ∨ a % 0x100 = 0x30) ∧ s.answers a = true then (none, s.dmaCap m (a % 0x100 == 0x30) c)
  else
    match s.busWrite who a 8 (v % 2 ^ 64) pc with
    | (some e, s) => (some e, s)
    | (none, s) =>
      match s.busWrite who (a + 8) 8 (v / 2 ^ 64) pc with
      | (some e, s) => (some e, s)
      | (none, s) => (none, if isSram a && !(0x100000000 ≤ a && a < 0x104000000) then s.setTag a c.tag else s)

/-- The parts of n bytes at an address that fall into each aligned block of g bytes: their addresses and lengths. -/
def blockParts (g a n : Nat) : List (Nat × Nat) :=
  ((List.range (n / g + 2)).map (fun i => (max a (a / g * g + g * i), min (a + n) (a / g * g + g * (i + 1))))).filterMap
    (fun p => if p.1 < p.2 then some (p.1, p.2 - p.1) else none)

/-- The accesses that move n bytes at a local address: one where they are 1, 2, 4 or 8 aligned bytes; else one for each flash word in a
read (R446), or for each 64-bit word in a memory (R426); else words, else bytes. [DESIGN CHOICE, log entry 82] -/
def spanParts (read : Bool) (a n : Nat) : List (Nat × Nat) :=
  if n ∈ [1, 2, 4, 8] ∧ a % n = 0 then [(a, n)]
  else if read = true ∧ a < 0x10200000 then blockParts 32 a n
  else if isMemory a then blockParts 8 a n
  else if a % 4 = 0 ∧ n % 4 = 0 then blockParts 4 a n
  else blockParts 1 a n

/-- The parts of a read, in turn, to the first error; and whether flash calls any byte doubtful. -/
def State.partsRead (s : State) (who : Agent) : List (Nat × Nat) → Except BusErr (List Byte × Bool) × State
  | [] => (.ok ([], false), s)
  | (a, n) :: l =>
    match s.localRead who a n with
    | (.error e, s) => (.error e, s)
    | (.ok (v, d), s) =>
      match s.partsRead who l with
      | (.ok (t, d'), s) => (.ok (leBytes n v ++ t, d || d'), s)
      | (.error e, s) => (.error e, s)

/-- n bytes read at a local address. -/
def State.spanRead (s : State) (who : Agent) (a n : Nat) : Except BusErr (List Byte × Bool) × State :=
  s.partsRead who (spanParts true a n)

/-- The parts of a write, in turn, to the first error. -/
def State.partsWrite (s : State) (who : Agent) : List (Nat × Nat) → List Byte → Option BusErr × State
  | [], _ => (none, s)
  | (a, n) :: l, b =>
    match s.localWrite who a n (ofLeBytes (b.take n)) none with
    | (some e, s) => (some e, s)
    | (none, s) => s.partsWrite who l (b.drop n)

/-- Bytes written at a local address. -/
def State.spanWrite (s : State) (who : Agent) (a : Nat) (l : List Byte) : Option BusErr × State :=
  s.partsWrite who (spanParts false a l.length) l

end Sys2Proof.Machine
end

