-- ==== Sys2Proof/Machine/Sup.lean ====
section
/-! DEFINITION. A supervisor core: its registers and flags (R359 to R361), protection (R364 to R366), its store buffer (R370),
task-state blocks, exception entry, gates and return (R375 to R380, R384), and system registers (R360). -/

namespace Sys2Proof.Machine

/-- What an instruction of a supervisor core comes to: the next address, a target, an exception with its code, fault
address and whether the saved PC is the instruction after; `gone` is an instruction that has completed where the state says, and `stay`
one that has not. [DESIGN CHOICE, log entry 108] -/
inductive SRes where
  | seq (s : State)
  | jump (s : State) (pc : Nat)
  | gone (s : State)
  | stay (s : State)
  | exc (s : State) (vector info faddr : Nat) (after : Bool)

/-- A result and its flags written. -/
def State.supSet (s : State) (k : Nat) (rd : BitVec 5) (v : Dword) (f : FlagSet) : SRes :=
  .seq (s.setCore k (((s.core k).putS rd.toNat v).setFlags f))

/-- Whether a core issues instructions (R392): no software takes part before boot verification has ended (R546), its pair serves, it runs a stream of its own, and it is not waiting, halted or
stopped; no core issues during a wipe (R430), while its checker takes its state (R414), or before a remote read of its own has been
answered (R483). -/
def State.coreRuns (s : State) (k : Nat) : Bool :=
  s.alive 4 && s.boot == .done && (s.logicalCore k).isSome && s.fld F.SUP_STAT_STATE k == 0 && !s.flag F.MEM_STAT_WIPING 0 && !s.joining k &&
    !s.greqs.any (fun q => q.by_ == .sup k)

/-! Protection (R364 to R366). -/

/-- The kinds of access that R366 judges. -/
inductive Acc where
  | read
  | write
  | fetch
  deriving DecidableEq, Repr

/-- Whether an address lies in the Lode, the square space, the peripheral space or a remote device, from which nothing is fetched (R364,
R579). -/
def neverFetched (a : Nat) : Bool :=
  (0x100000000 ≤ a && a < 0x104000000) || (sqSpace ≤ a && a < sqSpace + 0x4000000) || (0x400000000 ≤ a && a < 0x401000000) || remoteBase ≤ a

/-- Whether an address lies in flash, the boot window, shared SRAM or a TCM, from which ring 0 fetches unmatched (R366, R579). -/
def fetchable (a : Nat) : Bool :=
  a < 0x10200000 || isCoreRam a

/-- The lowest-numbered region that an address matches (R366). -/
def Sup.region (c : Sup) (a : Nat) : Option Nat :=
  (List.range 16).find? (fun n =>
    let b := (Tab.look (fun _ => 0) c.rgnb n).toNat
    let l := (Tab.look (fun _ => 0) c.rgnl n).toNat
    bit 0 b && decide (bits 39 12 b ≤ a / 4096) && decide (a / 4096 ≤ bits 39 12 l))

/-- Whether an access at an address is allowed to a core in a ring (R364, R366). -/
def Sup.mayAt (c : Sup) (ring a : Nat) (acc : Acc) : Bool :=
  if acc = .fetch && neverFetched a then false
  else match c.region a with
    | none => ring == 0 && (acc != .fetch || fetchable a)
    | some n =>
      let b := (Tab.look (fun _ => 0) c.rgnb n).toNat
      match acc with
      | .read => decide (ring ≤ bits 2 1 b)
      | .write => decide (ring ≤ bits 4 3 b)
      | .fetch => bit 7 b && decide (ring ≤ bits 6 5 b)

/-- Whether an access at an address is allowed to a core (R364, R366). -/
def Sup.allowed (c : Sup) (a : Nat) (acc : Acc) : Bool := c.mayAt c.ring a acc

/-- Whether an address lies in a device region: the peripheral space, a remote device, or a region with DEV = 1 (R365, R366). -/
def Sup.device (c : Sup) (a : Nat) : Bool :=
  (0x400000000 ≤ a && a < 0x401000000) || remoteBase ≤ a ||
    (match c.region a with
      | some n => bit 8 (Tab.look (fun _ => 0) c.rgnb n).toNat
      | none => false)

/-! Exceptions (R375 to R380, R384). -/

/-- Whether a TSB may lie at an address: aligned, in a TCM or in shared SRAM (R375). -/
def tsbOk (a : Nat) : Bool :=
  a % 512 == 0 && isCoreRam a

/-- A double fault: the core stops, DFAULT sets, a safety event is raised, and the redundancy controller records it (R379,
R412). -/
def State.doubleFault (s : State) (k : Nat) : State :=
  let s := (s.setFld F.SUP_STAT_STATE k 3).setFld F.SUP_STAT_DFAULT k 1
  let s := s.raiseEv 4 11 k
  if s.flag F.RDC_PFAULT_VALID 0 then s else s.setRegN .RDC_PFAULT 0 (k / 2 + 2 * 2 ^ 3 + 2 ^ 6)

/-- The state of a core written to the TSB at an address (R375, R378 step 1). -/
def State.saveTsb (s : State) (k a pc cause faddr : Nat) : State :=
  let c := s.core k
  let put (s : State) (off v : Nat) : State := s.writeMask (a + off) 255 v 1
  let s := repeatN 32 (fun r s => put s (8 * r) (c.getS r).toNat) s
  let s := put (put (put (put s 0x100 pc) 0x108 c.pst) 0x110 cause) 0x118 faddr
  let s := put (put (put s 0x128 0) 0x130 0) 0x138 0
  repeatN 8 (fun r s =>
    let v := (c.getC r).val.toNat
    (put (put s (0x140 + 16 * r) (v % 2 ^ 64)) (0x148 + 16 * r) (v / 2 ^ 64)).setTag (a + 0x140 + 16 * r) (c.getC r).tag) s

/-- The two words of a vector or gate entry, as the core reads them on its bus; none where a read fails (R376, R379). -/
def State.entryWords (s : State) (k a : Nat) : Option (Nat × Nat) × State :=
  match s.busRead (.sup k) a 8 with
  | (.ok (w0, _), s) =>
    match s.busRead (.sup k) (a + 8) 8 with
    | (.ok (w1, _), s) => (some (w0, w1), s)
    | (.error _, s) => (none, s)
  | (.error _, s) => (none, s)

/-- Whether the writes of an entry to a TSB fail: its place, the ring of the handler, or its bus (R375, R379).
[DESIGN CHOICE, log entry 21] -/
def State.tsbFails (s : State) (k ring a : Nat) : Bool :=
  !tsbOk a || !(s.core k).mayAt ring a .write || !s.alive (memDomain a) || s.underWipe a

/-- An entry with the words of its vector or gate (R378): the state is saved at TSBR, the ring is pushed, the handler's TSB takes over,
the ring, IE and PLVL change, and the core goes on at TARGET. A full XRING or a step whose access fails its ring, check bits or bus is a
double fault (R375, R379). [DESIGN CHOICE, log entry 21] -/
def State.supEnterWith (s : State) (k w0 w1 : Nat) (saved info vector faddr : Nat) (level : Option Nat) (gateRing : Bool) : State :=
  let c := s.core k
  let handler := bits 39 9 w1 * 512
  let ring := if gateRing then bits 41 40 w0 else min (bits 41 40 w0) c.ring
  if 8 ≤ c.xring.length || s.tsbFails k ring c.tsbr || s.tsbFails k ring handler then s.doubleFault k
  else
    let s := s.saveTsb k c.tsbr saved (vector + info * 2 ^ 8) faddr
    let s := s.writeMask (handler + 0x120) 255 c.tsbr 1
    let pst := setBits 8 1 0 (setBits 0 2 ring c.pst)
    let pst := match level with
      | some l => setBits 12 5 (l + 1) pst
      | none => pst
    s.setCore k { c.newKey with xring := c.ring :: c.xring, tsbr := handler, pst := pst, pc := bits 39 2 w0 * 4 }

/-- An entry through the vector or gate at an address (R376, R378); words that cannot be read are a double fault (R379). -/
def State.supEnter (s : State) (k entry : Nat) (saved info vector faddr : Nat) (level : Option Nat) : State :=
  match s.entryWords k entry with
  | (none, s) => s.doubleFault k
  | (some (w0, w1), s) => s.supEnterWith k w0 w1 saved info vector faddr level false

/-- An exception or interrupt enters through its vector (R376, R384). -/
def State.supException (s : State) (k vector info saved faddr : Nat) (level : Option Nat) : State :=
  s.supEnter k ((s.core k).vtbr + 16 * vector) saved info vector faddr level

/-- GATE n (R377). -/
def State.supGate (s : State) (k n : Nat) : SRes :=
  let c := s.core k
  if c.gtlim ≤ n then .exc s 0x0A n 0 false
  else match s.entryWords k (c.gtbr + 16 * n) with
    | (none, s) => .stay (s.doubleFault k)
    | (some (w0, w1), s) =>
      if bit 44 w0 = false ∨ bits 43 42 w0 < c.ring ∨ c.ring < bits 41 40 w0 then .exc s 0x0A n 0 false
      else .gone (s.supEnterWith k w0 w1 (c.pc + 4) n 0 0 none true)

/-! The store buffer (R370). -/

/-- A store takes effect: a capability of a CST with its tag, other bytes by their bus; the error, if any. -/
def State.supStoreNow (s : State) (k : Nat) (x : SupStore) : Option BusErr × State :=
  match x.cap with
  | some c => s.busWriteCap (.sup k) x.addr c (some x.pc)
  | none => s.busWrite (.sup k) x.addr x.size x.value (some x.pc)

/-- The oldest store of a core drains; a refused one takes a bus error (R14, R370, R384). [DEDUCED, log entry 22] -/
def State.supDrain (s : State) (k : Nat) : State :=
  let c := s.core k
  match c.sb with
  | [] => s
  | x :: rest =>
    let (err, s) := (s.setCore k { c with sb := rest }).supStoreNow k x
    match err with
    | none => s
    | some _ => s.supException k 5 0 x.pc x.addr none

/-- Every waiting store drains in program order (R363, R371). -/
def State.supDrainAll (s : State) (k : Nat) : State :=
  repeatN (s.core k).sb.length (fun _ s => s.supDrain k) s

/-- Whether a core has taken an entry, or stopped, since an earlier state: what it was about to do waits. -/
def State.supLeft (s t : State) (k : Nat) : Bool :=
  (t.core k).xring.length != (s.core k).xring.length || t.fld F.SUP_STAT_STATE k == 3

/-- What an instruction does once a core's store buffer is empty; a store refused on the way takes its bus error first (R384).
[DEDUCED, log entry 22] -/
def State.supDrained (s : State) (k : Nat) (f : State → SRes) : SRes :=
  let t := s.supDrainAll k
  if s.supLeft t k then .stay t else f t

/-- The entries of 64 bits that a store takes in the buffer: two for the 128 bits of a CST (R370). -/
def SupStore.entries (x : SupStore) : Nat := if x.cap.isSome then 2 else 1

/-- The entries of its store buffer that a core has in use (R370). -/
def Sup.sbUsed (c : Sup) : Nat := c.sb.foldl (fun n x => n + x.entries) 0

/-- What an instruction does with a store in the buffer; a buffer without room for it drains its oldest stores first (R370). -/
def State.supBuffer (s : State) (k : Nat) (x : SupStore) (f : State → SRes) : SRes :=
  let t := repeatN x.entries (fun _ t => if 8 < (t.core k).sbUsed + x.entries && !s.supLeft t k then t.supDrain k else t) s
  if s.supLeft t k then .stay t
  else
    let c := t.core k
    f (t.setCore k { c with sb := c.sb ++ [x] })

/-- Whether a buffered store overlaps n bytes at an address. -/
def Sup.overlaps (c : Sup) (a n : Nat) : Bool :=
  c.sb.any (fun x => x.addr < a + n && a < x.addr + (if x.cap.isSome then 16 else x.size))

/-! Loads and stores (R362, R364 to R366, R370). -/

/-- The effective address of a load or store (R362). -/
def State.supEA (s : State) (k : Nat) (ra : BitVec 5) (simm : BitVec 13) : Nat :=
  wrapTo 64 ((s.sreg k ra).toNat + simm.toInt)

/-- The fault of an access of n bytes at an address: the lowest vector among access, alignment (R366, R384). [DEDUCED, log entry 95] -/
def Sup.accFault (c : Sup) (a n : Nat) (acc : Acc) : Option Nat :=
  if 2 ^ 40 ≤ a ∨ c.allowed a acc = false then some 3 else if a % n ≠ 0 then some 4 else none

/-- The exception of a bus error on a read (R384). -/
def BusErr.vector (b : BusErr) : Nat :=
  match b with
  | .check => 7
  | _ => 5

/-- n bytes read at an address for an instruction, once every overlapping store has drained, and in a device region every store before
it: the value, and whether flash calls it doubtful; or the exception (R365, R366, R370, R384). A read of another device that is not answered yet is tried again (R483). -/
def State.supRead (s : State) (k a n : Nat) (f : Nat → Bool → State → SRes) : SRes :=
  match (s.core k).accFault a n .read with
  | some v => .exc s v 0 a false
  | none =>
    let go (s : State) : SRes :=
      match s.busRead (.sup k) a n with
      | (.error .wait, s) => .stay s
      | (.error b, s) => .exc s b.vector 0 a false
      | (.ok (v, doubt), s) => f v doubt s
    if (s.core k).overlaps a n || ((s.core k).device a && !(s.core k).sb.isEmpty) then s.supDrained k go else go s

/-- 64-bit words read at addresses for an instruction, one after the other; the first that cannot be read takes its exception. -/
def State.supWords (s : State) (k : Nat) (l : List Nat) (got : List Nat) (f : List Nat → State → SRes) : SRes :=
  match l with
  | [] => f got.reverse s
  | a :: t => s.supRead k a 8 (fun v _ s => s.supWords k t (v :: got) f)

/-- The words of a TSB that RETX restores: S from s1 on, PC, PST and C (R375, R380). -/
def tsbWords (a : Nat) : List Nat :=
  (List.range 31).map (fun r => a + 8 * (r + 1)) ++ [a + 0x100, a + 0x108] ++ (List.range 16).map (fun r => a + 0x140 + 8 * r)

/-- RETX (R380): the older stores drain, and then the TSB at BACK is read as the core reads memory; a TSB elsewhere is a double fault
(R375), a word that cannot be read takes the exception of a load (R366, R384, R434). [DEDUCED, log entry 135] -/
def State.supRetx (s : State) (k : Nat) : SRes :=
  s.supDrained k (fun s =>
    let c := s.core k
    if !tsbOk c.tsbr then .stay (s.doubleFault k)
    else s.supRead k (c.tsbr + 0x120) 8 (fun b _ s =>
      let back := b % 2 ^ 40
      if !tsbOk back then .stay (s.doubleFault k)
      else s.supWords k (tsbWords back) [] (fun l s =>
        match c.xring with
        | [] => .exc s 0 0 0 false
        | top :: rest =>
          let pst := l.getD 32 0
          if bits 1 0 pst < top then .exc s 0x0B 0 0 false
          else
            let regs := repeatN 32 (fun r t => if r = 0 then t else Tab.put (fun _ => 0) t r (BitVec.ofNat 64 (l.getD (r - 1) 0))) []
            let caps := repeatN 8 (fun r t =>
              Tab.put (fun _ => Cap.none) t r
                ⟨s.tagAt (back + 0x140 + 16 * r), BitVec.ofNat 128 (l.getD (33 + 2 * r) 0 + l.getD (34 + 2 * r) 0 * 2 ^ 64)⟩) []
            .jump (s.setCore k { (s.core k).newKey with s := regs, cap := caps, pst := pstOf pst, tsbr := back, xring := rest })
              (pcOf (l.getD 31 0)))))

/-- n bytes written at an address for an instruction: into the store buffer, or the exception (R366, R370). -/
def State.supWrite (s : State) (k a n v : Nat) (f : State → SRes) : SRes :=
  match (s.core k).accFault a n .write with
  | some x => .exc s x 0 a false
  | none => s.supBuffer k ⟨a, n, v % 2 ^ (8 * n), (s.core k).pc, none⟩ f

/-- A doubtful read takes its exception where flash enables it (R384). [DEDUCED, log entry 100] -/
def State.supDoubt (s : State) (doubt : Bool) (a : Nat) : SRes :=
  if doubt && s.flag F.FLC_CTL_DOUBTX 0 then .exc s 8 0 a true else .seq s

/-- A load of n bytes: the value extended (R362, R384). [DEDUCED, log entry 101] -/
def State.supLoad (s : State) (k n : Nat) (signed : Bool) (rd ra : BitVec 5) (simm : BitVec 13) : SRes :=
  let a := s.supEA k ra simm
  s.supRead k a n (fun v doubt s =>
    let x : Dword := if signed then BitVec.ofInt 64 (sext (8 * n) v) else BitVec.ofNat 64 v
    (s.setSreg k rd x).supDoubt doubt a)

/-- A store of n bytes enters the store buffer (R370). -/
def State.supStore (s : State) (k n : Nat) (rs ra : BitVec 5) (simm : BitVec 13) : SRes :=
  s.supWrite k (s.supEA k ra simm) n (s.sreg k rs).toNat .seq

/-! Running an instruction. -/

/-- A fetch of a core: the vector of its exception, which is NXFAULT, a bus error, or an uncorrectable word; or the word, and whether
flash calls it doubtful (R364, R366, R384, R452, R462). -/
def State.supFetch (s : State) (k a : Nat) : Except Nat (Nat × Bool) × State :=
  if !(s.core k).allowed a .fetch then (.error 2, s)
  else match s.localRead (.sup k) a 4 with
    | (.ok x, s) => (.ok x, s)
    | (.error .check, s) => (.error 6, s)
    | (.error _, s) => (.error 5, s)

/-- An instruction that has completed is counted for the comparison of signatures, whose window begins anew at its end (R411).
[DESIGN CHOICE, log entry 28] -/
def State.retires (s : State) (k : Nat) : State :=
  let c := s.core k
  s.setCore k { c with retired := if s.sigWindow ≤ c.retired then 1 else c.retired + 1 }

/-- A core that waits issues again, for the exception of the fetch that brought it there. -/
def State.awake (s : State) (k : Nat) : State := if s.fld F.SUP_STAT_STATE k = 1 then s.setFld F.SUP_STAT_STATE k 0 else s

/-- The exception of a doubtful fetch comes after its instruction has completed (R462). -/
def State.doubtAfter (s : State) (k : Nat) (doubt : Bool) (a : Nat) (r : SRes) : SRes :=
  if !(doubt && s.flag F.FLC_CTL_DOUBTX 0) then r
  else match r with
    | .seq t => .exc (t.awake k) 8 0 a true
    | .jump t pc => .gone ((t.setCore k { t.core k with pc := pc }).supException k 8 0 pc a none)
    | .gone t => if t.fld F.SUP_STAT_STATE k = 3 then .gone t else .gone (t.supException k 8 0 (t.core k).pc a none)
    | r => r

/-- The illegal-instruction exception (R362, R384). -/
def supIllegal (s : State) : SRes := .exc s 0 0 0 false

/-- An instruction on a supervisor core, where the word fetched at its PC is one (R362, R384). On a core that issues nothing, nothing
happens. [DESIGN CHOICE, log entry 111] -/
def State.supRun (s : State) (k : Nat) (f : State → SRes) : State :=
  if !s.coreRuns k then s
  else
    let pc := (s.core k).pc
    match s.supFetch k pc with
    | (.error v, s) => s.supException k v 0 pc pc none
    | (.ok (w, doubt), s) =>
      match (if legalSup w then s.doubtAfter k doubt pc (f s) else supIllegal s) with
      | .seq s => (s.setCore k { s.core k with pc := (pc + 4) % 2 ^ 40 }).retires k
      | .jump s t => (s.setCore k { s.core k with pc := t }).retires k
      | .gone s => s.retires k
      | .stay s => s
      | .exc s v info faddr after => (if after then s.retires k else s).supException k v info (if after then pc + 4 else pc) faddr none

/-- A supervisor instruction that a ring may run up to (R363). -/
def State.needRing (s : State) (k r : Nat) (f : State → SRes) : SRes :=
  if r < (s.core k).ring then .exc s 1 0 0 false else f s

/-! Branches (R362, R367 to R369). -/

/-- A mispredicted branch or return is counted, and its wrong path may leave anything in the return-address predictor, which is not
repaired (R368, R369, R392). [DESIGN CHOICE, log entry 23] -/
def State.bpMiss (s : State) (k : Nat) (miss : Bool) : State :=
  if miss then
    let ras := (List.range 16).map (fun i => Config.freeValue (s.free + i) % 2 ^ 40)
    let s := { s with free := s.free + 16 }
    (s.setCore k { s.core k with ras := ras }).bump F.SUP_BPMISS_COUNT F.SUP_BPMISS_SAT k
  else s

/-- The prediction of the branch at the PC of a core (R367): only an entry of the branch target buffer written under the present key
matches. Whether a matching one predicts aright is open and a free value decides it; without one a taken branch is mispredicted. A
branch taken leaves its entry, of which the buffer holds 512. [DESIGN CHOICE, log entry 23] -/
def State.bpBranch (s : State) (k target : Nat) (taken : Bool) : State :=
  let c := s.core k
  let hit := c.btb.any (fun x => x.1 == c.key && x.2.1 == c.pc)
  let (v, s) := s.takeFree
  let s := if taken then s.setCore k { c with btb := ((c.key, c.pc, target) :: c.btb.filter (fun x => x.1 != c.key || x.2.1 != c.pc)).take 512 } else s
  s.bpMiss k (if hit then v % 2 == 1 else taken)

/-- A branch by a signed offset in instructions (R362). -/
def State.supBranch (s : State) (k : Nat) (off : Int) (taken : Bool) : SRes :=
  let target := wrapTo 40 ((s.core k).pc + 4 * off)
  let s := s.bpBranch k target taken
  if taken then .jump s target else .seq s

/-- A call writes the return address to s31 and pushes the return-address predictor (R362, R367). -/
def State.supCall (s : State) (k target : Nat) : SRes :=
  let c := s.core k
  let ret := (c.pc + 4) % 2 ^ 40
  .jump (s.setCore k { (c.putS 31 (BitVec.ofNat 64 ret)) with ras := (ret :: c.ras).take 16 }) target

/-- A jump to a register; bits [1:0] must be 0 (R362, R384). -/
def State.supJumpTo (s : State) (a : Dword) (f : Nat → SRes) : SRes :=
  if a.toNat % 4 ≠ 0 then .exc s 4 0 a.toNat false else f (a.toNat % 2 ^ 40)

/-- RET goes on at s31 whatever the return-address predictor holds, which it pops (R362, R367, R369). -/
def State.supRet (s : State) (k : Nat) : SRes :=
  let c := s.core k
  let t := c.getS 31
  s.supJumpTo t (fun a =>
    .jump ((s.setCore k { c with ras := c.ras.tail }).bpMiss k (c.ras.head? != some a)) a)

/-! System registers (R360, R361). -/

/-- The lowest-numbered pending source of the handler's level for this core, or [31] = 1 (R385). -/
def State.iack (s : State) (k : Nat) : Nat :=
  let c := s.core k
  let lvl := c.plvl - 1
  let mine (n : Nat) : Bool :=
    s.irqPending n && s.fld F.SUP_IDATA_LEVEL n == lvl && s.irqReaches n k
  match (List.range 1024).find? mine with
  | some n => if c.plvl = 0 then 2 ^ 31 else n
  | none => 2 ^ 31

/-- The value of a system register; none for a reserved number (R360). [DEDUCED, log entry 24] -/
def State.sysRead (s : State) (k sr : Nat) : Option Nat :=
  let c := s.core k
  let lg := (s.logicalCore k).getD 0
  match sr with
  | 0 => some c.pst
  | 1 => some c.tsbr
  | 2 => some c.gtbr
  | 3 => some c.gtlim
  | 4 => some c.vtbr
  | 5 => some (c.xring.headD 0 + c.xring.length * 4)
  | 6 => some (k + lg * 2 ^ 4 + b2n (s.pairMode (lg / 2) == 0) * 2 ^ 7)
  | 7 => some (s.iack k)
  | _ =>
    if 16 ≤ sr ∧ sr < 32 then some (Tab.look (fun _ => 0) c.rgnb (sr - 16)).toNat
    else if 32 ≤ sr ∧ sr < 48 then some (Tab.look (fun _ => 0) c.rgnl (sr - 32)).toNat
    else none

/-- A system register written; none where R360 calls it illegal. A write of PST leaves RING (R361); a write of TSBR draws a new
prediction key (R367). [DEDUCED, log entry 24] -/
def Sup.sysWrite (c : Sup) (sr : Nat) (v : Dword) : Option Sup :=
  let n := v.toNat
  match sr with
  | 0 => some { c with pst := setBits 4 5 (bits 8 4 n) (setBits 12 5 (bits 16 12 n) c.pst) }
  | 1 => some { c.newKey with tsbr := n / 512 * 512 }
  | 2 => some { c with gtbr := n / 16 * 16 }
  | 3 => some { c with gtlim := n }
  | 4 => some { c with vtbr := n / 16 * 16 }
  | _ =>
    if 16 ≤ sr ∧ sr < 32 then
      some { c with rgnb := Tab.put (fun _ => 0) c.rgnb (sr - 16) (BitVec.ofNat 64 (bits 8 0 n + bits 39 12 n * 2 ^ 12)) }
    else if 32 ≤ sr ∧ sr < 48 then
      some { c with rgnl := Tab.put (fun _ => 0) c.rgnl (sr - 32) (BitVec.ofNat 64 (bits 39 12 n * 2 ^ 12)) }
    else none

/-! Interrupts (R385). -/

/-- The interrupt a core would take: the pending enabled source of highest level whose target is the core, with its level
(R385). -/
def State.irqChoice (s : State) (k : Nat) : Option (Nat × Nat) :=
  let c := s.core k
  let ok (n : Nat) : Bool :=
    let l := s.fld F.SUP_IDATA_LEVEL n
    s.flag F.SUP_IDATA_EN n && s.irqPending n && s.irqReaches n k && decide (c.plvl < l + 1) && (bit 8 c.pst || l == 15)
  let best := (List.range 1024).foldl (fun (acc : Option (Nat × Nat)) n =>
    if ok n then
      match acc with
      | some (_, l) => if l < s.fld F.SUP_IDATA_LEVEL n then some (n, s.fld F.SUP_IDATA_LEVEL n) else acc
      | none => some (n, s.fld F.SUP_IDATA_LEVEL n)
    else acc) none
  best

/-- A core takes its interrupt: it leaves WAIT and enters the handler of the level (R385); a REPN is not interrupted (R373). -/
def State.supInterrupt (s : State) (k : Nat) : State :=
  if !s.alive 4 || s.boot != .done || (s.logicalCore k).isNone || 2 ≤ s.fld F.SUP_STAT_STATE k || s.flag F.MEM_STAT_WIPING 0 || (s.core k).rep != 0 then s
  else
    match s.irqChoice k with
    | none => s
    | some (n, l) =>
      (s.setFld F.SUP_STAT_STATE k 0).supException k (0x10 + l) n (s.core k).pc 0 (some l)

end Sys2Proof.Machine
end

