-- ==== Sys2Proof/Machine/HostLink.lean ====
section
/-! DEFINITION. The host link (R478 to R483, R488), requests and completions of other devices (R483, R492), mailbox commands
(R485, R486), and the debug port (R384, R452, R555). -/

namespace Sys2Proof.Machine

/-! Accesses of several bytes by an initiator that does not stop at a failed word (R434). -/

/-- The parts of a read, in turn: 0 and the bytes, 1 refused, or 2 and the bytes with those of failed words 0. -/
def State.partsPoison (s : State) (who : Agent) : List (Nat × Nat) → (Nat × List Byte) × State
  | [] => ((0, []), s)
  | (a, n) :: l =>
    let (got, s) := s.localRead who a n
    match got with
    | .ok (v, _) =>
      let ((st, t), s) := s.partsPoison who l
      ((st, if st = 1 then [] else leBytes n v ++ t), s)
    | .error .check =>
      let ((st, t), s) := s.partsPoison who l
      ((if st = 1 then 1 else 2, if st = 1 then [] else leBytes n 0 ++ t), s)
    | .error _ => ((1, []), s)

/-- n bytes read at a local address by an initiator that does not stop at a failed word (R434). -/
def State.spanPoison (s : State) (who : Agent) (a n : Nat) : (Nat × List Byte) × State := s.partsPoison who (spanParts true a n)

/-! The host (R480 to R482, R488). -/

/-- Where a host-space address leads (R481): an offset of a device's host region, an offset of its remote view, or nowhere. -/
inductive HostPlace where
  | region (d o : Nat)
  | aperture (d o : Nat)
  | nowhere
  deriving DecidableEq, Repr

/-- The place of a host-space address: SPI addresses, with BAR2 offsets from 0x40000000 on (R481). -/
def State.hostPlace (s : State) (h : Nat) : HostPlace :=
  if h < 0x10000 then .region s.devNum h
  else if h < 0x40000000 ∨ 0x80000000 ≤ h then .nowhere
  else
    let d := (h - 0x40000000) / 0x1000000
    let o := h % 0x1000000
    if o < 0x10000 then .region d o
    else if o < 0x800000 then .nowhere
    else .aperture d (s.fld F.HIF_APER_BASE d * 0x800000 + (o - 0x800000))

/-- How many bytes from a host-space address on lie in the same place (R481). -/
def hostRoom (h : Nat) : Nat :=
  let o := h % 0x1000000
  if h < 0x10000 then 0x10000 - h
  else if h < 0x40000000 then 0x40000000 - h
  else if o < 0x10000 then 0x10000 - o
  else if o < 0x800000 then 0x800000 - o
  else 0x1000000 - o

/-- A host access of n bytes cut where one place of host space ends and the next begins (R481); an access has at most 512 bytes. -/
def hostParts (h n : Nat) : List (Nat × Nat) :=
  if n = 0 then []
  else if n ≤ hostRoom h then [(h, n)]
  else [(h, hostRoom h), (h + hostRoom h, n - hostRoom h)]

/-- The most bytes that one request or write of this device asks of another, so that no payload passes 256 bytes (R491).
[DESIGN CHOICE, log entry 89] -/
def remoteMost : Nat := 248

/-- A completion to the host; over SPI, some wait bytes, the start byte 0xA5 and the data, or 0xE1 and then 0xFF until the chip select
rises (R479). [DESIGN CHOICE, log entry 91] -/
def State.hostReply (s : State) (q : HostReq) (status : Nat) (data : List Byte) : State :=
  let s := { s with reply := some ⟨status, data⟩ }
  if !q.spi then s
  else
    let (w, s) := s.takeFree
    { s with spiOut := List.replicate w 0 ++ (if status = 1 then 0xE1 :: List.replicate q.size 0xFF else 0xA5 :: data) }

/-- The address of a refusal or timeout is logged and counted (R14, R482). [DEDUCED, log entry 90] -/
def State.hostLog (s : State) (h : Nat) (f : Fld) : State :=
  ((s.setFld f 0 1).setRegN .HIF_ERRADDR 0 h).bump F.HIF_ERRCNT_COUNT F.HIF_ERRCNT_SAT 0

/-- A refused read of the host (R14). -/
def State.hostRefuse (s : State) (q : HostReq) : State := (s.hostReply q 1 []).hostLog q.addr F.HIF_STAT_REFUSED

/-- The bytes of an absent device's host region (R488): each mailbox header has ABSENT = 1, every other byte is 0.
[DESIGN CHOICE, log entry 89] -/
def absentBytes (o n : Nat) : List Byte :=
  (List.range n).map (fun k => if o + k < 0x4000 ∧ (o + k) % 64 = 2 then 4 else 0)

/-- The next request of a host read to a device: at most `remoteMost` bytes, what remains to follow. It awaits its completion until the
instant by which the whole read must be answered (R482), in the place of the request before it, `old`. -/
def State.hostAsk (s : State) (old : Option Greq) (q : HostReq) (x : HostDone) (h d o n : Nat) : State :=
  let m := min n remoteMost
  let rest := if m < n then (h + m, n - m) :: x.rest else x.rest
  let new : Greq := ⟨s.gtag, .host, d, m, q.addr, (old.map (·.due)).getD (s.now + 40000), some (q, { x with rest := rest })⟩
  let s := s.gdnSend 0x10 d s.gtag (viewBytes o ++ leBytes 2 m)
  { s with gtag := (s.gtag + 1) % 65536,
           greqs := match old with
             | none => s.greqs ++ [new]
             | some y => s.greqs.map (fun z => if z = y then new else z) }

/-- A host read's remote request no longer waits. -/
def State.greqDrop (s : State) (old : Option Greq) : State := { s with greqs := s.greqs.filter (fun x => some x != old) }

/-- A read by the host goes on (R481, R482, R488): the parts still to be read, with what has been read. `old` is the remote request that has
just been answered. A refused part refuses the whole read. [DESIGN CHOICE, log entry 89] -/
def State.hostNext (s : State) (old : Option Greq) (q : HostReq) (st : Nat) (acc : List Byte) : List (Nat × Nat) → State
  | [] => (s.greqDrop old).hostReply q st acc
  | (h, n) :: l =>
    let here (a : Nat) : (Nat × List Byte) × State := s.spanPoison .host a n
    match s.hostPlace h with
    | .nowhere => (s.greqDrop old).hostRefuse q
    | .region d o =>
      if d = s.devNum then
        let ((st', t), s) := here (0x4000E0000 + o)
        if st' = 1 then (s.greqDrop old).hostRefuse q else s.hostNext old q (max st st') (acc ++ t) l
      else if !s.gdnHas d then (s.setFld F.HIF_STAT_ABSENTRD 0 1).hostNext old q st (acc ++ absentBytes o n) l
      else s.hostAsk old q ⟨st, acc, l⟩ h d (0x1C00E0000 + o) n
    | .aperture d o =>
      match viewAddr o with
      | none => (s.greqDrop old).hostRefuse q
      | some a =>
        if d = s.devNum then
          let ((st', t), s) := here a
          if st' = 1 then (s.greqDrop old).hostRefuse q else s.hostNext old q (max st st') (acc ++ t) l
        else if !s.gdnHas d then ((s.setFld F.HIF_STAT_ABSENTRD 0 1).greqDrop old).hostReply q 1 []
        else s.hostAsk old q ⟨st, acc, l⟩ h d o n

/-- A read by the host (R482, R488), over SPI or PCI Express. [DESIGN CHOICE, log entry 89] -/
def State.hostRead (s : State) (spi : Bool) (h n : Nat) : State := s.hostNext none ⟨spi, h, n⟩ 0 [] (hostParts h n)

/-- Whether every part of a host write has a place (R481, R483). -/
def State.hostReaches (s : State) (parts : List (Nat × Nat)) : Bool :=
  parts.all (fun p => match s.hostPlace p.1 with
    | .nowhere => false
    | .region _ _ => true
    | .aperture _ o => (viewAddr o).isSome)

/-- A write to another device, in WR frames of at most `remoteMost` bytes (R491); one to an absent device is discarded (R488). -/
def State.remotePut (s : State) (d o : Nat) (l : List Byte) : State :=
  if !s.gdnHas d then s
  else repeatN ((l.length + remoteMost - 1) / remoteMost) (fun k s =>
    s.gdnSend 0x12 d 0 (viewBytes (o + k * remoteMost) ++ (l.drop (k * remoteMost)).take remoteMost)) s

/-- The parts of a host write, in turn; whether one was refused. -/
def State.partsPut (s : State) : List (Nat × Nat) → List Byte → Bool × State
  | [], _ => (false, s)
  | (h, n) :: l, b =>
    let (bad, s) := match s.hostPlace h with
      | .region d o => if d = s.devNum then
            let (e, s) := s.spanWrite .host (0x4000E0000 + o) (b.take n)
            (e.isSome, s)
          else (false, s.remotePut d (0x1C00E0000 + o) (b.take n))
      | .aperture d o => if d = s.devNum then
            let (e, s) := s.spanWrite .host ((viewAddr o).getD 0) (b.take n)
            (e.isSome, s)
          else (false, s.remotePut d o (b.take n))
      | .nowhere => (true, s)
    let (rest, s) := s.partsPut l (b.drop n)
    (bad || rest, s)

/-- A write by the host (R482, R488): a refused one is discarded and logged. [DESIGN CHOICE, log entry 89] -/
def State.hostWrite (s : State) (h : Nat) (l : List Byte) : State :=
  let parts := hostParts h l.length
  let log (s : State) : State := s.hostLog h F.HIF_STAT_REFUSED
  if !s.hostReaches parts then log s
  else
    let (bad, s) := s.partsPut parts l
    if bad then log s else s

/-- Whether the PCI Express endpoint answers (R478, R501). -/
def State.pcieOn (s : State) : Bool := s.alive 18 && s.flag F.HIF_STAT_LINKUP 0 && s.flag F.HIF_CTL_PCIEEN 0

/-- A word of the configuration space: the identifiers of option row 0 and the Type 0 header of one function (R478, R551); the spec gives
no other, whose values are free. [PRESUMED, log entry 63] -/
def State.configWord (s : State) (k : Nat) : Nat × State :=
  if k = 0 then (s.optLoad 0 1, s)
  else if k = 2 then (s.optLoad 0 2 % 2 ^ 24 * 256 + s.optLoad 0 2 / 2 ^ 24, s)
  else
    let (v, s) := s.takeFree
    (if k = 3 then setBits 16 8 0 (v % 2 ^ 32) else v % 2 ^ 32, s)

/-- n bytes of the configuration space from an offset on. -/
def State.configRead (s : State) (off n : Nat) : List Byte × State :=
  let k := off / 4
  let (l, s) := repeatN ((off + n + 3) / 4 - k) (fun i (acc : List Byte × State) =>
    let (v, s) := acc.2.configWord (k + i)
    (acc.1 ++ leBytes 4 v, s)) (([] : List Byte), s)
  ((l.drop (off % 4)).take n, s)

/-- A PCI Express read request at an offset of BAR0, BAR2 or BAR4, or of the configuration space (R478, R482).
[DESIGN CHOICE, log entry 89] -/
def State.pcieRead (s : State) (bar off n : Nat) : State :=
  if !s.pcieOn then s
  else if bar = 3 then
    let (l, s) := s.configRead (off % 0x1000) n
    s.hostReply ⟨false, off % 0x1000, n⟩ 0 l
  else if bar = 2 then s.hostReply ⟨false, off, n⟩ 0 (s.bytes (msixBase + off % 0x10000) n)
  else s.hostRead false (if bar = 0 then off % 0x10000 else 0x40000000 + off % 0x40000000) n

/-- A PCI Express write request (R478, R482): the pending-bit array takes none, and a vector that the table no longer masks is sent. -/
def State.pcieWrite (s : State) (bar off : Nat) (l : List Byte) : State :=
  if !s.pcieOn then s
  else if bar = 2 then
    let o := off % 0x10000
    let d := l.take (0x8000 - o)
    if o < 0x8000 then (s.setBytes (msixBase + o) d).msixUnmask (o / 16) ((o + d.length - 1) / 16) else s
  else s.hostWrite (if bar = 0 then off % 0x10000 else 0x40000000 + off % 0x40000000) l

/-- A malformed SPI transaction (R479). [DESIGN CHOICE, log entry 91] -/
def State.spiErr (s : State) : State := s.setFld F.HIF_STAT_SPIERR 0 1

/-- A valid SPI command makes the device the root for 1 s (R480). -/
def State.spiValid (s : State) : State := { s with spiAt := some s.now }.gdnRefresh

/-- An SPI transaction with a command byte that is not a write (R479): 0x0B reads, every other value ends it.
[DESIGN CHOICE, log entry 91] -/
def State.spiRead (s : State) (cmd addr n : Nat) : State :=
  if !s.alive 18 || !s.flag F.HIF_CTL_SPIEN 0 || cmd == 2 then s
  else if cmd ≠ 0x0B ∨ addr % 4 ≠ 0 then s.spiErr
  else
    let s := if n % 4 = 0 then s else s.spiErr
    s.spiValid.hostRead true addr (n / 4 * 4)

/-- An SPI write transaction (R479): trailing bytes are discarded. [DESIGN CHOICE, log entry 91] -/
def State.spiWrite (s : State) (addr : Nat) (l : List Byte) : State :=
  if !s.alive 18 || !s.flag F.HIF_CTL_SPIEN 0 then s
  else if addr % 4 ≠ 0 then s.spiErr
  else
    let s := if l.length % 4 = 0 then s else s.spiErr
    s.spiValid.hostWrite addr (l.take (l.length / 4 * 4))

/-- The PCI Express link enters or leaves L0 (R480). -/
def State.pcieLink (s : State) (up : Bool) : State :=
  if !s.alive 18 then s else (s.setFld F.HIF_STAT_LINKUP 0 (b2n (up && s.flag F.HIF_CTL_PCIEEN 0))).gdnRefresh

/-- 1 s passes without a valid SPI command (R480). -/
def State.spiLapse (s : State) : State :=
  match s.spiAt with
  | none => s
  | some t => { s.reach (t + 1250000000) with spiAt := none }.gdnRefresh

/-! Completions (R482, R483, R492). -/

/-- A remote read of an initiator other than the host ends with a status, 0 good, 1 refused or unanswered, 2 failed check bits, and its
data. -/
def State.remoteEnd (s : State) (q : Greq) (status : Nat) (data : List Byte) : State :=
  { s with greqs := s.greqs.filter (fun x => x != q) }.setGot q.by_ (some (q.addr, status, ofLeBytes (data.take q.size)))

/-- RDCPL received (R492): its status byte and data answer the request of its tag; a host read that needs more goes on.
[DEDUCED, log entry 90] -/
def State.readCpl (s : State) (src tag : Nat) (status : Nat) (data : List Byte) : State :=
  match s.greqs.find? (fun q => q.tag == tag && q.dev == src) with
  | none => s
  | some q =>
    let st := if status = 0 then 0 else if status = 2 then 2 else 1
    match q.host with
    | none => s.remoteEnd q st data
    | some (h, x) =>
      if st = 1 then (s.greqDrop (some q)).hostRefuse h
      else s.hostNext (some q) h (max x.status st) (x.data ++ data.take q.size) x.rest

/-- The oldest remote read is not answered within 32 µs (R482, R483). -/
def State.readTimeout (s : State) : State :=
  match s.greqs with
  | [] => s
  | q :: _ =>
    let s := s.reach q.due
    match q.host with
    | none => s.remoteEnd q 1 []
    | some (h, _) => ((s.greqDrop (some q)).hostReply h 1 []).hostLog h.addr F.HIF_STAT_TIMEOUT

/-- RDREQ received from another device (R483, R492): it reads as a remote initiator and is answered, in a payload of at most 256 bytes
(R491). [DESIGN CHOICE, log entry 89] -/
def State.readReq (s : State) (src tag o n : Nat) : State :=
  match viewAddr o with
  | none => s.gdnSend 0x11 src tag [1]
  | some a =>
    let ((st, l), s) := s.spanPoison (.remote src) a n
    s.gdnSend 0x11 src tag (BitVec.ofNat 8 st :: (if st = 1 then [] else l.take 255))

/-- WR received from another device (R483, R492). -/
def State.remoteWrite (s : State) (src o : Nat) (l : List Byte) : State :=
  match viewAddr o with
  | none => s
  | some a => (s.spanWrite (.remote src) a l).2

/-! Mailbox commands (R485, R486). -/

/-- A read of a mailbox that includes its byte 0: the reader's is a snapshot (R486). -/
def State.snapshotBy (s : State) (who : Agent) (m : Nat) : State :=
  if s.alive 18 && s.mbxReader who m then s.mbxSnap who m else s

/-! The debug port (R384, R434, R452, R555, R580). -/

/-- Whether the life-cycle state lets the debug port halt cores and access memory (R555). [DEDUCED, log entry 73] -/
def State.debugOk (s : State) : Bool := s.alive 19 && [0, 1, 3].contains s.lcState

/-- A debug halt request or a breakpoint: the core takes vector 0x0D and is halted (R384, R392). [DEDUCED, log entry 73] -/
def State.debugHalt (s : State) (k : Nat) : State :=
  if !s.debugOk || !s.alive 4 || (s.logicalCore k).isNone || 2 ≤ s.fld F.SUP_STAT_STATE k || s.flag F.MEM_STAT_WIPING 0 then s
  else
    let s := (s.setFld F.DBG_STAT_ATTACHED 0 1).supException k 0x0D 0 (s.core k).pc 0 none
    if s.fld F.SUP_STAT_STATE k = 3 then s else s.setFld F.SUP_STAT_STATE k 2

/-- A response to the debug port. [DEDUCED, log entry 73] -/
def State.debugReply (s : State) (status : Nat) (data : List Byte) : State := { s with dreply := some ⟨status, data⟩ }

/-- The debug port reads or writes n bytes, n a power of two up to 8: a refusal is an error response, and a failed word reads 0. -/
def State.debugAccess (s : State) (write : Bool) (a n v : Nat) : State :=
  if !s.debugOk then s
  else
    let s := s.setFld F.DBG_STAT_ATTACHED 0 1
    if a % n ≠ 0 then s.debugReply 1 []
    else if write then
      match s.busWrite .debug a n v none with
      | (none, s) => s.debugReply 0 []
      | (some _, s) => s.debugReply 1 []
    else
      match s.busRead .debug a n with
      | (.ok (x, _), s) => s.debugReply 0 (leBytes n x)
      | (.error .check, s) => s.debugReply 0 (leBytes n 0)
      | (.error .wait, s) => s
      | (.error _, s) => s.debugReply 1 []

end Sys2Proof.Machine
end

