-- ==== Sys2Proof/Machine/Dma.lean ====
section
/-! DEFINITION. A DMA channel's elements (R387, R388) and its start by an event (R315, R387). -/

namespace Sys2Proof.Machine

/-- The source or destination capability of a channel (R389, R393). -/
def State.dmaCapOf (s : State) (m : Nat) (dst : Bool) : Cap :=
  let word (a b : Reg) (k : Nat) : Nat := s.regN (if dst then b else a) m * 2 ^ (32 * k)
  ⟨s.flag (if dst then F.DMA_STAT_DTAG else F.DMA_STAT_STAG) m,
    BitVec.ofNat 128 (word .DMA_CAPSA .DMA_CAPDA 0 + word .DMA_CAPSB .DMA_CAPDB 1 + word .DMA_CAPSC .DMA_CAPDC 2 + word .DMA_CAPSD .DMA_CAPDD 3)⟩

/-- A channel halts at an element (R388). -/
def State.dmaHalt (s : State) (m code : Nat) : State :=
  (((s.setFld F.DMA_STAT_BUSY m 0).setFld F.DMA_CTL_EN m 0).setFld F.DMA_STAT_ERR m 1).setFld F.DMA_STAT_ERRCODE m code

/-- The ERRCODE of an error that halts a channel (R388, R393, R452, R580). -/
def BusErr.dmaCode : BusErr → Nat
  | .refused => 2
  | .check => 3
  | _ => 4

/-- Where an element lies: a physical address, or a register that a window of the types 0x2 to 0x6 presents. -/
inductive DmaPlace where
  | mem (a : Nat)
  | window (a : Nat)
  deriving DecidableEq, Repr

/-- The register address that byte `off` of a window of the types 0x2 to 0x6 presents: the logical instance's registers are those of
the physical instance that serves it (R160, R227, R382). [DEDUCED, log entry 86] -/
def State.windowAddr (s : State) (c : Cap) (off : Nat) : Nat :=
  let n := c.base + off / 0x100
  let place (blk i : Nat) : Nat := 0x400000000 + blk * 0x10000 + i * 0x100 + off % 0x100
  match c.otype with
  | 2 => place 0x17 (s.epPhys n)
  | 3 => place 0x14 n
  | 4 => place 0x16 (s.cmpPhys n)
  | 5 => place 0x12 n
  | _ => place 0x13 n

/-- The place of an element of w bytes at an offset of a capability; none where the capability, the window or a permission refuses it
(R382, R388, R450). [DESIGN CHOICE, log entry 19 and DEDUCED, log entry 86] -/
def State.dmaPlace (s : State) (c : Cap) (off w : Nat) (write : Bool) : Option DmaPlace :=
  if !s.capUsable c then none
  else match c.otype with
    | 1 => if c.len < off + w || !c.may (b2n write) then none else some (.mem (c.base + off))
    | 9 => if !write || !c.may 6 || 0x8000000 < off + w then none else some (.mem (c.base * 0x8000000 + off))
    | ot => if 7 ≤ ot || c.len * 0x100 < off + w || !c.may (b2n write) then none else some (.window (s.windowAddr c off))

/-- Whether a channel may reach the register at an address of an object window: a capability of a channel that names an object acts for the
plan, so the plan must own the register (R11, R14). [DESIGN CHOICE, log entry 19] -/
def State.windowMay (s : State) (a : Nat) : Bool :=
  s.answers a && (match s.slotAt a with
    | some (r, i) => s.regPlan r i
    | none => true)

/-- A window register read by a channel (R11, R14). -/
def State.windowRead (s : State) (who : Agent) (a : Nat) : Except BusErr Nat × State :=
  if !s.windowMay a then (.error .refused, s)
  else match s.slotAt a with
    | none => (.ok 0, s)
    | some (r, i) =>
      let (v, s) := s.regRead who r i
      (.ok v, s)

/-- A window register written. -/
def State.windowWrite (s : State) (who : Agent) (a v t : Nat) : Option BusErr × State :=
  if !s.windowMay a then (some .refused, s)
  else match s.slotAt a with
    | none => (none, s)
    | some (r, i) => (none, s.regWrite who r i v t)

/-- Whether an element of w bytes is one access at its place: not a pair of registers, and no misaligned run of bytes (R580). -/
def DmaPlace.single (p : DmaPlace) (w : Nat) : Bool :=
  match p with
  | .mem a => (a % w == 0 && (w != 8 || !isRegs a)) || remoteBase ≤ a
  | .window _ => w != 8

/-- An element read: its value, and whether flash calls it doubtful. [DESIGN CHOICE, log entry 83] -/
def State.dmaRead (s : State) (m w : Nat) (p : DmaPlace) : Except BusErr (Nat × Bool) × State :=
  match p with
  | .mem a =>
    if a % w = 0 ∨ remoteBase ≤ a then s.busRead (.dma m) a w
    else match s.spanRead (.dma m) a w with
      | (.ok (l, doubt), s) => (.ok (ofLeBytes l, doubt), s)
      | (.error e, s) => (.error e, s)
  | .window a =>
    if w < 4 ∨ a % 4 ≠ 0 then (.error .bus, s)
    else match s.windowRead (.dma m) a with
      | (.error e, s) => (.error e, s)
      | (.ok lo, s) =>
        if w = 4 then (.ok (lo, false), s)
        else match s.windowRead (.dma m) (a + 4) with
          | (.error e, s) => (.error e, s)
          | (.ok hi, s) => (.ok (lo + hi * 2 ^ 32, false), s)

/-- An element written. -/
def State.dmaPut (s : State) (m w : Nat) (p : DmaPlace) (v : Nat) : Option BusErr × State :=
  match p with
  | .mem a => if a % w = 0 ∨ remoteBase ≤ a then s.busWrite (.dma m) a w v none else s.spanWrite (.dma m) a (leBytes w v)
  | .window a =>
    if w < 4 ∨ a % 4 ≠ 0 then (some .bus, s)
    else match s.windowWrite (.dma m) a (v % 2 ^ 32) s.now with
      | (some e, s) => (some e, s)
      | (none, s) => if w = 4 then (none, s) else s.windowWrite (.dma m) (a + 4) (v / 2 ^ 32) s.now

/-- An element has moved (R387): offsets advance, LEN falls, and at 0 the channel completes. A LEN below WIDTH falls to a value the
spec leaves open. [DESIGN CHOICE, log entry 83] -/
def State.dmaAdvance (s : State) (m w : Nat) (doubt : Bool) : State :=
  let s := if doubt then s.setFld F.DMA_STAT_DOUBT m 1 else s
  let s := if s.flag F.DMA_CTL_SINC m then s.setRegN .DMA_SRCOFF m (s.regN .DMA_SRCOFF m + w) else s
  let s := if s.flag F.DMA_CTL_DINC m then s.setRegN .DMA_DSTOFF m (s.regN .DMA_DSTOFF m + w) else s
  let n := s.fld F.DMA_LEN_LEN m
  let (n, s) := if w ≤ n then (n - w, s) else
    let (v, s) := s.takeFree
    (v % 2 ^ 24, s)
  let s := s.setFld F.DMA_LEN_LEN m n
  if n = 0 then s.dmaFinish m else s

/-- Whether a read at a place changes nothing but what records it: no register lies there. -/
def DmaPlace.plain (p : DmaPlace) : Bool :=
  match p with
  | .mem a => !isRegs a
  | .window _ => false

/-- The state before an element with what its failed accesses recorded: the registers of MEM and FLC, and the events they raised (R388,
R434, R435, R450, R452). -/
def State.recorded (s t : State) : State :=
  let regs : List Reg := [.MEM_STAT, .MEM_ELOG, .MEM_ELOGL, .MEM_ELOGH, .MEM_CECNT, .MEM_UECNT, .FLC_STATA, .FLC_STATB, .FLC_CORRCNT]
  regs.foldl (fun s r => s.setReg r 0 (t.reg r 0)) { s with raised := t.raised, counted := t.counted, free := t.free }

/-- One element of a transfer (R387, R388): a failed one leaves nothing but its error and what its accesses recorded, and no part of what
it moved; one that waits for a wipe or a remote answer is tried again. [DEDUCED, log entry 87] -/
def State.dmaElement (s : State) (m : Nat) : State :=
  if !s.alive 4 || !s.flag F.DMA_STAT_BUSY m then s
  else
    let w := 2 ^ s.fld F.DMA_CTL_WIDTH m
    match s.dmaPlace (s.dmaCapOf m false) (s.regN .DMA_SRCOFF m) w false, s.dmaPlace (s.dmaCapOf m true) (s.regN .DMA_DSTOFF m) w true with
    | some p, some q =>
      match s.dmaRead m w p with
      | (.error .wait, t) => t
      | (.error e, t) => (if p.single w || p.plain then t else s).dmaHalt m e.dmaCode
      | (.ok (v, doubt), t) =>
        match t.dmaPut m w q v with
        | (none, t) => t.dmaAdvance m w doubt
        | (some .wait, _) => s
        | (some e, u) =>
          let b := if p.plain then t else s
          (if q.single w then (b.dmaPut m w q v).2 else b.recorded u).dmaHalt m e.dmaCode
    | _, _ => s.dmaHalt m 1

/-- An event reaches a channel's consumer entry (R315, R387). -/
def State.dmaEvent (s : State) (m : Nat) (lin : Lineage) : State :=
  if s.flag F.DMA_CTL_EVTRIG m && s.alive 4 then s.dmaStart m (some lin) else s

end Sys2Proof.Machine
end

