-- ==== Sys2Proof/Machine/LaneIO.lean ====
section
/-! DEFINITION. The output effects of lane engines and the paths outside their own memories: shared stores (R68), capability windows
(R39, R70, R111, R382, R580), EDGE (R75, R161 to R164), SIG (R78, R325), SEND (R82), the Lode instructions (R79 to R81, R101); the
hold buffer of a duplicated task (R396 to R400); and the refusals of R614. -/

namespace Sys2Proof.Machine

/-! Capabilities (R39, R382). -/

/-- Whether a capability gives access to n bytes at an offset of a window with a permission: 0 read, 1 write (R39, R382, R580). -/
def State.winOk (s : State) (c : Cap) (off n perm : Nat) : Bool :=
  s.capUsable c && c.may perm &&
    match c.otype with
    | 1 => decide (off + n ≤ c.len)
    | ot => decide (ot < 7) && n == 4 && decide (off + n ≤ c.len * 0x100)

/-- Whether a capability may be used with a permission for an object of a type that it names whole. -/
def State.capFor (s : State) (c : Cap) (ot perm : Nat) : Bool := s.capUsable c && c.may perm && c.otype == ot

/-! Windows. -/

/-- Whether an address lies in the Lode or in a slot table, which no lane engine writes (R295, R581). [DEDUCED, log entry 92] -/
def noLaneWrite (a : Nat) : Bool :=
  (0x100000000 ≤ a && a < 0x104000000) || (sqSpace ≤ a && 0xA0000 ≤ a % 0x100000 && a % 0x100000 < 0xB0000)

/-- A window read of n bytes (R70): memory, or a register of a resource. Flash, remote devices and other addresses are refused
(R447, R580). [DEDUCED, log entry 92] -/
def State.winRead (s : State) (e : Nat) (c : Cap) (off n : Nat) : Except BusErr Nat × State :=
  let who : Agent := .lane e
  if c.otype = 1 then
    let a := c.base + off
    if isMemory a && isMemory (a + n - 1) then
      match s.spanRead who a n with
      | (.ok (l, _), s) => (.ok (ofLeBytes l), s)
      | (.error x, s) => (.error x, s)
    else if isRegs a && n == 4 && a % 4 == 0 then s.wordRead who a
    else (.error .refused, s)
  else s.wordRead who (s.windowAddr c off)

/-- A window store of n bytes takes effect in ec t (R111). [DEDUCED, log entry 92] -/
def State.winWrite (s : State) (e : Nat) (c : Cap) (off n v t : Nat) : Option BusErr × State :=
  let who : Agent := .lane e
  if c.otype = 1 then
    let a := c.base + off
    if isSram a && isSram (a + n - 1) && !noLaneWrite a then
      if !s.alive (memDomain a) || s.underWipe a then (some .refused, s)
      else if a % n = 0 then (none, s.writeMemAt t true a n v 0)
      else (none, repeatN n (fun k s => s.writeMemAt t true (a + k) 1 (v / 2 ^ (8 * k) % 256) 0) s)
    else if isRegs a && n == 4 && a % 4 == 0 then s.wordWriteAt who a v t
    else if a < 0x10200000 then s.flashBusWrite who a n v none
    else (some .refused, s)
  else s.wordWriteAt who (s.windowAddr c off) v t

/-- How many ec after its last ec a window store takes effect (R111): 3 in the engine clock domain, 4 in any other.
[DEDUCED, log entry 93] -/
def winDelay (c : Cap) : Nat :=
  match c.otype with
  | 1 =>
    let a := c.base
    if 0x100000000 ≤ a && a < 0x400000000 then 3
    else if 0x400000000 ≤ a && a < 0x400050000 then 3
    else if 0x400170000 ≤ a && a < 0x400180000 then 3
    else 4
  | 2 => 3
  | _ => 4

/-! EDGE (R75, R161 to R164). -/

/-- Whether a field code is listed, and whether it is a time field (R161). -/
def edgeCode (f : Nat) : Option Bool :=
  if f ≤ 5 then some false else if f = 0x10 ∨ (0x20 ≤ f ∧ f ≤ 0x23) then some true else none

/-- A write of a field of a physical pair in ec t by a lane engine (R161, R163). -/
def State.edgeWrite (s : State) (p f v fine t e : Nat) : State :=
  let i := expandShort t v
  match f with
  | 0x10 => s.epOrigin p t [(.EP_ORIGINL, i % 2 ^ 32), (.EP_ORIGINH, i / 2 ^ 32), (.EP_ORIGINF, fine)] true (some e)
  | 0x20 => s.epEdge p false true (i * 128 + fine) t (some e)
  | 0x21 => s.epEdge p false false (i * 128 + fine) t (some e)
  | 0x22 => s.epEdge p true true (i * 128 + fine) t (some e)
  | 0x23 => s.epEdge p true false (i * 128 + fine) t (some e)
  | _ => s.epValue p f v t (some e)

/-- An EDGE takes effect in ec t: fenced where its slot's epoch is stale (R83), refused where the plan does not own the pair or
the pair does not answer (R14). Whether it was refused. -/
def State.edgeEffect (s : State) (e phys t n f v fine : Nat) : Bool × State :=
  if !s.slotInEpoch (e / 8) phys then (false, s.fence (e / 8))
  else
    let p := s.epPhys n
    if !s.answers (0x400170000 + p * 0x100) || !s.planOwns 2 n then (true, s)
    else (false, s.edgeWrite p f v fine t e)

/-! Issue and release (R83, R396 to R400, R614). -/

/-- An output effect issued in ec t by an instruction at pc, carrying the slot of a physical engine. `task` names the start of the
task that issues it, none for a released effect. Whether its resource refused it at once. [DEDUCED, log entry 25] -/
def State.issue (s : State) (e phys pc t : Nat) (task : Option Nat) (dup : Bool) : Effect → Bool × State
  | .sts a n v => (false, s.placeSts e phys t a n v)
  | .cst a c => (false, s.placeCst e phys t a c)
  | .stc _ off n v c =>
    (false, { s with wstores := s.wstores ++ [⟨e, phys, pc, s.slotEpoch (e / 8) phys, c, off, n, v, t + winDelay c, task, dup⟩] })
  | .edge c i f v fine => s.edgeEffect e phys t (c.base + i) f v fine
  | .send r v => (false, s.sendMsg e phys t r v task.isNone)
  | .sig c => if s.slotInEpoch (e / 8) phys && !s.planOwns 8 c.base then (true, s) else (false, s.presentSig e phys c.base t task.isNone)

/-- A refusal of an access that a lane engine issued, in ec t (R614): the issuing task aborts if it still runs; else the square only
records the refusal and raises the safety event. [DEDUCED, log entry 104] -/
def State.refuseEngine (s : State) (e phys pc t : Nat) (task : Option Nat) (dup : Bool) : State :=
  let g := s.engine e
  if g.running && task == some g.start then s.laneAbort e 4 pc t
  else (s.recordAbortAs e phys 4 pc t dup).raiseEv (sqDom (e / 8)) 4 (e / 8)

/-- An instruction of count cnt issues an output effect in its last ec: at once, or into the hold buffer of a copy of a duplicated
task, which signs it (R396, R397, R399). -/
def State.laneOut (s : State) (e cnt : Nat) (x : Effect) (records : List (List Byte)) : LRes :=
  let g := s.engine e
  if g.role = .single then
    match s.issue e (s.physOf e) g.pc (s.laneLast e cnt) (some g.start) false x with
    | (true, s) => .refuse s (s.laneLast e cnt)
    | (false, s) => .seq s
  else if g.overflow || 32 ≤ g.hold.length then .seq (s.setEng e { g with overflow := true })
  else .seq (s.setEng e (records.foldl Eng.sign { g with hold := g.hold ++ [⟨g.pc, s.physOf e, x⟩] }))

/-- The next entry of a hold buffer after a match is released in its ec (R398, R400). -/
def State.holdRelease (s : State) (e : Nat) : State :=
  let g := s.engine e
  match g.rel with
  | [] => s
  | h :: rest =>
    let t := g.relAt
    let s := (s.reach t).setEng e { g with rel := rest, relAt := t + 1 }
    match s.issue e h.phys h.pc t none true h.eff with
    | (true, s) => s.refuseEngine e h.phys h.pc t none true
    | (false, s) => s

/-- The k-th window store on its way takes effect (R111): fenced on a stale epoch (R83), else judged against the owner (R13, R614).
[DESIGN CHOICE, log entry 5] -/
def State.windowEffect (s : State) (k : Nat) : State :=
  match s.wstores[k]? with
  | none => s
  | some w =>
    let s := { s with wstores := s.wstores.eraseIdx k }.reach w.due
    if w.epoch != s.sqEpoch (w.eng / 8) then s.fence (w.eng / 8)
    else match s.winWrite w.eng w.cap w.offset w.size w.value w.due with
      | (none, s) => s
      | (some _, s) => s.refuseEngine w.eng w.phys w.pc w.due w.task w.dup

/-! Instructions. -/

/-- STS, STSH and STSB (R68). -/
def laneSts (e n : Nat) (rs ra : BitVec 5) (simm : BitVec 13) (s : State) : LRes :=
  let a := s.laneEA e ra simm
  match Region.shared.fault a n with
  | some c => .abort s c
  | none =>
    let v := (s.w e rs).toNat % 2 ^ (8 * n)
    s.laneOut e 1 (.sts a n v) [sigRecord (1 + sizeCode n * 2 ^ 8) a v]

/-- LDC, LDCH, LDCHU, LDCB and LDCBU (R39, R70). -/
def laneLdc (e n : Nat) (signed : Bool) (rd ra : BitVec 5) (simm : BitVec 13) (s : State) : LRes :=
  let a := s.laneEA e ra simm
  match Region.window.fault a n with
  | some c => .abort s c
  | none =>
    let c := (s.engine e).getCap ((a - 0x80000) / 0x10000)
    let off := a % 0x10000
    if !s.winOk c off n 0 then .abort s 4
    else match s.winRead e c off n with
      | (.ok v, s) => .seq (s.setW e rd (extend n signed v))
      | (.error .check, s) => .abort s 8
      | (.error _, s) => .refuse s (s.laneLast e 6)

/-- STC, STCH and STCB (R39, R68, R111). -/
def laneStc (e n : Nat) (rs ra : BitVec 5) (simm : BitVec 13) (s : State) : LRes :=
  let a := s.laneEA e ra simm
  match Region.window.fault a n with
  | some c => .abort s c
  | none =>
    let k := (a - 0x80000) / 0x10000
    let c := (s.engine e).getCap k
    let off := a % 0x10000
    if !s.winOk c off n 1 then .abort s 4
    else
      let v := (s.w e rs).toNat % 2 ^ (8 * n)
      s.laneOut e 1 (.stc k off n v c) [sigRecord (2 + sizeCode n * 2 ^ 8) a v]

/-- CST on a lane engine (R68, R73): a store to data memory is no output. -/
def laneCst (e : Nat) (cs : BitVec 3) (ra : BitVec 5) (s : State) : LRes :=
  let a := (s.w e ra).toNat
  match granuleFault a with
  | some c => .abort s c
  | none =>
    let c := s.lcap e cs
    let v := c.val.toNat
    if !c.tag then .abort s 4
    else if a < 0x40000 then
      let t := s.laneLast e 2
      .seq ((s.placeLocal e t a 255 (v % 2 ^ 64) true).placeLocal e t (a + 8) 255 (v / 2 ^ 64) true)
    else
      s.laneOut e 2 (.cst a c) ((List.range 4).map (fun k => sigRecord (3 + k * 2 ^ 8 + 2 ^ 16) (a + 4 * k) (v / 2 ^ (32 * k) % 2 ^ 32)))

/-- EDGE (R75, R161, R162). -/
def laneEdge (e : Nat) (cap : BitVec 3) (index : BitVec 5) (field : BitVec 8) (rs rt : BitVec 5) (s : State) : LRes :=
  match edgeCode field.toNat with
  | none => .abort s 1
  | some timed =>
    let c := s.lcap e cap
    let i := index.toNat
    if !timed ∧ rt ≠ 0 then .abort s 1
    else if !s.capFor c 2 2 || c.len < i + 1 then .abort s 4
    else
      let v := (s.w e rs).toNat
      let fine := if timed then (s.w e rt).toNat % 128 else 0
      s.laneOut e 3 (.edge c i field.toNat v fine) [sigRecord (4 + field.toNat * 2 ^ 8 + fine * 2 ^ 16) i v]

/-- SEND (R82): a route that the engine's table does not hold, or an inbound one, aborts under 0x0A. An entry that fails its check
is held to be outbound: it sends nothing and counts in LOST (R106). -/
def laneSend (e : Nat) (reg : BitVec 5) (route : BitVec 8) (s : State) : LRes :=
  let a := routeAddr s.bank e route.toNat
  let x := s.peek a 8
  if !(s.chkAt a).bad && (!routeValid x || routeIn x) then .abort s 0xA
  else
    let v := (s.w e reg).toNat
    s.laneOut e 2 (.send route.toNat v) [sigRecord 5 route.toNat v]

/-- Whether a capability names its event channel: its domain is the channel's DOM (R325). -/
def State.namesChannel (s : State) (c : Cap) : Bool := s.capFor c 8 3 && c.domain == s.fld F.EVC_CTL_DOM c.base

/-- SIG (R78, R325). -/
def laneSig (e : Nat) (cap : BitVec 3) (s : State) : LRes :=
  let c := s.lcap e cap
  if !s.namesChannel c then .abort s 4 else s.laneOut e 2 (.sig c) [sigRecord 6 c.base 0]

/-! The Lode (R79 to R81, R100, R101). -/

/-- A Lode request that is not served is counted and raises a safety event (R101, R109). -/
def State.lodeConflict (s : State) (sq : Nat) : State := (s.bump F.SQ_PORTSTAT_LODECONF F.SQ_PORTSTAT_LODESAT sq).raiseEv (sqDom sq) 7 sq

/-- The coordinates in n registers from ra on. -/
def Eng.lodeArgs (g : Eng) (n : Nat) (ra : BitVec 5) : List Word := (List.range n).map (fun k => g.getW (ra.toNat + k))

/-- A Lode instruction of dimension m, 0 for a WALK: its registers, its capability and, for a WALK, its coordinates and depth. -/
structure LodeOp where
  m     : Nat
  rd    : BitVec 5
  ra    : BitVec 5
  cap   : BitVec 3
  n     : Nat
  depth : Nat

/-- The Lode instruction that an instruction is (R79, R80). -/
def lodeOp : Instr → Option LodeOp
  | .look _ rd ra cap => some ⟨1, rd, ra, cap, 1, 0⟩
  | .interp2 _ rd ra cap => some ⟨2, rd, ra, cap, 2, 0⟩
  | .interp3 _ rd ra cap => some ⟨3, rd, ra, cap, 3, 0⟩
  | .walk _ rd ra cap nm1 depth => some ⟨0, rd, ra, cap, nm1.toNat + 1, depth.toNat⟩
  | _ => none

/-- What a Lode instruction of an engine with its first ec at t comes to: its operands and capability are judged first, and it then
reads its table (R79, R80, R86, R298). A table that the plan does not own refuses the first request: code 0x04 after one request (R14,
R307). `lost` holds of the ecs whose requests are not served (R101). -/
def State.lodeRun (s : State) (e : Nat) (x : LodeOp) (t : Nat) (lost : Nat → Bool) : LodRes × State :=
  let c := s.lcap e x.cap
  let xs := (s.engine e).lodeArgs x.n x.ra
  let run := if x.m = 0 then s.lodWalk c.base x.n x.depth xs t lost else s.lodMap c.base x.m xs t lost
  if 31 < x.ra.toNat + x.n - 1 ∨ (x.m = 0 ∧ (x.depth = 0 ∨ 24 < x.depth)) then ((.error 1, 0), s)
  else if !s.capFor c 7 0 then ((.error 4, 0), s)
  else if !s.planOwns 7 c.base && run.1.2 != 0 then ((.error 4, 1), s)
  else run

/-- The count of a Lode instruction (R59). -/
def LodeOp.count (x : LodeOp) : Nat := if x.m = 0 then 12 + 4 * x.depth else if x.m = 1 then 12 else if x.m = 2 then 16 else 24

/-- The ecs of the requests that a Lode instruction with its first ec at t sends (R100). -/
def State.lodeAsks (s : State) (e : Nat) (x : LodeOp) (t : Nat) (lost : Nat → Bool) : List Nat :=
  (lodeRequests x.m x.depth t).take (s.lodeRun e x t lost).1.2

/-- The ecs of the requests of the instruction that an engine has under way: a Lode instruction, or a repeat prefix with one as its
body, in a budget window (R58, R101), each taken as served. [DESIGN CHOICE, log entry 13] -/
def State.lodeAhead (s : State) (k : Nat) : List Nat :=
  let g := s.engine k
  let first := g.start + g.used
  let word (idx : Nat) : Option Instr := decodeLane (.lane (Fin.ofNat 512 k)) (BitVec.ofNat 32 (s.laneFetch k idx).2.1)
  let asks := match word g.pc with
    | some (.rep _ rsrc _ _ _ _ cnt nm1) =>
      match (word (g.pc + 1)).bind lodeOp with
      | some x => (List.range (if rsrc then min (s.w k cnt).toNat (nm1.toNat + 1) else nm1.toNat + 1)).flatMap
          (fun i => s.lodeAsks k x (first + 1 + i * x.count) (fun _ => false))
      | none => []
    | some i => match lodeOp i with
      | some x => s.lodeAsks k x first (fun _ => false)
      | none => []
    | none => []
  if g.running then asks.filter (fun u => u < g.start + g.budget) else []

/-- Whether an engine sends a request in an ec: one it has sent, or one of the instruction that it has under way (R101). -/
def State.lodeBusy (s : State) (k u : Nat) : Bool := (s.engine k).lode.any (fun r => r.at_ == u) || (s.lodeAhead k).contains u

/-- Whether a request of an engine in ec u is not served: a lower engine of its square sends one in that ec (R101). -/
def State.lodeLost (s : State) (e u : Nat) : Bool :=
  (List.range 8).any (fun j => 8 * (e / 8) + j < e && s.lodeBusy (8 * (e / 8) + j) u)

/-- The requests of higher engines in some ecs, already taken for served, are not served: their instruction has written 0, unless its
engine has gone on since (R101). [DESIGN CHOICE, log entry 13] -/
def State.lodeBump (s : State) (e : Nat) (ts : List Nat) : State :=
  let sq := e / 8
  repeatN 8 (fun j s =>
    let k := 8 * sq + j
    let hit := (s.engine k).lode.filter (fun r => r.served && ts.contains r.at_)
    if k ≤ e then s
    else hit.foldl (fun s r =>
      let g := s.engine k
      let g := if g.start + g.used = r.next then g.putW r.rd 0 else g
      (s.setEng k { g with lode := g.lode.map (fun x => if x = r then { x with served := false } else x) }).lodeConflict sq) s) s

/-- An engine sends requests in some ecs, for an instruction that ends before ec next: a request in whose ec a lower engine of the
square sends one is not served. Whether every one was served (R101, R109). [DESIGN CHOICE, log entry 13] -/
def State.lodeSend (s : State) (e rd next : Nat) (ts : List Nat) : Bool × State :=
  let sq := e / 8
  let new : List LodeReq := ts.map (fun u => ⟨u, !s.lodeLost e u, rd, next⟩)
  let t := (new.filter (fun r => !r.served)).foldl (fun t _ => t.lodeConflict sq) (s.lodeBump e ts)
  let g := t.engine e
  (new.all (fun r => r.served), t.setEng e { g with lode := g.lode.filter (fun r => next ≤ r.at_ + histSpan) ++ new })

/-- A Lode instruction on a lane engine, with its first ec and count: its requests go out, and its result reaches its register,
which takes 0 where a request was not served (R79, R101). A refusal is of the ec of its request (R614). -/
def laneLode (e : Nat) (x : LodeOp) (s : State) : LRes :=
  let t := (s.engine e).start + (s.engine e).used
  let ((r, n), u) := s.lodeRun e x t (s.lodeLost e)
  let (served, v) := u.lodeSend e x.rd.toNat (t + x.count) ((lodeRequests x.m x.depth t).take n)
  match r with
  | .error c => if c = 4 ∧ n = 1 then .refuse v (t + 2) else .abort v c
  | .ok val => .seq (v.setW e x.rd (if served then val else 0))

/-- LOOK, INTERP2 and INTERP3, of dimension m (R79, R80). -/
def laneLook (e m : Nat) (rd ra : BitVec 5) (cap : BitVec 3) (s : State) : LRes := laneLode e ⟨m, rd, ra, cap, m, 0⟩ s

/-- WALK (R79, R80). -/
def laneWalk (e : Nat) (rd ra : BitVec 5) (cap nm1 : BitVec 3) (depth : BitVec 5) (s : State) : LRes :=
  laneLode e ⟨0, rd, ra, cap, nm1.toNat + 1, depth.toNat⟩ s

/-- The requests that a Lode instruction has sent when its budget expires during it stay sent (R58, R101). -/
def State.lodeCut (s : State) (e : Nat) (x : LodeOp) : State :=
  let g := s.engine e
  let t := g.start + g.used
  let ts := (s.lodeAsks e x t (s.lodeLost e)).filter (fun u => u < g.start + g.budget)
  let (bad, w, _) := s.laneFetch e g.pc
  if s.engClock && g.running && decide (g.budget < g.used + x.count) && !bad && legalWord e w then (s.lodeSend e x.rd.toNat (t + x.count) ts).2 else s

end Sys2Proof.Machine
end

