-- ==== Sys2Proof/Machine/Rep.lean ====
section
/-! DEFINITION. The repeat prefix of a lane engine (R52 to R54, R85, R86), and what each instruction does as its body, with its
count (R59). -/

namespace Sys2Proof.Machine

/-- What an instruction does as the body of a REP on a lane engine, with its count; none for an instruction that R59 makes no
body. -/
def laneBodyOf (e : Nat) : Instr → Option (Nat × (State → LRes))
  | .add _ rd ra rb => some (1, laneAdd e rd ra rb)
  | .sub _ rd ra rb => some (1, laneSub e rd ra rb)
  | .and _ rd ra rb => some (1, laneAnd e rd ra rb)
  | .or _ rd ra rb => some (1, laneOr e rd ra rb)
  | .xor _ rd ra rb => some (1, laneXor e rd ra rb)
  | .andn _ rd ra rb => some (1, laneAndn e rd ra rb)
  | .shl _ rd ra rb => some (1, laneShl e rd ra rb)
  | .shr _ rd ra rb => some (1, laneShr e rd ra rb)
  | .sar _ rd ra rb => some (1, laneSar e rd ra rb)
  | .ror _ rd ra rb => some (1, laneRor e rd ra rb)
  | .min _ rd ra rb => some (1, laneMin e rd ra rb)
  | .max _ rd ra rb => some (1, laneMax e rd ra rb)
  | .minu _ rd ra rb => some (1, laneMinu e rd ra rb)
  | .maxu _ rd ra rb => some (1, laneMaxu e rd ra rb)
  | .adds _ rd ra rb => some (1, laneAdds e rd ra rb)
  | .subs _ rd ra rb => some (1, laneSubs e rd ra rb)
  | .adds15 _ rd ra rb => some (1, laneAdds15 e rd ra rb)
  | .subs15 _ rd ra rb => some (1, laneSubs15 e rd ra rb)
  | .fmin _ rd ra rb => some (1, laneFmin e rd ra rb)
  | .fmax _ rd ra rb => some (1, laneFmax e rd ra rb)
  | .mul _ rd ra rb => some (2, laneMul e rd ra rb)
  | .mulh _ rd ra rb => some (2, laneMulh e rd ra rb)
  | .mulhu _ rd ra rb => some (2, laneMulhu e rd ra rb)
  | .qmul15 _ rd ra rb => some (2, laneQmul15 e rd ra rb)
  | .qmul31 _ rd ra rb => some (2, laneQmul31 e rd ra rb)
  | .fadd _ rd ra rb => some (3, laneFadd e rd ra rb)
  | .fsub _ rd ra rb => some (3, laneFsub e rd ra rb)
  | .fmul _ rd ra rb => some (3, laneFmul e rd ra rb)
  | .fdiv _ rd ra rb => some (14, laneFdiv e rd ra rb)
  | .mov _ rd ra => some (1, laneMov e rd ra)
  | .abs _ rd ra => some (1, laneAbs e rd ra)
  | .neg _ rd ra => some (1, laneNeg e rd ra)
  | .sat15 _ rd ra => some (1, laneSat15 e rd ra)
  | .clz _ rd ra => some (1, laneClz e rd ra)
  | .fabs _ rd ra => some (1, laneFabs e rd ra)
  | .fneg _ rd ra => some (1, laneFneg e rd ra)
  | .fcvtif _ rd ra => some (3, laneFcvtif e rd ra)
  | .fcvtfi _ rd ra => some (3, laneFcvtfi e rd ra)
  | .fcvtqf _ rd ra => some (3, laneFcvtqf e rd ra)
  | .fcvtfq _ rd ra => some (3, laneFcvtfq e rd ra)
  | .fsqrt _ rd ra => some (16, laneFsqrt e rd ra)
  | .nop _ => some (1, .seq)
  | .shli _ rd ra sh => some (1, laneShli e rd ra sh)
  | .shri _ rd ra sh => some (1, laneShri e rd ra sh)
  | .sari _ rd ra sh => some (1, laneSari e rd ra sh)
  | .rori _ rd ra sh => some (1, laneRori e rd ra sh)
  | .mac _ n ra rb => some (2, laneMac e n ra rb)
  | .msu _ n ra rb => some (2, laneMsu e n ra rb)
  | .macs _ n ra rb => some (2, laneMacs e n ra rb)
  | .msus _ n ra rb => some (2, laneMsus e n ra rb)
  | .aclr _ n => some (1, laneAclr e n)
  | .ald _ n ra sh => some (1, laneAld e n ra sh)
  | .ard _ rd n sh => some (2, laneArd e rd n sh)
  | .ardl _ rd n sh => some (1, laneArdl e rd n sh)
  | .ardh _ rd n => some (1, laneArdh e rd n)
  | .fma _ rd ra rb rc => some (4, laneFma e rd ra rb rc)
  | .fms _ rd ra rb rc => some (4, laneFms e rd ra rb rc)
  | .addi _ rd ra imm => some (1, laneAddi e rd ra imm)
  | .andi _ rd ra imm => some (1, laneAndi e rd ra imm)
  | .ori _ rd ra imm => some (1, laneOri e rd ra imm)
  | .xori _ rd ra imm => some (1, laneXori e rd ra imm)
  | .movi _ rd imm => some (1, laneMovi e rd imm)
  | .movhi _ rd imm => some (1, laneMovhi e rd imm)
  | .ldw _ _ rd ra simm => some (2, fun s => s.laneLoad e .own 4 true rd ra simm)
  | .ldh _ rd ra simm => some (2, fun s => s.laneLoad e .own 2 true rd ra simm)
  | .ldhu _ rd ra simm => some (2, fun s => s.laneLoad e .own 2 false rd ra simm)
  | .ldb _ rd ra simm => some (2, fun s => s.laneLoad e .own 1 true rd ra simm)
  | .ldbu _ rd ra simm => some (2, fun s => s.laneLoad e .own 1 false rd ra simm)
  | .lds _ rd ra simm => some (4, fun s => s.laneLoad e .shared 4 true rd ra simm)
  | .ldsh _ rd ra simm => some (4, fun s => s.laneLoad e .shared 2 true rd ra simm)
  | .ldshu _ rd ra simm => some (4, fun s => s.laneLoad e .shared 2 false rd ra simm)
  | .ldsb _ rd ra simm => some (4, fun s => s.laneLoad e .shared 1 true rd ra simm)
  | .ldsbu _ rd ra simm => some (4, fun s => s.laneLoad e .shared 1 false rd ra simm)
  | .ldc _ rd ra simm => some (6, laneLdc e 4 true rd ra simm)
  | .ldch _ rd ra simm => some (6, laneLdc e 2 true rd ra simm)
  | .ldchu _ rd ra simm => some (6, laneLdc e 2 false rd ra simm)
  | .ldcb _ rd ra simm => some (6, laneLdc e 1 true rd ra simm)
  | .ldcbu _ rd ra simm => some (6, laneLdc e 1 false rd ra simm)
  | .stw _ _ rs ra simm => some (1, fun s => s.laneStore e 4 rs ra simm (s.laneLast e 1))
  | .sth _ rs ra simm => some (1, fun s => s.laneStore e 2 rs ra simm (s.laneLast e 1))
  | .stb _ rs ra simm => some (1, fun s => s.laneStore e 1 rs ra simm (s.laneLast e 1))
  | .sts _ rs ra simm => some (1, laneSts e 4 rs ra simm)
  | .stsh _ rs ra simm => some (1, laneSts e 2 rs ra simm)
  | .stsb _ rs ra simm => some (1, laneSts e 1 rs ra simm)
  | .stc _ rs ra simm => some (1, laneStc e 4 rs ra simm)
  | .stch _ rs ra simm => some (1, laneStc e 2 rs ra simm)
  | .stcb _ rs ra simm => some (1, laneStc e 1 rs ra simm)
  | .smp _ rd port => some (1, laneSmp e rd port)
  | .edge _ cap index field rs rt => some (3, laneEdge e cap index field rs rt)
  | .look _ rd ra cap => some (12, laneLook e 1 rd ra cap)
  | .interp2 _ rd ra cap => some (16, laneLook e 2 rd ra cap)
  | .interp3 _ rd ra cap => some (24, laneLook e 3 rd ra cap)
  | .walk _ rd ra cap nm1 depth => some (12 + 4 * depth.toNat, laneWalk e rd ra cap nm1 depth)
  | .send _ reg route => some (2, laneSend e reg route)
  | .recv _ reg route => some (1, laneRecv e reg route)
  | _ => none

/-- Whether an instruction uses its rd (or rs, reg) field, its ra field and its rb field as w register operands (R53). -/
def wFields : Instr → Bool × Bool × Bool
  | .add _ _ _ _ => (true, true, true)
  | .sub _ _ _ _ => (true, true, true)
  | .and _ _ _ _ => (true, true, true)
  | .or _ _ _ _ => (true, true, true)
  | .xor _ _ _ _ => (true, true, true)
  | .andn _ _ _ _ => (true, true, true)
  | .shl _ _ _ _ => (true, true, true)
  | .shr _ _ _ _ => (true, true, true)
  | .sar _ _ _ _ => (true, true, true)
  | .ror _ _ _ _ => (true, true, true)
  | .min _ _ _ _ => (true, true, true)
  | .max _ _ _ _ => (true, true, true)
  | .minu _ _ _ _ => (true, true, true)
  | .maxu _ _ _ _ => (true, true, true)
  | .adds _ _ _ _ => (true, true, true)
  | .subs _ _ _ _ => (true, true, true)
  | .adds15 _ _ _ _ => (true, true, true)
  | .subs15 _ _ _ _ => (true, true, true)
  | .fmin _ _ _ _ => (true, true, true)
  | .fmax _ _ _ _ => (true, true, true)
  | .mul _ _ _ _ => (true, true, true)
  | .mulh _ _ _ _ => (true, true, true)
  | .mulhu _ _ _ _ => (true, true, true)
  | .qmul15 _ _ _ _ => (true, true, true)
  | .qmul31 _ _ _ _ => (true, true, true)
  | .fadd _ _ _ _ => (true, true, true)
  | .fsub _ _ _ _ => (true, true, true)
  | .fmul _ _ _ _ => (true, true, true)
  | .fdiv _ _ _ _ => (true, true, true)
  | .mov _ _ _ => (true, true, false)
  | .abs _ _ _ => (true, true, false)
  | .neg _ _ _ => (true, true, false)
  | .sat15 _ _ _ => (true, true, false)
  | .clz _ _ _ => (true, true, false)
  | .fabs _ _ _ => (true, true, false)
  | .fneg _ _ _ => (true, true, false)
  | .fcvtif _ _ _ => (true, true, false)
  | .fcvtfi _ _ _ => (true, true, false)
  | .fcvtqf _ _ _ => (true, true, false)
  | .fcvtfq _ _ _ => (true, true, false)
  | .fsqrt _ _ _ => (true, true, false)
  | .shli _ _ _ _ => (true, true, false)
  | .shri _ _ _ _ => (true, true, false)
  | .sari _ _ _ _ => (true, true, false)
  | .rori _ _ _ _ => (true, true, false)
  | .mac _ _ _ _ => (false, true, true)
  | .msu _ _ _ _ => (false, true, true)
  | .macs _ _ _ _ => (false, true, true)
  | .msus _ _ _ _ => (false, true, true)
  | .ald _ _ _ _ => (false, true, false)
  | .ard _ _ _ _ => (true, false, false)
  | .ardl _ _ _ _ => (true, false, false)
  | .ardh _ _ _ => (true, false, false)
  | .fma _ _ _ _ _ => (true, true, true)
  | .fms _ _ _ _ _ => (true, true, true)
  | .addi _ _ _ _ => (true, true, false)
  | .andi _ _ _ _ => (true, true, false)
  | .ori _ _ _ _ => (true, true, false)
  | .xori _ _ _ _ => (true, true, false)
  | .movi _ _ _ => (true, false, false)
  | .movhi _ _ _ => (true, false, false)
  | .ldw _ _ _ _ _ => (true, true, false)
  | .stw _ _ _ _ _ => (true, true, false)
  | .ldh _ _ _ _ => (true, true, false)
  | .ldhu _ _ _ _ => (true, true, false)
  | .ldb _ _ _ _ => (true, true, false)
  | .ldbu _ _ _ _ => (true, true, false)
  | .lds _ _ _ _ => (true, true, false)
  | .ldsh _ _ _ _ => (true, true, false)
  | .ldshu _ _ _ _ => (true, true, false)
  | .ldsb _ _ _ _ => (true, true, false)
  | .ldsbu _ _ _ _ => (true, true, false)
  | .ldc _ _ _ _ => (true, true, false)
  | .ldch _ _ _ _ => (true, true, false)
  | .ldchu _ _ _ _ => (true, true, false)
  | .ldcb _ _ _ _ => (true, true, false)
  | .ldcbu _ _ _ _ => (true, true, false)
  | .sth _ _ _ _ => (true, true, false)
  | .stb _ _ _ _ => (true, true, false)
  | .sts _ _ _ _ => (true, true, false)
  | .stsh _ _ _ _ => (true, true, false)
  | .stsb _ _ _ _ => (true, true, false)
  | .stc _ _ _ _ => (true, true, false)
  | .stch _ _ _ _ => (true, true, false)
  | .stcb _ _ _ _ => (true, true, false)
  | .smp _ _ _ => (true, false, false)
  | .edge _ _ _ _ _ _ => (true, false, false)
  | .look _ _ _ _ => (true, true, false)
  | .interp2 _ _ _ _ => (true, true, false)
  | .interp3 _ _ _ _ => (true, true, false)
  | .walk _ _ _ _ _ _ => (true, true, false)
  | .send _ _ _ => (true, false, false)
  | .recv _ _ _ => (true, false, false)
  | _ => (false, false, false)

/-- The dimension of a Lode instruction, 0 for any other (R86). -/
def lodeDim : Instr → Nat
  | .look _ _ _ _ => 1
  | .interp2 _ _ _ _ => 2
  | .interp3 _ _ _ _ => 3
  | .walk _ _ _ _ nm1 _ => nm1.toNat + 1
  | _ => 0

/-- The access size of a load or store by its size field (R46). -/
def wordSize (n : Nat) : Nat := 2 ^ (wf 14 2 n)

/-- A 5-bit field of a word advanced by i modulo 32 (R52). -/
def advance (b : Bool) (lo i n : Nat) : Nat := if b then setBits lo 5 (wf lo 5 n + i) n else n

/-- The word of a body in repetition i: rs of EDGE lies at 18, every other rd, rs or reg field at 21 (R43, R52). -/
def bodyWord (advRb advRa advRd : Bool) (i n : Nat) : Nat :=
  advance advRd (if wf 26 6 n = 0x17 then 18 else 21) i (advance advRa 16 i (advance advRb 11 i n))

/-- Whether R53 or R86 refuses, with its advance bits, a body whose word selects an operation, whatever its operands are: the test is
made for the individual instruction. -/
def repRefused (advRb advRa advRd : Bool) (n nm1 : Nat) (i : Instr) : Bool :=
  let (d, a, b) := wFields i
  (advRd && !d) || (advRa && !a) || (advRb && !b) || (advRa && lodeDim i != 0 && decide (31 < wf 16 5 n + nm1 + lodeDim i - 1))

/-- Whether R53 refuses a body by its opcode alone. -/
def repOpcode (ainc : Bool) (op : Nat) : Bool :=
  (0x0B ≤ op && op ≤ 0x0E) || op == 0x15 || op == 0x1A || op == 0x1B || (ainc && !(0x0F ≤ op && op ≤ 0x14))

/-- A repetition of a body: its first ec, its count, what it leaves sent when the budget ends it, its result and what follows it
(R54, R58): the state after it, and whether the task goes on. It counts as one instruction for old forms (R72). [DEDUCED, log entry 98] -/
def State.laneOnce (s : State) (e idx cnt : Nat) (cut : State → State) (f : State → LRes) (after : State → State) : Bool × State :=
  let g := s.engine e
  let first := g.start + g.used
  if g.budget < g.used + cnt then (false, (cut s).budgetStop e idx)
  else
    match f (s.reach (first + cnt - 1)) with
    | .seq s => (true, (after s).laneAdvance e cnt idx)
    | .jump s _ => (true, s.laneAdvance e cnt idx)
    | .stop s => (true, s.laneAdvance e cnt idx)
    | .abort s code => (false, s.laneAbort e code idx first)
    | .refuse s t => (false, s.laneAbort e 4 idx t)

/-- Repetitions i to N − 1 of a body, of which those from m on are no operation (R52, R54). -/
def laneReps (e idx cnt m : Nat) (cut : Nat → State → State) (body : Nat → State → LRes) (after : State → State) (left : Nat) (i : Nat)
    (s : State) : Bool × State :=
  match left with
  | 0 => (true, s)
  | n + 1 =>
    match s.laneOnce e idx cnt (if i < m then cut i else id) (if i < m then body i else .seq) (if i < m then after else id) with
    | (true, s) => laneReps e idx cnt m cut body after n (i + 1) s
    | r => r

/-- The N repetitions of a decoded body of a count, and what follows them (R54, R65): the record of a body at index 4,095 that
completes holds the first ec of its last repetition. [DESIGN CHOICE, log entry 124] -/
def State.laneRepeat (s : State) (e idx count m size : Nat) (ainc : Bool) (n : Nat) (decode : Nat → Option Instr) : State :=
  let body (i : Nat) (s : State) : LRes :=
    match (decode i).bind (laneBodyOf e) with
    | some (_, f) => f s
    | none => .abort s 1
  let cut (i : Nat) (s : State) : State :=
    match (decode i).bind lodeOp with
    | some x => s.lodeCut e x
    | none => s
  let after (s : State) : State :=
    if ainc then s.setW e (op5 16 n) (s.w e (op5 16 n) + BitVec.ofNat 32 (wordSize n)) else s
  match laneReps e idx count m cut body after size 0 s with
  | (false, s) => s
  | (true, s) =>
    if idx = 4095 then s.laneAbort e 2 4095 ((s.engine e).start + (s.engine e).used - count)
    else s.setEng e { s.engine e with pc := idx + 1 }

/-- REP on a lane engine (R52 to R54, R86): its fields, its body's word and R53 are judged at REP, a body with illegal operands by the
operation that it selects; then N repetitions take the time of N bodies, and the task goes on after the body. The body is fetched as
the instruction after REP; an illegal one aborts at its own index unless the budget window ends first (R55, R58). [DEDUCED, log entry 97] -/
def State.laneRep (s : State) (e : Nat) (rsrc advRb advRa advRd ainc : Bool) (cnt : BitVec 5) (nm1 : BitVec 6) : State :=
  let g := s.engine e
  let first := g.start + g.used
  let idx := g.pc + 1
  let size := nm1.toNat + 1
  if !g.running || !s.engClock then s
  else if g.budget < g.used + 1 then s.budgetStop e g.pc
  else
    let (bad, w, s) := (s.reach first).laneFetch e g.pc
    if bad then s.laneAbort e 7 g.pc first
    else if !legalWord e w || (!rsrc && cnt != 0) || (ainc && advRa) then s.laneAbort e 1 g.pc first
    else if g.pc = 4095 then s.laneAbort e 2 4095 first
    else
      let (badBody, n, u) := (s.laneAdvance e 1 idx).laneFetch e idx
      let decode (i : Nat) : Option Instr := decodeLane (.lane (Fin.ofNat 512 e)) (BitVec.ofNat 32 (bodyWord advRb advRa advRd i n))
      let refused : Bool := match decodeLane (.lane (Fin.ofNat 512 e)) (BitVec.ofNat 32 (plain n)) with
        | some i => repRefused advRb advRa advRd n nm1.toNat i
        | none => false
      if badBody then (if g.budget < g.used + 2 then u.budgetStop e idx else u.laneAbort e 7 idx (first + 1))
      else if repOpcode ainc (wf 26 6 n) || refused then u.laneAbort e 1 g.pc first
      else
        match (decode 0).bind (laneBodyOf e) with
        | some (count, _) => u.laneRepeat e idx count (if rsrc then min (s.w e cnt).toNat size else size) size ainc n decode
        | none => if g.budget < g.used + 1 + wordCount n then u.budgetStop e idx else u.laneAbort e 1 idx (first + 1)

end Sys2Proof.Machine
end

