-- ==== Sys2Proof/Machine/SupOps.lean ====
section
/-! DEFINITION. What each instruction computes on a supervisor core: the changes of R362 to the lane profile, the system group of
R363, branches and calls, the block and atomic group (R372), repeat prefixes (R373, R374) and CMINT (R383). -/

namespace Sys2Proof.Machine

/-- A result from two s registers. -/
def State.supBin (s : State) (k : Nat) (rd ra rb : BitVec 5) (v : Dword → Dword → Dword) (f : Dword → Dword → FlagSet) : SRes :=
  let a := s.sreg k ra
  let b := s.sreg k rb
  s.supSet k rd (v a b) (f a b)

/-- A binary32 result from the low words of two s registers; bits [63:32] are 0 (R362). -/
def State.supFp (s : State) (k : Nat) (rd ra rb : BitVec 5) (v : Word → Word → Word) : SRes :=
  s.supSet k rd ((v ((s.sreg k ra).setWidth 32) ((s.sreg k rb).setWidth 32)).setWidth 64) .keep

/-- No flag is written. -/
def keepFlags (_ _ : Dword) : FlagSet := .keep

/-- ADD on a supervisor core (R60, R362). -/
def supAdd (k : Nat) (rd ra rb : BitVec 5) (s : State) : SRes :=
  s.supBin k rd ra rb (fun a b => a + b) (fun a b => .nzcv (addFlags a b))
/-- SUB on a supervisor core (R60, R362). -/
def supSub (k : Nat) (rd ra rb : BitVec 5) (s : State) : SRes :=
  s.supBin k rd ra rb (fun a b => a - b) (fun a b => .nzcv (subFlags a b))
/-- AND on a supervisor core (R60, R362). -/
def supAnd (k : Nat) (rd ra rb : BitVec 5) (s : State) : SRes :=
  s.supBin k rd ra rb (fun a b => a &&& b) (fun a b => nzOf (a &&& b))
/-- OR on a supervisor core (R60, R362). -/
def supOr (k : Nat) (rd ra rb : BitVec 5) (s : State) : SRes :=
  s.supBin k rd ra rb (fun a b => a ||| b) (fun a b => nzOf (a ||| b))
/-- XOR on a supervisor core (R60, R362). -/
def supXor (k : Nat) (rd ra rb : BitVec 5) (s : State) : SRes :=
  s.supBin k rd ra rb (fun a b => a ^^^ b) (fun a b => nzOf (a ^^^ b))
/-- ANDN on a supervisor core (R60, R362). -/
def supAndn (k : Nat) (rd ra rb : BitVec 5) (s : State) : SRes :=
  s.supBin k rd ra rb (fun a b => a &&& ~~~b) (fun a b => nzOf (a &&& ~~~b))
/-- SHL on a supervisor core (R60, R362). -/
def supShl (k : Nat) (rd ra rb : BitVec 5) (s : State) : SRes :=
  s.supBin k rd ra rb (fun a b => a <<< (b.toNat % 64)) (fun a b => nzOf (a <<< (b.toNat % 64)))
/-- SHR on a supervisor core (R60, R362). -/
def supShr (k : Nat) (rd ra rb : BitVec 5) (s : State) : SRes :=
  s.supBin k rd ra rb (fun a b => a >>> (b.toNat % 64)) (fun a b => nzOf (a >>> (b.toNat % 64)))
/-- SAR on a supervisor core (R60, R362). -/
def supSar (k : Nat) (rd ra rb : BitVec 5) (s : State) : SRes :=
  s.supBin k rd ra rb (fun a b => a.sshiftRight (b.toNat % 64)) (fun a b => nzOf (a.sshiftRight (b.toNat % 64)))
/-- ROR on a supervisor core (R60, R362). -/
def supRor (k : Nat) (rd ra rb : BitVec 5) (s : State) : SRes :=
  s.supBin k rd ra rb (fun a b => a.rotateRight (b.toNat % 64)) (fun a b => nzOf (a.rotateRight (b.toNat % 64)))
/-- ADDS on a supervisor core (R60, R362). -/
def supAdds (k : Nat) (rd ra rb : BitVec 5) (s : State) : SRes :=
  s.supBin k rd ra rb (fun a b => satAdd a b) (fun a b => .nzcv (withResult (addFlags a b) (satAdd a b)))
/-- SUBS on a supervisor core (R60, R362). -/
def supSubs (k : Nat) (rd ra rb : BitVec 5) (s : State) : SRes :=
  s.supBin k rd ra rb (fun a b => satSub a b) (fun a b => .nzcv (withResult (subFlags a b) (satSub a b)))
/-- MIN on a supervisor core (R60, R362). -/
def supMin (k : Nat) (rd ra rb : BitVec 5) (s : State) : SRes :=
  s.supBin k rd ra rb (fun a b => minS a b) (keepFlags)
/-- MAX on a supervisor core (R60, R362). -/
def supMax (k : Nat) (rd ra rb : BitVec 5) (s : State) : SRes :=
  s.supBin k rd ra rb (fun a b => maxS a b) (keepFlags)
/-- MINU on a supervisor core (R60, R362). -/
def supMinu (k : Nat) (rd ra rb : BitVec 5) (s : State) : SRes :=
  s.supBin k rd ra rb (fun a b => minU a b) (keepFlags)
/-- MAXU on a supervisor core (R60, R362). -/
def supMaxu (k : Nat) (rd ra rb : BitVec 5) (s : State) : SRes :=
  s.supBin k rd ra rb (fun a b => maxU a b) (keepFlags)
/-- ADDS15 on a supervisor core (R60, R362). -/
def supAdds15 (k : Nat) (rd ra rb : BitVec 5) (s : State) : SRes :=
  s.supBin k rd ra rb (fun a b => addS15 a b) (keepFlags)
/-- SUBS15 on a supervisor core (R60, R362). -/
def supSubs15 (k : Nat) (rd ra rb : BitVec 5) (s : State) : SRes :=
  s.supBin k rd ra rb (fun a b => subS15 a b) (keepFlags)
/-- MUL on a supervisor core (R60, R362). -/
def supMul (k : Nat) (rd ra rb : BitVec 5) (s : State) : SRes :=
  s.supBin k rd ra rb (fun a b => a * b) (keepFlags)
/-- MULH on a supervisor core (R60, R362). -/
def supMulh (k : Nat) (rd ra rb : BitVec 5) (s : State) : SRes :=
  s.supBin k rd ra rb (fun a b => mulH a b) (keepFlags)
/-- MULHU on a supervisor core (R60, R362). -/
def supMulhu (k : Nat) (rd ra rb : BitVec 5) (s : State) : SRes :=
  s.supBin k rd ra rb (fun a b => mulHU a b) (keepFlags)
/-- QMUL15 on a supervisor core (R60, R362). -/
def supQmul15 (k : Nat) (rd ra rb : BitVec 5) (s : State) : SRes :=
  s.supBin k rd ra rb (fun a b => qMul15 a b) (keepFlags)
/-- QMUL31 on a supervisor core (R60, R362). -/
def supQmul31 (k : Nat) (rd ra rb : BitVec 5) (s : State) : SRes :=
  s.supBin k rd ra rb (fun a b => qMul31 a b) (keepFlags)
/-- FADD on a supervisor core (R63, R362). -/
def supFadd (k : Nat) (rd ra rb : BitVec 5) (s : State) : SRes := s.supFp k rd ra rb (fAdd false)
/-- FSUB on a supervisor core (R63, R362). -/
def supFsub (k : Nat) (rd ra rb : BitVec 5) (s : State) : SRes := s.supFp k rd ra rb (fAdd true)
/-- FMUL on a supervisor core (R63, R362). -/
def supFmul (k : Nat) (rd ra rb : BitVec 5) (s : State) : SRes := s.supFp k rd ra rb (fMul)
/-- FDIV on a supervisor core (R63, R362). -/
def supFdiv (k : Nat) (rd ra rb : BitVec 5) (s : State) : SRes := s.supFp k rd ra rb (fDiv)
/-- FMIN on a supervisor core (R63, R362). -/
def supFmin (k : Nat) (rd ra rb : BitVec 5) (s : State) : SRes := s.supFp k rd ra rb (fMin)
/-- FMAX on a supervisor core (R63, R362). -/
def supFmax (k : Nat) (rd ra rb : BitVec 5) (s : State) : SRes := s.supFp k rd ra rb (fMax)
/-- MOV on a supervisor core (R60, R362). -/
def supMov (k : Nat) (rd ra : BitVec 5) (s : State) : SRes := s.supBin k rd ra ra (fun a _ => a) keepFlags
/-- ABS on a supervisor core (R60, R362). -/
def supAbs (k : Nat) (rd ra : BitVec 5) (s : State) : SRes := s.supBin k rd ra ra (fun a _ => absS a) keepFlags
/-- NEG on a supervisor core (R60, R362). -/
def supNeg (k : Nat) (rd ra : BitVec 5) (s : State) : SRes := s.supBin k rd ra ra (fun a _ => -a) keepFlags
/-- SAT15 on a supervisor core (R60, R362). -/
def supSat15 (k : Nat) (rd ra : BitVec 5) (s : State) : SRes := s.supBin k rd ra ra (fun a _ => sat15 a) keepFlags
/-- CLZ on a supervisor core (R60, R362). -/
def supClz (k : Nat) (rd ra : BitVec 5) (s : State) : SRes := s.supBin k rd ra ra (fun a _ => BitVec.ofNat 64 (clz a)) keepFlags
/-- FSQRT on a supervisor core (R63, R362). -/
def supFsqrt (k : Nat) (rd ra : BitVec 5) (s : State) : SRes := s.supFp k rd ra ra (fun a _ => fSqrt a)
/-- FABS on a supervisor core (R63, R362). -/
def supFabs (k : Nat) (rd ra : BitVec 5) (s : State) : SRes := s.supFp k rd ra ra (fun a _ => fAbs a)
/-- FNEG on a supervisor core (R63, R362). -/
def supFneg (k : Nat) (rd ra : BitVec 5) (s : State) : SRes := s.supFp k rd ra ra (fun a _ => fNeg a)
/-- FCVTIF on a supervisor core (R63, R362). -/
def supFcvtif (k : Nat) (rd ra : BitVec 5) (s : State) : SRes := s.supFp k rd ra ra (fun a _ => fFromInt 0 a)
/-- FCVTFI on a supervisor core (R63, R362). -/
def supFcvtfi (k : Nat) (rd ra : BitVec 5) (s : State) : SRes := s.supFp k rd ra ra (fun a _ => BitVec.ofInt 32 (fToInt 0 a))
/-- FCVTQF on a supervisor core (R63, R362). -/
def supFcvtqf (k : Nat) (rd ra : BitVec 5) (s : State) : SRes := s.supFp k rd ra ra (fun a _ => fFromInt (-31) a)
/-- FCVTFQ on a supervisor core (R63, R362). -/
def supFcvtfq (k : Nat) (rd ra : BitVec 5) (s : State) : SRes := s.supFp k rd ra ra (fun a _ => BitVec.ofInt 32 (fToInt 31 a))
/-- SHLI on a supervisor core: sh[5] comes from rb[0] (R362). -/
def supShli (k : Nat) (rd ra : BitVec 5) (sh : BitVec 6) (s : State) : SRes :=
  s.supBin k rd ra ra (fun a _ => a <<< sh.toNat) (fun a _ => nzOf (a <<< sh.toNat))
/-- SHRI on a supervisor core: sh[5] comes from rb[0] (R362). -/
def supShri (k : Nat) (rd ra : BitVec 5) (sh : BitVec 6) (s : State) : SRes :=
  s.supBin k rd ra ra (fun a _ => a >>> sh.toNat) (fun a _ => nzOf (a >>> sh.toNat))
/-- SARI on a supervisor core: sh[5] comes from rb[0] (R362). -/
def supSari (k : Nat) (rd ra : BitVec 5) (sh : BitVec 6) (s : State) : SRes :=
  s.supBin k rd ra ra (fun a _ => a.sshiftRight sh.toNat) (fun a _ => nzOf (a.sshiftRight sh.toNat))
/-- RORI on a supervisor core: sh[5] comes from rb[0] (R362). -/
def supRori (k : Nat) (rd ra : BitVec 5) (sh : BitVec 6) (s : State) : SRes :=
  s.supBin k rd ra ra (fun a _ => a.rotateRight sh.toNat) (fun a _ => nzOf (a.rotateRight sh.toNat))
/-- FMA on a supervisor core (R63, R362). -/
def supFma (k : Nat) (rd ra rb rc : BitVec 5) (s : State) : SRes :=
  let x (r : BitVec 5) : Word := (s.sreg k r).setWidth 32
  s.supSet k rd ((fFma false (x ra) (x rb) (x rc)).setWidth 64) .keep
/-- FMS on a supervisor core (R63, R362). -/
def supFms (k : Nat) (rd ra rb rc : BitVec 5) (s : State) : SRes :=
  let x (r : BitVec 5) : Word := (s.sreg k r).setWidth 32
  s.supSet k rd ((fFma true (x ra) (x rb) (x rc)).setWidth 64) .keep
/-- NOP on a supervisor core (R60). -/
def supNop (s : State) : SRes := .seq s
/-- ADDI on a supervisor core: the 32-bit operand of R62 sign-extended to 64 bits (R362), here the immediate sign-extended. -/
def supAddi (k : Nat) (rd ra : BitVec 5) (imm : BitVec 16) (s : State) : SRes :=
  let a := s.sreg k ra
  s.supSet k rd (a + imm.signExtend 64) (.nzcv (addFlags a (imm.signExtend 64)))
/-- ANDI on a supervisor core: the 32-bit operand of R62 sign-extended to 64 bits (R362), here the immediate zero-extended. -/
def supAndi (k : Nat) (rd ra : BitVec 5) (imm : BitVec 16) (s : State) : SRes :=
  let a := s.sreg k ra
  s.supSet k rd (a &&& imm.setWidth 64) (.keep)
/-- ORI on a supervisor core: the 32-bit operand of R62 sign-extended to 64 bits (R362), here the immediate zero-extended. -/
def supOri (k : Nat) (rd ra : BitVec 5) (imm : BitVec 16) (s : State) : SRes :=
  let a := s.sreg k ra
  s.supSet k rd (a ||| imm.setWidth 64) (.keep)
/-- XORI on a supervisor core: the 32-bit operand of R62 sign-extended to 64 bits (R362), here the immediate zero-extended. -/
def supXori (k : Nat) (rd ra : BitVec 5) (imm : BitVec 16) (s : State) : SRes :=
  let a := s.sreg k ra
  s.supSet k rd (a ^^^ imm.setWidth 64) (.keep)
/-- MOVI on a supervisor core (R62, R362). -/
def supMovi (k : Nat) (rd : BitVec 5) (imm : BitVec 16) (s : State) : SRes := s.supSet k rd (imm.signExtend 64) .keep
/-- MOVHI on a supervisor core (R62, R362). -/
def supMovhi (k : Nat) (rd : BitVec 5) (imm : BitVec 16) (s : State) : SRes :=
  s.supSet k rd ((imm.setWidth 32 <<< 16).signExtend 64) .keep
/-- MOVK (R362). -/
def supMovk (k : Nat) (rd : BitVec 5) (imm : BitVec 16) (hw : BitVec 2) (s : State) : SRes :=
  s.supSet k rd (BitVec.ofNat 64 (setBits (16 * hw.toNat) 16 imm.toNat (s.sreg k rd).toNat)) .keep

/-- BEQ on a supervisor core: a 64-bit comparison (R47, R362). -/
def supBeq (k : Nat) (ra rb : BitVec 5) (off : BitVec 13) (s : State) : SRes :=
  s.supBranch k off.toInt (condEq (s.sreg k ra) (s.sreg k rb))
/-- BNE on a supervisor core: a 64-bit comparison (R47, R362). -/
def supBne (k : Nat) (ra rb : BitVec 5) (off : BitVec 13) (s : State) : SRes :=
  s.supBranch k off.toInt (condNe (s.sreg k ra) (s.sreg k rb))
/-- BLT on a supervisor core: a 64-bit comparison (R47, R362). -/
def supBlt (k : Nat) (ra rb : BitVec 5) (off : BitVec 13) (s : State) : SRes :=
  s.supBranch k off.toInt (condLt (s.sreg k ra) (s.sreg k rb))
/-- BGE on a supervisor core: a 64-bit comparison (R47, R362). -/
def supBge (k : Nat) (ra rb : BitVec 5) (off : BitVec 13) (s : State) : SRes :=
  s.supBranch k off.toInt (condGe (s.sreg k ra) (s.sreg k rb))
/-- BLTU on a supervisor core: a 64-bit comparison (R47, R362). -/
def supBltu (k : Nat) (ra rb : BitVec 5) (off : BitVec 13) (s : State) : SRes :=
  s.supBranch k off.toInt (condLtu (s.sreg k ra) (s.sreg k rb))
/-- BGEU on a supervisor core: a 64-bit comparison (R47, R362). -/
def supBgeu (k : Nat) (ra rb : BitVec 5) (off : BitVec 13) (s : State) : SRes :=
  s.supBranch k off.toInt (condGeu (s.sreg k ra) (s.sreg k rb))
/-- BFLT on a supervisor core: a comparison of [31:0] (R47, R362). -/
def supBflt (k : Nat) (ra rb : BitVec 5) (off : BitVec 13) (s : State) : SRes :=
  s.supBranch k off.toInt (fLt ((s.sreg k ra).setWidth 32) ((s.sreg k rb).setWidth 32))
/-- BFGE on a supervisor core: a comparison of [31:0] (R47, R362). -/
def supBfge (k : Nat) (ra rb : BitVec 5) (off : BitVec 13) (s : State) : SRes :=
  s.supBranch k off.toInt (fGe ((s.sreg k ra).setWidth 32) ((s.sreg k rb).setWidth 32))
/-- BEQI on a supervisor core (R47, R362). -/
def supBeqi (k : Nat) (ra simm : BitVec 5) (off : BitVec 13) (s : State) : SRes :=
  s.supBranch k off.toInt (condEq (s.sreg k ra) (simm.signExtend 64))
/-- BNEI on a supervisor core (R47, R362). -/
def supBnei (k : Nat) (ra simm : BitVec 5) (off : BitVec 13) (s : State) : SRes :=
  s.supBranch k off.toInt (condNe (s.sreg k ra) (simm.signExtend 64))
/-- BLTI on a supervisor core (R47, R362). -/
def supBlti (k : Nat) (ra simm : BitVec 5) (off : BitVec 13) (s : State) : SRes :=
  s.supBranch k off.toInt (condLt (s.sreg k ra) (simm.signExtend 64))
/-- BGEI on a supervisor core (R47, R362). -/
def supBgei (k : Nat) (ra simm : BitVec 5) (off : BitVec 13) (s : State) : SRes :=
  s.supBranch k off.toInt (condGe (s.sreg k ra) (simm.signExtend 64))
/-- BLTUI on a supervisor core (R47, R362). -/
def supBltui (k : Nat) (ra simm : BitVec 5) (off : BitVec 13) (s : State) : SRes :=
  s.supBranch k off.toInt (condLtu (s.sreg k ra) (simm.signExtend 64))
/-- BGEUI on a supervisor core (R47, R362). -/
def supBgeui (k : Nat) (ra simm : BitVec 5) (off : BitVec 13) (s : State) : SRes :=
  s.supBranch k off.toInt (condGeu (s.sreg k ra) (simm.signExtend 64))
/-- CALLR on a supervisor core (R362). -/
def supCallr (k : Nat) (ra : BitVec 5) (s : State) : SRes := s.supJumpTo (s.sreg k ra) (s.supCall k)
/-- JR on a supervisor core (R362). -/
def supJr (k : Nat) (ra : BitVec 5) (s : State) : SRes := s.supJumpTo (s.sreg k ra) (.jump s)

/-- The predicate of BC on the flags of PST (R362). -/
def bcHolds (cond : BitVec 4) (pst : Nat) : Bool :=
  let n := bit 4 pst
  let z := bit 5 pst
  let c := bit 6 pst
  let v := bit 7 pst
  let p := match cond.toNat % 8 with
    | 0 => z
    | 1 => c
    | 2 => n
    | 3 => v
    | 4 => c && !z
    | 5 => n == v
    | 6 => !z && n == v
    | _ => true
  if cond.toNat < 8 then p else !p

/-- BC (R362). -/
def supBc (k : Nat) (cond : BitVec 4) (off : BitVec 22) (s : State) : SRes :=
  if cond = 15 then supIllegal s else s.supBranch k off.toInt (bcHolds cond (s.core k).pst)
/-- CALLS (R362). -/
def supCalls (k : Nat) (off : BitVec 26) (s : State) : SRes := s.supCall k (wrapTo 40 ((s.core k).pc + 4 * off.toInt))

/-! Capabilities (R73, R362, R383). -/

/-- CMOV on a supervisor core (R73). -/
def supCmov (k : Nat) (cd cs : BitVec 3) (s : State) : SRes := .seq (s.setCore k ((s.core k).putC cd.toNat ((s.core k).getC cs.toNat)))
/-- A capability result, or the capability fault (R384). -/
def State.supCap (s : State) (k : Nat) (cd : BitVec 3) : Option Cap → SRes
  | some c => .seq (s.setCore k ((s.core k).putC cd.toNat c))
  | none => .exc s 9 0 0 false
/-- CNARROW on a supervisor core (R73). -/
def supCnarrow (k : Nat) (cd cs : BitVec 3) (ra rb : BitVec 5) (s : State) : SRes :=
  s.supCap k cd (capNarrow ((s.core k).getC cs.toNat) (s.sreg k ra).toNat (s.sreg k rb).toNat)
/-- CPERM on a supervisor core (R73). -/
def supCperm (k : Nat) (cd cs : BitVec 3) (ra : BitVec 5) (s : State) : SRes :=
  s.supCap k cd (capPerm ((s.core k).getC cs.toNat) (s.sreg k ra).toNat)
/-- CCLR on a supervisor core (R73). -/
def supCclr (k : Nat) (cd : BitVec 3) (s : State) : SRes := s.supCap k cd (some { (s.core k).getC cd.toNat with tag := false })
/-- CLD on a supervisor core: 16 bytes at s[ra] with their tag (R73, R362). -/
def supCld (k : Nat) (cd : BitVec 3) (ra : BitVec 5) (s : State) : SRes :=
  let a := (s.sreg k ra).toNat
  s.supRead k a 16 (fun v doubt s =>
    (s.setCore k ((s.core k).putC cd.toNat ⟨s.tagAt a && isMemory a, BitVec.ofNat 128 v⟩)).supDoubt doubt a)
/-- CST on a supervisor core (R73, R362): through the store buffer. -/
def supCst (k : Nat) (cs : BitVec 3) (ra : BitVec 5) (s : State) : SRes :=
  let a := (s.sreg k ra).toNat
  let c := (s.core k).getC cs.toNat
  match (s.core k).accFault a 16 .write with
  | some x => .exc s x 0 a false
  | none =>
    if !c.tag then .exc s 9 0 0 false
    else s.supBuffer k ⟨a, 16, c.val.toNat, (s.core k).pc, some c⟩ .seq
/-- CMINT (R383). -/
def supCmint (k : Nat) (cd : BitVec 3) (ra rb : BitVec 5) (s : State) : SRes :=
  s.needRing k 0 (fun s =>
    let c : Cap := ⟨true, BitVec.ofNat 128 ((s.sreg k ra).toNat + (s.sreg k rb).toNat * 2 ^ 64)⟩
    s.supCap k cd (some { c with tag := !c.reserved }))

/-! The system group (R363). -/

/-- TIME on a supervisor core (R363). -/
def supTime (k : Nat) (rd : BitVec 5) (s : State) : SRes := s.supSet k rd (BitVec.ofNat 64 s.now) .keep
/-- ISYNC (R371): the store buffer drains and every prefetched instruction goes. -/
def supIsync (k : Nat) (s : State) : SRes := s.supDrained k .seq
/-- SYNC (R363). -/
def supSync (k : Nat) (s : State) : SRes := s.supDrained k .seq
/-- RETX (R380). -/
def supRetx (k : Nat) (s : State) : SRes := s.needRing k 1 (fun s => s.supRetx k)
/-- GATE (R377). -/
def supGate (k : Nat) (n : BitVec 15) (s : State) : SRes := s.supGate k n.toNat
/-- RDSR (R360). -/
def supRdsr (k : Nat) (rd : BitVec 5) (sr : BitVec 10) (s : State) : SRes :=
  match s.sysRead k sr.toNat with
  | some v => s.needRing k 1 (fun s => s.supSet k rd (BitVec.ofNat 64 v) .keep)
  | none => supIllegal s
/-- WRSR (R360): an illegal number prevails over the privilege fault. -/
def supWrsr (k : Nat) (ra : BitVec 5) (sr : BitVec 10) (s : State) : SRes :=
  match (s.core k).sysWrite sr.toNat (s.sreg k ra) with
  | some c => s.needRing k 0 (fun s => .seq (s.setCore k c))
  | none => supIllegal s
/-- WAIT (R363): the core issues nothing until an interrupt can be taken. -/
def supWait (k : Nat) (s : State) : SRes := s.needRing k 1 (fun s => .seq (s.setFld F.SUP_STAT_STATE k 1))
/-- TRAP (R363, R384). -/
def supTrap (n : BitVec 15) (s : State) : SRes := .exc s 0x0C n.toNat 0 true

/-! The block and atomic group (R372, R374). -/

/-- Whether the fields of a block instruction name three different registers, none of them s0 (R372). -/
def blockLegal (rd ra rb : BitVec 5) : Bool := rd != ra && rd != rb && ra != rb && rd != 0 && ra != 0 && rb != 0

/-- Elements of a block instruction until its count is 0, or until the boundary at which it is interrupted (R372, R374).
[DEDUCED, log entry 95] -/
def blockLoop (k : Nat) (rb : BitVec 5) (elem : State → SRes) : Nat → State → SRes
  | 0, s => if s.sreg k rb = 0 then .seq s else .stay s
  | n + 1, s =>
    if s.sreg k rb = 0 then .seq s
    else match elem s with
      | .seq s => blockLoop k rb elem n s
      | .exc s v info faddr _ => .exc s v info faddr false
      | r => r

/-- A register moved by a number of bytes. -/
def State.supStep (s : State) (k : Nat) (r : BitVec 5) (d : Int) : State := s.setSreg k r (s.sreg k r + BitVec.ofInt 64 d)

/-- One element of COPYB (R372): complete once its store has reached its target, so that a refused store finds the registers before
it (R374). -/
def copybElem (k : Nat) (rd ra rb : BitVec 5) (s : State) : SRes :=
  let d := (s.sreg k rd).toNat
  let a := (s.sreg k ra).toNat
  let e := if d % 8 = 0 ∧ a % 8 = 0 ∧ (s.sreg k rb).toNat % 8 = 0 then 8 else 1
  match (s.core k).accFault d e .write with
  | some x => .exc s x 0 d false
  | none => s.supRead k a e (fun v doubt s =>
      s.supWrite k d e v (fun s => s.supDrained k (fun s => (((s.supStep k rd e).supStep k ra e).supStep k rb (-(e : Int))).supDoubt doubt a)))
/-- COPYB (R372). -/
def supCopyb (k : Nat) (rd ra rb : BitVec 5) (upTo : Nat) (s : State) : SRes :=
  if blockLegal rd ra rb then blockLoop k rb (copybElem k rd ra rb) upTo s else supIllegal s

/-- One element of FILLB (R372, R374). -/
def fillbElem (k : Nat) (rd ra rb : BitVec 5) (s : State) : SRes :=
  let d := (s.sreg k rd).toNat
  let e := if d % 8 = 0 ∧ (s.sreg k rb).toNat % 8 = 0 then 8 else 1
  s.supWrite k d e (s.sreg k ra).toNat (fun s => s.supDrained k (fun s => .seq ((s.supStep k rd e).supStep k rb (-(e : Int)))))
/-- FILLB (R372). -/
def supFillb (k : Nat) (rd ra rb : BitVec 5) (upTo : Nat) (s : State) : SRes :=
  if blockLegal rd ra rb then blockLoop k rb (fillbElem k rd ra rb) upTo s else supIllegal s

/-- One byte of CRCB (R372): bits [63:32] of the result are 0. [DEDUCED, log entry 100] -/
def crcbElem (k : Nat) (rd ra rb : BitVec 5) (s : State) : SRes :=
  let a := (s.sreg k ra).toNat
  s.supRead k a 1 (fun v doubt s =>
    let x := crcByte ((s.sreg k rd).setWidth 32) (BitVec.ofNat 8 v)
    ((((s.setSreg k rd (x.setWidth 64)).supStep k ra 1).supStep k rb (-1))).supDoubt doubt a)
/-- CRCB (R372). -/
def supCrcb (k : Nat) (rd ra rb : BitVec 5) (upTo : Nat) (s : State) : SRes :=
  if blockLegal rd ra rb then blockLoop k rb (crcbElem k rd ra rb) upTo s else supIllegal s

/-- CAS (R372): indivisible, once the store buffer is empty. [DEDUCED, log entry 95] -/
def supCas (k : Nat) (rd ra rb : BitVec 5) (s : State) : SRes :=
  let a := (s.sreg k ra).toNat
  let c := s.core k
  if !(0x20000000 ≤ a && a < 0x21000000) || !c.allowed a .read || !c.allowed a .write then .exc s 3 0 a false
  else if a % 8 ≠ 0 then .exc s 4 0 a false
  else s.supDrained k (fun s =>
    match s.busRead (.sup k) a 8 with
    | (.error b, s) => .exc s b.vector 0 a false
    | (.ok (old, _), s) =>
      if old ≠ (s.sreg k rd).toNat then .seq (s.setSreg k rd (BitVec.ofNat 64 old))
      else
        match s.busWrite (.sup k) a 8 (s.sreg k rb).toNat (some (s.core k).pc) with
        | (some _, s) => .exc s 5 0 a false
        | (none, s) => .seq (s.setSreg k rd (BitVec.ofNat 64 old)))

/-! Repeat prefixes (R373, R374). -/

/-- What the body of a repeat prefix does on a supervisor core; none for an instruction that is no such body. -/
def supBodyOf (k : Nat) : Instr → Option (State → SRes)
  | .add _ rd ra rb => some (supAdd k rd ra rb)
  | .sub _ rd ra rb => some (supSub k rd ra rb)
  | .and _ rd ra rb => some (supAnd k rd ra rb)
  | .or _ rd ra rb => some (supOr k rd ra rb)
  | .xor _ rd ra rb => some (supXor k rd ra rb)
  | .andn _ rd ra rb => some (supAndn k rd ra rb)
  | .shl _ rd ra rb => some (supShl k rd ra rb)
  | .shr _ rd ra rb => some (supShr k rd ra rb)
  | .sar _ rd ra rb => some (supSar k rd ra rb)
  | .ror _ rd ra rb => some (supRor k rd ra rb)
  | .adds _ rd ra rb => some (supAdds k rd ra rb)
  | .subs _ rd ra rb => some (supSubs k rd ra rb)
  | .min _ rd ra rb => some (supMin k rd ra rb)
  | .max _ rd ra rb => some (supMax k rd ra rb)
  | .minu _ rd ra rb => some (supMinu k rd ra rb)
  | .maxu _ rd ra rb => some (supMaxu k rd ra rb)
  | .adds15 _ rd ra rb => some (supAdds15 k rd ra rb)
  | .subs15 _ rd ra rb => some (supSubs15 k rd ra rb)
  | .mul _ rd ra rb => some (supMul k rd ra rb)
  | .mulh _ rd ra rb => some (supMulh k rd ra rb)
  | .mulhu _ rd ra rb => some (supMulhu k rd ra rb)
  | .qmul15 _ rd ra rb => some (supQmul15 k rd ra rb)
  | .qmul31 _ rd ra rb => some (supQmul31 k rd ra rb)
  | .fadd _ rd ra rb => some (supFadd k rd ra rb)
  | .fsub _ rd ra rb => some (supFsub k rd ra rb)
  | .fmul _ rd ra rb => some (supFmul k rd ra rb)
  | .fdiv _ rd ra rb => some (supFdiv k rd ra rb)
  | .fmin _ rd ra rb => some (supFmin k rd ra rb)
  | .fmax _ rd ra rb => some (supFmax k rd ra rb)
  | .mov _ rd ra => some (supMov k rd ra)
  | .abs _ rd ra => some (supAbs k rd ra)
  | .neg _ rd ra => some (supNeg k rd ra)
  | .sat15 _ rd ra => some (supSat15 k rd ra)
  | .clz _ rd ra => some (supClz k rd ra)
  | .fsqrt _ rd ra => some (supFsqrt k rd ra)
  | .fabs _ rd ra => some (supFabs k rd ra)
  | .fneg _ rd ra => some (supFneg k rd ra)
  | .fcvtif _ rd ra => some (supFcvtif k rd ra)
  | .fcvtfi _ rd ra => some (supFcvtfi k rd ra)
  | .fcvtqf _ rd ra => some (supFcvtqf k rd ra)
  | .fcvtfq _ rd ra => some (supFcvtfq k rd ra)
  | .shli _ rd ra sh => some (supShli k rd ra sh)
  | .shri _ rd ra sh => some (supShri k rd ra sh)
  | .sari _ rd ra sh => some (supSari k rd ra sh)
  | .rori _ rd ra sh => some (supRori k rd ra sh)
  | .fma _ rd ra rb rc => some (supFma k rd ra rb rc)
  | .fms _ rd ra rb rc => some (supFms k rd ra rb rc)
  | .addi _ rd ra imm => some (supAddi k rd ra imm)
  | .andi _ rd ra imm => some (supAndi k rd ra imm)
  | .ori _ rd ra imm => some (supOri k rd ra imm)
  | .xori _ rd ra imm => some (supXori k rd ra imm)
  | .movi _ rd imm => some (supMovi k rd imm)
  | .movhi _ rd imm => some (supMovhi k rd imm)
  | .nop _ => some (supNop)
  | .ldw _ wide rd ra simm => some (fun s => s.supLoad k (if wide then 8 else 4) true rd ra simm)
  | .ldh _ rd ra simm => some (fun s => s.supLoad k 2 true rd ra simm)
  | .ldhu _ rd ra simm => some (fun s => s.supLoad k 2 false rd ra simm)
  | .ldb _ rd ra simm => some (fun s => s.supLoad k 1 true rd ra simm)
  | .ldbu _ rd ra simm => some (fun s => s.supLoad k 1 false rd ra simm)
  | .stw _ wide rs ra simm => some (fun s => s.supStore k (if wide then 8 else 4) rs ra simm)
  | .sth _ rs ra simm => some (fun s => s.supStore k 2 rs ra simm)
  | .stb _ rs ra simm => some (fun s => s.supStore k 1 rs ra simm)
  | _ => none

/-- The base register that AINC advances for a load or store body, and its access size (R52). -/
def supBase : Instr → Option (BitVec 5 × Nat)
  | .ldw _ wide _ ra _ => some (ra, if wide then 8 else 4)
  | .ldh _ _ ra _ => some (ra, 2)
  | .ldhu _ _ ra _ => some (ra, 2)
  | .ldb _ _ ra _ => some (ra, 1)
  | .ldbu _ _ ra _ => some (ra, 1)
  | .stw _ wide _ ra _ => some (ra, if wide then 8 else 4)
  | .sth _ _ ra _ => some (ra, 2)
  | .stb _ _ ra _ => some (ra, 1)
  | _ => none

/-- What follows a repetition: AINC, and under REPI the count register decreases (R52, R373). [DEDUCED, log entry 99] -/
def State.supAfter (s : State) (k : Nat) (inc : Option (BitVec 5 × Nat)) (dec : Option (BitVec 5)) : State :=
  let s := match inc with
    | some (r, n) => s.supStep k r n
    | none => s
  match dec with
  | some r => s.supStep k r (-1)
  | none => s

/-- A REPN whose body awaits a remote answer keeps the repetitions that are complete: it is never interrupted (R373). -/
def State.supHold (s : State) (k done : Nat) (dec : Option (BitVec 5)) : State :=
  if dec.isNone && s.greqs.any (fun q => q.by_ == .sup k) then s.setCore k { s.core k with rep := done + 1 } else s

/-- Repetitions of a body: `dec` is the count register of REPI, whose repetitions end when it is 0 (R373); a fault saves the PC of
the prefix with the progress made, and a repetition is complete once its store has reached its target (R374). `done` counts the
repetitions before these. -/
def supRepeat (k : Nat) (inc : Option (BitVec 5 × Nat)) (dec : Option (BitVec 5)) (body : State → SRes) (done : Nat) : Nat → State → SRes
  | 0, s =>
    match dec with
    | some r => if s.sreg k r = 0 then .jump s (((s.core k).pc + 8) % 2 ^ 40) else .stay s
    | none => .jump s (((s.core k).pc + 8) % 2 ^ 40)
  | n + 1, s =>
    if dec.any (fun r => s.sreg k r == 0) then .jump s (((s.core k).pc + 8) % 2 ^ 40)
    else match body s with
      | .seq s =>
        let t := s.supDrainAll k
        if s.supLeft t k then .stay t else supRepeat k inc dec body (done + 1) n (t.supAfter k inc dec)
      | .stay s => .stay (s.supHold k done dec)
      | .exc s v info faddr after => .exc (if after then s.supAfter k inc dec else s) v info faddr false
      | r => r

/-- A repeat prefix with its body, which it fetches (R373); n repetitions or, under REPI, up to n. [DEDUCED, log entry 95] -/
def State.supRep (s : State) (k : Nat) (ainc : Bool) (dec : Option (BitVec 5)) (n : Nat) : SRes :=
  let a := ((s.core k).pc + 4) % 2 ^ 40
  let done := (s.core k).rep - 1
  match (s.setCore k { s.core k with rep := 0 }).supFetch k a with
  | (.error v, s) => .exc s v 0 a false
  | (.ok (word, doubt), s) =>
    match decodeSupBody (.sup (Fin.ofNat 10 k)) word with
    | none => supIllegal s
    | some i =>
      match supBodyOf k i with
      | none => supIllegal s
      | some body => s.doubtAfter k doubt a (supRepeat k (if ainc then supBase i else none) dec body done (n - done) s)

/-- REPI (R373). [DEDUCED, log entry 99] -/
def supRepi (k : Nat) (ainc : Bool) (cnt : BitVec 5) (upTo : Nat) (s : State) : SRes := s.supRep k ainc (some cnt) upTo
/-- REPN (R373): N repetitions, or as many as the count register says if fewer. [DEDUCED, log entry 99] -/
def supRepn (k : Nat) (rsrc ainc : Bool) (cnt : BitVec 5) (nm1 : BitVec 6) (s : State) : SRes :=
  let n := nm1.toNat + 1
  s.supRep k ainc none (if rsrc then min (s.sreg k cnt).toNat n else n)

end Sys2Proof.Machine
end

