-- ==== Sys2Proof/Machine/Access.lean ====
section
/-! DEFINITION. The meanings of the core instructions: loads and stores (R67 to R71, R73, R362). -/

namespace Sys2Proof.Machine

/-- LDW (R67). -/
def execLdw (c : Core) (wide : Bool) (rd ra : BitVec 5) (simm : BitVec 13) (s : State) : Host.Outcome State Fault Refusal :=
  match c with
  | .lane e => .next (s.laneRun e.val 2 (fun s => if wide then .abort s 1 else s.laneLoad e.val .own 4 true rd ra simm)).finish
  | .sup k => .next (s.supRun k.val (fun s => s.supLoad k.val (if wide then 8 else 4) true rd ra simm)).finish

/-- LDH (R67). -/
def execLdh (c : Core) (rd ra : BitVec 5) (simm : BitVec 13) (s : State) : Host.Outcome State Fault Refusal :=
  match c with
  | .lane e => .next (s.laneRun e.val 2 (fun s => s.laneLoad e.val .own 2 true rd ra simm)).finish
  | .sup k => .next (s.supRun k.val (fun s => s.supLoad k.val 2 true rd ra simm)).finish

/-- LDHU (R67). -/
def execLdhu (c : Core) (rd ra : BitVec 5) (simm : BitVec 13) (s : State) : Host.Outcome State Fault Refusal :=
  match c with
  | .lane e => .next (s.laneRun e.val 2 (fun s => s.laneLoad e.val .own 2 false rd ra simm)).finish
  | .sup k => .next (s.supRun k.val (fun s => s.supLoad k.val 2 false rd ra simm)).finish

/-- LDB (R67). -/
def execLdb (c : Core) (rd ra : BitVec 5) (simm : BitVec 13) (s : State) : Host.Outcome State Fault Refusal :=
  match c with
  | .lane e => .next (s.laneRun e.val 2 (fun s => s.laneLoad e.val .own 1 true rd ra simm)).finish
  | .sup k => .next (s.supRun k.val (fun s => s.supLoad k.val 1 true rd ra simm)).finish

/-- LDBU (R67). -/
def execLdbu (c : Core) (rd ra : BitVec 5) (simm : BitVec 13) (s : State) : Host.Outcome State Fault Refusal :=
  match c with
  | .lane e => .next (s.laneRun e.val 2 (fun s => s.laneLoad e.val .own 1 false rd ra simm)).finish
  | .sup k => .next (s.supRun k.val (fun s => s.supLoad k.val 1 false rd ra simm)).finish

/-- STW (R68). -/
def execStw (c : Core) (wide : Bool) (rs ra : BitVec 5) (simm : BitVec 13) (s : State) : Host.Outcome State Fault Refusal :=
  match c with
  | .lane e => .next (s.laneRun e.val 1 (fun s => if wide then .abort s 1 else s.laneStore e.val 4 rs ra simm (s.laneLast e.val 1))).finish
  | .sup k => .next (s.supRun k.val (fun s => s.supStore k.val (if wide then 8 else 4) rs ra simm)).finish

/-- STH (R68). -/
def execSth (c : Core) (rs ra : BitVec 5) (simm : BitVec 13) (s : State) : Host.Outcome State Fault Refusal :=
  match c with
  | .lane e => .next (s.laneRun e.val 1 (fun s => s.laneStore e.val 2 rs ra simm (s.laneLast e.val 1))).finish
  | .sup k => .next (s.supRun k.val (fun s => s.supStore k.val 2 rs ra simm)).finish

/-- STB (R68). -/
def execStb (c : Core) (rs ra : BitVec 5) (simm : BitVec 13) (s : State) : Host.Outcome State Fault Refusal :=
  match c with
  | .lane e => .next (s.laneRun e.val 1 (fun s => s.laneStore e.val 1 rs ra simm (s.laneLast e.val 1))).finish
  | .sup k => .next (s.supRun k.val (fun s => s.supStore k.val 1 rs ra simm)).finish

/-- LDS (R98). -/
def execLds (c : Core) (rd ra : BitVec 5) (simm : BitVec 13) (s : State) : Host.Outcome State Fault Refusal :=
  match c with
  | .lane e => .next (s.laneRun e.val 4 (fun s => s.laneLoad e.val .shared 4 true rd ra simm)).finish
  | .sup k => .next (s.supRun k.val supIllegal).finish

/-- LDSH (R98). -/
def execLdsh (c : Core) (rd ra : BitVec 5) (simm : BitVec 13) (s : State) : Host.Outcome State Fault Refusal :=
  match c with
  | .lane e => .next (s.laneRun e.val 4 (fun s => s.laneLoad e.val .shared 2 true rd ra simm)).finish
  | .sup k => .next (s.supRun k.val supIllegal).finish

/-- LDSHU (R98). -/
def execLdshu (c : Core) (rd ra : BitVec 5) (simm : BitVec 13) (s : State) : Host.Outcome State Fault Refusal :=
  match c with
  | .lane e => .next (s.laneRun e.val 4 (fun s => s.laneLoad e.val .shared 2 false rd ra simm)).finish
  | .sup k => .next (s.supRun k.val supIllegal).finish

/-- LDSB (R98). -/
def execLdsb (c : Core) (rd ra : BitVec 5) (simm : BitVec 13) (s : State) : Host.Outcome State Fault Refusal :=
  match c with
  | .lane e => .next (s.laneRun e.val 4 (fun s => s.laneLoad e.val .shared 1 true rd ra simm)).finish
  | .sup k => .next (s.supRun k.val supIllegal).finish

/-- LDSBU (R98). -/
def execLdsbu (c : Core) (rd ra : BitVec 5) (simm : BitVec 13) (s : State) : Host.Outcome State Fault Refusal :=
  match c with
  | .lane e => .next (s.laneRun e.val 4 (fun s => s.laneLoad e.val .shared 1 false rd ra simm)).finish
  | .sup k => .next (s.supRun k.val supIllegal).finish

/-- STS (R93). -/
def execSts (c : Core) (rs ra : BitVec 5) (simm : BitVec 13) (s : State) : Host.Outcome State Fault Refusal :=
  match c with
  | .lane e => .next (s.laneRun e.val 1 (laneSts e.val 4 rs ra simm)).finish
  | .sup k => .next (s.supRun k.val supIllegal).finish

/-- STSH (R93). -/
def execStsh (c : Core) (rs ra : BitVec 5) (simm : BitVec 13) (s : State) : Host.Outcome State Fault Refusal :=
  match c with
  | .lane e => .next (s.laneRun e.val 1 (laneSts e.val 2 rs ra simm)).finish
  | .sup k => .next (s.supRun k.val supIllegal).finish

/-- STSB (R93). -/
def execStsb (c : Core) (rs ra : BitVec 5) (simm : BitVec 13) (s : State) : Host.Outcome State Fault Refusal :=
  match c with
  | .lane e => .next (s.laneRun e.val 1 (laneSts e.val 1 rs ra simm)).finish
  | .sup k => .next (s.supRun k.val supIllegal).finish

/-- LDC (R70). -/
def execLdc (c : Core) (rd ra : BitVec 5) (simm : BitVec 13) (s : State) : Host.Outcome State Fault Refusal :=
  match c with
  | .lane e => .next (s.laneRun e.val 6 (laneLdc e.val 4 true rd ra simm)).finish
  | .sup k => .next (s.supRun k.val supIllegal).finish

/-- LDCH (R70). -/
def execLdch (c : Core) (rd ra : BitVec 5) (simm : BitVec 13) (s : State) : Host.Outcome State Fault Refusal :=
  match c with
  | .lane e => .next (s.laneRun e.val 6 (laneLdc e.val 2 true rd ra simm)).finish
  | .sup k => .next (s.supRun k.val supIllegal).finish

/-- LDCHU (R70). -/
def execLdchu (c : Core) (rd ra : BitVec 5) (simm : BitVec 13) (s : State) : Host.Outcome State Fault Refusal :=
  match c with
  | .lane e => .next (s.laneRun e.val 6 (laneLdc e.val 2 false rd ra simm)).finish
  | .sup k => .next (s.supRun k.val supIllegal).finish

/-- LDCB (R70). -/
def execLdcb (c : Core) (rd ra : BitVec 5) (simm : BitVec 13) (s : State) : Host.Outcome State Fault Refusal :=
  match c with
  | .lane e => .next (s.laneRun e.val 6 (laneLdc e.val 1 true rd ra simm)).finish
  | .sup k => .next (s.supRun k.val supIllegal).finish

/-- LDCBU (R70). -/
def execLdcbu (c : Core) (rd ra : BitVec 5) (simm : BitVec 13) (s : State) : Host.Outcome State Fault Refusal :=
  match c with
  | .lane e => .next (s.laneRun e.val 6 (laneLdc e.val 1 false rd ra simm)).finish
  | .sup k => .next (s.supRun k.val supIllegal).finish

/-- STC (R68). -/
def execStc (c : Core) (rs ra : BitVec 5) (simm : BitVec 13) (s : State) : Host.Outcome State Fault Refusal :=
  match c with
  | .lane e => .next (s.laneRun e.val 1 (laneStc e.val 4 rs ra simm)).finish
  | .sup k => .next (s.supRun k.val supIllegal).finish

/-- STCH (R68). -/
def execStch (c : Core) (rs ra : BitVec 5) (simm : BitVec 13) (s : State) : Host.Outcome State Fault Refusal :=
  match c with
  | .lane e => .next (s.laneRun e.val 1 (laneStc e.val 2 rs ra simm)).finish
  | .sup k => .next (s.supRun k.val supIllegal).finish

/-- STCB (R68). -/
def execStcb (c : Core) (rs ra : BitVec 5) (simm : BitVec 13) (s : State) : Host.Outcome State Fault Refusal :=
  match c with
  | .lane e => .next (s.laneRun e.val 1 (laneStc e.val 1 rs ra simm)).finish
  | .sup k => .next (s.supRun k.val supIllegal).finish

/-- CLD (R73). -/
def execCld (c : Core) (cd : BitVec 3) (ra : BitVec 5) (s : State) : Host.Outcome State Fault Refusal :=
  match c with
  | .lane e => .next (s.laneRun e.val 5 (laneCld e.val cd ra)).finish
  | .sup k => .next (s.supRun k.val (supCld k.val cd ra)).finish

/-- CST (R73). -/
def execCst (c : Core) (cs : BitVec 3) (ra : BitVec 5) (s : State) : Host.Outcome State Fault Refusal :=
  match c with
  | .lane e => .next (s.laneRun e.val 2 (laneCst e.val cs ra)).finish
  | .sup k => .next (s.supRun k.val (supCst k.val cs ra)).finish

end Sys2Proof.Machine
end

