-- ==== Sys2Proof/Machine/Deliver.lean ====
section
/-! DEFINITION. The delivery of events to consumers and task inputs (R119, R315, R316, R320, R322). -/

namespace Sys2Proof.Machine

/-- Where a task-input binding of a bank lies (R147, R149, R581). -/
def inputBindAddr (b e j : Nat) : Nat := sqBase (e / 8) + 0xB9000 + b * 0x1000 + e % 8 * 0x200 + 0x20 + 4 * j

/-- Whether a bank binds channel k to task input n of an engine (R149). -/
def State.inputBound (s : State) (b e n k : Nat) : Bool :=
  (List.range 64).any (fun j => let a := inputBindAddr b e j
    (s.byte a).toNat == n && s.peek (a + 2) 2 == k)

/-- The events of some channels reach the task inputs of the active bank in ec t, in powered squares (R119, R316). -/
def State.deliverInputs (s : State) (chans : List Nat) (t : Nat) : State :=
  if !s.bankOn || chans.isEmpty then s
  else repeatN 4096 (fun i s =>
    let e := i / 8
    let n := i % 8
    if !s.alive (sqDom (e / 8)) then s
    else
      match chans.filter (fun k => s.inputBound s.bank e n k) with
      | [] => s
      | k :: rest => s.countInput s.bank e n (rest.length + 1) (rest.foldl min k) t) s

/-- An event reaches consumer entry i in ec t (R315, R320, R322). -/
def State.deliverTo (s : State) (f : Flight) (t i : Nat) : State :=
  if i < 64 then s.cvEvent i t f.lin
  else if i < 88 then s.ssiEvent (i - 64) t f.lin
  else if i < 120 then s.dmaEvent (i - 88) f.lin
  else if i < 184 then s.groupAction t (i - 120) f.chan true
  else s.groupAction t (i - 184) f.chan false

/-- An event in flight reaches the consumers of one of its two ecs. -/
def State.deliverFlight (s : State) (t : Nat) (f : Flight) : State :=
  repeatN 248 (fun i s => if s.consumes i f.chan && ((consumerClk i == f.clk) == !f.near) then s.deliverTo f t i else s) s

/-- Every event in flight that is due in the next ec of deliveries reaches its consumers (R316). -/
def State.deliverEvents (s : State) : State :=
  match s.nextDelivery with
  | none => s
  | some t =>
    let due : List Flight := s.flights.filter (fun f => f.due == t)
    let s := { s with flights := s.flights.filterMap (fun (f : Flight) => if f.due = t then (if f.near then none else some { f with near := true }) else some f) }
    let s := due.foldl (fun (s : State) f => s.deliverFlight t f) (s.reach t)
    s.deliverInputs ((due.filter (fun f => (f.clk == 0) == !f.near)).map (fun f => f.chan)) t

end Sys2Proof.Machine
end

