-- ==== Sys2Proof/Machine/Initiate.lean ====
section
/-! DEFINITION. Accesses that a command names with their initiator (R4, R14, R614); the shared part of a store buffer (R92); flash
command sequences as a whole (R448 to R453); and the operands of host and rack commands. -/

namespace Sys2Proof

/-- The agent that an initiator is. -/
def Initiator.agent : Initiator → Machine.Agent
  | .sup k => .sup k.val
  | .lane e => .lane e.val
  | .dma m => .dma m.val
  | .host => .host
  | .remote d => .remote d.val
  | .debug => .debug

end Sys2Proof

namespace Sys2Proof.Machine

/-- The host-space address by which the host reaches a local address: BAR0 for the host region, else the device's aperture (R481,
R482). [DEDUCED, log entry 90] -/
def State.hostOf (s : State) (a : Nat) : Nat :=
  if 0x4000E0000 ≤ a ∧ a < 0x4000F0000 then a - 0x4000E0000
  else 0x40800000 + s.devNum * 0x1000000 + a % 0x800000

/-- How an initiator sees that its access to an address did not complete (R14, R614): a bus-error exception, an abort or record, a
halt, the host's log, or an error response. -/
def State.told (s : State) (who : Initiator) (a : Nat) (b : BusErr) : State :=
  match who with
  | .sup k => if s.coreRuns k.val then s.supException k.val b.vector 0 (s.core k.val).pc a none else s
  | .lane e =>
    let g := s.engine e.val
    s.refuseEngine e.val (s.physOf e.val) g.pc s.now (if g.running then some g.start else none) (g.role != .single)
  | .dma m => s.dmaHalt m.val b.dmaCode
  | .host => s.hostLog (s.hostOf a) F.HIF_STAT_REFUSED
  | .remote _ => s
  | .debug => s.debugReply 1 []

/-- A write with its error told to the initiator. -/
def State.tell (who : Initiator) (a : Nat) : Option BusErr × State → State
  | (none, s) => s
  | (some b, s) => s.told who a b

/-- A 32-bit write of a register-space address by an initiator now. [DEDUCED, log entry 104] -/
def State.accessBy (s : State) (who : Initiator) (a v : Nat) : State := State.tell who a (s.wordWrite who.agent a v)

/-- The physical address of a register (R584 to R595). -/
def Reg.addr (r : Reg) (i : Nat) : Nat :=
  match regPlaces.find? (fun p => p.reg == r) with
  | some p => p.base + i * p.stride
  | none => 0

/-- A plain write of a 32-bit word at an address of register space (R4, R580); no other address is a register. [DEDUCED, log entry 103] -/
def State.registerWrite (s : State) (who : Initiator) (a v : Nat) : State :=
  if isRegs a && a % 4 == 0 then s.accessBy who a v else s

/-- A write of a register of an instance by an initiator now. [DEDUCED, log entry 103] -/
def State.writeBy (s : State) (who : Initiator) (r : Reg) (i v : Nat) : State := s.accessBy who (r.addr i) v

/-- A write through a selector (R585 to R590) of the entry it names: at the address of the data register, by an initiator. -/
def State.writeSel (s : State) (who : Initiator) (a : Nat) (r : Reg) (i v : Nat) : State :=
  State.tell who a (
    if !s.answers a || !s.regMay who.agent r i || s.regKept r i v then (some .refused, s)
    else (none, s.regWrite who.agent r i v s.now))

/-- A write of Flint's routing table (R244). -/
def State.tdataBy (s : State) (who : Initiator) (i v : Nat) : State :=
  match fltEntry i with
  | some (r, j) => s.writeSel who 0x400040004 r j v
  | none => if s.answers 0x400040004 && who.agent.owner false then s.fltWrite i v else s.told who 0x400040004 .refused

/-- A task whose budget runs out before END stops (R58). -/
def State.budgetExpiry (s : State) (e : Nat) : State :=
  let g := s.engine e
  if g.running then s.budgetStop e g.pc else s

/-! Flash command sequences (R448 to R453). -/

/-- The initiator of a flash sequence: a supervisor core, or a DMA channel from 10 on (R450). -/
def flashBy (i : Fin 42) : Initiator :=
  if i.val < 10 then .sup (Fin.ofNat 10 i.val) else .dma (Fin.ofNat 32 (i.val - 10))

/-- Where the code that an initiator runs lies: a core's instruction, none for a channel (R453). [DEDUCED, log entry 42] -/
def State.flashFrom (s : State) : Initiator → Option Nat
  | .sup k => some (s.core k.val).pc
  | _ => none

/-- A complete command sequence of an initiator on a bank, every write of it in time: its code, the offset, sector or row that it
acts on, and its data words (R448 to R453). -/
def State.flashSeq (s : State) (by_ : Fin 42) (bank : Bool) (code place : Nat) (ws : List Nat) : State :=
  let who := flashBy by_
  let k := b2n bank
  let a := k * 0x8000000 + 0x7A40
  let self := match s.flashFrom who with
    | some pc => decide (pc < 0x10200000) && (s.flashAt pc).1 == k
    | none => false
  if !s.alive 3 then s.told who a .refused
  else if !s.flashMay who.agent k then (s.setFst k 16 true).told who a .refused
  else
    let s := (s.seqExpire k).seqYield who.agent k
    match (s.fbank k).seq with
    | some q => if q.by_ = who.agent then s.seqBreak k else s.setFst k 4 true
    | none => if self then s.setFst k 3 true else s.flashRun who.agent k code place ws

/-- One write of a sequence (R448): a 32-bit write to a bank. -/
def State.flashStep (s : State) (by_ : Fin 42) (bank : Bool) (off v : Nat) : State :=
  let who := flashBy by_
  let a := b2n bank * 0x8000000 + off
  State.tell who a (s.flashBusWrite who.agent a 4 v (s.flashFrom who))

/-- Data words of 32 bytes of PROGRAM BUFFER; a buffer that leaves its 1 KiB page is refused (R449, R455). -/
def State.flashBuffer (s : State) (by_ : Fin 42) (bank : Bool) (word n : Nat) (data : Nat) : State :=
  let off := 32 * word
  let ws := (List.range (n + 1)).map (fun i => data / 2 ^ (256 * i) % 2 ^ 256)
  if 1024 < off % 1024 + 32 * (n + 1) then s.flashSeq by_ bank 0xFF off [] else s.flashSeq by_ bank 0x11 off ws

/-! Time (R18). -/

/-- One engine-clock period in which no command takes effect. [DESIGN CHOICE, log entry 1] -/
def State.tick (s : State) : State := s.reach (s.now + 1)

/-! Wake sources (R528). -/

/-- WAKE has been low for 4 bc. -/
def State.wakePin (s : State) : State := if s.flag F.PMU_WAKEEN_PIN 0 then s.wake 1 0 else s

/-- WAKETIME bc have passed since the sleep mode was entered; 0 acts as 1 (R536). [DESIGN CHOICE, log entry 59] -/
def State.wakeTimer (s : State) : State :=
  if s.flag F.PMU_WAKEEN_TIMER 0 then
    (if s.mode ≤ 1 then s.reach (s.sleepAt + (max 1 (s.regN .PMU_WAKETIME 0) * 625 + 1) / 2) else s).wake 3 0
  else s

/-- A WAKE burst on lane 0 of a Gedan port. -/
def State.wakeBurst (s : State) (p : Nat) : State := if bit p (s.fld F.PMU_WAKEEN_GEDAN 0) then s.wake 2 p else s

/-! Cores. -/

/-- The state copy into the checker of a rejoined pair: the primary's stores drain, and both cores resume (R414). -/
def State.pairJoined (s : State) (j : Nat) : State :=
  if !s.joins.contains j then s else (s.supDrainAll (2 * s.physPair j)).pairRejoinDone j

/-- A write of PMODE that gives one logical pair a mode (R413, R414). -/
def State.pmodeSet (s : State) (j m : Nat) : State :=
  if !s.alive 4 then s else s.pmodeWrite (setBits (4 * j) 2 m (s.regN .RDC_PMODE 0))

/-- A readback mismatch of an edge pair, after which the redundancy controller may steer its reserve (R183, R417).
[DEDUCED, log entry 79] -/
def State.readbackBad (s : State) (p : Nat) : State := (s.epReadback p).steerAuto p

/-- An EDGE of a lane engine reaches a logical pair's timetable now (R75, R161, R175). [DEDUCED, log entry 106] -/
def State.edgeBy (s : State) (e n f v fine : Nat) : State :=
  let g := s.engine e
  match s.edgeEffect e (s.physOf e) s.now n f v fine with
  | (true, s) => s.refuseEngine e (s.physOf e) g.pc s.now (if g.running then some g.start else none) (g.role != .single)
  | (false, s) => s

/-- The value of MSR.CTL that requests an operation (R505, R514). -/
def msrCtlWord (op target : Nat) (timed irqen tlink : Bool) (line : Nat) : Nat :=
  1 + op * 4 + b2n timed * 2 ^ 5 + b2n irqen * 2 ^ 6 + b2n tlink * 2 ^ 7 + target * 2 ^ 8 + line * 2 ^ 16

/-- The queue of a general port: its TXDATA register and instance (R595). -/
def txReg (port : Nat) : Reg × Nat :=
  if port < 4 then (.PMB_TXDATA, port) else if port < 8 then (.SPI_TXDATA, port - 4) else (.UART_TXDATA, port - 8)

/-- A 40-bit remote-view offset as bytes of a frame (R492). -/
def offsetBytes (o : Nat) : List Byte := leBytes 5 o

end Sys2Proof.Machine
end

