-- ==== Sys2Proof/Machine/Analog.lean ====
section
/-! DEFINITION. The meanings of the commands of converters, comparators and Flint (R195 to R258). -/

namespace Sys2Proof.Machine

/-- SWTRIG (R198). -/
def execSwtrig (who : Initiator) (c : Fin 64) (s : State) : Host.Outcome State Fault Refusal :=
  .next (s.writeBy who .CV_CTL c.val (setBits 6 1 1 (s.regN .CV_CTL c.val))).finish

/-- ARM (R199). -/
def execArm (who : Initiator) (c : Fin 64) (trigf : Bool) (v : Word) (s : State) : Host.Outcome State Fault Refusal :=
  .next (s.writeBy who (if trigf then .CV_TRIGF else .CV_CTL) c.val v.toNat).finish

/-- CONVERTER_DISABLE (R202). -/
def execConverterDisable (who : Initiator) (c : Fin 64) (s : State) : Host.Outcome State Fault Refusal :=
  .next (s.writeBy who .CV_CTL c.val (setBits 0 1 0 (s.regN .CV_CTL c.val))).finish

/-- TIMED_TRIGGER (R198). -/
def execTimedTrigger (c : Fin 64) (s : State) : Host.Outcome State Fault Refusal :=
  .next (s.clocked (s.cvTimed c.val)).finish

/-- SCAN_START (R201). -/
def execScanStart (c : Fin 64) (s : State) : Host.Outcome State Fault Refusal :=
  .next (s.clocked (s.cvStart c.val)).finish

/-- POSITION_DELIVERY (R207). -/
def execPositionDelivery (c : Fin 64) (v : BitVec 32) (s : State) : Host.Outcome State Fault Refusal :=
  .next (s.clocked (s.deliver c.val (s.cvCode c.val v.toInt))).finish

/-- SCAN_END (R201). -/
def execScanEnd (c : Fin 64) (s : State) : Host.Outcome State Fault Refusal :=
  .next (s.clocked (s.cvEnd c.val)).finish

/-- HANDOVER_DUE (R210). -/
def execHandoverDue (g : Fin 8) (s : State) : Host.Outcome State Fault Refusal :=
  .next (s.clocked (s.rotDue g.val)).finish

/-- HANDOVER_COMPARE (R211). -/
def execHandoverCompare (c : Fin 64) (a b : BitVec 32) (s : State) : Host.Outcome State Fault Refusal :=
  .next (s.cvCompare c.val a.toInt b.toInt).finish

/-- UNCHECKED_HANDOVER (R213). -/
def execUncheckedHandover (g : Fin 8) (s : State) : Host.Outcome State Fault Refusal :=
  .next (s.clocked (s.rotUnchecked g.val)).finish

/-- CALIBRATION_DONE (R215). -/
def execCalibrationDone (n : Fin 72) (fits : Bool) (offs gainc : BitVec 16) (s : State) : Host.Outcome State Fault Refusal :=
  .next (s.calDone n.val fits offs.toNat gainc.toNat).finish

/-- COMPARATOR_ASSERT (R229). -/
def execComparatorAssert (c : Fin 204) (v : BitVec 32) (s : State) : Host.Outcome State Fault Refusal :=
  .next ((s.setAin c.val v).cmpAssert c.val).finish

/-- COMPARATOR_RELEASE (R229). -/
def execComparatorRelease (c : Fin 204) (v : BitVec 32) (s : State) : Host.Outcome State Fault Refusal :=
  .next ((s.setAin c.val v).cmpRelease c.val).finish

/-- BLANKING_END (R233). -/
def execBlankingEnd (c : Fin 204) (s : State) : Host.Outcome State Fault Refusal :=
  .next (s.clocked (s.cmpBlankEnd c.val)).finish

/-- CMP_STEER (R236). -/
def execCmpSteer (who : Initiator) (g : Fin 12) (m : BitVec 4) (s : State) : Host.Outcome State Fault Refusal :=
  .next (s.writeBy who .CMP_STEER g.val (m.toNat + 16)).finish

/-- CMP_STEER_COMPLETE (R237). -/
def execCmpSteerComplete (g : Fin 12) (s : State) : Host.Outcome State Fault Refusal :=
  .next (s.cmpSteerDone g.val).finish

/-- CMP_UNSTEER (R238). -/
def execCmpUnsteer (who : Initiator) (g : Fin 12) (s : State) : Host.Outcome State Fault Refusal :=
  .next (s.writeBy who .CMP_STEER g.val (s.fld F.CMP_STEER_MEMBER g.val)).finish

/-- NET_TRIP (R240). -/
def execNetTrip (src : Fin 388) (s : State) : Host.Outcome State Fault Refusal :=
  .next (s.netTrip src.val).finish

/-- NET_RELEASE (R245). -/
def execNetRelease (who : Initiator) (k : Fin 64) (s : State) : Host.Outcome State Fault Refusal :=
  .next (s.writeBy who (if k.val < 32 then .FLT_RELL else .FLT_RELH) 0 (2 ^ (k.val % 32))).finish

/-- FOLLOW_RELEASE (R246). -/
def execFollowRelease (k : Fin 64) (s : State) : Host.Outcome State Fault Refusal :=
  .next (s.clocked (s.netFollow k.val)).finish

/-- SWTRIP (R239). -/
def execSwtrip (who : Initiator) (s : State) : Host.Outcome State Fault Refusal :=
  .next (s.writeBy who .FLT_SWTRIP 0 1).finish

/-- TDATA (R244). -/
def execTdata (who : Initiator) (i : BitVec 10) (v : Word) (s : State) : Host.Outcome State Fault Refusal :=
  .next (s.tdataBy who i.toNat v.toNat).finish

end Sys2Proof.Machine
end

