-- ==== Sys2Proof/Machine/Arith.lean ====
section
/-! DEFINITION. The meanings of the core instructions: integer, fixed-point, accumulator, floating-point and immediate instructions (R60 to R63). -/

namespace Sys2Proof.Machine

/-- ADD (R60). -/
def execAdd (c : Core) (rd ra rb : BitVec 5) (s : State) : Host.Outcome State Fault Refusal :=
  match c with
  | .lane e => .next (s.laneRun e.val 1 (laneAdd e.val rd ra rb)).finish
  | .sup k => .next (s.supRun k.val (supAdd k.val rd ra rb)).finish

/-- SUB (R60). -/
def execSub (c : Core) (rd ra rb : BitVec 5) (s : State) : Host.Outcome State Fault Refusal :=
  match c with
  | .lane e => .next (s.laneRun e.val 1 (laneSub e.val rd ra rb)).finish
  | .sup k => .next (s.supRun k.val (supSub k.val rd ra rb)).finish

/-- AND (R60). -/
def execAnd (c : Core) (rd ra rb : BitVec 5) (s : State) : Host.Outcome State Fault Refusal :=
  match c with
  | .lane e => .next (s.laneRun e.val 1 (laneAnd e.val rd ra rb)).finish
  | .sup k => .next (s.supRun k.val (supAnd k.val rd ra rb)).finish

/-- OR (R60). -/
def execOr (c : Core) (rd ra rb : BitVec 5) (s : State) : Host.Outcome State Fault Refusal :=
  match c with
  | .lane e => .next (s.laneRun e.val 1 (laneOr e.val rd ra rb)).finish
  | .sup k => .next (s.supRun k.val (supOr k.val rd ra rb)).finish

/-- XOR (R60). -/
def execXor (c : Core) (rd ra rb : BitVec 5) (s : State) : Host.Outcome State Fault Refusal :=
  match c with
  | .lane e => .next (s.laneRun e.val 1 (laneXor e.val rd ra rb)).finish
  | .sup k => .next (s.supRun k.val (supXor k.val rd ra rb)).finish

/-- ANDN (R60). -/
def execAndn (c : Core) (rd ra rb : BitVec 5) (s : State) : Host.Outcome State Fault Refusal :=
  match c with
  | .lane e => .next (s.laneRun e.val 1 (laneAndn e.val rd ra rb)).finish
  | .sup k => .next (s.supRun k.val (supAndn k.val rd ra rb)).finish

/-- MOV (R60). -/
def execMov (c : Core) (rd ra : BitVec 5) (s : State) : Host.Outcome State Fault Refusal :=
  match c with
  | .lane e => .next (s.laneRun e.val 1 (laneMov e.val rd ra)).finish
  | .sup k => .next (s.supRun k.val (supMov k.val rd ra)).finish

/-- NOP (R60). -/
def execNop (c : Core) (s : State) : Host.Outcome State Fault Refusal :=
  match c with
  | .lane e => .next (s.laneRun e.val 1 .seq).finish
  | .sup k => .next (s.supRun k.val supNop).finish

/-- SHL (R60). -/
def execShl (c : Core) (rd ra rb : BitVec 5) (s : State) : Host.Outcome State Fault Refusal :=
  match c with
  | .lane e => .next (s.laneRun e.val 1 (laneShl e.val rd ra rb)).finish
  | .sup k => .next (s.supRun k.val (supShl k.val rd ra rb)).finish

/-- SHR (R60). -/
def execShr (c : Core) (rd ra rb : BitVec 5) (s : State) : Host.Outcome State Fault Refusal :=
  match c with
  | .lane e => .next (s.laneRun e.val 1 (laneShr e.val rd ra rb)).finish
  | .sup k => .next (s.supRun k.val (supShr k.val rd ra rb)).finish

/-- SAR (R60). -/
def execSar (c : Core) (rd ra rb : BitVec 5) (s : State) : Host.Outcome State Fault Refusal :=
  match c with
  | .lane e => .next (s.laneRun e.val 1 (laneSar e.val rd ra rb)).finish
  | .sup k => .next (s.supRun k.val (supSar k.val rd ra rb)).finish

/-- ROR (R60). -/
def execRor (c : Core) (rd ra rb : BitVec 5) (s : State) : Host.Outcome State Fault Refusal :=
  match c with
  | .lane e => .next (s.laneRun e.val 1 (laneRor e.val rd ra rb)).finish
  | .sup k => .next (s.supRun k.val (supRor k.val rd ra rb)).finish

/-- SHLI (R60). -/
def execShli (c : Core) (rd ra : BitVec 5) (sh : BitVec 6) (s : State) : Host.Outcome State Fault Refusal :=
  match c with
  | .lane e => .next (s.laneRun e.val 1 (laneShli e.val rd ra sh)).finish
  | .sup k => .next (s.supRun k.val (supShli k.val rd ra sh)).finish

/-- SHRI (R60). -/
def execShri (c : Core) (rd ra : BitVec 5) (sh : BitVec 6) (s : State) : Host.Outcome State Fault Refusal :=
  match c with
  | .lane e => .next (s.laneRun e.val 1 (laneShri e.val rd ra sh)).finish
  | .sup k => .next (s.supRun k.val (supShri k.val rd ra sh)).finish

/-- SARI (R60). -/
def execSari (c : Core) (rd ra : BitVec 5) (sh : BitVec 6) (s : State) : Host.Outcome State Fault Refusal :=
  match c with
  | .lane e => .next (s.laneRun e.val 1 (laneSari e.val rd ra sh)).finish
  | .sup k => .next (s.supRun k.val (supSari k.val rd ra sh)).finish

/-- RORI (R60). -/
def execRori (c : Core) (rd ra : BitVec 5) (sh : BitVec 6) (s : State) : Host.Outcome State Fault Refusal :=
  match c with
  | .lane e => .next (s.laneRun e.val 1 (laneRori e.val rd ra sh)).finish
  | .sup k => .next (s.supRun k.val (supRori k.val rd ra sh)).finish

/-- MIN (R60). -/
def execMin (c : Core) (rd ra rb : BitVec 5) (s : State) : Host.Outcome State Fault Refusal :=
  match c with
  | .lane e => .next (s.laneRun e.val 1 (laneMin e.val rd ra rb)).finish
  | .sup k => .next (s.supRun k.val (supMin k.val rd ra rb)).finish

/-- MAX (R60). -/
def execMax (c : Core) (rd ra rb : BitVec 5) (s : State) : Host.Outcome State Fault Refusal :=
  match c with
  | .lane e => .next (s.laneRun e.val 1 (laneMax e.val rd ra rb)).finish
  | .sup k => .next (s.supRun k.val (supMax k.val rd ra rb)).finish

/-- MINU (R60). -/
def execMinu (c : Core) (rd ra rb : BitVec 5) (s : State) : Host.Outcome State Fault Refusal :=
  match c with
  | .lane e => .next (s.laneRun e.val 1 (laneMinu e.val rd ra rb)).finish
  | .sup k => .next (s.supRun k.val (supMinu k.val rd ra rb)).finish

/-- MAXU (R60). -/
def execMaxu (c : Core) (rd ra rb : BitVec 5) (s : State) : Host.Outcome State Fault Refusal :=
  match c with
  | .lane e => .next (s.laneRun e.val 1 (laneMaxu e.val rd ra rb)).finish
  | .sup k => .next (s.supRun k.val (supMaxu k.val rd ra rb)).finish

/-- ABS (R60). -/
def execAbs (c : Core) (rd ra : BitVec 5) (s : State) : Host.Outcome State Fault Refusal :=
  match c with
  | .lane e => .next (s.laneRun e.val 1 (laneAbs e.val rd ra)).finish
  | .sup k => .next (s.supRun k.val (supAbs k.val rd ra)).finish

/-- NEG (R60). -/
def execNeg (c : Core) (rd ra : BitVec 5) (s : State) : Host.Outcome State Fault Refusal :=
  match c with
  | .lane e => .next (s.laneRun e.val 1 (laneNeg e.val rd ra)).finish
  | .sup k => .next (s.supRun k.val (supNeg k.val rd ra)).finish

/-- ADDS (R60). -/
def execAdds (c : Core) (rd ra rb : BitVec 5) (s : State) : Host.Outcome State Fault Refusal :=
  match c with
  | .lane e => .next (s.laneRun e.val 1 (laneAdds e.val rd ra rb)).finish
  | .sup k => .next (s.supRun k.val (supAdds k.val rd ra rb)).finish

/-- SUBS (R60). -/
def execSubs (c : Core) (rd ra rb : BitVec 5) (s : State) : Host.Outcome State Fault Refusal :=
  match c with
  | .lane e => .next (s.laneRun e.val 1 (laneSubs e.val rd ra rb)).finish
  | .sup k => .next (s.supRun k.val (supSubs k.val rd ra rb)).finish

/-- ADDS15 (R60). -/
def execAdds15 (c : Core) (rd ra rb : BitVec 5) (s : State) : Host.Outcome State Fault Refusal :=
  match c with
  | .lane e => .next (s.laneRun e.val 1 (laneAdds15 e.val rd ra rb)).finish
  | .sup k => .next (s.supRun k.val (supAdds15 k.val rd ra rb)).finish

/-- SUBS15 (R60). -/
def execSubs15 (c : Core) (rd ra rb : BitVec 5) (s : State) : Host.Outcome State Fault Refusal :=
  match c with
  | .lane e => .next (s.laneRun e.val 1 (laneSubs15 e.val rd ra rb)).finish
  | .sup k => .next (s.supRun k.val (supSubs15 k.val rd ra rb)).finish

/-- SAT15 (R60). -/
def execSat15 (c : Core) (rd ra : BitVec 5) (s : State) : Host.Outcome State Fault Refusal :=
  match c with
  | .lane e => .next (s.laneRun e.val 1 (laneSat15 e.val rd ra)).finish
  | .sup k => .next (s.supRun k.val (supSat15 k.val rd ra)).finish

/-- CLZ (R60). -/
def execClz (c : Core) (rd ra : BitVec 5) (s : State) : Host.Outcome State Fault Refusal :=
  match c with
  | .lane e => .next (s.laneRun e.val 1 (laneClz e.val rd ra)).finish
  | .sup k => .next (s.supRun k.val (supClz k.val rd ra)).finish

/-- MUL (R60). -/
def execMul (c : Core) (rd ra rb : BitVec 5) (s : State) : Host.Outcome State Fault Refusal :=
  match c with
  | .lane e => .next (s.laneRun e.val 2 (laneMul e.val rd ra rb)).finish
  | .sup k => .next (s.supRun k.val (supMul k.val rd ra rb)).finish

/-- MULH (R60). -/
def execMulh (c : Core) (rd ra rb : BitVec 5) (s : State) : Host.Outcome State Fault Refusal :=
  match c with
  | .lane e => .next (s.laneRun e.val 2 (laneMulh e.val rd ra rb)).finish
  | .sup k => .next (s.supRun k.val (supMulh k.val rd ra rb)).finish

/-- MULHU (R60). -/
def execMulhu (c : Core) (rd ra rb : BitVec 5) (s : State) : Host.Outcome State Fault Refusal :=
  match c with
  | .lane e => .next (s.laneRun e.val 2 (laneMulhu e.val rd ra rb)).finish
  | .sup k => .next (s.supRun k.val (supMulhu k.val rd ra rb)).finish

/-- QMUL15 (R60). -/
def execQmul15 (c : Core) (rd ra rb : BitVec 5) (s : State) : Host.Outcome State Fault Refusal :=
  match c with
  | .lane e => .next (s.laneRun e.val 2 (laneQmul15 e.val rd ra rb)).finish
  | .sup k => .next (s.supRun k.val (supQmul15 k.val rd ra rb)).finish

/-- QMUL31 (R60). -/
def execQmul31 (c : Core) (rd ra rb : BitVec 5) (s : State) : Host.Outcome State Fault Refusal :=
  match c with
  | .lane e => .next (s.laneRun e.val 2 (laneQmul31 e.val rd ra rb)).finish
  | .sup k => .next (s.supRun k.val (supQmul31 k.val rd ra rb)).finish

/-- MAC (R61). -/
def execMac (c : Core) (n : BitVec 2) (ra rb : BitVec 5) (s : State) : Host.Outcome State Fault Refusal :=
  match c with
  | .lane e => .next (s.laneRun e.val 2 (laneMac e.val n ra rb)).finish
  | .sup k => .next (s.supRun k.val supIllegal).finish

/-- MSU (R61). -/
def execMsu (c : Core) (n : BitVec 2) (ra rb : BitVec 5) (s : State) : Host.Outcome State Fault Refusal :=
  match c with
  | .lane e => .next (s.laneRun e.val 2 (laneMsu e.val n ra rb)).finish
  | .sup k => .next (s.supRun k.val supIllegal).finish

/-- MACS (R61). -/
def execMacs (c : Core) (n : BitVec 2) (ra rb : BitVec 5) (s : State) : Host.Outcome State Fault Refusal :=
  match c with
  | .lane e => .next (s.laneRun e.val 2 (laneMacs e.val n ra rb)).finish
  | .sup k => .next (s.supRun k.val supIllegal).finish

/-- MSUS (R61). -/
def execMsus (c : Core) (n : BitVec 2) (ra rb : BitVec 5) (s : State) : Host.Outcome State Fault Refusal :=
  match c with
  | .lane e => .next (s.laneRun e.val 2 (laneMsus e.val n ra rb)).finish
  | .sup k => .next (s.supRun k.val supIllegal).finish

/-- ACLR (R61). -/
def execAclr (c : Core) (n : BitVec 2) (s : State) : Host.Outcome State Fault Refusal :=
  match c with
  | .lane e => .next (s.laneRun e.val 1 (laneAclr e.val n)).finish
  | .sup k => .next (s.supRun k.val supIllegal).finish

/-- ALD (R61). -/
def execAld (c : Core) (n : BitVec 2) (ra sh : BitVec 5) (s : State) : Host.Outcome State Fault Refusal :=
  match c with
  | .lane e => .next (s.laneRun e.val 1 (laneAld e.val n ra sh)).finish
  | .sup k => .next (s.supRun k.val supIllegal).finish

/-- ARD (R61). -/
def execArd (c : Core) (rd : BitVec 5) (n : BitVec 2) (sh : BitVec 5) (s : State) : Host.Outcome State Fault Refusal :=
  match c with
  | .lane e => .next (s.laneRun e.val 2 (laneArd e.val rd n sh)).finish
  | .sup k => .next (s.supRun k.val supIllegal).finish

/-- ARDL (R61). -/
def execArdl (c : Core) (rd : BitVec 5) (n : BitVec 2) (sh : BitVec 5) (s : State) : Host.Outcome State Fault Refusal :=
  match c with
  | .lane e => .next (s.laneRun e.val 1 (laneArdl e.val rd n sh)).finish
  | .sup k => .next (s.supRun k.val supIllegal).finish

/-- ARDH (R61). -/
def execArdh (c : Core) (rd : BitVec 5) (n : BitVec 2) (s : State) : Host.Outcome State Fault Refusal :=
  match c with
  | .lane e => .next (s.laneRun e.val 1 (laneArdh e.val rd n)).finish
  | .sup k => .next (s.supRun k.val supIllegal).finish

/-- FADD (R42). -/
def execFadd (c : Core) (rd ra rb : BitVec 5) (s : State) : Host.Outcome State Fault Refusal :=
  match c with
  | .lane e => .next (s.laneRun e.val 3 (laneFadd e.val rd ra rb)).finish
  | .sup k => .next (s.supRun k.val (supFadd k.val rd ra rb)).finish

/-- FSUB (R42). -/
def execFsub (c : Core) (rd ra rb : BitVec 5) (s : State) : Host.Outcome State Fault Refusal :=
  match c with
  | .lane e => .next (s.laneRun e.val 3 (laneFsub e.val rd ra rb)).finish
  | .sup k => .next (s.supRun k.val (supFsub k.val rd ra rb)).finish

/-- FMUL (R42). -/
def execFmul (c : Core) (rd ra rb : BitVec 5) (s : State) : Host.Outcome State Fault Refusal :=
  match c with
  | .lane e => .next (s.laneRun e.val 3 (laneFmul e.val rd ra rb)).finish
  | .sup k => .next (s.supRun k.val (supFmul k.val rd ra rb)).finish

/-- FMA (R63). -/
def execFma (c : Core) (rd ra rb rc : BitVec 5) (s : State) : Host.Outcome State Fault Refusal :=
  match c with
  | .lane e => .next (s.laneRun e.val 4 (laneFma e.val rd ra rb rc)).finish
  | .sup k => .next (s.supRun k.val (supFma k.val rd ra rb rc)).finish

/-- FMS (R63). -/
def execFms (c : Core) (rd ra rb rc : BitVec 5) (s : State) : Host.Outcome State Fault Refusal :=
  match c with
  | .lane e => .next (s.laneRun e.val 4 (laneFms e.val rd ra rb rc)).finish
  | .sup k => .next (s.supRun k.val (supFms k.val rd ra rb rc)).finish

/-- FDIV (R63). -/
def execFdiv (c : Core) (rd ra rb : BitVec 5) (s : State) : Host.Outcome State Fault Refusal :=
  match c with
  | .lane e => .next (s.laneRun e.val 14 (laneFdiv e.val rd ra rb)).finish
  | .sup k => .next (s.supRun k.val (supFdiv k.val rd ra rb)).finish

/-- FSQRT (R63). -/
def execFsqrt (c : Core) (rd ra : BitVec 5) (s : State) : Host.Outcome State Fault Refusal :=
  match c with
  | .lane e => .next (s.laneRun e.val 16 (laneFsqrt e.val rd ra)).finish
  | .sup k => .next (s.supRun k.val (supFsqrt k.val rd ra)).finish

/-- FMIN (R63). -/
def execFmin (c : Core) (rd ra rb : BitVec 5) (s : State) : Host.Outcome State Fault Refusal :=
  match c with
  | .lane e => .next (s.laneRun e.val 1 (laneFmin e.val rd ra rb)).finish
  | .sup k => .next (s.supRun k.val (supFmin k.val rd ra rb)).finish

/-- FMAX (R63). -/
def execFmax (c : Core) (rd ra rb : BitVec 5) (s : State) : Host.Outcome State Fault Refusal :=
  match c with
  | .lane e => .next (s.laneRun e.val 1 (laneFmax e.val rd ra rb)).finish
  | .sup k => .next (s.supRun k.val (supFmax k.val rd ra rb)).finish

/-- FABS (R63). -/
def execFabs (c : Core) (rd ra : BitVec 5) (s : State) : Host.Outcome State Fault Refusal :=
  match c with
  | .lane e => .next (s.laneRun e.val 1 (laneFabs e.val rd ra)).finish
  | .sup k => .next (s.supRun k.val (supFabs k.val rd ra)).finish

/-- FNEG (R63). -/
def execFneg (c : Core) (rd ra : BitVec 5) (s : State) : Host.Outcome State Fault Refusal :=
  match c with
  | .lane e => .next (s.laneRun e.val 1 (laneFneg e.val rd ra)).finish
  | .sup k => .next (s.supRun k.val (supFneg k.val rd ra)).finish

/-- FCVTIF (R63). -/
def execFcvtif (c : Core) (rd ra : BitVec 5) (s : State) : Host.Outcome State Fault Refusal :=
  match c with
  | .lane e => .next (s.laneRun e.val 3 (laneFcvtif e.val rd ra)).finish
  | .sup k => .next (s.supRun k.val (supFcvtif k.val rd ra)).finish

/-- FCVTFI (R42). -/
def execFcvtfi (c : Core) (rd ra : BitVec 5) (s : State) : Host.Outcome State Fault Refusal :=
  match c with
  | .lane e => .next (s.laneRun e.val 3 (laneFcvtfi e.val rd ra)).finish
  | .sup k => .next (s.supRun k.val (supFcvtfi k.val rd ra)).finish

/-- FCVTQF (R63). -/
def execFcvtqf (c : Core) (rd ra : BitVec 5) (s : State) : Host.Outcome State Fault Refusal :=
  match c with
  | .lane e => .next (s.laneRun e.val 3 (laneFcvtqf e.val rd ra)).finish
  | .sup k => .next (s.supRun k.val (supFcvtqf k.val rd ra)).finish

/-- FCVTFQ (R63). -/
def execFcvtfq (c : Core) (rd ra : BitVec 5) (s : State) : Host.Outcome State Fault Refusal :=
  match c with
  | .lane e => .next (s.laneRun e.val 3 (laneFcvtfq e.val rd ra)).finish
  | .sup k => .next (s.supRun k.val (supFcvtfq k.val rd ra)).finish

/-- ADDI (R62). -/
def execAddi (c : Core) (rd ra : BitVec 5) (imm : BitVec 16) (s : State) : Host.Outcome State Fault Refusal :=
  match c with
  | .lane e => .next (s.laneRun e.val 1 (laneAddi e.val rd ra imm)).finish
  | .sup k => .next (s.supRun k.val (supAddi k.val rd ra imm)).finish

/-- ANDI (R62). -/
def execAndi (c : Core) (rd ra : BitVec 5) (imm : BitVec 16) (s : State) : Host.Outcome State Fault Refusal :=
  match c with
  | .lane e => .next (s.laneRun e.val 1 (laneAndi e.val rd ra imm)).finish
  | .sup k => .next (s.supRun k.val (supAndi k.val rd ra imm)).finish

/-- ORI (R62). -/
def execOri (c : Core) (rd ra : BitVec 5) (imm : BitVec 16) (s : State) : Host.Outcome State Fault Refusal :=
  match c with
  | .lane e => .next (s.laneRun e.val 1 (laneOri e.val rd ra imm)).finish
  | .sup k => .next (s.supRun k.val (supOri k.val rd ra imm)).finish

/-- XORI (R62). -/
def execXori (c : Core) (rd ra : BitVec 5) (imm : BitVec 16) (s : State) : Host.Outcome State Fault Refusal :=
  match c with
  | .lane e => .next (s.laneRun e.val 1 (laneXori e.val rd ra imm)).finish
  | .sup k => .next (s.supRun k.val (supXori k.val rd ra imm)).finish

/-- MOVI (R62). -/
def execMovi (c : Core) (rd : BitVec 5) (imm : BitVec 16) (s : State) : Host.Outcome State Fault Refusal :=
  match c with
  | .lane e => .next (s.laneRun e.val 1 (laneMovi e.val rd imm)).finish
  | .sup k => .next (s.supRun k.val (supMovi k.val rd imm)).finish

/-- MOVHI (R62). -/
def execMovhi (c : Core) (rd : BitVec 5) (imm : BitVec 16) (s : State) : Host.Outcome State Fault Refusal :=
  match c with
  | .lane e => .next (s.laneRun e.val 1 (laneMovhi e.val rd imm)).finish
  | .sup k => .next (s.supRun k.val (supMovhi k.val rd imm)).finish

end Sys2Proof.Machine
end

