-- ==== Sys2Proof/Machine/Complex.lean ====
section
/-! DEFINITION. The meanings of the commands of interrupts, the store buffer, DMA and memory integrity (R370, R384 to R393, R426 to R444). -/

namespace Sys2Proof.Machine

/-- INTERRUPT_ENTRY (R385). -/
def execInterruptEntry (k : Fin 10) (s : State) : Host.Outcome State Fault Refusal :=
  .next (s.supInterrupt k.val).finish

/-- SUP_STORE_DRAIN (R370). -/
def execSupStoreDrain (k : Fin 10) (s : State) : Host.Outcome State Fault Refusal :=
  .next (s.supDrain k.val).finish

/-- DOORBELL (R392). -/
def execDoorbell (who : Initiator) (k : Fin 10) (ring ack : Bool) (s : State) : Host.Outcome State Fault Refusal :=
  .next (s.writeBy who .SUP_DOORBELL k.val (b2n ring + b2n ack * 2)).finish

/-- DMA_GO (R387). -/
def execDmaGo (who : Initiator) (m : Fin 32) (s : State) : Host.Outcome State Fault Refusal :=
  .next (s.writeBy who .DMA_CTL m.val (setBits 1 1 1 (s.regN .DMA_CTL m.val))).finish

/-- DMA_ELEMENT (R387). -/
def execDmaElement (m : Fin 32) (s : State) : Host.Outcome State Fault Refusal :=
  .next (s.dmaElement m.val).finish

/-- WIPE (R429). -/
def execWipe (s : State) : Host.Outcome State Fault Refusal :=
  .next (s.wipeDone).finish

/-- SCRUB_VISIT (R440). -/
def execScrubVisit (m : Fin 2048) (s : State) : Host.Outcome State Fault Refusal :=
  .next (s.scrubVisit m.val).finish

/-- VALID (R437). -/
def execValid (who : Initiator) (row : BitVec 12) (s : State) : Host.Outcome State Fault Refusal :=
  .next (s.writeSel who 0x400060020 .MEM_RDATA (remapEntry (s.fld F.MEM_RSEL_MACRO 0) (s.fld F.MEM_RSEL_ENTRY 0)) (row.toNat + 2 ^ 12)).finish

/-- REMAP_COMPLETE (R437). -/
def execRemapComplete (m : Fin 2048) (x : Fin 8) (s : State) : Host.Outcome State Fault Refusal :=
  .next (s.remapDone m.val x.val).finish

/-- INJ (R442). -/
def execInj (who : Initiator) (v : Word) (s : State) : Host.Outcome State Fault Refusal :=
  .next (s.writeBy who .MEM_INJ 0 v.toNat).finish

end Sys2Proof.Machine
end

