-- ==== Sys2Proof/Machine/Control.lean ====
section
/-! DEFINITION. The meanings of the core instructions: branches, calls, task end, time, task inputs and the repeat prefix (R64, R66, R72, R76, R77, R84, R85, R362). -/

namespace Sys2Proof.Machine

/-- BEQ (R64). -/
def execBeq (c : Core) (ra rb : BitVec 5) (off : BitVec 13) (s : State) : Host.Outcome State Fault Refusal :=
  match c with
  | .lane e => .next (s.laneRun e.val 2 (fun s => s.laneBranch e.val off (condEq (s.w e.val ra) (s.w e.val rb)))).finish
  | .sup k => .next (s.supRun k.val (supBeq k.val ra rb off)).finish

/-- BNE (R64). -/
def execBne (c : Core) (ra rb : BitVec 5) (off : BitVec 13) (s : State) : Host.Outcome State Fault Refusal :=
  match c with
  | .lane e => .next (s.laneRun e.val 2 (fun s => s.laneBranch e.val off (condNe (s.w e.val ra) (s.w e.val rb)))).finish
  | .sup k => .next (s.supRun k.val (supBne k.val ra rb off)).finish

/-- BLT (R64). -/
def execBlt (c : Core) (ra rb : BitVec 5) (off : BitVec 13) (s : State) : Host.Outcome State Fault Refusal :=
  match c with
  | .lane e => .next (s.laneRun e.val 2 (fun s => s.laneBranch e.val off (condLt (s.w e.val ra) (s.w e.val rb)))).finish
  | .sup k => .next (s.supRun k.val (supBlt k.val ra rb off)).finish

/-- BGE (R64). -/
def execBge (c : Core) (ra rb : BitVec 5) (off : BitVec 13) (s : State) : Host.Outcome State Fault Refusal :=
  match c with
  | .lane e => .next (s.laneRun e.val 2 (fun s => s.laneBranch e.val off (condGe (s.w e.val ra) (s.w e.val rb)))).finish
  | .sup k => .next (s.supRun k.val (supBge k.val ra rb off)).finish

/-- BLTU (R64). -/
def execBltu (c : Core) (ra rb : BitVec 5) (off : BitVec 13) (s : State) : Host.Outcome State Fault Refusal :=
  match c with
  | .lane e => .next (s.laneRun e.val 2 (fun s => s.laneBranch e.val off (condLtu (s.w e.val ra) (s.w e.val rb)))).finish
  | .sup k => .next (s.supRun k.val (supBltu k.val ra rb off)).finish

/-- BGEU (R64). -/
def execBgeu (c : Core) (ra rb : BitVec 5) (off : BitVec 13) (s : State) : Host.Outcome State Fault Refusal :=
  match c with
  | .lane e => .next (s.laneRun e.val 2 (fun s => s.laneBranch e.val off (condGeu (s.w e.val ra) (s.w e.val rb)))).finish
  | .sup k => .next (s.supRun k.val (supBgeu k.val ra rb off)).finish

/-- BFLT (R47). -/
def execBflt (c : Core) (ra rb : BitVec 5) (off : BitVec 13) (s : State) : Host.Outcome State Fault Refusal :=
  match c with
  | .lane e => .next (s.laneRun e.val 2 (fun s => s.laneBranch e.val off (fLt (s.w e.val ra) (s.w e.val rb)))).finish
  | .sup k => .next (s.supRun k.val (supBflt k.val ra rb off)).finish

/-- BFGE (R47). -/
def execBfge (c : Core) (ra rb : BitVec 5) (off : BitVec 13) (s : State) : Host.Outcome State Fault Refusal :=
  match c with
  | .lane e => .next (s.laneRun e.val 2 (fun s => s.laneBranch e.val off (fGe (s.w e.val ra) (s.w e.val rb)))).finish
  | .sup k => .next (s.supRun k.val (supBfge k.val ra rb off)).finish

/-- BEQI (R64). -/
def execBeqi (c : Core) (ra simm : BitVec 5) (off : BitVec 13) (s : State) : Host.Outcome State Fault Refusal :=
  match c with
  | .lane e => .next (s.laneRun e.val 2 (fun s => s.laneBranch e.val off (condEq (s.w e.val ra) (simm.signExtend 32)))).finish
  | .sup k => .next (s.supRun k.val (supBeqi k.val ra simm off)).finish

/-- BNEI (R64). -/
def execBnei (c : Core) (ra simm : BitVec 5) (off : BitVec 13) (s : State) : Host.Outcome State Fault Refusal :=
  match c with
  | .lane e => .next (s.laneRun e.val 2 (fun s => s.laneBranch e.val off (condNe (s.w e.val ra) (simm.signExtend 32)))).finish
  | .sup k => .next (s.supRun k.val (supBnei k.val ra simm off)).finish

/-- BLTI (R64). -/
def execBlti (c : Core) (ra simm : BitVec 5) (off : BitVec 13) (s : State) : Host.Outcome State Fault Refusal :=
  match c with
  | .lane e => .next (s.laneRun e.val 2 (fun s => s.laneBranch e.val off (condLt (s.w e.val ra) (simm.signExtend 32)))).finish
  | .sup k => .next (s.supRun k.val (supBlti k.val ra simm off)).finish

/-- BGEI (R64). -/
def execBgei (c : Core) (ra simm : BitVec 5) (off : BitVec 13) (s : State) : Host.Outcome State Fault Refusal :=
  match c with
  | .lane e => .next (s.laneRun e.val 2 (fun s => s.laneBranch e.val off (condGe (s.w e.val ra) (simm.signExtend 32)))).finish
  | .sup k => .next (s.supRun k.val (supBgei k.val ra simm off)).finish

/-- BLTUI (R64). -/
def execBltui (c : Core) (ra simm : BitVec 5) (off : BitVec 13) (s : State) : Host.Outcome State Fault Refusal :=
  match c with
  | .lane e => .next (s.laneRun e.val 2 (fun s => s.laneBranch e.val off (condLtu (s.w e.val ra) (simm.signExtend 32)))).finish
  | .sup k => .next (s.supRun k.val (supBltui k.val ra simm off)).finish

/-- BGEUI (R64). -/
def execBgeui (c : Core) (ra simm : BitVec 5) (off : BitVec 13) (s : State) : Host.Outcome State Fault Refusal :=
  match c with
  | .lane e => .next (s.laneRun e.val 2 (fun s => s.laneBranch e.val off (condGeu (s.w e.val ra) (simm.signExtend 32)))).finish
  | .sup k => .next (s.supRun k.val (supBgeui k.val ra simm off)).finish

/-- CALL (R66). -/
def execCall (c : Core) (target : BitVec 12) (s : State) : Host.Outcome State Fault Refusal :=
  match c with
  | .lane e => .next (s.laneRun e.val 3 (laneCall e.val target)).finish
  | .sup k => .next (s.supRun k.val supIllegal).finish

/-- RET (R66). -/
def execRet (c : Core) (s : State) : Host.Outcome State Fault Refusal :=
  match c with
  | .lane e => .next (s.laneRun e.val 3 (laneRet e.val)).finish
  | .sup k => .next (s.supRun k.val (fun s => s.supRet k.val)).finish

/-- CALLR (R66). -/
def execCallr (c : Core) (ra : BitVec 5) (s : State) : Host.Outcome State Fault Refusal :=
  match c with
  | .lane e => .next (s.laneRun e.val 3 (laneCallr e.val ra)).finish
  | .sup k => .next (s.supRun k.val (supCallr k.val ra)).finish

/-- JR (R66). -/
def execJr (c : Core) (ra : BitVec 5) (s : State) : Host.Outcome State Fault Refusal :=
  match c with
  | .lane e => .next (s.laneRun e.val 2 (laneJr e.val ra)).finish
  | .sup k => .next (s.supRun k.val (supJr k.val ra)).finish

/-- END (R84). -/
def execEndTask (c : Core) (s : State) : Host.Outcome State Fault Refusal :=
  match c with
  | .lane e => .next (s.laneRun e.val 1 .stop).finish
  | .sup k => .next (s.supRun k.val supIllegal).finish

/-- IFENCE (R72). -/
def execIfence (c : Core) (s : State) : Host.Outcome State Fault Refusal :=
  match c with
  | .lane e => .next (s.laneRun e.val 3 (laneIfence e.val)).finish
  | .sup k => .next (s.supRun k.val supIllegal).finish

/-- TIME (R76). -/
def execTime (c : Core) (rd : BitVec 5) (s : State) : Host.Outcome State Fault Refusal :=
  match c with
  | .lane e => .next (s.laneRun e.val 2 (laneTime e.val rd)).finish
  | .sup k => .next (s.supRun k.val (supTime k.val rd)).finish

/-- TIN (R77). -/
def execTin (c : Core) (rd n : BitVec 5) (s : State) : Host.Outcome State Fault Refusal :=
  match c with
  | .lane e => .next (s.laneRun e.val 1 (laneTin e.val rd n)).finish
  | .sup k => .next (s.supRun k.val supIllegal).finish

/-- REP (R52). -/
def execRep (c : Core) (rsrc advRb advRa advRd ainc : Bool) (cnt : BitVec 5) (nm1 : BitVec 6) (s : State) : Host.Outcome State Fault Refusal :=
  match c with
  | .lane e => .next (s.laneRep e.val rsrc advRb advRa advRd ainc cnt nm1).finish
  | .sup k => .next (s.supRun k.val supIllegal).finish

/-- BC (R362). -/
def execBc (k : Fin 10) (cond : BitVec 4) (off : BitVec 22) (s : State) : Host.Outcome State Fault Refusal :=
  .next (s.supRun k.val (supBc k.val cond off)).finish

/-- CALLS (R362). -/
def execCalls (k : Fin 10) (off : BitVec 26) (s : State) : Host.Outcome State Fault Refusal :=
  .next (s.supRun k.val (supCalls k.val off)).finish

end Sys2Proof.Machine
end

