-- ==== Sys2Proof/Machine/Edges.lean ====
section
/-! DEFINITION. The meanings of the commands of edge pairs (R161 to R190). -/

namespace Sys2Proof.Machine

/-- EP_VALUE_WRITE (R171). -/
def execEpValueWrite (who : Initiator) (p : Fin 204) (code : Fin 6) (v : Word) (s : State) : Host.Outcome State Fault Refusal :=
  .next (s.writeBy who (epValueReg code.val) p.val v.toNat).finish

/-- EP_ORIGIN_WRITE (R166). -/
def execEpOriginWrite (who : Initiator) (p : Fin 204) (part : Fin 3) (v : Word) (s : State) : Host.Outcome State Fault Refusal :=
  .next (s.writeBy who (if part.val = 0 then .EP_ORIGINL else if part.val = 1 then .EP_ORIGINH else .EP_ORIGINF) p.val v.toNat).finish

/-- EP_TIMETABLE_WRITE (R175). -/
def execEpTimetableWrite (e : Fin 512) (n : Fin 192) (field : Fin 4) (v : Word) (fine : Fin 128) (s : State) : Host.Outcome State Fault Refusal :=
  .next (s.edgeBy e.val n.val (0x20 + field.val) v.toNat fine.val).finish

/-- QPUSH (R175). -/
def execQpush (who : Initiator) (p : Fin 204) (v : Word) (s : State) : Host.Outcome State Fault Refusal :=
  .next (s.writeBy who .EP_QPUSH p.val v.toNat).finish

/-- EP_CTL_WRITE (R190). -/
def execEpCtlWrite (who : Initiator) (p : Fin 204) (v : Word) (s : State) : Host.Outcome State Fault Refusal :=
  .next (s.writeBy who .EP_CTL p.val v.toNat).finish

/-- LOAD_POINT (R170). -/
def execLoadPoint (p : Fin 204) (s : State) : Host.Outcome State Fault Refusal :=
  .next (s.clocked (s.epLoad p.val)).finish

/-- PEAK_LOAD_POINT (R170). -/
def execPeakLoadPoint (p : Fin 204) (s : State) : Host.Outcome State Fault Refusal :=
  .next (s.clocked (s.epPeak p.val)).finish

/-- COMPARE_MATCH (R169). -/
def execCompareMatch (p : Fin 204) (b : Bool) (s : State) : Host.Outcome State Fault Refusal :=
  .next (s.clocked (s.epCompare p.val b)).finish

/-- TIMETABLE_EDGE (R176). -/
def execTimetableEdge (p : Fin 204) (b : Bool) (s : State) : Host.Outcome State Fault Refusal :=
  .next (s.clocked (s.epQueueEdge p.val b)).finish

/-- DEAD_TIME_EXPIRY (R173). -/
def execDeadTimeExpiry (p : Fin 204) (b : Bool) (s : State) : Host.Outcome State Fault Refusal :=
  .next (s.clocked (s.epDeadEnd p.val b)).finish

/-- MAXON_EXPIRY (R180). -/
def execMaxonExpiry (p : Fin 204) (b : Bool) (s : State) : Host.Outcome State Fault Refusal :=
  .next (s.clocked (s.epMaxon p.val b)).finish

/-- READBACK_MISMATCH (R183). -/
def execReadbackMismatch (p : Fin 204) (s : State) : Host.Outcome State Fault Refusal :=
  .next (s.readbackBad p.val).finish

/-- RBFAULT_RELEASE (R183). -/
def execRbfaultRelease (who : Initiator) (p : Fin 204) (s : State) : Host.Outcome State Fault Refusal :=
  .next (s.writeBy who .EP_STAT p.val 0x80).finish

/-- STEER (R184). -/
def execSteer (who : Initiator) (g : Fin 12) (m : BitVec 4) (s : State) : Host.Outcome State Fault Refusal :=
  .next (s.writeBy who .EP_STEER g.val (m.toNat + 16)).finish

/-- STEER_COMPLETE (R185). -/
def execSteerComplete (g : Fin 12) (s : State) : Host.Outcome State Fault Refusal :=
  .next (s.epSteerDone g.val).finish

/-- UNSTEER (R186). -/
def execUnsteer (who : Initiator) (g : Fin 12) (s : State) : Host.Outcome State Fault Refusal :=
  .next (s.writeBy who .EP_STEER g.val (s.fld F.EP_STEER_MEMBER g.val)).finish

end Sys2Proof.Machine
end

