-- ==== Sys2Proof/Machine/FlashOps.lean ====
section
/-! DEFINITION. The meanings of the commands of flash (R445 to R477). -/

namespace Sys2Proof.Machine

/-- SEQUENCE_WRITE (R448). -/
def execSequenceWrite (by_ : Fin 42) (bank : Bool) (off : BitVec 27) (v : Word) (s : State) : Host.Outcome State Fault Refusal :=
  .next (s.flashStep by_ bank off.toNat v.toNat).finish

/-- SEQUENCE_TIMEOUT (R448). -/
def execSequenceTimeout (bank : Bool) (s : State) : Host.Outcome State Fault Refusal :=
  .next (s.seqTimeout (b2n bank)).finish

/-- PROGRAM_WORD (R454). -/
def execProgramWord (by_ : Fin 42) (bank : Bool) (word : BitVec 22) (data : BitVec 256) (s : State) : Host.Outcome State Fault Refusal :=
  .next (s.flashSeq by_ bank 0x10 (32 * word.toNat) [data.toNat]).finish

/-- PROGRAM_BUFFER (R455). -/
def execProgramBuffer (by_ : Fin 42) (bank : Bool) (word : BitVec 22) (n : BitVec 5) (data : BitVec 8192) (s : State) : Host.Outcome State Fault Refusal :=
  .next (s.flashBuffer by_ bank word.toNat n.toNat data.toNat).finish

/-- ERASE_SECTOR (R457). -/
def execEraseSector (by_ : Fin 42) (bank : Bool) (sector : BitVec 10) (s : State) : Host.Outcome State Fault Refusal :=
  .next (s.flashSeq by_ bank 0x20 sector.toNat []).finish

/-- ERASE_SUSPEND (R458). -/
def execEraseSuspend (by_ : Fin 42) (bank : Bool) (s : State) : Host.Outcome State Fault Refusal :=
  .next (s.flashSeq by_ bank 0x21 0 []).finish

/-- ERASE_RESUME (R458). -/
def execEraseResume (by_ : Fin 42) (bank : Bool) (s : State) : Host.Outcome State Fault Refusal :=
  .next (s.flashSeq by_ bank 0x22 0 []).finish

/-- CASTLE (R464). -/
def execCastle (by_ : Fin 42) (bank : Bool) (s : State) : Host.Outcome State Fault Refusal :=
  .next (s.flashSeq by_ bank 0x30 0 []).finish

/-- BLANK_CHECK (R449). -/
def execBlankCheck (by_ : Fin 42) (bank : Bool) (sector : BitVec 10) (s : State) : Host.Outcome State Fault Refusal :=
  .next (s.flashSeq by_ bank 0x40 sector.toNat []).finish

/-- READ_STATUS (R449). -/
def execReadStatus (by_ : Fin 42) (bank : Bool) (s : State) : Host.Outcome State Fault Refusal :=
  .next (s.flashSeq by_ bank 0x50 0 []).finish

/-- CLEAR_STATUS (R449). -/
def execClearStatus (by_ : Fin 42) (bank : Bool) (s : State) : Host.Outcome State Fault Refusal :=
  .next (s.flashSeq by_ bank 0x51 0 []).finish

/-- LOCK_SECTOR (R470). -/
def execLockSector (by_ : Fin 42) (bank : Bool) (sector : BitVec 10) (s : State) : Host.Outcome State Fault Refusal :=
  .next (s.flashSeq by_ bank 0x60 sector.toNat []).finish

/-- OPTION_PROGRAM (R469). -/
def execOptionProgram (by_ : Fin 42) (bank : Bool) (row : BitVec 7) (data : BitVec 256) (s : State) : Host.Outcome State Fault Refusal :=
  .next (s.flashSeq by_ bank 0x70 row.toNat ((List.range 8).map (fun i => data.toNat / 2 ^ (32 * i) % 2 ^ 32))).finish

/-- ABORT (R459). -/
def execAbort (by_ : Fin 42) (bank : Bool) (s : State) : Host.Outcome State Fault Refusal :=
  .next (s.flashSeq by_ bank 0xF0 0 []).finish

/-- FLASH_OPERATION_DONE (R449). -/
def execFlashOperationDone (bank : Bool) (bad : Option (Fin 32)) (s : State) : Host.Outcome State Fault Refusal :=
  .next (s.flashDone (b2n bank) (bad.map (fun i => i.val))).finish

/-- SECTOR_REPLACEMENT (R460). -/
def execSectorReplacement (bank : Bool) (s : State) : Host.Outcome State Fault Refusal :=
  .next (s.flashSpare (b2n bank)).finish

/-- ERASE_SUSPENDED (R458). -/
def execEraseSuspended (bank : Bool) (s : State) : Host.Outcome State Fault Refusal :=
  .next (s.flashSuspended (b2n bank)).finish

end Sys2Proof.Machine
end

