-- ==== Sys2Proof/Machine/General.lean ====
section
/-! DEFINITION. The meanings of the commands of safety, general ports, the debug port and plain register writes (R4, R384, R555 to R605). -/

namespace Sys2Proof.Machine

/-- ESCALATION_RESET (R560). -/
def execEscalationReset (s : State) : Host.Outcome State Fault Refusal :=
  .next (s.escReset).finish

/-- SAFEN_LOW (R565). -/
def execSafenLow (s : State) : Host.Outcome State Fault Refusal :=
  .next (s.safenLow).finish

/-- ACK (R563). -/
def execAck (who : Initiator) (s : State) : Host.Outcome State Fault Refusal :=
  .next (s.writeBy who .SAF_ACK 0 1).finish

/-- SWEV (R577). -/
def execSwev (who : Initiator) (s : State) : Host.Outcome State Fault Refusal :=
  .next (s.writeBy who .SAF_SWEV 0 1).finish

/-- TXDATA (R595). -/
def execTxdata (who : Initiator) (port : Fin 10) (v : Word) (s : State) : Host.Outcome State Fault Refusal :=
  .next (s.writeBy who (txReg port.val).1 (txReg port.val).2 v.toNat).finish

/-- BYTE_DONE (R595). -/
def execByteDone (port : Fin 10) (sent : Bool) (byte : Option (BitVec 8)) (errs : BitVec 3) (alert : Bool) (s : State) : Host.Outcome State Fault Refusal :=
  .next (s.portByte port.val sent (byte.map (fun b => b.toNat)) errs.toNat alert).finish

/-- GPIO_INTERRUPT (R595). -/
def execGpioInterrupt (pin : Fin 96) (level : Bool) (s : State) : Host.Outcome State Fault Refusal :=
  .next (s.gpioEdge pin.val level).finish

/-- EXTEST (R605). -/
def execExtest (on : Bool) (s : State) : Host.Outcome State Fault Refusal :=
  .next (s.setExtest on).finish

/-- REGISTER_WRITE (R4). -/
def execRegisterWrite (who : Initiator) (addr : BitVec 40) (v : Word) (s : State) : Host.Outcome State Fault Refusal :=
  .next (s.registerWrite who addr.toNat v.toNat).finish

/-- SAFEN_EDGE (R565). -/
def execSafenEdge (level : Bool) (s : State) : Host.Outcome State Fault Refusal :=
  .next (s.safenEdge level).finish

/-- DEBUG_HALT (R384). -/
def execDebugHalt (k : Fin 10) (s : State) : Host.Outcome State Fault Refusal :=
  .next (s.debugHalt k.val).finish

/-- DEBUG_ACCESS (R555). -/
def execDebugAccess (write : Bool) (addr : BitVec 40) (size : Fin 4) (data : BitVec 64) (s : State) : Host.Outcome State Fault Refusal :=
  .next (s.debugAccess write addr.toNat (2 ^ size.val) data.toNat).finish

end Sys2Proof.Machine
end

