-- ==== Sys2Proof/Machine/Links.lean ====
section
/-! DEFINITION. The meanings of the commands of driver links (R330 to R357). -/

namespace Sys2Proof.Machine

/-- LINK_ENABLE (R337). -/
def execLinkEnable (who : Initiator) (d : Fin 64) (v : Word) (s : State) : Host.Outcome State Fault Refusal :=
  .next (s.writeBy who .DLK_CTL d.val (setBits 0 1 1 v.toNat)).finish

/-- LINK_DISABLE (R337). -/
def execLinkDisable (who : Initiator) (d : Fin 64) (v : Word) (s : State) : Host.Outcome State Fault Refusal :=
  .next (s.writeBy who .DLK_CTL d.val (setBits 0 1 0 v.toNat)).finish

/-- RETRAIN (R337). -/
def execRetrain (who : Initiator) (d : Fin 64) (v : Word) (s : State) : Host.Outcome State Fault Refusal :=
  .next (s.writeBy who .DLK_CTL d.val (setBits 11 1 1 (setBits 0 1 1 v.toNat))).finish

/-- SYMBOLS_VALID (R337). -/
def execSymbolsValid (d : Fin 64) (s : State) : Host.Outcome State Fault Refusal :=
  .next (s.dlkSymbols d.val).finish

/-- TRAINING_TIMEOUT (R337). -/
def execTrainingTimeout (d : Fin 64) (s : State) : Host.Outcome State Fault Refusal :=
  .next (s.dlkTrainTimeout d.val).finish

/-- RECEIVE_TIMEOUT (R347). -/
def execReceiveTimeout (d : Fin 64) (s : State) : Host.Outcome State Fault Refusal :=
  .next (s.dlkRxTimeout d.val).finish

/-- STATUS (R339). -/
def execStatus (d : Fin 64) (tag stat : BitVec 8) (turn : BitVec 16) (t2 : Nat) (s : State) : Host.Outcome State Fault Refusal :=
  .next (s.dlkStatus d.val tag.toNat stat.toNat turn.toNat t2).finish

/-- FAULT (R348). -/
def execFault (d : Fin 64) (code : BitVec 6) (chan : BitVec 2) (tick : BitVec 24) (fine : BitVec 7) (s : State) : Host.Outcome State Fault Refusal :=
  .next (s.dlkFaultFrame d.val code.toNat chan.toNat tick.toNat fine.toNat).finish

/-- DESC (R338). -/
def execDesc (d : Fin 64) (v : BitVec 256) (s : State) : Host.Outcome State Fault Refusal :=
  .next (s.dlkDesc d.val v).finish

/-- HB_READY (R341). -/
def execHbReady (d : Fin 64) (s : State) : Host.Outcome State Fault Refusal :=
  .next (s.dlkHbReady d.val).finish

/-- EDGE_FRAME (R344). -/
def execEdgeFrame (d : Fin 64) (s : State) : Host.Outcome State Fault Refusal :=
  .next (s.clocked (s.dlkEdgeFrame d.val)).finish

/-- FLUSH (R346). -/
def execFlush (d : Fin 64) (s : State) : Host.Outcome State Fault Refusal :=
  .next (s.clocked (s.dlkFlushFrame d.val)).finish

/-- TRIP (R345). -/
def execTrip (d : Fin 64) (s : State) : Host.Outcome State Fault Refusal :=
  .next (s.clocked (s.dlkTripFrame d.val true)).finish

/-- RELEASE (R345). -/
def execRelease (d : Fin 64) (s : State) : Host.Outcome State Fault Refusal :=
  .next (s.clocked (s.dlkTripFrame d.val false)).finish

/-- HB (R341). -/
def execHb (d : Fin 64) (s : State) : Host.Outcome State Fault Refusal :=
  .next (s.clocked (s.dlkHbFrame d.val)).finish

/-- DREQ (R337). -/
def execDreq (d : Fin 64) (s : State) : Host.Outcome State Fault Refusal :=
  .next (s.dlkDreqFrame d.val).finish

/-- DLK_FRAME_DISCARD (R332). -/
def execDlkFrameDiscard (d : Fin 64) (s : State) : Host.Outcome State Fault Refusal :=
  .next (s.dlkDiscard d.val).finish

end Sys2Proof.Machine
end

