-- ==== Sys2Proof/Machine/Measure.lean ====
section
/-! DEFINITION. The meanings of the commands of measurements (R504 to R514). -/

namespace Sys2Proof.Machine

/-- LOADID (R508). -/
def execLoadid (who : Initiator) (target : BitVec 8) (timed irqen : Bool) (s : State) : Host.Outcome State Fault Refusal :=
  .next (s.writeBy who .MSR_CTL 0 (msrCtlWord 1 target.toNat timed irqen false 0)).finish

/-- TDR (R511). -/
def execTdr (who : Initiator) (target : BitVec 8) (timed irqen tlink : Bool) (line : BitVec 2) (s : State) : Host.Outcome State Fault Refusal :=
  .next (s.writeBy who .MSR_CTL 0 (msrCtlWord 2 target.toNat timed irqen tlink line.toNat)).finish

/-- ENCTYPE (R512). -/
def execEnctype (who : Initiator) (target : BitVec 8) (timed irqen : Bool) (s : State) : Host.Outcome State Fault Refusal :=
  .next (s.writeBy who .MSR_CTL 0 (msrCtlWord 3 target.toNat timed irqen false 0)).finish

/-- MEASUREMENT_START (R506). -/
def execMeasurementStart (s : State) : Host.Outcome State Fault Refusal :=
  .next (s.msrStart).finish

/-- LOADID_SAMPLE (R508). -/
def execLoadidSample (s : State) : Host.Outcome State Fault Refusal :=
  .next (s.loadidSample).finish

/-- LOADID_END (R509). -/
def execLoadidEnd (s : State) : Host.Outcome State Fault Refusal :=
  .next (s.loadidEnd).finish

/-- TDR_DONE (R511). -/
def execTdrDone (rtt : List (Fin 65536)) (mv : List Int) (s : State) : Host.Outcome State Fault Refusal :=
  .next (s.tdrDone ((rtt.map (fun x => x.val)).zip mv)).finish

/-- ENCTYPE_DONE (R512). -/
def execEnctypeDone (seen : EncSeen) (levels : BitVec 3) (s : State) : Host.Outcome State Fault Refusal :=
  .next (s.encDone seen levels.toNat).finish

/-- MEASUREMENT_ABORT (R507). -/
def execMeasurementAbort (who : Initiator) (s : State) : Host.Outcome State Fault Refusal :=
  .next (s.writeBy who .MSR_CTL 0 (s.regN .MSR_CTL 0 / 4 * 4 + 2)).finish

/-- RAIL_CONVERSION (R504). -/
def execRailConversion (v : BitVec 12) (s : State) : Host.Outcome State Fault Refusal :=
  .next (s.railConvert v.toNat).finish

end Sys2Proof.Machine
end

