-- ==== Sys2Proof/Machine/Modes.lean ====
section
/-! DEFINITION. The meanings of the commands of supplies, clocks and operating modes (R515 to R537). -/

namespace Sys2Proof.Machine

/-- SWITCH_OVER (R516). -/
def execSwitchOver (s : State) : Host.Outcome State Fault Refusal :=
  .next (s.switchOver).finish

/-- SWITCH_BACK (R517). -/
def execSwitchBack (s : State) : Host.Outcome State Fault Refusal :=
  .next (s.switchBack).finish

/-- SUPPLY_OUT_OF_RANGE (R518). -/
def execSupplyOutOfRange (what : Fin 13) (s : State) : Host.Outcome State Fault Refusal :=
  .next (s.supplyChange what.val false).finish

/-- BROWN_OUT (R518). -/
def execBrownOut (s : State) : Host.Outcome State Fault Refusal :=
  .next (s.brownOut).finish

/-- SENSOR_OVERCURRENT (R519). -/
def execSensorOvercurrent (which : Bool) (s : State) : Host.Outcome State Fault Refusal :=
  .next (s.snsOver which).finish

/-- PHASE_FAILURE (R520). -/
def execPhaseFailure (k : Fin 8) (s : State) : Host.Outcome State Fault Refusal :=
  .next (s.phaseFail k.val).finish

/-- DOMEN (R523). -/
def execDomen (who : Initiator) (v : Word) (s : State) : Host.Outcome State Fault Refusal :=
  .next (s.writeBy who .PMU_DOMEN 0 v.toNat).finish

/-- DOMAIN_POWERED (R523). -/
def execDomainPowered (s : State) : Host.Outcome State Fault Refusal :=
  .next (s.domPowered).finish

/-- MODE_REQUEST (R526). -/
def execModeRequest (who : Initiator) (mode : BitVec 4) (s : State) : Host.Outcome State Fault Refusal :=
  .next (s.writeBy who .PMU_MODEREQ 0 (mode.toNat + 16)).finish

/-- MODE_TRANSITION_DONE (R525). -/
def execModeTransitionDone (s : State) : Host.Outcome State Fault Refusal :=
  .next (s.modeDone).finish

/-- FORCEBKP (R536). -/
def execForcebkp (who : Initiator) (v : Bool) (s : State) : Host.Outcome State Fault Refusal :=
  .next (s.writeBy who .PMU_SUPPLY 0 (b2n v * 16)).finish

/-- WAKE_PIN (R528). -/
def execWakePin (s : State) : Host.Outcome State Fault Refusal :=
  .next (s.wakePin).finish

/-- WAKE_TIMER (R528). -/
def execWakeTimer (s : State) : Host.Outcome State Fault Refusal :=
  .next (s.wakeTimer).finish

/-- WAKE_BURST (R528). -/
def execWakeBurst (p : Fin 4) (s : State) : Host.Outcome State Fault Refusal :=
  .next (s.wakeBurst p.val).finish

/-- CLOCK_MONITOR_FAIL (R532). -/
def execClockMonitorFail (s : State) : Host.Outcome State Fault Refusal :=
  .next (s.clkFail).finish

/-- CLOCK_MONITOR_RELEASE (R532). -/
def execClockMonitorRelease (s : State) : Host.Outcome State Fault Refusal :=
  .next (s.clkRelease).finish

/-- REFLOST (R532). -/
def execReflost (s : State) : Host.Outcome State Fault Refusal :=
  .next (s.refLost).finish

/-- UNLOCK (R532). -/
def execUnlock (link : Bool) (s : State) : Host.Outcome State Fault Refusal :=
  .next (s.pllUnlock link).finish

/-- PLL_LOCK (R530). -/
def execPllLock (which : Fin 3) (s : State) : Host.Outcome State Fault Refusal :=
  .next (s.pllLock which.val).finish

/-- SUPPLY_RETURN (R518). -/
def execSupplyReturn (what : Fin 13) (s : State) : Host.Outcome State Fault Refusal :=
  .next (s.supplyChange what.val true).finish

/-- VBKP_LOSS (R517). -/
def execVbkpLoss (s : State) : Host.Outcome State Fault Refusal :=
  .next (s.vbkpLoss).finish

/-- DOMAIN_POWER_REMOVED (R523). -/
def execDomainPowerRemoved (s : State) : Host.Outcome State Fault Refusal :=
  .next (s.domRemoved).finish

end Sys2Proof.Machine
end

