-- ==== Sys2Proof/Machine/Plan.lean ====
section
/-! DEFINITION. The meanings of the commands of the schedule controller and the board-image loader (R113, R133 to R137, R150 to R158). -/

namespace Sys2Proof.Machine

/-- START (R133). -/
def execStart (who : Initiator) (bank : Bool) (s : State) : Host.Outcome State Fault Refusal :=
  .next (s.writeBy who .SCH_CTL 0 (1 + b2n bank * 4)).finish

/-- SWREQ (R134). -/
def execSwreq (who : Initiator) (bank : Bool) (s : State) : Host.Outcome State Fault Refusal :=
  .next (s.writeBy who .SCH_CTL 0 (2 + b2n bank * 4)).finish

/-- CANCEL (R137). -/
def execCancel (who : Initiator) (s : State) : Host.Outcome State Fault Refusal :=
  .next (s.writeBy who .SCH_CTL 0 8).finish

/-- PLAN_ORIGIN (R133). -/
def execPlanOrigin (s : State) : Host.Outcome State Fault Refusal :=
  .next (s.clocked (s.planOrigin)).finish

/-- SWITCH_CHECK (R134). -/
def execSwitchCheck (s : State) : Host.Outcome State Fault Refusal :=
  .next (s.clocked (s.switchCheck)).finish

/-- FRAME_BOUNDARY (R113). -/
def execFrameBoundary (s : State) : Host.Outcome State Fault Refusal :=
  .next (s.clocked (s.frameBoundary)).finish

/-- GO (R151). -/
def execGo (who : Initiator) (bank : Bool) (s : State) : Host.Outcome State Fault Refusal :=
  .next (s.writeBy who .SCH_LDCTL 0 (1 + b2n bank * 2)).finish

/-- LOAD_ABORT (R154). -/
def execLoadAbort (who : Initiator) (s : State) : Host.Outcome State Fault Refusal :=
  .next (s.writeBy who .SCH_LDCTL 0 (4 + s.fld F.SCH_LDCTL_BANK 0 * 2)).finish

/-- LOAD_COMPLETE (R151). -/
def execLoadComplete (s : State) : Host.Outcome State Fault Refusal :=
  .next (s.loadComplete).finish

end Sys2Proof.Machine
end

