-- ==== Sys2Proof/Machine/Rack.lean ====
section
/-! DEFINITION. The meanings of the commands of the host, Gedan links, rack time and alarms (R25 to R32, R478 to R503). -/

namespace Sys2Proof.Machine

/-- HOST_READ (R482). -/
def execHostRead (bar : Fin 4) (off : BitVec 32) (n : Fin 513) (s : State) : Host.Outcome State Fault Refusal :=
  .next (s.pcieRead bar.val off.toNat n.val).finish

/-- HOST_WRITE (R482). -/
def execHostWrite (bar : Fin 3) (off : BitVec 32) (n : Fin 257) (data : BitVec 2048) (s : State) : Host.Outcome State Fault Refusal :=
  .next (s.pcieWrite bar.val off.toNat (leBytes n.val data.toNat)).finish

/-- SPI_READ (R479). -/
def execSpiRead (cmd : BitVec 8) (addr : BitVec 32) (n : Fin 257) (s : State) : Host.Outcome State Fault Refusal :=
  .next (s.spiRead cmd.toNat addr.toNat n.val).finish

/-- SPI_WRITE (R479). -/
def execSpiWrite (addr : BitVec 32) (n : Fin 257) (data : BitVec 2048) (s : State) : Host.Outcome State Fault Refusal :=
  .next (s.spiWrite addr.toNat (leBytes n.val data.toNat)).finish

/-- HOST_READ_TIMEOUT (R482). -/
def execHostReadTimeout (s : State) : Host.Outcome State Fault Refusal :=
  .next (s.readTimeout).finish

/-- POST (R485). -/
def execPost (who : Initiator) (m : BitVec 8) (len : BitVec 6) (s : State) : Host.Outcome State Fault Refusal :=
  .next (s.writeBy who .MBX_POST m.toNat len.toNat).finish

/-- SNAPSHOT (R486). -/
def execSnapshot (who : Initiator) (m : BitVec 8) (s : State) : Host.Outcome State Fault Refusal :=
  .next (s.snapshotBy who.agent m.toNat).finish

/-- NUMCMD (R501). -/
def execNumcmd (who : Initiator) (num : BitVec 6) (s : State) : Host.Outcome State Fault Refusal :=
  .next (s.writeBy who .HIF_NUMCMD 0 (num.toNat + 2 ^ 6)).finish

/-- HELLO (R493). -/
def execHello (p : Fin 4) (num : BitVec 6) (dist port flags : BitVec 8) (sub tree : BitVec 64) (claims : Bool) (s : State) : Host.Outcome State Fault Refusal :=
  .next (s.hello p.val num.toNat dist.toNat port.toNat flags.toNat sub.toNat tree.toNat claims).finish

/-- HELLO_SEND (R493). -/
def execHelloSend (p : Fin 4) (s : State) : Host.Outcome State Fault Refusal :=
  .next (s.helloSend p.val).finish

/-- RDREQ (R492). -/
def execRdreq (p : Fin 4) (dst : BitVec 8) (src : BitVec 6) (hops : BitVec 8) (tag : BitVec 16) (off : BitVec 40) (n : Fin 257) (s : State) : Host.Outcome State Fault Refusal :=
  .next (s.gdnTake p.val 0x10 dst.toNat src.toNat hops.toNat tag.toNat (offsetBytes off.toNat ++ leBytes 2 n.val) (fun s => s.readReq src.toNat tag.toNat off.toNat n.val)).finish

/-- RDCPL (R492). -/
def execRdcpl (p : Fin 4) (dst : BitVec 8) (src : BitVec 6) (hops : BitVec 8) (tag : BitVec 16) (status : BitVec 8) (n : Fin 257) (data : BitVec 2048) (s : State) : Host.Outcome State Fault Refusal :=
  .next (s.gdnTake p.val 0x11 dst.toNat src.toNat hops.toNat tag.toNat (status :: leBytes n.val data.toNat) (fun s => s.readCpl src.toNat tag.toNat status.toNat (leBytes n.val data.toNat))).finish

/-- WR (R492). -/
def execWr (p : Fin 4) (dst : BitVec 8) (src : BitVec 6) (hops : BitVec 8) (tag : BitVec 16) (off : BitVec 40) (n : Fin 257) (data : BitVec 2048) (s : State) : Host.Outcome State Fault Refusal :=
  .next (s.gdnTake p.val 0x12 dst.toNat src.toNat hops.toNat tag.toNat (offsetBytes off.toNat ++ leBytes n.val data.toNat) (fun s => s.remoteWrite src.toNat off.toNat (leBytes n.val data.toNat))).finish

/-- IRQ (R492). -/
def execIrq (p : Fin 4) (dst : BitVec 8) (src : BitVec 6) (hops : BitVec 8) (tag : BitVec 16) (vec : BitVec 16) (s : State) : Host.Outcome State Fault Refusal :=
  .next (s.gdnTake p.val 0x21 dst.toNat src.toNat hops.toNat tag.toNat (leBytes 2 vec.toNat) (fun s => s.passIrq p.val src.toNat hops.toNat vec.toNat)).finish

/-- SYNC_EXCHANGE (R497). -/
def execSyncExchange (lag : BitVec 16) (s : State) : Host.Outcome State Fault Refusal :=
  .next (s.syncExchange lag.toNat).finish

/-- SYNCREQ (R497). -/
def execSyncreq (p : Fin 4) (num : BitVec 16) (t2 : BitVec 71) (turn : Nat) (s : State) : Host.Outcome State Fault Refusal :=
  .next (s.syncReq p.val num.toNat t2.toNat turn).finish

/-- SYNCRESP (R497). -/
def execSyncresp (p : Fin 4) (num : BitVec 16) (t2 t3 t4 : BitVec 71) (roff : BitVec 32) (rlock : Bool) (s : State) : Host.Outcome State Fault Refusal :=
  .next (s.syncResp p.val num.toNat t2.toNat t3.toNat t4.toNat roff rlock).finish

/-- EXCHANGE_MISSED (R32). -/
def execExchangeMissed (s : State) : Host.Outcome State Fault Refusal :=
  .next (s.syncMissed).finish

/-- RESET (R496). -/
def execReset (p : Fin 4) (dst : BitVec 8) (src : BitVec 6) (hops : BitVec 8) (tag : BitVec 16) (s : State) : Host.Outcome State Fault Refusal :=
  .next (s.gdnTake p.val 0x40 dst.toNat src.toNat hops.toNat tag.toNat ([]) (fun s => s.remoteReset)).finish

/-- WAKE (R496). -/
def execWake (p : Fin 4) (dst : BitVec 8) (src : BitVec 6) (hops : BitVec 8) (s : State) : Host.Outcome State Fault Refusal :=
  .next (s.wakeFrame p.val dst.toNat src.toNat hops.toNat).finish

/-- NUMSET (R495). -/
def execNumset (p : Fin 4) (src : BitVec 6) (hops : BitVec 8) (uid : BitVec 64) (num : BitVec 6) (s : State) : Host.Outcome State Fault Refusal :=
  .next (s.numSet p.val src.toNat hops.toNat uid.toNat num.toNat).finish

/-- CONFLICT (R495). -/
def execConflict (p : Fin 4) (dst : BitVec 8) (src : BitVec 6) (hops : BitVec 8) (tag : BitVec 16) (num : BitVec 6) (s : State) : Host.Outcome State Fault Refusal :=
  .next (s.gdnTake p.val 0x54 dst.toNat src.toNat hops.toNat tag.toNat (leBytes 1 num.toNat) (fun s => s.conflict p.val num.toNat)).finish

/-- PORT_TIMEOUT (R494). -/
def execPortTimeout (p : Fin 4) (s : State) : Host.Outcome State Fault Refusal :=
  .next (s.gdnTimeout p.val).finish

/-- LANE_FAILURE (R490). -/
def execLaneFailure (p : Fin 4) (lane : Bool) (s : State) : Host.Outcome State Fault Refusal :=
  .next (s.gdnLaneFail p.val lane).finish

/-- ALARM_FIRE (R26). -/
def execAlarmFire (a : Fin 8) (s : State) : Host.Outcome State Fault Refusal :=
  .next (s.clocked (s.almFire a.val)).finish

/-- ALMXC (R27). -/
def execAlmxc (who : Initiator) (a : Fin 8) (v : Word) (s : State) : Host.Outcome State Fault Refusal :=
  .next (s.writeBy who .QTZ_ALMC a.val v.toNat).finish

/-- GEDAN_PORT_UP (R493). -/
def execGedanPortUp (p : Fin 4) (s : State) : Host.Outcome State Fault Refusal :=
  .next (s.gdnPortUp p.val).finish

/-- PCIE_LINK_CHANGE (R480). -/
def execPcieLinkChange (up : Bool) (s : State) : Host.Outcome State Fault Refusal :=
  .next (s.pcieLink up).finish

/-- SPI_ROOT_LAPSE (R480). -/
def execSpiRootLapse (s : State) : Host.Outcome State Fault Refusal :=
  .next (s.spiLapse).finish

/-- GEDAN_FRAME_DISCARD (R491). -/
def execGedanFrameDiscard (p : Fin 4) (s : State) : Host.Outcome State Fault Refusal :=
  .next (s.gdnDiscard p.val).finish

end Sys2Proof.Machine
end

