-- ==== Sys2Proof/Machine/Resource.lean ====
section
/-! DEFINITION. The meanings of the core instructions: capabilities, sample ports, edges, Lode, messages and events (R73 to R75, R78 to R82). -/

namespace Sys2Proof.Machine

/-- CMOV (R73). -/
def execCmov (c : Core) (cd cs : BitVec 3) (s : State) : Host.Outcome State Fault Refusal :=
  match c with
  | .lane e => .next (s.laneRun e.val 1 (laneCmov e.val cd cs)).finish
  | .sup k => .next (s.supRun k.val (supCmov k.val cd cs)).finish

/-- CNARROW (R73). -/
def execCnarrow (c : Core) (cd cs : BitVec 3) (ra rb : BitVec 5) (s : State) : Host.Outcome State Fault Refusal :=
  match c with
  | .lane e => .next (s.laneRun e.val 2 (laneCnarrow e.val cd cs ra rb)).finish
  | .sup k => .next (s.supRun k.val (supCnarrow k.val cd cs ra rb)).finish

/-- CPERM (R73). -/
def execCperm (c : Core) (cd cs : BitVec 3) (ra : BitVec 5) (s : State) : Host.Outcome State Fault Refusal :=
  match c with
  | .lane e => .next (s.laneRun e.val 1 (laneCperm e.val cd cs ra)).finish
  | .sup k => .next (s.supRun k.val (supCperm k.val cd cs ra)).finish

/-- CCLR (R73). -/
def execCclr (c : Core) (cd : BitVec 3) (s : State) : Host.Outcome State Fault Refusal :=
  match c with
  | .lane e => .next (s.laneRun e.val 1 (laneCclr e.val cd)).finish
  | .sup k => .next (s.supRun k.val (supCclr k.val cd)).finish

/-- SMP (R74). -/
def execSmp (c : Core) (rd : BitVec 5) (port : BitVec 3) (s : State) : Host.Outcome State Fault Refusal :=
  match c with
  | .lane e => .next (s.laneRun e.val 1 (laneSmp e.val rd port)).finish
  | .sup k => .next (s.supRun k.val supIllegal).finish

/-- EDGE (R75). -/
def execEdge (c : Core) (cap : BitVec 3) (index : BitVec 5) (field : BitVec 8) (rs rt : BitVec 5) (s : State) : Host.Outcome State Fault Refusal :=
  match c with
  | .lane e => .next (s.laneRun e.val 3 (laneEdge e.val cap index field rs rt)).finish
  | .sup k => .next (s.supRun k.val supIllegal).finish

/-- LOOK (R80). -/
def execLook (c : Core) (rd ra : BitVec 5) (cap : BitVec 3) (s : State) : Host.Outcome State Fault Refusal :=
  match c with
  | .lane e => .next ((s.lodeCut e.val ⟨1, rd, ra, cap, 1, 0⟩).laneRun e.val 12 (laneLook e.val 1 rd ra cap)).finish
  | .sup k => .next (s.supRun k.val supIllegal).finish

/-- INTERP2 (R301). -/
def execInterp2 (c : Core) (rd ra : BitVec 5) (cap : BitVec 3) (s : State) : Host.Outcome State Fault Refusal :=
  match c with
  | .lane e => .next ((s.lodeCut e.val ⟨2, rd, ra, cap, 2, 0⟩).laneRun e.val 16 (laneLook e.val 2 rd ra cap)).finish
  | .sup k => .next (s.supRun k.val supIllegal).finish

/-- INTERP3 (R301). -/
def execInterp3 (c : Core) (rd ra : BitVec 5) (cap : BitVec 3) (s : State) : Host.Outcome State Fault Refusal :=
  match c with
  | .lane e => .next ((s.lodeCut e.val ⟨3, rd, ra, cap, 3, 0⟩).laneRun e.val 24 (laneLook e.val 3 rd ra cap)).finish
  | .sup k => .next (s.supRun k.val supIllegal).finish

/-- WALK (R305). -/
def execWalk (c : Core) (rd ra : BitVec 5) (cap nm1 : BitVec 3) (depth : BitVec 5) (s : State) : Host.Outcome State Fault Refusal :=
  match c with
  | .lane e => .next ((s.lodeCut e.val ⟨0, rd, ra, cap, nm1.toNat + 1, depth.toNat⟩).laneRun e.val (12 + 4 * depth.toNat)
      (laneWalk e.val rd ra cap nm1 depth)).finish
  | .sup k => .next (s.supRun k.val supIllegal).finish

/-- SEND (R82). -/
def execSend (c : Core) (reg : BitVec 5) (route : BitVec 8) (s : State) : Host.Outcome State Fault Refusal :=
  match c with
  | .lane e => .next (s.laneRun e.val 2 (laneSend e.val reg route)).finish
  | .sup k => .next (s.supRun k.val supIllegal).finish

/-- RECV (R82). -/
def execRecv (c : Core) (reg : BitVec 5) (route : BitVec 8) (s : State) : Host.Outcome State Fault Refusal :=
  match c with
  | .lane e => .next (s.laneRun e.val 1 (laneRecv e.val reg route)).finish
  | .sup k => .next (s.supRun k.val supIllegal).finish

/-- SIG (R78). -/
def execSig (c : Core) (cap : BitVec 3) (s : State) : Host.Outcome State Fault Refusal :=
  match c with
  | .lane e => .next (s.laneRun e.val 2 (laneSig e.val cap)).finish
  | .sup k => .next (s.supRun k.val supIllegal).finish

end Sys2Proof.Machine
end

