-- ==== Sys2Proof/Machine/Sense.lean ====
section
/-! DEFINITION. The meanings of the commands of bitstream inputs, position interfaces, Lode descriptors and the event fabric (R259 to R329). -/

namespace Sys2Proof.Machine

/-- DECIMATION_BOUNDARY (R264). -/
def execDecimationBoundary (i : Fin 64) (bs : BitVec 1024) (s : State) : Host.Outcome State Fault Refusal :=
  .next (s.clocked (s.sdiBoundary i.val bs)).finish

/-- STUCK_DETECTED (R266). -/
def execStuckDetected (input : Fin 64 × Bool) (s : State) : Host.Outcome State Fault Refusal :=
  .next (s.sdiStuck input.1.val input.2).finish

/-- FAST_TRIP_ASSERT (R267). -/
def execFastTripAssert (i : Fin 64) (bs : BitVec 32) (s : State) : Host.Outcome State Fault Refusal :=
  .next (s.ftAssert i.val bs).finish

/-- FAST_TRIP_RELEASE (R267). -/
def execFastTripRelease (i : Fin 64) (bs : BitVec 32) (s : State) : Host.Outcome State Fault Refusal :=
  .next (s.ftRelease i.val bs).finish

/-- TRANSITION_ACCEPTED (R270). -/
def execTransitionAccepted (p : Fin 24) (lines : BitVec 3) (s : State) : Host.Outcome State Fault Refusal :=
  .next (s.posLines p.val lines.toNat).finish

/-- FRAME_START (R276). -/
def execFrameStart (p : Fin 24) (s : State) : Host.Outcome State Fault Refusal :=
  .next (s.clocked (s.ssiTimed p.val)).finish

/-- FRAME_COMPLETE (R278). -/
def execFrameComplete (p : Fin 24) (bs : BitVec 40) (high : Bool) (s : State) : Host.Outcome State Fault Refusal :=
  .next (s.clocked (s.ssiDone p.val bs high)).finish

/-- SPEED_COMPUTE (R280). -/
def execSpeedCompute (p : Fin 24) (s : State) : Host.Outcome State Fault Refusal :=
  .next (s.clocked (s.posSpeed p.val)).finish

/-- COUNT (R283). -/
def execCount (who : Initiator) (p : Fin 24) (v : Word) (s : State) : Host.Outcome State Fault Refusal :=
  .next (s.writeBy who .POS_COUNT p.val v.toNat).finish

/-- DESCRIPTOR_WRITE (R297). -/
def execDescriptorWrite (who : Initiator) (d : BitVec 12) (i : Fin 8) (v : Word) (s : State) : Host.Outcome State Fault Refusal :=
  .next (s.writeSel who 0x400020004 (lodWord i.val) d.toNat v.toNat).finish

/-- FLIP (R306). -/
def execFlip (who : Initiator) (d : BitVec 12) (s : State) : Host.Outcome State Fault Refusal :=
  .next (s.writeSel who 0x400020004 .LOD_W0 d.toNat (setBits 17 1 1 (s.regN .LOD_W0 d.toNat))).finish

/-- EVENT_DELIVERY (R316). -/
def execEventDelivery (s : State) : Host.Outcome State Fault Refusal :=
  .next (s.clocked (s.deliverEvents)).finish

/-- CDATA (R324). -/
def execCdata (who : Initiator) (i : BitVec 8) (v : Word) (s : State) : Host.Outcome State Fault Refusal :=
  .next (s.writeSel who 0x400030004 .EVF_CDATA i.toNat v.toNat).finish

end Sys2Proof.Machine
end

