-- ==== Sys2Proof/Machine/Spares.lean ====
section
/-! DEFINITION. The meanings of the commands of failovers, self-tests, supervisor pairs and RDC commands (R403 to R419). -/

namespace Sys2Proof.Machine

/-- FAILOVER_SELF_TEST_DONE (R403). -/
def execFailoverSelfTestDone (sq : Fin 64) (enginePass partnerPass : Bool) (s : State) : Host.Outcome State Fault Refusal :=
  .next (s.failoverTested sq.val enginePass partnerPass).finish

/-- FAILOVER_LOAD (R403). -/
def execFailoverLoad (sq : Fin 64) (s : State) : Host.Outcome State Fault Refusal :=
  .next (s.failoverLoad sq.val).finish

/-- FAILOVER_RETARGET (R403). -/
def execFailoverRetarget (sq : Fin 64) (s : State) : Host.Outcome State Fault Refusal :=
  .next (s.failoverRetarget sq.val).finish

/-- ROTATING_TEST_SEGMENT (R408). -/
def execRotatingTestSegment (sq : Fin 64) (n : Fin 9) (pass : Bool) (s : State) : Host.Outcome State Fault Refusal :=
  .next (s.rotSegment sq.val n.val pass).finish

/-- ROTLATE (R408). -/
def execRotlate (sq : Fin 64) (n : Fin 9) (s : State) : Host.Outcome State Fault Refusal :=
  .next (s.rotLate sq.val n.val).finish

/-- COMPARE_UNIT_TEST (R410). -/
def execCompareUnitTest (failSq : BitVec 64) (failPair : BitVec 5) (s : State) : Host.Outcome State Fault Refusal :=
  .next (s.compareUnitTest failSq.toNat failPair.toNat).finish

/-- PAIR_FAULT (R412). -/
def execPairFault (p : Fin 5) (cause : BitVec 2) (s : State) : Host.Outcome State Fault Refusal :=
  .next (s.pairFault p.val cause.toNat).finish

/-- SPLIT (R413). -/
def execSplit (j : Fin 4) (s : State) : Host.Outcome State Fault Refusal :=
  .next (s.pmodeSet j.val 2).finish

/-- PAIR_REJOIN (R414). -/
def execPairRejoin (j : Fin 4) (mode : BitVec 2) (s : State) : Host.Outcome State Fault Refusal :=
  .next (s.pmodeSet j.val mode.toNat).finish

/-- PAIR_REJOIN_COPY_DONE (R414). -/
def execPairRejoinCopyDone (j : Fin 4) (s : State) : Host.Outcome State Fault Refusal :=
  .next (s.pairJoined j.val).finish

/-- TEST (R415). -/
def execTest (sq : Fin 64) (n : BitVec 4) (s : State) : Host.Outcome State Fault Refusal :=
  .next (s.rdcTest sq.val n.toNat).finish

/-- TEST_DONE (R415). -/
def execTestDone (pass : Bool) (s : State) : Host.Outcome State Fault Refusal :=
  .next (s.rdcTestDone pass).finish

/-- REJOIN (R415). -/
def execRejoin (sq : Fin 64) (n : BitVec 4) (src : Bool) (log : Fin 8) (peer : BitVec 4) (s : State) : Host.Outcome State Fault Refusal :=
  .next (s.rdcRejoin sq.val n.toNat src log.val peer.toNat).finish

/-- REJOIN_DONE (R415). -/
def execRejoinDone (s : State) : Host.Outcome State Fault Refusal :=
  .next (s.rdcRejoinDone).finish

/-- REFRESH (R416). -/
def execRefresh (sq : Fin 64) (s : State) : Host.Outcome State Fault Refusal :=
  .next (s.refreshGo sq.val).finish

/-- REFRESH_DONE (R416). -/
def execRefreshDone (s : State) : Host.Outcome State Fault Refusal :=
  .next (s.refreshDone).finish

/-- TESTPAIR (R415). -/
def execTestpair (p : BitVec 4) (s : State) : Host.Outcome State Fault Refusal :=
  .next (s.rdcTestPair p.toNat).finish

/-- TESTPAIR_DONE (R415). -/
def execTestpairDone (pass : Bool) (s : State) : Host.Outcome State Fault Refusal :=
  .next (s.rdcTestPairDone pass).finish

/-- REJOINPAIR (R415). -/
def execRejoinpair (p : BitVec 4) (s : State) : Host.Outcome State Fault Refusal :=
  .next (s.rdcRejoinPair p.toNat).finish

/-- WEAR_MEASURE (R419). -/
def execWearMeasure (i : Fin 66) (slack : BitVec 12) (s : State) : Host.Outcome State Fault Refusal :=
  .next (s.wearMeasure i.val slack.toNat).finish

end Sys2Proof.Machine
end

