-- ==== Sys2Proof/Machine/Starts.lean ====
section
/-! DEFINITION. The meanings of the commands of resets, boot and life cycle (R538 to R557). -/

namespace Sys2Proof.Machine

/-- POWER_ON (R538). -/
def execPowerOn (main bkp : Bool) (s : State) : Host.Outcome State Fault Refusal :=
  .next (s.powerOn main bkp).finish

/-- RESETN (R538). -/
def execResetn (s : State) : Host.Outcome State Fault Refusal :=
  .next (s.deviceReset 3).finish

/-- WATCHDOG_EXPIRY (R541). -/
def execWatchdogExpiry (s : State) : Host.Outcome State Fault Refusal :=
  .next (s.wdExpire).finish

/-- WDKICK (R541). -/
def execWdkick (who : Initiator) (v : Word) (s : State) : Host.Outcome State Fault Refusal :=
  .next (s.writeBy who .RST_WDKICK 0 v.toNat).finish

/-- SWRST (R542). -/
def execSwrst (who : Initiator) (v : Word) (s : State) : Host.Outcome State Fault Refusal :=
  .next (s.writeBy who .RST_SWRST 0 v.toNat).finish

/-- DEBUG_RESET (R538). -/
def execDebugReset (s : State) : Host.Outcome State Fault Refusal :=
  .next (s.debugReset).finish

/-- RESET_HOLD_END (R538). -/
def execResetHoldEnd (bootsel : Bool) (s : State) : Host.Outcome State Fault Refusal :=
  .next (s.holdEnd bootsel).finish

/-- OPTION_LOAD_DONE (R543). -/
def execOptionLoadDone (bad : BitVec 136) (badLife : Bool) (s : State) : Host.Outcome State Fault Refusal :=
  .next (s.optionLoaded bad badLife).finish

/-- DOMAIN_RELEASE (R545). -/
def execDomainRelease (s : State) : Host.Outcome State Fault Refusal :=
  .next (s.domainRelease).finish

/-- BOOT_VERIFICATION_DONE (R548). -/
def execBootVerificationDone (s : State) : Host.Outcome State Fault Refusal :=
  .next (s.bootDone).finish

/-- CSTART (R551). -/
def execCstart (who : Initiator) (v : BitVec 4) (s : State) : Host.Outcome State Fault Refusal :=
  .next (s.writeBy who .RST_CSTART 0 v.toNat).finish

/-- BLKCTL (R552). -/
def execBlkctl (who : Initiator) (v : Word) (s : State) : Host.Outcome State Fault Refusal :=
  .next (s.writeBy who .RST_BLKCTL 0 v.toNat).finish

/-- BLOCK_RESET_DONE (R552). -/
def execBlockResetDone (idle : Bool) (s : State) : Host.Outcome State Fault Refusal :=
  .next (s.blockDone idle).finish

/-- LCS_CMD (R554). -/
def execLcsCmd (who : Initiator) (v : Word) (s : State) : Host.Outcome State Fault Refusal :=
  .next (s.writeBy who .LCS_CMD 0 v.toNat).finish

/-- LIFE_CYCLE_RESET (R553). -/
def execLifeCycleReset (s : State) : Host.Outcome State Fault Refusal :=
  .next (s.lcFinish).finish

end Sys2Proof.Machine
end

