-- ==== Sys2Proof/Machine/System.lean ====
section
/-! DEFINITION. The meanings of the core instructions: the supervisor core's own instructions (R362, R363, R372 to R383). -/

namespace Sys2Proof.Machine

/-- COPYB (R372). -/
def execCopyb (k : Fin 10) (rd ra rb : BitVec 5) (upTo : Nat) (s : State) : Host.Outcome State Fault Refusal :=
  .next (s.supRun k.val (supCopyb k.val rd ra rb upTo)).finish

/-- FILLB (R372). -/
def execFillb (k : Fin 10) (rd ra rb : BitVec 5) (upTo : Nat) (s : State) : Host.Outcome State Fault Refusal :=
  .next (s.supRun k.val (supFillb k.val rd ra rb upTo)).finish

/-- CRCB (R372). -/
def execCrcb (k : Fin 10) (rd ra rb : BitVec 5) (upTo : Nat) (s : State) : Host.Outcome State Fault Refusal :=
  .next (s.supRun k.val (supCrcb k.val rd ra rb upTo)).finish

/-- CAS (R372). -/
def execCas (k : Fin 10) (rd ra rb : BitVec 5) (s : State) : Host.Outcome State Fault Refusal :=
  .next (s.supRun k.val (supCas k.val rd ra rb)).finish

/-- MOVK (R362). -/
def execMovk (k : Fin 10) (rd : BitVec 5) (imm : BitVec 16) (hw : BitVec 2) (s : State) : Host.Outcome State Fault Refusal :=
  .next (s.supRun k.val (supMovk k.val rd imm hw)).finish

/-- ISYNC (R371). -/
def execIsync (k : Fin 10) (s : State) : Host.Outcome State Fault Refusal :=
  .next (s.supRun k.val (supIsync k.val)).finish

/-- SYNC (R363). -/
def execSync (k : Fin 10) (s : State) : Host.Outcome State Fault Refusal :=
  .next (s.supRun k.val (supSync k.val)).finish

/-- RETX (R380). -/
def execRetx (k : Fin 10) (s : State) : Host.Outcome State Fault Refusal :=
  .next (s.supRun k.val (supRetx k.val)).finish

/-- GATE (R377). -/
def execGate (k : Fin 10) (n : BitVec 15) (s : State) : Host.Outcome State Fault Refusal :=
  .next (s.supRun k.val (supGate k.val n)).finish

/-- RDSR (R360). -/
def execRdsr (k : Fin 10) (rd : BitVec 5) (sr : BitVec 10) (s : State) : Host.Outcome State Fault Refusal :=
  .next (s.supRun k.val (supRdsr k.val rd sr)).finish

/-- WRSR (R360). -/
def execWrsr (k : Fin 10) (ra : BitVec 5) (sr : BitVec 10) (s : State) : Host.Outcome State Fault Refusal :=
  .next (s.supRun k.val (supWrsr k.val ra sr)).finish

/-- WAIT (R363). -/
def execWait (k : Fin 10) (s : State) : Host.Outcome State Fault Refusal :=
  .next (s.supRun k.val (supWait k.val)).finish

/-- TRAP (R363). -/
def execTrap (k : Fin 10) (n : BitVec 15) (s : State) : Host.Outcome State Fault Refusal :=
  .next (s.supRun k.val (supTrap n)).finish

/-- CMINT (R383). -/
def execCmint (k : Fin 10) (cd : BitVec 3) (ra rb : BitVec 5) (s : State) : Host.Outcome State Fault Refusal :=
  .next (s.supRun k.val (supCmint k.val cd ra rb)).finish

/-- REPI (R373). -/
def execRepi (k : Fin 10) (ainc : Bool) (cnt : BitVec 5) (upTo : Nat) (s : State) : Host.Outcome State Fault Refusal :=
  .next (s.supRun k.val (supRepi k.val ainc cnt upTo)).finish

/-- REPN (R373). -/
def execRepn (k : Fin 10) (rsrc ainc : Bool) (cnt : BitVec 5) (nm1 : BitVec 6) (s : State) : Host.Outcome State Fault Refusal :=
  .next (s.supRun k.val (supRepn k.val rsrc ainc cnt nm1)).finish

end Sys2Proof.Machine
end

