-- ==== Sys2Proof/Machine/Tasks.lean ====
section
/-! DEFINITION. The meanings of the commands of tasks, drains, window stores and messages of the squares (R58, R88 to R92, R104, R111, R118, R397 to R401). -/

namespace Sys2Proof.Machine

/-- WAKE_LEAD (R88). -/
def execWakeLead (sq : Fin 64) (idx : Fin 4096) (f : Nat) (s : State) : Host.Outcome State Fault Refusal :=
  .next (s.clocked (s.wakeLead sq.val idx.val f)).finish

/-- TASK_START (R118). -/
def execTaskStart (sq : Fin 64) (idx : Fin 4096) (f : Nat) (s : State) : Host.Outcome State Fault Refusal :=
  .next (s.clocked (s.taskStart sq.val idx.val f)).finish

/-- BUDGET_EXPIRY (R58). -/
def execBudgetExpiry (e : Fin 512) (s : State) : Host.Outcome State Fault Refusal :=
  .next (s.clocked (s.budgetExpiry e.val)).finish

/-- LOCAL_STORE_DRAIN (R91). -/
def execLocalStoreDrain (e : Fin 512) (s : State) : Host.Outcome State Fault Refusal :=
  .next (s.clocked (s.drainLocal e.val)).finish

/-- SHARED_STORE_DRAIN (R92). -/
def execSharedStoreDrain (e : Fin 512) (s : State) : Host.Outcome State Fault Refusal :=
  .next (s.clocked (s.drainShared e.val)).finish

/-- WINDOW_STORE_EFFECT (R111). -/
def execWindowStoreEffect (k : Nat) (s : State) : Host.Outcome State Fault Refusal :=
  .next (s.clocked (s.windowEffect k)).finish

/-- MESSAGE_LINK_CROSSING (R104). -/
def execMessageLinkCrossing (k : Nat) (s : State) : Host.Outcome State Fault Refusal :=
  .next (s.clocked (s.crossLink k)).finish

/-- MESSAGE_ARRIVAL (R104). -/
def execMessageArrival (k : Nat) (s : State) : Host.Outcome State Fault Refusal :=
  .next (s.clocked (s.arrive k)).finish

/-- SIGNATURE_COMPARE (R398). -/
def execSignatureCompare (e : Fin 512) (s : State) : Host.Outcome State Fault Refusal :=
  .next (s.clocked (s.compareCopies e.val)).finish

/-- HOLD_RELEASE (R398). -/
def execHoldRelease (e : Fin 512) (s : State) : Host.Outcome State Fault Refusal :=
  .next (s.clocked (s.holdRelease e.val)).finish

/-- SNAPSHOT_COPY (R401). -/
def execSnapshotCopy (e : Fin 512) (s : State) : Host.Outcome State Fault Refusal :=
  .next (s.clocked (s.snapshotCopy e.val)).finish

end Sys2Proof.Machine
end

