-- ==== Sys2Proof/Machine/Dispatch.lean ====
section
/-! DEFINITION. Dispatch: one arm per command, each one direct call of its meaning. -/

namespace Sys2Proof.Machine

/-- The effect of a command on everything but the queue. -/
def exec (i : Instr) (s : State) : Host.Outcome State Fault Refusal :=
  match i with
  | .add c rd ra rb => Sys2Proof.Machine.execAdd c rd ra rb s
  | .sub c rd ra rb => Sys2Proof.Machine.execSub c rd ra rb s
  | .and c rd ra rb => Sys2Proof.Machine.execAnd c rd ra rb s
  | .or c rd ra rb => Sys2Proof.Machine.execOr c rd ra rb s
  | .xor c rd ra rb => Sys2Proof.Machine.execXor c rd ra rb s
  | .andn c rd ra rb => Sys2Proof.Machine.execAndn c rd ra rb s
  | .mov c rd ra => Sys2Proof.Machine.execMov c rd ra s
  | .nop c => Sys2Proof.Machine.execNop c s
  | .shl c rd ra rb => Sys2Proof.Machine.execShl c rd ra rb s
  | .shr c rd ra rb => Sys2Proof.Machine.execShr c rd ra rb s
  | .sar c rd ra rb => Sys2Proof.Machine.execSar c rd ra rb s
  | .ror c rd ra rb => Sys2Proof.Machine.execRor c rd ra rb s
  | .shli c rd ra sh => Sys2Proof.Machine.execShli c rd ra sh s
  | .shri c rd ra sh => Sys2Proof.Machine.execShri c rd ra sh s
  | .sari c rd ra sh => Sys2Proof.Machine.execSari c rd ra sh s
  | .rori c rd ra sh => Sys2Proof.Machine.execRori c rd ra sh s
  | .min c rd ra rb => Sys2Proof.Machine.execMin c rd ra rb s
  | .max c rd ra rb => Sys2Proof.Machine.execMax c rd ra rb s
  | .minu c rd ra rb => Sys2Proof.Machine.execMinu c rd ra rb s
  | .maxu c rd ra rb => Sys2Proof.Machine.execMaxu c rd ra rb s
  | .abs c rd ra => Sys2Proof.Machine.execAbs c rd ra s
  | .neg c rd ra => Sys2Proof.Machine.execNeg c rd ra s
  | .adds c rd ra rb => Sys2Proof.Machine.execAdds c rd ra rb s
  | .subs c rd ra rb => Sys2Proof.Machine.execSubs c rd ra rb s
  | .adds15 c rd ra rb => Sys2Proof.Machine.execAdds15 c rd ra rb s
  | .subs15 c rd ra rb => Sys2Proof.Machine.execSubs15 c rd ra rb s
  | .sat15 c rd ra => Sys2Proof.Machine.execSat15 c rd ra s
  | .clz c rd ra => Sys2Proof.Machine.execClz c rd ra s
  | .mul c rd ra rb => Sys2Proof.Machine.execMul c rd ra rb s
  | .mulh c rd ra rb => Sys2Proof.Machine.execMulh c rd ra rb s
  | .mulhu c rd ra rb => Sys2Proof.Machine.execMulhu c rd ra rb s
  | .qmul15 c rd ra rb => Sys2Proof.Machine.execQmul15 c rd ra rb s
  | .qmul31 c rd ra rb => Sys2Proof.Machine.execQmul31 c rd ra rb s
  | .mac c n ra rb => Sys2Proof.Machine.execMac c n ra rb s
  | .msu c n ra rb => Sys2Proof.Machine.execMsu c n ra rb s
  | .macs c n ra rb => Sys2Proof.Machine.execMacs c n ra rb s
  | .msus c n ra rb => Sys2Proof.Machine.execMsus c n ra rb s
  | .aclr c n => Sys2Proof.Machine.execAclr c n s
  | .ald c n ra sh => Sys2Proof.Machine.execAld c n ra sh s
  | .ard c rd n sh => Sys2Proof.Machine.execArd c rd n sh s
  | .ardl c rd n sh => Sys2Proof.Machine.execArdl c rd n sh s
  | .ardh c rd n => Sys2Proof.Machine.execArdh c rd n s
  | .fadd c rd ra rb => Sys2Proof.Machine.execFadd c rd ra rb s
  | .fsub c rd ra rb => Sys2Proof.Machine.execFsub c rd ra rb s
  | .fmul c rd ra rb => Sys2Proof.Machine.execFmul c rd ra rb s
  | .fma c rd ra rb rc => Sys2Proof.Machine.execFma c rd ra rb rc s
  | .fms c rd ra rb rc => Sys2Proof.Machine.execFms c rd ra rb rc s
  | .fdiv c rd ra rb => Sys2Proof.Machine.execFdiv c rd ra rb s
  | .fsqrt c rd ra => Sys2Proof.Machine.execFsqrt c rd ra s
  | .fmin c rd ra rb => Sys2Proof.Machine.execFmin c rd ra rb s
  | .fmax c rd ra rb => Sys2Proof.Machine.execFmax c rd ra rb s
  | .fabs c rd ra => Sys2Proof.Machine.execFabs c rd ra s
  | .fneg c rd ra => Sys2Proof.Machine.execFneg c rd ra s
  | .fcvtif c rd ra => Sys2Proof.Machine.execFcvtif c rd ra s
  | .fcvtfi c rd ra => Sys2Proof.Machine.execFcvtfi c rd ra s
  | .fcvtqf c rd ra => Sys2Proof.Machine.execFcvtqf c rd ra s
  | .fcvtfq c rd ra => Sys2Proof.Machine.execFcvtfq c rd ra s
  | .addi c rd ra imm => Sys2Proof.Machine.execAddi c rd ra imm s
  | .andi c rd ra imm => Sys2Proof.Machine.execAndi c rd ra imm s
  | .ori c rd ra imm => Sys2Proof.Machine.execOri c rd ra imm s
  | .xori c rd ra imm => Sys2Proof.Machine.execXori c rd ra imm s
  | .movi c rd imm => Sys2Proof.Machine.execMovi c rd imm s
  | .movhi c rd imm => Sys2Proof.Machine.execMovhi c rd imm s
  | .beq c ra rb off => Sys2Proof.Machine.execBeq c ra rb off s
  | .bne c ra rb off => Sys2Proof.Machine.execBne c ra rb off s
  | .blt c ra rb off => Sys2Proof.Machine.execBlt c ra rb off s
  | .bge c ra rb off => Sys2Proof.Machine.execBge c ra rb off s
  | .bltu c ra rb off => Sys2Proof.Machine.execBltu c ra rb off s
  | .bgeu c ra rb off => Sys2Proof.Machine.execBgeu c ra rb off s
  | .bflt c ra rb off => Sys2Proof.Machine.execBflt c ra rb off s
  | .bfge c ra rb off => Sys2Proof.Machine.execBfge c ra rb off s
  | .beqi c ra simm off => Sys2Proof.Machine.execBeqi c ra simm off s
  | .bnei c ra simm off => Sys2Proof.Machine.execBnei c ra simm off s
  | .blti c ra simm off => Sys2Proof.Machine.execBlti c ra simm off s
  | .bgei c ra simm off => Sys2Proof.Machine.execBgei c ra simm off s
  | .bltui c ra simm off => Sys2Proof.Machine.execBltui c ra simm off s
  | .bgeui c ra simm off => Sys2Proof.Machine.execBgeui c ra simm off s
  | .call c target => Sys2Proof.Machine.execCall c target s
  | .ret c => Sys2Proof.Machine.execRet c s
  | .callr c ra => Sys2Proof.Machine.execCallr c ra s
  | .jr c ra => Sys2Proof.Machine.execJr c ra s
  | .ldw c wide rd ra simm => Sys2Proof.Machine.execLdw c wide rd ra simm s
  | .ldh c rd ra simm => Sys2Proof.Machine.execLdh c rd ra simm s
  | .ldhu c rd ra simm => Sys2Proof.Machine.execLdhu c rd ra simm s
  | .ldb c rd ra simm => Sys2Proof.Machine.execLdb c rd ra simm s
  | .ldbu c rd ra simm => Sys2Proof.Machine.execLdbu c rd ra simm s
  | .stw c wide rs ra simm => Sys2Proof.Machine.execStw c wide rs ra simm s
  | .sth c rs ra simm => Sys2Proof.Machine.execSth c rs ra simm s
  | .stb c rs ra simm => Sys2Proof.Machine.execStb c rs ra simm s
  | .lds c rd ra simm => Sys2Proof.Machine.execLds c rd ra simm s
  | .ldsh c rd ra simm => Sys2Proof.Machine.execLdsh c rd ra simm s
  | .ldshu c rd ra simm => Sys2Proof.Machine.execLdshu c rd ra simm s
  | .ldsb c rd ra simm => Sys2Proof.Machine.execLdsb c rd ra simm s
  | .ldsbu c rd ra simm => Sys2Proof.Machine.execLdsbu c rd ra simm s
  | .sts c rs ra simm => Sys2Proof.Machine.execSts c rs ra simm s
  | .stsh c rs ra simm => Sys2Proof.Machine.execStsh c rs ra simm s
  | .stsb c rs ra simm => Sys2Proof.Machine.execStsb c rs ra simm s
  | .ldc c rd ra simm => Sys2Proof.Machine.execLdc c rd ra simm s
  | .ldch c rd ra simm => Sys2Proof.Machine.execLdch c rd ra simm s
  | .ldchu c rd ra simm => Sys2Proof.Machine.execLdchu c rd ra simm s
  | .ldcb c rd ra simm => Sys2Proof.Machine.execLdcb c rd ra simm s
  | .ldcbu c rd ra simm => Sys2Proof.Machine.execLdcbu c rd ra simm s
  | .stc c rs ra simm => Sys2Proof.Machine.execStc c rs ra simm s
  | .stch c rs ra simm => Sys2Proof.Machine.execStch c rs ra simm s
  | .stcb c rs ra simm => Sys2Proof.Machine.execStcb c rs ra simm s
  | .cmov c cd cs => Sys2Proof.Machine.execCmov c cd cs s
  | .cnarrow c cd cs ra rb => Sys2Proof.Machine.execCnarrow c cd cs ra rb s
  | .cperm c cd cs ra => Sys2Proof.Machine.execCperm c cd cs ra s
  | .cclr c cd => Sys2Proof.Machine.execCclr c cd s
  | .cld c cd ra => Sys2Proof.Machine.execCld c cd ra s
  | .cst c cs ra => Sys2Proof.Machine.execCst c cs ra s
  | .smp c rd port => Sys2Proof.Machine.execSmp c rd port s
  | .edge c cap index field rs rt => Sys2Proof.Machine.execEdge c cap index field rs rt s
  | .look c rd ra cap => Sys2Proof.Machine.execLook c rd ra cap s
  | .interp2 c rd ra cap => Sys2Proof.Machine.execInterp2 c rd ra cap s
  | .interp3 c rd ra cap => Sys2Proof.Machine.execInterp3 c rd ra cap s
  | .walk c rd ra cap nm1 depth => Sys2Proof.Machine.execWalk c rd ra cap nm1 depth s
  | .send c reg route => Sys2Proof.Machine.execSend c reg route s
  | .recv c reg route => Sys2Proof.Machine.execRecv c reg route s
  | .endTask c => Sys2Proof.Machine.execEndTask c s
  | .ifence c => Sys2Proof.Machine.execIfence c s
  | .time c rd => Sys2Proof.Machine.execTime c rd s
  | .tin c rd n => Sys2Proof.Machine.execTin c rd n s
  | .sig c cap => Sys2Proof.Machine.execSig c cap s
  | .rep c rsrc advRb advRa advRd ainc cnt nm1 => Sys2Proof.Machine.execRep c rsrc advRb advRa advRd ainc cnt nm1 s
  | .wakeLead sq idx f => Sys2Proof.Machine.execWakeLead sq idx f s
  | .taskStart sq idx f => Sys2Proof.Machine.execTaskStart sq idx f s
  | .budgetExpiry e => Sys2Proof.Machine.execBudgetExpiry e s
  | .localStoreDrain e => Sys2Proof.Machine.execLocalStoreDrain e s
  | .sharedStoreDrain e => Sys2Proof.Machine.execSharedStoreDrain e s
  | .windowStoreEffect k => Sys2Proof.Machine.execWindowStoreEffect k s
  | .messageLinkCrossing k => Sys2Proof.Machine.execMessageLinkCrossing k s
  | .messageArrival k => Sys2Proof.Machine.execMessageArrival k s
  | .signatureCompare e => Sys2Proof.Machine.execSignatureCompare e s
  | .holdRelease e => Sys2Proof.Machine.execHoldRelease e s
  | .snapshotCopy e => Sys2Proof.Machine.execSnapshotCopy e s
  | .failoverSelfTestDone sq enginePass partnerPass => Sys2Proof.Machine.execFailoverSelfTestDone sq enginePass partnerPass s
  | .failoverLoad sq => Sys2Proof.Machine.execFailoverLoad sq s
  | .failoverRetarget sq => Sys2Proof.Machine.execFailoverRetarget sq s
  | .rotatingTestSegment sq n pass => Sys2Proof.Machine.execRotatingTestSegment sq n pass s
  | .rotlate sq n => Sys2Proof.Machine.execRotlate sq n s
  | .compareUnitTest failSq failPair => Sys2Proof.Machine.execCompareUnitTest failSq failPair s
  | .pairFault p cause => Sys2Proof.Machine.execPairFault p cause s
  | .split j => Sys2Proof.Machine.execSplit j s
  | .pairRejoin j mode => Sys2Proof.Machine.execPairRejoin j mode s
  | .pairRejoinCopyDone j => Sys2Proof.Machine.execPairRejoinCopyDone j s
  | .test sq n => Sys2Proof.Machine.execTest sq n s
  | .testDone pass => Sys2Proof.Machine.execTestDone pass s
  | .rejoin sq n src log peer => Sys2Proof.Machine.execRejoin sq n src log peer s
  | .rejoinDone => Sys2Proof.Machine.execRejoinDone s
  | .refresh sq => Sys2Proof.Machine.execRefresh sq s
  | .refreshDone => Sys2Proof.Machine.execRefreshDone s
  | .testpair p => Sys2Proof.Machine.execTestpair p s
  | .testpairDone pass => Sys2Proof.Machine.execTestpairDone pass s
  | .rejoinpair p => Sys2Proof.Machine.execRejoinpair p s
  | .wearMeasure idx slack => Sys2Proof.Machine.execWearMeasure idx slack s
  | .start who bank => Sys2Proof.Machine.execStart who bank s
  | .swreq who bank => Sys2Proof.Machine.execSwreq who bank s
  | .cancel who => Sys2Proof.Machine.execCancel who s
  | .planOrigin => Sys2Proof.Machine.execPlanOrigin s
  | .switchCheck => Sys2Proof.Machine.execSwitchCheck s
  | .frameBoundary => Sys2Proof.Machine.execFrameBoundary s
  | .go who bank => Sys2Proof.Machine.execGo who bank s
  | .loadAbort who => Sys2Proof.Machine.execLoadAbort who s
  | .loadComplete => Sys2Proof.Machine.execLoadComplete s
  | .epValueWrite who p code v => Sys2Proof.Machine.execEpValueWrite who p code v s
  | .epOriginWrite who p part v => Sys2Proof.Machine.execEpOriginWrite who p part v s
  | .epTimetableWrite e n field v fine => Sys2Proof.Machine.execEpTimetableWrite e n field v fine s
  | .qpush who p v => Sys2Proof.Machine.execQpush who p v s
  | .epCtlWrite who p v => Sys2Proof.Machine.execEpCtlWrite who p v s
  | .loadPoint p => Sys2Proof.Machine.execLoadPoint p s
  | .peakLoadPoint p => Sys2Proof.Machine.execPeakLoadPoint p s
  | .compareMatch p b => Sys2Proof.Machine.execCompareMatch p b s
  | .timetableEdge p b => Sys2Proof.Machine.execTimetableEdge p b s
  | .deadTimeExpiry p b => Sys2Proof.Machine.execDeadTimeExpiry p b s
  | .maxonExpiry p b => Sys2Proof.Machine.execMaxonExpiry p b s
  | .readbackMismatch p => Sys2Proof.Machine.execReadbackMismatch p s
  | .rbfaultRelease who p => Sys2Proof.Machine.execRbfaultRelease who p s
  | .steer who g m => Sys2Proof.Machine.execSteer who g m s
  | .steerComplete g => Sys2Proof.Machine.execSteerComplete g s
  | .unsteer who g => Sys2Proof.Machine.execUnsteer who g s
  | .swtrig who c => Sys2Proof.Machine.execSwtrig who c s
  | .arm who c trigf v => Sys2Proof.Machine.execArm who c trigf v s
  | .converterDisable who c => Sys2Proof.Machine.execConverterDisable who c s
  | .timedTrigger c => Sys2Proof.Machine.execTimedTrigger c s
  | .scanStart c => Sys2Proof.Machine.execScanStart c s
  | .positionDelivery c v => Sys2Proof.Machine.execPositionDelivery c v s
  | .scanEnd c => Sys2Proof.Machine.execScanEnd c s
  | .handoverDue g => Sys2Proof.Machine.execHandoverDue g s
  | .handoverCompare c a b => Sys2Proof.Machine.execHandoverCompare c a b s
  | .uncheckedHandover g => Sys2Proof.Machine.execUncheckedHandover g s
  | .calibrationDone n fits offs gainc => Sys2Proof.Machine.execCalibrationDone n fits offs gainc s
  | .comparatorAssert c v => Sys2Proof.Machine.execComparatorAssert c v s
  | .comparatorRelease c v => Sys2Proof.Machine.execComparatorRelease c v s
  | .blankingEnd c => Sys2Proof.Machine.execBlankingEnd c s
  | .cmpSteer who g m => Sys2Proof.Machine.execCmpSteer who g m s
  | .cmpSteerComplete g => Sys2Proof.Machine.execCmpSteerComplete g s
  | .cmpUnsteer who g => Sys2Proof.Machine.execCmpUnsteer who g s
  | .netTrip src => Sys2Proof.Machine.execNetTrip src s
  | .netRelease who k => Sys2Proof.Machine.execNetRelease who k s
  | .followRelease k => Sys2Proof.Machine.execFollowRelease k s
  | .swtrip who => Sys2Proof.Machine.execSwtrip who s
  | .tdata who idx v => Sys2Proof.Machine.execTdata who idx v s
  | .decimationBoundary idx bs => Sys2Proof.Machine.execDecimationBoundary idx bs s
  | .stuckDetected input => Sys2Proof.Machine.execStuckDetected input s
  | .fastTripAssert idx bs => Sys2Proof.Machine.execFastTripAssert idx bs s
  | .fastTripRelease idx bs => Sys2Proof.Machine.execFastTripRelease idx bs s
  | .transitionAccepted p lines => Sys2Proof.Machine.execTransitionAccepted p lines s
  | .frameStart p => Sys2Proof.Machine.execFrameStart p s
  | .frameComplete p bs high => Sys2Proof.Machine.execFrameComplete p bs high s
  | .speedCompute p => Sys2Proof.Machine.execSpeedCompute p s
  | .count who p v => Sys2Proof.Machine.execCount who p v s
  | .descriptorWrite who d idx v => Sys2Proof.Machine.execDescriptorWrite who d idx v s
  | .flip who d => Sys2Proof.Machine.execFlip who d s
  | .eventDelivery => Sys2Proof.Machine.execEventDelivery s
  | .cdata who idx v => Sys2Proof.Machine.execCdata who idx v s
  | .linkEnable who d v => Sys2Proof.Machine.execLinkEnable who d v s
  | .linkDisable who d v => Sys2Proof.Machine.execLinkDisable who d v s
  | .retrain who d v => Sys2Proof.Machine.execRetrain who d v s
  | .symbolsValid d => Sys2Proof.Machine.execSymbolsValid d s
  | .trainingTimeout d => Sys2Proof.Machine.execTrainingTimeout d s
  | .receiveTimeout d => Sys2Proof.Machine.execReceiveTimeout d s
  | .status d tag stat turn t2 => Sys2Proof.Machine.execStatus d tag stat turn t2 s
  | .fault d code chan tick fine => Sys2Proof.Machine.execFault d code chan tick fine s
  | .desc d v => Sys2Proof.Machine.execDesc d v s
  | .hbReady d => Sys2Proof.Machine.execHbReady d s
  | .edgeFrame d => Sys2Proof.Machine.execEdgeFrame d s
  | .flush d => Sys2Proof.Machine.execFlush d s
  | .trip d => Sys2Proof.Machine.execTrip d s
  | .release d => Sys2Proof.Machine.execRelease d s
  | .hb d => Sys2Proof.Machine.execHb d s
  | .dreq d => Sys2Proof.Machine.execDreq d s
  | .bc k cond off => Sys2Proof.Machine.execBc k cond off s
  | .calls k off => Sys2Proof.Machine.execCalls k off s
  | .copyb k rd ra rb upTo => Sys2Proof.Machine.execCopyb k rd ra rb upTo s
  | .fillb k rd ra rb upTo => Sys2Proof.Machine.execFillb k rd ra rb upTo s
  | .crcb k rd ra rb upTo => Sys2Proof.Machine.execCrcb k rd ra rb upTo s
  | .cas k rd ra rb => Sys2Proof.Machine.execCas k rd ra rb s
  | .movk k rd imm hw => Sys2Proof.Machine.execMovk k rd imm hw s
  | .isync k => Sys2Proof.Machine.execIsync k s
  | .sync k => Sys2Proof.Machine.execSync k s
  | .retx k => Sys2Proof.Machine.execRetx k s
  | .gate k n => Sys2Proof.Machine.execGate k n s
  | .rdsr k rd sr => Sys2Proof.Machine.execRdsr k rd sr s
  | .wrsr k ra sr => Sys2Proof.Machine.execWrsr k ra sr s
  | .wait k => Sys2Proof.Machine.execWait k s
  | .trap k n => Sys2Proof.Machine.execTrap k n s
  | .cmint k cd ra rb => Sys2Proof.Machine.execCmint k cd ra rb s
  | .repi k ainc cnt upTo => Sys2Proof.Machine.execRepi k ainc cnt upTo s
  | .repn k rsrc ainc cnt nm1 => Sys2Proof.Machine.execRepn k rsrc ainc cnt nm1 s
  | .interruptEntry k => Sys2Proof.Machine.execInterruptEntry k s
  | .supStoreDrain k => Sys2Proof.Machine.execSupStoreDrain k s
  | .doorbell who k ring ack => Sys2Proof.Machine.execDoorbell who k ring ack s
  | .dmaGo who m => Sys2Proof.Machine.execDmaGo who m s
  | .dmaElement m => Sys2Proof.Machine.execDmaElement m s
  | .wipe => Sys2Proof.Machine.execWipe s
  | .scrubVisit m => Sys2Proof.Machine.execScrubVisit m s
  | .valid who row => Sys2Proof.Machine.execValid who row s
  | .remapComplete m x => Sys2Proof.Machine.execRemapComplete m x s
  | .inj who v => Sys2Proof.Machine.execInj who v s
  | .sequenceWrite by_ bank off v => Sys2Proof.Machine.execSequenceWrite by_ bank off v s
  | .sequenceTimeout bank => Sys2Proof.Machine.execSequenceTimeout bank s
  | .programWord by_ bank word data => Sys2Proof.Machine.execProgramWord by_ bank word data s
  | .programBuffer by_ bank word n data => Sys2Proof.Machine.execProgramBuffer by_ bank word n data s
  | .eraseSector by_ bank sector => Sys2Proof.Machine.execEraseSector by_ bank sector s
  | .eraseSuspend by_ bank => Sys2Proof.Machine.execEraseSuspend by_ bank s
  | .eraseResume by_ bank => Sys2Proof.Machine.execEraseResume by_ bank s
  | .castle by_ bank => Sys2Proof.Machine.execCastle by_ bank s
  | .blankCheck by_ bank sector => Sys2Proof.Machine.execBlankCheck by_ bank sector s
  | .readStatus by_ bank => Sys2Proof.Machine.execReadStatus by_ bank s
  | .clearStatus by_ bank => Sys2Proof.Machine.execClearStatus by_ bank s
  | .lockSector by_ bank sector => Sys2Proof.Machine.execLockSector by_ bank sector s
  | .optionProgram by_ bank row data => Sys2Proof.Machine.execOptionProgram by_ bank row data s
  | .abort by_ bank => Sys2Proof.Machine.execAbort by_ bank s
  | .flashOperationDone bank bad => Sys2Proof.Machine.execFlashOperationDone bank bad s
  | .sectorReplacement bank => Sys2Proof.Machine.execSectorReplacement bank s
  | .hostRead bar off n => Sys2Proof.Machine.execHostRead bar off n s
  | .hostWrite bar off n data => Sys2Proof.Machine.execHostWrite bar off n data s
  | .spiRead cmd addr n => Sys2Proof.Machine.execSpiRead cmd addr n s
  | .spiWrite addr n data => Sys2Proof.Machine.execSpiWrite addr n data s
  | .hostReadTimeout => Sys2Proof.Machine.execHostReadTimeout s
  | .post who m len => Sys2Proof.Machine.execPost who m len s
  | .snapshot who m => Sys2Proof.Machine.execSnapshot who m s
  | .numcmd who num => Sys2Proof.Machine.execNumcmd who num s
  | .hello p num dist port flags sub tree claims => Sys2Proof.Machine.execHello p num dist port flags sub tree claims s
  | .helloSend p => Sys2Proof.Machine.execHelloSend p s
  | .rdreq p dst src hops tag off n => Sys2Proof.Machine.execRdreq p dst src hops tag off n s
  | .rdcpl p dst src hops tag status n data => Sys2Proof.Machine.execRdcpl p dst src hops tag status n data s
  | .wr p dst src hops tag off n data => Sys2Proof.Machine.execWr p dst src hops tag off n data s
  | .irq p dst src hops tag vec => Sys2Proof.Machine.execIrq p dst src hops tag vec s
  | .syncExchange lag => Sys2Proof.Machine.execSyncExchange lag s
  | .syncreq p num t2 turn => Sys2Proof.Machine.execSyncreq p num t2 turn s
  | .syncresp p num t2 t3 t4 roff rlock => Sys2Proof.Machine.execSyncresp p num t2 t3 t4 roff rlock s
  | .exchangeMissed => Sys2Proof.Machine.execExchangeMissed s
  | .reset p dst src hops tag => Sys2Proof.Machine.execReset p dst src hops tag s
  | .wake p dst src hops => Sys2Proof.Machine.execWake p dst src hops s
  | .numset p src hops uid num => Sys2Proof.Machine.execNumset p src hops uid num s
  | .conflict p dst src hops tag num => Sys2Proof.Machine.execConflict p dst src hops tag num s
  | .portTimeout p => Sys2Proof.Machine.execPortTimeout p s
  | .laneFailure p lane => Sys2Proof.Machine.execLaneFailure p lane s
  | .alarmFire a => Sys2Proof.Machine.execAlarmFire a s
  | .almxc who a v => Sys2Proof.Machine.execAlmxc who a v s
  | .loadid who target timed irqen => Sys2Proof.Machine.execLoadid who target timed irqen s
  | .tdr who target timed irqen tlink line => Sys2Proof.Machine.execTdr who target timed irqen tlink line s
  | .enctype who target timed irqen => Sys2Proof.Machine.execEnctype who target timed irqen s
  | .measurementStart => Sys2Proof.Machine.execMeasurementStart s
  | .loadidSample => Sys2Proof.Machine.execLoadidSample s
  | .loadidEnd => Sys2Proof.Machine.execLoadidEnd s
  | .tdrDone rtt mv => Sys2Proof.Machine.execTdrDone rtt mv s
  | .enctypeDone seen levels => Sys2Proof.Machine.execEnctypeDone seen levels s
  | .measurementAbort who => Sys2Proof.Machine.execMeasurementAbort who s
  | .railConversion v => Sys2Proof.Machine.execRailConversion v s
  | .switchOver => Sys2Proof.Machine.execSwitchOver s
  | .switchBack => Sys2Proof.Machine.execSwitchBack s
  | .supplyOutOfRange what => Sys2Proof.Machine.execSupplyOutOfRange what s
  | .brownOut => Sys2Proof.Machine.execBrownOut s
  | .sensorOvercurrent which => Sys2Proof.Machine.execSensorOvercurrent which s
  | .phaseFailure k => Sys2Proof.Machine.execPhaseFailure k s
  | .domen who v => Sys2Proof.Machine.execDomen who v s
  | .domainPowered => Sys2Proof.Machine.execDomainPowered s
  | .modeRequest who mode => Sys2Proof.Machine.execModeRequest who mode s
  | .modeTransitionDone => Sys2Proof.Machine.execModeTransitionDone s
  | .forcebkp who v => Sys2Proof.Machine.execForcebkp who v s
  | .wakePin => Sys2Proof.Machine.execWakePin s
  | .wakeTimer => Sys2Proof.Machine.execWakeTimer s
  | .wakeBurst p => Sys2Proof.Machine.execWakeBurst p s
  | .clockMonitorFail => Sys2Proof.Machine.execClockMonitorFail s
  | .clockMonitorRelease => Sys2Proof.Machine.execClockMonitorRelease s
  | .reflost => Sys2Proof.Machine.execReflost s
  | .unlock link => Sys2Proof.Machine.execUnlock link s
  | .powerOn main bkp => Sys2Proof.Machine.execPowerOn main bkp s
  | .resetn => Sys2Proof.Machine.execResetn s
  | .watchdogExpiry => Sys2Proof.Machine.execWatchdogExpiry s
  | .wdkick who v => Sys2Proof.Machine.execWdkick who v s
  | .swrst who v => Sys2Proof.Machine.execSwrst who v s
  | .debugReset => Sys2Proof.Machine.execDebugReset s
  | .resetHoldEnd bootsel => Sys2Proof.Machine.execResetHoldEnd bootsel s
  | .optionLoadDone bad badLife => Sys2Proof.Machine.execOptionLoadDone bad badLife s
  | .domainRelease => Sys2Proof.Machine.execDomainRelease s
  | .bootVerificationDone => Sys2Proof.Machine.execBootVerificationDone s
  | .cstart who v => Sys2Proof.Machine.execCstart who v s
  | .blkctl who v => Sys2Proof.Machine.execBlkctl who v s
  | .blockResetDone idle => Sys2Proof.Machine.execBlockResetDone idle s
  | .lcsCmd who v => Sys2Proof.Machine.execLcsCmd who v s
  | .lifeCycleReset => Sys2Proof.Machine.execLifeCycleReset s
  | .escalationReset => Sys2Proof.Machine.execEscalationReset s
  | .safenLow => Sys2Proof.Machine.execSafenLow s
  | .ack who => Sys2Proof.Machine.execAck who s
  | .swev who => Sys2Proof.Machine.execSwev who s
  | .txdata who port v => Sys2Proof.Machine.execTxdata who port v s
  | .byteDone port sent byte errs alert => Sys2Proof.Machine.execByteDone port sent byte errs alert s
  | .gpioInterrupt pin level => Sys2Proof.Machine.execGpioInterrupt pin level s
  | .extest on => Sys2Proof.Machine.execExtest on s
  | .registerWrite who addr v => Sys2Proof.Machine.execRegisterWrite who addr v s
  | .pllLock which => Sys2Proof.Machine.execPllLock which s
  | .supplyReturn what => Sys2Proof.Machine.execSupplyReturn what s
  | .vbkpLoss => Sys2Proof.Machine.execVbkpLoss s
  | .safenEdge level => Sys2Proof.Machine.execSafenEdge level s
  | .domainPowerRemoved => Sys2Proof.Machine.execDomainPowerRemoved s
  | .eraseSuspended bank => Sys2Proof.Machine.execEraseSuspended bank s
  | .gedanPortUp p => Sys2Proof.Machine.execGedanPortUp p s
  | .pcieLinkChange up => Sys2Proof.Machine.execPcieLinkChange up s
  | .spiRootLapse => Sys2Proof.Machine.execSpiRootLapse s
  | .debugHalt k => Sys2Proof.Machine.execDebugHalt k s
  | .debugAccess write addr size data => Sys2Proof.Machine.execDebugAccess write addr size data s
  | .dlkFrameDiscard d => Sys2Proof.Machine.execDlkFrameDiscard d s
  | .gedanFrameDiscard p => Sys2Proof.Machine.execGedanFrameDiscard p s

end Sys2Proof.Machine
end

