-- ==== Sys2Proof/Laws/RegMap.lean ====
section
/-! SUPPORT. The register map is one to one: the address of a register's instance reaches that instance (R4, R580), and a write of a
register by an initiator that may make it is the write of that register. -/

namespace Sys2Proof.Laws
open Sys2Proof.Machine

/-- The distance between instances of a place, 0 where there is one. -/
def apartStep (p : RegPlace) : Nat := if p.count = 1 then 0 else p.stride

/-- Two places share no address: one ends before the other begins, or their addresses differ modulo every common distance. -/
def apart (p q : RegPlace) : Bool :=
  Nat.blt (p.base + (p.count - 1) * p.stride) q.base || Nat.blt (q.base + (q.count - 1) * q.stride) p.base ||
    !Nat.beq (p.base % Nat.gcd (apartStep p) (apartStep q)) (q.base % Nat.gcd (apartStep p) (apartStep q))

/-- Every two places of a list share no address. -/
def allApart : List RegPlace → Bool
  | [] => true
  | p :: t => t.all (apart p) && allApart t

theorem regPlaces_apart : allApart regPlaces = true := by decide +kernel

/-- Whether a place holds an address, as `regAt` asks. -/
def placeHolds (a : Nat) (p : RegPlace) : Bool :=
  p.base ≤ a && (a - p.base) % p.stride == 0 && (a - p.base) / p.stride < p.count

theorem regPlaces_pos : regPlaces.all (fun p => Nat.blt 0 p.stride && Nat.blt 0 p.count) = true := by decide +kernel

/-- The addresses that a selector serves are no place's. -/
def selAddrs : List Nat :=
  [0x400040004, 0x400020004, 0x400030004, 0x4000F0010, 0x400050048, 0x400060020, 0x4000E9014, 0x400090034, 0x400080020]

theorem regPlaces_sel : regPlaces.all (fun p => selAddrs.all (fun a => !placeHolds a p)) = true := by decide +kernel

theorem regPlaces_mbx : regPlaces.all (fun p =>
    Nat.blt (p.base + (p.count - 1) * p.stride) 0x4000E0000 || Nat.ble 0x4000E8000 p.base) = true := by decide +kernel

theorem regPlaces_lod : regPlaces.all (fun p => (List.range 8).all (fun k => !(lodWord k == p.reg))) = true := by decide +kernel

theorem placeHolds_iff {a : Nat} {p : RegPlace} (hs : 0 < p.stride) :
    placeHolds a p = true ↔ ∃ i < p.count, a = p.base + i * p.stride := by
  simp only [placeHolds, Bool.and_eq_true, decide_eq_true_eq, beq_iff_eq]
  constructor
  · rintro ⟨⟨hb, hm⟩, hc⟩
    refine ⟨(a - p.base) / p.stride, hc, ?_⟩
    have := Nat.div_add_mod (a - p.base) p.stride
    rw [hm, Nat.mul_comm] at this
    omega
  · rintro ⟨i, hi, rfl⟩
    have h : p.base + i * p.stride - p.base = i * p.stride := by omega
    rw [h]
    refine ⟨⟨by omega, Nat.mul_mod_left ..⟩, ?_⟩
    rw [Nat.mul_div_cancel _ hs]
    exact hi

theorem apart_spec {p q : RegPlace} (h : apart p q = true) {i j : Nat} (hi : i < p.count) (hj : j < q.count) :
    p.base + i * p.stride ≠ q.base + j * q.stride := by
  intro e
  simp only [apart, Bool.or_eq_true, Bool.not_eq_true', Nat.blt_eq] at h
  have h1 : i * p.stride ≤ (p.count - 1) * p.stride := Nat.mul_le_mul_right _ (by omega)
  have h2 : j * q.stride ≤ (q.count - 1) * q.stride := Nat.mul_le_mul_right _ (by omega)
  rcases h with (h | h) | h
  · omega
  · omega
  · have mods (p : RegPlace) (g : Nat) (hg : g ∣ apartStep p) {i : Nat} (hi : i < p.count) :
        (p.base + i * p.stride) % g = p.base % g := by
      by_cases hc : p.count = 1
      · have : i = 0 := by omega
        subst this; simp
      · have hd : g ∣ p.stride := by simpa [apartStep, hc] using hg
        obtain ⟨m, hm⟩ := Dvd.dvd.mul_left hd i
        rw [hm, Nat.add_mul_mod_self_left]
    have hp := mods p _ (Nat.gcd_dvd_left (apartStep p) (apartStep q)) hi
    have hq := mods q _ (Nat.gcd_dvd_right (apartStep p) (apartStep q)) hj
    exact Nat.ne_of_beq_eq_false h (by rw [← hp, ← hq, e])

theorem find_of_apart : ∀ (l : List RegPlace), allApart l = true → (∀ q ∈ l, 0 < q.stride) →
    ∀ p ∈ l, ∀ i < p.count, l.find? (placeHolds (p.base + i * p.stride)) = some p := by
  intro l
  induction l with
  | nil => intro _ _ p hp; cases hp
  | cons q t ih =>
    intro ha hs p hp i hi
    simp only [allApart, Bool.and_eq_true, List.all_eq_true] at ha
    rcases List.mem_cons.mp hp with rfl | hp
    · rw [List.find?_cons_of_pos]
      exact (placeHolds_iff (hs p (by simp))).mpr ⟨i, hi, rfl⟩
    · rw [List.find?_cons_of_neg]
      · exact ih ha.2 (fun q hq => hs q (by simp [hq])) p hp i hi
      · intro hq
        obtain ⟨j, hj, e⟩ := (placeHolds_iff (hs q (by simp))).mp hq
        exact apart_spec (ha.1 p hp) hj hi e.symm

/-- The address of a place's instance reaches that instance. -/
theorem regAt_place {p : RegPlace} (hp : p ∈ regPlaces) {i : Nat} (hi : i < p.count) :
    regAt (p.base + i * p.stride) = some (p.reg, i) := by
  have hpos := List.all_eq_true.mp regPlaces_pos
  have hs : ∀ q ∈ regPlaces, 0 < q.stride := fun q hq => by
    have := hpos q hq
    simp only [Bool.and_eq_true, Nat.blt_eq] at this
    exact this.1
  have h := find_of_apart regPlaces regPlaces_apart hs p hp i hi
  have e : p.base + i * p.stride - p.base = i * p.stride := by omega
  unfold regAt
  change (match regPlaces.find? (placeHolds (p.base + i * p.stride)) with
    | some p' => some (p'.reg, (p.base + i * p.stride - p'.base) / p'.stride)
    | none => none) = _
  rw [h]
  simp [e, Nat.mul_div_cancel _ (hs p hp)]

/-- A register with a place of its own, and an instance it has. -/
def placed (r : Reg) (i : Nat) : Bool :=
  match regPlaces.find? (fun p => p.reg == r) with
  | some p => i < p.count
  | none => false

/-- The address of a register's instance is that of its place. -/
theorem placed_spec {r : Reg} {i : Nat} (h : placed r i = true) :
    ∃ p ∈ regPlaces, p.reg = r ∧ i < p.count ∧ r.addr i = p.base + i * p.stride := by
  unfold placed at h
  split at h
  · rename_i p hf
    refine ⟨p, List.mem_of_find?_eq_some hf, ?_, by simpa using h, ?_⟩
    · simpa using List.find?_some hf
    · simp [Reg.addr, hf]
  · cases h

/-- The address of a register's instance reaches it, whatever the selectors hold. -/
theorem slotAt_addr {r : Reg} {i : Nat} (h : placed r i = true) (s : State) :
    s.slotAt (r.addr i) = some (r, i) ∧ isMbx (r.addr i) = false := by
  obtain ⟨p, hp, rfl, hi, ha⟩ := placed_spec h
  have hpos := List.all_eq_true.mp regPlaces_pos p hp
  simp only [Bool.and_eq_true, Nat.blt_eq] at hpos
  have hsel : ∀ a ∈ selAddrs, p.reg.addr i ≠ a := by
    intro a hm e
    have := List.all_eq_true.mp (List.all_eq_true.mp regPlaces_sel p hp) a hm
    have hh := (placeHolds_iff (a := a) hpos.1).mpr ⟨i, hi, by rw [← e, ha]⟩
    simp [hh] at this
  have hm := List.all_eq_true.mp regPlaces_mbx p hp
  simp only [Bool.or_eq_true, Nat.blt_eq, Nat.ble_eq] at hm
  have hle : i * p.stride ≤ (p.count - 1) * p.stride := Nat.mul_le_mul_right _ (by omega)
  constructor
  · unfold State.slotAt
    rw [if_neg (hsel _ (by simp [selAddrs])), if_neg (hsel _ (by simp [selAddrs])), if_neg (hsel _ (by simp [selAddrs])),
      if_neg (hsel _ (by simp [selAddrs])), if_neg (hsel _ (by simp [selAddrs])), if_neg (hsel _ (by simp [selAddrs])),
      if_neg (hsel _ (by simp [selAddrs])), if_neg (hsel _ (by simp [selAddrs])), if_neg (hsel _ (by simp [selAddrs])), ha]
    exact regAt_place hp hi
  · rw [ha]
    simp only [isMbx, Bool.and_eq_false_iff, decide_eq_false_iff_not]
    omega

/-- No register with a place of its own is a word of a Lode descriptor, so R307 keeps none of its writes; of the others only CTL of an
event channel that the plan owns is kept (R324). -/
theorem regKept_placed {r : Reg} {i : Nat} (h : placed r i = true) (s : State) (v : Nat) (hk : r ≠ .EVC_CTL ∨ s.regPlan r i = false) :
    s.regKept r i v = false := by
  obtain ⟨p, hp, rfl, -, -⟩ := placed_spec h
  have hl := List.all_eq_true.mp regPlaces_lod p hp
  unfold State.regKept
  rw [List.find?_eq_none.mpr]
  · rcases hk with hk | hk <;> simp [hk]
  · intro k hk
    simpa using List.all_eq_true.mp hl k hk

/-- A write of a register that answers, by an initiator that may make it, is the write of that register now (R4, R14). -/
theorem writeBy_may {s : State} {who : Initiator} {r : Reg} {i : Nat} (v : Nat) (hp : placed r i = true)
    (ha : s.answers (r.addr i) = true) (hm : s.regMay who.agent r i = true) (hk : r ≠ .EVC_CTL ∨ s.regPlan r i = false) :
    s.writeBy who r i v = s.regWrite who.agent r i v s.now := by
  obtain ⟨h1, h2⟩ := slotAt_addr hp s
  simp [State.writeBy, State.accessBy, State.wordWrite, State.wordWriteAt, ha, h1, h2, hm, regKept_placed hp s v hk, State.tell]

/-- A write that the initiator may not make, or that finds no answer, is only told to it (R14). -/
theorem writeBy_refused {s : State} {who : Initiator} {r : Reg} {i : Nat} (v : Nat) (hp : placed r i = true)
    (h : s.answers (r.addr i) = false ∨ s.regMay who.agent r i = false) :
    s.writeBy who r i v = s.told who (r.addr i) .refused := by
  obtain ⟨h1, h2⟩ := slotAt_addr hp s
  by_cases ha : s.answers (r.addr i) = true
  · have hm : s.regMay who.agent r i = false := by simpa [ha] using h
    simp [State.writeBy, State.accessBy, State.wordWrite, State.wordWriteAt, ha, h1, h2, hm, State.tell]
  · simp [State.writeBy, State.accessBy, State.wordWrite, State.wordWriteAt, ha, State.tell]

end Sys2Proof.Laws
end

