-- ==== Sys2Proof/Safety.lean ====
section
/-! DEFINITION. The terms that claims about the block use: when nothing is left to be acted on, when an instruction of a core runs to its
own effect, and when a register takes a write. -/

namespace Sys2Proof.Machine

/-- No safety event and no note of an edge pair is left to be acted on: so it is between commands. [DESIGN CHOICE, log entry 3] -/
def State.Quiet (s : State) : Prop := s.raised = [] ∧ s.notes = []

/-- The outcome of a command that has changed the state to t, with what every command ends with. -/
def State.ends (t : State) : Host.Outcome State Fault Refusal := .next t.finish

/-! Lane engines. -/

/-- The first ec of the instruction that a lane engine executes next (R56). -/
def State.laneFirst (s : State) (e : Nat) : Nat := (s.engine e).start + (s.engine e).used

/-- The fetch of the instruction that a lane engine executes next, in that ec: whether it fails its check, the word, and the state that
has logged it (R72). -/
def State.laneNext (s : State) (e : Nat) : Bool × Nat × State := (s.reach (s.laneFirst e)).laneFetch e (s.engine e).pc

/-- An instruction of a count runs to its own effect on a lane engine: the engine clock runs (R18), a task runs, its budget window holds the instruction's last ec
(R58), its word passes its check with nothing to correct (R72, R433) and is an instruction (R44), and the index has a next one (R65). -/
structure State.LaneReady (s : State) (e cnt : Nat) : Prop where
  quiet   : s.Quiet
  clock   : s.engClock = true
  running : (s.engine e).running = true
  some_   : 0 < cnt
  budget  : (s.engine e).used + cnt ≤ (s.engine e).budget
  valid   : (s.laneNext e).1 = false ∧ (s.laneNext e).2.2 = s.reach (s.laneFirst e)
  legal   : legalWord e (s.laneNext e).2.1 = true
  below   : (s.engine e).pc < 4095

/-- The state in the last ec of an instruction of a count. [DESIGN CHOICE, log entry 6] -/
def State.laneAt (s : State) (e cnt : Nat) : State := s.reach (s.laneFirst e + cnt - 1)

/-- The instruction's effect is t, its count is spent, and the task goes on at the next index. -/
def State.laneDone (s : State) (e cnt : Nat) (t : State) : Host.Outcome State Fault Refusal :=
  .next (t.laneAdvance e cnt ((s.engine e).pc + 1))

/-- The same where the effect may raise a safety event or leave a note. -/
def State.laneEnds (s : State) (e cnt : Nat) (t : State) : Host.Outcome State Fault Refusal :=
  (t.laneAdvance e cnt ((s.engine e).pc + 1)).ends

/-- The instruction aborts the task under a code with no effect of its own (R55). -/
def State.laneAborts (s : State) (e cnt code : Nat) : Host.Outcome State Fault Refusal :=
  ((s.laneAt e cnt).laneAbort e code (s.engine e).pc (s.laneFirst e)).ends

/-- What a lane-engine instruction whose effect stays in the engine writes: a w register, an accumulator, or nothing. -/
inductive LaneDest where
  | w (rd : BitVec 5)
  | acc (n : BitVec 2)
  | nothing
  deriving DecidableEq, Repr

/-- The destination of the instructions of a lane engine that read and write its registers alone. -/
def laneDest : Instr → Option LaneDest
  | .add _ rd _ _ => some (.w rd)
  | .sub _ rd _ _ => some (.w rd)
  | .and _ rd _ _ => some (.w rd)
  | .or _ rd _ _ => some (.w rd)
  | .xor _ rd _ _ => some (.w rd)
  | .andn _ rd _ _ => some (.w rd)
  | .mov _ rd _ => some (.w rd)
  | .nop _ => some .nothing
  | .shl _ rd _ _ => some (.w rd)
  | .shr _ rd _ _ => some (.w rd)
  | .sar _ rd _ _ => some (.w rd)
  | .ror _ rd _ _ => some (.w rd)
  | .min _ rd _ _ => some (.w rd)
  | .max _ rd _ _ => some (.w rd)
  | .minu _ rd _ _ => some (.w rd)
  | .maxu _ rd _ _ => some (.w rd)
  | .abs _ rd _ => some (.w rd)
  | .neg _ rd _ => some (.w rd)
  | .adds _ rd _ _ => some (.w rd)
  | .subs _ rd _ _ => some (.w rd)
  | .adds15 _ rd _ _ => some (.w rd)
  | .subs15 _ rd _ _ => some (.w rd)
  | .sat15 _ rd _ => some (.w rd)
  | .clz _ rd _ => some (.w rd)
  | .mul _ rd _ _ => some (.w rd)
  | .mulh _ rd _ _ => some (.w rd)
  | .mulhu _ rd _ _ => some (.w rd)
  | .qmul15 _ rd _ _ => some (.w rd)
  | .qmul31 _ rd _ _ => some (.w rd)
  | .mac _ n _ _ => some (.acc n)
  | .msu _ n _ _ => some (.acc n)
  | .macs _ n _ _ => some (.acc n)
  | .msus _ n _ _ => some (.acc n)
  | .aclr _ n => some (.acc n)
  | .ald _ n _ _ => some (.acc n)
  | .ard _ rd _ _ => some (.w rd)
  | .ardl _ rd _ _ => some (.w rd)
  | .ardh _ rd _ => some (.w rd)
  | .fadd _ rd _ _ => some (.w rd)
  | .fsub _ rd _ _ => some (.w rd)
  | .fmul _ rd _ _ => some (.w rd)
  | .fma _ rd _ _ _ => some (.w rd)
  | .fms _ rd _ _ _ => some (.w rd)
  | .fdiv _ rd _ _ => some (.w rd)
  | .fsqrt _ rd _ => some (.w rd)
  | .fmin _ rd _ _ => some (.w rd)
  | .fmax _ rd _ _ => some (.w rd)
  | .fabs _ rd _ => some (.w rd)
  | .fneg _ rd _ => some (.w rd)
  | .fcvtif _ rd _ => some (.w rd)
  | .fcvtfi _ rd _ => some (.w rd)
  | .fcvtqf _ rd _ => some (.w rd)
  | .fcvtfq _ rd _ => some (.w rd)
  | .addi _ rd _ _ => some (.w rd)
  | .andi _ rd _ _ => some (.w rd)
  | .ori _ rd _ _ => some (.w rd)
  | .xori _ rd _ _ => some (.w rd)
  | .movi _ rd _ => some (.w rd)
  | .movhi _ rd _ => some (.w rd)
  | _ => none

/-! Supervisor cores. -/

/-- An instruction runs to its own effect on a supervisor core: the core issues instructions (R392), and the fetch at its PC is allowed
(R366), answered (R14), passes its check (R384), is not doubtful (R462) and gives an instruction (R362). -/
structure State.SupReady (s : State) (k : Nat) : Prop where
  quiet : s.Quiet
  runs  : s.coreRuns k = true
  fetch : ∃ w, s.supFetch k (s.core k).pc = (.ok (w, false), s) ∧ legalSup w = true

/-- The instruction leaves the core as c, is counted (R411), and the core goes on at the next instruction. -/
def State.supDone (s : State) (k : Nat) (c : Sup) : Host.Outcome State Fault Refusal :=
  .next ((s.setCore k { c with pc := ((s.core k).pc + 4) % 2 ^ 40 }).retires k)

/-- The count of a core's completed instructions in the window of its pair, after one more (R411). -/
def State.nextCount (s : State) (k : Nat) : Nat := if s.sigWindow ≤ (s.core k).retired then 1 else (s.core k).retired + 1

/-- The instruction takes the exception of a vector (R384), saving its own PC. -/
def State.supTraps (s : State) (k vector info faddr : Nat) : Host.Outcome State Fault Refusal :=
  (s.supException k vector info (s.core k).pc faddr none).ends

/-! Registers. -/

/-- A register of an instance takes a write of an initiator: its block answers, and the initiator may access it (R14). -/
structure State.Takes (s : State) (who : Initiator) (r : Reg) (i : Nat) : Prop where
  quiet   : s.Quiet
  answers : s.answers (r.addr i) = true
  may     : s.regMay who.agent r i = true

end Sys2Proof.Machine
end

