-- ==== Sys2Proof/WellFormed.lean ====
section
/-! DEFINITION. Which commands are well-formed: an instruction of a lane engine is one that the lane profile encodes (R43 to R46), and a
number that a command carries lies in the range that the spec gives it. -/

namespace Sys2Proof

/-- The core that a command of the lane profile names; none for any other command. -/
def Instr.core : Instr → Option Core
  | .add c _ _ _ => some c
  | .sub c _ _ _ => some c
  | .and c _ _ _ => some c
  | .or c _ _ _ => some c
  | .xor c _ _ _ => some c
  | .andn c _ _ _ => some c
  | .mov c _ _ => some c
  | .nop c => some c
  | .shl c _ _ _ => some c
  | .shr c _ _ _ => some c
  | .sar c _ _ _ => some c
  | .ror c _ _ _ => some c
  | .shli c _ _ _ => some c
  | .shri c _ _ _ => some c
  | .sari c _ _ _ => some c
  | .rori c _ _ _ => some c
  | .min c _ _ _ => some c
  | .max c _ _ _ => some c
  | .minu c _ _ _ => some c
  | .maxu c _ _ _ => some c
  | .abs c _ _ => some c
  | .neg c _ _ => some c
  | .adds c _ _ _ => some c
  | .subs c _ _ _ => some c
  | .adds15 c _ _ _ => some c
  | .subs15 c _ _ _ => some c
  | .sat15 c _ _ => some c
  | .clz c _ _ => some c
  | .mul c _ _ _ => some c
  | .mulh c _ _ _ => some c
  | .mulhu c _ _ _ => some c
  | .qmul15 c _ _ _ => some c
  | .qmul31 c _ _ _ => some c
  | .mac c _ _ _ => some c
  | .msu c _ _ _ => some c
  | .macs c _ _ _ => some c
  | .msus c _ _ _ => some c
  | .aclr c _ => some c
  | .ald c _ _ _ => some c
  | .ard c _ _ _ => some c
  | .ardl c _ _ _ => some c
  | .ardh c _ _ => some c
  | .fadd c _ _ _ => some c
  | .fsub c _ _ _ => some c
  | .fmul c _ _ _ => some c
  | .fma c _ _ _ _ => some c
  | .fms c _ _ _ _ => some c
  | .fdiv c _ _ _ => some c
  | .fsqrt c _ _ => some c
  | .fmin c _ _ _ => some c
  | .fmax c _ _ _ => some c
  | .fabs c _ _ => some c
  | .fneg c _ _ => some c
  | .fcvtif c _ _ => some c
  | .fcvtfi c _ _ => some c
  | .fcvtqf c _ _ => some c
  | .fcvtfq c _ _ => some c
  | .addi c _ _ _ => some c
  | .andi c _ _ _ => some c
  | .ori c _ _ _ => some c
  | .xori c _ _ _ => some c
  | .movi c _ _ => some c
  | .movhi c _ _ => some c
  | .beq c _ _ _ => some c
  | .bne c _ _ _ => some c
  | .blt c _ _ _ => some c
  | .bge c _ _ _ => some c
  | .bltu c _ _ _ => some c
  | .bgeu c _ _ _ => some c
  | .bflt c _ _ _ => some c
  | .bfge c _ _ _ => some c
  | .beqi c _ _ _ => some c
  | .bnei c _ _ _ => some c
  | .blti c _ _ _ => some c
  | .bgei c _ _ _ => some c
  | .bltui c _ _ _ => some c
  | .bgeui c _ _ _ => some c
  | .call c _ => some c
  | .ret c => some c
  | .callr c _ => some c
  | .jr c _ => some c
  | .ldw c _ _ _ _ => some c
  | .ldh c _ _ _ => some c
  | .ldhu c _ _ _ => some c
  | .ldb c _ _ _ => some c
  | .ldbu c _ _ _ => some c
  | .stw c _ _ _ _ => some c
  | .sth c _ _ _ => some c
  | .stb c _ _ _ => some c
  | .lds c _ _ _ => some c
  | .ldsh c _ _ _ => some c
  | .ldshu c _ _ _ => some c
  | .ldsb c _ _ _ => some c
  | .ldsbu c _ _ _ => some c
  | .sts c _ _ _ => some c
  | .stsh c _ _ _ => some c
  | .stsb c _ _ _ => some c
  | .ldc c _ _ _ => some c
  | .ldch c _ _ _ => some c
  | .ldchu c _ _ _ => some c
  | .ldcb c _ _ _ => some c
  | .ldcbu c _ _ _ => some c
  | .stc c _ _ _ => some c
  | .stch c _ _ _ => some c
  | .stcb c _ _ _ => some c
  | .cmov c _ _ => some c
  | .cnarrow c _ _ _ _ => some c
  | .cperm c _ _ _ => some c
  | .cclr c _ => some c
  | .cld c _ _ => some c
  | .cst c _ _ => some c
  | .smp c _ _ => some c
  | .edge c _ _ _ _ _ => some c
  | .look c _ _ _ => some c
  | .interp2 c _ _ _ => some c
  | .interp3 c _ _ _ => some c
  | .walk c _ _ _ _ _ => some c
  | .send c _ _ => some c
  | .recv c _ _ => some c
  | .endTask c => some c
  | .ifence c => some c
  | .time c _ => some c
  | .tin c _ _ => some c
  | .sig c _ => some c
  | .rep c _ _ _ _ _ _ _ => some c
  | _ => none

/-- Whether a host or rack access has bytes (R482, R492). -/
def sizeOk (n : Nat) : Bool := n != 0

/-- Whether the numbers of a command that no lane engine executes lie in their ranges. -/
def Instr.rangesOk : Instr → Bool
  | .scrubVisit m => m.val < 2004
  | .remapComplete m _ => m.val < 2004
  | .tdata _ i _ => i.toNat < 768
  | .pairRejoin _ mode => mode.toNat < 2
  | .pairFault _ cause => cause.toNat < 2
  | .hostRead _ _ n => sizeOk n.val
  | .hostWrite _ _ n _ => sizeOk n.val
  | .spiRead _ _ n => sizeOk n.val
  | .spiWrite _ n _ => sizeOk n.val
  | .rdreq _ _ _ _ _ _ n => sizeOk n.val
  | .rdcpl _ _ _ _ _ _ n _ => n.val ≤ 255
  | .wr _ _ _ _ _ _ n _ => sizeOk n.val && decide (n.val ≤ 251)
  | .syncreq _ _ _ turn => turn ≤ 160000
  | .loadid _ target _ _ => target.toNat < 192
  | _ => true

/-- Whether a command is well-formed. -/
def Instr.wf (i : Instr) : Bool :=
  match i.core with
  | some (.lane _) => (Machine.encodeLane i).isSome
  | some (.sup _) => true
  | none => i.rangesOk

end Sys2Proof
end

