-- ==== Sys2Proof/Certificates/Slice0/Obligations.lean ====
section
/-! DEFINITION. The statements for the provers. Each names the rules of spec/ that it comes from. -/

open Sys2Proof Sys2Proof.Machine

/-- A step takes the command at the front of the queue and runs it on the state with the rest of the queue. -/
def Obligations.StepRunsFront : Prop :=
  ∀ (c : Instr) (rest : List Instr) (s : State),
    step { s with pending := c :: rest } = exec c { s with pending := rest }

/-- The model's choice (log entry 1): with no command waiting a step is one engine-clock period, in which Quartz advances by one tick (R18) and nothing else changes; without the engine clock Quartz stops. Where it rests on choices of the model: log entry 1. -/
def Obligations.StepIdleTick : Prop :=
  ∀ s : State, s.pending = [] →
    (s.engClock = true → step s = .next { s with now := s.now + 1 }) ∧ (s.engClock = false → step s = .next s)

/-- What reset leaves: registers at the reset values of the field tables, SRAM unwritten (poisoned, R427, R429), engines without a task (R35), pairs that drive no ball (R188), cores in ring 0 (R391) and nothing on its way. The values of cores' and engines' registers are the model's choice (log entry 2). -/
def Obligations.ResetLeaves : Prop :=
  (∀ x ∈ ([(.QTZ_CTL, 0x3, 1), (.EP_CTL, 0x500, 204), (.CV_CTL, 0x3200, 64), (.CV_USCALE, 0x3F800000, 64), (.CV_ROT, 0x4000FA, 8),
      (.CV_ROTSTAT, 0x18, 8), (.SL_STAT, 0x1, 72), (.CMP_CTL, 0xFF00000, 204), (.CMP_HI, 0xFFF, 204), (.FLT_NETE, 0x102, 64), (.SDI_CTL,
      0xFC, 64), (.SDI_FTRIP, 0x810, 64), (.SDI_CLK, 0x7D, 16), (.POS_RANGE, 0xFFFFFFFF, 24), (.POS_SPWIN, 0x1E848, 24), (.POS_SPCFG,
      0x2010, 24), (.POS_SSICFG, 0x1, 24), (.POS_SSITIM, 0x640001F4, 24), (.EVG_CTL, 0xFFFF, 64), (.DLK_CTL, 0x2400, 64), (.DLK_TIMING,
      0xEA604E2, 64), (.DMA_CTL, 0x78, 32), (.SQ_MAP, 0x76543210, 64), (.SQ_PSTATE, 0x1000000, 64), (.RDC_CTL, 0x7, 1), (.RDC_PMAP,
      0x688, 1), (.RDC_PSTATE, 0x1000, 1), (.RDC_SIGWIN, 0x10000, 1), (.RDC_WTHR, 0x28, 1), (.MEM_CTL, 0x10003, 1), (.MEM_LAP, 0x10000,
      1), (.HIF_CTL, 0x3, 1), (.GDN_CTL, 0x3, 4), (.GDN_NBR, 0x3FC0, 4), (.MSR_LSAMP, 0x32100, 1), (.MSR_TCFG, 0xCA9B, 1), (.PMU_MODE,
      0x3, 1), (.PMU_MODEREQ, 0x5, 1), (.PMU_DOMEN, 0xFFFFF, 1), (.CLK_CTL, 0x1, 1), (.RST_CAUSE, 0x1, 1), (.RST_WDCTL, 0xFFFF0000, 1),
      (.RST_BLKCTL, 0x1000000, 1), (.SAF_ACT, 0x29559569, 1), (.SPI_CTL, 0x900, 4), (.UART_CTL, 0x400, 2)] : List (Reg × Nat × Nat)),
      ∀ i < x.2.2, State.reset.regN x.1 i = x.2.1) ∧
    (∀ r, r ∉ ([.QTZ_CTL, .EP_CTL, .CV_CTL, .CV_USCALE, .CV_ROT, .CV_ROTSTAT, .SL_STAT, .CMP_CTL, .CMP_HI, .FLT_NETE, .SDI_CTL, .SDI_FTRIP,
      .SDI_CLK, .POS_RANGE, .POS_SPWIN, .POS_SPCFG, .POS_SSICFG, .POS_SSITIM, .EVG_CTL, .DLK_CTL, .DLK_TIMING, .DMA_CTL, .SQ_MAP,
      .SQ_PSTATE, .RDC_CTL, .RDC_PMAP, .RDC_PSTATE, .RDC_SIGWIN, .RDC_WTHR, .MEM_CTL, .MEM_LAP, .HIF_CTL, .GDN_CTL, .GDN_NBR,
      .MSR_LSAMP, .MSR_TCFG, .PMU_MODE, .PMU_MODEREQ, .PMU_DOMEN, .CLK_CTL, .RST_CAUSE, .RST_WDCTL, .RST_BLKCTL, .SAF_ACT, .SPI_CTL,
      .UART_CTL] : List Reg) → ∀ i < 65536, State.reset.reg r i = 0) ∧
    (∀ a, isSram a = true → State.reset.chkAt a = .poison) ∧
    (∀ e, (State.reset.engine e).running = false ∧ (∀ r, State.reset.w e r = 0) ∧ (State.reset.engine e).stack = []) ∧
    (∀ p < 204, State.reset.epDrives p = false) ∧
    (∀ k, (State.reset.core k).ring = 0 ∧ (State.reset.core k).xring = [] ∧ (∀ r, State.reset.sreg k r = 0)) ∧
    State.reset.pending = [] ∧ State.reset.msgs = [] ∧ State.reset.wstores = [] ∧ State.reset.flights = []

/-- The invariant of StepKeepsQuiet holds after reset. -/
def Obligations.ResetQuiet : Prop :=
  State.reset.Quiet

/-- Between commands no raised safety event waits to be counted and acted on (R558, R564), and nothing an edge pair did waits to reach comparators, links and the redundancy controller (R231, R345, R418); and no command stops the block. Where it rests on choices of the model: log entry 3. -/
def Obligations.StepKeepsQuiet : Prop :=
  ∀ s : State, s.Quiet → ∃ t, step s = .next t ∧ t.Quiet

/-- The formats of R43 and the opcode map of R45 to R48 lose no bit: what a lane-engine instruction is encoded as decodes to it. -/
def Obligations.LaneDecodeEncode : Prop :=
  ∀ (e : Fin 512) (i : Instr) (w : Word), i.core = some (.lane e) → encodeLane i = some w → decodeLane (.lane e) w = some i

/-- R60 for the ALU and multiply groups of a lane engine: each value from the operands, in the counts of R59. A shift field of 32 or more, which the word has no room for but as a non-zero rb field, is illegal (R44). Where it rests on choices of the model: log entry 102. -/
def Obligations.LaneInteger : Prop :=
  ∀ (s : State) (e : Fin 512) (rd ra rb : BitVec 5),
    let a := s.w e.val ra
    let b := s.w e.val rb
    (s.LaneReady e.val 1 → let gives (v : Word) := s.laneDone e.val 1 ((s.laneAt e.val 1).setW e.val rd v)
    exec (.add (.lane e) rd ra rb) s = gives (a + b) ∧
    exec (.sub (.lane e) rd ra rb) s = gives (a - b) ∧
    exec (.and (.lane e) rd ra rb) s = gives (a &&& b) ∧
    exec (.or (.lane e) rd ra rb) s = gives (a ||| b) ∧
    exec (.xor (.lane e) rd ra rb) s = gives (a ^^^ b) ∧
    exec (.andn (.lane e) rd ra rb) s = gives (a &&& ~~~b) ∧
    exec (.mov (.lane e) rd ra) s = gives (a) ∧
    exec (.shl (.lane e) rd ra rb) s = gives (a <<< (b.toNat % 32)) ∧
    exec (.shr (.lane e) rd ra rb) s = gives (a >>> (b.toNat % 32)) ∧
    exec (.sar (.lane e) rd ra rb) s = gives (a.sshiftRight (b.toNat % 32)) ∧
    exec (.ror (.lane e) rd ra rb) s = gives (a.rotateRight (b.toNat % 32)) ∧
    exec (.min (.lane e) rd ra rb) s = gives (if a.toInt ≤ b.toInt then a else b) ∧
    exec (.max (.lane e) rd ra rb) s = gives (if a.toInt ≤ b.toInt then b else a) ∧
    exec (.minu (.lane e) rd ra rb) s = gives (if a.toNat ≤ b.toNat then a else b) ∧
    exec (.maxu (.lane e) rd ra rb) s = gives (if a.toNat ≤ b.toNat then b else a) ∧
    exec (.abs (.lane e) rd ra) s = gives (if a = 0x80000000#32 then 0x7FFFFFFF#32 else if a.toInt < 0 then -a else a) ∧
    exec (.neg (.lane e) rd ra) s = gives (-a) ∧
    exec (.adds (.lane e) rd ra rb) s = gives (BitVec.ofInt 32 (max (-2147483648) (min 2147483647 (a.toInt + b.toInt)))) ∧
    exec (.subs (.lane e) rd ra rb) s = gives (BitVec.ofInt 32 (max (-2147483648) (min 2147483647 (a.toInt - b.toInt)))) ∧
    exec (.adds15 (.lane e) rd ra rb) s = gives (BitVec.ofInt 32 (max (-32768) (min 32767 ((a.setWidth 16).toInt + (b.setWidth 16).toInt)))) ∧
    exec (.subs15 (.lane e) rd ra rb) s = gives (BitVec.ofInt 32 (max (-32768) (min 32767 ((a.setWidth 16).toInt - (b.setWidth 16).toInt)))) ∧
    exec (.sat15 (.lane e) rd ra) s = gives (BitVec.ofInt 32 (max (-32768) (min 32767 a.toInt))) ∧
    (∀ n : Nat, (a = 0 ∧ n = 32 ∨ n < 32 ∧ 2 ^ (31 - n) ≤ a.toNat ∧ a.toNat < 2 ^ (32 - n)) →
      exec (.clz (.lane e) rd ra) s = gives (BitVec.ofNat 32 n)) ∧
    (∀ sh : BitVec 6, sh.toNat < 32 →
      exec (.shli (.lane e) rd ra sh) s = gives (a <<< sh.toNat) ∧ exec (.shri (.lane e) rd ra sh) s = gives (a >>> sh.toNat) ∧
      exec (.sari (.lane e) rd ra sh) s = gives (a.sshiftRight sh.toNat) ∧
      exec (.rori (.lane e) rd ra sh) s = gives (a.rotateRight sh.toNat)) ∧
    (∀ sh : BitVec 6, 32 ≤ sh.toNat →
      exec (.shli (.lane e) rd ra sh) s = s.laneAborts e.val 1 1 ∧ exec (.shri (.lane e) rd ra sh) s = s.laneAborts e.val 1 1 ∧
      exec (.sari (.lane e) rd ra sh) s = s.laneAborts e.val 1 1 ∧ exec (.rori (.lane e) rd ra sh) s = s.laneAborts e.val 1 1) ∧
    exec (.nop (.lane e)) s = s.laneDone e.val 1 (s.laneAt e.val 1)) ∧
    (s.LaneReady e.val 2 → let gives (v : Word) := s.laneDone e.val 2 ((s.laneAt e.val 2).setW e.val rd v)
    exec (.mul (.lane e) rd ra rb) s = gives (a * b) ∧
    exec (.mulh (.lane e) rd ra rb) s = gives (BitVec.ofInt 32 (a.toInt * b.toInt / 4294967296)) ∧
    exec (.mulhu (.lane e) rd ra rb) s = gives (BitVec.ofNat 32 (a.toNat * b.toNat / 4294967296)) ∧
    exec (.qmul15 (.lane e) rd ra rb) s = gives (BitVec.ofInt 32 (max (-32768) (min 32767 (((a.setWidth 16).toInt * (b.setWidth 16).toInt + 0x4000) / 32768)))) ∧
    exec (.qmul31 (.lane e) rd ra rb) s = gives (BitVec.ofInt 32 (max (-2147483648) (min 2147483647 ((a.toInt * b.toInt + 1073741824) / 2147483648)))))

/-- R61: the accumulator group, wrapping or saturating, with the counts of R59. -/
def Obligations.LaneAccumulate : Prop :=
  ∀ (s : State) (e : Fin 512) (n : BitVec 2) (rd ra rb sh : BitVec 5),
    let a := s.w e.val ra
    let b := s.w e.val rb
    let x := s.acc e.val n
    let p := a.toInt * b.toInt
    let sat (z : Int) := max (-9223372036854775808) (min 9223372036854775807 z)
    let accum (cnt : Nat) (v : Dword) := s.laneDone e.val cnt ((s.laneAt e.val cnt).setAcc e.val n v)
    let gives (cnt : Nat) (v : Word) := s.laneDone e.val cnt ((s.laneAt e.val cnt).setW e.val rd v)
    (s.LaneReady e.val 2 →
      exec (.mac (.lane e) n ra rb) s = accum 2 (BitVec.ofInt 64 (x.toInt + p)) ∧
      exec (.msu (.lane e) n ra rb) s = accum 2 (BitVec.ofInt 64 (x.toInt - p)) ∧
      exec (.macs (.lane e) n ra rb) s = accum 2 (BitVec.ofInt 64 (sat (x.toInt + p))) ∧
      exec (.msus (.lane e) n ra rb) s = accum 2 (BitVec.ofInt 64 (sat (x.toInt - p))) ∧
      exec (.ard (.lane e) rd n sh) s = gives 2 (BitVec.ofInt 32 (max (-2147483648) (min 2147483647
        (if sh = 0 then x.toInt else (x.toInt + ((2 ^ (sh.toNat - 1) : Nat) : Int)) / ((2 ^ sh.toNat : Nat) : Int)))))) ∧
    (s.LaneReady e.val 1 →
      exec (.aclr (.lane e) n) s = accum 1 0 ∧
      exec (.ald (.lane e) n ra sh) s = accum 1 (a.signExtend 64 <<< sh.toNat) ∧
      exec (.ardl (.lane e) rd n sh) s = gives 1 ((x.sshiftRight sh.toNat).setWidth 32) ∧
      exec (.ardh (.lane e) rd n) s = gives 1 ((x >>> 32).setWidth 32))

/-- The floating-point group of a lane engine: which operation of Machine/F32.lean each instruction is, and its count. FloatCorners says what those operations give at the corners of R42 and R63. -/
def Obligations.LaneFloat : Prop :=
  ∀ (s : State) (e : Fin 512) (rd ra rb rc : BitVec 5),
    let a := s.w e.val ra
    let b := s.w e.val rb
    let c := s.w e.val rc
    let gives (cnt : Nat) (v : Word) := s.laneDone e.val cnt ((s.laneAt e.val cnt).setW e.val rd v)
    (s.LaneReady e.val 3 →
      exec (.fadd (.lane e) rd ra rb) s = gives 3 (fAdd false a b) ∧ exec (.fsub (.lane e) rd ra rb) s = gives 3 (fAdd true a b) ∧
      exec (.fmul (.lane e) rd ra rb) s = gives 3 (fMul a b) ∧ exec (.fcvtif (.lane e) rd ra) s = gives 3 (fFromInt 0 a) ∧
      exec (.fcvtfi (.lane e) rd ra) s = gives 3 (BitVec.ofInt 32 (fToInt 0 a)) ∧
      exec (.fcvtqf (.lane e) rd ra) s = gives 3 (fFromInt (-31) a) ∧
      exec (.fcvtfq (.lane e) rd ra) s = gives 3 (BitVec.ofInt 32 (fToInt 31 a))) ∧
    (s.LaneReady e.val 4 →
      exec (.fma (.lane e) rd ra rb rc) s = gives 4 (fFma false a b c) ∧ exec (.fms (.lane e) rd ra rb rc) s = gives 4 (fFma true a b c)) ∧
    (s.LaneReady e.val 14 → exec (.fdiv (.lane e) rd ra rb) s = gives 14 (fDiv a b)) ∧
    (s.LaneReady e.val 16 → exec (.fsqrt (.lane e) rd ra) s = gives 16 (fSqrt a)) ∧
    (s.LaneReady e.val 1 →
      exec (.fmin (.lane e) rd ra rb) s = gives 1 (fMin a b) ∧ exec (.fmax (.lane e) rd ra rb) s = gives 1 (fMax a b) ∧
      exec (.fabs (.lane e) rd ra) s = gives 1 (fAbs a) ∧ exec (.fneg (.lane e) rd ra) s = gives 1 (fNeg a))

/-- The corners of R42 and R63, and the comparisons of R47 with a NaN: one NaN, subnormals as zeros, and the examples of R63. -/
def Obligations.FloatCorners : Prop :=
  ∀ a b c : Word,
    let nan (x : Word) : Prop := x.toNat / 2 ^ 23 % 256 = 255 ∧ x.toNat % 2 ^ 23 ≠ 0
    let inf (x : Word) : Prop := x.toNat % 2 ^ 31 = 255 * 2 ^ 23
    let small (x : Word) : Prop := x.toNat / 2 ^ 23 % 256 = 0
    let q := 0x7FC00000#32
    (nan a ∨ nan b → fAdd false a b = q ∧ fAdd true a b = q ∧ fMul a b = q ∧ fDiv a b = q ∧ fLt a b = false ∧ fGe a b = false) ∧
    (nan a ∨ nan b ∨ nan c → fFma false a b c = q ∧ fFma true a b c = q) ∧
    (nan a → fSqrt a = q ∧ fAbs a = q ∧ fNeg a = q ∧ fToInt 0 a = 0 ∧ fToInt 31 a = 0) ∧
    (nan a ∧ nan b → fMin a b = q ∧ fMax a b = q) ∧
    (nan a ∧ ¬ nan b ∧ ¬ small b → fMin a b = b ∧ fMax a b = b ∧ fMin b a = b ∧ fMax b a = b) ∧
    (small b ∧ ¬ nan a ∧ ¬ inf a ∧ ¬ small a →
      fDiv a b = BitVec.ofNat 32 ((a.toNat / 2 ^ 31 + b.toNat / 2 ^ 31) % 2 * 2 ^ 31 + 255 * 2 ^ 23)) ∧
    (small a ∧ small b ∨ inf a ∧ inf b → fDiv a b = q) ∧
    fSqrt 0x80000000#32 = 0x80000000#32 ∧ fMin 0x80000000#32 0 = 0x80000000#32 ∧ fMax 0x80000000#32 0 = 0 ∧
    (small a → fAbs a = 0 ∧ fNeg a = (if a.toNat < 2 ^ 31 then 0x80000000#32 else 0)) ∧
    (¬ nan a ∧ ¬ small a → fAbs a = a &&& 0x7FFFFFFF#32 ∧ fNeg a = a ^^^ 0x80000000#32) ∧
    fFromInt (-31) 0x7FFFFFFF#32 = 0x3F800000#32 ∧ fFromInt (-31) 0x80000000#32 = 0xBF800000#32 ∧
    fToInt 31 0x3F000000#32 = 0x40000000 ∧ fToInt 31 0x3F800000#32 = 0x7FFFFFFF

/-- R62, whole. -/
def Obligations.LaneImmediate : Prop :=
  (∀ (s : State) (e : Fin 512) (rd ra : BitVec 5) (imm : BitVec 16), s.LaneReady e.val 1 →
    let a := s.w e.val ra
    let gives (v : Word) := s.laneDone e.val 1 ((s.laneAt e.val 1).setW e.val rd v)
    exec (.addi (.lane e) rd ra imm) s = gives (a + imm.signExtend 32) ∧
    exec (.andi (.lane e) rd ra imm) s = gives (a &&& imm.setWidth 32) ∧
    exec (.ori (.lane e) rd ra imm) s = gives (a ||| imm.setWidth 32) ∧
    exec (.xori (.lane e) rd ra imm) s = gives (a ^^^ imm.setWidth 32) ∧
    exec (.movi (.lane e) rd imm) s = gives (imm.signExtend 32) ∧
    exec (.movhi (.lane e) rd imm) s = gives (imm.setWidth 32 <<< 16)) ∧
    (∀ (c : Core) (rd ra : BitVec 5) (imm : BitVec 16), ra ≠ 0 →
      decodeLane c (9#6 ++ rd ++ ra ++ imm) = none ∧ decodeLane c (10#6 ++ rd ++ ra ++ imm) = none)

/-- R64, with the comparisons of R47: signed, unsigned and binary32, against a register or a sign-extended 5-bit immediate. -/
def Obligations.LaneBranch : Prop :=
  ∀ (s : State) (e : Fin 512) (ra rb simm : BitVec 5) (off : BitVec 13), s.LaneReady e.val 2 →
    let a := s.w e.val ra
    let b := s.w e.val rb
    let i := simm.signExtend 32
    let target : Int := ((s.engine e.val).pc : Int) + off.toInt
    let does (taken : Prop) (x : Instr) : Prop :=
      (target < 0 ∨ 4095 < target → exec x s = s.laneAborts e.val 2 2) ∧
      (0 ≤ target ∧ target ≤ 4095 → taken → exec x s = .next ((s.laneAt e.val 2).laneAdvance e.val 2 target.toNat)) ∧
      (0 ≤ target ∧ target ≤ 4095 → ¬ taken → exec x s = s.laneDone e.val 2 (s.laneAt e.val 2))
    does (a = b) (.beq (.lane e) ra rb off) ∧
    does (a ≠ b) (.bne (.lane e) ra rb off) ∧
    does (a.toInt < b.toInt) (.blt (.lane e) ra rb off) ∧
    does (b.toInt ≤ a.toInt) (.bge (.lane e) ra rb off) ∧
    does (a.toNat < b.toNat) (.bltu (.lane e) ra rb off) ∧
    does (b.toNat ≤ a.toNat) (.bgeu (.lane e) ra rb off) ∧
    does (fLt a b = true) (.bflt (.lane e) ra rb off) ∧
    does (fGe a b = true) (.bfge (.lane e) ra rb off) ∧
    does (a = i) (.beqi (.lane e) ra simm off) ∧
    does (a ≠ i) (.bnei (.lane e) ra simm off) ∧
    does (a.toInt < i.toInt) (.blti (.lane e) ra simm off) ∧
    does (i.toInt ≤ a.toInt) (.bgei (.lane e) ra simm off) ∧
    does (a.toNat < i.toNat) (.bltui (.lane e) ra simm off) ∧
    does (i.toNat ≤ a.toNat) (.bgeui (.lane e) ra simm off)

/-- R66 with the return stack of R51 and the checks of R48. -/
def Obligations.LaneCalls : Prop :=
  ∀ (s : State) (e : Fin 512) (ra : BitVec 5) (target : BitVec 12),
    let g := s.engine e.val
    let a := (s.w e.val ra).toNat
    let pushed (l : List Nat) := (s.laneAt e.val 3).setEng e.val { g with stack := (g.pc + 1) :: l }
    let calls (x : Instr) (t : Nat) : Prop :=
      (g.stack.length < 8 → exec x s = .next ((pushed g.stack).laneAdvance e.val 3 t)) ∧
      (8 ≤ g.stack.length → s.trapMode e.val = false → exec x s = .next ((pushed (g.stack.take 7)).laneAdvance e.val 3 t)) ∧
      (8 ≤ g.stack.length → s.trapMode e.val = true → exec x s = s.laneAborts e.val 3 5)
    (s.LaneReady e.val 3 →
      calls (.call (.lane e) target) target.toNat ∧
      (a ≤ 0x3FFF → a % 4 = 0 → calls (.callr (.lane e) ra) (a / 4)) ∧
      (0x3FFF < a → exec (.callr (.lane e) ra) s = s.laneAborts e.val 3 2) ∧
      (a ≤ 0x3FFF → a % 4 ≠ 0 → exec (.callr (.lane e) ra) s = s.laneAborts e.val 3 3) ∧
      (g.stack = [] → exec (.ret (.lane e)) s = s.laneAborts e.val 3 6) ∧
      (∀ t rest, g.stack = t :: rest →
        exec (.ret (.lane e)) s = .next (((s.laneAt e.val 3).setEng e.val { g with stack := rest }).laneAdvance e.val 3 t))) ∧
    (s.LaneReady e.val 2 →
      (a ≤ 0x3FFF → a % 4 = 0 → exec (.jr (.lane e) ra) s = .next ((s.laneAt e.val 2).laneAdvance e.val 2 (a / 4))) ∧
      (0x3FFF < a → exec (.jr (.lane e) ra) s = s.laneAborts e.val 2 2) ∧
      (a ≤ 0x3FFF → a % 4 ≠ 0 → exec (.jr (.lane e) ra) s = s.laneAborts e.val 2 3))

/-- R67 with the regions of R37, the address of R38 and the sizes of R46; the 64-bit size is illegal on a lane engine. The bytes are those of R69, R96 and R98: laneBytesAt reads the youngest own entry, else memory as it stood before any write of the ec of the read. Where it rests on choices of the model: log entries 102, 109. -/
def Obligations.LaneLoad : Prop :=
  ∀ (s : State) (e : Fin 512) (rd ra : BitVec 5) (simm : BitVec 13),
    let a := ((((s.w e.val ra).toNat : Int) + simm.toInt) % 4294967296).toNat
    let t0 := s.laneFirst e.val
    let loads (cnt : Nat) (holds : Prop) (n : Nat) (f : Nat → Word) (x : Instr) : Prop :=
      s.LaneReady e.val cnt →
        (∀ u, (a < 0x40000 → u = t0 + 1) → (0x40000 ≤ a → t0 ≤ u ∧ u < t0 + 4 ∧ (e.val + u) % 4 = a / 8 % 4) →
          holds → a % n = 0 → s.chkWhen (MemWrite.from_ u) (s.laneAddr e.val a) = .valid →
          exec x s = s.laneDone e.val cnt ((s.laneAt e.val cnt).setW e.val rd (f (s.laneBytesAt e.val u a n)))) ∧
        (¬ holds → exec x s = s.laneAborts e.val cnt 2) ∧
        (holds → a % n ≠ 0 → exec x s = s.laneAborts e.val cnt 3)
    let own := loads 2 (a < 0x4000 ∨ 0x10000 ≤ a ∧ a < 0x18000)
    let shared := loads 4 (0x40000 ≤ a ∧ a < 0x80000)
    own 4 (fun v => BitVec.ofNat 32 v) (.ldw (.lane e) false rd ra simm) ∧
    own 2 (fun v => (BitVec.ofNat 16 v).signExtend 32) (.ldh (.lane e) rd ra simm) ∧
    own 2 (fun v => BitVec.ofNat 32 v) (.ldhu (.lane e) rd ra simm) ∧
    own 1 (fun v => (BitVec.ofNat 8 v).signExtend 32) (.ldb (.lane e) rd ra simm) ∧
    own 1 (fun v => BitVec.ofNat 32 v) (.ldbu (.lane e) rd ra simm) ∧
    shared 4 (fun v => BitVec.ofNat 32 v) (.lds (.lane e) rd ra simm) ∧
    shared 2 (fun v => (BitVec.ofNat 16 v).signExtend 32) (.ldsh (.lane e) rd ra simm) ∧
    shared 2 (fun v => BitVec.ofNat 32 v) (.ldshu (.lane e) rd ra simm) ∧
    shared 1 (fun v => (BitVec.ofNat 8 v).signExtend 32) (.ldsb (.lane e) rd ra simm) ∧
    shared 1 (fun v => BitVec.ofNat 32 v) (.ldsbu (.lane e) rd ra simm) ∧
    (s.LaneReady e.val 2 → exec (.ldw (.lane e) true rd ra simm) s = s.laneAborts e.val 2 1)

/-- R68: a store enters the store buffer in its last ec, carrying the slot of its engine; a load of the engine sees it (R69) while memory does not. Shared stores enter the shared part (R93). Stores into the engine's own instructions (R72) have LaneOldForm. Where it rests on choices of the model: log entry 102. -/
def Obligations.LaneStore : Prop :=
  ∀ (s : State) (e : Fin 512) (rs ra : BitVec 5) (simm : BitVec 13), s.LaneReady e.val 1 →
    let a := ((((s.w e.val ra).toNat : Int) + simm.toInt) % 4294967296).toNat
    let g := s.engine e.val
    let stores (n : Nat) (x : Instr) : Prop :=
      (0x10000 ≤ a → a < 0x18000 → a % n = 0 → g.role = .single → g.local_ = [] →
        ∃ t, exec x s = .next t ∧
          (t.engine e.val).local_ = [⟨a / 8 * 8, (2 ^ n - 1) * 2 ^ (a % 8), (s.w e.val rs).toNat % 2 ^ (8 * n) * 2 ^ (8 * (a % 8)), false,
            s.laneFirst e.val, s.physOf e.val⟩] ∧
          t.laneBytes e.val a n = (s.w e.val rs).toNat % 2 ^ (8 * n) ∧
          (∀ b, t.byte b = s.byte b) ∧ (∀ r, t.w e.val r = s.w e.val r) ∧ (t.engine e.val).shared = g.shared ∧
          (t.engine e.val).pc = g.pc + 1 ∧ (t.engine e.val).used = g.used + 1) ∧
      (¬ (a < 0x4000 ∨ 0x10000 ≤ a ∧ a < 0x18000) → exec x s = s.laneAborts e.val 1 2) ∧
      ((a < 0x4000 ∨ 0x10000 ≤ a ∧ a < 0x18000) → a % n ≠ 0 → exec x s = s.laneAborts e.val 1 3)
    let shares (n : Nat) (x : Instr) : Prop :=
      (0x40000 ≤ a → a < 0x80000 → a % n = 0 → g.role = .single → g.shared = [] →
        exec x s = s.laneDone e.val 1 ((s.laneAt e.val 1).setEng e.val { g with shared :=
          [⟨a / 8 * 8, (2 ^ n - 1) <<< (a % 8), ((s.w e.val rs).toNat % 2 ^ (8 * n)) <<< (8 * (a % 8)), false, s.laneFirst e.val, s.physOf e.val⟩] })) ∧
      (¬ (0x40000 ≤ a ∧ a < 0x80000) → exec x s = s.laneAborts e.val 1 2) ∧
      (0x40000 ≤ a → a < 0x80000 → a % n ≠ 0 → exec x s = s.laneAborts e.val 1 3)
    stores 4 (.stw (.lane e) false rs ra simm) ∧
    stores 2 (.sth (.lane e) rs ra simm) ∧
    stores 1 (.stb (.lane e) rs ra simm) ∧
    exec (.stw (.lane e) true rs ra simm) s = s.laneAborts e.val 1 1 ∧
    shares 4 (.sts (.lane e) rs ra simm) ∧
    shares 2 (.stsh (.lane e) rs ra simm) ∧
    shares 1 (.stsb (.lane e) rs ra simm)

/-- R72: the two instructions that follow a store into instruction memory run in the form the store found; every later fetch sees the store, while it waits in the store buffer too (R69). Where it rests on choices of the model: log entries 98, 110. -/
def Obligations.LaneOldForm : Prop :=
  ∀ (s : State) (e : Fin 512) (rs ra : BitVec 5) (simm : BitVec 13), s.LaneReady e.val 1 →
    let a := ((((s.w e.val ra).toNat : Int) + simm.toInt) % 4294967296).toNat
    let g := s.engine e.val
    (a < 0x4000 → a % 4 = 0 → g.role = .single → g.local_ = [] → g.old = [] →
      ∃ t, exec (.stw (.lane e) false rs ra simm) s = .next t ∧
        (t.laneFetch e.val (a / 4)).2.1 = s.laneBytes e.val a 4 ∧
        ((t.laneAdvance e.val 1 0).laneFetch e.val (a / 4)).2.1 = s.laneBytes e.val a 4 ∧
        (let i := a / 8 * 2 + (1 - a / 4 % 2);
          (t.laneFetch e.val i).2.1 = s.laneBytes e.val (4 * i) 4 ∧ ((t.laneAdvance e.val 1 0).laneFetch e.val i).2.1 = s.laneBytes e.val (4 * i) 4) ∧
        (((t.laneAdvance e.val 1 0).laneAdvance e.val 1 0).laneFetch e.val (a / 4)).2.1 = (s.w e.val rs).toNat)

/-- R39, R70 and R111: the window of capk, its capability check, the answer of the resource, and the store on its way with its epoch (R83). Where it rests on choices of the model: log entries 92, 93. -/
def Obligations.LaneWindow : Prop :=
  ∀ (s : State) (e : Fin 512) (r ra : BitVec 5) (simm : BitVec 13),
    let a := ((((s.w e.val ra).toNat : Int) + simm.toInt) % 4294967296).toNat
    let g := s.engine e.val
    let k := (a - 0x80000) / 0x10000
    let c := g.getCap k
    let off := a % 0x10000
    let holds := 0x80000 ≤ a ∧ a < 0x100000
    let loads (n : Nat) (f : Nat → Word) (x : Instr) : Prop := s.LaneReady e.val 6 →
      (holds → a % n = 0 → s.winOk c off n 0 = true → ∀ v t, (s.laneAt e.val 6).winRead e.val c off n = (.ok v, t) →
        exec x s = .next ((t.setW e.val r (f v)).laneAdvance e.val 6 (g.pc + 1)).finish) ∧
      (holds → a % n = 0 → s.winOk c off n 0 = false → exec x s = s.laneAborts e.val 6 4) ∧
      (¬ holds → exec x s = s.laneAborts e.val 6 2) ∧ (holds → a % n ≠ 0 → exec x s = s.laneAborts e.val 6 3)
    let stores (n : Nat) (x : Instr) : Prop := s.LaneReady e.val 1 →
      (holds → a % n = 0 → s.winOk c off n 1 = true → g.role = .single →
        exec x s = s.laneDone e.val 1 { s.laneAt e.val 1 with wstores := s.wstores ++
          [⟨e.val, s.physOf e.val, g.pc, s.slotEpoch (e.val / 8) (s.physOf e.val), c, off, n, (s.w e.val r).toNat % 2 ^ (8 * n),
            s.laneFirst e.val + winDelay c, some g.start, false⟩] }) ∧
      (holds → a % n = 0 → s.winOk c off n 1 = false → exec x s = s.laneAborts e.val 1 4) ∧
      (¬ holds → exec x s = s.laneAborts e.val 1 2) ∧ (holds → a % n ≠ 0 → exec x s = s.laneAborts e.val 1 3)
    loads 4 (fun v => BitVec.ofNat 32 v) (.ldc (.lane e) r ra simm) ∧
    loads 2 (fun v => (BitVec.ofNat 16 v).signExtend 32) (.ldch (.lane e) r ra simm) ∧
    loads 2 (fun v => BitVec.ofNat 32 v) (.ldchu (.lane e) r ra simm) ∧
    loads 1 (fun v => (BitVec.ofNat 8 v).signExtend 32) (.ldcb (.lane e) r ra simm) ∧
    loads 1 (fun v => BitVec.ofNat 32 v) (.ldcbu (.lane e) r ra simm) ∧
    stores 4 (.stc (.lane e) r ra simm) ∧ stores 2 (.stch (.lane e) r ra simm) ∧ stores 1 (.stcb (.lane e) r ra simm)

/-- R73, with the granules of R40 and the addresses of R48. A granule's tag is the one the engine sees (R69). Where it rests on choices of the model: log entry 109. -/
def Obligations.LaneCapability : Prop :=
  ∀ (s : State) (e : Fin 512) (cd cs : BitVec 3) (ra rb : BitVec 5),
    let c := s.lcap e.val cs
    let a := (s.w e.val ra).toNat
    let b := (s.w e.val rb).toNat
    let g := s.engine e.val
    let gives (cnt : Nat) (c : Cap) := s.laneDone e.val cnt ((s.laneAt e.val cnt).setLcap e.val cd c)
    let granule := 0x10000 ≤ a ∧ a < 0x18000 ∨ 0x40000 ≤ a ∧ a < 0x80000
    let t0 := s.laneFirst e.val
    (s.LaneReady e.val 1 →
      exec (.cmov (.lane e) cd cs) s = gives 1 c ∧
      exec (.cclr (.lane e) cd) s = gives 1 { s.lcap e.val cd with tag := false } ∧
      (c.tag = true → exec (.cperm (.lane e) cd cs ra) s = gives 1 (c.withBits 80 8 (c.perms &&& (a % 256)))) ∧
      (c.tag = false → exec (.cperm (.lane e) cd cs ra) s = s.laneAborts e.val 1 4)) ∧
    (s.LaneReady e.val 2 →
      (c.tag = true → a + b ≤ c.len → exec (.cnarrow (.lane e) cd cs ra rb) s = gives 2 ((c.withBits 0 40 (c.base + a)).withBits 40 40 b)) ∧
      (c.tag = false ∨ c.len < a + b → exec (.cnarrow (.lane e) cd cs ra rb) s = s.laneAborts e.val 2 4) ∧
      (0x10000 ≤ a → a < 0x18000 → a % 16 = 0 → c.tag = true → g.local_ = [] →
        exec (.cst (.lane e) cs ra) s = s.laneDone e.val 2 ((s.laneAt e.val 2).setEng e.val { g with local_ :=
          [⟨a, 255, c.val.toNat % 2 ^ 64, true, s.laneFirst e.val + 1, s.physOf e.val⟩,
           ⟨a + 8, 255, c.val.toNat / 2 ^ 64, true, s.laneFirst e.val + 1, s.physOf e.val⟩] })) ∧
      (0x40000 ≤ a → a < 0x80000 → a % 16 = 0 → c.tag = true → g.shared = [] → g.role = .single →
        exec (.cst (.lane e) cs ra) s = s.laneDone e.val 2 ((s.laneAt e.val 2).setEng e.val { g with shared :=
          [⟨a, 255, c.val.toNat % 2 ^ 64, true, s.laneFirst e.val + 1, s.physOf e.val⟩,
           ⟨a + 8, 255, c.val.toNat / 2 ^ 64 % 2 ^ 64, true, s.laneFirst e.val + 1, s.physOf e.val⟩] })) ∧
      (granule → a % 16 = 0 → c.tag = false → exec (.cst (.lane e) cs ra) s = s.laneAborts e.val 2 4) ∧
      (¬ granule → exec (.cst (.lane e) cs ra) s = s.laneAborts e.val 2 2) ∧
      (granule → a % 16 ≠ 0 → exec (.cst (.lane e) cs ra) s = s.laneAborts e.val 2 3)) ∧
    (s.LaneReady e.val 5 →
      (∀ u v, (a < 0x40000 → u = t0 + 1 ∧ v = t0 + 2) → (0x40000 ≤ a → t0 ≤ u ∧ u < t0 + 4 ∧ (e.val + u) % 4 = a / 8 % 4 ∧
          t0 ≤ v ∧ v < t0 + 4 ∧ (e.val + v) % 4 = (a / 8 + 1) % 4) →
        granule → a % 16 = 0 → s.chkWhen (MemWrite.from_ u) (s.laneAddr e.val a) = .valid →
        s.chkWhen (MemWrite.from_ v) (s.laneAddr e.val (a + 8)) = .valid →
        exec (.cld (.lane e) cd ra) s = gives 5 ⟨s.laneTag e.val (max u v) a,
          BitVec.ofNat 128 (s.laneBytesAt e.val u a 8 + 2 ^ 64 * s.laneBytesAt e.val v (a + 8) 8)⟩) ∧
      (¬ granule → exec (.cld (.lane e) cd ra) s = s.laneAborts e.val 5 2) ∧
      (granule → a % 16 ≠ 0 → exec (.cld (.lane e) cd ra) s = s.laneAborts e.val 5 3))

/-- R74, R76, R77, R72 and R84. A delivery of SMP's own ec leaves SMP the value before it (R36); a port with no delivery counts as stale (R209). -/
def Obligations.LaneSystem : Prop :=
  ∀ (s : State) (e : Fin 512) (rd n : BitVec 5) (port : BitVec 3),
    let g := s.engine e.val
    let first := s.laneFirst e.val
    let at_ := Tab.look (fun _ => 0) g.spAt port.toNat
    (s.LaneReady e.val 1 →
      (at_ ≠ first + 1 → g.before.getD s.sched.origin < at_ →
        exec (.smp (.lane e) rd port) s = s.laneDone e.val 1 ((s.laneAt e.val 1).setW e.val rd (g.getSp port.toNat))) ∧
      (at_ = first + 1 → g.before.getD s.sched.origin < at_ →
        exec (.smp (.lane e) rd port) s = s.laneDone e.val 1 ((s.laneAt e.val 1).setW e.val rd (Tab.look (fun _ => 0) g.spOld port.toNat))) ∧
      (at_ = 0 → exec (.smp (.lane e) rd port) s = s.laneDone e.val 1
        (((s.laneAt e.val 1).bump F.SQ_SPSTAT_STALE F.SQ_SPSTAT_STALESAT (e.val / 8)).setW e.val rd (g.getSp port.toNat))) ∧
      (n.toNat < 8 → exec (.tin (.lane e) rd n) s = s.laneDone e.val 1 ((s.laneAt e.val 1).setW e.val rd
        (BitVec.ofNat 32 (s.peek (tinAddr s.bank e.val n.toNat + 0x20) 4)))) ∧
      (8 ≤ n.toNat → exec (.tin (.lane e) rd n) s = s.laneAborts e.val 1 1) ∧
      (g.role = .single → ∃ t, exec (.endTask (.lane e)) s = .next t ∧ (t.engine e.val).running = false ∧ (t.engine e.val).woken = false ∧
        (t.engine e.val).local_ = g.local_ ∧ (t.engine e.val).shared = g.shared ∧ (t.engine e.val).used = g.used + 1 ∧
        (∀ r, t.w e.val r = s.w e.val r) ∧ t.regs = s.regs ∧ t.mem = s.mem ∧ t.raised = [])) ∧
    (s.LaneReady e.val 2 →
      (rd.toNat % 2 = 0 → ∃ t, exec (.time (.lane e) rd) s = .next t ∧ t.w e.val rd = BitVec.ofNat 32 first ∧
        t.w e.val (rd + 1) = BitVec.ofNat 32 (first / 2 ^ 32) ∧ (∀ r, r ≠ rd → r ≠ rd + 1 → t.w e.val r = s.w e.val r) ∧
        (t.engine e.val).pc = g.pc + 1 ∧ (t.engine e.val).used = g.used + 2 ∧ t.regs = s.regs ∧ t.mem = s.mem) ∧
      (rd.toNat % 2 = 1 → exec (.time (.lane e) rd) s = s.laneAborts e.val 2 1)) ∧
    (s.LaneReady e.val 3 → ∃ t, exec (.ifence (.lane e)) s = .next t ∧ (t.engine e.val).old = [] ∧ (t.engine e.val).pc = g.pc + 1 ∧
      (t.engine e.val).used = g.used + 3 ∧ (∀ r, t.w e.val r = s.w e.val r) ∧ t.regs = s.regs ∧ t.mem = s.mem)

/-- R75, R78 and R82: what leaves the engine in the last ec of each, and what aborts it. The effect of an EDGE on its pair has EdgeWrites and EdgeTimes; a message's way has BoardMessages. Where it rests on choices of the model: log entries 94, 127. -/
def Obligations.LaneOutputs : Prop :=
  ∀ (s : State) (e : Fin 512) (cap : BitVec 3) (index rs rt reg : BitVec 5) (field route : BitVec 8),
    let g := s.engine e.val
    let c := s.lcap e.val cap
    let x := s.peek (routeAddr s.bank e.val route.toNat) 8
    let r := s.rxAt s.bank e.val route.toNat
    let edge := exec (.edge (.lane e) cap index field rs rt) s
    let takes (v : Nat) (fresh any : Bool) (r' : Rx) : Prop :=
      let got (t : State) := (t.setRx s.bank e.val route.toNat r').setW e.val reg (BitVec.ofNat 32 (if any then v else 0))
      (fresh = true → exec (.recv (.lane e) reg route) s = s.laneDone e.val 1 (got (s.laneAt e.val 1))) ∧
      (fresh = false → exec (.recv (.lane e) reg route) s = s.laneEnds e.val 1 (got (((s.laneAt e.val 1).bump F.SQ_ROUTESTAT_RXMISS
        F.SQ_ROUTESTAT_RXSAT (e.val / 8)).raiseEv (sqDom (e.val / 8)) 7 (e.val / 8))))
    let listed := field.toNat ≤ 5 ∨ field.toNat = 0x10 ∨ 0x20 ≤ field.toNat ∧ field.toNat ≤ 0x23
    (s.LaneReady e.val 3 →
      (¬ listed → edge = s.laneAborts e.val 3 1) ∧
      (field.toNat ≤ 5 → rt ≠ 0 → edge = s.laneAborts e.val 3 1) ∧
      (listed → (5 < field.toNat ∨ rt = 0) → (s.capFor c 2 2 = false ∨ c.len ≤ index.toNat) → edge = s.laneAborts e.val 3 4) ∧
      (listed → (5 < field.toNat ∨ rt = 0) → s.capFor c 2 2 = true → index.toNat < c.len → g.role = .single →
        ∀ t, (s.laneAt e.val 3).edgeEffect e.val (s.physOf e.val) (s.laneFirst e.val + 2) (c.base + index.toNat) field.toNat
            (s.w e.val rs).toNat (if field.toNat ≤ 5 then 0 else (s.w e.val rt).toNat % 128) = (false, t) →
          edge = s.laneEnds e.val 3 t)) ∧
    (s.LaneReady e.val 2 →
      (routeValid x = true → routeIn x = false → g.role = .single →
        exec (.send (.lane e) reg route) s = s.laneEnds e.val 2
          ((s.laneAt e.val 2).sendMsg e.val (s.physOf e.val) (s.laneFirst e.val + 1) route.toNat (s.w e.val reg).toNat false)) ∧
      ((s.chkAt (routeAddr s.bank e.val route.toNat)).bad = false → (routeValid x = false ∨ routeIn x = true) →
        exec (.send (.lane e) reg route) s = s.laneAborts e.val 2 0xA) ∧
      (s.namesChannel c = true → s.planOwns 8 c.base = true → g.role = .single →
        exec (.sig (.lane e) cap) s = s.laneEnds e.val 2 ((s.laneAt e.val 2).presentSig e.val (s.physOf e.val) c.base (s.laneFirst e.val + 1) false)) ∧
      (s.namesChannel c = true → s.planOwns 8 c.base = false → g.role = .single → s.slotInEpoch (e.val / 8) (s.physOf e.val) = true →
        exec (.sig (.lane e) cap) s = ((s.laneAt e.val 2).laneAbort e.val 4 g.pc (s.laneFirst e.val + 1)).ends) ∧
      (s.namesChannel c = false → exec (.sig (.lane e) cap) s = s.laneAborts e.val 2 4)) ∧
    (s.LaneReady e.val 1 →
      (routeValid x = true → routeIn x = true →
        ((r.came = none ∨ ∃ u v f a, r.came = some (u, v, f, a) ∧ u < s.laneFirst e.val) → takes r.value r.fresh r.any { r with fresh := false }) ∧
        (∀ u v f a, r.came = some (u, v, f, a) → s.laneFirst e.val ≤ u → takes v f a { r with came := some (u, v, false, a) })) ∧
      (routeValid x = false ∨ routeIn x = false → exec (.recv (.lane e) reg route) s = s.laneAborts e.val 1 0xA))

/-- R79 to R81 and R86 with the counts of R59, the request ecs of R100 and the conflicts of R101. What a table gives is lodMap and lodWalk of Machine/Lode.lean. Where it rests on choices of the model: log entry 13. -/
def Obligations.LaneLode : Prop :=
  ∀ (s : State) (e : Fin 512) (rd ra : BitVec 5) (cap nm1 : BitVec 3) (depth : BitVec 5),
    let c := s.lcap e.val cap
    let t0 := s.laneFirst e.val
    let runs (x : LodeOp) (i : Instr) : Prop := s.LaneReady e.val x.count →
      let at_ := s.laneAt e.val x.count
      let r := at_.lodeRun e.val x t0 (at_.lodeLost e.val)
      let asks := (lodeRequests x.m x.depth t0).take r.1.2
      let sent := r.2.lodeSend e.val x.rd.toNat (t0 + x.count) asks
      let lost := ∃ u ∈ asks, ∃ j < 8, e.val / 8 * 8 + j < e.val ∧ r.2.lodeBusy (e.val / 8 * 8 + j) u = true
      (∀ v, r.1.1 = .ok v → lost → exec i s = s.laneEnds e.val x.count (sent.2.setW e.val x.rd 0)) ∧
      (∀ v, r.1.1 = .ok v → ¬ lost → exec i s = s.laneEnds e.val x.count (sent.2.setW e.val x.rd v)) ∧
      (∀ code, r.1.1 = .error code → exec i s =
        (sent.2.laneAbort e.val code (s.engine e.val).pc (if code = 4 ∧ r.1.2 = 1 then t0 + 2 else t0)).ends) ∧
      (s.planOwns 7 c.base = false → r.1.2 ≠ 0 → r.1 = (.error 4, 1)) ∧
      (31 < x.ra.toNat + x.n - 1 → r.1 = (.error 1, 0)) ∧
      (x.ra.toNat + x.n - 1 ≤ 31 → x.m = 0 ∧ (x.depth = 0 ∨ 24 < x.depth) → r.1 = (.error 1, 0)) ∧
      (x.ra.toNat + x.n - 1 ≤ 31 → (x.m = 0 → x.depth ≠ 0 ∧ x.depth ≤ 24) →
        (s.capFor c 7 0 = false → r.1 = (.error 4, 0)) ∧
        (s.capFor c 7 0 = true → s.fld F.LOD_W0_KIND c.base ≠ (if x.m = 0 then 4 else x.m) → r.1 = (.error 0x0B, 0)))
    runs ⟨1, rd, ra, cap, 1, 0⟩ (.look (.lane e) rd ra cap) ∧ runs ⟨2, rd, ra, cap, 2, 0⟩ (.interp2 (.lane e) rd ra cap) ∧
    runs ⟨3, rd, ra, cap, 3, 0⟩ (.interp3 (.lane e) rd ra cap) ∧
    runs ⟨0, rd, ra, cap, nm1.toNat + 1, depth.toNat⟩ (.walk (.lane e) rd ra cap nm1 depth)

/-- The frame of the ALU, multiply, accumulator, floating-point and immediate groups of a lane engine. -/
def Obligations.LaneRegisterFrame : Prop :=
  ∀ (i : Instr) (e : Fin 512) (d : LaneDest) (cnt : Nat) (f : State → LRes) (s t : State),
    i.core = some (.lane e) → laneDest i = some d → laneBodyOf e.val i = some (cnt, f) → i.wf = true → s.LaneReady e.val cnt →
    exec i s = .next t →
    (∀ r, d ≠ .w r → t.w e.val r = s.w e.val r) ∧ (∀ n, d ≠ .acc n → t.acc e.val n = s.acc e.val n) ∧
    (∀ k, t.lcap e.val k = s.lcap e.val k) ∧ (t.engine e.val).stack = (s.engine e.val).stack ∧
    (t.engine e.val).local_ = (s.engine e.val).local_ ∧ (t.engine e.val).shared = (s.engine e.val).shared ∧
    (t.engine e.val).pc = (s.engine e.val).pc + 1 ∧ (t.engine e.val).used = (s.engine e.val).used + cnt ∧
    (∀ e', e' ≠ e.val → t.engine e' = s.engine e') ∧
    (∀ a, t.byte a = s.byte a) ∧ (∀ a, t.chkAt a = s.chkAt a) ∧ (∀ a, t.tagAt a = s.tagAt a) ∧
    (∀ r k, t.reg r k = s.reg r k) ∧ (∀ k, t.core k = s.core k) ∧ (∀ p, t.ep p = s.ep p) ∧
    t.msgs = s.msgs ∧ t.wstores = s.wstores ∧ t.flights = s.flights ∧ t.pending = s.pending

/-- R58 for every instruction that may be the body of a repeat prefix, with the count of R59; R132 and the safety event of R55 on the operation that every abort of a lane engine goes through. Where it rests on choices of the model: log entries 111, 129. -/
def Obligations.LaneStops : Prop :=
  (∀ (i : Instr) (e : Fin 512) (cnt : Nat) (f : State → LRes) (s : State),
    i.core = some (.lane e) → laneBodyOf e.val i = some (cnt, f) →
    let g := s.engine e.val
    let t0 := s.laneFirst e.val
    let u := s.reach t0
    let x := s.laneNext e.val
    (s.engClock = true → g.running = true → g.budget < g.used + 1 → lodeOp i = none → exec i s = (s.budgetStop e.val g.pc).ends) ∧
    (s.engClock = true → g.running = true → g.used + 1 ≤ g.budget → g.budget < g.used + cnt → lodeOp i = none → x.1 = false → x.2.2 = u → legalWord e.val x.2.1 = true →
      exec i s = (u.budgetStop e.val g.pc).ends) ∧
    (s.engClock = true → g.running = true → g.used + cnt ≤ g.budget → 0 < cnt → x.1 = true → exec i s = (x.2.2.laneAbort e.val 7 g.pc t0).ends) ∧
    (s.engClock = true → g.running = true → g.used + cnt ≤ g.budget → 0 < cnt → x.1 = false → legalWord e.val x.2.1 = false →
      exec i s = (if g.budget < g.used + wordCount x.2.1 then x.2.2.budgetStop e.val g.pc else x.2.2.laneAbort e.val 1 g.pc t0).ends) ∧
    (g.running = false ∨ s.engClock = false → exec i s = s.ends)) ∧
    (∀ (s : State) (e cause pc tick : Nat), e < 512 → cause < 2 ^ 7 → pc < 4096 → (s.engine e).role = .single → s.physOf e < 16 →
    let t := s.laneAbort e cause pc tick
    (t.engine e).running = false ∧
    (s.alive (sqDom (e / 8)) = true → t.raised = s.raised ++ [(4, e / 8)]) ∧
    (s.flag F.SQ_ABORT_VALID (e / 8) = true → s.fld F.SQ_ABORTCNT_COUNT (e / 8) < 2 ^ F.SQ_ABORTCNT_COUNT.width - 1 →
      t.fld F.SQ_ABORTCNT_COUNT (e / 8) = s.fld F.SQ_ABORTCNT_COUNT (e / 8) + 1 ∧ t.reg .SQ_ABORT (e / 8) = s.reg .SQ_ABORT (e / 8)) ∧
    (s.flag F.SQ_ABORT_VALID (e / 8) = false →
      t.flag F.SQ_ABORT_VALID (e / 8) = true ∧ t.fld F.SQ_ABORT_CAUSE (e / 8) = cause ∧ t.fld F.SQ_ABORT_ENGINE (e / 8) = e % 8 ∧
      t.fld F.SQ_ABORT_PC (e / 8) = pc ∧ t.regN .SQ_ABORTL (e / 8) = tick % 2 ^ 32))

/-- R52 to R54 and R85: an inner product. A repetition from m on is no operation that takes its time (R54). Where it rests on choices of the model: log entries 97, 98, 124, 129. -/
def Obligations.LaneRep : Prop :=
  ∀ (s : State) (e : Fin 512) (rsrc advRb advRa : Bool) (cnt ra rb : BitVec 5) (n : BitVec 2) (nm1 : BitVec 6),
    let g := s.engine e.val
    let reps := nm1.toNat + 1
    let m := if rsrc then min (s.w e.val cnt).toNat reps else reps
    let u := (s.reach (s.laneFirst e.val)).laneAdvance e.val 1 (g.pc + 1)
    let at_ (adv : Bool) (r : BitVec 5) (i : Nat) : Int := (s.w e.val (if adv then r + BitVec.ofNat 5 i else r)).toInt
    let total : Int := ((List.range m).map (fun i => at_ advRa ra i * at_ advRb rb i)).sum
    let rep (advRd : Bool) := exec (.rep (.lane e) rsrc advRb advRa advRd false cnt nm1) s
    (∀ word, s.LaneReady e.val (1 + 2 * reps) → g.pc + 1 < 4095 → u.laneFetch e.val (g.pc + 1) = (false, word, u) →
      encodeLane (.mac (.lane e) n ra rb) = some (BitVec.ofNat 32 word) → word < 2 ^ 32 → (rsrc = false → cnt = 0) →
      ∃ t, rep false = .next t ∧ t.acc e.val n = BitVec.ofInt 64 ((s.acc e.val n).toInt + total) ∧
        (∀ k, k ≠ n → t.acc e.val k = s.acc e.val k) ∧ (∀ r, t.w e.val r = s.w e.val r) ∧ (t.engine e.val).pc = g.pc + 2 ∧
        (t.engine e.val).used = g.used + 1 + 2 * reps ∧ (∀ e', e' ≠ e.val → t.engine e' = s.engine e') ∧ t.mem = s.mem ∧ t.regs = s.regs) ∧
    (s.LaneReady e.val 1 → rsrc = false → cnt ≠ 0 → rep false = s.laneAborts e.val 1 1 ∧ rep true = s.laneAborts e.val 1 1) ∧
    (∀ word, s.LaneReady e.val 1 → g.pc + 1 < 4095 → u.laneFetch e.val (g.pc + 1) = (false, word, u) → (rsrc = false → cnt = 0) →
      word / 2 ^ 26 ∈ [0x0B, 0x0C, 0x0D, 0x0E, 0x15, 0x1A, 0x1B] → word < 2 ^ 32 → rep false = (u.laneAbort e.val 1 g.pc (s.laneFirst e.val)).ends) ∧
    (∀ word, s.LaneReady e.val 1 → g.pc + 1 < 4095 → (rsrc = false → cnt = 0) → g.budget = g.used + 1 →
      ∀ v, u.laneFetch e.val (g.pc + 1) = (true, word, v) → rep false = (v.budgetStop e.val (g.pc + 1)).ends)

/-- R362 for opcodes 0x01 and 0x02: 64-bit operands, and which flags each instruction writes. What writing flags and s0 does has SupFlagsAndZero. -/
def Obligations.SupInteger : Prop :=
  ∀ (s : State) (k : Fin 10) (rd ra rb : BitVec 5), s.SupReady k.val →
    let a := s.sreg k.val ra
    let b := s.sreg k.val rb
    let gives (v : Dword) (f : FlagSet) := s.supDone k.val (((s.core k.val).putS rd.toNat v).setFlags f)
    let same := FlagSet.keep
    let nz (v : Dword) : FlagSet := .nz v.msb (decide (v = 0))
    let addf (v : Dword) : FlagSet := .nzcv ⟨v.msb, decide (v = 0), decide (2 ^ 64 ≤ a.toNat + b.toNat),
      decide (a.toInt + b.toInt < -9223372036854775808 ∨ 9223372036854775807 < a.toInt + b.toInt)⟩
    let subf (v : Dword) : FlagSet := .nzcv ⟨v.msb, decide (v = 0), decide (b.toNat ≤ a.toNat),
      decide (a.toInt - b.toInt < -9223372036854775808 ∨ 9223372036854775807 < a.toInt - b.toInt)⟩
    exec (.add (.sup k) rd ra rb) s = gives (a + b) (addf (a + b)) ∧
    exec (.sub (.sup k) rd ra rb) s = gives (a - b) (subf (a - b)) ∧
    exec (.and (.sup k) rd ra rb) s = gives (a &&& b) (nz (a &&& b)) ∧
    exec (.or (.sup k) rd ra rb) s = gives (a ||| b) (nz (a ||| b)) ∧
    exec (.xor (.sup k) rd ra rb) s = gives (a ^^^ b) (nz (a ^^^ b)) ∧
    exec (.andn (.sup k) rd ra rb) s = gives (a &&& ~~~b) (nz (a &&& ~~~b)) ∧
    exec (.shl (.sup k) rd ra rb) s = gives (a <<< (b.toNat % 64)) (nz (a <<< (b.toNat % 64))) ∧
    exec (.shr (.sup k) rd ra rb) s = gives (a >>> (b.toNat % 64)) (nz (a >>> (b.toNat % 64))) ∧
    exec (.sar (.sup k) rd ra rb) s = gives (a.sshiftRight (b.toNat % 64)) (nz (a.sshiftRight (b.toNat % 64))) ∧
    exec (.ror (.sup k) rd ra rb) s = gives (a.rotateRight (b.toNat % 64)) (nz (a.rotateRight (b.toNat % 64))) ∧
    exec (.adds (.sup k) rd ra rb) s = gives (BitVec.ofInt 64 (max (-9223372036854775808) (min 9223372036854775807 (a.toInt + b.toInt)))) (addf (BitVec.ofInt 64 (max (-9223372036854775808) (min 9223372036854775807 (a.toInt + b.toInt))))) ∧
    exec (.subs (.sup k) rd ra rb) s = gives (BitVec.ofInt 64 (max (-9223372036854775808) (min 9223372036854775807 (a.toInt - b.toInt)))) (subf (BitVec.ofInt 64 (max (-9223372036854775808) (min 9223372036854775807 (a.toInt - b.toInt))))) ∧
    exec (.min (.sup k) rd ra rb) s = gives (if a.toInt ≤ b.toInt then a else b) same ∧
    exec (.max (.sup k) rd ra rb) s = gives (if a.toInt ≤ b.toInt then b else a) same ∧
    exec (.minu (.sup k) rd ra rb) s = gives (if a.toNat ≤ b.toNat then a else b) same ∧
    exec (.maxu (.sup k) rd ra rb) s = gives (if a.toNat ≤ b.toNat then b else a) same ∧
    exec (.adds15 (.sup k) rd ra rb) s = gives (BitVec.ofInt 64 (max (-32768) (min 32767 ((a.setWidth 16).toInt + (b.setWidth 16).toInt)))) same ∧
    exec (.subs15 (.sup k) rd ra rb) s = gives (BitVec.ofInt 64 (max (-32768) (min 32767 ((a.setWidth 16).toInt - (b.setWidth 16).toInt)))) same ∧
    exec (.mul (.sup k) rd ra rb) s = gives (a * b) same ∧
    exec (.mulh (.sup k) rd ra rb) s = gives (BitVec.ofInt 64 (a.toInt * b.toInt / 2 ^ 64)) same ∧
    exec (.mulhu (.sup k) rd ra rb) s = gives (BitVec.ofNat 64 (a.toNat * b.toNat / 2 ^ 64)) same ∧
    exec (.qmul15 (.sup k) rd ra rb) s = gives (BitVec.ofInt 64 (max (-32768) (min 32767 (((a.setWidth 16).toInt * (b.setWidth 16).toInt + 0x4000) / 32768)))) same ∧
    exec (.qmul31 (.sup k) rd ra rb) s = gives (BitVec.ofInt 64 (max (-2147483648) (min 2147483647 (((a.setWidth 32).toInt * (b.setWidth 32).toInt + 1073741824) / 2147483648)))) same ∧
    exec (.mov (.sup k) rd ra) s = gives (a) same ∧
    exec (.neg (.sup k) rd ra) s = gives (-a) same ∧
    exec (.abs (.sup k) rd ra) s = gives (if a = 0x8000000000000000#64 then 0x7FFFFFFFFFFFFFFF#64 else if a.toInt < 0 then -a else a) same ∧
    exec (.sat15 (.sup k) rd ra) s = gives (BitVec.ofInt 64 (max (-32768) (min 32767 (a.toInt)))) same ∧
    (∀ n : Nat, (a = 0 ∧ n = 64 ∨ n < 64 ∧ 2 ^ (63 - n) ≤ a.toNat ∧ a.toNat < 2 ^ (64 - n)) →
      exec (.clz (.sup k) rd ra) s = gives (BitVec.ofNat 64 n) same) ∧
    (∀ sh : BitVec 6,
      exec (.shli (.sup k) rd ra sh) s = gives (a <<< sh.toNat) (nz (a <<< sh.toNat)) ∧
      exec (.shri (.sup k) rd ra sh) s = gives (a >>> sh.toNat) (nz (a >>> sh.toNat)) ∧
      exec (.sari (.sup k) rd ra sh) s = gives (a.sshiftRight sh.toNat) (nz (a.sshiftRight sh.toNat)) ∧
      exec (.rori (.sup k) rd ra sh) s = gives (a.rotateRight sh.toNat) (nz (a.rotateRight sh.toNat))) ∧
    exec (.nop (.sup k)) s = s.supDone k.val (s.core k.val)

/-- R359 for s0 and R361 for the flags and RING. The widths, PC and the other system registers of R359 are those of the model's registers. -/
def Obligations.SupFlagsAndZero : Prop :=
  (∀ (c : Sup) (n z cc v : Bool), c.pst < 2 ^ 64 →
      let t := c.setFlags (.nzcv ⟨n, z, cc, v⟩)
      let u := c.setFlags (.nz n z)
      bit 4 t.pst = n ∧ bit 5 t.pst = z ∧ bit 6 t.pst = cc ∧ bit 7 t.pst = v ∧ (∀ i, i < 4 ∨ 7 < i → bit i t.pst = bit i c.pst) ∧
      bit 4 u.pst = n ∧ bit 5 u.pst = z ∧ (∀ i, i < 4 ∨ 5 < i → bit i u.pst = bit i c.pst) ∧ c.setFlags .keep = c) ∧
    (∀ (c : Sup) (r q : Nat) (v : Dword), c.getS 0 = 0 ∧ c.putS 0 v = c ∧ (r ≠ 0 → (c.putS r v).getS r = v) ∧
      (q ≠ r → (c.putS r v).getS q = c.getS q)) ∧
    (∀ (c : Sup) (v : Dword), ∃ d, c.sysWrite 0 v = some d ∧ d.ring = c.ring ∧ d.s = c.s)

/-- R362 for opcode 0x04. -/
def Obligations.SupFloat : Prop :=
  ∀ (s : State) (k : Fin 10) (rd ra rb rc : BitVec 5), s.SupReady k.val →
    let a := s.sreg k.val ra
    let b := s.sreg k.val rb
    let gives (v : Dword) (f : FlagSet) := s.supDone k.val (((s.core k.val).putS rd.toNat v).setFlags f)
    let x := a.setWidth 32
    let y := b.setWidth 32
    let z := (s.sreg k.val rc).setWidth 32
    let low (v : Word) := gives (v.setWidth 64) .keep
    exec (.fadd (.sup k) rd ra rb) s = low (fAdd false x y) ∧
    exec (.fsub (.sup k) rd ra rb) s = low (fAdd true x y) ∧
    exec (.fmul (.sup k) rd ra rb) s = low (fMul x y) ∧
    exec (.fdiv (.sup k) rd ra rb) s = low (fDiv x y) ∧
    exec (.fmin (.sup k) rd ra rb) s = low (fMin x y) ∧
    exec (.fmax (.sup k) rd ra rb) s = low (fMax x y) ∧
    exec (.fsqrt (.sup k) rd ra) s = low (fSqrt x) ∧
    exec (.fabs (.sup k) rd ra) s = low (fAbs x) ∧
    exec (.fneg (.sup k) rd ra) s = low (fNeg x) ∧
    exec (.fcvtif (.sup k) rd ra) s = low (fFromInt 0 x) ∧
    exec (.fcvtfi (.sup k) rd ra) s = low (BitVec.ofInt 32 (fToInt 0 x)) ∧
    exec (.fcvtqf (.sup k) rd ra) s = low (fFromInt (-31) x) ∧
    exec (.fcvtfq (.sup k) rd ra) s = low (BitVec.ofInt 32 (fToInt 31 x)) ∧
    exec (.fma (.sup k) rd ra rb rc) s = low (fFma false x y z) ∧
    exec (.fms (.sup k) rd ra rb rc) s = low (fFma true x y z)

/-- R362 for opcodes 0x05 to 0x0A and 0x23, with the values of R62. -/
def Obligations.SupImmediate : Prop :=
  ∀ (s : State) (k : Fin 10) (rd ra : BitVec 5) (imm : BitVec 16) (hw : BitVec 2), s.SupReady k.val →
    let a := s.sreg k.val ra
    let i := imm.signExtend 64
    let gives (v : Dword) (f : FlagSet) := s.supDone k.val (((s.core k.val).putS rd.toNat v).setFlags f)
    exec (.addi (.sup k) rd ra imm) s = gives (a + i) (.nzcv ⟨(a + i).msb, decide (a + i = 0), decide (2 ^ 64 ≤ a.toNat + i.toNat),
      decide (a.toInt + i.toInt < -9223372036854775808 ∨ 9223372036854775807 < a.toInt + i.toInt)⟩) ∧
    exec (.andi (.sup k) rd ra imm) s = gives (a &&& imm.setWidth 64) .keep ∧
    exec (.ori (.sup k) rd ra imm) s = gives (a ||| imm.setWidth 64) .keep ∧
    exec (.xori (.sup k) rd ra imm) s = gives (a ^^^ imm.setWidth 64) .keep ∧
    exec (.movi (.sup k) rd imm) s = gives i .keep ∧
    exec (.movhi (.sup k) rd imm) s = gives ((imm.setWidth 32 <<< 16).signExtend 64) .keep ∧
    ∃ v, exec (.movk k rd imm hw) s = gives v .keep ∧ v.toNat / 2 ^ (16 * hw.toNat) % 2 ^ 16 = imm.toNat ∧
      (∀ h : Nat, h < 4 → h ≠ hw.toNat → v.toNat / 2 ^ (16 * h) % 2 ^ 16 = (s.sreg k.val rd).toNat / 2 ^ (16 * h) % 2 ^ 16)

/-- R362: the conditions on 64-bit registers, on [31:0] for BFLT and BFGE, and on the flags for BC. bpBranch is the predictor of R367: where an entry matches, a free value says whether it predicts aright; that a taken branch without a match is mispredicted is the model's choice. Where it rests on choices of the model: log entry 23. -/
def Obligations.SupBranch : Prop :=
  ∀ (s : State) (k : Fin 10) (ra rb simm : BitVec 5) (off : BitVec 13) (cond : BitVec 4) (far : BitVec 22), s.SupReady k.val →
    let c := s.core k.val
    let a := s.sreg k.val ra
    let b := s.sreg k.val rb
    let i := simm.signExtend 64
    let n := bit 4 c.pst = true
    let z := bit 5 c.pst = true
    let cc := bit 6 c.pst = true
    let v := bit 7 c.pst = true
    let target (d : Int) := ((c.pc + 4 * d) % 2 ^ 40).toNat
    let told (d : Int) (b : Bool) := s.bpBranch k.val (target d) b
    let goes (d : Int) (taken : Prop) (x : Instr) : Prop :=
      (taken → exec x s = .next (((told d true).setCore k.val { (told d true).core k.val with pc := target d }).retires k.val)) ∧
      (¬ taken → exec x s = .next (((told d false).setCore k.val { (told d false).core k.val with pc := (c.pc + 4) % 2 ^ 40 }).retires k.val))
    let bc (p : Prop) (code : Nat) : Prop := (cond.toNat = code → goes far.toInt p (.bc k cond far)) ∧
      (cond.toNat = code + 8 → goes far.toInt (¬ p) (.bc k cond far))
    goes off.toInt (a = b) (.beq (.sup k) ra rb off) ∧
    goes off.toInt (a ≠ b) (.bne (.sup k) ra rb off) ∧
    goes off.toInt (a.toInt < b.toInt) (.blt (.sup k) ra rb off) ∧
    goes off.toInt (b.toInt ≤ a.toInt) (.bge (.sup k) ra rb off) ∧
    goes off.toInt (a.toNat < b.toNat) (.bltu (.sup k) ra rb off) ∧
    goes off.toInt (b.toNat ≤ a.toNat) (.bgeu (.sup k) ra rb off) ∧
    goes off.toInt (fLt (a.setWidth 32) (b.setWidth 32) = true) (.bflt (.sup k) ra rb off) ∧
    goes off.toInt (fGe (a.setWidth 32) (b.setWidth 32) = true) (.bfge (.sup k) ra rb off) ∧
    goes off.toInt (a = i) (.beqi (.sup k) ra simm off) ∧
    goes off.toInt (a ≠ i) (.bnei (.sup k) ra simm off) ∧
    goes off.toInt (a.toInt < i.toInt) (.blti (.sup k) ra simm off) ∧
    goes off.toInt (i.toInt ≤ a.toInt) (.bgei (.sup k) ra simm off) ∧
    goes off.toInt (a.toNat < i.toNat) (.bltui (.sup k) ra simm off) ∧
    goes off.toInt (i.toNat ≤ a.toNat) (.bgeui (.sup k) ra simm off) ∧
    bc z 0 ∧ bc cc 1 ∧ bc n 2 ∧ bc v 3 ∧ bc (cc ∧ ¬ z) 4 ∧ bc (n ↔ v) 5 ∧ bc (¬ z ∧ (n ↔ v)) 6 ∧
    (cond = 7 → goes far.toInt True (.bc k cond far)) ∧ (cond = 15 → exec (.bc k cond far) s = s.supTraps k.val 0 0 0) ∧
    (∀ d b, (∃ btb ras, (told d b).core k.val = { c with btb := btb, ras := ras }) ∧ (∀ j, j ≠ k.val → (told d b).core j = s.core j) ∧
      (∀ y, (told d b).byte y = s.byte y) ∧ (∀ e, (told d b).engine e = s.engine e) ∧
      (∀ y j, y ≠ .SUP_BPMISS → (told d b).reg y j = s.reg y j)) ∧
    (c.btb.all (fun x => x.1 != c.key || x.2.1 != c.pc) = true →
      (∀ d, told d false = { s with free := s.free + 1 }) ∧
      (∀ d, (told d true).fld F.SUP_BPMISS_COUNT k.val = min 65535 (s.fld F.SUP_BPMISS_COUNT k.val + 1)))

/-- R362 for opcodes 0x0E and 0x21, and the return-address predictor of R367; that the predictor may hold anything after a wrong prediction is the model's choice. Where it rests on choices of the model: log entry 23. -/
def Obligations.SupCalls : Prop :=
  ∀ (s : State) (k : Fin 10) (ra : BitVec 5) (far : BitVec 26), s.SupReady k.val →
    let c := s.core k.val
    let a := (s.sreg k.val ra).toNat
    let back := (s.sreg k.val 31).toNat
    let ret := (c.pc + 4) % 2 ^ 40
    let called (t : Nat) := { c.putS 31 (BitVec.ofNat 64 ret) with ras := (ret :: c.ras).take 16, pc := t }
    exec (.calls k far) s = .next ((s.setCore k.val (called ((c.pc + 4 * far.toInt) % 2 ^ 40).toNat)).retires k.val) ∧
    (a % 4 = 0 → exec (.callr (.sup k) ra) s = .next ((s.setCore k.val (called (a % 2 ^ 40))).retires k.val) ∧
      exec (.jr (.sup k) ra) s = .next ((s.setCore k.val { c with pc := a % 2 ^ 40 }).retires k.val)) ∧
    (a % 4 ≠ 0 → exec (.callr (.sup k) ra) s = s.supTraps k.val 4 0 a ∧ exec (.jr (.sup k) ra) s = s.supTraps k.val 4 0 a) ∧
    (back % 4 = 0 →
      (c.ras.head? = some (back % 2 ^ 40) → exec (.ret (.sup k)) s = .next ((s.setCore k.val { c with ras := c.ras.tail, pc := back % 2 ^ 40 }).retires k.val)) ∧
      (c.ras.head? ≠ some (back % 2 ^ 40) → ∃ t ras, exec (.ret (.sup k)) s = .next t ∧ t.core k.val = { c with ras := ras, pc := back % 2 ^ 40, retired := s.nextCount k.val } ∧
        ras.length = 16 ∧ t.fld F.SUP_BPMISS_COUNT k.val = min 65535 (s.fld F.SUP_BPMISS_COUNT k.val + 1) ∧
        (∀ j, j ≠ k.val → t.core j = s.core j) ∧ (∀ y, t.byte y = s.byte y) ∧ (∀ y j, y ≠ .SUP_BPMISS → t.reg y j = s.reg y j))) ∧
    (back % 4 ≠ 0 → exec (.ret (.sup k)) s = s.supTraps k.val 4 0 back)

/-- R362 for opcodes 0x0F and 0x10, R366 and R370. What a store does when it drains has CoreComplex. Where it rests on choices of the model: log entries 22, 95, 101. -/
def Obligations.SupMemory : Prop :=
  ∀ (s : State) (k : Fin 10) (r ra : BitVec 5) (simm : BitVec 13), s.SupReady k.val →
    let c := s.core k.val
    let a := (((s.sreg k.val ra).toNat + simm.toInt) % 2 ^ 64).toNat
    let near := isCoreRam a = true ∧ (c.device a = false ∨ c.sb = [])
    let faults (acc : Acc) (n : Nat) (x : Instr) : Prop :=
      (2 ^ 40 ≤ a ∨ c.allowed a acc = false → exec x s = s.supTraps k.val 3 0 a) ∧
      (a < 2 ^ 40 → c.allowed a acc = true → a % n ≠ 0 → exec x s = s.supTraps k.val 4 0 a)
    let loads (n : Nat) (f : Nat → Dword) (x : Instr) : Prop := faults .read n x ∧
      (near → c.allowed a .read = true → a % n = 0 → c.overlaps a n = false → s.underWipe a = false → s.chkAt a = .valid →
        exec x s = s.supDone k.val (c.putS r.toNat (f (s.peek a n))))
    let stores (n : Nat) (x : Instr) : Prop := faults .write n x ∧
      (a < 2 ^ 40 → c.allowed a .write = true → a % n = 0 → c.sbUsed + 1 ≤ 8 →
        exec x s = s.supDone k.val { c with sb := c.sb ++ [⟨a, n, (s.sreg k.val r).toNat % 2 ^ (8 * n), c.pc, none⟩] })
    loads 8 (fun v => BitVec.ofNat 64 v) (.ldw (.sup k) true r ra simm) ∧
    loads 4 (fun v => (BitVec.ofNat 32 v).signExtend 64) (.ldw (.sup k) false r ra simm) ∧
    loads 2 (fun v => (BitVec.ofNat 16 v).signExtend 64) (.ldh (.sup k) r ra simm) ∧
    loads 2 (fun v => BitVec.ofNat 64 v) (.ldhu (.sup k) r ra simm) ∧
    loads 1 (fun v => (BitVec.ofNat 8 v).signExtend 64) (.ldb (.sup k) r ra simm) ∧
    loads 1 (fun v => BitVec.ofNat 64 v) (.ldbu (.sup k) r ra simm) ∧
    stores 8 (.stw (.sup k) true r ra simm) ∧
    stores 4 (.stw (.sup k) false r ra simm) ∧
    stores 2 (.sth (.sup k) r ra simm) ∧
    stores 1 (.stb (.sup k) r ra simm)

/-- R73 on a supervisor core (R362) and R383. Where it rests on choices of the model: log entry 95. -/
def Obligations.SupCapability : Prop :=
  ∀ (s : State) (k : Fin 10) (cd cs : BitVec 3) (ra rb : BitVec 5), s.SupReady k.val →
    let g := s.core k.val
    let c := g.getC cs.toNat
    let a := (s.sreg k.val ra).toNat
    let b := (s.sreg k.val rb).toNat
    let near := isCoreRam a = true ∧ (g.device a = false ∨ g.sb = [])
    let gives (v : Cap) := s.supDone k.val (g.putC cd.toNat v)
    let made : Cap := ⟨true, BitVec.ofNat 128 (a + b * 2 ^ 64)⟩
    exec (.cmov (.sup k) cd cs) s = gives c ∧ exec (.cclr (.sup k) cd) s = gives { g.getC cd.toNat with tag := false } ∧
    (c.tag = true → exec (.cperm (.sup k) cd cs ra) s = gives (c.withBits 80 8 (c.perms &&& (a % 256)))) ∧
    (c.tag = false → exec (.cperm (.sup k) cd cs ra) s = s.supTraps k.val 9 0 0) ∧
    (c.tag = true → a + b ≤ c.len → exec (.cnarrow (.sup k) cd cs ra rb) s = gives ((c.withBits 0 40 (c.base + a)).withBits 40 40 b)) ∧
    (c.tag = false ∨ c.len < a + b → exec (.cnarrow (.sup k) cd cs ra rb) s = s.supTraps k.val 9 0 0) ∧
    (near → g.allowed a .read = true → a % 16 = 0 → g.overlaps a 16 = false → s.underWipe a = false → s.chkAt a = .valid → s.chkAt (a + 8) = .valid →
      exec (.cld (.sup k) cd ra) s = gives ⟨s.tagAt a, BitVec.ofNat 128 (s.peek a 16)⟩) ∧
    (a < 2 ^ 40 → g.allowed a .write = true → a % 16 = 0 → c.tag = true → g.sbUsed + 2 ≤ 8 →
      exec (.cst (.sup k) cs ra) s = s.supDone k.val { g with sb := g.sb ++ [⟨a, 16, c.val.toNat, g.pc, some c⟩] }) ∧
    (2 ^ 40 ≤ a ∨ g.allowed a .read = false → exec (.cld (.sup k) cd ra) s = s.supTraps k.val 3 0 a) ∧
    (2 ^ 40 ≤ a ∨ g.allowed a .write = false → exec (.cst (.sup k) cs ra) s = s.supTraps k.val 3 0 a) ∧
    (g.ring = 0 → made.reserved = false → exec (.cmint k cd ra rb) s = gives made) ∧
    (g.ring = 0 → made.reserved = true → exec (.cmint k cd ra rb) s = gives { made with tag := false }) ∧
    (g.ring ≠ 0 → exec (.cmint k cd ra rb) s = s.supTraps k.val 1 0 0)

/-- R360, R361 and R363. The IACK register has CoreComplex; a WRSR of TSBR draws a new prediction key (R367); that a WRSR leaves the reserved bits that R361 and R366 name at 0 shows in the values. Where it rests on choices of the model: log entry 24. -/
def Obligations.SupSystem : Prop :=
  ∀ (s : State) (k : Fin 10) (r : BitVec 5) (sr : BitVec 10), s.SupReady k.val →
    let c := s.core k.val
    let v := (s.sreg k.val r).toNat
    let rgn (t : Tab Dword) (n : Nat) := Tab.look (fun _ => 0) t n
    let reads (n x : Nat) : Prop := sr.toNat = n →
      (c.ring ≤ 1 → exec (.rdsr k r sr) s = s.supDone k.val (c.putS r.toNat (BitVec.ofNat 64 x))) ∧
      (1 < c.ring → exec (.rdsr k r sr) s = s.supTraps k.val 1 0 0)
    let writes (n : Nat) (d : Sup) : Prop := sr.toNat = n →
      (c.ring = 0 → exec (.wrsr k r sr) s = s.supDone k.val d) ∧ (c.ring ≠ 0 → exec (.wrsr k r sr) s = s.supTraps k.val 1 0 0)
    reads 0 c.pst ∧ reads 1 c.tsbr ∧ reads 2 c.gtbr ∧ reads 3 c.gtlim ∧ reads 4 c.vtbr ∧
    (∀ i < 16, reads (16 + i) (rgn c.rgnb i).toNat ∧ reads (32 + i) (rgn c.rgnl i).toNat) ∧
    (c.xring = [] → reads 5 0) ∧ (∀ top rest, c.xring = top :: rest → reads 5 (top + 4 * c.xring.length)) ∧
    (∀ lg, s.logicalCore k.val = some lg → reads 6 (k.val + 16 * lg + (if s.pairMode (lg / 2) = 0 then 128 else 0))) ∧
    writes 1 { c with tsbr := v / 512 * 512, key := c.key + 1 } ∧ writes 2 { c with gtbr := v / 16 * 16 } ∧
    writes 3 { c with gtlim := v } ∧ writes 4 { c with vtbr := v / 16 * 16 } ∧
    (∀ i < 16, writes (16 + i) { c with rgnb := Tab.put (fun _ => 0) c.rgnb i (BitVec.ofNat 64 (v % 512 + v / 4096 % 2 ^ 28 * 4096)) } ∧
      writes (32 + i) { c with rgnl := Tab.put (fun _ => 0) c.rgnl i (BitVec.ofNat 64 (v / 4096 % 2 ^ 28 * 4096)) }) ∧
    (5 ≤ sr.toNat ∧ sr.toNat ≤ 15 ∨ 48 ≤ sr.toNat → exec (.wrsr k r sr) s = s.supTraps k.val 0 0 0) ∧
    (8 ≤ sr.toNat ∧ sr.toNat ≤ 15 ∨ 48 ≤ sr.toNat → exec (.rdsr k r sr) s = s.supTraps k.val 0 0 0) ∧
    exec (.time (.sup k) r) s = s.supDone k.val (c.putS r.toNat (BitVec.ofNat 64 s.now)) ∧
    (c.ring ≤ 1 → exec (.wait k) s = .next (((s.setFld F.SUP_STAT_STATE k.val 1).setCore k.val { c with pc := (c.pc + 4) % 2 ^ 40 }).retires k.val)) ∧
    (1 < c.ring → exec (.wait k) s = s.supTraps k.val 1 0 0) ∧
    (c.sb = [] → exec (.sync k) s = s.supDone k.val c ∧ exec (.isync k) s = s.supDone k.val c)

/-- The opcodes 0x03, 0x0D, 0x11 to 0x14 and 0x16 to 0x19 of R362 and the funcs of 0x1A that R363 does not list, the register rule of R372, and TRAP of R363 and R384. Where it rests on choices of the model: log entry 111. -/
def Obligations.SupIllegal : Prop :=
  ∀ (s : State) (k : Fin 10) (i : Instr), s.SupReady k.val →
    (i.core = some (.sup k) → i ∈ [Instr.endTask (.sup k), .ifence (.sup k)] ∨
        (∃ n ra rb, i = .mac (.sup k) n ra rb ∨ i = .msu (.sup k) n ra rb ∨ i = .macs (.sup k) n ra rb ∨ i = .msus (.sup k) n ra rb) ∨
        (∃ n ra sh, i = .aclr (.sup k) n ∨ i = .ald (.sup k) n ra sh ∨ i = .ard (.sup k) ra n sh ∨ i = .ardl (.sup k) ra n sh ∨ i = .ardh (.sup k) ra n) ∨
        (∃ rd ra simm, i = .lds (.sup k) rd ra simm ∨ i = .ldsh (.sup k) rd ra simm ∨ i = .ldshu (.sup k) rd ra simm ∨ i = .ldsb (.sup k) rd ra simm ∨
          i = .ldsbu (.sup k) rd ra simm ∨ i = .ldc (.sup k) rd ra simm ∨ i = .ldch (.sup k) rd ra simm ∨ i = .ldchu (.sup k) rd ra simm ∨
          i = .ldcb (.sup k) rd ra simm ∨ i = .ldcbu (.sup k) rd ra simm ∨ i = .sts (.sup k) rd ra simm ∨ i = .stsh (.sup k) rd ra simm ∨
          i = .stsb (.sup k) rd ra simm ∨ i = .stc (.sup k) rd ra simm ∨ i = .stch (.sup k) rd ra simm ∨ i = .stcb (.sup k) rd ra simm) ∨
        (∃ target, i = .call (.sup k) target) ∨ (∃ rd port, i = .smp (.sup k) rd port) ∨ (∃ cap x f rs rt, i = .edge (.sup k) cap x f rs rt) ∨
        (∃ rd ra cap n d, i = .look (.sup k) rd ra cap ∨ i = .interp2 (.sup k) rd ra cap ∨ i = .interp3 (.sup k) rd ra cap ∨
          i = .walk (.sup k) rd ra cap n d) ∨
        (∃ r x, i = .send (.sup k) r x ∨ i = .recv (.sup k) r x) ∨ (∃ rd n, i = .tin (.sup k) rd n) ∨ (∃ cap, i = .sig (.sup k) cap) →
      exec i s = s.supTraps k.val 0 0 0) ∧
    (∀ rd ra rb upTo, blockLegal rd ra rb = false → exec (.copyb k rd ra rb upTo) s = s.supTraps k.val 0 0 0 ∧
      exec (.fillb k rd ra rb upTo) s = s.supTraps k.val 0 0 0 ∧ exec (.crcb k rd ra rb upTo) s = s.supTraps k.val 0 0 0) ∧
    (∀ n, exec (.trap k n) s = ((s.retires k.val).supException k.val 0x0C n.toNat ((s.core k.val).pc + 4) 0 none).ends)

/-- R372, and the saved PC of R374 for the first element. upTo is the element boundary at which an interrupt may stop the instruction. Where it rests on choices of the model: log entries 95, 100. -/
def Obligations.SupBlock : Prop :=
  ∀ (s : State) (k : Fin 10) (rd ra rb : BitVec 5) (upTo : Nat), s.SupReady k.val →
    let c := s.core k.val
    let d := (s.sreg k.val rd).toNat
    let a := (s.sreg k.val ra).toNat
    let n := (s.sreg k.val rb).toNat
    let readable (a m : Nat) := isCoreRam a = true ∧ (c.device a = false ∨ c.sb = []) ∧ c.allowed a .read = true ∧ c.overlaps a m = false ∧ s.underWipe a = false ∧ s.chkAt a = .valid
    let put (r : BitVec 5) (v : Nat) (g : Sup) := g.putS r.toNat (BitVec.ofNat 64 v)
    let stores (v : Nat) (g : Sup) (x : Instr) : Prop := ∃ t, exec x s = .next t ∧ t.peek d 8 = v ∧
      t.core k.val = { g with pc := (c.pc + 4) % 2 ^ 40, retired := s.nextCount k.val } ∧ (∀ b, b < d ∨ d + 8 ≤ b → t.byte b = s.byte b) ∧
      (∀ y i, t.reg y i = s.reg y i) ∧ (∀ j, j ≠ k.val → t.core j = s.core j)
    (blockLegal rd ra rb = true →
      (n = 0 → exec (.copyb k rd ra rb upTo) s = s.supDone k.val c ∧ exec (.fillb k rd ra rb upTo) s = s.supDone k.val c ∧
        exec (.crcb k rd ra rb upTo) s = s.supDone k.val c) ∧
      (n ≠ 0 → n ≤ upTo → (∀ i < n, readable (a + i) 1) →
        exec (.crcb k rd ra rb upTo) s = s.supDone k.val (put rb 0 (put ra (a + n) (c.putS rd.toNat
          ((crcBytes ((s.sreg k.val rd).setWidth 32) (s.bytes a n)).setWidth 64))))) ∧
      (n = 8 → 1 ≤ upTo → d % 8 = 0 → isCoreRam d = true → c.allowed d .write = true → c.sb = [] → s.underWipe d = false →
        s.flag F.MEM_INJ_ARM 0 = false →
        stores a (put rb 0 (put rd (d + 8) c)) (.fillb k rd ra rb upTo) ∧
        (a % 8 = 0 → readable a 8 →
          stores (s.peek a 8) (put rb 0 (put ra (a + 8) (put rd (d + 8) c))) (.copyb k rd ra rb upTo))) ∧
      (n ≠ 0 → 1 ≤ upTo → 2 ^ 40 ≤ d ∨ c.allowed d .write = false →
        exec (.fillb k rd ra rb upTo) s = s.supTraps k.val 3 0 d ∧ exec (.copyb k rd ra rb upTo) s = s.supTraps k.val 3 0 d)) ∧
    (0x20000000 ≤ a → a < 0x21000000 → c.allowed a .read = true → c.allowed a .write = true → a % 8 = 0 → c.sb = [] →
      s.underWipe a = false → s.chkAt a = .valid →
      (s.peek a 8 ≠ d → exec (.cas k rd ra rb) s = s.supDone k.val (put rd (s.peek a 8) c)) ∧
      (s.peek a 8 = d → s.flag F.MEM_INJ_ARM 0 = false → ∃ t, exec (.cas k rd ra rb) s = .next t ∧ t.peek a 8 = n ∧
        t.core k.val = { put rd d c with pc := (c.pc + 4) % 2 ^ 40, retired := s.nextCount k.val } ∧ (∀ b, b < a ∨ a + 8 ≤ b → t.byte b = s.byte b))) ∧
    (a < 0x20000000 ∨ 0x21000000 ≤ a → exec (.cas k rd ra rb) s = s.supTraps k.val 3 0 a)

/-- R373: that each prefix completes, whatever its body, and what it computes over a body whose repetitions add up. AINC acts on a load or store body, whose accesses SupMemory states. Each of REPN, REPI completes: in every state and for all operands that meet the conditions of a clause here, exec answers a next state, the one that the clause gives. Where it rests on choices of the model: log entries 95, 99. -/
def Obligations.SupRepeat : Prop :=
  ∀ (s : State) (k : Fin 10) (rd cnt : BitVec 5) (imm : BitVec 16) (rsrc : Bool) (nm1 : BitVec 6) (upTo word : Nat), s.SupReady k.val →
    let c := s.core k.val
    let body := (c.pc + 4) % 2 ^ 40
    let u := s.setCore k.val c
    let n := (s.sreg k.val cnt).toNat
    let sum (m : Nat) : Dword := s.sreg k.val rd + BitVec.ofNat 64 m * imm.signExtend 64
    let goes (t : State) := ((t.setCore k.val { t.core k.val with pc := ((t.core k.val).pc + 8) % 2 ^ 40 }).retires k.val).ends
    c.rep = 0 → c.sb = [] → u.supFetch k.val body = (.ok (word, false), u) →
    (∀ ainc i f, decodeSupBody (.sup k) word = some i → supBodyOf k.val i = some f →
      (supBase i = none →
        (∃ g, exec (.repn k rsrc ainc cnt nm1) s = .next (s.setCore k.val g) ∧ g.pc = (c.pc + 8) % 2 ^ 40 ∧
          (∀ r, r ≠ word / 2 ^ 21 % 32 → g.getS r = c.getS r) ∧ g.cap = c.cap ∧ g.sb = c.sb ∧ g.ring = c.ring) ∧
        (cnt.toNat ≠ word / 2 ^ 21 % 32 → n ≤ upTo → ∃ g, exec (.repi k ainc cnt upTo) s = .next (s.setCore k.val g) ∧
          g.pc = (c.pc + 8) % 2 ^ 40 ∧ g.getS cnt.toNat = 0 ∧
          (∀ r, r ≠ word / 2 ^ 21 % 32 → r ≠ cnt.toNat → g.getS r = c.getS r) ∧ g.cap = c.cap ∧ g.sb = c.sb ∧ g.ring = c.ring)) ∧
      (∀ (x : Nat → State) (m : Nat) (dec : Option (BitVec 5)), x 0 = u →
        (∀ j < m, ∃ v, f (x j) = .seq v ∧ v.supLeft (v.supDrainAll k.val) k.val = false ∧
          x (j + 1) = (v.supDrainAll k.val).supAfter k.val (if ainc then supBase i else none) dec) →
        (dec = none → m = (if rsrc then min n (nm1.toNat + 1) else nm1.toNat + 1) → exec (.repn k rsrc ainc cnt nm1) s = goes (x m)) ∧
        (dec = some cnt → (∀ j < m, (x j).sreg k.val cnt ≠ 0) → (x m).sreg k.val cnt = 0 → m ≤ upTo →
          exec (.repi k ainc cnt upTo) s = goes (x m)))) ∧
    (BitVec.ofNat 32 word = 5#6 ++ rd ++ rd ++ imm → word < 2 ^ 32 → rd ≠ 0 →
      (∃ g, exec (.repn k rsrc false cnt nm1) s = .next (s.setCore k.val g) ∧ g.pc = (c.pc + 8) % 2 ^ 40 ∧
        g.getS rd.toNat = sum (if rsrc then min n (nm1.toNat + 1) else nm1.toNat + 1) ∧ (∀ r, r ≠ rd.toNat → g.getS r = c.getS r) ∧
        g.cap = c.cap ∧ g.sb = c.sb ∧ g.ring = c.ring) ∧
      (cnt ≠ rd → cnt ≠ 0 → n ≤ upTo → ∃ g, exec (.repi k false cnt upTo) s = .next (s.setCore k.val g) ∧ g.pc = (c.pc + 8) % 2 ^ 40 ∧
        g.getS rd.toNat = sum n ∧ g.getS cnt.toNat = 0 ∧ (∀ r, r ≠ rd.toNat → r ≠ cnt.toNat → g.getS r = c.getS r) ∧
        g.cap = c.cap ∧ g.sb = c.sb ∧ g.ring = c.ring)) ∧
    (word / 2 ^ 26 ∈ [0x0B, 0x0C, 0x0D, 0x0E, 0x15, 0x1A, 0x1B, 0x20, 0x21, 0x22, 0x23] → word < 2 ^ 32 →
      exec (.repn k rsrc false cnt nm1) s = u.supTraps k.val 0 0 0 ∧ exec (.repi k false cnt upTo) s = u.supTraps k.val 0 0 0)

/-- R375, R376 and R378 on a trap; the same entry serves every exception and interrupt. In whose ring the writes of a TSB are judged is the model's choice. Where it rests on choices of the model: log entry 21. -/
def Obligations.SupEntry : Prop :=
  ∀ (s : State) (k : Fin 10) (n : BitVec 15), s.SupReady k.val →
    let c := s.core k.val
    let done := s.retires k.val
    let entry := c.vtbr + 16 * 0x0C
    let near (a : Nat) := isCoreRam a = true ∧ s.underWipe a = false ∧ s.chkAt a = .valid
    (entry % 8 = 0 → near entry → near (entry + 8) →
      done.entryWords k.val entry = (some (s.peek entry 8, s.peek (entry + 8) 8), done)) ∧
    (∀ u, done.entryWords k.val entry = (none, u) → exec (.trap k n) s = (u.doubleFault k.val).ends) ∧
    ∀ w0 w1, done.entryWords k.val entry = (some (w0, w1), done) →
    let handler := w1 / 512 % 2 ^ 31 * 512
    let ring := min (w0 / 2 ^ 40 % 4) c.ring
    let held (a : Nat) := a % 512 = 0 ∧ isCoreRam a = true ∧ c.mayAt ring a .write = true ∧ s.underWipe a = false
    let sound := c.xring.length < 8 ∧ held c.tsbr ∧ held handler
    (sound → ∃ t, exec (.trap k n) s = .next t ∧
      (∀ r < 32, t.peek (c.tsbr + 8 * r) 8 = (c.getS r).toNat) ∧
      t.peek (c.tsbr + 0x100) 8 = (c.pc + 4) % 2 ^ 64 ∧ t.peek (c.tsbr + 0x108) 8 = c.pst % 2 ^ 64 ∧
      t.peek (c.tsbr + 0x110) 8 = 0x0C + n.toNat * 256 ∧ t.peek (c.tsbr + 0x118) 8 = 0 ∧
      (∀ r < 8, t.peek (c.tsbr + 0x140 + 16 * r) 16 = (c.getC r).val.toNat ∧ t.tagAt (c.tsbr + 0x140 + 16 * r) = (c.getC r).tag) ∧
      t.peek (handler + 0x120) 8 = c.tsbr % 2 ^ 64 ∧
      (∀ a, (a < c.tsbr ∨ c.tsbr + 0x1C0 ≤ a) → (a < handler + 0x120 ∨ handler + 0x128 ≤ a) → t.byte a = s.byte a) ∧
      (let d := t.core k.val
       d.xring = c.ring :: c.xring ∧ d.tsbr = handler ∧ d.pc = w0 / 4 % 2 ^ 38 * 4 ∧ d.ring = ring ∧
       bit 8 d.pst = false ∧ d.plvl = c.plvl ∧ d.key = c.key + 1 ∧ (∀ r, d.getS r = c.getS r) ∧ (∀ r, d.getC r = c.getC r) ∧ d.sb = c.sb) ∧
      (∀ j, j ≠ k.val → t.core j = s.core j) ∧ (s.flag F.MEM_INJ_ARM 0 = false → ∀ r i, t.reg r i = s.reg r i)) ∧
    (¬ sound → exec (.trap k n) s = (done.doubleFault k.val).ends)

/-- R377 and R380. Only entry, GATE and RETX change RING: SupInteger to SupSystem leave it. Where it rests on choices of the model: log entries 21, 135. -/
def Obligations.SupGateReturn : Prop :=
  ∀ (s : State) (k : Fin 10) (n : BitVec 15), s.SupReady k.val →
    let c := s.core k.val
    let g := c.gtbr + 16 * n.toNat
    let back := s.peek (c.tsbr + 0x120) 8 % 2 ^ 40
    let pst := s.peek (back + 0x108) 8
    (c.gtlim ≤ n.toNat → exec (.gate k n) s = s.supTraps k.val 0x0A n.toNat 0) ∧
    (n.toNat < c.gtlim → ∀ w0 w1, s.entryWords k.val g = (some (w0, w1), s) →
      let handler := w1 / 512 % 2 ^ 31 * 512
      let refused := bit 44 w0 = false ∨ w0 / 2 ^ 42 % 4 < c.ring ∨ c.ring < w0 / 2 ^ 40 % 4
      (refused → exec (.gate k n) s = s.supTraps k.val 0x0A n.toNat 0) ∧
      (¬ refused → c.xring.length < 8 → s.tsbFails k.val (w0 / 2 ^ 40 % 4) c.tsbr = false → s.tsbFails k.val (w0 / 2 ^ 40 % 4) handler = false →
      ∃ t, exec (.gate k n) s = .next t ∧ t.peek (c.tsbr + 0x100) 8 = (c.pc + 4) % 2 ^ 64 ∧ t.peek (c.tsbr + 0x110) 8 = n.toNat * 256 ∧
        (t.core k.val).ring = w0 / 2 ^ 40 % 4 ∧ (t.core k.val).pc = w0 / 4 % 2 ^ 38 * 4 ∧ (t.core k.val).tsbr = handler ∧
        (t.core k.val).xring = c.ring :: c.xring ∧ (∀ r, (t.core k.val).getS r = c.getS r))) ∧
    let readable (a : Nat) := c.allowed a .read = true ∧ s.underWipe a = false ∧ s.chkAt a = .valid
    (1 < c.ring → exec (.retx k) s = s.supTraps k.val 1 0 0) ∧
    (c.ring ≤ 1 → c.sb = [] →
      (tsbOk c.tsbr = false → exec (.retx k) s = (s.doubleFault k.val).ends) ∧
      (tsbOk c.tsbr = true → c.allowed (c.tsbr + 0x120) .read = false → exec (.retx k) s = s.supTraps k.val 3 0 (c.tsbr + 0x120)) ∧
      (tsbOk c.tsbr = true → readable (c.tsbr + 0x120) → tsbOk back = false → exec (.retx k) s = (s.doubleFault k.val).ends) ∧
      (tsbOk c.tsbr = true → readable (c.tsbr + 0x120) → tsbOk back = true → c.allowed (back + 8) .read = false →
        exec (.retx k) s = s.supTraps k.val 3 0 (back + 8))) ∧
    (c.ring ≤ 1 → c.sb = [] → tsbOk c.tsbr = true → readable (c.tsbr + 0x120) → tsbOk back = true → (∀ a ∈ tsbWords back, readable a) →
      (c.xring = [] → exec (.retx k) s = s.supTraps k.val 0 0 0) ∧
      (∀ top rest, c.xring = top :: rest →
        (pst % 4 < top → exec (.retx k) s = s.supTraps k.val 0x0B 0 0) ∧
        (top ≤ pst % 4 → ∃ d, exec (.retx k) s = .next (s.setCore k.val d) ∧
          d.getS 0 = 0 ∧ (∀ r, 1 ≤ r → r < 32 → (d.getS r).toNat = s.peek (back + 8 * r) 8) ∧
          (∀ r < 8, d.getC r = ⟨s.tagAt (back + 0x140 + 16 * r), BitVec.ofNat 128 (s.peek (back + 0x140 + 16 * r) 16)⟩) ∧
          d.pst = pstOf pst ∧ d.pc = pcOf (s.peek (back + 0x100) 8) ∧ d.tsbr = back ∧ d.xring = rest ∧ d.key = c.key + 1 ∧ d.sb = c.sb)))

/-- The frame of every statement on supervisor cores whose conclusion is supDone. -/
def Obligations.SupFrame : Prop :=
  ∀ (s : State) (k : Nat) (c : Sup) (t : State), s.supDone k c = .next t →
    t.core k = { c with pc := ((s.core k).pc + 4) % 2 ^ 40, retired := if s.sigWindow ≤ c.retired then 1 else c.retired + 1 } ∧ (∀ j, j ≠ k → t.core j = s.core j) ∧
    (∀ a, t.byte a = s.byte a) ∧ (∀ a, t.chkAt a = s.chkAt a) ∧ (∀ a, t.tagAt a = s.tagAt a) ∧ (∀ r i, t.reg r i = s.reg r i) ∧
    (∀ e, t.engine e = s.engine e) ∧ (∀ p, t.ep p = s.ep p) ∧ t.msgs = s.msgs ∧ t.wstores = s.wstores ∧ t.flights = s.flights ∧
    t.now = s.now ∧ t.pending = s.pending

/-- R117, R118, R120 and R124 to R130, with the register state of R35 and the budget stop of R58. A command that is not due leaves the block as it is. Where it rests on choices of the model: log entries 5, 96. -/
def Obligations.SlotTasks : Prop :=
  (∀ s : State, s.Quiet → (s.engClock = false → (∀ (sq : Fin 64) (idx : Fin 4096) (f : Nat), exec (.wakeLead sq idx f) s = .next s) ∧ (∀ (sq : Fin 64) (idx : Fin 4096) (f : Nat), exec (.taskStart sq idx f) s = .next s) ∧ (∀ (e : Fin 512), exec (.budgetExpiry e) s = .next s))) ∧
    ∀ (s : State) (sq : Fin 64) (idx : Fin 4096) (f : Nat), s.Quiet → s.engClock = true →
    let b := s.bank
    let x := s.slot b sq.val idx.val
    let e := 8 * sq.val + slotEngine x
    let p := 8 * sq.val + slotPartner x
    let start := s.sched.origin + (f * s.frameLen b + slotStart x) * 64
    let g := s.engine e
    let reached := s.bankOn = true ∧ s.alive (sqDom sq.val) = true ∧ s.slotReached b sq.val idx.val = true ∧ (slotPsetup x = true → f = 0)
    let due := reached ∧ s.sqHold sq.val = false
    let fits := s.stale sq.val = false ∧ s.serving e = true ∧ (s.chkAt (slotAddr b sq.val idx.val)).bad = false
    let input (n : Nat) := (s.inputBefore b e n start).1
    let since (n : Nat) := (s.inputBefore b e n start).2
    let came (n : Nat) := match Tab.look (fun _ => none) s.tinEc (tinKey b e n) with
      | some r => if r.at_ = start then r.count else 0
      | none => 0
    let gated := slotEvg x = true ∧ input (slotGate x) % 8 = 0
    let ready := due ∧ s.inRun = true ∧ g.woken = true ∧ g.running = false
    (due → s.sched.pend = .none → slotDup x = false → g.running = false → 4 ≤ start →
      ∃ t, exec (.wakeLead sq idx f) s = .next t ∧ t.now = (s.reach (start - 4)).now ∧ (t.engine e).pc = slotEntry x ∧ (t.engine e).woken = true ∧
        (t.engine e).stack = [] ∧ t.w e 0 = BitVec.ofNat 32 start ∧ (∀ r, r ≠ 0 → t.w e r = 0) ∧ (∀ n, t.acc e n = 0) ∧
        (∀ k < 8, (t.engine e).getCap k = s.bankCap b e k) ∧ (t.engine e).local_ = g.local_ ∧ (t.engine e).shared = g.shared ∧
        (∀ e', e' ≠ e → t.engine e' = s.engine e') ∧ t.mem = s.mem ∧ t.regs = s.regs) ∧
    (ready → slotDup x = false → fits → ¬ gated →
      ∃ t, exec (.taskStart sq idx f) s = .next t ∧ t.now = (s.reach start).now ∧
        t.engine e = { g with
          running := true, slot := idx.val, start := start, used := 0, budget := slotBudget x, role := .single, compared := true, hold := [],
          overflow := false, sig := 0xFFFFFFFF#32, latch := none, before := (if g.ran then some g.start else none), ran := true } ∧
        (∀ n < 8, t.peek (tinAddr b e n) 4 % 8 = min 7 (came n) ∧ (came n = 0 → t.peek (tinAddr b e n) 4 = 0) ∧
          t.peek (tinAddr b e n + 0x20) 4 = input n % 2 ^ 18 + (if input n % 8 = 0 then 0 else min (start - since n) 0x3FFF) * 2 ^ 18) ∧
        (∀ e', e' ≠ e → t.engine e' = s.engine e') ∧ t.regs = s.regs ∧ t.chk = s.chk) ∧
    (ready → slotDup x = false → fits → gated → exec (.taskStart sq idx f) s =
      .next (((s.reach start).bump F.SQ_SLOTSTAT_SKIPPED F.SQ_SLOTSTAT_SKIPSAT sq.val).setEng e { g with woken := false })) ∧
    (reached → s.inRun = true → g.woken = true → g.running = false → slotDup x = false → s.sqHold sq.val = true →
      exec (.taskStart sq idx f) s = .next ((s.reach start).setEng e { g with woken := false })) ∧
    (ready → slotDup x = false → ¬ fits → exec (.taskStart sq idx f) s =
      ((((s.reach start).bump F.SQ_SLOTSTAT_MISSED F.SQ_SLOTSTAT_MISSSAT sq.val).raiseEv (sqDom sq.val) 5 sq.val).setEng e { g with woken := false }).ends) ∧
    (ready → slotDup x = true → e ≠ p → (s.engine p).woken = true → (s.engine p).running = false → fits → s.serving p = true → ¬ gated →
      ∃ t, exec (.taskStart sq idx f) s = .next t ∧ (t.engine e).running = true ∧ (t.engine p).running = true ∧ (t.engine e).role = .engine p ∧
        (t.engine p).role = .partner e ∧ (t.engine e).start = start ∧ (t.engine p).start = start ∧ (t.engine p).budget = slotBudget x) ∧
    (∀ (e : Fin 512), let g := s.engine e.val
      let t := g.start + g.budget
      (g.running = false → exec (.budgetExpiry e) s = .next s) ∧
      (g.running = true → g.role = .single → s.flag F.FLT_SRCE_EN (320 + e.val / 8) = false → Tab.look (fun _ => none) s.fltWas (320 + e.val / 8) = none →
        exec (.budgetExpiry e) s = ((((s.reach t).recordAbort e.val 9 g.pc t).bump F.SQ_SLOTSTAT_OVERRUN F.SQ_SLOTSTAT_OVRSAT (e.val / 8)).raiseEv
          (sqDom (e.val / 8)) 4 (e.val / 8) |>.setEng e.val { g with running := false, woken := false }).ends))

/-- R91, R92 and R94 for the store buffer, R83 for the fence, R111 and R614 for window stores. Where it rests on choices of the model: log entries 25, 105, 113. -/
def Obligations.BufferedEffects : Prop :=
  (∀ s : State, s.Quiet → (s.engClock = false → (∀ (e : Fin 512), exec (.localStoreDrain e) s = .next s) ∧ (∀ (e : Fin 512), exec (.sharedStoreDrain e) s = .next s) ∧ (∀ (k : Nat), exec (.windowStoreEffect k) s = .next s))) ∧
    ∀ (s : State) (e : Fin 512) (x : SbEntry) (rest : List SbEntry) (k : Nat), s.Quiet → s.engClock = true →
    let g := s.engine e.val
    let sq := e.val / 8
    let own := sqBase sq + x.phys * 0x10000 + 0x4000 + (x.addr - 0x10000)
    let shared := sqBase sq + 0xC0000 + (x.addr - 0x40000)
    let wrote (t : State) (a : Nat) : Prop := t.regs = s.regs ∧ (∀ i < 8, bit i x.en = true → t.byte (a + i) = BitVec.ofNat 8 (x.data / 2 ^ (8 * i))) ∧
      (∀ b, (∀ i < 8, bit i x.en = true → b ≠ a + i) → t.byte b = s.byte b) ∧ t.tagAt a = false ∧ t.chkAt a = .valid
    (g.local_ = x :: rest → x.en ≠ 0 → 0x10000 ≤ x.addr → x.addr < 0x18000 → x.addr % 8 = 0 → x.phys < 9 → x.cst = false → s.chkAt own = .valid →
      (s.slotInEpoch sq x.phys = true → ∃ t, exec (.localStoreDrain e) s = .next t ∧ t.engine e.val = { g with local_ := rest } ∧
        t.now = (s.reach (x.at_ + 1)).now ∧ wrote t own) ∧
      (s.slotInEpoch sq x.phys = false → exec (.localStoreDrain e) s =
        .next (((s.reach (x.at_ + 1)).setEng e.val { g with local_ := rest }).bump F.SQ_FENCED_COUNT F.SQ_FENCED_SAT sq))) ∧
    (∀ i u, g.nextShared e.val = some (i, u) → g.shared[i]? = some x → x.en ≠ 0 → 0x40000 ≤ x.addr → x.addr < 0x80000 → x.addr % 8 = 0 → x.cst = false →
      s.chkAt shared = .valid →
      (s.slotInEpoch sq x.phys = true → ∃ t, exec (.sharedStoreDrain e) s = .next t ∧
        t.engine e.val = { g with shared := g.shared.eraseIdx i, drained := u } ∧ t.now = (s.reach u).now ∧ wrote t shared) ∧
      (s.slotInEpoch sq x.phys = false → exec (.sharedStoreDrain e) s =
        .next (((s.reach u).setEng e.val { g with shared := g.shared.eraseIdx i, drained := u }).bump F.SQ_FENCED_COUNT F.SQ_FENCED_SAT sq))) ∧
    (∀ w, s.wstores[k]? = some w →
      let s1 := { s with wstores := s.wstores.eraseIdx k }.reach w.due
      (w.epoch ≠ s.sqEpoch (w.eng / 8) → exec (.windowStoreEffect k) s = .next (s1.bump F.SQ_FENCED_COUNT F.SQ_FENCED_SAT (w.eng / 8))) ∧
      (w.epoch = s.sqEpoch (w.eng / 8) → ∀ t, (s1.winWrite w.eng w.cap w.offset w.size w.value w.due = (none, t) → exec (.windowStoreEffect k) s = t.ends) ∧
        (∀ err, s1.winWrite w.eng w.cap w.offset w.size w.value w.due = (some err, t) → (t.engine w.eng).running = true →
          w.task = some (t.engine w.eng).start → exec (.windowStoreEffect k) s = (t.laneAbort w.eng 4 w.pc w.due).ends) ∧
        (∀ err, s1.winWrite w.eng w.cap w.offset w.size w.value w.due = (some err, t) → (t.engine w.eng).running = false →
          exec (.windowStoreEffect k) s = ((t.recordAbortAs w.eng w.phys 4 w.pc w.due w.dup).raiseEv (sqDom (w.eng / 8)) 4 (w.eng / 8)).ends)))

/-- R104 to R106, R400. A message that loses a link is counted where its sender is. Where it rests on choices of the model: log entries 25, 114, 115, 127. -/
def Obligations.BoardMessages : Prop :=
  (∀ s : State, s.Quiet → (s.engClock = false → (∀ (k : Nat), exec (.messageLinkCrossing k) s = .next s) ∧ (∀ (k : Nat), exec (.messageArrival k) s = .next s))) ∧
    (∀ (s : State) (k : Nat) (m : Msg), s.Quiet → s.engClock = true → s.msgs[k]? = some m → s.msgs.length = 1 →
    let src := m.src / 8
    let dst := 8 * m.dstSq + m.dstEng
    let lost (t : State) := (({ t with msgs := [] } : State).bump F.SQ_ROUTESTAT_LOST F.SQ_ROUTESTAT_LOSTSAT src).raiseEv (sqDom src) 7 src
    let u := s.reach (m.sent + 4 + m.hops)
    let x := s.peek (routeAddr m.bank dst m.peer) 8
    let r := s.rxAt m.bank dst m.peer
    let named := routeValid x = true ∧ routeIn x = true ∧ bits 42 37 x = src ∧ bits 45 43 x = m.src % 8 ∧ bits 53 46 x = m.route
    (∀ q dir t, m.link (m.crossed + 1) = some (q, dir, t) →
      (∀ nxt, stepTo q dir = some nxt → s.alive (sqDom nxt) = true →
        exec (.messageLinkCrossing k) s = .next { s.reach t with msgs := [{ m with crossed := m.crossed + 1 }] }) ∧
      (∀ nxt, stepTo q dir = some nxt → s.alive (sqDom nxt) = false → exec (.messageLinkCrossing k) s = (lost (s.reach t)).ends) ∧
      (stepTo q dir = none → exec (.messageLinkCrossing k) s = (lost (s.reach t)).ends)) ∧
    (m.crossed < m.hops → exec (.messageArrival k) s = .next s) ∧
    (m.hops ≤ m.crossed →
      (m.epoch ≠ s.sqEpoch src → exec (.messageArrival k) s = .next (({ u with msgs := [] } : State).bump F.SQ_FENCED_COUNT F.SQ_FENCED_SAT src)) ∧
      (m.epoch = s.sqEpoch src → s.alive (sqDom m.dstSq) = false → exec (.messageArrival k) s = (lost u).ends) ∧
      (m.epoch = s.sqEpoch src → s.alive (sqDom m.dstSq) = true →
        (named → exec (.messageArrival k) s = .next (({ u with msgs := [] } : State).setRx m.bank dst m.peer
          ⟨m.value, true, true, some (m.sent + 4 + m.hops, r.value, r.fresh, r.any)⟩)) ∧
        (¬ named → exec (.messageArrival k) s = ((({ u with msgs := [] } : State).bump F.SQ_ROUTESTAT_UNBOUND F.SQ_ROUTESTAT_UNBSAT m.dstSq).raiseEv
          (sqDom m.dstSq) 7 m.dstSq).ends)))) ∧
    (∀ (s : State) (m o : Msg) (q dir t nxt : Nat), s.Quiet → s.engClock = true → s.msgs = [m, o] →
      m.src < o.src ∨ m.src = o.src ∧ (m.rel = o.rel ∨ m.rel = true) →
      m.link (m.crossed + 1) = some (q, dir, t) → (∃ j, 1 ≤ j ∧ j ≤ o.hops ∧ o.link j = some (q, dir, t)) → stepTo q dir = some nxt →
      s.alive (sqDom nxt) = true →
      let lost (v : State) := (v.bump F.SQ_ROUTESTAT_LOST F.SQ_ROUTESTAT_LOSTSAT (o.src / 8)).raiseEv (sqDom (o.src / 8)) 7 (o.src / 8)
      exec (.messageLinkCrossing 0) s = ({ lost { s.reach t with msgs := [{ m with crossed := m.crossed + 1 }, o] } with
        msgs := [{ m with crossed := m.crossed + 1 }] } : State).ends)

/-- R398 to R401 and the start of R403. Where it rests on choices of the model: log entries 18, 133. -/
def Obligations.DuplicatedTasks : Prop :=
  (∀ s : State, s.Quiet → (s.engClock = false → (∀ (e : Fin 512), exec (.signatureCompare e) s = .next s) ∧ (∀ (e : Fin 512), exec (.holdRelease e) s = .next s) ∧ (∀ (e : Fin 512), exec (.snapshotCopy e) s = .next s))) ∧
    ∀ (s : State) (e : Fin 512) (p : Nat), s.Quiet → s.engClock = true →
    let g := s.engine e.val
    let h := s.engine p
    let sq := e.val / 8
    let ec := g.start + g.budget
    let ended := g.role = .engine p ∧ g.compared = false ∧ g.running = false ∧ h.running = false ∧ e.val ≠ p ∧ s.sqHold sq = false
    let wlen := min 8 (s.fld F.SQ_SNAP_WLEN sq)
    let kept (rel : List Held) (snap : Option Nat) := ((s.reach ec).setEng e.val { g with compared := true, hold := [], rel := rel, relAt := ec + 1, snapAt := snap }).setEng p
      { h with compared := true, hold := [] }
    (ended → g.overflow = false → h.overflow = false → g.sig = h.sig → exec (.signatureCompare e) s =
      .next (kept (g.rel ++ g.hold) (if wlen ≠ 0 then some ec else none))) ∧
    (ended → g.overflow = true ∨ h.overflow = true → exec (.signatureCompare e) s =
      (((kept [] none).bump F.SQ_DUPSTAT_HOVCNT F.SQ_DUPSTAT_HOVSAT sq).raiseEv (sqDom sq) 6 sq).ends) ∧
    (ended → g.overflow = false → h.overflow = false → g.sig ≠ h.sig → exec (.signatureCompare e) s =
      ((((kept [] none).bump F.SQ_DUPSTAT_MISCNT F.SQ_DUPSTAT_MISSAT sq).raiseEv (sqDom sq) 6 sq).startFailover e.val p ec).ends) ∧
    (g.compared = true → ∀ q, g.role = .engine q → exec (.signatureCompare e) s = .next s) ∧
    (∀ x rest, g.rel = x :: rest → ∀ t, ((s.reach g.relAt).setEng e.val { g with rel := rest, relAt := g.relAt + 1 }).issue e.val x.phys x.pc g.relAt none true x.eff =
      (false, t) → exec (.holdRelease e) s = t.ends) ∧
    (g.rel = [] → exec (.holdRelease e) s = .next s) ∧
    (∀ at_, g.snapAt = some at_ → ∃ t : State, exec (.snapshotCopy e) s = t.ends ∧ (t.engine e.val).snapAt = none ∧
      bit (e.val % 8) (t.fld F.SQ_SNAPST_VALID sq) = true ∧ bit (e.val % 8) (t.fld F.SQ_SNAPST_CUR sq) = !bit (e.val % 8) (s.fld F.SQ_SNAPST_CUR sq)) ∧
    (g.snapAt = none → exec (.snapshotCopy e) s = .next s) ∧
    (let t := s.startFailover e.val p ec
     (s.square sq).fo = .idle → s.flag F.RDC_FOREC_VALID 0 = false → (t.square sq).fo = .selfTest e.val p ec true ∧
      t.flag F.RDC_FOREC_VALID 0 = true ∧ t.fld F.RDC_FOREC_PHYS 0 = s.physOf e.val % 16 ∧ t.regN .RDC_FOTIMEL 0 = ec % 2 ^ 32 ∧
      t.flag F.RDC_STAT_FOBUSY 0 = true)

/-- R395, R403 to R405, R408, R409 and R419. Each of FAILOVER_SELF_TEST_DONE, FAILOVER_LOAD, FAILOVER_RETARGET, ROTATING_TEST_SEGMENT, ROTLATE, WEAR_MEASURE completes: in every state and for all operands that meet the conditions of a clause here, exec answers a next state, the one that the clause gives. Where it rests on choices of the model: log entries 17, 18, 117. -/
def Obligations.EngineSpares : Prop :=
  ∀ (s : State), s.Quiet →
    (∀ (sq : Fin 64) (e p tick r : Nat) (filled ep pp : Bool), 
        let u := s.reach (tick + 6250)
        let bad := if ep then p else e
        let good := if ep then e else p
        (s.square sq.val).fo = .selfTest e p tick filled → s.spareOf sq.val = some r → ep ≠ pp → s.sqEpoch sq.val ≠ 0xFFFF → exec (.failoverSelfTestDone sq ep pp) s = (((((u.foOutcome filled (s.physOf bad) (if ep then 1 else 0)).retire sq.val (s.physOf bad)).setPstate sq.val
          (s.physOf good) 3).setFo sq.val (.load (bad % 8) (s.physOf bad) r (some good) true tick))).ends) ∧
    (∀ (sq : Fin 64) (e p tick : Nat) (filled ep pp : Bool), (s.square sq.val).fo = .selfTest e p tick filled → (s.spareOf sq.val = none ∨ ep = pp ∨ s.sqEpoch sq.val = 0xFFFF) → exec (.failoverSelfTestDone sq ep pp) s = (((s.reach (tick + 6250)).foOutcome filled (s.physOf e) 2).enterSqHold sq.val).ends) ∧
    (∀ (sq : Fin 64) (log nb r e tick : Nat), 
        let u := (s.setPstate sq.val r 3).copyEngine sq.val nb r
        (s.square sq.val).fo = .load log nb r (some e) true tick → exec (.failoverLoad sq) s = ((((u.loadWindow sq.val log r).loadWindow sq.val (e % 8) ((u.loadWindow sq.val log r).physOf e)).setFo sq.val
          (.retarget log nb r (some e) tick)).refreshDegr).ends) ∧
    (∀ (sq : Fin 64) (log nb r tick : Nat), 
        let u := (s.setPstate sq.val r 3).copyEngine sq.val nb r
        (s.square sq.val).fo = .load log nb r none false tick → exec (.failoverLoad sq) s = ((u.setFo sq.val (.retarget log nb r none tick)).refreshDegr).ends) ∧
    (∀ (sq : Fin 64) (log nb r tick : Nat) (sv : Option Nat), 
        let m := s.setRegN .SQ_MAP sq.val (setBits (4 * log) 4 r (s.regN .SQ_MAP sq.val))
        let u := (m.restampBanks sq.val).enterServing sq.val r
        (s.square sq.val).fo = .retarget log nb r sv tick → (∀ e, sv = some e → exec (.failoverRetarget sq) s = ((((u.enterServing sq.val (u.physOf e)).setFo sq.val .idle).refreshDegr)).ends) ∧
        (sv = none → exec (.failoverRetarget sq) s = (((u.setFo sq.val .idle).refreshDegr)).ends)) ∧
    (∀ (sq : Fin 64) (ep pp : Bool), (s.square sq.val).fo = .idle → exec (.failoverSelfTestDone sq ep pp) s = .next s ∧ exec (.failoverLoad sq) s = .next s ∧ exec (.failoverRetarget sq) s = .next s) ∧
    (∀ (sq : Fin 64) (n : Fin 9) (pass : Bool), 
        let q := s.square sq.val
        let p := s.physEng sq.val n.val
        let u := s.reach (s.now + 50)
        let v := (u.setPhys sq.val n.val { p with segments := 0 }).setSquare sq.val { q with rotEng := (n.val + 1) % 9, rotAt := u.now, rotSaid := false }
        s.flag F.RDC_CTL_ROTTEST 0 = true → s.alive (sqDom sq.val) = true → q.rotEng = n.val → s.rotGap sq.val n.val = true → (pass = true → p.segments < 124 → exec (.rotatingTestSegment sq n pass) s = .next (u.setPhys sq.val n.val { p with segments := p.segments + 1 })) ∧
        (pass = true → 124 ≤ p.segments → exec (.rotatingTestSegment sq n pass) s = .next v) ∧
        (pass = false → exec (.rotatingTestSegment sq n pass) s = (v.rotFail sq.val n.val).ends)) ∧
    (∀ (sq : Fin 64) (n : Fin 9), 
        let q := s.square sq.val
        let u := (s.reach (q.rotAt + 1250000)).setSquare sq.val { q with rotSaid := true }
        s.flag F.RDC_CTL_ROTTEST 0 = true → s.alive (sqDom sq.val) = true → q.rotEng = n.val → (q.rotSaid = false → exec (.rotlate sq n) s = ((u.setFld F.RDC_STAT_ROTLATE 0 1).raiseEv (sqDom sq.val) 11 sq.val).ends) ∧
        (q.rotSaid = true → exec (.rotlate sq n) s = .next s)) ∧
    (∀ (sq : Fin 64) (n : Nat), 
        let t := s.rotFail sq.val n
        n < 9 → ((s.square sq.val).fo ≠ .idle → t.sqHold sq.val = true ∧ (t.square sq.val).fo = .idle) ∧
        ((s.square sq.val).fo = .idle → s.pstate sq.val n = 1 → t.pstate sq.val n = 6 ∧ (∀ m, m < 9 → m ≠ n → t.pstate sq.val m = s.pstate sq.val m)) ∧
        ((s.square sq.val).fo = .idle → s.pstate sq.val n = 0 → s.spareOf sq.val = none ∨ s.sqEpoch sq.val = 0xFFFF → t.sqHold sq.val = true) ∧
        (∀ r, (s.square sq.val).fo = .idle → s.pstate sq.val n = 0 → s.spareOf sq.val = some r → s.sqEpoch sq.val < 0xFFFF →
          t.pstate sq.val n = 4 ∧ t.sqEpoch sq.val = s.sqEpoch sq.val + 1 ∧ t.sqHold sq.val = s.sqHold sq.val)) ∧
    (∀ (sq : Fin 64) (n : Fin 9) (pass : Bool), s.flag F.RDC_CTL_ROTTEST 0 = false → exec (.rotatingTestSegment sq n pass) s = .next s ∧ exec (.rotlate sq n) s = .next s) ∧
    (∀ (i : Fin 66) (slack : BitVec 12), 
        let dom := if i.val < 64 then sqDom i.val else anaDom (i.val == 64)
        let u := s.setFld F.RDC_WDATA_SLACK i.val slack.toNat
        s.alive dom = true → s.alive 4 = true → (slack.toNat < s.fld F.RDC_WTHR_THR 0 → exec (.wearMeasure i slack) s = .next ((u.setFld F.RDC_WDATA_WARN i.val 1).setFld F.RDC_STAT_WEARWARN 0 1)) ∧
        (s.fld F.RDC_WTHR_THR 0 ≤ slack.toNat → exec (.wearMeasure i slack) s = .next u)) ∧
    (∀ (sq : Fin 64) (n : Nat), 
        let t := s.retire sq.val n
        n < 9 → s.sqEpoch sq.val < 0xFFFF → t.sqEpoch sq.val = s.sqEpoch sq.val + 1 ∧ t.pstate sq.val n = 4 ∧ (t.physEng sq.val n).epoch = (s.physEng sq.val n).epoch ∧
        (∀ m : Fin 9, m.val ≠ n → t.pstate sq.val m.val = s.pstate sq.val m.val ∧ (t.physEng sq.val m.val).epoch =
          if s.pstate sq.val m.val = 0 ∨ s.pstate sq.val m.val = 1 then s.sqEpoch sq.val + 1 else (s.physEng sq.val m.val).epoch) ∧
        t.mem = s.mem)

/-- R410 to R416 with the registers of R424 and R425. Each of COMPARE_UNIT_TEST, PAIR_FAULT, SPLIT, PAIR_REJOIN, PAIR_REJOIN_COPY_DONE, TEST, REJOIN, TESTPAIR, REJOINPAIR, TEST_DONE, TESTPAIR_DONE, REJOIN_DONE, REFRESH_DONE, REFRESH completes: in every state and for all operands that meet the conditions of a clause here, exec answers a next state, the one that the clause gives. Where it rests on choices of the model: log entries 28, 77, 78. -/
def Obligations.PairSpares : Prop :=
  ∀ (s : State), s.Quiet →
    (∀ (failSq : BitVec 64) (failPair : BitVec 5), 
        let u := s.setPair .RDC_CMPFAILL .RDC_CMPFAILH 0 (s.pair .RDC_CMPFAILL .RDC_CMPFAILH 0 ||| failSq.toNat)
        let v := u.setFld F.RDC_PSTATE_CKFAIL 0 (u.fld F.RDC_PSTATE_CKFAIL 0 ||| failPair.toNat)
        let evs := ((List.range 64).filter (fun q => bit q failSq.toNat)).map (fun q => (11, q)) ++ ((List.range 5).filter (fun p => bit p failPair.toNat)).map (fun p => (11, 2 * p))
        s.flag F.RDC_CTL_CMPTEST 0 = true → s.alive 4 = true → exec (.compareUnitTest failSq failPair) s = (({ v with raised := evs } : State).refreshDegr).ends) ∧
    (∀ (failSq : BitVec 64) (failPair : BitVec 5), s.flag F.RDC_CTL_CMPTEST 0 = false → exec (.compareUnitTest failSq failPair) s = .next s) ∧
    (∀ (p : Fin 5) (cause : BitVec 2) (j : Nat), 
        let taken := s.flag F.RDC_CTL_AUTO 0 && s.pairState 4 == 1
        let u := ((((s.stopCore (2 * p.val)).stopCore (2 * p.val + 1)).raiseEv 4 11 (2 * p.val)).pfault p.val cause.toNat taken)
        let m := u.setFld F.RDC_PMAP_PAIR 0 (setBits (3 * j) 3 4 (u.fld F.RDC_PMAP_PAIR 0))
        let v := (m.setPairState 4 0).setPairState p.val 3
        s.logicalPair p.val = some j → s.alive 4 = true → s.pairMode j = cause.toNat → cause.toNat < 2 → (cause.toNat = 1 → s.sigDue p.val = true) → s.fld F.SUP_STAT_STATE (2 * p.val) ≠ 3 → (taken = false → exec (.pairFault p cause) s = u.ends) ∧
        (taken = true → exec (.pairFault p cause) s = ((v.startPair j (m.pairStartAt j)).refreshDegr).ends)) ∧
    (∀ (p : Fin 5) (cause : BitVec 2), (s.logicalPair p.val = none ∨ s.fld F.SUP_STAT_STATE (2 * p.val) = 3 ∨ (cause.toNat = 1 ∧ s.sigDue p.val = false)) → exec (.pairFault p cause) s = .next s) ∧
    (∀ (j : Fin 4), 
        let m := s.setPairMode j.val 2
        let p := s.physPair j.val
        let a := m.pair .RDC_SPLITL .RDC_SPLITH 0 / 512 * 512
        let t := m.splitRead a
        s.alive 4 = true → s.pairMode j.val < 2 → (∀ i : Fin 4, s.pairMode i.val ≠ 3) → s.logicalPair p = some j.val → exec (.split j) s = ((({ t with mem := m.mem } : State).setCore (2 * p + 1) (t.splitCore (t.core (2 * p)) a)).setFld F.SUP_STAT_STATE (2 * p + 1) 0).ends) ∧
    (∀ (j : Fin 4) (mode : BitVec 2), s.alive 4 = true → s.pairMode j.val = 2 → mode.toNat < 2 → (∀ i : Fin 4, s.pairMode i.val ≠ 3) → (bit j.val (s.fld F.RDC_JOIN_READY 0) = true → exec (.pairRejoin j mode) s = .next { s.setPairMode j.val mode.toNat with joins := s.joins ++ [j.val] }) ∧
        (bit j.val (s.fld F.RDC_JOIN_READY 0) = false → exec (.pairRejoin j mode) s = .next (s.rdcErr 6))) ∧
    (∀ (j : Fin 4), s.alive 4 = true → exec (.pairRejoin j 3) s = .next (s.setFld F.RDC_STAT_CMDERR 0 1)) ∧
    (∀ (j : Fin 4), 
        let p := s.physPair j.val
        let c := { (s.core (2 * p)).newKey with ras := [], btb := [] }
        let u : State := { s with joins := s.joins.filter (fun x => x != j.val) }
        let v := u.setFld F.RDC_JOIN_READY 0 (setBits j.val 1 0 (u.fld F.RDC_JOIN_READY 0))
        (s.core (2 * p)).sb = [] → (s.joins.contains j.val = true → exec (.pairRejoinCopyDone j) s =
          .next ((((v.setCore (2 * p) c).setCore (2 * p + 1) c).setFld F.SUP_STAT_STATE (2 * p) 0).setFld F.SUP_STAT_STATE (2 * p + 1) 0)) ∧
        (s.joins.contains j.val = false → exec (.pairRejoinCopyDone j) s = .next s)) ∧
    (∀ (sq : Fin 64) (n : BitVec 4), 
        let st := s.pstate sq.val n.toNat
        let u := s.setPhys sq.val n.toNat { s.physEng sq.val n.toNat with before := some st }
        let v := (u.setPstate sq.val n.toNat 2).setRegN .SQ_TESTED sq.val (s.regN .SQ_TESTED sq.val)
        s.alive 4 = true → s.flag F.RDC_STAT_CMDBUSY 0 = false → s.alive (sqDom sq.val) = true → (n.toNat < 9 → st = 1 ∨ st = 4 ∨ st = 5 ∨ st = 6 → (s.square sq.val).fo = .idle →
          exec (.test sq n) s = ((v.rdcBegin (.test sq.val n.toNat)).refreshDegr).ends) ∧
        (n.toNat < 9 → st = 1 ∨ st = 4 ∨ st = 5 ∨ st = 6 → (s.square sq.val).fo ≠ .idle → exec (.test sq n) s = .next (s.rdcErr 5)) ∧
        (9 ≤ n.toNat ∨ st = 0 ∨ st = 2 ∨ st = 3 ∨ st = 7 → exec (.test sq n) s = .next (s.rdcErr 1))) ∧
    (∀ (sq : Fin 64) (n : BitVec 4) (src : Bool) (log : Fin 8) (peer : BitVec 4), 
        let st := s.pstate sq.val n.toNat
        s.alive 4 = true → s.flag F.RDC_STAT_CMDBUSY 0 = false → s.alive (sqDom sq.val) = true → (n.toNat < 9 → st = 1 ∨ st = 4 ∨ st = 5 → bit n.toNat (s.regN .SQ_TESTED sq.val) = true →
          src = false ∨ s.serving (8 * sq.val + log.val) = false ∧ peer.toNat < 9 ∧ s.pstate sq.val peer.toNat = 0 →
          exec (.rejoin sq n src log peer) s = .next (s.rdcBegin (.rejoin sq.val n.toNat src log.val peer.toNat))) ∧
        (n.toNat < 9 → st = 1 ∨ st = 4 ∨ st = 5 → bit n.toNat (s.regN .SQ_TESTED sq.val) = false →
          exec (.rejoin sq n src log peer) s = .next (s.rdcErr 2)) ∧
        (9 ≤ n.toNat ∨ st = 0 ∨ st = 2 ∨ st = 3 ∨ st = 6 ∨ st = 7 → exec (.rejoin sq n src log peer) s = .next (s.rdcErr 1))) ∧
    (∀ (p : BitVec 4), 
        let st := s.pairState p.toNat
        s.alive 4 = true → s.flag F.RDC_STAT_CMDBUSY 0 = false → (p.toNat < 5 → st = 1 ∨ st = 3 ∨ st = 4 → exec (.testpair p) s = (((s.setPairState p.toNat 2).rdcBegin (.testPair p.toNat st)).refreshDegr).ends) ∧
        (5 ≤ p.toNat ∨ st = 0 ∨ st = 2 ∨ st = 5 ∨ st = 6 ∨ st = 7 → exec (.testpair p) s = .next (s.rdcErr 1)) ∧
        (5 ≤ p.toNat → exec (.rejoinpair p) s = .next (s.rdcErr 1)) ∧
        (p.toNat < 5 → bit p.toNat (s.fld F.RDC_PSTATE_TESTED 0) = false → exec (.rejoinpair p) s = .next (s.rdcErr 2)) ∧
        (p.toNat < 5 → bit p.toNat (s.fld F.RDC_PSTATE_TESTED 0) = true → exec (.rejoinpair p) s =
          (((((s.setPairState p.toNat 1).stopCore (2 * p.toNat)).stopCore (2 * p.toNat + 1)).setFld F.RDC_STAT_CMDDONE 0 1).refreshDegr).ends)) ∧
    (∀ (pass : Bool), (∀ sq n, s.rdc = some (.test sq n) → 
          let before := (s.physEng sq n).before.getD 6
          let u := s.setPhys sq n { s.physEng sq n with before := none }
          let v := u.setPstate sq n before
          (s.pstate sq n = 2 → pass = true → exec (.testDone pass) s = (((v.setRegN .SQ_TESTED sq (setBits n 1 1 (v.regN .SQ_TESTED sq))).rdcDone).refreshDegr).ends) ∧
          (s.pstate sq n = 2 → pass = false → exec (.testDone pass) s = (((u.setPstate sq n 6).rdcDone).refreshDegr).ends) ∧
          (s.pstate sq n ≠ 2 → exec (.testDone pass) s = (u.rdcDone.refreshDegr).ends)) ∧
        (∀ p before, s.rdc = some (.testPair p before) →
          (pass = true → exec (.testpairDone pass) s = (((((s.setPairState p before).setPairTested p true)).rdcDone).refreshDegr).ends) ∧
          (pass = false → exec (.testpairDone pass) s = (((((s.setPairState p 4).setPairTested p false)).rdcDone).refreshDegr).ends)) ∧
        (s.rdc = none → exec (.testDone pass) s = .next s ∧ exec (.testpairDone pass) s = .next s ∧ exec .rejoinDone s = .next s ∧ exec .refreshDone s = .next s)) ∧
    (∀ (sq n log peer : Nat), (s.rdc = some (.rejoin sq n true log peer) →
          let u := (s.copyEngine sq peer n).loadWindow sq log n
          let m := u.setRegN .SQ_MAP sq (setBits (4 * log) 4 n (u.regN .SQ_MAP sq))
          exec .rejoinDone s = (((m.restampBanks sq).enterServing sq n).rdcDone.refreshDegr).ends) ∧
        (s.rdc = some (.rejoin sq n false log peer) →
          let u := (s.poisonWords (physBase sq n) 2048).poisonWords (physBase sq n + 0x4000) 4096
          exec .rejoinDone s = (((u.setPstate sq n 1).takeEpoch sq n).rdcDone.refreshDegr).ends)) ∧
    (∀ (sq : Fin 64), s.alive 4 = true → s.flag F.RDC_STAT_CMDBUSY 0 = false → s.alive (sqDom sq.val) = true → (s.sqHold sq.val = true ∨ s.stale sq.val = true → s.flag F.SCH_LDSTAT_BUSY 0 = false →
          s.inRun = false ∨ (∀ e : Fin 8, (s.engine (8 * sq.val + e.val)).running = false) →
          exec (.refresh sq) s = .next ((s.rdcBegin (.refresh sq.val)).setFld F.SCH_LDSTAT_BUSY 0 1)) ∧
        (s.sqHold sq.val = false → s.stale sq.val = false → exec (.refresh sq) s = .next (s.rdcErr 4)) ∧
        (s.sqHold sq.val = true → s.flag F.SCH_LDSTAT_BUSY 0 = true → exec (.refresh sq) s = .next (s.rdcErr 5))) ∧
    (∀ (sq : Nat) (l : List Byte) (u v w : State), 
        let b := s.bank
        let src := s.pair .SCH_LDSRCL .SCH_LDSRCH 0
        let parts := v.checkAll src (sectsOf l) ((sectsOf l).zipIdx.filter (fun x => x.1.square == sq && x.1.type != 8))
        let r := w.refreshMap sq
        s.rdc = some (.refresh sq) → s.underWipe (sqBase sq + 0xC0000) = false → s.loadHead src = (.ok l, u) → u.imgSigned src l = (.ok (), v) → (∀ ls, v.minGen ≤ fieldAt l 0x0C 4 → fieldAt l 0x0C 4 = v.bankGen b → parts = (.ok ls, w) →
          let d := ls.foldl (fun (s : State) x => if x.1.type < 3 ∧ 9 ≤ s.physOf (8 * sq + x.1.engine) then s else s.sectPlace b (r.sqEpoch sq) x.1 x.2) r
          let x := if b = 0 then d.setFld F.SQ_PLANEPOCH_EPOCHA sq (d.sqEpoch sq) else d.setFld F.SQ_PLANEPOCH_EPOCHB sq (d.sqEpoch sq)
          let y := x.setSquare sq { x.square sq with gen := fieldAt l 0x0C 4, lost := false, warm := false }
          let z := ((y.setFld F.SQ_SLOTSTAT_HOLD sq 0).setFld F.SCH_LDSTAT_BUSY 0 0).setFld F.SCH_LDSTAT_DONE 0 1
          exec .refreshDone s = (z.rdcDone.refreshDegr).ends) ∧
        (∀ c i j, v.minGen ≤ fieldAt l 0x0C 4 → fieldAt l 0x0C 4 = v.bankGen b → parts = (.error (c, i, j), w) →
          exec .refreshDone s = ((w.loadFail c i j).rdcFail 3).ends) ∧
        (fieldAt l 0x0C 4 < v.minGen ∨ fieldAt l 0x0C 4 ≠ v.bankGen b → exec .refreshDone s = ((v.loadFail 4 0 0).rdcFail 3).ends)) ∧
    (∀ (sq : Nat) (c i : Nat) (u : State), s.rdc = some (.refresh sq) → s.underWipe (sqBase sq + 0xC0000) = false → s.loadHead (s.pair .SCH_LDSRCL .SCH_LDSRCH 0) = (.error (c, i), u) → exec .refreshDone s = ((u.loadFail c i 0).rdcFail 3).ends) ∧
    (∀ (sq : Nat), s.rdc = some (.refresh sq) → s.underWipe (sqBase sq + 0xC0000) = true → exec .refreshDone s = .next s)

/-- R113, R133 to R138, R142, R150 to R158. Each of START, SWREQ, CANCEL, PLAN_ORIGIN, SWITCH_CHECK, FRAME_BOUNDARY, GO, LOAD_ABORT, LOAD_COMPLETE completes: in every state and for all operands that meet the conditions of a clause here, exec answers a next state, the one that the clause gives. Where it rests on choices of the model: log entries 5, 39, 41, 49, 50, 51, 133, 134. -/
def Obligations.PlanFlow : Prop :=
  ∀ (s : State), s.Quiet →
    let pend (x : State) (p : Pending) := { x with sched := { x.sched with pend := p } }.setFld F.SCH_STATUS_PENDING 0 1
    let noPend (x : State) := { x with sched := { x.sched with pend := .none } }.setFld F.SCH_STATUS_PENDING 0 0
    let refused (x : State) (cause : Nat) := (x.setFld F.SCH_STATUS_REFUSED 0 1).setFld F.SCH_STATUS_REFCAUSE 0 cause
    let discarded := s.setFld F.SCH_STATUS_WERR 0 1
    (∀ (who : Initiator) (bank : Bool), 
        let b := b2n bank
        let u := s.setFld F.SCH_CTL_SWBANK 0 b
        let o := s.pair .SCH_ORIGINL .SCH_ORIGINH 0
        s.Takes who .SCH_CTL 0 → s.alive 4 = true → s.schPending = false → s.mode = 5 → s.bankValid b = true → (s.bankRack b = true → s.flag F.QTZ_STATUS_LOCK 0 = true) → (∀ q : Fin 64, s.sqEpoch q.val = s.planEpoch b q.val) → (s.now + 64 ≤ o → exec (.start who bank) s = .next (pend u (.start b o))) ∧
        (o < s.now + 64 → exec (.start who bank) s = .next (refused (u.setFld F.SCH_STATUS_LATE 0 1) 4))) ∧
    (∀ (who : Initiator) (bank : Bool), 
        let b := b2n bank
        let u := s.setFld F.SCH_CTL_SWBANK 0 b
        s.Takes who .SCH_CTL 0 → s.alive 4 = true → s.schPending = false → s.mode = 5 → s.now + 64 ≤ s.pair .SCH_ORIGINL .SCH_ORIGINH 0 → (s.bankValid b = false → exec (.start who bank) s = .next (refused u 1)) ∧
        (s.bankValid b = true → s.bankRack b = true → s.flag F.QTZ_STATUS_LOCK 0 = false → exec (.start who bank) s = .next (refused u 2)) ∧
        (s.bankValid b = true → s.bankRack b = false → (∃ q : Fin 64, s.sqEpoch q.val ≠ s.planEpoch b q.val) →
          exec (.start who bank) s = .next (refused u 3))) ∧
    (∀ (who : Initiator) (bank : Bool), 
        let b := b2n bank
        let u := s.setFld F.SCH_CTL_SWBANK 0 b
        s.Takes who .SCH_CTL 0 → s.alive 4 = true → (s.schPending = false → s.inRun = true → exec (.swreq who bank) s = .next (pend u (.switch b s.now))) ∧
        (s.schPending = true ∨ s.inRun = false → exec (.swreq who bank) s = .next discarded) ∧
        (s.schPending = true ∨ s.mode ≠ 5 → exec (.start who bank) s = .next discarded)) ∧
    (∀ (who : Initiator) (b o asked : Nat), 
        let gone := (noPend s).setFld F.SCH_STATUS_CANCELLED 0 1
        s.Takes who .SCH_CTL 0 → s.alive 4 = true → s.schPending = true → (s.sched.pend = .start b o → s.now + 4 < o → exec (.cancel who) s = .next gone) ∧
        (s.sched.pend = .start b o → o ≤ s.now + 4 → exec (.cancel who) s = .next discarded) ∧
        (s.sched.pend = .switch b asked → s.now + 4 < s.switchAt asked → exec (.cancel who) s = .next gone) ∧
        (s.sched.pend = .switch b asked → s.switchAt asked ≤ s.now + 4 → exec (.cancel who) s = .next discarded) ∧
        (s.sched.pend = .committed b o → exec (.cancel who) s = .next discarded)) ∧
    (∀ (who : Initiator), s.Takes who .SCH_CTL 0 → s.alive 4 = true → s.sched.pend = .none → exec (.cancel who) s = .next discarded) ∧
    (∀ (asked : Nat), 
        let t := s.switchAt asked
        asked < t - 4 ∧ (∃ n, t = s.sched.origin + (n + 1) * s.frameQt) ∧
        (∀ n, asked < s.sched.origin + (n + 1) * s.frameQt - 4 → t ≤ s.sched.origin + (n + 1) * s.frameQt)) ∧
    (∀ (b o : Nat), 
        let u := ((s.schActivate b o).lodFlipAll o).emit 0x9E0 o 4 none
        s.engClock = true → s.sched.pend = .start b o → s.mode = 5 → exec .planOrigin s = (({ u with trans := none } : State).setMode (if u.degraded then 7 else 6)).epRefreshAll.msrWatch.ends) ∧
    (s.engClock = true → ((∀ b o, s.sched.pend ≠ .start b o) → exec .planOrigin s = .next s) ∧ ((∀ b t, s.sched.pend ≠ .switch b t) → exec .switchCheck s = .next s) ∧
        (s.bankOn = false → exec .frameBoundary s = .next s)) ∧
    (∀ (b o : Nat), 
        let t := s.schActivate b o
        b < 2 → t.now = (s.reach o).now ∧ t.sched.pend = .none ∧ t.sched.origin = o ∧ t.schPending = false ∧ t.bankOn = true ∧ t.bank = b ∧ t.frame = 0 ∧ t.mode = s.mode ∧
        (∀ e n, e < 512 → n < 8 → t.peek (tinAddr b e n) 4 = 0) ∧ (∀ a, a < 0x100000000 → t.byte a = s.byte a)) ∧
    (∀ (b asked : Nat), 
        let t := s.switchAt asked
        let u := s.reach (t - 4)
        let v := noPend u
        s.engClock = true → s.sched.pend = .switch b asked → s.inRun = true → s.bankOn = true → (b ≠ s.bank → s.bankValid b = true → (s.bankRack b = true → s.flag F.QTZ_STATUS_LOCK 0 = true) → (∀ q : Fin 64, s.sqEpoch q.val = s.planEpoch b q.val) → exec .switchCheck s = .next (pend u (.committed b t))) ∧
        (b = s.bank ∨ s.bankValid b = false → exec .switchCheck s = .next (refused v 1)) ∧
        (b ≠ s.bank → s.bankValid b = true → s.bankRack b = true → s.flag F.QTZ_STATUS_LOCK 0 = false → exec .switchCheck s = .next (refused v 2)) ∧
        (b ≠ s.bank → s.bankValid b = true → s.bankRack b = false → (∃ q : Fin 64, s.sqEpoch q.val ≠ s.planEpoch b q.val) →
          exec .switchCheck s = .next (refused v 3))) ∧
    (
        let t := s.nextBoundary
        let u := s.reach t
        s.engClock = true → s.bankOn = true → s.inRun = true → (s.modeReq = none → s.sched.pend = .none →
          exec .frameBoundary s = ((((u.setPair .SCH_FRAMEL .SCH_FRAMEH 0 (s.frame + 1)).lodFlipAll t).emit 0x9E0 t 4 none).msrWatch).ends) ∧
        (∀ b o, s.modeReq = none → s.sched.pend = .committed b o →
          exec .frameBoundary s = (((((u.schActivate b t).emit 0x9E1 t 4 none).lodFlipAll t).emit 0x9E0 t 4 none).msrWatch).ends) ∧
        (∀ m, s.modeReq = some m → (∀ b asked, s.sched.pend ≠ .switch b asked) →
          let x := (u.lodFlipAll t).emit 0x9E0 t 4 none
          exec .frameBoundary s = (({ x.setFld F.PMU_MODEREQ_PEND 0 0 with modeReq := none, reqAt := some (x.now, x.regN .PMU_MODE 0) } : State).enterMode m).ends) ∧
        (∀ b asked, s.sched.pend = .switch b asked → s.switchAt asked < t + 4 →
          ∃ x, exec .switchCheck s = .next x ∧ exec .frameBoundary s = exec .frameBoundary x)) ∧
    (∀ (who : Initiator) (bank : Bool), 
        let b := b2n bank
        let src := s.pair .SCH_LDSRCL .SCH_LDSRCH 0
        let u := (s.setFld F.SCH_LDCTL_BANK 0 b).setBankValid b false
        let v := ((u.setFld F.SCH_LDSTAT_DONE 0 0).setFld F.SCH_LDSTAT_ERR 0 0).setFld F.SCH_LDSTAT_ERRCODE 0 0
        let w := ((v.setRegN .SCH_LDERR 0 0).setFld F.SCH_LDSTAT_BUSY 0 1).clearFoot b
        s.Takes who .SCH_LDCTL 0 → s.alive 4 = true → (s.loadMode = true → s.flag F.SCH_LDSTAT_BUSY 0 = false → s.bankOn = false ∨ s.bank ≠ b → s.pendBank ≠ some b →
          (∀ l x, w.loadHead src = (.ok l, x) → x.maskOk (fieldAt l 0x18 8) = true → x.sectHomeless (fieldAt l 0x18 8) (sectsOf l) = none →
            exec (.go who bank) s = ({ x with sched := { x.sched with load := some ⟨b, src, l,
              ((List.range 64).filter (fun q => bit q (fieldAt l 0x18 8))).map (fun q => (q, x.sqEpoch q))⟩ } } : State).ends) ∧
          (∀ l x, w.loadHead src = (.ok l, x) → x.maskOk (fieldAt l 0x18 8) = false → exec (.go who bank) s = (x.loadFail 0xA 0 0).ends) ∧
          (∀ c i x, w.loadHead src = (.error (c, i), x) → exec (.go who bank) s = (x.loadFail c i 0).ends)) ∧
        (s.loadMode = false ∨ s.flag F.SCH_LDSTAT_BUSY 0 = true ∨ (s.bankOn = true ∧ s.bank = b) ∨ s.pendBank = some b →
          exec (.go who bank) s = .next (s.setFld F.SCH_LDSTAT_WERR 0 1))) ∧
    (∀ (who : Initiator) (ld : Load) (q : Nat), 
        let k := s.fld F.SCH_LDCTL_BANK 0
        s.Takes who .SCH_LDCTL 0 → s.alive 4 = true → (s.sched.load = some ld → exec (.loadAbort who) s = .next ((s.loadFail 0xC 0 0).setFld F.SCH_LDCTL_BANK 0 k)) ∧
        (s.sched.load = none → (∀ x, s.rdc ≠ some (.refresh x)) → exec (.loadAbort who) s = .next (s.setFld F.SCH_LDCTL_BANK 0 k)) ∧
        (s.sched.load = none → s.rdc = some (.refresh q) → exec (.loadAbort who) s = (((s.loadFail 0xC 0 0).rdcFail 3).setFld F.SCH_LDCTL_BANK 0 k).ends)) ∧
    (∀ (ld : Load) (u w : State), 
        let l := ld.head
        let b := ld.bank
        let stale := ∃ p ∈ ld.squares, s.sqEpoch p.1 ≠ p.2
        let fresh := ∀ p ∈ ld.squares, s.sqEpoch p.1 = p.2
        let parts := (u.emptyBank b).loadAll b ld.src ld.squares (sectsOf l) (sectsOf l).zipIdx
        let wiped := (sectsOf l).any (fun x => s.sectWiped x)
        s.sched.load = some ld → (wiped = true → exec .loadComplete s = .next s) ∧
        (wiped = false → stale → exec .loadComplete s = .next (s.loadFail 0xB 0 0)) ∧
        (∀ c, wiped = false → fresh → s.imgSigned ld.src l = (.error c, u) → exec .loadComplete s = (u.loadFail c 0 0).ends) ∧
        (wiped = false → fresh → s.imgSigned ld.src l = (.ok (), u) → fieldAt l 0x0C 4 < u.minGen → exec .loadComplete s = (u.loadFail 4 0 0).ends) ∧
        (∀ c i j, wiped = false → fresh → s.imgSigned ld.src l = (.ok (), u) → u.minGen ≤ fieldAt l 0x0C 4 → parts = (.error (c, i, j), w) →
          exec .loadComplete s = (w.loadFail c i j).ends) ∧
        (wiped = false → fresh → s.imgSigned ld.src l = (.ok (), u) → u.minGen ≤ fieldAt l 0x0C 4 → parts = (.ok (), w) →
          (∀ i j, w.loadTight b (fieldAt l 0x10 2 + 1) (sectsOf l) = some (i, j) → exec .loadComplete s = (w.loadFail 8 i j).ends) ∧
          (w.loadTight b (fieldAt l 0x10 2 + 1) (sectsOf l) = none → exec .loadComplete s = (w.loadCommit b l ld.squares).ends))) ∧
    (s.sched.load = none → exec .loadComplete s = .next s) ∧
    (∀ (b : Nat) (l : List Byte) (eps : List (Nat × Nat)), 
        let t := s.loadCommit b l eps
        b < 2 → fieldAt l 0x10 2 < 2 ^ 16 → fieldAt l 0x12 2 < 2 → t.bankValid b = true ∧ t.bankRack b = decide (fieldAt l 0x12 2 = 1) ∧ t.frameLen b = fieldAt l 0x10 2 + 1 ∧ t.bankGen b = fieldAt l 0x0C 4 ∧
        t.bankMask b = fieldAt l 0x18 8 ∧ t.sched.load = none ∧ t.flag F.SCH_LDSTAT_BUSY 0 = false ∧ t.flag F.SCH_LDSTAT_DONE 0 = true ∧ t.mem = s.mem ∧
        (∀ p ∈ eps, p.1 < 64 → t.planEpoch b p.1 = s.sqEpoch p.1 ∧ (t.square p.1).gen = fieldAt l 0x0C 4)) ∧
    (∀ (c i j : Nat), 
        let t := s.loadFail c i j
        c < 256 → i < 2 ^ 13 → j < 2 ^ 12 → t.flag F.SCH_LDSTAT_BUSY 0 = false ∧ t.flag F.SCH_LDSTAT_ERR 0 = true ∧ t.fld F.SCH_LDSTAT_ERRCODE 0 = c ∧ t.fld F.SCH_LDERR_SECT 0 = i ∧
        t.fld F.SCH_LDERR_ITEM 0 = j ∧ t.sched.load = none ∧ t.mem = s.mem) ∧
    (s.engClock = false → exec .planOrigin s = .next s ∧ exec .switchCheck s = .next s ∧ exec .frameBoundary s = .next s)

/-- R161 to R167, R171, R175, R183 to R186 and R190. Each of EP_VALUE_WRITE, EP_ORIGIN_WRITE, EP_TIMETABLE_WRITE, QPUSH, EP_CTL_WRITE, RBFAULT_RELEASE, STEER, UNSTEER completes: in every state and for all operands that meet the conditions of a clause here, exec answers a next state, the one that the clause gives. Where it rests on choices of the model: log entries 14, 106, 119, 130, 131. -/
def Obligations.EdgeWrites : Prop :=
  ∀ (s : State), s.Quiet →
    (∀ (who : Initiator) (p : Fin 204) (code : Fin 6) (v : Word), 
        let lane : Option Nat := match who with | .lane e => some e.val | _ => none
        let tt := s.flag F.EP_CTL_TT p.val
        let r := epValueReg code.val
        let w := if code.val = 3 ∨ code.val = 4 then v.toNat % 2 ^ 20 else v.toNat
        let u := if code.val < 2 ∧ 2 ^ 31 ≤ w then s.setFld F.EP_STAT_CLAMP p.val 1 else s
        let kept := if code.val = 5 then u.epHoldMax p.val s.now else u.epHoldDead p.val s.now
        let by_ := s.now + s.epLead p.val
        let shadow := u.modEp p.val (fun x => { x with held := x.held.filter (fun y => s.now < y.2.1) ++ [(code.val, by_, s.reg r p.val)] })
        let done (x : State) := (x.setRegN r p.val w).epRecord s p.val code.val s.now lane
        s.Takes who (epValueReg code.val) p.val → (s.ep p.val).lanes.find? (fun x => x.1 == code.val && x.2.at_ == s.now) = none → (tt = true → code.val < 3 → exec (.epValueWrite who p code v) s = .next (s.setFld F.EP_STAT_MODEERR p.val 1)) ∧
        (code.val = 5 ∨ tt = true ∧ 3 ≤ code.val → exec (.epValueWrite who p code v) s = .next (done kept)) ∧
        (tt = false → code.val < 5 → (∀ l, s.epLambda p.val code.val = some l → by_ ≤ l ∨ l ≤ s.now) →
          exec (.epValueWrite who p code v) s = .next (done shadow)) ∧
        (∀ l, tt = false → code.val < 5 → s.epLambda p.val code.val = some l → s.now < l → l < by_ →
          exec (.epValueWrite who p code v) s = (done (shadow.epLate p.val s.now false)).ends)) ∧
    (∀ (p : Fin 204) (code at_ : Nat) (x : Nat × Nat × Word) (rest : List (Nat × Nat × Word)), 
        let old := (s.ep p.val).held.filter (fun y => y.1 == code && decide (at_ / 128 < y.2.1))
        (old = [] → s.epTaken p.val (epValueReg code) code at_ = s.regN (epValueReg code) p.val) ∧
        (old = x :: rest → s.epTaken p.val (epValueReg code) code at_ = x.2.2.toNat)) ∧
    (∀ (e : Fin 512) (p : Fin 204) (code : Fin 6) (v : Word), s.Takes (.lane e) (epValueReg code.val) p.val → (s.flag F.EP_CTL_TT p.val = true → 3 ≤ code.val) → (∃ x, (s.ep p.val).lanes.find? (fun x => x.1 == code.val && x.2.at_ == s.now) = some x ∧ x.2.eng < e.val) → exec (.epValueWrite (.lane e) p code v) s = .next (s.bump F.EP_COUNT_DROPCNT F.EP_COUNT_DROPSAT p.val)) ∧
    (∀ (who : Initiator) (p : Fin 204) (v : Word), 
        let lane : Option Nat := match who with | .lane e => some e.val | _ => none
        let o := s.pair .EP_ORIGINL .EP_ORIGINH p.val * 128 + v.toNat % 128
        let u := (s.setRegN .EP_ORIGINF p.val (v.toNat % 2 ^ 7)).modEp p.val (fun x => { x with armed := true, origin := o })
        let early := s.epEarliest p.val s.now
        let len := s.epLen p.val (max 16 (s.regN .EP_PERIOD p.val))
        let late (start : Nat) := repeatN ((s.ep p.val).held.countP (fun x => decide (start / 128 < x.2.1))) (fun _ x => x.epLate p.val s.now false) u
        let begin_ (start : Nat) := (late start).modEp p.val (fun x => { x with set := true, start := start })
        let done (x : State) := x.epRecord s p.val 0x10 s.now lane
        s.Takes who .EP_ORIGINF p.val → (s.ep p.val).lanes.find? (fun x => x.1 == 0x10 && x.2.at_ == s.now) = none → s.flag F.EP_STAT_STARTED p.val = false → s.flag F.EP_CTL_TT p.val = false → (s.flag F.EP_CTL_ENABLE p.val = false → exec (.epOriginWrite who p 2 v) s = .next (done u)) ∧
        (s.flag F.EP_CTL_ENABLE p.val = true → early ≤ o → exec (.epOriginWrite who p 2 v) s = (done (begin_ o)).ends) ∧
        (s.flag F.EP_CTL_ENABLE p.val = true → o < early →
          exec (.epOriginWrite who p 2 v) s = (done ((begin_ (o + (early - o + len - 1) / len * len)).setFld F.EP_STAT_LATE p.val 1)).ends)) ∧
    (∀ (who : Initiator) (p : Fin 204) (part : Fin 3) (v : Word), 
        let lane : Option Nat := match who with | .lane e => some e.val | _ => none
        let r : Reg := if part.val = 0 then .EP_ORIGINL else if part.val = 1 then .EP_ORIGINH else .EP_ORIGINF
        (s.Takes who .EP_ORIGINL p.val ∧ s.Takes who .EP_ORIGINH p.val ∧ s.Takes who .EP_ORIGINF p.val) → (s.ep p.val).lanes.find? (fun x => x.1 == 0x10 && x.2.at_ == s.now) = none → (s.flag F.EP_STAT_STARTED p.val = true ∨ s.flag F.EP_CTL_TT p.val = true → exec (.epOriginWrite who p part v) s = .next (s.setFld F.EP_STAT_MODEERR p.val 1)) ∧
        (s.flag F.EP_STAT_STARTED p.val = false → s.flag F.EP_CTL_TT p.val = false → part.val < 2 → exec (.epOriginWrite who p part v) s =
          .next ((s.setRegN r p.val v.toNat).epRecord s p.val 0x10 s.now lane))) ∧
    (∀ (e : Fin 512) (n : Fin 192) (field : Fin 4) (v : Word) (fine : Fin 128), 
        let p := s.epPhys n.val
        s.slotInEpoch (e.val / 8) (s.physOf e.val) = true → s.answers (0x400170000 + p * 0x100) = true → s.planOwns 2 n.val = true → exec (.epTimetableWrite e n field v fine) s =
          (s.epEdge p (decide (2 ≤ field.val)) (decide (field.val % 2 = 0)) (expandShort s.now v.toNat * 128 + fine.val) s.now (some e.val)).ends) ∧
    (∀ (e : Fin 512) (n : Fin 192) (field : Fin 4) (v : Word) (fine : Fin 128), s.slotInEpoch (e.val / 8) (s.physOf e.val) = false → exec (.epTimetableWrite e n field v fine) s = .next (s.bump F.SQ_FENCED_COUNT F.SQ_FENCED_SAT (e.val / 8))) ∧
    (∀ (who : Initiator) (p : Fin 204) (v : Word), 
        let lane : Option Nat := match who with | .lane e => some e.val | _ => none
        s.Takes who .EP_QPUSH p.val → exec (.qpush who p v) s =
          (s.epEdge p.val (bit 9 v.toNat) (!bit 8 v.toNat) (expandShort s.now (s.regN .EP_QTIME p.val) * 128 + v.toNat % 128) s.now lane true).ends) ∧
    (∀ (p : Fin 204) (b lvl push : Bool) (at_ : Nat) (lane : Option Nat), 
        let x := s.ep p.val
        let o := x.outp b
        let key := (if b then 0x22 else 0x20) + if push then 4 else 0
        let early := s.epEarliest p.val s.now
        let done (y : State) := y.epRecord s p.val key s.now lane
        let put (i : Nat) := s.modEp p.val (fun y => y.setOutp b { y.outp b with queue := o.queue ++ [⟨i, lvl, s.now⟩] })
        let open_ := s.flag F.EP_STAT_TRIPPED p.val = false ∧ x.relAt ≠ s.now + 1 ∧ o.queue.length < 16
        let inOrder := ∀ q, (match o.queue.getLast? with | some q => some q.at_ | none => o.last) = some q → q + 512 ≤ at_
        x.lanes.filter (fun y => raceMeets y.1 key && y.2.at_ == s.now) = [] → (s.flag F.EP_CTL_TT p.val = false ∨ (b = true ∧ s.flag F.EP_CTL_COMPL p.val = true) →
          s.epEdge p.val b lvl at_ s.now lane push = s.setFld F.EP_STAT_MODEERR p.val 1) ∧
        (s.flag F.EP_CTL_TT p.val = true → b = false ∨ s.flag F.EP_CTL_COMPL p.val = false →
          (s.flag F.EP_STAT_TRIPPED p.val = true ∨ x.relAt = s.now + 1 →
            s.epEdge p.val b lvl at_ s.now lane push = done (s.bump F.EP_COUNT_DROPCNT F.EP_COUNT_DROPSAT p.val)) ∧
          (s.flag F.EP_STAT_TRIPPED p.val = false → x.relAt ≠ s.now + 1 → 16 ≤ o.queue.length →
            s.epEdge p.val b lvl at_ s.now lane push = done (s.setFld F.EP_STAT_QFULL p.val 1)) ∧
          (open_ → ¬ inOrder → s.epEdge p.val b lvl at_ s.now lane push = done (s.setFld F.EP_STAT_ORDER p.val 1)) ∧
          (open_ → inOrder → o.queue ≠ [] ∨ early ≤ at_ → s.epEdge p.val b lvl at_ s.now lane push = done ((put at_).epQstat p.val)) ∧
          (open_ → inOrder → o.queue = [] → at_ < early →
            s.epEdge p.val b lvl at_ s.now lane push = done ((((put early).epLate p.val s.now false)).epQstat p.val)))) ∧
    (∀ (who : Initiator) (p : Fin 204) (v : Word), 
        let lane : Option Nat := match who with | .lane e => some e.val | _ => none
        let x := v.toNat
        let old := s.regN .EP_CTL p.val
        let kx := setBits 1 6 (bits 6 1 old) x % 2 ^ 14
        let took (y : State) (n : Nat) : State := if y.epDrives p.val = false ∧ (bits 8 7 old ≠ bits 8 7 n ∧ bits 8 7 n < 2 ∨ bits 10 9 old ≠ bits 10 9 n ∧ bits 10 9 n < 2) then y.modEp p.val (fun z => { z with cmd := 128 * s.now }) else y
        let u := took (s.setRegN .EP_CTL p.val (x % 2 ^ 14)) x
        let k := took ((s.setFld F.EP_STAT_MODEERR p.val 1).setRegN .EP_CTL p.val kx) x
        let start (y : State) := let y := if bit 3 (y.regN .EP_CTL p.val) then (y.modEp p.val (fun z => { z with b := { z.b with queue := [] } })).epQstat p.val else y; let z := y.modEp p.val (fun z => { z with on := true }); (if (s.ep p.val).set then z else z.epSchedule p.val s.now).epRefresh p.val
        let done (y : State) := y.epRecord s p.val 0x30 s.now lane
        s.Takes who .EP_CTL p.val → (s.ep p.val).lanes.find? (fun x => x.1 == 0x30 && x.2.at_ == s.now) = none → (bit 0 old = false ∨ bits 6 1 old = bits 6 1 x →
          (bit 0 x = true → exec (.epCtlWrite who p v) s = (done (start u)).ends) ∧ (bit 0 x = false → exec (.epCtlWrite who p v) s = (done ((u.epStop p.val).epRefresh p.val)).ends)) ∧
        (bit 0 old = true → bits 6 1 old ≠ bits 6 1 x →
          (bit 0 x = true → exec (.epCtlWrite who p v) s = (done (start k)).ends) ∧ (bit 0 x = false → exec (.epCtlWrite who p v) s = (done ((k.epStop p.val).epRefresh p.val)).ends))) ∧
    (∀ (who : Initiator) (p : Fin 204), 
        let lane : Option Nat := match who with | .lane e => some e.val | _ => none
        let done (y : State) := y.epRecord s p.val 0x31 s.now lane
        s.Takes who .EP_STAT p.val → (s.ep p.val).lanes.find? (fun x => x.1 == 0x31 && x.2.at_ == s.now) = none → (s.flag F.EP_STAT_RBFAULT p.val = true → (∀ g : Fin 12, (s.ep (192 + g.val)).holdBy ≠ some p.val) →
          exec (.rbfaultRelease who p) s = (done ((((s.setFld F.EP_STAT_RBFAULT p.val 0).epResume p.val).regPlain .EP_STAT p.val 0x80))).ends) ∧
        (s.flag F.EP_STAT_RBFAULT p.val = false → exec (.rbfaultRelease who p) s = .next (done (s.regPlain .EP_STAT p.val 0x80)))) ∧
    (∀ (who : Initiator) (g : Fin 12) (m : BitVec 4), 
        let free := s.flag F.EP_STEER_ACTIVE g.val = false ∧ s.epDrives (s.epPhys (16 * g.val + m.toNat)) = false ∧ s.flag F.EP_CTL_ENABLE (192 + g.val) = false
        s.Takes who .EP_STEER g.val → (free → exec (.steer who g m) s =
          ((((s.setFld F.EP_STEER_MEMBER g.val m.toNat).setFld F.EP_STEER_ACTIVE g.val 1).setFld F.EP_STEER_BUSY g.val 1).note .degr).ends) ∧
        (¬ free → exec (.steer who g m) s = .next (s.setFld F.EP_STEER_ERR g.val 1))) ∧
    (∀ (who : Initiator) (g : Fin 12), 
        let k := s.fld F.EP_STEER_MEMBER g.val
        let r := 192 + g.val
        let u := ((s.setFld F.EP_STEER_MEMBER g.val k).setFld F.EP_STEER_ACTIVE g.val 0).setFld F.EP_STEER_BUSY g.val 0
        let v := (((u.epStop r).setFld F.EP_CTL_ENABLE r 0).epRefresh r).note .degr
        s.Takes who .EP_STEER g.val → (s.inRun = true → exec (.unsteer who g) s = .next (s.setFld F.EP_STEER_ERR g.val 1)) ∧
        (s.inRun = false → exec (.unsteer who g) s = (v.fltPair (16 * g.val + k) v.now).ends))

/-- R168 to R170, R173, R174, R176, R180, R183 and R185. Each of LOAD_POINT, PEAK_LOAD_POINT, COMPARE_MATCH, TIMETABLE_EDGE, DEAD_TIME_EXPIRY, MAXON_EXPIRY, READBACK_MISMATCH, STEER_COMPLETE completes: in every state and for all operands that meet the conditions of a clause here, exec answers a next state, the one that the clause gives. Where it rests on choices of the model: log entries 29, 79, 119, 130, 131. -/
def Obligations.EdgeTimes : Prop :=
  ∀ (s : State), s.Quiet →
    (∀ (p : Fin 204) (at_ : Nat), 
        let first := !s.flag F.EP_STAT_STARTED p.val
        let per := s.epTaken p.val .EP_PERIOD 2 at_
        let rise := s.epTaken p.val .EP_DTRISE 3 at_
        let fall := s.epTaken p.val .EP_DTFALL 4 at_
        let u := (s.reach (at_ / 128)).epTakeDuties p.val at_ true
        let v := if per < 16 then u.setFld F.EP_STAT_CLAMP p.val 1 else u
        let w := v.modEp p.val (fun x => { x with
          pstart := at_, per := max 16 per, rise := rise, fall := fall, peak := false, term := false, set := true,
          a := { x.a with phase := 0 }, b := { x.b with phase := 0 } })
        let x := w.ep p.val
        let sa := decide (0 < compareAt x.dutyA x.per)
        let sb := decide (0 < compareAt x.dutyB x.per)
        let z := w.setFld F.EP_STAT_STARTED p.val 1
        let out := if first || (x.wait && !z.flag F.EP_STAT_TRIPPED p.val && !z.flag F.EP_STAT_RBFAULT p.val) then z.epFromRest p.val sa sb at_ else (z.epRef p.val false sa at_).epRef p.val true sb at_
        let sent := out.epEvent p.val 0 (at_ / 128)
        s.engClock = true → s.epNextLoad p.val = some at_ → s.flag F.EP_CTL_ENABLE p.val = true → (∀ n, sent.epLogical p.val = some n → exec (.loadPoint p) s = (sent.note (.load n at_)).ends) ∧
        (sent.epLogical p.val = none → exec (.loadPoint p) s = sent.ends)) ∧
    (∀ (p : Fin 204) (b : Bool), s.engClock = true → (s.epNextLoad p.val = none ∨ s.flag F.EP_CTL_ENABLE p.val = false → exec (.loadPoint p) s = .next s) ∧
        (s.epNextPeak p.val = none → exec (.peakLoadPoint p) s = .next s) ∧
        (∀ at_, s.epNextPeak p.val = some at_ →
          exec (.peakLoadPoint p) s = .next (((s.reach (at_ / 128)).epTakeDuties p.val at_ false).modEp p.val (fun x => { x with peak := true }))) ∧
        (s.epNextCompare p.val b = none → exec (.compareMatch p b) s = .next s) ∧
        (∀ at_ lvl ph, s.epNextCompare p.val b = some (at_, lvl, ph) →
          let u := (s.reach (at_ / 128)).modEp p.val (fun x => x.setOutp b { x.outp b with phase := ph })
          (lvl = true → b = false → (s.ep p.val).term = true → exec (.compareMatch p b) s = .next u) ∧
          (lvl = false ∨ b = true ∨ (s.ep p.val).term = false → exec (.compareMatch p b) s = (u.epRef p.val b lvl at_).ends))) ∧
    (∀ (p : Fin 204), 
        let x := s.ep p.val
        let half := x.per * 128
        let c := compareAt x.dutyA x.per
        s.flag F.EP_STAT_STARTED p.val = true → s.flag F.EP_CTL_UPDN p.val = false → x.a.phase = 0 → 0 < c → c < half → s.epNextCompare p.val false = some (x.pstart + c, false, 1) ∧ s.epNextLoad p.val = some (x.pstart + half)) ∧
    (∀ (p : Fin 204) (b : Bool) (q : QEdge) (rest : List QEdge), 
        let t := q.at_ / 128
        let held := s.flag F.EP_STAT_TRIPPED p.val || s.flag F.EP_STAT_RBFAULT p.val
        let u := ((s.reach t).modEp p.val (fun x => { x.setOutp b { x.outp b with queue := rest, last := some q.at_ } with wait := if held then x.wait else false })).epQstat p.val
        let v := if q.lvl && !b then u.modEp p.val (fun x => { x with term := false, aonAt := t + 1, aonA := x.a, aonB := x.b }) else u
        let x := v.ep p.val
        let ended := (x.outp b).ref == q.lvl && (if s.flag F.EP_CTL_COMPL p.val then (x.outp (!q.lvl)).maxed else q.lvl && (x.outp b).maxed)
        let made := if ended then v.epFollow p.val b q.lvl q.at_ else v.epRef p.val b q.lvl q.at_
        s.engClock = true → s.flag F.EP_CTL_TT p.val = true → ((s.ep p.val).outp b).queue = q :: rest → (q.lvl = true → b = false → (s.ep p.val).termAt = t + 1 → exec (.timetableEdge p b) s = .next u) ∧
        (q.lvl = false ∨ b = true → exec (.timetableEdge p b) s = made.ends) ∧
        (q.lvl = true → b = false → (s.ep p.val).termAt ≠ t + 1 →
          (∀ n, made.epLogical p.val = some n → exec (.timetableEdge p b) s = (made.note (.load n q.at_)).ends) ∧
          (made.epLogical p.val = none → exec (.timetableEdge p b) s = made.ends))) ∧
    (∀ (p : Fin 204) (b : Bool), 
        let o := (s.ep p.val).outp b
        let m := s.regN .EP_MAXON p.val
        s.engClock = true → (o.queue = [] ∨ s.flag F.EP_CTL_TT p.val = false → exec (.timetableEdge p b) s = .next s) ∧ (o.dt = none → exec (.deadTimeExpiry p b) s = .next s) ∧
        (∀ at_ r, o.dt = some at_ → s.epNextRef p.val = some r → r ≤ at_ → exec (.deadTimeExpiry p b) s = .next s) ∧
        (∀ at_, o.dt = some at_ → (∀ r, s.epNextRef p.val = some r → at_ < r) → exec (.deadTimeExpiry p b) s =
          ((((s.reach (at_ / 128)).modEp p.val (fun x => x.setOutp b { x.outp b with dt := none })).epSetOut p.val b true at_)).ends) ∧
        ((s.ep p.val).maxAt * 128 ≤ o.on → s.epLimit p.val o.on = if m = 0 then none else some (o.on + m * 128)) ∧
        (o.out = false ∨ s.epLimit p.val o.on = none → exec (.maxonExpiry p b) s = .next s) ∧
        (∀ at_, o.out = true → s.epLimit p.val o.on = some at_ →
          let u := ((s.reach (at_ / 128)).epSetOut p.val b false at_).modEp p.val (fun x => x.setOutp b { x.outp b with maxed := true })
          let v := (u.setFld F.EP_STAT_MAXON p.val 1).raiseEv 16 10 p.val
          (∀ n, v.epLogical p.val = some n → exec (.maxonExpiry p b) s = (v.note (.flush n at_)).ends) ∧ (v.epLogical p.val = none → exec (.maxonExpiry p b) s = v.ends))) ∧
    (∀ (p : Fin 204), (s.flag F.EP_CTL_RBEN p.val = true → s.epLevels p.val = true → s.flag F.EP_STAT_RBFAULT p.val = false → (s.ep p.val).cmd / 128 + 32 ≤ s.now → exec (.readbackMismatch p) s =
          ((((((s.modEp p.val Pair.rest).setFld F.EP_STAT_RBFAULT p.val 1).raiseEv 16 10 p.val).epRefresh p.val)).steerAuto p.val).ends) ∧
        (s.flag F.EP_CTL_RBEN p.val = false ∨ s.epLevels p.val = false ∨ s.now < (s.ep p.val).cmd / 128 + 32 → s.flag F.EP_STAT_RBFAULT p.val = false →
          exec (.readbackMismatch p) s = .next s)) ∧
    (∀ (g : Fin 12), 
        let p := 16 * g.val + s.fld F.EP_STEER_MEMBER g.val
        let r := 192 + g.val
        let u := epCopied.foldl (fun s x => s.setReg x r (s.reg x p)) s
        let v := (u.setFld F.EP_STAT_STARTED r (u.fld F.EP_STAT_STARTED p)).setFld F.EP_STAT_TRIPPED r (u.fld F.EP_STAT_TRIPPED p)
        let x := v.ep p
        let w := ((v.setEp r { x with holdBy := if s.flag F.EP_STAT_RBFAULT p then some p else none, driven := false, lanes := [], a := { x.a with queue := [] }, b := { x.b with queue := [] } }).epQstat r).setFld F.EP_STEER_BUSY g.val 0
        (s.flag F.EP_STEER_BUSY g.val = false → exec (.steerComplete g) s = .next s) ∧
        (s.flag F.EP_STEER_BUSY g.val = true → exec (.steerComplete g) s =
          (((((w.epStop p).setFld F.EP_CTL_ENABLE p 0).setFld F.EP_STAT_TRIPPED p 0).epRefresh p).epRefresh r).ends)) ∧
    (s.engClock = false → (∀ (p : Fin 204), exec (.loadPoint p) s = .next s) ∧ (∀ (p : Fin 204), exec (.peakLoadPoint p) s = .next s) ∧ (∀ (p : Fin 204) (b : Bool), exec (.compareMatch p b) s = .next s) ∧ (∀ (p : Fin 204) (b : Bool), exec (.timetableEdge p b) s = .next s) ∧ (∀ (p : Fin 204) (b : Bool), exec (.deadTimeExpiry p b) s = .next s) ∧ (∀ (p : Fin 204) (b : Bool), exec (.maxonExpiry p b) s = .next s))

/-- R198 to R202, R205, R207, R210 to R215. Each of SWTRIG, CONVERTER_DISABLE, ARM, TIMED_TRIGGER, SCAN_START, SCAN_END, HANDOVER_COMPARE, POSITION_DELIVERY, HANDOVER_DUE, UNCHECKED_HANDOVER, CALIBRATION_DONE completes: in every state and for all operands that meet the conditions of a clause here, exec answers a next state, the one that the clause gives. Where it rests on choices of the model: log entries 30, 31, 32, 121, 132. -/
def Obligations.Converters : Prop :=
  ∀ (s : State), s.Quiet →
    (∀ (who : Initiator) (c : Fin 64), 
        let old := s.regN .CV_CTL c.val
        let armed := s.flag F.CV_CTL_ARM c.val
        let h := s.cvHold c.val s.now
        let u := h.setRegN .CV_CTL c.val (setBits 5 3 (b2n armed) (setBits 6 1 1 old) % 2 ^ 20)
        let v := if armed then u else u.setFld F.CV_CTL_ARM c.val 0
        s.Takes who .CV_CTL c.val → bits 2 1 old ≠ 3 → (s.flag F.CV_CTL_EN c.val = true → exec (.swtrig who c) s = ((v.cvPresent c.val ((s.now + 8) * 128) s.now none).msrWatch).ends) ∧
        (s.flag F.CV_CTL_EN c.val = false → exec (.swtrig who c) s = ((u.cvDisable c.val s.now).msrWatch).ends) ∧
        exec (.converterDisable who c) s = (((h.setRegN .CV_CTL c.val (setBits 5 3 (b2n armed) (setBits 0 1 0 old) % 2 ^ 20)).cvDisable c.val s.now).msrWatch).ends) ∧
    (∀ (c : Fin 64) (inst t : Nat) (cause : Option Lineage), 
        let x := s.conv c.val
        let over_ := (s.setFld F.CV_STAT_OVR c.val 1).bump F.CV_COUNT_OVRCNT F.CV_COUNT_OVRSAT c.val
        s.alive (cvDom c.val) = true → s.flag F.CV_CTL_EN c.val = true → (s.flag F.CV_ROTSTAT_CALDONE (c.val / 8) = false → s.cvPresent c.val inst t cause = s.setFld F.CV_STAT_NRDY c.val 1) ∧
        (s.flag F.CV_ROTSTAT_CALDONE (c.val / 8) = true → x.pend = none → (∀ y, x.running = some y → y.stop ≤ inst) →
          s.cvPresent c.val inst t cause = (s.setConv c.val { x with pend := some (inst, cause) }).setFld F.CV_STAT_BUSY c.val 1) ∧
        (∀ y, s.flag F.CV_ROTSTAT_CALDONE (c.val / 8) = true → x.pend = none → x.running = some y → inst < y.stop →
          s.cvPresent c.val inst t cause = over_.emit (0x581 + 4 * c.val) t (cvDom c.val) cause) ∧
        (∀ p, s.flag F.CV_ROTSTAT_CALDONE (c.val / 8) = true → x.pend = some p → p.1 = inst → s.cvPresent c.val inst t cause = s) ∧
        (∀ p, s.flag F.CV_ROTSTAT_CALDONE (c.val / 8) = true → x.pend = some p → p.1 ≠ inst →
          s.cvPresent c.val inst t cause = over_.emit (0x581 + 4 * c.val) t (cvDom c.val) cause)) ∧
    (∀ (who : Initiator) (c : Fin 64) (v : Word), 
        let x := v.toNat
        let first := s.pair .CV_TRIGL .CV_TRIGH c.val * 128 + x % 128
        let per := s.regN .CV_TPER c.val * 128
        let lim := (s.now + 8) * 128
        let u := s.setRegN .CV_TRIGF c.val (x % 2 ^ 7)
        let arm (next : Nat) := (u.setConv c.val { s.conv c.val with next := next }).setFld F.CV_CTL_ARM c.val 1
        s.Takes who .CV_TRIGF c.val → (lim ≤ first → exec (.arm who c true v) s = .next (arm first)) ∧
        (first < lim → per = 0 → exec (.arm who c true v) s = .next ((arm (lim + x % 128)).setFld F.CV_STAT_LATE c.val 1)) ∧
        (first < lim → per ≠ 0 → exec (.arm who c true v) s = .next ((arm (first + (lim - first + per - 1) / per * per)).setFld F.CV_STAT_LATE c.val 1))) ∧
    (∀ (who : Initiator) (c : Fin 64) (v : Word), 
        let x := v.toNat
        let h := s.cvHold c.val s.now
        let u := h.setRegN .CV_CTL c.val (setBits 5 3 0 x % 2 ^ 20)
        s.Takes who .CV_CTL c.val → s.flag F.CV_CTL_ARM c.val = false → (bits 2 1 x = 3 → exec (.arm who c false v) s = ((h.setFld F.CV_STAT_CFGERR c.val 1).msrWatch).ends) ∧
        (bits 2 1 x ≠ 3 → bit 0 x = true → bit 5 x = true → bit 6 x = false → exec (.arm who c false v) s = ((u.cvArm c.val s.now).msrWatch).ends) ∧
        (bits 2 1 x ≠ 3 → bit 0 x = false → exec (.arm who c false v) s = ((u.cvDisable c.val s.now).msrWatch).ends)) ∧
    (∀ (c : Fin 64), 
        let x := s.conv c.val
        let per := s.regN .CV_TPER c.val * 128
        let t := x.next / 128 - 8
        let u := s.reach t
        let v := if per = 0 then u.setFld F.CV_CTL_ARM c.val 0 else u.setConv c.val { x with next := x.next + per }
        s.engClock = true → (s.flag F.CV_CTL_ARM c.val = false → exec (.timedTrigger c) s = .next s) ∧
        (s.flag F.CV_CTL_ARM c.val = true → bit 0 (s.fld F.CV_CTL_TRIGSEL c.val) = true → exec (.timedTrigger c) s = (v.cvPresent c.val x.next t none).ends) ∧
        (s.flag F.CV_CTL_ARM c.val = true → bit 0 (s.fld F.CV_CTL_TRIGSEL c.val) = false → exec (.timedTrigger c) s = .next v)) ∧
    (∀ (c : Fin 64) (inst : Nat) (cause : Option Lineage), 
        let x := s.conv c.val
        let t := inst / 128
        let u := s.reach t
        let srcs := (List.range 12).filter (fun i => bit i (s.cvField c.val t F.CV_SCAN_MASK))
        let hand := s.rotReady (c.val / 8) && (s.rotNext (c.val / 8)).1 == c.val % 8
        s.engClock = true → x.pend = some (inst, cause) → (srcs = [] → exec (.scanStart c) s = .next ((u.setConv c.val { x with pend := none }).cvShow c.val)) ∧
        (srcs ≠ [] → exec (.scanStart c) s = .next ((u.setConv c.val { x with
            pend := none
            scans := x.scans ++ [⟨inst, srcs, max 50 (s.cvField c.val t F.CV_CTL_PACE), s.cvField c.val t F.CV_CTL_FMT, (s.cvSet c.val t .CV_GAIN).toNat,
              s.cvField c.val t F.CV_FRONT_BIAS, s.cvSet c.val t .CV_USCALE, s.cvSet c.val t .CV_UOFF, 0, hand, u.cvSlice c.val, [], [], 0, [], false, cause⟩] }).cvShow c.val))) ∧
    (∀ (c : Fin 64) (v : BitVec 32), s.engClock = true → ((s.conv c.val).pend = none → exec (.scanStart c) s = .next s) ∧
        ((s.conv c.val).running = none → exec (.scanEnd c) s = .next s ∧ ∀ a b, exec (.handoverCompare c a b) s = .next s) ∧
        (s.meas = none → (s.conv c.val).toDeliver = none → exec (.positionDelivery c v) s = .next s)) ∧
    (∀ (c : Fin 64) (z : BitVec 32) (i : Nat) (y : Scan), 
        let x := s.conv c.val
        let k := y.done
        let src := y.srcs.getD k 0
        let t := y.at_ / 128 + k * y.pace + 56
        let code := (y.codes[k]?).getD (s.sliceCode y y.slice src z.toInt)
        let q := y.seqs.headD ((Tab.look (fun _ => 0) x.seq src + 1) % 256)
        let seq := if y.seqs = [] then Tab.put (fun _ => 0) x.seq src q else x.seq
        let err := y.fails.contains k
        let u := (s.reach t).setConv c.val ({ x with seq := seq, scans := x.scans.set i { y with done := k + 1, seqs := y.seqs.tail } } : Conv).tidy
        let v := (u.cvDeliver c.val src t (y.word src code q err)).setRegN .CV_LAST c.val (code + src * 2 ^ 16 + q * 2 ^ 20 + b2n err * 2 ^ 28)
        let w := if codeClamped src code then ((v.setFld F.CV_STAT_RANGE c.val 1).bump F.CV_COUNT_RANGECNT F.CV_COUNT_RANGESAT c.val).emit (0x580 + 4 * c.val) t (cvDom c.val) y.cause else v
        s.engClock = true → s.meas = none → x.toDeliver = some i → x.scans[i]? = some y → (k + 1 ≠ y.srcs.length → exec (.positionDelivery c z) s = w.ends) ∧
        (k + 1 = y.srcs.length → exec (.positionDelivery c z) s = (w.emit (0x583 + 4 * c.val) t (cvDom c.val) y.cause).ends)) ∧
    (∀ (c : Fin 64) (y : Scan), 
        let x := s.conv c.val
        let g := c.val / 8
        let seqs := (s.reach (y.stop / 128)).cvDraw c.val (y.srcs.drop y.done)
        let u := (seqs.2.setConv c.val ({ seqs.2.conv c.val with scans := x.scans.map (fun (z : Scan) => if z.at_ = y.at_ then { z with ended := true, seqs := seqs.1 } else z) } : Conv).tidy).cvShow c.val
        let sp := u.fld F.CV_ROTSTAT_SPARE g
        s.engClock = true → x.running = some y → (y.hand = false ∨ y.comp < y.srcs.length → exec (.scanEnd c) s = .next u) ∧
        (y.hand = true → y.srcs.length ≤ y.comp → y.fails = [] → exec (.scanEnd c) s = .next ((u.rotStep g 1).rotSettle g false)) ∧
        (y.hand = true → y.srcs.length ≤ y.comp → y.fails ≠ [] → (s.rot g).retry = true →
          exec (.scanEnd c) s = (((u.rotStep g 3).rotSettle g false).rotNoSpare g).ends) ∧
        (y.hand = true → y.srcs.length ≤ y.comp → y.fails ≠ [] → (s.rot g).retry = false →
          exec (.scanEnd c) s = .next ((u.setSlice (9 * g + sp) 1 0).rotSettle g true))) ∧
    (∀ (c : Fin 64) (a b : BitVec 32) (y : Scan), 
        let x := s.conv c.val
        let k := y.comp
        let src := y.srcs.getD k 0
        let t := y.at_ / 128 + k * y.pace + 48
        let ka := s.sliceCode y y.slice src a.toInt
        let kb := s.sliceCode y (9 * (c.val / 8) + s.fld F.CV_ROTSTAT_SPARE (c.val / 8)) src b.toInt
        let num (n : Nat) : Int := if isDiff src then sext 16 n else n
        let ok := (num ka - num kb).natAbs ≤ max 1 (s.fld F.CV_ROT_CMPTOL (c.val / 8))
        let up (f : List Nat) := (s.reach t).setConv c.val { x with scans := x.scans.map (fun (z : Scan) => if z.at_ = y.at_ then { y with comp := k + 1, codes := y.codes ++ [ka], fails := f } else z) }
        let bad := ((up (y.fails ++ [k])).setFld F.CV_STAT_MISMATCH c.val 1).bump F.CV_ROTSTAT_MISCNT F.CV_ROTSTAT_MISSAT (c.val / 8)
        x.running = some y → y.hand = true → y.comp < y.srcs.length → (ok → exec (.handoverCompare c a b) s = .next (up y.fails)) ∧ (¬ ok → y.fails ≠ [] → exec (.handoverCompare c a b) s = .next (up (y.fails ++ [k]))) ∧
        (¬ ok → y.fails = [] → exec (.handoverCompare c a b) s = ((bad.emit (0x582 + 4 * c.val) t (cvDom c.val) y.cause).raiseEv (cvDom c.val) 9 c.val).ends)) ∧
    (∀ (g : Fin 8), 
        let c := 8 * g.val + (s.rotNext g.val).1
        s.engClock = true → (∀ t, (s.rot g.val).next = some t → s.flag F.CV_ROT_ROTEN g.val = true → s.flag F.CV_ROTSTAT_NOSPARE g.val = false →
          exec (.handoverDue g) s = .next ((s.reach t).setRot g.val { s.rot g.val with next := none, due := some t })) ∧
        ((s.rot g.val).next = none → exec (.handoverDue g) s = .next s) ∧ ((s.rot g.val).due = none → exec (.uncheckedHandover g) s = .next s) ∧
        (∀ d, (s.rot g.val).due = some d → s.rotReady g.val = true → (s.conv c).pend = none → (s.conv c).running = none →
          exec (.uncheckedHandover g) s = .next (((((s.reach (d + s.rotInt g.val)).setFld F.CV_STAT_UNCHECKED c 1).bump F.CV_ROTSTAT_UNCHKCNT
            F.CV_ROTSTAT_UNCHKSAT g.val).rotStep g.val 1).rotSettle g.val false)) ∧
        (s.rotReady g.val = false → exec (.uncheckedHandover g) s = .next s)) ∧
    (∀ (n : Fin 72) (fits : Bool) (offs gainc : BitVec 16), 
        let g := n.val / 9
        let j := n.val % 9
        let sp := s.fld F.CV_ROTSTAT_SPARE g
        let dom := anaDom (n.val < 36)
        let pass := fits = true ∧ offs.toInt.natAbs ≤ 64 * 16 ∧ gainc.toInt.natAbs * 100 ≤ 2 ^ 20
        let u := (s.setRegN .SL_CAL n.val (offs.toNat + gainc.toNat * 2 ^ 16)).bump F.SL_STAT_CALCNT F.SL_STAT_CALSAT n.val
        let v := if j = sp then u.setSlice n.val 2 0 else u.setSlice n.val 0 (if j < sp then j else j - 1)
        let f := ((s.setSlice n.val 3 0).setFld F.SL_STAT_CALFAIL n.val 1).raiseEv dom 9 (8 * g + min j 7)
        let shift := repeatN 9 (fun i (x : State) => if x.fld F.SL_STAT_STATE (9 * g + i) = 0 ∨ (i = sp ∧ x.fld F.SL_STAT_STATE (9 * g + i) = 2) then x.setSlice (9 * g + i) 0 (if i < j then i else i - 1) else x) (f.setFld F.CV_ROTSTAT_SPARE g j)
        let out := (if j = sp then f else shift).rotNoSpare g
        let all_ (x : State) := ∀ i : Fin 9, x.fld F.SL_STAT_STATE (9 * g + i.val) ≠ 1
        let some_ (x : State) := ∃ i : Fin 9, x.fld F.SL_STAT_STATE (9 * g + i.val) = 1
        (s.alive dom = false ∨ s.fld F.SL_STAT_STATE n.val ≠ 1 → exec (.calibrationDone n fits offs gainc) s = .next s) ∧
        (s.alive dom = true → s.fld F.SL_STAT_STATE n.val = 1 → pass →
          (all_ v → exec (.calibrationDone n fits offs gainc) s = .next (v.setFld F.CV_ROTSTAT_CALDONE g 1)) ∧ (some_ v → exec (.calibrationDone n fits offs gainc) s = .next v)) ∧
        (s.alive dom = true → s.fld F.SL_STAT_STATE n.val = 1 → ¬ pass →
          (all_ out → exec (.calibrationDone n fits offs gainc) s = (out.setFld F.CV_ROTSTAT_CALDONE g 1).ends) ∧
          (some_ out → exec (.calibrationDone n fits offs gainc) s = out.ends))) ∧
    (∀ (k : Nat) (z : Int), 
        let q := rndShift k z
        let d := (q * 2 ^ k - z).natAbs * 2
        (d ≤ 2 ^ k ∧ (d = 2 ^ k → q % 2 = 0))) ∧
    (∀ (cal src : Nat) (raw : Int), 
        let o := sext 16 (bits 15 0 cal)
        let m := 2 ^ 20 + sext 16 (bits 31 16 cal)
        let n := rndShift 24 ((raw * 16 + o) * m)
        let code := calCode cal src raw
        (isDiff src = true → sext 16 code = max (-32768) (min 32767 n)) ∧ (isDiff src = false → (code : Int) = max 0 (min 65535 n)) ∧ code < 65536) ∧
    (s.engClock = false → (∀ (c : Fin 64), exec (.timedTrigger c) s = .next s) ∧ (∀ (c : Fin 64), exec (.scanStart c) s = .next s) ∧ (∀ (c : Fin 64), exec (.scanEnd c) s = .next s) ∧ (∀ (c : Fin 64) (v : BitVec 32), exec (.positionDelivery c v) s = .next s) ∧ (∀ (g : Fin 8), exec (.handoverDue g) s = .next s) ∧ (∀ (g : Fin 8), exec (.uncheckedHandover g) s = .next s))

/-- R228 to R249 and the table of R243 and R244. Each of COMPARATOR_ASSERT, COMPARATOR_RELEASE, BLANKING_END, CMP_STEER, CMP_UNSTEER, CMP_STEER_COMPLETE, NET_TRIP, NET_RELEASE, FOLLOW_RELEASE, SWTRIP, TDATA completes: in every state and for all operands that meet the conditions of a clause here, exec answers a next state, the one that the clause gives. Where it rests on choices of the model: log entries 15, 40, 121. -/
def Obligations.Trips : Prop :=
  ∀ (s : State), s.Quiet →
    let now_ (n : Nat) := s.srcRoute n s.now
    let late (n : Nat) := if s.fltFresh n s.now && s.flag F.FLT_SRCE_ACTIVE n then s.srcRoute n (s.now + 1) else none
    (∀ (c d : Nat) (v : BitVec 32), 
        let pin (k : Nat) := s.fld F.CMP_CTL_INPUT k + (if k < 96 ∨ (192 ≤ k ∧ k < 198) then 0 else 160)
        (pin d = pin c → (s.setAin c v).cmpSees d = v.toInt + (if s.flag F.CMP_CTL_BIAS d then 2048 * 2 ^ 16 else 0)) ∧ (pin d ≠ pin c → (s.setAin c v).cmpSees d = s.cmpSees d)) ∧
    (∀ (c : Fin 204) (v : BitVec 32), 
        let u := s.setAin c.val v
        let x := v.toInt + (if s.flag F.CMP_CTL_BIAS c.val then 2048 * 2 ^ 16 else 0)
        let mode := s.fld F.CMP_CTL_MODE c.val
        let hi : Int := s.cmpHi c.val s.now * 2 ^ 16
        let lo : Int := (s.cmp c.val).loIn s.now * 2 ^ 16
        let order := 2 ≤ mode ∧ hi ≤ lo
        let beyond := (mode = 0 ∧ hi < x) ∨ (mode = 1 ∧ x < lo) ∨ (mode = 2 ∧ (hi < x ∨ x < lo)) ∨ (mode = 3 ∧ lo < x ∧ x < hi)
        s.alive (cmpDom c.val) = true → s.flag F.CMP_CTL_EN c.val = true → (order → s.flag F.CMP_STAT_RAW c.val = false → exec (.comparatorAssert c v) s = ((u.setFld F.CMP_STAT_ORDER c.val 1).cmpRaw c.val s.now true).ends) ∧
        (order → s.flag F.CMP_STAT_RAW c.val = true → exec (.comparatorAssert c v) s = .next (u.setFld F.CMP_STAT_ORDER c.val 1)) ∧
        (¬ order → beyond → s.flag F.CMP_STAT_RAW c.val = false → exec (.comparatorAssert c v) s = (u.cmpRaw c.val s.now true).ends) ∧
        (¬ order → ¬ beyond ∨ s.flag F.CMP_STAT_RAW c.val = true → exec (.comparatorAssert c v) s = .next u)) ∧
    (∀ (c : Fin 204) (v : BitVec 32), 
        let u := s.setAin c.val v
        let x := v.toInt + (if s.flag F.CMP_CTL_BIAS c.val then 2048 * 2 ^ 16 else 0)
        let mode := s.fld F.CMP_CTL_MODE c.val
        let h := s.fld F.CMP_HYST_HYST c.val
        let hi := s.cmpHi c.val s.now
        let lo := (s.cmp c.val).loIn s.now
        let order := 2 ≤ mode ∧ hi ≤ lo
        let lv (k : Nat) : Int := k * 2 ^ 16
        let back := (mode = 0 ∧ x < lv (hi - h)) ∨ (mode = 1 ∧ lv (min 4095 (lo + h)) < x) ∨ (mode = 2 ∧ x < lv (hi - h) ∧ lv (min 4095 (lo + h)) < x) ∨ (mode = 3 ∧ (lv (min 4095 (hi + h)) ≤ x ∨ x ≤ lv (lo - h)))
        s.alive (cmpDom c.val) = true → s.flag F.CMP_STAT_RAW c.val = true → (¬ order → back → exec (.comparatorRelease c v) s = (u.cmpRaw c.val s.now false).ends) ∧
        (order ∨ ¬ back → exec (.comparatorRelease c v) s = .next u)) ∧
    (∀ (c : Fin 204) (v : BitVec 32), 
        let u := s.setAin c.val v
        s.engClock = true → (s.alive (cmpDom c.val) = false ∨ s.flag F.CMP_CTL_EN c.val = false → exec (.comparatorAssert c v) s = .next u) ∧
        (s.alive (cmpDom c.val) = false ∨ s.flag F.CMP_STAT_RAW c.val = false → exec (.comparatorRelease c v) s = .next u) ∧ ((s.cmp c.val).blank = none → exec (.blankingEnd c) s = .next s) ∧
        (∀ t, (s.cmp c.val).blank = some t → exec (.blankingEnd c) s = (((s.reach t).setCmp c.val { s.cmp c.val with blank := none }).cmpShow c.val t).ends)) ∧
    (∀ (c : Fin 204) (t : Nat) (lvl : Bool), 
        let u := s.setFld F.CMP_STAT_RAW c.val (b2n lvl)
        let v := (u.setFld F.CMP_STAT_OUT c.val (b2n lvl)).setFld F.CMP_STAT_BLANKING c.val 0
        s.flag F.CMP_CTL_EN c.val = true → (s.cmp c.val).blank = none → (s.cmpLogical c.val = none →
          (s.flag F.CMP_STAT_OUT c.val = lvl ∨ lvl = false → s.cmpRaw c.val t lvl = v) ∧
          (s.flag F.CMP_STAT_OUT c.val = false → lvl = true → s.cmpRaw c.val t lvl = v.bump F.CMP_COUNT_ASSERTCNT F.CMP_COUNT_SAT c.val)) ∧
        (∀ n, s.cmpLogical c.val = some n →
          let f := v.fltLevel n (lvl || !s.alive (cmpDom c.val)) t
          (s.flag F.CMP_STAT_OUT c.val = lvl → s.cmpRaw c.val t lvl = f) ∧
          (s.flag F.CMP_STAT_OUT c.val = true → lvl = false → s.cmpRaw c.val t lvl = f.emit (0x401 + 2 * n) t (cmpDom c.val) none) ∧
          (s.flag F.CMP_STAT_OUT c.val = false → lvl = true →
            s.cmpRaw c.val t lvl = ((f.emit (0x400 + 2 * n) t (cmpDom c.val) none).bump F.CMP_COUNT_ASSERTCNT F.CMP_COUNT_SAT c.val).cmpTerminate c.val t))) ∧
    (∀ (who : Initiator) (g : Fin 12) (m : BitVec 4), 
        let r := 192 + g.val
        let c := 16 * g.val + m.toNat
        let copy := cmpCopied.foldl (fun s x => s.setReg x r (s.reg x c)) s
        let u := copy.setCmp r (copy.cmp c)
        let raw := u.flag F.CMP_CTL_EN r && (u.cmpAsserts r s.now || (u.flag F.CMP_STAT_RAW c && !u.cmpReleases r s.now))
        let v := ((u.setFld F.CMP_STAT_RAW r (b2n raw)).cmpNote r s.now).cmpShow r s.now
        s.Takes who .CMP_STEER g.val → (s.flag F.CMP_STEER_ACTIVE g.val = false → s.flag F.CMP_CTL_EN r = false → exec (.cmpSteer who g m) s =
          ((((v.setFld F.CMP_STEER_MEMBER g.val m.toNat).setFld F.CMP_STEER_ACTIVE g.val 1).setFld F.CMP_STEER_BUSY g.val 1).note .degr).ends) ∧
        (s.flag F.CMP_STEER_ACTIVE g.val = true ∨ s.flag F.CMP_CTL_EN r = true → exec (.cmpSteer who g m) s = .next (s.setFld F.CMP_STEER_ERR g.val 1))) ∧
    (∀ (who : Initiator) (g : Fin 12), 
        let k := s.fld F.CMP_STEER_MEMBER g.val
        let r := 192 + g.val
        let u := ((s.setFld F.CMP_STEER_MEMBER g.val k).setFld F.CMP_STEER_ACTIVE g.val 0).setFld F.CMP_STEER_BUSY g.val 0
        let v := ((u.setFld F.CMP_CTL_EN r 0).setFld F.CMP_STAT_RAW r 0).setFld F.CMP_STAT_OUT r 0
        s.Takes who .CMP_STEER g.val → (s.inRun = true → exec (.cmpUnsteer who g) s = .next (s.setFld F.CMP_STEER_ERR g.val 1)) ∧
        (s.inRun = false → s.flag F.CMP_STEER_ACTIVE g.val = false → exec (.cmpUnsteer who g) s = .next v) ∧
        (s.inRun = false → s.flag F.CMP_STEER_ACTIVE g.val = true → exec (.cmpUnsteer who g) s = ((v.cmpShow (16 * g.val + k) s.now).note .degr).ends)) ∧
    (∀ (g : Fin 12), 
        let c := 16 * g.val + s.fld F.CMP_STEER_MEMBER g.val
        let u := s.setFld F.CMP_STEER_BUSY g.val 0
        (s.flag F.CMP_STEER_BUSY g.val = false → exec (.cmpSteerComplete g) s = .next s) ∧
        (s.flag F.CMP_STEER_BUSY g.val = true → exec (.cmpSteerComplete g) s =
          ((((u.setFld F.CMP_CTL_EN c 0).setFld F.CMP_STAT_RAW c 0).setFld F.CMP_STAT_OUT c 0).cmpShow (192 + g.val) s.now).ends)) ∧
    (∀ (src : Fin 388), 
        let asserts := (320 ≤ src.val ∧ src.val < 384) ∨ src.val = 386 ∨ s.flag F.FLT_SRCE_ACTIVE src.val = true
        (¬ asserts ∨ s.alive 16 = false → exec (.netTrip src) s = .next s) ∧
        (asserts → s.alive 16 = true → late src.val = none → now_ src.val = none → exec (.netTrip src) s = .next s) ∧
        (∀ k, asserts → s.alive 16 = true → late src.val = none → now_ src.val = some k → exec (.netTrip src) s = (s.netAssert k src.val s.now).ends) ∧
        (∀ k, asserts → s.alive 16 = true → late src.val = some k → now_ src.val = none →
          exec (.netTrip src) s = ((s.reach (s.now + 1)).netAssert k src.val (s.now + 1)).ends) ∧
        (∀ k j, asserts → s.alive 16 = true → late src.val = some k → now_ src.val = some j →
          exec (.netTrip src) s = (((s.netAssert j src.val s.now).reach (s.now + 1)).netAssert k src.val (s.now + 1)).ends)) ∧
    (∀ (i t : Nat) (r : Reg) (n : Nat), 
        let was := Tab.look (fun _ => none) s.fltWas i
        (was = none → s.fltSet i t r n = s.regN r n) ∧ (∀ at_ old, was = some (at_, old) → at_ < t → s.fltSet i t r n = s.regN r n) ∧
        (∀ at_ old, was = some (at_, old) → t ≤ at_ → s.fltSet i t r n = old.toNat)) ∧
    (∀ (k src t : Nat), 
        let x := s.net k
        let last := max x.last (t + 1)
        let tripped := s.flag F.FLT_NETE_TRIPPED k = true
        let u := (((s.setNet k { x with last := last, trip := t + 1 }).setFld F.FLT_NETE_TRIPPED k 1).setFld F.FLT_NETE_FIRST k src).bump F.FLT_NETE_COUNT F.FLT_NETE_SAT k
        let v := ((u.bump F.FLT_TRIPCNT_COUNT F.FLT_TRIPCNT_SAT 0).fltFirst k src t).emit (0x840 + 2 * k) t 16 none
        let w := if bit 1 (v.netSet k t) then v.raiseEv 16 0 k else v
        let kept := ((s.setNet k { x with last := last, freed := 0 }).retract (0x841 + 2 * k) t).setFld F.FLT_NETE_TRIPPED k 1 |>.setFld F.FLT_STAT_RELERR 0 1
        (¬ tripped → x.freed ≠ t + 1 → s.netAssert k src t = (w.fltPairs k t).fltShow) ∧ (¬ tripped → x.freed = t + 1 → s.netAssert k src t = (kept.fltPairs k t).fltShow) ∧
        (tripped → x.trip ≠ t + 1 → s.netAssert k src t = s.setNet k { x with last := last }) ∧
        (tripped → x.trip = t + 1 → s.fld F.FLT_NETE_FIRST k ≤ src → s.netAssert k src t = (s.setNet k { x with last := last }).fltFirst k src t) ∧
        (tripped → x.trip = t + 1 → src < s.fld F.FLT_NETE_FIRST k → s.netAssert k src t = ((s.setNet k { x with last := last }).setFld F.FLT_NETE_FIRST k src).fltFirst k src t)) ∧
    (∀ (k src t : Nat), 
        let put := (s.setRegN .FLT_FIRST 0 (src + k * 2 ^ 10 + 2 ^ 16)).setPair .FLT_FIRSTL .FLT_FIRSTH 0 t
        let at_ := s.pair .FLT_FIRSTL .FLT_FIRSTH 0
        let k0 := s.fld F.FLT_FIRST_NET 0
        let before := k < k0 ∨ (k = k0 ∧ src < s.fld F.FLT_FIRST_SRC 0)
        (s.flag F.FLT_FIRST_VALID 0 = false ∨ (at_ = t ∧ before) → s.fltFirst k src t = put) ∧ (s.flag F.FLT_FIRST_VALID 0 = true → at_ ≠ t ∨ ¬ before → s.fltFirst k src t = s)) ∧
    (∀ (n t : Nat), 
        let p := s.epPhys n
        let v := s.pairSet n t
        let on := (bit 0 v = true ∧ s.flag F.FLT_NETE_TRIPPED (bits 6 1 v) = true) ∨ (bit 7 v = true ∧ s.flag F.FLT_NETE_TRIPPED (bits 13 8 v) = true)
        let is_ := s.flag F.EP_STAT_TRIPPED p = true
        (on → ¬ is_ → s.fltPairAt n t = (s.reach t).epTrip p) ∧ (¬ on → is_ → s.fltPairAt n t = (s.reach t).epUntrip p) ∧ ((on ↔ is_) → s.fltPairAt n t = s) ∧
        (s.fltFresh (512 + n) t = false → s.fltPair n t = s.fltPairAt n t) ∧ (s.fltFresh (512 + n) t = true → s.fltPair n t = (s.fltPairAt n t).fltPairAt n (t + 1))) ∧
    (∀ (who : Initiator) (k : Fin 64), 
        let follow := bit 0 (s.netSet k.val s.now)
        let u := (((s.setNet k.val { s.net k.val with freed := s.now + 1 }).setFld F.FLT_NETE_TRIPPED k.val 0).emit (0x841 + 2 * k.val) s.now 16 none)
        s.Takes who (if k.val < 32 then .FLT_RELL else .FLT_RELH) 0 → (follow = true ∨ s.flag F.FLT_NETE_TRIPPED k.val = false ∨ s.engClock = false → exec (.netRelease who k) s = .next s) ∧
        (follow = false → s.flag F.FLT_NETE_TRIPPED k.val = true → s.engClock = true →
          (s.netAsserted k.val = true ∨ (s.net k.val).last = s.now + 1 → exec (.netRelease who k) s = .next (s.setFld F.FLT_STAT_RELERR 0 1)) ∧
          (s.netAsserted k.val = false → (s.net k.val).last ≠ s.now + 1 → exec (.netRelease who k) s = ((u.fltPairs k.val s.now).fltShow).ends))) ∧
    (∀ (k : Fin 64), 
        let v := s.netSet k.val s.now
        let t := max ((s.net k.val).last + max 64 (bits 13 2 v)) (s.netSince k.val)
        let u := ((((s.reach t).setNet k.val { s.net k.val with freed := t + 1 }).setFld F.FLT_NETE_TRIPPED k.val 0).emit (0x841 + 2 * k.val) t 16 none)
        s.engClock = true → (bit 0 v = false ∨ s.flag F.FLT_NETE_TRIPPED k.val = false ∨ s.netAsserted k.val = true ∨ s.engClock = false → exec (.followRelease k) s = .next s) ∧
        (bit 0 v = true → s.flag F.FLT_NETE_TRIPPED k.val = true → s.netAsserted k.val = false → s.engClock = true →
          exec (.followRelease k) s = ((u.fltPairs k.val t).fltShow).ends)) ∧
    (∀ (who : Initiator), s.Takes who .FLT_SWTRIP 0 → s.alive 16 = true → late 386 = none → (now_ 386 = none → exec (.swtrip who) s = .next s) ∧ (∀ k, now_ 386 = some k → exec (.swtrip who) s = (s.netAssert k 386 s.now).ends)) ∧
    (∀ (who : Initiator) (i : BitVec 10) (v : Word), 
        let x := v.toNat
        let n := i.toNat
        let a := 0x400040004
        let held (r : Reg) (j : Nat) : State := if s.fltFresh n s.now then s else { s with fltWas := Tab.put (fun _ => none) s.fltWas n (some (s.now, s.reg r j)) }
        let src := held .FLT_SRCE n
        let left := match src.srcRoute n s.now with | some k => src.setNet k { src.net k with last := max (src.net k).last (s.now + 1) } | none => src
        let set_ (u : State) := u.setRegN .FLT_SRCE n (x % 2 ^ 7 + s.fld F.FLT_SRCE_ACTIVE n * 2 ^ 7)
        s.answers a = true → s.alive 16 = true → (s.inRun = true → (∀ r j, fltEntry n = some (r, j) → s.regMay who.agent r j = true) → fltEntry n ≠ none ∨ who.agent.owner false = true →
          exec (.tdata who i v) s = .next (s.setFld F.FLT_STAT_WERR 0 1)) ∧
        (s.inRun = false → n < 388 → s.regMay who.agent .FLT_SRCE n = true →
          (s.flag F.FLT_SRCE_ACTIVE n = false → exec (.tdata who i v) s = .next (set_ src)) ∧
          (s.flag F.FLT_SRCE_ACTIVE n = true → bit 0 x = false → exec (.tdata who i v) s = .next (set_ left)) ∧
          (s.flag F.FLT_SRCE_ACTIVE n = true → bit 0 x = true → exec (.tdata who i v) s = (((set_ left).reach (s.now + 1)).netAssert (bits 6 1 x) n (s.now + 1)).ends)) ∧
        (s.inRun = false → 512 ≤ n → n < 704 → s.regMay who.agent .FLT_PAIRE (n - 512) = true →
          (bits 23 15 x < 256 → exec (.tdata who i v) s = (((held .FLT_PAIRE (n - 512)).setRegN .FLT_PAIRE (n - 512) (x % 2 ^ 24)).fltPairAt (n - 512) (s.now + 1)).ends) ∧
          (256 ≤ bits 23 15 x → exec (.tdata who i v) s = .next (s.setFld F.FLT_STAT_WERR 0 1))) ∧
        (s.inRun = false → 704 ≤ n → n < 768 → s.regMay who.agent .FLT_NETE (n - 704) = true →
          exec (.tdata who i v) s = .next ((held .FLT_NETE (n - 704)).setRegN .FLT_NETE (n - 704) (setBits 0 14 (x % 2 ^ 14) (s.regN .FLT_NETE (n - 704))))) ∧
        ((388 ≤ n ∧ n < 512) ∨ 768 ≤ n → who.agent.owner false = true → s.inRun = false → exec (.tdata who i v) s = .next s)) ∧
    (s.engClock = false → (∀ (c : Fin 204), exec (.blankingEnd c) s = .next s) ∧ (∀ (k : Fin 64), exec (.followRelease k) s = .next s))

/-- R262 to R267, R271 to R282, R297, R306 and R314 to R316. Each of DECIMATION_BOUNDARY, STUCK_DETECTED, FAST_TRIP_ASSERT, FAST_TRIP_RELEASE, TRANSITION_ACCEPTED, FRAME_START, FRAME_COMPLETE, SPEED_COMPUTE, COUNT, DESCRIPTOR_WRITE, FLIP, EVENT_DELIVERY, CDATA completes: in every state and for all operands that meet the conditions of a clause here, exec answers a next state, the one that the clause gives. Where it rests on choices of the model: log entries 33, 34, 122. -/
def Obligations.Sensing : Prop :=
  ∀ (s : State), s.Quiet →
    (∀ (i : Fin 64) (bs : BitVec 1024), 
        let x := s.sdi i.val
        let r := max 15 (s.fld F.SDI_CTL_OSRM i.val) + 1
        let n := 3 + s.fld F.SDI_CTL_ORD i.val
        let span := s.sdiDiv (s.fld F.SDI_CTL_CLKSEL i.val) * r
        let e := (x.last / span + 1) * span
        let past_ := ∃ u, x.till = some u ∧ u < e
        let t := e + s.fld F.SDI_CTL_DSKEW i.val + 4
        let u := (s.reach t).setSdi i.val { x with count := x.count + 1, last := e }
        let y := sdiScale (sincN n r (samplesOf bs (n * r))) (sext 5 (s.fld F.SDI_CTL_SH i.val))
        let v := (u.setRegN .SDI_RESULT i.val (wrapTo 32 y.1)).setFld F.SDI_RSTAT_SEQ i.val (s.fld F.SDI_RSTAT_SEQ i.val + 1)
        let w := if y.2 then v.setFld F.SDI_STAT_SAT i.val 1 else v
        s.engClock = true → (s.sdiRuns i.val = false ∨ past_ → exec (.decimationBoundary i bs) s = .next s) ∧
        (s.sdiRuns i.val = true → ¬ past_ → x.count < n → exec (.decimationBoundary i bs) s = .next u) ∧
        (s.sdiRuns i.val = true → ¬ past_ → n ≤ x.count → exec (.decimationBoundary i bs) s = (w.emit (0x680 + 4 * i.val) t 17 none).ends)) ∧
    (∀ (i : Fin 64) (v : Bool) (bs : BitVec 32), 
        let n := s.fld F.SDI_STUCK_STUCKN i.val
        let x := s.sdi i.val
        let all_ := s.sdiTaken i.val s.now
        let stuck := ((s.setSdi i.val { x with stuck := some (v, all_) }).setFld F.SDI_STAT_STUCK i.val 1).bump F.SDI_COUNT_STKCNT F.SDI_COUNT_STKSAT i.val
        let runs := s.sdiSamples i.val s.now = true
        let len := min 32 (max 4 (s.fld F.SDI_FTRIP_FLEN i.val))
        let ones := (List.range len).countP (fun k => bs.getLsbD k)
        let holds := (s.flag F.SDI_FTRIP_FHIEN i.val = true ∧ s.fld F.SDI_FTRIP_FHI i.val ≤ ones) ∨ (s.flag F.SDI_FTRIP_FLOEN i.val = true ∧ ones ≤ s.fld F.SDI_FTRIP_FLO i.val)
        let set_ (b : Bool) := (s.setFld F.SDI_STAT_FT i.val (b2n b)).fltLevel (192 + i.val) b s.now
        (runs → n ≠ 0 → x.runFrom v + n ≤ all_ →
          exec (.stuckDetected (i, v)) s = ((stuck.emit (0x681 + 4 * i.val) s.now 17 none).raiseEv 17 12 i.val).ends) ∧
        (¬ runs ∨ n = 0 ∨ all_ < x.runFrom v + n → exec (.stuckDetected (i, v)) s = .next s) ∧
        (runs → s.flag F.SDI_CTL_FTEN i.val = true → s.flag F.SDI_STAT_FT i.val = false → holds →
          x.ftAt + len ≤ s.sdiTaken i.val (s.now - 1) → exec (.fastTripAssert i bs) s =
            (((((set_ true).bump F.SDI_COUNT_FTCNT F.SDI_COUNT_FTSAT i.val).emit (0x682 + 4 * i.val) s.now 17 none)).fltTerminate (192 + i.val) s.now).ends) ∧
        (¬ runs ∨ s.flag F.SDI_CTL_FTEN i.val = false ∨ s.flag F.SDI_STAT_FT i.val = true ∨ ¬ holds ∨ s.sdiTaken i.val (s.now - 1) < x.ftAt + len → exec (.fastTripAssert i bs) s = .next s) ∧
        (s.alive 17 = true → s.flag F.SDI_STAT_FT i.val = true → ¬ holds → exec (.fastTripRelease i bs) s = (set_ false).ends) ∧
        (s.alive 17 = false ∨ s.flag F.SDI_STAT_FT i.val = false ∨ holds → exec (.fastTripRelease i bs) s = .next s)) ∧
    (∀ (v : Bool) (w : Bool) (n : Nat) (x : Sdi), (x.stuck = none → x.runFrom v = 0) ∧ (x.stuck = some (w, n) → x.runFrom v = if v = w then n + 1 else n)) ∧
    (∀ (p : Fin 24) (lines : BitVec 3), 
        let old := s.fld F.POS_STAT_LINES p.val
        let new := s.posTaken p.val old lines.toNat
        let hall := s.fld F.POS_CTL_MODE p.val == 1
        let rev := s.flag F.POS_CTL_REV p.val
        let t := s.now - s.fld F.POS_CTL_FILT p.val
        let acc := (List.range 3).foldl (fun (s : State) k => if bit k new = bit k old then s else s.setPos p.val { s.pos p.val with accs := Tab.put (fun _ => 0) (s.pos p.val).accs k (s.now + 1) }) s
        let u := acc.setFld F.POS_STAT_LINES p.val new
        let ab := b2n (bit 0 new) * 2 + b2n (bit 1 new)
        let index := !hall && bit 2 new && !bit 2 old && (!s.flag F.POS_CTL_IDXGATE p.val || ab == s.fld F.POS_CTL_IDXAB p.val)
        let bad := (((u.setFld F.POS_STAT_ILLEGAL p.val 1).bump F.POS_ERRCNT_ILLCNT F.POS_ERRCNT_ILLSAT p.val).posEvent p.val 4 s.now none).posSafe p.val
        s.alive 17 = true → s.flag F.POS_CTL_EN p.val = true → s.fld F.POS_CTL_MODE p.val < 2 → (∀ back, decodeLines hall rev old new = .step back → exec (.transitionAccepted p lines) s = ((u.posStep p.val t back).posMove p.val (some back) index).ends) ∧
        (decodeLines hall rev old new = .none → index = false → exec (.transitionAccepted p lines) s = .next u) ∧
        (decodeLines hall rev old new = .none → index = true → exec (.transitionAccepted p lines) s = (u.posMove p.val none true).ends) ∧
        (decodeLines hall rev old new = .illegal → index = false → exec (.transitionAccepted p lines) s = bad.ends) ∧
        (decodeLines hall rev old new = .illegal → index = true → exec (.transitionAccepted p lines) s = (bad.posMove p.val none true).ends)) ∧
    (∀ (p : Nat) (lines : BitVec 3), s.alive 17 = false ∨ s.flag F.POS_CTL_EN p = false ∨ 2 ≤ s.fld F.POS_CTL_MODE p → ∀ q : Fin 24, q.val = p → exec (.transitionAccepted q lines) s = .next s) ∧
    (∀ (p old new : Nat) (k : Fin 3), 
        let at_ := Tab.look (fun _ => 0) (s.pos p).accs k.val
        let soon := at_ ≠ 0 ∧ s.now < at_ + s.fld F.POS_CTL_FILT p
        let got := bit k.val (s.posTaken p old new)
        (soon → got = bit k.val old) ∧ (¬ soon → got = bit k.val new)) ∧
    (∀ (p : Fin 24) (d : Option Bool) (index : Bool), 
        let r := s.regN .POS_RANGE p.val + 1
        let n := s.regN .POS_COUNT p.val
        let x := s.posMove p.val d index
        let to_ := match d with | none => n | some true => (if n = 0 then r - 1 else n - 1) | some false => (if r ≤ n + 1 then 0 else n + 1)
        x.regN .POS_COUNT p.val = (if index = true ∧ s.flag F.POS_CTL_IDXRST p.val = true then 0 else to_) ∧ x.regN .POS_IDXCNT p.val = (if index then to_ else s.regN .POS_IDXCNT p.val) ∧
        (d = none ∨ s.flag F.POS_CTL_CMPEN p.val = false → x.regN .POS_HITCNT p.val = s.regN .POS_HITCNT p.val ∧ x.reg .POS_CMPVAL p.val = s.reg .POS_CMPVAL p.val)) ∧
    (∀ (p : Fin 24) (t : Nat) (back : Bool), 
        let n := s.regN .POS_COUNT p.val
        let x := s.posStep p.val t back
        x.regN .POS_COUNT p.val = n ∧ (∀ l, (s.pos p.val).last = some l → s.fld F.POS_MINGAP_MINGAP p.val ≠ 0 → t - l < s.fld F.POS_MINGAP_MINGAP p.val → x.flag F.POS_STAT_FAST p.val = true) ∧
        x.regN .POS_EDGET p.val = t % 2 ^ 32 ∧
        x.flag F.POS_STAT_DIR p.val = back ∧ (x.pos p.val).last = some t ∧ (x.pos p.val).steps = (s.pos p.val).steps + 1) ∧
    (∀ (p : Fin 24), 
        let per := s.regN .POS_SSIPER p.val
        let f := (max s.now ((s.pos p.val).timed + 1) + per - 1) / per * per
        let u := (s.reach f).setPos p.val { s.pos p.val with timed := f }
        let cfg := s.ssiCfg p.val
        let until_ (g : Nat) := g + (cfg.1 + cfg.2.1 + 1) * cfg.2.2 + s.fld F.POS_SSITIM_RECOV p.val * 64
        s.engClock = true → (s.ssiRuns p.val = false ∨ per = 0 → exec (.frameStart p) s = .next s) ∧
        (s.ssiRuns p.val = true → per ≠ 0 → (∀ g, (s.pos p.val).prevF = some g → until_ g ≤ f) →
          exec (.frameStart p) s = .next (u.setPos p.val { u.pos p.val with frames := (s.pos p.val).frames ++ [(f, none)], prevF := some f })) ∧
        (∀ g, s.ssiRuns p.val = true → per ≠ 0 → (s.pos p.val).prevF = some g → f < until_ g →
          exec (.frameStart p) s = (((u.setFld F.POS_STAT_OVR p.val 1).bump F.POS_ERRCNT_SSICNT F.POS_ERRCNT_SSISAT p.val).posSafe p.val).ends)) ∧
    (∀ (p : Fin 24) (bs : BitVec 40) (high : Bool) (f : Nat) (cause : Option Lineage) (later : List (Nat × Option Lineage)), 
        let cfg := s.ssiCfg p.val
        let nb := cfg.1 + cfg.2.1
        let v := bs.toNat % 2 ^ nb
        let odd := (List.range nb).foldl (fun b k => b != bit k v) false
        let u := (s.reach (f + nb * cfg.2.2 + s.fld F.POS_SSITIM_DSKEW p.val + 1)).setPos p.val { s.pos p.val with frames := later }
        let bad := high = false ∨ (s.flag F.POS_CTL_PAR p.val = true ∧ odd = true)
        let raw := v / 2 ^ cfg.2.1
        let new := if s.flag F.POS_CTL_GRAY p.val then grayToBin cfg.1 raw else raw
        let r := s.posRange p.val
        let old := s.regN .POS_COUNT p.val
        let fv := u.takeFree.1
        let w := u.takeFree.2
        let d := shortest old new r (fv % 2 == 1)
        let x := w.pos p.val
        let y := w.setPos p.val { x with
          steps := x.steps + 1, last := some f, neg := decide (d < 0), gap := f - x.last.getD f, inWin := x.inWin + 1,
          base := if x.steps = 0 then some f else x.base, net := if x.steps = 0 then 0 else x.net + d }
        let z := ((y.setRegN .POS_COUNT p.val new).setRegN .POS_EDGET p.val (f % 2 ^ 32)).setRegN .POS_SSIEXT p.val (v % 2 ^ cfg.2.1)
        let z1 := if d = 0 then z else z.setFld F.POS_STAT_DIR p.val (b2n (decide (d < 0)))
        let z2 := if (old : Int) + d < 0 then z1.posEvent p.val 2 w.now cause else if (r : Int) ≤ old + d then z1.posEvent p.val 1 w.now cause else z1
        s.engClock = true → (s.pos p.val).frames = (f, cause) :: later → (s.ssiRuns p.val = false → exec (.frameComplete p bs high) s = .next u) ∧
        (s.ssiRuns p.val = true → bad → exec (.frameComplete p bs high) s =
          ((((u.setFld F.POS_STAT_SSIERR p.val 1).bump F.POS_ERRCNT_SSICNT F.POS_ERRCNT_SSISAT p.val).posEvent p.val 4 u.now cause).posSafe p.val).ends) ∧
        (s.ssiRuns p.val = true → ¬ bad → exec (.frameComplete p bs high) s = (z2.ssiCompare p.val old d cause).ends)) ∧
    (∀ (a b r : Nat) (free : Bool), 
        let d := (b + r - a % r) % r
        0 < r → (2 * d < r → shortest a b r free = (d : Int)) ∧ (r < 2 * d → shortest a b r free = (d : Int) - r) ∧ (2 * d = r → (shortest a b r free).natAbs = d)) ∧
    (∀ (p : Fin 24), 
        let x := s.pos p.val
        let win := max 1250 (s.fld F.POS_SPWIN_SPWIN p.val)
        let tw := (x.speed / win + 1) * win
        let hi := s.fld F.POS_SPCFG_NHI p.val
        let lo := min hi (s.fld F.POS_SPCFG_NLO p.val)
        let m := if s.fld F.POS_CTL_MODE p.val = 2 then true else if s.flag F.POS_SPSTAT_METHOD p.val then decide (lo ≤ x.inWin) else decide (hi ≤ x.inWin)
        let v := if m then x.speedM tw else x.speedT tw
        let u := ((s.reach tw).setReg .POS_SPEED p.val v).setFld F.POS_SPSTAT_METHOD p.val (b2n m)
        s.engClock = true → (s.alive 17 = false ∨ s.flag F.POS_CTL_EN p.val = false → exec (.speedCompute p) s = .next s) ∧
        (s.alive 17 = true → s.flag F.POS_CTL_EN p.val = true → exec (.speedCompute p) s =
          ((u.setPos p.val { x with speed := tw, inWin := 0, base := x.last, net := 0 }).emit (0x785 + 8 * p.val) tw 17 none).ends) ∧
        ((s.pos p.val).frames = [] → ∀ bs high, exec (.frameComplete p bs high) s = .next s)) ∧
    (∀ (who : Initiator) (p : Fin 24) (v : Word), 
        let undone := [0, 1, 2, 3].foldl (fun (s : State) j => s.retract (0x780 + 8 * p.val + j) s.now) s
        let redo (m : Moved) := let u := (undone.setReg .POS_IDXCNT p.val m.idxcnt).setReg .POS_HITCNT p.val m.hitcnt; if ((s.pos p.val).wrote.map (·.1)) = some s.now then u else u.setReg .POS_CMPVAL p.val m.cmpval
        s.Takes who .POS_COUNT p.val → (s.fld F.POS_CTL_MODE p.val = 2 → exec (.count who p v) s = .next (s.setFld F.POS_STAT_CFGERR p.val 1)) ∧
        (s.fld F.POS_CTL_MODE p.val ≠ 2 → (∀ m, (s.pos p.val).moved = some m → m.ec ≠ s.now) → exec (.count who p v) s = .next (s.setRegN .POS_COUNT p.val (v.toNat % (s.regN .POS_RANGE p.val + 1)))) ∧
        (∀ m, s.fld F.POS_CTL_MODE p.val ≠ 2 → (s.pos p.val).moved = some m → m.ec = s.now → exec (.count who p v) s =
          (((redo m).setRegN .POS_COUNT p.val (v.toNat % (s.regN .POS_RANGE p.val + 1))).posMove p.val m.back m.index).ends)) ∧
    (∀ (who : Initiator) (d : BitVec 12) (i : Fin 8) (v : Word), 
        let n := d.toNat
        let x := v.toNat
        let kept := (x &&& 0xFF1F) + s.regN .LOD_W0 n / 2 ^ 16 % 4 * 2 ^ 16
        let ok := lodCheck ((x &&& 0xFF1F) :: (s.lodWords n).tail) = true
        s.answers 0x400020004 = true → s.regMay who.agent (lodWord i.val) n = true → s.lodRefused n i.val x = false → (i.val ≠ 0 → s.fld F.LOD_W0_KIND n ≠ 0 → exec (.descriptorWrite who d i v) s = .next (s.setFld F.LOD_STAT_DERR 0 1)) ∧
        (i.val ≠ 0 → s.fld F.LOD_W0_KIND n = 0 → exec (.descriptorWrite who d i v) s = .next (s.setRegN (lodWord i.val) n
          (x &&& (if i.val < 3 then 0x1FFFFFFF else if i.val = 3 then 0x3FFFFFFF else 0xFFFFFFFF)))) ∧
        (i.val = 0 → bit 17 x = false → bits 2 0 x = 0 ∨ ok → exec (.descriptorWrite who d i v) s = .next (s.setRegN .LOD_W0 n kept)) ∧
        (i.val = 0 → bit 17 x = false → bits 2 0 x ≠ 0 → ¬ ok → exec (.descriptorWrite who d i v) s =
          .next ((s.setFld F.LOD_W0_KIND n 0).setFld F.LOD_STAT_DERR 0 1)) ∧
        (i.val = 0 → bit 17 x = true → bits 2 0 x ≠ 0 → ¬ ok → exec (.descriptorWrite who d i v) s =
          .next (((s.setFld F.LOD_W0_KIND n 0).setFld F.LOD_STAT_DERR 0 1).setFld F.LOD_STAT_FLIPERR 0 1)) ∧
        (i.val = 0 → bit 17 x = true → bits 2 0 x = 0 ∨ ok → exec (.descriptorWrite who d i v) s = .next ((s.setRegN .LOD_W0 n kept).lodFlip n))) ∧
    (∀ (who : Initiator) (d : BitVec 12), 
        let n := d.toNat
        let old := s.regN .LOD_W0 n
        let x := setBits 17 1 1 old
        let ok := lodCheck ((x &&& 0xFF1F) :: (s.lodWords n).tail) = true
        let u := s.setRegN .LOD_W0 n ((x &&& 0xFF1F) + old / 2 ^ 16 % 4 * 2 ^ 16)
        s.answers 0x400020004 = true → s.regMay who.agent .LOD_W0 n = true → s.lodRefused n 0 x = false → (bits 2 0 x = 0 ∨ ok) → (u.fld F.LOD_W0_KIND n = 0 ∨ u.fld F.LOD_W1_BASE0 n = u.fld F.LOD_W2_BASE1 n → exec (.flip who d) s = .next (u.setFld F.LOD_STAT_FLIPERR 0 1)) ∧
        (u.fld F.LOD_W0_KIND n ≠ 0 → u.fld F.LOD_W1_BASE0 n ≠ u.fld F.LOD_W2_BASE1 n →
          (s.bankOn = true → exec (.flip who d) s = .next ((u.setFld F.LOD_W0_FLIP n 1).setFld F.LOD_STAT_PENDING 0 1)) ∧
          (s.bankOn = false → u.flag F.LOD_W0_FLIP n = true → exec (.flip who d) s = .next u) ∧
          (s.bankOn = false → u.flag F.LOD_W0_FLIP n = false → exec (.flip who d) s = .next (u.lodFlipOne n (s.now + 1))))) ∧
    (s.engClock = true → (s.nextDelivery = none → exec .eventDelivery s = .next s) ∧
        (∀ t, s.nextDelivery = some t →
          let due : List Flight := s.flights.filter (fun f => f.due == t)
          let rest := s.flights.filterMap (fun (f : Flight) => if f.due = t then (if f.near then none else some { f with near := true }) else some f)
          exec .eventDelivery s = ((due.foldl (fun (s : State) f => s.deliverFlight t f) ({ s with flights := rest }.reach t)).deliverInputs
            ((due.filter (fun f => (f.clk == 0) == !f.near)).map (fun f => f.chan)) t).ends)) ∧
    (∀ (who : Initiator) (i : BitVec 8) (v : Word), 
        let n := i.toNat
        let kept := s.consumerOwned n = true ∨ s.planOwns 8 (s.fld F.EVF_CDATA_CHAN n) = true ∨ s.planOwns 8 (bits 9 0 v.toNat) = true
        s.answers 0x400030004 = true → s.regMay who.agent .EVF_CDATA n = true → (248 ≤ n → exec (.cdata who i v) s = .next s) ∧ (n < 248 → kept → exec (.cdata who i v) s = .next (s.setFld F.EVF_STAT_WERR 0 1)) ∧
        (n < 248 → ¬ kept → exec (.cdata who i v) s = .next (s.setRegN .EVF_CDATA n (v.toNat % 2 ^ 11)))) ∧
    (s.engClock = false → (∀ (i : Fin 64) (bs : BitVec 1024), exec (.decimationBoundary i bs) s = .next s) ∧ (∀ (p : Fin 24), exec (.frameStart p) s = .next s) ∧ (∀ (p : Fin 24) (bs : BitVec 40) (high : Bool), exec (.frameComplete p bs high) s = .next s) ∧ (∀ (p : Fin 24), exec (.speedCompute p) s = .next s) ∧ exec .eventDelivery s = .next s)

/-- R331 to R348 and R352. Each of LINK_ENABLE, LINK_DISABLE, RETRAIN, SYMBOLS_VALID, TRAINING_TIMEOUT, RECEIVE_TIMEOUT, STATUS, FAULT, DESC, HB_READY, EDGE_FRAME, FLUSH, HB, TRIP, RELEASE, DREQ, DLK_FRAME_DISCARD completes: in every state and for all operands that meet the conditions of a clause here, exec answers a next state, the one that the clause gives. Where it rests on choices of the model: log entries 35, 36, 123, 128. -/
def Obligations.DriverLinks : Prop :=
  ∀ (s : State), s.Quiet →
    (∀ (who : Initiator) (d : Fin 64) (v : Word), 
        let old := s.regN .DLK_CTL d.val
        let w := setBits 0 1 1 v.toNat
        let x := setBits 0 1 0 v.toNat
        let y := setBits 11 1 1 w
        let st := s.fld F.DLK_STAT_STATE d.val
        let put (n : Nat) := s.setRegN .DLK_CTL d.val (n &&& 0x1F7FF)
        let kept (n : Nat) := (s.inRun = true ∧ old &&& 0xF7FF ≠ n &&& 0xF7FF) ∨ 191 < bits 9 2 n ∨ (bit 1 n = true ∧ s.dlkBound d.val (bits 9 2 n) = true)
        let werr := s.setFld F.DLK_STAT_WERR d.val 1
        s.Takes who .DLK_CTL d.val → (kept w → exec (.linkEnable who d v) s = .next werr) ∧ (kept x → exec (.linkDisable who d v) s = .next werr) ∧ (kept y → exec (.retrain who d v) s = .next werr) ∧
        (¬ kept w → bit 0 old = false → exec (.linkEnable who d v) s = ((put w).dlkTrain d.val).ends) ∧
        (¬ kept w → bit 0 old = true → bit 11 w = false ∨ st = 0 → exec (.linkEnable who d v) s = .next (put w)) ∧
        (¬ kept x → bit 0 old = true → exec (.linkDisable who d v) s = ((put x).dlkGo d.val 0).ends) ∧
        (¬ kept x → bit 0 old = false → exec (.linkDisable who d v) s = .next (put x)) ∧
        (¬ kept y → bit 0 old = true → st ≠ 0 → exec (.retrain who d v) s = (((put y).setFld F.DLK_STAT_LCAUSE d.val 5).dlkTrain d.val).ends)) ∧
    (∀ (d : Fin 64) (st : Nat), 
        let t := s.dlkGo d.val st
        let c := if s.fld F.DLK_STAT_STATE d.val = 3 ∨ st = 0 then s.modDlk d.val Dlk.clear else s
        st < 5 → s.dlkTrain d.val = (s.modDlk d.val (fun x => { x.clear with train := s.now, echo := [], meas := [], rx := s.now })).dlkGo d.val 1 ∧ t = (c.setFld F.DLK_STAT_STATE d.val st).dlkFlint d.val) ∧
    (∀ (d : Fin 64), 
        let st := s.fld F.DLK_STAT_STATE d.val
        s.alive 17 = true → (st = 1 → exec (.symbolsValid d) s = .next (s.modDlk d.val (fun x => { x with dreq := true }))) ∧
        (st = 4 → s.flag F.DLK_CTL_AUTO d.val = true → exec (.symbolsValid d) s = (s.dlkTrain d.val).ends) ∧
        (st = 0 ∨ st = 2 ∨ st = 3 → exec (.symbolsValid d) s = .next s) ∧
        (st = 1 ∨ st = 2 → exec (.trainingTimeout d) s = ((s.reach ((s.dlk d.val).train + 2500000)).dlkLost d.val 1).ends) ∧
        (st = 0 ∨ st = 3 ∨ st = 4 → exec (.trainingTimeout d) s = .next s) ∧
        (st = 2 ∨ st = 3 → exec (.receiveTimeout d) s = (((s.reach ((s.dlk d.val).rx + s.rxTo d.val)).dlkLost d.val 2).raiseEv 17 3 d.val).ends) ∧
        (st = 0 ∨ st = 1 ∨ st = 4 → exec (.receiveTimeout d) s = .next s)) ∧
    (∀ (d : Fin 64) (tag stat : BitVec 8) (turn : BitVec 16) (t2 : Nat), 
        let st := s.fld F.DLK_STAT_STATE d.val
        let u := s.modDlk d.val (fun x => { x with rx := s.now })
        let v := if bit 2 stat.toNat then u.setFld F.DLK_STAT_PLATE d.val 1 else u
        let w := if bit 0 stat.toNat then v else (v.setFld F.DLK_STAT_FAULTACT d.val 0).dlkFlint d.val
        s.alive 17 = true → st ≠ 0 → (tag = 0 → exec (.status d tag stat turn t2) s = w.ends) ∧ (tag ≠ 0 → exec (.status d tag stat turn t2) s = (w.dlkEcho d.val tag.toNat turn.toNat t2).ends)) ∧
    (∀ (d : Fin 64) (tag turn t2 t1 : Nat), 
        let x := s.dlk d.val
        let u := s.modDlk d.val (fun x => { x with echo := x.echo.filter (fun y => y.1 != tag) })
        let l := (((t2 : Int) - t1 - turn) :: x.meas).take 16
        let v := u.modDlk d.val (fun x => { x with meas := l })
        let c := (v.dlkAverage l).1
        let w := (v.dlkAverage l).2.setFld F.DLK_CABLE_C d.val c
        let st := s.fld F.DLK_STAT_STATE d.val
        x.echo.find? (fun y => y.1 == tag) = some (tag, t1) → (t1 + 160000 < t2 → s.dlkEcho d.val tag turn t2 = u) ∧ (t2 ≤ t1 + 160000 → l.length < 16 → s.dlkEcho d.val tag turn t2 = v) ∧
        (t2 ≤ t1 + 160000 → l.length = 16 → st = 2 → 20480 < c → s.dlkEcho d.val tag turn t2 = w.dlkLost d.val 4) ∧
        (t2 ≤ t1 + 160000 → l.length = 16 → st = 2 → c ≤ 20480 → s.dlkEcho d.val tag turn t2 = w.dlkUp d.val) ∧
        (t2 ≤ t1 + 160000 → l.length = 16 → st = 3 → w.fld F.DLK_CABLE_LEAD d.val < leadFor c →
          s.dlkEcho d.val tag turn t2 = (w.setFld F.DLK_STAT_DRIFT d.val 1).raiseEv 17 3 d.val)) ∧
    (∀ (d : Fin 64) (code : BitVec 6) (chan : BitVec 2) (tick : BitVec 24) (fine : BitVec 7), 
        let u := ((s.modDlk d.val (fun x => { x with rx := s.now })).setFld F.DLK_STAT_FAULTACT d.val 1).bump F.DLK_FCOUNT_COUNT F.DLK_FCOUNT_SAT d.val
        let v := (u.setRegN .DLK_FAULT d.val (code.toNat + chan.toNat * 2 ^ 8 + 2 ^ 10 + fine.toNat * 2 ^ 11)).setPair .DLK_FTIMEL .DLK_FTIMEH d.val (expandFault s.now tick.toNat)
        s.alive 17 = true → s.fld F.DLK_STAT_STATE d.val ≠ 0 → (u.flag F.DLK_FAULT_VALID d.val = false → exec (.fault d code chan tick fine) s = ((v.emit (0x8C0 + 4 * d.val) s.now 17 none).dlkFlint d.val).ends) ∧
        (u.flag F.DLK_FAULT_VALID d.val = true → exec (.fault d code chan tick fine) s = ((u.emit (0x8C0 + 4 * d.val) s.now 17 none).dlkFlint d.val).ends)) ∧
    (∀ (now_ low : Nat), 
        let x := expandFault now_ low
        low < 2 ^ 24 → 2 ^ 24 ≤ now_ → x ≤ now_ ∧ now_ < x + 2 ^ 24 ∧ x % 2 ^ 24 = low) ∧
    (∀ (d : Fin 64) (v : BitVec 256), 
        let st := s.fld F.DLK_STAT_STATE d.val
        let u := repeatN 8 (fun i t => t.setRegN (descRegs.getD i .DLK_DESCA) d.val (descField v (4 * i) 4)) (s.modDlk d.val (fun x => { x with rx := s.now }))
        s.alive 17 = true → (st = 0 → exec (.desc d v) s = .next s) ∧ (st ≠ 0 → st ≠ 1 → exec (.desc d v) s = .next u) ∧
        (st = 1 → u.dlkAccepts d.val v = true → exec (.desc d v) s =
          ((u.modDlk d.val (fun x => { x with dreq := false, hbLast := s.now / u.hbPer d.val * u.hbPer d.val })).dlkGo d.val 2).ends) ∧
        (st = 1 → u.dlkAccepts d.val v = false → exec (.desc d v) s = (u.dlkLost d.val 3).ends)) ∧
    (∀ (d : Fin 64), 
        let st := s.fld F.DLK_STAT_STATE d.val
        let x := s.dlk d.val
        let t := (max x.hbLast (s.now - 1) / s.hbPer d.val + 1) * s.hbPer d.val
        let u := s.reach t
        let under := ∃ f, x.tx = some f ∧ f.kind = 5 ∧ t < f.stop
        let v := u.modDlk d.val (fun x => { x with hb := some t, hbLast := t })
        let cut := u.modDlk d.val (fun x => { x.cut t with hb := some t, hbLast := t, tag := x.tag })
        let drop (y : State) := ((y.setFld F.DLK_STAT_HBDROP d.val 1).bump F.DLK_COUNT_HBDCNT F.DLK_COUNT_HBDSAT d.val).raiseEv 17 3 d.val
        s.alive 17 = true → (st < 2 → exec (.hbReady d) s = .next s) ∧
        (st = 4 → exec (.hbReady d) s = .next (u.modDlk d.val (fun x => { x with hbLast := t, trips := x.trips ++ [(true, t)] }))) ∧
        (st = 2 ∨ st = 3 → ¬ under → x.hb = none → exec (.hbReady d) s = .next v) ∧ (st = 2 ∨ st = 3 → ¬ under → x.hb ≠ none → exec (.hbReady d) s = (drop v).ends) ∧
        (st = 2 ∨ st = 3 → under → exec (.hbReady d) s = (drop cut).ends)) ∧
    (∀ (d : Fin 64) (t : Nat) (e : LinkEdge) (second : Option LinkEdge), 
        let inst := e.key / 2
        let gap := match second with | some f => f.key / 2 - inst | none => 0
        let last := match second with | some f => f | none => e
        let flags := (e.key % 2) * 8 + b2n e.lvl * 4 + b2n second.isSome * 2 + (match second with | some f => f.key % 2 | none => 0)
        let lvl2 := match second with | some f => b2n f.lvl | none => 0
        let u := s.dlkSend d.val 1 t (e.ready + 2) 0 (leBytes 2 (inst / 128) ++ leBytes 1 (inst % 128) ++ leBytes 3 (gap + lvl2 * 2 ^ 20)) flags
        let v := u.modDlk d.val (fun x => { (x.take e).take last with flight := (last.key / 2) :: x.flight.filter (fun i => decide (128 * t < i)) })
        let w := ((v.setFld F.DLK_STAT_LATE d.val 1).bump F.DLK_COUNT_LATECNT F.DLK_COUNT_LATESAT d.val).emit (0x8C0 + 4 * d.val + 3) t 17 none
        let limit := (t + 64) * 128 + v.fld F.DLK_CABLE_C d.val
        s.engClock = true → s.alive 17 = true → s.fld F.DLK_STAT_STATE d.val = 3 → s.nextEdgeFrame d.val = some (t, e, second) → (s.dlkUrgent d.val t = true → exec (.edgeFrame d) s = .next s) ∧
        (s.dlkUrgent d.val t = false → limit ≤ inst → exec (.edgeFrame d) s = .next v) ∧
        (s.dlkUrgent d.val t = false → inst < limit → w.flag F.DLK_CTL_LATESAFE d.val = false → exec (.edgeFrame d) s = w.ends) ∧
        (s.dlkUrgent d.val t = false → inst < limit → w.flag F.DLK_CTL_LATESAFE d.val = true → exec (.edgeFrame d) s = (w.raiseEv 17 3 d.val).ends)) ∧
    (∀ (d : Fin 64), s.engClock = true → (s.nextEdgeFrame d.val = none ∨ s.fld F.DLK_STAT_STATE d.val ≠ 3 → exec (.edgeFrame d) s = .next s) ∧ ((s.dlk d.val).flush = [] ∨ s.fld F.DLK_STAT_STATE d.val ≠ 3 → exec (.flush d) s = .next s) ∧
        ((s.dlk d.val).hb = none → exec (.hb d) s = .next s) ∧ ((s.dlk d.val).trips = [] → exec (.trip d) s = .next s ∧ exec (.release d) s = .next s)) ∧
    (∀ (d kind t ready arg flags : Nat) (fields : List Byte), 
        let x := (s.dlkSend d kind t ready arg fields flags).dlk d
        x = { (s.dlk d).cut t with tx := some ⟨kind, t + 5 * frameSymbols kind, ready, arg⟩, wire := frameBytes (BitVec.ofNat 8 (16 * kind + flags) :: fields) } ∧
        (List.range 7).map frameSymbols = [4, 10, 5, 4, 4, 17, 4]) ∧
    (∀ (d t : Nat), s.alive 17 = true → s.fld F.DLK_STAT_STATE d ≠ 0 → (s.dlk d).tx = none → (t % 10 = 0 → s.dlkSymbol d t = some (.k 0xBC)) ∧ (t % 10 = 5 → s.dlkSymbol d t = some (.d 0x50))) ∧
    (∀ (n at_ d : Nat) (trip : Bool), 
        let x := (s.dlk d).cut (symbolBoundary (at_ / 128))
        s.epLink n = some d → (s.dlkSafe n at_ trip).dlk d = { x with pend := [], sent := 2 * at_, sentB := 2 * at_ + 1, trips := x.trips ++ [(trip, at_ / 128)], flush := if trip then x.flush.filter (fun f => f.2 / 128 != at_ / 128) else x.flush }) ∧
    (∀ (x : Dlk) (e : LinkEdge), 
        let y := x.take e
        (e.key % 2 = 0 → y.sent = e.key ∧ y.sentB = x.sentB) ∧ (e.key % 2 = 1 → y.sentB = e.key ∧ y.sent = x.sent) ∧
        (∀ f, f ∈ y.pend ↔ f ∈ x.pend ∧ (if f.key % 2 = 1 then y.sentB else y.sent) < f.key)) ∧
    (∀ (d : Fin 64) (lv r : Nat) (rest : List (Nat × Nat)), 
        let t := s.dlkSlot d.val 2 (r / 128)
        s.engClock = true → (s.dlk d.val).flush = (lv, r) :: rest → s.alive 17 = true → s.fld F.DLK_STAT_STATE d.val = 3 → ((s.dlk d.val).trips.any (fun y => decide (y.2 ≤ t)) = false → exec (.flush d) s =
          .next ((s.dlkSend d.val 2 t r lv (leBytes 1 lv) 0).modDlk d.val (fun x => { x with flush := rest, flight := [] }))) ∧
        ((s.dlk d.val).trips.any (fun y => decide (y.2 ≤ t)) = true → exec (.flush d) s = .next s)) ∧
    (∀ (d : Fin 64) (r : Nat) (k : Bool) (rest : List (Bool × Nat)), 
        let t := s.dlkSlot d.val 3 r
        s.engClock = true → (s.dlk d.val).trips = (k, r) :: rest → s.alive 17 = true → 3 ≤ s.fld F.DLK_STAT_STATE d.val → (k = true → exec (.trip d) s = .next ((s.dlkSend d.val 3 t r 0 [] 0).modDlk d.val (fun x => { x with trips := rest, flight := [] })) ∧ exec (.release d) s = .next s) ∧
        (k = false → exec (.release d) s = .next ((s.dlkSend d.val 4 t r 0 [] 0).modDlk d.val (fun x => { x with trips := rest, flight := [] })) ∧ exec (.trip d) s = .next s)) ∧
    (∀ (d : Fin 64) (r : Nat), 
        let t := s.dlkSlot d.val 5 r
        let tag := (s.dlk d.val).tag % 255 + 1
        let fields := leBytes 1 tag ++ leBytes 8 t ++ leBytes 2 (s.fld F.DLK_CABLE_C d.val) ++ leBytes 2 (s.hbPer d.val)
        s.engClock = true → (s.dlk d.val).hb = some r → s.alive 17 = true → (s.fld F.DLK_STAT_STATE d.val = 2 ∨ s.fld F.DLK_STAT_STATE d.val = 3) → (s.dlkUrgent d.val t = false → s.dlkEdgeDue d.val t = false → exec (.hb d) s = .next ((s.dlkSend d.val 5 t r tag fields 0).modDlk d.val (fun x =>
          { x with hb := none, tag := tag, echo := (tag, (t + 85) * 128) :: x.echo.filter (fun y => y.1 != tag) }))) ∧
        (s.dlkUrgent d.val t = true ∨ s.dlkEdgeDue d.val t = true → exec (.hb d) s = .next s)) ∧
    (∀ (d : Fin 64), 
        let t := s.dlkSlot d.val 6 s.now
        s.alive 17 = true → (s.fld F.DLK_STAT_STATE d.val = 1 → (s.dlk d.val).dreq = true → exec (.dreq d) s = .next ((s.dlkSend d.val 6 t s.now 0 [] 0).modDlk d.val (fun x => { x with dreq := false }))) ∧
        (s.fld F.DLK_STAT_STATE d.val ≠ 1 ∨ (s.dlk d.val).dreq = false → exec (.dreq d) s = .next s) ∧
        (s.fld F.DLK_STAT_STATE d.val ≠ 0 → exec (.dlkFrameDiscard d) s = .next ((s.setFld F.DLK_STAT_FERR d.val 1).bump F.DLK_COUNT_FERRCNT F.DLK_COUNT_FERRSAT d.val)) ∧
        (s.fld F.DLK_STAT_STATE d.val = 0 → exec (.dlkFrameDiscard d) s = .next s ∧ ∀ tag stat turn t2, exec (.status d tag stat turn t2) s = .next s)) ∧
    (s.engClock = false → (∀ (d : Fin 64), exec (.edgeFrame d) s = .next s) ∧ (∀ (d : Fin 64), exec (.flush d) s = .next s) ∧ (∀ (d : Fin 64), exec (.hb d) s = .next s) ∧ (∀ (d : Fin 64), exec (.trip d) s = .next s) ∧ (∀ (d : Fin 64), exec (.release d) s = .next s))

/-- R370, R384 to R393, R429, R437 to R442. Each of INTERRUPT_ENTRY, SUP_STORE_DRAIN, DOORBELL, DMA_GO, DMA_ELEMENT, WIPE, SCRUB_VISIT, VALID, REMAP_COMPLETE, INJ completes: in every state and for all operands that meet the conditions of a clause here, exec answers a next state, the one that the clause gives. Where it rests on choices of the model: log entries 19, 46, 48, 83, 87. -/
def Obligations.CoreComplex : Prop :=
  ∀ (s : State), s.Quiet →
    (∀ (k : Fin 10), 
        let st := s.fld F.SUP_STAT_STATE k.val
        s.alive 4 = true → s.boot = .done → (s.logicalCore k.val).isSome = true → (s.irqChoice k.val = none ∨ 2 ≤ st ∨ s.flag F.MEM_STAT_WIPING 0 = true ∨ (s.core k.val).rep ≠ 0 → exec (.interruptEntry k) s = .next s) ∧
        (∀ n l, s.irqChoice k.val = some (n, l) → st < 2 → s.flag F.MEM_STAT_WIPING 0 = false → (s.core k.val).rep = 0 →
          exec (.interruptEntry k) s = ((s.setFld F.SUP_STAT_STATE k.val 0).supException k.val (0x10 + l) n (s.core k.val).pc 0 (some l)).ends)) ∧
    (∀ (k : Fin 10), s.boot ≠ .done → exec (.interruptEntry k) s = .next s) ∧
    (∀ (k : Fin 10) (n l : Nat), 
        let c := s.core k.val
        let ready (m : Nat) := s.flag F.SUP_IDATA_EN m = true ∧ s.irqPending m = true ∧ s.irqReaches m k.val = true ∧ c.plvl < s.fld F.SUP_IDATA_LEVEL m + 1 ∧ (bit 8 c.pst = true ∨ s.fld F.SUP_IDATA_LEVEL m = 15)
        s.irqChoice k.val = some (n, l) → n < 1024 ∧ ready n ∧ l = s.fld F.SUP_IDATA_LEVEL n ∧ (∀ m < 1024, ready m → s.fld F.SUP_IDATA_LEVEL m ≤ l) ∧ (∀ m < n, ready m → s.fld F.SUP_IDATA_LEVEL m < l)) ∧
    (∀ (k : Fin 10) (x : SupStore) (rest : List SupStore), 
        let c := s.core k.val
        let u := s.setCore k.val { c with sb := rest }
        c.sb = x :: rest → (∀ t, u.supStoreNow k.val x = (none, t) → exec (.supStoreDrain k) s = t.ends) ∧
        (∀ e t, u.supStoreNow k.val x = (some e, t) → exec (.supStoreDrain k) s = (t.supException k.val 5 0 x.pc x.addr none).ends)) ∧
    (∀ (k : Fin 10) (x : SupStore), 
        let u := s.setCore k.val { s.core k.val with sb := [] }
        let t := (u.supStoreNow k.val x).2
        x.cap = none → x.size = 8 → 0x20000000 ≤ x.addr → x.addr < 0x21000000 → x.addr % 8 = 0 → s.alive 4 = true → s.underWipe x.addr = false → s.flag F.MEM_INJ_ARM 0 = false → (u.supStoreNow k.val x).1 = none ∧ t.peek x.addr 8 = x.value % 2 ^ 64 ∧ t.chkAt x.addr = .valid ∧ t.tagAt x.addr = false ∧
        (∀ b, b < x.addr ∨ x.addr + 8 ≤ b → t.byte b = s.byte b) ∧ t.regs = s.regs) ∧
    (∀ (who : Initiator) (k : Fin 10) (ring ack : Bool), s.Takes who .SUP_DOORBELL k.val → (ack = true → exec (.doorbell who k ring ack) s = .next (s.setFld F.SUP_DOORBELL_RING k.val 0)) ∧
        (ack = false → ring = true → exec (.doorbell who k ring ack) s = .next (s.setFld F.SUP_DOORBELL_RING k.val 1)) ∧
        (ack = false → ring = false → exec (.doorbell who k ring ack) s = .next s) ∧ ((s.core k.val).sb = [] → exec (.supStoreDrain k) s = .next s)) ∧
    (∀ (who : Initiator) (m : Fin 32), 
        let u := s.regPlain .DMA_CTL m.val (setBits 1 1 1 (s.regN .DMA_CTL m.val))
        let v : State := { u.setFld F.DMA_STAT_BUSY m.val 1 with dma := Tab.put (fun _ => (⟨none⟩ : Dma)) s.dma m.val ⟨none⟩ }
        s.Takes who .DMA_CTL m.val → (s.flag F.DMA_STAT_BUSY m.val = true → s.flag F.DMA_STAT_ERR m.val = false → exec (.dmaGo who m) s = .next (s.setFld F.DMA_STAT_OVR m.val 1)) ∧
        (s.flag F.DMA_STAT_BUSY m.val = true → s.flag F.DMA_STAT_ERR m.val = true → exec (.dmaGo who m) s = .next s) ∧
        (s.flag F.DMA_STAT_BUSY m.val = false → s.flag F.DMA_STAT_ERR m.val = true ∨ s.flag F.DMA_CTL_EN m.val = false → exec (.dmaGo who m) s = .next u) ∧
        (s.flag F.DMA_STAT_BUSY m.val = false → s.flag F.DMA_STAT_ERR m.val = false → s.flag F.DMA_CTL_EN m.val = true →
          (s.fld F.DMA_LEN_LEN m.val ≠ 0 → exec (.dmaGo who m) s = .next v) ∧
          (s.fld F.DMA_LEN_LEN m.val = 0 → exec (.dmaGo who m) s =
            (((v.setFld F.DMA_STAT_BUSY m.val 0).setFld F.DMA_STAT_DONE m.val 1).emit (0x9C0 + m.val) s.now 4 none).ends))) ∧
    (∀ (m : Fin 32), 
        let w := 2 ^ s.fld F.DMA_CTL_WIDTH m.val
        let src := s.dmaPlace (s.dmaCapOf m.val false) (s.regN .DMA_SRCOFF m.val) w false
        let dst := s.dmaPlace (s.dmaCapOf m.val true) (s.regN .DMA_DSTOFF m.val) w true
        let halt (t : State) (code : Nat) := (((t.setFld F.DMA_STAT_BUSY m.val 0).setFld F.DMA_CTL_EN m.val 0).setFld F.DMA_STAT_ERR m.val 1).setFld F.DMA_STAT_ERRCODE m.val code
        (s.alive 4 = false ∨ s.flag F.DMA_STAT_BUSY m.val = false → exec (.dmaElement m) s = .next s) ∧
        (s.alive 4 = true → s.flag F.DMA_STAT_BUSY m.val = true → src = none ∨ dst = none → exec (.dmaElement m) s = .next (halt s 1)) ∧
        (∀ p q, s.alive 4 = true → s.flag F.DMA_STAT_BUSY m.val = true → src = some p → dst = some q →
          (∀ t, s.dmaRead m.val w p = (.error .wait, t) → exec (.dmaElement m) s = t.ends) ∧
          (∀ e t, s.dmaRead m.val w p = (.error e, t) → e ≠ .wait → exec (.dmaElement m) s = (halt (if p.single w || p.plain then t else s) e.dmaCode).ends) ∧
          (∀ v doubt t, s.dmaRead m.val w p = (.ok (v, doubt), t) →
            (∀ x, t.dmaPut m.val w q v = (none, x) → exec (.dmaElement m) s = (x.dmaAdvance m.val w doubt).ends) ∧
            (∀ x, t.dmaPut m.val w q v = (some .wait, x) → exec (.dmaElement m) s = .next s) ∧
            (∀ e x, t.dmaPut m.val w q v = (some e, x) → e ≠ .wait →
              let b := if p.plain then t else s
              exec (.dmaElement m) s = (halt (if q.single w then (b.dmaPut m.val w q v).2 else b.recorded x) e.dmaCode).ends)))) ∧
    ((s.wipe = none → exec .wipe s = .next s) ∧
        (s.wipe ≠ none → s.boot = .wipe → exec .wipe s = ({ s.endWipe.wipeBlocks.rstMsr.domSettle with boot := .verify } : State).ends) ∧
        (s.wipe ≠ none → s.boot ≠ .wipe → s.mode = 11 → exec .wipe s = (s.endWipe.wipeBlocks.rstMem.rstMsr.domSettle).ends) ∧
        (s.wipe ≠ none → s.boot ≠ .wipe → s.mode ≠ 11 → exec .wipe s = (s.endWipe).ends)) ∧
    (∀ (doms : List Nat) (keep : Bool), 
        let t := s.endWipe
        s.wipe = some (doms, keep) → t.wipe = none ∧ t.flag F.MEM_STAT_WIPING 0 = false ∧ (∀ a, wiped doms keep a = true → t.byte a = 0 ∧ t.tagAt a = false ∧ t.chkAt a = .poison) ∧
        (∀ a, wiped doms keep a = false → sqCleared a = false → t.byte a = s.byte a)) ∧
    (∀ (m : Fin 2048), 
        let x := s.scrub m.val
        let a := macroAddr m.val x.pos
        let go (t : State) := t.setScrub m.val { x with pos := x.pos + 1, start := some (x.start.getD s.now) }
        let awake := s.flag F.MEM_CTL_SCRUBEN 0 = true ∧ s.flag F.MEM_STAT_WIPING 0 = false ∧ s.alive 4 = true ∧ s.alive (macroDom m.val) = true
        (2004 ≤ m.val ∨ ¬ awake → exec (.scrubVisit m) s = .next s) ∧
        (m.val < 2004 → awake → x.pos + 1 < macroWords m.val →
          (s.chkAt a = .valid → exec (.scrubVisit m) s = .next (go s)) ∧
          (s.chkAt a = .uncorr → exec (.scrubVisit m) s = (go ((s.logUE a 3 true).setFld F.MEM_STAT_SCRUBUE 0 1)).ends) ∧
          (s.chkAt a = .poison → exec (.scrubVisit m) s = (go ((s.logUE a 3 false).setFld F.MEM_STAT_SCRUBUE 0 1)).ends) ∧
          (s.chkAt a = .corr → s.flag F.MEM_CTL_AUTOREMAP 0 = false → exec (.scrubVisit m) s = (((s.logCE.setChk a .valid).setScrub m.val
            { x with pos := x.pos + 1, start := some (x.start.getD s.now), fixed := x.pos :: x.fixed })).ends)) ∧
        (m.val < 2004 → awake → macroWords m.val ≤ x.pos + 1 → s.chkAt a = .valid → exec (.scrubVisit m) s = .next
          { s.setScrub m.val ⟨0, some s.now, [], x.fixed⟩ with laps := Tab.put (fun _ => none) s.laps m.val (some ((s.now - x.start.getD s.now) / 1250000)) })) ∧
    (∀ (who : Initiator) (row : BitVec 12), 
        let m := s.fld F.MEM_RSEL_MACRO 0
        let i := remapEntry m (s.fld F.MEM_RSEL_ENTRY 0)
        s.answers 0x400060020 = true → s.regMay who.agent .MEM_RDATA i = true → (m < 2004 → s.flag F.MEM_RDATA_BUSY i = false → exec (.valid who row) s = .next (s.retable m (fun t => (t.setFld F.MEM_RDATA_ROW i row.toNat).setFld F.MEM_RDATA_BUSY i 1))) ∧
        (2004 ≤ m ∨ s.flag F.MEM_RDATA_BUSY i = true → exec (.valid who row) s = .next (s.setFld F.MEM_STAT_WERR 0 1))) ∧
    (∀ (m : Fin 2048) (x : Fin 8), 
        let i := remapEntry m.val x.val
        let row := s.fld F.MEM_RDATA_ROW i
        let copy := (s.rowGet m.val row).map (fun y => (y.1, if y.2.1 = .corr then Chk.valid else y.2.1, y.2.2))
        let u := (s.setFld F.MEM_STAT_REMAP 0 1).retable m.val (fun t => { (t.setFld F.MEM_RDATA_BUSY i 0).setFld F.MEM_RDATA_VALID i 1 with spares := Tab.put (fun _ => []) t.spares i copy })
        (s.flag F.MEM_RDATA_BUSY i = false → exec (.remapComplete m x) s = .next s) ∧
        (s.flag F.MEM_RDATA_BUSY i = true → s.alive 4 = true → exec (.remapComplete m x) s = u.ends) ∧
        (s.flag F.MEM_RDATA_BUSY i = true → s.alive 4 = true → m.val < 2004 → (∀ y < 8, s.flag F.MEM_RDATA_VALID (remapEntry m.val y) = false) →
          (∀ a, u.byte a = s.byte a) ∧ u.flag F.MEM_RDATA_BUSY i = false ∧ u.flag F.MEM_RDATA_VALID i = true ∧ u.flag F.MEM_STAT_REMAP 0 = true)) ∧
    (∀ (who : Initiator) (v : Word), s.Takes who .MEM_INJ 0 → (bit 13 v.toNat = true → s.mode ≠ 9 → exec (.inj who v) s = .next (s.setFld F.MEM_STAT_WERR 0 1)) ∧
        (bit 13 v.toNat = false ∨ s.mode = 9 → exec (.inj who v) s = .next (s.setRegN .MEM_INJ 0 (v.toNat % 2 ^ 14))))

/-- R448 to R462 and R469. Each of PROGRAM_WORD, PROGRAM_BUFFER, ERASE_SECTOR, BLANK_CHECK, LOCK_SECTOR, ERASE_SUSPEND, ERASE_RESUME, CASTLE, READ_STATUS, CLEAR_STATUS, OPTION_PROGRAM, ABORT, FLASH_OPERATION_DONE, SECTOR_REPLACEMENT, ERASE_SUSPENDED, SEQUENCE_TIMEOUT, SEQUENCE_WRITE completes: in every state and for all operands that meet the conditions of a clause here, exec answers a next state, the one that the clause gives. Where it rests on choices of the model: log entries 42, 43, 44, 45. -/
def Obligations.FlashOperations : Prop :=
  ∀ (s : State), s.Quiet →
    (∀ (by_ : Fin 42) (bank : Bool) (sector : BitVec 10) (word : BitVec 22) (row : BitVec 7) (data : BitVec 256), 
        let k := b2n bank
        let who := (flashBy by_).agent
        let a := b2n bank * 0x8000000 + 0x7A40
        let self := ∃ pc, s.flashFrom (flashBy by_) = some pc ∧ pc < 0x10200000 ∧ (s.flashAt pc).1 = k
        let u := (s.seqExpire k).seqYield who k
        let ops : List (Instr × Nat × Nat) := [(.eraseSector by_ bank sector, 0x20, sector.toNat), (.eraseSuspend by_ bank, 0x21, 0), (.eraseResume by_ bank, 0x22, 0), (.castle by_ bank, 0x30, 0), (.blankCheck by_ bank sector, 0x40, sector.toNat),
          (.readStatus by_ bank, 0x50, 0), (.clearStatus by_ bank, 0x51, 0), (.lockSector by_ bank sector, 0x60, sector.toNat), (.programWord by_ bank word data, 0x10, 32 * word.toNat),
          (.optionProgram by_ bank row data, 0x70, row.toNat), (.abort by_ bank, 0xF0, 0)]
        ∀ x ∈ ops, (s.alive 3 = false → exec x.1 s = (s.told (flashBy by_) a .refused).ends) ∧
          (s.alive 3 = true → s.flashMay who k = false → exec x.1 s = ((s.setFst k 16 true).told (flashBy by_) a .refused).ends) ∧
          (∀ q, s.alive 3 = true → s.flashMay who k = true → (u.fbank k).seq = some q →
            (q.by_ = who → exec x.1 s = .next (u.seqBreak k)) ∧ (q.by_ ≠ who → exec x.1 s = .next (u.setFst k 4 true))) ∧
          (s.alive 3 = true → s.flashMay who k = true → (u.fbank k).seq = none → exec x.1 s = exec x.1 u) ∧
          (s.alive 3 = true → s.flashMay who k = true → (s.fbank k).seq = none → self → exec x.1 s = .next (s.setFst k 3 true)) ∧
          (s.alive 3 = true → s.flashMay who k = true → (s.fbank k).seq = none → ¬ self →
            (s.flashMode k x.2.1 x.2.2 = false → exec x.1 s = .next (s.setFst k 6 true)) ∧
            (s.flashMode k x.2.1 x.2.2 = true → s.flashFree k x.2.1 = false → exec x.1 s = .next (s.setFst k 5 true)))) ∧
    (∀ (by_ : Fin 42) (bank : Bool) (word : BitVec 22) (data : BitVec 256), 
        let k := b2n bank
        let who := (flashBy by_).agent
        let a := b2n bank * 0x8000000 + 0x7A40
        let off := 32 * word.toNat
        let x := s.fbank k
        let sec := off / 0x20000
        s.alive 3 = true → s.flashMay who k = true → (s.fbank k).seq = none → (s.flashFrom (flashBy by_)).all (fun pc => decide (0x10200000 ≤ pc) || (s.flashAt pc).1 != k) = true → s.flashMode k 0x10 off = true → s.flashFree k 0x10 = true → (x.erase = some sec → exec (.programWord by_ bank word data) s = .next (s.setFst k 5 true)) ∧
        (x.erase ≠ some sec → s.locked k sec = true → exec (.programWord by_ bank word data) s = .next (s.setFst k 7 true)) ∧
        (x.erase ≠ some sec → s.locked k sec = false → x.abn.contains sec = true → exec (.programWord by_ bank word data) s = .next (s.setFst k 8 true)) ∧
        (x.erase ≠ some sec → s.locked k sec = false → x.abn.contains sec = false →
          (∀ t, s.flashAccepts k off data.toNat = (true, t) → exec (.programWord by_ bank word data) s = (t.flashBegin k ⟨0x10, off, [data.toNat]⟩).ends) ∧
          (∀ t, s.flashAccepts k off data.toNat = (false, t) → exec (.programWord by_ bank word data) s = (t.setFst k 9 true).ends))) ∧
    (∀ (by_ : Fin 42) (bank : Bool) (off v : Nat), 
        let k := b2n bank
        let old := s.peek (bankBase k + off) 32
        let rises := v &&& (2 ^ 256 - 1 - old) ≠ 0
        let good := s.chkAt (bankBase k + off) = .valid
        v < 2 ^ 256 → (rises → s.flashAccepts k off v = (false, s)) ∧ (v = 0 → s.flashAccepts k off v = (true, s)) ∧ (good → old = 2 ^ 256 - 1 ∨ v = old → s.flashAccepts k off v = (true, s)) ∧
        (v ≠ 0 → ¬ rises → good → s.flashAccepts k off v = (decide (flashCheckOf v &&& ~~~ flashCheckOf old = 0), s)) ∧
        (v ≠ 0 → ¬ rises → ¬ good → s.flashAccepts k off v = (decide (flashCheckOf v &&& ~~~ BitVec.ofNat 32 s.takeFree.1 = 0), s.takeFree.2))) ∧
    (∀ (by_ : Fin 42) (bank : Bool) (word : BitVec 22) (n : BitVec 5) (data : BitVec 8192), 
        let k := b2n bank
        let who := (flashBy by_).agent
        let a := b2n bank * 0x8000000 + 0x7A40
        let off := 32 * word.toNat
        let x := s.fbank k
        let sec := off / 0x20000
        let ws := (List.range (n.toNat + 1)).map (fun i => data.toNat / 2 ^ (256 * i) % 2 ^ 256)
        s.alive 3 = true → s.flashMay who k = true → (s.fbank k).seq = none → (s.flashFrom (flashBy by_)).all (fun pc => decide (0x10200000 ≤ pc) || (s.flashAt pc).1 != k) = true → (1024 < off % 1024 + 32 * (n.toNat + 1) → exec (.programBuffer by_ bank word n data) s = .next (s.setFst k 5 true)) ∧
        (off % 1024 + 32 * (n.toNat + 1) ≤ 1024 → s.flashMode k 0x11 off = true → s.flashFree k 0x11 = true → x.erase ≠ some sec → s.locked k sec = false → x.abn.contains sec = false →
          (∀ t, s.flashAcceptsAll k off ws = (true, t) → exec (.programBuffer by_ bank word n data) s = (t.flashBegin k ⟨0x11, off, ws⟩).ends) ∧
          (∀ t, s.flashAcceptsAll k off ws = (false, t) → exec (.programBuffer by_ bank word n data) s = (t.setFst k 9 true).ends))) ∧
    (∀ (by_ : Fin 42) (bank : Bool) (sector : BitVec 10), 
        let k := b2n bank
        let who := (flashBy by_).agent
        let a := b2n bank * 0x8000000 + 0x7A40
        let n := sector.toNat
        s.alive 3 = true → s.flashMay who k = true → (s.fbank k).seq = none → (s.flashFrom (flashBy by_)).all (fun pc => decide (0x10200000 ≤ pc) || (s.flashAt pc).1 != k) = true → (s.flashMode k 0x20 n = true → s.flashFree k 0x20 = true → s.locked k n = true → exec (.eraseSector by_ bank sector) s = .next (s.setFst k 7 true)) ∧
        (s.flashMode k 0x20 n = true → s.flashFree k 0x20 = true → s.locked k n = false → exec (.eraseSector by_ bank sector) s =
          .next ((s.modFbank k (fun x => { x with marks := n :: x.marks.filter (fun m => m ≠ n) })).flashBegin k ⟨0x20, n, []⟩)) ∧
        (s.flashMode k 0x40 n = true → s.flashFree k 0x40 = true → exec (.blankCheck by_ bank sector) s = .next (s.flashBegin k ⟨0x40, n, []⟩)) ∧
        (s.flashMode k 0x60 n = true → s.flashFree k 0x60 = true → exec (.lockSector by_ bank sector) s = .next (s.flashBegin k ⟨0x60, n, []⟩))) ∧
    (∀ (by_ : Fin 42) (bank : Bool) (o : FOp), 
        let k := b2n bank
        let who := (flashBy by_).agent
        let a := b2n bank * 0x8000000 + 0x7A40
        s.alive 3 = true → s.flashMay who k = true → (s.fbank k).seq = none → (s.flashFrom (flashBy by_)).all (fun pc => decide (0x10200000 ≤ pc) || (s.flashAt pc).1 != k) = true → ((s.fbank k).op = some o → o.code = 0x20 → (s.fbank k).asked = false → s.flashMode k 0x21 0 = true → s.flashFree k 0x21 = true →
          exec (.eraseSuspend by_ bank) s = .next (s.modFbank k (fun x => { x with asked := true, askedAt := s.now }))) ∧
        ((s.fbank k).op = none ∨ (s.fbank k).asked = true → s.flashMode k 0x21 0 = true → s.flashFree k 0x21 = true → exec (.eraseSuspend by_ bank) s = .next (s.setFst k 5 true)) ∧
        (∀ sec, (s.fbank k).erase = some sec → s.fst k 1 = true → (s.fbank k).op = none → s.flashMode k 0x22 0 = true → s.flashFree k 0x22 = true →
          exec (.eraseResume by_ bank) s = .next (((s.modFbank k (fun x => { x with erase := none })).setFst k 1 false).flashBegin k ⟨0x20, sec, []⟩)) ∧
        ((s.fbank k).erase = none → s.flashMode k 0x22 0 = true → s.flashFree k 0x22 = true → exec (.eraseResume by_ bank) s = .next (s.setFst k 5 true))) ∧
    (∀ (by_ : Fin 42) (bank : Bool), 
        let k := b2n bank
        let who := (flashBy by_).agent
        let a := b2n bank * 0x8000000 + 0x7A40
        let g := (validGen (1 - k) (s.bankGen0 (1 - k))).getD 0
        s.alive 3 = true → s.flashMay who k = true → (s.fbank k).seq = none → (s.flashFrom (flashBy by_)).all (fun pc => decide (0x10200000 ≤ pc) || (s.flashAt pc).1 != k) = true → (s.flashMode k 0x30 0 = true → s.flashFree k 0x30 = true →
          (k = s.activeTwin → exec (.castle by_ bank) s = .next (s.setFst k 5 true)) ∧
          (k ≠ s.activeTwin → s.abandoned.any (fun x => x % 1024 < 16) = true → exec (.castle by_ bank) s = .next (s.setFst k 8 true)) ∧
          (k ≠ s.activeTwin → s.abandoned.any (fun x => x % 1024 < 16) = false → 1024 < g + 1 → exec (.castle by_ bank) s = .next (s.setFst k 17 true)) ∧
          (k ≠ s.activeTwin → s.abandoned.any (fun x => x % 1024 < 16) = false → g + 1 ≤ 1024 → exec (.castle by_ bank) s = .next (s.flashBegin k ⟨0x30, g, []⟩))) ∧
        (s.flashMode k 0x50 0 = true → exec (.readStatus by_ bank) s = .next (s.modFbank k (fun x => { x with status := who :: x.status.filter (fun b => b ≠ who) }))) ∧
        (s.flashMode k 0x51 0 = true → exec (.clearStatus by_ bank) s = .next (s.setRegN (flcStat k) 0 (s.regN (flcStat k) 0 &&& (2 ^ 32 - 1 - (flcStat k).spec.w1c))))) ∧
    (∀ (by_ : Fin 42) (bank : Bool) (row : BitVec 7) (data : BitVec 256), 
        let k := b2n bank
        let who := (flashBy by_).agent
        let a := b2n bank * 0x8000000 + 0x7A40
        let n := row.toNat
        let ws := (List.range 8).map (fun i => data.toNat / 2 ^ (32 * i) % 2 ^ 32)
        s.alive 3 = true → s.flashMay who k = true → (s.fbank k).seq = none → (s.flashFrom (flashBy by_)).all (fun pc => decide (0x10200000 ≤ pc) || (s.flashAt pc).1 != k) = true → s.flashMode k 0x70 n = true → s.flashFree k 0x70 = true → (48 ≤ n → n < 64 → exec (.optionProgram by_ bank row data) s = .next (s.setFst k 6 true)) ∧
        (n < 48 ∨ 64 ≤ n → (∃ w : Fin 8, ws.getD w.val 0 &&& (2 ^ 32 - 1 - s.optWord n w.val) ≠ 0) → exec (.optionProgram by_ bank row data) s = .next (s.setFst k 9 true)) ∧
        (n < 48 ∨ 64 ≤ n → (∀ w : Fin 8, ws.getD w.val 0 &&& (2 ^ 32 - 1 - s.optWord n w.val) = 0) → exec (.optionProgram by_ bank row data) s = .next (s.flashBegin k ⟨0x70, n, ws⟩))) ∧
    (∀ (by_ : Fin 42) (bank : Bool), 
        let k := b2n bank
        let who := (flashBy by_).agent
        let a := b2n bank * 0x8000000 + 0x7A40
        s.alive 3 = true → s.flashMay who k = true → (s.fbank k).seq = none → (s.flashFrom (flashBy by_)).all (fun pc => decide (0x10200000 ≤ pc) || (s.flashAt pc).1 != k) = true → s.flashMode k 0xF0 0 = true → ((s.fbank k).op = none → (s.fbank k).erase = none → exec (.abort by_ bank) s = .next s) ∧
        (∀ sec, (s.fbank k).erase = some sec → (s.fbank k).op = none → exec (.abort by_ bank) s =
          .next ((((s.flashAbandon k sec).modFbank k (fun x => { x with erase := none })).setFst k 1 false).setFst k 0 false |>.setFst k 12 true)) ∧
        (∀ o, (s.fbank k).op = some o → (s.fbank k).erase = none → exec (.abort by_ bank) s =
          .next ((((s.flashCut k o).modFbank k (fun x => { x with op := none, asked := false, cut := some (s.now, o, s.fst k 12) })).setFst k 12 true).setFst k 0 false)) ∧
        (∀ o, (s.fbank k).op = some o → (s.fbank k).erase.isSome = true → exec (.abort by_ bank) s =
          .next (((s.flashCut k o).modFbank k (fun x => { x with op := none, asked := false, cut := some (s.now, o, s.fst k 12) })).setFst k 12 true))) ∧
    (∀ (bank : Bool) (bad : Option (Fin 32)), 
        let k := b2n bank
        ((s.fbank k).op = none → (∀ o was, (s.fbank k).cut ≠ some (s.now, o, was)) → exec (.flashOperationDone bank bad) s = .next s) ∧
        (∀ o was, (s.fbank k).op = none → (s.fbank k).cut = some (s.now, o, was) → exec (.flashOperationDone bank bad) s = exec (.flashOperationDone bank bad)
          (((s.modFbank k (fun x => { x with op := some o, cut := none })).setFst k 12 was).setFst k 0 true)) ∧
        ((s.fbank k).op = none → exec (.sectorReplacement bank) s = .next s ∧ exec (.eraseSuspended bank) s = .next s) ∧
        ((s.fbank k).seq = none → exec (.sequenceTimeout bank) s = .next s) ∧
        ((s.fbank k).seq ≠ none → exec (.sequenceTimeout bank) s = .next ((s.modFbank k (fun x => { x with seq := none })).setFst k 4 true))) ∧
    (∀ (bank : Bool) (o : FOp), 
        let k := b2n bank
        let u := if (s.fbank k).asked && (s.fbank k).askedAt == s.now then s.setFst k 5 true else s
        let end_ (t : State) := (t.modFbank k (fun x => { x with asked := false })).flashEnd k
        (s.fbank k).op = some o → (o.code = 0x20 → (s.fbank k).bad.contains o.place = false → exec (.flashOperationDone bank none) s = .next (end_ (u.flashErased k o.place))) ∧
        (o.code = 0x20 → (s.fbank k).bad.contains o.place = true → exec (.flashOperationDone bank none) s = .next (end_ (u.flashReplace k o.place))) ∧
        (o.code = 0x30 → exec (.flashOperationDone bank none) s = .next (end_ ((u.modFbank k (fun x => { x with gen := o.place + 1 })).dropLines (fun a => decide (0x10000000 ≤ a))))) ∧
        (o.code = 0x40 → s.notErased k o.place = none → exec (.flashOperationDone bank none) s = .next (end_ (u.setFst k 13 true))) ∧
        (∀ i, o.code = 0x40 → s.notErased k o.place = some i →
          exec (.flashOperationDone bank none) s = .next (end_ ((u.setFst k 13 false).setFaddr k (o.place * 0x20000 + 32 * i)))) ∧
        (o.code = 0x60 → exec (.flashOperationDone bank none) s = .next (end_ (u.modFbank k (fun x => { x with locks := o.place :: x.locks.filter (fun n => n ≠ o.place) })))) ∧
        (o.code = 0x20 → exec (.sectorReplacement bank) s = .next (end_ (s.flashReplace k o.place))) ∧
        (o.code ≠ 0x20 → exec (.sectorReplacement bank) s = .next s) ∧
        (o.code = 0x20 → (s.fbank k).asked = true → exec (.eraseSuspended bank) s =
          .next (((s.sectorScramble k o.place).modFbank k (fun x => { x with op := none, erase := some o.place, asked := false })).setFst k 1 true)) ∧
        (o.code ≠ 0x20 ∨ (s.fbank k).asked = false → exec (.eraseSuspended bank) s = .next s)) ∧
    (∀ (bank : Bool) (o : FOp) (v : Nat), 
        let k := b2n bank
        let u := if (s.fbank k).asked && (s.fbank k).askedAt == s.now then s.setFst k 5 true else s
        let t := ((u.dropWords k o.place 32).poke (bankBase k + o.place) 32 v).setChk (bankBase k + o.place) .valid
        (s.fbank k).op = some o → (o.code = 0x10 ∨ o.code = 0x11) → o.words = [v] → exec (.flashOperationDone bank none) s = .next ((t.modFbank k (fun x => { x with asked := false })).flashEnd k)) ∧
    (∀ (bank : Bool) (o : FOp), 
        let k := b2n bank
        let u := if (s.fbank k).asked && (s.fbank k).askedAt == s.now then s.setFst k 5 true else s
        let t := repeatN 8 (fun w u => u.setOpt o.place w (u.optWord o.place w &&& o.words.getD w 0)) u
        (s.fbank k).op = some o → o.code = 0x70 → exec (.flashOperationDone bank none) s = .next ((t.modFbank k (fun x => { x with asked := false })).flashEnd k)) ∧
    (∀ (bank : Bool), 
        let k := b2n bank
        let sp := s.fbank k
        (∀ sec, sp.used < 32 → s.flashReplace k sec = ((s.modFbank k (fun x => { x with used := x.used + 1, repl := sec :: x.repl.filter (fun n => n ≠ sec) })).flashErased k sec).setFst k 11 true) ∧
        (∀ sec, 32 ≤ sp.used → s.flashReplace k sec =
          let v := (s.sectorScramble k sec).takeFree
          (v.2.setFst k 10 true).setFaddr k (sec * 0x20000 + v.1 % 4096 * 32)) ∧
        (∀ sec < 1024, ∀ o < 0x20000, (s.flashErased k sec).byte (bankBase k + sec * 0x20000 + o) = 0xFF)) ∧
    (∀ (by_ : Fin 42) (bank : Bool) (off : BitVec 27) (v : Word), 
        let k := b2n bank
        let who := (flashBy by_).agent
        let b := k * 0x8000000 + off.toNat
        let x := s.fbank k
        let yields (q : FSeq) := off = 0x7A40 ∧ v = 0x4B594F56 ∧ q.step = .key2 ∧ q.at_ = s.now ∧ who.order < q.by_.order
        let go (st : FStep) := s.modFbank k (fun y => { y with seq := some ⟨who, st, s.now⟩ })
        s.alive 3 = true → (s.flashMay who k = false → exec (.sequenceWrite by_ bank off v) s = ((s.setFst k 16 true).told (flashBy by_) b .refused).ends) ∧
        (s.flashMay who k = true → x.seq = none → off = 0x7A40 → v = 0x4B594F56 → exec (.sequenceWrite by_ bank off v) s = .next (go .key2)) ∧
        (s.flashMay who k = true → x.seq = none → off ≠ 0x7A40 ∨ v ≠ 0x4B594F56 → exec (.sequenceWrite by_ bank off v) s = .next (s.setFst k 4 true)) ∧
        (∀ q, s.flashMay who k = true → x.seq = some q → q.at_ + 12500 < s.now → exec (.sequenceWrite by_ bank off v) s = exec (.sequenceWrite by_ bank off v) (s.seqBreak k)) ∧
        (∀ q, s.flashMay who k = true → x.seq = some q → s.now ≤ q.at_ + 12500 →
          (yields q → exec (.sequenceWrite by_ bank off v) s = .next ((s.seqBreak k).modFbank k (fun y => { y with seq := some ⟨who, .key2, s.now⟩ }))) ∧
          (q.by_ ≠ who → ¬ yields q → exec (.sequenceWrite by_ bank off v) s = .next (s.setFst k 4 true)) ∧
          (q.by_ = who → q.step = .key2 → off = 0x4B10 → v = 0xB62D → exec (.sequenceWrite by_ bank off v) s = .next (go .command)) ∧
          (q.by_ = who → q.step = .key2 → off ≠ 0x4B10 ∨ v ≠ 0xB62D → exec (.sequenceWrite by_ bank off v) s = .next (s.seqBreak k)) ∧
          (q.by_ = who → q.step = .command → off = 0x7A40 → exec (.sequenceWrite by_ bank off v) s = (s.flashCommand who k v.toNat (s.flashFrom (flashBy by_))).ends) ∧
          (q.by_ = who → q.step = .command → off ≠ 0x7A40 → exec (.sequenceWrite by_ bank off v) s = .next (s.seqBreak k))))

/-- R478 to R482, R485 to R488, R501, R26 to R28. Each of HOST_READ, HOST_WRITE, SPI_READ, SPI_WRITE, HOST_READ_TIMEOUT, POST, SNAPSHOT, NUMCMD, PCIE_LINK_CHANGE, SPI_ROOT_LAPSE, ALMXC, ALARM_FIRE completes: in every state and for all operands that meet the conditions of a clause here, exec answers a next state, the one that the clause gives. Where it rests on choices of the model: log entries 63, 80, 81, 82, 89, 90, 91. -/
def Obligations.HostAndAlarms : Prop :=
  ∀ (s : State), s.Quiet →
    (∀ (h n st : Nat) (data : List Byte), 
        let u : State := { s with reply := some ⟨st, data⟩ }
        s.hostReply ⟨false, h, n⟩ st data = u ∧
        s.hostReply ⟨true, h, n⟩ st data = { u.takeFree.2 with spiOut := List.replicate s.takeFree.1 0 ++ (if st = 1 then 0xE1 :: List.replicate n 0xFF else 0xA5 :: data) } ∧
        (∀ f, s.hostLog h f = ((s.setFld f 0 1).setRegN .HIF_ERRADDR 0 h).bump F.HIF_ERRCNT_COUNT F.HIF_ERRCNT_SAT 0) ∧
        (∀ spi, s.hostRefuse ⟨spi, h, n⟩ = (s.hostReply ⟨spi, h, n⟩ 1 []).hostLog h F.HIF_STAT_REFUSED)) ∧
    (∀ (bar : Fin 4) (wbar : Fin 3) (off : BitVec 32) (n : Fin 513) (k : Fin 257) (data : BitVec 2048), s.alive 18 = false ∨ s.flag F.HIF_STAT_LINKUP 0 = false ∨ s.flag F.HIF_CTL_PCIEEN 0 = false → exec (.hostRead bar off n) s = .next s ∧ exec (.hostWrite wbar off k data) s = .next s) ∧
    (∀ (off : BitVec 32) (n : Fin 513) (k : Fin 257) (data : BitVec 2048), 
        let o := off.toNat % 0x10000
        let a := msixBase + o
        let l := (leBytes k.val data.toNat).take (0x8000 - o)
        let cfg := s.configRead (off.toNat % 0x1000) n.val
        s.pcieOn = true → exec (.hostRead 2 off n) s = .next (s.hostReply ⟨false, off.toNat, n.val⟩ 0 (s.bytes a n.val)) ∧
        (0x8000 ≤ o → exec (.hostWrite 2 off k data) s = .next s) ∧
        (o < 0x8000 → exec (.hostWrite 2 off k data) s = .next ((s.setBytes a l).msixUnmask (o / 16) ((o + l.length - 1) / 16))) ∧
        exec (.hostRead 3 off n) s = .next (cfg.2.hostReply ⟨false, off.toNat % 0x1000, n.val⟩ 0 cfg.1) ∧ s.configWord 0 = (s.optLoad 0 1, s)) ∧
    (∀ (v : Nat), 
        let b := (s.byte (msixBase + 16 * v + 12)).toNat
        let p := msixBase + 0x8000 + v / 8
        v < 2048 → (bit 0 b = false → s.msixSend v = { s with msix := some v }) ∧ (bit 0 b = true → s.msixSend v = s.setByte p (BitVec.ofNat 8 (setBits (v % 8) 1 1 (s.byte p).toNat))) ∧
        (bit 0 b = false → bit (v % 8) (s.byte p).toNat = true → s.msixUnmask v v = { s.setByte p (BitVec.ofNat 8 (setBits (v % 8) 1 0 (s.byte p).toNat)) with msix := some v }) ∧
        (bit 0 b = true ∨ bit (v % 8) (s.byte p).toNat = false → s.msixUnmask v v = s)) ∧
    (∀ (off : BitVec 32) (n : Fin 513) (k : Fin 257) (data : BitVec 2048), 
        let h := off.toNat % 0x10000
        let a := 0x4000E0000 + h
        let l := leBytes k.val data.toNat
        let q : HostReq := ⟨false, h, n.val⟩
        s.pcieOn = true → n.val ≠ 0 → k.val ≠ 0 → (∀ st b t, h + n.val ≤ 0x10000 → s.spanPoison .host a n.val = ((st, b), t) → exec (.hostRead 0 off n) s = (if st = 1 then t.hostRefuse q else t.hostReply q st b).ends) ∧
        (∀ st b t, 0x10000 < h + n.val → s.spanPoison .host a (0x10000 - h) = ((st, b), t) → exec (.hostRead 0 off n) s = (t.hostRefuse q).ends) ∧
        (0x10000 < h + k.val → exec (.hostWrite 0 off k data) s = (s.hostLog h F.HIF_STAT_REFUSED).ends) ∧
        (∀ t, h + k.val ≤ 0x10000 → s.spanWrite .host a l = (none, t) → exec (.hostWrite 0 off k data) s = t.ends) ∧
        (∀ e t, h + k.val ≤ 0x10000 → s.spanWrite .host a l = (some e, t) → exec (.hostWrite 0 off k data) s = (t.hostLog h F.HIF_STAT_REFUSED).ends)) ∧
    (∀ (off : BitVec 32) (n : Fin 513) (k : Fin 257) (data : BitVec 2048), 
        let h := 0x40000000 + off.toNat % 0x40000000
        let d := off.toNat % 0x40000000 / 0x1000000
        let o := off.toNat % 0x1000000
        let q : HostReq := ⟨false, h, n.val⟩
        let l := leBytes k.val data.toNat
        let log := (s.hostLog h F.HIF_STAT_REFUSED).ends
        s.pcieOn = true → 0x10000 ≤ o → o < 0x800000 → n.val ≠ 0 → k.val ≠ 0 → exec (.hostRead 1 off n) s = (s.hostRefuse q).ends ∧ exec (.hostWrite 1 off k data) s = log) ∧
    (∀ (off : BitVec 32) (n : Fin 513) (k : Fin 257) (data : BitVec 2048), 
        let h := 0x40000000 + off.toNat % 0x40000000
        let d := off.toNat % 0x40000000 / 0x1000000
        let o := off.toNat % 0x1000000
        let q : HostReq := ⟨false, h, n.val⟩
        let l := leBytes k.val data.toNat
        let log := (s.hostLog h F.HIF_STAT_REFUSED).ends
        let ask (v : Nat) : State := { s.gdnSend 0x10 d s.gtag (viewBytes v ++ leBytes 2 (min n.val 248)) with
          gtag := (s.gtag + 1) % 65536,
          greqs := s.greqs ++ [⟨s.gtag, .host, d, min n.val 248, h, s.now + 40000, some (q, ⟨0, [], if 248 < n.val then [(h + 248, n.val - 248)] else []⟩)⟩] }
        s.pcieOn = true → d ≠ s.devNum → o + n.val ≤ 0x10000 → o + k.val ≤ 0x10000 → n.val ≠ 0 → k.val ≠ 0 → (s.gdnHas d = false → exec (.hostRead 1 off n) s = ((s.setFld F.HIF_STAT_ABSENTRD 0 1).hostReply q 0 ((List.range n.val).map (fun k => if o + k < 0x4000 ∧ (o + k) % 64 = 2 then 4 else 0))).ends ∧
          exec (.hostWrite 1 off k data) s = .next s) ∧
        (s.gdnHas d = true → exec (.hostRead 1 off n) s = (ask (0x1C00E0000 + o)).ends ∧ exec (.hostWrite 1 off k data) s = (s.remotePut d (0x1C00E0000 + o) l).ends)) ∧
    (∀ (off : BitVec 32) (n : Fin 513) (k : Fin 257) (data : BitVec 2048), 
        let h := 0x40000000 + off.toNat % 0x40000000
        let d := off.toNat % 0x40000000 / 0x1000000
        let o := off.toNat % 0x1000000
        let q : HostReq := ⟨false, h, n.val⟩
        let l := leBytes k.val data.toNat
        let log := (s.hostLog h F.HIF_STAT_REFUSED).ends
        let v := s.fld F.HIF_APER_BASE d * 0x800000 + (o - 0x800000)
        let ask (v : Nat) : State := { s.gdnSend 0x10 d s.gtag (viewBytes v ++ leBytes 2 (min n.val 248)) with
          gtag := (s.gtag + 1) % 65536,
          greqs := s.greqs ++ [⟨s.gtag, .host, d, min n.val 248, h, s.now + 40000, some (q, ⟨0, [], if 248 < n.val then [(h + 248, n.val - 248)] else []⟩)⟩] }
        s.pcieOn = true → 0x800000 ≤ o → o + n.val ≤ 0x1000000 → o + k.val ≤ 0x1000000 → n.val ≠ 0 → k.val ≠ 0 → (viewAddr v = none → exec (.hostRead 1 off n) s = (s.hostRefuse q).ends ∧ exec (.hostWrite 1 off k data) s = log) ∧
        (∀ a, viewAddr v = some a →
          (d ≠ s.devNum → s.gdnHas d = true → exec (.hostRead 1 off n) s = (ask v).ends ∧ exec (.hostWrite 1 off k data) s = (s.remotePut d v l).ends) ∧
          (d ≠ s.devNum → s.gdnHas d = false → exec (.hostRead 1 off n) s = ((s.setFld F.HIF_STAT_ABSENTRD 0 1).hostReply q 1 []).ends ∧ exec (.hostWrite 1 off k data) s = .next s) ∧
          (∀ st b t, d = s.devNum → s.spanPoison .host a n.val = ((st, b), t) → exec (.hostRead 1 off n) s = (if st = 1 then t.hostRefuse q else t.hostReply q st b).ends) ∧
          (∀ t, d = s.devNum → s.spanWrite .host a l = (none, t) → exec (.hostWrite 1 off k data) s = t.ends) ∧
          (∀ e t, d = s.devNum → s.spanWrite .host a l = (some e, t) → exec (.hostWrite 1 off k data) s = (t.hostLog h F.HIF_STAT_REFUSED).ends))) ∧
    (∀ (d o : Nat) (l : List Byte), 
        let send (s : State) (o : Nat) (l : List Byte) : State := s.gdnSend 0x12 d 0 (viewBytes o ++ l)
        s.gdnHas d = true → l ≠ [] → (l.length ≤ 248 → s.remotePut d o l = send s o l) ∧ (248 < l.length → l.length ≤ 496 → s.remotePut d o l = send (send s o (l.take 248)) (o + 248) (l.drop 248))) ∧
    (∀ (cmd : BitVec 8) (addr : BitVec 32) (n : Fin 257) (data : BitVec 2048), 
        let err := s.setFld F.HIF_STAT_SPIERR 0 1
        let u := if n.val % 4 = 0 then s else err
        let r := ({ u with spiAt := some u.now } : State).gdnRefresh
        let m := n.val / 4 * 4
        (s.alive 18 = false ∨ s.flag F.HIF_CTL_SPIEN 0 = false → exec (.spiRead cmd addr n) s = .next s ∧ exec (.spiWrite addr n data) s = .next s) ∧
        (s.alive 18 = true → s.flag F.HIF_CTL_SPIEN 0 = true →
          (cmd = 2 → exec (.spiRead cmd addr n) s = .next s) ∧ (cmd ≠ 2 → cmd ≠ 0x0B → exec (.spiRead cmd addr n) s = .next err) ∧
          (addr.toNat % 4 ≠ 0 → exec (.spiRead 0x0B addr n) s = .next err ∧ exec (.spiWrite addr n data) s = .next err) ∧
          (addr.toNat % 4 = 0 → exec (.spiRead 0x0B addr n) s = (r.hostRead true addr.toNat m).ends ∧ exec (.spiWrite addr n data) s = (r.hostWrite addr.toNat ((leBytes n.val data.toNat).take m)).ends))) ∧
    ((s.greqs = [] → exec .hostReadTimeout s = .next s) ∧
        (∀ q rest, s.greqs = q :: rest → exec .hostReadTimeout s = (let t : State := { s.reach q.due with greqs := s.greqs.filter (fun x => x != q) }
          match q.host with
          | none => t.setGot q.by_ (some (q.addr, 1, 0))
          | some (h, _) => (t.hostReply h 1 []).hostLog h.addr F.HIF_STAT_TIMEOUT).ends)) ∧
    (∀ (who : Initiator) (m : BitVec 8) (len : BitVec 6), 
        let i := m.toNat
        let p := (s.postNote i).setBytes (mbxAddr i + 8) (s.stagedOld i)
        let q := (p.setByte (mbxAddr i + 4) (BitVec.ofNat 8 (min len.toNat 56))).setByte (mbxAddr i + 2) (BitVec.ofNat 8 (b2n (s.flag F.MBX_STAT_READY i)))
        let r := ((q.setFld F.MBX_STAT_SEQ i (s.fld F.MBX_STAT_SEQ i + 1)).setFld F.MBX_STAT_READY i 1).setFld F.MBX_STAT_CONSUMED i 0
        let t := if s.flag F.MBX_STAT_READY i then r.setFld F.MBX_STAT_OVW i 1 else r
        s.Takes who .MBX_POST i → (s.flag F.MBX_CTL_IRQ i = false ∨ s.flag F.MBX_CTL_DIR i = true → exec (.post who m len) s = .next t) ∧
        (s.flag F.MBX_CTL_IRQ i = true → s.flag F.MBX_CTL_DIR i = false → exec (.post who m len) s = .next (t.sendIrq (s.devNum * 32 + s.fld F.MBX_CTL_VEC i)))) ∧
    (∀ (who : Initiator) (m : BitVec 8), 
        let i := m.toNat
        let l := s.mbxLive i (s.flag F.MBX_STAT_READY i)
        let latch (s : State) (l : List Byte) : State := { s with snaps := Tab.put (fun _ => none) s.snaps who.agent.key (some (i, l)) }
        let t := latch s l
        (s.alive 18 = false ∨ s.mbxReader who.agent i = false → exec (.snapshot who m) s = .next s) ∧
        (s.alive 18 = true → s.mbxReader who.agent i = true → s.postNow i = none → s.flag F.MBX_STAT_READY i = false → exec (.snapshot who m) s = .next t) ∧
        (s.alive 18 = true → s.mbxReader who.agent i = true → s.postNow i = none → s.flag F.MBX_STAT_READY i = true →
          exec (.snapshot who m) s = .next ((t.setFld F.MBX_STAT_READY i 0).setFld F.MBX_STAT_CONSUMED i 1)) ∧
        (∀ p, s.alive 18 = true → s.mbxReader who.agent i = true → s.postNow i = some p → exec (.snapshot who m) s = .next (latch (s.postUnder i p) p.page))) ∧
    (∀ (i : Nat), 
        let ready := s.flag F.MBX_STAT_READY i
        let t := s.postNote i
        ((s.postNow i).isSome = true → t = s) ∧
        (s.postNow i = none → (t.postNow i).map (fun p => (p.at_, p.page, p.ovw)) = some (s.now, s.mbxLive i ready, s.flag F.MBX_STAT_OVW i) ∧ t.regs = s.regs ∧ t.mem = s.mem) ∧
        (∀ v old, Tab.look (fun _ => none) s.staged i = some (v, old) → v = s.now → s.stagedOld i = old) ∧
        (∀ a v, (s.stage i a v).stagedOld i = s.stagedOld i)) ∧
    (∀ (who : Initiator) (num : BitVec 6), 
        let uid := s.pair .HIF_UIDL .HIF_UIDH 0
        s.Takes who .HIF_NUMCMD 0 → (uid = Config.deviceUid → exec (.numcmd who num) s = .next (((s.setFld F.GDN_NUM_NUM 0 num.toNat).setFld F.GDN_NUM_ASSIGNED 0 1).gdnRefresh)) ∧
        (uid ≠ Config.deviceUid → exec (.numcmd who num) s = .next (s.numFlood none uid num.toNat s.devNum 0))) ∧
    (∀ (up_ : Bool), (s.alive 18 = false → exec (.pcieLinkChange up_) s = .next s) ∧
        (s.alive 18 = true → exec (.pcieLinkChange up_) s = .next ((s.setFld F.HIF_STAT_LINKUP 0 (b2n (up_ && s.flag F.HIF_CTL_PCIEEN 0))).gdnRefresh)) ∧
        (s.spiAt = none → exec .spiRootLapse s = .next s) ∧
        (∀ t, s.spiAt = some t → exec .spiRootLapse s = .next ({ s.reach (t + 1250000000) with spiAt := none } : State).gdnRefresh)) ∧
    (∀ (a : Fin 8) (who : Initiator) (v : Word), 
        let old := s.regN .QTZ_ALMC a.val
        let kept := bits 4 2 old - (bits 4 2 old &&& bits 4 2 v.toNat)
        let u := s.setRegN .QTZ_ALMC a.val (v.toNat % 4 + kept * 4 + bits 31 8 v.toNat * 2 ^ 8)
        s.Takes who .QTZ_ALMC a.val → (bit 0 v.toNat = false → exec (.almxc who a v) s = .next (u.setAlmLate a.val 0)) ∧
        (bit 0 v.toNat = true → bit 0 old = false → s.pair .QTZ_ALML .QTZ_ALMH a.val ≤ s.now → exec (.almxc who a v) s = .next (u.setAlmLate a.val (s.now + 1))) ∧
        (bit 0 v.toNat = true → bit 0 old = true ∨ s.now < s.pair .QTZ_ALML .QTZ_ALMH a.val → exec (.almxc who a v) s = .next u)) ∧
    (∀ (a : Fin 8), 
        let late := Tab.look (fun _ => 0) s.almLate a.val
        let target := s.pair .QTZ_ALML .QTZ_ALMH a.val
        let t := if late = 0 then target else late
        let per := s.fld F.QTZ_ALMC_PERIOD a.val
        let u := ((s.reach t).setAlmLate a.val 0).setFld F.QTZ_ALMC_FIRED a.val 1
        let v := if late = 0 then u else u.setFld F.QTZ_ALMC_LATE a.val 1
        s.engClock = true → (s.alive 2 = false ∨ s.flag F.QTZ_ALMC_ARM a.val = false → exec (.alarmFire a) s = .next s) ∧
        (s.alive 2 = true → s.flag F.QTZ_ALMC_ARM a.val = true → per = 0 → exec (.alarmFire a) s = ((v.setFld F.QTZ_ALMC_ARM a.val 0).emit (1 + a.val) t 2 none).ends) ∧
        (s.alive 2 = true → s.flag F.QTZ_ALMC_ARM a.val = true → per ≠ 0 →
          exec (.alarmFire a) s = ((v.setPair .QTZ_ALML .QTZ_ALMH a.val (target + ((t - target) / max per 64 + 1) * max per 64)).emit (1 + a.val) t 2 none).ends)) ∧
    (s.engClock = false → (∀ (a : Fin 8), exec (.alarmFire a) s = .next s))

/-- R489 to R497, R29 to R32. Each of GEDAN_FRAME_DISCARD, HELLO_SEND, PORT_TIMEOUT, HELLO, LANE_FAILURE, GEDAN_PORT_UP, NUMSET, WAKE, SYNC_EXCHANGE, EXCHANGE_MISSED, SYNCREQ, SYNCRESP, RDREQ, RDCPL, WR, IRQ, RESET, CONFLICT completes: in every state and for all operands that meet the conditions of a clause here, exec answers a next state, the one that the clause gives. Where it rests on choices of the model: log entries 69, 70, 71, 126, 133. -/
def Obligations.GedanAndRackTime : Prop :=
  ∀ (s : State), s.Quiet →
    (∀ (type dst src hops tag : Nat) (pl : List Byte), 
        let l := [BitVec.ofNat 8 type, BitVec.ofNat 8 dst, BitVec.ofNat 8 src, BitVec.ofNat 8 hops] ++ leBytes 2 tag ++ leBytes 2 pl.length ++ pl
        gdnFrame type dst src hops tag pl = l ++ leBytes 4 (crcBytes 0xFFFFFFFF#32 l ^^^ 0xFFFFFFFF#32).toNat ∧ crcBytes 0xFFFFFFFF#32 [0x31, 0x32, 0x33, 0x34, 0x35, 0x36, 0x37, 0x38, 0x39] ^^^ 0xFFFFFFFF#32 = 0xCBF43926#32) ∧
    (∀ (p : Fin 4) (dst hops : BitVec 8) (src : BitVec 6) (tag : BitVec 16) (off : BitVec 40) (n : Fin 257) (data : BitVec 2048) (vec : BitVec 16) (num : BitVec 6) (st : BitVec 8), 
        let l := leBytes n.val data.toNat
        let u := s.modGport p.val (fun x => { x with rx := s.now })
        let me := dst.toNat = s.devNum ∨ dst.toNat = 0xFF
        let own : List (Instr × State) := [(.rdreq p dst src hops tag off n, u.readReq src.toNat tag.toNat off.toNat n.val), (.rdcpl p dst src hops tag st n data, u.readCpl src.toNat tag.toNat st.toNat l),
          (.wr p dst src hops tag off n data, u.remoteWrite src.toNat off.toNat l), (.irq p dst src hops tag vec, u.passIrq p.val src.toNat hops.toNat vec.toNat),
          (.reset p dst src hops tag, u.remoteReset), (.conflict p dst src hops tag num, u.conflict p.val num.toNat)]
        let on (t : Nat) (pl : List Byte) := u.gdnForward p.val t dst.toNat src.toNat hops.toNat tag.toNat pl
        let pass : List (Instr × State) := [(.rdreq p dst src hops tag off n, on 0x10 (leBytes 5 off.toNat ++ leBytes 2 n.val)), (.rdcpl p dst src hops tag st n data, on 0x11 (st :: l)),
          (.wr p dst src hops tag off n data, on 0x12 (leBytes 5 off.toNat ++ l)), (.irq p dst src hops tag vec, on 0x21 (leBytes 2 vec.toNat)),
          (.reset p dst src hops tag, on 0x40 []), (.conflict p dst src hops tag num, on 0x54 (leBytes 1 num.toNat))]
        let takes := s.gdnUp p.val = true ∧ s.flag F.GDN_STAT_DISCONLY p.val = false ∧ s.gdnRole p.val ≠ 3
        takes → me → ∀ x ∈ own, exec x.1 s = x.2.ends) ∧
    (∀ (p : Fin 4) (dst hops : BitVec 8) (src : BitVec 6) (tag : BitVec 16) (off : BitVec 40) (n : Fin 257) (data : BitVec 2048) (vec : BitVec 16) (num : BitVec 6) (st : BitVec 8), 
        let l := leBytes n.val data.toNat
        let u := s.modGport p.val (fun x => { x with rx := s.now })
        let me := dst.toNat = s.devNum ∨ dst.toNat = 0xFF
        let own : List (Instr × State) := [(.rdreq p dst src hops tag off n, u.readReq src.toNat tag.toNat off.toNat n.val), (.rdcpl p dst src hops tag st n data, u.readCpl src.toNat tag.toNat st.toNat l),
          (.wr p dst src hops tag off n data, u.remoteWrite src.toNat off.toNat l), (.irq p dst src hops tag vec, u.passIrq p.val src.toNat hops.toNat vec.toNat),
          (.reset p dst src hops tag, u.remoteReset), (.conflict p dst src hops tag num, u.conflict p.val num.toNat)]
        let on (t : Nat) (pl : List Byte) := u.gdnForward p.val t dst.toNat src.toNat hops.toNat tag.toNat pl
        let pass : List (Instr × State) := [(.rdreq p dst src hops tag off n, on 0x10 (leBytes 5 off.toNat ++ leBytes 2 n.val)), (.rdcpl p dst src hops tag st n data, on 0x11 (st :: l)),
          (.wr p dst src hops tag off n data, on 0x12 (leBytes 5 off.toNat ++ l)), (.irq p dst src hops tag vec, on 0x21 (leBytes 2 vec.toNat)),
          (.reset p dst src hops tag, on 0x40 []), (.conflict p dst src hops tag num, on 0x54 (leBytes 1 num.toNat))]
        let takes := s.gdnUp p.val = true ∧ s.flag F.GDN_STAT_DISCONLY p.val = false ∧ s.gdnRole p.val ≠ 3
        takes → ¬ me → ∀ x ∈ pass, exec x.1 s = .next x.2) ∧
    (∀ (p : Fin 4) (dst hops : BitVec 8) (src : BitVec 6) (tag : BitVec 16) (off : BitVec 40) (n : Fin 257) (data : BitVec 2048) (vec : BitVec 16) (num : BitVec 6) (st : BitVec 8), 
        let l := leBytes n.val data.toNat
        let u := s.modGport p.val (fun x => { x with rx := s.now })
        let me := dst.toNat = s.devNum ∨ dst.toNat = 0xFF
        let own : List (Instr × State) := [(.rdreq p dst src hops tag off n, u.readReq src.toNat tag.toNat off.toNat n.val), (.rdcpl p dst src hops tag st n data, u.readCpl src.toNat tag.toNat st.toNat l),
          (.wr p dst src hops tag off n data, u.remoteWrite src.toNat off.toNat l), (.irq p dst src hops tag vec, u.passIrq p.val src.toNat hops.toNat vec.toNat),
          (.reset p dst src hops tag, u.remoteReset), (.conflict p dst src hops tag num, u.conflict p.val num.toNat)]
        let on (t : Nat) (pl : List Byte) := u.gdnForward p.val t dst.toNat src.toNat hops.toNat tag.toNat pl
        let pass : List (Instr × State) := [(.rdreq p dst src hops tag off n, on 0x10 (leBytes 5 off.toNat ++ leBytes 2 n.val)), (.rdcpl p dst src hops tag st n data, on 0x11 (st :: l)),
          (.wr p dst src hops tag off n data, on 0x12 (leBytes 5 off.toNat ++ l)), (.irq p dst src hops tag vec, on 0x21 (leBytes 2 vec.toNat)),
          (.reset p dst src hops tag, on 0x40 []), (.conflict p dst src hops tag num, on 0x54 (leBytes 1 num.toNat))]
        let takes := s.gdnUp p.val = true ∧ s.flag F.GDN_STAT_DISCONLY p.val = false ∧ s.gdnRole p.val ≠ 3
        ¬ takes → ∀ x ∈ own, exec x.1 s = .next s) ∧
    (∀ (p : Fin 4) (type dst src hops tag : Nat) (pl : List Byte), 
        let go := s.gdnForward p.val type dst src hops tag pl
        let f := gdnFrame type dst src (hops + 1) tag pl
        (64 ≤ hops + 1 → go = s.gdnDiscard p.val) ∧
        (∀ q, s.gdnPortTo dst = some q → hops + 1 < 64 → go = s.modGport q (fun x => { x with wire := (servingBytes f 0, servingBytes f 1) })) ∧ (hops + 1 < 64 → s.gdnPortTo dst = none → go = s)) ∧
    (∀ (p : Fin 4), 
        let hp := leBytes 1 s.devNum ++ leBytes 8 Config.deviceUid ++ leBytes 1 s.gdnDist ++ leBytes 1 p.val ++ leBytes 1 (b2n s.isRoot + b2n (s.flag F.QTZ_STATUS_LOCK 0) * 2 + b2n (s.flag F.GDN_STAT_DISCONLY p.val) * 4) ++ leBytes 8 s.gdnSubtree ++ leBytes 8 s.gdnTree
        let f := gdnFrame 1 0xFF s.devNum 0 0 hp
        (s.gdnUp p.val = false → exec (.gedanFrameDiscard p) s = .next s ∧ exec (.helloSend p) s = .next s ∧ exec (.portTimeout p) s = .next s) ∧
        (s.gdnUp p.val = true → exec (.gedanFrameDiscard p) s = .next (s.bump F.GDN_ERRCNT_FCRC F.GDN_ERRCNT_FCRCSAT p.val) ∧
          exec (.portTimeout p) s = .next ((s.reach ((s.gport p.val).rx + 2500)).gdnLost p.val) ∧
          exec (.helloSend p) s = .next (s.modGport p.val (fun x => { x with hello := s.now, wire := (servingBytes f 0, servingBytes f 1) })))) ∧
    (∀ (p : Fin 4) (num : BitVec 6) (dist port flags : BitVec 8) (sub tree : BitVec 64) (claims : Bool), 
        let i := p.val
        let taken := (s.flag F.GDN_STAT_DISCONLY i = true ∧ num.toNat = s.fld F.GDN_NBR_NUM i) ∨ (bit num.toNat s.gdnTree = true ∧ bit num.toNat (s.gport i).sub = false ∧ s.gdnUpstream ≠ some i)
        let u := (s.modGport i (fun x => { x with rx := s.now, sub := if taken then 0 else sub.toNat, tree := tree.toNat, claim := claims && !decide taken, heard := true })).setRegN .GDN_NBR i (num.toNat + dist.toNat * 2 ^ 6 + port.toNat * 2 ^ 14 + flags.toNat % 4 * 2 ^ 16 + 2 ^ 18)
        let v := (u.setFld F.GDN_STAT_DISCONLY i 1).setFld F.GDN_STAT_CONFLICT i 1
        let w := u.setFld F.GDN_STAT_DISCONLY i 0
        (s.gdnUp i = false → exec (.hello p num dist port flags sub tree claims) s = .next s) ∧
        (s.gdnUp i = true → ¬ taken → exec (.hello p num dist port flags sub tree claims) s = .next ((if bit 2 flags.toNat then w.setFld F.GDN_STAT_CONFLICT i 1 else w).gdnRefresh)) ∧
        (s.gdnUp i = true → taken → num.toNat = s.devNum ∨ s.flag F.GDN_STAT_DISCONLY i = true → exec (.hello p num dist port flags sub tree claims) s = .next v.gdnRefresh) ∧
        (s.gdnUp i = true → taken → num.toNat ≠ s.devNum → s.flag F.GDN_STAT_DISCONLY i = false → exec (.hello p num dist port flags sub tree claims) s = .next ((v.gdnSend 0x54 num.toNat 0 (leBytes 1 num.toNat)).gdnRefresh))) ∧
    (∀ (p q : Fin 4), s.gdnUpstream = some p.val → s.gdnHeard q.val = true → s.fld F.GDN_NBR_DIST q.val < 0xFF → s.isRoot = false ∧ s.gdnHeard p.val = true ∧ s.fld F.GDN_NBR_DIST p.val < 0xFF ∧ s.fld F.GDN_NBR_DIST p.val ≤ s.fld F.GDN_NBR_DIST q.val ∧
        (s.fld F.GDN_NBR_DIST q.val = s.fld F.GDN_NBR_DIST p.val → p.val ≤ q.val) ∧ s.gdnDist = s.fld F.GDN_NBR_DIST p.val + 1 ∧ s.gdnRole p.val = 1 ∧ s.gdnTree = (s.gport p.val).tree) ∧
    (
        let t := s.gdnRefresh
        s.alive 18 = true → t.flag F.HIF_STAT_ROOT 0 = s.isRoot ∧ (∀ p : Fin 4, t.fld F.GDN_STAT_ROLE p.val = s.gdnRole p.val) ∧ t.pair .GDN_TREEL .GDN_TREEH 0 = s.gdnTree % 2 ^ 64 ∧
        (s.alive 2 = true → s.isRoot = true → t.fld F.QTZ_STATUS_STATE 0 = 0 ∧ t.fld F.QTZ_STATUS_UPPORT 0 = 0 ∧ t.flag F.QTZ_STATUS_LOCK 0 = s.flag F.CLK_STAT_ENGLOCK 0) ∧
        (s.alive 2 = true → s.isRoot = false → s.gdnUpstream = none → t.fld F.QTZ_STATUS_STATE 0 = 0 ∧ t.flag F.QTZ_STATUS_LOCK 0 = false ∧
          (s.flag F.QTZ_STATUS_LOCK 0 = true → t.flag F.QTZ_STATUS_LOSTLOCK 0 = true)) ∧
        (∀ p, s.gdnUpstream = some p → s.alive 2 = true → t.fld F.QTZ_STATUS_UPPORT 0 = p % 4 ∧ (s.fld F.QTZ_STATUS_STATE 0 = 0 → t.fld F.QTZ_STATUS_STATE 0 = 1))) ∧
    (∀ (p : Fin 4) (lane : Bool), 
        let i := p.val
        let u := s.bump F.GDN_ERRCNT_LANEERR F.GDN_ERRCNT_LANESAT i
        let w := (((s.gdnForget i).setFld F.GDN_STAT_STATE i 2).setFld F.GDN_STAT_SPARE i 0).setFld F.GDN_STAT_DISCONLY i 0
        (s.gdnUp i = false → exec (.laneFailure p lane) s = .next s) ∧
        (s.gdnUp i = true → (s.gport i).lane = true ∨ s.flag F.GDN_CTL_SPAREEN i = false → exec (.laneFailure p lane) s = .next (u.gdnLost i)) ∧
        (s.gdnUp i = true → (s.gport i).lane = false → s.flag F.GDN_CTL_SPAREEN i = true →
          exec (.laneFailure p lane) s = .next (((u.modGport i (fun x => { x with lane := true })).setFld F.GDN_STAT_SPARE i (1 + b2n lane)).refreshDegr)) ∧
        (s.alive 18 = false ∨ s.flag F.GDN_CTL_EN i = false ∨ s.gdnUp i = true → exec (.gedanPortUp p) s = .next s) ∧
        (s.alive 18 = true → s.flag F.GDN_CTL_EN i = true → s.gdnUp i = false →
          exec (.gedanPortUp p) s = .next ((w.modGport i (fun x => { x with rx := s.now, hello := s.now, lane := false })).gdnRefresh.refreshDegr)) ∧
        s.gdnLost i = (((s.modGport i (fun x => { x with sub := 0, claim := false })).setFld F.GDN_NBR_VALID i 0).setFld F.GDN_STAT_STATE i 3 |>.setFld F.GDN_STAT_LOST i 1).gdnRefresh) ∧
    (∀ (p : Fin 4) (src num : BitVec 6) (hops : BitVec 8) (uid : BitVec 64), 
        let u := s.modGport p.val (fun x => { x with rx := s.now })
        let passes := s.gdnUp p.val = true ∧ (s.flag F.GDN_STAT_DISCONLY p.val = true ∨ s.gdnRole p.val ≠ 3)
        (¬ passes → exec (.numset p src hops uid num) s = .next s) ∧
        (passes → uid.toNat = Config.deviceUid → exec (.numset p src hops uid num) s = .next (((u.setFld F.GDN_NUM_NUM 0 num.toNat).setFld F.GDN_NUM_ASSIGNED 0 1).gdnRefresh)) ∧
        (passes → uid.toNat ≠ Config.deviceUid → 63 ≤ hops.toNat → exec (.numset p src hops uid num) s = .next (u.gdnDiscard p.val)) ∧
        (passes → uid.toNat ≠ Config.deviceUid → hops.toNat < 63 → exec (.numset p src hops uid num) s = .next (u.numFlood (some p.val) uid.toNat num.toNat src.toNat (hops.toNat + 1)))) ∧
    (∀ (p : Fin 4) (dst hops : BitVec 8) (src : BitVec 6), 
        let u := s.modGport p.val (fun x => { x with rx := s.now })
        s.gdnUp p.val = true → s.flag F.GDN_STAT_DISCONLY p.val = false → s.gdnRole p.val ≠ 3 → dst.toNat ≠ s.devNum → (∀ q, (List.range 4).find? (fun q => q != p.val && !u.gdnUp q && u.flag F.GDN_CTL_EN q && (u.gport q).heard && u.fld F.GDN_NBR_NUM q == dst.toNat) = some q → exec (.wake p dst src hops) s = .next (u.modGport q (fun x => { x with burst := some (s.now + 25000) }))) ∧
        ((List.range 4).find? (fun q => q != p.val && !u.gdnUp q && u.flag F.GDN_CTL_EN q && (u.gport q).heard && u.fld F.GDN_NBR_NUM q == dst.toNat) = none → exec (.wake p dst src hops) s = .next (u.gdnForward p.val 0x41 dst.toNat src.toNat hops.toNat 0 []))) ∧
    (∀ (lag : BitVec 16), 
        let u := s.syncMissed
        let v := u.reach ((u.now + 9999) / 10000 * 10000)
        let f := gdnFrame 0x30 0xFF v.devNum 0 0 (leBytes 2 v.sync.next)
        (s.alive 2 = false ∨ s.gdnUpstream = none → exec (.syncExchange lag) s = .next s) ∧
        (∀ p, s.gdnUpstream = some p → s.alive 2 = true → exec (.syncExchange lag) s =
          .next { v.modGport p (fun x => { x with wire := (servingBytes f 0, servingBytes f 1) }) with
            sync := { v.sync with cur := some (v.sync.next, v.now * 128 + lag.toNat), next := (v.sync.next + 1) % 65536 } }) ∧
        (s.sync.cur = none → exec .exchangeMissed s = .next s) ∧
        (∀ n t1, s.sync.cur = some (n, t1) →
          (let w := (s.reach (t1 / 128 + 2500)).bump F.QTZ_MISSCNT_COUNT F.QTZ_MISSCNT_SAT 0
           let x : State := { w with sync := { w.sync with cur := none, missed := w.sync.missed + 1, good := 0 } }
           (w.sync.missed + 1 ≠ 4 → exec .exchangeMissed s = .next x) ∧ (w.sync.missed + 1 = 4 → exec .exchangeMissed s = .next ((x.setLock false).qtzState 3))))) ∧
    (∀ (p : Fin 4) (num : BitVec 16) (t2 : BitVec 71) (turn : Nat), 
        let a := t2.toNat
        let u := (s.reach (a / 128)).modGport p.val (fun x => { x with rx := max (s.reach (a / 128)).now (a / 128) })
        let t3 := a + min turn 160000
        let r := s.isRoot
        let pl := leBytes 2 num.toNat ++ leBytes 8 (a / 128) ++ leBytes 1 (a % 128) ++ leBytes 8 (t3 / 128) ++ leBytes 1 (t3 % 128) ++ leBytes 4 (if r then 0 else s.regN .QTZ_OFFSET 0) ++ leBytes 1 (b2n (r || s.flag F.QTZ_STATUS_LOCK 0))
        let f := gdnFrame 0x31 0xFF s.devNum 0 0 pl
        s.gdnUp p.val = true → s.alive 2 = true → exec (.syncreq p num t2 turn) s = .next (u.modGport p.val (fun x => { x with wire := (servingBytes f 0, servingBytes f 1) }))) ∧
    (∀ (p : Fin 4) (num : BitVec 16) (t2 t3 t4 : BitVec 71) (roff : BitVec 32) (rlock : Bool) (t1 : Nat), 
        let u := (s.reach (t4.toNat / 128)).modGport p.val (fun x => { x with rx := max (s.reach (t4.toNat / 128)).now (t4.toNat / 128) })
        let off := (((t1 : Int) - t2.toNat) + ((t4.toNat : Int) - t3.toNat)).tdiv 2 + roff.toInt
        let v : State := { u with sync := { u.sync with cur := none, missed := 0 } }
        let w := v.setRegN .QTZ_OFFSET 0 (wrapTo 32 (clampI (-0x7FFFFFFF) 0x7FFFFFFF off))
        s.gdnUp p.val = true → s.alive 2 = true → u.sync.cur = some (num.toNat, t1) → u.gdnUpstream = some p.val → (t1 + 320000 < t4.toNat → exec (.syncresp p num t2 t3 t4 roff rlock) s = .next u.syncMissed) ∧ (t4.toNat ≤ t1 + 320000 → exec (.syncresp p num t2 t3 t4 roff rlock) s = .next (w.syncJudge off rlock))) ∧
    (∀ (off : Int) (rlock : Bool), 
        let j : State := { s with sync := { s.sync with judged := true } }
        let g := s.sync.good + 1
        s.fld F.QTZ_STATUS_STATE 0 ≠ 3 → s.flag F.QTZ_CTL_DISC 0 = false → (s.sync.judged = false → s.fld F.QTZ_STATUS_STATE 0 = 1 → s.inRun = false → s.flag F.QTZ_CTL_STEPEN 0 = true → 160000 < off.natAbs →
          s.syncJudge off rlock = { (j.stepQuartz (-(off.tdiv 128))).setFld F.QTZ_STATUS_STEPPED 0 1 with sync := { j.sync with good := 0 } }) ∧
        (s.sync.judged = true → s.flag F.QTZ_STATUS_LOCK 0 = true → 40 < off.natAbs → s.syncJudge off rlock = { (j.setLock false).qtzState 1 with sync := { j.sync with good := 0 } }) ∧
        (s.sync.judged = true → 32 < off.natAbs → off.natAbs ≤ 40 ∨ s.flag F.QTZ_STATUS_LOCK 0 = false → s.syncJudge off rlock = { j with sync := { j.sync with good := 0 } }) ∧
        (s.sync.judged = true → rlock = true → off.natAbs ≤ 32 → g ≠ 16 → s.syncJudge off rlock = { j with sync := { j.sync with good := g } }) ∧
        (s.sync.judged = true → rlock = true → off.natAbs ≤ 32 → g = 16 → s.syncJudge off rlock = ((({ j with sync := { j.sync with good := g } } : State).setLock true).qtzState 2)))

/-- R504 to R514. Each of LOADID, TDR, ENCTYPE, MEASUREMENT_ABORT, MEASUREMENT_START, LOADID_SAMPLE, LOADID_END, TDR_DONE, ENCTYPE_DONE, RAIL_CONVERSION completes: in every state and for all operands that meet the conditions of a clause here, exec answers a next state, the one that the clause gives. Where it rests on choices of the model: log entries 12, 62, 64. -/
def Obligations.Measurements : Prop :=
  ∀ (s : State), s.Quiet →
    (∀ (who : Initiator) (target : BitVec 8) (timed irqen tlink : Bool) (line : BitVec 2), 
        let word (op tl ln : Nat) := 1 + op * 4 + b2n timed * 2 ^ 5 + b2n irqen * 2 ^ 6 + tl * 2 ^ 7 + target.toNat * 2 ^ 8 + ln * 2 ^ 16
        let at_ := s.pair .MSR_STARTL .MSR_STARTH 0
        let ts := if timed then at_ else s.now + 64
        let go (op v : Nat) : State := { (s.setRegN .MSR_CTL 0 (v % 2 ^ 18 / 4 * 4)).setFld F.MSR_STAT_BUSY 0 1 with meas := some ⟨op, v, ts, false, 0, false, [], [], s.msrMode, false⟩ }
        let late (v : Nat) : State := (s.setRegN .MSR_CTL 0 (v % 2 ^ 18 / 4 * 4)).msrErr 2
        let near := timed = true ∧ at_ < s.now + 64
        let werr := s.setFld F.MSR_STAT_WERR 0 1
        let l := word 1 0 0
        let d := word 2 (b2n tlink) line.toNat
        let n := word 3 0 0
        s.Takes who .MSR_CTL 0 → s.alive 1 = true → (s.flag F.MSR_STAT_BUSY 0 = true → exec (.loadid who target timed irqen) s = .next werr ∧ exec (.tdr who target timed irqen tlink line) s = .next werr ∧ exec (.enctype who target timed irqen) s = .next werr) ∧
        (s.flag F.MSR_STAT_BUSY 0 = false → near → exec (.loadid who target timed irqen) s = .next (late l) ∧ exec (.tdr who target timed irqen tlink line) s = .next (late d) ∧ exec (.enctype who target timed irqen) s = .next (late n)) ∧
        (s.flag F.MSR_STAT_BUSY 0 = false → ¬ near → exec (.loadid who target timed irqen) s = .next (go 1 l) ∧ exec (.tdr who target timed irqen tlink line) s = .next (go 2 d) ∧ exec (.enctype who target timed irqen) s = .next (go 3 n))) ∧
    (∀ (who : Initiator), 
        let ok := bits 4 2 (s.regN .MSR_CTL 0) ≠ 0 ∧ bits 4 2 (s.regN .MSR_CTL 0) ≤ 3
        s.Takes who .MSR_CTL 0 → s.alive 1 = true → (¬ ok → exec (.measurementAbort who) s = .next (s.setFld F.MSR_STAT_WERR 0 1)) ∧
        (ok → s.meas = none → (∀ t m was, s.measWas = some (t, m, was) → t ≠ s.now) → exec (.measurementAbort who) s = .next (s.setRegN .MSR_CTL 0 (s.regN .MSR_CTL 0 % 2 ^ 18 / 4 * 4))) ∧
        (∀ m was, s.meas = none → s.measWas = some (s.now, m, was) → ok → exec (.measurementAbort who) s = .next
          (((({ s with measWas := none } : State).setFld F.MSR_STAT_DONE 0 (b2n was)).msrResults 0 0 0 0).msrErr 7 |>.setRegN .MSR_CTL 0 (s.regN .MSR_CTL 0 % 2 ^ 18 / 4 * 4))) ∧
        (∀ m, s.meas = some m → ok → m.drives = false → exec (.measurementAbort who) s = .next
          ((({ s.setFld F.MSR_STAT_BUSY 0 0 with meas := none } : State).msrResults 0 0 0 0).msrErr 7 |>.setRegN .MSR_CTL 0 (s.regN .MSR_CTL 0 % 2 ^ 18 / 4 * 4))) ∧
        (∀ m, s.meas = some m → ok → m.drives = true → exec (.measurementAbort who) s = ((s.msrFail 7).setRegN .MSR_CTL 0 (s.regN .MSR_CTL 0 % 2 ^ 18 / 4 * 4)).ends)) ∧
    (∀ (m : Meas), 
        let fail (c : Nat) : State := ({ (s.reach m.ts).setFld F.MSR_STAT_BUSY 0 0 with meas := none } : State).msrErr c
        let u := s.reach m.ts
        let v : State := { u with meas := some { m with begun := true, opened := m.op == 2 } }
        let p := v.epPhys m.target
        let x := ({ v with window := some m.target } : State).epRefresh p
        let y := x.epEdge p false true (m.ts * 128) m.ts none
        s.meas = some m → (m.begun = true → exec .measurementStart s = .next s) ∧
        (m.begun = false → u.msrMode = false → exec .measurementStart s = .next (fail 3)) ∧
        (m.begun = false → u.msrMode = true → u.msrOwned m = true ∨ u.msrReady m = false → exec .measurementStart s = .next (fail 1)) ∧
        (m.begun = false → u.msrMode = true → u.msrOwned m = false → u.msrReady m = true →
          (m.op ≠ 1 → exec .measurementStart s = .next v) ∧
          (m.op = 1 → exec .measurementStart s = (y.epEdge p false false ((m.ts + s.fld F.MSR_LTIME_TON 0) * 128) m.ts none).ends))) ∧
    (∀ (m : Meas), 
        let n := m.target
        (m.op = 2 → bit 7 m.ctl = true → (s.msrReady m = true ↔ n < 24 ∧ s.flag F.POS_CTL_EN n = false)) ∧ (m.op = 2 → bit 7 m.ctl = false → (s.msrReady m = true ↔ n < 64 ∧ s.flag F.DLK_CTL_EN n = false)) ∧
        (m.op = 3 → (s.msrReady m = true ↔ n < 24 ∧ s.flag F.POS_CTL_EN n = false)) ∧
        (m.op = 1 → s.msrReady m = true → n < 192 ∧ s.flag F.EP_CTL_ENABLE (s.epPhys n) = true ∧ s.flag F.EP_STAT_TRIPPED (s.epPhys n) = false ∧ s.flag F.CV_CTL_EN (s.fld F.MSR_LSAMP_CONV 0) = true ∧ 4 ≤ s.fld F.MSR_LSAMP_NS 0) ∧
        (s.msrMode = true ↔ s.mode = 5 ∨ s.mode = 6 ∨ s.mode = 7 ∨ s.mode = 9)) ∧
    (∀ (m : Meas), 
        let c := s.fld F.MSR_LSAMP_CONV 0
        let i := s.sampleAt m m.shown
        let t := (s.reach (i - 8)).cvPresent c (i * 128) (i - 8) none
        s.meas = some m → (m.drives = false ∨ 2 * s.fld F.MSR_LSAMP_NS 0 ≤ m.shown → exec .loadidSample s = .next s) ∧
        (m.drives = true → m.shown < 2 * s.fld F.MSR_LSAMP_NS 0 → (t.conv c).pend.map (·.1) = some (i * 128) → exec .loadidSample s = ({ t with meas := some { m with shown := m.shown + 1 } } : State).ends) ∧
        (m.drives = true → m.shown < 2 * s.fld F.MSR_LSAMP_NS 0 → (t.conv c).pend.map (·.1) ≠ some (i * 128) → exec .loadidSample s = (t.msrFail 5).ends)) ∧
    (∀ (m : Meas) (i : Nat), 
        let ns := s.fld F.MSR_LSAMP_NS 0
        let k := if ns ≤ i then i - ns else i
        s.sampleAt m i = m.ts + (if ns ≤ i then s.fld F.MSR_LTIME_TON 0 else 0) + s.fld F.MSR_LSAMP_SKIP 0 + k * s.fld F.MSR_LSAMP_SPACE 0) ∧
    (∀ (m : Meas), 
        let t := s.reach (m.ts + s.fld F.MSR_LTIME_TON 0 + s.fld F.MSR_LTIME_TOFF 0)
        let p := t.epPhys m.target
        let u := ({ t with window := none } : State).epCtl p (t.regN .EP_CTL p / 2 * 2) t.now
        s.meas = some m → (m.drives = false ∨ m.shown < 2 * s.fld F.MSR_LSAMP_NS 0 → exec .loadidEnd s = .next s) ∧
        (m.drives = true → 2 * s.fld F.MSR_LSAMP_NS 0 ≤ m.shown → exec .loadidEnd s = (({ u with meas := some { m with ended := true } } : State).loadidSettle).ends)) ∧
    (∀ (m : Meas), 
        let ns := s.fld F.MSR_LSAMP_NS 0
        let times := (List.range ns).map (fun k => fDiv (fOfInt ((s.fld F.MSR_LSAMP_SKIP 0 + k * s.fld F.MSR_LSAMP_SPACE 0 : Nat) : Int) 0 false) (fOfInt 1250000000 0 false))
        let b1 := (loadidFit times m.got1).1
        let i1 := (loadidFit times m.got1).2
        let b2 := (loadidFit times m.got2).1
        let i2 := (loadidFit times m.got2).2
        let l := fDiv (s.reg .MSR_LVOLT 0) (fAdd true b1 (fDiv (fMul b2 i1) i2))
        let r := fDiv (fMul (fNeg l) b2) i2
        let bad := fFlush i2 &&& 0x7FFFFFFF#32 = 0 ∨ fPositive l = false
        let idle : State := { s.setFld F.MSR_STAT_BUSY 0 0 with meas := none }
        s.meas = some m → m.op = 1 → m.ended = true → m.got1.length = ns → m.got2.length = ns → (bad → s.loadidSettle = (idle.msrResults fNaN.toNat fNaN.toNat b1.toNat b2.toNat).msrErr 6) ∧
        (¬ bad → s.loadidSettle = { ({ (s.msrResults l.toNat r.toNat b1.toNat b2.toNat).setFld F.MSR_STAT_BUSY 0 0 with meas := none } : State).setFld F.MSR_STAT_DONE 0 1 with measWas := some (s.now, m, s.flag F.MSR_STAT_DONE 0) })) ∧
    (∀ (rtt : List (Fin 65536)) (mv : List Int) (seen : EncSeen) (levels : BitVec 3) (m : Meas), 
        let done (t : State) : State := { ({ t.setFld F.MSR_STAT_BUSY 0 0 with meas := none } : State).setFld F.MSR_STAT_DONE 0 1 with measWas := some (s.now, m, s.flag F.MSR_STAT_DONE 0) }
        let l := (rtt.map (fun x => x.val)).zip mv
        let counts (x : Nat × Int) := x.1 ≤ 32768 ∧ s.fld F.MSR_TCFG_THR 0 < x.2.natAbs
        let kind (x : Nat × Int) : Nat := if 0 < x.2 then 1 else 2
        s.meas = some m → (m.op ≠ 2 ∨ m.begun = false → exec (.tdrDone rtt mv) s = .next s) ∧ (m.op ≠ 3 ∨ m.begun = false → exec (.enctypeDone seen levels) s = .next s) ∧
        (m.op = 2 → m.begun = true → ∃ a b, exec (.tdrDone rtt mv) s = .next (done (s.msrResults a b 0 0))) ∧
        (m.op = 2 → m.begun = true → (∀ x ∈ l, ¬ counts x) → exec (.tdrDone rtt mv) s = .next (done (s.msrResults 0 0 0 0))) ∧
        (m.op = 2 → m.begun = true → ∀ x ∈ l, counts x → (∀ y ∈ l, counts y → x.1 < y.1 ∨ (x.1 = y.1 ∧ kind x = kind y)) → exec (.tdrDone rtt mv) s = .next (done (s.msrResults (x.1 + kind x * 2 ^ 16)
          (((x.1 * 625 * min 1000 (max 500 (s.fld F.MSR_TCFG_VF 0)) * 299792458 + 10 ^ 15) / (2 * 10 ^ 15))) 0 0))) ∧
        (m.op = 3 → m.begun = true → exec (.enctypeDone seen levels) s = .next (done (s.msrResults ((if seen.changed = true then 3 else if seen.driven = true then 1 else if ∀ v ∈ seen.states, v ≠ 0 ∧ v ≠ 7 then 2 else 0) + levels.toNat * 4) 0 0 0)))) ∧
    (∀ (rtt : List (Fin 65536)) (mv : List Int) (seen : EncSeen) (levels : BitVec 3), s.meas = none → exec .measurementStart s = .next s ∧ exec .loadidSample s = .next s ∧ exec .loadidEnd s = .next s ∧ exec (.tdrDone rtt mv) s = .next s ∧ exec (.enctypeDone seen levels) s = .next s) ∧
    (∀ (pos : Bool) (p line : Nat), 
        let opened := ∃ m, s.meas = some m ∧ m.opened = true ∧ bit 7 m.ctl = pos ∧ m.target = p ∧ (pos = true → bits 17 16 m.ctl = line)
        s.terminated pos p line = true ↔ (pos = true → bit line (s.fld F.POS_CTL_TERM p) = true) ∧ ¬ opened) ∧
    (∀ (v : BitVec 12), 
        let r := s.rail
        (s.alive 1 = false → exec (.railConversion v) s = .next s) ∧
        (s.alive 1 = true → exec (.railConversion v) s = .next { s.setFld F.MSR_SDATA_VAL r (if r < 14 then v.toNat else 0) with rail := (r + 1) % 16 })) ∧
    (∀ (m : Meas), 
        let p := s.epPhys m.target
        s.meas = some m → (s.msrMode = false → m.listed = true → s.msrWatch = s.msrFail 3) ∧ (s.msrMode = false → m.listed = false → s.msrWatch = s) ∧
        (s.msrMode = true → m.listed = false → s.msrWatch = { s with meas := some { m with listed := true } }) ∧ (s.msrMode = true → m.listed = true → m.begun = true → s.msrOwned m = true → s.msrWatch = s.msrFail 1) ∧
        (s.msrMode = true → m.listed = true → s.msrOwned m = false → m.drives = true → s.flag F.EP_STAT_TRIPPED p = true ∨ s.flag F.EP_STAT_RBFAULT p = true → s.msrWatch = s.msrFail 4) ∧
        (∀ c, (s.msrFail c).meas = none ∧ (s.msrFail c).flag F.MSR_STAT_BUSY 0 = false ∧ (s.msrFail c).flag F.MSR_STAT_ERR 0 = true ∧ (s.msrFail c).fld F.MSR_STAT_ERRCODE 0 = c % 16 ∧
          ∀ r ∈ [Reg.MSR_RES0, .MSR_RES1, .MSR_RES2, .MSR_RES3], (s.msrFail c).regN r 0 = 0))

/-- R515 to R532. Each of SUPPLY_RETURN, SUPPLY_OUT_OF_RANGE, SWITCH_OVER, VBKP_LOSS, SWITCH_BACK, BROWN_OUT, FORCEBKP, SENSOR_OVERCURRENT, PHASE_FAILURE, CLOCK_MONITOR_FAIL, REFLOST, UNLOCK, PLL_LOCK, CLOCK_MONITOR_RELEASE, DOMEN, DOMAIN_POWERED, DOMAIN_POWER_REMOVED, MODE_REQUEST, MODE_TRANSITION_DONE, WAKE_PIN, WAKE_TIMER, WAKE_BURST completes: in every state and for all operands that meet the conditions of a clause here, exec answers a next state, the one that the clause gives. Where it rests on choices of the model: log entries 59, 61, 65, 66, 68. -/
def Obligations.SuppliesAndModes : Prop :=
  ∀ (s : State), s.Quiet →
    (∀ (what : Fin 13) (ok : Bool), 
        let win (t : State) (v : Bool) : State := { t with supply := { t.supply with win := v }, mainAt := if v then some t.now else none }
        let u := match what.val with
          | 0 => if ok then win { s with supply := { s.supply with main := true } } true else (win { s with supply := { s.supply with main := false } } false).setFld F.PMU_SUPPLY_MAINQUAL 0 0
          | 1 => { s with supply := { s.supply with bkp := ok } }
          | 2 => (win { s with supply := { s.supply with main := true } } false).setFld F.PMU_SUPPLY_MAINQUAL 0 0
          | 3 => { s with supply := { s.supply with hold := ok } }
          | _ => { s with rails := setBits what.val 1 (b2n (!ok)) s.rails }
        (ok = true → exec (.supplyReturn what) s = (u.supplyShow.supplySelect.supplyOor).ends) ∧ (ok = false → exec (.supplyOutOfRange what) s = (u.supplyShow.supplySelect.supplyOor).ends) ∧ s.supplyChange what.val ok = u.supplyShow.supplySelect.supplyOor) ∧
    (
        let x := s.supply
        (s.alive 1 = false → s.supplyShow = s) ∧ (s.alive 1 = true → s.supplyShow = ((((s.setFld F.PMU_SUPPLY_MAINOK 0 (b2n x.main)).setFld F.PMU_SUPPLY_BKPOK 0 (b2n x.bkp)).setFld F.PMU_SUPPLY_HOLDOK 0 (b2n x.hold)).setFld F.PMU_STAT_ONBKP 0 (b2n x.onBkp)))) ∧
    (
        let x := s.supply
        let force := s.flag F.PMU_SUPPLY_FORCEBKP 0
        let took (b : Bool) (f : Fld) : State := ((({ s with supply := { x with onBkp := b } } : State).supplyShow).setFld f 0 1).bump F.PMU_SWCNT_COUNT F.PMU_SWCNT_SAT 0
        (s.alive 1 = false → s.supplySelect = { s with supply := { x with onBkp := !x.main } }) ∧
        (s.alive 1 = true → x.onBkp = true → x.bkp = false → x.main = true → s.supplySelect = took false F.PMU_STAT_SWBACK) ∧ (s.alive 1 = true → x.onBkp = true → x.bkp = true ∨ x.main = false → s.supplySelect = s) ∧
        (s.alive 1 = true → x.onBkp = false → x.bkp = true → x.main = false ∨ force = true → s.supplySelect = { (took true F.PMU_STAT_SWITCHED).setFld F.PMU_SUPPLY_MAINQUAL 0 0 with mainAt := s.mainAt.map (fun _ => s.now) }) ∧
        (s.alive 1 = true → x.onBkp = false → x.bkp = false ∨ (x.main = true ∧ force = false) → s.supplySelect = s)) ∧
    (
        let c := s.alive 1 = true ∧ ((s.supply.main = false ∧ s.supply.bkp = false) ∨ ∃ i, i < 13 ∧ bit i s.rails = true ∧ ∃ d ∈ railDoms i, s.alive d = true)
        let a := if s.flag F.FLT_SRCE_ACTIVE 384 = s.supplyBad then s else s.fltLevel 384 s.supplyBad s.now
        (s.supplyBad = true ↔ c) ∧ (c → a.flag F.PMU_STAT_OOR 0 = false → s.supplyOor = (((a.setFld F.PMU_STAT_OOR 0 1).setFld F.PMU_STAT_OOREV 0 1).raiseEv 1 1 0)) ∧
        (¬ c → a.flag F.PMU_STAT_OOR 0 = true → s.supplyOor = a.setFld F.PMU_STAT_OOR 0 0) ∧
        (c ∧ a.flag F.PMU_STAT_OOR 0 = true ∨ ¬ c ∧ a.flag F.PMU_STAT_OOR 0 = false → s.supplyOor = a)) ∧
    (
        let x := s.supply
        let on := x.onBkp
        let back (t : State) : State := (((({ t with supply := { t.supply with onBkp := false } } : State).supplyShow).setFld F.PMU_STAT_SWBACK 0 1).bump F.PMU_SWCNT_COUNT F.PMU_SWCNT_SAT 0).supplyOor
        (on = true ∨ x.bkp = false → exec .switchOver s = .next s) ∧ (on = false → x.bkp = true → exec .switchOver s = (s.supplyChange 0 false).ends) ∧
        (on = false ∨ x.main = false → exec .vbkpLoss s = .next s) ∧ (on = true → x.main = true → exec .vbkpLoss s = (s.supplyChange 1 false).ends) ∧
        (s.mainAt = none ∨ on = false ∨ s.alive 1 = false → exec .switchBack s = .next s) ∧
        (∀ t, s.mainAt = some t → on = true → s.alive 1 = true →
          (let q := (s.reach (t + 12500000)).setFld F.PMU_SUPPLY_MAINQUAL 0 1
           (q.flag F.PMU_SUPPLY_FORCEBKP 0 = true → exec .switchBack s = .next q) ∧ (q.flag F.PMU_SUPPLY_FORCEBKP 0 = false → exec .switchBack s = (back q).ends))) ∧
        exec .brownOut s = (({ s with supply := { x with hold := false } } : State).deviceReset 2).ends) ∧
    (∀ (who : Initiator) (v b : Bool), 
        let x := b2n b
        let u := s.setFld F.PMU_SUPPLY_FORCEBKP 0 0
        let back := (((({ u with supply := { u.supply with onBkp := false } } : State).supplyShow).setFld F.PMU_STAT_SWBACK 0 1).bump F.PMU_SWCNT_COUNT F.PMU_SWCNT_SAT 0).supplyOor
        s.Takes who .PMU_SUPPLY 0 → (v = s.flag F.PMU_SUPPLY_FORCEBKP 0 → exec (.forcebkp who v) s = .next s) ∧
        (v = true → s.flag F.PMU_SUPPLY_FORCEBKP 0 = false → s.mode ≠ 9 → exec (.forcebkp who v) s = .next ((s.setFld F.PMU_STAT_MODEERR 0 1).setFld F.PMU_STAT_MCAUSE 0 1)) ∧
        (v = true → s.flag F.PMU_SUPPLY_FORCEBKP 0 = false → s.mode = 9 → exec (.forcebkp who v) s = .next ((s.setFld F.PMU_SUPPLY_FORCEBKP 0 1).supplySelect)) ∧
        (v = false → s.flag F.PMU_SUPPLY_FORCEBKP 0 = true → s.supply.onBkp = false ∨ s.flag F.PMU_SUPPLY_MAINQUAL 0 = false → exec (.forcebkp who v) s = .next u) ∧
        (v = false → s.flag F.PMU_SUPPLY_FORCEBKP 0 = true → s.alive 1 = true → s.supply.onBkp = true → s.flag F.PMU_SUPPLY_MAINQUAL 0 = true → exec (.forcebkp who v) s = back.ends)) ∧
    (∀ (b : Bool) (k : Fin 8), 
        let en := if b then F.PMU_SNSCTL_EN33 else F.PMU_SNSCTL_EN5
        let runs := s.flag en 0 = true ∧ (s.mode = 2 ∨ (4 ≤ s.mode ∧ s.mode ≤ 11)) ∧ bit (b2n b) s.snsOff = false
        let sp := s.fld F.PMU_REGSTAT_SPARE 0
        (¬ runs → exec (.sensorOvercurrent b) s = .next s) ∧
        (runs → exec (.sensorOvercurrent b) s = .next { (s.setFld (if b then F.PMU_SNSCTL_OC33 else F.PMU_SNSCTL_OC5) 0 1).setFld F.PMU_STAT_SNSOC 0 1 with snsOff := setBits (b2n b) 1 1 s.snsOff }) ∧
        (s.alive 1 = false → exec (.phaseFailure k) s = .next s) ∧ (s.alive 1 = true → bit k.val sp = true → exec (.phaseFailure k) s = .next (s.setFld F.PMU_REGSTAT_FAIL 0 (setBits k.val 1 1 (s.fld F.PMU_REGSTAT_FAIL 0)))) ∧
        (s.alive 1 = true → bit k.val sp = false → exec (.phaseFailure k) s = .next (((s.setFld F.PMU_REGSTAT_SPARE 0 (setBits k.val 1 1 sp)).setFld F.PMU_STAT_REGSPARE 0 1).refreshDegr))) ∧
    (∀ (link : Bool) (which : Fin 3), (s.alive 2 = false → exec .clockMonitorFail s = .next s ∧ exec .reflost s = .next s ∧ exec (.unlock link) s = .next s ∧ exec (.pllLock which) s = .next s) ∧
        (s.alive 2 = true →
          exec .reflost s = (((s.setFld F.CLK_STAT_REFOK 0 0).setFld F.CLK_STAT_REFLOST 0 1).raiseEv 2 2 0).ends ∧
          exec (.unlock link) s = (((s.setFld (if link then F.CLK_STAT_LNKLOCK else F.CLK_STAT_SUPLOCK) 0 0).setFld F.CLK_STAT_UNLOCK 0 1).raiseEv 2 2 0).ends ∧
          exec (.pllLock 0) s = .next ({ s.setFld F.CLK_STAT_ENGLOCK 0 1 with lockAt := s.now } : State).gdnRefresh ∧
          exec (.pllLock 1) s = .next (s.setFld F.CLK_STAT_SUPLOCK 0 1) ∧ exec (.pllLock 2) s = .next (s.setFld F.CLK_STAT_LNKLOCK 0 1) ∧
          (s.flag F.FLT_SRCE_ACTIVE 385 = true → exec .clockMonitorFail s = .next ((s.setFld F.CLK_STAT_ENGLOCK 0 0).gdnRefresh)) ∧
          (s.flag F.FLT_SRCE_ACTIVE 385 = false → exec .clockMonitorFail s =
            (((((s.setFld F.CLK_STAT_ENGLOCK 0 0).gdnRefresh.setFld F.CLK_STAT_MONFAIL 0 1).bump F.CLK_UNLCNT_COUNT F.CLK_UNLCNT_SAT 0).raiseEv 2 2 0).fltLevel 385 true s.now).ends)) ∧
        (s.flag F.FLT_SRCE_ACTIVE 385 = false ∨ s.flag F.CLK_STAT_ENGLOCK 0 = false → exec .clockMonitorRelease s = .next s) ∧
        (s.flag F.FLT_SRCE_ACTIVE 385 = true → s.flag F.CLK_STAT_ENGLOCK 0 = true → exec .clockMonitorRelease s =
          ((s.reach (s.lockAt + 1250)).fltLevel 385 false (s.reach (s.lockAt + 1250)).now).ends)) ∧
    (∀ (who : Initiator) (v : Word), 
        let old := s.regN .PMU_DOMEN 0
        let want := (v.toNat &&& 0xEFFE0) ||| 0x1001F
        let new := if s.inRun then old ||| want else want
        let drops := s.inRun = true ∧ old &&& (0xFFFFF - want) ≠ 0
        let u := (if drops then s.setFld F.PMU_STAT_DOMERR 0 1 else s).setRegN .PMU_DOMEN 0 new
        let sw := [5, 6, 7, 8, 9, 10, 11, 12, 13, 14, 15, 17, 18, 19]
        let up_ := sw.filter (fun d => bit d new && !bit d (s.regN .PMU_DOMSTAT 0) && !s.rising.contains d)
        let dn := sw.filter (fun d => !bit d new && bit d (s.regN .PMU_DOMSTAT 0) && !s.falling.contains d)
        s.Takes who .PMU_DOMEN 0 → (s.mode < 5 ∨ 10 < s.mode → exec (.domen who v) s = .next u) ∧
        (5 ≤ s.mode → s.mode ≤ 10 → exec (.domen who v) s = .next
          { u with rising := s.rising.filter (fun d => bit d new) ++ up_, falling := s.falling.filter (fun d => !bit d new) ++ dn })) ∧
    (∀ (d : Nat) (rest : List Nat), (s.rising = [] → exec .domainPowered s = .next s) ∧ (s.falling = [] → exec .domainPowerRemoved s = .next s) ∧
        (s.rising = d :: rest → 5 ≤ d → d ≤ 13 → exec .domainPowered s = ((({ s with rising := rest } : State).domUp d).beginWipe [d] false).ends) ∧
        (s.rising = d :: rest → d < 5 ∨ 13 < d → exec .domainPowered s = (({ s with rising := rest } : State).domUp d).ends) ∧
        (s.falling = d :: rest → exec .domainPowerRemoved s = (({ s with falling := rest } : State).domDown d false).ends)) ∧
    (∀ (d : Fin 20), 
        let t := s.releaseDomain d.val
        let p := s.powerOff d.val false
        1 < d.val → t.domOn d.val = true ∧ p.domOn d.val = false ∧ p.now = s.now ∧ (d.val ≠ 3 → ∀ a < 0x10000000, p.byte a = s.byte a) ∧
        (∀ q : Fin 64, sqDom q.val = d.val → (p.square q.val).lost = true ∧ (p.square q.val).clear = 0)) ∧
    (∀ (who : Initiator) (mode : BitVec 4), 
        let m := mode.toNat
        let ring := s.agentRing who.agent
        let u := s.setFld F.PMU_MODEREQ_MODE 0 m
        let c := u.modeRefused m
        s.Takes who .PMU_MODEREQ 0 → (ring ≠ 0 ∨ s.alive 4 = false → exec (.modeRequest who mode) s = .next s) ∧
        (ring = 0 → s.alive 4 = true →
          (s.escAt = s.now + 1 → exec (.modeRequest who mode) s = .next ((u.setFld F.PMU_STAT_MODEERR 0 1).setFld F.PMU_STAT_MCAUSE 0 6)) ∧
          (s.escAt ≠ s.now + 1 → c ≠ 0 → exec (.modeRequest who mode) s = .next ((u.setFld F.PMU_STAT_MODEERR 0 1).setFld F.PMU_STAT_MCAUSE 0 c)) ∧
          (s.escAt ≠ s.now + 1 → c = 0 → s.inRun = true → exec (.modeRequest who mode) s = .next { u.setFld F.PMU_MODEREQ_PEND 0 1 with modeReq := some m }) ∧
          (s.escAt ≠ s.now + 1 → c = 0 → s.inRun = false → m ≤ 2 → exec (.modeRequest who mode) s = .next { u with trans := some m }) ∧
          (s.escAt ≠ s.now + 1 → c = 0 → 2 < m → s.mode = 2 → s.trans = some 8 → exec (.modeRequest who mode) s = .next ((u.setFld F.PMU_STAT_MODEERR 0 1).setFld F.PMU_STAT_MCAUSE 0 6)) ∧
          (s.escAt ≠ s.now + 1 → c = 0 → 2 < m → s.mode = 2 → s.trans ≠ some 8 → exec (.modeRequest who mode) s = (({ u with trans := some m } : State).warmExit).ends) ∧
          (s.escAt ≠ s.now + 1 → c = 0 → 2 < m → s.mode ≠ 2 → s.inRun = false → exec (.modeRequest who mode) s = (({ u with trans := none, reqAt := some (u.now, u.regN .PMU_MODE 0) } : State).enterMode m).ends))) ∧
    (∀ (m : Nat), 
        let c := s.modeRefused m
        let leads := modeLeads s.mode m
        let busy := s.fst 0 0 = true ∨ s.fst 1 0 = true
        let held := (s.mode = 4 ∧ s.boot ≠ .done) ∨ (s.escalated = true ∧ (s.mode = 4 ∧ m ≠ 8 ∨ s.mode = 8)) ∨ (m ≤ 1 ∧ s.regN .PMU_WAKEEN 0 = 0)
        (leads = false → c = 1) ∧ (leads = true → s.schPending = true → c = 2) ∧ (leads = true → s.schPending = false → busy → s.mode = 10 ∨ m ≤ 2 → c = 3) ∧
        (leads = true → s.schPending = false → ¬ (busy ∧ (s.mode = 10 ∨ m ≤ 2)) → held → c = 4) ∧
        (leads = true → s.schPending = false → ¬ (busy ∧ (s.mode = 10 ∨ m ≤ 2)) → ¬ held → (s.modeReq.isSome = true → c = 5) ∧ (s.modeReq = none → c = 0)) ∧
        (modeLeads 6 m = true ↔ m = 5 ∨ m = 8) ∧ (modeLeads 4 m = true ↔ m = 5 ∨ m = 8 ∨ m = 9 ∨ m = 10) ∧ (modeLeads 5 m = true ↔ m = 8 ∨ m = 9 ∨ m = 10 ∨ m ≤ 2)) ∧
    (∀ (m : Nat), 
        let warm := (List.range 8).any (fun g => s.alive (anaDom (g < 4)) && !s.flag F.CV_ROTSTAT_CALDONE g)
        s.trans = some m → 2 < m → (warm = true → exec .modeTransitionDone s = .next s) ∧ (warm = false → exec .modeTransitionDone s = ((({ s with trans := none } : State).warmSquares).enterMode m).ends)) ∧
    (∀ (m : Nat) (p : Fin 4), 
        let off := (List.range 20).filter (fun d => if m = 2 then [3, 14, 15, 16, 17, 19].contains d || (5 ≤ d && d ≤ 13 && !s.domen d) else if m = 1 then 2 ≤ d else 1 ≤ d)
        let u : State := { s with trans := none, rising := [], falling := [], sleepAt := s.now }
        let u1 := if m = 2 ∧ u.domOn 18 = false then u.domUp 18 else u
        let u2 := if m = 2 then repeatN 14 (fun d t => if 5 ≤ d ∧ t.domen d = true ∧ t.domOn d = false then t.domUpWiped d else t) u1 else u1
        let v := u2.enterMode m
        let w := off.foldl (fun t d => if t.domOn d then t.domDown d (m == 1) else t) v
        m ≤ 2 → (s.trans = some m → w.woke = none → exec .modeTransitionDone s = w.ends) ∧ (∀ x, w.woke = some x → s.trans = some m → exec .modeTransitionDone s = (w.wake x.1 x.2).ends) ∧
        (s.trans = none → exec .modeTransitionDone s = .next s)) ∧
    (∀ (p : Fin 4), 
        let woken (t : State) (c port : Nat) : State := { ((((t.setFld F.PMU_MODE_PREV 0 t.mode).setFld F.PMU_MODE_CUR 0 3).setFld F.PMU_STAT_WOKE 0 1).setFld F.PMU_STAT_WSRC 0 c).setFld F.PMU_STAT_WPORT 0 port with boot := .release 1, woke := none, tcmKept := t.mode == 1 }
        let pin := s.flag F.PMU_WAKEEN_PIN 0
        let tm := s.flag F.PMU_WAKEEN_TIMER 0
        let gd := bit p.val (s.fld F.PMU_WAKEEN_GEDAN 0)
        let falls := ∃ m, s.trans = some m ∧ m ≤ 1
        let late := s.reach (s.sleepAt + (max 1 (s.regN .PMU_WAKETIME 0) * 625 + 1) / 2)
        (pin = false → exec .wakePin s = .next s) ∧ (tm = false → exec .wakeTimer s = .next s) ∧ (gd = false → exec (.wakeBurst p) s = .next s) ∧
        (s.mode ≤ 1 → (pin = true → exec .wakePin s = .next (woken s 1 0)) ∧ (tm = true → exec .wakeTimer s = .next (woken late 3 0)) ∧ (gd = true → exec (.wakeBurst p) s = .next (woken s 2 p.val))) ∧
        (1 < s.mode → falls → (pin = true → exec .wakePin s = .next { s with woke := some (1, 0) }) ∧ (tm = true → exec .wakeTimer s = .next { s with woke := some (3, 0) }) ∧ (gd = true → exec (.wakeBurst p) s = .next { s with woke := some (2, p.val) })) ∧
        (1 < s.mode → ¬ falls → exec .wakePin s = .next s ∧ exec .wakeTimer s = .next s ∧ exec (.wakeBurst p) s = .next s)) ∧
    (
        let e : State := { s with escAt := s.now + 1 }
        let drop (t : State) : State := if t.trans.isSome = true then { (t.setFld F.PMU_STAT_MODEERR 0 1).setFld F.PMU_STAT_MCAUSE 0 6 with trans := none } else t
        (s.mode = 2 → s.trans ≠ some 8 → s.escalate = ({ drop e with trans := some 8 } : State).warmExit) ∧ (s.mode = 2 → s.trans = some 8 → s.escalate = e) ∧
        (s.mode = 5 → s.escalate = ((drop e).dropReq.enterMode 8).reqBeaten) ∧ (s.mode = 6 ∨ s.mode = 7 → s.escalate = e.enterMode 8) ∧ (s.mode = 8 → s.escalate = e.reqBeaten) ∧
        (s.mode = 9 ∨ s.mode = 10 → s.escalate = (e.enterMode 8).reqBeaten) ∧ (¬ (s.mode = 2 ∨ (5 ≤ s.mode ∧ s.mode ≤ 10)) → s.escalate = e) ∧
        (s.reqAt = none → s.reqBeaten = s) ∧
        (∀ t old, s.reqAt = some (t, old) → (t ≠ s.now → s.reqBeaten = s) ∧ (t = s.now →
          s.reqBeaten = (((if old % 16 = 8 then s.setRegN .PMU_MODE 0 old else s.setFld F.PMU_MODE_PREV 0 (old % 16)).setFld F.PMU_STAT_MODEERR 0 1).setFld F.PMU_STAT_MCAUSE 0 6))))

/-- R538 to R554. Each of POWER_ON, RESETN, WATCHDOG_EXPIRY, DEBUG_RESET, ESCALATION_RESET, WDKICK, SWRST, RESET_HOLD_END, DOMAIN_RELEASE, OPTION_LOAD_DONE, BOOT_VERIFICATION_DONE, CSTART, BLKCTL, BLOCK_RESET_DONE, LCS_CMD, LIFE_CYCLE_RESET completes: in every state and for all operands that meet the conditions of a clause here, exec answers a next state, the one that the clause gives. Where it rests on choices of the model: log entries 53, 54, 58, 67, 125. -/
def Obligations.ResetsAndStarts : Prop :=
  ∀ (s : State), s.Quiet →
    (∀ (main bkp : Bool), 
        let t := s.powerOn main bkp
        exec (.powerOn main bkp) s = .next t ∧ t.boot = .hold ∧ t.now = 0 ∧ t.mode = State.reset.mode ∧ t.supply = ⟨main, bkp, main, false, !main⟩ ∧
        t.eng = [] ∧ t.sup = [] ∧ t.pending = s.pending ∧ t.safen = s.safen ∧ t.straps = s.straps ∧ t.life = s.life ∧ t.raised = [] ∧ (∀ a, 0x10000000 ≤ a → t.byte a = State.reset.byte a)) ∧
    (∀ (cause : Nat), 
        let t := s.deviceReset cause
        let wd := s.flag F.RST_WDCTL_EN 0 = true ∧ 1 < s.mode ∧ s.wdAt = s.now
        let low := min cause (min (if wd then 4 else cause) (if s.now ∈ s.escDue then 5 else cause))
        cause < 16 → t.boot = .hold ∧ t.now = s.now ∧ t.fld F.RST_CAUSE_CAUSE 0 = low ∧ t.supply = s.supply ∧ t.regN .PMU_DOMSTAT 0 = s.regN .PMU_DOMSTAT 0 % 2 ∧ t.sup = [] ∧ t.flights = [] ∧ t.msgs = [] ∧ t.wstores = [] ∧ t.escDue = [] ∧ t.meas = none ∧ t.trans = none ∧
        t.life = s.life ∧ (∀ k, keyBlock k = 3 → Tab.look regDefault t.regs k = Tab.look regDefault s.regs k) ∧
        (∀ e, (t.engine e).running = false) ∧ (∀ c : Fin 16, t.fld F.SAF_CCNT_COUNT c.val = s.fld F.SAF_CCNT_COUNT c.val) ∧ t.regN .SAF_PEND 0 = s.regN .SAF_PEND 0 ∧ t.regN .SAF_FIRST 0 = s.regN .SAF_FIRST 0) ∧
    (exec .resetn s = (s.deviceReset 3).ends ∧
        (s.flag F.RST_WDCTL_EN 0 = false ∨ s.mode ≤ 1 → exec .watchdogExpiry s = .next s) ∧ (s.flag F.RST_WDCTL_EN 0 = true → 1 < s.mode → exec .watchdogExpiry s = ((s.reach s.wdAt).deviceReset 4).ends) ∧
        (s.alive 19 = true ∧ (s.lcState = 0 ∨ s.lcState = 1 ∨ s.lcState = 3) → exec .debugReset s = (s.deviceReset 8).ends) ∧
        (s.alive 19 = false ∨ s.lcState = 2 ∨ s.lcState = 4 → exec .debugReset s = .next s) ∧
        (s.escDue = [] → exec .escalationReset s = .next s) ∧
        (∀ t, s.escDue.head? = some t → exec .escalationReset s = (({ s.reach t with escDue := s.escDue.tail } : State).deviceReset 5).ends)) ∧
    (∀ (who : Initiator) (v : Word), 
        let load := s.now + max 1 (s.fld F.RST_WDCTL_PERIOD 0) * 1280000
        s.Takes who .RST_WDKICK 0 → s.Takes who .RST_SWRST 0 → (v = 0xC35A → exec (.wdkick who v) s = .next { s with wdAt := load }) ∧ (v ≠ 0xC35A → exec (.wdkick who v) s = (s.deviceReset 4).ends) ∧
        (v = 0xD1E5 → s.agentRing who.agent = 0 → exec (.swrst who v) s = (s.deviceReset 6).ends) ∧
        (v ≠ 0xD1E5 ∨ s.agentRing who.agent ≠ 0 → exec (.swrst who v) s = .next (s.setFld F.RST_STAT_WERR 0 1))) ∧
    (∀ (bootsel : Bool), 
        let u := (s.setDom 0 true).setFld F.RST_BOOTSTAT_BOOTSEL 0 (b2n bootsel)
        (s.boot ≠ .hold → exec (.resetHoldEnd bootsel) s = .next s) ∧ (s.boot = .hold → s.domOn 0 = true → exec (.resetHoldEnd bootsel) s = .next { u with boot := .release 1 }) ∧
        (s.boot = .hold → s.domOn 0 = false → exec (.resetHoldEnd bootsel) s = .next
          { u.setFld F.SAF_STAT_SAFENLOW 0 (b2n (!s.safen)) with boot := .release 1, safenAt := if s.safen then none else some s.now })) ∧
    (∀ (n : Nat), 
        let order := [0, 1, 2, 3, 4, 13, 5, 6, 7, 8, 9, 10, 11, 12, 14, 15, 16, 17, 18, 19]
        let t := s.domUp (order.getD n 19)
        (s.boot ≠ .release n → (∀ m, s.boot ≠ .release m) → exec .domainRelease s = .next s) ∧
        (s.boot = .release n → n ≠ 3 → n < 19 → exec .domainRelease s = ({ t with boot := .release (n + 1) } : State).ends) ∧
        (s.boot = .release n → n = 3 → exec .domainRelease s = ({ t with boot := .load } : State).ends) ∧
        (s.boot = .release n → 19 ≤ n → exec .domainRelease s = (({ t with boot := .wipe } : State).beginWipe [4, 5, 6, 7, 8, 9, 10, 11, 12, 13] t.tcmKept).ends)) ∧
    (∀ (bad : BitVec 136) (badLife : Bool), 
        let e : State := { s with optBad := bad }
        let u := repeatN 2 (fun k t => if bad.getLsbD (134 + k) then t.modFbank k (fun x => { x with abn := [] }) else t) (if bad = 0 then e else e.setFld F.RST_STAT_OLERR 0 1)
        let v := u.lcsLoad.wdBoot
        let w := if badLife then (v.setRegN .LCS_STATE 0 0).setFld F.RST_STAT_OLERR 0 1 else v
        let x := repeatN 66 (fun i t => let f := t.takeFree; f.2.setFld F.RDC_WDATA_INIT i f.1) w
        (s.boot ≠ .load ∨ s.flag F.CLK_STAT_SUPLOCK 0 = false → exec (.optionLoadDone bad badLife) s = .next s) ∧
        (s.boot = .load → s.flag F.CLK_STAT_SUPLOCK 0 = true → x.lcState < x.fld F.LCS_STATE_RQ 0 → exec (.optionLoadDone bad badLife) s = (x.lcEnter).ends) ∧
        (s.boot = .load → s.flag F.CLK_STAT_SUPLOCK 0 = true → x.fld F.LCS_STATE_RQ 0 ≤ x.lcState → exec (.optionLoadDone bad badLife) s = .next
          { (x.setFld F.PMU_MODE_PREV 0 x.mode).setFld F.PMU_MODE_CUR 0 4 with boot := .release 4 })) ∧
    (
        let k := s.activeTwin
        let a := s.bootVerify k
        let o := s.bootVerify (1 - k)
        let entry (b : Nat) := s.peek (bankBase b + 0xC) 4
        let fall := bit 2 (s.optLoad 0 0) = true
        let put (r x y : Nat) : State := { ((s.setFld F.RST_BOOTSTAT_RESULT 0 r).setFld F.RST_BOOTSTAT_FAILACT 0 x).setFld F.RST_BOOTSTAT_FAILOTH 0 y with boot := .done }
        let held := s.flag F.RST_BOOTSTAT_BOOTSEL 0 = true ∧ (s.lcState = 1 ∨ s.lcState = 3)
        s.boot = .verify → (s.lcState = 4 → exec .bootVerificationDone s = .next s) ∧
        (s.lcState = 0 → exec .bootVerificationDone s = .next { (s.setFld F.RST_BOOTSTAT_SKIPPED 0 1).setFld F.RST_BOOTSTAT_HELD 0 1 with boot := .done }) ∧
        (s.lcState ≠ 0 → s.lcState ≠ 4 → a = 0 → held → exec .bootVerificationDone s = .next ((put 1 0 0).setFld F.RST_BOOTSTAT_HELD 0 1)) ∧
        (s.lcState ≠ 0 → s.lcState ≠ 4 → a = 0 → ¬ held → exec .bootVerificationDone s = .next ((put 1 0 0).startPair 0 (0x10000000 + entry k))) ∧
        (s.lcState ≠ 0 → s.lcState ≠ 4 → a ≠ 0 → fall → o = 0 → ¬ held → exec .bootVerificationDone s = .next ((put 2 a 0).startPair 0 (bankBase (1 - k) + entry (1 - k)))) ∧
        (s.lcState ≠ 0 → s.lcState ≠ 4 → a ≠ 0 → fall → o = 0 → held → exec .bootVerificationDone s = .next ((put 2 a 0).setFld F.RST_BOOTSTAT_HELD 0 1)) ∧
        (s.lcState ≠ 0 → s.lcState ≠ 4 → a ≠ 0 → ¬ (fall ∧ o = 0) → exec .bootVerificationDone s =
          .next (if held then (put 3 a (if fall then o else 0)).setFld F.RST_BOOTSTAT_HELD 0 1 else put 3 a (if fall then o else 0)))) ∧
    (∀ (j pc : Nat), 
        let p := bits (3 * j + 2) (3 * j) (s.fld F.RDC_PMAP_PAIR 0)
        let t := s.startPair j pc
        p < 5 → ∀ k : Fin 10, (k.val / 2 = p → t.core k.val = { Sup.init with pc := pc, key := (s.core k.val).key + 1 } ∧ t.fld F.SUP_STAT_STATE k.val = 0 ∧ t.flag F.SUP_STAT_DFAULT k.val = false) ∧ (k.val / 2 ≠ p → t.core k.val = s.core k.val ∧ t.fld F.SUP_STAT_STATE k.val = s.fld F.SUP_STAT_STATE k.val)) ∧
    (∀ (who : Initiator) (v : BitVec 4) (n : Nat), 
        let x := v.toNat
        let pc := s.pair .RST_CENTRYL .RST_CENTRYH 0 / 4 * 4
        let starts := repeatN 3 (fun i t => if bit (i + 1) x && s.agentRing who.agent == 0 && !bit (i + 1) (t.fld F.RST_CSTART_START 0) && t.alive 4 then
          (t.setFld F.RST_CSTART_START 0 (setBits (i + 1) 1 1 (t.fld F.RST_CSTART_START 0))).startPair (i + 1) pc else t) s
        let zero := bit 0 x = true ∧ who.agent = .debug ∧ starts.flag F.RST_BOOTSTAT_HELD 0 = true
        s.Takes who .RST_CSTART 0 → (¬ zero → exec (.cstart who v) s = starts.ends) ∧
        (zero → exec (.cstart who v) s = (((starts.setFld F.RST_CSTART_START 0 (setBits 0 1 1 (starts.fld F.RST_CSTART_START 0))).setFld F.RST_BOOTSTAT_HELD 0 0).startPair 0 pc).ends)) ∧
    (∀ (who : Initiator) (v : Word), 
        let code := bits 6 0 v.toNat
        let u := (s.setFld F.RST_BLKCTL_BLOCK 0 code).setFld F.RST_BLKCTL_BLKTO 0 (bits 31 16 v.toNat)
        let bad := 0x63 < code ∨ s.flag F.RST_BLKSTAT_BUSY 0 = true ∨ (s.inRun = true ∧ code < 0x5B)
        s.Takes who .RST_BLKCTL 0 → (bit 7 v.toNat = true → bad → exec (.blkctl who v) s = .next (s.setFld F.RST_STAT_WERR 0 1)) ∧ (bit 7 v.toNat = false → exec (.blkctl who v) s = .next u) ∧
        (bit 7 v.toNat = true → ¬ bad → exec (.blkctl who v) s = .next { u.setFld F.RST_BLKSTAT_BUSY 0 1 with block := some code })) ∧
    (∀ (idle : Bool) (code : Nat), 
        let u : State := { s with block := none }
        let t := (u.rstBlock code).domSettle
        (s.block = none → exec (.blockResetDone idle) s = .next s) ∧
        (s.block = some code → exec (.blockResetDone idle) s = (((t.setFld F.RST_BLKSTAT_BUSY 0 0).setFld F.RST_BLKSTAT_DONE 0 1).setFld F.RST_BLKSTAT_IDLE 0 (b2n idle)).ends) ∧
        (code < 0x40 → u.rstBlock code = u.rstSquare code) ∧ (0x40 ≤ code → code < 0x48 → u.rstBlock code = u.rstGroup (code - 0x40)) ∧ (0x48 ≤ code → code < 0x54 → u.rstBlock code = u.rstCmp (code - 0x48)) ∧
        (u.rstBlock 0x5B = u.rstDma ∧ u.rstBlock 0x5E = u.rstMsr ∧ u.rstBlock 0x5F = u.rstHif) ∧ (0x60 ≤ code → u.rstBlock code = u.rstGdn (code - 0x60))) ∧
    (∀ (who : Initiator) (v : Word), 
        let g := bits 2 0 v.toNat
        let bad := g ≤ s.lcState ∨ 4 < g ∨ s.fst 0 0 = true ∨ s.fst 1 0 = true
        let heard := bits 31 16 v.toNat = 0xA5C3 ∧ s.agentRing who.agent = 0 ∧ (s.mode = 5 ∨ s.mode = 9)
        s.Takes who .LCS_CMD 0 → (¬ heard → exec (.lcsCmd who v) s = .next s) ∧ (heard → bad → exec (.lcsCmd who v) s = .next (s.setFld F.LCS_STAT_ERR 0 1)) ∧
        (heard → ¬ bad → exec (.lcsCmd who v) s = (({ s.setFld F.LCS_STATE_RQ 0 g with life := (s.life.1, g) } : State).lcEnter).ends)) ∧
    (
        let w := s.wipeDone
        let g := w.fld F.LCS_STATE_RQ 0
        let keys := if g = 1 then w.setKeys (fun t => (t.takeFree.1 % 2 ^ 32, t.takeFree.2)) else if g = 3 ∨ g = 4 then w.setKeys (fun t => (0, t)) else w
        let free := (keys.modFbank 0 (fun x => { x with locks := [] })).modFbank 1 (fun x => { x with locks := [] })
        (s.mode ≠ 11 → exec .lifeCycleReset s = .next s) ∧ (s.mode = 11 → exec .lifeCycleReset s = (({ free with life := (g, g) } : State).deviceReset 9).ends))

/-- R558 to R565, R575, R595, R605, R555, R384. Each of ACK, SWEV, SAFEN_EDGE, SAFEN_LOW, TXDATA, BYTE_DONE, GPIO_INTERRUPT, EXTEST, REGISTER_WRITE, DEBUG_HALT, DEBUG_ACCESS completes: in every state and for all operands that meet the conditions of a clause here, exec answers a next state, the one that the clause gives. Where it rests on choices of the model: log entries 60, 61, 73, 76, 84. -/
def Obligations.SafetyAndGeneral : Prop :=
  ∀ (s : State), s.Quiet →
    (∀ (z : State) (c u : Nat), 
        let a := z.actOf c
        let y : State := { z with raised := [] }
        z.raised = [(c, u)] → z.notes = [] → c < 16 → z.safEvents = (((y.bump F.SAF_CCNT_COUNT F.SAF_CCNT_SAT c).setRegN .SAF_PEND 0 (setBits c 1 1 (z.regN .SAF_PEND 0))).safFirst c u).safAct a ∧ z.settleOnce = (z.safEvents.epRefreshAll).msrWatch) ∧
    (∀ (l : List (Nat × Nat)) (x : Nat × Nat), lowestEvent l = some x → x ∈ l ∧ (∀ y ∈ l, x.1 ≤ y.1) ∧ l.find? (fun y => y.1 == x.1) = some x) ∧
    (∀ (c u : Nat), 
        let free := s.flag F.SAF_FIRST_VALID 0 = false ∨ (s.pair .SAF_FIRSTL .SAF_FIRSTH 0 = s.now ∧ c < s.fld F.SAF_FIRST_CLASS 0)
        (free → s.safFirst c u = (s.setRegN .SAF_FIRST 0 (c + u % 256 * 2 ^ 4 + 2 ^ 12)).setPair .SAF_FIRSTL .SAF_FIRSTH 0 s.now) ∧ (¬ free → s.safFirst c u = s)) ∧
    (∀ (a : Nat), 
        let u := s.setFld F.SAF_STAT_ACTLVL 0 (max a (s.fld F.SAF_STAT_ACTLVL 0))
        let v := ((u.setFld F.SAF_STAT_ESC 0 1).fltLevel 387 true s.now).escalate
        (a < 2 → s.safAct a = u) ∧ (a = 2 → s.safAct a = v) ∧ (a = 3 → s.safAct a = { v with escDue := v.escDue ++ [v.now + 1250] })) ∧
    (∀ (m : Nat), 
        let t := s.escalate
        let e : State := { s with escAt := s.now + 1 }
        s.mode = m → s.trans = none → s.modeReq = none → (m = 6 ∨ m = 7 → t = e.enterMode 8) ∧ (m = 9 ∨ m = 10 ∨ m = 5 → t = (e.enterMode 8).reqBeaten) ∧ (m = 2 → t = ({ e with trans := some 8 } : State).warmExit) ∧ (m = 8 → t = e.reqBeaten) ∧ (m = 0 ∨ m = 1 ∨ m = 3 ∨ m = 4 ∨ m = 11 → t = e)) ∧
    (∀ (who : Initiator), 
        let ok := s.safen = true ∧ ∀ c : Fin 16, bit c.val (s.regN .SAF_PEND 0) = false ∨ s.actOf c.val < 2
        s.Takes who .SAF_ACK 0 → s.Takes who .SAF_SWEV 0 → (s.agentRing who.agent ≠ 0 → exec (.ack who) s = .next s ∧ exec (.swev who) s = .next s) ∧
        (s.agentRing who.agent = 0 → (ok → exec (.ack who) s = (((s.setFld F.SAF_STAT_ESC 0 0).setFld F.SAF_STAT_ACTLVL 0 0).fltLevel 387 false s.now).ends) ∧ (¬ ok → exec (.ack who) s = .next (s.setFld F.SAF_STAT_ACKERR 0 1)) ∧
          exec (.swev who) s = (s.raiseEv 0 15 0).ends)) ∧
    (∀ (lvl : Bool), 
        let u : State := { s with safen := lvl }
        let d := if s.flag F.CLK_STAT_ENGLOCK 0 then 8 else 625
        (s.safen = lvl → exec (.safenEdge lvl) s = .next s) ∧ (s.safen ≠ lvl → s.boot = .hold → exec (.safenEdge lvl) s = .next u) ∧
        (s.safen ≠ lvl → s.boot ≠ .hold → exec (.safenEdge lvl) s = .next { u.setFld F.SAF_STAT_SAFENLOW 0 (b2n (!lvl)) with safenAt := if lvl then none else some s.now }) ∧
        (s.safenAt = none → exec .safenLow s = .next s) ∧ (∀ t, s.safenAt = some t → exec .safenLow s = (({ s.reach (t + d) with safenAt := none } : State).raiseEv 0 14 0).ends)) ∧
    (∀ (who : Initiator) (port : Fin 10) (v : Word), 
        let q := port.val
        let x := s.port q
        let w := if q < 4 then 12 else if q < 8 then 9 else 8
        let r := (txReg q).1
        let i := (txReg q).2
        s.Takes who r i → s.alive 19 = true → (16 ≤ x.tx.length → exec (.txdata who port v) s = .next (s.portOvr q)) ∧
        (x.tx.length < 16 → exec (.txdata who port v) s = .next ((s.setPort q { x with tx := x.tx ++ [v.toNat % 2 ^ w] }).portShow q))) ∧
    (∀ (port : Fin 10) (sent : Bool) (byte : Option (BitVec 8)) (errs : BitVec 3) (alert : Bool), 
        let q := port.val
        let a := if q < 4 then s.setFld F.PMB_STAT_ALERT q (b2n alert) else s
        let x := s.port q
        let go := sent = true ∧ x.tx ≠ []
        let b := a.setPort q { x with tx := x.tx.tail }
        let c := if go then (if q < 4 then b.setFld F.PMB_STAT_DONE q 1 else if q < 8 then b.setFld F.SPI_STAT_DONE (q - 4) 1 else b) else a
        let d := c.portErr q errs.toNat
        let y := d.port q
        let tgt := s.flag F.PMB_CTL_TGT q = true
        let takes := match x.tx with
          | v :: _ => (q < 4 ∧ (tgt ∨ (sent = true ∧ bit 10 v = true))) ∨ (4 ≤ q ∧ q < 8 ∧ sent = true) ∨ 8 ≤ q
          | [] => (q < 4 ∧ tgt) ∨ 8 ≤ q
        s.alive 19 = true → (s.portOn q = false → exec (.byteDone port sent byte errs alert) s = .next a) ∧ (s.portOn q = true → byte = none ∨ ¬ takes → exec (.byteDone port sent byte errs alert) s = .next (d.portShow q)) ∧
        (∀ g, byte = some g → s.portOn q = true → takes → 16 ≤ y.rx.length → exec (.byteDone port sent byte errs alert) s = .next ((d.portOvr q).portShow q)) ∧
        (∀ g, byte = some g → s.portOn q = true → takes → y.rx.length < 16 → exec (.byteDone port sent byte errs alert) s = .next ((d.setPort q { y with rx := y.rx ++ [g.toNat] }).portShow q))) ∧
    (∀ (q : Nat) (e : BitVec 3), 
        let put (f : Fld) (i : Nat) (c : Bool) (t : State) : State := if c then t.setFld f i 1 else t
        let p := s.fld F.UART_CTL_PARITY (q - 8)
        (q < 4 → s.portErr q e.toNat = put F.PMB_STAT_PECERR q (bit 2 e.toNat && s.flag F.PMB_CTL_PEC q) (put F.PMB_STAT_ARBLOST q (bit 1 e.toNat && !s.flag F.PMB_CTL_TGT q) (put F.PMB_STAT_NACK q (bit 0 e.toNat) s))) ∧
        (4 ≤ q → q < 8 → s.portErr q e.toNat = s) ∧ (8 ≤ q → s.portErr q e.toNat = put F.UART_STAT_FRAMEERR (q - 8) (bit 1 e.toNat) (put F.UART_STAT_PARERR (q - 8) (bit 0 e.toNat && (p == 1 || p == 2)) s))) ∧
    (∀ (pin : Fin 96) (level : Bool), 
        let x := pin.val
        let r := (gpioRegs (x / 32)).2.2.1
        let f := (gpioRegs (x / 32)).2.2.2.2
        let u := s.setRegN r 0 (setBits (x % 32) 1 (b2n level) (s.regN r 0))
        let old := s.gpioLevel x
        let new := u.gpioLevel x
        let met := (u.gpioMode x = 1 ∧ old = false ∧ new = true) ∨ (u.gpioMode x = 2 ∧ old = true ∧ new = false) ∨ (u.gpioMode x = 3 ∧ new = false)
        (s.alive 19 = false → exec (.gpioInterrupt pin level) s = .next s) ∧ (s.alive 19 = true → ¬ met → exec (.gpioInterrupt pin level) s = .next u) ∧
        (s.alive 19 = true → met → exec (.gpioInterrupt pin level) s = .next (u.setRegN f 0 (setBits (x % 32) 1 1 (u.regN f 0)))) ∧
        (s.gpioDrives x = none → new = level) ∧ (∀ o, s.gpioDrives x = some o → new = o ∧ old = o) ∧ (s.gpioMode x = 3 → s.gpioLevel x = false → bit (x % 32) (s.gpioLevels.regN f 0) = true)) ∧
    (∀ (on : Bool), 
        let ok := s.mode = 9 ∨ s.flag F.RST_BOOTSTAT_HELD 0 = true
        (s.alive 19 = false → exec (.extest on) s = .next s) ∧ (s.alive 19 = true → on = false → exec (.extest on) s = .next { s with extest := false }) ∧
        (s.alive 19 = true → on = true → ok → exec (.extest on) s = .next { s.setFld F.DBG_STAT_ATTACHED 0 1 with extest := true }) ∧ (s.alive 19 = true → on = true → ¬ ok → exec (.extest on) s = .next s)) ∧
    (∀ (who : Initiator) (addr : BitVec 40) (v : Word), 
        let a := addr.toNat
        (isRegs a = false ∨ a % 4 ≠ 0 → exec (.registerWrite who addr v) s = .next s) ∧
        (∀ t, s.wordWrite who.agent a v.toNat = (none, t) → isRegs a = true → a % 4 = 0 → exec (.registerWrite who addr v) s = t.ends) ∧
        (∀ e t, s.wordWrite who.agent a v.toNat = (some e, t) → isRegs a = true → a % 4 = 0 → exec (.registerWrite who addr v) s = (t.told who a e).ends) ∧
        (s.Takes who .SAF_ACT 0 → s.agentRing who.agent = 0 → s.flag F.SAF_CTL_LOCK 0 = false → exec (.registerWrite who 0x400080008 v) s = .next (s.setRegN .SAF_ACT 0 v.toNat))) ∧
    (∀ (k : Fin 10), 
        let ok := s.alive 19 = true ∧ (s.lcState = 0 ∨ s.lcState = 1 ∨ s.lcState = 3)
        let can := ok ∧ s.alive 4 = true ∧ (s.logicalCore k.val).isSome = true ∧ s.fld F.SUP_STAT_STATE k.val < 2 ∧ s.flag F.MEM_STAT_WIPING 0 = false
        let t := (s.setFld F.DBG_STAT_ATTACHED 0 1).supException k.val 0x0D 0 (s.core k.val).pc 0 none
        (¬ can → exec (.debugHalt k) s = .next s) ∧ (can → t.fld F.SUP_STAT_STATE k.val ≠ 3 → exec (.debugHalt k) s = (t.setFld F.SUP_STAT_STATE k.val 2).ends) ∧ (can → t.fld F.SUP_STAT_STATE k.val = 3 → exec (.debugHalt k) s = t.ends)) ∧
    (∀ (write : Bool) (addr : BitVec 40) (size : Fin 4) (data : BitVec 64), 
        let ok := s.alive 19 = true ∧ (s.lcState = 0 ∨ s.lcState = 1 ∨ s.lcState = 3)
        let u := s.setFld F.DBG_STAT_ATTACHED 0 1
        let n := 2 ^ size.val
        let a := addr.toNat
        let answer (t : State) (st : Nat) (l : List Byte) : State := { t with dreply := some ⟨st, l⟩ }
        (¬ ok → exec (.debugAccess write addr size data) s = .next s) ∧ (ok → a % n ≠ 0 → exec (.debugAccess write addr size data) s = .next (answer u 1 [])) ∧
        (∀ e t, u.busWrite .debug a n data.toNat none = (e, t) → ok → a % n = 0 → write = true → exec (.debugAccess write addr size data) s = (answer t (b2n e.isSome) []).ends) ∧
        (∀ x d t, u.busRead .debug a n = (.ok (x, d), t) → ok → a % n = 0 → write = false → exec (.debugAccess write addr size data) s = (answer t 0 (leBytes n x)).ends) ∧
        (∀ e t, u.busRead .debug a n = (.error e, t) → ok → a % n = 0 → write = false →
          (e = .check → exec (.debugAccess write addr size data) s = (answer t 0 (leBytes n 0)).ends) ∧ (e = .wait → exec (.debugAccess write addr size data) s = t.ends) ∧
          (e ≠ .check → e ≠ .wait → exec (.debugAccess write addr size data) s = (answer t 1 []).ends)))
end

