-- ==== Sys2Proof/Laws/Tab.lean ====
section
/-! SUPPORT. What sparse tables do: a read after a write, and the canonical form is kept. -/

namespace Sys2Proof.Laws
open Sys2Proof.Machine

variable {α : Type}

@[simp] theorem Tab_look_drop_same (d : Nat → α) (t : Tab α) (k : Nat) :
    Tab.look d (Tab.drop t k) k = d k := by
  induction t with
  | nil => rfl
  | cons p t ih =>
    obtain ⟨k', v⟩ := p
    by_cases h : k = k' <;> simp [Tab.drop, Tab.look, h]
    · subst h; simpa using ih
    · simpa using ih

theorem Tab_look_drop_ne (d : Nat → α) (t : Tab α) {k j : Nat} (h : j ≠ k) :
    Tab.look d (Tab.drop t k) j = Tab.look d t j := by
  induction t with
  | nil => rfl
  | cons p t ih =>
    obtain ⟨k', v⟩ := p
    by_cases hk : k = k'
    · subst hk; simp [Tab.drop, Tab.look, h, ih]
    · simp [Tab.drop, Tab.look, hk, ih]

theorem Tab_look_ins_same (d : Nat → α) (t : Tab α) (k : Nat) (v : α)
    (h : ∀ p ∈ t, p.1 ≠ k) : Tab.look d (Tab.ins t k v) k = v := by
  induction t with
  | nil => simp [Tab.ins, Tab.look]
  | cons p t ih =>
    obtain ⟨k', w⟩ := p
    have hk : k ≠ k' := fun e => h (k', w) (by simp) e.symm
    by_cases hl : k < k'
    · simp [Tab.ins, Tab.look, hl]
    · simp only [Tab.ins, Tab.look, hl, if_false, hk]
      exact ih (fun p hp => h p (by simp [hp]))

theorem Tab_look_ins_ne (d : Nat → α) (t : Tab α) {k j : Nat} (v : α) (h : j ≠ k) :
    Tab.look d (Tab.ins t k v) j = Tab.look d t j := by
  induction t with
  | nil => simp [Tab.ins, Tab.look, h]
  | cons p t ih =>
    obtain ⟨k', w⟩ := p
    by_cases hl : k < k'
    · simp [Tab.ins, Tab.look, hl, h]
    · simp [Tab.ins, Tab.look, hl, ih]

theorem Tab_drop_mem {t : Tab α} {k : Nat} {p : Nat × α} (h : p ∈ Tab.drop t k) :
    p ∈ t ∧ p.1 ≠ k := by
  induction t with
  | nil => simp [Tab.drop] at h
  | cons q t ih =>
    obtain ⟨k', w⟩ := q
    by_cases hk : k = k'
    · simp only [Tab.drop, hk, if_true] at h
      subst hk
      exact ⟨List.mem_cons_of_mem _ (ih h).1, (ih h).2⟩
    · simp only [Tab.drop, hk, if_false, List.mem_cons] at h
      rcases h with rfl | h
      · exact ⟨List.mem_cons_self .., fun e => hk e.symm⟩
      · exact ⟨List.mem_cons_of_mem _ (ih h).1, (ih h).2⟩

theorem Tab_ins_mem {t : Tab α} {k : Nat} {v : α} {p : Nat × α} (h : p ∈ Tab.ins t k v) :
    p = (k, v) ∨ p ∈ t := by
  induction t with
  | nil => simpa [Tab.ins] using h
  | cons q t ih =>
    obtain ⟨k', w⟩ := q
    by_cases hl : k < k'
    · simpa [Tab.ins, hl] using h
    · simp only [Tab.ins, hl, if_false, List.mem_cons] at h
      rcases h with rfl | h
      · simp
      · rcases ih h with h | h
        · exact .inl h
        · exact .inr (List.mem_cons_of_mem _ h)

/-- Reading what was written. -/
@[simp] theorem Tab_look_put_same [DecidableEq α] (d : Nat → α) (t : Tab α) (k : Nat) (v : α) :
    Tab.look d (Tab.put d t k v) k = v := by
  by_cases h : v = d k
  · simp [Tab.put, h]
  · simp only [Tab.put, h, if_false]
    exact Tab_look_ins_same d _ k v (fun p hp => (Tab_drop_mem hp).2)

/-- A write leaves every other key alone. -/
theorem Tab_look_put_ne [DecidableEq α] (d : Nat → α) (t : Tab α) {k j : Nat} (v : α) (h : j ≠ k) :
    Tab.look d (Tab.put d t k v) j = Tab.look d t j := by
  by_cases hv : v = d k
  · simp [Tab.put, hv, Tab_look_drop_ne d t h]
  · simp [Tab.put, hv, Tab_look_ins_ne d _ v h, Tab_look_drop_ne d t h]

/-- A key dropped twice is dropped once. -/
theorem Tab_drop_drop (t : Tab α) (k : Nat) : Tab.drop (Tab.drop t k) k = Tab.drop t k := by
  induction t with
  | nil => rfl
  | cons p t ih =>
    obtain ⟨k', v⟩ := p
    by_cases h : k = k' <;> simp [Tab.drop, h]
    · exact h ▸ ih
    · exact ih

theorem Tab_drop_ins (t : Tab α) (k : Nat) (v : α) : Tab.drop (Tab.ins t k v) k = Tab.drop t k := by
  induction t with
  | nil => simp [Tab.ins, Tab.drop]
  | cons p t ih =>
    obtain ⟨k', w⟩ := p
    by_cases h : k < k'
    · simp [Tab.ins, Tab.drop, h]
    · by_cases hk : k = k' <;> simp [Tab.ins, Tab.drop, h, hk] <;> first | exact hk ▸ ih | exact ih

/-- Of two writes of a key the second one stands. -/
@[simp] theorem Tab_put_put [DecidableEq α] (d : Nat → α) (t : Tab α) (k : Nat) (v w : α) :
    Tab.put d (Tab.put d t k v) k w = Tab.put d t k w := by
  have h : Tab.drop (Tab.put d t k v) k = Tab.drop t k := by
    unfold Tab.put
    split
    · exact Tab_drop_drop t k
    · rw [Tab_drop_ins, Tab_drop_drop]
  show (if w = d k then Tab.drop (Tab.put d t k v) k else Tab.ins (Tab.drop (Tab.put d t k v) k) k w) = _
  rw [h]
  rfl

theorem Tab_drop_sorted {t : Tab α} (k : Nat) (h : t.Pairwise (fun p q => p.1 < q.1)) :
    (Tab.drop t k).Pairwise (fun p q => p.1 < q.1) := by
  induction t with
  | nil => simp [Tab.drop]
  | cons q t ih =>
    obtain ⟨k', w⟩ := q
    rw [List.pairwise_cons] at h
    by_cases hk : k = k'
    · simpa [Tab.drop, hk] using hk ▸ ih h.2
    · simp only [Tab.drop, hk, if_false, List.pairwise_cons]
      exact ⟨fun p hp => h.1 p (Tab_drop_mem hp).1, ih h.2⟩

theorem Tab_ins_sorted {t : Tab α} (k : Nat) (v : α) (h : t.Pairwise (fun p q => p.1 < q.1))
    (hk : ∀ p ∈ t, p.1 ≠ k) : (Tab.ins t k v).Pairwise (fun p q => p.1 < q.1) := by
  induction t with
  | nil => simp [Tab.ins]
  | cons q t ih =>
    obtain ⟨k', w⟩ := q
    rw [List.pairwise_cons] at h
    have hne : k' ≠ k := hk (k', w) (by simp)
    by_cases hl : k < k'
    · simp only [Tab.ins, hl, if_true, List.pairwise_cons]
      refine ⟨?_, h⟩
      intro p hp
      rcases List.mem_cons.mp hp with rfl | hp
      · exact hl
      · exact lt_trans hl (h.1 p hp)
    · simp only [Tab.ins, hl, if_false, List.pairwise_cons]
      refine ⟨?_, ih h.2 (fun p hp => hk p (by simp [hp]))⟩
      intro p hp
      rcases Tab_ins_mem hp with rfl | hp
      · simp only; omega
      · exact h.1 p hp

/-- Every write keeps the canonical form. -/
theorem Tab_wf_put [DecidableEq α] {d : Nat → α} {t : Tab α} (k : Nat) (v : α) (h : Tab.wf d t) :
    Tab.wf d (Tab.put d t k v) := by
  by_cases hv : v = d k
  · simp only [Tab.put, hv, if_true]
    exact ⟨Tab_drop_sorted k h.1, fun p hp => h.2 p (Tab_drop_mem hp).1⟩
  · simp only [Tab.put, hv, if_false]
    refine ⟨Tab_ins_sorted k v (Tab_drop_sorted k h.1) (fun p hp => (Tab_drop_mem hp).2), ?_⟩
    intro p hp
    rcases Tab_ins_mem hp with rfl | hp
    · exact hv
    · exact h.2 p (Tab_drop_mem hp).1

/-- The empty table is canonical. -/
@[simp] theorem Tab_wf_nil [DecidableEq α] (d : Nat → α) : Tab.wf d ([] : Tab α) :=
  ⟨List.Pairwise.nil, by simp⟩

end Sys2Proof.Laws
end

