-- ==== Sys2Proof/Laws/State.lean ====
section
/-! SUPPORT. What each update of the state leaves of every field, so that no proof unfolds a record update. -/

namespace Sys2Proof.Laws
open Sys2Proof.Machine

variable (s : State)

/-! `reach` writes `now` alone. -/

@[simp] theorem reach_regs (t : Nat) : (s.reach t).regs = s.regs := rfl
@[simp] theorem reach_mem (t : Nat) : (s.reach t).mem = s.mem := rfl
@[simp] theorem reach_chk (t : Nat) : (s.reach t).chk = s.chk := rfl
@[simp] theorem reach_tags (t : Nat) : (s.reach t).tags = s.tags := rfl
@[simp] theorem reach_hist (t : Nat) : (s.reach t).hist = s.hist := rfl
@[simp] theorem reach_eng (t : Nat) : (s.reach t).eng = s.eng := rfl
@[simp] theorem reach_phys (t : Nat) : (s.reach t).phys = s.phys := rfl
@[simp] theorem reach_sq (t : Nat) : (s.reach t).sq = s.sq := rfl
@[simp] theorem reach_rx (t : Nat) : (s.reach t).rx = s.rx := rfl
@[simp] theorem reach_tinAt (t : Nat) : (s.reach t).tinAt = s.tinAt := rfl
@[simp] theorem reach_tinEc (t : Nat) : (s.reach t).tinEc = s.tinEc := rfl
@[simp] theorem reach_msgs (t : Nat) : (s.reach t).msgs = s.msgs := rfl
@[simp] theorem reach_wstores (t : Nat) : (s.reach t).wstores = s.wstores := rfl
@[simp] theorem reach_sched (t : Nat) : (s.reach t).sched = s.sched := rfl
@[simp] theorem reach_almLate (t : Nat) : (s.reach t).almLate = s.almLate := rfl
@[simp] theorem reach_eps (t : Nat) : (s.reach t).eps = s.eps := rfl
@[simp] theorem reach_notes (t : Nat) : (s.reach t).notes = s.notes := rfl
@[simp] theorem reach_window (t : Nat) : (s.reach t).window = s.window := rfl
@[simp] theorem reach_convs (t : Nat) : (s.reach t).convs = s.convs := rfl
@[simp] theorem reach_rots (t : Nat) : (s.reach t).rots = s.rots := rfl
@[simp] theorem reach_nets (t : Nat) : (s.reach t).nets = s.nets := rfl
@[simp] theorem reach_fltWas (t : Nat) : (s.reach t).fltWas = s.fltWas := rfl
@[simp] theorem reach_cmps (t : Nat) : (s.reach t).cmps = s.cmps := rfl
@[simp] theorem reach_ain (t : Nat) : (s.reach t).ain = s.ain := rfl
@[simp] theorem reach_sdis (t : Nat) : (s.reach t).sdis = s.sdis := rfl
@[simp] theorem reach_poss (t : Nat) : (s.reach t).poss = s.poss := rfl
@[simp] theorem reach_flipAt (t : Nat) : (s.reach t).flipAt = s.flipAt := rfl
@[simp] theorem reach_flights (t : Nat) : (s.reach t).flights = s.flights := rfl
@[simp] theorem reach_beaten (t : Nat) : (s.reach t).beaten = s.beaten := rfl
@[simp] theorem reach_counted (t : Nat) : (s.reach t).counted = s.counted := rfl
@[simp] theorem reach_chanAct (t : Nat) : (s.reach t).chanAct = s.chanAct := rfl
@[simp] theorem reach_dlks (t : Nat) : (s.reach t).dlks = s.dlks := rfl
@[simp] theorem reach_sup (t : Nat) : (s.reach t).sup = s.sup := rfl
@[simp] theorem reach_dma (t : Nat) : (s.reach t).dma = s.dma := rfl
@[simp] theorem reach_rdc (t : Nat) : (s.reach t).rdc = s.rdc := rfl
@[simp] theorem reach_joins (t : Nat) : (s.reach t).joins = s.joins := rfl
@[simp] theorem reach_scrubs (t : Nat) : (s.reach t).scrubs = s.scrubs := rfl
@[simp] theorem reach_laps (t : Nat) : (s.reach t).laps = s.laps := rfl
@[simp] theorem reach_spares (t : Nat) : (s.reach t).spares = s.spares := rfl
@[simp] theorem reach_wipe (t : Nat) : (s.reach t).wipe = s.wipe := rfl
@[simp] theorem reach_banks (t : Nat) : (s.reach t).banks = s.banks := rfl
@[simp] theorem reach_opt (t : Nat) : (s.reach t).opt = s.opt := rfl
@[simp] theorem reach_optBad (t : Nat) : (s.reach t).optBad = s.optBad := rfl
@[simp] theorem reach_life (t : Nat) : (s.reach t).life = s.life := rfl
@[simp] theorem reach_snaps (t : Nat) : (s.reach t).snaps = s.snaps := rfl
@[simp] theorem reach_posts (t : Nat) : (s.reach t).posts = s.posts := rfl
@[simp] theorem reach_staged (t : Nat) : (s.reach t).staged = s.staged := rfl
@[simp] theorem reach_gports (t : Nat) : (s.reach t).gports = s.gports := rfl
@[simp] theorem reach_greqs (t : Nat) : (s.reach t).greqs = s.greqs := rfl
@[simp] theorem reach_rgot (t : Nat) : (s.reach t).rgot = s.rgot := rfl
@[simp] theorem reach_gtag (t : Nat) : (s.reach t).gtag = s.gtag := rfl
@[simp] theorem reach_sync (t : Nat) : (s.reach t).sync = s.sync := rfl
@[simp] theorem reach_spiAt (t : Nat) : (s.reach t).spiAt = s.spiAt := rfl
@[simp] theorem reach_reply (t : Nat) : (s.reach t).reply = s.reply := rfl
@[simp] theorem reach_spiOut (t : Nat) : (s.reach t).spiOut = s.spiOut := rfl
@[simp] theorem reach_dreply (t : Nat) : (s.reach t).dreply = s.dreply := rfl
@[simp] theorem reach_msix (t : Nat) : (s.reach t).msix = s.msix := rfl
@[simp] theorem reach_straps (t : Nat) : (s.reach t).straps = s.straps := rfl
@[simp] theorem reach_meas (t : Nat) : (s.reach t).meas = s.meas := rfl
@[simp] theorem reach_measWas (t : Nat) : (s.reach t).measWas = s.measWas := rfl
@[simp] theorem reach_rail (t : Nat) : (s.reach t).rail = s.rail := rfl
@[simp] theorem reach_boot (t : Nat) : (s.reach t).boot = s.boot := rfl
@[simp] theorem reach_modeReq (t : Nat) : (s.reach t).modeReq = s.modeReq := rfl
@[simp] theorem reach_trans (t : Nat) : (s.reach t).trans = s.trans := rfl
@[simp] theorem reach_rising (t : Nat) : (s.reach t).rising = s.rising := rfl
@[simp] theorem reach_falling (t : Nat) : (s.reach t).falling = s.falling := rfl
@[simp] theorem reach_mainAt (t : Nat) : (s.reach t).mainAt = s.mainAt := rfl
@[simp] theorem reach_woke (t : Nat) : (s.reach t).woke = s.woke := rfl
@[simp] theorem reach_sleepAt (t : Nat) : (s.reach t).sleepAt = s.sleepAt := rfl
@[simp] theorem reach_wdAt (t : Nat) : (s.reach t).wdAt = s.wdAt := rfl
@[simp] theorem reach_block (t : Nat) : (s.reach t).block = s.block := rfl
@[simp] theorem reach_escDue (t : Nat) : (s.reach t).escDue = s.escDue := rfl
@[simp] theorem reach_safen (t : Nat) : (s.reach t).safen = s.safen := rfl
@[simp] theorem reach_safenAt (t : Nat) : (s.reach t).safenAt = s.safenAt := rfl
@[simp] theorem reach_lockAt (t : Nat) : (s.reach t).lockAt = s.lockAt := rfl
@[simp] theorem reach_snsOff (t : Nat) : (s.reach t).snsOff = s.snsOff := rfl
@[simp] theorem reach_supply (t : Nat) : (s.reach t).supply = s.supply := rfl
@[simp] theorem reach_rails (t : Nat) : (s.reach t).rails = s.rails := rfl
@[simp] theorem reach_escAt (t : Nat) : (s.reach t).escAt = s.escAt := rfl
@[simp] theorem reach_reqAt (t : Nat) : (s.reach t).reqAt = s.reqAt := rfl
@[simp] theorem reach_tcmKept (t : Nat) : (s.reach t).tcmKept = s.tcmKept := rfl
@[simp] theorem reach_ports (t : Nat) : (s.reach t).ports = s.ports := rfl
@[simp] theorem reach_extest (t : Nat) : (s.reach t).extest = s.extest := rfl
@[simp] theorem reach_latch (t : Nat) : (s.reach t).latch = s.latch := rfl
@[simp] theorem reach_raised (t : Nat) : (s.reach t).raised = s.raised := rfl
@[simp] theorem reach_free (t : Nat) : (s.reach t).free = s.free := rfl
@[simp] theorem reach_pending (t : Nat) : (s.reach t).pending = s.pending := rfl

/-! `setReg` writes `regs` alone. -/

@[simp] theorem setReg_now (r : Reg) (i : Nat) (v : Word) : (s.setReg r i v).now = s.now := rfl
@[simp] theorem setReg_mem (r : Reg) (i : Nat) (v : Word) : (s.setReg r i v).mem = s.mem := rfl
@[simp] theorem setReg_chk (r : Reg) (i : Nat) (v : Word) : (s.setReg r i v).chk = s.chk := rfl
@[simp] theorem setReg_tags (r : Reg) (i : Nat) (v : Word) : (s.setReg r i v).tags = s.tags := rfl
@[simp] theorem setReg_hist (r : Reg) (i : Nat) (v : Word) : (s.setReg r i v).hist = s.hist := rfl
@[simp] theorem setReg_eng (r : Reg) (i : Nat) (v : Word) : (s.setReg r i v).eng = s.eng := rfl
@[simp] theorem setReg_phys (r : Reg) (i : Nat) (v : Word) : (s.setReg r i v).phys = s.phys := rfl
@[simp] theorem setReg_sq (r : Reg) (i : Nat) (v : Word) : (s.setReg r i v).sq = s.sq := rfl
@[simp] theorem setReg_rx (r : Reg) (i : Nat) (v : Word) : (s.setReg r i v).rx = s.rx := rfl
@[simp] theorem setReg_tinAt (r : Reg) (i : Nat) (v : Word) : (s.setReg r i v).tinAt = s.tinAt := rfl
@[simp] theorem setReg_tinEc (r : Reg) (i : Nat) (v : Word) : (s.setReg r i v).tinEc = s.tinEc := rfl
@[simp] theorem setReg_msgs (r : Reg) (i : Nat) (v : Word) : (s.setReg r i v).msgs = s.msgs := rfl
@[simp] theorem setReg_wstores (r : Reg) (i : Nat) (v : Word) : (s.setReg r i v).wstores = s.wstores := rfl
@[simp] theorem setReg_sched (r : Reg) (i : Nat) (v : Word) : (s.setReg r i v).sched = s.sched := rfl
@[simp] theorem setReg_almLate (r : Reg) (i : Nat) (v : Word) : (s.setReg r i v).almLate = s.almLate := rfl
@[simp] theorem setReg_eps (r : Reg) (i : Nat) (v : Word) : (s.setReg r i v).eps = s.eps := rfl
@[simp] theorem setReg_notes (r : Reg) (i : Nat) (v : Word) : (s.setReg r i v).notes = s.notes := rfl
@[simp] theorem setReg_window (r : Reg) (i : Nat) (v : Word) : (s.setReg r i v).window = s.window := rfl
@[simp] theorem setReg_convs (r : Reg) (i : Nat) (v : Word) : (s.setReg r i v).convs = s.convs := rfl
@[simp] theorem setReg_rots (r : Reg) (i : Nat) (v : Word) : (s.setReg r i v).rots = s.rots := rfl
@[simp] theorem setReg_nets (r : Reg) (i : Nat) (v : Word) : (s.setReg r i v).nets = s.nets := rfl
@[simp] theorem setReg_fltWas (r : Reg) (i : Nat) (v : Word) : (s.setReg r i v).fltWas = s.fltWas := rfl
@[simp] theorem setReg_cmps (r : Reg) (i : Nat) (v : Word) : (s.setReg r i v).cmps = s.cmps := rfl
@[simp] theorem setReg_ain (r : Reg) (i : Nat) (v : Word) : (s.setReg r i v).ain = s.ain := rfl
@[simp] theorem setReg_sdis (r : Reg) (i : Nat) (v : Word) : (s.setReg r i v).sdis = s.sdis := rfl
@[simp] theorem setReg_poss (r : Reg) (i : Nat) (v : Word) : (s.setReg r i v).poss = s.poss := rfl
@[simp] theorem setReg_flipAt (r : Reg) (i : Nat) (v : Word) : (s.setReg r i v).flipAt = s.flipAt := rfl
@[simp] theorem setReg_flights (r : Reg) (i : Nat) (v : Word) : (s.setReg r i v).flights = s.flights := rfl
@[simp] theorem setReg_beaten (r : Reg) (i : Nat) (v : Word) : (s.setReg r i v).beaten = s.beaten := rfl
@[simp] theorem setReg_counted (r : Reg) (i : Nat) (v : Word) : (s.setReg r i v).counted = s.counted := rfl
@[simp] theorem setReg_chanAct (r : Reg) (i : Nat) (v : Word) : (s.setReg r i v).chanAct = s.chanAct := rfl
@[simp] theorem setReg_dlks (r : Reg) (i : Nat) (v : Word) : (s.setReg r i v).dlks = s.dlks := rfl
@[simp] theorem setReg_sup (r : Reg) (i : Nat) (v : Word) : (s.setReg r i v).sup = s.sup := rfl
@[simp] theorem setReg_dma (r : Reg) (i : Nat) (v : Word) : (s.setReg r i v).dma = s.dma := rfl
@[simp] theorem setReg_rdc (r : Reg) (i : Nat) (v : Word) : (s.setReg r i v).rdc = s.rdc := rfl
@[simp] theorem setReg_joins (r : Reg) (i : Nat) (v : Word) : (s.setReg r i v).joins = s.joins := rfl
@[simp] theorem setReg_scrubs (r : Reg) (i : Nat) (v : Word) : (s.setReg r i v).scrubs = s.scrubs := rfl
@[simp] theorem setReg_laps (r : Reg) (i : Nat) (v : Word) : (s.setReg r i v).laps = s.laps := rfl
@[simp] theorem setReg_spares (r : Reg) (i : Nat) (v : Word) : (s.setReg r i v).spares = s.spares := rfl
@[simp] theorem setReg_wipe (r : Reg) (i : Nat) (v : Word) : (s.setReg r i v).wipe = s.wipe := rfl
@[simp] theorem setReg_banks (r : Reg) (i : Nat) (v : Word) : (s.setReg r i v).banks = s.banks := rfl
@[simp] theorem setReg_opt (r : Reg) (i : Nat) (v : Word) : (s.setReg r i v).opt = s.opt := rfl
@[simp] theorem setReg_optBad (r : Reg) (i : Nat) (v : Word) : (s.setReg r i v).optBad = s.optBad := rfl
@[simp] theorem setReg_life (r : Reg) (i : Nat) (v : Word) : (s.setReg r i v).life = s.life := rfl
@[simp] theorem setReg_snaps (r : Reg) (i : Nat) (v : Word) : (s.setReg r i v).snaps = s.snaps := rfl
@[simp] theorem setReg_posts (r : Reg) (i : Nat) (v : Word) : (s.setReg r i v).posts = s.posts := rfl
@[simp] theorem setReg_staged (r : Reg) (i : Nat) (v : Word) : (s.setReg r i v).staged = s.staged := rfl
@[simp] theorem setReg_gports (r : Reg) (i : Nat) (v : Word) : (s.setReg r i v).gports = s.gports := rfl
@[simp] theorem setReg_greqs (r : Reg) (i : Nat) (v : Word) : (s.setReg r i v).greqs = s.greqs := rfl
@[simp] theorem setReg_rgot (r : Reg) (i : Nat) (v : Word) : (s.setReg r i v).rgot = s.rgot := rfl
@[simp] theorem setReg_gtag (r : Reg) (i : Nat) (v : Word) : (s.setReg r i v).gtag = s.gtag := rfl
@[simp] theorem setReg_sync (r : Reg) (i : Nat) (v : Word) : (s.setReg r i v).sync = s.sync := rfl
@[simp] theorem setReg_spiAt (r : Reg) (i : Nat) (v : Word) : (s.setReg r i v).spiAt = s.spiAt := rfl
@[simp] theorem setReg_reply (r : Reg) (i : Nat) (v : Word) : (s.setReg r i v).reply = s.reply := rfl
@[simp] theorem setReg_spiOut (r : Reg) (i : Nat) (v : Word) : (s.setReg r i v).spiOut = s.spiOut := rfl
@[simp] theorem setReg_dreply (r : Reg) (i : Nat) (v : Word) : (s.setReg r i v).dreply = s.dreply := rfl
@[simp] theorem setReg_msix (r : Reg) (i : Nat) (v : Word) : (s.setReg r i v).msix = s.msix := rfl
@[simp] theorem setReg_straps (r : Reg) (i : Nat) (v : Word) : (s.setReg r i v).straps = s.straps := rfl
@[simp] theorem setReg_meas (r : Reg) (i : Nat) (v : Word) : (s.setReg r i v).meas = s.meas := rfl
@[simp] theorem setReg_measWas (r : Reg) (i : Nat) (v : Word) : (s.setReg r i v).measWas = s.measWas := rfl
@[simp] theorem setReg_rail (r : Reg) (i : Nat) (v : Word) : (s.setReg r i v).rail = s.rail := rfl
@[simp] theorem setReg_boot (r : Reg) (i : Nat) (v : Word) : (s.setReg r i v).boot = s.boot := rfl
@[simp] theorem setReg_modeReq (r : Reg) (i : Nat) (v : Word) : (s.setReg r i v).modeReq = s.modeReq := rfl
@[simp] theorem setReg_trans (r : Reg) (i : Nat) (v : Word) : (s.setReg r i v).trans = s.trans := rfl
@[simp] theorem setReg_rising (r : Reg) (i : Nat) (v : Word) : (s.setReg r i v).rising = s.rising := rfl
@[simp] theorem setReg_falling (r : Reg) (i : Nat) (v : Word) : (s.setReg r i v).falling = s.falling := rfl
@[simp] theorem setReg_mainAt (r : Reg) (i : Nat) (v : Word) : (s.setReg r i v).mainAt = s.mainAt := rfl
@[simp] theorem setReg_woke (r : Reg) (i : Nat) (v : Word) : (s.setReg r i v).woke = s.woke := rfl
@[simp] theorem setReg_sleepAt (r : Reg) (i : Nat) (v : Word) : (s.setReg r i v).sleepAt = s.sleepAt := rfl
@[simp] theorem setReg_wdAt (r : Reg) (i : Nat) (v : Word) : (s.setReg r i v).wdAt = s.wdAt := rfl
@[simp] theorem setReg_block (r : Reg) (i : Nat) (v : Word) : (s.setReg r i v).block = s.block := rfl
@[simp] theorem setReg_escDue (r : Reg) (i : Nat) (v : Word) : (s.setReg r i v).escDue = s.escDue := rfl
@[simp] theorem setReg_safen (r : Reg) (i : Nat) (v : Word) : (s.setReg r i v).safen = s.safen := rfl
@[simp] theorem setReg_safenAt (r : Reg) (i : Nat) (v : Word) : (s.setReg r i v).safenAt = s.safenAt := rfl
@[simp] theorem setReg_lockAt (r : Reg) (i : Nat) (v : Word) : (s.setReg r i v).lockAt = s.lockAt := rfl
@[simp] theorem setReg_snsOff (r : Reg) (i : Nat) (v : Word) : (s.setReg r i v).snsOff = s.snsOff := rfl
@[simp] theorem setReg_supply (r : Reg) (i : Nat) (v : Word) : (s.setReg r i v).supply = s.supply := rfl
@[simp] theorem setReg_rails (r : Reg) (i : Nat) (v : Word) : (s.setReg r i v).rails = s.rails := rfl
@[simp] theorem setReg_escAt (r : Reg) (i : Nat) (v : Word) : (s.setReg r i v).escAt = s.escAt := rfl
@[simp] theorem setReg_reqAt (r : Reg) (i : Nat) (v : Word) : (s.setReg r i v).reqAt = s.reqAt := rfl
@[simp] theorem setReg_tcmKept (r : Reg) (i : Nat) (v : Word) : (s.setReg r i v).tcmKept = s.tcmKept := rfl
@[simp] theorem setReg_ports (r : Reg) (i : Nat) (v : Word) : (s.setReg r i v).ports = s.ports := rfl
@[simp] theorem setReg_extest (r : Reg) (i : Nat) (v : Word) : (s.setReg r i v).extest = s.extest := rfl
@[simp] theorem setReg_latch (r : Reg) (i : Nat) (v : Word) : (s.setReg r i v).latch = s.latch := rfl
@[simp] theorem setReg_raised (r : Reg) (i : Nat) (v : Word) : (s.setReg r i v).raised = s.raised := rfl
@[simp] theorem setReg_free (r : Reg) (i : Nat) (v : Word) : (s.setReg r i v).free = s.free := rfl
@[simp] theorem setReg_pending (r : Reg) (i : Nat) (v : Word) : (s.setReg r i v).pending = s.pending := rfl

/-! `setRegN` writes `regs` alone. -/

@[simp] theorem setRegN_now (r : Reg) (i v : Nat) : (s.setRegN r i v).now = s.now := rfl
@[simp] theorem setRegN_mem (r : Reg) (i v : Nat) : (s.setRegN r i v).mem = s.mem := rfl
@[simp] theorem setRegN_chk (r : Reg) (i v : Nat) : (s.setRegN r i v).chk = s.chk := rfl
@[simp] theorem setRegN_tags (r : Reg) (i v : Nat) : (s.setRegN r i v).tags = s.tags := rfl
@[simp] theorem setRegN_hist (r : Reg) (i v : Nat) : (s.setRegN r i v).hist = s.hist := rfl
@[simp] theorem setRegN_eng (r : Reg) (i v : Nat) : (s.setRegN r i v).eng = s.eng := rfl
@[simp] theorem setRegN_phys (r : Reg) (i v : Nat) : (s.setRegN r i v).phys = s.phys := rfl
@[simp] theorem setRegN_sq (r : Reg) (i v : Nat) : (s.setRegN r i v).sq = s.sq := rfl
@[simp] theorem setRegN_rx (r : Reg) (i v : Nat) : (s.setRegN r i v).rx = s.rx := rfl
@[simp] theorem setRegN_tinAt (r : Reg) (i v : Nat) : (s.setRegN r i v).tinAt = s.tinAt := rfl
@[simp] theorem setRegN_tinEc (r : Reg) (i v : Nat) : (s.setRegN r i v).tinEc = s.tinEc := rfl
@[simp] theorem setRegN_msgs (r : Reg) (i v : Nat) : (s.setRegN r i v).msgs = s.msgs := rfl
@[simp] theorem setRegN_wstores (r : Reg) (i v : Nat) : (s.setRegN r i v).wstores = s.wstores := rfl
@[simp] theorem setRegN_sched (r : Reg) (i v : Nat) : (s.setRegN r i v).sched = s.sched := rfl
@[simp] theorem setRegN_almLate (r : Reg) (i v : Nat) : (s.setRegN r i v).almLate = s.almLate := rfl
@[simp] theorem setRegN_eps (r : Reg) (i v : Nat) : (s.setRegN r i v).eps = s.eps := rfl
@[simp] theorem setRegN_notes (r : Reg) (i v : Nat) : (s.setRegN r i v).notes = s.notes := rfl
@[simp] theorem setRegN_window (r : Reg) (i v : Nat) : (s.setRegN r i v).window = s.window := rfl
@[simp] theorem setRegN_convs (r : Reg) (i v : Nat) : (s.setRegN r i v).convs = s.convs := rfl
@[simp] theorem setRegN_rots (r : Reg) (i v : Nat) : (s.setRegN r i v).rots = s.rots := rfl
@[simp] theorem setRegN_nets (r : Reg) (i v : Nat) : (s.setRegN r i v).nets = s.nets := rfl
@[simp] theorem setRegN_fltWas (r : Reg) (i v : Nat) : (s.setRegN r i v).fltWas = s.fltWas := rfl
@[simp] theorem setRegN_cmps (r : Reg) (i v : Nat) : (s.setRegN r i v).cmps = s.cmps := rfl
@[simp] theorem setRegN_ain (r : Reg) (i v : Nat) : (s.setRegN r i v).ain = s.ain := rfl
@[simp] theorem setRegN_sdis (r : Reg) (i v : Nat) : (s.setRegN r i v).sdis = s.sdis := rfl
@[simp] theorem setRegN_poss (r : Reg) (i v : Nat) : (s.setRegN r i v).poss = s.poss := rfl
@[simp] theorem setRegN_flipAt (r : Reg) (i v : Nat) : (s.setRegN r i v).flipAt = s.flipAt := rfl
@[simp] theorem setRegN_flights (r : Reg) (i v : Nat) : (s.setRegN r i v).flights = s.flights := rfl
@[simp] theorem setRegN_beaten (r : Reg) (i v : Nat) : (s.setRegN r i v).beaten = s.beaten := rfl
@[simp] theorem setRegN_counted (r : Reg) (i v : Nat) : (s.setRegN r i v).counted = s.counted := rfl
@[simp] theorem setRegN_chanAct (r : Reg) (i v : Nat) : (s.setRegN r i v).chanAct = s.chanAct := rfl
@[simp] theorem setRegN_dlks (r : Reg) (i v : Nat) : (s.setRegN r i v).dlks = s.dlks := rfl
@[simp] theorem setRegN_sup (r : Reg) (i v : Nat) : (s.setRegN r i v).sup = s.sup := rfl
@[simp] theorem setRegN_dma (r : Reg) (i v : Nat) : (s.setRegN r i v).dma = s.dma := rfl
@[simp] theorem setRegN_rdc (r : Reg) (i v : Nat) : (s.setRegN r i v).rdc = s.rdc := rfl
@[simp] theorem setRegN_joins (r : Reg) (i v : Nat) : (s.setRegN r i v).joins = s.joins := rfl
@[simp] theorem setRegN_scrubs (r : Reg) (i v : Nat) : (s.setRegN r i v).scrubs = s.scrubs := rfl
@[simp] theorem setRegN_laps (r : Reg) (i v : Nat) : (s.setRegN r i v).laps = s.laps := rfl
@[simp] theorem setRegN_spares (r : Reg) (i v : Nat) : (s.setRegN r i v).spares = s.spares := rfl
@[simp] theorem setRegN_wipe (r : Reg) (i v : Nat) : (s.setRegN r i v).wipe = s.wipe := rfl
@[simp] theorem setRegN_banks (r : Reg) (i v : Nat) : (s.setRegN r i v).banks = s.banks := rfl
@[simp] theorem setRegN_opt (r : Reg) (i v : Nat) : (s.setRegN r i v).opt = s.opt := rfl
@[simp] theorem setRegN_optBad (r : Reg) (i v : Nat) : (s.setRegN r i v).optBad = s.optBad := rfl
@[simp] theorem setRegN_life (r : Reg) (i v : Nat) : (s.setRegN r i v).life = s.life := rfl
@[simp] theorem setRegN_snaps (r : Reg) (i v : Nat) : (s.setRegN r i v).snaps = s.snaps := rfl
@[simp] theorem setRegN_posts (r : Reg) (i v : Nat) : (s.setRegN r i v).posts = s.posts := rfl
@[simp] theorem setRegN_staged (r : Reg) (i v : Nat) : (s.setRegN r i v).staged = s.staged := rfl
@[simp] theorem setRegN_gports (r : Reg) (i v : Nat) : (s.setRegN r i v).gports = s.gports := rfl
@[simp] theorem setRegN_greqs (r : Reg) (i v : Nat) : (s.setRegN r i v).greqs = s.greqs := rfl
@[simp] theorem setRegN_rgot (r : Reg) (i v : Nat) : (s.setRegN r i v).rgot = s.rgot := rfl
@[simp] theorem setRegN_gtag (r : Reg) (i v : Nat) : (s.setRegN r i v).gtag = s.gtag := rfl
@[simp] theorem setRegN_sync (r : Reg) (i v : Nat) : (s.setRegN r i v).sync = s.sync := rfl
@[simp] theorem setRegN_spiAt (r : Reg) (i v : Nat) : (s.setRegN r i v).spiAt = s.spiAt := rfl
@[simp] theorem setRegN_reply (r : Reg) (i v : Nat) : (s.setRegN r i v).reply = s.reply := rfl
@[simp] theorem setRegN_spiOut (r : Reg) (i v : Nat) : (s.setRegN r i v).spiOut = s.spiOut := rfl
@[simp] theorem setRegN_dreply (r : Reg) (i v : Nat) : (s.setRegN r i v).dreply = s.dreply := rfl
@[simp] theorem setRegN_msix (r : Reg) (i v : Nat) : (s.setRegN r i v).msix = s.msix := rfl
@[simp] theorem setRegN_straps (r : Reg) (i v : Nat) : (s.setRegN r i v).straps = s.straps := rfl
@[simp] theorem setRegN_meas (r : Reg) (i v : Nat) : (s.setRegN r i v).meas = s.meas := rfl
@[simp] theorem setRegN_measWas (r : Reg) (i v : Nat) : (s.setRegN r i v).measWas = s.measWas := rfl
@[simp] theorem setRegN_rail (r : Reg) (i v : Nat) : (s.setRegN r i v).rail = s.rail := rfl
@[simp] theorem setRegN_boot (r : Reg) (i v : Nat) : (s.setRegN r i v).boot = s.boot := rfl
@[simp] theorem setRegN_modeReq (r : Reg) (i v : Nat) : (s.setRegN r i v).modeReq = s.modeReq := rfl
@[simp] theorem setRegN_trans (r : Reg) (i v : Nat) : (s.setRegN r i v).trans = s.trans := rfl
@[simp] theorem setRegN_rising (r : Reg) (i v : Nat) : (s.setRegN r i v).rising = s.rising := rfl
@[simp] theorem setRegN_falling (r : Reg) (i v : Nat) : (s.setRegN r i v).falling = s.falling := rfl
@[simp] theorem setRegN_mainAt (r : Reg) (i v : Nat) : (s.setRegN r i v).mainAt = s.mainAt := rfl
@[simp] theorem setRegN_woke (r : Reg) (i v : Nat) : (s.setRegN r i v).woke = s.woke := rfl
@[simp] theorem setRegN_sleepAt (r : Reg) (i v : Nat) : (s.setRegN r i v).sleepAt = s.sleepAt := rfl
@[simp] theorem setRegN_wdAt (r : Reg) (i v : Nat) : (s.setRegN r i v).wdAt = s.wdAt := rfl
@[simp] theorem setRegN_block (r : Reg) (i v : Nat) : (s.setRegN r i v).block = s.block := rfl
@[simp] theorem setRegN_escDue (r : Reg) (i v : Nat) : (s.setRegN r i v).escDue = s.escDue := rfl
@[simp] theorem setRegN_safen (r : Reg) (i v : Nat) : (s.setRegN r i v).safen = s.safen := rfl
@[simp] theorem setRegN_safenAt (r : Reg) (i v : Nat) : (s.setRegN r i v).safenAt = s.safenAt := rfl
@[simp] theorem setRegN_lockAt (r : Reg) (i v : Nat) : (s.setRegN r i v).lockAt = s.lockAt := rfl
@[simp] theorem setRegN_snsOff (r : Reg) (i v : Nat) : (s.setRegN r i v).snsOff = s.snsOff := rfl
@[simp] theorem setRegN_supply (r : Reg) (i v : Nat) : (s.setRegN r i v).supply = s.supply := rfl
@[simp] theorem setRegN_rails (r : Reg) (i v : Nat) : (s.setRegN r i v).rails = s.rails := rfl
@[simp] theorem setRegN_escAt (r : Reg) (i v : Nat) : (s.setRegN r i v).escAt = s.escAt := rfl
@[simp] theorem setRegN_reqAt (r : Reg) (i v : Nat) : (s.setRegN r i v).reqAt = s.reqAt := rfl
@[simp] theorem setRegN_tcmKept (r : Reg) (i v : Nat) : (s.setRegN r i v).tcmKept = s.tcmKept := rfl
@[simp] theorem setRegN_ports (r : Reg) (i v : Nat) : (s.setRegN r i v).ports = s.ports := rfl
@[simp] theorem setRegN_extest (r : Reg) (i v : Nat) : (s.setRegN r i v).extest = s.extest := rfl
@[simp] theorem setRegN_latch (r : Reg) (i v : Nat) : (s.setRegN r i v).latch = s.latch := rfl
@[simp] theorem setRegN_raised (r : Reg) (i v : Nat) : (s.setRegN r i v).raised = s.raised := rfl
@[simp] theorem setRegN_free (r : Reg) (i v : Nat) : (s.setRegN r i v).free = s.free := rfl
@[simp] theorem setRegN_pending (r : Reg) (i v : Nat) : (s.setRegN r i v).pending = s.pending := rfl

/-! `setFld` writes `regs` alone. -/

@[simp] theorem setFld_now (f : Fld) (i v : Nat) : (s.setFld f i v).now = s.now := rfl
@[simp] theorem setFld_mem (f : Fld) (i v : Nat) : (s.setFld f i v).mem = s.mem := rfl
@[simp] theorem setFld_chk (f : Fld) (i v : Nat) : (s.setFld f i v).chk = s.chk := rfl
@[simp] theorem setFld_tags (f : Fld) (i v : Nat) : (s.setFld f i v).tags = s.tags := rfl
@[simp] theorem setFld_hist (f : Fld) (i v : Nat) : (s.setFld f i v).hist = s.hist := rfl
@[simp] theorem setFld_eng (f : Fld) (i v : Nat) : (s.setFld f i v).eng = s.eng := rfl
@[simp] theorem setFld_phys (f : Fld) (i v : Nat) : (s.setFld f i v).phys = s.phys := rfl
@[simp] theorem setFld_sq (f : Fld) (i v : Nat) : (s.setFld f i v).sq = s.sq := rfl
@[simp] theorem setFld_rx (f : Fld) (i v : Nat) : (s.setFld f i v).rx = s.rx := rfl
@[simp] theorem setFld_tinAt (f : Fld) (i v : Nat) : (s.setFld f i v).tinAt = s.tinAt := rfl
@[simp] theorem setFld_tinEc (f : Fld) (i v : Nat) : (s.setFld f i v).tinEc = s.tinEc := rfl
@[simp] theorem setFld_msgs (f : Fld) (i v : Nat) : (s.setFld f i v).msgs = s.msgs := rfl
@[simp] theorem setFld_wstores (f : Fld) (i v : Nat) : (s.setFld f i v).wstores = s.wstores := rfl
@[simp] theorem setFld_sched (f : Fld) (i v : Nat) : (s.setFld f i v).sched = s.sched := rfl
@[simp] theorem setFld_almLate (f : Fld) (i v : Nat) : (s.setFld f i v).almLate = s.almLate := rfl
@[simp] theorem setFld_eps (f : Fld) (i v : Nat) : (s.setFld f i v).eps = s.eps := rfl
@[simp] theorem setFld_notes (f : Fld) (i v : Nat) : (s.setFld f i v).notes = s.notes := rfl
@[simp] theorem setFld_window (f : Fld) (i v : Nat) : (s.setFld f i v).window = s.window := rfl
@[simp] theorem setFld_convs (f : Fld) (i v : Nat) : (s.setFld f i v).convs = s.convs := rfl
@[simp] theorem setFld_rots (f : Fld) (i v : Nat) : (s.setFld f i v).rots = s.rots := rfl
@[simp] theorem setFld_nets (f : Fld) (i v : Nat) : (s.setFld f i v).nets = s.nets := rfl
@[simp] theorem setFld_fltWas (f : Fld) (i v : Nat) : (s.setFld f i v).fltWas = s.fltWas := rfl
@[simp] theorem setFld_cmps (f : Fld) (i v : Nat) : (s.setFld f i v).cmps = s.cmps := rfl
@[simp] theorem setFld_ain (f : Fld) (i v : Nat) : (s.setFld f i v).ain = s.ain := rfl
@[simp] theorem setFld_sdis (f : Fld) (i v : Nat) : (s.setFld f i v).sdis = s.sdis := rfl
@[simp] theorem setFld_poss (f : Fld) (i v : Nat) : (s.setFld f i v).poss = s.poss := rfl
@[simp] theorem setFld_flipAt (f : Fld) (i v : Nat) : (s.setFld f i v).flipAt = s.flipAt := rfl
@[simp] theorem setFld_flights (f : Fld) (i v : Nat) : (s.setFld f i v).flights = s.flights := rfl
@[simp] theorem setFld_beaten (f : Fld) (i v : Nat) : (s.setFld f i v).beaten = s.beaten := rfl
@[simp] theorem setFld_counted (f : Fld) (i v : Nat) : (s.setFld f i v).counted = s.counted := rfl
@[simp] theorem setFld_chanAct (f : Fld) (i v : Nat) : (s.setFld f i v).chanAct = s.chanAct := rfl
@[simp] theorem setFld_dlks (f : Fld) (i v : Nat) : (s.setFld f i v).dlks = s.dlks := rfl
@[simp] theorem setFld_sup (f : Fld) (i v : Nat) : (s.setFld f i v).sup = s.sup := rfl
@[simp] theorem setFld_dma (f : Fld) (i v : Nat) : (s.setFld f i v).dma = s.dma := rfl
@[simp] theorem setFld_rdc (f : Fld) (i v : Nat) : (s.setFld f i v).rdc = s.rdc := rfl
@[simp] theorem setFld_joins (f : Fld) (i v : Nat) : (s.setFld f i v).joins = s.joins := rfl
@[simp] theorem setFld_scrubs (f : Fld) (i v : Nat) : (s.setFld f i v).scrubs = s.scrubs := rfl
@[simp] theorem setFld_laps (f : Fld) (i v : Nat) : (s.setFld f i v).laps = s.laps := rfl
@[simp] theorem setFld_spares (f : Fld) (i v : Nat) : (s.setFld f i v).spares = s.spares := rfl
@[simp] theorem setFld_wipe (f : Fld) (i v : Nat) : (s.setFld f i v).wipe = s.wipe := rfl
@[simp] theorem setFld_banks (f : Fld) (i v : Nat) : (s.setFld f i v).banks = s.banks := rfl
@[simp] theorem setFld_opt (f : Fld) (i v : Nat) : (s.setFld f i v).opt = s.opt := rfl
@[simp] theorem setFld_optBad (f : Fld) (i v : Nat) : (s.setFld f i v).optBad = s.optBad := rfl
@[simp] theorem setFld_life (f : Fld) (i v : Nat) : (s.setFld f i v).life = s.life := rfl
@[simp] theorem setFld_snaps (f : Fld) (i v : Nat) : (s.setFld f i v).snaps = s.snaps := rfl
@[simp] theorem setFld_posts (f : Fld) (i v : Nat) : (s.setFld f i v).posts = s.posts := rfl
@[simp] theorem setFld_staged (f : Fld) (i v : Nat) : (s.setFld f i v).staged = s.staged := rfl
@[simp] theorem setFld_gports (f : Fld) (i v : Nat) : (s.setFld f i v).gports = s.gports := rfl
@[simp] theorem setFld_greqs (f : Fld) (i v : Nat) : (s.setFld f i v).greqs = s.greqs := rfl
@[simp] theorem setFld_rgot (f : Fld) (i v : Nat) : (s.setFld f i v).rgot = s.rgot := rfl
@[simp] theorem setFld_gtag (f : Fld) (i v : Nat) : (s.setFld f i v).gtag = s.gtag := rfl
@[simp] theorem setFld_sync (f : Fld) (i v : Nat) : (s.setFld f i v).sync = s.sync := rfl
@[simp] theorem setFld_spiAt (f : Fld) (i v : Nat) : (s.setFld f i v).spiAt = s.spiAt := rfl
@[simp] theorem setFld_reply (f : Fld) (i v : Nat) : (s.setFld f i v).reply = s.reply := rfl
@[simp] theorem setFld_spiOut (f : Fld) (i v : Nat) : (s.setFld f i v).spiOut = s.spiOut := rfl
@[simp] theorem setFld_dreply (f : Fld) (i v : Nat) : (s.setFld f i v).dreply = s.dreply := rfl
@[simp] theorem setFld_msix (f : Fld) (i v : Nat) : (s.setFld f i v).msix = s.msix := rfl
@[simp] theorem setFld_straps (f : Fld) (i v : Nat) : (s.setFld f i v).straps = s.straps := rfl
@[simp] theorem setFld_meas (f : Fld) (i v : Nat) : (s.setFld f i v).meas = s.meas := rfl
@[simp] theorem setFld_measWas (f : Fld) (i v : Nat) : (s.setFld f i v).measWas = s.measWas := rfl
@[simp] theorem setFld_rail (f : Fld) (i v : Nat) : (s.setFld f i v).rail = s.rail := rfl
@[simp] theorem setFld_boot (f : Fld) (i v : Nat) : (s.setFld f i v).boot = s.boot := rfl
@[simp] theorem setFld_modeReq (f : Fld) (i v : Nat) : (s.setFld f i v).modeReq = s.modeReq := rfl
@[simp] theorem setFld_trans (f : Fld) (i v : Nat) : (s.setFld f i v).trans = s.trans := rfl
@[simp] theorem setFld_rising (f : Fld) (i v : Nat) : (s.setFld f i v).rising = s.rising := rfl
@[simp] theorem setFld_falling (f : Fld) (i v : Nat) : (s.setFld f i v).falling = s.falling := rfl
@[simp] theorem setFld_mainAt (f : Fld) (i v : Nat) : (s.setFld f i v).mainAt = s.mainAt := rfl
@[simp] theorem setFld_woke (f : Fld) (i v : Nat) : (s.setFld f i v).woke = s.woke := rfl
@[simp] theorem setFld_sleepAt (f : Fld) (i v : Nat) : (s.setFld f i v).sleepAt = s.sleepAt := rfl
@[simp] theorem setFld_wdAt (f : Fld) (i v : Nat) : (s.setFld f i v).wdAt = s.wdAt := rfl
@[simp] theorem setFld_block (f : Fld) (i v : Nat) : (s.setFld f i v).block = s.block := rfl
@[simp] theorem setFld_escDue (f : Fld) (i v : Nat) : (s.setFld f i v).escDue = s.escDue := rfl
@[simp] theorem setFld_safen (f : Fld) (i v : Nat) : (s.setFld f i v).safen = s.safen := rfl
@[simp] theorem setFld_safenAt (f : Fld) (i v : Nat) : (s.setFld f i v).safenAt = s.safenAt := rfl
@[simp] theorem setFld_lockAt (f : Fld) (i v : Nat) : (s.setFld f i v).lockAt = s.lockAt := rfl
@[simp] theorem setFld_snsOff (f : Fld) (i v : Nat) : (s.setFld f i v).snsOff = s.snsOff := rfl
@[simp] theorem setFld_supply (f : Fld) (i v : Nat) : (s.setFld f i v).supply = s.supply := rfl
@[simp] theorem setFld_rails (f : Fld) (i v : Nat) : (s.setFld f i v).rails = s.rails := rfl
@[simp] theorem setFld_escAt (f : Fld) (i v : Nat) : (s.setFld f i v).escAt = s.escAt := rfl
@[simp] theorem setFld_reqAt (f : Fld) (i v : Nat) : (s.setFld f i v).reqAt = s.reqAt := rfl
@[simp] theorem setFld_tcmKept (f : Fld) (i v : Nat) : (s.setFld f i v).tcmKept = s.tcmKept := rfl
@[simp] theorem setFld_ports (f : Fld) (i v : Nat) : (s.setFld f i v).ports = s.ports := rfl
@[simp] theorem setFld_extest (f : Fld) (i v : Nat) : (s.setFld f i v).extest = s.extest := rfl
@[simp] theorem setFld_latch (f : Fld) (i v : Nat) : (s.setFld f i v).latch = s.latch := rfl
@[simp] theorem setFld_raised (f : Fld) (i v : Nat) : (s.setFld f i v).raised = s.raised := rfl
@[simp] theorem setFld_free (f : Fld) (i v : Nat) : (s.setFld f i v).free = s.free := rfl
@[simp] theorem setFld_pending (f : Fld) (i v : Nat) : (s.setFld f i v).pending = s.pending := rfl

/-! `setPair` writes `regs` alone. -/

@[simp] theorem setPair_now (lo hi : Reg) (i v : Nat) : (s.setPair lo hi i v).now = s.now := rfl
@[simp] theorem setPair_mem (lo hi : Reg) (i v : Nat) : (s.setPair lo hi i v).mem = s.mem := rfl
@[simp] theorem setPair_chk (lo hi : Reg) (i v : Nat) : (s.setPair lo hi i v).chk = s.chk := rfl
@[simp] theorem setPair_tags (lo hi : Reg) (i v : Nat) : (s.setPair lo hi i v).tags = s.tags := rfl
@[simp] theorem setPair_hist (lo hi : Reg) (i v : Nat) : (s.setPair lo hi i v).hist = s.hist := rfl
@[simp] theorem setPair_eng (lo hi : Reg) (i v : Nat) : (s.setPair lo hi i v).eng = s.eng := rfl
@[simp] theorem setPair_phys (lo hi : Reg) (i v : Nat) : (s.setPair lo hi i v).phys = s.phys := rfl
@[simp] theorem setPair_sq (lo hi : Reg) (i v : Nat) : (s.setPair lo hi i v).sq = s.sq := rfl
@[simp] theorem setPair_rx (lo hi : Reg) (i v : Nat) : (s.setPair lo hi i v).rx = s.rx := rfl
@[simp] theorem setPair_tinAt (lo hi : Reg) (i v : Nat) : (s.setPair lo hi i v).tinAt = s.tinAt := rfl
@[simp] theorem setPair_tinEc (lo hi : Reg) (i v : Nat) : (s.setPair lo hi i v).tinEc = s.tinEc := rfl
@[simp] theorem setPair_msgs (lo hi : Reg) (i v : Nat) : (s.setPair lo hi i v).msgs = s.msgs := rfl
@[simp] theorem setPair_wstores (lo hi : Reg) (i v : Nat) : (s.setPair lo hi i v).wstores = s.wstores := rfl
@[simp] theorem setPair_sched (lo hi : Reg) (i v : Nat) : (s.setPair lo hi i v).sched = s.sched := rfl
@[simp] theorem setPair_almLate (lo hi : Reg) (i v : Nat) : (s.setPair lo hi i v).almLate = s.almLate := rfl
@[simp] theorem setPair_eps (lo hi : Reg) (i v : Nat) : (s.setPair lo hi i v).eps = s.eps := rfl
@[simp] theorem setPair_notes (lo hi : Reg) (i v : Nat) : (s.setPair lo hi i v).notes = s.notes := rfl
@[simp] theorem setPair_window (lo hi : Reg) (i v : Nat) : (s.setPair lo hi i v).window = s.window := rfl
@[simp] theorem setPair_convs (lo hi : Reg) (i v : Nat) : (s.setPair lo hi i v).convs = s.convs := rfl
@[simp] theorem setPair_rots (lo hi : Reg) (i v : Nat) : (s.setPair lo hi i v).rots = s.rots := rfl
@[simp] theorem setPair_nets (lo hi : Reg) (i v : Nat) : (s.setPair lo hi i v).nets = s.nets := rfl
@[simp] theorem setPair_fltWas (lo hi : Reg) (i v : Nat) : (s.setPair lo hi i v).fltWas = s.fltWas := rfl
@[simp] theorem setPair_cmps (lo hi : Reg) (i v : Nat) : (s.setPair lo hi i v).cmps = s.cmps := rfl
@[simp] theorem setPair_ain (lo hi : Reg) (i v : Nat) : (s.setPair lo hi i v).ain = s.ain := rfl
@[simp] theorem setPair_sdis (lo hi : Reg) (i v : Nat) : (s.setPair lo hi i v).sdis = s.sdis := rfl
@[simp] theorem setPair_poss (lo hi : Reg) (i v : Nat) : (s.setPair lo hi i v).poss = s.poss := rfl
@[simp] theorem setPair_flipAt (lo hi : Reg) (i v : Nat) : (s.setPair lo hi i v).flipAt = s.flipAt := rfl
@[simp] theorem setPair_flights (lo hi : Reg) (i v : Nat) : (s.setPair lo hi i v).flights = s.flights := rfl
@[simp] theorem setPair_beaten (lo hi : Reg) (i v : Nat) : (s.setPair lo hi i v).beaten = s.beaten := rfl
@[simp] theorem setPair_counted (lo hi : Reg) (i v : Nat) : (s.setPair lo hi i v).counted = s.counted := rfl
@[simp] theorem setPair_chanAct (lo hi : Reg) (i v : Nat) : (s.setPair lo hi i v).chanAct = s.chanAct := rfl
@[simp] theorem setPair_dlks (lo hi : Reg) (i v : Nat) : (s.setPair lo hi i v).dlks = s.dlks := rfl
@[simp] theorem setPair_sup (lo hi : Reg) (i v : Nat) : (s.setPair lo hi i v).sup = s.sup := rfl
@[simp] theorem setPair_dma (lo hi : Reg) (i v : Nat) : (s.setPair lo hi i v).dma = s.dma := rfl
@[simp] theorem setPair_rdc (lo hi : Reg) (i v : Nat) : (s.setPair lo hi i v).rdc = s.rdc := rfl
@[simp] theorem setPair_joins (lo hi : Reg) (i v : Nat) : (s.setPair lo hi i v).joins = s.joins := rfl
@[simp] theorem setPair_scrubs (lo hi : Reg) (i v : Nat) : (s.setPair lo hi i v).scrubs = s.scrubs := rfl
@[simp] theorem setPair_laps (lo hi : Reg) (i v : Nat) : (s.setPair lo hi i v).laps = s.laps := rfl
@[simp] theorem setPair_spares (lo hi : Reg) (i v : Nat) : (s.setPair lo hi i v).spares = s.spares := rfl
@[simp] theorem setPair_wipe (lo hi : Reg) (i v : Nat) : (s.setPair lo hi i v).wipe = s.wipe := rfl
@[simp] theorem setPair_banks (lo hi : Reg) (i v : Nat) : (s.setPair lo hi i v).banks = s.banks := rfl
@[simp] theorem setPair_opt (lo hi : Reg) (i v : Nat) : (s.setPair lo hi i v).opt = s.opt := rfl
@[simp] theorem setPair_optBad (lo hi : Reg) (i v : Nat) : (s.setPair lo hi i v).optBad = s.optBad := rfl
@[simp] theorem setPair_life (lo hi : Reg) (i v : Nat) : (s.setPair lo hi i v).life = s.life := rfl
@[simp] theorem setPair_snaps (lo hi : Reg) (i v : Nat) : (s.setPair lo hi i v).snaps = s.snaps := rfl
@[simp] theorem setPair_posts (lo hi : Reg) (i v : Nat) : (s.setPair lo hi i v).posts = s.posts := rfl
@[simp] theorem setPair_staged (lo hi : Reg) (i v : Nat) : (s.setPair lo hi i v).staged = s.staged := rfl
@[simp] theorem setPair_gports (lo hi : Reg) (i v : Nat) : (s.setPair lo hi i v).gports = s.gports := rfl
@[simp] theorem setPair_greqs (lo hi : Reg) (i v : Nat) : (s.setPair lo hi i v).greqs = s.greqs := rfl
@[simp] theorem setPair_rgot (lo hi : Reg) (i v : Nat) : (s.setPair lo hi i v).rgot = s.rgot := rfl
@[simp] theorem setPair_gtag (lo hi : Reg) (i v : Nat) : (s.setPair lo hi i v).gtag = s.gtag := rfl
@[simp] theorem setPair_sync (lo hi : Reg) (i v : Nat) : (s.setPair lo hi i v).sync = s.sync := rfl
@[simp] theorem setPair_spiAt (lo hi : Reg) (i v : Nat) : (s.setPair lo hi i v).spiAt = s.spiAt := rfl
@[simp] theorem setPair_reply (lo hi : Reg) (i v : Nat) : (s.setPair lo hi i v).reply = s.reply := rfl
@[simp] theorem setPair_spiOut (lo hi : Reg) (i v : Nat) : (s.setPair lo hi i v).spiOut = s.spiOut := rfl
@[simp] theorem setPair_dreply (lo hi : Reg) (i v : Nat) : (s.setPair lo hi i v).dreply = s.dreply := rfl
@[simp] theorem setPair_msix (lo hi : Reg) (i v : Nat) : (s.setPair lo hi i v).msix = s.msix := rfl
@[simp] theorem setPair_straps (lo hi : Reg) (i v : Nat) : (s.setPair lo hi i v).straps = s.straps := rfl
@[simp] theorem setPair_meas (lo hi : Reg) (i v : Nat) : (s.setPair lo hi i v).meas = s.meas := rfl
@[simp] theorem setPair_measWas (lo hi : Reg) (i v : Nat) : (s.setPair lo hi i v).measWas = s.measWas := rfl
@[simp] theorem setPair_rail (lo hi : Reg) (i v : Nat) : (s.setPair lo hi i v).rail = s.rail := rfl
@[simp] theorem setPair_boot (lo hi : Reg) (i v : Nat) : (s.setPair lo hi i v).boot = s.boot := rfl
@[simp] theorem setPair_modeReq (lo hi : Reg) (i v : Nat) : (s.setPair lo hi i v).modeReq = s.modeReq := rfl
@[simp] theorem setPair_trans (lo hi : Reg) (i v : Nat) : (s.setPair lo hi i v).trans = s.trans := rfl
@[simp] theorem setPair_rising (lo hi : Reg) (i v : Nat) : (s.setPair lo hi i v).rising = s.rising := rfl
@[simp] theorem setPair_falling (lo hi : Reg) (i v : Nat) : (s.setPair lo hi i v).falling = s.falling := rfl
@[simp] theorem setPair_mainAt (lo hi : Reg) (i v : Nat) : (s.setPair lo hi i v).mainAt = s.mainAt := rfl
@[simp] theorem setPair_woke (lo hi : Reg) (i v : Nat) : (s.setPair lo hi i v).woke = s.woke := rfl
@[simp] theorem setPair_sleepAt (lo hi : Reg) (i v : Nat) : (s.setPair lo hi i v).sleepAt = s.sleepAt := rfl
@[simp] theorem setPair_wdAt (lo hi : Reg) (i v : Nat) : (s.setPair lo hi i v).wdAt = s.wdAt := rfl
@[simp] theorem setPair_block (lo hi : Reg) (i v : Nat) : (s.setPair lo hi i v).block = s.block := rfl
@[simp] theorem setPair_escDue (lo hi : Reg) (i v : Nat) : (s.setPair lo hi i v).escDue = s.escDue := rfl
@[simp] theorem setPair_safen (lo hi : Reg) (i v : Nat) : (s.setPair lo hi i v).safen = s.safen := rfl
@[simp] theorem setPair_safenAt (lo hi : Reg) (i v : Nat) : (s.setPair lo hi i v).safenAt = s.safenAt := rfl
@[simp] theorem setPair_lockAt (lo hi : Reg) (i v : Nat) : (s.setPair lo hi i v).lockAt = s.lockAt := rfl
@[simp] theorem setPair_snsOff (lo hi : Reg) (i v : Nat) : (s.setPair lo hi i v).snsOff = s.snsOff := rfl
@[simp] theorem setPair_supply (lo hi : Reg) (i v : Nat) : (s.setPair lo hi i v).supply = s.supply := rfl
@[simp] theorem setPair_rails (lo hi : Reg) (i v : Nat) : (s.setPair lo hi i v).rails = s.rails := rfl
@[simp] theorem setPair_escAt (lo hi : Reg) (i v : Nat) : (s.setPair lo hi i v).escAt = s.escAt := rfl
@[simp] theorem setPair_reqAt (lo hi : Reg) (i v : Nat) : (s.setPair lo hi i v).reqAt = s.reqAt := rfl
@[simp] theorem setPair_tcmKept (lo hi : Reg) (i v : Nat) : (s.setPair lo hi i v).tcmKept = s.tcmKept := rfl
@[simp] theorem setPair_ports (lo hi : Reg) (i v : Nat) : (s.setPair lo hi i v).ports = s.ports := rfl
@[simp] theorem setPair_extest (lo hi : Reg) (i v : Nat) : (s.setPair lo hi i v).extest = s.extest := rfl
@[simp] theorem setPair_latch (lo hi : Reg) (i v : Nat) : (s.setPair lo hi i v).latch = s.latch := rfl
@[simp] theorem setPair_raised (lo hi : Reg) (i v : Nat) : (s.setPair lo hi i v).raised = s.raised := rfl
@[simp] theorem setPair_free (lo hi : Reg) (i v : Nat) : (s.setPair lo hi i v).free = s.free := rfl
@[simp] theorem setPair_pending (lo hi : Reg) (i v : Nat) : (s.setPair lo hi i v).pending = s.pending := rfl

/-! `bump` writes `regs` alone. -/

@[simp] theorem bump_now (c x : Fld) (i : Nat) : (s.bump c x i).now = s.now := by unfold State.bump; dsimp only; split <;> rfl
@[simp] theorem bump_mem (c x : Fld) (i : Nat) : (s.bump c x i).mem = s.mem := by unfold State.bump; dsimp only; split <;> rfl
@[simp] theorem bump_chk (c x : Fld) (i : Nat) : (s.bump c x i).chk = s.chk := by unfold State.bump; dsimp only; split <;> rfl
@[simp] theorem bump_tags (c x : Fld) (i : Nat) : (s.bump c x i).tags = s.tags := by unfold State.bump; dsimp only; split <;> rfl
@[simp] theorem bump_hist (c x : Fld) (i : Nat) : (s.bump c x i).hist = s.hist := by unfold State.bump; dsimp only; split <;> rfl
@[simp] theorem bump_eng (c x : Fld) (i : Nat) : (s.bump c x i).eng = s.eng := by unfold State.bump; dsimp only; split <;> rfl
@[simp] theorem bump_phys (c x : Fld) (i : Nat) : (s.bump c x i).phys = s.phys := by unfold State.bump; dsimp only; split <;> rfl
@[simp] theorem bump_sq (c x : Fld) (i : Nat) : (s.bump c x i).sq = s.sq := by unfold State.bump; dsimp only; split <;> rfl
@[simp] theorem bump_rx (c x : Fld) (i : Nat) : (s.bump c x i).rx = s.rx := by unfold State.bump; dsimp only; split <;> rfl
@[simp] theorem bump_tinAt (c x : Fld) (i : Nat) : (s.bump c x i).tinAt = s.tinAt := by unfold State.bump; dsimp only; split <;> rfl
@[simp] theorem bump_tinEc (c x : Fld) (i : Nat) : (s.bump c x i).tinEc = s.tinEc := by unfold State.bump; dsimp only; split <;> rfl
@[simp] theorem bump_msgs (c x : Fld) (i : Nat) : (s.bump c x i).msgs = s.msgs := by unfold State.bump; dsimp only; split <;> rfl
@[simp] theorem bump_wstores (c x : Fld) (i : Nat) : (s.bump c x i).wstores = s.wstores := by unfold State.bump; dsimp only; split <;> rfl
@[simp] theorem bump_sched (c x : Fld) (i : Nat) : (s.bump c x i).sched = s.sched := by unfold State.bump; dsimp only; split <;> rfl
@[simp] theorem bump_almLate (c x : Fld) (i : Nat) : (s.bump c x i).almLate = s.almLate := by unfold State.bump; dsimp only; split <;> rfl
@[simp] theorem bump_eps (c x : Fld) (i : Nat) : (s.bump c x i).eps = s.eps := by unfold State.bump; dsimp only; split <;> rfl
@[simp] theorem bump_notes (c x : Fld) (i : Nat) : (s.bump c x i).notes = s.notes := by unfold State.bump; dsimp only; split <;> rfl
@[simp] theorem bump_window (c x : Fld) (i : Nat) : (s.bump c x i).window = s.window := by unfold State.bump; dsimp only; split <;> rfl
@[simp] theorem bump_convs (c x : Fld) (i : Nat) : (s.bump c x i).convs = s.convs := by unfold State.bump; dsimp only; split <;> rfl
@[simp] theorem bump_rots (c x : Fld) (i : Nat) : (s.bump c x i).rots = s.rots := by unfold State.bump; dsimp only; split <;> rfl
@[simp] theorem bump_nets (c x : Fld) (i : Nat) : (s.bump c x i).nets = s.nets := by unfold State.bump; dsimp only; split <;> rfl
@[simp] theorem bump_fltWas (c x : Fld) (i : Nat) : (s.bump c x i).fltWas = s.fltWas := by unfold State.bump; dsimp only; split <;> rfl
@[simp] theorem bump_cmps (c x : Fld) (i : Nat) : (s.bump c x i).cmps = s.cmps := by unfold State.bump; dsimp only; split <;> rfl
@[simp] theorem bump_ain (c x : Fld) (i : Nat) : (s.bump c x i).ain = s.ain := by unfold State.bump; dsimp only; split <;> rfl
@[simp] theorem bump_sdis (c x : Fld) (i : Nat) : (s.bump c x i).sdis = s.sdis := by unfold State.bump; dsimp only; split <;> rfl
@[simp] theorem bump_poss (c x : Fld) (i : Nat) : (s.bump c x i).poss = s.poss := by unfold State.bump; dsimp only; split <;> rfl
@[simp] theorem bump_flipAt (c x : Fld) (i : Nat) : (s.bump c x i).flipAt = s.flipAt := by unfold State.bump; dsimp only; split <;> rfl
@[simp] theorem bump_flights (c x : Fld) (i : Nat) : (s.bump c x i).flights = s.flights := by unfold State.bump; dsimp only; split <;> rfl
@[simp] theorem bump_beaten (c x : Fld) (i : Nat) : (s.bump c x i).beaten = s.beaten := by unfold State.bump; dsimp only; split <;> rfl
@[simp] theorem bump_chanAct (c x : Fld) (i : Nat) : (s.bump c x i).chanAct = s.chanAct := by unfold State.bump; dsimp only; split <;> rfl
@[simp] theorem bump_dlks (c x : Fld) (i : Nat) : (s.bump c x i).dlks = s.dlks := by unfold State.bump; dsimp only; split <;> rfl
@[simp] theorem bump_sup (c x : Fld) (i : Nat) : (s.bump c x i).sup = s.sup := by unfold State.bump; dsimp only; split <;> rfl
@[simp] theorem bump_dma (c x : Fld) (i : Nat) : (s.bump c x i).dma = s.dma := by unfold State.bump; dsimp only; split <;> rfl
@[simp] theorem bump_rdc (c x : Fld) (i : Nat) : (s.bump c x i).rdc = s.rdc := by unfold State.bump; dsimp only; split <;> rfl
@[simp] theorem bump_joins (c x : Fld) (i : Nat) : (s.bump c x i).joins = s.joins := by unfold State.bump; dsimp only; split <;> rfl
@[simp] theorem bump_scrubs (c x : Fld) (i : Nat) : (s.bump c x i).scrubs = s.scrubs := by unfold State.bump; dsimp only; split <;> rfl
@[simp] theorem bump_laps (c x : Fld) (i : Nat) : (s.bump c x i).laps = s.laps := by unfold State.bump; dsimp only; split <;> rfl
@[simp] theorem bump_spares (c x : Fld) (i : Nat) : (s.bump c x i).spares = s.spares := by unfold State.bump; dsimp only; split <;> rfl
@[simp] theorem bump_wipe (c x : Fld) (i : Nat) : (s.bump c x i).wipe = s.wipe := by unfold State.bump; dsimp only; split <;> rfl
@[simp] theorem bump_banks (c x : Fld) (i : Nat) : (s.bump c x i).banks = s.banks := by unfold State.bump; dsimp only; split <;> rfl
@[simp] theorem bump_opt (c x : Fld) (i : Nat) : (s.bump c x i).opt = s.opt := by unfold State.bump; dsimp only; split <;> rfl
@[simp] theorem bump_optBad (c x : Fld) (i : Nat) : (s.bump c x i).optBad = s.optBad := by unfold State.bump; dsimp only; split <;> rfl
@[simp] theorem bump_life (c x : Fld) (i : Nat) : (s.bump c x i).life = s.life := by unfold State.bump; dsimp only; split <;> rfl
@[simp] theorem bump_snaps (c x : Fld) (i : Nat) : (s.bump c x i).snaps = s.snaps := by unfold State.bump; dsimp only; split <;> rfl
@[simp] theorem bump_posts (c x : Fld) (i : Nat) : (s.bump c x i).posts = s.posts := by unfold State.bump; dsimp only; split <;> rfl
@[simp] theorem bump_staged (c x : Fld) (i : Nat) : (s.bump c x i).staged = s.staged := by unfold State.bump; dsimp only; split <;> rfl
@[simp] theorem bump_gports (c x : Fld) (i : Nat) : (s.bump c x i).gports = s.gports := by unfold State.bump; dsimp only; split <;> rfl
@[simp] theorem bump_greqs (c x : Fld) (i : Nat) : (s.bump c x i).greqs = s.greqs := by unfold State.bump; dsimp only; split <;> rfl
@[simp] theorem bump_rgot (c x : Fld) (i : Nat) : (s.bump c x i).rgot = s.rgot := by unfold State.bump; dsimp only; split <;> rfl
@[simp] theorem bump_gtag (c x : Fld) (i : Nat) : (s.bump c x i).gtag = s.gtag := by unfold State.bump; dsimp only; split <;> rfl
@[simp] theorem bump_sync (c x : Fld) (i : Nat) : (s.bump c x i).sync = s.sync := by unfold State.bump; dsimp only; split <;> rfl
@[simp] theorem bump_spiAt (c x : Fld) (i : Nat) : (s.bump c x i).spiAt = s.spiAt := by unfold State.bump; dsimp only; split <;> rfl
@[simp] theorem bump_reply (c x : Fld) (i : Nat) : (s.bump c x i).reply = s.reply := by unfold State.bump; dsimp only; split <;> rfl
@[simp] theorem bump_spiOut (c x : Fld) (i : Nat) : (s.bump c x i).spiOut = s.spiOut := by unfold State.bump; dsimp only; split <;> rfl
@[simp] theorem bump_dreply (c x : Fld) (i : Nat) : (s.bump c x i).dreply = s.dreply := by unfold State.bump; dsimp only; split <;> rfl
@[simp] theorem bump_msix (c x : Fld) (i : Nat) : (s.bump c x i).msix = s.msix := by unfold State.bump; dsimp only; split <;> rfl
@[simp] theorem bump_straps (c x : Fld) (i : Nat) : (s.bump c x i).straps = s.straps := by unfold State.bump; dsimp only; split <;> rfl
@[simp] theorem bump_meas (c x : Fld) (i : Nat) : (s.bump c x i).meas = s.meas := by unfold State.bump; dsimp only; split <;> rfl
@[simp] theorem bump_measWas (c x : Fld) (i : Nat) : (s.bump c x i).measWas = s.measWas := by unfold State.bump; dsimp only; split <;> rfl
@[simp] theorem bump_rail (c x : Fld) (i : Nat) : (s.bump c x i).rail = s.rail := by unfold State.bump; dsimp only; split <;> rfl
@[simp] theorem bump_boot (c x : Fld) (i : Nat) : (s.bump c x i).boot = s.boot := by unfold State.bump; dsimp only; split <;> rfl
@[simp] theorem bump_modeReq (c x : Fld) (i : Nat) : (s.bump c x i).modeReq = s.modeReq := by unfold State.bump; dsimp only; split <;> rfl
@[simp] theorem bump_trans (c x : Fld) (i : Nat) : (s.bump c x i).trans = s.trans := by unfold State.bump; dsimp only; split <;> rfl
@[simp] theorem bump_rising (c x : Fld) (i : Nat) : (s.bump c x i).rising = s.rising := by unfold State.bump; dsimp only; split <;> rfl
@[simp] theorem bump_falling (c x : Fld) (i : Nat) : (s.bump c x i).falling = s.falling := by unfold State.bump; dsimp only; split <;> rfl
@[simp] theorem bump_mainAt (c x : Fld) (i : Nat) : (s.bump c x i).mainAt = s.mainAt := by unfold State.bump; dsimp only; split <;> rfl
@[simp] theorem bump_woke (c x : Fld) (i : Nat) : (s.bump c x i).woke = s.woke := by unfold State.bump; dsimp only; split <;> rfl
@[simp] theorem bump_sleepAt (c x : Fld) (i : Nat) : (s.bump c x i).sleepAt = s.sleepAt := by unfold State.bump; dsimp only; split <;> rfl
@[simp] theorem bump_wdAt (c x : Fld) (i : Nat) : (s.bump c x i).wdAt = s.wdAt := by unfold State.bump; dsimp only; split <;> rfl
@[simp] theorem bump_block (c x : Fld) (i : Nat) : (s.bump c x i).block = s.block := by unfold State.bump; dsimp only; split <;> rfl
@[simp] theorem bump_escDue (c x : Fld) (i : Nat) : (s.bump c x i).escDue = s.escDue := by unfold State.bump; dsimp only; split <;> rfl
@[simp] theorem bump_safen (c x : Fld) (i : Nat) : (s.bump c x i).safen = s.safen := by unfold State.bump; dsimp only; split <;> rfl
@[simp] theorem bump_safenAt (c x : Fld) (i : Nat) : (s.bump c x i).safenAt = s.safenAt := by unfold State.bump; dsimp only; split <;> rfl
@[simp] theorem bump_lockAt (c x : Fld) (i : Nat) : (s.bump c x i).lockAt = s.lockAt := by unfold State.bump; dsimp only; split <;> rfl
@[simp] theorem bump_snsOff (c x : Fld) (i : Nat) : (s.bump c x i).snsOff = s.snsOff := by unfold State.bump; dsimp only; split <;> rfl
@[simp] theorem bump_supply (c x : Fld) (i : Nat) : (s.bump c x i).supply = s.supply := by unfold State.bump; dsimp only; split <;> rfl
@[simp] theorem bump_rails (c x : Fld) (i : Nat) : (s.bump c x i).rails = s.rails := by unfold State.bump; dsimp only; split <;> rfl
@[simp] theorem bump_escAt (c x : Fld) (i : Nat) : (s.bump c x i).escAt = s.escAt := by unfold State.bump; dsimp only; split <;> rfl
@[simp] theorem bump_reqAt (c x : Fld) (i : Nat) : (s.bump c x i).reqAt = s.reqAt := by unfold State.bump; dsimp only; split <;> rfl
@[simp] theorem bump_tcmKept (c x : Fld) (i : Nat) : (s.bump c x i).tcmKept = s.tcmKept := by unfold State.bump; dsimp only; split <;> rfl
@[simp] theorem bump_ports (c x : Fld) (i : Nat) : (s.bump c x i).ports = s.ports := by unfold State.bump; dsimp only; split <;> rfl
@[simp] theorem bump_extest (c x : Fld) (i : Nat) : (s.bump c x i).extest = s.extest := by unfold State.bump; dsimp only; split <;> rfl
@[simp] theorem bump_latch (c x : Fld) (i : Nat) : (s.bump c x i).latch = s.latch := by unfold State.bump; dsimp only; split <;> rfl
@[simp] theorem bump_raised (c x : Fld) (i : Nat) : (s.bump c x i).raised = s.raised := by unfold State.bump; dsimp only; split <;> rfl
@[simp] theorem bump_free (c x : Fld) (i : Nat) : (s.bump c x i).free = s.free := by unfold State.bump; dsimp only; split <;> rfl
@[simp] theorem bump_pending (c x : Fld) (i : Nat) : (s.bump c x i).pending = s.pending := by unfold State.bump; dsimp only; split <;> rfl

/-! `raiseEv` writes `raised` alone. -/

@[simp] theorem raiseEv_now (dm c u : Nat) : (s.raiseEv dm c u).now = s.now := by unfold State.raiseEv; split <;> rfl
@[simp] theorem raiseEv_regs (dm c u : Nat) : (s.raiseEv dm c u).regs = s.regs := by unfold State.raiseEv; split <;> rfl
@[simp] theorem raiseEv_mem (dm c u : Nat) : (s.raiseEv dm c u).mem = s.mem := by unfold State.raiseEv; split <;> rfl
@[simp] theorem raiseEv_chk (dm c u : Nat) : (s.raiseEv dm c u).chk = s.chk := by unfold State.raiseEv; split <;> rfl
@[simp] theorem raiseEv_tags (dm c u : Nat) : (s.raiseEv dm c u).tags = s.tags := by unfold State.raiseEv; split <;> rfl
@[simp] theorem raiseEv_hist (dm c u : Nat) : (s.raiseEv dm c u).hist = s.hist := by unfold State.raiseEv; split <;> rfl
@[simp] theorem raiseEv_eng (dm c u : Nat) : (s.raiseEv dm c u).eng = s.eng := by unfold State.raiseEv; split <;> rfl
@[simp] theorem raiseEv_phys (dm c u : Nat) : (s.raiseEv dm c u).phys = s.phys := by unfold State.raiseEv; split <;> rfl
@[simp] theorem raiseEv_sq (dm c u : Nat) : (s.raiseEv dm c u).sq = s.sq := by unfold State.raiseEv; split <;> rfl
@[simp] theorem raiseEv_rx (dm c u : Nat) : (s.raiseEv dm c u).rx = s.rx := by unfold State.raiseEv; split <;> rfl
@[simp] theorem raiseEv_tinAt (dm c u : Nat) : (s.raiseEv dm c u).tinAt = s.tinAt := by unfold State.raiseEv; split <;> rfl
@[simp] theorem raiseEv_tinEc (dm c u : Nat) : (s.raiseEv dm c u).tinEc = s.tinEc := by unfold State.raiseEv; split <;> rfl
@[simp] theorem raiseEv_msgs (dm c u : Nat) : (s.raiseEv dm c u).msgs = s.msgs := by unfold State.raiseEv; split <;> rfl
@[simp] theorem raiseEv_wstores (dm c u : Nat) : (s.raiseEv dm c u).wstores = s.wstores := by unfold State.raiseEv; split <;> rfl
@[simp] theorem raiseEv_sched (dm c u : Nat) : (s.raiseEv dm c u).sched = s.sched := by unfold State.raiseEv; split <;> rfl
@[simp] theorem raiseEv_almLate (dm c u : Nat) : (s.raiseEv dm c u).almLate = s.almLate := by unfold State.raiseEv; split <;> rfl
@[simp] theorem raiseEv_eps (dm c u : Nat) : (s.raiseEv dm c u).eps = s.eps := by unfold State.raiseEv; split <;> rfl
@[simp] theorem raiseEv_notes (dm c u : Nat) : (s.raiseEv dm c u).notes = s.notes := by unfold State.raiseEv; split <;> rfl
@[simp] theorem raiseEv_window (dm c u : Nat) : (s.raiseEv dm c u).window = s.window := by unfold State.raiseEv; split <;> rfl
@[simp] theorem raiseEv_convs (dm c u : Nat) : (s.raiseEv dm c u).convs = s.convs := by unfold State.raiseEv; split <;> rfl
@[simp] theorem raiseEv_rots (dm c u : Nat) : (s.raiseEv dm c u).rots = s.rots := by unfold State.raiseEv; split <;> rfl
@[simp] theorem raiseEv_nets (dm c u : Nat) : (s.raiseEv dm c u).nets = s.nets := by unfold State.raiseEv; split <;> rfl
@[simp] theorem raiseEv_fltWas (dm c u : Nat) : (s.raiseEv dm c u).fltWas = s.fltWas := by unfold State.raiseEv; split <;> rfl
@[simp] theorem raiseEv_cmps (dm c u : Nat) : (s.raiseEv dm c u).cmps = s.cmps := by unfold State.raiseEv; split <;> rfl
@[simp] theorem raiseEv_ain (dm c u : Nat) : (s.raiseEv dm c u).ain = s.ain := by unfold State.raiseEv; split <;> rfl
@[simp] theorem raiseEv_sdis (dm c u : Nat) : (s.raiseEv dm c u).sdis = s.sdis := by unfold State.raiseEv; split <;> rfl
@[simp] theorem raiseEv_poss (dm c u : Nat) : (s.raiseEv dm c u).poss = s.poss := by unfold State.raiseEv; split <;> rfl
@[simp] theorem raiseEv_flipAt (dm c u : Nat) : (s.raiseEv dm c u).flipAt = s.flipAt := by unfold State.raiseEv; split <;> rfl
@[simp] theorem raiseEv_flights (dm c u : Nat) : (s.raiseEv dm c u).flights = s.flights := by unfold State.raiseEv; split <;> rfl
@[simp] theorem raiseEv_beaten (dm c u : Nat) : (s.raiseEv dm c u).beaten = s.beaten := by unfold State.raiseEv; split <;> rfl
@[simp] theorem raiseEv_counted (dm c u : Nat) : (s.raiseEv dm c u).counted = s.counted := by unfold State.raiseEv; split <;> rfl
@[simp] theorem raiseEv_chanAct (dm c u : Nat) : (s.raiseEv dm c u).chanAct = s.chanAct := by unfold State.raiseEv; split <;> rfl
@[simp] theorem raiseEv_dlks (dm c u : Nat) : (s.raiseEv dm c u).dlks = s.dlks := by unfold State.raiseEv; split <;> rfl
@[simp] theorem raiseEv_sup (dm c u : Nat) : (s.raiseEv dm c u).sup = s.sup := by unfold State.raiseEv; split <;> rfl
@[simp] theorem raiseEv_dma (dm c u : Nat) : (s.raiseEv dm c u).dma = s.dma := by unfold State.raiseEv; split <;> rfl
@[simp] theorem raiseEv_rdc (dm c u : Nat) : (s.raiseEv dm c u).rdc = s.rdc := by unfold State.raiseEv; split <;> rfl
@[simp] theorem raiseEv_joins (dm c u : Nat) : (s.raiseEv dm c u).joins = s.joins := by unfold State.raiseEv; split <;> rfl
@[simp] theorem raiseEv_scrubs (dm c u : Nat) : (s.raiseEv dm c u).scrubs = s.scrubs := by unfold State.raiseEv; split <;> rfl
@[simp] theorem raiseEv_laps (dm c u : Nat) : (s.raiseEv dm c u).laps = s.laps := by unfold State.raiseEv; split <;> rfl
@[simp] theorem raiseEv_spares (dm c u : Nat) : (s.raiseEv dm c u).spares = s.spares := by unfold State.raiseEv; split <;> rfl
@[simp] theorem raiseEv_wipe (dm c u : Nat) : (s.raiseEv dm c u).wipe = s.wipe := by unfold State.raiseEv; split <;> rfl
@[simp] theorem raiseEv_banks (dm c u : Nat) : (s.raiseEv dm c u).banks = s.banks := by unfold State.raiseEv; split <;> rfl
@[simp] theorem raiseEv_opt (dm c u : Nat) : (s.raiseEv dm c u).opt = s.opt := by unfold State.raiseEv; split <;> rfl
@[simp] theorem raiseEv_optBad (dm c u : Nat) : (s.raiseEv dm c u).optBad = s.optBad := by unfold State.raiseEv; split <;> rfl
@[simp] theorem raiseEv_life (dm c u : Nat) : (s.raiseEv dm c u).life = s.life := by unfold State.raiseEv; split <;> rfl
@[simp] theorem raiseEv_snaps (dm c u : Nat) : (s.raiseEv dm c u).snaps = s.snaps := by unfold State.raiseEv; split <;> rfl
@[simp] theorem raiseEv_posts (dm c u : Nat) : (s.raiseEv dm c u).posts = s.posts := by unfold State.raiseEv; split <;> rfl
@[simp] theorem raiseEv_staged (dm c u : Nat) : (s.raiseEv dm c u).staged = s.staged := by unfold State.raiseEv; split <;> rfl
@[simp] theorem raiseEv_gports (dm c u : Nat) : (s.raiseEv dm c u).gports = s.gports := by unfold State.raiseEv; split <;> rfl
@[simp] theorem raiseEv_greqs (dm c u : Nat) : (s.raiseEv dm c u).greqs = s.greqs := by unfold State.raiseEv; split <;> rfl
@[simp] theorem raiseEv_rgot (dm c u : Nat) : (s.raiseEv dm c u).rgot = s.rgot := by unfold State.raiseEv; split <;> rfl
@[simp] theorem raiseEv_gtag (dm c u : Nat) : (s.raiseEv dm c u).gtag = s.gtag := by unfold State.raiseEv; split <;> rfl
@[simp] theorem raiseEv_sync (dm c u : Nat) : (s.raiseEv dm c u).sync = s.sync := by unfold State.raiseEv; split <;> rfl
@[simp] theorem raiseEv_spiAt (dm c u : Nat) : (s.raiseEv dm c u).spiAt = s.spiAt := by unfold State.raiseEv; split <;> rfl
@[simp] theorem raiseEv_reply (dm c u : Nat) : (s.raiseEv dm c u).reply = s.reply := by unfold State.raiseEv; split <;> rfl
@[simp] theorem raiseEv_spiOut (dm c u : Nat) : (s.raiseEv dm c u).spiOut = s.spiOut := by unfold State.raiseEv; split <;> rfl
@[simp] theorem raiseEv_dreply (dm c u : Nat) : (s.raiseEv dm c u).dreply = s.dreply := by unfold State.raiseEv; split <;> rfl
@[simp] theorem raiseEv_msix (dm c u : Nat) : (s.raiseEv dm c u).msix = s.msix := by unfold State.raiseEv; split <;> rfl
@[simp] theorem raiseEv_straps (dm c u : Nat) : (s.raiseEv dm c u).straps = s.straps := by unfold State.raiseEv; split <;> rfl
@[simp] theorem raiseEv_meas (dm c u : Nat) : (s.raiseEv dm c u).meas = s.meas := by unfold State.raiseEv; split <;> rfl
@[simp] theorem raiseEv_measWas (dm c u : Nat) : (s.raiseEv dm c u).measWas = s.measWas := by unfold State.raiseEv; split <;> rfl
@[simp] theorem raiseEv_rail (dm c u : Nat) : (s.raiseEv dm c u).rail = s.rail := by unfold State.raiseEv; split <;> rfl
@[simp] theorem raiseEv_boot (dm c u : Nat) : (s.raiseEv dm c u).boot = s.boot := by unfold State.raiseEv; split <;> rfl
@[simp] theorem raiseEv_modeReq (dm c u : Nat) : (s.raiseEv dm c u).modeReq = s.modeReq := by unfold State.raiseEv; split <;> rfl
@[simp] theorem raiseEv_trans (dm c u : Nat) : (s.raiseEv dm c u).trans = s.trans := by unfold State.raiseEv; split <;> rfl
@[simp] theorem raiseEv_rising (dm c u : Nat) : (s.raiseEv dm c u).rising = s.rising := by unfold State.raiseEv; split <;> rfl
@[simp] theorem raiseEv_falling (dm c u : Nat) : (s.raiseEv dm c u).falling = s.falling := by unfold State.raiseEv; split <;> rfl
@[simp] theorem raiseEv_mainAt (dm c u : Nat) : (s.raiseEv dm c u).mainAt = s.mainAt := by unfold State.raiseEv; split <;> rfl
@[simp] theorem raiseEv_woke (dm c u : Nat) : (s.raiseEv dm c u).woke = s.woke := by unfold State.raiseEv; split <;> rfl
@[simp] theorem raiseEv_sleepAt (dm c u : Nat) : (s.raiseEv dm c u).sleepAt = s.sleepAt := by unfold State.raiseEv; split <;> rfl
@[simp] theorem raiseEv_wdAt (dm c u : Nat) : (s.raiseEv dm c u).wdAt = s.wdAt := by unfold State.raiseEv; split <;> rfl
@[simp] theorem raiseEv_block (dm c u : Nat) : (s.raiseEv dm c u).block = s.block := by unfold State.raiseEv; split <;> rfl
@[simp] theorem raiseEv_escDue (dm c u : Nat) : (s.raiseEv dm c u).escDue = s.escDue := by unfold State.raiseEv; split <;> rfl
@[simp] theorem raiseEv_safen (dm c u : Nat) : (s.raiseEv dm c u).safen = s.safen := by unfold State.raiseEv; split <;> rfl
@[simp] theorem raiseEv_safenAt (dm c u : Nat) : (s.raiseEv dm c u).safenAt = s.safenAt := by unfold State.raiseEv; split <;> rfl
@[simp] theorem raiseEv_lockAt (dm c u : Nat) : (s.raiseEv dm c u).lockAt = s.lockAt := by unfold State.raiseEv; split <;> rfl
@[simp] theorem raiseEv_snsOff (dm c u : Nat) : (s.raiseEv dm c u).snsOff = s.snsOff := by unfold State.raiseEv; split <;> rfl
@[simp] theorem raiseEv_supply (dm c u : Nat) : (s.raiseEv dm c u).supply = s.supply := by unfold State.raiseEv; split <;> rfl
@[simp] theorem raiseEv_rails (dm c u : Nat) : (s.raiseEv dm c u).rails = s.rails := by unfold State.raiseEv; split <;> rfl
@[simp] theorem raiseEv_escAt (dm c u : Nat) : (s.raiseEv dm c u).escAt = s.escAt := by unfold State.raiseEv; split <;> rfl
@[simp] theorem raiseEv_reqAt (dm c u : Nat) : (s.raiseEv dm c u).reqAt = s.reqAt := by unfold State.raiseEv; split <;> rfl
@[simp] theorem raiseEv_tcmKept (dm c u : Nat) : (s.raiseEv dm c u).tcmKept = s.tcmKept := by unfold State.raiseEv; split <;> rfl
@[simp] theorem raiseEv_ports (dm c u : Nat) : (s.raiseEv dm c u).ports = s.ports := by unfold State.raiseEv; split <;> rfl
@[simp] theorem raiseEv_extest (dm c u : Nat) : (s.raiseEv dm c u).extest = s.extest := by unfold State.raiseEv; split <;> rfl
@[simp] theorem raiseEv_latch (dm c u : Nat) : (s.raiseEv dm c u).latch = s.latch := by unfold State.raiseEv; split <;> rfl
@[simp] theorem raiseEv_free (dm c u : Nat) : (s.raiseEv dm c u).free = s.free := by unfold State.raiseEv; split <;> rfl
@[simp] theorem raiseEv_pending (dm c u : Nat) : (s.raiseEv dm c u).pending = s.pending := by unfold State.raiseEv; split <;> rfl

/-! `setByte` writes `mem` alone. -/

@[simp] theorem setByte_now (a : Nat) (v : Byte) : (s.setByte a v).now = s.now := rfl
@[simp] theorem setByte_regs (a : Nat) (v : Byte) : (s.setByte a v).regs = s.regs := rfl
@[simp] theorem setByte_chk (a : Nat) (v : Byte) : (s.setByte a v).chk = s.chk := rfl
@[simp] theorem setByte_tags (a : Nat) (v : Byte) : (s.setByte a v).tags = s.tags := rfl
@[simp] theorem setByte_hist (a : Nat) (v : Byte) : (s.setByte a v).hist = s.hist := rfl
@[simp] theorem setByte_eng (a : Nat) (v : Byte) : (s.setByte a v).eng = s.eng := rfl
@[simp] theorem setByte_phys (a : Nat) (v : Byte) : (s.setByte a v).phys = s.phys := rfl
@[simp] theorem setByte_sq (a : Nat) (v : Byte) : (s.setByte a v).sq = s.sq := rfl
@[simp] theorem setByte_rx (a : Nat) (v : Byte) : (s.setByte a v).rx = s.rx := rfl
@[simp] theorem setByte_tinAt (a : Nat) (v : Byte) : (s.setByte a v).tinAt = s.tinAt := rfl
@[simp] theorem setByte_tinEc (a : Nat) (v : Byte) : (s.setByte a v).tinEc = s.tinEc := rfl
@[simp] theorem setByte_msgs (a : Nat) (v : Byte) : (s.setByte a v).msgs = s.msgs := rfl
@[simp] theorem setByte_wstores (a : Nat) (v : Byte) : (s.setByte a v).wstores = s.wstores := rfl
@[simp] theorem setByte_sched (a : Nat) (v : Byte) : (s.setByte a v).sched = s.sched := rfl
@[simp] theorem setByte_almLate (a : Nat) (v : Byte) : (s.setByte a v).almLate = s.almLate := rfl
@[simp] theorem setByte_eps (a : Nat) (v : Byte) : (s.setByte a v).eps = s.eps := rfl
@[simp] theorem setByte_notes (a : Nat) (v : Byte) : (s.setByte a v).notes = s.notes := rfl
@[simp] theorem setByte_window (a : Nat) (v : Byte) : (s.setByte a v).window = s.window := rfl
@[simp] theorem setByte_convs (a : Nat) (v : Byte) : (s.setByte a v).convs = s.convs := rfl
@[simp] theorem setByte_rots (a : Nat) (v : Byte) : (s.setByte a v).rots = s.rots := rfl
@[simp] theorem setByte_nets (a : Nat) (v : Byte) : (s.setByte a v).nets = s.nets := rfl
@[simp] theorem setByte_fltWas (a : Nat) (v : Byte) : (s.setByte a v).fltWas = s.fltWas := rfl
@[simp] theorem setByte_cmps (a : Nat) (v : Byte) : (s.setByte a v).cmps = s.cmps := rfl
@[simp] theorem setByte_ain (a : Nat) (v : Byte) : (s.setByte a v).ain = s.ain := rfl
@[simp] theorem setByte_sdis (a : Nat) (v : Byte) : (s.setByte a v).sdis = s.sdis := rfl
@[simp] theorem setByte_poss (a : Nat) (v : Byte) : (s.setByte a v).poss = s.poss := rfl
@[simp] theorem setByte_flipAt (a : Nat) (v : Byte) : (s.setByte a v).flipAt = s.flipAt := rfl
@[simp] theorem setByte_flights (a : Nat) (v : Byte) : (s.setByte a v).flights = s.flights := rfl
@[simp] theorem setByte_beaten (a : Nat) (v : Byte) : (s.setByte a v).beaten = s.beaten := rfl
@[simp] theorem setByte_counted (a : Nat) (v : Byte) : (s.setByte a v).counted = s.counted := rfl
@[simp] theorem setByte_chanAct (a : Nat) (v : Byte) : (s.setByte a v).chanAct = s.chanAct := rfl
@[simp] theorem setByte_dlks (a : Nat) (v : Byte) : (s.setByte a v).dlks = s.dlks := rfl
@[simp] theorem setByte_sup (a : Nat) (v : Byte) : (s.setByte a v).sup = s.sup := rfl
@[simp] theorem setByte_dma (a : Nat) (v : Byte) : (s.setByte a v).dma = s.dma := rfl
@[simp] theorem setByte_rdc (a : Nat) (v : Byte) : (s.setByte a v).rdc = s.rdc := rfl
@[simp] theorem setByte_joins (a : Nat) (v : Byte) : (s.setByte a v).joins = s.joins := rfl
@[simp] theorem setByte_scrubs (a : Nat) (v : Byte) : (s.setByte a v).scrubs = s.scrubs := rfl
@[simp] theorem setByte_laps (a : Nat) (v : Byte) : (s.setByte a v).laps = s.laps := rfl
@[simp] theorem setByte_spares (a : Nat) (v : Byte) : (s.setByte a v).spares = s.spares := rfl
@[simp] theorem setByte_wipe (a : Nat) (v : Byte) : (s.setByte a v).wipe = s.wipe := rfl
@[simp] theorem setByte_banks (a : Nat) (v : Byte) : (s.setByte a v).banks = s.banks := rfl
@[simp] theorem setByte_opt (a : Nat) (v : Byte) : (s.setByte a v).opt = s.opt := rfl
@[simp] theorem setByte_optBad (a : Nat) (v : Byte) : (s.setByte a v).optBad = s.optBad := rfl
@[simp] theorem setByte_life (a : Nat) (v : Byte) : (s.setByte a v).life = s.life := rfl
@[simp] theorem setByte_snaps (a : Nat) (v : Byte) : (s.setByte a v).snaps = s.snaps := rfl
@[simp] theorem setByte_posts (a : Nat) (v : Byte) : (s.setByte a v).posts = s.posts := rfl
@[simp] theorem setByte_staged (a : Nat) (v : Byte) : (s.setByte a v).staged = s.staged := rfl
@[simp] theorem setByte_gports (a : Nat) (v : Byte) : (s.setByte a v).gports = s.gports := rfl
@[simp] theorem setByte_greqs (a : Nat) (v : Byte) : (s.setByte a v).greqs = s.greqs := rfl
@[simp] theorem setByte_rgot (a : Nat) (v : Byte) : (s.setByte a v).rgot = s.rgot := rfl
@[simp] theorem setByte_gtag (a : Nat) (v : Byte) : (s.setByte a v).gtag = s.gtag := rfl
@[simp] theorem setByte_sync (a : Nat) (v : Byte) : (s.setByte a v).sync = s.sync := rfl
@[simp] theorem setByte_spiAt (a : Nat) (v : Byte) : (s.setByte a v).spiAt = s.spiAt := rfl
@[simp] theorem setByte_reply (a : Nat) (v : Byte) : (s.setByte a v).reply = s.reply := rfl
@[simp] theorem setByte_spiOut (a : Nat) (v : Byte) : (s.setByte a v).spiOut = s.spiOut := rfl
@[simp] theorem setByte_dreply (a : Nat) (v : Byte) : (s.setByte a v).dreply = s.dreply := rfl
@[simp] theorem setByte_msix (a : Nat) (v : Byte) : (s.setByte a v).msix = s.msix := rfl
@[simp] theorem setByte_straps (a : Nat) (v : Byte) : (s.setByte a v).straps = s.straps := rfl
@[simp] theorem setByte_meas (a : Nat) (v : Byte) : (s.setByte a v).meas = s.meas := rfl
@[simp] theorem setByte_measWas (a : Nat) (v : Byte) : (s.setByte a v).measWas = s.measWas := rfl
@[simp] theorem setByte_rail (a : Nat) (v : Byte) : (s.setByte a v).rail = s.rail := rfl
@[simp] theorem setByte_boot (a : Nat) (v : Byte) : (s.setByte a v).boot = s.boot := rfl
@[simp] theorem setByte_modeReq (a : Nat) (v : Byte) : (s.setByte a v).modeReq = s.modeReq := rfl
@[simp] theorem setByte_trans (a : Nat) (v : Byte) : (s.setByte a v).trans = s.trans := rfl
@[simp] theorem setByte_rising (a : Nat) (v : Byte) : (s.setByte a v).rising = s.rising := rfl
@[simp] theorem setByte_falling (a : Nat) (v : Byte) : (s.setByte a v).falling = s.falling := rfl
@[simp] theorem setByte_mainAt (a : Nat) (v : Byte) : (s.setByte a v).mainAt = s.mainAt := rfl
@[simp] theorem setByte_woke (a : Nat) (v : Byte) : (s.setByte a v).woke = s.woke := rfl
@[simp] theorem setByte_sleepAt (a : Nat) (v : Byte) : (s.setByte a v).sleepAt = s.sleepAt := rfl
@[simp] theorem setByte_wdAt (a : Nat) (v : Byte) : (s.setByte a v).wdAt = s.wdAt := rfl
@[simp] theorem setByte_block (a : Nat) (v : Byte) : (s.setByte a v).block = s.block := rfl
@[simp] theorem setByte_escDue (a : Nat) (v : Byte) : (s.setByte a v).escDue = s.escDue := rfl
@[simp] theorem setByte_safen (a : Nat) (v : Byte) : (s.setByte a v).safen = s.safen := rfl
@[simp] theorem setByte_safenAt (a : Nat) (v : Byte) : (s.setByte a v).safenAt = s.safenAt := rfl
@[simp] theorem setByte_lockAt (a : Nat) (v : Byte) : (s.setByte a v).lockAt = s.lockAt := rfl
@[simp] theorem setByte_snsOff (a : Nat) (v : Byte) : (s.setByte a v).snsOff = s.snsOff := rfl
@[simp] theorem setByte_supply (a : Nat) (v : Byte) : (s.setByte a v).supply = s.supply := rfl
@[simp] theorem setByte_rails (a : Nat) (v : Byte) : (s.setByte a v).rails = s.rails := rfl
@[simp] theorem setByte_escAt (a : Nat) (v : Byte) : (s.setByte a v).escAt = s.escAt := rfl
@[simp] theorem setByte_reqAt (a : Nat) (v : Byte) : (s.setByte a v).reqAt = s.reqAt := rfl
@[simp] theorem setByte_tcmKept (a : Nat) (v : Byte) : (s.setByte a v).tcmKept = s.tcmKept := rfl
@[simp] theorem setByte_ports (a : Nat) (v : Byte) : (s.setByte a v).ports = s.ports := rfl
@[simp] theorem setByte_extest (a : Nat) (v : Byte) : (s.setByte a v).extest = s.extest := rfl
@[simp] theorem setByte_latch (a : Nat) (v : Byte) : (s.setByte a v).latch = s.latch := rfl
@[simp] theorem setByte_raised (a : Nat) (v : Byte) : (s.setByte a v).raised = s.raised := rfl
@[simp] theorem setByte_free (a : Nat) (v : Byte) : (s.setByte a v).free = s.free := rfl
@[simp] theorem setByte_pending (a : Nat) (v : Byte) : (s.setByte a v).pending = s.pending := rfl

/-! `setChk` writes `chk` alone. -/

@[simp] theorem setChk_now (a : Nat) (c : Chk) : (s.setChk a c).now = s.now := rfl
@[simp] theorem setChk_regs (a : Nat) (c : Chk) : (s.setChk a c).regs = s.regs := rfl
@[simp] theorem setChk_mem (a : Nat) (c : Chk) : (s.setChk a c).mem = s.mem := rfl
@[simp] theorem setChk_tags (a : Nat) (c : Chk) : (s.setChk a c).tags = s.tags := rfl
@[simp] theorem setChk_hist (a : Nat) (c : Chk) : (s.setChk a c).hist = s.hist := rfl
@[simp] theorem setChk_eng (a : Nat) (c : Chk) : (s.setChk a c).eng = s.eng := rfl
@[simp] theorem setChk_phys (a : Nat) (c : Chk) : (s.setChk a c).phys = s.phys := rfl
@[simp] theorem setChk_sq (a : Nat) (c : Chk) : (s.setChk a c).sq = s.sq := rfl
@[simp] theorem setChk_rx (a : Nat) (c : Chk) : (s.setChk a c).rx = s.rx := rfl
@[simp] theorem setChk_tinAt (a : Nat) (c : Chk) : (s.setChk a c).tinAt = s.tinAt := rfl
@[simp] theorem setChk_tinEc (a : Nat) (c : Chk) : (s.setChk a c).tinEc = s.tinEc := rfl
@[simp] theorem setChk_msgs (a : Nat) (c : Chk) : (s.setChk a c).msgs = s.msgs := rfl
@[simp] theorem setChk_wstores (a : Nat) (c : Chk) : (s.setChk a c).wstores = s.wstores := rfl
@[simp] theorem setChk_sched (a : Nat) (c : Chk) : (s.setChk a c).sched = s.sched := rfl
@[simp] theorem setChk_almLate (a : Nat) (c : Chk) : (s.setChk a c).almLate = s.almLate := rfl
@[simp] theorem setChk_eps (a : Nat) (c : Chk) : (s.setChk a c).eps = s.eps := rfl
@[simp] theorem setChk_notes (a : Nat) (c : Chk) : (s.setChk a c).notes = s.notes := rfl
@[simp] theorem setChk_window (a : Nat) (c : Chk) : (s.setChk a c).window = s.window := rfl
@[simp] theorem setChk_convs (a : Nat) (c : Chk) : (s.setChk a c).convs = s.convs := rfl
@[simp] theorem setChk_rots (a : Nat) (c : Chk) : (s.setChk a c).rots = s.rots := rfl
@[simp] theorem setChk_nets (a : Nat) (c : Chk) : (s.setChk a c).nets = s.nets := rfl
@[simp] theorem setChk_fltWas (a : Nat) (c : Chk) : (s.setChk a c).fltWas = s.fltWas := rfl
@[simp] theorem setChk_cmps (a : Nat) (c : Chk) : (s.setChk a c).cmps = s.cmps := rfl
@[simp] theorem setChk_ain (a : Nat) (c : Chk) : (s.setChk a c).ain = s.ain := rfl
@[simp] theorem setChk_sdis (a : Nat) (c : Chk) : (s.setChk a c).sdis = s.sdis := rfl
@[simp] theorem setChk_poss (a : Nat) (c : Chk) : (s.setChk a c).poss = s.poss := rfl
@[simp] theorem setChk_flipAt (a : Nat) (c : Chk) : (s.setChk a c).flipAt = s.flipAt := rfl
@[simp] theorem setChk_flights (a : Nat) (c : Chk) : (s.setChk a c).flights = s.flights := rfl
@[simp] theorem setChk_beaten (a : Nat) (c : Chk) : (s.setChk a c).beaten = s.beaten := rfl
@[simp] theorem setChk_counted (a : Nat) (c : Chk) : (s.setChk a c).counted = s.counted := rfl
@[simp] theorem setChk_chanAct (a : Nat) (c : Chk) : (s.setChk a c).chanAct = s.chanAct := rfl
@[simp] theorem setChk_dlks (a : Nat) (c : Chk) : (s.setChk a c).dlks = s.dlks := rfl
@[simp] theorem setChk_sup (a : Nat) (c : Chk) : (s.setChk a c).sup = s.sup := rfl
@[simp] theorem setChk_dma (a : Nat) (c : Chk) : (s.setChk a c).dma = s.dma := rfl
@[simp] theorem setChk_rdc (a : Nat) (c : Chk) : (s.setChk a c).rdc = s.rdc := rfl
@[simp] theorem setChk_joins (a : Nat) (c : Chk) : (s.setChk a c).joins = s.joins := rfl
@[simp] theorem setChk_scrubs (a : Nat) (c : Chk) : (s.setChk a c).scrubs = s.scrubs := rfl
@[simp] theorem setChk_laps (a : Nat) (c : Chk) : (s.setChk a c).laps = s.laps := rfl
@[simp] theorem setChk_spares (a : Nat) (c : Chk) : (s.setChk a c).spares = s.spares := rfl
@[simp] theorem setChk_wipe (a : Nat) (c : Chk) : (s.setChk a c).wipe = s.wipe := rfl
@[simp] theorem setChk_banks (a : Nat) (c : Chk) : (s.setChk a c).banks = s.banks := rfl
@[simp] theorem setChk_opt (a : Nat) (c : Chk) : (s.setChk a c).opt = s.opt := rfl
@[simp] theorem setChk_optBad (a : Nat) (c : Chk) : (s.setChk a c).optBad = s.optBad := rfl
@[simp] theorem setChk_life (a : Nat) (c : Chk) : (s.setChk a c).life = s.life := rfl
@[simp] theorem setChk_snaps (a : Nat) (c : Chk) : (s.setChk a c).snaps = s.snaps := rfl
@[simp] theorem setChk_posts (a : Nat) (c : Chk) : (s.setChk a c).posts = s.posts := rfl
@[simp] theorem setChk_staged (a : Nat) (c : Chk) : (s.setChk a c).staged = s.staged := rfl
@[simp] theorem setChk_gports (a : Nat) (c : Chk) : (s.setChk a c).gports = s.gports := rfl
@[simp] theorem setChk_greqs (a : Nat) (c : Chk) : (s.setChk a c).greqs = s.greqs := rfl
@[simp] theorem setChk_rgot (a : Nat) (c : Chk) : (s.setChk a c).rgot = s.rgot := rfl
@[simp] theorem setChk_gtag (a : Nat) (c : Chk) : (s.setChk a c).gtag = s.gtag := rfl
@[simp] theorem setChk_sync (a : Nat) (c : Chk) : (s.setChk a c).sync = s.sync := rfl
@[simp] theorem setChk_spiAt (a : Nat) (c : Chk) : (s.setChk a c).spiAt = s.spiAt := rfl
@[simp] theorem setChk_reply (a : Nat) (c : Chk) : (s.setChk a c).reply = s.reply := rfl
@[simp] theorem setChk_spiOut (a : Nat) (c : Chk) : (s.setChk a c).spiOut = s.spiOut := rfl
@[simp] theorem setChk_dreply (a : Nat) (c : Chk) : (s.setChk a c).dreply = s.dreply := rfl
@[simp] theorem setChk_msix (a : Nat) (c : Chk) : (s.setChk a c).msix = s.msix := rfl
@[simp] theorem setChk_straps (a : Nat) (c : Chk) : (s.setChk a c).straps = s.straps := rfl
@[simp] theorem setChk_meas (a : Nat) (c : Chk) : (s.setChk a c).meas = s.meas := rfl
@[simp] theorem setChk_measWas (a : Nat) (c : Chk) : (s.setChk a c).measWas = s.measWas := rfl
@[simp] theorem setChk_rail (a : Nat) (c : Chk) : (s.setChk a c).rail = s.rail := rfl
@[simp] theorem setChk_boot (a : Nat) (c : Chk) : (s.setChk a c).boot = s.boot := rfl
@[simp] theorem setChk_modeReq (a : Nat) (c : Chk) : (s.setChk a c).modeReq = s.modeReq := rfl
@[simp] theorem setChk_trans (a : Nat) (c : Chk) : (s.setChk a c).trans = s.trans := rfl
@[simp] theorem setChk_rising (a : Nat) (c : Chk) : (s.setChk a c).rising = s.rising := rfl
@[simp] theorem setChk_falling (a : Nat) (c : Chk) : (s.setChk a c).falling = s.falling := rfl
@[simp] theorem setChk_mainAt (a : Nat) (c : Chk) : (s.setChk a c).mainAt = s.mainAt := rfl
@[simp] theorem setChk_woke (a : Nat) (c : Chk) : (s.setChk a c).woke = s.woke := rfl
@[simp] theorem setChk_sleepAt (a : Nat) (c : Chk) : (s.setChk a c).sleepAt = s.sleepAt := rfl
@[simp] theorem setChk_wdAt (a : Nat) (c : Chk) : (s.setChk a c).wdAt = s.wdAt := rfl
@[simp] theorem setChk_block (a : Nat) (c : Chk) : (s.setChk a c).block = s.block := rfl
@[simp] theorem setChk_escDue (a : Nat) (c : Chk) : (s.setChk a c).escDue = s.escDue := rfl
@[simp] theorem setChk_safen (a : Nat) (c : Chk) : (s.setChk a c).safen = s.safen := rfl
@[simp] theorem setChk_safenAt (a : Nat) (c : Chk) : (s.setChk a c).safenAt = s.safenAt := rfl
@[simp] theorem setChk_lockAt (a : Nat) (c : Chk) : (s.setChk a c).lockAt = s.lockAt := rfl
@[simp] theorem setChk_snsOff (a : Nat) (c : Chk) : (s.setChk a c).snsOff = s.snsOff := rfl
@[simp] theorem setChk_supply (a : Nat) (c : Chk) : (s.setChk a c).supply = s.supply := rfl
@[simp] theorem setChk_rails (a : Nat) (c : Chk) : (s.setChk a c).rails = s.rails := rfl
@[simp] theorem setChk_escAt (a : Nat) (c : Chk) : (s.setChk a c).escAt = s.escAt := rfl
@[simp] theorem setChk_reqAt (a : Nat) (c : Chk) : (s.setChk a c).reqAt = s.reqAt := rfl
@[simp] theorem setChk_tcmKept (a : Nat) (c : Chk) : (s.setChk a c).tcmKept = s.tcmKept := rfl
@[simp] theorem setChk_ports (a : Nat) (c : Chk) : (s.setChk a c).ports = s.ports := rfl
@[simp] theorem setChk_extest (a : Nat) (c : Chk) : (s.setChk a c).extest = s.extest := rfl
@[simp] theorem setChk_latch (a : Nat) (c : Chk) : (s.setChk a c).latch = s.latch := rfl
@[simp] theorem setChk_raised (a : Nat) (c : Chk) : (s.setChk a c).raised = s.raised := rfl
@[simp] theorem setChk_free (a : Nat) (c : Chk) : (s.setChk a c).free = s.free := rfl
@[simp] theorem setChk_pending (a : Nat) (c : Chk) : (s.setChk a c).pending = s.pending := rfl

/-! `setTag` writes `tags` alone. -/

@[simp] theorem setTag_now (a : Nat) (b : Bool) : (s.setTag a b).now = s.now := rfl
@[simp] theorem setTag_regs (a : Nat) (b : Bool) : (s.setTag a b).regs = s.regs := rfl
@[simp] theorem setTag_mem (a : Nat) (b : Bool) : (s.setTag a b).mem = s.mem := rfl
@[simp] theorem setTag_chk (a : Nat) (b : Bool) : (s.setTag a b).chk = s.chk := rfl
@[simp] theorem setTag_hist (a : Nat) (b : Bool) : (s.setTag a b).hist = s.hist := rfl
@[simp] theorem setTag_eng (a : Nat) (b : Bool) : (s.setTag a b).eng = s.eng := rfl
@[simp] theorem setTag_phys (a : Nat) (b : Bool) : (s.setTag a b).phys = s.phys := rfl
@[simp] theorem setTag_sq (a : Nat) (b : Bool) : (s.setTag a b).sq = s.sq := rfl
@[simp] theorem setTag_rx (a : Nat) (b : Bool) : (s.setTag a b).rx = s.rx := rfl
@[simp] theorem setTag_tinAt (a : Nat) (b : Bool) : (s.setTag a b).tinAt = s.tinAt := rfl
@[simp] theorem setTag_tinEc (a : Nat) (b : Bool) : (s.setTag a b).tinEc = s.tinEc := rfl
@[simp] theorem setTag_msgs (a : Nat) (b : Bool) : (s.setTag a b).msgs = s.msgs := rfl
@[simp] theorem setTag_wstores (a : Nat) (b : Bool) : (s.setTag a b).wstores = s.wstores := rfl
@[simp] theorem setTag_sched (a : Nat) (b : Bool) : (s.setTag a b).sched = s.sched := rfl
@[simp] theorem setTag_almLate (a : Nat) (b : Bool) : (s.setTag a b).almLate = s.almLate := rfl
@[simp] theorem setTag_eps (a : Nat) (b : Bool) : (s.setTag a b).eps = s.eps := rfl
@[simp] theorem setTag_notes (a : Nat) (b : Bool) : (s.setTag a b).notes = s.notes := rfl
@[simp] theorem setTag_window (a : Nat) (b : Bool) : (s.setTag a b).window = s.window := rfl
@[simp] theorem setTag_convs (a : Nat) (b : Bool) : (s.setTag a b).convs = s.convs := rfl
@[simp] theorem setTag_rots (a : Nat) (b : Bool) : (s.setTag a b).rots = s.rots := rfl
@[simp] theorem setTag_nets (a : Nat) (b : Bool) : (s.setTag a b).nets = s.nets := rfl
@[simp] theorem setTag_fltWas (a : Nat) (b : Bool) : (s.setTag a b).fltWas = s.fltWas := rfl
@[simp] theorem setTag_cmps (a : Nat) (b : Bool) : (s.setTag a b).cmps = s.cmps := rfl
@[simp] theorem setTag_ain (a : Nat) (b : Bool) : (s.setTag a b).ain = s.ain := rfl
@[simp] theorem setTag_sdis (a : Nat) (b : Bool) : (s.setTag a b).sdis = s.sdis := rfl
@[simp] theorem setTag_poss (a : Nat) (b : Bool) : (s.setTag a b).poss = s.poss := rfl
@[simp] theorem setTag_flipAt (a : Nat) (b : Bool) : (s.setTag a b).flipAt = s.flipAt := rfl
@[simp] theorem setTag_flights (a : Nat) (b : Bool) : (s.setTag a b).flights = s.flights := rfl
@[simp] theorem setTag_beaten (a : Nat) (b : Bool) : (s.setTag a b).beaten = s.beaten := rfl
@[simp] theorem setTag_counted (a : Nat) (b : Bool) : (s.setTag a b).counted = s.counted := rfl
@[simp] theorem setTag_chanAct (a : Nat) (b : Bool) : (s.setTag a b).chanAct = s.chanAct := rfl
@[simp] theorem setTag_dlks (a : Nat) (b : Bool) : (s.setTag a b).dlks = s.dlks := rfl
@[simp] theorem setTag_sup (a : Nat) (b : Bool) : (s.setTag a b).sup = s.sup := rfl
@[simp] theorem setTag_dma (a : Nat) (b : Bool) : (s.setTag a b).dma = s.dma := rfl
@[simp] theorem setTag_rdc (a : Nat) (b : Bool) : (s.setTag a b).rdc = s.rdc := rfl
@[simp] theorem setTag_joins (a : Nat) (b : Bool) : (s.setTag a b).joins = s.joins := rfl
@[simp] theorem setTag_scrubs (a : Nat) (b : Bool) : (s.setTag a b).scrubs = s.scrubs := rfl
@[simp] theorem setTag_laps (a : Nat) (b : Bool) : (s.setTag a b).laps = s.laps := rfl
@[simp] theorem setTag_spares (a : Nat) (b : Bool) : (s.setTag a b).spares = s.spares := rfl
@[simp] theorem setTag_wipe (a : Nat) (b : Bool) : (s.setTag a b).wipe = s.wipe := rfl
@[simp] theorem setTag_banks (a : Nat) (b : Bool) : (s.setTag a b).banks = s.banks := rfl
@[simp] theorem setTag_opt (a : Nat) (b : Bool) : (s.setTag a b).opt = s.opt := rfl
@[simp] theorem setTag_optBad (a : Nat) (b : Bool) : (s.setTag a b).optBad = s.optBad := rfl
@[simp] theorem setTag_life (a : Nat) (b : Bool) : (s.setTag a b).life = s.life := rfl
@[simp] theorem setTag_snaps (a : Nat) (b : Bool) : (s.setTag a b).snaps = s.snaps := rfl
@[simp] theorem setTag_posts (a : Nat) (b : Bool) : (s.setTag a b).posts = s.posts := rfl
@[simp] theorem setTag_staged (a : Nat) (b : Bool) : (s.setTag a b).staged = s.staged := rfl
@[simp] theorem setTag_gports (a : Nat) (b : Bool) : (s.setTag a b).gports = s.gports := rfl
@[simp] theorem setTag_greqs (a : Nat) (b : Bool) : (s.setTag a b).greqs = s.greqs := rfl
@[simp] theorem setTag_rgot (a : Nat) (b : Bool) : (s.setTag a b).rgot = s.rgot := rfl
@[simp] theorem setTag_gtag (a : Nat) (b : Bool) : (s.setTag a b).gtag = s.gtag := rfl
@[simp] theorem setTag_sync (a : Nat) (b : Bool) : (s.setTag a b).sync = s.sync := rfl
@[simp] theorem setTag_spiAt (a : Nat) (b : Bool) : (s.setTag a b).spiAt = s.spiAt := rfl
@[simp] theorem setTag_reply (a : Nat) (b : Bool) : (s.setTag a b).reply = s.reply := rfl
@[simp] theorem setTag_spiOut (a : Nat) (b : Bool) : (s.setTag a b).spiOut = s.spiOut := rfl
@[simp] theorem setTag_dreply (a : Nat) (b : Bool) : (s.setTag a b).dreply = s.dreply := rfl
@[simp] theorem setTag_msix (a : Nat) (b : Bool) : (s.setTag a b).msix = s.msix := rfl
@[simp] theorem setTag_straps (a : Nat) (b : Bool) : (s.setTag a b).straps = s.straps := rfl
@[simp] theorem setTag_meas (a : Nat) (b : Bool) : (s.setTag a b).meas = s.meas := rfl
@[simp] theorem setTag_measWas (a : Nat) (b : Bool) : (s.setTag a b).measWas = s.measWas := rfl
@[simp] theorem setTag_rail (a : Nat) (b : Bool) : (s.setTag a b).rail = s.rail := rfl
@[simp] theorem setTag_boot (a : Nat) (b : Bool) : (s.setTag a b).boot = s.boot := rfl
@[simp] theorem setTag_modeReq (a : Nat) (b : Bool) : (s.setTag a b).modeReq = s.modeReq := rfl
@[simp] theorem setTag_trans (a : Nat) (b : Bool) : (s.setTag a b).trans = s.trans := rfl
@[simp] theorem setTag_rising (a : Nat) (b : Bool) : (s.setTag a b).rising = s.rising := rfl
@[simp] theorem setTag_falling (a : Nat) (b : Bool) : (s.setTag a b).falling = s.falling := rfl
@[simp] theorem setTag_mainAt (a : Nat) (b : Bool) : (s.setTag a b).mainAt = s.mainAt := rfl
@[simp] theorem setTag_woke (a : Nat) (b : Bool) : (s.setTag a b).woke = s.woke := rfl
@[simp] theorem setTag_sleepAt (a : Nat) (b : Bool) : (s.setTag a b).sleepAt = s.sleepAt := rfl
@[simp] theorem setTag_wdAt (a : Nat) (b : Bool) : (s.setTag a b).wdAt = s.wdAt := rfl
@[simp] theorem setTag_block (a : Nat) (b : Bool) : (s.setTag a b).block = s.block := rfl
@[simp] theorem setTag_escDue (a : Nat) (b : Bool) : (s.setTag a b).escDue = s.escDue := rfl
@[simp] theorem setTag_safen (a : Nat) (b : Bool) : (s.setTag a b).safen = s.safen := rfl
@[simp] theorem setTag_safenAt (a : Nat) (b : Bool) : (s.setTag a b).safenAt = s.safenAt := rfl
@[simp] theorem setTag_lockAt (a : Nat) (b : Bool) : (s.setTag a b).lockAt = s.lockAt := rfl
@[simp] theorem setTag_snsOff (a : Nat) (b : Bool) : (s.setTag a b).snsOff = s.snsOff := rfl
@[simp] theorem setTag_supply (a : Nat) (b : Bool) : (s.setTag a b).supply = s.supply := rfl
@[simp] theorem setTag_rails (a : Nat) (b : Bool) : (s.setTag a b).rails = s.rails := rfl
@[simp] theorem setTag_escAt (a : Nat) (b : Bool) : (s.setTag a b).escAt = s.escAt := rfl
@[simp] theorem setTag_reqAt (a : Nat) (b : Bool) : (s.setTag a b).reqAt = s.reqAt := rfl
@[simp] theorem setTag_tcmKept (a : Nat) (b : Bool) : (s.setTag a b).tcmKept = s.tcmKept := rfl
@[simp] theorem setTag_ports (a : Nat) (b : Bool) : (s.setTag a b).ports = s.ports := rfl
@[simp] theorem setTag_extest (a : Nat) (b : Bool) : (s.setTag a b).extest = s.extest := rfl
@[simp] theorem setTag_latch (a : Nat) (b : Bool) : (s.setTag a b).latch = s.latch := rfl
@[simp] theorem setTag_raised (a : Nat) (b : Bool) : (s.setTag a b).raised = s.raised := rfl
@[simp] theorem setTag_free (a : Nat) (b : Bool) : (s.setTag a b).free = s.free := rfl
@[simp] theorem setTag_pending (a : Nat) (b : Bool) : (s.setTag a b).pending = s.pending := rfl

/-! `setEng` writes `eng` alone. -/

@[simp] theorem setEng_now (e : Nat) (g : Eng) : (s.setEng e g).now = s.now := rfl
@[simp] theorem setEng_regs (e : Nat) (g : Eng) : (s.setEng e g).regs = s.regs := rfl
@[simp] theorem setEng_mem (e : Nat) (g : Eng) : (s.setEng e g).mem = s.mem := rfl
@[simp] theorem setEng_chk (e : Nat) (g : Eng) : (s.setEng e g).chk = s.chk := rfl
@[simp] theorem setEng_tags (e : Nat) (g : Eng) : (s.setEng e g).tags = s.tags := rfl
@[simp] theorem setEng_hist (e : Nat) (g : Eng) : (s.setEng e g).hist = s.hist := rfl
@[simp] theorem setEng_phys (e : Nat) (g : Eng) : (s.setEng e g).phys = s.phys := rfl
@[simp] theorem setEng_sq (e : Nat) (g : Eng) : (s.setEng e g).sq = s.sq := rfl
@[simp] theorem setEng_rx (e : Nat) (g : Eng) : (s.setEng e g).rx = s.rx := rfl
@[simp] theorem setEng_tinAt (e : Nat) (g : Eng) : (s.setEng e g).tinAt = s.tinAt := rfl
@[simp] theorem setEng_tinEc (e : Nat) (g : Eng) : (s.setEng e g).tinEc = s.tinEc := rfl
@[simp] theorem setEng_msgs (e : Nat) (g : Eng) : (s.setEng e g).msgs = s.msgs := rfl
@[simp] theorem setEng_wstores (e : Nat) (g : Eng) : (s.setEng e g).wstores = s.wstores := rfl
@[simp] theorem setEng_sched (e : Nat) (g : Eng) : (s.setEng e g).sched = s.sched := rfl
@[simp] theorem setEng_almLate (e : Nat) (g : Eng) : (s.setEng e g).almLate = s.almLate := rfl
@[simp] theorem setEng_eps (e : Nat) (g : Eng) : (s.setEng e g).eps = s.eps := rfl
@[simp] theorem setEng_notes (e : Nat) (g : Eng) : (s.setEng e g).notes = s.notes := rfl
@[simp] theorem setEng_window (e : Nat) (g : Eng) : (s.setEng e g).window = s.window := rfl
@[simp] theorem setEng_convs (e : Nat) (g : Eng) : (s.setEng e g).convs = s.convs := rfl
@[simp] theorem setEng_rots (e : Nat) (g : Eng) : (s.setEng e g).rots = s.rots := rfl
@[simp] theorem setEng_nets (e : Nat) (g : Eng) : (s.setEng e g).nets = s.nets := rfl
@[simp] theorem setEng_fltWas (e : Nat) (g : Eng) : (s.setEng e g).fltWas = s.fltWas := rfl
@[simp] theorem setEng_cmps (e : Nat) (g : Eng) : (s.setEng e g).cmps = s.cmps := rfl
@[simp] theorem setEng_ain (e : Nat) (g : Eng) : (s.setEng e g).ain = s.ain := rfl
@[simp] theorem setEng_sdis (e : Nat) (g : Eng) : (s.setEng e g).sdis = s.sdis := rfl
@[simp] theorem setEng_poss (e : Nat) (g : Eng) : (s.setEng e g).poss = s.poss := rfl
@[simp] theorem setEng_flipAt (e : Nat) (g : Eng) : (s.setEng e g).flipAt = s.flipAt := rfl
@[simp] theorem setEng_flights (e : Nat) (g : Eng) : (s.setEng e g).flights = s.flights := rfl
@[simp] theorem setEng_beaten (e : Nat) (g : Eng) : (s.setEng e g).beaten = s.beaten := rfl
@[simp] theorem setEng_counted (e : Nat) (g : Eng) : (s.setEng e g).counted = s.counted := rfl
@[simp] theorem setEng_chanAct (e : Nat) (g : Eng) : (s.setEng e g).chanAct = s.chanAct := rfl
@[simp] theorem setEng_dlks (e : Nat) (g : Eng) : (s.setEng e g).dlks = s.dlks := rfl
@[simp] theorem setEng_sup (e : Nat) (g : Eng) : (s.setEng e g).sup = s.sup := rfl
@[simp] theorem setEng_dma (e : Nat) (g : Eng) : (s.setEng e g).dma = s.dma := rfl
@[simp] theorem setEng_rdc (e : Nat) (g : Eng) : (s.setEng e g).rdc = s.rdc := rfl
@[simp] theorem setEng_joins (e : Nat) (g : Eng) : (s.setEng e g).joins = s.joins := rfl
@[simp] theorem setEng_scrubs (e : Nat) (g : Eng) : (s.setEng e g).scrubs = s.scrubs := rfl
@[simp] theorem setEng_laps (e : Nat) (g : Eng) : (s.setEng e g).laps = s.laps := rfl
@[simp] theorem setEng_spares (e : Nat) (g : Eng) : (s.setEng e g).spares = s.spares := rfl
@[simp] theorem setEng_wipe (e : Nat) (g : Eng) : (s.setEng e g).wipe = s.wipe := rfl
@[simp] theorem setEng_banks (e : Nat) (g : Eng) : (s.setEng e g).banks = s.banks := rfl
@[simp] theorem setEng_opt (e : Nat) (g : Eng) : (s.setEng e g).opt = s.opt := rfl
@[simp] theorem setEng_optBad (e : Nat) (g : Eng) : (s.setEng e g).optBad = s.optBad := rfl
@[simp] theorem setEng_life (e : Nat) (g : Eng) : (s.setEng e g).life = s.life := rfl
@[simp] theorem setEng_snaps (e : Nat) (g : Eng) : (s.setEng e g).snaps = s.snaps := rfl
@[simp] theorem setEng_posts (e : Nat) (g : Eng) : (s.setEng e g).posts = s.posts := rfl
@[simp] theorem setEng_staged (e : Nat) (g : Eng) : (s.setEng e g).staged = s.staged := rfl
@[simp] theorem setEng_gports (e : Nat) (g : Eng) : (s.setEng e g).gports = s.gports := rfl
@[simp] theorem setEng_greqs (e : Nat) (g : Eng) : (s.setEng e g).greqs = s.greqs := rfl
@[simp] theorem setEng_rgot (e : Nat) (g : Eng) : (s.setEng e g).rgot = s.rgot := rfl
@[simp] theorem setEng_gtag (e : Nat) (g : Eng) : (s.setEng e g).gtag = s.gtag := rfl
@[simp] theorem setEng_sync (e : Nat) (g : Eng) : (s.setEng e g).sync = s.sync := rfl
@[simp] theorem setEng_spiAt (e : Nat) (g : Eng) : (s.setEng e g).spiAt = s.spiAt := rfl
@[simp] theorem setEng_reply (e : Nat) (g : Eng) : (s.setEng e g).reply = s.reply := rfl
@[simp] theorem setEng_spiOut (e : Nat) (g : Eng) : (s.setEng e g).spiOut = s.spiOut := rfl
@[simp] theorem setEng_dreply (e : Nat) (g : Eng) : (s.setEng e g).dreply = s.dreply := rfl
@[simp] theorem setEng_msix (e : Nat) (g : Eng) : (s.setEng e g).msix = s.msix := rfl
@[simp] theorem setEng_straps (e : Nat) (g : Eng) : (s.setEng e g).straps = s.straps := rfl
@[simp] theorem setEng_meas (e : Nat) (g : Eng) : (s.setEng e g).meas = s.meas := rfl
@[simp] theorem setEng_measWas (e : Nat) (g : Eng) : (s.setEng e g).measWas = s.measWas := rfl
@[simp] theorem setEng_rail (e : Nat) (g : Eng) : (s.setEng e g).rail = s.rail := rfl
@[simp] theorem setEng_boot (e : Nat) (g : Eng) : (s.setEng e g).boot = s.boot := rfl
@[simp] theorem setEng_modeReq (e : Nat) (g : Eng) : (s.setEng e g).modeReq = s.modeReq := rfl
@[simp] theorem setEng_trans (e : Nat) (g : Eng) : (s.setEng e g).trans = s.trans := rfl
@[simp] theorem setEng_rising (e : Nat) (g : Eng) : (s.setEng e g).rising = s.rising := rfl
@[simp] theorem setEng_falling (e : Nat) (g : Eng) : (s.setEng e g).falling = s.falling := rfl
@[simp] theorem setEng_mainAt (e : Nat) (g : Eng) : (s.setEng e g).mainAt = s.mainAt := rfl
@[simp] theorem setEng_woke (e : Nat) (g : Eng) : (s.setEng e g).woke = s.woke := rfl
@[simp] theorem setEng_sleepAt (e : Nat) (g : Eng) : (s.setEng e g).sleepAt = s.sleepAt := rfl
@[simp] theorem setEng_wdAt (e : Nat) (g : Eng) : (s.setEng e g).wdAt = s.wdAt := rfl
@[simp] theorem setEng_block (e : Nat) (g : Eng) : (s.setEng e g).block = s.block := rfl
@[simp] theorem setEng_escDue (e : Nat) (g : Eng) : (s.setEng e g).escDue = s.escDue := rfl
@[simp] theorem setEng_safen (e : Nat) (g : Eng) : (s.setEng e g).safen = s.safen := rfl
@[simp] theorem setEng_safenAt (e : Nat) (g : Eng) : (s.setEng e g).safenAt = s.safenAt := rfl
@[simp] theorem setEng_lockAt (e : Nat) (g : Eng) : (s.setEng e g).lockAt = s.lockAt := rfl
@[simp] theorem setEng_snsOff (e : Nat) (g : Eng) : (s.setEng e g).snsOff = s.snsOff := rfl
@[simp] theorem setEng_supply (e : Nat) (g : Eng) : (s.setEng e g).supply = s.supply := rfl
@[simp] theorem setEng_rails (e : Nat) (g : Eng) : (s.setEng e g).rails = s.rails := rfl
@[simp] theorem setEng_escAt (e : Nat) (g : Eng) : (s.setEng e g).escAt = s.escAt := rfl
@[simp] theorem setEng_reqAt (e : Nat) (g : Eng) : (s.setEng e g).reqAt = s.reqAt := rfl
@[simp] theorem setEng_tcmKept (e : Nat) (g : Eng) : (s.setEng e g).tcmKept = s.tcmKept := rfl
@[simp] theorem setEng_ports (e : Nat) (g : Eng) : (s.setEng e g).ports = s.ports := rfl
@[simp] theorem setEng_extest (e : Nat) (g : Eng) : (s.setEng e g).extest = s.extest := rfl
@[simp] theorem setEng_latch (e : Nat) (g : Eng) : (s.setEng e g).latch = s.latch := rfl
@[simp] theorem setEng_raised (e : Nat) (g : Eng) : (s.setEng e g).raised = s.raised := rfl
@[simp] theorem setEng_free (e : Nat) (g : Eng) : (s.setEng e g).free = s.free := rfl
@[simp] theorem setEng_pending (e : Nat) (g : Eng) : (s.setEng e g).pending = s.pending := rfl

/-! `setCore` writes `sup` alone. -/

@[simp] theorem setCore_now (k : Nat) (c : Sup) : (s.setCore k c).now = s.now := rfl
@[simp] theorem setCore_regs (k : Nat) (c : Sup) : (s.setCore k c).regs = s.regs := rfl
@[simp] theorem setCore_mem (k : Nat) (c : Sup) : (s.setCore k c).mem = s.mem := rfl
@[simp] theorem setCore_chk (k : Nat) (c : Sup) : (s.setCore k c).chk = s.chk := rfl
@[simp] theorem setCore_tags (k : Nat) (c : Sup) : (s.setCore k c).tags = s.tags := rfl
@[simp] theorem setCore_hist (k : Nat) (c : Sup) : (s.setCore k c).hist = s.hist := rfl
@[simp] theorem setCore_eng (k : Nat) (c : Sup) : (s.setCore k c).eng = s.eng := rfl
@[simp] theorem setCore_phys (k : Nat) (c : Sup) : (s.setCore k c).phys = s.phys := rfl
@[simp] theorem setCore_sq (k : Nat) (c : Sup) : (s.setCore k c).sq = s.sq := rfl
@[simp] theorem setCore_rx (k : Nat) (c : Sup) : (s.setCore k c).rx = s.rx := rfl
@[simp] theorem setCore_tinAt (k : Nat) (c : Sup) : (s.setCore k c).tinAt = s.tinAt := rfl
@[simp] theorem setCore_tinEc (k : Nat) (c : Sup) : (s.setCore k c).tinEc = s.tinEc := rfl
@[simp] theorem setCore_msgs (k : Nat) (c : Sup) : (s.setCore k c).msgs = s.msgs := rfl
@[simp] theorem setCore_wstores (k : Nat) (c : Sup) : (s.setCore k c).wstores = s.wstores := rfl
@[simp] theorem setCore_sched (k : Nat) (c : Sup) : (s.setCore k c).sched = s.sched := rfl
@[simp] theorem setCore_almLate (k : Nat) (c : Sup) : (s.setCore k c).almLate = s.almLate := rfl
@[simp] theorem setCore_eps (k : Nat) (c : Sup) : (s.setCore k c).eps = s.eps := rfl
@[simp] theorem setCore_notes (k : Nat) (c : Sup) : (s.setCore k c).notes = s.notes := rfl
@[simp] theorem setCore_window (k : Nat) (c : Sup) : (s.setCore k c).window = s.window := rfl
@[simp] theorem setCore_convs (k : Nat) (c : Sup) : (s.setCore k c).convs = s.convs := rfl
@[simp] theorem setCore_rots (k : Nat) (c : Sup) : (s.setCore k c).rots = s.rots := rfl
@[simp] theorem setCore_nets (k : Nat) (c : Sup) : (s.setCore k c).nets = s.nets := rfl
@[simp] theorem setCore_fltWas (k : Nat) (c : Sup) : (s.setCore k c).fltWas = s.fltWas := rfl
@[simp] theorem setCore_cmps (k : Nat) (c : Sup) : (s.setCore k c).cmps = s.cmps := rfl
@[simp] theorem setCore_ain (k : Nat) (c : Sup) : (s.setCore k c).ain = s.ain := rfl
@[simp] theorem setCore_sdis (k : Nat) (c : Sup) : (s.setCore k c).sdis = s.sdis := rfl
@[simp] theorem setCore_poss (k : Nat) (c : Sup) : (s.setCore k c).poss = s.poss := rfl
@[simp] theorem setCore_flipAt (k : Nat) (c : Sup) : (s.setCore k c).flipAt = s.flipAt := rfl
@[simp] theorem setCore_flights (k : Nat) (c : Sup) : (s.setCore k c).flights = s.flights := rfl
@[simp] theorem setCore_beaten (k : Nat) (c : Sup) : (s.setCore k c).beaten = s.beaten := rfl
@[simp] theorem setCore_counted (k : Nat) (c : Sup) : (s.setCore k c).counted = s.counted := rfl
@[simp] theorem setCore_chanAct (k : Nat) (c : Sup) : (s.setCore k c).chanAct = s.chanAct := rfl
@[simp] theorem setCore_dlks (k : Nat) (c : Sup) : (s.setCore k c).dlks = s.dlks := rfl
@[simp] theorem setCore_dma (k : Nat) (c : Sup) : (s.setCore k c).dma = s.dma := rfl
@[simp] theorem setCore_rdc (k : Nat) (c : Sup) : (s.setCore k c).rdc = s.rdc := rfl
@[simp] theorem setCore_joins (k : Nat) (c : Sup) : (s.setCore k c).joins = s.joins := rfl
@[simp] theorem setCore_scrubs (k : Nat) (c : Sup) : (s.setCore k c).scrubs = s.scrubs := rfl
@[simp] theorem setCore_laps (k : Nat) (c : Sup) : (s.setCore k c).laps = s.laps := rfl
@[simp] theorem setCore_spares (k : Nat) (c : Sup) : (s.setCore k c).spares = s.spares := rfl
@[simp] theorem setCore_wipe (k : Nat) (c : Sup) : (s.setCore k c).wipe = s.wipe := rfl
@[simp] theorem setCore_banks (k : Nat) (c : Sup) : (s.setCore k c).banks = s.banks := rfl
@[simp] theorem setCore_opt (k : Nat) (c : Sup) : (s.setCore k c).opt = s.opt := rfl
@[simp] theorem setCore_optBad (k : Nat) (c : Sup) : (s.setCore k c).optBad = s.optBad := rfl
@[simp] theorem setCore_life (k : Nat) (c : Sup) : (s.setCore k c).life = s.life := rfl
@[simp] theorem setCore_snaps (k : Nat) (c : Sup) : (s.setCore k c).snaps = s.snaps := rfl
@[simp] theorem setCore_posts (k : Nat) (c : Sup) : (s.setCore k c).posts = s.posts := rfl
@[simp] theorem setCore_staged (k : Nat) (c : Sup) : (s.setCore k c).staged = s.staged := rfl
@[simp] theorem setCore_gports (k : Nat) (c : Sup) : (s.setCore k c).gports = s.gports := rfl
@[simp] theorem setCore_greqs (k : Nat) (c : Sup) : (s.setCore k c).greqs = s.greqs := rfl
@[simp] theorem setCore_rgot (k : Nat) (c : Sup) : (s.setCore k c).rgot = s.rgot := rfl
@[simp] theorem setCore_gtag (k : Nat) (c : Sup) : (s.setCore k c).gtag = s.gtag := rfl
@[simp] theorem setCore_sync (k : Nat) (c : Sup) : (s.setCore k c).sync = s.sync := rfl
@[simp] theorem setCore_spiAt (k : Nat) (c : Sup) : (s.setCore k c).spiAt = s.spiAt := rfl
@[simp] theorem setCore_reply (k : Nat) (c : Sup) : (s.setCore k c).reply = s.reply := rfl
@[simp] theorem setCore_spiOut (k : Nat) (c : Sup) : (s.setCore k c).spiOut = s.spiOut := rfl
@[simp] theorem setCore_dreply (k : Nat) (c : Sup) : (s.setCore k c).dreply = s.dreply := rfl
@[simp] theorem setCore_msix (k : Nat) (c : Sup) : (s.setCore k c).msix = s.msix := rfl
@[simp] theorem setCore_straps (k : Nat) (c : Sup) : (s.setCore k c).straps = s.straps := rfl
@[simp] theorem setCore_meas (k : Nat) (c : Sup) : (s.setCore k c).meas = s.meas := rfl
@[simp] theorem setCore_measWas (k : Nat) (c : Sup) : (s.setCore k c).measWas = s.measWas := rfl
@[simp] theorem setCore_rail (k : Nat) (c : Sup) : (s.setCore k c).rail = s.rail := rfl
@[simp] theorem setCore_boot (k : Nat) (c : Sup) : (s.setCore k c).boot = s.boot := rfl
@[simp] theorem setCore_modeReq (k : Nat) (c : Sup) : (s.setCore k c).modeReq = s.modeReq := rfl
@[simp] theorem setCore_trans (k : Nat) (c : Sup) : (s.setCore k c).trans = s.trans := rfl
@[simp] theorem setCore_rising (k : Nat) (c : Sup) : (s.setCore k c).rising = s.rising := rfl
@[simp] theorem setCore_falling (k : Nat) (c : Sup) : (s.setCore k c).falling = s.falling := rfl
@[simp] theorem setCore_mainAt (k : Nat) (c : Sup) : (s.setCore k c).mainAt = s.mainAt := rfl
@[simp] theorem setCore_woke (k : Nat) (c : Sup) : (s.setCore k c).woke = s.woke := rfl
@[simp] theorem setCore_sleepAt (k : Nat) (c : Sup) : (s.setCore k c).sleepAt = s.sleepAt := rfl
@[simp] theorem setCore_wdAt (k : Nat) (c : Sup) : (s.setCore k c).wdAt = s.wdAt := rfl
@[simp] theorem setCore_block (k : Nat) (c : Sup) : (s.setCore k c).block = s.block := rfl
@[simp] theorem setCore_escDue (k : Nat) (c : Sup) : (s.setCore k c).escDue = s.escDue := rfl
@[simp] theorem setCore_safen (k : Nat) (c : Sup) : (s.setCore k c).safen = s.safen := rfl
@[simp] theorem setCore_safenAt (k : Nat) (c : Sup) : (s.setCore k c).safenAt = s.safenAt := rfl
@[simp] theorem setCore_lockAt (k : Nat) (c : Sup) : (s.setCore k c).lockAt = s.lockAt := rfl
@[simp] theorem setCore_snsOff (k : Nat) (c : Sup) : (s.setCore k c).snsOff = s.snsOff := rfl
@[simp] theorem setCore_supply (k : Nat) (c : Sup) : (s.setCore k c).supply = s.supply := rfl
@[simp] theorem setCore_rails (k : Nat) (c : Sup) : (s.setCore k c).rails = s.rails := rfl
@[simp] theorem setCore_escAt (k : Nat) (c : Sup) : (s.setCore k c).escAt = s.escAt := rfl
@[simp] theorem setCore_reqAt (k : Nat) (c : Sup) : (s.setCore k c).reqAt = s.reqAt := rfl
@[simp] theorem setCore_tcmKept (k : Nat) (c : Sup) : (s.setCore k c).tcmKept = s.tcmKept := rfl
@[simp] theorem setCore_ports (k : Nat) (c : Sup) : (s.setCore k c).ports = s.ports := rfl
@[simp] theorem setCore_extest (k : Nat) (c : Sup) : (s.setCore k c).extest = s.extest := rfl
@[simp] theorem setCore_latch (k : Nat) (c : Sup) : (s.setCore k c).latch = s.latch := rfl
@[simp] theorem setCore_raised (k : Nat) (c : Sup) : (s.setCore k c).raised = s.raised := rfl
@[simp] theorem setCore_free (k : Nat) (c : Sup) : (s.setCore k c).free = s.free := rfl
@[simp] theorem setCore_pending (k : Nat) (c : Sup) : (s.setCore k c).pending = s.pending := rfl

/-! What other readers see. -/

@[simp] theorem reach_reg_read (t : Nat) (r' : Reg) (j : Nat) : (s.reach t).reg r' j = s.reg r' j := rfl
@[simp] theorem reach_regN_read (t : Nat) (r' : Reg) (j : Nat) : (s.reach t).regN r' j = s.regN r' j := rfl
@[simp] theorem reach_fld_read (t : Nat) (fd : Fld) (j : Nat) : (s.reach t).fld fd j = s.fld fd j := rfl
@[simp] theorem reach_flag_read (t : Nat) (fd : Fld) (j : Nat) : (s.reach t).flag fd j = s.flag fd j := rfl
@[simp] theorem reach_byte_read (t : Nat) (b : Nat) : (s.reach t).byte b = s.byte b := rfl
@[simp] theorem reach_peek_read (t : Nat) (b n : Nat) : (s.reach t).peek b n = s.peek b n := rfl
@[simp] theorem reach_chkAt_read (t : Nat) (b : Nat) : (s.reach t).chkAt b = s.chkAt b := rfl
@[simp] theorem reach_tagAt_read (t : Nat) (b : Nat) : (s.reach t).tagAt b = s.tagAt b := rfl
@[simp] theorem reach_engine_read (t : Nat) (e' : Nat) : (s.reach t).engine e' = s.engine e' := rfl
@[simp] theorem reach_core_read (t : Nat) (k' : Nat) : (s.reach t).core k' = s.core k' := rfl
@[simp] theorem reach_alive_read (t : Nat) (d : Nat) : (s.reach t).alive d = s.alive d := rfl
@[simp] theorem reach_physOf_read (t : Nat) (e' : Nat) : (s.reach t).physOf e' = s.physOf e' := rfl
@[simp] theorem reach_sqEpoch_read (t : Nat) (q : Nat) : (s.reach t).sqEpoch q = s.sqEpoch q := rfl
@[simp] theorem reach_bank_read (t : Nat)  : (s.reach t).bank = s.bank := rfl
@[simp] theorem reach_mode_read (t : Nat)  : (s.reach t).mode = s.mode := rfl
@[simp] theorem setReg_byte_read (r : Reg) (i : Nat) (v : Word) (b : Nat) : (s.setReg r i v).byte b = s.byte b := rfl
@[simp] theorem setReg_peek_read (r : Reg) (i : Nat) (v : Word) (b n : Nat) : (s.setReg r i v).peek b n = s.peek b n := rfl
@[simp] theorem setReg_chkAt_read (r : Reg) (i : Nat) (v : Word) (b : Nat) : (s.setReg r i v).chkAt b = s.chkAt b := rfl
@[simp] theorem setReg_tagAt_read (r : Reg) (i : Nat) (v : Word) (b : Nat) : (s.setReg r i v).tagAt b = s.tagAt b := rfl
@[simp] theorem setReg_engine_read (r : Reg) (i : Nat) (v : Word) (e' : Nat) : (s.setReg r i v).engine e' = s.engine e' := rfl
@[simp] theorem setReg_core_read (r : Reg) (i : Nat) (v : Word) (k' : Nat) : (s.setReg r i v).core k' = s.core k' := rfl
@[simp] theorem setRegN_byte_read (r : Reg) (i v : Nat) (b : Nat) : (s.setRegN r i v).byte b = s.byte b := rfl
@[simp] theorem setRegN_peek_read (r : Reg) (i v : Nat) (b n : Nat) : (s.setRegN r i v).peek b n = s.peek b n := rfl
@[simp] theorem setRegN_chkAt_read (r : Reg) (i v : Nat) (b : Nat) : (s.setRegN r i v).chkAt b = s.chkAt b := rfl
@[simp] theorem setRegN_tagAt_read (r : Reg) (i v : Nat) (b : Nat) : (s.setRegN r i v).tagAt b = s.tagAt b := rfl
@[simp] theorem setRegN_engine_read (r : Reg) (i v : Nat) (e' : Nat) : (s.setRegN r i v).engine e' = s.engine e' := rfl
@[simp] theorem setRegN_core_read (r : Reg) (i v : Nat) (k' : Nat) : (s.setRegN r i v).core k' = s.core k' := rfl
@[simp] theorem setFld_byte_read (f : Fld) (i v : Nat) (b : Nat) : (s.setFld f i v).byte b = s.byte b := rfl
@[simp] theorem setFld_peek_read (f : Fld) (i v : Nat) (b n : Nat) : (s.setFld f i v).peek b n = s.peek b n := rfl
@[simp] theorem setFld_chkAt_read (f : Fld) (i v : Nat) (b : Nat) : (s.setFld f i v).chkAt b = s.chkAt b := rfl
@[simp] theorem setFld_tagAt_read (f : Fld) (i v : Nat) (b : Nat) : (s.setFld f i v).tagAt b = s.tagAt b := rfl
@[simp] theorem setFld_engine_read (f : Fld) (i v : Nat) (e' : Nat) : (s.setFld f i v).engine e' = s.engine e' := rfl
@[simp] theorem setFld_core_read (f : Fld) (i v : Nat) (k' : Nat) : (s.setFld f i v).core k' = s.core k' := rfl
@[simp] theorem setPair_byte_read (lo hi : Reg) (i v : Nat) (b : Nat) : (s.setPair lo hi i v).byte b = s.byte b := rfl
@[simp] theorem setPair_peek_read (lo hi : Reg) (i v : Nat) (b n : Nat) : (s.setPair lo hi i v).peek b n = s.peek b n := rfl
@[simp] theorem setPair_chkAt_read (lo hi : Reg) (i v : Nat) (b : Nat) : (s.setPair lo hi i v).chkAt b = s.chkAt b := rfl
@[simp] theorem setPair_tagAt_read (lo hi : Reg) (i v : Nat) (b : Nat) : (s.setPair lo hi i v).tagAt b = s.tagAt b := rfl
@[simp] theorem setPair_engine_read (lo hi : Reg) (i v : Nat) (e' : Nat) : (s.setPair lo hi i v).engine e' = s.engine e' := rfl
@[simp] theorem setPair_core_read (lo hi : Reg) (i v : Nat) (k' : Nat) : (s.setPair lo hi i v).core k' = s.core k' := rfl
@[simp] theorem bump_byte_read (c x : Fld) (i : Nat) (b : Nat) : (s.bump c x i).byte b = s.byte b := by unfold State.bump; dsimp only; split <;> rfl
@[simp] theorem bump_peek_read (c x : Fld) (i : Nat) (b n : Nat) : (s.bump c x i).peek b n = s.peek b n := by unfold State.bump; dsimp only; split <;> rfl
@[simp] theorem bump_chkAt_read (c x : Fld) (i : Nat) (b : Nat) : (s.bump c x i).chkAt b = s.chkAt b := by unfold State.bump; dsimp only; split <;> rfl
@[simp] theorem bump_tagAt_read (c x : Fld) (i : Nat) (b : Nat) : (s.bump c x i).tagAt b = s.tagAt b := by unfold State.bump; dsimp only; split <;> rfl
@[simp] theorem bump_engine_read (c x : Fld) (i : Nat) (e' : Nat) : (s.bump c x i).engine e' = s.engine e' := by unfold State.bump; dsimp only; split <;> rfl
@[simp] theorem bump_core_read (c x : Fld) (i : Nat) (k' : Nat) : (s.bump c x i).core k' = s.core k' := by unfold State.bump; dsimp only; split <;> rfl
@[simp] theorem raiseEv_reg_read (dm c u : Nat) (r' : Reg) (j : Nat) : (s.raiseEv dm c u).reg r' j = s.reg r' j := by unfold State.raiseEv; split <;> rfl
@[simp] theorem raiseEv_regN_read (dm c u : Nat) (r' : Reg) (j : Nat) : (s.raiseEv dm c u).regN r' j = s.regN r' j := by unfold State.raiseEv; split <;> rfl
@[simp] theorem raiseEv_fld_read (dm c u : Nat) (fd : Fld) (j : Nat) : (s.raiseEv dm c u).fld fd j = s.fld fd j := by unfold State.raiseEv; split <;> rfl
@[simp] theorem raiseEv_flag_read (dm c u : Nat) (fd : Fld) (j : Nat) : (s.raiseEv dm c u).flag fd j = s.flag fd j := by unfold State.raiseEv; split <;> rfl
@[simp] theorem raiseEv_byte_read (dm c u : Nat) (b : Nat) : (s.raiseEv dm c u).byte b = s.byte b := by unfold State.raiseEv; split <;> rfl
@[simp] theorem raiseEv_peek_read (dm c u : Nat) (b n : Nat) : (s.raiseEv dm c u).peek b n = s.peek b n := by unfold State.raiseEv; split <;> rfl
@[simp] theorem raiseEv_chkAt_read (dm c u : Nat) (b : Nat) : (s.raiseEv dm c u).chkAt b = s.chkAt b := by unfold State.raiseEv; split <;> rfl
@[simp] theorem raiseEv_tagAt_read (dm c u : Nat) (b : Nat) : (s.raiseEv dm c u).tagAt b = s.tagAt b := by unfold State.raiseEv; split <;> rfl
@[simp] theorem raiseEv_engine_read (dm c u : Nat) (e' : Nat) : (s.raiseEv dm c u).engine e' = s.engine e' := by unfold State.raiseEv; split <;> rfl
@[simp] theorem raiseEv_core_read (dm c u : Nat) (k' : Nat) : (s.raiseEv dm c u).core k' = s.core k' := by unfold State.raiseEv; split <;> rfl
@[simp] theorem raiseEv_alive_read (dm c u : Nat) (d : Nat) : (s.raiseEv dm c u).alive d = s.alive d := by unfold State.raiseEv; split <;> rfl
@[simp] theorem raiseEv_physOf_read (dm c u : Nat) (e' : Nat) : (s.raiseEv dm c u).physOf e' = s.physOf e' := by unfold State.raiseEv; split <;> rfl
@[simp] theorem raiseEv_sqEpoch_read (dm c u : Nat) (q : Nat) : (s.raiseEv dm c u).sqEpoch q = s.sqEpoch q := by unfold State.raiseEv; split <;> rfl
@[simp] theorem raiseEv_bank_read (dm c u : Nat)  : (s.raiseEv dm c u).bank = s.bank := by unfold State.raiseEv; split <;> rfl
@[simp] theorem raiseEv_mode_read (dm c u : Nat)  : (s.raiseEv dm c u).mode = s.mode := by unfold State.raiseEv; split <;> rfl
@[simp] theorem setByte_reg_read (a : Nat) (v : Byte) (r' : Reg) (j : Nat) : (s.setByte a v).reg r' j = s.reg r' j := rfl
@[simp] theorem setByte_regN_read (a : Nat) (v : Byte) (r' : Reg) (j : Nat) : (s.setByte a v).regN r' j = s.regN r' j := rfl
@[simp] theorem setByte_fld_read (a : Nat) (v : Byte) (fd : Fld) (j : Nat) : (s.setByte a v).fld fd j = s.fld fd j := rfl
@[simp] theorem setByte_flag_read (a : Nat) (v : Byte) (fd : Fld) (j : Nat) : (s.setByte a v).flag fd j = s.flag fd j := rfl
@[simp] theorem setByte_chkAt_read (a : Nat) (v : Byte) (b : Nat) : (s.setByte a v).chkAt b = s.chkAt b := rfl
@[simp] theorem setByte_tagAt_read (a : Nat) (v : Byte) (b : Nat) : (s.setByte a v).tagAt b = s.tagAt b := rfl
@[simp] theorem setByte_engine_read (a : Nat) (v : Byte) (e' : Nat) : (s.setByte a v).engine e' = s.engine e' := rfl
@[simp] theorem setByte_core_read (a : Nat) (v : Byte) (k' : Nat) : (s.setByte a v).core k' = s.core k' := rfl
@[simp] theorem setByte_alive_read (a : Nat) (v : Byte) (d : Nat) : (s.setByte a v).alive d = s.alive d := rfl
@[simp] theorem setByte_physOf_read (a : Nat) (v : Byte) (e' : Nat) : (s.setByte a v).physOf e' = s.physOf e' := rfl
@[simp] theorem setByte_sqEpoch_read (a : Nat) (v : Byte) (q : Nat) : (s.setByte a v).sqEpoch q = s.sqEpoch q := rfl
@[simp] theorem setByte_bank_read (a : Nat) (v : Byte)  : (s.setByte a v).bank = s.bank := rfl
@[simp] theorem setByte_mode_read (a : Nat) (v : Byte)  : (s.setByte a v).mode = s.mode := rfl
@[simp] theorem setChk_reg_read (a : Nat) (c : Chk) (r' : Reg) (j : Nat) : (s.setChk a c).reg r' j = s.reg r' j := rfl
@[simp] theorem setChk_regN_read (a : Nat) (c : Chk) (r' : Reg) (j : Nat) : (s.setChk a c).regN r' j = s.regN r' j := rfl
@[simp] theorem setChk_fld_read (a : Nat) (c : Chk) (fd : Fld) (j : Nat) : (s.setChk a c).fld fd j = s.fld fd j := rfl
@[simp] theorem setChk_flag_read (a : Nat) (c : Chk) (fd : Fld) (j : Nat) : (s.setChk a c).flag fd j = s.flag fd j := rfl
@[simp] theorem setChk_byte_read (a : Nat) (c : Chk) (b : Nat) : (s.setChk a c).byte b = s.byte b := rfl
@[simp] theorem setChk_peek_read (a : Nat) (c : Chk) (b n : Nat) : (s.setChk a c).peek b n = s.peek b n := rfl
@[simp] theorem setChk_tagAt_read (a : Nat) (c : Chk) (b : Nat) : (s.setChk a c).tagAt b = s.tagAt b := rfl
@[simp] theorem setChk_engine_read (a : Nat) (c : Chk) (e' : Nat) : (s.setChk a c).engine e' = s.engine e' := rfl
@[simp] theorem setChk_core_read (a : Nat) (c : Chk) (k' : Nat) : (s.setChk a c).core k' = s.core k' := rfl
@[simp] theorem setChk_alive_read (a : Nat) (c : Chk) (d : Nat) : (s.setChk a c).alive d = s.alive d := rfl
@[simp] theorem setChk_physOf_read (a : Nat) (c : Chk) (e' : Nat) : (s.setChk a c).physOf e' = s.physOf e' := rfl
@[simp] theorem setChk_sqEpoch_read (a : Nat) (c : Chk) (q : Nat) : (s.setChk a c).sqEpoch q = s.sqEpoch q := rfl
@[simp] theorem setChk_bank_read (a : Nat) (c : Chk)  : (s.setChk a c).bank = s.bank := rfl
@[simp] theorem setChk_mode_read (a : Nat) (c : Chk)  : (s.setChk a c).mode = s.mode := rfl
@[simp] theorem setTag_reg_read (a : Nat) (x : Bool) (r' : Reg) (j : Nat) : (s.setTag a x).reg r' j = s.reg r' j := rfl
@[simp] theorem setTag_regN_read (a : Nat) (x : Bool) (r' : Reg) (j : Nat) : (s.setTag a x).regN r' j = s.regN r' j := rfl
@[simp] theorem setTag_fld_read (a : Nat) (x : Bool) (fd : Fld) (j : Nat) : (s.setTag a x).fld fd j = s.fld fd j := rfl
@[simp] theorem setTag_flag_read (a : Nat) (x : Bool) (fd : Fld) (j : Nat) : (s.setTag a x).flag fd j = s.flag fd j := rfl
@[simp] theorem setTag_byte_read (a : Nat) (x : Bool) (b : Nat) : (s.setTag a x).byte b = s.byte b := rfl
@[simp] theorem setTag_peek_read (a : Nat) (x : Bool) (b n : Nat) : (s.setTag a x).peek b n = s.peek b n := rfl
@[simp] theorem setTag_chkAt_read (a : Nat) (x : Bool) (b : Nat) : (s.setTag a x).chkAt b = s.chkAt b := rfl
@[simp] theorem setTag_engine_read (a : Nat) (x : Bool) (e' : Nat) : (s.setTag a x).engine e' = s.engine e' := rfl
@[simp] theorem setTag_core_read (a : Nat) (x : Bool) (k' : Nat) : (s.setTag a x).core k' = s.core k' := rfl
@[simp] theorem setTag_alive_read (a : Nat) (x : Bool) (d : Nat) : (s.setTag a x).alive d = s.alive d := rfl
@[simp] theorem setTag_physOf_read (a : Nat) (x : Bool) (e' : Nat) : (s.setTag a x).physOf e' = s.physOf e' := rfl
@[simp] theorem setTag_sqEpoch_read (a : Nat) (x : Bool) (q : Nat) : (s.setTag a x).sqEpoch q = s.sqEpoch q := rfl
@[simp] theorem setTag_bank_read (a : Nat) (x : Bool)  : (s.setTag a x).bank = s.bank := rfl
@[simp] theorem setTag_mode_read (a : Nat) (x : Bool)  : (s.setTag a x).mode = s.mode := rfl
@[simp] theorem setEng_reg_read (e : Nat) (g : Eng) (r' : Reg) (j : Nat) : (s.setEng e g).reg r' j = s.reg r' j := rfl
@[simp] theorem setEng_regN_read (e : Nat) (g : Eng) (r' : Reg) (j : Nat) : (s.setEng e g).regN r' j = s.regN r' j := rfl
@[simp] theorem setEng_fld_read (e : Nat) (g : Eng) (fd : Fld) (j : Nat) : (s.setEng e g).fld fd j = s.fld fd j := rfl
@[simp] theorem setEng_flag_read (e : Nat) (g : Eng) (fd : Fld) (j : Nat) : (s.setEng e g).flag fd j = s.flag fd j := rfl
@[simp] theorem setEng_byte_read (e : Nat) (g : Eng) (b : Nat) : (s.setEng e g).byte b = s.byte b := rfl
@[simp] theorem setEng_peek_read (e : Nat) (g : Eng) (b n : Nat) : (s.setEng e g).peek b n = s.peek b n := rfl
@[simp] theorem setEng_chkAt_read (e : Nat) (g : Eng) (b : Nat) : (s.setEng e g).chkAt b = s.chkAt b := rfl
@[simp] theorem setEng_tagAt_read (e : Nat) (g : Eng) (b : Nat) : (s.setEng e g).tagAt b = s.tagAt b := rfl
@[simp] theorem setEng_core_read (e : Nat) (g : Eng) (k' : Nat) : (s.setEng e g).core k' = s.core k' := rfl
@[simp] theorem setEng_alive_read (e : Nat) (g : Eng) (d : Nat) : (s.setEng e g).alive d = s.alive d := rfl
@[simp] theorem setEng_physOf_read (e : Nat) (g : Eng) (e' : Nat) : (s.setEng e g).physOf e' = s.physOf e' := rfl
@[simp] theorem setEng_sqEpoch_read (e : Nat) (g : Eng) (q : Nat) : (s.setEng e g).sqEpoch q = s.sqEpoch q := rfl
@[simp] theorem setEng_bank_read (e : Nat) (g : Eng)  : (s.setEng e g).bank = s.bank := rfl
@[simp] theorem setEng_mode_read (e : Nat) (g : Eng)  : (s.setEng e g).mode = s.mode := rfl
@[simp] theorem setCore_reg_read (k : Nat) (c : Sup) (r' : Reg) (j : Nat) : (s.setCore k c).reg r' j = s.reg r' j := rfl
@[simp] theorem setCore_regN_read (k : Nat) (c : Sup) (r' : Reg) (j : Nat) : (s.setCore k c).regN r' j = s.regN r' j := rfl
@[simp] theorem setCore_fld_read (k : Nat) (c : Sup) (fd : Fld) (j : Nat) : (s.setCore k c).fld fd j = s.fld fd j := rfl
@[simp] theorem setCore_flag_read (k : Nat) (c : Sup) (fd : Fld) (j : Nat) : (s.setCore k c).flag fd j = s.flag fd j := rfl
@[simp] theorem setCore_byte_read (k : Nat) (c : Sup) (b : Nat) : (s.setCore k c).byte b = s.byte b := rfl
@[simp] theorem setCore_peek_read (k : Nat) (c : Sup) (b n : Nat) : (s.setCore k c).peek b n = s.peek b n := rfl
@[simp] theorem setCore_chkAt_read (k : Nat) (c : Sup) (b : Nat) : (s.setCore k c).chkAt b = s.chkAt b := rfl
@[simp] theorem setCore_tagAt_read (k : Nat) (c : Sup) (b : Nat) : (s.setCore k c).tagAt b = s.tagAt b := rfl
@[simp] theorem setCore_engine_read (k : Nat) (c : Sup) (e' : Nat) : (s.setCore k c).engine e' = s.engine e' := rfl
@[simp] theorem setCore_alive_read (k : Nat) (c : Sup) (d : Nat) : (s.setCore k c).alive d = s.alive d := rfl
@[simp] theorem setCore_physOf_read (k : Nat) (c : Sup) (e' : Nat) : (s.setCore k c).physOf e' = s.physOf e' := rfl
@[simp] theorem setCore_sqEpoch_read (k : Nat) (c : Sup) (q : Nat) : (s.setCore k c).sqEpoch q = s.sqEpoch q := rfl
@[simp] theorem setCore_bank_read (k : Nat) (c : Sup)  : (s.setCore k c).bank = s.bank := rfl
@[simp] theorem setCore_mode_read (k : Nat) (c : Sup)  : (s.setCore k c).mode = s.mode := rfl

/-! An update read back. -/

@[simp] theorem reg_setReg (r : Reg) (i : Nat) (v : Word) : (s.setReg r i v).reg r i = v := Tab_look_put_same ..

theorem reg_setReg_ne {r r' : Reg} {i j : Nat} (v : Word) (h : r'.key j ≠ r.key i) : (s.setReg r i v).reg r' j = s.reg r' j :=
  Tab_look_put_ne _ _ _ h

/-- Different registers, or different instances, have different keys. -/
theorem key_inj {r r' : Reg} {i j : Nat} (hi : i < 65536) (hj : j < 65536) : r.key i = r'.key j ↔ r.ctorIdx = r'.ctorIdx ∧ i = j := by
  unfold Reg.key; omega

@[simp] theorem regN_setRegN (r : Reg) (i v : Nat) (h : v < 2 ^ 32) : (s.setRegN r i v).regN r i = v := by
  simpa [State.setRegN, State.regN] using h

@[simp] theorem byte_setByte (a : Nat) (v : Byte) : (s.setByte a v).byte a = v := Tab_look_put_same ..

theorem byte_setByte_ne {a b : Nat} (v : Byte) (h : b ≠ a) : (s.setByte a v).byte b = s.byte b := Tab_look_put_ne _ _ _ h

@[simp] theorem engine_setEng (e : Nat) (g : Eng) : (s.setEng e g).engine e = g := Tab_look_put_same ..

theorem engine_setEng_ne {e e' : Nat} (g : Eng) (h : e' ≠ e) : (s.setEng e g).engine e' = s.engine e' := Tab_look_put_ne _ _ _ h

@[simp] theorem core_setCore (k : Nat) (c : Sup) : (s.setCore k c).core k = c := Tab_look_put_same ..

theorem core_setCore_ne {k k' : Nat} (c : Sup) (h : k' ≠ k) : (s.setCore k c).core k' = s.core k' := Tab_look_put_ne _ _ _ h

@[simp] theorem w_setW (e : Nat) (r : BitVec 5) (v : Word) : (s.setW e r v).w e r = v := by
  simp [State.setW, State.w, Eng.putW, Eng.getW]

theorem w_setW_ne (e : Nat) {r r' : BitVec 5} (v : Word) (h : r' ≠ r) : (s.setW e r v).w e r' = s.w e r' := by
  simp only [State.setW, State.w, engine_setEng, Eng.putW, Eng.getW]
  exact Tab_look_put_ne _ _ _ (fun x => h (BitVec.eq_of_toNat_eq x))

/-! An update that keeps the canonical form of memory. -/

theorem setByte_wf (a : Nat) (v : Byte) (h : Tab.wf memDefault s.mem) : Tab.wf memDefault (s.setByte a v).mem := Tab_wf_put a v h

end Sys2Proof.Laws
end

