-- ==== Sys2Proof/Laws/Memory.lean ====
section
/-! SUPPORT. Memory: every operation that writes it keeps its canonical form. Every change of `mem` in the model is a sequence of
`setByte` and of filters (a wipe, a clear, an erase), so these lemmas cover them all. -/

namespace Sys2Proof.Laws
open Sys2Proof.Machine

/-- Dropping entries keeps a canonical form. -/
theorem Tab_wf_filter {α : Type} [DecidableEq α] {d : Nat → α} {t : Tab α} (p : Nat × α → Bool) (h : Tab.wf d t) :
    Tab.wf d (t.filter p) :=
  ⟨h.1.filter p, fun x hx => h.2 x (List.mem_of_mem_filter hx)⟩

/-- What holds before and through every round holds after `repeatN`. -/
theorem repeatN_inv {σ : Type} (P : σ → Prop) (n : Nat) (f : Nat → σ → σ) (hf : ∀ k s, P s → P (f k s)) (s : σ) (h : P s) :
    P (repeatN n f s) := by
  unfold repeatN
  generalize List.range n = l
  induction l generalizing s with
  | nil => exact h
  | cons k t ih => exact ih (f k s) (hf k s h)

/-- Memory in its canonical form. -/
abbrev MemOk (s : State) : Prop := Tab.wf memDefault s.mem

theorem memOk_iff_wf (s : State) : MemOk s ↔ Memory.wf s.mem := Iff.rfl

theorem reset_mem_ok : MemOk State.reset := Tab_wf_nil memDefault

variable {s : State}

theorem memOk_setBytes (l : List Byte) : ∀ (a : Nat) {s : State}, MemOk s → MemOk (s.setBytes a l) := by
  induction l with
  | nil => intro _ _ h; exact h
  | cons b t ih => intro a s h; exact ih (a + 1) (setByte_wf s a b h)

theorem memOk_poke (a n v : Nat) (h : MemOk s) : MemOk (s.poke a n v) := memOk_setBytes _ a h

theorem memOk_setChk (a : Nat) (c : Chk) (h : MemOk s) : MemOk (s.setChk a c) := h

theorem memOk_setTag (a : Nat) (t : Bool) (h : MemOk s) : MemOk (s.setTag a t) := h

theorem memOk_poisonWord (a : Nat) (h : MemOk s) : MemOk (s.poisonWord a) := memOk_poke _ 8 0 h

theorem memOk_poisonWords (a n : Nat) (h : MemOk s) : MemOk (s.poisonWords a n) :=
  repeatN_inv MemOk n _ (fun _ _ h => memOk_poisonWord _ h) s h

theorem memOk_pokeMask (w en v : Nat) (h : MemOk s) : MemOk (s.pokeMask w en v) :=
  repeatN_inv MemOk 8 _ (fun k s h => by
    show MemOk (if _ then _ else _)
    split
    · exact setByte_wf s _ _ h
    · exact h) s h

/-- Counting and recording a correctable word leave memory alone. -/
@[simp] theorem logCE_mem : s.logCE.mem = s.mem := by
  simp [State.logCE]

/-- Counting and recording an uncorrectable word leave memory alone. -/
@[simp] theorem logUE_mem (a init : Nat) (ev : Bool) : (s.logUE a init ev).mem = s.mem := by
  have h1 : ∀ (t : State) (v w n : Nat), (if t.flag F.MEM_ELOG_VALID 0 = true then t else
      ((t.setRegN .MEM_ELOG 0 v).setPair .MEM_ELOGL .MEM_ELOGH 0 w)).mem = t.mem := by
    intro t v w n; split
    · rfl
    · rfl
  have h2 : ∀ (t : State) (c : Nat), (if ev = true then t.raiseEv 4 8 c else t).mem = t.mem := by
    intro t c; split
    · exact raiseEv_mem ..
    · rfl
  unfold State.logUE
  exact (h2 _ _).trans ((h1 _ _ _ 0).trans (bump_mem ..))

theorem memOk_putMask (w m v init : Nat) (h : MemOk s) : MemOk (s.putMask w m v init) := by
  unfold State.putMask
  extract_lets t
  have h0 : MemOk t := by
    show MemOk (if _ then _ else _)
    split <;> exact h
  clear_value t
  split
  · exact memOk_pokeMask w m v h0
  · split
    · exact memOk_setChk w _ (memOk_poke w 8 v h0)
    · split
      · exact memOk_pokeMask w m v h0
      · exact memOk_setChk w _ (memOk_pokeMask w m v (by simpa [MemOk] using h0))
      · exact memOk_setChk w _ (memOk_pokeMask w m v (memOk_poke w 8 0 h0))
      · exact memOk_pokeMask w m v (by simpa [MemOk] using h0)

/-- Holding the forms of fetched instructions leaves memory alone. -/
theorem holdFetch_mem (u w en : Nat) : (s.holdFetch u w en).mem = s.mem := by
  unfold State.holdFetch
  extract_lets
  split
  · refine repeatN_inv (fun t => t.mem = s.mem) _ _ (fun k t h => ?_) s rfl
    dsimp only
    split
    · exact h
    · exact h
  · rfl

/-- Remembering a write leaves memory alone. -/
@[simp] theorem remember_mem (t : State) (u : Nat) (eng : Option Nat) (win : Bool) (w en : Nat) :
    (s.remember t u eng win w en).mem = t.mem := by
  unfold State.remember
  split <;> rfl

/-- An armed injection strikes the check bits alone. -/
@[simp] theorem inject_mem (a : Nat) : (s.inject a).mem = s.mem := by
  unfold State.inject
  extract_lets mode t
  split
  · rfl
  · split
    · rfl
    · split
      · rfl
      · split <;> rfl

/-- Bytes of a word written by any agent keep the form. -/
theorem memOk_writeMaskAt (u : Nat) (eng : Option Nat) (win : Bool) (w en v init : Nat) (h : MemOk s) :
    MemOk (s.writeMaskAt u eng win w en v init) := by
  unfold State.writeMaskAt
  extract_lets m t
  split
  · exact h
  · show Tab.wf memDefault (s.remember t u eng win w m).mem
    rw [remember_mem]
    clear_value m
    cases eng with
    | some e => exact memOk_putMask _ _ _ _ h
    | none =>
      show Tab.wf memDefault (State.inject _ w).mem
      rw [inject_mem]
      exact memOk_putMask _ _ _ _ (by simpa [MemOk, holdFetch_mem] using h)

theorem memOk_writeMask (w en v init : Nat) (h : MemOk s) : MemOk (s.writeMask w en v init) := memOk_writeMaskAt _ _ _ _ _ _ _ h

/-- A write of bytes by any initiator keeps the form. -/
theorem memOk_writeMem (a n v init : Nat) (h : MemOk s) : MemOk (s.writeMem a n v init) := memOk_writeMask _ _ _ _ h

/-- A wipe keeps the form. -/
theorem memOk_wipeSram (doms : List Nat) (keep : Bool) (h : MemOk s) : MemOk (s.wipeSram doms keep) := Tab_wf_filter _ h

/-- Clearing task inputs keeps the form. -/
theorem memOk_clearInputs (b : Nat) (h : MemOk s) : MemOk (s.clearInputs b) := Tab_wf_filter _ h

/-- A store buffer entry that drains keeps the form. -/
theorem memOk_drainEntry (e u : Nat) (x : SbEntry) (rest : List SbEntry) (h : MemOk s) : MemOk (s.drainEntry e u x rest) := by
  unfold State.drainEntry
  simp only
  split
  · simpa [State.fence, MemOk] using h
  · split <;> exact memOk_writeMaskAt _ _ _ _ _ _ _ h

end Sys2Proof.Laws
end

