-- ==== Sys2Proof/Laws/Run.lean ====
section
/-! SUPPORT. What running an instruction can come to, on a lane engine and on a supervisor core, and what ends every command. -/

namespace Sys2Proof.Laws
open Sys2Proof.Machine

variable {s t : State}

/-! The last of two writes of one core or engine stands. -/

@[simp] theorem setCore_setCore (k : Nat) (c d : Sup) : (s.setCore k c).setCore k d = s.setCore k d := by
  simp [State.setCore]

@[simp] theorem setEng_setEng (e : Nat) (g h : Eng) : (s.setEng e g).setEng e h = s.setEng e h := by
  simp [State.setEng]

/-! The end of a command. -/

/-- Where nothing is left to be acted on, a command ends as it is. -/
theorem finish_of_quiet (h : s.Quiet) : s.finish = s := by
  unfold State.finish; exact if_pos h

/-- After its end nothing of a command is left to be acted on. -/
theorem finish_quiet (s : State) : s.finish.Quiet := by
  unfold State.finish
  split
  · assumption
  · exact ⟨rfl, rfl⟩

theorem ends_of_quiet (h : s.Quiet) : s.ends = .next s := by unfold State.ends; rw [finish_of_quiet h]

/-- A state with the same events and notes is quiet too. -/
theorem quiet_of_eq (h : s.Quiet) (h1 : t.raised = s.raised) (h2 : t.notes = s.notes) : t.Quiet := ⟨h1.trans h.1, h2.trans h.2⟩

/-- Time that reaches an ec on the way to a later one is there at the later one (R20). -/
theorem reach_reach {a b : Nat} (s : State) (h : a ≤ b) : (s.reach a).reach b = s.reach b := by
  have hc : (s.reach a).engClock = s.engClock := rfl
  show ({ s.reach a with now := if (s.reach a).engClock then max (s.reach a).now b else (s.reach a).now } : State) = _
  rw [hc]
  unfold State.reach
  cases s.engClock
  · rfl
  · simp only [if_true]; congr 1; omega

/-! Lane engines. -/

@[simp] theorem laneAdvance_raised (e cnt pc : Nat) : (s.laneAdvance e cnt pc).raised = s.raised := rfl
@[simp] theorem laneAdvance_notes (e cnt pc : Nat) : (s.laneAdvance e cnt pc).notes = s.notes := rfl
@[simp] theorem laneAt_raised (e cnt : Nat) : (s.laneAt e cnt).raised = s.raised := rfl
@[simp] theorem laneAt_notes (e cnt : Nat) : (s.laneAt e cnt).notes = s.notes := rfl
@[simp] theorem laneAt_engine (e cnt e' : Nat) : (s.laneAt e cnt).engine e' = s.engine e' := rfl
@[simp] theorem laneAt_w (e cnt e' : Nat) (r : BitVec 5) : (s.laneAt e cnt).w e' r = s.w e' r := rfl
@[simp] theorem laneAt_acc (e cnt e' : Nat) (n : BitVec 2) : (s.laneAt e cnt).acc e' n = s.acc e' n := rfl
@[simp] theorem laneAt_lcap (e cnt e' : Nat) (k : BitVec 3) : (s.laneAt e cnt).lcap e' k = s.lcap e' k := rfl
@[simp] theorem setW_raised (e : Nat) (r : BitVec 5) (v : Word) : (s.setW e r v).raised = s.raised := rfl
@[simp] theorem setW_notes (e : Nat) (r : BitVec 5) (v : Word) : (s.setW e r v).notes = s.notes := rfl
@[simp] theorem setAcc_raised (e : Nat) (n : BitVec 2) (v : Dword) : (s.setAcc e n v).raised = s.raised := rfl
@[simp] theorem setAcc_notes (e : Nat) (n : BitVec 2) (v : Dword) : (s.setAcc e n v).notes = s.notes := rfl
@[simp] theorem setLcap_raised (e : Nat) (k : BitVec 3) (v : Cap) : (s.setLcap e k v).raised = s.raised := rfl
@[simp] theorem setLcap_notes (e : Nat) (k : BitVec 3) (v : Cap) : (s.setLcap e k v).notes = s.notes := rfl

/-- A word in a valid state logs nothing when it is read (R433). -/
theorem checkAs_valid (s : State) (a init : Nat) : s.checkAs .valid a init = (false, s) := by
  unfold State.checkAs State.checkAt
  split <;> rfl

/-- A read whose word passes its check logs nothing (R433). -/
theorem checkRead_valid (s : State) (a init : Nat) (h : s.chkAt a = .valid) : s.checkRead a init = (false, s) := by
  unfold State.checkRead
  rw [h, checkAs_valid]

/-- A fetch whose word passes its check, be it the form that the fetch stage holds, logs nothing (R72). -/
theorem laneFetch_valid (s : State) (e idx : Nat) (h : s.chkAt (s.laneAddr e (4 * idx)) = .valid)
    (ho : ∀ o ∈ (s.engine e).old, o.chk = .valid) :
    (s.laneFetch e idx).1 = false ∧ (s.laneFetch e idx).2.2 = s := by
  unfold State.laneFetch
  split
  · rename_i o hf
    rw [ho o (List.mem_of_find?_eq_some hf), checkAs_valid]; exact ⟨rfl, rfl⟩
  · rw [checkRead_valid _ _ _ h]; exact ⟨rfl, rfl⟩

/-- What an instruction of a lane engine comes to once it is fetched. -/
def laneOutcome (s : State) (e cnt : Nat) : LRes → State
  | .seq t => t.laneAdvance e cnt ((s.engine e).pc + 1)
  | .jump t k => t.laneAdvance e cnt k
  | .stop t =>
    let t := t.laneAdvance e cnt (s.engine e).pc
    t.setEng e ((t.engine e).endTask 0)
  | .abort t code => t.laneAbort e code (s.engine e).pc (s.laneFirst e)
  | .refuse t at_ => t.laneAbort e 4 (s.engine e).pc at_

/-- A ready instruction comes to what its meaning says in its last ec. -/
theorem laneRun_ready {e cnt : Nat} (h : s.LaneReady e cnt) (f : State → LRes) :
    s.laneRun e cnt f = laneOutcome s e cnt (f (s.laneAt e cnt)) := by
  have h0 := h.some_
  have hc := h.budget
  have hb1 : ¬ (s.engine e).budget < (s.engine e).used + 1 := by omega
  have hb : ¬ (s.engine e).budget < (s.engine e).used + cnt := by omega
  have hp : (s.engine e).pc ≠ 4095 := by have := h.below; omega
  obtain ⟨h1, h2⟩ := h.valid
  have h3 := h.legal
  unfold State.laneNext State.laneFirst at h1 h2 h3
  have hr : (s.reach ((s.engine e).start + (s.engine e).used)).reach ((s.engine e).start + (s.engine e).used + cnt - 1)
      = s.laneAt e cnt := reach_reach _ (by omega)
  unfold State.laneRun
  simp only [h.running, h.clock, Bool.not_true, Bool.or_self, Bool.false_eq_true, if_false, hb1, hb, h1, h2, h3, hr]
  unfold laneOutcome State.laneFirst
  split <;> simp_all

/-- An instruction whose first ec lies past its budget stops the task (R58). -/
theorem laneRun_budget {e cnt : Nat} (hk : s.engClock = true) (hr : (s.engine e).running = true) (hb : (s.engine e).budget < (s.engine e).used + 1)
    (f : State → LRes) : s.laneRun e cnt f = s.budgetStop e (s.engine e).pc := by
  simp [State.laneRun, hk, hr, hb]

/-- An instruction on an engine that runs no task does nothing. -/
theorem laneRun_idle {e cnt : Nat} (hr : (s.engine e).running = false) (f : State → LRes) : s.laneRun e cnt f = s := by
  simp [State.laneRun, hr]

/-- An instruction of a lane engine does nothing while the engine clock stands (R18). -/
theorem laneRun_stands {e cnt : Nat} (hk : s.engClock = false) (f : State → LRes) : s.laneRun e cnt f = s := by
  simp [State.laneRun, hk]

/-- A ready instruction that goes on quietly. -/
theorem laneRun_seq {e cnt : Nat} (h : s.LaneReady e cnt) (f : State → LRes) (hf : f (s.laneAt e cnt) = .seq t) (hq : t.Quiet) :
    Host.Outcome.next (s.laneRun e cnt f).finish = s.laneDone e cnt t := by
  rw [laneRun_ready h, hf]
  exact congrArg _ (finish_of_quiet (quiet_of_eq hq rfl rfl))

/-- A ready instruction that goes on, whatever it raises. -/
theorem laneRun_ends {e cnt : Nat} (h : s.LaneReady e cnt) (f : State → LRes) (hf : f (s.laneAt e cnt) = .seq t) :
    Host.Outcome.next (s.laneRun e cnt f).finish = s.laneEnds e cnt t := by
  rw [laneRun_ready h, hf]; rfl

/-- A ready instruction that aborts with no effect of its own. -/
theorem laneRun_aborts {e cnt code : Nat} (h : s.LaneReady e cnt) (f : State → LRes)
    (hf : f (s.laneAt e cnt) = .abort (s.laneAt e cnt) code) :
    Host.Outcome.next (s.laneRun e cnt f).finish = s.laneAborts e cnt code := by
  rw [laneRun_ready h, hf]; rfl

/-! Supervisor cores. -/

@[simp] theorem setSreg_raised (k : Nat) (r : BitVec 5) (v : Dword) : (s.setSreg k r v).raised = s.raised := rfl
@[simp] theorem setSreg_notes (k : Nat) (r : BitVec 5) (v : Dword) : (s.setSreg k r v).notes = s.notes := rfl

/-- What an instruction of a supervisor core comes to once it is fetched. -/
def supOutcome (s : State) (k : Nat) : SRes → State
  | .seq t => (t.setCore k { t.core k with pc := ((s.core k).pc + 4) % 2 ^ 40 }).retires k
  | .jump t a => (t.setCore k { t.core k with pc := a }).retires k
  | .gone t => t.retires k
  | .stay t => t
  | .exc t v info faddr after => (if after then t.retires k else t).supException k v info (if after then (s.core k).pc + 4 else (s.core k).pc) faddr none

/-- A ready instruction comes to what its meaning says. -/
theorem supRun_ready {k : Nat} (h : s.SupReady k) (f : State → SRes) : s.supRun k f = supOutcome s k (f s) := by
  obtain ⟨w, hf, hl⟩ := h.fetch
  unfold State.supRun
  simp only [h.runs, Bool.not_true, Bool.false_eq_true, if_false, hf, hl, State.doubtAfter, Bool.false_and, Bool.not_false, if_true]
  cases f s <;> rfl

/-- An instruction on a core that issues nothing does nothing. -/
theorem supRun_idle {k : Nat} (h : s.coreRuns k = false) (f : State → SRes) : s.supRun k f = s := by
  simp [State.supRun, h]

/-- A ready instruction that goes on quietly. -/
theorem supRun_seq {k : Nat} (h : s.SupReady k) (f : State → SRes) (hf : f s = .seq t) (hq : t.Quiet) :
    (Host.Outcome.next (s.supRun k f).finish : Host.Outcome State Fault Refusal) =
      .next ((t.setCore k { t.core k with pc := ((s.core k).pc + 4) % 2 ^ 40 }).retires k) := by
  rw [supRun_ready h, hf]
  exact congrArg _ (finish_of_quiet (quiet_of_eq hq rfl rfl))

/-- A ready instruction that takes an exception of its own PC. -/
theorem supRun_traps {k v info faddr : Nat} (h : s.SupReady k) (f : State → SRes) (hf : f s = .exc s v info faddr false) :
    Host.Outcome.next (s.supRun k f).finish = s.supTraps k v info faddr := by
  rw [supRun_ready h, hf]; rfl

/-- A ready instruction that leaves its core as c. -/
theorem supRun_done {k : Nat} {c : Sup} (h : s.SupReady k) (f : State → SRes) (hf : f s = .seq (s.setCore k c)) :
    (Host.Outcome.next (s.supRun k f).finish : Host.Outcome State Fault Refusal) = s.supDone k c := by
  rw [supRun_seq h f hf (quiet_of_eq h.quiet rfl rfl)]
  simp [State.supDone]

end Sys2Proof.Laws
end

