-- ==== Sys2Proof/Tests/Slice0.lean ====
section
/-! SUPPORT. Tests of the model: ill-formed commands that the check refuses, words of spec/04 that decode, effects worked out by hand
from the spec, and a witness for the hypotheses of each statement. -/

namespace Sys2Proof.Machine

/-- Bytes written with good check bits. -/
def State.fill (s : State) (a : Nat) (l : List Byte) : State :=
  (List.range l.length).foldl (fun s i => s.setChk (a + i) .valid) (s.setBytes a l)
/-- An 8-byte word written with good check bits. -/
def State.put8 (s : State) (a v : Nat) : State := s.fill a (leBytes 8 v)

end Sys2Proof.Machine

namespace Sys2Proof.Tests

set_option Elab.async false

open Sys2Proof.Machine

/-! Ill-formed commands. -/

theorem test_ill_time_odd_register : Instr.wf (.time (.lane 0) 3) = false := by decide
theorem test_ill_shift_fields_of_32 : Instr.wf (.shli (.lane 0) 1 2 32) = false := by decide
theorem test_ill_shri_63 : Instr.wf (.shri (.lane 0) 1 2 63) = false := by decide
theorem test_ill_sari_32 : Instr.wf (.sari (.lane 0) 1 2 32) = false := by decide
theorem test_ill_rori_32 : Instr.wf (.rori (.lane 0) 1 2 32) = false := by decide
theorem test_ill_interp2_past_w31 : Instr.wf (.interp2 (.lane 0) 1 31 2) = false := by decide
theorem test_ill_interp3_past_w31 : Instr.wf (.interp3 (.lane 0) 1 30 2) = false := by decide
theorem test_ill_walk_depth_0 : Instr.wf (.walk (.lane 0) 1 2 3 1 0) = false := by decide
theorem test_ill_walk_depth_25 : Instr.wf (.walk (.lane 0) 1 2 3 1 25) = false := by decide
theorem test_ill_walk_past_w31 : Instr.wf (.walk (.lane 0) 1 31 3 1 5) = false := by decide
theorem test_ill_rep_count_without_rsrc : Instr.wf (.rep (.lane 0) false false false false false 1 0) = false := by decide
theorem test_ill_wide_load : Instr.wf (.ldw (.lane 0) true 1 2 0) = false := by decide
theorem test_ill_wide_store : Instr.wf (.stw (.lane 0) true 1 2 0) = false := by decide
theorem test_ill_tin_8 : Instr.wf (.tin (.lane 0) 1 8) = false := by decide
theorem test_ill_scrub_of_no_macro : Instr.wf (.scrubVisit 2004) = false := by decide
theorem test_ill_remap_of_no_macro : Instr.wf (.remapComplete 2004 0) = false := by decide
theorem test_ill_tdata_768 : Instr.wf (.tdata (.sup 0) 768 0) = false := by decide
theorem test_ill_rejoin_in_no_mode : Instr.wf (.pairRejoin 0 2) = false := by decide
theorem test_ill_pair_fault_of_no_cause : Instr.wf (.pairFault 0 2) = false := by decide
theorem test_ill_host_read_of_0 : Instr.wf (.hostRead 0 0 0) = false := by decide
theorem test_ill_host_write_of_0 : Instr.wf (.hostWrite 0 0 0 0) = false := by decide
theorem test_ill_spi_read_of_0 : Instr.wf (.spiRead 3 0 0) = false := by decide
theorem test_ill_spi_write_of_0 : Instr.wf (.spiWrite 0 0 0) = false := by decide
theorem test_ill_rdreq_of_0 : Instr.wf (.rdreq 0 0 0 0 0 0 0) = false := by decide
theorem test_ill_wr_of_0 : Instr.wf (.wr 0 0 0 0 0 0 0 0) = false := by decide
theorem test_ill_turn_too_long : Instr.wf (.syncreq 0 0 0 160001) = false := by decide
theorem test_ill_loadid_of_no_target : Instr.wf (.loadid (.sup 0) 192 false false) = false := by decide
theorem test_ill_wr_of_252 : Instr.wf (.wr 0 0 0 0 0 0 252 0) = false := by decide
theorem test_ill_rdcpl_of_256 : Instr.wf (.rdcpl 0 0 0 0 0 0 256 0) = false := by decide

/-! Words of spec/04. -/

theorem test_lane_words :
    decodeLane (.lane 0) 0x2C645FFA#32 = some (.blt (.lane 0) 3 4 (-6)) ∧
    decodeLane (.lane 0) 0x34000120#32 = some (.call (.lane 0) 0x120) ∧
    decodeLane (.lane 0) 0x38090001#32 = some (.callr (.lane 0) 9) ∧
    decodeLane (.lane 0) 0x38000000#32 = some (.ret (.lane 0)) ∧
    decodeLane (.lane 0) 0x10642983#32 = some (.fma (.lane 0) 3 4 5 6) ∧
    decodeLane (.lane 0) 0x0C042820#32 = some (.mac (.lane 0) 2 4 5) ∧
    decodeLane (.lane 0) 0x44E38040#32 = some (.lds (.lane 0) 7 3 64) ∧
    decodeLane (.lane 0) 0x59200003#32 = some (.smp (.lane 0) 9 3) ∧
    decodeLane (.lane 0) 0x61842000#32 = some (.look (.lane 0) 12 4 1) ∧
    decodeLane (.lane 0) 0x61842D43#32 = some (.walk (.lane 0) 12 4 1 3 10) ∧
    decodeLane (.lane 0) 0x64A01100#32 = some (.send (.lane 0) 5 17) ∧
    decodeLane (.lane 0) 0x64C02801#32 = some (.recv (.lane 0) 6 40) ∧
    decodeLane (.lane 0) 0x69400002#32 = some (.time (.lane 0) 10) ∧
    decodeLane (.lane 0) 0x68000001#32 = some (.ifence (.lane 0)) ∧
    decodeLane (.lane 0) 0x68000000#32 = some (.endTask (.lane 0)) ∧
    decodeLane (.lane 0) 0x00000000#32 = none ∧
    decodeLane (.lane 0) 0xFFFFFFFF#32 = none ∧
    decodeLane (.lane 0) 0x69200002#32 = none := by decide +kernel
theorem test_words_are_theirs :
    encodeLane (.blt (.lane 0) 3 4 (-6)) = some 0x2C645FFA#32 ∧
    encodeLane (.call (.lane 0) 0x120) = some 0x34000120#32 ∧
    encodeLane (.callr (.lane 0) 9) = some 0x38090001#32 ∧
    encodeLane (.ret (.lane 0)) = some 0x38000000#32 ∧
    encodeLane (.fma (.lane 0) 3 4 5 6) = some 0x10642983#32 ∧
    encodeLane (.mac (.lane 0) 2 4 5) = some 0x0C042820#32 ∧
    encodeLane (.lds (.lane 0) 7 3 64) = some 0x44E38040#32 ∧
    encodeLane (.smp (.lane 0) 9 3) = some 0x59200003#32 ∧
    encodeLane (.look (.lane 0) 12 4 1) = some 0x61842000#32 ∧
    encodeLane (.walk (.lane 0) 12 4 1 3 10) = some 0x61842D43#32 ∧
    encodeLane (.send (.lane 0) 5 17) = some 0x64A01100#32 ∧
    encodeLane (.recv (.lane 0) 6 40) = some 0x64C02801#32 ∧
    encodeLane (.time (.lane 0) 10) = some 0x69400002#32 ∧
    encodeLane (.ifence (.lane 0)) = some 0x68000001#32 ∧
    encodeLane (.endTask (.lane 0)) = some 0x68000000#32 := by decide +kernel

/-! States. -/

/-- A device in RUN with every domain powered. -/
def up : State := { State.reset with regs := [(Reg.key .PMU_MODE 0, 6), (Reg.key .PMU_DOMSTAT 0, 0xFFFFF), (Reg.key .CLK_STAT 0, 2)], boot := .done }
/-- The same, with a capability of a free channel in c7 of core 0. -/
def fl (k : Nat) : State := up.setCore 0 { up.core 0 with cap := [(7, ⟨true, BitVec.ofNat 128 (k + 2 ^ 40 + 2 ^ 86 + 9 * 2 ^ 88)⟩)] }
/-- The same, with a plan that owns objects 0 to n − 1 of a type. -/
def owns (ot n : Nat) : State := ((up.setFld F.SCH_STATUS_RUNNING 0 1).setBytes (tagWordAddr 0 0) [1]).poke (capsAddr 0 0 0) 16 (n * 2 ^ 40 + ot * 2 ^ 88)
/-- The same, with a task at an index of engine 511. -/
def lane (pc : Nat) (f : Eng → Eng := id) : State :=
  let s := up.setEng 511 (f { Eng.init with woken := true, running := true, pc := pc, budget := 1000 })
  s.fill (s.laneAddr 511 (4 * pc)) [0, 0, 0, 0x14]
/-- The same, with w registers. -/
def lw (l : List (BitVec 5 × Word)) (f : Eng → Eng := id) (pc : Nat := 5) : State := l.foldl (fun s x => s.setW 511 x.1 x.2) (lane pc f)
/-- A core at the start of its TCM, with s registers. -/
def sup (l : List (Nat × Dword)) (f : Sup → Sup) : State :=
  (up.setCore 0 (f (l.foldl (fun c x => c.putS x.1 x.2) { Sup.init with pc := 0x20000000 }))).fill 0x20000000 [0, 0, 0, 0x14]
/-- A running plan whose slot table of a square holds one entry. -/
def slots (sq w : Nat) (f : State → State) : State :=
  f (((up.setFld F.SCH_STATUS_RUNNING 0 1).put8 (slotAddr 0 sq 0) w).setFld F.SQ_EPOCH_SQEPOCH sq 0)

theorem quiet_of {s : State} (h : s.raised = [] ∧ s.notes = []) : s.Quiet := h
theorem takes_of {s : State} {who : Initiator} {r : Reg} {i : Nat}
    (h : s.raised = [] ∧ s.notes = [] ∧ s.answers (r.addr i) = true ∧ s.regMay who.agent r i = true) : s.Takes who r i :=
  ⟨⟨h.1, h.2.1⟩, h.2.2.1, h.2.2.2⟩
theorem lane_ready {s : State} {e cnt : Nat}
    (h : s.raised = [] ∧ s.notes = [] ∧ s.engClock = true ∧ (s.engine e).running = true ∧ 0 < cnt ∧ (s.engine e).used + cnt ≤ (s.engine e).budget ∧
      ((s.laneNext e).1 = false ∧ (s.laneNext e).2.2 = s.reach (s.laneFirst e)) ∧ legalWord e (s.laneNext e).2.1 = true ∧
      (s.engine e).pc < 4095) : s.LaneReady e cnt :=
  ⟨⟨h.1, h.2.1⟩, h.2.2.1, h.2.2.2.1, h.2.2.2.2.1, h.2.2.2.2.2.1, h.2.2.2.2.2.2.1, h.2.2.2.2.2.2.2.1, h.2.2.2.2.2.2.2.2⟩
/-- A fetch that answers a word without doubt and leaves the state. -/
def fetched (x : Except Nat (Nat × Bool)) : Bool := match x with
  | .ok (w, d) => !d && legalSup w
  | .error _ => false
theorem sup_ready {s : State} {k : Nat}
    (h : s.raised = [] ∧ s.notes = [] ∧ s.coreRuns k = true ∧ (s.supFetch k (s.core k).pc).2 = s ∧
      fetched (s.supFetch k (s.core k).pc).1 = true) : s.SupReady k := by
  obtain ⟨h1, h2, h3, h4, h5⟩ := h
  refine ⟨⟨h1, h2⟩, h3, ?_⟩
  rcases hf : s.supFetch k (s.core k).pc with ⟨_ | ⟨w, d⟩, t⟩ <;> simp [hf, fetched] at h4 h5
  exact ⟨w, by simp [h4, h5.1], h5.2⟩

/-! Effects. -/

/-- R60: the sum 2^31 saturates. -/
theorem test_adds_saturates : (match exec (.adds (.lane 511) 3 1 2) (lw [(1, 0x7FFFFFFF), (2, 1)]) with
    | .next t => t.w 511 3 == 0x7FFFFFFF#32 && (t.engine 511).pc == 6
    | _ => false) = true := by decide +kernel
/-- R60: −1 × −1 in Q15 saturates. -/
theorem test_qmul15_of_minus_one : (match exec (.qmul15 (.lane 511) 1 1 1) (lw [(1, 0x8000)]) with
    | .next t => t.w 511 1 == 0x7FFF#32 && (t.engine 511).used == 2
    | _ => false) = true := by decide +kernel
/-- R61. -/
theorem test_macs_saturates : (match exec (.macs (.lane 511) 0 1 1) ((lw [(1, 2)]).setAcc 511 0 0x7FFFFFFFFFFFFFFF) with
    | .next t => t.acc 511 0 == 0x7FFFFFFFFFFFFFFF#64
    | _ => false) = true := by decide +kernel
/-- R42: 1 + 2^-24 is a tie. -/
theorem test_fadd_rounds_to_even : (match exec (.fadd (.lane 511) 3 1 2) (lw [(1, 0x3F800000), (2, 0x33800000)]) with
    | .next t => t.w 511 3 == 0x3F800000#32
    | _ => false) = true := by decide +kernel
/-- R69, R93: a shared store waits and its engine reads it back. -/
theorem test_sts_waits : (match exec (.sts (.lane 511) 2 1 0) (lw [(1, 0x40004), (2, 0xA5)]) with
    | .next t => t.laneBytes 511 0x40004 4 == 0xA5 && t.peek (t.laneAddr 511 0x40004) 4 == 0
    | _ => false) = true := by decide +kernel
/-- R51: a full stack that traps aborts under 0x05. -/
theorem test_call_on_full_stack : (match exec (.call (.lane 511) 9) (lane 5 (fun g => { g with stack := List.replicate 8 1 })) with
    | .next t => t.fld F.SQ_ABORT_CAUSE 63 == 5 && !(t.engine 511).running
    | _ => false) = true := by decide +kernel
/-- R362: 0 − 1 is negative and borrows. -/
theorem test_sup_sub_flags : (match exec (.sub (.sup 0) 3 1 2) (sup [(2, 1)] id) with
    | .next t => t.sreg 0 3 == 0xFFFFFFFFFFFFFFFF#64 && (t.core 0).pst == 0x10 && (t.core 0).pc == 0x20000004
    | _ => false) = true := by decide +kernel
/-- R363: WAIT takes exception 1 above ring 1, whose vector entry is at VTBR + 16. -/
theorem test_ring_2_may_not_wait : (match exec (.wait 0) (let s := sup [] (fun c => { c with pst := 2, vtbr := 0x20001000, tsbr := 0x20000400, rgnb := [(0, 0xFF + 0x20000000)], rgnl := [(0, 0x20000FFF)] }); (s.put8 0x20001010 0x20000800).put8 0x20001018 0x20000600) with
    | .next t => (t.core 0).pc == 0x20000800 && (t.core 0).ring == 0 && t.peek 0x20000510 8 == 1
    | _ => false) = true := by decide +kernel

/-! Witnesses. -/

theorem witness_StepIdleTick :
    (∃ (s : State), (s.pending = []) ∧ (s.engClock = true)) ∧
    (∃ (s : State), (s.pending = []) ∧ (s.engClock = false)) :=
  ⟨⟨(up), (by decide +kernel)⟩,
   ⟨(State.reset), (by decide +kernel)⟩⟩

theorem witness_StepKeepsQuiet :
    (∃ (s : State), (s.Quiet)) :=
  ⟨(up), (quiet_of (by decide +kernel))⟩

theorem witness_LaneDecodeEncode :
    (∃ (e : Fin 512) (i : Instr) (w : Word), (i.core = some (.lane e)) ∧ (encodeLane i = some w)) :=
  ⟨(511), (.walk (.lane 511) 12 4 1 3 10), (0x61842D43#32), (by decide +kernel)⟩

theorem witness_LaneInteger :
    (∃ (s : State) (e : Fin 512), (s.LaneReady e.val 1)) ∧
    (∃ (s : State) (e : Fin 512) (ra : BitVec 5) (n : Nat), let a := (s.w e.val ra); (s.LaneReady e.val 1) ∧ (a = 0 ∧ n = 32 ∨ n < 32 ∧ 2 ^ (31 - n) ≤ a.toNat ∧ a.toNat < 2 ^ (32 - n))) ∧
    (∃ (s : State) (e : Fin 512) (ra : BitVec 5) (n : Nat), let a := (s.w e.val ra); (s.LaneReady e.val 1) ∧ (a = 0 ∧ n = 32 ∨ n < 32 ∧ 2 ^ (31 - n) ≤ a.toNat ∧ a.toNat < 2 ^ (32 - n))) ∧
    (∃ (s : State) (e : Fin 512) (ra : BitVec 5) (n : Nat), let a := (s.w e.val ra); (s.LaneReady e.val 1) ∧ (a = 0 ∧ n = 32 ∨ n < 32 ∧ 2 ^ (31 - n) ≤ a.toNat ∧ a.toNat < 2 ^ (32 - n))) ∧
    (∃ (s : State) (e : Fin 512) (sh : BitVec 6), (s.LaneReady e.val 1) ∧ (sh.toNat < 32)) ∧
    (∃ (s : State) (e : Fin 512) (sh : BitVec 6), (s.LaneReady e.val 1) ∧ (sh.toNat < 32)) ∧
    (∃ (s : State) (e : Fin 512) (sh : BitVec 6), (s.LaneReady e.val 1) ∧ (32 ≤ sh.toNat)) ∧
    (∃ (s : State) (e : Fin 512) (sh : BitVec 6), (s.LaneReady e.val 1) ∧ (32 ≤ sh.toNat)) ∧
    (∃ (s : State) (e : Fin 512), (s.LaneReady e.val 2)) :=
  ⟨⟨(lw [(1, 0x80000000), (2, 0x7FFFFFFF)]), (511), (lane_ready (by decide +kernel))⟩,
   ⟨(lw [(1, 0), (2, 33)]), (511), (1), (32), (lane_ready (by decide +kernel)), (by decide +kernel)⟩,
   ⟨(lw [(1, 0x80000000)]), (511), (1), (0), (lane_ready (by decide +kernel)), (by decide +kernel)⟩,
   ⟨(lw [(1, 1)]), (511), (1), (31), (lane_ready (by decide +kernel)), (by decide +kernel)⟩,
   ⟨(lw [(1, 0x80000000), (2, 0x7FFFFFFF)]), (511), (0), (lane_ready (by decide +kernel)), (by decide +kernel)⟩,
   ⟨(lw [(1, 0x80000000), (2, 0x7FFFFFFF)]), (511), (31), (lane_ready (by decide +kernel)), (by decide +kernel)⟩,
   ⟨(lw [(1, 0x80000000), (2, 0x7FFFFFFF)]), (511), (32), (lane_ready (by decide +kernel)), (by decide +kernel)⟩,
   ⟨(lw [(1, 0x80000000), (2, 0x7FFFFFFF)]), (511), (63), (lane_ready (by decide +kernel)), (by decide +kernel)⟩,
   ⟨(lw [(1, 0x8000), (2, 0x8000)]), (511), (lane_ready (by decide +kernel))⟩⟩

theorem witness_LaneAccumulate :
    (∃ (s : State) (e : Fin 512), (s.LaneReady e.val 2)) ∧
    (∃ (s : State) (e : Fin 512), (s.LaneReady e.val 1)) :=
  ⟨⟨((lw [(1, 0x80000000), (2, 0x7FFFFFFF)]).setAcc 511 2 0x7FFFFFFFFFFFFFFF), (511), (lane_ready (by decide +kernel))⟩,
   ⟨(lw [(1, 0x80000000), (2, 0x7FFFFFFF)]), (511), (lane_ready (by decide +kernel))⟩⟩

theorem witness_LaneFloat :
    (∃ (s : State) (e : Fin 512), (s.LaneReady e.val 3)) ∧
    (∃ (s : State) (e : Fin 512), (s.LaneReady e.val 4)) ∧
    (∃ (s : State) (e : Fin 512), (s.LaneReady e.val 14)) ∧
    (∃ (s : State) (e : Fin 512), (s.LaneReady e.val 16)) ∧
    (∃ (s : State) (e : Fin 512), (s.LaneReady e.val 1)) :=
  ⟨⟨(lw [(1, 0x3F800000), (2, 0x40000000), (4, 0xBF800000)]), (511), (lane_ready (by decide +kernel))⟩,
   ⟨(lw [(1, 0x3F800000), (2, 0x40000000), (4, 0xBF800000)]), (511), (lane_ready (by decide +kernel))⟩,
   ⟨(lw [(1, 0x3F800000), (2, 0x40000000), (4, 0xBF800000)]), (511), (lane_ready (by decide +kernel))⟩,
   ⟨(lw [(1, 0x3F800000), (2, 0x40000000), (4, 0xBF800000)]), (511), (lane_ready (by decide +kernel))⟩,
   ⟨(lw [(1, 0x3F800000), (2, 0x40000000), (4, 0xBF800000)]), (511), (lane_ready (by decide +kernel))⟩⟩

theorem witness_FloatCorners :
    (∃ (a : Word) (b : Word), let nan := fun (x : Word) => x.toNat / 2 ^ 23 % 256 = 255 ∧ x.toNat % 2 ^ 23 ≠ 0; (nan a ∨ nan b)) ∧
    (∃ (a : Word) (b : Word) (c : Word), let nan := fun (x : Word) => x.toNat / 2 ^ 23 % 256 = 255 ∧ x.toNat % 2 ^ 23 ≠ 0; (nan a ∨ nan b ∨ nan c)) ∧
    (∃ (a : Word) (b : Word), let nan := fun (x : Word) => x.toNat / 2 ^ 23 % 256 = 255 ∧ x.toNat % 2 ^ 23 ≠ 0; (nan a ∧ nan b)) ∧
    (∃ (a : Word) (b : Word), let nan := fun (x : Word) => x.toNat / 2 ^ 23 % 256 = 255 ∧ x.toNat % 2 ^ 23 ≠ 0; let small := fun (x : Word) => x.toNat / 2 ^ 23 % 256 = 0; (nan a ∧ ¬ nan b ∧ ¬ small b)) ∧
    (∃ (a : Word) (b : Word), let nan := fun (x : Word) => x.toNat / 2 ^ 23 % 256 = 255 ∧ x.toNat % 2 ^ 23 ≠ 0; let inf := fun (x : Word) => x.toNat % 2 ^ 31 = 255 * 2 ^ 23; let small := fun (x : Word) => x.toNat / 2 ^ 23 % 256 = 0; (small b ∧ ¬ nan a ∧ ¬ inf a ∧ ¬ small a)) ∧
    (∃ (a : Word) (b : Word), let inf := fun (x : Word) => x.toNat % 2 ^ 31 = 255 * 2 ^ 23; let small := fun (x : Word) => x.toNat / 2 ^ 23 % 256 = 0; (small a ∧ small b ∨ inf a ∧ inf b) ∧ (small a)) ∧
    (∃ (a : Word) (b : Word), let nan := fun (x : Word) => x.toNat / 2 ^ 23 % 256 = 255 ∧ x.toNat % 2 ^ 23 ≠ 0; let inf := fun (x : Word) => x.toNat % 2 ^ 31 = 255 * 2 ^ 23; let small := fun (x : Word) => x.toNat / 2 ^ 23 % 256 = 0; (small a ∧ small b ∨ inf a ∧ inf b) ∧ (¬ nan a ∧ ¬ small a)) :=
  ⟨⟨(0x3F800000#32), (0xFFC00001#32), (by decide +kernel)⟩,
   ⟨(0x3F800000#32), (0x3F800000#32), (0xFFC00001#32), (by decide +kernel)⟩,
   ⟨(0xFFC00001#32), (0xFFC00001#32), (by decide +kernel)⟩,
   ⟨(0xFFC00001#32), (0x7F800000#32), (by decide +kernel)⟩,
   ⟨(0x3F800000#32), (0x80000001#32), (by decide +kernel)⟩,
   ⟨(0x80000001#32), (0#32), (by decide +kernel)⟩,
   ⟨(0x7F800000#32), (0x7F800000#32), (by decide +kernel)⟩⟩

theorem witness_LaneImmediate :
    (∃ (s : State) (e : Fin 512), (s.LaneReady e.val 1)) ∧
    (∃ (ra : BitVec 5), (ra ≠ 0)) :=
  ⟨⟨(lw [(1, 0x80000000), (2, 0x7FFFFFFF)]), (511), (lane_ready (by decide +kernel))⟩,
   ⟨(31), (by decide +kernel)⟩⟩

theorem witness_LaneBranch :
    (∃ (s : State) (e : Fin 512) (off : BitVec 13), let target := (((s.engine e.val).pc : Int) + off.toInt); (s.LaneReady e.val 2) ∧ (target < 0 ∨ 4095 < target)) ∧
    (∃ (s : State) (e : Fin 512) (off : BitVec 13), let target := (((s.engine e.val).pc : Int) + off.toInt); (s.LaneReady e.val 2) ∧ (target < 0 ∨ 4095 < target)) ∧
    (∃ (s : State) (e : Fin 512) (ra : BitVec 5) (rb : BitVec 5) (off : BitVec 13), let a := (s.w e.val ra); let b := (s.w e.val rb); let target := (((s.engine e.val).pc : Int) + off.toInt); (s.LaneReady e.val 2) ∧ (0 ≤ target ∧ target ≤ 4095) ∧ (a.toInt < b.toInt)) ∧
    (∃ (s : State) (e : Fin 512) (ra : BitVec 5) (rb : BitVec 5) (off : BitVec 13), let a := (s.w e.val ra); let b := (s.w e.val rb); let target := (((s.engine e.val).pc : Int) + off.toInt); (s.LaneReady e.val 2) ∧ (0 ≤ target ∧ target ≤ 4095) ∧ (¬ (b.toInt ≤ a.toInt))) ∧
    (∃ (s : State) (e : Fin 512) (ra : BitVec 5) (rb : BitVec 5) (off : BitVec 13), let a := (s.w e.val ra); let b := (s.w e.val rb); let target := (((s.engine e.val).pc : Int) + off.toInt); (s.LaneReady e.val 2) ∧ (0 ≤ target ∧ target ≤ 4095) ∧ (b.toNat ≤ a.toNat)) ∧
    (∃ (s : State) (e : Fin 512) (ra : BitVec 5) (simm : BitVec 5), let a := (s.w e.val ra); let i := (simm.signExtend 32); (s.LaneReady e.val 2) ∧ (a = i)) :=
  ⟨⟨(lw [(1, 0x80000000), (2, 0x7FFFFFFF)] id 4094), (511), (2), (lane_ready (by decide +kernel)), (by decide +kernel)⟩,
   ⟨(lw [(1, 0x80000000), (2, 0x7FFFFFFF)] id 0), (511), (-1), (lane_ready (by decide +kernel)), (by decide +kernel)⟩,
   ⟨(lw [(1, 0x80000000), (2, 0x7FFFFFFF)] id 4094), (511), (1), (2), (1), (lane_ready (by decide +kernel)), (by decide +kernel)⟩,
   ⟨(lw [(1, 0x80000000), (2, 0x7FFFFFFF)] id 5), (511), (1), (2), (-5), (lane_ready (by decide +kernel)), (by decide +kernel)⟩,
   ⟨(lw [(1, 0x80000000), (2, 0x7FFFFFFF)] id 5), (511), (1), (2), (-5), (lane_ready (by decide +kernel)), (by decide +kernel)⟩,
   ⟨(lw [(1, -16)]), (511), (1), (16), (lane_ready (by decide +kernel)), (by decide +kernel)⟩⟩

theorem witness_LaneCalls :
    (∃ (s : State) (e : Fin 512) (ra : BitVec 5), let g := (s.engine e.val); let a := ((s.w e.val ra).toNat); (s.LaneReady e.val 3) ∧ (g.stack.length < 8) ∧ (a ≤ 0x3FFF) ∧ (a % 4 = 0)) ∧
    (∃ (s : State) (e : Fin 512), let g := (s.engine e.val); (s.LaneReady e.val 3) ∧ (8 ≤ g.stack.length) ∧ (s.trapMode e.val = false)) ∧
    (∃ (s : State) (e : Fin 512), let g := (s.engine e.val); (s.LaneReady e.val 3) ∧ (8 ≤ g.stack.length) ∧ (s.trapMode e.val = true)) ∧
    (∃ (s : State) (e : Fin 512) (ra : BitVec 5), let a := ((s.w e.val ra).toNat); (s.LaneReady e.val 3) ∧ (0x3FFF < a)) ∧
    (∃ (s : State) (e : Fin 512) (ra : BitVec 5), let a := ((s.w e.val ra).toNat); (s.LaneReady e.val 3) ∧ (a ≤ 0x3FFF) ∧ (a % 4 ≠ 0)) ∧
    (∃ (s : State) (e : Fin 512), let g := (s.engine e.val); (s.LaneReady e.val 3) ∧ (g.stack = [])) ∧
    (∃ (s : State) (e : Fin 512) (t : Nat) (rest : List Nat), let g := (s.engine e.val); (s.LaneReady e.val 3) ∧ (g.stack = t :: rest)) ∧
    (∃ (s : State) (e : Fin 512) (ra : BitVec 5), let a := ((s.w e.val ra).toNat); (s.LaneReady e.val 2) ∧ (a ≤ 0x3FFF) ∧ (a % 4 = 0)) ∧
    (∃ (s : State) (e : Fin 512) (ra : BitVec 5), let a := ((s.w e.val ra).toNat); (s.LaneReady e.val 2) ∧ (0x3FFF < a)) ∧
    (∃ (s : State) (e : Fin 512) (ra : BitVec 5), let a := ((s.w e.val ra).toNat); (s.LaneReady e.val 2) ∧ (a ≤ 0x3FFF) ∧ (a % 4 ≠ 0)) :=
  ⟨⟨(lw [(1, 0x3FFC)] (fun g => { g with stack := List.replicate 7 9, trapA := true })), (511), (1), (lane_ready (by decide +kernel)), (by decide +kernel)⟩,
   ⟨(lw [(1, 0)] (fun g => { g with stack := List.replicate 8 9, trapA := false })), (511), (lane_ready (by decide +kernel)), (by decide +kernel)⟩,
   ⟨(lw [(1, 0)] (fun g => { g with stack := List.replicate 8 9, trapA := true })), (511), (lane_ready (by decide +kernel)), (by decide +kernel)⟩,
   ⟨(lw [(1, 0x4000)] (fun g => { g with stack := List.replicate 8 9, trapA := true })), (511), (1), (lane_ready (by decide +kernel)), (by decide +kernel)⟩,
   ⟨(lw [(1, 0x3FFF)] (fun g => { g with stack := List.replicate 8 9, trapA := true })), (511), (1), (lane_ready (by decide +kernel)), (by decide +kernel)⟩,
   ⟨(lw [(1, 0)] (fun g => { g with stack := [], trapA := true })), (511), (lane_ready (by decide +kernel)), (by decide +kernel)⟩,
   ⟨(lane 5 (fun g => { g with stack := [7, 8] })), (511), (7), ([8]), (lane_ready (by decide +kernel)), (by decide +kernel)⟩,
   ⟨(lw [(1, 0x3FFC)] (fun g => { g with stack := [], trapA := true })), (511), (1), (lane_ready (by decide +kernel)), (by decide +kernel)⟩,
   ⟨(lw [(1, 0x4000)] (fun g => { g with stack := [], trapA := true })), (511), (1), (lane_ready (by decide +kernel)), (by decide +kernel)⟩,
   ⟨(lw [(1, 2)] (fun g => { g with stack := [], trapA := true })), (511), (1), (lane_ready (by decide +kernel)), (by decide +kernel)⟩⟩

theorem witness_LaneLoad :
    (∃ (s : State) (e : Fin 512) (ra : BitVec 5) (simm : BitVec 13) (u : Nat), let a := (((((s.w e.val ra).toNat : Int) + simm.toInt) % 4294967296).toNat); let t0 := (s.laneFirst e.val); let own := (a < 0x4000 ∨ 0x10000 ≤ a ∧ a < 0x18000); (s.LaneReady e.val 2) ∧ ((a < 0x40000 → u = t0 + 1)) ∧ ((0x40000 ≤ a → t0 ≤ u ∧ u < t0 + 4 ∧ (e.val + u) % 4 = a / 8 % 4)) ∧ (own) ∧ (a % 4 = 0) ∧ (s.chkWhen (MemWrite.from_ u) (s.laneAddr e.val a) = .valid)) ∧
    (∃ (s : State) (e : Fin 512) (ra : BitVec 5) (simm : BitVec 13) (u : Nat), let a := (((((s.w e.val ra).toNat : Int) + simm.toInt) % 4294967296).toNat); let t0 := (s.laneFirst e.val); let own := (a < 0x4000 ∨ 0x10000 ≤ a ∧ a < 0x18000); (s.LaneReady e.val 2) ∧ ((a < 0x40000 → u = t0 + 1)) ∧ ((0x40000 ≤ a → t0 ≤ u ∧ u < t0 + 4 ∧ (e.val + u) % 4 = a / 8 % 4)) ∧ (own) ∧ (a % 4 = 0) ∧ (s.chkWhen (MemWrite.from_ u) (s.laneAddr e.val a) = .valid)) ∧
    (∃ (s : State) (e : Fin 512) (ra : BitVec 5) (simm : BitVec 13) (u : Nat), let a := (((((s.w e.val ra).toNat : Int) + simm.toInt) % 4294967296).toNat); let t0 := (s.laneFirst e.val); let own := (a < 0x4000 ∨ 0x10000 ≤ a ∧ a < 0x18000); (s.LaneReady e.val 2) ∧ ((a < 0x40000 → u = t0 + 1)) ∧ ((0x40000 ≤ a → t0 ≤ u ∧ u < t0 + 4 ∧ (e.val + u) % 4 = a / 8 % 4)) ∧ (own) ∧ (a % 4 = 0) ∧ (s.chkWhen (MemWrite.from_ u) (s.laneAddr e.val a) = .valid)) ∧
    (∃ (s : State) (e : Fin 512) (ra : BitVec 5) (simm : BitVec 13) (u : Nat), let a := (((((s.w e.val ra).toNat : Int) + simm.toInt) % 4294967296).toNat); let t0 := (s.laneFirst e.val); let own := (a < 0x4000 ∨ 0x10000 ≤ a ∧ a < 0x18000); (s.LaneReady e.val 2) ∧ ((a < 0x40000 → u = t0 + 1)) ∧ ((0x40000 ≤ a → t0 ≤ u ∧ u < t0 + 4 ∧ (e.val + u) % 4 = a / 8 % 4)) ∧ (own) ∧ (a % 4 = 0) ∧ (s.chkWhen (MemWrite.from_ u) (s.laneAddr e.val a) = .valid)) ∧
    (∃ (s : State) (e : Fin 512) (ra : BitVec 5) (simm : BitVec 13) (u : Nat), let a := (((((s.w e.val ra).toNat : Int) + simm.toInt) % 4294967296).toNat); let t0 := (s.laneFirst e.val); let own := (a < 0x4000 ∨ 0x10000 ≤ a ∧ a < 0x18000); (s.LaneReady e.val 2) ∧ ((a < 0x40000 → u = t0 + 1)) ∧ ((0x40000 ≤ a → t0 ≤ u ∧ u < t0 + 4 ∧ (e.val + u) % 4 = a / 8 % 4)) ∧ (own) ∧ (a % 1 = 0) ∧ (s.chkWhen (MemWrite.from_ u) (s.laneAddr e.val a) = .valid)) ∧
    (∃ (s : State) (e : Fin 512) (ra : BitVec 5) (simm : BitVec 13) (u : Nat), let a := (((((s.w e.val ra).toNat : Int) + simm.toInt) % 4294967296).toNat); let t0 := (s.laneFirst e.val); let shared := (0x40000 ≤ a ∧ a < 0x80000); (s.LaneReady e.val 4) ∧ ((a < 0x40000 → u = t0 + 1)) ∧ ((0x40000 ≤ a → t0 ≤ u ∧ u < t0 + 4 ∧ (e.val + u) % 4 = a / 8 % 4)) ∧ (shared) ∧ (a % 4 = 0) ∧ (s.chkWhen (MemWrite.from_ u) (s.laneAddr e.val a) = .valid)) ∧
    (∃ (s : State) (e : Fin 512) (ra : BitVec 5) (simm : BitVec 13) (u : Nat), let a := (((((s.w e.val ra).toNat : Int) + simm.toInt) % 4294967296).toNat); let t0 := (s.laneFirst e.val); let shared := (0x40000 ≤ a ∧ a < 0x80000); (s.LaneReady e.val 4) ∧ ((a < 0x40000 → u = t0 + 1)) ∧ ((0x40000 ≤ a → t0 ≤ u ∧ u < t0 + 4 ∧ (e.val + u) % 4 = a / 8 % 4)) ∧ (shared) ∧ (a % 2 = 0) ∧ (s.chkWhen (MemWrite.from_ u) (s.laneAddr e.val a) = .valid)) ∧
    (∃ (s : State) (e : Fin 512) (ra : BitVec 5) (simm : BitVec 13), let a := (((((s.w e.val ra).toNat : Int) + simm.toInt) % 4294967296).toNat); let own := (a < 0x4000 ∨ 0x10000 ≤ a ∧ a < 0x18000); (s.LaneReady e.val 2) ∧ (¬ own)) ∧
    (∃ (s : State) (e : Fin 512) (ra : BitVec 5) (simm : BitVec 13), let a := (((((s.w e.val ra).toNat : Int) + simm.toInt) % 4294967296).toNat); let own := (a < 0x4000 ∨ 0x10000 ≤ a ∧ a < 0x18000); (s.LaneReady e.val 2) ∧ (¬ own)) ∧
    (∃ (s : State) (e : Fin 512) (ra : BitVec 5) (simm : BitVec 13), let a := (((((s.w e.val ra).toNat : Int) + simm.toInt) % 4294967296).toNat); let own := (a < 0x4000 ∨ 0x10000 ≤ a ∧ a < 0x18000); (s.LaneReady e.val 2) ∧ (¬ own)) ∧
    (∃ (s : State) (e : Fin 512) (ra : BitVec 5) (simm : BitVec 13), let a := (((((s.w e.val ra).toNat : Int) + simm.toInt) % 4294967296).toNat); let own := (a < 0x4000 ∨ 0x10000 ≤ a ∧ a < 0x18000); (s.LaneReady e.val 2) ∧ (¬ own)) ∧
    (∃ (s : State) (e : Fin 512) (ra : BitVec 5) (simm : BitVec 13), let a := (((((s.w e.val ra).toNat : Int) + simm.toInt) % 4294967296).toNat); let own := (a < 0x4000 ∨ 0x10000 ≤ a ∧ a < 0x18000); (s.LaneReady e.val 2) ∧ (¬ own)) ∧
    (∃ (s : State) (e : Fin 512) (ra : BitVec 5) (simm : BitVec 13), let a := (((((s.w e.val ra).toNat : Int) + simm.toInt) % 4294967296).toNat); let shared := (0x40000 ≤ a ∧ a < 0x80000); (s.LaneReady e.val 4) ∧ (¬ shared)) ∧
    (∃ (s : State) (e : Fin 512) (ra : BitVec 5) (simm : BitVec 13), let a := (((((s.w e.val ra).toNat : Int) + simm.toInt) % 4294967296).toNat); let shared := (0x40000 ≤ a ∧ a < 0x80000); (s.LaneReady e.val 4) ∧ (¬ shared)) ∧
    (∃ (s : State) (e : Fin 512) (ra : BitVec 5) (simm : BitVec 13), let a := (((((s.w e.val ra).toNat : Int) + simm.toInt) % 4294967296).toNat); let shared := (0x40000 ≤ a ∧ a < 0x80000); (s.LaneReady e.val 4) ∧ (¬ shared)) ∧
    (∃ (s : State) (e : Fin 512) (ra : BitVec 5) (simm : BitVec 13), let a := (((((s.w e.val ra).toNat : Int) + simm.toInt) % 4294967296).toNat); let own := (a < 0x4000 ∨ 0x10000 ≤ a ∧ a < 0x18000); (s.LaneReady e.val 2) ∧ (own) ∧ (a % 4 ≠ 0)) ∧
    (∃ (s : State) (e : Fin 512) (ra : BitVec 5) (simm : BitVec 13), let a := (((((s.w e.val ra).toNat : Int) + simm.toInt) % 4294967296).toNat); let shared := (0x40000 ≤ a ∧ a < 0x80000); (s.LaneReady e.val 4) ∧ (shared) ∧ (a % 2 ≠ 0)) ∧
    (∃ (s : State) (e : Fin 512), (s.LaneReady e.val 2)) :=
  ⟨⟨(let s := lw [(1, 0x10001)]; s.fill (s.laneAddr 511 0x10000) [1, 2, 3, 0x84]), (511), (1), (-1), (1), (lane_ready (by decide +kernel)), (by decide +kernel)⟩,
   ⟨(let s := lw [(1, 0x17FFC)]; s.fill (s.laneAddr 511 0x17FFC) [1, 2, 3, 0x84]), (511), (1), (0), (1), (lane_ready (by decide +kernel)), (by decide +kernel)⟩,
   ⟨(let s := lw [(1, 0x3FF8)]; s.fill (s.laneAddr 511 0x3FFC) [1, 2, 3, 0x84]), (511), (1), (4), (1), (lane_ready (by decide +kernel)), (by decide +kernel)⟩,
   ⟨(let s := lw [(1, 0)]; s.fill (s.laneAddr 511 0x10) [1, 2, 3, 0x84]), (511), (1), (0x10), (1), (lane_ready (by decide +kernel)), (by decide +kernel)⟩,
   ⟨(let s := lw [(1, 0x10000)]; s.fill (s.laneAddr 511 0x10000) [1, 2, 3, 0x84]), (511), (1), (3), (1), (lane_ready (by decide +kernel)), (by decide +kernel)⟩,
   ⟨(let s := lw [(1, 0x7FFFC)]; s.fill (s.laneAddr 511 0x7FFFC) [1, 2, 3, 0x84]), (511), (1), (0), (0), (lane_ready (by decide +kernel)), (by decide +kernel)⟩,
   ⟨(let s := lw [(1, 0x40000)]; s.fill (s.laneAddr 511 0x40000) [1, 2, 3, 0x84]), (511), (1), (2), (1), (lane_ready (by decide +kernel)), (by decide +kernel)⟩,
   ⟨(lw [(1, 0x4000)]), (511), (1), (0), (lane_ready (by decide +kernel)), (by decide +kernel)⟩,
   ⟨(lw [(1, 0xFFFF)]), (511), (1), (0), (lane_ready (by decide +kernel)), (by decide +kernel)⟩,
   ⟨(lw [(1, 0x18000)]), (511), (1), (0), (lane_ready (by decide +kernel)), (by decide +kernel)⟩,
   ⟨(lw [(1, 0x40000)]), (511), (1), (0), (lane_ready (by decide +kernel)), (by decide +kernel)⟩,
   ⟨(lw [(1, 0)]), (511), (1), (-1), (lane_ready (by decide +kernel)), (by decide +kernel)⟩,
   ⟨(lw [(1, 0x3FFFF)]), (511), (1), (0), (lane_ready (by decide +kernel)), (by decide +kernel)⟩,
   ⟨(lw [(1, 0x80000)]), (511), (1), (0), (lane_ready (by decide +kernel)), (by decide +kernel)⟩,
   ⟨(lw [(1, 0x10000)]), (511), (1), (0), (lane_ready (by decide +kernel)), (by decide +kernel)⟩,
   ⟨(lw [(1, 0x10002)]), (511), (1), (0), (lane_ready (by decide +kernel)), (by decide +kernel)⟩,
   ⟨(lw [(1, 0x40001)]), (511), (1), (0), (lane_ready (by decide +kernel)), (by decide +kernel)⟩,
   ⟨(lw [(1, 0x10000)]), (511), (lane_ready (by decide +kernel))⟩⟩

theorem witness_LaneStore :
    (∃ (s : State) (e : Fin 512) (ra : BitVec 5) (simm : BitVec 13), let a := (((((s.w e.val ra).toNat : Int) + simm.toInt) % 4294967296).toNat); let g := (s.engine e.val); (s.LaneReady e.val 1) ∧ (0x10000 ≤ a) ∧ (a < 0x18000) ∧ (a % 4 = 0) ∧ (g.role = .single) ∧ (g.local_ = [])) ∧
    (∃ (s : State) (e : Fin 512) (ra : BitVec 5) (simm : BitVec 13), let a := (((((s.w e.val ra).toNat : Int) + simm.toInt) % 4294967296).toNat); let g := (s.engine e.val); (s.LaneReady e.val 1) ∧ (0x10000 ≤ a) ∧ (a < 0x18000) ∧ (a % 4 = 0) ∧ (g.role = .single) ∧ (g.local_ = [])) ∧
    (∃ (s : State) (e : Fin 512) (ra : BitVec 5) (simm : BitVec 13), let a := (((((s.w e.val ra).toNat : Int) + simm.toInt) % 4294967296).toNat); let g := (s.engine e.val); (s.LaneReady e.val 1) ∧ (0x40000 ≤ a) ∧ (a < 0x80000) ∧ (a % 4 = 0) ∧ (g.role = .single) ∧ (g.shared = [])) ∧
    (∃ (s : State) (e : Fin 512) (ra : BitVec 5) (simm : BitVec 13), let a := (((((s.w e.val ra).toNat : Int) + simm.toInt) % 4294967296).toNat); let g := (s.engine e.val); (s.LaneReady e.val 1) ∧ (0x40000 ≤ a) ∧ (a < 0x80000) ∧ (a % 4 = 0) ∧ (g.role = .single) ∧ (g.shared = [])) ∧
    (∃ (s : State) (e : Fin 512) (ra : BitVec 5) (simm : BitVec 13), let a := (((((s.w e.val ra).toNat : Int) + simm.toInt) % 4294967296).toNat); (s.LaneReady e.val 1) ∧ (¬ (a < 0x4000 ∨ 0x10000 ≤ a ∧ a < 0x18000))) ∧
    (∃ (s : State) (e : Fin 512) (ra : BitVec 5) (simm : BitVec 13), let a := (((((s.w e.val ra).toNat : Int) + simm.toInt) % 4294967296).toNat); (s.LaneReady e.val 1) ∧ (¬ (a < 0x4000 ∨ 0x10000 ≤ a ∧ a < 0x18000))) ∧
    (∃ (s : State) (e : Fin 512) (ra : BitVec 5) (simm : BitVec 13), let a := (((((s.w e.val ra).toNat : Int) + simm.toInt) % 4294967296).toNat); (s.LaneReady e.val 1) ∧ (¬ (a < 0x4000 ∨ 0x10000 ≤ a ∧ a < 0x18000))) ∧
    (∃ (s : State) (e : Fin 512) (ra : BitVec 5) (simm : BitVec 13), let a := (((((s.w e.val ra).toNat : Int) + simm.toInt) % 4294967296).toNat); (s.LaneReady e.val 1) ∧ (a < 0x4000 ∨ 0x10000 ≤ a ∧ a < 0x18000) ∧ (a % 2 ≠ 0)) ∧
    (∃ (s : State) (e : Fin 512) (ra : BitVec 5) (simm : BitVec 13), let a := (((((s.w e.val ra).toNat : Int) + simm.toInt) % 4294967296).toNat); (s.LaneReady e.val 1) ∧ (a < 0x4000 ∨ 0x10000 ≤ a ∧ a < 0x18000) ∧ (a % 2 ≠ 0)) ∧
    (∃ (s : State) (e : Fin 512) (ra : BitVec 5) (simm : BitVec 13), let a := (((((s.w e.val ra).toNat : Int) + simm.toInt) % 4294967296).toNat); (s.LaneReady e.val 1) ∧ (¬ (0x40000 ≤ a ∧ a < 0x80000))) ∧
    (∃ (s : State) (e : Fin 512) (ra : BitVec 5) (simm : BitVec 13), let a := (((((s.w e.val ra).toNat : Int) + simm.toInt) % 4294967296).toNat); (s.LaneReady e.val 1) ∧ (¬ (0x40000 ≤ a ∧ a < 0x80000))) ∧
    (∃ (s : State) (e : Fin 512) (ra : BitVec 5) (simm : BitVec 13), let a := (((((s.w e.val ra).toNat : Int) + simm.toInt) % 4294967296).toNat); (s.LaneReady e.val 1) ∧ (0x40000 ≤ a) ∧ (a < 0x80000) ∧ (a % 4 ≠ 0)) :=
  ⟨⟨(lw [(1, 0x10000), (2, 0x87654321)]), (511), (1), (0), (lane_ready (by decide +kernel)), (by decide +kernel)⟩,
   ⟨(lw [(1, 0x17FFC), (2, 0x87654321)]), (511), (1), (0), (lane_ready (by decide +kernel)), (by decide +kernel)⟩,
   ⟨(lw [(1, 0x40000), (2, 0x87654321)]), (511), (1), (0), (lane_ready (by decide +kernel)), (by decide +kernel)⟩,
   ⟨(lw [(1, 0x7FFFC), (2, 0x87654321)]), (511), (1), (0), (lane_ready (by decide +kernel)), (by decide +kernel)⟩,
   ⟨(lw [(1, 0x4000), (2, 0x87654321)]), (511), (1), (0), (lane_ready (by decide +kernel)), (by decide +kernel)⟩,
   ⟨(lw [(1, 0xFFFF), (2, 0x87654321)]), (511), (1), (0), (lane_ready (by decide +kernel)), (by decide +kernel)⟩,
   ⟨(lw [(1, 0x18000), (2, 0x87654321)]), (511), (1), (0), (lane_ready (by decide +kernel)), (by decide +kernel)⟩,
   ⟨(lw [(1, 0x3FFF), (2, 0x87654321)]), (511), (1), (0), (lane_ready (by decide +kernel)), (by decide +kernel)⟩,
   ⟨(lw [(1, 0x10001), (2, 0x87654321)]), (511), (1), (0), (lane_ready (by decide +kernel)), (by decide +kernel)⟩,
   ⟨(lw [(1, 0x3FFFF), (2, 0x87654321)]), (511), (1), (0), (lane_ready (by decide +kernel)), (by decide +kernel)⟩,
   ⟨(lw [(1, 0x80000), (2, 0x87654321)]), (511), (1), (0), (lane_ready (by decide +kernel)), (by decide +kernel)⟩,
   ⟨(lw [(1, 0x7FFFE), (2, 0x87654321)]), (511), (1), (0), (lane_ready (by decide +kernel)), (by decide +kernel)⟩⟩

theorem witness_LaneOldForm :
    (∃ (s : State) (e : Fin 512) (ra : BitVec 5) (simm : BitVec 13), let a := (((((s.w e.val ra).toNat : Int) + simm.toInt) % 4294967296).toNat); let g := (s.engine e.val); (s.LaneReady e.val 1) ∧ (a < 0x4000) ∧ (a % 4 = 0) ∧ (g.role = .single) ∧ (g.local_ = []) ∧ (g.old = [])) ∧
    (∃ (s : State) (e : Fin 512) (ra : BitVec 5) (simm : BitVec 13), let a := (((((s.w e.val ra).toNat : Int) + simm.toInt) % 4294967296).toNat); let g := (s.engine e.val); (s.LaneReady e.val 1) ∧ (a < 0x4000) ∧ (a % 4 = 0) ∧ (g.role = .single) ∧ (g.local_ = []) ∧ (g.old = [])) :=
  ⟨⟨(lw [(1, 0), (2, 0x87654321)]), (511), (1), (0), (lane_ready (by decide +kernel)), (by decide +kernel)⟩,
   ⟨(lw [(1, 0x3FFC), (2, 0x87654321)]), (511), (1), (0), (lane_ready (by decide +kernel)), (by decide +kernel)⟩⟩

theorem witness_LaneWindow :
    (∃ (s : State) (e : Fin 512) (ra : BitVec 5) (simm : BitVec 13), let a := (((((s.w e.val ra).toNat : Int) + simm.toInt) % 4294967296).toNat); let g := (s.engine e.val); let k := ((a - 0x80000) / 0x10000); let c := (g.getCap k); let off := (a % 0x10000); let holds := (0x80000 ≤ a ∧ a < 0x100000); (s.LaneReady e.val 6) ∧ (holds) ∧ (a % 4 = 0) ∧ (s.winOk c off 4 0 = true) ∧ (((s.laneAt e.val 6).winRead e.val c off 4).1.toOption.isSome = true)) ∧
    (∃ (s : State) (e : Fin 512) (ra : BitVec 5) (simm : BitVec 13), let a := (((((s.w e.val ra).toNat : Int) + simm.toInt) % 4294967296).toNat); let g := (s.engine e.val); let k := ((a - 0x80000) / 0x10000); let c := (g.getCap k); let off := (a % 0x10000); let holds := (0x80000 ≤ a ∧ a < 0x100000); (s.LaneReady e.val 6) ∧ (holds) ∧ (a % 4 = 0) ∧ (s.winOk c off 4 0 = true) ∧ (((s.laneAt e.val 6).winRead e.val c off 4).1.toOption.isSome = true)) ∧
    (∃ (s : State) (e : Fin 512) (ra : BitVec 5) (simm : BitVec 13), let a := (((((s.w e.val ra).toNat : Int) + simm.toInt) % 4294967296).toNat); let g := (s.engine e.val); let k := ((a - 0x80000) / 0x10000); let c := (g.getCap k); let off := (a % 0x10000); let holds := (0x80000 ≤ a ∧ a < 0x100000); (s.LaneReady e.val 6) ∧ (holds) ∧ (a % 4 = 0) ∧ (s.winOk c off 4 0 = false)) ∧
    (∃ (s : State) (e : Fin 512) (ra : BitVec 5) (simm : BitVec 13), let a := (((((s.w e.val ra).toNat : Int) + simm.toInt) % 4294967296).toNat); let holds := (0x80000 ≤ a ∧ a < 0x100000); (s.LaneReady e.val 6) ∧ (¬ holds)) ∧
    (∃ (s : State) (e : Fin 512) (ra : BitVec 5) (simm : BitVec 13), let a := (((((s.w e.val ra).toNat : Int) + simm.toInt) % 4294967296).toNat); let holds := (0x80000 ≤ a ∧ a < 0x100000); (s.LaneReady e.val 6) ∧ (¬ holds)) ∧
    (∃ (s : State) (e : Fin 512) (ra : BitVec 5) (simm : BitVec 13), let a := (((((s.w e.val ra).toNat : Int) + simm.toInt) % 4294967296).toNat); let holds := (0x80000 ≤ a ∧ a < 0x100000); (s.LaneReady e.val 6) ∧ (holds) ∧ (a % 2 ≠ 0)) ∧
    (∃ (s : State) (e : Fin 512) (ra : BitVec 5) (simm : BitVec 13), let a := (((((s.w e.val ra).toNat : Int) + simm.toInt) % 4294967296).toNat); let g := (s.engine e.val); let k := ((a - 0x80000) / 0x10000); let c := (g.getCap k); let off := (a % 0x10000); let holds := (0x80000 ≤ a ∧ a < 0x100000); (s.LaneReady e.val 1) ∧ (holds) ∧ (a % 4 = 0) ∧ (s.winOk c off 4 1 = true) ∧ (g.role = .single)) ∧
    (∃ (s : State) (e : Fin 512) (ra : BitVec 5) (simm : BitVec 13), let a := (((((s.w e.val ra).toNat : Int) + simm.toInt) % 4294967296).toNat); let g := (s.engine e.val); let k := ((a - 0x80000) / 0x10000); let c := (g.getCap k); let off := (a % 0x10000); let holds := (0x80000 ≤ a ∧ a < 0x100000); (s.LaneReady e.val 1) ∧ (holds) ∧ (a % 4 = 0) ∧ (s.winOk c off 4 1 = false)) ∧
    (∃ (s : State) (e : Fin 512) (ra : BitVec 5) (simm : BitVec 13), let a := (((((s.w e.val ra).toNat : Int) + simm.toInt) % 4294967296).toNat); let holds := (0x80000 ≤ a ∧ a < 0x100000); (s.LaneReady e.val 1) ∧ (¬ holds)) ∧
    (∃ (s : State) (e : Fin 512) (ra : BitVec 5) (simm : BitVec 13), let a := (((((s.w e.val ra).toNat : Int) + simm.toInt) % 4294967296).toNat); let holds := (0x80000 ≤ a ∧ a < 0x100000); (s.LaneReady e.val 1) ∧ (¬ holds)) ∧
    (∃ (s : State) (e : Fin 512) (ra : BitVec 5) (simm : BitVec 13), let a := (((((s.w e.val ra).toNat : Int) + simm.toInt) % 4294967296).toNat); let holds := (0x80000 ≤ a ∧ a < 0x100000); (s.LaneReady e.val 1) ∧ (holds) ∧ (a % 2 ≠ 0)) :=
  ⟨⟨(let s := lw [(1, 0x80000), (2, 0x87654321)] (fun g => { g with cap := [(0, ⟨true, BitVec.ofNat 128 (0x30000000 + 16 * 2 ^ 40 + 3 * 2 ^ 80 + 2 ^ 88)⟩), (7, ⟨true, BitVec.ofNat 128 (0x30000000 + 16 * 2 ^ 40 + 3 * 2 ^ 80 + 2 ^ 88)⟩)] }); (s.setChk 0x30000000 .valid).setChk 0x30000008 .valid), (511), (1), (0), (lane_ready (by decide +kernel)), (by decide +kernel)⟩,
   ⟨(let s := lw [(1, 0xF000C), (2, 0x87654321)] (fun g => { g with cap := [(0, ⟨true, BitVec.ofNat 128 (0x30000000 + 16 * 2 ^ 40 + 3 * 2 ^ 80 + 2 ^ 88)⟩), (7, ⟨true, BitVec.ofNat 128 (0x30000000 + 16 * 2 ^ 40 + 3 * 2 ^ 80 + 2 ^ 88)⟩)] }); (s.setChk 0x30000000 .valid).setChk 0x30000008 .valid), (511), (1), (0), (lane_ready (by decide +kernel)), (by decide +kernel)⟩,
   ⟨(let s := lw [(1, 0xF0010), (2, 0x87654321)] (fun g => { g with cap := [(0, ⟨true, BitVec.ofNat 128 (0x30000000 + 16 * 2 ^ 40 + 3 * 2 ^ 80 + 2 ^ 88)⟩), (7, ⟨true, BitVec.ofNat 128 (0x30000000 + 16 * 2 ^ 40 + 3 * 2 ^ 80 + 2 ^ 88)⟩)] }); (s.setChk 0x30000000 .valid).setChk 0x30000008 .valid), (511), (1), (0), (lane_ready (by decide +kernel)), (by decide +kernel)⟩,
   ⟨(let s := lw [(1, 0x7FFFF), (2, 0x87654321)] (fun g => { g with cap := [(0, ⟨true, BitVec.ofNat 128 (0x30000000 + 16 * 2 ^ 40 + 3 * 2 ^ 80 + 2 ^ 88)⟩), (7, ⟨true, BitVec.ofNat 128 (0x30000000 + 16 * 2 ^ 40 + 3 * 2 ^ 80 + 2 ^ 88)⟩)] }); (s.setChk 0x30000000 .valid).setChk 0x30000008 .valid), (511), (1), (0), (lane_ready (by decide +kernel)), (by decide +kernel)⟩,
   ⟨(let s := lw [(1, 0x100000), (2, 0x87654321)] (fun g => { g with cap := [(0, ⟨true, BitVec.ofNat 128 (0x30000000 + 16 * 2 ^ 40 + 3 * 2 ^ 80 + 2 ^ 88)⟩), (7, ⟨true, BitVec.ofNat 128 (0x30000000 + 16 * 2 ^ 40 + 3 * 2 ^ 80 + 2 ^ 88)⟩)] }); (s.setChk 0x30000000 .valid).setChk 0x30000008 .valid), (511), (1), (0), (lane_ready (by decide +kernel)), (by decide +kernel)⟩,
   ⟨(let s := lw [(1, 0xFFFFF), (2, 0x87654321)] (fun g => { g with cap := [(0, ⟨true, BitVec.ofNat 128 (0x30000000 + 16 * 2 ^ 40 + 3 * 2 ^ 80 + 2 ^ 88)⟩), (7, ⟨true, BitVec.ofNat 128 (0x30000000 + 16 * 2 ^ 40 + 3 * 2 ^ 80 + 2 ^ 88)⟩)] }); (s.setChk 0x30000000 .valid).setChk 0x30000008 .valid), (511), (1), (0), (lane_ready (by decide +kernel)), (by decide +kernel)⟩,
   ⟨(let s := lw [(1, 0x8000C), (2, 0x87654321)] (fun g => { g with cap := [(0, ⟨true, BitVec.ofNat 128 (0x30000000 + 16 * 2 ^ 40 + 3 * 2 ^ 80 + 2 ^ 88)⟩), (7, ⟨true, BitVec.ofNat 128 (0x30000000 + 16 * 2 ^ 40 + 3 * 2 ^ 80 + 2 ^ 88)⟩)] }); (s.setChk 0x30000000 .valid).setChk 0x30000008 .valid), (511), (1), (0), (lane_ready (by decide +kernel)), (by decide +kernel)⟩,
   ⟨(let s := lw [(1, 0x80010), (2, 0x87654321)] (fun g => { g with cap := [(0, ⟨true, BitVec.ofNat 128 (0x30000000 + 16 * 2 ^ 40 + 3 * 2 ^ 80 + 2 ^ 88)⟩), (7, ⟨true, BitVec.ofNat 128 (0x30000000 + 16 * 2 ^ 40 + 3 * 2 ^ 80 + 2 ^ 88)⟩)] }); (s.setChk 0x30000000 .valid).setChk 0x30000008 .valid), (511), (1), (0), (lane_ready (by decide +kernel)), (by decide +kernel)⟩,
   ⟨(let s := lw [(1, 0x7FFFF), (2, 0x87654321)] (fun g => { g with cap := [(0, ⟨true, BitVec.ofNat 128 (0x30000000 + 16 * 2 ^ 40 + 3 * 2 ^ 80 + 2 ^ 88)⟩), (7, ⟨true, BitVec.ofNat 128 (0x30000000 + 16 * 2 ^ 40 + 3 * 2 ^ 80 + 2 ^ 88)⟩)] }); (s.setChk 0x30000000 .valid).setChk 0x30000008 .valid), (511), (1), (0), (lane_ready (by decide +kernel)), (by decide +kernel)⟩,
   ⟨(let s := lw [(1, 0x100000), (2, 0x87654321)] (fun g => { g with cap := [(0, ⟨true, BitVec.ofNat 128 (0x30000000 + 16 * 2 ^ 40 + 3 * 2 ^ 80 + 2 ^ 88)⟩), (7, ⟨true, BitVec.ofNat 128 (0x30000000 + 16 * 2 ^ 40 + 3 * 2 ^ 80 + 2 ^ 88)⟩)] }); (s.setChk 0x30000000 .valid).setChk 0x30000008 .valid), (511), (1), (0), (lane_ready (by decide +kernel)), (by decide +kernel)⟩,
   ⟨(let s := lw [(1, 0xFFFFF), (2, 0x87654321)] (fun g => { g with cap := [(0, ⟨true, BitVec.ofNat 128 (0x30000000 + 16 * 2 ^ 40 + 3 * 2 ^ 80 + 2 ^ 88)⟩), (7, ⟨true, BitVec.ofNat 128 (0x30000000 + 16 * 2 ^ 40 + 3 * 2 ^ 80 + 2 ^ 88)⟩)] }); (s.setChk 0x30000000 .valid).setChk 0x30000008 .valid), (511), (1), (0), (lane_ready (by decide +kernel)), (by decide +kernel)⟩⟩

theorem witness_LaneCapability :
    (∃ (s : State) (e : Fin 512) (cs : BitVec 3), let c := (s.lcap e.val cs); (s.LaneReady e.val 1) ∧ (c.tag = true)) ∧
    (∃ (s : State) (e : Fin 512) (cs : BitVec 3), let c := (s.lcap e.val cs); (s.LaneReady e.val 1) ∧ (c.tag = false)) ∧
    (∃ (s : State) (e : Fin 512) (cs : BitVec 3) (ra : BitVec 5) (rb : BitVec 5), let c := (s.lcap e.val cs); let a := ((s.w e.val ra).toNat); let b := ((s.w e.val rb).toNat); (s.LaneReady e.val 2) ∧ (c.tag = true) ∧ (a + b ≤ c.len)) ∧
    (∃ (s : State) (e : Fin 512) (cs : BitVec 3) (ra : BitVec 5) (rb : BitVec 5), let c := (s.lcap e.val cs); let a := ((s.w e.val ra).toNat); let b := ((s.w e.val rb).toNat); (s.LaneReady e.val 2) ∧ (c.tag = true) ∧ (a + b ≤ c.len)) ∧
    (∃ (s : State) (e : Fin 512) (cs : BitVec 3) (ra : BitVec 5) (rb : BitVec 5), let c := (s.lcap e.val cs); let a := ((s.w e.val ra).toNat); let b := ((s.w e.val rb).toNat); (s.LaneReady e.val 2) ∧ (c.tag = false ∨ c.len < a + b)) ∧
    (∃ (s : State) (e : Fin 512) (cs : BitVec 3) (ra : BitVec 5) (rb : BitVec 5), let c := (s.lcap e.val cs); let a := ((s.w e.val ra).toNat); let b := ((s.w e.val rb).toNat); (s.LaneReady e.val 2) ∧ (c.tag = false ∨ c.len < a + b)) ∧
    (∃ (s : State) (e : Fin 512) (cs : BitVec 3) (ra : BitVec 5), let c := (s.lcap e.val cs); let a := ((s.w e.val ra).toNat); let g := (s.engine e.val); (s.LaneReady e.val 2) ∧ (0x10000 ≤ a) ∧ (a < 0x18000) ∧ (a % 16 = 0) ∧ (c.tag = true) ∧ (g.local_ = [])) ∧
    (∃ (s : State) (e : Fin 512) (cs : BitVec 3) (ra : BitVec 5), let c := (s.lcap e.val cs); let a := ((s.w e.val ra).toNat); let g := (s.engine e.val); (s.LaneReady e.val 2) ∧ (0x10000 ≤ a) ∧ (a < 0x18000) ∧ (a % 16 = 0) ∧ (c.tag = true) ∧ (g.local_ = [])) ∧
    (∃ (s : State) (e : Fin 512) (cs : BitVec 3) (ra : BitVec 5), let c := (s.lcap e.val cs); let a := ((s.w e.val ra).toNat); let g := (s.engine e.val); (s.LaneReady e.val 2) ∧ (0x40000 ≤ a) ∧ (a < 0x80000) ∧ (a % 16 = 0) ∧ (c.tag = true) ∧ (g.shared = []) ∧ (g.role = .single)) ∧
    (∃ (s : State) (e : Fin 512) (cs : BitVec 3) (ra : BitVec 5), let c := (s.lcap e.val cs); let a := ((s.w e.val ra).toNat); let g := (s.engine e.val); (s.LaneReady e.val 2) ∧ (0x40000 ≤ a) ∧ (a < 0x80000) ∧ (a % 16 = 0) ∧ (c.tag = true) ∧ (g.shared = []) ∧ (g.role = .single)) ∧
    (∃ (s : State) (e : Fin 512) (cs : BitVec 3) (ra : BitVec 5), let c := (s.lcap e.val cs); let a := ((s.w e.val ra).toNat); let granule := (0x10000 ≤ a ∧ a < 0x18000 ∨ 0x40000 ≤ a ∧ a < 0x80000); (s.LaneReady e.val 2) ∧ (granule) ∧ (a % 16 = 0) ∧ (c.tag = false)) ∧
    (∃ (s : State) (e : Fin 512) (ra : BitVec 5), let a := ((s.w e.val ra).toNat); let granule := (0x10000 ≤ a ∧ a < 0x18000 ∨ 0x40000 ≤ a ∧ a < 0x80000); (s.LaneReady e.val 2) ∧ (¬ granule)) ∧
    (∃ (s : State) (e : Fin 512) (ra : BitVec 5), let a := ((s.w e.val ra).toNat); let granule := (0x10000 ≤ a ∧ a < 0x18000 ∨ 0x40000 ≤ a ∧ a < 0x80000); (s.LaneReady e.val 2) ∧ (¬ granule)) ∧
    (∃ (s : State) (e : Fin 512) (ra : BitVec 5), let a := ((s.w e.val ra).toNat); let granule := (0x10000 ≤ a ∧ a < 0x18000 ∨ 0x40000 ≤ a ∧ a < 0x80000); (s.LaneReady e.val 2) ∧ (¬ granule)) ∧
    (∃ (s : State) (e : Fin 512) (ra : BitVec 5), let a := ((s.w e.val ra).toNat); let granule := (0x10000 ≤ a ∧ a < 0x18000 ∨ 0x40000 ≤ a ∧ a < 0x80000); (s.LaneReady e.val 2) ∧ (¬ granule)) ∧
    (∃ (s : State) (e : Fin 512) (ra : BitVec 5), let a := ((s.w e.val ra).toNat); let granule := (0x10000 ≤ a ∧ a < 0x18000 ∨ 0x40000 ≤ a ∧ a < 0x80000); (s.LaneReady e.val 2) ∧ (¬ granule)) ∧
    (∃ (s : State) (e : Fin 512) (ra : BitVec 5), let a := ((s.w e.val ra).toNat); let granule := (0x10000 ≤ a ∧ a < 0x18000 ∨ 0x40000 ≤ a ∧ a < 0x80000); (s.LaneReady e.val 2) ∧ (granule) ∧ (a % 16 ≠ 0)) ∧
    (∃ (s : State) (e : Fin 512) (ra : BitVec 5) (u : Nat) (v : Nat), let t0 := (s.laneFirst e.val); let a := ((s.w e.val ra).toNat); let granule := (0x10000 ≤ a ∧ a < 0x18000 ∨ 0x40000 ≤ a ∧ a < 0x80000); (s.LaneReady e.val 5) ∧ ((a < 0x40000 → u = t0 + 1 ∧ v = t0 + 2)) ∧ ((0x40000 ≤ a → t0 ≤ u ∧ u < t0 + 4 ∧ (e.val + u) % 4 = a / 8 % 4 ∧ t0 ≤ v ∧ v < t0 + 4 ∧ (e.val + v) % 4 = (a / 8 + 1) % 4)) ∧ (granule) ∧ (a % 16 = 0) ∧ (s.chkWhen (MemWrite.from_ u) (s.laneAddr e.val a) = .valid) ∧ (s.chkWhen (MemWrite.from_ v) (s.laneAddr e.val (a + 8)) = .valid)) ∧
    (∃ (s : State) (e : Fin 512) (ra : BitVec 5) (u : Nat) (v : Nat), let t0 := (s.laneFirst e.val); let a := ((s.w e.val ra).toNat); let granule := (0x10000 ≤ a ∧ a < 0x18000 ∨ 0x40000 ≤ a ∧ a < 0x80000); (s.LaneReady e.val 5) ∧ ((a < 0x40000 → u = t0 + 1 ∧ v = t0 + 2)) ∧ ((0x40000 ≤ a → t0 ≤ u ∧ u < t0 + 4 ∧ (e.val + u) % 4 = a / 8 % 4 ∧ t0 ≤ v ∧ v < t0 + 4 ∧ (e.val + v) % 4 = (a / 8 + 1) % 4)) ∧ (granule) ∧ (a % 16 = 0) ∧ (s.chkWhen (MemWrite.from_ u) (s.laneAddr e.val a) = .valid) ∧ (s.chkWhen (MemWrite.from_ v) (s.laneAddr e.val (a + 8)) = .valid)) ∧
    (∃ (s : State) (e : Fin 512) (ra : BitVec 5), let a := ((s.w e.val ra).toNat); let granule := (0x10000 ≤ a ∧ a < 0x18000 ∨ 0x40000 ≤ a ∧ a < 0x80000); (s.LaneReady e.val 5) ∧ (¬ granule)) ∧
    (∃ (s : State) (e : Fin 512) (ra : BitVec 5), let a := ((s.w e.val ra).toNat); let granule := (0x10000 ≤ a ∧ a < 0x18000 ∨ 0x40000 ≤ a ∧ a < 0x80000); (s.LaneReady e.val 5) ∧ (granule) ∧ (a % 16 ≠ 0)) :=
  ⟨⟨(let s := lw [(1, 2), (2, 0)] (fun g => { g with cap := [(6, ⟨true, BitVec.ofNat 128 (0x30000000 + 16 * 2 ^ 40 + 3 * 2 ^ 80 + 2 ^ 88)⟩)] }); (s.setChk (s.laneAddr 511 2) .valid).setChk (s.laneAddr 511 2 + 8) .valid), (511), (6), (lane_ready (by decide +kernel)), (by decide +kernel)⟩,
   ⟨(let s := lw [(1, 2), (2, 0)] (fun g => { g with cap := [(6, ⟨false, BitVec.ofNat 128 (0x30000000 + 16 * 2 ^ 40 + 3 * 2 ^ 80 + 2 ^ 88)⟩)] }); (s.setChk (s.laneAddr 511 2) .valid).setChk (s.laneAddr 511 2 + 8) .valid), (511), (6), (lane_ready (by decide +kernel)), (by decide +kernel)⟩,
   ⟨(let s := lw [(1, 0), (2, 16)] (fun g => { g with cap := [(6, ⟨true, BitVec.ofNat 128 (0x30000000 + 16 * 2 ^ 40 + 3 * 2 ^ 80 + 2 ^ 88)⟩)] }); (s.setChk (s.laneAddr 511 0) .valid).setChk (s.laneAddr 511 0 + 8) .valid), (511), (6), (1), (2), (lane_ready (by decide +kernel)), (by decide +kernel)⟩,
   ⟨(let s := lw [(1, 16), (2, 0)] (fun g => { g with cap := [(6, ⟨true, BitVec.ofNat 128 (0x30000000 + 16 * 2 ^ 40 + 3 * 2 ^ 80 + 2 ^ 88)⟩)] }); (s.setChk (s.laneAddr 511 16) .valid).setChk (s.laneAddr 511 16 + 8) .valid), (511), (6), (1), (2), (lane_ready (by decide +kernel)), (by decide +kernel)⟩,
   ⟨(let s := lw [(1, 1), (2, 16)] (fun g => { g with cap := [(6, ⟨true, BitVec.ofNat 128 (0x30000000 + 16 * 2 ^ 40 + 3 * 2 ^ 80 + 2 ^ 88)⟩)] }); (s.setChk (s.laneAddr 511 1) .valid).setChk (s.laneAddr 511 1 + 8) .valid), (511), (6), (1), (2), (lane_ready (by decide +kernel)), (by decide +kernel)⟩,
   ⟨(let s := lw [(1, 1), (2, 1)] (fun g => { g with cap := [(6, ⟨false, BitVec.ofNat 128 (0x30000000 + 16 * 2 ^ 40 + 3 * 2 ^ 80 + 2 ^ 88)⟩)] }); (s.setChk (s.laneAddr 511 1) .valid).setChk (s.laneAddr 511 1 + 8) .valid), (511), (6), (1), (2), (lane_ready (by decide +kernel)), (by decide +kernel)⟩,
   ⟨(let s := lw [(1, 0x10000), (2, 0)] (fun g => { g with cap := [(6, ⟨true, BitVec.ofNat 128 (0x30000000 + 16 * 2 ^ 40 + 3 * 2 ^ 80 + 2 ^ 88)⟩)] }); (s.setChk (s.laneAddr 511 0x10000) .valid).setChk (s.laneAddr 511 0x10000 + 8) .valid), (511), (6), (1), (lane_ready (by decide +kernel)), (by decide +kernel)⟩,
   ⟨(let s := lw [(1, 0x17FF0), (2, 0)] (fun g => { g with cap := [(6, ⟨true, BitVec.ofNat 128 (0x30000000 + 16 * 2 ^ 40 + 3 * 2 ^ 80 + 2 ^ 88)⟩)] }); (s.setChk (s.laneAddr 511 0x17FF0) .valid).setChk (s.laneAddr 511 0x17FF0 + 8) .valid), (511), (6), (1), (lane_ready (by decide +kernel)), (by decide +kernel)⟩,
   ⟨(let s := lw [(1, 0x40000), (2, 0)] (fun g => { g with cap := [(6, ⟨true, BitVec.ofNat 128 (0x30000000 + 16 * 2 ^ 40 + 3 * 2 ^ 80 + 2 ^ 88)⟩)] }); (s.setChk (s.laneAddr 511 0x40000) .valid).setChk (s.laneAddr 511 0x40000 + 8) .valid), (511), (6), (1), (lane_ready (by decide +kernel)), (by decide +kernel)⟩,
   ⟨(let s := lw [(1, 0x7FFF0), (2, 0)] (fun g => { g with cap := [(6, ⟨true, BitVec.ofNat 128 (0x30000000 + 16 * 2 ^ 40 + 3 * 2 ^ 80 + 2 ^ 88)⟩)] }); (s.setChk (s.laneAddr 511 0x7FFF0) .valid).setChk (s.laneAddr 511 0x7FFF0 + 8) .valid), (511), (6), (1), (lane_ready (by decide +kernel)), (by decide +kernel)⟩,
   ⟨(let s := lw [(1, 0x10000), (2, 0)] (fun g => { g with cap := [(6, ⟨false, BitVec.ofNat 128 (0x30000000 + 16 * 2 ^ 40 + 3 * 2 ^ 80 + 2 ^ 88)⟩)] }); (s.setChk (s.laneAddr 511 0x10000) .valid).setChk (s.laneAddr 511 0x10000 + 8) .valid), (511), (6), (1), (lane_ready (by decide +kernel)), (by decide +kernel)⟩,
   ⟨(let s := lw [(1, 0), (2, 0)] (fun g => { g with cap := [(6, ⟨true, BitVec.ofNat 128 (0x30000000 + 16 * 2 ^ 40 + 3 * 2 ^ 80 + 2 ^ 88)⟩)] }); (s.setChk (s.laneAddr 511 0) .valid).setChk (s.laneAddr 511 0 + 8) .valid), (511), (1), (lane_ready (by decide +kernel)), (by decide +kernel)⟩,
   ⟨(let s := lw [(1, 0xFFFF), (2, 0)] (fun g => { g with cap := [(6, ⟨true, BitVec.ofNat 128 (0x30000000 + 16 * 2 ^ 40 + 3 * 2 ^ 80 + 2 ^ 88)⟩)] }); (s.setChk (s.laneAddr 511 0xFFFF) .valid).setChk (s.laneAddr 511 0xFFFF + 8) .valid), (511), (1), (lane_ready (by decide +kernel)), (by decide +kernel)⟩,
   ⟨(let s := lw [(1, 0x18000), (2, 0)] (fun g => { g with cap := [(6, ⟨true, BitVec.ofNat 128 (0x30000000 + 16 * 2 ^ 40 + 3 * 2 ^ 80 + 2 ^ 88)⟩)] }); (s.setChk (s.laneAddr 511 0x18000) .valid).setChk (s.laneAddr 511 0x18000 + 8) .valid), (511), (1), (lane_ready (by decide +kernel)), (by decide +kernel)⟩,
   ⟨(let s := lw [(1, 0x3FFFF), (2, 0)] (fun g => { g with cap := [(6, ⟨true, BitVec.ofNat 128 (0x30000000 + 16 * 2 ^ 40 + 3 * 2 ^ 80 + 2 ^ 88)⟩)] }); (s.setChk (s.laneAddr 511 0x3FFFF) .valid).setChk (s.laneAddr 511 0x3FFFF + 8) .valid), (511), (1), (lane_ready (by decide +kernel)), (by decide +kernel)⟩,
   ⟨(let s := lw [(1, 0x80000), (2, 0)] (fun g => { g with cap := [(6, ⟨true, BitVec.ofNat 128 (0x30000000 + 16 * 2 ^ 40 + 3 * 2 ^ 80 + 2 ^ 88)⟩)] }); (s.setChk (s.laneAddr 511 0x80000) .valid).setChk (s.laneAddr 511 0x80000 + 8) .valid), (511), (1), (lane_ready (by decide +kernel)), (by decide +kernel)⟩,
   ⟨(let s := lw [(1, 0x10008), (2, 0)] (fun g => { g with cap := [(6, ⟨true, BitVec.ofNat 128 (0x30000000 + 16 * 2 ^ 40 + 3 * 2 ^ 80 + 2 ^ 88)⟩)] }); (s.setChk (s.laneAddr 511 0x10008) .valid).setChk (s.laneAddr 511 0x10008 + 8) .valid), (511), (1), (lane_ready (by decide +kernel)), (by decide +kernel)⟩,
   ⟨(let s := lw [(1, 0x10000), (2, 0)] (fun g => { g with cap := [(6, ⟨true, BitVec.ofNat 128 (0x30000000 + 16 * 2 ^ 40 + 3 * 2 ^ 80 + 2 ^ 88)⟩)] }); (s.setChk (s.laneAddr 511 0x10000) .valid).setChk (s.laneAddr 511 0x10000 + 8) .valid), (511), (1), (1), (2), (lane_ready (by decide +kernel)), (by decide +kernel)⟩,
   ⟨(let s := lw [(1, 0x7FFF0), (2, 0)] (fun g => { g with cap := [(6, ⟨true, BitVec.ofNat 128 (0x30000000 + 16 * 2 ^ 40 + 3 * 2 ^ 80 + 2 ^ 88)⟩)] }); (s.setChk (s.laneAddr 511 0x7FFF0) .valid).setChk (s.laneAddr 511 0x7FFF0 + 8) .valid), (511), (1), (3), (0), (lane_ready (by decide +kernel)), (by decide +kernel)⟩,
   ⟨(let s := lw [(1, 0x3FF0), (2, 0)] (fun g => { g with cap := [(6, ⟨true, BitVec.ofNat 128 (0x30000000 + 16 * 2 ^ 40 + 3 * 2 ^ 80 + 2 ^ 88)⟩)] }); (s.setChk (s.laneAddr 511 0x3FF0) .valid).setChk (s.laneAddr 511 0x3FF0 + 8) .valid), (511), (1), (lane_ready (by decide +kernel)), (by decide +kernel)⟩,
   ⟨(let s := lw [(1, 0x40001), (2, 0)] (fun g => { g with cap := [(6, ⟨true, BitVec.ofNat 128 (0x30000000 + 16 * 2 ^ 40 + 3 * 2 ^ 80 + 2 ^ 88)⟩)] }); (s.setChk (s.laneAddr 511 0x40001) .valid).setChk (s.laneAddr 511 0x40001 + 8) .valid), (511), (1), (lane_ready (by decide +kernel)), (by decide +kernel)⟩⟩

theorem witness_LaneSystem :
    (∃ (s : State) (e : Fin 512) (port : BitVec 3), let g := (s.engine e.val); let first := s.laneFirst e.val; let at_ := (Tab.look (fun _ => 0) g.spAt port.toNat); (s.LaneReady e.val 1) ∧ (at_ ≠ first + 1) ∧ (g.before.getD s.sched.origin < at_)) ∧
    (∃ (s : State) (e : Fin 512) (port : BitVec 3), let g := (s.engine e.val); let first := s.laneFirst e.val; let at_ := (Tab.look (fun _ => 0) g.spAt port.toNat); (s.LaneReady e.val 1) ∧ (at_ = first + 1) ∧ (g.before.getD s.sched.origin < at_)) ∧
    (∃ (s : State) (e : Fin 512) (port : BitVec 3), let g := (s.engine e.val); let at_ := (Tab.look (fun _ => 0) g.spAt port.toNat); (s.LaneReady e.val 1) ∧ (at_ = 0)) ∧
    (∃ (s : State) (e : Fin 512) (n : BitVec 5), (s.LaneReady e.val 1) ∧ (n.toNat < 8)) ∧
    (∃ (s : State) (e : Fin 512) (n : BitVec 5), (s.LaneReady e.val 1) ∧ (8 ≤ n.toNat)) ∧
    (∃ (s : State) (e : Fin 512), let g := (s.engine e.val); (s.LaneReady e.val 1) ∧ (g.role = .single)) ∧
    (∃ (s : State) (e : Fin 512) (rd : BitVec 5), (s.LaneReady e.val 2) ∧ (rd.toNat % 2 = 0)) ∧
    (∃ (s : State) (e : Fin 512) (rd : BitVec 5), (s.LaneReady e.val 2) ∧ (rd.toNat % 2 = 0)) ∧
    (∃ (s : State) (e : Fin 512) (rd : BitVec 5), (s.LaneReady e.val 2) ∧ (rd.toNat % 2 = 1)) ∧
    (∃ (s : State) (e : Fin 512), (s.LaneReady e.val 3)) :=
  ⟨⟨(lane 5 (fun g => { g with start := 100, sp := [(7, 9)], spOld := [(7, 8)], before := some 20, spAt := [(7, 100)] })), (511), (7), (lane_ready (by decide +kernel)), (by decide +kernel)⟩,
   ⟨(lane 5 (fun g => { g with start := 100, sp := [(7, 9)], spOld := [(7, 8)], before := some 20, spAt := [(7, 101)] })), (511), (7), (lane_ready (by decide +kernel)), (by decide +kernel)⟩,
   ⟨(lane 5 (fun g => { g with start := 100, sp := [(7, 9)], spOld := [(7, 8)], before := some 20, spAt := [] })), (511), (7), (lane_ready (by decide +kernel)), (by decide +kernel)⟩,
   ⟨(lane 5 (fun g => { g with start := 100, sp := [(7, 9)], spOld := [(7, 8)], before := some 20, spAt := [] })), (511), (7), (lane_ready (by decide +kernel)), (by decide +kernel)⟩,
   ⟨(lane 5 (fun g => { g with start := 100, sp := [(7, 9)], spOld := [(7, 8)], before := some 20, spAt := [] })), (511), (8), (lane_ready (by decide +kernel)), (by decide +kernel)⟩,
   ⟨(lane 5 (fun g => { g with start := 100, sp := [(7, 9)], spOld := [(7, 8)], before := some 20, spAt := [] })), (511), (lane_ready (by decide +kernel)), (by decide +kernel)⟩,
   ⟨(lane 5 (fun g => { g with start := 100, sp := [(7, 9)], spOld := [(7, 8)], before := some 20, spAt := [] })), (511), (0), (lane_ready (by decide +kernel)), (by decide +kernel)⟩,
   ⟨(lane 5 (fun g => { g with start := 100, sp := [(7, 9)], spOld := [(7, 8)], before := some 20, spAt := [] })), (511), (30), (lane_ready (by decide +kernel)), (by decide +kernel)⟩,
   ⟨(lane 5 (fun g => { g with start := 100, sp := [(7, 9)], spOld := [(7, 8)], before := some 20, spAt := [] })), (511), (31), (lane_ready (by decide +kernel)), (by decide +kernel)⟩,
   ⟨(lane 5 (fun g => { g with start := 100, sp := [(7, 9)], spOld := [(7, 8)], before := some 20, spAt := [] })), (511), (lane_ready (by decide +kernel))⟩⟩

theorem witness_LaneOutputs :
    (∃ (s : State) (e : Fin 512) (field : BitVec 8), let listed := (field.toNat ≤ 5 ∨ field.toNat = 0x10 ∨ 0x20 ≤ field.toNat ∧ field.toNat ≤ 0x23); (s.LaneReady e.val 3) ∧ (¬ listed)) ∧
    (∃ (s : State) (e : Fin 512) (field : BitVec 8), let listed := (field.toNat ≤ 5 ∨ field.toNat = 0x10 ∨ 0x20 ≤ field.toNat ∧ field.toNat ≤ 0x23); (s.LaneReady e.val 3) ∧ (¬ listed)) ∧
    (∃ (s : State) (e : Fin 512) (field : BitVec 8), let listed := (field.toNat ≤ 5 ∨ field.toNat = 0x10 ∨ 0x20 ≤ field.toNat ∧ field.toNat ≤ 0x23); (s.LaneReady e.val 3) ∧ (¬ listed)) ∧
    (∃ (s : State) (e : Fin 512) (field : BitVec 8), let listed := (field.toNat ≤ 5 ∨ field.toNat = 0x10 ∨ 0x20 ≤ field.toNat ∧ field.toNat ≤ 0x23); (s.LaneReady e.val 3) ∧ (¬ listed)) ∧
    (∃ (s : State) (e : Fin 512) (field : BitVec 8), let listed := (field.toNat ≤ 5 ∨ field.toNat = 0x10 ∨ 0x20 ≤ field.toNat ∧ field.toNat ≤ 0x23); (s.LaneReady e.val 3) ∧ (¬ listed)) ∧
    (∃ (s : State) (e : Fin 512) (rt : BitVec 5) (field : BitVec 8), (s.LaneReady e.val 3) ∧ (field.toNat ≤ 5) ∧ (rt ≠ 0)) ∧
    (∃ (s : State) (e : Fin 512) (cap : BitVec 3) (index : BitVec 5) (rt : BitVec 5) (field : BitVec 8), let c := (s.lcap e.val cap); let listed := (field.toNat ≤ 5 ∨ field.toNat = 0x10 ∨ 0x20 ≤ field.toNat ∧ field.toNat ≤ 0x23); (s.LaneReady e.val 3) ∧ (listed) ∧ (5 < field.toNat ∨ rt = 0) ∧ (s.capFor c 2 2 = false ∨ c.len ≤ index.toNat)) ∧
    (∃ (s : State) (e : Fin 512) (cap : BitVec 3) (index : BitVec 5) (rt : BitVec 5) (field : BitVec 8), let c := (s.lcap e.val cap); let listed := (field.toNat ≤ 5 ∨ field.toNat = 0x10 ∨ 0x20 ≤ field.toNat ∧ field.toNat ≤ 0x23); (s.LaneReady e.val 3) ∧ (listed) ∧ (5 < field.toNat ∨ rt = 0) ∧ (s.capFor c 2 2 = false ∨ c.len ≤ index.toNat)) ∧
    (∃ (s : State) (e : Fin 512) (cap : BitVec 3) (index : BitVec 5) (rs : BitVec 5) (rt : BitVec 5) (field : BitVec 8), let g := (s.engine e.val); let c := (s.lcap e.val cap); let listed := (field.toNat ≤ 5 ∨ field.toNat = 0x10 ∨ 0x20 ≤ field.toNat ∧ field.toNat ≤ 0x23); (s.LaneReady e.val 3) ∧ (listed) ∧ (5 < field.toNat ∨ rt = 0) ∧ (s.capFor c 2 2 = true) ∧ (index.toNat < c.len) ∧ (g.role = .single) ∧ (((s.laneAt e.val 3).edgeEffect e.val (s.physOf e.val) (s.laneFirst e.val + 2) (c.base + index.toNat) field.toNat (s.w e.val rs).toNat (if field.toNat ≤ 5 then 0 else (s.w e.val rt).toNat % 128)).1 = false)) ∧
    (∃ (s : State) (e : Fin 512) (cap : BitVec 3) (index : BitVec 5) (rs : BitVec 5) (rt : BitVec 5) (field : BitVec 8), let g := (s.engine e.val); let c := (s.lcap e.val cap); let listed := (field.toNat ≤ 5 ∨ field.toNat = 0x10 ∨ 0x20 ≤ field.toNat ∧ field.toNat ≤ 0x23); (s.LaneReady e.val 3) ∧ (listed) ∧ (5 < field.toNat ∨ rt = 0) ∧ (s.capFor c 2 2 = true) ∧ (index.toNat < c.len) ∧ (g.role = .single) ∧ (((s.laneAt e.val 3).edgeEffect e.val (s.physOf e.val) (s.laneFirst e.val + 2) (c.base + index.toNat) field.toNat (s.w e.val rs).toNat (if field.toNat ≤ 5 then 0 else (s.w e.val rt).toNat % 128)).1 = false)) ∧
    (∃ (s : State) (e : Fin 512) (cap : BitVec 3) (index : BitVec 5) (rs : BitVec 5) (rt : BitVec 5) (field : BitVec 8), let g := (s.engine e.val); let c := (s.lcap e.val cap); let listed := (field.toNat ≤ 5 ∨ field.toNat = 0x10 ∨ 0x20 ≤ field.toNat ∧ field.toNat ≤ 0x23); (s.LaneReady e.val 3) ∧ (listed) ∧ (5 < field.toNat ∨ rt = 0) ∧ (s.capFor c 2 2 = true) ∧ (index.toNat < c.len) ∧ (g.role = .single) ∧ (((s.laneAt e.val 3).edgeEffect e.val (s.physOf e.val) (s.laneFirst e.val + 2) (c.base + index.toNat) field.toNat (s.w e.val rs).toNat (if field.toNat ≤ 5 then 0 else (s.w e.val rt).toNat % 128)).1 = false)) ∧
    (∃ (s : State) (e : Fin 512) (route : BitVec 8), let g := (s.engine e.val); let x := (s.peek (routeAddr s.bank e.val route.toNat) 8); (s.LaneReady e.val 2) ∧ (routeValid x = true) ∧ (routeIn x = false) ∧ (g.role = .single)) ∧
    (∃ (s : State) (e : Fin 512) (route : BitVec 8), let x := (s.peek (routeAddr s.bank e.val route.toNat) 8); (s.LaneReady e.val 2) ∧ ((s.chkAt (routeAddr s.bank e.val route.toNat)).bad = false) ∧ (routeValid x = false ∨ routeIn x = true)) ∧
    (∃ (s : State) (e : Fin 512) (route : BitVec 8), let x := (s.peek (routeAddr s.bank e.val route.toNat) 8); (s.LaneReady e.val 2) ∧ ((s.chkAt (routeAddr s.bank e.val route.toNat)).bad = false) ∧ (routeValid x = false ∨ routeIn x = true)) ∧
    (∃ (s : State) (e : Fin 512) (cap : BitVec 3), let g := (s.engine e.val); let c := (s.lcap e.val cap); (s.LaneReady e.val 2) ∧ (s.namesChannel c = true) ∧ (g.role = .single)) ∧
    (∃ (s : State) (e : Fin 512) (cap : BitVec 3), let c := (s.lcap e.val cap); (s.LaneReady e.val 2) ∧ (s.namesChannel c = false)) ∧
    (∃ (s : State) (e : Fin 512) (route : BitVec 8), let x := (s.peek (routeAddr s.bank e.val route.toNat) 8); let r := (s.rxAt s.bank e.val route.toNat); (s.LaneReady e.val 1) ∧ (routeValid x = true) ∧ (routeIn x = true) ∧ (r.came = none) ∧ (r.fresh = true)) ∧
    (∃ (s : State) (e : Fin 512) (route : BitVec 8), let x := (s.peek (routeAddr s.bank e.val route.toNat) 8); let r := (s.rxAt s.bank e.val route.toNat); (s.LaneReady e.val 1) ∧ (routeValid x = true) ∧ (routeIn x = true) ∧ (r.came = none) ∧ (r.fresh = false)) ∧
    (∃ (s : State) (e : Fin 512) (route : BitVec 8), let x := (s.peek (routeAddr s.bank e.val route.toNat) 8); let r := (s.rxAt s.bank e.val route.toNat); (s.LaneReady e.val 1) ∧ (routeValid x = true) ∧ (routeIn x = true) ∧ (r.came = some (0, 0x55, true, true)) ∧ (s.laneFirst e.val ≤ 0)) ∧
    (∃ (s : State) (e : Fin 512) (route : BitVec 8), let x := (s.peek (routeAddr s.bank e.val route.toNat) 8); let r := (s.rxAt s.bank e.val route.toNat); (s.LaneReady e.val 1) ∧ (routeValid x = true) ∧ (routeIn x = true) ∧ (r.came = some (0, 0x55, false, true)) ∧ (s.laneFirst e.val ≤ 0)) ∧
    (∃ (s : State) (e : Fin 512) (route : BitVec 8), let x := (s.peek (routeAddr s.bank e.val route.toNat) 8); (s.LaneReady e.val 1) ∧ (routeValid x = false ∨ routeIn x = false)) :=
  ⟨⟨(let s := lane 5 (fun g => { g with cap := [(6, ⟨true, BitVec.ofNat 128 (7 + 3 * 2 ^ 40 + 4 * 2 ^ 80 + 2 * 2 ^ 88)⟩)] }); (s.put8 (routeAddr 0 511 255) (0))), (511), (6), (lane_ready (by decide +kernel)), (by decide +kernel)⟩,
   ⟨(let s := lane 5 (fun g => { g with cap := [(6, ⟨true, BitVec.ofNat 128 (7 + 3 * 2 ^ 40 + 4 * 2 ^ 80 + 2 * 2 ^ 88)⟩)] }); (s.put8 (routeAddr 0 511 255) (0))), (511), (0x11), (lane_ready (by decide +kernel)), (by decide +kernel)⟩,
   ⟨(let s := lane 5 (fun g => { g with cap := [(6, ⟨true, BitVec.ofNat 128 (7 + 3 * 2 ^ 40 + 4 * 2 ^ 80 + 2 * 2 ^ 88)⟩)] }); (s.put8 (routeAddr 0 511 255) (0))), (511), (0x1F), (lane_ready (by decide +kernel)), (by decide +kernel)⟩,
   ⟨(let s := lane 5 (fun g => { g with cap := [(6, ⟨true, BitVec.ofNat 128 (7 + 3 * 2 ^ 40 + 4 * 2 ^ 80 + 2 * 2 ^ 88)⟩)] }); (s.put8 (routeAddr 0 511 255) (0))), (511), (0x24), (lane_ready (by decide +kernel)), (by decide +kernel)⟩,
   ⟨(let s := lane 5 (fun g => { g with cap := [(6, ⟨true, BitVec.ofNat 128 (7 + 3 * 2 ^ 40 + 4 * 2 ^ 80 + 2 * 2 ^ 88)⟩)] }); (s.put8 (routeAddr 0 511 255) (0))), (511), (0xFF), (lane_ready (by decide +kernel)), (by decide +kernel)⟩,
   ⟨(let s := lane 5 (fun g => { g with cap := [(6, ⟨true, BitVec.ofNat 128 (7 + 3 * 2 ^ 40 + 4 * 2 ^ 80 + 2 * 2 ^ 88)⟩)] }); (s.put8 (routeAddr 0 511 255) (0))), (511), (1), (5), (lane_ready (by decide +kernel)), (by decide +kernel)⟩,
   ⟨(let s := lane 5 (fun g => { g with cap := [(6, ⟨true, BitVec.ofNat 128 (7 + 3 * 2 ^ 40 + 4 * 2 ^ 80 + 2 * 2 ^ 88)⟩)] }); (s.put8 (routeAddr 0 511 255) (0))), (511), (6), (3), (0), (5), (lane_ready (by decide +kernel)), (by decide +kernel)⟩,
   ⟨(let s := lane 5 (fun g => { g with cap := [(6, ⟨true, BitVec.ofNat 128 (7 + 3 * 2 ^ 40 + 2 * 2 ^ 88)⟩)] }); (s.put8 (routeAddr 0 511 255) (0))), (511), (6), (0), (0), (0x10), (lane_ready (by decide +kernel)), (by decide +kernel)⟩,
   ⟨(let s := lane 5 (fun g => { g with cap := [(6, ⟨true, BitVec.ofNat 128 (7 + 3 * 2 ^ 40 + 4 * 2 ^ 80 + 2 * 2 ^ 88)⟩)] }); (s.put8 (routeAddr 0 511 255) (0)) |>.setFld F.SCH_STATUS_RUNNING 0 1 |>.setBytes (tagWordAddr 0 0) [1] |>.poke (capsAddr 0 0 0) 16 (10 * 2 ^ 40 + 2 * 2 ^ 88)), (511), (6), (2), (1), (0), (0), (lane_ready (by decide +kernel)), (by decide +kernel)⟩,
   ⟨(let s := lane 5 (fun g => { g with cap := [(6, ⟨true, BitVec.ofNat 128 (7 + 3 * 2 ^ 40 + 4 * 2 ^ 80 + 2 * 2 ^ 88)⟩)] }); (s.put8 (routeAddr 0 511 255) (0)) |>.setFld F.SCH_STATUS_RUNNING 0 1 |>.setBytes (tagWordAddr 0 0) [1] |>.poke (capsAddr 0 0 0) 16 (10 * 2 ^ 40 + 2 * 2 ^ 88)), (511), (6), (2), (1), (0), (0x10), (lane_ready (by decide +kernel)), (by decide +kernel)⟩,
   ⟨(let s := lane 5 (fun g => { g with cap := [(6, ⟨true, BitVec.ofNat 128 (7 + 3 * 2 ^ 40 + 4 * 2 ^ 80 + 2 * 2 ^ 88)⟩)] }); (s.put8 (routeAddr 0 511 255) (0)) |>.setFld F.SCH_STATUS_RUNNING 0 1 |>.setBytes (tagWordAddr 0 0) [1] |>.poke (capsAddr 0 0 0) 16 (10 * 2 ^ 40 + 2 * 2 ^ 88)), (511), (6), (2), (1), (0), (0x23), (lane_ready (by decide +kernel)), (by decide +kernel)⟩,
   ⟨(let s := lane 5 (fun g => { g with cap := [(6, ⟨true, BitVec.ofNat 128 (7 + 3 * 2 ^ 40 + 4 * 2 ^ 80 + 2 * 2 ^ 88)⟩)] }); (s.put8 (routeAddr 0 511 255) (2 ^ 63))), (511), (255), (lane_ready (by decide +kernel)), (by decide +kernel)⟩,
   ⟨(let s := lane 5 (fun g => { g with cap := [(6, ⟨true, BitVec.ofNat 128 (7 + 3 * 2 ^ 40 + 4 * 2 ^ 80 + 2 * 2 ^ 88)⟩)] }); (s.put8 (routeAddr 0 511 255) (0))), (511), (255), (lane_ready (by decide +kernel)), (by decide +kernel)⟩,
   ⟨(let s := lane 5 (fun g => { g with cap := [(6, ⟨true, BitVec.ofNat 128 (7 + 3 * 2 ^ 40 + 4 * 2 ^ 80 + 2 * 2 ^ 88)⟩)] }); (s.put8 (routeAddr 0 511 255) (3 * 2 ^ 62))), (511), (255), (lane_ready (by decide +kernel)), (by decide +kernel)⟩,
   ⟨(let s := lane 5 (fun g => { g with cap := [(6, ⟨true, BitVec.ofNat 128 (767 + 2 ^ 40 + 8 * 2 ^ 80 + 8 * 2 ^ 88)⟩)] }); (s.put8 (routeAddr 0 511 255) (0))), (511), (6), (lane_ready (by decide +kernel)), (by decide +kernel)⟩,
   ⟨(let s := lane 5 (fun g => { g with cap := [(6, ⟨true, BitVec.ofNat 128 (767 + 2 ^ 40 + 8 * 2 ^ 80 + 8 * 2 ^ 88)⟩)] }); (s.put8 (routeAddr 0 511 255) (0)).setFld F.EVC_CTL_DOM 767 1), (511), (6), (lane_ready (by decide +kernel)), (by decide +kernel)⟩,
   ⟨(let s := lane 5 (fun g => { g with cap := [(6, ⟨true, BitVec.ofNat 128 (7 + 3 * 2 ^ 40 + 4 * 2 ^ 80 + 2 * 2 ^ 88)⟩)] }); (s.put8 (routeAddr 0 511 255) (3 * 2 ^ 62)).setRx 0 511 255 ⟨0x1234, true, true, none⟩), (511), (255), (lane_ready (by decide +kernel)), (by decide +kernel)⟩,
   ⟨(let s := lane 5 (fun g => { g with cap := [(6, ⟨true, BitVec.ofNat 128 (7 + 3 * 2 ^ 40 + 4 * 2 ^ 80 + 2 * 2 ^ 88)⟩)] }); (s.put8 (routeAddr 0 511 255) (3 * 2 ^ 62))), (511), (255), (lane_ready (by decide +kernel)), (by decide +kernel)⟩,
   ⟨(let s := lane 5 (fun g => { g with cap := [(6, ⟨true, BitVec.ofNat 128 (7 + 3 * 2 ^ 40 + 4 * 2 ^ 80 + 2 * 2 ^ 88)⟩)] }); (s.put8 (routeAddr 0 511 255) (3 * 2 ^ 62)).setRx 0 511 255 ⟨0x1234, true, true, some (0, 0x55, true, true)⟩), (511), (255), (lane_ready (by decide +kernel)), (by decide +kernel)⟩,
   ⟨(let s := lane 5 (fun g => { g with cap := [(6, ⟨true, BitVec.ofNat 128 (7 + 3 * 2 ^ 40 + 4 * 2 ^ 80 + 2 * 2 ^ 88)⟩)] }); (s.put8 (routeAddr 0 511 255) (3 * 2 ^ 62)).setRx 0 511 255 ⟨0x1234, true, true, some (0, 0x55, false, true)⟩), (511), (255), (lane_ready (by decide +kernel)), (by decide +kernel)⟩,
   ⟨(let s := lane 5 (fun g => { g with cap := [(6, ⟨true, BitVec.ofNat 128 (7 + 3 * 2 ^ 40 + 4 * 2 ^ 80 + 2 * 2 ^ 88)⟩)] }); (s.put8 (routeAddr 0 511 255) (2 ^ 63))), (511), (255), (lane_ready (by decide +kernel)), (by decide +kernel)⟩⟩

theorem witness_LaneLode :
    (∃ (s : State) (e : Fin 512) (cap : BitVec 3) (x : LodeOp), let c := (s.lcap e.val cap); (s.LaneReady e.val x.count) ∧ (x.ra.toNat + x.n - 1 ≤ 31) ∧ ((x.m = 0 → x.depth ≠ 0 ∧ x.depth ≤ 24)) ∧ (s.capFor c 7 0 = true) ∧ (s.fld F.LOD_W0_KIND c.base ≠ (if x.m = 0 then 4 else x.m))) ∧
    (∃ (s : State) (e : Fin 512) (cap : BitVec 3) (x : LodeOp), let c := (s.lcap e.val cap); (s.LaneReady e.val x.count) ∧ (x.ra.toNat + x.n - 1 ≤ 31) ∧ ((x.m = 0 → x.depth ≠ 0 ∧ x.depth ≤ 24)) ∧ (s.capFor c 7 0 = false)) ∧
    (∃ (s : State) (e : Fin 512) (cap : BitVec 3) (x : LodeOp), let c := (s.lcap e.val cap); (s.LaneReady e.val x.count) ∧ (x.ra.toNat + x.n - 1 ≤ 31) ∧ ((x.m = 0 → x.depth ≠ 0 ∧ x.depth ≤ 24)) ∧ (s.capFor c 7 0 = true) ∧ (s.fld F.LOD_W0_KIND c.base ≠ (if x.m = 0 then 4 else x.m))) ∧
    (∃ (s : State) (e : Fin 512) (cap : BitVec 3) (x : LodeOp), let c := (s.lcap e.val cap); (s.LaneReady e.val x.count) ∧ (x.ra.toNat + x.n - 1 ≤ 31) ∧ ((x.m = 0 → x.depth ≠ 0 ∧ x.depth ≤ 24)) ∧ (s.capFor c 7 0 = false)) ∧
    (∃ (s : State) (e : Fin 512) (cap : BitVec 3) (x : LodeOp), let c := (s.lcap e.val cap); (s.LaneReady e.val x.count) ∧ (x.ra.toNat + x.n - 1 ≤ 31) ∧ ((x.m = 0 → x.depth ≠ 0 ∧ x.depth ≤ 24)) ∧ (s.capFor c 7 0 = true) ∧ (s.fld F.LOD_W0_KIND c.base ≠ (if x.m = 0 then 4 else x.m))) ∧
    (∃ (s : State) (e : Fin 512) (cap : BitVec 3) (x : LodeOp), let c := (s.lcap e.val cap); (s.LaneReady e.val x.count) ∧ (x.ra.toNat + x.n - 1 ≤ 31) ∧ ((x.m = 0 → x.depth ≠ 0 ∧ x.depth ≤ 24)) ∧ (s.capFor c 7 0 = false)) ∧
    (∃ (s : State) (e : Fin 512) (x : LodeOp), (s.LaneReady e.val x.count) ∧ (31 < x.ra.toNat + x.n - 1)) ∧
    (∃ (s : State) (e : Fin 512) (x : LodeOp), (s.LaneReady e.val x.count) ∧ (31 < x.ra.toNat + x.n - 1)) ∧
    (∃ (s : State) (e : Fin 512) (x : LodeOp), (s.LaneReady e.val x.count) ∧ (31 < x.ra.toNat + x.n - 1)) ∧
    (∃ (s : State) (e : Fin 512) (x : LodeOp), (s.LaneReady e.val x.count) ∧ (x.ra.toNat + x.n - 1 ≤ 31) ∧ (x.m = 0 ∧ (x.depth = 0 ∨ 24 < x.depth))) ∧
    (∃ (s : State) (e : Fin 512) (x : LodeOp), (s.LaneReady e.val x.count) ∧ (x.ra.toNat + x.n - 1 ≤ 31) ∧ (x.m = 0 ∧ (x.depth = 0 ∨ 24 < x.depth))) ∧
    (∃ (s : State) (e : Fin 512) (cap : BitVec 3) (x : LodeOp), let c := (s.lcap e.val cap); (s.LaneReady e.val x.count) ∧ (x.ra.toNat + x.n - 1 ≤ 31) ∧ ((x.m = 0 → x.depth ≠ 0 ∧ x.depth ≤ 24)) ∧ (s.capFor c 7 0 = true) ∧ (s.fld F.LOD_W0_KIND c.base ≠ (if x.m = 0 then 4 else x.m))) ∧
    (∃ (s : State) (e : Fin 512) (x : LodeOp) (v : Word), let t0 := (s.laneFirst e.val); let at_ := (s.laneAt e.val x.count); let r := (at_.lodeRun e.val x t0 (at_.lodeLost e.val)); let asks := ((lodeRequests x.m x.depth t0).take r.1.2); (s.LaneReady e.val x.count) ∧ (r.1.1.toOption = some v) ∧ (asks.all (fun u => (List.range 8).all (fun j => !(decide (e.val / 8 * 8 + j < e.val) && r.2.lodeBusy (e.val / 8 * 8 + j) u))) = true)) ∧
    (∃ (s : State) (e : Fin 512) (x : LodeOp) (v : Word) (u : Nat) (j : Nat), let t0 := (s.laneFirst e.val); let at_ := (s.laneAt e.val x.count); let r := (at_.lodeRun e.val x t0 (at_.lodeLost e.val)); let asks := ((lodeRequests x.m x.depth t0).take r.1.2); (s.LaneReady e.val x.count) ∧ (r.1.1.toOption = some v) ∧ ((u ∈ asks ∧ j < 8 ∧ e.val / 8 * 8 + j < e.val ∧ r.2.lodeBusy (e.val / 8 * 8 + j) u = true))) :=
  ⟨⟨(((lane 5 (fun g => { g with cap := [(6, ⟨true, BitVec.ofNat 128 (1023 + 2 ^ 40 + 2 ^ 80 + 7 * 2 ^ 88)⟩)] })).setFld F.LOD_W0_KIND 1023 4)), (511), (6), (⟨1, 2, 31, 6, 1, 0⟩), (lane_ready (by decide +kernel)), (by decide +kernel)⟩,
   ⟨(((lane 5 (fun g => { g with cap := [(6, ⟨true, BitVec.ofNat 128 (1023 + 2 ^ 40 + 2 ^ 88)⟩)] })).setFld F.LOD_W0_KIND 1023 1)), (511), (6), (⟨1, 2, 31, 6, 1, 0⟩), (lane_ready (by decide +kernel)), (by decide +kernel)⟩,
   ⟨(((lane 5 (fun g => { g with cap := [(6, ⟨true, BitVec.ofNat 128 (1023 + 2 ^ 40 + 2 ^ 80 + 7 * 2 ^ 88)⟩)] })).setFld F.LOD_W0_KIND 1023 4)), (511), (6), (⟨2, 2, 30, 6, 2, 0⟩), (lane_ready (by decide +kernel)), (by decide +kernel)⟩,
   ⟨(((lane 5 (fun g => { g with cap := [(6, ⟨true, BitVec.ofNat 128 (1023 + 2 ^ 40 + 2 ^ 88)⟩)] })).setFld F.LOD_W0_KIND 1023 1)), (511), (6), (⟨2, 2, 30, 6, 2, 0⟩), (lane_ready (by decide +kernel)), (by decide +kernel)⟩,
   ⟨(((lane 5 (fun g => { g with cap := [(6, ⟨true, BitVec.ofNat 128 (1023 + 2 ^ 40 + 2 ^ 80 + 7 * 2 ^ 88)⟩)] })).setFld F.LOD_W0_KIND 1023 4)), (511), (6), (⟨3, 2, 29, 6, 3, 0⟩), (lane_ready (by decide +kernel)), (by decide +kernel)⟩,
   ⟨(((lane 5 (fun g => { g with cap := [(6, ⟨true, BitVec.ofNat 128 (1023 + 2 ^ 40 + 2 ^ 88)⟩)] })).setFld F.LOD_W0_KIND 1023 1)), (511), (6), (⟨3, 2, 29, 6, 3, 0⟩), (lane_ready (by decide +kernel)), (by decide +kernel)⟩,
   ⟨(((lane 5 (fun g => { g with cap := [(6, ⟨true, BitVec.ofNat 128 (1023 + 2 ^ 40 + 2 ^ 80 + 7 * 2 ^ 88)⟩)] })).setFld F.LOD_W0_KIND 1023 1)), (511), (⟨2, 2, 31, 6, 2, 0⟩), (lane_ready (by decide +kernel)), (by decide +kernel)⟩,
   ⟨(((lane 5 (fun g => { g with cap := [(6, ⟨true, BitVec.ofNat 128 (1023 + 2 ^ 40 + 2 ^ 80 + 7 * 2 ^ 88)⟩)] })).setFld F.LOD_W0_KIND 1023 1)), (511), (⟨3, 2, 30, 6, 3, 0⟩), (lane_ready (by decide +kernel)), (by decide +kernel)⟩,
   ⟨(((lane 5 (fun g => { g with cap := [(6, ⟨true, BitVec.ofNat 128 (1023 + 2 ^ 40 + 2 ^ 80 + 7 * 2 ^ 88)⟩)] })).setFld F.LOD_W0_KIND 1023 1)), (511), (⟨0, 2, 25, 6, 8, 1⟩), (lane_ready (by decide +kernel)), (by decide +kernel)⟩,
   ⟨(((lane 5 (fun g => { g with cap := [(6, ⟨true, BitVec.ofNat 128 (1023 + 2 ^ 40 + 2 ^ 80 + 7 * 2 ^ 88)⟩)] })).setFld F.LOD_W0_KIND 1023 1)), (511), (⟨0, 2, 0, 6, 1, 0⟩), (lane_ready (by decide +kernel)), (by decide +kernel)⟩,
   ⟨(((lane 5 (fun g => { g with cap := [(6, ⟨true, BitVec.ofNat 128 (1023 + 2 ^ 40 + 2 ^ 80 + 7 * 2 ^ 88)⟩)] })).setFld F.LOD_W0_KIND 1023 1)), (511), (⟨0, 2, 0, 6, 1, 25⟩), (lane_ready (by decide +kernel)), (by decide +kernel)⟩,
   ⟨(((lane 5 (fun g => { g with cap := [(6, ⟨true, BitVec.ofNat 128 (1023 + 2 ^ 40 + 2 ^ 80 + 7 * 2 ^ 88)⟩)] })).setFld F.LOD_W0_KIND 1023 1)), (511), (6), (⟨0, 2, 24, 6, 8, 24⟩), (lane_ready (by decide +kernel)), (by decide +kernel)⟩,
   ⟨(((lane 5 (fun g => { g with cap := [(6, ⟨true, BitVec.ofNat 128 (1023 + 2 ^ 40 + 2 ^ 80 + 7 * 2 ^ 88)⟩)] })).setFld F.LOD_W0_KIND 1023 1).setFld F.SCH_STATUS_RUNNING 0 1 |>.setBytes (tagWordAddr 0 0) [1] |>.poke (capsAddr 0 0 0) 16 (1023 + 2 ^ 40 + 2 ^ 80 + 7 * 2 ^ 88) |>.setFld F.LOD_W3_SIZE 1023 2 |>.setRegN .LOD_W7 1023 1 |> fun s => s.fill 0x100000000 [9, 0, 0, 0, 9, 0, 0, 0]), (511), (⟨1, 2, 31, 6, 1, 0⟩), (9), (lane_ready (by decide +kernel)), (by decide +kernel)⟩,
   ⟨(((lane 5 (fun g => { g with cap := [(6, ⟨true, BitVec.ofNat 128 (1023 + 2 ^ 40 + 2 ^ 80 + 7 * 2 ^ 88)⟩)] })).setFld F.LOD_W0_KIND 1023 1).setFld F.SCH_STATUS_RUNNING 0 1 |>.setBytes (tagWordAddr 0 0) [1] |>.poke (capsAddr 0 0 0) 16 (1023 + 2 ^ 40 + 2 ^ 80 + 7 * 2 ^ 88) |>.setFld F.LOD_W3_SIZE 1023 2 |>.setRegN .LOD_W7 1023 1 |> fun s => s.fill 0x100000000 [9, 0, 0, 0, 9, 0, 0, 0] |> fun s => s.setEng 504 { Eng.init with lode := [⟨2, true, 0, 5⟩] }), (511), (⟨1, 2, 31, 6, 1, 0⟩), (0), (2), (0), (lane_ready (by decide +kernel)), (by decide +kernel)⟩⟩

theorem witness_LaneRegisterFrame :
    (∃ (s : State) (e : Fin 512) (i : Instr) (d : LaneDest), (s.LaneReady e.val 1) ∧ (i.core = some (.lane e)) ∧ (laneDest i = some d) ∧ ((laneBodyOf e.val i).map (·.1) = some 1) ∧ (i.wf = true)) :=
  ⟨(lane 4094), (511), (.addi (.lane 511) 3 1 7), (.w 3), (lane_ready (by decide +kernel)), (by decide +kernel)⟩

theorem witness_LaneStops :
    (∃ (s : State) (e : Fin 512) (i : Instr), let g := (s.engine e.val); (i.core = some (.lane e)) ∧ ((laneBodyOf e.val i).map (·.1) = some 2) ∧ (g.running = true) ∧ (g.budget < g.used + 1) ∧ (lodeOp i = none)) ∧
    (∃ (s : State) (e : Fin 512) (i : Instr), let g := (s.engine e.val); let t0 := (s.laneFirst e.val); let u := (s.reach t0); let x := (s.laneNext e.val); (i.core = some (.lane e)) ∧ ((laneBodyOf e.val i).map (·.1) = some 2) ∧ (g.running = true) ∧ (g.used + 1 ≤ g.budget) ∧ (g.budget < g.used + 2) ∧ (lodeOp i = none) ∧ (x.1 = false) ∧ (x.2.2 = u) ∧ (legalWord e.val x.2.1 = true)) ∧
    (∃ (s : State) (e : Fin 512) (i : Instr), let g := (s.engine e.val); let x := (s.laneNext e.val); (i.core = some (.lane e)) ∧ ((laneBodyOf e.val i).map (·.1) = some 2) ∧ (g.running = true) ∧ (g.used + 2 ≤ g.budget) ∧ (x.1 = true)) ∧
    (∃ (s : State) (e : Fin 512) (i : Instr), let g := (s.engine e.val); let x := (s.laneNext e.val); (i.core = some (.lane e)) ∧ ((laneBodyOf e.val i).map (·.1) = some 2) ∧ (g.running = true) ∧ (g.used + 2 ≤ g.budget) ∧ (x.1 = false) ∧ (legalWord e.val x.2.1 = false)) ∧
    (∃ (s : State) (e : Fin 512) (i : Instr), let g := (s.engine e.val); (i.core = some (.lane e)) ∧ ((laneBodyOf e.val i).map (·.1) = some 2) ∧ (g.running = false)) ∧
    (∃ (s : State) (e : Nat) (cause : Nat) (pc : Nat), (e < 512) ∧ (cause < 2 ^ 7) ∧ (pc < 4096) ∧ ((s.engine e).role = .single) ∧ (s.physOf e < 16) ∧ (s.alive (sqDom (e / 8)) = true) ∧ (s.flag F.SQ_ABORT_VALID (e / 8) = false)) ∧
    (∃ (s : State) (e : Nat) (cause : Nat) (pc : Nat), (e < 512) ∧ (cause < 2 ^ 7) ∧ (pc < 4096) ∧ ((s.engine e).role = .single) ∧ (s.physOf e < 16) ∧ (s.alive (sqDom (e / 8)) = true) ∧ (s.flag F.SQ_ABORT_VALID (e / 8) = true) ∧ (s.fld F.SQ_ABORTCNT_COUNT (e / 8) < 2 ^ F.SQ_ABORTCNT_COUNT.width - 1)) :=
  ⟨⟨(lane 5 (fun g => { g with used := 1000 })), (511), (.mul (.lane 511) 3 1 7), (by decide +kernel)⟩,
   ⟨(lane 5 (fun g => { g with used := 999 })), (511), (.mul (.lane 511) 3 1 7), (by decide +kernel)⟩,
   ⟨(let s := lane 5 (fun g => { g with used := 998 }); s.setChk (s.laneAddr 511 20) .poison), (511), (.mul (.lane 511) 3 1 7), (by decide +kernel)⟩,
   ⟨(let s := lane 5 (fun g => { g with used := 998 }); s.fill (s.laneAddr 511 20) [0, 0, 0, 0]), (511), (.mul (.lane 511) 3 1 7), (by decide +kernel)⟩,
   ⟨(up), (511), (.mul (.lane 511) 3 1 7), (by decide +kernel)⟩,
   ⟨(lane 5), (511), (127), (4095), (by decide +kernel)⟩,
   ⟨((lane 5).setFld F.SQ_ABORT_VALID 63 1), (511), (127), (4095), (by decide +kernel)⟩⟩

theorem witness_LaneRep :
    (∃ (s : State) (e : Fin 512) (rsrc : Bool) (n : BitVec 2) (ra : BitVec 5) (rb : BitVec 5) (cnt : BitVec 5) (word : Nat), let g := (s.engine e.val); let u := ((s.reach (s.laneFirst e.val)).laneAdvance e.val 1 (g.pc + 1)); (s.LaneReady e.val 129) ∧ (g.pc + 1 < 4095) ∧ (u.laneFetch e.val (g.pc + 1) = (false, word, u)) ∧ (encodeLane (.mac (.lane e) n ra rb) = some (BitVec.ofNat 32 word)) ∧ (word < 2 ^ 32) ∧ (rsrc = false → cnt = 0)) ∧
    (∃ (s : State) (e : Fin 512) (rsrc : Bool) (cnt : BitVec 5), (s.LaneReady e.val 1) ∧ (rsrc = false) ∧ (cnt ≠ 0)) ∧
    (∃ (s : State) (e : Fin 512) (rsrc : Bool) (cnt : BitVec 5) (word : Nat), let g := (s.engine e.val); let u := ((s.reach (s.laneFirst e.val)).laneAdvance e.val 1 (g.pc + 1)); (s.LaneReady e.val 1) ∧ (g.pc + 1 < 4095) ∧ (u.laneFetch e.val (g.pc + 1) = (false, word, u)) ∧ (rsrc = false → cnt = 0) ∧ (word / 2 ^ 26 ∈ [0x0B, 0x0C, 0x0D, 0x0E, 0x15, 0x1A, 0x1B]) ∧ (word < 2 ^ 32)) ∧
    (∃ (s : State) (e : Fin 512) (rsrc : Bool) (cnt : BitVec 5) (word : Nat), let g := (s.engine e.val); let u := ((s.reach (s.laneFirst e.val)).laneAdvance e.val 1 (g.pc + 1)); (s.LaneReady e.val 1) ∧ (g.pc + 1 < 4095) ∧ (u.laneFetch e.val (g.pc + 1) = (false, word, u)) ∧ (rsrc = false → cnt = 0) ∧ (word / 2 ^ 26 ∈ [0x0B, 0x0C, 0x0D, 0x0E, 0x15, 0x1A, 0x1B]) ∧ (word < 2 ^ 32)) ∧
    (∃ (s : State) (e : Fin 512) (rsrc : Bool) (cnt : BitVec 5) (word : Nat), let g := (s.engine e.val); let u := ((s.reach (s.laneFirst e.val)).laneAdvance e.val 1 (g.pc + 1)); (s.LaneReady e.val 1) ∧ (g.pc + 1 < 4095) ∧ (u.laneFetch e.val (g.pc + 1) = (false, word, u)) ∧ (rsrc = false → cnt = 0) ∧ (word / 2 ^ 26 ∈ [0x0B, 0x0C, 0x0D, 0x0E, 0x15, 0x1A, 0x1B]) ∧ (word < 2 ^ 32)) ∧
    (∃ (s : State) (e : Fin 512) (rsrc : Bool) (cnt : BitVec 5) (word : Nat), let g := (s.engine e.val); let u := ((s.reach (s.laneFirst e.val)).laneAdvance e.val 1 (g.pc + 1)); (s.LaneReady e.val 1) ∧ (g.pc + 1 < 4095) ∧ (rsrc = false → cnt = 0) ∧ (g.budget = g.used + 1) ∧ ((u.laneFetch e.val (g.pc + 1)).1 = true ∧ (u.laneFetch e.val (g.pc + 1)).2.1 = word)) :=
  ⟨⟨(let s := lw [(1, 2), (4, 3), (5, 7), (6, 5)] (id) 4093; (s.fill (s.laneAddr 511 16376) (leBytes 4 0x0C042820))), (511), (true), (2), (4), (5), (1), (0x0C042820), (lane_ready (by decide +kernel)), (by decide +kernel)⟩,
   ⟨(let s := lw [(1, 2), (4, 3), (5, 7), (6, 5)] (id) 5; (s.fill (s.laneAddr 511 24) (leBytes 4 0x0C042820))), (511), (false), (1), (lane_ready (by decide +kernel)), (by decide +kernel)⟩,
   ⟨(let s := lw [(1, 2), (4, 3), (5, 7), (6, 5)] (id) 5; (s.fill (s.laneAddr 511 24) (leBytes 4 0x2C645FFA))), (511), (true), (1), (0x2C645FFA), (lane_ready (by decide +kernel)), (by decide +kernel)⟩,
   ⟨(let s := lw [(1, 2), (4, 3), (5, 7), (6, 5)] (id) 5; (s.fill (s.laneAddr 511 24) (leBytes 4 0x68000000))), (511), (true), (1), (0x68000000), (lane_ready (by decide +kernel)), (by decide +kernel)⟩,
   ⟨(let s := lw [(1, 2), (4, 3), (5, 7), (6, 5)] (id) 5; (s.fill (s.laneAddr 511 24) (leBytes 4 0x57FFFFFF))), (511), (true), (1), (0x57FFFFFF), (lane_ready (by decide +kernel)), (by decide +kernel)⟩,
   ⟨(let s := lw [(1, 2), (4, 3), (5, 7), (6, 5)] (fun g => { g with used := 999 }) 5; (s.fill (s.laneAddr 511 24) (leBytes 4 0x0C042820)).setChk (s.laneAddr 511 24) .poison), (511), (true), (1), (0x0C042820), (lane_ready (by decide +kernel)), (by decide +kernel)⟩⟩

theorem witness_SupInteger :
    (∃ (s : State) (k : Fin 10), (s.SupReady k.val)) ∧
    (∃ (s : State) (k : Fin 10) (ra : BitVec 5) (n : Nat), let a := (s.sreg k.val ra); (s.SupReady k.val) ∧ (a = 0 ∧ n = 64 ∨ n < 64 ∧ 2 ^ (63 - n) ≤ a.toNat ∧ a.toNat < 2 ^ (64 - n))) ∧
    (∃ (s : State) (k : Fin 10) (ra : BitVec 5) (n : Nat), let a := (s.sreg k.val ra); (s.SupReady k.val) ∧ (a = 0 ∧ n = 64 ∨ n < 64 ∧ 2 ^ (63 - n) ≤ a.toNat ∧ a.toNat < 2 ^ (64 - n))) ∧
    (∃ (s : State) (k : Fin 10) (ra : BitVec 5) (n : Nat), let a := (s.sreg k.val ra); (s.SupReady k.val) ∧ (a = 0 ∧ n = 64 ∨ n < 64 ∧ 2 ^ (63 - n) ≤ a.toNat ∧ a.toNat < 2 ^ (64 - n))) :=
  ⟨⟨(sup [(1, 0x8000000000000000), (2, 0x7FFFFFFFFFFFFFFF)] (id)), (0), (sup_ready (by decide +kernel))⟩,
   ⟨(sup [(1, 0)] (id)), (0), (1), (64), (sup_ready (by decide +kernel)), (by decide +kernel)⟩,
   ⟨(sup [(1, 0x8000000000000000)] (id)), (0), (1), (0), (sup_ready (by decide +kernel)), (by decide +kernel)⟩,
   ⟨(sup [(1, 1)] (id)), (0), (1), (63), (sup_ready (by decide +kernel)), (by decide +kernel)⟩⟩

theorem witness_SupFlagsAndZero :
    (∃ (c : Sup), (c.pst < 2 ^ 64)) ∧
    (∃ (r : Nat) (q : Nat), (r ≠ 0) ∧ (q ≠ r)) :=
  ⟨⟨({ Sup.init with pst := 2 ^ 64 - 1 }), (by decide +kernel)⟩,
   ⟨(31), (1), (by decide +kernel)⟩⟩

theorem witness_SupFloat :
    (∃ (s : State) (k : Fin 10), (s.SupReady k.val)) :=
  ⟨(sup [(1, 0xFFFFFFFF3F800000), (2, 0x40000000)] (id)), (0), (sup_ready (by decide +kernel))⟩

theorem witness_SupImmediate :
    (∃ (s : State) (k : Fin 10), (s.SupReady k.val)) :=
  ⟨(sup [(1, 1), (3, 0x1111222233334444)] (id)), (0), (sup_ready (by decide +kernel))⟩

theorem witness_SupBranch :
    (∃ (s : State) (k : Fin 10) (ra : BitVec 5) (rb : BitVec 5), let a := (s.sreg k.val ra); let b := (s.sreg k.val rb); (s.SupReady k.val) ∧ (a.toInt < b.toInt)) ∧
    (∃ (s : State) (k : Fin 10) (ra : BitVec 5) (rb : BitVec 5), let a := (s.sreg k.val ra); let b := (s.sreg k.val rb); (s.SupReady k.val) ∧ (¬ (a.toNat < b.toNat))) ∧
    (∃ (s : State) (k : Fin 10) (ra : BitVec 5) (simm : BitVec 5), let a := (s.sreg k.val ra); let i := (simm.signExtend 64); (s.SupReady k.val) ∧ (a = i)) ∧
    (∃ (s : State) (k : Fin 10) (cond : BitVec 4), let c := (s.core k.val); (s.SupReady k.val) ∧ (cond.toNat = 0) ∧ (bit 5 c.pst = true)) ∧
    (∃ (s : State) (k : Fin 10) (cond : BitVec 4), let c := (s.core k.val); (s.SupReady k.val) ∧ (cond.toNat = 0 + 8) ∧ (bit 5 c.pst = true)) ∧
    (∃ (s : State) (k : Fin 10) (cond : BitVec 4), let c := (s.core k.val); (s.SupReady k.val) ∧ (cond.toNat = 1) ∧ (bit 6 c.pst = true)) ∧
    (∃ (s : State) (k : Fin 10) (cond : BitVec 4), let c := (s.core k.val); (s.SupReady k.val) ∧ (cond.toNat = 1 + 8) ∧ (bit 6 c.pst = true)) ∧
    (∃ (s : State) (k : Fin 10) (cond : BitVec 4), let c := (s.core k.val); (s.SupReady k.val) ∧ (cond.toNat = 2) ∧ (bit 4 c.pst = true)) ∧
    (∃ (s : State) (k : Fin 10) (cond : BitVec 4), let c := (s.core k.val); (s.SupReady k.val) ∧ (cond.toNat = 2 + 8) ∧ (bit 4 c.pst = true)) ∧
    (∃ (s : State) (k : Fin 10) (cond : BitVec 4), let c := (s.core k.val); (s.SupReady k.val) ∧ (cond.toNat = 3) ∧ (bit 7 c.pst = true)) ∧
    (∃ (s : State) (k : Fin 10) (cond : BitVec 4), let c := (s.core k.val); (s.SupReady k.val) ∧ (cond.toNat = 3 + 8) ∧ (bit 7 c.pst = true)) ∧
    (∃ (s : State) (k : Fin 10) (cond : BitVec 4), let c := (s.core k.val); (s.SupReady k.val) ∧ (cond.toNat = 4) ∧ (bit 6 c.pst = true ∧ ¬ bit 5 c.pst = true)) ∧
    (∃ (s : State) (k : Fin 10) (cond : BitVec 4), let c := (s.core k.val); (s.SupReady k.val) ∧ (cond.toNat = 4 + 8) ∧ (bit 6 c.pst = true ∧ ¬ bit 5 c.pst = true)) ∧
    (∃ (s : State) (k : Fin 10) (cond : BitVec 4), let c := (s.core k.val); (s.SupReady k.val) ∧ (cond.toNat = 5) ∧ ((bit 4 c.pst = true ↔ bit 7 c.pst = true))) ∧
    (∃ (s : State) (k : Fin 10) (cond : BitVec 4), let c := (s.core k.val); (s.SupReady k.val) ∧ (cond.toNat = 5 + 8) ∧ ((bit 4 c.pst = true ↔ bit 7 c.pst = true))) ∧
    (∃ (s : State) (k : Fin 10) (cond : BitVec 4), let c := (s.core k.val); (s.SupReady k.val) ∧ (cond.toNat = 6) ∧ (¬ bit 5 c.pst = true ∧ (bit 4 c.pst = true ↔ bit 7 c.pst = true))) ∧
    (∃ (s : State) (k : Fin 10) (cond : BitVec 4), let c := (s.core k.val); (s.SupReady k.val) ∧ (cond.toNat = 6 + 8) ∧ (¬ bit 5 c.pst = true ∧ (bit 4 c.pst = true ↔ bit 7 c.pst = true))) ∧
    (∃ (s : State) (k : Fin 10) (cond : BitVec 4), (s.SupReady k.val) ∧ (cond = 7)) ∧
    (∃ (s : State) (k : Fin 10), let c := (s.core k.val); (s.SupReady k.val) ∧ (c.btb.all (fun x => x.1 != c.key || x.2.1 != c.pc) = true)) ∧
    (∃ (s : State) (k : Fin 10) (cond : BitVec 4), (s.SupReady k.val) ∧ (cond = 15)) :=
  ⟨⟨(sup [(1, -16), (2, 5)] (fun c => { c with pst := 0 })), (0), (1), (2), (sup_ready (by decide +kernel)), (by decide +kernel)⟩,
   ⟨(sup [(1, -16), (2, 5)] (fun c => { c with pst := 0 })), (0), (1), (2), (sup_ready (by decide +kernel)), (by decide +kernel)⟩,
   ⟨(sup [(1, -16), (2, 5)] (fun c => { c with pst := 0 })), (0), (1), (16), (sup_ready (by decide +kernel)), (by decide +kernel)⟩,
   ⟨(sup [(1, -16), (2, 5)] (fun c => { c with pst := 32 })), (0), (0), (sup_ready (by decide +kernel)), (by decide +kernel)⟩,
   ⟨(sup [(1, -16), (2, 5)] (fun c => { c with pst := 32 })), (0), (8), (sup_ready (by decide +kernel)), (by decide +kernel)⟩,
   ⟨(sup [(1, -16), (2, 5)] (fun c => { c with pst := 64 })), (0), (1), (sup_ready (by decide +kernel)), (by decide +kernel)⟩,
   ⟨(sup [(1, -16), (2, 5)] (fun c => { c with pst := 64 })), (0), (9), (sup_ready (by decide +kernel)), (by decide +kernel)⟩,
   ⟨(sup [(1, -16), (2, 5)] (fun c => { c with pst := 16 })), (0), (2), (sup_ready (by decide +kernel)), (by decide +kernel)⟩,
   ⟨(sup [(1, -16), (2, 5)] (fun c => { c with pst := 16 })), (0), (10), (sup_ready (by decide +kernel)), (by decide +kernel)⟩,
   ⟨(sup [(1, -16), (2, 5)] (fun c => { c with pst := 128 })), (0), (3), (sup_ready (by decide +kernel)), (by decide +kernel)⟩,
   ⟨(sup [(1, -16), (2, 5)] (fun c => { c with pst := 128 })), (0), (11), (sup_ready (by decide +kernel)), (by decide +kernel)⟩,
   ⟨(sup [(1, -16), (2, 5)] (fun c => { c with pst := 64 })), (0), (4), (sup_ready (by decide +kernel)), (by decide +kernel)⟩,
   ⟨(sup [(1, -16), (2, 5)] (fun c => { c with pst := 64 })), (0), (12), (sup_ready (by decide +kernel)), (by decide +kernel)⟩,
   ⟨(sup [(1, -16), (2, 5)] (fun c => { c with pst := 144 })), (0), (5), (sup_ready (by decide +kernel)), (by decide +kernel)⟩,
   ⟨(sup [(1, -16), (2, 5)] (fun c => { c with pst := 144 })), (0), (13), (sup_ready (by decide +kernel)), (by decide +kernel)⟩,
   ⟨(sup [(1, -16), (2, 5)] (fun c => { c with pst := 0 })), (0), (6), (sup_ready (by decide +kernel)), (by decide +kernel)⟩,
   ⟨(sup [(1, -16), (2, 5)] (fun c => { c with pst := 0 })), (0), (14), (sup_ready (by decide +kernel)), (by decide +kernel)⟩,
   ⟨(sup [(1, -16), (2, 5)] (fun c => { c with pst := 0 })), (0), (7), (sup_ready (by decide +kernel)), (by decide +kernel)⟩,
   ⟨(sup [(1, -16), (2, 5)] (fun c => { c with pst := 0 })), (0), (sup_ready (by decide +kernel)), (by decide +kernel)⟩,
   ⟨(sup [(1, -16), (2, 5)] (fun c => { c with pst := 0 })), (0), (15), (sup_ready (by decide +kernel)), (by decide +kernel)⟩⟩

theorem witness_SupCalls :
    (∃ (s : State) (k : Fin 10) (ra : BitVec 5), let c := (s.core k.val); let a := ((s.sreg k.val ra).toNat); let back := ((s.sreg k.val 31).toNat); (s.SupReady k.val) ∧ (a % 4 = 0) ∧ (back % 4 = 0) ∧ (c.ras.head? = some (back % 2 ^ 40))) ∧
    (∃ (s : State) (k : Fin 10), let c := (s.core k.val); let back := ((s.sreg k.val 31).toNat); (s.SupReady k.val) ∧ (back % 4 = 0) ∧ (c.ras.head? ≠ some (back % 2 ^ 40))) ∧
    (∃ (s : State) (k : Fin 10) (ra : BitVec 5), let a := ((s.sreg k.val ra).toNat); let back := ((s.sreg k.val 31).toNat); (s.SupReady k.val) ∧ (a % 4 ≠ 0) ∧ (back % 4 ≠ 0)) :=
  ⟨⟨(sup [(1, 0x10), (31, 0x10)] (fun c => { c with ras := [16] })), (0), (1), (sup_ready (by decide +kernel)), (by decide +kernel)⟩,
   ⟨(sup [(1, 0x10), (31, 0x20)] (fun c => { c with ras := [16] })), (0), (sup_ready (by decide +kernel)), (by decide +kernel)⟩,
   ⟨(sup [(1, 0x12), (31, 0x11)] (fun c => { c with ras := [16] })), (0), (1), (sup_ready (by decide +kernel)), (by decide +kernel)⟩⟩

theorem witness_SupMemory :
    (∃ (s : State) (k : Fin 10) (ra : BitVec 5) (simm : BitVec 13), let c := (s.core k.val); let a := ((((s.sreg k.val ra).toNat + simm.toInt) % 2 ^ 64).toNat); (s.SupReady k.val) ∧ (2 ^ 40 ≤ a ∨ c.allowed a .read = false)) ∧
    (∃ (s : State) (k : Fin 10) (ra : BitVec 5) (simm : BitVec 13), let c := (s.core k.val); let a := ((((s.sreg k.val ra).toNat + simm.toInt) % 2 ^ 64).toNat); (s.SupReady k.val) ∧ (2 ^ 40 ≤ a ∨ c.allowed a .write = false)) ∧
    (∃ (s : State) (k : Fin 10) (ra : BitVec 5) (simm : BitVec 13), let c := (s.core k.val); let a := ((((s.sreg k.val ra).toNat + simm.toInt) % 2 ^ 64).toNat); (s.SupReady k.val) ∧ (a < 2 ^ 40) ∧ (c.allowed a .read = true) ∧ (a % 4 ≠ 0)) ∧
    (∃ (s : State) (k : Fin 10) (ra : BitVec 5) (simm : BitVec 13), let c := (s.core k.val); let a := ((((s.sreg k.val ra).toNat + simm.toInt) % 2 ^ 64).toNat); (s.SupReady k.val) ∧ (a < 2 ^ 40) ∧ (c.allowed a .write = true) ∧ (a % 8 ≠ 0)) ∧
    (∃ (s : State) (k : Fin 10) (ra : BitVec 5) (simm : BitVec 13), let c := (s.core k.val); let a := ((((s.sreg k.val ra).toNat + simm.toInt) % 2 ^ 64).toNat); let near := (isCoreRam a = true ∧ (c.device a = false ∨ c.sb = [])); (s.SupReady k.val) ∧ (near) ∧ (c.allowed a .read = true) ∧ (a % 4 = 0) ∧ (c.overlaps a 4 = false) ∧ (s.underWipe a = false) ∧ (s.chkAt a = .valid)) ∧
    (∃ (s : State) (k : Fin 10) (ra : BitVec 5) (simm : BitVec 13), let c := (s.core k.val); let a := ((((s.sreg k.val ra).toNat + simm.toInt) % 2 ^ 64).toNat); let near := (isCoreRam a = true ∧ (c.device a = false ∨ c.sb = [])); (s.SupReady k.val) ∧ (near) ∧ (c.allowed a .read = true) ∧ (a % 4 = 0) ∧ (c.overlaps a 4 = false) ∧ (s.underWipe a = false) ∧ (s.chkAt a = .valid)) ∧
    (∃ (s : State) (k : Fin 10) (ra : BitVec 5) (simm : BitVec 13), let c := (s.core k.val); let a := ((((s.sreg k.val ra).toNat + simm.toInt) % 2 ^ 64).toNat); let near := (isCoreRam a = true ∧ (c.device a = false ∨ c.sb = [])); (s.SupReady k.val) ∧ (near) ∧ (c.allowed a .read = true) ∧ (a % 4 = 0) ∧ (c.overlaps a 4 = false) ∧ (s.underWipe a = false) ∧ (s.chkAt a = .valid)) ∧
    (∃ (s : State) (k : Fin 10) (ra : BitVec 5) (simm : BitVec 13), let c := (s.core k.val); let a := ((((s.sreg k.val ra).toNat + simm.toInt) % 2 ^ 64).toNat); let near := (isCoreRam a = true ∧ (c.device a = false ∨ c.sb = [])); (s.SupReady k.val) ∧ (near) ∧ (c.allowed a .read = true) ∧ (a % 4 = 0) ∧ (c.overlaps a 4 = false) ∧ (s.underWipe a = false) ∧ (s.chkAt a = .valid)) ∧
    (∃ (s : State) (k : Fin 10) (ra : BitVec 5) (simm : BitVec 13), let c := (s.core k.val); let a := ((((s.sreg k.val ra).toNat + simm.toInt) % 2 ^ 64).toNat); (s.SupReady k.val) ∧ (a < 2 ^ 40) ∧ (c.allowed a .write = true) ∧ (a % 8 = 0) ∧ (c.sbUsed + 1 ≤ 8)) ∧
    (∃ (s : State) (k : Fin 10) (ra : BitVec 5) (simm : BitVec 13), let c := (s.core k.val); let a := ((((s.sreg k.val ra).toNat + simm.toInt) % 2 ^ 64).toNat); (s.SupReady k.val) ∧ (a < 2 ^ 40) ∧ (c.allowed a .write = true) ∧ (a % 8 = 0) ∧ (c.sbUsed + 1 ≤ 8)) :=
  ⟨⟨(let s := sup [(1, 2 ^ 40), (2, 0x8877665544332211)] (id); s), (0), (1), (0), (sup_ready (by decide +kernel)), (by decide +kernel)⟩,
   ⟨(let s := sup [(1, 0x20000000), (2, 0x8877665544332211)] (fun c => { c with pst := 3, rgnb := [(0, 0xE1 + 0x20000000)], rgnl := [(0, 0x20000FFF)] }); s), (0), (1), (0), (sup_ready (by decide +kernel)), (by decide +kernel)⟩,
   ⟨(let s := sup [(1, 0x20000002), (2, 0x8877665544332211)] (id); s), (0), (1), (0), (sup_ready (by decide +kernel)), (by decide +kernel)⟩,
   ⟨(let s := sup [(1, 0x20000004), (2, 0x8877665544332211)] (id); s), (0), (1), (0), (sup_ready (by decide +kernel)), (by decide +kernel)⟩,
   ⟨(let s := sup [(1, 0x20000004), (2, 0x8877665544332211)] (id); s.fill (0x20000004) [1, 2, 3, 0x84]), (0), (1), (0), (sup_ready (by decide +kernel)), (by decide +kernel)⟩,
   ⟨(let s := sup [(1, 0x20FFFFFC), (2, 0x8877665544332211)] (id); s.fill (0x20FFFFFC) [1, 2, 3, 0x84]), (0), (1), (0), (sup_ready (by decide +kernel)), (by decide +kernel)⟩,
   ⟨(let s := sup [(1, 0x30000000), (2, 0x8877665544332211)] (id); s.fill (0x30000000) [1, 2, 3, 0x84]), (0), (1), (0), (sup_ready (by decide +kernel)), (by decide +kernel)⟩,
   ⟨(let s := sup [(1, 0x3097FFFC), (2, 0x8877665544332211)] (id); s.fill (0x3097FFFC) [1, 2, 3, 0x84]), (0), (1), (0), (sup_ready (by decide +kernel)), (by decide +kernel)⟩,
   ⟨(let s := sup [(1, 0xFFFFFFFFF8), (2, 0x8877665544332211)] (fun c => { c with sb := List.replicate 0 ⟨0, 1, 0, 0, none⟩ }); s), (0), (1), (0), (sup_ready (by decide +kernel)), (by decide +kernel)⟩,
   ⟨(let s := sup [(1, 0xFFFFFFFFF8), (2, 0x8877665544332211)] (fun c => { c with sb := List.replicate 7 ⟨0, 1, 0, 0, none⟩ }); s), (0), (1), (0), (sup_ready (by decide +kernel)), (by decide +kernel)⟩⟩

theorem witness_SupCapability :
    (∃ (s : State) (k : Fin 10) (cs : BitVec 3), let g := (s.core k.val); let c := (g.getC cs.toNat); (s.SupReady k.val) ∧ (c.tag = true)) ∧
    (∃ (s : State) (k : Fin 10) (cs : BitVec 3), let g := (s.core k.val); let c := (g.getC cs.toNat); (s.SupReady k.val) ∧ (c.tag = false)) ∧
    (∃ (s : State) (k : Fin 10) (cs : BitVec 3) (ra : BitVec 5) (rb : BitVec 5), let g := (s.core k.val); let c := (g.getC cs.toNat); let a := ((s.sreg k.val ra).toNat); let b := ((s.sreg k.val rb).toNat); (s.SupReady k.val) ∧ (c.tag = true) ∧ (a + b ≤ c.len)) ∧
    (∃ (s : State) (k : Fin 10) (cs : BitVec 3) (ra : BitVec 5) (rb : BitVec 5), let g := (s.core k.val); let c := (g.getC cs.toNat); let a := ((s.sreg k.val ra).toNat); let b := ((s.sreg k.val rb).toNat); (s.SupReady k.val) ∧ (c.tag = false ∨ c.len < a + b)) ∧
    (∃ (s : State) (k : Fin 10) (ra : BitVec 5), let g := (s.core k.val); let a := ((s.sreg k.val ra).toNat); let near := (isCoreRam a = true ∧ (g.device a = false ∨ g.sb = [])); (s.SupReady k.val) ∧ (near) ∧ (g.allowed a .read = true) ∧ (a % 16 = 0) ∧ (g.overlaps a 16 = false) ∧ (s.underWipe a = false) ∧ (s.chkAt a = .valid) ∧ (s.chkAt (a + 8) = .valid)) ∧
    (∃ (s : State) (k : Fin 10) (ra : BitVec 5), let g := (s.core k.val); let a := ((s.sreg k.val ra).toNat); let near := (isCoreRam a = true ∧ (g.device a = false ∨ g.sb = [])); (s.SupReady k.val) ∧ (near) ∧ (g.allowed a .read = true) ∧ (a % 16 = 0) ∧ (g.overlaps a 16 = false) ∧ (s.underWipe a = false) ∧ (s.chkAt a = .valid) ∧ (s.chkAt (a + 8) = .valid)) ∧
    (∃ (s : State) (k : Fin 10) (cs : BitVec 3) (ra : BitVec 5), let g := (s.core k.val); let c := (g.getC cs.toNat); let a := ((s.sreg k.val ra).toNat); (s.SupReady k.val) ∧ (a < 2 ^ 40) ∧ (g.allowed a .write = true) ∧ (a % 16 = 0) ∧ (c.tag = true) ∧ (g.sbUsed + 2 ≤ 8)) ∧
    (∃ (s : State) (k : Fin 10) (ra : BitVec 5), let g := (s.core k.val); let a := ((s.sreg k.val ra).toNat); (s.SupReady k.val) ∧ (2 ^ 40 ≤ a ∨ g.allowed a .read = false) ∧ (2 ^ 40 ≤ a ∨ g.allowed a .write = false)) ∧
    (∃ (s : State) (k : Fin 10) (ra : BitVec 5) (rb : BitVec 5), let g := (s.core k.val); let a := ((s.sreg k.val ra).toNat); let b := ((s.sreg k.val rb).toNat); let made := (⟨true, BitVec.ofNat 128 (a + b * 2 ^ 64)⟩ : Cap); (s.SupReady k.val) ∧ (g.ring = 0) ∧ (made.reserved = false)) ∧
    (∃ (s : State) (k : Fin 10) (ra : BitVec 5) (rb : BitVec 5), let g := (s.core k.val); let a := ((s.sreg k.val ra).toNat); let b := ((s.sreg k.val rb).toNat); let made := (⟨true, BitVec.ofNat 128 (a + b * 2 ^ 64)⟩ : Cap); (s.SupReady k.val) ∧ (g.ring = 0) ∧ (made.reserved = true)) ∧
    (∃ (s : State) (k : Fin 10), let g := (s.core k.val); (s.SupReady k.val) ∧ (g.ring ≠ 0)) :=
  ⟨⟨(let s := sup [(1, 2), (2, 0)] (fun c => { c with cap := [(6, ⟨true, BitVec.ofNat 128 (0x30000000 + 16 * 2 ^ 40 + 3 * 2 ^ 80 + 2 ^ 88)⟩)] }); s), (0), (6), (sup_ready (by decide +kernel)), (by decide +kernel)⟩,
   ⟨(let s := sup [(1, 2), (2, 0)] (fun c => { c with cap := [(6, ⟨false, BitVec.ofNat 128 (0x30000000 + 16 * 2 ^ 40 + 3 * 2 ^ 80 + 2 ^ 88)⟩)] }); s), (0), (6), (sup_ready (by decide +kernel)), (by decide +kernel)⟩,
   ⟨(let s := sup [(1, 0), (2, 16)] (fun c => { c with cap := [(6, ⟨true, BitVec.ofNat 128 (0x30000000 + 16 * 2 ^ 40 + 3 * 2 ^ 80 + 2 ^ 88)⟩)] }); s), (0), (6), (1), (2), (sup_ready (by decide +kernel)), (by decide +kernel)⟩,
   ⟨(let s := sup [(1, 1), (2, 16)] (fun c => { c with cap := [(6, ⟨true, BitVec.ofNat 128 (0x30000000 + 16 * 2 ^ 40 + 3 * 2 ^ 80 + 2 ^ 88)⟩)] }); s), (0), (6), (1), (2), (sup_ready (by decide +kernel)), (by decide +kernel)⟩,
   ⟨(let s := sup [(1, 0x20FFFFF0), (2, 0)] (fun c => { c with cap := [(6, ⟨true, BitVec.ofNat 128 (0x30000000 + 16 * 2 ^ 40 + 3 * 2 ^ 80 + 2 ^ 88)⟩)] }); (s.setChk (0x20FFFFF0) .valid).setChk (0x20FFFFF0 + 8) .valid), (0), (1), (sup_ready (by decide +kernel)), (by decide +kernel)⟩,
   ⟨(let s := sup [(1, 0x30000000), (2, 0)] (fun c => { c with cap := [(6, ⟨true, BitVec.ofNat 128 (0x30000000 + 16 * 2 ^ 40 + 3 * 2 ^ 80 + 2 ^ 88)⟩)] }); (s.setChk (0x30000000) .valid).setChk (0x30000000 + 8) .valid), (0), (1), (sup_ready (by decide +kernel)), (by decide +kernel)⟩,
   ⟨(let s := sup [(1, 0x20000000), (2, 0)] (fun c => { c with cap := [(6, ⟨true, BitVec.ofNat 128 (0x30000000 + 16 * 2 ^ 40 + 3 * 2 ^ 80 + 2 ^ 88)⟩)] }); s), (0), (6), (1), (sup_ready (by decide +kernel)), (by decide +kernel)⟩,
   ⟨(let s := sup [(1, 2 ^ 40), (2, 0)] (fun c => { c with cap := [(6, ⟨true, BitVec.ofNat 128 (0x30000000 + 16 * 2 ^ 40 + 3 * 2 ^ 80 + 2 ^ 88)⟩)] }); s), (0), (1), (sup_ready (by decide +kernel)), (by decide +kernel)⟩,
   ⟨(let s := sup [(1, 5), (2, 2 ^ 16 * 3 + 2 ^ 24)] (fun c => { c with cap := [(6, ⟨true, BitVec.ofNat 128 (0x30000000 + 16 * 2 ^ 40 + 3 * 2 ^ 80 + 2 ^ 88)⟩)] }); s), (0), (1), (2), (sup_ready (by decide +kernel)), (by decide +kernel)⟩,
   ⟨(let s := sup [(1, 5), (2, 2 ^ 63)] (fun c => { c with cap := [(6, ⟨true, BitVec.ofNat 128 (0x30000000 + 16 * 2 ^ 40 + 3 * 2 ^ 80 + 2 ^ 88)⟩)] }); s), (0), (1), (2), (sup_ready (by decide +kernel)), (by decide +kernel)⟩,
   ⟨(let s := sup [(1, 5), (2, 0)] (fun c => { c with cap := [(6, ⟨true, BitVec.ofNat 128 (0x30000000 + 16 * 2 ^ 40 + 3 * 2 ^ 80 + 2 ^ 88)⟩)], pst := 1, rgnb := [(0, 0xFF + 0x20000000)], rgnl := [(0, 0x20000FFF)] }); s), (0), (sup_ready (by decide +kernel)), (by decide +kernel)⟩⟩

theorem witness_SupSystem :
    (∃ (s : State) (k : Fin 10) (sr : BitVec 10), let c := (s.core k.val); (s.SupReady k.val) ∧ (sr.toNat = 4) ∧ (c.ring ≤ 1)) ∧
    (∃ (s : State) (k : Fin 10) (sr : BitVec 10), let c := (s.core k.val); (s.SupReady k.val) ∧ (sr.toNat = 0) ∧ (1 < c.ring)) ∧
    (∃ (s : State) (k : Fin 10) (sr : BitVec 10), let c := (s.core k.val); (s.SupReady k.val) ∧ (sr.toNat = 32 + 15) ∧ (c.ring ≤ 1)) ∧
    (∃ (s : State) (k : Fin 10) (sr : BitVec 10), let c := (s.core k.val); (s.SupReady k.val) ∧ (sr.toNat = 5) ∧ (c.ring ≤ 1) ∧ (c.xring = [])) ∧
    (∃ (s : State) (k : Fin 10) (sr : BitVec 10) (top : Nat) (rest : List Nat), let c := (s.core k.val); (s.SupReady k.val) ∧ (sr.toNat = 5) ∧ (c.ring ≤ 1) ∧ (c.xring = top :: rest)) ∧
    (∃ (s : State) (k : Fin 10) (sr : BitVec 10) (lg : Nat), let c := (s.core k.val); (s.SupReady k.val) ∧ (sr.toNat = 6) ∧ (c.ring ≤ 1) ∧ (s.logicalCore k.val = some lg)) ∧
    (∃ (s : State) (k : Fin 10) (sr : BitVec 10), let c := (s.core k.val); (s.SupReady k.val) ∧ (sr.toNat = 1) ∧ (c.ring = 0)) ∧
    (∃ (s : State) (k : Fin 10) (sr : BitVec 10), let c := (s.core k.val); (s.SupReady k.val) ∧ (sr.toNat = 16 + 15) ∧ (c.ring = 0)) ∧
    (∃ (s : State) (k : Fin 10) (sr : BitVec 10), let c := (s.core k.val); (s.SupReady k.val) ∧ (sr.toNat = 4) ∧ (c.ring ≠ 0)) ∧
    (∃ (s : State) (k : Fin 10) (sr : BitVec 10), (s.SupReady k.val) ∧ (5 ≤ sr.toNat ∧ sr.toNat ≤ 15 ∨ 48 ≤ sr.toNat)) ∧
    (∃ (s : State) (k : Fin 10) (sr : BitVec 10), (s.SupReady k.val) ∧ (5 ≤ sr.toNat ∧ sr.toNat ≤ 15 ∨ 48 ≤ sr.toNat)) ∧
    (∃ (s : State) (k : Fin 10) (sr : BitVec 10), (s.SupReady k.val) ∧ (5 ≤ sr.toNat ∧ sr.toNat ≤ 15 ∨ 48 ≤ sr.toNat)) ∧
    (∃ (s : State) (k : Fin 10) (sr : BitVec 10), (s.SupReady k.val) ∧ (5 ≤ sr.toNat ∧ sr.toNat ≤ 15 ∨ 48 ≤ sr.toNat)) ∧
    (∃ (s : State) (k : Fin 10) (sr : BitVec 10), (s.SupReady k.val) ∧ (8 ≤ sr.toNat ∧ sr.toNat ≤ 15 ∨ 48 ≤ sr.toNat)) ∧
    (∃ (s : State) (k : Fin 10) (sr : BitVec 10), (s.SupReady k.val) ∧ (8 ≤ sr.toNat ∧ sr.toNat ≤ 15 ∨ 48 ≤ sr.toNat)) ∧
    (∃ (s : State) (k : Fin 10) (sr : BitVec 10), (s.SupReady k.val) ∧ (8 ≤ sr.toNat ∧ sr.toNat ≤ 15 ∨ 48 ≤ sr.toNat)) ∧
    (∃ (s : State) (k : Fin 10) (sr : BitVec 10), (s.SupReady k.val) ∧ (8 ≤ sr.toNat ∧ sr.toNat ≤ 15 ∨ 48 ≤ sr.toNat)) ∧
    (∃ (s : State) (k : Fin 10), let c := (s.core k.val); (s.SupReady k.val) ∧ (c.ring ≤ 1) ∧ (c.sb = [])) ∧
    (∃ (s : State) (k : Fin 10), let c := (s.core k.val); (s.SupReady k.val) ∧ (1 < c.ring)) :=
  ⟨⟨(sup [(1, 0xFFFFFFFFFFFFFFFF)] (fun c => { c with pst := 1, rgnb := [(0, 0xFF + 0x20000000)], rgnl := [(0, 0x20000FFF)], vtbr := 0x20000100 })), (0), (4), (sup_ready (by decide +kernel)), (by decide +kernel)⟩,
   ⟨(sup [(1, 0xFFFFFFFFFFFFFFFF)] (fun c => { c with pst := 2, rgnb := [(0, 0xFF + 0x20000000)], rgnl := [(0, 0x20000FFF)], vtbr := 0x20000100 })), (0), (0), (sup_ready (by decide +kernel)), (by decide +kernel)⟩,
   ⟨(sup [(1, 0xFFFFFFFFFFFFFFFF)] (id)), (0), (47), (sup_ready (by decide +kernel)), (by decide +kernel)⟩,
   ⟨(sup [(1, 0xFFFFFFFFFFFFFFFF)] (id)), (0), (5), (sup_ready (by decide +kernel)), (by decide +kernel)⟩,
   ⟨(sup [(1, 0xFFFFFFFFFFFFFFFF)] (fun c => { c with xring := [2, 3] })), (0), (5), (2), ([3]), (sup_ready (by decide +kernel)), (by decide +kernel)⟩,
   ⟨(sup [(1, 0xFFFFFFFFFFFFFFFF)] (id)), (0), (6), (0), (sup_ready (by decide +kernel)), (by decide +kernel)⟩,
   ⟨(sup [(1, 0xFFFFFFFFFFFFFFFF)] (id)), (0), (1), (sup_ready (by decide +kernel)), (by decide +kernel)⟩,
   ⟨(sup [(1, 0xFFFFFFFFFFFFFFFF)] (id)), (0), (31), (sup_ready (by decide +kernel)), (by decide +kernel)⟩,
   ⟨(sup [(1, 0xFFFFFFFFFFFFFFFF)] (fun c => { c with pst := 1, rgnb := [(0, 0xFF + 0x20000000)], rgnl := [(0, 0x20000FFF)], vtbr := 0x20000100 })), (0), (4), (sup_ready (by decide +kernel)), (by decide +kernel)⟩,
   ⟨(sup [(1, 0xFFFFFFFFFFFFFFFF)] (id)), (0), (5), (sup_ready (by decide +kernel)), (by decide +kernel)⟩,
   ⟨(sup [(1, 0xFFFFFFFFFFFFFFFF)] (id)), (0), (15), (sup_ready (by decide +kernel)), (by decide +kernel)⟩,
   ⟨(sup [(1, 0xFFFFFFFFFFFFFFFF)] (id)), (0), (48), (sup_ready (by decide +kernel)), (by decide +kernel)⟩,
   ⟨(sup [(1, 0xFFFFFFFFFFFFFFFF)] (id)), (0), (1023), (sup_ready (by decide +kernel)), (by decide +kernel)⟩,
   ⟨(sup [(1, 0xFFFFFFFFFFFFFFFF)] (id)), (0), (8), (sup_ready (by decide +kernel)), (by decide +kernel)⟩,
   ⟨(sup [(1, 0xFFFFFFFFFFFFFFFF)] (id)), (0), (15), (sup_ready (by decide +kernel)), (by decide +kernel)⟩,
   ⟨(sup [(1, 0xFFFFFFFFFFFFFFFF)] (id)), (0), (48), (sup_ready (by decide +kernel)), (by decide +kernel)⟩,
   ⟨(sup [(1, 0xFFFFFFFFFFFFFFFF)] (id)), (0), (1023), (sup_ready (by decide +kernel)), (by decide +kernel)⟩,
   ⟨(sup [(1, 0xFFFFFFFFFFFFFFFF)] (fun c => { c with pst := 1, rgnb := [(0, 0xFF + 0x20000000)], rgnl := [(0, 0x20000FFF)], vtbr := 0x20000100 })), (0), (sup_ready (by decide +kernel)), (by decide +kernel)⟩,
   ⟨(sup [(1, 0xFFFFFFFFFFFFFFFF)] (fun c => { c with pst := 2, rgnb := [(0, 0xFF + 0x20000000)], rgnl := [(0, 0x20000FFF)], vtbr := 0x20000100 })), (0), (sup_ready (by decide +kernel)), (by decide +kernel)⟩⟩

theorem witness_SupIllegal :
    (∃ (s : State) (k : Fin 10) (i : Instr), (s.SupReady k.val) ∧ (i.core = some (.sup k)) ∧ (i ∈ [Instr.endTask (.sup k), .ifence (.sup k)])) ∧
    (∃ (s : State) (k : Fin 10) (rd : BitVec 5) (ra : BitVec 5) (rb : BitVec 5), (s.SupReady k.val) ∧ (blockLegal rd ra rb = false)) ∧
    (∃ (s : State) (k : Fin 10) (rd : BitVec 5) (ra : BitVec 5) (rb : BitVec 5), (s.SupReady k.val) ∧ (blockLegal rd ra rb = false)) ∧
    (∃ (s : State) (k : Fin 10) (rd : BitVec 5) (ra : BitVec 5) (rb : BitVec 5), (s.SupReady k.val) ∧ (blockLegal rd ra rb = false)) :=
  ⟨⟨(sup [] (id)), (0), (.endTask (.sup 0)), (sup_ready (by decide +kernel)), (by decide +kernel)⟩,
   ⟨(sup [] (id)), (0), (1), (1), (2), (sup_ready (by decide +kernel)), (by decide +kernel)⟩,
   ⟨(sup [] (id)), (0), (0), (1), (2), (sup_ready (by decide +kernel)), (by decide +kernel)⟩,
   ⟨(sup [] (id)), (0), (1), (2), (0), (sup_ready (by decide +kernel)), (by decide +kernel)⟩⟩

theorem witness_SupBlock :
    (∃ (s : State) (k : Fin 10) (rd : BitVec 5) (ra : BitVec 5) (rb : BitVec 5), let n := ((s.sreg k.val rb).toNat); (s.SupReady k.val) ∧ (blockLegal rd ra rb = true) ∧ (n = 0)) ∧
    (∃ (s : State) (k : Fin 10) (rd : BitVec 5) (ra : BitVec 5) (rb : BitVec 5) (upTo : Nat), let c := (s.core k.val); let a := ((s.sreg k.val ra).toNat); let n := ((s.sreg k.val rb).toNat); (s.SupReady k.val) ∧ (blockLegal rd ra rb = true) ∧ (n ≠ 0) ∧ (n ≤ upTo) ∧ (∀ i < n, isCoreRam (a + i) = true ∧ (c.device (a + i) = false ∨ c.sb = []) ∧ c.allowed (a + i) .read = true ∧ c.overlaps (a + i) 1 = false ∧ s.underWipe (a + i) = false ∧ s.chkAt (a + i) = .valid)) ∧
    (∃ (s : State) (k : Fin 10) (rd : BitVec 5) (ra : BitVec 5) (rb : BitVec 5) (upTo : Nat), let c := (s.core k.val); let d := ((s.sreg k.val rd).toNat); let a := ((s.sreg k.val ra).toNat); let n := ((s.sreg k.val rb).toNat); (s.SupReady k.val) ∧ (blockLegal rd ra rb = true) ∧ (n = 8) ∧ (1 ≤ upTo) ∧ (d % 8 = 0) ∧ (isCoreRam d = true) ∧ (c.allowed d .write = true) ∧ (c.sb = []) ∧ (s.underWipe d = false) ∧ (s.flag F.MEM_INJ_ARM 0 = false) ∧ (a % 8 = 0) ∧ (isCoreRam a = true ∧ (c.device a = false ∨ c.sb = []) ∧ c.allowed a .read = true ∧ c.overlaps a 8 = false ∧ s.underWipe a = false ∧ s.chkAt a = .valid)) ∧
    (∃ (s : State) (k : Fin 10) (rd : BitVec 5) (ra : BitVec 5) (rb : BitVec 5) (upTo : Nat), let c := (s.core k.val); let d := ((s.sreg k.val rd).toNat); let a := ((s.sreg k.val ra).toNat); let n := ((s.sreg k.val rb).toNat); (s.SupReady k.val) ∧ (blockLegal rd ra rb = true) ∧ (n = 8) ∧ (1 ≤ upTo) ∧ (d % 8 = 0) ∧ (isCoreRam d = true) ∧ (c.allowed d .write = true) ∧ (c.sb = []) ∧ (s.underWipe d = false) ∧ (s.flag F.MEM_INJ_ARM 0 = false) ∧ (a % 8 = 0) ∧ (isCoreRam a = true ∧ (c.device a = false ∨ c.sb = []) ∧ c.allowed a .read = true ∧ c.overlaps a 8 = false ∧ s.underWipe a = false ∧ s.chkAt a = .valid)) ∧
    (∃ (s : State) (k : Fin 10) (rd : BitVec 5) (ra : BitVec 5) (rb : BitVec 5) (upTo : Nat), let c := (s.core k.val); let d := ((s.sreg k.val rd).toNat); let n := ((s.sreg k.val rb).toNat); (s.SupReady k.val) ∧ (blockLegal rd ra rb = true) ∧ (n ≠ 0) ∧ (1 ≤ upTo) ∧ (2 ^ 40 ≤ d ∨ c.allowed d .write = false)) ∧
    (∃ (s : State) (k : Fin 10) (rd : BitVec 5) (ra : BitVec 5), let c := (s.core k.val); let d := ((s.sreg k.val rd).toNat); let a := ((s.sreg k.val ra).toNat); (s.SupReady k.val) ∧ (0x20000000 ≤ a) ∧ (a < 0x21000000) ∧ (c.allowed a .read = true) ∧ (c.allowed a .write = true) ∧ (a % 8 = 0) ∧ (c.sb = []) ∧ (s.underWipe a = false) ∧ (s.chkAt a = .valid) ∧ (s.peek a 8 ≠ d)) ∧
    (∃ (s : State) (k : Fin 10) (rd : BitVec 5) (ra : BitVec 5), let c := (s.core k.val); let d := ((s.sreg k.val rd).toNat); let a := ((s.sreg k.val ra).toNat); (s.SupReady k.val) ∧ (0x20000000 ≤ a) ∧ (a < 0x21000000) ∧ (c.allowed a .read = true) ∧ (c.allowed a .write = true) ∧ (a % 8 = 0) ∧ (c.sb = []) ∧ (s.underWipe a = false) ∧ (s.chkAt a = .valid) ∧ (s.peek a 8 = d) ∧ (s.flag F.MEM_INJ_ARM 0 = false)) ∧
    (∃ (s : State) (k : Fin 10) (ra : BitVec 5), let a := ((s.sreg k.val ra).toNat); (s.SupReady k.val) ∧ (a < 0x20000000 ∨ 0x21000000 ≤ a)) ∧
    (∃ (s : State) (k : Fin 10) (ra : BitVec 5), let a := ((s.sreg k.val ra).toNat); (s.SupReady k.val) ∧ (a < 0x20000000 ∨ 0x21000000 ≤ a)) :=
  ⟨⟨(let s := sup [(1, 0), (2, 0), (3, 0)] (id); s), (0), (1), (2), (3), (sup_ready (by decide +kernel)), (by decide +kernel)⟩,
   ⟨(let s := sup [(1, 0), (2, 0x20FFFFFE), (3, 2)] (id); s.fill 0x20FFFFFE [1, 2]), (0), (1), (2), (3), (2), (sup_ready (by decide +kernel)), (by decide +kernel)⟩,
   ⟨(let s := sup [(1, 0x20FFFFF8), (2, 0x30000000), (3, 8)] (id); s.fill 0x30000000 [1, 2]), (0), (1), (2), (3), (1), (sup_ready (by decide +kernel)), (by decide +kernel)⟩,
   ⟨(let s := sup [(1, 0x3097FFF8), (2, 0x30000000), (3, 8)] (id); s.fill 0x30000000 [1, 2]), (0), (1), (2), (3), (1), (sup_ready (by decide +kernel)), (by decide +kernel)⟩,
   ⟨(let s := sup [(1, 2 ^ 40), (2, 0x30000000), (3, 8)] (id); s.fill 0x30000000 [1, 2]), (0), (1), (2), (3), (1), (sup_ready (by decide +kernel)), (by decide +kernel)⟩,
   ⟨(let s := sup [(1, 7), (2, 0x20FFFFF8), (3, 9)] (id); s.fill 0x20FFFFF8 [8]), (0), (1), (2), (sup_ready (by decide +kernel)), (by decide +kernel)⟩,
   ⟨(let s := sup [(1, 8), (2, 0x20FFFFF8), (3, 9)] (id); s.fill 0x20FFFFF8 [8]), (0), (1), (2), (sup_ready (by decide +kernel)), (by decide +kernel)⟩,
   ⟨(let s := sup [(1, 8), (2, 0x1FFFFFF8), (3, 9)] (id); s), (0), (2), (sup_ready (by decide +kernel)), (by decide +kernel)⟩,
   ⟨(let s := sup [(1, 8), (2, 0x21000000), (3, 9)] (id); s), (0), (2), (sup_ready (by decide +kernel)), (by decide +kernel)⟩⟩

theorem witness_SupRepeat :
    (∃ (s : State) (k : Fin 10) (rd : BitVec 5) (cnt : BitVec 5) (imm : BitVec 16) (upTo : Nat) (word : Nat), let c := (s.core k.val); let body := ((c.pc + 4) % 2 ^ 40); let u := (s.setCore k.val c); let n := ((s.sreg k.val cnt).toNat); (s.SupReady k.val) ∧ (c.rep = 0) ∧ (c.sb = []) ∧ ((u.supFetch k.val body).2 = u) ∧ ((u.supFetch k.val body).1 = .ok (word, false)) ∧ (BitVec.ofNat 32 word = 5#6 ++ rd ++ rd ++ imm) ∧ (word < 2 ^ 32) ∧ (rd ≠ 0) ∧ (cnt ≠ rd) ∧ (cnt ≠ 0) ∧ (n ≤ upTo)) ∧
    (∃ (s : State) (k : Fin 10) (word : Nat), let c := (s.core k.val); let body := ((c.pc + 4) % 2 ^ 40); let u := (s.setCore k.val c); (s.SupReady k.val) ∧ (c.rep = 0) ∧ (c.sb = []) ∧ ((u.supFetch k.val body).2 = u) ∧ ((u.supFetch k.val body).1 = .ok (word, false)) ∧ (word / 2 ^ 26 ∈ [0x0B, 0x0C, 0x0D, 0x0E, 0x15, 0x1A, 0x1B, 0x20, 0x21, 0x22, 0x23]) ∧ (word < 2 ^ 32)) ∧
    (∃ (s : State) (k : Fin 10) (word : Nat), let c := (s.core k.val); let body := ((c.pc + 4) % 2 ^ 40); let u := (s.setCore k.val c); (s.SupReady k.val) ∧ (c.rep = 0) ∧ (c.sb = []) ∧ ((u.supFetch k.val body).2 = u) ∧ ((u.supFetch k.val body).1 = .ok (word, false)) ∧ (word / 2 ^ 26 ∈ [0x0B, 0x0C, 0x0D, 0x0E, 0x15, 0x1A, 0x1B, 0x20, 0x21, 0x22, 0x23]) ∧ (word < 2 ^ 32)) :=
  ⟨⟨(let s := sup [(1, 100), (2, 2)] (id); s.fill 0x20000004 (leBytes 4 ((5#6 ++ 1#5 ++ 1#5 ++ 0xFFFF#16).toNat))), (0), (1), (2), (0xFFFF), (2), ((5#6 ++ 1#5 ++ 1#5 ++ 0xFFFF#16).toNat), (sup_ready (by decide +kernel)), (by decide +kernel)⟩,
   ⟨(let s := sup [(1, 100), (2, 2)] (id); s.fill 0x20000004 (leBytes 4 (0x2C645FFA))), (0), (0x2C645FFA), (sup_ready (by decide +kernel)), (by decide +kernel)⟩,
   ⟨(let s := sup [(1, 100), (2, 2)] (id); s.fill 0x20000004 (leBytes 4 (0x8C000000))), (0), (0x8C000000), (sup_ready (by decide +kernel)), (by decide +kernel)⟩⟩

theorem witness_SupEntry :
    (∃ (s : State) (k : Fin 10), let c := (s.core k.val); let entry := (c.vtbr + 16 * 0x0C); let near := fun (a : Nat) => isCoreRam a = true ∧ s.underWipe a = false ∧ s.chkAt a = .valid; (s.SupReady k.val) ∧ (entry % 8 = 0) ∧ (near entry) ∧ (near (entry + 8))) ∧
    (∃ (s : State) (k : Fin 10) (w0 : Nat) (w1 : Nat), let c := (s.core k.val); let done := (s.retires k.val); let entry := (c.vtbr + 16 * 0x0C); let handler := (w1 / 512 % 2 ^ 31 * 512); let ring := (min (w0 / 2 ^ 40 % 4) c.ring); let held := fun (a : Nat) => a % 512 = 0 ∧ isCoreRam a = true ∧ c.mayAt ring a .write = true ∧ s.underWipe a = false; let sound := (c.xring.length < 8 ∧ held c.tsbr ∧ held handler); (s.SupReady k.val) ∧ (done.entryWords k.val entry = (some (w0, w1), done)) ∧ (sound)) ∧
    (∃ (s : State) (k : Fin 10) (w0 : Nat) (w1 : Nat), let c := (s.core k.val); let done := (s.retires k.val); let entry := (c.vtbr + 16 * 0x0C); let handler := (w1 / 512 % 2 ^ 31 * 512); let ring := (min (w0 / 2 ^ 40 % 4) c.ring); let held := fun (a : Nat) => a % 512 = 0 ∧ isCoreRam a = true ∧ c.mayAt ring a .write = true ∧ s.underWipe a = false; let sound := (c.xring.length < 8 ∧ held c.tsbr ∧ held handler); (s.SupReady k.val) ∧ (done.entryWords k.val entry = (some (w0, w1), done)) ∧ (sound)) ∧
    (∃ (s : State) (k : Fin 10) (w0 : Nat) (w1 : Nat), let c := (s.core k.val); let done := (s.retires k.val); let entry := (c.vtbr + 16 * 0x0C); let handler := (w1 / 512 % 2 ^ 31 * 512); let ring := (min (w0 / 2 ^ 40 % 4) c.ring); let held := fun (a : Nat) => a % 512 = 0 ∧ isCoreRam a = true ∧ c.mayAt ring a .write = true ∧ s.underWipe a = false; let sound := (c.xring.length < 8 ∧ held c.tsbr ∧ held handler); (s.SupReady k.val) ∧ (done.entryWords k.val entry = (some (w0, w1), done)) ∧ (¬ sound)) ∧
    (∃ (s : State) (k : Fin 10) (w0 : Nat) (w1 : Nat), let c := (s.core k.val); let done := (s.retires k.val); let entry := (c.vtbr + 16 * 0x0C); let handler := (w1 / 512 % 2 ^ 31 * 512); let ring := (min (w0 / 2 ^ 40 % 4) c.ring); let held := fun (a : Nat) => a % 512 = 0 ∧ isCoreRam a = true ∧ c.mayAt ring a .write = true ∧ s.underWipe a = false; let sound := (c.xring.length < 8 ∧ held c.tsbr ∧ held handler); (s.SupReady k.val) ∧ (done.entryWords k.val entry = (some (w0, w1), done)) ∧ (¬ sound)) ∧
    (∃ (s : State) (k : Fin 10) (w0 : Nat) (w1 : Nat), let c := (s.core k.val); let done := (s.retires k.val); let entry := (c.vtbr + 16 * 0x0C); let handler := (w1 / 512 % 2 ^ 31 * 512); let ring := (min (w0 / 2 ^ 40 % 4) c.ring); let held := fun (a : Nat) => a % 512 = 0 ∧ isCoreRam a = true ∧ c.mayAt ring a .write = true ∧ s.underWipe a = false; let sound := (c.xring.length < 8 ∧ held c.tsbr ∧ held handler); (s.SupReady k.val) ∧ (done.entryWords k.val entry = (some (w0, w1), done)) ∧ (¬ sound)) ∧
    (∃ (s : State) (k : Fin 10), let c := (s.core k.val); let done := (s.retires k.val); let entry := (c.vtbr + 16 * 0x0C); (s.SupReady k.val) ∧ ((done.entryWords k.val entry).1 = none)) :=
  ⟨⟨(let s := sup [(31, 7)] (fun c => { c with vtbr := 0x20001000, tsbr := 0x20000400, xring := [] }); ((s.put8 0x200010C0 0x20000800).put8 0x200010C8 (0x30000400))), (0), (sup_ready (by decide +kernel)), (by decide +kernel)⟩,
   ⟨(let s := sup [(31, 7)] (fun c => { c with vtbr := 0x20001000, tsbr := 0x20000400, xring := [] }); ((s.put8 0x200010C0 0x20000800).put8 0x200010C8 (0x30000400))), (0), (0x20000800), (0x30000400), (sup_ready (by decide +kernel)), (by decide +kernel)⟩,
   ⟨(let s := sup [(31, 7)] (fun c => { c with vtbr := 0x20001000, tsbr := 0x20FFFE00, xring := List.replicate 7 0 }); ((s.put8 0x200010C0 0x20000800).put8 0x200010C8 (0x3097FE00))), (0), (0x20000800), (0x3097FE00), (sup_ready (by decide +kernel)), (by decide +kernel)⟩,
   ⟨(let s := sup [(31, 7)] (fun c => { c with vtbr := 0x20001000, tsbr := 0x20000400, xring := List.replicate 8 0 }); ((s.put8 0x200010C0 0x20000800).put8 0x200010C8 (0x30000400))), (0), (0x20000800), (0x30000400), (sup_ready (by decide +kernel)), (by decide +kernel)⟩,
   ⟨(let s := sup [(31, 7)] (fun c => { c with vtbr := 0x20001000, tsbr := 0x20000400, xring := [] }); ((s.put8 0x200010C0 0x20000800).put8 0x200010C8 (0x30980000))), (0), (0x20000800), (0x30980000), (sup_ready (by decide +kernel)), (by decide +kernel)⟩,
   ⟨(let s := sup [(31, 7)] (fun c => { c with vtbr := 0x20001000, tsbr := 0x21000000, xring := [] }); ((s.put8 0x200010C0 0x20000800).put8 0x200010C8 (0x30000400))), (0), (0x20000800), (0x30000400), (sup_ready (by decide +kernel)), (by decide +kernel)⟩,
   ⟨(sup [] (fun c => { c with vtbr := 0x40000000, tsbr := 0x20000400 })), (0), (sup_ready (by decide +kernel)), (by decide +kernel)⟩⟩

theorem witness_SupGateReturn :
    (∃ (s : State) (k : Fin 10) (n : BitVec 15), let c := (s.core k.val); (s.SupReady k.val) ∧ (c.gtlim ≤ n.toNat)) ∧
    (∃ (s : State) (k : Fin 10) (n : BitVec 15) (w0 : Nat) (w1 : Nat), let c := (s.core k.val); let g := (c.gtbr + 16 * n.toNat); let refused := (bit 44 w0 = false ∨ w0 / 2 ^ 42 % 4 < c.ring ∨ c.ring < w0 / 2 ^ 40 % 4); (s.SupReady k.val) ∧ (n.toNat < c.gtlim) ∧ (s.entryWords k.val g = (some (w0, w1), s)) ∧ (refused)) ∧
    (∃ (s : State) (k : Fin 10) (n : BitVec 15) (w0 : Nat) (w1 : Nat), let c := (s.core k.val); let g := (c.gtbr + 16 * n.toNat); let refused := (bit 44 w0 = false ∨ w0 / 2 ^ 42 % 4 < c.ring ∨ c.ring < w0 / 2 ^ 40 % 4); (s.SupReady k.val) ∧ (n.toNat < c.gtlim) ∧ (s.entryWords k.val g = (some (w0, w1), s)) ∧ (refused)) ∧
    (∃ (s : State) (k : Fin 10) (n : BitVec 15) (w0 : Nat) (w1 : Nat), let c := (s.core k.val); let g := (c.gtbr + 16 * n.toNat); let handler := (w1 / 512 % 2 ^ 31 * 512); let refused := (bit 44 w0 = false ∨ w0 / 2 ^ 42 % 4 < c.ring ∨ c.ring < w0 / 2 ^ 40 % 4); (s.SupReady k.val) ∧ (n.toNat < c.gtlim) ∧ (s.entryWords k.val g = (some (w0, w1), s)) ∧ (¬ refused) ∧ (c.xring.length < 8) ∧ (s.tsbFails k.val (w0 / 2 ^ 40 % 4) c.tsbr = false) ∧ (s.tsbFails k.val (w0 / 2 ^ 40 % 4) handler = false)) ∧
    (∃ (s : State) (k : Fin 10), let c := (s.core k.val); (s.SupReady k.val) ∧ (1 < c.ring)) ∧
    (∃ (s : State) (k : Fin 10), let c := (s.core k.val); (s.SupReady k.val) ∧ (c.ring ≤ 1) ∧ (c.sb = []) ∧ (tsbOk c.tsbr = false)) ∧
    (∃ (s : State) (k : Fin 10), let c := (s.core k.val); (s.SupReady k.val) ∧ (c.ring ≤ 1) ∧ (c.sb = []) ∧ (tsbOk c.tsbr = true) ∧ (c.allowed (c.tsbr + 0x120) .read = false)) ∧
    (∃ (s : State) (k : Fin 10), let c := (s.core k.val); let back := (s.peek (c.tsbr + 0x120) 8 % 2 ^ 40); let readable := fun (a : Nat) => c.allowed a .read = true ∧ s.underWipe a = false ∧ s.chkAt a = .valid; (s.SupReady k.val) ∧ (c.ring ≤ 1) ∧ (c.sb = []) ∧ (tsbOk c.tsbr = true) ∧ (readable (c.tsbr + 0x120)) ∧ (tsbOk back = false)) ∧
    (∃ (s : State) (k : Fin 10), let c := (s.core k.val); let back := (s.peek (c.tsbr + 0x120) 8 % 2 ^ 40); let readable := fun (a : Nat) => c.allowed a .read = true ∧ s.underWipe a = false ∧ s.chkAt a = .valid; (s.SupReady k.val) ∧ (c.ring ≤ 1) ∧ (c.sb = []) ∧ (tsbOk c.tsbr = true) ∧ (readable (c.tsbr + 0x120)) ∧ (tsbOk back = true) ∧ (c.allowed (back + 8) .read = false)) ∧
    (∃ (s : State) (k : Fin 10), let c := (s.core k.val); let back := (s.peek (c.tsbr + 0x120) 8 % 2 ^ 40); let readable := fun (a : Nat) => c.allowed a .read = true ∧ s.underWipe a = false ∧ s.chkAt a = .valid; (s.SupReady k.val) ∧ (c.ring ≤ 1) ∧ (c.sb = []) ∧ (tsbOk c.tsbr = true) ∧ (readable (c.tsbr + 0x120)) ∧ (tsbOk back = true) ∧ (∀ a ∈ tsbWords back, readable a) ∧ (c.xring = [])) ∧
    (∃ (s : State) (k : Fin 10) (top : Nat) (rest : List Nat), let c := (s.core k.val); let back := (s.peek (c.tsbr + 0x120) 8 % 2 ^ 40); let pst := (s.peek (back + 0x108) 8); let readable := fun (a : Nat) => c.allowed a .read = true ∧ s.underWipe a = false ∧ s.chkAt a = .valid; (s.SupReady k.val) ∧ (c.ring ≤ 1) ∧ (c.sb = []) ∧ (tsbOk c.tsbr = true) ∧ (readable (c.tsbr + 0x120)) ∧ (tsbOk back = true) ∧ (∀ a ∈ tsbWords back, readable a) ∧ (c.xring = top :: rest) ∧ (pst % 4 < top)) ∧
    (∃ (s : State) (k : Fin 10) (top : Nat) (rest : List Nat), let c := (s.core k.val); let back := (s.peek (c.tsbr + 0x120) 8 % 2 ^ 40); let pst := (s.peek (back + 0x108) 8); let readable := fun (a : Nat) => c.allowed a .read = true ∧ s.underWipe a = false ∧ s.chkAt a = .valid; (s.SupReady k.val) ∧ (c.ring ≤ 1) ∧ (c.sb = []) ∧ (tsbOk c.tsbr = true) ∧ (readable (c.tsbr + 0x120)) ∧ (tsbOk back = true) ∧ (∀ a ∈ tsbWords back, readable a) ∧ (c.xring = top :: rest) ∧ (top ≤ pst % 4)) :=
  ⟨⟨(let s := sup [] (fun c => { c with gtbr := 0x20001000, gtlim := 0, tsbr := 0x20000400 }); ((s.put8 0x20001000 (0x20000800 + 3 * 2 ^ 42 + 2 ^ 44)).put8 0x20001008 0x30000400)), (0), (0), (sup_ready (by decide +kernel)), (by decide +kernel)⟩,
   ⟨(let s := sup [] (fun c => { c with gtbr := 0x20001000, gtlim := 1, tsbr := 0x20000400 }); ((s.put8 0x20001000 (0x20000800 + 3 * 2 ^ 42)).put8 0x20001008 0x30000400)), (0), (0), (0x20000800 + 3 * 2 ^ 42), (0x30000400), (sup_ready (by decide +kernel)), (by decide +kernel)⟩,
   ⟨(let s := sup [] (fun c => { c with gtbr := 0x20001000, gtlim := 1, tsbr := 0x20000400 }); ((s.put8 0x20001000 (0x20000800 + 2 ^ 40 + 3 * 2 ^ 42 + 2 ^ 44)).put8 0x20001008 0x30000400)), (0), (0), (0x20000800 + 2 ^ 40 + 3 * 2 ^ 42 + 2 ^ 44), (0x30000400), (sup_ready (by decide +kernel)), (by decide +kernel)⟩,
   ⟨(let s := sup [] (fun c => { c with gtbr := 0x20001000, gtlim := 1, tsbr := 0x20000400, xring := List.replicate 7 0 }); ((s.put8 0x20001000 (0x20000800 + 3 * 2 ^ 42 + 2 ^ 44)).put8 0x20001008 0x30000400)), (0), (0), (0x20000800 + 3 * 2 ^ 42 + 2 ^ 44), (0x30000400), (sup_ready (by decide +kernel)), (by decide +kernel)⟩,
   ⟨(let s := sup [] (fun c => { c with gtbr := 0x20001000, gtlim := 1, tsbr := 0x20000400, pst := 2, rgnb := [(0, 0xFF + 0x20000000)], rgnl := [(0, 0x20000FFF)] }); ((s.put8 0x20001000 (0x20000800 + 3 * 2 ^ 42 + 2 ^ 44)).put8 0x20001008 0x30000400)), (0), (sup_ready (by decide +kernel)), (by decide +kernel)⟩,
   ⟨(let s := sup [] (fun c => { c with gtbr := 0x20001000, gtlim := 1, tsbr := 0x20000400 }); ((s.put8 0x20001000 (0x20000800 + 3 * 2 ^ 42 + 2 ^ 44)).put8 0x20001008 0x30000400) |> fun s => s.setCore 0 { s.core 0 with tsbr := 0x21000000 }), (0), (sup_ready (by decide +kernel)), (by decide +kernel)⟩,
   ⟨(let s := sup [] (fun c => { c with gtbr := 0x20001000, gtlim := 1, tsbr := 0x20000400 }); ((s.put8 0x20001000 (0x20000800 + 3 * 2 ^ 42 + 2 ^ 44)).put8 0x20001008 0x30000400) |> fun s => s.setCore 0 { s.core 0 with pst := 1, rgnb := [(0, 0xFF + 0x20000000)], rgnl := [(0, 0x20000FFF)], tsbr := 0x30000400 }), (0), (sup_ready (by decide +kernel)), (by decide +kernel)⟩,
   ⟨(let s := sup [] (fun c => { c with gtbr := 0x20001000, gtlim := 1, tsbr := 0x20000400 }); ((s.put8 0x20001000 (0x20000800 + 3 * 2 ^ 42 + 2 ^ 44)).put8 0x20001008 0x30000400).put8 0x20000520 0x20000300), (0), (sup_ready (by decide +kernel)), (by decide +kernel)⟩,
   ⟨(let s := sup [] (fun c => { c with gtbr := 0x20001000, gtlim := 1, tsbr := 0x20000400 }); ((s.put8 0x20001000 (0x20000800 + 3 * 2 ^ 42 + 2 ^ 44)).put8 0x20001008 0x30000400).put8 0x20000520 0x30000200 |> fun s => s.setCore 0 { s.core 0 with pst := 1, rgnb := [(0, 0xFF + 0x20000000)], rgnl := [(0, 0x20000FFF)] }), (0), (sup_ready (by decide +kernel)), (by decide +kernel)⟩,
   ⟨(let s := sup [] (fun c => { c with gtbr := 0x20001000, gtlim := 1, tsbr := 0x20000400 }); ((s.put8 0x20001000 (0x20000800 + 3 * 2 ^ 42 + 2 ^ 44)).put8 0x20001008 0x30000400).put8 0x20000520 0x30000200 |>.put8 0x30000300 0x20000000 |>.put8 0x30000308 1 |> fun s => (List.range 64).foldl (fun s i => s.setChk (0x30000200 + 8 * i) .valid) s), (0), (sup_ready (by decide +kernel)), (by decide +kernel)⟩,
   ⟨(let s := sup [] (fun c => { c with gtbr := 0x20001000, gtlim := 1, tsbr := 0x20000400, xring := [1, 2] }); ((s.put8 0x20001000 (0x20000800 + 3 * 2 ^ 42 + 2 ^ 44)).put8 0x20001008 0x30000400).put8 0x20000520 0x30000200 |>.put8 0x30000300 0x20000000 |>.put8 0x30000308 0 |> fun s => (List.range 64).foldl (fun s i => s.setChk (0x30000200 + 8 * i) .valid) s), (0), (1), ([2]), (sup_ready (by decide +kernel)), (by decide +kernel)⟩,
   ⟨(let s := sup [] (fun c => { c with gtbr := 0x20001000, gtlim := 1, tsbr := 0x20000400, xring := [1, 2] }); ((s.put8 0x20001000 (0x20000800 + 3 * 2 ^ 42 + 2 ^ 44)).put8 0x20001008 0x30000400).put8 0x20000520 0x30000200 |>.put8 0x30000300 0x20000000 |>.put8 0x30000308 1 |> fun s => (List.range 64).foldl (fun s i => s.setChk (0x30000200 + 8 * i) .valid) s), (0), (1), ([2]), (sup_ready (by decide +kernel)), (by decide +kernel)⟩⟩

theorem witness_SupFrame :
    (∃ (s : State) (k : Nat) (c : Sup) (t : State), (s.supDone k c = .next t)) :=
  ⟨(up), (9), (Sup.init), (up.setCore 9 { Sup.init with pc := 4, retired := 1 }), rfl⟩

theorem witness_SlotTasks :
    (∃ (s : State) (sq : Fin 64) (idx : Fin 4096) (f : Nat), let b := s.bank; let x := (s.slot b sq.val idx.val); let e := (8 * sq.val + slotEngine x); let start := (s.sched.origin + (f * s.frameLen b + slotStart x) * 64); let g := (s.engine e); let due := (s.bankOn = true ∧ s.alive (sqDom sq.val) = true ∧ s.slotReached b sq.val idx.val = true ∧ (slotPsetup x = true → f = 0) ∧ s.sqHold sq.val = false); (s.Quiet) ∧ (due) ∧ (s.sched.pend = .none) ∧ (slotDup x = false) ∧ (g.running = false) ∧ (4 ≤ start)) ∧
    (∃ (s : State) (sq : Fin 64) (idx : Fin 4096) (f : Nat), let b := s.bank; let x := (s.slot b sq.val idx.val); let e := (8 * sq.val + slotEngine x); let start := (s.sched.origin + (f * s.frameLen b + slotStart x) * 64); let g := (s.engine e); let due := (s.bankOn = true ∧ s.alive (sqDom sq.val) = true ∧ s.slotReached b sq.val idx.val = true ∧ (slotPsetup x = true → f = 0) ∧ s.sqHold sq.val = false); let fits := (s.stale sq.val = false ∧ s.serving e = true ∧ (s.chkAt (slotAddr b sq.val idx.val)).bad = false); let input := fun (n : Nat) => (s.inputBefore b e n start).1; let gated := (slotEvg x = true ∧ input (slotGate x) % 8 = 0); let ready := (due ∧ s.inRun = true ∧ g.woken = true ∧ g.running = false); (s.Quiet) ∧ (ready) ∧ (slotDup x = false) ∧ (fits) ∧ (¬ gated)) ∧
    (∃ (s : State) (sq : Fin 64) (idx : Fin 4096) (f : Nat), let b := s.bank; let x := (s.slot b sq.val idx.val); let e := (8 * sq.val + slotEngine x); let start := (s.sched.origin + (f * s.frameLen b + slotStart x) * 64); let g := (s.engine e); let due := (s.bankOn = true ∧ s.alive (sqDom sq.val) = true ∧ s.slotReached b sq.val idx.val = true ∧ (slotPsetup x = true → f = 0) ∧ s.sqHold sq.val = false); let fits := (s.stale sq.val = false ∧ s.serving e = true ∧ (s.chkAt (slotAddr b sq.val idx.val)).bad = false); let input := fun (n : Nat) => (s.inputBefore b e n start).1; let gated := (slotEvg x = true ∧ input (slotGate x) % 8 = 0); let ready := (due ∧ s.inRun = true ∧ g.woken = true ∧ g.running = false); (s.Quiet) ∧ (ready) ∧ (slotDup x = false) ∧ (fits) ∧ (gated)) ∧
    (∃ (s : State) (sq : Fin 64) (idx : Fin 4096) (f : Nat), let b := s.bank; let x := (s.slot b sq.val idx.val); let e := (8 * sq.val + slotEngine x); let g := (s.engine e); let due := (s.bankOn = true ∧ s.alive (sqDom sq.val) = true ∧ s.slotReached b sq.val idx.val = true ∧ (slotPsetup x = true → f = 0) ∧ s.sqHold sq.val = false); let fits := (s.stale sq.val = false ∧ s.serving e = true ∧ (s.chkAt (slotAddr b sq.val idx.val)).bad = false); let ready := (due ∧ s.inRun = true ∧ g.woken = true ∧ g.running = false); (s.Quiet) ∧ (ready) ∧ (slotDup x = false) ∧ (¬ fits)) ∧
    (∃ (s : State) (sq : Fin 64) (idx : Fin 4096) (f : Nat), let b := s.bank; let x := (s.slot b sq.val idx.val); let e := (8 * sq.val + slotEngine x); let p := (8 * sq.val + slotPartner x); let start := (s.sched.origin + (f * s.frameLen b + slotStart x) * 64); let g := (s.engine e); let due := (s.bankOn = true ∧ s.alive (sqDom sq.val) = true ∧ s.slotReached b sq.val idx.val = true ∧ (slotPsetup x = true → f = 0) ∧ s.sqHold sq.val = false); let fits := (s.stale sq.val = false ∧ s.serving e = true ∧ (s.chkAt (slotAddr b sq.val idx.val)).bad = false); let input := fun (n : Nat) => (s.inputBefore b e n start).1; let gated := (slotEvg x = true ∧ input (slotGate x) % 8 = 0); let ready := (due ∧ s.inRun = true ∧ g.woken = true ∧ g.running = false); (s.Quiet) ∧ (ready) ∧ (slotDup x = true) ∧ (e ≠ p) ∧ ((s.engine p).woken = true) ∧ ((s.engine p).running = false) ∧ (fits) ∧ (s.serving p = true) ∧ (¬ gated)) ∧
    (∃ (s : State) (e : Fin 512), let g := (s.engine e.val); (s.Quiet) ∧ (g.running = false)) ∧
    (∃ (s : State) (e : Fin 512), let g := (s.engine e.val); (s.Quiet) ∧ (g.running = true) ∧ (g.role = .single) ∧ (s.flag F.FLT_SRCE_EN (320 + e.val / 8) = false) ∧ (Tab.look (fun _ => none) s.fltWas (320 + e.val / 8) = none)) :=
  ⟨⟨(slots 63 (5 + 0x123 * 2 ^ 16 + 40 * 2 ^ 28 + 7 * 2 ^ 44 + 2 ^ 63) (id)), (63), (0), (3), (quiet_of (by decide +kernel)), (by decide +kernel)⟩,
   ⟨(slots 63 (5 + 0x123 * 2 ^ 16 + 40 * 2 ^ 28 + 7 * 2 ^ 44 + 2 ^ 63) (fun s => s.setEng 511 { Eng.init with woken := true })), (63), (0), (3), (quiet_of (by decide +kernel)), (by decide +kernel)⟩,
   ⟨(slots 63 (5 + 0x123 * 2 ^ 16 + 40 * 2 ^ 28 + 7 * 2 ^ 44 + 2 ^ 63 + 3 * 2 ^ 50 + 2 ^ 54) (fun s => s.setEng 511 { Eng.init with woken := true })), (63), (0), (3), (quiet_of (by decide +kernel)), (by decide +kernel)⟩,
   ⟨(slots 63 (5 + 0x123 * 2 ^ 16 + 40 * 2 ^ 28 + 7 * 2 ^ 44 + 2 ^ 63) (fun s => (fun s => s.setEng 511 { Eng.init with woken := true }) (s.setFld F.SQ_EPOCH_SQEPOCH 63 1))), (63), (0), (3), (quiet_of (by decide +kernel)), (by decide +kernel)⟩,
   ⟨(slots 63 (5 + 0x123 * 2 ^ 16 + 40 * 2 ^ 28 + 7 * 2 ^ 44 + 2 ^ 63 + 6 * 2 ^ 47 + 2 ^ 53) (fun s => (s.setEng 511 { Eng.init with woken := true }).setEng 510 { Eng.init with woken := true })), (63), (0), (3), (quiet_of (by decide +kernel)), (by decide +kernel)⟩,
   ⟨(up), (511), (quiet_of (by decide +kernel)), (by decide +kernel)⟩,
   ⟨(lane 5), (511), (quiet_of (by decide +kernel)), (by decide +kernel)⟩⟩

theorem witness_BufferedEffects :
    (∃ (s : State) (e : Fin 512) (x : SbEntry) (rest : List SbEntry), let g := (s.engine e.val); let sq := (e.val / 8); let own := (sqBase sq + x.phys * 0x10000 + 0x4000 + (x.addr - 0x10000)); (s.Quiet) ∧ (g.local_ = x :: rest) ∧ (x.en ≠ 0) ∧ (0x10000 ≤ x.addr) ∧ (x.addr < 0x18000) ∧ (x.addr % 8 = 0) ∧ (x.phys < 9) ∧ (x.cst = false) ∧ (s.chkAt own = .valid) ∧ (s.slotInEpoch sq x.phys = true)) ∧
    (∃ (s : State) (e : Fin 512) (x : SbEntry) (rest : List SbEntry), let g := (s.engine e.val); let sq := (e.val / 8); let own := (sqBase sq + x.phys * 0x10000 + 0x4000 + (x.addr - 0x10000)); (s.Quiet) ∧ (g.local_ = x :: rest) ∧ (x.en ≠ 0) ∧ (0x10000 ≤ x.addr) ∧ (x.addr < 0x18000) ∧ (x.addr % 8 = 0) ∧ (x.phys < 9) ∧ (x.cst = false) ∧ (s.chkAt own = .valid) ∧ (s.slotInEpoch sq x.phys = true)) ∧
    (∃ (s : State) (e : Fin 512) (x : SbEntry) (rest : List SbEntry), let g := (s.engine e.val); let sq := (e.val / 8); let own := (sqBase sq + x.phys * 0x10000 + 0x4000 + (x.addr - 0x10000)); (s.Quiet) ∧ (g.local_ = x :: rest) ∧ (x.en ≠ 0) ∧ (0x10000 ≤ x.addr) ∧ (x.addr < 0x18000) ∧ (x.addr % 8 = 0) ∧ (x.phys < 9) ∧ (x.cst = false) ∧ (s.chkAt own = .valid) ∧ (s.slotInEpoch sq x.phys = false)) ∧
    (∃ (s : State) (e : Fin 512) (x : SbEntry) (i : Nat) (u : Nat), let g := (s.engine e.val); let sq := (e.val / 8); let shared := (sqBase sq + 0xC0000 + (x.addr - 0x40000)); (s.Quiet) ∧ (g.nextShared e.val = some (i, u)) ∧ (g.shared[i]? = some x) ∧ (x.en ≠ 0) ∧ (0x40000 ≤ x.addr) ∧ (x.addr < 0x80000) ∧ (x.addr % 8 = 0) ∧ (x.cst = false) ∧ (s.chkAt shared = .valid) ∧ (s.slotInEpoch sq x.phys = true)) ∧
    (∃ (s : State) (e : Fin 512) (x : SbEntry) (i : Nat) (u : Nat), let g := (s.engine e.val); let sq := (e.val / 8); let shared := (sqBase sq + 0xC0000 + (x.addr - 0x40000)); (s.Quiet) ∧ (g.nextShared e.val = some (i, u)) ∧ (g.shared[i]? = some x) ∧ (x.en ≠ 0) ∧ (0x40000 ≤ x.addr) ∧ (x.addr < 0x80000) ∧ (x.addr % 8 = 0) ∧ (x.cst = false) ∧ (s.chkAt shared = .valid) ∧ (s.slotInEpoch sq x.phys = true)) ∧
    (∃ (s : State) (e : Fin 512) (x : SbEntry) (i : Nat) (u : Nat), let g := (s.engine e.val); let sq := (e.val / 8); let shared := (sqBase sq + 0xC0000 + (x.addr - 0x40000)); (s.Quiet) ∧ (g.nextShared e.val = some (i, u)) ∧ (g.shared[i]? = some x) ∧ (x.en ≠ 0) ∧ (0x40000 ≤ x.addr) ∧ (x.addr < 0x80000) ∧ (x.addr % 8 = 0) ∧ (x.cst = false) ∧ (s.chkAt shared = .valid) ∧ (s.slotInEpoch sq x.phys = false)) ∧
    (∃ (s : State) (k : Nat) (w : WStore), (s.Quiet) ∧ (s.wstores[k]? = some w) ∧ (w.epoch ≠ s.sqEpoch (w.eng / 8))) ∧
    (∃ (s : State) (k : Nat) (w : WStore), let s1 := (({ s with wstores := s.wstores.eraseIdx k } : State).reach w.due); (s.Quiet) ∧ (s.wstores[k]? = some w) ∧ (w.epoch = s.sqEpoch (w.eng / 8)) ∧ ((s1.winWrite w.eng w.cap w.offset w.size w.value w.due).1 = none)) ∧
    (∃ (s : State) (k : Nat) (w : WStore), let s1 := (({ s with wstores := s.wstores.eraseIdx k } : State).reach w.due); (s.Quiet) ∧ (s.wstores[k]? = some w) ∧ (w.epoch = s.sqEpoch (w.eng / 8)) ∧ ((s1.winWrite w.eng w.cap w.offset w.size w.value w.due).1 ≠ none) ∧ (((s1.winWrite w.eng w.cap w.offset w.size w.value w.due).2.engine w.eng).running = true) ∧ (w.task = some ((s1.winWrite w.eng w.cap w.offset w.size w.value w.due).2.engine w.eng).start)) ∧
    (∃ (s : State) (k : Nat) (w : WStore), let s1 := (({ s with wstores := s.wstores.eraseIdx k } : State).reach w.due); (s.Quiet) ∧ (s.wstores[k]? = some w) ∧ (w.epoch = s.sqEpoch (w.eng / 8)) ∧ ((s1.winWrite w.eng w.cap w.offset w.size w.value w.due).1 ≠ none) ∧ (((s1.winWrite w.eng w.cap w.offset w.size w.value w.due).2.engine w.eng).running = false)) :=
  ⟨⟨(let s := lane 5 (fun g => { g with local_ := [⟨0x10000, 0x81, 0x1122334455667788, false, 50, 7⟩] }); (s.setChk (sqBase 63 + 7 * 0x10000 + 0x4000 + (0x10000 - 0x10000)) .valid)), (511), (⟨0x10000, 0x81, 0x1122334455667788, false, 50, 7⟩), ([]), (quiet_of (by decide +kernel)), (by decide +kernel)⟩,
   ⟨(let s := lane 5 (fun g => { g with local_ := [⟨0x17FF8, 0x81, 0x1122334455667788, false, 50, 7⟩] }); (s.setChk (sqBase 63 + 7 * 0x10000 + 0x4000 + (0x17FF8 - 0x10000)) .valid)), (511), (⟨0x17FF8, 0x81, 0x1122334455667788, false, 50, 7⟩), ([]), (quiet_of (by decide +kernel)), (by decide +kernel)⟩,
   ⟨(let s := lane 5 (fun g => { g with local_ := [⟨0x10000, 0x81, 0x1122334455667788, false, 50, 7⟩] }); (s.setChk (sqBase 63 + 7 * 0x10000 + 0x4000 + (0x10000 - 0x10000)) .valid).setFld F.SQ_EPOCH_SQEPOCH 63 1), (511), (⟨0x10000, 0x81, 0x1122334455667788, false, 50, 7⟩), ([]), (quiet_of (by decide +kernel)), (by decide +kernel)⟩,
   ⟨(let s := lane 5 (fun g => { g with shared := [⟨0x40000, 0x81, 0x1122334455667788, false, 50, 7⟩] }); (s.setChk (sqBase 63 + 0xC0000 + (0x40000 - 0x40000)) .valid)), (511), (⟨0x40000, 0x81, 0x1122334455667788, false, 50, 7⟩), (0), (drainEc 511 0x40000 50), (quiet_of (by decide +kernel)), (by decide +kernel)⟩,
   ⟨(let s := lane 5 (fun g => { g with shared := [⟨0x7FFF8, 0x81, 0x1122334455667788, false, 50, 7⟩] }); (s.setChk (sqBase 63 + 0xC0000 + (0x7FFF8 - 0x40000)) .valid)), (511), (⟨0x7FFF8, 0x81, 0x1122334455667788, false, 50, 7⟩), (0), (drainEc 511 0x7FFF8 50), (quiet_of (by decide +kernel)), (by decide +kernel)⟩,
   ⟨(let s := lane 5 (fun g => { g with shared := [⟨0x40000, 0x81, 0x1122334455667788, false, 50, 7⟩] }); (s.setChk (sqBase 63 + 0xC0000 + (0x40000 - 0x40000)) .valid).setFld F.SQ_EPOCH_SQEPOCH 63 1), (511), (⟨0x40000, 0x81, 0x1122334455667788, false, 50, 7⟩), (0), (drainEc 511 0x40000 50), (quiet_of (by decide +kernel)), (by decide +kernel)⟩,
   ⟨({ lane 5 (fun g => { g with running := true }) with wstores := [⟨511, 7, 5, 1, ⟨true, BitVec.ofNat 128 (0x30000000 + 16 * 2 ^ 40 + 3 * 2 ^ 80 + 2 ^ 88)⟩, 0, 4, 0x55, 90, some 0, false⟩] }), (0), (⟨511, 7, 5, 1, ⟨true, BitVec.ofNat 128 (0x30000000 + 16 * 2 ^ 40 + 3 * 2 ^ 80 + 2 ^ 88)⟩, 0, 4, 0x55, 90, some 0, false⟩), (quiet_of (by decide +kernel)), (by decide +kernel)⟩,
   ⟨({ lane 5 (fun g => { g with running := true }) with wstores := [⟨511, 7, 5, 0, ⟨true, BitVec.ofNat 128 (0x30000000 + 16 * 2 ^ 40 + 3 * 2 ^ 80 + 2 ^ 88)⟩, 0, 4, 0x55, 90, some 0, false⟩] }), (0), (⟨511, 7, 5, 0, ⟨true, BitVec.ofNat 128 (0x30000000 + 16 * 2 ^ 40 + 3 * 2 ^ 80 + 2 ^ 88)⟩, 0, 4, 0x55, 90, some 0, false⟩), (quiet_of (by decide +kernel)), (by decide +kernel)⟩,
   ⟨({ lane 5 (fun g => { g with running := true }) with wstores := [⟨511, 7, 5, 0, ⟨true, BitVec.ofNat 128 (0x10000000 + 16 * 2 ^ 40 + 3 * 2 ^ 80 + 2 ^ 88)⟩, 0, 4, 0x55, 90, some 0, false⟩] }), (0), (⟨511, 7, 5, 0, ⟨true, BitVec.ofNat 128 (0x10000000 + 16 * 2 ^ 40 + 3 * 2 ^ 80 + 2 ^ 88)⟩, 0, 4, 0x55, 90, some 0, false⟩), (quiet_of (by decide +kernel)), (by decide +kernel)⟩,
   ⟨({ lane 5 (fun g => { g with running := false }) with wstores := [⟨511, 7, 5, 0, ⟨true, BitVec.ofNat 128 (0x10000000 + 16 * 2 ^ 40 + 3 * 2 ^ 80 + 2 ^ 88)⟩, 0, 4, 0x55, 90, some 0, false⟩] }), (0), (⟨511, 7, 5, 0, ⟨true, BitVec.ofNat 128 (0x10000000 + 16 * 2 ^ 40 + 3 * 2 ^ 80 + 2 ^ 88)⟩, 0, 4, 0x55, 90, some 0, false⟩), (quiet_of (by decide +kernel)), (by decide +kernel)⟩⟩

theorem witness_BoardMessages :
    (∃ (s : State) (k : Nat) (m : Msg) (q : Nat) (dir : Nat) (t : Nat) (nxt : Nat), (s.Quiet) ∧ (s.msgs[k]? = some m) ∧ (s.msgs.length = 1) ∧ (m.link (m.crossed + 1) = some (q, dir, t)) ∧ (stepTo q dir = some nxt) ∧ (s.alive (sqDom nxt) = true)) ∧
    (∃ (s : State) (k : Nat) (m : Msg) (q : Nat) (dir : Nat) (t : Nat) (nxt : Nat), (s.Quiet) ∧ (s.msgs[k]? = some m) ∧ (s.msgs.length = 1) ∧ (m.link (m.crossed + 1) = some (q, dir, t)) ∧ (stepTo q dir = some nxt) ∧ (s.alive (sqDom nxt) = false)) ∧
    (∃ (s : State) (k : Nat) (m : Msg) (q : Nat) (dir : Nat) (t : Nat), (s.Quiet) ∧ (s.msgs[k]? = some m) ∧ (s.msgs.length = 1) ∧ (m.link (m.crossed + 1) = some (q, dir, t)) ∧ (stepTo q dir = none)) ∧
    (∃ (s : State) (k : Nat) (m : Msg), (s.Quiet) ∧ (s.msgs[k]? = some m) ∧ (s.msgs.length = 1) ∧ (m.crossed < m.hops)) ∧
    (∃ (s : State) (k : Nat) (m : Msg), let src := (m.src / 8); (s.Quiet) ∧ (s.msgs[k]? = some m) ∧ (s.msgs.length = 1) ∧ (m.hops ≤ m.crossed) ∧ (m.epoch ≠ s.sqEpoch src)) ∧
    (∃ (s : State) (k : Nat) (m : Msg), let src := (m.src / 8); let dst := (8 * m.dstSq + m.dstEng); let x := (s.peek (routeAddr m.bank dst m.peer) 8); let named := (routeValid x = true ∧ routeIn x = true ∧ bits 42 37 x = src ∧ bits 45 43 x = m.src % 8 ∧ bits 53 46 x = m.route); (s.Quiet) ∧ (s.msgs[k]? = some m) ∧ (s.msgs.length = 1) ∧ (m.hops ≤ m.crossed) ∧ (m.epoch = s.sqEpoch src) ∧ (s.alive (sqDom m.dstSq) = true) ∧ (¬ named)) ∧
    (∃ (s : State) (k : Nat) (m : Msg), let src := (m.src / 8); (s.Quiet) ∧ (s.msgs[k]? = some m) ∧ (s.msgs.length = 1) ∧ (m.hops ≤ m.crossed) ∧ (m.epoch = s.sqEpoch src) ∧ (s.alive (sqDom m.dstSq) = false)) ∧
    (∃ (s : State) (k : Nat) (m : Msg), let src := (m.src / 8); let dst := (8 * m.dstSq + m.dstEng); let x := (s.peek (routeAddr m.bank dst m.peer) 8); let named := (routeValid x = true ∧ routeIn x = true ∧ bits 42 37 x = src ∧ bits 45 43 x = m.src % 8 ∧ bits 53 46 x = m.route); (s.Quiet) ∧ (s.msgs[k]? = some m) ∧ (s.msgs.length = 1) ∧ (m.hops ≤ m.crossed) ∧ (m.epoch = s.sqEpoch src) ∧ (s.alive (sqDom m.dstSq) = true) ∧ (named)) ∧
    (∃ (s : State) (m : Msg) (o : Msg) (q : Nat) (dir : Nat) (t : Nat) (nxt : Nat) (j : Nat), (s.Quiet) ∧ (s.msgs = [m, o]) ∧ (m.src < o.src ∨ m.src = o.src ∧ (m.rel = o.rel ∨ m.rel = true)) ∧ (m.link (m.crossed + 1) = some (q, dir, t)) ∧ (1 ≤ j ∧ j ≤ o.hops ∧ o.link j = some (q, dir, t)) ∧ (stepTo q dir = some nxt) ∧ (s.alive (sqDom nxt) = true)) ∧
    (∃ (s : State) (m : Msg) (o : Msg) (q : Nat) (dir : Nat) (t : Nat) (nxt : Nat) (j : Nat), (s.Quiet) ∧ (s.msgs = [m, o]) ∧ (m.src < o.src ∨ m.src = o.src ∧ (m.rel = o.rel ∨ m.rel = true)) ∧ (m.link (m.crossed + 1) = some (q, dir, t)) ∧ (1 ≤ j ∧ j ≤ o.hops ∧ o.link j = some (q, dir, t)) ∧ (stepTo q dir = some nxt) ∧ (s.alive (sqDom nxt) = true)) ∧
    (∃ (s : State) (m : Msg) (o : Msg) (q : Nat) (dir : Nat) (t : Nat) (nxt : Nat) (j : Nat), (s.Quiet) ∧ (s.msgs = [m, o]) ∧ (m.src < o.src ∨ m.src = o.src ∧ (m.rel = o.rel ∨ m.rel = true)) ∧ (m.link (m.crossed + 1) = some (q, dir, t)) ∧ (1 ≤ j ∧ j ≤ o.hops ∧ o.link j = some (q, dir, t)) ∧ (stepTo q dir = some nxt) ∧ (s.alive (sqDom nxt) = true)) :=
  ⟨⟨(let s : State := { up with msgs := [⟨3, false, 255, 100, 0, 2, 2, 5, 9, 7, 0, 0, 0⟩] }; s), (0), (⟨3, false, 255, 100, 0, 2, 2, 5, 9, 7, 0, 0, 0⟩), (0), (0), (102), (1), (quiet_of (by decide +kernel)), (by decide +kernel)⟩,
   ⟨(let s : State := { up with msgs := [⟨59, false, 255, 100, 2, 1, 15, 5, 9, 7, 0, 0, 0⟩] }; s.setRegN .PMU_DOMSTAT 0 0xFFFBF), (0), (⟨59, false, 255, 100, 2, 1, 15, 5, 9, 7, 0, 0, 0⟩), (7), (2), (102), (15), (quiet_of (by decide +kernel)), (by decide +kernel)⟩,
   ⟨(let s : State := { up with msgs := [⟨59, false, 255, 100, 0, 1, 8, 5, 9, 7, 0, 0, 0⟩] }; s), (0), (⟨59, false, 255, 100, 0, 1, 8, 5, 9, 7, 0, 0, 0⟩), (7), (0), (102), (quiet_of (by decide +kernel)), (by decide +kernel)⟩,
   ⟨(let s : State := { up with msgs := [⟨3, false, 255, 100, 0, 2, 2, 5, 9, 7, 0, 0, 1⟩] }; s), (0), (⟨3, false, 255, 100, 0, 2, 2, 5, 9, 7, 0, 0, 1⟩), (quiet_of (by decide +kernel)), (by decide +kernel)⟩,
   ⟨(let s : State := { up with msgs := [⟨3, false, 255, 100, 0, 2, 2, 5, 9, 7, 0, 0, 2⟩] }; s.setFld F.SQ_EPOCH_SQEPOCH 0 1), (0), (⟨3, false, 255, 100, 0, 2, 2, 5, 9, 7, 0, 0, 2⟩), (quiet_of (by decide +kernel)), (by decide +kernel)⟩,
   ⟨(let s : State := { up with msgs := [⟨3, false, 255, 100, 2, 1, 8, 5, 9, 7, 0, 0, 1⟩] }; s), (0), (⟨3, false, 255, 100, 2, 1, 8, 5, 9, 7, 0, 0, 1⟩), (quiet_of (by decide +kernel)), (by decide +kernel)⟩,
   ⟨(let s : State := { up with msgs := [⟨3, false, 255, 100, 2, 1, 8, 5, 9, 7, 0, 0, 1⟩] }; s.setRegN .PMU_DOMSTAT 0 0xFFFBF), (0), (⟨3, false, 255, 100, 2, 1, 8, 5, 9, 7, 0, 0, 1⟩), (quiet_of (by decide +kernel)), (by decide +kernel)⟩,
   ⟨(let s : State := { up with msgs := [⟨3, false, 255, 100, 0, 2, 2, 5, 9, 7, 0, 0, 2⟩] }; s.put8 (routeAddr 0 21 9) (3 * 2 ^ 62 + 0 * 2 ^ 37 + 3 * 2 ^ 43 + 255 * 2 ^ 46)), (0), (⟨3, false, 255, 100, 0, 2, 2, 5, 9, 7, 0, 0, 2⟩), (quiet_of (by decide +kernel)), (by decide +kernel)⟩,
   ⟨({ up with msgs := [⟨1, false, 255, 100, 0, 2, 2, 5, 9, 7, 0, 0, 0⟩, ⟨2, false, 254, 100, 0, 3, 3, 5, 9, 7, 0, 0, 0⟩] }), (⟨1, false, 255, 100, 0, 2, 2, 5, 9, 7, 0, 0, 0⟩), (⟨2, false, 254, 100, 0, 3, 3, 5, 9, 7, 0, 0, 0⟩), (0), (0), (102), (1), (1), (quiet_of (by decide +kernel)), (by decide +kernel)⟩,
   ⟨({ up with msgs := [⟨1, true, 255, 100, 0, 2, 2, 5, 9, 7, 0, 0, 0⟩, ⟨1, false, 254, 100, 0, 3, 3, 5, 9, 7, 0, 0, 0⟩] }), (⟨1, true, 255, 100, 0, 2, 2, 5, 9, 7, 0, 0, 0⟩), (⟨1, false, 254, 100, 0, 3, 3, 5, 9, 7, 0, 0, 0⟩), (0), (0), (102), (1), (1), (quiet_of (by decide +kernel)), (by decide +kernel)⟩,
   ⟨({ up with msgs := [⟨1, false, 255, 100, 0, 2, 2, 5, 9, 7, 0, 0, 0⟩, ⟨1, false, 254, 100, 0, 3, 3, 5, 9, 7, 0, 0, 0⟩] }), (⟨1, false, 255, 100, 0, 2, 2, 5, 9, 7, 0, 0, 0⟩), (⟨1, false, 254, 100, 0, 3, 3, 5, 9, 7, 0, 0, 0⟩), (0), (0), (102), (1), (1), (quiet_of (by decide +kernel)), (by decide +kernel)⟩⟩

theorem witness_DuplicatedTasks :
    (∃ (s : State) (e : Fin 512) (p : Nat), let g := (s.engine e.val); let h := (s.engine p); let sq := (e.val / 8); let ended := (g.role = .engine p ∧ g.compared = false ∧ g.running = false ∧ h.running = false ∧ e.val ≠ p ∧ s.sqHold sq = false); (s.Quiet) ∧ (ended) ∧ (g.overflow = false) ∧ (h.overflow = false) ∧ (g.sig = h.sig)) ∧
    (∃ (s : State) (e : Fin 512) (p : Nat), let g := (s.engine e.val); let h := (s.engine p); let sq := (e.val / 8); let ended := (g.role = .engine p ∧ g.compared = false ∧ g.running = false ∧ h.running = false ∧ e.val ≠ p ∧ s.sqHold sq = false); (s.Quiet) ∧ (ended) ∧ (g.overflow = false) ∧ (h.overflow = false) ∧ (g.sig = h.sig)) ∧
    (∃ (s : State) (e : Fin 512) (p : Nat), let g := (s.engine e.val); let h := (s.engine p); let sq := (e.val / 8); let ended := (g.role = .engine p ∧ g.compared = false ∧ g.running = false ∧ h.running = false ∧ e.val ≠ p ∧ s.sqHold sq = false); (s.Quiet) ∧ (ended) ∧ (g.overflow = true ∨ h.overflow = true)) ∧
    (∃ (s : State) (e : Fin 512) (p : Nat), let g := (s.engine e.val); let h := (s.engine p); let sq := (e.val / 8); let ended := (g.role = .engine p ∧ g.compared = false ∧ g.running = false ∧ h.running = false ∧ e.val ≠ p ∧ s.sqHold sq = false); (s.Quiet) ∧ (ended) ∧ (g.overflow = false) ∧ (h.overflow = false) ∧ (g.sig ≠ h.sig)) ∧
    (∃ (s : State) (e : Fin 512) (p : Nat), let g := (s.engine e.val); (s.Quiet) ∧ (g.compared = true) ∧ (g.role = .engine p)) ∧
    (∃ (s : State) (e : Fin 512), let g := (s.engine e.val); (s.Quiet) ∧ (g.rel = []) ∧ (g.snapAt = none)) ∧
    (∃ (s : State) (e : Fin 512) (at_ : Nat), let g := (s.engine e.val); (s.Quiet) ∧ (g.snapAt = some at_)) ∧
    (∃ (s : State) (e : Fin 512), let sq := (e.val / 8); (s.Quiet) ∧ ((s.square sq).fo = .idle) ∧ (s.flag F.RDC_FOREC_VALID 0 = false)) :=
  ⟨⟨(((up.setEng 511 { Eng.init with start := 100, budget := 40, role := .engine 504, compared := false }).setEng 504 { Eng.init with role := .partner 511, start := 100, budget := 40, sig := 0 })), (511), (504), (quiet_of (by decide +kernel)), (by decide +kernel)⟩,
   ⟨(((up.setEng 511 { Eng.init with start := 100, budget := 40, role := .engine 504, compared := false }).setEng 504 { Eng.init with role := .partner 511, start := 100, budget := 40, sig := 0 }).setFld F.SQ_SNAP_WLEN 63 8), (511), (504), (quiet_of (by decide +kernel)), (by decide +kernel)⟩,
   ⟨(((up.setEng 511 { Eng.init with start := 100, budget := 40, role := .engine 504, compared := false }).setEng 504 { Eng.init with role := .partner 511, start := 100, budget := 40, overflow := true })), (511), (504), (quiet_of (by decide +kernel)), (by decide +kernel)⟩,
   ⟨(((up.setEng 511 { Eng.init with start := 100, budget := 40, role := .engine 504, compared := false }).setEng 504 { Eng.init with role := .partner 511, start := 100, budget := 40, sig := 1 })), (511), (504), (quiet_of (by decide +kernel)), (by decide +kernel)⟩,
   ⟨(((up.setEng 511 { Eng.init with start := 100, budget := 40, role := .engine 504, compared := true }).setEng 504 { Eng.init with role := .partner 511, start := 100, budget := 40, sig := 1 })), (511), (504), (quiet_of (by decide +kernel)), (by decide +kernel)⟩,
   ⟨(((up.setEng 511 { Eng.init with start := 100, budget := 40, role := .engine 504, rel := [] }).setEng 504 { Eng.init with role := .partner 511, start := 100, budget := 40, sig := 1 })), (511), (quiet_of (by decide +kernel)), (by decide +kernel)⟩,
   ⟨(((up.setEng 511 { Eng.init with start := 100, budget := 40, role := .engine 504, snapAt := some 140 }).setEng 504 { Eng.init with role := .partner 511, start := 100, budget := 40, sig := 1 }).setFld F.SQ_SNAP_WLEN 63 2), (511), (140), (quiet_of (by decide +kernel)), (by decide +kernel)⟩,
   ⟨(((up.setEng 511 { Eng.init with start := 100, budget := 40, role := .engine 504, compared := false }).setEng 504 { Eng.init with role := .partner 511, start := 100, budget := 40, sig := 1 })), (511), (quiet_of (by decide +kernel)), (by decide +kernel)⟩⟩

theorem witness_EngineSpares :
    (∃ (s : State) (sq : Fin 64) (e : Nat) (p : Nat) (tick : Nat) (r : Nat) (filled : Bool) (ep : Bool) (pp : Bool), (s.Quiet) ∧ ((s.square sq.val).fo = .selfTest e p tick filled) ∧ (s.spareOf sq.val = some r) ∧ (ep ≠ pp) ∧ (s.sqEpoch sq.val ≠ 0xFFFF)) ∧
    (∃ (s : State) (sq : Fin 64) (e : Nat) (p : Nat) (tick : Nat) (r : Nat) (filled : Bool) (ep : Bool) (pp : Bool), (s.Quiet) ∧ ((s.square sq.val).fo = .selfTest e p tick filled) ∧ (s.spareOf sq.val = some r) ∧ (ep ≠ pp) ∧ (s.sqEpoch sq.val ≠ 0xFFFF)) ∧
    (∃ (s : State) (sq : Fin 64) (e : Nat) (p : Nat) (tick : Nat) (filled : Bool) (ep : Bool) (pp : Bool), (s.Quiet) ∧ ((s.square sq.val).fo = .selfTest e p tick filled) ∧ ((s.spareOf sq.val = none ∨ ep = pp ∨ s.sqEpoch sq.val = 0xFFFF))) ∧
    (∃ (s : State) (sq : Fin 64) (e : Nat) (p : Nat) (tick : Nat) (filled : Bool) (ep : Bool) (pp : Bool), (s.Quiet) ∧ ((s.square sq.val).fo = .selfTest e p tick filled) ∧ ((s.spareOf sq.val = none ∨ ep = pp ∨ s.sqEpoch sq.val = 0xFFFF))) ∧
    (∃ (s : State) (sq : Fin 64) (e : Nat) (p : Nat) (tick : Nat) (filled : Bool) (ep : Bool) (pp : Bool), (s.Quiet) ∧ ((s.square sq.val).fo = .selfTest e p tick filled) ∧ ((s.spareOf sq.val = none ∨ ep = pp ∨ s.sqEpoch sq.val = 0xFFFF))) ∧
    (∃ (s : State) (sq : Fin 64) (log : Nat) (nb : Nat) (r : Nat) (e : Nat) (tick : Nat), (s.Quiet) ∧ ((s.square sq.val).fo = .load log nb r (some e) true tick)) ∧
    (∃ (s : State) (sq : Fin 64) (log : Nat) (nb : Nat) (r : Nat) (tick : Nat), (s.Quiet) ∧ ((s.square sq.val).fo = .load log nb r none false tick)) ∧
    (∃ (s : State) (sq : Fin 64) (log : Nat) (nb : Nat) (r : Nat) (tick : Nat) (sv : Option Nat), (s.Quiet) ∧ ((s.square sq.val).fo = .retarget log nb r sv tick)) ∧
    (∃ (s : State) (sq : Fin 64) (log : Nat) (nb : Nat) (r : Nat) (tick : Nat) (sv : Option Nat), (s.Quiet) ∧ ((s.square sq.val).fo = .retarget log nb r sv tick)) ∧
    (∃ (s : State) (sq : Fin 64), (s.Quiet) ∧ ((s.square sq.val).fo = .idle)) ∧
    (∃ (s : State) (sq : Fin 64) (n : Fin 9), let q := s.square sq.val; (s.Quiet) ∧ (s.flag F.RDC_CTL_ROTTEST 0 = true) ∧ (s.alive (sqDom sq.val) = true) ∧ (q.rotEng = n.val) ∧ (s.rotGap sq.val n.val = true)) ∧
    (∃ (s : State) (sq : Fin 64) (n : Fin 9), let q := s.square sq.val; (s.Quiet) ∧ (s.flag F.RDC_CTL_ROTTEST 0 = true) ∧ (s.alive (sqDom sq.val) = true) ∧ (q.rotEng = n.val) ∧ (s.rotGap sq.val n.val = true)) ∧
    (∃ (s : State) (sq : Fin 64) (n : Fin 9), let q := s.square sq.val; (s.Quiet) ∧ (s.flag F.RDC_CTL_ROTTEST 0 = true) ∧ (s.alive (sqDom sq.val) = true) ∧ (q.rotEng = n.val) ∧ (s.rotGap sq.val n.val = true)) ∧
    (∃ (s : State) (sq : Fin 64) (n : Fin 9), let q := s.square sq.val; (s.Quiet) ∧ (s.flag F.RDC_CTL_ROTTEST 0 = true) ∧ (s.alive (sqDom sq.val) = true) ∧ (q.rotEng = n.val)) ∧
    (∃ (s : State) (sq : Fin 64) (n : Fin 9), let q := s.square sq.val; (s.Quiet) ∧ (s.flag F.RDC_CTL_ROTTEST 0 = true) ∧ (s.alive (sqDom sq.val) = true) ∧ (q.rotEng = n.val)) ∧
    (∃ (s : State) (n : Nat), (s.Quiet) ∧ (n < 9)) ∧
    (∃ (s : State) (n : Nat), (s.Quiet) ∧ (n < 9)) ∧
    (∃ (s : State) (n : Nat), (s.Quiet) ∧ (n < 9)) ∧
    (∃ (s : State) (n : Nat), (s.Quiet) ∧ (n < 9)) ∧
    (∃ (s : State), (s.Quiet) ∧ (s.flag F.RDC_CTL_ROTTEST 0 = false)) ∧
    (∃ (s : State) (i : Fin 66), let dom := if i.val < 64 then sqDom i.val else anaDom (i.val == 64); (s.Quiet) ∧ (s.alive dom = true) ∧ (s.alive 4 = true)) ∧
    (∃ (s : State) (i : Fin 66), let dom := if i.val < 64 then sqDom i.val else anaDom (i.val == 64); (s.Quiet) ∧ (s.alive dom = true) ∧ (s.alive 4 = true)) ∧
    (∃ (s : State) (i : Fin 66), let dom := if i.val < 64 then sqDom i.val else anaDom (i.val == 64); (s.Quiet) ∧ (s.alive dom = true) ∧ (s.alive 4 = true)) ∧
    (∃ (s : State) (sq : Fin 64) (n : Nat), (s.Quiet) ∧ (n < 9) ∧ (s.sqEpoch sq.val < 0xFFFF)) ∧
    (∃ (s : State) (sq : Fin 64) (n : Nat), (s.Quiet) ∧ (n < 9) ∧ (s.sqEpoch sq.val < 0xFFFF)) :=
  ⟨⟨((up.setSquare 5 { up.square 5 with fo := .selfTest 40 42 1000 true }).setPstate 5 8 1), (5), (40), (42), (1000), (8), (true), (true), (false), (quiet_of (by decide +kernel)), (by decide +kernel)⟩,
   ⟨((up.setSquare 5 { up.square 5 with fo := .selfTest 40 42 1000 true }).setPstate 5 8 1), (5), (40), (42), (1000), (8), (true), (false), (true), (quiet_of (by decide +kernel)), (by decide +kernel)⟩,
   ⟨((up.setSquare 5 { up.square 5 with fo := .selfTest 40 42 1000 true }).setPstate 5 8 1), (5), (40), (42), (1000), (true), (true), (true), (quiet_of (by decide +kernel)), (by decide +kernel)⟩,
   ⟨((up.setSquare 5 { up.square 5 with fo := .selfTest 40 42 1000 true }).setPstate 5 8 1), (5), (40), (42), (1000), (true), (false), (false), (quiet_of (by decide +kernel)), (by decide +kernel)⟩,
   ⟨(((up.setSquare 5 { up.square 5 with fo := .selfTest 40 42 1000 true }).setPstate 5 8 6).setFld F.SQ_EPOCH_SQEPOCH 5 65535), (5), (40), (42), (1000), (true), (true), (false), (quiet_of (by decide +kernel)), (by decide +kernel)⟩,
   ⟨(up.setSquare 5 { up.square 5 with fo := .load 0 0 8 (some 42) true 1000 }), (5), (0), (0), (8), (42), (1000), (quiet_of (by decide +kernel)), (by decide +kernel)⟩,
   ⟨(up.setSquare 5 { up.square 5 with fo := .load 0 0 8 none false 1000 }), (5), (0), (0), (8), (1000), (quiet_of (by decide +kernel)), (by decide +kernel)⟩,
   ⟨(up.setSquare 5 { up.square 5 with fo := .retarget 0 0 8 (some 42) 1000 }), (5), (0), (0), (8), (1000), (some 42), (quiet_of (by decide +kernel)), (by decide +kernel)⟩,
   ⟨(up.setSquare 5 { up.square 5 with fo := .retarget 0 0 8 none 1000 }), (5), (0), (0), (8), (1000), (none), (quiet_of (by decide +kernel)), (by decide +kernel)⟩,
   ⟨(up), (63), (quiet_of (by decide +kernel)), (by decide +kernel)⟩,
   ⟨(((up.setFld F.RDC_CTL_ROTTEST 0 1).setPhys 5 0 { up.physEng 5 0 with segments := 123 })), (5), (0), (quiet_of (by decide +kernel)), (by decide +kernel)⟩,
   ⟨(((up.setFld F.RDC_CTL_ROTTEST 0 1).setPhys 5 0 { up.physEng 5 0 with segments := 124 })), (5), (0), (quiet_of (by decide +kernel)), (by decide +kernel)⟩,
   ⟨(((up.setFld F.RDC_CTL_ROTTEST 0 1).setPhys 5 0 { up.physEng 5 0 with segments := 0 })), (5), (0), (quiet_of (by decide +kernel)), (by decide +kernel)⟩,
   ⟨(up.setFld F.RDC_CTL_ROTTEST 0 1), (63), (0), (quiet_of (by decide +kernel)), (by decide +kernel)⟩,
   ⟨((up.setFld F.RDC_CTL_ROTTEST 0 1).setSquare 63 { up.square 63 with rotSaid := true }), (63), (0), (quiet_of (by decide +kernel)), (by decide +kernel)⟩,
   ⟨(up.setSquare 5 { up.square 5 with fo := .selfTest 40 42 1000 true }), (8), (quiet_of (by decide +kernel)), (by decide +kernel)⟩,
   ⟨(up.setPstate 5 8 1), (8), (quiet_of (by decide +kernel)), (by decide +kernel)⟩,
   ⟨(up.setPstate 5 8 6), (0), (quiet_of (by decide +kernel)), (by decide +kernel)⟩,
   ⟨(up.setPstate 5 8 1), (0), (quiet_of (by decide +kernel)), (by decide +kernel)⟩,
   ⟨(up.setFld F.RDC_CTL_ROTTEST 0 0), (quiet_of (by decide +kernel)), (by decide +kernel)⟩,
   ⟨(up.setFld F.RDC_WTHR_THR 0 100), (63), (quiet_of (by decide +kernel)), (by decide +kernel)⟩,
   ⟨(up.setFld F.RDC_WTHR_THR 0 100), (64), (quiet_of (by decide +kernel)), (by decide +kernel)⟩,
   ⟨(up.setFld F.RDC_WTHR_THR 0 100), (65), (quiet_of (by decide +kernel)), (by decide +kernel)⟩,
   ⟨(up), (5), (8), (quiet_of (by decide +kernel)), (by decide +kernel)⟩,
   ⟨(up.setFld F.SQ_EPOCH_SQEPOCH 5 65534), (5), (0), (quiet_of (by decide +kernel)), (by decide +kernel)⟩⟩

theorem witness_PairSpares :
    (∃ (s : State), (s.Quiet) ∧ (s.flag F.RDC_CTL_CMPTEST 0 = true) ∧ (s.alive 4 = true)) ∧
    (∃ (s : State), (s.Quiet) ∧ (s.flag F.RDC_CTL_CMPTEST 0 = false)) ∧
    (∃ (s : State) (p : Fin 5) (cause : BitVec 2) (j : Nat), (s.Quiet) ∧ (s.logicalPair p.val = some j) ∧ (s.alive 4 = true) ∧ (s.pairMode j = cause.toNat) ∧ (cause.toNat < 2) ∧ ((cause.toNat = 1 → s.sigDue p.val = true)) ∧ (s.fld F.SUP_STAT_STATE (2 * p.val) ≠ 3)) ∧
    (∃ (s : State) (p : Fin 5) (cause : BitVec 2) (j : Nat), (s.Quiet) ∧ (s.logicalPair p.val = some j) ∧ (s.alive 4 = true) ∧ (s.pairMode j = cause.toNat) ∧ (cause.toNat < 2) ∧ ((cause.toNat = 1 → s.sigDue p.val = true)) ∧ (s.fld F.SUP_STAT_STATE (2 * p.val) ≠ 3)) ∧
    (∃ (s : State) (p : Fin 5) (cause : BitVec 2) (j : Nat), (s.Quiet) ∧ (s.logicalPair p.val = some j) ∧ (s.alive 4 = true) ∧ (s.pairMode j = cause.toNat) ∧ (cause.toNat < 2) ∧ ((cause.toNat = 1 → s.sigDue p.val = true)) ∧ (s.fld F.SUP_STAT_STATE (2 * p.val) ≠ 3)) ∧
    (∃ (s : State) (p : Fin 5) (cause : BitVec 2), (s.Quiet) ∧ ((s.logicalPair p.val = none ∨ s.fld F.SUP_STAT_STATE (2 * p.val) = 3 ∨ (cause.toNat = 1 ∧ s.sigDue p.val = false)))) ∧
    (∃ (s : State) (p : Fin 5) (cause : BitVec 2), (s.Quiet) ∧ ((s.logicalPair p.val = none ∨ s.fld F.SUP_STAT_STATE (2 * p.val) = 3 ∨ (cause.toNat = 1 ∧ s.sigDue p.val = false)))) ∧
    (∃ (s : State) (p : Fin 5) (cause : BitVec 2), (s.Quiet) ∧ ((s.logicalPair p.val = none ∨ s.fld F.SUP_STAT_STATE (2 * p.val) = 3 ∨ (cause.toNat = 1 ∧ s.sigDue p.val = false)))) ∧
    (∃ (s : State) (j : Fin 4), let p := s.physPair j.val; (s.Quiet) ∧ (s.alive 4 = true) ∧ (s.pairMode j.val < 2) ∧ ((∀ i : Fin 4, s.pairMode i.val ≠ 3)) ∧ (s.logicalPair p = some j.val)) ∧
    (∃ (s : State) (j : Fin 4), let p := s.physPair j.val; (s.Quiet) ∧ (s.alive 4 = true) ∧ (s.pairMode j.val < 2) ∧ ((∀ i : Fin 4, s.pairMode i.val ≠ 3)) ∧ (s.logicalPair p = some j.val)) ∧
    (∃ (s : State) (j : Fin 4) (mode : BitVec 2), (s.Quiet) ∧ (s.alive 4 = true) ∧ (s.pairMode j.val = 2) ∧ (mode.toNat < 2) ∧ ((∀ i : Fin 4, s.pairMode i.val ≠ 3))) ∧
    (∃ (s : State) (j : Fin 4) (mode : BitVec 2), (s.Quiet) ∧ (s.alive 4 = true) ∧ (s.pairMode j.val = 2) ∧ (mode.toNat < 2) ∧ ((∀ i : Fin 4, s.pairMode i.val ≠ 3))) ∧
    (∃ (s : State) (j : Fin 4) (mode : BitVec 2), (s.Quiet) ∧ (s.alive 4 = true) ∧ (s.pairMode j.val = 2) ∧ (mode.toNat < 2) ∧ ((∀ i : Fin 4, s.pairMode i.val ≠ 3))) ∧
    (∃ (s : State), (s.Quiet) ∧ (s.alive 4 = true)) ∧
    (∃ (s : State) (j : Fin 4), let p := s.physPair j.val; (s.Quiet) ∧ ((s.core (2 * p)).sb = [])) ∧
    (∃ (s : State) (j : Fin 4), let p := s.physPair j.val; (s.Quiet) ∧ ((s.core (2 * p)).sb = [])) ∧
    (∃ (s : State) (sq : Fin 64), (s.Quiet) ∧ (s.alive 4 = true) ∧ (s.flag F.RDC_STAT_CMDBUSY 0 = false) ∧ (s.alive (sqDom sq.val) = true)) ∧
    (∃ (s : State) (sq : Fin 64), (s.Quiet) ∧ (s.alive 4 = true) ∧ (s.flag F.RDC_STAT_CMDBUSY 0 = false) ∧ (s.alive (sqDom sq.val) = true)) ∧
    (∃ (s : State) (sq : Fin 64), (s.Quiet) ∧ (s.alive 4 = true) ∧ (s.flag F.RDC_STAT_CMDBUSY 0 = false) ∧ (s.alive (sqDom sq.val) = true)) ∧
    (∃ (s : State) (sq : Fin 64), (s.Quiet) ∧ (s.alive 4 = true) ∧ (s.flag F.RDC_STAT_CMDBUSY 0 = false) ∧ (s.alive (sqDom sq.val) = true)) ∧
    (∃ (s : State) (sq : Fin 64), (s.Quiet) ∧ (s.alive 4 = true) ∧ (s.flag F.RDC_STAT_CMDBUSY 0 = false) ∧ (s.alive (sqDom sq.val) = true)) ∧
    (∃ (s : State) (sq : Fin 64), (s.Quiet) ∧ (s.alive 4 = true) ∧ (s.flag F.RDC_STAT_CMDBUSY 0 = false) ∧ (s.alive (sqDom sq.val) = true)) ∧
    (∃ (s : State) (sq : Fin 64), (s.Quiet) ∧ (s.alive 4 = true) ∧ (s.flag F.RDC_STAT_CMDBUSY 0 = false) ∧ (s.alive (sqDom sq.val) = true)) ∧
    (∃ (s : State), (s.Quiet) ∧ (s.alive 4 = true) ∧ (s.flag F.RDC_STAT_CMDBUSY 0 = false)) ∧
    (∃ (s : State), (s.Quiet) ∧ (s.alive 4 = true) ∧ (s.flag F.RDC_STAT_CMDBUSY 0 = false)) ∧
    (∃ (s : State) (sq : Fin 64), (s.Quiet) ∧ (s.alive 4 = true) ∧ (s.flag F.RDC_STAT_CMDBUSY 0 = false) ∧ (s.alive (sqDom sq.val) = true)) ∧
    (∃ (s : State) (sq : Fin 64), (s.Quiet) ∧ (s.alive 4 = true) ∧ (s.flag F.RDC_STAT_CMDBUSY 0 = false) ∧ (s.alive (sqDom sq.val) = true)) ∧
    (∃ (s : State) (sq : Nat) (c : Nat) (i : Nat) (u : State), (s.Quiet) ∧ (s.rdc = some (.refresh sq)) ∧ (s.underWipe (sqBase sq + 0xC0000) = false) ∧ (s.loadHead (s.pair .SCH_LDSRCL .SCH_LDSRCH 0) = (.error (c, i), u))) ∧
    (∃ (s : State) (sq : Nat), (s.Quiet) ∧ (s.rdc = some (.refresh sq)) ∧ (s.underWipe (sqBase sq + 0xC0000) = true)) :=
  ⟨⟨(up.setFld F.RDC_CTL_CMPTEST 0 1), (quiet_of (by decide +kernel)), (by decide +kernel)⟩,
   ⟨(up.setFld F.RDC_CTL_CMPTEST 0 0), (quiet_of (by decide +kernel)), (by decide +kernel)⟩,
   ⟨(up.setFld F.RDC_CTL_AUTO 0 1), (0), (0), (0), (quiet_of (by decide +kernel)), (by decide +kernel)⟩,
   ⟨(up.setFld F.RDC_CTL_AUTO 0 0), (3), (0), (3), (quiet_of (by decide +kernel)), (by decide +kernel)⟩,
   ⟨((((up.setFld F.RDC_CTL_AUTO 0 1).setFld F.RDC_PMODE_MODE 0 1).setFld F.RDC_SIGWIN_WINDOW 0 5).setCore 0 { up.core 0 with retired := 256 }), (0), (1), (0), (quiet_of (by decide +kernel)), (by decide +kernel)⟩,
   ⟨(up), (4), (0), (quiet_of (by decide +kernel)), (by decide +kernel)⟩,
   ⟨(up.setFld F.SUP_STAT_STATE 0 3), (0), (3), (quiet_of (by decide +kernel)), (by decide +kernel)⟩,
   ⟨(up.setFld F.RDC_PMODE_MODE 0 1), (0), (1), (quiet_of (by decide +kernel)), (by decide +kernel)⟩,
   ⟨(up), (0), (quiet_of (by decide +kernel)), (by decide +kernel)⟩,
   ⟨(up.setFld F.RDC_PMODE_MODE 0 0x1021), (3), (quiet_of (by decide +kernel)), (by decide +kernel)⟩,
   ⟨((up.setFld F.RDC_PMODE_MODE 0 2).setFld F.RDC_JOIN_READY 0 1), (0), (0), (quiet_of (by decide +kernel)), (by decide +kernel)⟩,
   ⟨(up.setFld F.RDC_PMODE_MODE 0 2), (0), (1), (quiet_of (by decide +kernel)), (by decide +kernel)⟩,
   ⟨((up.setFld F.RDC_PMODE_MODE 0 0x2000).setFld F.RDC_JOIN_READY 0 8), (3), (1), (quiet_of (by decide +kernel)), (by decide +kernel)⟩,
   ⟨(up), (quiet_of (by decide +kernel)), (by decide +kernel)⟩,
   ⟨({ (up.setFld F.RDC_PMODE_MODE 0 2).setFld F.RDC_JOIN_READY 0 1 with joins := [0] }), (0), (quiet_of (by decide +kernel)), (by decide +kernel)⟩,
   ⟨(up), (3), (quiet_of (by decide +kernel)), (by decide +kernel)⟩,
   ⟨(up.setPstate 63 8 1), (63), (quiet_of (by decide +kernel)), (by decide +kernel)⟩,
   ⟨((up.setPstate 63 8 1).setSquare 63 { up.square 63 with fo := .selfTest 504 505 9 true }), (63), (quiet_of (by decide +kernel)), (by decide +kernel)⟩,
   ⟨(up), (0), (quiet_of (by decide +kernel)), (by decide +kernel)⟩,
   ⟨(up.setPstate 3 0 0), (3), (quiet_of (by decide +kernel)), (by decide +kernel)⟩,
   ⟨((up.setPstate 63 8 4).setRegN .SQ_TESTED 63 0x100), (63), (quiet_of (by decide +kernel)), (by decide +kernel)⟩,
   ⟨(up.setPstate 63 8 4), (63), (quiet_of (by decide +kernel)), (by decide +kernel)⟩,
   ⟨(((up.setPstate 63 8 4).setRegN .SQ_MAP 63 0xFFFFFFF0).setRegN .SQ_TESTED 63 0x100), (63), (quiet_of (by decide +kernel)), (by decide +kernel)⟩,
   ⟨(up), (quiet_of (by decide +kernel)), (by decide +kernel)⟩,
   ⟨(up.setFld F.RDC_PSTATE_TESTED 0 16), (quiet_of (by decide +kernel)), (by decide +kernel)⟩,
   ⟨(up.setFld F.SQ_SLOTSTAT_HOLD 63 1), (63), (quiet_of (by decide +kernel)), (by decide +kernel)⟩,
   ⟨((up.setFld F.SQ_SLOTSTAT_HOLD 63 1).setFld F.SCH_LDSTAT_BUSY 0 1), (63), (quiet_of (by decide +kernel)), (by decide +kernel)⟩,
   ⟨({ up with rdc := some (.refresh 0) }), (0), ((up.loadHead (up.pair .SCH_LDSRCL .SCH_LDSRCH 0)).1 |> (fun r => match r with | .error x => x.1 | .ok _ => 0)), ((up.loadHead (up.pair .SCH_LDSRCL .SCH_LDSRCH 0)).1 |> (fun r => match r with | .error x => x.2 | .ok _ => 0)), (((({ up with rdc := some (.refresh 0) } : State).loadHead (up.pair .SCH_LDSRCL .SCH_LDSRCH 0)).2)), (quiet_of (by decide +kernel)), (by decide +kernel)⟩,
   ⟨({ up with rdc := some (.refresh 63), wipe := some ([12], false) }), (63), (quiet_of (by decide +kernel)), (by decide +kernel)⟩⟩

theorem witness_PlanFlow :
    (∃ (s : State) (who : Initiator) (bank : Bool), let b := b2n bank; (s.Quiet) ∧ (s.Takes who .SCH_CTL 0) ∧ (s.alive 4 = true) ∧ (s.schPending = false) ∧ (s.mode = 5) ∧ (s.bankValid b = true) ∧ ((s.bankRack b = true → s.flag F.QTZ_STATUS_LOCK 0 = true)) ∧ ((∀ q : Fin 64, s.sqEpoch q.val = s.planEpoch b q.val))) ∧
    (∃ (s : State) (who : Initiator) (bank : Bool), let b := b2n bank; (s.Quiet) ∧ (s.Takes who .SCH_CTL 0) ∧ (s.alive 4 = true) ∧ (s.schPending = false) ∧ (s.mode = 5) ∧ (s.bankValid b = true) ∧ ((s.bankRack b = true → s.flag F.QTZ_STATUS_LOCK 0 = true)) ∧ ((∀ q : Fin 64, s.sqEpoch q.val = s.planEpoch b q.val))) ∧
    (∃ (s : State) (who : Initiator), (s.Quiet) ∧ (s.Takes who .SCH_CTL 0) ∧ (s.alive 4 = true) ∧ (s.schPending = false) ∧ (s.mode = 5) ∧ (s.now + 64 ≤ s.pair .SCH_ORIGINL .SCH_ORIGINH 0)) ∧
    (∃ (s : State) (who : Initiator), (s.Quiet) ∧ (s.Takes who .SCH_CTL 0) ∧ (s.alive 4 = true) ∧ (s.schPending = false) ∧ (s.mode = 5) ∧ (s.now + 64 ≤ s.pair .SCH_ORIGINL .SCH_ORIGINH 0)) ∧
    (∃ (s : State) (who : Initiator), (s.Quiet) ∧ (s.Takes who .SCH_CTL 0) ∧ (s.alive 4 = true) ∧ (s.schPending = false) ∧ (s.mode = 5) ∧ (s.now + 64 ≤ s.pair .SCH_ORIGINL .SCH_ORIGINH 0)) ∧
    (∃ (s : State) (who : Initiator), (s.Quiet) ∧ (s.Takes who .SCH_CTL 0) ∧ (s.alive 4 = true)) ∧
    (∃ (s : State) (who : Initiator), (s.Quiet) ∧ (s.Takes who .SCH_CTL 0) ∧ (s.alive 4 = true)) ∧
    (∃ (s : State) (who : Initiator), (s.Quiet) ∧ (s.Takes who .SCH_CTL 0) ∧ (s.alive 4 = true)) ∧
    (∃ (s : State) (who : Initiator), (s.Quiet) ∧ (s.Takes who .SCH_CTL 0) ∧ (s.alive 4 = true) ∧ (s.schPending = true)) ∧
    (∃ (s : State) (who : Initiator), (s.Quiet) ∧ (s.Takes who .SCH_CTL 0) ∧ (s.alive 4 = true) ∧ (s.schPending = true)) ∧
    (∃ (s : State) (who : Initiator), (s.Quiet) ∧ (s.Takes who .SCH_CTL 0) ∧ (s.alive 4 = true) ∧ (s.schPending = true)) ∧
    (∃ (s : State) (who : Initiator), (s.Quiet) ∧ (s.Takes who .SCH_CTL 0) ∧ (s.alive 4 = true) ∧ (s.schPending = true)) ∧
    (∃ (s : State) (who : Initiator), (s.Quiet) ∧ (s.Takes who .SCH_CTL 0) ∧ (s.alive 4 = true) ∧ (s.sched.pend = .none)) ∧
    (∃ (s : State) (b : Nat) (o : Nat), (s.Quiet) ∧ (s.engClock = true) ∧ (s.sched.pend = .start b o) ∧ (s.mode = 5)) ∧
    (∃ (s : State), (s.Quiet) ∧ (s.engClock = true)) ∧
    (∃ (s : State) (b : Nat), (s.Quiet) ∧ (b < 2)) ∧
    (∃ (s : State) (b : Nat) (asked : Nat), (s.Quiet) ∧ (s.engClock = true) ∧ (s.sched.pend = .switch b asked) ∧ (s.inRun = true) ∧ (s.bankOn = true)) ∧
    (∃ (s : State) (b : Nat) (asked : Nat), (s.Quiet) ∧ (s.engClock = true) ∧ (s.sched.pend = .switch b asked) ∧ (s.inRun = true) ∧ (s.bankOn = true)) ∧
    (∃ (s : State) (b : Nat) (asked : Nat), (s.Quiet) ∧ (s.engClock = true) ∧ (s.sched.pend = .switch b asked) ∧ (s.inRun = true) ∧ (s.bankOn = true)) ∧
    (∃ (s : State) (b : Nat) (asked : Nat), (s.Quiet) ∧ (s.engClock = true) ∧ (s.sched.pend = .switch b asked) ∧ (s.inRun = true) ∧ (s.bankOn = true)) ∧
    (∃ (s : State), (s.Quiet) ∧ (s.engClock = true) ∧ (s.bankOn = true) ∧ (s.inRun = true)) ∧
    (∃ (s : State), (s.Quiet) ∧ (s.engClock = true) ∧ (s.bankOn = true) ∧ (s.inRun = true)) ∧
    (∃ (s : State), (s.Quiet) ∧ (s.engClock = true) ∧ (s.bankOn = true) ∧ (s.inRun = true)) ∧
    (∃ (s : State), (s.Quiet) ∧ (s.engClock = true) ∧ (s.bankOn = true) ∧ (s.inRun = true)) ∧
    (∃ (s : State) (who : Initiator), (s.Quiet) ∧ (s.Takes who .SCH_LDCTL 0) ∧ (s.alive 4 = true)) ∧
    (∃ (s : State) (who : Initiator), (s.Quiet) ∧ (s.Takes who .SCH_LDCTL 0) ∧ (s.alive 4 = true)) ∧
    (∃ (s : State) (who : Initiator), (s.Quiet) ∧ (s.Takes who .SCH_LDCTL 0) ∧ (s.alive 4 = true)) ∧
    (∃ (s : State) (who : Initiator), (s.Quiet) ∧ (s.Takes who .SCH_LDCTL 0) ∧ (s.alive 4 = true)) ∧
    (∃ (s : State) (who : Initiator), (s.Quiet) ∧ (s.Takes who .SCH_LDCTL 0) ∧ (s.alive 4 = true)) ∧
    (∃ (s : State) (ld : Load), (s.Quiet) ∧ (s.sched.load = some ld)) ∧
    (∃ (s : State), (s.Quiet) ∧ (s.sched.load = none)) ∧
    (∃ (s : State) (b : Nat) (l : List Byte), (s.Quiet) ∧ (b < 2) ∧ (fieldAt l 0x10 2 < 2 ^ 16) ∧ (fieldAt l 0x12 2 < 2)) ∧
    (∃ (s : State) (c : Nat) (i : Nat) (j : Nat), (s.Quiet) ∧ (c < 256) ∧ (i < 2 ^ 13) ∧ (j < 2 ^ 12)) ∧
    (∃ (s : State) (who : Initiator), (s.Quiet) ∧ (s.Takes who .SCH_CTL 0) ∧ (s.alive 4 = true) ∧ (s.schPending = true)) ∧
    (∃ (s : State) (ld : Load), (s.Quiet) ∧ (s.sched.load = some ld)) :=
  ⟨⟨(((((State.reset.setRegN .PMU_DOMSTAT 0 0xFFFFF).setFld F.CLK_STAT_ENGLOCK 0 1).setFld F.PMU_MODE_CUR 0 5).setFld F.SCH_BANKA_VALID 0 1).setPair .SCH_ORIGINL .SCH_ORIGINH 0 64), (.sup 0), (false), (quiet_of (by decide +kernel)), (takes_of (by decide +kernel)), (by decide +kernel)⟩,
   ⟨(((((State.reset.setRegN .PMU_DOMSTAT 0 0xFFFFF).setFld F.CLK_STAT_ENGLOCK 0 1).setFld F.PMU_MODE_CUR 0 5).setFld F.SCH_BANKB_VALID 0 1).setPair .SCH_ORIGINL .SCH_ORIGINH 0 63), (.sup 0), (true), (quiet_of (by decide +kernel)), (takes_of (by decide +kernel)), (by decide +kernel)⟩,
   ⟨((((State.reset.setRegN .PMU_DOMSTAT 0 0xFFFFF).setFld F.CLK_STAT_ENGLOCK 0 1).setFld F.PMU_MODE_CUR 0 5).setPair .SCH_ORIGINL .SCH_ORIGINH 0 64), (.sup 0), (quiet_of (by decide +kernel)), (takes_of (by decide +kernel)), (by decide +kernel)⟩,
   ⟨((((((State.reset.setRegN .PMU_DOMSTAT 0 0xFFFFF).setFld F.CLK_STAT_ENGLOCK 0 1).setFld F.PMU_MODE_CUR 0 5).setFld F.SCH_BANKA_VALID 0 1).setFld F.SCH_BANKA_RACK 0 1).setPair .SCH_ORIGINL .SCH_ORIGINH 0 64), (.sup 0), (quiet_of (by decide +kernel)), (takes_of (by decide +kernel)), (by decide +kernel)⟩,
   ⟨((((((State.reset.setRegN .PMU_DOMSTAT 0 0xFFFFF).setFld F.CLK_STAT_ENGLOCK 0 1).setFld F.PMU_MODE_CUR 0 5).setFld F.SCH_BANKA_VALID 0 1).setFld F.SQ_EPOCH_SQEPOCH 63 2).setPair .SCH_ORIGINL .SCH_ORIGINH 0 64), (.sup 0), (quiet_of (by decide +kernel)), (takes_of (by decide +kernel)), (by decide +kernel)⟩,
   ⟨(up), (.sup 0), (quiet_of (by decide +kernel)), (takes_of (by decide +kernel)), (by decide +kernel)⟩,
   ⟨(((State.reset.setRegN .PMU_DOMSTAT 0 0xFFFFF).setFld F.CLK_STAT_ENGLOCK 0 1).setFld F.PMU_MODE_CUR 0 5), (.sup 0), (quiet_of (by decide +kernel)), (takes_of (by decide +kernel)), (by decide +kernel)⟩,
   ⟨(up.setFld F.SCH_STATUS_PENDING 0 1), (.sup 0), (quiet_of (by decide +kernel)), (takes_of (by decide +kernel)), (by decide +kernel)⟩,
   ⟨({ (up : State) with sched := { up.sched with pend := .start 0 5 } }.setFld F.SCH_STATUS_PENDING 0 1), (.sup 0), (quiet_of (by decide +kernel)), (takes_of (by decide +kernel)), (by decide +kernel)⟩,
   ⟨({ (up : State) with sched := { up.sched with pend := .start 0 4 } }.setFld F.SCH_STATUS_PENDING 0 1), (.sup 0), (quiet_of (by decide +kernel)), (takes_of (by decide +kernel)), (by decide +kernel)⟩,
   ⟨({ (up : State) with sched := { up.sched with pend := .switch 0 0 } }.setFld F.SCH_STATUS_PENDING 0 1), (.sup 0), (quiet_of (by decide +kernel)), (takes_of (by decide +kernel)), (by decide +kernel)⟩,
   ⟨({ (up : State) with sched := { up.sched with pend := .committed 0 9 } }.setFld F.SCH_STATUS_PENDING 0 1), (.sup 0), (quiet_of (by decide +kernel)), (takes_of (by decide +kernel)), (by decide +kernel)⟩,
   ⟨(up), (.sup 0), (quiet_of (by decide +kernel)), (takes_of (by decide +kernel)), (by decide +kernel)⟩,
   ⟨({ ((State.reset.setRegN .PMU_DOMSTAT 0 0xFFFFF).setFld F.CLK_STAT_ENGLOCK 0 1).setFld F.PMU_MODE_CUR 0 5 with sched := { State.reset.sched with pend := .start 1 100 } }), (1), (100), (quiet_of (by decide +kernel)), (by decide +kernel)⟩,
   ⟨(up), (quiet_of (by decide +kernel)), (by decide +kernel)⟩,
   ⟨({ ((State.reset.setRegN .PMU_DOMSTAT 0 0xFFFFF).setFld F.CLK_STAT_ENGLOCK 0 1).setFld F.PMU_MODE_CUR 0 5 with sched := { State.reset.sched with pend := .start 1 100 } }), (1), (quiet_of (by decide +kernel)), (by decide +kernel)⟩,
   ⟨((({ (up.setFld F.SCH_STATUS_RUNNING 0 1) with sched := { up.sched with pend := .switch 1 1000, origin := 1000 } } : State).setFld F.SCH_BANKB_VALID 0 1)), (1), (1000), (quiet_of (by decide +kernel)), (by decide +kernel)⟩,
   ⟨(({ (up.setFld F.SCH_STATUS_RUNNING 0 1) with sched := { up.sched with pend := .switch 0 1000, origin := 1000 } } : State)), (0), (1000), (quiet_of (by decide +kernel)), (by decide +kernel)⟩,
   ⟨(((({ (up.setFld F.SCH_STATUS_RUNNING 0 1) with sched := { up.sched with pend := .switch 1 1000, origin := 1000 } } : State).setFld F.SCH_BANKB_VALID 0 1).setFld F.SCH_BANKB_RACK 0 1)), (1), (1000), (quiet_of (by decide +kernel)), (by decide +kernel)⟩,
   ⟨(((({ (up.setFld F.SCH_STATUS_RUNNING 0 1) with sched := { up.sched with pend := .switch 1 1000, origin := 1000 } } : State).setFld F.SCH_BANKB_VALID 0 1).setFld F.SQ_EPOCH_SQEPOCH 63 2)), (1), (1000), (quiet_of (by decide +kernel)), (by decide +kernel)⟩,
   ⟨(({ (up.setFld F.SCH_STATUS_RUNNING 0 1) with sched := { up.sched with pend := .none, origin := 1000 } } : State)), (quiet_of (by decide +kernel)), (by decide +kernel)⟩,
   ⟨(({ (up.setFld F.SCH_STATUS_RUNNING 0 1) with sched := { up.sched with pend := .committed 1 2000, origin := 1000 } } : State)), (quiet_of (by decide +kernel)), (by decide +kernel)⟩,
   ⟨({ ({ (up.setFld F.SCH_STATUS_RUNNING 0 1) with sched := { up.sched with pend := .none, origin := 1000 } } : State) with modeReq := some 5 }), (quiet_of (by decide +kernel)), (by decide +kernel)⟩,
   ⟨(({ (up.setFld F.SCH_STATUS_RUNNING 0 1) with sched := { up.sched with pend := .switch 1 1000, origin := 1000 } } : State)), (quiet_of (by decide +kernel)), (by decide +kernel)⟩,
   ⟨(((State.reset.setRegN .PMU_DOMSTAT 0 0xFFFFF).setFld F.CLK_STAT_ENGLOCK 0 1).setFld F.PMU_MODE_CUR 0 5), (.sup 0), (quiet_of (by decide +kernel)), (takes_of (by decide +kernel)), (by decide +kernel)⟩,
   ⟨(up.setFld F.SCH_LDSTAT_BUSY 0 1), (.sup 0), (quiet_of (by decide +kernel)), (takes_of (by decide +kernel)), (by decide +kernel)⟩,
   ⟨({ up with sched := { up.sched with load := some ⟨0, 0, [], []⟩ } }), (.sup 0), (quiet_of (by decide +kernel)), (takes_of (by decide +kernel)), (by decide +kernel)⟩,
   ⟨(up), (.sup 0), (quiet_of (by decide +kernel)), (takes_of (by decide +kernel)), (by decide +kernel)⟩,
   ⟨({ up with rdc := some (.refresh 63) }), (.sup 0), (quiet_of (by decide +kernel)), (takes_of (by decide +kernel)), (by decide +kernel)⟩,
   ⟨({ up with sched := { up.sched with load := some ⟨0, 0, [], [(0, 7)]⟩ } }), (⟨0, 0, [], [(0, 7)]⟩), (quiet_of (by decide +kernel)), (by decide +kernel)⟩,
   ⟨(up), (quiet_of (by decide +kernel)), (by decide +kernel)⟩,
   ⟨(up), (1), (List.replicate 256 0), (quiet_of (by decide +kernel)), (by decide +kernel)⟩,
   ⟨(up), (255), (8191), (4095), (quiet_of (by decide +kernel)), (by decide +kernel)⟩,
   ⟨({ (up.schPend (.switch 1 0)) with now := 63, sched := { (up.schPend (.switch 1 0)).sched with origin := 0 } }), (.sup 0), (quiet_of (by decide +kernel)), (takes_of (by decide +kernel)), (by decide +kernel)⟩,
   ⟨({ up with sched := { up.sched with load := some ⟨0, 0, List.replicate 20 0 ++ [1, 0] ++ List.replicate 234 0 ++ [1, 63] ++ List.replicate 62 0, [(0, 7)]⟩ }, wipe := some ([12], false) }), (⟨0, 0, List.replicate 20 0 ++ [1, 0] ++ List.replicate 234 0 ++ [1, 63] ++ List.replicate 62 0, [(0, 7)]⟩), (quiet_of (by decide +kernel)), (by decide +kernel)⟩⟩

theorem witness_EdgeWrites :
    (∃ (s : State) (who : Initiator) (p : Fin 204) (code : Fin 6), (s.Quiet) ∧ (s.Takes who (epValueReg code.val) p.val) ∧ ((s.ep p.val).lanes.find? (fun x => x.1 == code.val && x.2.at_ == s.now) = none)) ∧
    (∃ (s : State) (who : Initiator) (p : Fin 204) (code : Fin 6), (s.Quiet) ∧ (s.Takes who (epValueReg code.val) p.val) ∧ ((s.ep p.val).lanes.find? (fun x => x.1 == code.val && x.2.at_ == s.now) = none)) ∧
    (∃ (s : State) (who : Initiator) (p : Fin 204) (code : Fin 6), (s.Quiet) ∧ (s.Takes who (epValueReg code.val) p.val) ∧ ((s.ep p.val).lanes.find? (fun x => x.1 == code.val && x.2.at_ == s.now) = none)) ∧
    (∃ (s : State) (who : Initiator) (p : Fin 204) (code : Fin 6), (s.Quiet) ∧ (s.Takes who (epValueReg code.val) p.val) ∧ ((s.ep p.val).lanes.find? (fun x => x.1 == code.val && x.2.at_ == s.now) = none)) ∧
    (∃ (s : State) (who : Initiator) (p : Fin 204) (code : Fin 6), (s.Quiet) ∧ (s.Takes who (epValueReg code.val) p.val) ∧ ((s.ep p.val).lanes.find? (fun x => x.1 == code.val && x.2.at_ == s.now) = none)) ∧
    (∃ (s : State) (e : Fin 512) (p : Fin 204) (code : Fin 6), (s.Quiet) ∧ (s.Takes (.lane e) (epValueReg code.val) p.val) ∧ ((s.flag F.EP_CTL_TT p.val = true → 3 ≤ code.val)) ∧ ((∃ x, (s.ep p.val).lanes.find? (fun x => x.1 == code.val && x.2.at_ == s.now) = some x ∧ x.2.eng < e.val))) ∧
    (∃ (s : State) (who : Initiator) (p : Fin 204), (s.Quiet) ∧ (s.Takes who .EP_ORIGINF p.val) ∧ ((s.ep p.val).lanes.find? (fun x => x.1 == 0x10 && x.2.at_ == s.now) = none) ∧ (s.flag F.EP_STAT_STARTED p.val = false) ∧ (s.flag F.EP_CTL_TT p.val = false)) ∧
    (∃ (s : State) (who : Initiator) (p : Fin 204), (s.Quiet) ∧ (s.Takes who .EP_ORIGINF p.val) ∧ ((s.ep p.val).lanes.find? (fun x => x.1 == 0x10 && x.2.at_ == s.now) = none) ∧ (s.flag F.EP_STAT_STARTED p.val = false) ∧ (s.flag F.EP_CTL_TT p.val = false)) ∧
    (∃ (s : State) (who : Initiator) (p : Fin 204), (s.Quiet) ∧ ((s.Takes who .EP_ORIGINL p.val ∧ s.Takes who .EP_ORIGINH p.val ∧ s.Takes who .EP_ORIGINF p.val)) ∧ ((s.ep p.val).lanes.find? (fun x => x.1 == 0x10 && x.2.at_ == s.now) = none)) ∧
    (∃ (s : State) (who : Initiator) (p : Fin 204), (s.Quiet) ∧ ((s.Takes who .EP_ORIGINL p.val ∧ s.Takes who .EP_ORIGINH p.val ∧ s.Takes who .EP_ORIGINF p.val)) ∧ ((s.ep p.val).lanes.find? (fun x => x.1 == 0x10 && x.2.at_ == s.now) = none)) ∧
    (∃ (s : State) (e : Fin 512) (n : Fin 192), let p := s.epPhys n.val; (s.Quiet) ∧ (s.slotInEpoch (e.val / 8) (s.physOf e.val) = true) ∧ (s.answers (0x400170000 + p * 0x100) = true) ∧ (s.planOwns 2 n.val = true)) ∧
    (∃ (s : State) (e : Fin 512) (n : Fin 192), let p := s.epPhys n.val; (s.Quiet) ∧ (s.slotInEpoch (e.val / 8) (s.physOf e.val) = true) ∧ (s.answers (0x400170000 + p * 0x100) = true) ∧ (s.planOwns 2 n.val = true)) ∧
    (∃ (s : State) (e : Fin 512), (s.Quiet) ∧ (s.slotInEpoch (e.val / 8) (s.physOf e.val) = false)) ∧
    (∃ (s : State) (who : Initiator) (p : Fin 204), (s.Quiet) ∧ (s.Takes who .EP_QPUSH p.val)) ∧
    (∃ (s : State) (p : Fin 204) (b : Bool) (push : Bool), let x := s.ep p.val; let key := (if b then 0x22 else 0x20) + if push then 4 else 0; (s.Quiet) ∧ (x.lanes.filter (fun y => raceMeets y.1 key && y.2.at_ == s.now) = [])) ∧
    (∃ (s : State) (p : Fin 204) (b : Bool) (push : Bool), let x := s.ep p.val; let key := (if b then 0x22 else 0x20) + if push then 4 else 0; (s.Quiet) ∧ (x.lanes.filter (fun y => raceMeets y.1 key && y.2.at_ == s.now) = [])) ∧
    (∃ (s : State) (who : Initiator) (p : Fin 204) (v : Word), let x := v.toNat; (s.Quiet) ∧ (s.Takes who .EP_CTL p.val) ∧ ((s.ep p.val).lanes.find? (fun x => x.1 == 0x30 && x.2.at_ == s.now) = none)) ∧
    (∃ (s : State) (who : Initiator) (p : Fin 204) (v : Word), let x := v.toNat; (s.Quiet) ∧ (s.Takes who .EP_CTL p.val) ∧ ((s.ep p.val).lanes.find? (fun x => x.1 == 0x30 && x.2.at_ == s.now) = none)) ∧
    (∃ (s : State) (who : Initiator) (p : Fin 204) (v : Word), let x := v.toNat; (s.Quiet) ∧ (s.Takes who .EP_CTL p.val) ∧ ((s.ep p.val).lanes.find? (fun x => x.1 == 0x30 && x.2.at_ == s.now) = none)) ∧
    (∃ (s : State) (who : Initiator) (p : Fin 204), (s.Quiet) ∧ (s.Takes who .EP_STAT p.val) ∧ ((s.ep p.val).lanes.find? (fun x => x.1 == 0x31 && x.2.at_ == s.now) = none)) ∧
    (∃ (s : State) (who : Initiator) (p : Fin 204), (s.Quiet) ∧ (s.Takes who .EP_STAT p.val) ∧ ((s.ep p.val).lanes.find? (fun x => x.1 == 0x31 && x.2.at_ == s.now) = none)) ∧
    (∃ (s : State) (who : Initiator) (g : Fin 12), (s.Quiet) ∧ (s.Takes who .EP_STEER g.val)) ∧
    (∃ (s : State) (who : Initiator) (g : Fin 12), (s.Quiet) ∧ (s.Takes who .EP_STEER g.val)) ∧
    (∃ (s : State) (who : Initiator) (g : Fin 12), (s.Quiet) ∧ (s.Takes who .EP_STEER g.val)) ∧
    (∃ (s : State) (who : Initiator) (g : Fin 12), (s.Quiet) ∧ (s.Takes who .EP_STEER g.val)) ∧
    (∃ (s : State) (p : Fin 204) (b : Bool) (push : Bool), let x := s.ep p.val; let key := (if b then 0x22 else 0x20) + if push then 4 else 0; (s.Quiet) ∧ (x.lanes.filter (fun y => raceMeets y.1 key && y.2.at_ == s.now) = [])) ∧
    (∃ (s : State) (p : Fin 204) (b : Bool) (push : Bool), let x := s.ep p.val; let key := (if b then 0x22 else 0x20) + if push then 4 else 0; (s.Quiet) ∧ (x.lanes.filter (fun y => raceMeets y.1 key && y.2.at_ == s.now) = [])) ∧
    (∃ (s : State) (p : Fin 204) (b : Bool) (push : Bool), let x := s.ep p.val; let key := (if b then 0x22 else 0x20) + if push then 4 else 0; (s.Quiet) ∧ (x.lanes.filter (fun y => raceMeets y.1 key && y.2.at_ == s.now) = [])) ∧
    (∃ (s : State) (p : Fin 204) (b : Bool) (push : Bool), let x := s.ep p.val; let key := (if b then 0x22 else 0x20) + if push then 4 else 0; (s.Quiet) ∧ (x.lanes.filter (fun y => raceMeets y.1 key && y.2.at_ == s.now) = [])) ∧
    (∃ (s : State) (p : Fin 204) (b : Bool) (push : Bool), let x := s.ep p.val; let key := (if b then 0x22 else 0x20) + if push then 4 else 0; (s.Quiet) ∧ (x.lanes.filter (fun y => raceMeets y.1 key && y.2.at_ == s.now) = [])) ∧
    (∃ (s : State) (who : Initiator) (p : Fin 204) (v : Word), let x := v.toNat; (s.Quiet) ∧ (s.Takes who .EP_CTL p.val) ∧ ((s.ep p.val).lanes.find? (fun x => x.1 == 0x30 && x.2.at_ == s.now) = none)) ∧
    (∃ (s : State) (who : Initiator) (p : Fin 204) (v : Word), let x := v.toNat; (s.Quiet) ∧ (s.Takes who .EP_CTL p.val) ∧ ((s.ep p.val).lanes.find? (fun x => x.1 == 0x30 && x.2.at_ == s.now) = none)) :=
  ⟨⟨((up.setFld F.EP_CTL_TT 203 1)), (.sup 0), (203), (2), (quiet_of (by decide +kernel)), (takes_of (by decide +kernel)), (by decide +kernel)⟩,
   ⟨((up.setFld F.EP_CTL_TT 203 1)), (.sup 0), (203), (3), (quiet_of (by decide +kernel)), (takes_of (by decide +kernel)), (by decide +kernel)⟩,
   ⟨(up), (.sup 0), (0), (0), (quiet_of (by decide +kernel)), (takes_of (by decide +kernel)), (by decide +kernel)⟩,
   ⟨(up), (.sup 0), (0), (5), (quiet_of (by decide +kernel)), (takes_of (by decide +kernel)), (by decide +kernel)⟩,
   ⟨((up.setFld F.EP_STAT_STARTED 0 1).modEp 0 (fun x => { x with per := 4, pstart := 128 })), (.sup 0), (0), (2), (quiet_of (by decide +kernel)), (takes_of (by decide +kernel)), (by decide +kernel)⟩,
   ⟨((owns 2 192).modEp 0 (fun x => { x with lanes := [(0, ⟨(owns 2 192).now, 3, [], 0, false, false, false, false, 0, 0, false, Outp.init, Outp.init⟩)] })), (4), (0), (0), (quiet_of (by decide +kernel)), (takes_of (by decide +kernel)), (by decide +kernel)⟩,
   ⟨(up), (.sup 0), (203), (quiet_of (by decide +kernel)), (takes_of (by decide +kernel)), (by decide +kernel)⟩,
   ⟨((up.setFld F.EP_CTL_ENABLE 0 1).setPair .EP_ORIGINL .EP_ORIGINH 0 7), (.sup 0), (0), (quiet_of (by decide +kernel)), (takes_of (by decide +kernel)), (by decide +kernel)⟩,
   ⟨((up.setFld F.EP_CTL_TT 203 1)), (.sup 0), (203), (quiet_of (by decide +kernel)), ⟨takes_of (by decide +kernel), takes_of (by decide +kernel), takes_of (by decide +kernel)⟩, (by decide +kernel)⟩,
   ⟨(up), (.sup 0), (203), (quiet_of (by decide +kernel)), ⟨takes_of (by decide +kernel), takes_of (by decide +kernel), takes_of (by decide +kernel)⟩, (by decide +kernel)⟩,
   ⟨((owns 2 192).setFld F.EP_CTL_TT 191 1), (0), (191), (quiet_of (by decide +kernel)), (by decide +kernel)⟩,
   ⟨((owns 2 192).setFld F.EP_CTL_TT 191 1), (511), (0), (quiet_of (by decide +kernel)), (by decide +kernel)⟩,
   ⟨(up.setPhys 63 7 { up.physEng 63 7 with epoch := 9 }), (511), (quiet_of (by decide +kernel)), (by decide +kernel)⟩,
   ⟨((up.setFld F.EP_CTL_TT 203 1)), (.sup 0), (203), (quiet_of (by decide +kernel)), (takes_of (by decide +kernel))⟩,
   ⟨((up.setFld F.EP_CTL_TT 203 1)), (203), (false), (false), (quiet_of (by decide +kernel)), (by decide +kernel)⟩,
   ⟨((up.setFld F.EP_CTL_TT 203 1)), (203), (false), (true), (quiet_of (by decide +kernel)), (by decide +kernel)⟩,
   ⟨(up), (.sup 0), (203), (3), (quiet_of (by decide +kernel)), (takes_of (by decide +kernel)), (by decide +kernel)⟩,
   ⟨(up.setFld F.EP_CTL_ENABLE 0 1), (.sup 0), (0), (5), (quiet_of (by decide +kernel)), (takes_of (by decide +kernel)), (by decide +kernel)⟩,
   ⟨(up.setFld F.EP_CTL_ENABLE 0 1), (.sup 0), (0), (4), (quiet_of (by decide +kernel)), (takes_of (by decide +kernel)), (by decide +kernel)⟩,
   ⟨(up.setFld F.EP_STAT_RBFAULT 203 1), (.sup 0), (203), (quiet_of (by decide +kernel)), (takes_of (by decide +kernel)), (by decide +kernel)⟩,
   ⟨(up), (.sup 0), (0), (quiet_of (by decide +kernel)), (takes_of (by decide +kernel)), (by decide +kernel)⟩,
   ⟨(up), (.sup 0), (11), (quiet_of (by decide +kernel)), (takes_of (by decide +kernel))⟩,
   ⟨(up.setFld F.EP_STEER_ACTIVE 11 1), (.sup 0), (11), (quiet_of (by decide +kernel)), (takes_of (by decide +kernel))⟩,
   ⟨(up), (.sup 0), (0), (quiet_of (by decide +kernel)), (takes_of (by decide +kernel))⟩,
   ⟨((up.setFld F.PMU_MODE_CUR 0 5).setFld F.EP_STEER_ACTIVE 11 1), (.sup 0), (11), (quiet_of (by decide +kernel)), (takes_of (by decide +kernel))⟩,
   ⟨(up), (203), (false), (true), (quiet_of (by decide +kernel)), (by decide +kernel)⟩,
   ⟨((up.setFld F.EP_CTL_TT 203 1).setFld F.EP_STAT_TRIPPED 203 1), (203), (true), (true), (quiet_of (by decide +kernel)), (by decide +kernel)⟩,
   ⟨((up.setFld F.EP_CTL_TT 203 1).modEp 203 (fun x => x.setOutp false { x.outp false with queue := List.replicate 16 ⟨5, true, 0⟩ })), (203), (false), (true), (quiet_of (by decide +kernel)), (by decide +kernel)⟩,
   ⟨((up.setFld F.EP_CTL_TT 203 1).modEp 203 (fun x => x.setOutp false { x.outp false with queue := [⟨99999, true, 0⟩] })), (203), (false), (true), (quiet_of (by decide +kernel)), (by decide +kernel)⟩,
   ⟨((up.setFld F.EP_CTL_TT 203 1).modEp 203 (fun x => x.setOutp false { x.outp false with queue := [⟨99488, true, 0⟩] })), (203), (false), (true), (quiet_of (by decide +kernel)), (by decide +kernel)⟩,
   ⟨(up), (.sup 0), (203), (2), (quiet_of (by decide +kernel)), (takes_of (by decide +kernel)), (by decide +kernel)⟩,
   ⟨(up.setFld F.EP_CTL_ENABLE 0 1), (.sup 0), (0), (0), (quiet_of (by decide +kernel)), (takes_of (by decide +kernel)), (by decide +kernel)⟩⟩

theorem witness_EdgeTimes :
    (∃ (s : State) (p : Fin 204) (at_ : Nat), (s.Quiet) ∧ (s.engClock = true) ∧ (s.epNextLoad p.val = some at_) ∧ (s.flag F.EP_CTL_ENABLE p.val = true)) ∧
    (∃ (s : State) (p : Fin 204) (at_ : Nat), (s.Quiet) ∧ (s.engClock = true) ∧ (s.epNextLoad p.val = some at_) ∧ (s.flag F.EP_CTL_ENABLE p.val = true)) ∧
    (∃ (s : State), (s.Quiet) ∧ (s.engClock = true)) ∧
    (∃ (s : State) (p : Fin 204), let x := s.ep p.val; let half := x.per * 128; let c := compareAt x.dutyA x.per; (s.Quiet) ∧ (s.flag F.EP_STAT_STARTED p.val = true) ∧ (s.flag F.EP_CTL_UPDN p.val = false) ∧ (x.a.phase = 0) ∧ (0 < c) ∧ (c < half)) ∧
    (∃ (s : State) (p : Fin 204) (b : Bool) (q : QEdge) (rest : List QEdge), (s.Quiet) ∧ (s.engClock = true) ∧ (s.flag F.EP_CTL_TT p.val = true) ∧ (((s.ep p.val).outp b).queue = q :: rest)) ∧
    (∃ (s : State) (p : Fin 204) (b : Bool) (q : QEdge) (rest : List QEdge), (s.Quiet) ∧ (s.engClock = true) ∧ (s.flag F.EP_CTL_TT p.val = true) ∧ (((s.ep p.val).outp b).queue = q :: rest)) ∧
    (∃ (s : State), (s.Quiet)) ∧
    (∃ (s : State), (s.Quiet)) ∧
    (∃ (s : State) (p : Fin 204) (b : Bool) (q : QEdge) (rest : List QEdge), (s.Quiet) ∧ (s.engClock = true) ∧ (s.flag F.EP_CTL_TT p.val = true) ∧ (((s.ep p.val).outp b).queue = q :: rest)) ∧
    (∃ (s : State) (p : Fin 204) (b : Bool) (q : QEdge) (rest : List QEdge), (s.Quiet) ∧ (s.engClock = true) ∧ (s.flag F.EP_CTL_TT p.val = true) ∧ (((s.ep p.val).outp b).queue = q :: rest)) :=
  ⟨⟨((((up.setFld F.EP_STAT_STARTED 0 1).setFld F.EP_CTL_ENABLE 0 1).modEp 0 (fun x => { x with per := 16, pstart := 128, dutyA := 2 ^ 30, dutyB := 2 ^ 30 }))), (0), (2176), (quiet_of (by decide +kernel)), (by decide +kernel)⟩,
   ⟨((((up.setFld F.EP_STAT_STARTED 200 1).setFld F.EP_CTL_ENABLE 200 1).modEp 200 (fun x => { x with per := 16, pstart := 128, dutyA := 2 ^ 30, dutyB := 2 ^ 30 }))), (200), (2176), (quiet_of (by decide +kernel)), (by decide +kernel)⟩,
   ⟨(up), (quiet_of (by decide +kernel)), (by decide +kernel)⟩,
   ⟨((((up.setFld F.EP_STAT_STARTED 0 1).setFld F.EP_CTL_ENABLE 0 1).modEp 0 (fun x => { x with per := 16, pstart := 128, dutyA := 2 ^ 30, dutyB := 2 ^ 30 }))), (0), (quiet_of (by decide +kernel)), (by decide +kernel)⟩,
   ⟨((up.setFld F.EP_CTL_TT 0 1).modEp 0 (fun x => { x with b := { x.b with queue := [⟨1000, true, 0⟩] } })), (0), (true), (⟨1000, true, 0⟩), ([]), (quiet_of (by decide +kernel)), (by decide +kernel)⟩,
   ⟨((up.setFld F.EP_CTL_TT 203 1).modEp 203 (fun x => { x with a := { x.a with queue := [⟨1000, true, 0⟩] }, termAt := 8 })), (203), (false), (⟨1000, true, 0⟩), ([]), (quiet_of (by decide +kernel)), (by decide +kernel)⟩,
   ⟨((up.setFld F.EP_STEER_ACTIVE 11 1).setFld F.EP_STEER_BUSY 11 1), (quiet_of (by decide +kernel))⟩,
   ⟨(up), (quiet_of (by decide +kernel))⟩,
   ⟨((up.setFld F.EP_CTL_TT 0 1).modEp 0 (fun x => { x with a := { x.a with queue := [⟨1000, true, 0⟩] } })), (0), (false), (⟨1000, true, 0⟩), ([]), (quiet_of (by decide +kernel)), (by decide +kernel)⟩,
   ⟨((up.setFld F.EP_CTL_TT 203 1).modEp 203 (fun x => { x with a := { x.a with queue := [⟨1000, true, 0⟩] } })), (203), (false), (⟨1000, true, 0⟩), ([]), (quiet_of (by decide +kernel)), (by decide +kernel)⟩⟩

theorem witness_Converters :
    (∃ (s : State) (who : Initiator) (c : Fin 64), let old := s.regN .CV_CTL c.val; (s.Quiet) ∧ (s.Takes who .CV_CTL c.val) ∧ (bits 2 1 old ≠ 3)) ∧
    (∃ (s : State) (who : Initiator) (c : Fin 64), let old := s.regN .CV_CTL c.val; (s.Quiet) ∧ (s.Takes who .CV_CTL c.val) ∧ (bits 2 1 old ≠ 3)) ∧
    (∃ (s : State) (who : Initiator) (c : Fin 64), let old := s.regN .CV_CTL c.val; (s.Quiet) ∧ (s.Takes who .CV_CTL c.val) ∧ (bits 2 1 old ≠ 3)) ∧
    (∃ (s : State) (c : Fin 64), (s.Quiet) ∧ (s.alive (cvDom c.val) = true) ∧ (s.flag F.CV_CTL_EN c.val = true)) ∧
    (∃ (s : State) (c : Fin 64), (s.Quiet) ∧ (s.alive (cvDom c.val) = true) ∧ (s.flag F.CV_CTL_EN c.val = true)) ∧
    (∃ (s : State) (c : Fin 64), (s.Quiet) ∧ (s.alive (cvDom c.val) = true) ∧ (s.flag F.CV_CTL_EN c.val = true)) ∧
    (∃ (s : State) (c : Fin 64), (s.Quiet) ∧ (s.alive (cvDom c.val) = true) ∧ (s.flag F.CV_CTL_EN c.val = true)) ∧
    (∃ (s : State) (who : Initiator) (c : Fin 64), (s.Quiet) ∧ (s.Takes who .CV_TRIGF c.val)) ∧
    (∃ (s : State) (who : Initiator) (c : Fin 64), (s.Quiet) ∧ (s.Takes who .CV_TRIGF c.val)) ∧
    (∃ (s : State) (who : Initiator) (c : Fin 64), (s.Quiet) ∧ (s.Takes who .CV_TRIGF c.val)) ∧
    (∃ (s : State) (who : Initiator) (c : Fin 64), (s.Quiet) ∧ (s.Takes who .CV_CTL c.val) ∧ (s.flag F.CV_CTL_ARM c.val = false)) ∧
    (∃ (s : State), (s.Quiet) ∧ (s.engClock = true)) ∧
    (∃ (s : State), (s.Quiet) ∧ (s.engClock = true)) ∧
    (∃ (s : State), (s.Quiet) ∧ (s.engClock = true)) ∧
    (∃ (s : State) (c : Fin 64) (inst : Nat) (cause : Option Lineage), let x := s.conv c.val; (s.Quiet) ∧ (s.engClock = true) ∧ (x.pend = some (inst, cause))) ∧
    (∃ (s : State) (c : Fin 64) (inst : Nat) (cause : Option Lineage), let x := s.conv c.val; (s.Quiet) ∧ (s.engClock = true) ∧ (x.pend = some (inst, cause))) ∧
    (∃ (s : State) (c : Fin 64) (i : Nat) (y : Scan), let x := s.conv c.val; (s.Quiet) ∧ (s.engClock = true) ∧ (s.meas = none) ∧ (x.toDeliver = some i) ∧ (x.scans[i]? = some y)) ∧
    (∃ (s : State) (c : Fin 64) (i : Nat) (y : Scan), let x := s.conv c.val; (s.Quiet) ∧ (s.engClock = true) ∧ (s.meas = none) ∧ (x.toDeliver = some i) ∧ (x.scans[i]? = some y)) ∧
    (∃ (s : State) (c : Fin 64) (i : Nat) (y : Scan), let x := s.conv c.val; (s.Quiet) ∧ (s.engClock = true) ∧ (s.meas = none) ∧ (x.toDeliver = some i) ∧ (x.scans[i]? = some y)) ∧
    (∃ (s : State) (c : Fin 64) (y : Scan), let x := s.conv c.val; (s.Quiet) ∧ (s.engClock = true) ∧ (x.running = some y)) ∧
    (∃ (s : State) (c : Fin 64) (y : Scan), let x := s.conv c.val; (s.Quiet) ∧ (s.engClock = true) ∧ (x.running = some y)) ∧
    (∃ (s : State) (c : Fin 64) (y : Scan), let x := s.conv c.val; (s.Quiet) ∧ (s.engClock = true) ∧ (x.running = some y)) ∧
    (∃ (s : State) (c : Fin 64) (y : Scan), let x := s.conv c.val; (s.Quiet) ∧ (s.engClock = true) ∧ (x.running = some y)) ∧
    (∃ (s : State) (c : Fin 64) (y : Scan), let x := s.conv c.val; (s.Quiet) ∧ (x.running = some y) ∧ (y.hand = true) ∧ (y.comp < y.srcs.length)) ∧
    (∃ (s : State) (c : Fin 64) (y : Scan), let x := s.conv c.val; (s.Quiet) ∧ (x.running = some y) ∧ (y.hand = true) ∧ (y.comp < y.srcs.length)) ∧
    (∃ (s : State), (s.Quiet)) ∧
    (∃ (s : State), (s.Quiet)) ∧
    (∃ (s : State), (s.Quiet)) ∧
    (∃ (s : State), (s.Quiet)) ∧
    (∃ (s : State), (s.Quiet)) ∧
    (∃ (s : State), (s.Quiet)) :=
  ⟨⟨(((up.setFld F.CV_CTL_EN 0 1).setFld F.CV_ROTSTAT_CALDONE 0 1)), (.sup 0), (0), (quiet_of (by decide +kernel)), (takes_of (by decide +kernel)), (by decide +kernel)⟩,
   ⟨(up.setFld F.CV_CTL_ARM 63 1), (.sup 0), (63), (quiet_of (by decide +kernel)), (takes_of (by decide +kernel)), (by decide +kernel)⟩,
   ⟨((((up.setFld F.CV_CTL_EN 0 1).setFld F.CV_ROTSTAT_CALDONE 0 1)).setFld F.CV_CTL_ARM 0 1), (.sup 0), (0), (quiet_of (by decide +kernel)), (takes_of (by decide +kernel)), (by decide +kernel)⟩,
   ⟨(((up.setFld F.CV_CTL_EN 0 1).setFld F.CV_ROTSTAT_CALDONE 0 1)), (0), (quiet_of (by decide +kernel)), (by decide +kernel)⟩,
   ⟨(((up.setFld F.CV_CTL_EN 0 1).setFld F.CV_ROTSTAT_CALDONE 0 1).setConv 0 { up.conv 0 with pend := some (1280, none) }), (0), (quiet_of (by decide +kernel)), (by decide +kernel)⟩,
   ⟨(up.setFld F.CV_CTL_EN 63 1), (63), (quiet_of (by decide +kernel)), (by decide +kernel)⟩,
   ⟨((((up.setFld F.CV_CTL_EN 0 1).setFld F.CV_ROTSTAT_CALDONE 0 1).setConv 0 { up.conv 0 with scans := [(⟨1280, [0, 3], 50, 0, 0, 0, 0, 0, 0, false, 0, [], [], 0, [], false, none⟩ : Scan)] })), (0), (quiet_of (by decide +kernel)), (by decide +kernel)⟩,
   ⟨(up.setPair .CV_TRIGL .CV_TRIGH 0 8), (.sup 0), (0), (quiet_of (by decide +kernel)), (takes_of (by decide +kernel))⟩,
   ⟨(up.setPair .CV_TRIGL .CV_TRIGH 0 7), (.sup 0), (0), (quiet_of (by decide +kernel)), (takes_of (by decide +kernel))⟩,
   ⟨(up.setRegN .CV_TPER 0 3), (.sup 0), (0), (quiet_of (by decide +kernel)), (takes_of (by decide +kernel))⟩,
   ⟨(up), (.sup 0), (0), (quiet_of (by decide +kernel)), (takes_of (by decide +kernel)), (by decide +kernel)⟩,
   ⟨(((((up.setFld F.CV_CTL_EN 0 1).setFld F.CV_ROTSTAT_CALDONE 0 1)).setFld F.CV_CTL_ARM 0 1).setFld F.CV_CTL_TRIGSEL 0 1), (quiet_of (by decide +kernel)), (by decide +kernel)⟩,
   ⟨((((up.setFld F.CV_CTL_EN 0 1).setFld F.CV_ROTSTAT_CALDONE 0 1)).setFld F.CV_CTL_ARM 0 1), (quiet_of (by decide +kernel)), (by decide +kernel)⟩,
   ⟨(up), (quiet_of (by decide +kernel)), (by decide +kernel)⟩,
   ⟨(((up.setFld F.CV_CTL_EN 0 1).setFld F.CV_ROTSTAT_CALDONE 0 1).setConv 0 { up.conv 0 with pend := some (1280, none) }), (0), (1280), (none), (quiet_of (by decide +kernel)), (by decide +kernel)⟩,
   ⟨((((up.setFld F.CV_CTL_EN 0 1).setFld F.CV_ROTSTAT_CALDONE 0 1).setConv 0 { up.conv 0 with pend := some (1280, none) }).setFld F.CV_SCAN_MASK 0 0x801), (0), (1280), (none), (quiet_of (by decide +kernel)), (by decide +kernel)⟩,
   ⟨((((up.setFld F.CV_CTL_EN 0 1).setFld F.CV_ROTSTAT_CALDONE 0 1).setConv 0 { up.conv 0 with scans := [(⟨1280, [0, 3], 50, 0, 0, 0, 0, 0, 0, false, 0, [], [], 0, [], false, none⟩ : Scan)] })), (0), (0), ((⟨1280, [0, 3], 50, 0, 0, 0, 0, 0, 0, false, 0, [], [], 0, [], false, none⟩ : Scan)), (quiet_of (by decide +kernel)), (by decide +kernel)⟩,
   ⟨((((up.setFld F.CV_CTL_EN 0 1).setFld F.CV_ROTSTAT_CALDONE 0 1).setConv 0 { up.conv 0 with scans := [{ (⟨1280, [0, 3], 50, 0, 0, 0, 0, 0, 0, false, 0, [], [], 0, [], false, none⟩ : Scan) with done := 1 }] })), (0), (0), ({ (⟨1280, [0, 3], 50, 0, 0, 0, 0, 0, 0, false, 0, [], [], 0, [], false, none⟩ : Scan) with done := 1 }), (quiet_of (by decide +kernel)), (by decide +kernel)⟩,
   ⟨((((up.setFld F.CV_CTL_EN 0 1).setFld F.CV_ROTSTAT_CALDONE 0 1).setConv 0 { up.conv 0 with scans := [{ (⟨1280, [0, 3], 50, 0, 0, 0, 0, 0, 0, false, 0, [], [], 0, [], false, none⟩ : Scan) with done := 1, ended := true, codes := [3, 4], seqs := [9] }] })), (0), (0), ({ (⟨1280, [0, 3], 50, 0, 0, 0, 0, 0, 0, false, 0, [], [], 0, [], false, none⟩ : Scan) with done := 1, ended := true, codes := [3, 4], seqs := [9] }), (quiet_of (by decide +kernel)), (by decide +kernel)⟩,
   ⟨((((up.setFld F.CV_CTL_EN 0 1).setFld F.CV_ROTSTAT_CALDONE 0 1).setConv 0 { up.conv 0 with scans := [(⟨1280, [0, 3], 50, 0, 0, 0, 0, 0, 0, false, 0, [], [], 0, [], false, none⟩ : Scan)] })), (0), ((⟨1280, [0, 3], 50, 0, 0, 0, 0, 0, 0, false, 0, [], [], 0, [], false, none⟩ : Scan)), (quiet_of (by decide +kernel)), (by decide +kernel)⟩,
   ⟨((((up.setFld F.CV_CTL_EN 0 1).setFld F.CV_ROTSTAT_CALDONE 0 1).setConv 0 { up.conv 0 with scans := [(⟨1280, [0, 3], 50, 0, 0, 0, 0, 0, 0, true, 1, [], [], 2, [], false, none⟩ : Scan)] })), (0), ((⟨1280, [0, 3], 50, 0, 0, 0, 0, 0, 0, true, 1, [], [], 2, [], false, none⟩ : Scan)), (quiet_of (by decide +kernel)), (by decide +kernel)⟩,
   ⟨((((up.setFld F.CV_CTL_EN 0 1).setFld F.CV_ROTSTAT_CALDONE 0 1).setConv 0 { up.conv 0 with scans := [(⟨1280, [0, 3], 50, 0, 0, 0, 0, 0, 0, true, 1, [], [], 2, [1], false, none⟩ : Scan)] })), (0), ((⟨1280, [0, 3], 50, 0, 0, 0, 0, 0, 0, true, 1, [], [], 2, [1], false, none⟩ : Scan)), (quiet_of (by decide +kernel)), (by decide +kernel)⟩,
   ⟨((((up.setFld F.CV_CTL_EN 0 1).setFld F.CV_ROTSTAT_CALDONE 0 1).setConv 0 { up.conv 0 with scans := [(⟨1280, [0, 3], 50, 0, 0, 0, 0, 0, 0, true, 1, [], [], 2, [0], false, none⟩ : Scan)] }).setRot 0 ⟨none, some 5, true⟩), (0), ((⟨1280, [0, 3], 50, 0, 0, 0, 0, 0, 0, true, 1, [], [], 2, [0], false, none⟩ : Scan)), (quiet_of (by decide +kernel)), (by decide +kernel)⟩,
   ⟨((((up.setFld F.CV_CTL_EN 0 1).setFld F.CV_ROTSTAT_CALDONE 0 1).setConv 0 { up.conv 0 with scans := [(⟨1280, [0, 3], 50, 0, 0, 0, 0, 0, 0, true, 1, [], [], 0, [], false, none⟩ : Scan)] })), (0), ((⟨1280, [0, 3], 50, 0, 0, 0, 0, 0, 0, true, 1, [], [], 0, [], false, none⟩ : Scan)), (quiet_of (by decide +kernel)), (by decide +kernel)⟩,
   ⟨((((up.setFld F.CV_CTL_EN 0 1).setFld F.CV_ROTSTAT_CALDONE 0 1).setConv 0 { up.conv 0 with scans := [(⟨1280, [0, 3], 50, 0, 0, 0, 0, 0, 0, true, 1, [], [], 0, [1], false, none⟩ : Scan)] })), (0), ((⟨1280, [0, 3], 50, 0, 0, 0, 0, 0, 0, true, 1, [], [], 0, [1], false, none⟩ : Scan)), (quiet_of (by decide +kernel)), (by decide +kernel)⟩,
   ⟨(up.setFld F.SL_STAT_STATE 71 1), (quiet_of (by decide +kernel))⟩,
   ⟨((up.setFld F.SL_STAT_STATE 62 0).setFld F.SL_STAT_STATE 71 1), (quiet_of (by decide +kernel))⟩,
   ⟨(up.setFld F.SL_STAT_STATE 0 2), (quiet_of (by decide +kernel))⟩,
   ⟨(up.setFld F.SL_STAT_STATE 0 1), (quiet_of (by decide +kernel))⟩,
   ⟨(up.setFld F.SL_STAT_STATE 5 1), (quiet_of (by decide +kernel))⟩,
   ⟨(((List.range 9).foldl (fun (s : State) i => s.setFld F.SL_STAT_STATE (63 + i) 0) up).setFld F.SL_STAT_STATE 71 1), (quiet_of (by decide +kernel))⟩⟩

theorem witness_Trips :
    (∃ (s : State) (c : Fin 204), (s.Quiet) ∧ (s.alive (cmpDom c.val) = true) ∧ (s.flag F.CMP_CTL_EN c.val = true)) ∧
    (∃ (s : State) (c : Fin 204), (s.Quiet) ∧ (s.alive (cmpDom c.val) = true) ∧ (s.flag F.CMP_CTL_EN c.val = true)) ∧
    (∃ (s : State) (c : Fin 204), (s.Quiet) ∧ (s.alive (cmpDom c.val) = true) ∧ (s.flag F.CMP_CTL_EN c.val = true)) ∧
    (∃ (s : State) (c : Fin 204), (s.Quiet) ∧ (s.alive (cmpDom c.val) = true) ∧ (s.flag F.CMP_CTL_EN c.val = true)) ∧
    (∃ (s : State) (c : Fin 204), (s.Quiet) ∧ (s.alive (cmpDom c.val) = true) ∧ (s.flag F.CMP_STAT_RAW c.val = true)) ∧
    (∃ (s : State), (s.Quiet) ∧ (s.engClock = true)) ∧
    (∃ (s : State) (c : Fin 204), (s.Quiet) ∧ (s.flag F.CMP_CTL_EN c.val = true) ∧ ((s.cmp c.val).blank = none)) ∧
    (∃ (s : State) (c : Fin 204), (s.Quiet) ∧ (s.flag F.CMP_CTL_EN c.val = true) ∧ ((s.cmp c.val).blank = none)) ∧
    (∃ (s : State) (c : Fin 204), (s.Quiet) ∧ (s.flag F.CMP_CTL_EN c.val = true) ∧ ((s.cmp c.val).blank = none)) ∧
    (∃ (s : State) (c : Fin 204), (s.Quiet) ∧ (s.flag F.CMP_CTL_EN c.val = true) ∧ ((s.cmp c.val).blank = none)) ∧
    (∃ (s : State) (who : Initiator) (g : Fin 12), (s.Quiet) ∧ (s.Takes who .CMP_STEER g.val)) ∧
    (∃ (s : State) (who : Initiator) (g : Fin 12), (s.Quiet) ∧ (s.Takes who .CMP_STEER g.val)) ∧
    (∃ (s : State) (who : Initiator) (g : Fin 12), (s.Quiet) ∧ (s.Takes who .CMP_STEER g.val)) ∧
    (∃ (s : State) (who : Initiator) (g : Fin 12), (s.Quiet) ∧ (s.Takes who .CMP_STEER g.val)) ∧
    (∃ (s : State) (who : Initiator) (g : Fin 12), (s.Quiet) ∧ (s.Takes who .CMP_STEER g.val)) ∧
    (∃ (s : State), (s.Quiet)) ∧
    (∃ (s : State), (s.Quiet)) ∧
    (∃ (s : State), (s.Quiet)) ∧
    (∃ (s : State), (s.Quiet)) ∧
    (∃ (s : State), (s.Quiet)) ∧
    (∃ (s : State), (s.Quiet)) ∧
    (∃ (s : State) (who : Initiator) (k : Fin 64), (s.Quiet) ∧ (s.Takes who (if k.val < 32 then .FLT_RELL else .FLT_RELH) 0)) ∧
    (∃ (s : State) (who : Initiator) (k : Fin 64), (s.Quiet) ∧ (s.Takes who (if k.val < 32 then .FLT_RELL else .FLT_RELH) 0)) ∧
    (∃ (s : State) (who : Initiator) (k : Fin 64), (s.Quiet) ∧ (s.Takes who (if k.val < 32 then .FLT_RELL else .FLT_RELH) 0)) ∧
    (∃ (s : State), (s.Quiet) ∧ (s.engClock = true)) ∧
    (∃ (s : State) (who : Initiator), let late (n : Nat) := if s.fltFresh n s.now && s.flag F.FLT_SRCE_ACTIVE n then s.srcRoute n (s.now + 1) else none; (s.Quiet) ∧ (s.Takes who .FLT_SWTRIP 0) ∧ (s.alive 16 = true) ∧ (late 386 = none)) ∧
    (∃ (s : State) (who : Initiator), let late (n : Nat) := if s.fltFresh n s.now && s.flag F.FLT_SRCE_ACTIVE n then s.srcRoute n (s.now + 1) else none; (s.Quiet) ∧ (s.Takes who .FLT_SWTRIP 0) ∧ (s.alive 16 = true) ∧ (late 386 = none)) ∧
    (∃ (s : State), let a := 0x400040004; (s.Quiet) ∧ (s.answers a = true) ∧ (s.alive 16 = true)) ∧
    (∃ (s : State), let a := 0x400040004; (s.Quiet) ∧ (s.answers a = true) ∧ (s.alive 16 = true)) ∧
    (∃ (s : State) (c : Fin 204), (s.Quiet) ∧ (s.flag F.CMP_CTL_EN c.val = true) ∧ ((s.cmp c.val).blank = none)) ∧
    (∃ (s : State), let a := 0x400040004; (s.Quiet) ∧ (s.answers a = true) ∧ (s.alive 16 = true)) ∧
    (∃ (s : State), let a := 0x400040004; (s.Quiet) ∧ (s.answers a = true) ∧ (s.alive 16 = true)) :=
  ⟨⟨((up.setFld F.CMP_CTL_EN 0 1).setCmp 0 ⟨100, 50, none, none, [], [], none, none, 0⟩), (0), (quiet_of (by decide +kernel)), (by decide +kernel)⟩,
   ⟨((((up.setFld F.CMP_CTL_EN 203 1)).setFld F.CMP_CTL_MODE 203 3).setCmp 203 ⟨50, 50, none, none, [], [], none, none, 0⟩), (203), (quiet_of (by decide +kernel)), (by decide +kernel)⟩,
   ⟨(((((up.setFld F.CMP_CTL_EN 203 1)).setFld F.CMP_CTL_MODE 203 3).setFld F.CMP_STAT_RAW 203 1).setCmp 203 ⟨50, 50, none, none, [], [], none, none, 0⟩), (203), (quiet_of (by decide +kernel)), (by decide +kernel)⟩,
   ⟨((((up.setFld F.CMP_CTL_EN 203 1)).setFld F.CMP_CTL_MODE 203 2).setCmp 203 ⟨100, 50, none, none, [], [], none, none, 0⟩), (203), (quiet_of (by decide +kernel)), (by decide +kernel)⟩,
   ⟨((((up.setFld F.CMP_CTL_EN 0 1)).setFld F.CMP_STAT_RAW 0 1).setCmp 0 ⟨100, 50, none, none, [], [], none, none, 0⟩), (0), (quiet_of (by decide +kernel)), (by decide +kernel)⟩,
   ⟨(up), (quiet_of (by decide +kernel)), (by decide +kernel)⟩,
   ⟨((up.setFld F.CMP_CTL_EN 203 1)), (203), (quiet_of (by decide +kernel)), (by decide +kernel)⟩,
   ⟨(((up.setFld F.CMP_CTL_EN 192 1)).setFld F.CMP_STAT_OUT 192 1), (192), (quiet_of (by decide +kernel)), (by decide +kernel)⟩,
   ⟨((up.setFld F.CMP_CTL_EN 0 1)), (0), (quiet_of (by decide +kernel)), (by decide +kernel)⟩,
   ⟨(((up.setFld F.CMP_CTL_EN 191 1)).setFld F.CMP_STAT_OUT 191 1), (191), (quiet_of (by decide +kernel)), (by decide +kernel)⟩,
   ⟨(up), (.sup 0), (11), (quiet_of (by decide +kernel)), (takes_of (by decide +kernel))⟩,
   ⟨((up.setFld F.CMP_CTL_EN 203 1)), (.sup 0), (11), (quiet_of (by decide +kernel)), (takes_of (by decide +kernel))⟩,
   ⟨(up), (.sup 0), (0), (quiet_of (by decide +kernel)), (takes_of (by decide +kernel))⟩,
   ⟨((((State.reset.setRegN .PMU_DOMSTAT 0 0xFFFFF).setFld F.CLK_STAT_ENGLOCK 0 1).setFld F.PMU_MODE_CUR 0 5).setFld F.CMP_CTL_EN 203 1), (.sup 0), (11), (quiet_of (by decide +kernel)), (takes_of (by decide +kernel))⟩,
   ⟨((((State.reset.setRegN .PMU_DOMSTAT 0 0xFFFFF).setFld F.CLK_STAT_ENGLOCK 0 1).setFld F.PMU_MODE_CUR 0 5).setFld F.CMP_STEER_ACTIVE 11 1), (.sup 0), (11), (quiet_of (by decide +kernel)), (takes_of (by decide +kernel))⟩,
   ⟨(up.setFld F.CMP_STEER_BUSY 11 1), (quiet_of (by decide +kernel))⟩,
   ⟨(((up.setFld F.FLT_SRCE_EN 3 1).setFld F.FLT_SRCE_ACTIVE 3 1)), (quiet_of (by decide +kernel))⟩,
   ⟨(((up.setFld F.FLT_SRCE_EN 3 1).setFld F.FLT_SRCE_ACTIVE 3 1).setFld F.FLT_NETE_TRIPPED 0 1), (quiet_of (by decide +kernel))⟩,
   ⟨(up), (quiet_of (by decide +kernel))⟩,
   ⟨({ ((up.setFld F.FLT_SRCE_EN 3 1).setFld F.FLT_SRCE_ACTIVE 3 1).setFld F.FLT_SRCE_NET 3 63 with fltWas := [(3, some (0, 1))] }), (quiet_of (by decide +kernel))⟩,
   ⟨({ ((up.setFld F.FLT_SRCE_EN 3 1).setFld F.FLT_SRCE_ACTIVE 3 1).setFld F.FLT_SRCE_NET 3 63 with fltWas := [(3, some (0, 0))] }), (quiet_of (by decide +kernel))⟩,
   ⟨(up.setFld F.FLT_NETE_TRIPPED 63 1), (.sup 0), (63), (quiet_of (by decide +kernel)), (takes_of (by decide +kernel))⟩,
   ⟨(((up.setFld F.FLT_SRCE_EN 3 1).setFld F.FLT_SRCE_ACTIVE 3 1).setFld F.FLT_NETE_TRIPPED 0 1), (.sup 0), (0), (quiet_of (by decide +kernel)), (takes_of (by decide +kernel))⟩,
   ⟨(up), (.sup 0), (31), (quiet_of (by decide +kernel)), (takes_of (by decide +kernel))⟩,
   ⟨((up.setFld F.FLT_NETE_TRIPPED 63 1).setFld F.FLT_NETE_MODE 63 1), (quiet_of (by decide +kernel)), (by decide +kernel)⟩,
   ⟨(up), (.sup 0), (quiet_of (by decide +kernel)), (takes_of (by decide +kernel)), (by decide +kernel)⟩,
   ⟨(up.setFld F.FLT_SRCE_EN 386 1), (.sup 0), (quiet_of (by decide +kernel)), (takes_of (by decide +kernel)), (by decide +kernel)⟩,
   ⟨((((State.reset.setRegN .PMU_DOMSTAT 0 0xFFFFF).setFld F.CLK_STAT_ENGLOCK 0 1).setFld F.PMU_MODE_CUR 0 5)), (quiet_of (by decide +kernel)), (by decide +kernel)⟩,
   ⟨(up), (quiet_of (by decide +kernel)), (by decide +kernel)⟩,
   ⟨(((up.setFld F.CMP_CTL_EN 203 1)).setFld F.CMP_STAT_OUT 203 1), (203), (quiet_of (by decide +kernel)), (by decide +kernel)⟩,
   ⟨(((((State.reset.setRegN .PMU_DOMSTAT 0 0xFFFFF).setFld F.CLK_STAT_ENGLOCK 0 1).setFld F.PMU_MODE_CUR 0 5)).setFld F.FLT_SRCE_ACTIVE 3 1), (quiet_of (by decide +kernel)), (by decide +kernel)⟩,
   ⟨(((((State.reset.setRegN .PMU_DOMSTAT 0 0xFFFFF).setFld F.CLK_STAT_ENGLOCK 0 1).setFld F.PMU_MODE_CUR 0 5)).setFld F.FLT_SRCE_ACTIVE 387 1), (quiet_of (by decide +kernel)), (by decide +kernel)⟩⟩

theorem witness_Sensing :
    (∃ (s : State), (s.Quiet) ∧ (s.engClock = true)) ∧
    (∃ (s : State), (s.Quiet) ∧ (s.engClock = true)) ∧
    (∃ (s : State), (s.Quiet) ∧ (s.engClock = true)) ∧
    (∃ (s : State), (s.Quiet)) ∧
    (∃ (s : State), (s.Quiet)) ∧
    (∃ (s : State) (p : Fin 24), (s.Quiet) ∧ (s.alive 17 = true) ∧ (s.flag F.POS_CTL_EN p.val = true) ∧ (s.fld F.POS_CTL_MODE p.val < 2)) ∧
    (∃ (s : State) (p : Fin 24), (s.Quiet) ∧ (s.alive 17 = true) ∧ (s.flag F.POS_CTL_EN p.val = true) ∧ (s.fld F.POS_CTL_MODE p.val < 2)) ∧
    (∃ (s : State) (p : Nat), (s.Quiet) ∧ (s.alive 17 = false ∨ s.flag F.POS_CTL_EN p = false ∨ 2 ≤ s.fld F.POS_CTL_MODE p)) ∧
    (∃ (s : State), (s.Quiet) ∧ (s.engClock = true)) ∧
    (∃ (s : State), (s.Quiet) ∧ (s.engClock = true)) ∧
    (∃ (s : State) (p : Fin 24) (f : Nat) (cause : Option Lineage) (later : List (Nat × Option Lineage)), (s.Quiet) ∧ (s.engClock = true) ∧ ((s.pos p.val).frames = (f, cause) :: later)) ∧
    (∃ (s : State) (p : Fin 24) (f : Nat) (cause : Option Lineage) (later : List (Nat × Option Lineage)), (s.Quiet) ∧ (s.engClock = true) ∧ ((s.pos p.val).frames = (f, cause) :: later)) ∧
    (∃ (s : State) (r : Nat), (s.Quiet) ∧ (0 < r)) ∧
    (∃ (s : State), (s.Quiet) ∧ (s.engClock = true)) ∧
    (∃ (s : State) (who : Initiator) (p : Fin 24), (s.Quiet) ∧ (s.Takes who .POS_COUNT p.val)) ∧
    (∃ (s : State) (who : Initiator) (p : Fin 24), (s.Quiet) ∧ (s.Takes who .POS_COUNT p.val)) ∧
    (∃ (s : State) (who : Initiator) (p : Fin 24), (s.Quiet) ∧ (s.Takes who .POS_COUNT p.val)) ∧
    (∃ (s : State) (who : Initiator) (d : BitVec 12) (i : Fin 8) (v : Word), let n := d.toNat; let x := v.toNat; (s.Quiet) ∧ (s.answers 0x400020004 = true) ∧ (s.regMay who.agent (lodWord i.val) n = true) ∧ (s.lodRefused n i.val x = false)) ∧
    (∃ (s : State) (who : Initiator) (d : BitVec 12) (i : Fin 8) (v : Word), let n := d.toNat; let x := v.toNat; (s.Quiet) ∧ (s.answers 0x400020004 = true) ∧ (s.regMay who.agent (lodWord i.val) n = true) ∧ (s.lodRefused n i.val x = false)) ∧
    (∃ (s : State) (who : Initiator) (d : BitVec 12) (i : Fin 8) (v : Word), let n := d.toNat; let x := v.toNat; (s.Quiet) ∧ (s.answers 0x400020004 = true) ∧ (s.regMay who.agent (lodWord i.val) n = true) ∧ (s.lodRefused n i.val x = false)) ∧
    (∃ (s : State) (who : Initiator) (d : BitVec 12) (i : Fin 8) (v : Word), let n := d.toNat; let x := v.toNat; (s.Quiet) ∧ (s.answers 0x400020004 = true) ∧ (s.regMay who.agent (lodWord i.val) n = true) ∧ (s.lodRefused n i.val x = false)) ∧
    (∃ (s : State) (who : Initiator) (d : BitVec 12) (i : Fin 8) (v : Word), let n := d.toNat; let x := v.toNat; (s.Quiet) ∧ (s.answers 0x400020004 = true) ∧ (s.regMay who.agent (lodWord i.val) n = true) ∧ (s.lodRefused n i.val x = false)) ∧
    (∃ (s : State) (who : Initiator) (d : BitVec 12) (i : Fin 8) (v : Word), let n := d.toNat; let x := v.toNat; (s.Quiet) ∧ (s.answers 0x400020004 = true) ∧ (s.regMay who.agent (lodWord i.val) n = true) ∧ (s.lodRefused n i.val x = false)) ∧
    (∃ (s : State) (who : Initiator) (d : BitVec 12) (i : Fin 8) (v : Word), let n := d.toNat; let x := v.toNat; (s.Quiet) ∧ (s.answers 0x400020004 = true) ∧ (s.regMay who.agent (lodWord i.val) n = true) ∧ (s.lodRefused n i.val x = false)) ∧
    (∃ (s : State) (who : Initiator) (d : BitVec 12) (i : Fin 8) (v : Word), let n := d.toNat; let x := v.toNat; (s.Quiet) ∧ (s.answers 0x400020004 = true) ∧ (s.regMay who.agent (lodWord i.val) n = true) ∧ (s.lodRefused n i.val x = false)) ∧
    (∃ (s : State) (who : Initiator) (d : BitVec 12), let n := d.toNat; let old := s.regN .LOD_W0 n; let x := setBits 17 1 1 old; let ok := lodCheck ((x &&& 0xFF1F) :: (s.lodWords n).tail) = true; (s.Quiet) ∧ (s.answers 0x400020004 = true) ∧ (s.regMay who.agent .LOD_W0 n = true) ∧ (s.lodRefused n 0 x = false) ∧ ((bits 2 0 x = 0 ∨ ok))) ∧
    (∃ (s : State) (who : Initiator) (d : BitVec 12), let n := d.toNat; let old := s.regN .LOD_W0 n; let x := setBits 17 1 1 old; let ok := lodCheck ((x &&& 0xFF1F) :: (s.lodWords n).tail) = true; (s.Quiet) ∧ (s.answers 0x400020004 = true) ∧ (s.regMay who.agent .LOD_W0 n = true) ∧ (s.lodRefused n 0 x = false) ∧ ((bits 2 0 x = 0 ∨ ok))) ∧
    (∃ (s : State) (who : Initiator) (d : BitVec 12), let n := d.toNat; let old := s.regN .LOD_W0 n; let x := setBits 17 1 1 old; let ok := lodCheck ((x &&& 0xFF1F) :: (s.lodWords n).tail) = true; (s.Quiet) ∧ (s.answers 0x400020004 = true) ∧ (s.regMay who.agent .LOD_W0 n = true) ∧ (s.lodRefused n 0 x = false) ∧ ((bits 2 0 x = 0 ∨ ok))) ∧
    (∃ (s : State) (who : Initiator) (i : BitVec 8), let n := i.toNat; (s.Quiet) ∧ (s.answers 0x400030004 = true) ∧ (s.regMay who.agent .EVF_CDATA n = true)) ∧
    (∃ (s : State) (who : Initiator) (i : BitVec 8), let n := i.toNat; (s.Quiet) ∧ (s.answers 0x400030004 = true) ∧ (s.regMay who.agent .EVF_CDATA n = true)) ∧
    (∃ (s : State) (who : Initiator) (i : BitVec 8), let n := i.toNat; (s.Quiet) ∧ (s.answers 0x400030004 = true) ∧ (s.regMay who.agent .EVF_CDATA n = true)) ∧
    (∃ (s : State) (who : Initiator) (i : BitVec 8), let n := i.toNat; (s.Quiet) ∧ (s.answers 0x400030004 = true) ∧ (s.regMay who.agent .EVF_CDATA n = true)) ∧
    (∃ (s : State) (who : Initiator) (d : BitVec 12), let n := d.toNat; let old := s.regN .LOD_W0 n; let x := setBits 17 1 1 old; let ok := lodCheck ((x &&& 0xFF1F) :: (s.lodWords n).tail) = true; (s.Quiet) ∧ (s.answers 0x400020004 = true) ∧ (s.regMay who.agent .LOD_W0 n = true) ∧ (s.lodRefused n 0 x = false) ∧ ((bits 2 0 x = 0 ∨ ok))) ∧
    (∃ (s : State) (who : Initiator) (i : BitVec 8), let n := i.toNat; (s.Quiet) ∧ (s.answers 0x400030004 = true) ∧ (s.regMay who.agent .EVF_CDATA n = true)) :=
  ⟨⟨(((up.setFld F.SDI_CTL_EN 0 1).setFld F.SDI_CLK_CEN 0 1).setSdi 0 { up.sdi 0 with count := 3 }), (quiet_of (by decide +kernel)), (by decide +kernel)⟩,
   ⟨(((up.setFld F.SDI_CTL_EN 0 1).setFld F.SDI_CLK_CEN 0 1).setSdi 0 { up.sdi 0 with count := 2 }), (quiet_of (by decide +kernel)), (by decide +kernel)⟩,
   ⟨(up), (quiet_of (by decide +kernel)), (by decide +kernel)⟩,
   ⟨({ (((((up.setFld F.SDI_CTL_EN 0 1).setFld F.SDI_CLK_CEN 0 1).setFld F.SDI_STUCK_STUCKN 0 10).setFld F.SDI_CTL_FTEN 0 1).setFld F.SDI_FTRIP_FHIEN 0 1).setFld F.SDI_FTRIP_FHI 0 4 with now := 100000 }), (quiet_of (by decide +kernel))⟩,
   ⟨({ (((((up.setFld F.SDI_CTL_EN 0 1).setFld F.SDI_CLK_CEN 0 1).setFld F.SDI_STAT_FT 0 1).setFld F.SDI_CTL_FTEN 0 1).setFld F.SDI_FTRIP_FHIEN 0 1).setFld F.SDI_FTRIP_FHI 0 4 with now := 100000 }), (quiet_of (by decide +kernel))⟩,
   ⟨((up.setFld F.POS_CTL_EN 23 1)), (23), (quiet_of (by decide +kernel)), (by decide +kernel)⟩,
   ⟨((up.setFld F.POS_CTL_EN 23 1).setPos 23 { up.pos 23 with accs := [(0, 1)] }), (23), (quiet_of (by decide +kernel)), (by decide +kernel)⟩,
   ⟨(up), (23), (quiet_of (by decide +kernel)), (by decide +kernel)⟩,
   ⟨(((up.setFld F.POS_CTL_EN 0 1).setFld F.POS_CTL_MODE 0 2).setRegN .POS_SSIPER 0 1000), (quiet_of (by decide +kernel)), (by decide +kernel)⟩,
   ⟨((((up.setFld F.POS_CTL_EN 0 1).setFld F.POS_CTL_MODE 0 2).setRegN .POS_SSIPER 0 100).setPos 0 { up.pos 0 with prevF := some 99 }), (quiet_of (by decide +kernel)), (by decide +kernel)⟩,
   ⟨(((up.setFld F.POS_CTL_EN 0 1).setFld F.POS_CTL_MODE 0 2).setPos 0 { up.pos 0 with frames := [(500, none)] }), (0), (500), (none), ([]), (quiet_of (by decide +kernel)), (by decide +kernel)⟩,
   ⟨(up.setPos 0 { up.pos 0 with frames := [(500, none)] }), (0), (500), (none), ([]), (quiet_of (by decide +kernel)), (by decide +kernel)⟩,
   ⟨(up), (4), (quiet_of (by decide +kernel)), (by decide +kernel)⟩,
   ⟨((up.setFld F.POS_CTL_EN 23 1)), (quiet_of (by decide +kernel)), (by decide +kernel)⟩,
   ⟨(((up.setFld F.POS_CTL_EN 0 1).setFld F.POS_CTL_MODE 0 2)), (.sup 0), (0), (quiet_of (by decide +kernel)), (takes_of (by decide +kernel))⟩,
   ⟨(up), (.sup 0), (23), (quiet_of (by decide +kernel)), (takes_of (by decide +kernel))⟩,
   ⟨(up.setPos 23 { up.pos 23 with moved := some ⟨0, some false, false, 4, 0, 0, 0⟩ }), (.sup 0), (23), (quiet_of (by decide +kernel)), (takes_of (by decide +kernel))⟩,
   ⟨(up), (.sup 0), (4095), (7), (0xFFFFFFFF), (quiet_of (by decide +kernel)), (by decide +kernel)⟩,
   ⟨(up), (.sup 0), (4095), (3), (0xFFFFFFFF), (quiet_of (by decide +kernel)), (by decide +kernel)⟩,
   ⟨(up), (.sup 0), (4095), (1), (0xFFFFFFFF), (quiet_of (by decide +kernel)), (by decide +kernel)⟩,
   ⟨(up), (.sup 0), (4095), (0), (0), (quiet_of (by decide +kernel)), (by decide +kernel)⟩,
   ⟨(up), (.sup 0), (4095), (0), (7), (quiet_of (by decide +kernel)), (by decide +kernel)⟩,
   ⟨(up), (.sup 0), (4095), (0), (0x20000), (quiet_of (by decide +kernel)), (by decide +kernel)⟩,
   ⟨(up), (.sup 0), (4095), (0), (0x20007), (quiet_of (by decide +kernel)), (by decide +kernel)⟩,
   ⟨(up.setFld F.LOD_W0_KIND 0 1), (.sup 0), (0), (1), (5), (quiet_of (by decide +kernel)), (by decide +kernel)⟩,
   ⟨(up), (.sup 0), (4095), (quiet_of (by decide +kernel)), (by decide +kernel)⟩,
   ⟨(((((up.setRegN .LOD_W0 0 1).setRegN .LOD_W2 0 256).setRegN .LOD_W3 0 2).setRegN .LOD_W7 0 1)), (.sup 0), (0), (quiet_of (by decide +kernel)), (by decide +kernel)⟩,
   ⟨((((((up.setFld F.SCH_STATUS_RUNNING 0 1).setRegN .LOD_W0 0 1).setRegN .LOD_W2 0 256).setRegN .LOD_W3 0 2).setRegN .LOD_W7 0 1)), (.sup 0), (0), (quiet_of (by decide +kernel)), (by decide +kernel)⟩,
   ⟨(up), (.sup 0), (247), (quiet_of (by decide +kernel)), (by decide +kernel)⟩,
   ⟨(up), (.sup 0), (248), (quiet_of (by decide +kernel)), (by decide +kernel)⟩,
   ⟨(owns 8 1024), (.sup 0), (200), (quiet_of (by decide +kernel)), (by decide +kernel)⟩,
   ⟨(owns 8 0), (.sup 0), (200), (quiet_of (by decide +kernel)), (by decide +kernel)⟩,
   ⟨((((((up.setRegN .LOD_W0 0 1).setFld F.LOD_W0_FLIP 0 1).setRegN .LOD_W2 0 256).setRegN .LOD_W3 0 2).setRegN .LOD_W7 0 1)), (.sup 0), (0), (quiet_of (by decide +kernel)), (by decide +kernel)⟩,
   ⟨(owns 8 1), (.sup 0), (200), (quiet_of (by decide +kernel)), (by decide +kernel)⟩⟩

theorem witness_DriverLinks :
    (∃ (s : State) (who : Initiator) (d : Fin 64), (s.Quiet) ∧ (s.Takes who .DLK_CTL d.val)) ∧
    (∃ (s : State) (who : Initiator) (d : Fin 64), (s.Quiet) ∧ (s.Takes who .DLK_CTL d.val)) ∧
    (∃ (s : State) (who : Initiator) (d : Fin 64), (s.Quiet) ∧ (s.Takes who .DLK_CTL d.val)) ∧
    (∃ (s : State) (who : Initiator) (d : Fin 64), (s.Quiet) ∧ (s.Takes who .DLK_CTL d.val)) ∧
    (∃ (s : State) (who : Initiator) (d : Fin 64), (s.Quiet) ∧ (s.Takes who .DLK_CTL d.val)) ∧
    (∃ (s : State) (st : Nat), (s.Quiet) ∧ (st < 5)) ∧
    (∃ (s : State), (s.Quiet) ∧ (s.alive 17 = true)) ∧
    (∃ (s : State), (s.Quiet) ∧ (s.alive 17 = true)) ∧
    (∃ (s : State), (s.Quiet) ∧ (s.alive 17 = true)) ∧
    (∃ (s : State), (s.Quiet) ∧ (s.alive 17 = true)) ∧
    (∃ (s : State), (s.Quiet) ∧ (s.alive 17 = true)) ∧
    (∃ (s : State) (d : Fin 64), let st := s.fld F.DLK_STAT_STATE d.val; (s.Quiet) ∧ (s.alive 17 = true) ∧ (st ≠ 0)) ∧
    (∃ (s : State) (d : Fin 64), let st := s.fld F.DLK_STAT_STATE d.val; (s.Quiet) ∧ (s.alive 17 = true) ∧ (st ≠ 0)) ∧
    (∃ (s : State) (d : Fin 64) (tag : Nat) (t1 : Nat), let x := s.dlk d.val; (s.Quiet) ∧ (x.echo.find? (fun y => y.1 == tag) = some (tag, t1))) ∧
    (∃ (s : State) (d : Fin 64) (tag : Nat) (t1 : Nat), let x := s.dlk d.val; (s.Quiet) ∧ (x.echo.find? (fun y => y.1 == tag) = some (tag, t1))) ∧
    (∃ (s : State) (d : Fin 64), (s.Quiet) ∧ (s.alive 17 = true) ∧ (s.fld F.DLK_STAT_STATE d.val ≠ 0)) ∧
    (∃ (s : State) (d : Fin 64), (s.Quiet) ∧ (s.alive 17 = true) ∧ (s.fld F.DLK_STAT_STATE d.val ≠ 0)) ∧
    (∃ (s : State) (now_ : Nat) (low : Nat), (s.Quiet) ∧ (low < 2 ^ 24) ∧ (2 ^ 24 ≤ now_)) ∧
    (∃ (s : State) (now_ : Nat) (low : Nat), (s.Quiet) ∧ (low < 2 ^ 24) ∧ (2 ^ 24 ≤ now_)) ∧
    (∃ (s : State), (s.Quiet) ∧ (s.alive 17 = true)) ∧
    (∃ (s : State), (s.Quiet) ∧ (s.alive 17 = true)) ∧
    (∃ (s : State), (s.Quiet) ∧ (s.alive 17 = true)) ∧
    (∃ (s : State) (d : Fin 64) (t : Nat) (e : LinkEdge) (second : Option LinkEdge), (s.Quiet) ∧ (s.engClock = true) ∧ (s.alive 17 = true) ∧ (s.fld F.DLK_STAT_STATE d.val = 3) ∧ (s.nextEdgeFrame d.val = some (t, e, second))) ∧
    (∃ (s : State), (s.Quiet) ∧ (s.engClock = true)) ∧
    (∃ (s : State) (d : Nat), (s.Quiet) ∧ (s.alive 17 = true) ∧ (s.fld F.DLK_STAT_STATE d ≠ 0) ∧ ((s.dlk d).tx = none)) ∧
    (∃ (s : State) (n : Nat) (d : Nat), (s.Quiet) ∧ (s.epLink n = some d)) ∧
    (∃ (s : State) (d : Fin 64) (lv : Nat) (r : Nat) (rest : List (Nat × Nat)), (s.Quiet) ∧ (s.engClock = true) ∧ ((s.dlk d.val).flush = (lv, r) :: rest) ∧ (s.alive 17 = true) ∧ (s.fld F.DLK_STAT_STATE d.val = 3)) ∧
    (∃ (s : State) (d : Fin 64) (lv : Nat) (r : Nat) (rest : List (Nat × Nat)), (s.Quiet) ∧ (s.engClock = true) ∧ ((s.dlk d.val).flush = (lv, r) :: rest) ∧ (s.alive 17 = true) ∧ (s.fld F.DLK_STAT_STATE d.val = 3)) ∧
    (∃ (s : State) (d : Fin 64) (r : Nat) (k : Bool) (rest : List (Bool × Nat)), (s.Quiet) ∧ (s.engClock = true) ∧ ((s.dlk d.val).trips = (k, r) :: rest) ∧ (s.alive 17 = true) ∧ (3 ≤ s.fld F.DLK_STAT_STATE d.val)) ∧
    (∃ (s : State) (d : Fin 64) (r : Nat) (k : Bool) (rest : List (Bool × Nat)), (s.Quiet) ∧ (s.engClock = true) ∧ ((s.dlk d.val).trips = (k, r) :: rest) ∧ (s.alive 17 = true) ∧ (3 ≤ s.fld F.DLK_STAT_STATE d.val)) ∧
    (∃ (s : State) (d : Fin 64) (r : Nat), (s.Quiet) ∧ (s.engClock = true) ∧ ((s.dlk d.val).hb = some r) ∧ (s.alive 17 = true) ∧ ((s.fld F.DLK_STAT_STATE d.val = 2 ∨ s.fld F.DLK_STAT_STATE d.val = 3))) ∧
    (∃ (s : State) (d : Fin 64) (r : Nat), (s.Quiet) ∧ (s.engClock = true) ∧ ((s.dlk d.val).hb = some r) ∧ (s.alive 17 = true) ∧ ((s.fld F.DLK_STAT_STATE d.val = 2 ∨ s.fld F.DLK_STAT_STATE d.val = 3))) ∧
    (∃ (s : State), (s.Quiet) ∧ (s.alive 17 = true)) ∧
    (∃ (s : State), (s.Quiet) ∧ (s.alive 17 = true)) ∧
    (∃ (s : State) (d : Fin 64) (tag : Nat) (t1 : Nat), let x := s.dlk d.val; (s.Quiet) ∧ (x.echo.find? (fun y => y.1 == tag) = some (tag, t1))) ∧
    (∃ (s : State) (d : Fin 64) (tag : Nat) (t1 : Nat), let x := s.dlk d.val; (s.Quiet) ∧ (x.echo.find? (fun y => y.1 == tag) = some (tag, t1))) ∧
    (∃ (s : State) (d : Fin 64) (tag : Nat) (t1 : Nat), let x := s.dlk d.val; (s.Quiet) ∧ (x.echo.find? (fun y => y.1 == tag) = some (tag, t1))) ∧
    (∃ (s : State) (d : Fin 64) (t : Nat) (e : LinkEdge) (second : Option LinkEdge), (s.Quiet) ∧ (s.engClock = true) ∧ (s.alive 17 = true) ∧ (s.fld F.DLK_STAT_STATE d.val = 3) ∧ (s.nextEdgeFrame d.val = some (t, e, second))) ∧
    (∃ (s : State) (d : Fin 64) (t : Nat) (e : LinkEdge) (second : Option LinkEdge), (s.Quiet) ∧ (s.engClock = true) ∧ (s.alive 17 = true) ∧ (s.fld F.DLK_STAT_STATE d.val = 3) ∧ (s.nextEdgeFrame d.val = some (t, e, second))) ∧
    (∃ (s : State) (d : Fin 64) (t : Nat) (e : LinkEdge) (second : Option LinkEdge), (s.Quiet) ∧ (s.engClock = true) ∧ (s.alive 17 = true) ∧ (s.fld F.DLK_STAT_STATE d.val = 3) ∧ (s.nextEdgeFrame d.val = some (t, e, second))) :=
  ⟨⟨((State.reset.setRegN .PMU_DOMSTAT 0 0xFFFFF).setFld F.CLK_STAT_ENGLOCK 0 1), (.sup 0), (63), (quiet_of (by decide +kernel)), (takes_of (by decide +kernel))⟩,
   ⟨(((State.reset.setRegN .PMU_DOMSTAT 0 0xFFFFF).setFld F.CLK_STAT_ENGLOCK 0 1).setRegN .DLK_CTL 0 1), (.sup 0), (0), (quiet_of (by decide +kernel)), (takes_of (by decide +kernel))⟩,
   ⟨((((State.reset.setRegN .PMU_DOMSTAT 0 0xFFFFF).setFld F.CLK_STAT_ENGLOCK 0 1).setRegN .DLK_CTL 0 1).setFld F.DLK_STAT_STATE 0 3), (.sup 0), (0), (quiet_of (by decide +kernel)), (takes_of (by decide +kernel))⟩,
   ⟨(up), (.sup 0), (0), (quiet_of (by decide +kernel)), (takes_of (by decide +kernel))⟩,
   ⟨((State.reset.setRegN .PMU_DOMSTAT 0 0xFFFFF).setFld F.CLK_STAT_ENGLOCK 0 1), (.sup 0), (0), (quiet_of (by decide +kernel)), (takes_of (by decide +kernel))⟩,
   ⟨(up), (0), (quiet_of (by decide +kernel)), (by decide +kernel)⟩,
   ⟨(((up.setFld F.DLK_CTL_EN 63 1).setFld F.DLK_STAT_STATE 63 1)), (quiet_of (by decide +kernel)), (by decide +kernel)⟩,
   ⟨(((up.setFld F.DLK_CTL_EN 63 1).setFld F.DLK_STAT_STATE 63 2)), (quiet_of (by decide +kernel)), (by decide +kernel)⟩,
   ⟨(((up.setFld F.DLK_CTL_EN 63 1).setFld F.DLK_STAT_STATE 63 3)), (quiet_of (by decide +kernel)), (by decide +kernel)⟩,
   ⟨(((up.setFld F.DLK_CTL_EN 63 1).setFld F.DLK_STAT_STATE 63 0)), (quiet_of (by decide +kernel)), (by decide +kernel)⟩,
   ⟨(((up.setFld F.DLK_CTL_EN 63 1).setFld F.DLK_STAT_STATE 63 4).setFld F.DLK_CTL_AUTO 63 1), (quiet_of (by decide +kernel)), (by decide +kernel)⟩,
   ⟨(((up.setFld F.DLK_CTL_EN 63 1).setFld F.DLK_STAT_STATE 63 3)), (63), (quiet_of (by decide +kernel)), (by decide +kernel)⟩,
   ⟨(((up.setFld F.DLK_CTL_EN 63 1).setFld F.DLK_STAT_STATE 63 2)), (63), (quiet_of (by decide +kernel)), (by decide +kernel)⟩,
   ⟨((((up.setFld F.DLK_CTL_EN 63 1).setFld F.DLK_STAT_STATE 63 2)).modDlk 63 (fun x => { x with echo := [(7, 100)] })), (63), (7), (100), (quiet_of (by decide +kernel)), (by decide +kernel)⟩,
   ⟨((((up.setFld F.DLK_CTL_EN 63 1).setFld F.DLK_STAT_STATE 63 2)).modDlk 63 (fun x => { x with echo := [(7, 100)], meas := List.replicate 15 40 })), (63), (7), (100), (quiet_of (by decide +kernel)), (by decide +kernel)⟩,
   ⟨(((up.setFld F.DLK_CTL_EN 63 1).setFld F.DLK_STAT_STATE 63 3)), (63), (quiet_of (by decide +kernel)), (by decide +kernel)⟩,
   ⟨(((up.setFld F.DLK_CTL_EN 63 1).setFld F.DLK_STAT_STATE 63 4).setFld F.DLK_FAULT_VALID 63 1), (63), (quiet_of (by decide +kernel)), (by decide +kernel)⟩,
   ⟨(up), (0x1000000), (0xFFFFFF), (quiet_of (by decide +kernel)), (by decide +kernel)⟩,
   ⟨(up), (0x1000005), (5), (quiet_of (by decide +kernel)), (by decide +kernel)⟩,
   ⟨(((up.setFld F.DLK_CTL_EN 63 1).setFld F.DLK_STAT_STATE 63 4)), (quiet_of (by decide +kernel)), (by decide +kernel)⟩,
   ⟨((((up.setFld F.DLK_CTL_EN 63 1).setFld F.DLK_STAT_STATE 63 3)).modDlk 63 (fun x => { x with hb := some 9 })), (quiet_of (by decide +kernel)), (by decide +kernel)⟩,
   ⟨((((up.setFld F.DLK_CTL_EN 63 1).setFld F.DLK_STAT_STATE 63 3)).modDlk 63 (fun x => { x with tx := some ⟨5, 100000, 0, 1⟩ })), (quiet_of (by decide +kernel)), (by decide +kernel)⟩,
   ⟨(((((((up.setFld F.DLK_CTL_EN 63 1).setFld F.DLK_STAT_STATE 63 3).setFld F.DLK_CTL_BIND 63 1).setFld F.EP_CTL_ENABLE 0 1).setFld F.EP_CTL_TT 0 1).modEp 0 (fun x => { x with a := { x.a with queue := [⟨100000, true, 0⟩] } }))), (63), (5), (⟨200000, true, 1⟩), (none), (quiet_of (by decide +kernel)), (by decide +kernel)⟩,
   ⟨(up), (quiet_of (by decide +kernel)), (by decide +kernel)⟩,
   ⟨(((up.setFld F.DLK_CTL_EN 63 1).setFld F.DLK_STAT_STATE 63 3)), (63), (quiet_of (by decide +kernel)), (by decide +kernel)⟩,
   ⟨(((((up.setFld F.DLK_CTL_EN 63 1).setFld F.DLK_STAT_STATE 63 3).setFld F.DLK_CTL_BIND 63 1).setFld F.DLK_CTL_PAIR 63 7)), (7), (63), (quiet_of (by decide +kernel)), (by decide +kernel)⟩,
   ⟨((((up.setFld F.DLK_CTL_EN 63 1).setFld F.DLK_STAT_STATE 63 3)).modDlk 63 (fun x => { x with flush := [(3, 1152)] })), (63), (3), (1152), ([]), (quiet_of (by decide +kernel)), (by decide +kernel)⟩,
   ⟨((((up.setFld F.DLK_CTL_EN 63 1).setFld F.DLK_STAT_STATE 63 3)).modDlk 63 (fun x => { x with flush := [(3, 1152)], trips := [(true, 10)] })), (63), (3), (1152), ([]), (quiet_of (by decide +kernel)), (by decide +kernel)⟩,
   ⟨((((up.setFld F.DLK_CTL_EN 63 1).setFld F.DLK_STAT_STATE 63 3)).modDlk 63 (fun x => { x with trips := [(true, 10), (false, 11)] })), (63), (10), (true), ([(false, 11)]), (quiet_of (by decide +kernel)), (by decide +kernel)⟩,
   ⟨((((up.setFld F.DLK_CTL_EN 63 1).setFld F.DLK_STAT_STATE 63 4)).modDlk 63 (fun x => { x with trips := [(false, 10)] })), (63), (10), (false), ([]), (quiet_of (by decide +kernel)), (by decide +kernel)⟩,
   ⟨((((up.setFld F.DLK_CTL_EN 63 1).setFld F.DLK_STAT_STATE 63 2)).modDlk 63 (fun x => { x with hb := some 7, tag := 255 })), (63), (7), (quiet_of (by decide +kernel)), (by decide +kernel)⟩,
   ⟨((((up.setFld F.DLK_CTL_EN 63 1).setFld F.DLK_STAT_STATE 63 3)).modDlk 63 (fun x => { x with hb := some 7, trips := [(true, 10)] })), (63), (7), (quiet_of (by decide +kernel)), (by decide +kernel)⟩,
   ⟨((((up.setFld F.DLK_CTL_EN 63 1).setFld F.DLK_STAT_STATE 63 1)).modDlk 63 (fun x => { x with dreq := true })), (quiet_of (by decide +kernel)), (by decide +kernel)⟩,
   ⟨(up), (quiet_of (by decide +kernel)), (by decide +kernel)⟩,
   ⟨((((up.setFld F.DLK_CTL_EN 63 1).setFld F.DLK_STAT_STATE 63 2)).modDlk 63 (fun x => { x with echo := [(7, 100)], meas := List.replicate 15 40960 })), (63), (7), (100), (quiet_of (by decide +kernel)), (by decide +kernel)⟩,
   ⟨((((up.setFld F.DLK_CTL_EN 63 1).setFld F.DLK_STAT_STATE 63 3)).modDlk 63 (fun x => { x with echo := [(7, 100)], meas := List.replicate 15 40000 })), (63), (7), (100), (quiet_of (by decide +kernel)), (by decide +kernel)⟩,
   ⟨((((up.setFld F.DLK_CTL_EN 63 1).setFld F.DLK_STAT_STATE 63 2)).modDlk 63 (fun x => { x with echo := [(7, 100)], meas := List.replicate 15 60000 })), (63), (7), (100), (quiet_of (by decide +kernel)), (by decide +kernel)⟩,
   ⟨(((((((up.setFld F.DLK_CTL_EN 63 1).setFld F.DLK_STAT_STATE 63 3).setFld F.DLK_CTL_BIND 63 1).setFld F.EP_CTL_ENABLE 0 1).setFld F.EP_CTL_TT 0 1).modEp 0 (fun x => { x with a := { x.a with queue := [⟨1000, true, 0⟩] } }))), (63), (5), (⟨2000, true, 1⟩), (none), (quiet_of (by decide +kernel)), (by decide +kernel)⟩,
   ⟨(((((((up.setFld F.DLK_CTL_EN 63 1).setFld F.DLK_STAT_STATE 63 3).setFld F.DLK_CTL_BIND 63 1).setFld F.EP_CTL_ENABLE 0 1).setFld F.EP_CTL_TT 0 1).modEp 0 (fun x => { x with a := { x.a with queue := [⟨1000, true, 0⟩] } })).setFld F.DLK_CTL_LATESAFE 63 1), (63), (5), (⟨2000, true, 1⟩), (none), (quiet_of (by decide +kernel)), (by decide +kernel)⟩,
   ⟨(((((((up.setFld F.DLK_CTL_EN 63 1).setFld F.DLK_STAT_STATE 63 3).setFld F.DLK_CTL_BIND 63 1).setFld F.EP_CTL_ENABLE 0 1).setFld F.EP_CTL_TT 0 1).modEp 0 (fun x => { x with a := { x.a with queue := [⟨1000, true, 0⟩] } })).modDlk 63 (fun x => { x with trips := [(true, 1)] })), (63), (5), (⟨2000, true, 1⟩), (none), (quiet_of (by decide +kernel)), (by decide +kernel)⟩⟩

theorem witness_CoreComplex :
    (∃ (s : State) (k : Fin 10), (s.Quiet) ∧ (s.alive 4 = true) ∧ (s.boot = .done) ∧ ((s.logicalCore k.val).isSome = true)) ∧
    (∃ (s : State), (s.Quiet) ∧ (s.boot ≠ .done)) ∧
    (∃ (s : State) (k : Fin 10) (n : Nat) (l : Nat), (s.Quiet) ∧ (s.irqChoice k.val = some (n, l))) ∧
    (∃ (s : State) (k : Fin 10) (x : SupStore) (rest : List SupStore), let c := s.core k.val; (s.Quiet) ∧ (c.sb = x :: rest)) ∧
    (∃ (s : State) (x : SupStore), (s.Quiet) ∧ (x.cap = none) ∧ (x.size = 8) ∧ (0x20000000 ≤ x.addr) ∧ (x.addr < 0x21000000) ∧ (x.addr % 8 = 0) ∧ (s.alive 4 = true) ∧ (s.underWipe x.addr = false) ∧ (s.flag F.MEM_INJ_ARM 0 = false)) ∧
    (∃ (s : State) (who : Initiator) (k : Fin 10), (s.Quiet) ∧ (s.Takes who .SUP_DOORBELL k.val)) ∧
    (∃ (s : State) (who : Initiator) (m : Fin 32), (s.Quiet) ∧ (s.Takes who .DMA_CTL m.val)) ∧
    (∃ (s : State) (who : Initiator) (m : Fin 32), (s.Quiet) ∧ (s.Takes who .DMA_CTL m.val)) ∧
    (∃ (s : State) (who : Initiator) (m : Fin 32), (s.Quiet) ∧ (s.Takes who .DMA_CTL m.val)) ∧
    (∃ (s : State) (who : Initiator) (m : Fin 32), (s.Quiet) ∧ (s.Takes who .DMA_CTL m.val)) ∧
    (∃ (s : State) (who : Initiator) (m : Fin 32), (s.Quiet) ∧ (s.Takes who .DMA_CTL m.val)) ∧
    (∃ (s : State) (who : Initiator) (m : Fin 32), (s.Quiet) ∧ (s.Takes who .DMA_CTL m.val)) ∧
    (∃ (s : State), (s.Quiet)) ∧
    (∃ (s : State) (doms : List Nat) (keep : Bool), (s.Quiet) ∧ (s.wipe = some (doms, keep))) ∧
    (∃ (s : State), (s.Quiet)) ∧
    (∃ (s : State), (s.Quiet)) ∧
    (∃ (s : State) (who : Initiator), let m := s.fld F.MEM_RSEL_MACRO 0; let i := remapEntry m (s.fld F.MEM_RSEL_ENTRY 0); (s.Quiet) ∧ (s.answers 0x400060020 = true) ∧ (s.regMay who.agent .MEM_RDATA i = true)) ∧
    (∃ (s : State) (who : Initiator), let m := s.fld F.MEM_RSEL_MACRO 0; let i := remapEntry m (s.fld F.MEM_RSEL_ENTRY 0); (s.Quiet) ∧ (s.answers 0x400060020 = true) ∧ (s.regMay who.agent .MEM_RDATA i = true)) ∧
    (∃ (s : State), (s.Quiet)) ∧
    (∃ (s : State) (who : Initiator), (s.Quiet) ∧ (s.Takes who .MEM_INJ 0)) ∧
    (∃ (s : State) (who : Initiator), (s.Quiet) ∧ (s.Takes who .MEM_INJ 0)) ∧
    (∃ (s : State), (s.Quiet)) ∧
    (∃ (s : State), (s.Quiet)) ∧
    (∃ (s : State), (s.Quiet)) ∧
    (∃ (s : State), (s.Quiet)) :=
  ⟨⟨({ up with boot := .done }), (0), (quiet_of (by decide +kernel)), (by decide +kernel)⟩,
   ⟨({ up with boot := .verify }), (quiet_of (by decide +kernel)), (by decide +kernel)⟩,
   ⟨((((up.setFld F.SUP_IDATA_EN 512 1).setFld F.SUP_IDATA_LEVEL 512 15).setFld F.SUP_DOORBELL_RING 0 1)), (0), (512), (15), (quiet_of (by decide +kernel)), (by decide +kernel)⟩,
   ⟨(up.setCore 0 { up.core 0 with sb := [⟨0x20000000, 8, 5, 0, none⟩] }), (0), (⟨0x20000000, 8, 5, 0, none⟩), ([]), (quiet_of (by decide +kernel)), (by decide +kernel)⟩,
   ⟨(up), (⟨0x20FFFFF8, 8, 5, 0, none⟩), (quiet_of (by decide +kernel)), (by decide +kernel)⟩,
   ⟨(up), (.sup 0), (9), (quiet_of (by decide +kernel)), (takes_of (by decide +kernel))⟩,
   ⟨(((up.setFld F.DMA_CTL_EN 31 1).setFld F.DMA_STAT_BUSY 31 1)), (.sup 0), (31), (quiet_of (by decide +kernel)), (takes_of (by decide +kernel))⟩,
   ⟨(up.setFld F.DMA_CTL_EN 31 1), (.sup 0), (31), (quiet_of (by decide +kernel)), (takes_of (by decide +kernel))⟩,
   ⟨((up.setFld F.DMA_CTL_EN 31 1).setFld F.DMA_LEN_LEN 31 8), (.sup 0), (31), (quiet_of (by decide +kernel)), (takes_of (by decide +kernel))⟩,
   ⟨((up.setFld F.DMA_CTL_EN 0 1).setFld F.DMA_STAT_ERR 0 1), (.sup 0), (0), (quiet_of (by decide +kernel)), (takes_of (by decide +kernel))⟩,
   ⟨(((up.setFld F.DMA_CTL_EN 31 1).setFld F.DMA_STAT_BUSY 31 1).setFld F.DMA_STAT_ERR 31 1), (.sup 0), (31), (quiet_of (by decide +kernel)), (takes_of (by decide +kernel))⟩,
   ⟨(up), (.sup 0), (0), (quiet_of (by decide +kernel)), (takes_of (by decide +kernel))⟩,
   ⟨(((up.setFld F.DMA_CTL_EN 31 1).setFld F.DMA_STAT_BUSY 31 1)), (quiet_of (by decide +kernel))⟩,
   ⟨(up.beginWipe [4, 13] true), ([4, 13]), (true), (quiet_of (by decide +kernel)), (by decide +kernel)⟩,
   ⟨(up.setFld F.MEM_CTL_SCRUBEN 0 1), (quiet_of (by decide +kernel))⟩,
   ⟨(up), (quiet_of (by decide +kernel))⟩,
   ⟨(up.setFld F.MEM_RSEL_MACRO 0 2003), (.sup 0), (quiet_of (by decide +kernel)), (by decide +kernel)⟩,
   ⟨(up.setFld F.MEM_RSEL_MACRO 0 2004), (.sup 0), (quiet_of (by decide +kernel)), (by decide +kernel)⟩,
   ⟨((up.setFld F.MEM_RDATA_BUSY (remapEntry 3 7) 1)), (quiet_of (by decide +kernel))⟩,
   ⟨(up), (.sup 0), (quiet_of (by decide +kernel)), (takes_of (by decide +kernel))⟩,
   ⟨(up.setFld F.PMU_MODE_CUR 0 9), (.sup 0), (quiet_of (by decide +kernel)), (takes_of (by decide +kernel))⟩,
   ⟨(((up.setFld F.MEM_CTL_SCRUBEN 0 1).setChk (macroAddr 2003 3) .valid).setScrub 2003 ⟨3, none, [], []⟩), (quiet_of (by decide +kernel))⟩,
   ⟨(((up.setFld F.MEM_CTL_SCRUBEN 0 1).setChk (macroAddr 2003 3) .uncorr).setScrub 2003 ⟨3, none, [], []⟩), (quiet_of (by decide +kernel))⟩,
   ⟨(((up.setFld F.MEM_CTL_SCRUBEN 0 1).setChk (macroAddr 2003 (macroWords 2003 - 1)) .valid).setScrub 2003 ⟨(macroWords 2003 - 1), none, [], []⟩), (quiet_of (by decide +kernel))⟩,
   ⟨((((up.setFld F.MEM_CTL_SCRUBEN 0 1).setChk (macroAddr 2003 3) .corr).setScrub 2003 ⟨3, none, [], []⟩).setFld F.MEM_CTL_AUTOREMAP 0 0), (quiet_of (by decide +kernel))⟩⟩

theorem witness_FlashOperations :
    (∃ (s : State) (by_ : Fin 42) (bank : Bool) (word : BitVec 22), let k := b2n bank; let who := (flashBy by_).agent; let off := 32 * word.toNat; (s.Quiet) ∧ (s.alive 3 = true) ∧ (s.flashMay who k = true) ∧ ((s.fbank k).seq = none) ∧ ((s.flashFrom (flashBy by_)).all (fun pc => decide (0x10200000 ≤ pc) || (s.flashAt pc).1 != k) = true) ∧ (s.flashMode k 0x10 off = true) ∧ (s.flashFree k 0x10 = true)) ∧
    (∃ (s : State) (by_ : Fin 42) (bank : Bool) (word : BitVec 22), let k := b2n bank; let who := (flashBy by_).agent; let off := 32 * word.toNat; (s.Quiet) ∧ (s.alive 3 = true) ∧ (s.flashMay who k = true) ∧ ((s.fbank k).seq = none) ∧ ((s.flashFrom (flashBy by_)).all (fun pc => decide (0x10200000 ≤ pc) || (s.flashAt pc).1 != k) = true) ∧ (s.flashMode k 0x10 off = true) ∧ (s.flashFree k 0x10 = true)) ∧
    (∃ (s : State) (v : Nat), (s.Quiet) ∧ (v < 2 ^ 256)) ∧
    (∃ (s : State) (by_ : Fin 42) (bank : Bool), let k := b2n bank; let who := (flashBy by_).agent; (s.Quiet) ∧ (s.alive 3 = true) ∧ (s.flashMay who k = true) ∧ ((s.fbank k).seq = none) ∧ ((s.flashFrom (flashBy by_)).all (fun pc => decide (0x10200000 ≤ pc) || (s.flashAt pc).1 != k) = true)) ∧
    (∃ (s : State) (by_ : Fin 42) (bank : Bool), let k := b2n bank; let who := (flashBy by_).agent; (s.Quiet) ∧ (s.alive 3 = true) ∧ (s.flashMay who k = true) ∧ ((s.fbank k).seq = none) ∧ ((s.flashFrom (flashBy by_)).all (fun pc => decide (0x10200000 ≤ pc) || (s.flashAt pc).1 != k) = true)) ∧
    (∃ (s : State) (by_ : Fin 42) (bank : Bool), let k := b2n bank; let who := (flashBy by_).agent; (s.Quiet) ∧ (s.alive 3 = true) ∧ (s.flashMay who k = true) ∧ ((s.fbank k).seq = none) ∧ ((s.flashFrom (flashBy by_)).all (fun pc => decide (0x10200000 ≤ pc) || (s.flashAt pc).1 != k) = true)) ∧
    (∃ (s : State) (by_ : Fin 42) (bank : Bool), let k := b2n bank; let who := (flashBy by_).agent; (s.Quiet) ∧ (s.alive 3 = true) ∧ (s.flashMay who k = true) ∧ ((s.fbank k).seq = none) ∧ ((s.flashFrom (flashBy by_)).all (fun pc => decide (0x10200000 ≤ pc) || (s.flashAt pc).1 != k) = true)) ∧
    (∃ (s : State) (by_ : Fin 42) (bank : Bool), let k := b2n bank; let who := (flashBy by_).agent; (s.Quiet) ∧ (s.alive 3 = true) ∧ (s.flashMay who k = true) ∧ ((s.fbank k).seq = none) ∧ ((s.flashFrom (flashBy by_)).all (fun pc => decide (0x10200000 ≤ pc) || (s.flashAt pc).1 != k) = true)) ∧
    (∃ (s : State) (by_ : Fin 42) (bank : Bool), let k := b2n bank; let who := (flashBy by_).agent; (s.Quiet) ∧ (s.alive 3 = true) ∧ (s.flashMay who k = true) ∧ ((s.fbank k).seq = none) ∧ ((s.flashFrom (flashBy by_)).all (fun pc => decide (0x10200000 ≤ pc) || (s.flashAt pc).1 != k) = true)) ∧
    (∃ (s : State) (by_ : Fin 42) (bank : Bool) (row : BitVec 7), let k := b2n bank; let who := (flashBy by_).agent; let n := row.toNat; (s.Quiet) ∧ (s.alive 3 = true) ∧ (s.flashMay who k = true) ∧ ((s.fbank k).seq = none) ∧ ((s.flashFrom (flashBy by_)).all (fun pc => decide (0x10200000 ≤ pc) || (s.flashAt pc).1 != k) = true) ∧ (s.flashMode k 0x70 n = true) ∧ (s.flashFree k 0x70 = true)) ∧
    (∃ (s : State) (by_ : Fin 42) (bank : Bool) (row : BitVec 7), let k := b2n bank; let who := (flashBy by_).agent; let n := row.toNat; (s.Quiet) ∧ (s.alive 3 = true) ∧ (s.flashMay who k = true) ∧ ((s.fbank k).seq = none) ∧ ((s.flashFrom (flashBy by_)).all (fun pc => decide (0x10200000 ≤ pc) || (s.flashAt pc).1 != k) = true) ∧ (s.flashMode k 0x70 n = true) ∧ (s.flashFree k 0x70 = true)) ∧
    (∃ (s : State) (by_ : Fin 42) (bank : Bool) (row : BitVec 7), let k := b2n bank; let who := (flashBy by_).agent; let n := row.toNat; (s.Quiet) ∧ (s.alive 3 = true) ∧ (s.flashMay who k = true) ∧ ((s.fbank k).seq = none) ∧ ((s.flashFrom (flashBy by_)).all (fun pc => decide (0x10200000 ≤ pc) || (s.flashAt pc).1 != k) = true) ∧ (s.flashMode k 0x70 n = true) ∧ (s.flashFree k 0x70 = true)) ∧
    (∃ (s : State) (by_ : Fin 42) (bank : Bool), let k := b2n bank; let who := (flashBy by_).agent; (s.Quiet) ∧ (s.alive 3 = true) ∧ (s.flashMay who k = true) ∧ ((s.fbank k).seq = none) ∧ ((s.flashFrom (flashBy by_)).all (fun pc => decide (0x10200000 ≤ pc) || (s.flashAt pc).1 != k) = true) ∧ (s.flashMode k 0xF0 0 = true)) ∧
    (∃ (s : State) (by_ : Fin 42) (bank : Bool), let k := b2n bank; let who := (flashBy by_).agent; (s.Quiet) ∧ (s.alive 3 = true) ∧ (s.flashMay who k = true) ∧ ((s.fbank k).seq = none) ∧ ((s.flashFrom (flashBy by_)).all (fun pc => decide (0x10200000 ≤ pc) || (s.flashAt pc).1 != k) = true) ∧ (s.flashMode k 0xF0 0 = true)) ∧
    (∃ (s : State) (by_ : Fin 42) (bank : Bool), let k := b2n bank; let who := (flashBy by_).agent; (s.Quiet) ∧ (s.alive 3 = true) ∧ (s.flashMay who k = true) ∧ ((s.fbank k).seq = none) ∧ ((s.flashFrom (flashBy by_)).all (fun pc => decide (0x10200000 ≤ pc) || (s.flashAt pc).1 != k) = true) ∧ (s.flashMode k 0xF0 0 = true)) ∧
    (∃ (s : State) (bank : Bool) (o : FOp), let k := b2n bank; (s.Quiet) ∧ ((s.fbank k).op = some o)) ∧
    (∃ (s : State) (bank : Bool) (o : FOp), let k := b2n bank; (s.Quiet) ∧ ((s.fbank k).op = some o)) ∧
    (∃ (s : State) (bank : Bool) (o : FOp), let k := b2n bank; (s.Quiet) ∧ ((s.fbank k).op = some o)) ∧
    (∃ (s : State) (bank : Bool) (o : FOp), let k := b2n bank; (s.Quiet) ∧ ((s.fbank k).op = some o)) ∧
    (∃ (s : State) (bank : Bool) (o : FOp) (v : Nat), let k := b2n bank; (s.Quiet) ∧ ((s.fbank k).op = some o) ∧ ((o.code = 0x10 ∨ o.code = 0x11)) ∧ (o.words = [v])) ∧
    (∃ (s : State) (bank : Bool) (o : FOp), let k := b2n bank; (s.Quiet) ∧ ((s.fbank k).op = some o) ∧ (o.code = 0x70)) ∧
    (∃ (s : State), (s.Quiet) ∧ (s.alive 3 = true)) ∧
    (∃ (s : State), (s.Quiet) ∧ (s.alive 3 = true)) ∧
    (∃ (s : State), (s.Quiet) ∧ (s.alive 3 = true)) ∧
    (∃ (s : State) (by_ : Fin 42) (bank : Bool) (word : BitVec 22), let k := b2n bank; let who := (flashBy by_).agent; let off := 32 * word.toNat; (s.Quiet) ∧ (s.alive 3 = true) ∧ (s.flashMay who k = true) ∧ ((s.fbank k).seq = none) ∧ ((s.flashFrom (flashBy by_)).all (fun pc => decide (0x10200000 ≤ pc) || (s.flashAt pc).1 != k) = true) ∧ (s.flashMode k 0x10 off = true) ∧ (s.flashFree k 0x10 = true)) ∧
    (∃ (s : State) (by_ : Fin 42) (bank : Bool) (word : BitVec 22), let k := b2n bank; let who := (flashBy by_).agent; let off := 32 * word.toNat; (s.Quiet) ∧ (s.alive 3 = true) ∧ (s.flashMay who k = true) ∧ ((s.fbank k).seq = none) ∧ ((s.flashFrom (flashBy by_)).all (fun pc => decide (0x10200000 ≤ pc) || (s.flashAt pc).1 != k) = true) ∧ (s.flashMode k 0x10 off = true) ∧ (s.flashFree k 0x10 = true)) ∧
    (∃ (s : State) (v : Nat), (s.Quiet) ∧ (v < 2 ^ 256)) ∧
    (∃ (s : State) (by_ : Fin 42) (bank : Bool), let k := b2n bank; let who := (flashBy by_).agent; (s.Quiet) ∧ (s.alive 3 = true) ∧ (s.flashMay who k = true) ∧ ((s.fbank k).seq = none) ∧ ((s.flashFrom (flashBy by_)).all (fun pc => decide (0x10200000 ≤ pc) || (s.flashAt pc).1 != k) = true)) ∧
    (∃ (s : State) (by_ : Fin 42) (bank : Bool), let k := b2n bank; let who := (flashBy by_).agent; (s.Quiet) ∧ (s.alive 3 = true) ∧ (s.flashMay who k = true) ∧ ((s.fbank k).seq = none) ∧ ((s.flashFrom (flashBy by_)).all (fun pc => decide (0x10200000 ≤ pc) || (s.flashAt pc).1 != k) = true)) ∧
    (∃ (s : State) (bank : Bool) (o : FOp), let k := b2n bank; (s.Quiet) ∧ ((s.fbank k).op = some o)) ∧
    (∃ (s : State), (s.Quiet) ∧ (s.alive 3 = true)) ∧
    (∃ (s : State) (v : Nat), (s.Quiet) ∧ (v < 2 ^ 256)) ∧
    (∃ (s : State) (v : Nat), (s.Quiet) ∧ (v < 2 ^ 256)) :=
  ⟨⟨(fl 1), (0), (true), (0x3FFFFF), (quiet_of (by decide +kernel)), (by decide +kernel)⟩,
   ⟨((fl 1).modFbank 1 (fun x => { x with locks := [0] })), (0), (true), (0), (quiet_of (by decide +kernel)), (by decide +kernel)⟩,
   ⟨(fl 1), (2 ^ 256 - 1), (quiet_of (by decide +kernel)), (by decide +kernel)⟩,
   ⟨(fl 1), (0), (true), (quiet_of (by decide +kernel)), (by decide +kernel)⟩,
   ⟨((fl 1).modFbank 1 (fun x => { x with locks := [5] })), (0), (true), (quiet_of (by decide +kernel)), (by decide +kernel)⟩,
   ⟨(((fl 1).modFbank 1 (fun x => { x with op := some ⟨0x20, 3, []⟩ })).setFst 1 0 true), (0), (true), (quiet_of (by decide +kernel)), (by decide +kernel)⟩,
   ⟨((((fl 1).modFbank 1 (fun x => { x with erase := some 3 })).setFst 1 0 true).setFst 1 1 true), (0), (true), (quiet_of (by decide +kernel)), (by decide +kernel)⟩,
   ⟨((fl 1).modFbank 1 (fun x => { x with abn := [15] })), (0), (true), (quiet_of (by decide +kernel)), (by decide +kernel)⟩,
   ⟨(((fl 0).setFld F.PMU_MODE_CUR 0 10).setCore 0 { (fl 0).core 0 with pc := 0x20000000 }), (0), (false), (quiet_of (by decide +kernel)), (by decide +kernel)⟩,
   ⟨(fl 1), (0), (true), (16), (quiet_of (by decide +kernel)), (by decide +kernel)⟩,
   ⟨((fl 1).setFld F.PMU_MODE_CUR 0 10), (0), (true), (63), (quiet_of (by decide +kernel)), (by decide +kernel)⟩,
   ⟨((fl 1).setOpt 127 0 0), (0), (true), (127), (quiet_of (by decide +kernel)), (by decide +kernel)⟩,
   ⟨(fl 1), (0), (true), (quiet_of (by decide +kernel)), (by decide +kernel)⟩,
   ⟨(((fl 1).modFbank 1 (fun x => { x with erase := some 3 })).setFst 1 0 true), (0), (true), (quiet_of (by decide +kernel)), (by decide +kernel)⟩,
   ⟨(((fl 1).modFbank 1 (fun x => { x with op := some ⟨0x20, 3, []⟩ })).setFst 1 0 true), (0), (true), (quiet_of (by decide +kernel)), (by decide +kernel)⟩,
   ⟨((up.modFbank 1 (fun x => { x with op := some ⟨0x20, 3, []⟩, asked := true })).setFst 1 0 true), (true), (⟨0x20, 3, []⟩), (quiet_of (by decide +kernel)), (by decide +kernel)⟩,
   ⟨((up.modFbank 1 (fun x => { x with op := some ⟨0x30, 3, []⟩, asked := false })).setFst 1 0 true), (true), (⟨0x30, 3, []⟩), (quiet_of (by decide +kernel)), (by decide +kernel)⟩,
   ⟨((up.modFbank 1 (fun x => { x with op := some ⟨0x40, 3, []⟩, asked := false })).setFst 1 0 true), (true), (⟨0x40, 3, []⟩), (quiet_of (by decide +kernel)), (by decide +kernel)⟩,
   ⟨((up.modFbank 1 (fun x => { x with op := some ⟨0x60, 3, []⟩, asked := false })).setFst 1 0 true), (true), (⟨0x60, 3, []⟩), (quiet_of (by decide +kernel)), (by decide +kernel)⟩,
   ⟨((up.modFbank 1 (fun x => { x with op := some ⟨0x10, 64, [7]⟩ })).setFst 1 0 true), (true), (⟨0x10, 64, [7]⟩), (7), (quiet_of (by decide +kernel)), (by decide +kernel)⟩,
   ⟨((up.modFbank 1 (fun x => { x with op := some ⟨0x70, 64, [7]⟩ })).setFst 1 0 true), (true), (⟨0x70, 64, [7]⟩), (quiet_of (by decide +kernel)), (by decide +kernel)⟩,
   ⟨(fl 1), (quiet_of (by decide +kernel)), (by decide +kernel)⟩,
   ⟨((fl 1).modFbank 1 (fun x => { x with seq := some ⟨.sup 0, .key2, 0⟩ })), (quiet_of (by decide +kernel)), (by decide +kernel)⟩,
   ⟨({ (fl 1).modFbank 1 (fun x => { x with seq := some ⟨.sup 0, .command, 0⟩ }) with now := 12500 }), (quiet_of (by decide +kernel)), (by decide +kernel)⟩,
   ⟨((fl 1).modFbank 1 (fun x => { x with abn := [0] })), (0), (true), (0), (quiet_of (by decide +kernel)), (by decide +kernel)⟩,
   ⟨(((((fl 1).modFbank 1 (fun x => { x with erase := some 0 })).setFst 1 0 true).setFst 1 1 true)), (0), (true), (4095), (quiet_of (by decide +kernel)), (by decide +kernel)⟩,
   ⟨(up.poke 32 32 5), (7), (quiet_of (by decide +kernel)), (by decide +kernel)⟩,
   ⟨((fl 1).modFbank 0 (fun x => { x with gen := 1024 })), (0), (true), (quiet_of (by decide +kernel)), (by decide +kernel)⟩,
   ⟨((fl 1).modFbank 0 (fun x => { x with gen := 3 })), (0), (true), (quiet_of (by decide +kernel)), (by decide +kernel)⟩,
   ⟨((up.modFbank 1 (fun x => { x with op := some ⟨0x20, 3, []⟩, bad := [3] })).setFst 1 0 true), (true), (⟨0x20, 3, []⟩), (quiet_of (by decide +kernel)), (by decide +kernel)⟩,
   ⟨(up), (quiet_of (by decide +kernel)), (by decide +kernel)⟩,
   ⟨(up.poke 32 32 5), (0), (quiet_of (by decide +kernel)), (by decide +kernel)⟩,
   ⟨((up.poke 32 32 7).setChk 32 .poison), (5), (quiet_of (by decide +kernel)), (by decide +kernel)⟩⟩

theorem witness_HostAndAlarms :
    (∃ (s : State), (s.Quiet) ∧ (s.alive 18 = false ∨ s.flag F.HIF_STAT_LINKUP 0 = false ∨ s.flag F.HIF_CTL_PCIEEN 0 = false)) ∧
    (∃ (s : State), (s.Quiet) ∧ (s.pcieOn = true)) ∧
    (∃ (s : State) (v : Nat), (s.Quiet) ∧ (v < 2048)) ∧
    (∃ (s : State) (n : Fin 513) (k : Fin 257), (s.Quiet) ∧ (s.pcieOn = true) ∧ (n.val ≠ 0) ∧ (k.val ≠ 0)) ∧
    (∃ (s : State) (n : Fin 513) (k : Fin 257), (s.Quiet) ∧ (s.pcieOn = true) ∧ (n.val ≠ 0) ∧ (k.val ≠ 0)) ∧
    (∃ (s : State) (n : Fin 513) (k : Fin 257), (s.Quiet) ∧ (s.pcieOn = true) ∧ (n.val ≠ 0) ∧ (k.val ≠ 0)) ∧
    (∃ (s : State) (off : BitVec 32) (n : Fin 513) (k : Fin 257), let o := off.toNat % 0x1000000; (s.Quiet) ∧ (s.pcieOn = true) ∧ (0x10000 ≤ o) ∧ (o < 0x800000) ∧ (n.val ≠ 0) ∧ (k.val ≠ 0)) ∧
    (∃ (s : State) (off : BitVec 32) (n : Fin 513) (k : Fin 257), let o := off.toNat % 0x1000000; (s.Quiet) ∧ (s.pcieOn = true) ∧ (0x10000 ≤ o) ∧ (o < 0x800000) ∧ (n.val ≠ 0) ∧ (k.val ≠ 0)) ∧
    (∃ (s : State) (off : BitVec 32) (n : Fin 513) (k : Fin 257), let d := off.toNat % 0x40000000 / 0x1000000; let o := off.toNat % 0x1000000; (s.Quiet) ∧ (s.pcieOn = true) ∧ (d ≠ s.devNum) ∧ (o + n.val ≤ 0x10000) ∧ (o + k.val ≤ 0x10000) ∧ (n.val ≠ 0) ∧ (k.val ≠ 0)) ∧
    (∃ (s : State) (off : BitVec 32) (n : Fin 513) (k : Fin 257), let d := off.toNat % 0x40000000 / 0x1000000; let o := off.toNat % 0x1000000; (s.Quiet) ∧ (s.pcieOn = true) ∧ (d ≠ s.devNum) ∧ (o + n.val ≤ 0x10000) ∧ (o + k.val ≤ 0x10000) ∧ (n.val ≠ 0) ∧ (k.val ≠ 0)) ∧
    (∃ (s : State) (off : BitVec 32) (n : Fin 513) (k : Fin 257), let o := off.toNat % 0x1000000; (s.Quiet) ∧ (s.pcieOn = true) ∧ (0x800000 ≤ o) ∧ (o + n.val ≤ 0x1000000) ∧ (o + k.val ≤ 0x1000000) ∧ (n.val ≠ 0) ∧ (k.val ≠ 0)) ∧
    (∃ (s : State) (off : BitVec 32) (n : Fin 513) (k : Fin 257), let o := off.toNat % 0x1000000; (s.Quiet) ∧ (s.pcieOn = true) ∧ (0x800000 ≤ o) ∧ (o + n.val ≤ 0x1000000) ∧ (o + k.val ≤ 0x1000000) ∧ (n.val ≠ 0) ∧ (k.val ≠ 0)) ∧
    (∃ (s : State) (off : BitVec 32) (n : Fin 513) (k : Fin 257), let o := off.toNat % 0x1000000; (s.Quiet) ∧ (s.pcieOn = true) ∧ (0x800000 ≤ o) ∧ (o + n.val ≤ 0x1000000) ∧ (o + k.val ≤ 0x1000000) ∧ (n.val ≠ 0) ∧ (k.val ≠ 0)) ∧
    (∃ (s : State) (d : Nat) (l : List Byte), (s.Quiet) ∧ (s.gdnHas d = true) ∧ (l ≠ [])) ∧
    (∃ (s : State) (d : Nat) (l : List Byte), (s.Quiet) ∧ (s.gdnHas d = true) ∧ (l ≠ [])) ∧
    (∃ (s : State), (s.Quiet)) ∧
    (∃ (s : State), (s.Quiet)) ∧
    (∃ (s : State), (s.Quiet)) ∧
    (∃ (s : State), (s.Quiet)) ∧
    (∃ (s : State) (who : Initiator) (m : BitVec 8), let i := m.toNat; (s.Quiet) ∧ (s.Takes who .MBX_POST i)) ∧
    (∃ (s : State) (who : Initiator) (m : BitVec 8), let i := m.toNat; (s.Quiet) ∧ (s.Takes who .MBX_POST i)) ∧
    (∃ (s : State) (who : Initiator) (m : BitVec 8), let i := m.toNat; (s.Quiet) ∧ (s.Takes who .MBX_POST i)) ∧
    (∃ (s : State), (s.Quiet)) ∧
    (∃ (s : State) (who : Initiator), (s.Quiet) ∧ (s.Takes who .HIF_NUMCMD 0)) ∧
    (∃ (s : State), (s.Quiet)) ∧
    (∃ (s : State), (s.Quiet)) ∧
    (∃ (s : State) (a : Fin 8) (who : Initiator), (s.Quiet) ∧ (s.Takes who .QTZ_ALMC a.val)) ∧
    (∃ (s : State) (a : Fin 8) (who : Initiator), (s.Quiet) ∧ (s.Takes who .QTZ_ALMC a.val)) ∧
    (∃ (s : State) (a : Fin 8) (who : Initiator), (s.Quiet) ∧ (s.Takes who .QTZ_ALMC a.val)) ∧
    (∃ (s : State), (s.Quiet) ∧ (s.engClock = true)) ∧
    (∃ (s : State), (s.Quiet) ∧ (s.engClock = true)) ∧
    (∃ (s : State), (s.Quiet) ∧ (s.engClock = true)) ∧
    (∃ (s : State), (s.Quiet)) ∧
    (∃ (s : State) (v : Nat), (s.Quiet) ∧ (v < 2048)) ∧
    (∃ (s : State) (v : Nat), (s.Quiet) ∧ (v < 2048)) :=
  ⟨⟨(up), (quiet_of (by decide +kernel)), (by decide +kernel)⟩,
   ⟨(((up.setFld F.HIF_STAT_LINKUP 0 1).setFld F.HIF_CTL_PCIEEN 0 1)), (quiet_of (by decide +kernel)), (by decide +kernel)⟩,
   ⟨(up), (2047), (quiet_of (by decide +kernel)), (by decide +kernel)⟩,
   ⟨(((up.setFld F.HIF_STAT_LINKUP 0 1).setFld F.HIF_CTL_PCIEEN 0 1)), (4), (4), (quiet_of (by decide +kernel)), (by decide +kernel)⟩,
   ⟨(((up.setFld F.HIF_STAT_LINKUP 0 1).setFld F.HIF_CTL_PCIEEN 0 1)), (8), (8), (quiet_of (by decide +kernel)), (by decide +kernel)⟩,
   ⟨((((up.setFld F.HIF_STAT_LINKUP 0 1).setFld F.HIF_CTL_PCIEEN 0 1).setFld F.MBX_CTL_DIR 0 1)), (8), (8), (quiet_of (by decide +kernel)), (by decide +kernel)⟩,
   ⟨(((up.setFld F.HIF_STAT_LINKUP 0 1).setFld F.HIF_CTL_PCIEEN 0 1)), (0x10000), (4), (4), (quiet_of (by decide +kernel)), (by decide +kernel)⟩,
   ⟨(((up.setFld F.HIF_STAT_LINKUP 0 1).setFld F.HIF_CTL_PCIEEN 0 1)), (0xFF7FFFFC), (4), (4), (quiet_of (by decide +kernel)), (by decide +kernel)⟩,
   ⟨(((up.setFld F.HIF_STAT_LINKUP 0 1).setFld F.HIF_CTL_PCIEEN 0 1)), (0x1000000), (16), (16), (quiet_of (by decide +kernel)), (by decide +kernel)⟩,
   ⟨((((up.setFld F.HIF_STAT_LINKUP 0 1).setFld F.HIF_CTL_PCIEEN 0 1).setGport 2 ⟨2 ^ 5, 0, true, 0, 0, false, false, ([], []), none⟩).setFld F.GDN_STAT_STATE 2 2 |>.setFld F.GDN_NBR_VALID 2 1), (0x5000040), (512), (256), (quiet_of (by decide +kernel)), (by decide +kernel)⟩,
   ⟨(((up.setFld F.HIF_STAT_LINKUP 0 1).setFld F.HIF_CTL_PCIEEN 0 1).setFld F.HIF_APER_BASE 0 1023), (0x800000), (4), (4), (quiet_of (by decide +kernel)), (by decide +kernel)⟩,
   ⟨(((up.setFld F.HIF_STAT_LINKUP 0 1).setFld F.HIF_CTL_PCIEEN 0 1)), (0x3F800000), (4), (4), (quiet_of (by decide +kernel)), (by decide +kernel)⟩,
   ⟨((((up.setFld F.HIF_STAT_LINKUP 0 1).setFld F.HIF_CTL_PCIEEN 0 1).setGport 2 ⟨2 ^ 5, 0, true, 0, 0, false, false, ([], []), none⟩).setFld F.GDN_STAT_STATE 2 2 |>.setFld F.GDN_NBR_VALID 2 1), (0x5800000), (4), (4), (quiet_of (by decide +kernel)), (by decide +kernel)⟩,
   ⟨((((up.setFld F.HIF_STAT_LINKUP 0 1).setFld F.HIF_CTL_PCIEEN 0 1).setGport 2 ⟨2 ^ 5, 0, true, 0, 0, false, false, ([], []), none⟩).setFld F.GDN_STAT_STATE 2 2 |>.setFld F.GDN_NBR_VALID 2 1), (5), (List.replicate 248 1), (quiet_of (by decide +kernel)), (by decide +kernel)⟩,
   ⟨((((up.setFld F.HIF_STAT_LINKUP 0 1).setFld F.HIF_CTL_PCIEEN 0 1).setGport 2 ⟨2 ^ 5, 0, true, 0, 0, false, false, ([], []), none⟩).setFld F.GDN_STAT_STATE 2 2 |>.setFld F.GDN_NBR_VALID 2 1), (5), (List.replicate 249 1), (quiet_of (by decide +kernel)), (by decide +kernel)⟩,
   ⟨(up), (quiet_of (by decide +kernel))⟩,
   ⟨((up.setFld F.HIF_CTL_SPIEN 0 1)), (quiet_of (by decide +kernel))⟩,
   ⟨({ up with greqs := [⟨3, .host, 1, 4, 0x41000000, 40000, some (⟨true, 0x41000000, 4⟩, ⟨0, [], []⟩)⟩] }), (quiet_of (by decide +kernel))⟩,
   ⟨({ up with greqs := [⟨3, .sup 2, 1, 4, 0x41000000, 40000, none⟩] }), (quiet_of (by decide +kernel))⟩,
   ⟨(up), (.sup 0), (255), (quiet_of (by decide +kernel)), (takes_of (by decide +kernel))⟩,
   ⟨((up.setFld F.MBX_CTL_IRQ 7 1).setFld F.MBX_STAT_READY 7 1), (.sup 0), (7), (quiet_of (by decide +kernel)), (takes_of (by decide +kernel))⟩,
   ⟨(up.setFld F.MBX_CTL_DIR 0 1), (.host), (0), (quiet_of (by decide +kernel)), (takes_of (by decide +kernel))⟩,
   ⟨(up.setFld F.MBX_STAT_READY 255 1), (quiet_of (by decide +kernel))⟩,
   ⟨(up), (.host), (quiet_of (by decide +kernel)), (takes_of (by decide +kernel))⟩,
   ⟨(((up.setFld F.HIF_STAT_LINKUP 0 1).setFld F.HIF_CTL_PCIEEN 0 1)), (quiet_of (by decide +kernel))⟩,
   ⟨({ up with spiAt := some 5 }), (quiet_of (by decide +kernel))⟩,
   ⟨(up.setRegN .QTZ_ALMC 7 0x1C), (7), (.sup 0), (quiet_of (by decide +kernel)), (takes_of (by decide +kernel))⟩,
   ⟨(up.setRegN .QTZ_ALMC 7 0x1D), (7), (.sup 0), (quiet_of (by decide +kernel)), (takes_of (by decide +kernel))⟩,
   ⟨(up.setRegN .QTZ_ALML 3 9), (3), (.sup 0), (quiet_of (by decide +kernel)), (takes_of (by decide +kernel))⟩,
   ⟨((up.setRegN .QTZ_ALMC 7 3).setRegN .QTZ_ALML 7 1000), (quiet_of (by decide +kernel)), (by decide +kernel)⟩,
   ⟨((up.setRegN .QTZ_ALMC 0 0x0301).setAlmLate 0 500), (quiet_of (by decide +kernel)), (by decide +kernel)⟩,
   ⟨(up), (quiet_of (by decide +kernel)), (by decide +kernel)⟩,
   ⟨(up.setRegN .PMU_DOMSTAT 0 0xBFFFF), (quiet_of (by decide +kernel))⟩,
   ⟨(((up.setByte (msixBase + 16 * 2047 + 12) 1).setByte (msixBase + 0x8000 + 255) 0x80)), (2047), (quiet_of (by decide +kernel)), (by decide +kernel)⟩,
   ⟨(((up.setByte (msixBase + 16 * 2047 + 12) 0).setByte (msixBase + 0x8000 + 255) 0x80)), (2047), (quiet_of (by decide +kernel)), (by decide +kernel)⟩⟩

theorem witness_GedanAndRackTime :
    (∃ (s : State) (p : Fin 4) (dst : BitVec 8), let me := dst.toNat = s.devNum ∨ dst.toNat = 0xFF; let takes := s.gdnUp p.val = true ∧ s.flag F.GDN_STAT_DISCONLY p.val = false ∧ s.gdnRole p.val ≠ 3; (s.Quiet) ∧ (takes) ∧ (me)) ∧
    (∃ (s : State) (p : Fin 4) (dst : BitVec 8), let me := dst.toNat = s.devNum ∨ dst.toNat = 0xFF; let takes := s.gdnUp p.val = true ∧ s.flag F.GDN_STAT_DISCONLY p.val = false ∧ s.gdnRole p.val ≠ 3; (s.Quiet) ∧ (takes) ∧ (me)) ∧
    (∃ (s : State) (p : Fin 4) (dst : BitVec 8), let me := dst.toNat = s.devNum ∨ dst.toNat = 0xFF; let takes := s.gdnUp p.val = true ∧ s.flag F.GDN_STAT_DISCONLY p.val = false ∧ s.gdnRole p.val ≠ 3; (s.Quiet) ∧ (takes) ∧ (¬ me)) ∧
    (∃ (s : State) (p : Fin 4), let takes := s.gdnUp p.val = true ∧ s.flag F.GDN_STAT_DISCONLY p.val = false ∧ s.gdnRole p.val ≠ 3; (s.Quiet) ∧ (¬ takes)) ∧
    (∃ (s : State), (s.Quiet)) ∧
    (∃ (s : State), (s.Quiet)) ∧
    (∃ (s : State), (s.Quiet)) ∧
    (∃ (s : State) (p : Fin 4) (q : Fin 4), (s.Quiet) ∧ (s.gdnUpstream = some p.val) ∧ (s.gdnHeard q.val = true) ∧ (s.fld F.GDN_NBR_DIST q.val < 0xFF)) ∧
    (∃ (s : State), (s.Quiet) ∧ (s.alive 18 = true)) ∧
    (∃ (s : State), (s.Quiet) ∧ (s.alive 18 = true)) ∧
    (∃ (s : State), (s.Quiet) ∧ (s.alive 18 = true)) ∧
    (∃ (s : State), (s.Quiet)) ∧
    (∃ (s : State), (s.Quiet)) ∧
    (∃ (s : State), (s.Quiet)) ∧
    (∃ (s : State) (p : Fin 4) (dst : BitVec 8), (s.Quiet) ∧ (s.gdnUp p.val = true) ∧ (s.flag F.GDN_STAT_DISCONLY p.val = false) ∧ (s.gdnRole p.val ≠ 3) ∧ (dst.toNat ≠ s.devNum)) ∧
    (∃ (s : State) (p : Fin 4) (dst : BitVec 8), (s.Quiet) ∧ (s.gdnUp p.val = true) ∧ (s.flag F.GDN_STAT_DISCONLY p.val = false) ∧ (s.gdnRole p.val ≠ 3) ∧ (dst.toNat ≠ s.devNum)) ∧
    (∃ (s : State), (s.Quiet)) ∧
    (∃ (s : State), (s.Quiet)) ∧
    (∃ (s : State) (p : Fin 4), (s.Quiet) ∧ (s.gdnUp p.val = true) ∧ (s.alive 2 = true)) ∧
    (∃ (s : State) (p : Fin 4) (num : BitVec 16) (t4 : BitVec 71) (t1 : Nat), let u := (s.reach (t4.toNat / 128)).modGport p.val (fun x => { x with rx := max (s.reach (t4.toNat / 128)).now (t4.toNat / 128) }); (s.Quiet) ∧ (s.gdnUp p.val = true) ∧ (s.alive 2 = true) ∧ (u.sync.cur = some (num.toNat, t1)) ∧ (u.gdnUpstream = some p.val)) ∧
    (∃ (s : State) (p : Fin 4) (num : BitVec 16) (t4 : BitVec 71) (t1 : Nat), let u := (s.reach (t4.toNat / 128)).modGport p.val (fun x => { x with rx := max (s.reach (t4.toNat / 128)).now (t4.toNat / 128) }); (s.Quiet) ∧ (s.gdnUp p.val = true) ∧ (s.alive 2 = true) ∧ (u.sync.cur = some (num.toNat, t1)) ∧ (u.gdnUpstream = some p.val)) ∧
    (∃ (s : State), (s.Quiet) ∧ (s.fld F.QTZ_STATUS_STATE 0 ≠ 3) ∧ (s.flag F.QTZ_CTL_DISC 0 = false)) ∧
    (∃ (s : State), (s.Quiet) ∧ (s.fld F.QTZ_STATUS_STATE 0 ≠ 3) ∧ (s.flag F.QTZ_CTL_DISC 0 = false)) ∧
    (∃ (s : State), (s.Quiet) ∧ (s.fld F.QTZ_STATUS_STATE 0 ≠ 3) ∧ (s.flag F.QTZ_CTL_DISC 0 = false)) ∧
    (∃ (s : State), (s.Quiet)) ∧
    (∃ (s : State), (s.Quiet)) ∧
    (∃ (s : State), (s.Quiet) ∧ (s.fld F.QTZ_STATUS_STATE 0 ≠ 3) ∧ (s.flag F.QTZ_CTL_DISC 0 = false)) :=
  ⟨⟨(((((up.setFld F.GDN_CTL_EN 1 1).setFld F.GDN_STAT_STATE 1 2).setFld F.GDN_NBR_VALID 1 1).setFld F.GDN_NBR_DIST 1 3)), (1), (0), (quiet_of (by decide +kernel)), (by decide +kernel)⟩,
   ⟨(((((up.setFld F.GDN_CTL_EN 1 1).setFld F.GDN_STAT_STATE 1 2).setFld F.GDN_NBR_VALID 1 1).setFld F.GDN_NBR_DIST 1 3)), (1), (255), (quiet_of (by decide +kernel)), (by decide +kernel)⟩,
   ⟨(((((up.setFld F.GDN_CTL_EN 1 1).setFld F.GDN_STAT_STATE 1 2).setFld F.GDN_NBR_VALID 1 1).setFld F.GDN_NBR_DIST 1 3)), (1), (5), (quiet_of (by decide +kernel)), (by decide +kernel)⟩,
   ⟨(up), (1), (quiet_of (by decide +kernel)), (by decide +kernel)⟩,
   ⟨(((((up.setFld F.GDN_CTL_EN 2 1).setFld F.GDN_STAT_STATE 2 2).setFld F.GDN_NBR_VALID 2 1).setGport 2 ⟨2 ^ 5, 0, true, 0, 0, false, true, ([], []), none⟩)), (quiet_of (by decide +kernel))⟩,
   ⟨(((((up.setFld F.GDN_CTL_EN 1 1).setFld F.GDN_STAT_STATE 1 2).setFld F.GDN_NBR_VALID 1 1).setFld F.GDN_NBR_DIST 1 3)), (quiet_of (by decide +kernel))⟩,
   ⟨((((((up.setFld F.GDN_CTL_EN 2 1).setFld F.GDN_STAT_STATE 2 2).setFld F.GDN_NBR_VALID 2 1).setGport 2 ⟨2 ^ 5, 0, true, 0, 0, false, true, ([], []), none⟩)).setFld F.HIF_STAT_LINKUP 0 1 |>.setFld F.GDN_STAT_STATE 0 2), (quiet_of (by decide +kernel))⟩,
   ⟨(((((((up.setFld F.GDN_CTL_EN 1 1).setFld F.GDN_STAT_STATE 1 2).setFld F.GDN_NBR_VALID 1 1).setFld F.GDN_NBR_DIST 1 3).setFld F.GDN_STAT_STATE 3 2).setFld F.GDN_NBR_VALID 3 1).setFld F.GDN_NBR_DIST 3 3), (1), (3), (quiet_of (by decide +kernel)), (by decide +kernel)⟩,
   ⟨(((((up.setFld F.GDN_CTL_EN 1 1).setFld F.GDN_STAT_STATE 1 2).setFld F.GDN_NBR_VALID 1 1).setFld F.GDN_NBR_DIST 1 3)), (quiet_of (by decide +kernel)), (by decide +kernel)⟩,
   ⟨(up.setFld F.HIF_STAT_LINKUP 0 1), (quiet_of (by decide +kernel)), (by decide +kernel)⟩,
   ⟨(up.setFld F.QTZ_STATUS_LOCK 0 1), (quiet_of (by decide +kernel)), (by decide +kernel)⟩,
   ⟨(((((up.setFld F.GDN_CTL_EN 1 1).setFld F.GDN_STAT_STATE 1 2).setFld F.GDN_NBR_VALID 1 1).setFld F.GDN_NBR_DIST 1 3).setFld F.GDN_CTL_SPAREEN 1 1), (quiet_of (by decide +kernel))⟩,
   ⟨(up.setFld F.GDN_CTL_EN 3 1), (quiet_of (by decide +kernel))⟩,
   ⟨(up), (quiet_of (by decide +kernel))⟩,
   ⟨(((((((up.setFld F.GDN_CTL_EN 1 1).setFld F.GDN_STAT_STATE 1 2).setFld F.GDN_NBR_VALID 1 1).setFld F.GDN_NBR_DIST 1 3).setFld F.GDN_CTL_EN 3 1).setFld F.GDN_NBR_NUM 3 9).setGport 3 ⟨0, 0, false, 0, 0, false, true, ([], []), none⟩), (1), (9), (quiet_of (by decide +kernel)), (by decide +kernel)⟩,
   ⟨(((((up.setFld F.GDN_CTL_EN 1 1).setFld F.GDN_STAT_STATE 1 2).setFld F.GDN_NBR_VALID 1 1).setFld F.GDN_NBR_DIST 1 3)), (1), (9), (quiet_of (by decide +kernel)), (by decide +kernel)⟩,
   ⟨({ ((((up.setFld F.GDN_CTL_EN 1 1).setFld F.GDN_STAT_STATE 1 2).setFld F.GDN_NBR_VALID 1 1).setFld F.GDN_NBR_DIST 1 3) with now := 10001 }), (quiet_of (by decide +kernel))⟩,
   ⟨({ ((((up.setFld F.GDN_CTL_EN 1 1).setFld F.GDN_STAT_STATE 1 2).setFld F.GDN_NBR_VALID 1 1).setFld F.GDN_NBR_DIST 1 3) with sync := ⟨some (3, 1280000), 4, 5, 3, true⟩ }), (quiet_of (by decide +kernel))⟩,
   ⟨(((((up.setFld F.GDN_CTL_EN 1 1).setFld F.GDN_STAT_STATE 1 2).setFld F.GDN_NBR_VALID 1 1).setFld F.GDN_NBR_DIST 1 3)), (1), (quiet_of (by decide +kernel)), (by decide +kernel)⟩,
   ⟨({ ((((up.setFld F.GDN_CTL_EN 1 1).setFld F.GDN_STAT_STATE 1 2).setFld F.GDN_NBR_VALID 1 1).setFld F.GDN_NBR_DIST 1 3) with sync := ⟨some (7, 1280000), 8, 5, 3, true⟩ }), (1), (7), (1280300), (1280000), (quiet_of (by decide +kernel)), (by decide +kernel)⟩,
   ⟨({ ((((up.setFld F.GDN_CTL_EN 1 1).setFld F.GDN_STAT_STATE 1 2).setFld F.GDN_NBR_VALID 1 1).setFld F.GDN_NBR_DIST 1 3) with sync := ⟨some (7, 1280000), 8, 5, 3, true⟩ }), (1), (7), (1600001), (1280000), (quiet_of (by decide +kernel)), (by decide +kernel)⟩,
   ⟨(((up.setFld F.QTZ_STATUS_STATE 0 1).setFld F.QTZ_CTL_STEPEN 0 1).setFld F.QTZ_CTL_DISC 0 0 |>.setFld F.PMU_MODE_CUR 0 5), (quiet_of (by decide +kernel)), (by decide +kernel)⟩,
   ⟨({ up.setFld F.QTZ_CTL_DISC 0 0 with sync := ⟨none, 0, 15, 0, true⟩ }), (quiet_of (by decide +kernel)), (by decide +kernel)⟩,
   ⟨({ (up.setFld F.QTZ_STATUS_LOCK 0 1).setFld F.QTZ_CTL_DISC 0 0 with sync := ⟨none, 0, 15, 0, true⟩ }), (quiet_of (by decide +kernel)), (by decide +kernel)⟩,
   ⟨(((((up.setFld F.GDN_CTL_EN 1 1).setFld F.GDN_STAT_STATE 1 2).setFld F.GDN_NBR_VALID 1 1).setFld F.GDN_NBR_DIST 1 3).setFld F.GDN_CTL_SPAREEN 1 0), (quiet_of (by decide +kernel))⟩,
   ⟨(((((up.setFld F.GDN_CTL_EN 1 1).setFld F.GDN_STAT_STATE 1 2).setFld F.GDN_NBR_VALID 1 1).setFld F.GDN_NBR_DIST 1 3).modGport 1 (fun x => { x with lane := true })), (quiet_of (by decide +kernel))⟩,
   ⟨({ up.setFld F.QTZ_CTL_DISC 0 0 with sync := ⟨none, 0, 14, 0, true⟩ }), (quiet_of (by decide +kernel)), (by decide +kernel)⟩⟩

theorem witness_Measurements :
    (∃ (s : State) (who : Initiator), (s.Quiet) ∧ (s.Takes who .MSR_CTL 0) ∧ (s.alive 1 = true)) ∧
    (∃ (s : State) (who : Initiator), (s.Quiet) ∧ (s.Takes who .MSR_CTL 0) ∧ (s.alive 1 = true)) ∧
    (∃ (s : State) (who : Initiator), (s.Quiet) ∧ (s.Takes who .MSR_CTL 0) ∧ (s.alive 1 = true)) ∧
    (∃ (s : State) (who : Initiator), (s.Quiet) ∧ (s.Takes who .MSR_CTL 0) ∧ (s.alive 1 = true)) ∧
    (∃ (s : State) (who : Initiator), (s.Quiet) ∧ (s.Takes who .MSR_CTL 0) ∧ (s.alive 1 = true)) ∧
    (∃ (s : State) (who : Initiator), (s.Quiet) ∧ (s.Takes who .MSR_CTL 0) ∧ (s.alive 1 = true)) ∧
    (∃ (s : State) (who : Initiator), (s.Quiet) ∧ (s.Takes who .MSR_CTL 0) ∧ (s.alive 1 = true)) ∧
    (∃ (s : State) (who : Initiator), (s.Quiet) ∧ (s.Takes who .MSR_CTL 0) ∧ (s.alive 1 = true)) ∧
    (∃ (s : State) (m : Meas), (s.Quiet) ∧ (s.meas = some m)) ∧
    (∃ (s : State) (m : Meas), (s.Quiet) ∧ (s.meas = some m)) ∧
    (∃ (s : State) (m : Meas), (s.Quiet) ∧ (s.meas = some m)) ∧
    (∃ (s : State) (m : Meas), (s.Quiet) ∧ (s.meas = some m)) ∧
    (∃ (s : State) (m : Meas), (s.Quiet) ∧ (s.meas = some m)) ∧
    (∃ (s : State) (m : Meas), (s.Quiet) ∧ (s.meas = some m)) ∧
    (∃ (s : State) (m : Meas), let ns := s.fld F.MSR_LSAMP_NS 0; (s.Quiet) ∧ (s.meas = some m) ∧ (m.op = 1) ∧ (m.ended = true) ∧ (m.got1.length = ns) ∧ (m.got2.length = ns)) ∧
    (∃ (s : State) (m : Meas), (s.Quiet) ∧ (s.meas = some m)) ∧
    (∃ (s : State) (m : Meas), (s.Quiet) ∧ (s.meas = some m)) ∧
    (∃ (s : State), (s.Quiet) ∧ (s.meas = none)) ∧
    (∃ (s : State), (s.Quiet)) ∧
    (∃ (s : State), (s.Quiet)) ∧
    (∃ (s : State) (m : Meas), (s.Quiet) ∧ (s.meas = some m)) ∧
    (∃ (s : State) (m : Meas), (s.Quiet) ∧ (s.meas = some m)) ∧
    (∃ (s : State) (m : Meas), (s.Quiet) ∧ (s.meas = some m)) ∧
    (∃ (s : State) (m : Meas), (s.Quiet) ∧ (s.meas = some m)) ∧
    (∃ (s : State) (m : Meas), let ns := s.fld F.MSR_LSAMP_NS 0; (s.Quiet) ∧ (s.meas = some m) ∧ (m.op = 1) ∧ (m.ended = true) ∧ (m.got1.length = ns) ∧ (m.got2.length = ns)) ∧
    (∃ (s : State), (s.Quiet)) ∧
    (∃ (s : State) (m : Meas), (s.Quiet) ∧ (s.meas = some m)) ∧
    (∃ (s : State) (m : Meas), (s.Quiet) ∧ (s.meas = some m)) ∧
    (∃ (s : State) (m : Meas), (s.Quiet) ∧ (s.meas = some m)) ∧
    (∃ (s : State) (m : Meas), (s.Quiet) ∧ (s.meas = some m)) ∧
    (∃ (s : State) (m : Meas), (s.Quiet) ∧ (s.meas = some m)) :=
  ⟨⟨(up), (.sup 0), (quiet_of (by decide +kernel)), (takes_of (by decide +kernel)), (by decide +kernel)⟩,
   ⟨(up.setPair .MSR_STARTL .MSR_STARTH 0 64), (.sup 0), (quiet_of (by decide +kernel)), (takes_of (by decide +kernel)), (by decide +kernel)⟩,
   ⟨(up.setPair .MSR_STARTL .MSR_STARTH 0 63), (.sup 0), (quiet_of (by decide +kernel)), (takes_of (by decide +kernel)), (by decide +kernel)⟩,
   ⟨(up.setFld F.MSR_STAT_BUSY 0 1), (.sup 0), (quiet_of (by decide +kernel)), (takes_of (by decide +kernel)), (by decide +kernel)⟩,
   ⟨({ up.setRegN .MSR_CTL 0 8 with measWas := some (0, ⟨2, 8, 64, true, 0, false, [], [], true, true⟩, false) }), (.sup 0), (quiet_of (by decide +kernel)), (takes_of (by decide +kernel)), (by decide +kernel)⟩,
   ⟨(({ up with meas := some ⟨3, 5, 64, true, 0, false, [], [], true, false⟩ } : State).setRegN .MSR_CTL 0 0xC), (.sup 0), (quiet_of (by decide +kernel)), (takes_of (by decide +kernel)), (by decide +kernel)⟩,
   ⟨(up.setRegN .MSR_CTL 0 4), (.sup 0), (quiet_of (by decide +kernel)), (takes_of (by decide +kernel)), (by decide +kernel)⟩,
   ⟨(({ up with meas := some ⟨1, 5, 64, true, 0, false, [], [], true, false⟩ } : State).setRegN .MSR_CTL 0 4), (.sup 0), (quiet_of (by decide +kernel)), (takes_of (by decide +kernel)), (by decide +kernel)⟩,
   ⟨({ up with meas := some ⟨3, 0xC, 64, false, 0, false, [], [], true, false⟩ }), (⟨3, 0xC, 64, false, 0, false, [], [], true, false⟩), (quiet_of (by decide +kernel)), (by decide +kernel)⟩,
   ⟨({ up.setFld F.PMU_MODE_CUR 0 8 with meas := some ⟨3, 0xC, 64, false, 0, false, [], [], true, false⟩ }), (⟨3, 0xC, 64, false, 0, false, [], [], true, false⟩), (quiet_of (by decide +kernel)), (by decide +kernel)⟩,
   ⟨({ up with meas := some ⟨3, 0x1A0C, 64, false, 0, false, [], [], true, false⟩ }), (⟨3, 0x1A0C, 64, false, 0, false, [], [], true, false⟩), (quiet_of (by decide +kernel)), (by decide +kernel)⟩,
   ⟨({ up.setFld F.MSR_LSAMP_NS 0 4 |>.setFld F.CV_CTL_EN 0 1 with meas := some ⟨1, 5, 64, true, 0, false, [], [], true, false⟩ }), (⟨1, 5, 64, true, 0, false, [], [], true, false⟩), (quiet_of (by decide +kernel)), (by decide +kernel)⟩,
   ⟨({ up.setFld F.MSR_LSAMP_NS 0 4 with meas := some ⟨1, 5, 64, true, 8, false, [], [], true, false⟩ }), (⟨1, 5, 64, true, 8, false, [], [], true, false⟩), (quiet_of (by decide +kernel)), (by decide +kernel)⟩,
   ⟨({ up.setFld F.MSR_LSAMP_NS 0 4 with meas := some ⟨1, 5, 64, true, 7, false, [], [], true, false⟩ }), (⟨1, 5, 64, true, 7, false, [], [], true, false⟩), (quiet_of (by decide +kernel)), (by decide +kernel)⟩,
   ⟨({ (((up.setFld F.MSR_LSAMP_NS 0 4).setFld F.MSR_LSAMP_SPACE 0 125).setRegN .MSR_LVOLT 0 0x41200000) with meas := some ⟨1, 5, 64, true, 8, true, [0x3F800000, 0x40000000, 0x40400000, 0x40800000], [0x40800000, 0x40600000, 0x40400000, 0x40200000], true, false⟩ }), (⟨1, 5, 64, true, 8, true, [0x3F800000, 0x40000000, 0x40400000, 0x40800000], [0x40800000, 0x40600000, 0x40400000, 0x40200000], true, false⟩), (quiet_of (by decide +kernel)), (by decide +kernel)⟩,
   ⟨(({ up with meas := some ⟨2, 5, 64, true, 0, false, [], [], true, false⟩ } : State).setFld F.MSR_TCFG_THR 0 100), (⟨2, 5, 64, true, 0, false, [], [], true, false⟩), (quiet_of (by decide +kernel)), (by decide +kernel)⟩,
   ⟨({ up with meas := some ⟨3, 5, 64, true, 0, false, [], [], true, false⟩ }), (⟨3, 5, 64, true, 0, false, [], [], true, false⟩), (quiet_of (by decide +kernel)), (by decide +kernel)⟩,
   ⟨(up), (quiet_of (by decide +kernel)), (by decide +kernel)⟩,
   ⟨({ up with rail := 13 }), (quiet_of (by decide +kernel))⟩,
   ⟨({ up with rail := 15 }), (quiet_of (by decide +kernel))⟩,
   ⟨({ up.setFld F.EP_STAT_TRIPPED 0 1 with meas := some ⟨1, 5, 64, true, 0, false, [], [], true, false⟩ }), (⟨1, 5, 64, true, 0, false, [], [], true, false⟩), (quiet_of (by decide +kernel)), (by decide +kernel)⟩,
   ⟨({ up with meas := some ⟨3, 0xC, 64, true, 0, false, [], [], true, false⟩ }), (⟨3, 0xC, 64, true, 0, false, [], [], true, false⟩), (quiet_of (by decide +kernel)), (by decide +kernel)⟩,
   ⟨({ up.setFld F.EP_CTL_ENABLE 0 1 |>.setFld F.EP_CTL_TT 0 1 |>.setFld F.EP_CTL_COMPL 0 1 |>.setFld F.CV_CTL_EN 0 1 |>.setFld F.CV_CTL_FMT 0 2 |>.setFld F.CV_SCAN_MASK 0 1 |>.setFld F.MSR_LSAMP_NS 0 4 |>.setFld F.MSR_LSAMP_SPACE 0 1000 |>.setFld F.MSR_LSAMP_SKIP 0 10 |>.setFld F.MSR_LTIME_TON 0 60000 |>.setFld F.MSR_LTIME_TOFF 0 60000 |>.setFld F.PMU_MODE_CUR 0 9 |>.setFld F.CV_ROTSTAT_CALDONE 0 1 with meas := some ⟨1, 5, 64, false, 0, false, [], [], true, false⟩ }), (⟨1, 5, 64, false, 0, false, [], [], true, false⟩), (quiet_of (by decide +kernel)), (by decide +kernel)⟩,
   ⟨({ up.setFld F.EP_CTL_ENABLE 0 1 |>.setFld F.EP_CTL_TT 0 1 |>.setFld F.EP_CTL_COMPL 0 1 |>.setFld F.CV_CTL_EN 0 1 |>.setFld F.CV_CTL_FMT 0 2 |>.setFld F.CV_SCAN_MASK 0 1 |>.setFld F.MSR_LSAMP_NS 0 4 |>.setFld F.MSR_LSAMP_SPACE 0 1000 |>.setFld F.MSR_LSAMP_SKIP 0 10 |>.setFld F.MSR_LTIME_TON 0 60000 |>.setFld F.MSR_LTIME_TOFF 0 60000 |>.setFld F.PMU_MODE_CUR 0 9 |>.setFld F.CV_ROTSTAT_CALDONE 0 1 with meas := some ⟨1, 5, 64, true, 0, false, [], [], true, false⟩ }), (⟨1, 5, 64, true, 0, false, [], [], true, false⟩), (quiet_of (by decide +kernel)), (by decide +kernel)⟩,
   ⟨({ (((up.setFld F.MSR_LSAMP_NS 0 4).setFld F.MSR_LSAMP_SPACE 0 125).setRegN .MSR_LVOLT 0 0x41200000) with meas := some ⟨1, 5, 64, true, 8, true, [0, 0, 0, 0], [0, 0, 0, 0], true, false⟩ }), (⟨1, 5, 64, true, 8, true, [0, 0, 0, 0], [0, 0, 0, 0], true, false⟩), (quiet_of (by decide +kernel)), (by decide +kernel)⟩,
   ⟨(up.setRegN .PMU_DOMSTAT 0 0xFFFFD), (quiet_of (by decide +kernel))⟩,
   ⟨({ up.setFld F.PMU_MODE_CUR 0 8 with meas := some ⟨1, 5, 64, true, 0, false, [], [], true, false⟩ }), (⟨1, 5, 64, true, 0, false, [], [], true, false⟩), (quiet_of (by decide +kernel)), (by decide +kernel)⟩,
   ⟨({ owns 2 0 with meas := some ⟨1, 5, 64, true, 0, false, [], [], true, false⟩ }), (⟨1, 5, 64, true, 0, false, [], [], true, false⟩), (quiet_of (by decide +kernel)), (by decide +kernel)⟩,
   ⟨({ owns 2 1 with meas := some ⟨1, 5, 64, true, 0, false, [], [], true, false⟩ }), (⟨1, 5, 64, true, 0, false, [], [], true, false⟩), (quiet_of (by decide +kernel)), (by decide +kernel)⟩,
   ⟨({ up.setFld F.PMU_MODE_CUR 0 8 with meas := some ⟨1, 5, 64, true, 0, false, [], [], false, false⟩ }), (⟨1, 5, 64, true, 0, false, [], [], false, false⟩), (quiet_of (by decide +kernel)), (by decide +kernel)⟩,
   ⟨({ up.setFld F.PMU_MODE_CUR 0 5 with meas := some ⟨1, 5, 64, true, 0, false, [], [], false, false⟩ }), (⟨1, 5, 64, true, 0, false, [], [], false, false⟩), (quiet_of (by decide +kernel)), (by decide +kernel)⟩⟩

theorem witness_SuppliesAndModes :
    (∃ (s : State), (s.Quiet)) ∧
    (∃ (s : State), (s.Quiet)) ∧
    (∃ (s : State) (who : Initiator), (s.Quiet) ∧ (s.Takes who .PMU_SUPPLY 0)) ∧
    (∃ (s : State) (who : Initiator), (s.Quiet) ∧ (s.Takes who .PMU_SUPPLY 0)) ∧
    (∃ (s : State) (who : Initiator), (s.Quiet) ∧ (s.Takes who .PMU_SUPPLY 0)) ∧
    (∃ (s : State) (who : Initiator), (s.Quiet) ∧ (s.Takes who .PMU_SUPPLY 0)) ∧
    (∃ (s : State), (s.Quiet)) ∧
    (∃ (s : State), (s.Quiet)) ∧
    (∃ (s : State), (s.Quiet)) ∧
    (∃ (s : State) (who : Initiator), (s.Quiet) ∧ (s.Takes who .PMU_DOMEN 0)) ∧
    (∃ (s : State) (who : Initiator), (s.Quiet) ∧ (s.Takes who .PMU_DOMEN 0)) ∧
    (∃ (s : State) (who : Initiator), (s.Quiet) ∧ (s.Takes who .PMU_DOMEN 0)) ∧
    (∃ (s : State), (s.Quiet)) ∧
    (∃ (s : State), (s.Quiet)) ∧
    (∃ (s : State), (s.Quiet)) ∧
    (∃ (s : State) (d : Fin 20), (s.Quiet) ∧ (1 < d.val)) ∧
    (∃ (s : State) (who : Initiator), (s.Quiet) ∧ (s.Takes who .PMU_MODEREQ 0)) ∧
    (∃ (s : State) (who : Initiator), (s.Quiet) ∧ (s.Takes who .PMU_MODEREQ 0)) ∧
    (∃ (s : State) (who : Initiator), (s.Quiet) ∧ (s.Takes who .PMU_MODEREQ 0)) ∧
    (∃ (s : State) (who : Initiator), (s.Quiet) ∧ (s.Takes who .PMU_MODEREQ 0)) ∧
    (∃ (s : State) (m : Nat), (s.Quiet) ∧ (s.trans = some m) ∧ (2 < m)) ∧
    (∃ (s : State) (m : Nat), (s.Quiet) ∧ (s.trans = some m) ∧ (2 < m)) ∧
    (∃ (s : State) (m : Nat), (s.Quiet) ∧ (m ≤ 2)) ∧
    (∃ (s : State) (m : Nat), (s.Quiet) ∧ (m ≤ 2)) ∧
    (∃ (s : State), (s.Quiet)) ∧
    (∃ (s : State), (s.Quiet)) ∧
    (∃ (s : State), (s.Quiet)) ∧
    (∃ (s : State) (who : Initiator), (s.Quiet) ∧ (s.Takes who .PMU_MODEREQ 0)) ∧
    (∃ (s : State) (who : Initiator), (s.Quiet) ∧ (s.Takes who .PMU_MODEREQ 0)) ∧
    (∃ (s : State), (s.Quiet)) ∧
    (∃ (s : State), (s.Quiet)) ∧
    (∃ (s : State), (s.Quiet)) ∧
    (∃ (s : State) (m : Nat), (s.Quiet) ∧ (m ≤ 2)) ∧
    (∃ (s : State), (s.Quiet)) ∧
    (∃ (s : State), (s.Quiet)) ∧
    (∃ (s : State), (s.Quiet)) ∧
    (∃ (s : State) (who : Initiator), (s.Quiet) ∧ (s.Takes who .PMU_MODEREQ 0)) ∧
    (∃ (s : State), (s.Quiet)) ∧
    (∃ (s : State), (s.Quiet)) ∧
    (∃ (s : State), (s.Quiet)) ∧
    (∃ (s : State), (s.Quiet)) ∧
    (∃ (s : State), (s.Quiet)) ∧
    (∃ (s : State), (s.Quiet)) ∧
    (∃ (s : State), (s.Quiet)) :=
  ⟨⟨(({ up with supply := ⟨true, true, true, true, false⟩ } : State)), (quiet_of (by decide +kernel))⟩,
   ⟨(up), (quiet_of (by decide +kernel))⟩,
   ⟨(up), (.sup 0), (quiet_of (by decide +kernel)), (takes_of (by decide +kernel))⟩,
   ⟨(up.setFld F.PMU_MODE_CUR 0 9), (.sup 0), (quiet_of (by decide +kernel)), (takes_of (by decide +kernel))⟩,
   ⟨(up.setFld F.PMU_SUPPLY_FORCEBKP 0 1), (.sup 0), (quiet_of (by decide +kernel)), (takes_of (by decide +kernel))⟩,
   ⟨({ (up.setFld F.PMU_SUPPLY_FORCEBKP 0 1).setFld F.PMU_SUPPLY_MAINQUAL 0 1 with supply := ⟨true, true, true, true, true⟩ }), (.sup 0), (quiet_of (by decide +kernel)), (takes_of (by decide +kernel))⟩,
   ⟨(up.setFld F.PMU_SNSCTL_EN33 0 1), (quiet_of (by decide +kernel))⟩,
   ⟨(up.setFld F.PMU_REGSTAT_SPARE 0 128), (quiet_of (by decide +kernel))⟩,
   ⟨((up.setFld F.FLT_SRCE_ACTIVE 385 1).setFld F.CLK_STAT_ENGLOCK 0 1), (quiet_of (by decide +kernel))⟩,
   ⟨(up.setFld F.PMU_MODE_CUR 0 5), (.sup 0), (quiet_of (by decide +kernel)), (takes_of (by decide +kernel))⟩,
   ⟨(up), (.sup 0), (quiet_of (by decide +kernel)), (takes_of (by decide +kernel))⟩,
   ⟨((up.setFld F.PMU_MODE_CUR 0 4)), (.sup 0), (quiet_of (by decide +kernel)), (takes_of (by decide +kernel))⟩,
   ⟨({ up.setRegN .PMU_DOMSTAT 0 0xFFFDF with rising := [5] }), (quiet_of (by decide +kernel))⟩,
   ⟨({ up with falling := [13, 5] }), (quiet_of (by decide +kernel))⟩,
   ⟨({ up.setRegN .PMU_DOMSTAT 0 0x7FFFF with rising := [19, 5] }), (quiet_of (by decide +kernel))⟩,
   ⟨(up), (5), (quiet_of (by decide +kernel)), (by decide +kernel)⟩,
   ⟨({ up with escAt := 1 }), (.sup 0), (quiet_of (by decide +kernel)), (takes_of (by decide +kernel))⟩,
   ⟨(up), (.sup 0), (quiet_of (by decide +kernel)), (takes_of (by decide +kernel))⟩,
   ⟨(up.setFld F.PMU_MODE_CUR 0 5), (.sup 0), (quiet_of (by decide +kernel)), (takes_of (by decide +kernel))⟩,
   ⟨((up.setFld F.PMU_MODE_CUR 0 5)), (.sup 0), (quiet_of (by decide +kernel)), (takes_of (by decide +kernel))⟩,
   ⟨({ up.setFld F.PMU_MODE_CUR 0 2 with trans := some 5 }), (5), (quiet_of (by decide +kernel)), (by decide +kernel)⟩,
   ⟨({ (up.setRegN .PMU_DOMSTAT 0 0xF3FFF).setFld F.PMU_MODE_CUR 0 2 with trans := some 8 }), (8), (quiet_of (by decide +kernel)), (by decide +kernel)⟩,
   ⟨({ up.setFld F.PMU_MODE_CUR 0 5 with trans := some 1 }), (1), (quiet_of (by decide +kernel)), (by decide +kernel)⟩,
   ⟨({ up.setFld F.PMU_MODE_CUR 0 5 with trans := some 1, woke := some (2, 3) }), (1), (quiet_of (by decide +kernel)), (by decide +kernel)⟩,
   ⟨((up.setFld F.PMU_MODE_CUR 0 0).setRegN .PMU_WAKEEN 0 0xFFFF), (quiet_of (by decide +kernel))⟩,
   ⟨(up.setRegN .PMU_DOMSTAT 0 0xFFFFD), (quiet_of (by decide +kernel))⟩,
   ⟨(up.setRegN .PMU_DOMSTAT 0 0xFFFFB), (quiet_of (by decide +kernel))⟩,
   ⟨(up.setCore 0 { up.core 0 with pst := 3 }), (.sup 0), (quiet_of (by decide +kernel)), (takes_of (by decide +kernel))⟩,
   ⟨((up.setFld F.PMU_MODE_CUR 0 2)), (.sup 0), (quiet_of (by decide +kernel)), (takes_of (by decide +kernel))⟩,
   ⟨(up.setRegN .PMU_WAKEEN 0 0), (quiet_of (by decide +kernel))⟩,
   ⟨({ up.setRegN .PMU_WAKEEN 0 0xFFFF with trans := some 1 }), (quiet_of (by decide +kernel))⟩,
   ⟨(up.setRegN .PMU_WAKEEN 0 0xFFFF), (quiet_of (by decide +kernel))⟩,
   ⟨(up), (1), (quiet_of (by decide +kernel)), (by decide +kernel)⟩,
   ⟨({ up with supply := ⟨true, true, true, true, true⟩ }), (quiet_of (by decide +kernel))⟩,
   ⟨({ (up.setFld F.PMU_SUPPLY_FORCEBKP 0 1) with supply := ⟨true, true, true, true, true⟩, mainAt := some 1000 }), (quiet_of (by decide +kernel))⟩,
   ⟨({ up with supply := ⟨true, true, true, true, true⟩, mainAt := some 1000 }), (quiet_of (by decide +kernel))⟩,
   ⟨({ (up.setFld F.PMU_MODE_CUR 0 2) with trans := some 8 }), (.sup 0), (quiet_of (by decide +kernel)), (takes_of (by decide +kernel))⟩,
   ⟨({ up with supply := ⟨true, false, true, true, true⟩ }), (quiet_of (by decide +kernel))⟩,
   ⟨({ up with supply := ⟨false, true, true, true, true⟩ }), (quiet_of (by decide +kernel))⟩,
   ⟨({ up with supply := ⟨false, true, true, true, false⟩ }), (quiet_of (by decide +kernel))⟩,
   ⟨({ up with supply := ⟨false, false, true, true, false⟩ }), (quiet_of (by decide +kernel))⟩,
   ⟨({ up.setFld F.PMU_SUPPLY_FORCEBKP 0 1 with supply := ⟨true, true, true, true, false⟩ }), (quiet_of (by decide +kernel))⟩,
   ⟨({ up with rails := 2 ^ 12, supply := ⟨true, true, true, true, false⟩ }), (quiet_of (by decide +kernel))⟩,
   ⟨({ up.setFld F.PMU_STAT_OOR 0 1 with rails := 2 ^ 3, supply := ⟨false, true, true, true, false⟩ }), (quiet_of (by decide +kernel))⟩⟩

theorem witness_ResetsAndStarts :
    (∃ (s : State) (cause : Nat), (s.Quiet) ∧ (cause < 16)) ∧
    (∃ (s : State), (s.Quiet)) ∧
    (∃ (s : State), (s.Quiet)) ∧
    (∃ (s : State), (s.Quiet)) ∧
    (∃ (s : State) (who : Initiator), (s.Quiet) ∧ (s.Takes who .RST_WDKICK 0) ∧ (s.Takes who .RST_SWRST 0)) ∧
    (∃ (s : State), (s.Quiet)) ∧
    (∃ (s : State), (s.Quiet)) ∧
    (∃ (s : State), (s.Quiet)) ∧
    (∃ (s : State), (s.Quiet)) ∧
    (∃ (s : State), (s.Quiet)) ∧
    (∃ (s : State), (s.Quiet)) ∧
    (∃ (s : State), (s.Quiet)) ∧
    (∃ (s : State), (s.Quiet) ∧ (s.boot = .verify)) ∧
    (∃ (s : State), (s.Quiet) ∧ (s.boot = .verify)) ∧
    (∃ (s : State) (j : Nat), let p := bits (3 * j + 2) (3 * j) (s.fld F.RDC_PMAP_PAIR 0); (s.Quiet) ∧ (p < 5)) ∧
    (∃ (s : State) (who : Initiator), (s.Quiet) ∧ (s.Takes who .RST_CSTART 0)) ∧
    (∃ (s : State) (who : Initiator), (s.Quiet) ∧ (s.Takes who .RST_CSTART 0)) ∧
    (∃ (s : State) (who : Initiator), (s.Quiet) ∧ (s.Takes who .RST_BLKCTL 0)) ∧
    (∃ (s : State), (s.Quiet)) ∧
    (∃ (s : State) (who : Initiator), (s.Quiet) ∧ (s.Takes who .LCS_CMD 0)) ∧
    (∃ (s : State) (who : Initiator), (s.Quiet) ∧ (s.Takes who .LCS_CMD 0)) ∧
    (∃ (s : State) (who : Initiator), (s.Quiet) ∧ (s.Takes who .LCS_CMD 0)) ∧
    (∃ (s : State), (s.Quiet)) ∧
    (∃ (s : State), (s.Quiet)) ∧
    (∃ (s : State), (s.Quiet)) ∧
    (∃ (s : State), (s.Quiet) ∧ (s.boot = .verify)) ∧
    (∃ (s : State), (s.Quiet) ∧ (s.boot = .verify)) ∧
    (∃ (s : State), (s.Quiet)) ∧
    (∃ (s : State), (s.Quiet)) ∧
    (∃ (s : State), (s.Quiet)) :=
  ⟨⟨(up), (15), (quiet_of (by decide +kernel)), (by decide +kernel)⟩,
   ⟨(up.setFld F.RST_WDCTL_EN 0 1), (quiet_of (by decide +kernel))⟩,
   ⟨({ up with escDue := [1250, 2000] }), (quiet_of (by decide +kernel))⟩,
   ⟨(up.setFld F.LCS_STATE_ST 0 2), (quiet_of (by decide +kernel))⟩,
   ⟨(up), (.sup 0), (quiet_of (by decide +kernel)), (takes_of (by decide +kernel)), (takes_of (by decide +kernel))⟩,
   ⟨(State.reset), (quiet_of (by decide +kernel))⟩,
   ⟨({ up with boot := .hold }), (quiet_of (by decide +kernel))⟩,
   ⟨(up), (quiet_of (by decide +kernel))⟩,
   ⟨({ State.reset.setRegN .PMU_DOMSTAT 0 1 with boot := .release 1 }), (quiet_of (by decide +kernel))⟩,
   ⟨({ State.reset.setRegN .PMU_DOMSTAT 0 7 with boot := .release 3 }), (quiet_of (by decide +kernel))⟩,
   ⟨({ State.reset.setRegN .PMU_DOMSTAT 0 0x7FFFF with boot := .release 19 }), (quiet_of (by decide +kernel))⟩,
   ⟨({ up.setFld F.CLK_STAT_SUPLOCK 0 1 with boot := .load }), (quiet_of (by decide +kernel))⟩,
   ⟨({ up.setFld F.LCS_STATE_ST 0 0 with boot := .verify }), (quiet_of (by decide +kernel)), (by decide +kernel)⟩,
   ⟨({ up.setFld F.LCS_STATE_ST 0 1 with boot := .verify }), (quiet_of (by decide +kernel)), (by decide +kernel)⟩,
   ⟨(up), (0), (quiet_of (by decide +kernel)), (by decide +kernel)⟩,
   ⟨(up), (.sup 0), (quiet_of (by decide +kernel)), (takes_of (by decide +kernel))⟩,
   ⟨(up.setFld F.RST_BOOTSTAT_HELD 0 1), (.debug), (quiet_of (by decide +kernel)), (takes_of (by decide +kernel))⟩,
   ⟨(up), (.sup 0), (quiet_of (by decide +kernel)), (takes_of (by decide +kernel))⟩,
   ⟨({ up with block := some 0x5E }), (quiet_of (by decide +kernel))⟩,
   ⟨((up.setFld F.PMU_MODE_CUR 0 5).setFld F.LCS_STATE_ST 0 1), (.sup 0), (quiet_of (by decide +kernel)), (takes_of (by decide +kernel))⟩,
   ⟨((up.setFld F.PMU_MODE_CUR 0 9).setFld F.LCS_STATE_ST 0 1), (.sup 0), (quiet_of (by decide +kernel)), (takes_of (by decide +kernel))⟩,
   ⟨(up), (.sup 0), (quiet_of (by decide +kernel)), (takes_of (by decide +kernel))⟩,
   ⟨((up.setFld F.PMU_MODE_CUR 0 11).setFld F.LCS_STATE_RQ 0 3), (quiet_of (by decide +kernel))⟩,
   ⟨({ up with boot := .done }), (quiet_of (by decide +kernel))⟩,
   ⟨({ up.setFld F.CLK_STAT_SUPLOCK 0 1 |>.setFld F.LCS_STATE_RQ 0 2 with boot := .load, life := (1, 2) }), (quiet_of (by decide +kernel))⟩,
   ⟨({ up.setFld F.LCS_STATE_ST 0 4 with boot := .verify }), (quiet_of (by decide +kernel)), (by decide +kernel)⟩,
   ⟨({ up.setFld F.LCS_STATE_ST 0 1 |>.setOpt 0 0 0 with boot := .verify }), (quiet_of (by decide +kernel)), (by decide +kernel)⟩,
   ⟨({ up with block := some 0x47 }), (quiet_of (by decide +kernel))⟩,
   ⟨({ up with block := some 0x53 }), (quiet_of (by decide +kernel))⟩,
   ⟨({ up with block := some 0x63 }), (quiet_of (by decide +kernel))⟩⟩

theorem witness_SafetyAndGeneral :
    (∃ (s : State) (z : State) (c : Nat) (u : Nat), (s.Quiet) ∧ (z.raised = [(c, u)]) ∧ (z.notes = []) ∧ (c < 16)) ∧
    (∃ (s : State) (l : List (Nat × Nat)) (x : Nat × Nat), (s.Quiet) ∧ (lowestEvent l = some x)) ∧
    (∃ (s : State) (m : Nat), (s.Quiet) ∧ (s.mode = m) ∧ (s.trans = none) ∧ (s.modeReq = none)) ∧
    (∃ (s : State) (m : Nat), (s.Quiet) ∧ (s.mode = m) ∧ (s.trans = none) ∧ (s.modeReq = none)) ∧
    (∃ (s : State) (m : Nat), (s.Quiet) ∧ (s.mode = m) ∧ (s.trans = none) ∧ (s.modeReq = none)) ∧
    (∃ (s : State) (who : Initiator), (s.Quiet) ∧ (s.Takes who .SAF_ACK 0) ∧ (s.Takes who .SAF_SWEV 0)) ∧
    (∃ (s : State) (who : Initiator), (s.Quiet) ∧ (s.Takes who .SAF_ACK 0) ∧ (s.Takes who .SAF_SWEV 0)) ∧
    (∃ (s : State) (who : Initiator), (s.Quiet) ∧ (s.Takes who .SAF_ACK 0) ∧ (s.Takes who .SAF_SWEV 0)) ∧
    (∃ (s : State), (s.Quiet)) ∧
    (∃ (s : State), (s.Quiet)) ∧
    (∃ (s : State) (who : Initiator) (port : Fin 10), let q := port.val; let r := (txReg q).1; let i := (txReg q).2; (s.Quiet) ∧ (s.Takes who r i) ∧ (s.alive 19 = true)) ∧
    (∃ (s : State) (who : Initiator) (port : Fin 10), let q := port.val; let r := (txReg q).1; let i := (txReg q).2; (s.Quiet) ∧ (s.Takes who r i) ∧ (s.alive 19 = true)) ∧
    (∃ (s : State) (who : Initiator) (port : Fin 10), let q := port.val; let r := (txReg q).1; let i := (txReg q).2; (s.Quiet) ∧ (s.Takes who r i) ∧ (s.alive 19 = true)) ∧
    (∃ (s : State), (s.Quiet) ∧ (s.alive 19 = true)) ∧
    (∃ (s : State), (s.Quiet) ∧ (s.alive 19 = true)) ∧
    (∃ (s : State), (s.Quiet) ∧ (s.alive 19 = true)) ∧
    (∃ (s : State), (s.Quiet)) ∧
    (∃ (s : State), (s.Quiet)) ∧
    (∃ (s : State), (s.Quiet)) ∧
    (∃ (s : State), (s.Quiet)) ∧
    (∃ (s : State), (s.Quiet)) ∧
    (∃ (s : State), (s.Quiet)) ∧
    (∃ (s : State), (s.Quiet)) ∧
    (∃ (s : State), (s.Quiet)) ∧
    (∃ (s : State), (s.Quiet)) ∧
    (∃ (s : State), (s.Quiet)) ∧
    (∃ (s : State), (s.Quiet) ∧ (s.alive 19 = true)) ∧
    (∃ (s : State), (s.Quiet)) ∧
    (∃ (s : State), (s.Quiet)) ∧
    (∃ (s : State) (m : Nat), (s.Quiet) ∧ (s.mode = m) ∧ (s.trans = none) ∧ (s.modeReq = none)) ∧
    (∃ (s : State) (m : Nat), (s.Quiet) ∧ (s.mode = m) ∧ (s.trans = none) ∧ (s.modeReq = none)) :=
  ⟨⟨(up), ({ up with raised := [(5, 63)] }), (5), (63), (quiet_of (by decide +kernel)), (by decide +kernel)⟩,
   ⟨(up), ([(7, 1), (3, 2), (3, 4)]), ((3, 2)), (quiet_of (by decide +kernel)), (by decide +kernel)⟩,
   ⟨(up), (6), (quiet_of (by decide +kernel)), (by decide +kernel)⟩,
   ⟨(up.setFld F.PMU_MODE_CUR 0 2), (2), (quiet_of (by decide +kernel)), (by decide +kernel)⟩,
   ⟨(up.setFld F.PMU_MODE_CUR 0 8), (8), (quiet_of (by decide +kernel)), (by decide +kernel)⟩,
   ⟨({ up.setFld F.SAF_STAT_ESC 0 1 with safen := true }), (.sup 0), (quiet_of (by decide +kernel)), (takes_of (by decide +kernel)), (takes_of (by decide +kernel))⟩,
   ⟨(up), (.sup 0), (quiet_of (by decide +kernel)), (takes_of (by decide +kernel)), (takes_of (by decide +kernel))⟩,
   ⟨(up.setCore 0 { up.core 0 with pst := 3 }), (.sup 0), (quiet_of (by decide +kernel)), (takes_of (by decide +kernel)), (takes_of (by decide +kernel))⟩,
   ⟨({ up with boot := .done }), (quiet_of (by decide +kernel))⟩,
   ⟨({ up with safen := true, boot := .done, safenAt := some 5 }), (quiet_of (by decide +kernel))⟩,
   ⟨(up), (.sup 0), (9), (quiet_of (by decide +kernel)), (takes_of (by decide +kernel)), (by decide +kernel)⟩,
   ⟨(up.setPort 4 { up.port 4 with tx := List.replicate 16 1 }), (.sup 0), (4), (quiet_of (by decide +kernel)), (takes_of (by decide +kernel)), (by decide +kernel)⟩,
   ⟨(up.setPort 3 { up.port 3 with tx := List.replicate 15 1 }), (.sup 0), (3), (quiet_of (by decide +kernel)), (takes_of (by decide +kernel)), (by decide +kernel)⟩,
   ⟨((up.setFld F.PMB_CTL_EN 3 1).setPort 3 { up.port 3 with tx := [1025, 2] }), (quiet_of (by decide +kernel)), (by decide +kernel)⟩,
   ⟨((up.setFld F.UART_CTL_EN 1 1).setPort 9 { up.port 9 with rx := List.replicate 16 2 }), (quiet_of (by decide +kernel)), (by decide +kernel)⟩,
   ⟨(up), (quiet_of (by decide +kernel)), (by decide +kernel)⟩,
   ⟨(up.setFld F.PMB_CTL_PEC 3 1), (quiet_of (by decide +kernel))⟩,
   ⟨(up.setFld F.UART_CTL_PARITY 1 3), (quiet_of (by decide +kernel))⟩,
   ⟨(up.setRegN .GPIO_IMODEF 0 (2 ^ 30)), (quiet_of (by decide +kernel))⟩,
   ⟨((up.setRegN .GPIO_IMODEC 0 3).setRegN .GPIO_DIRB 0 1), (quiet_of (by decide +kernel))⟩,
   ⟨(up.setFld F.PMU_MODE_CUR 0 9), (quiet_of (by decide +kernel))⟩,
   ⟨(up), (quiet_of (by decide +kernel))⟩,
   ⟨(up.setFld F.LCS_STATE_ST 0 1), (quiet_of (by decide +kernel))⟩,
   ⟨((up.setFld F.LCS_STATE_ST 0 1).poke 0x20000000 8 77 |>.setChk 0x20000000 .valid), (quiet_of (by decide +kernel))⟩,
   ⟨({ up with boot := .done, safen := true }), (quiet_of (by decide +kernel))⟩,
   ⟨({ up with boot := .hold, safen := true }), (quiet_of (by decide +kernel))⟩,
   ⟨((up.setFld F.SPI_CTL_EN 3 1).setPort 7 { up.port 7 with tx := [1] }), (quiet_of (by decide +kernel)), (by decide +kernel)⟩,
   ⟨(up.setRegN .PMU_DOMSTAT 0 0x7FFFF), (quiet_of (by decide +kernel))⟩,
   ⟨(((((up.setFld F.LCS_STATE_ST 0 1).setCore 0 { up.core 0 with tsbr := 0x20000200, vtbr := 0x20001000 }).poke 0x200010D0 16 (2 ^ 64 * 0x20000800 + 0x20002000)).setChk 0x200010D0 .valid).setChk 0x200010D8 .valid), (quiet_of (by decide +kernel))⟩,
   ⟨({ up.setFld F.PMU_MODE_CUR 0 9 with reqAt := some (0, 8) }), (9), (quiet_of (by decide +kernel)), (by decide +kernel)⟩,
   ⟨(up.setFld F.PMU_MODE_CUR 0 4), (4), (quiet_of (by decide +kernel)), (by decide +kernel)⟩⟩

theorem witness_ResetLeaves : isSram 0x20000000 = true := by decide

end Sys2Proof.Tests
end

section
/-! SUPPORT. What leaves a state with nothing to be acted on (R558, R564), and fields and bytes of a state after an update. -/

namespace Sys2Proof.Laws
open Sys2Proof.Machine

variable {s t : State}

/-- A command that comes to a quiet state ends there. -/
theorem ends_of_eq (h : s = t) (ht : t.Quiet) : s.ends = .next t := by rw [h, ends_of_quiet ht]

/-! What leaves a state quiet (R558, R564): an update that raises no safety event and notes nothing of an edge pair. -/

theorem quiet_setRegN (h : s.Quiet) (r : Reg) (i v : Nat) : (s.setRegN r i v).Quiet := h
theorem quiet_setFld (h : s.Quiet) (f : Fld) (i v : Nat) : (s.setFld f i v).Quiet := h
theorem quiet_setPair (h : s.Quiet) (lo hi : Reg) (i v : Nat) : (s.setPair lo hi i v).Quiet := h
theorem quiet_setByte (h : s.Quiet) (a : Nat) (v : Byte) : (s.setByte a v).Quiet := h
theorem quiet_setAlmLate (h : s.Quiet) (a u : Nat) : (s.setAlmLate a u).Quiet := h

theorem quiet_setBytes (l : List Byte) : ∀ {s : State} (_ : s.Quiet) (a : Nat), (s.setBytes a l).Quiet := by
  induction l with
  | nil => exact fun h _ => h
  | cons b l ih => exact fun h a => ih (quiet_setByte h a b) (a + 1)

theorem quiet_repeatN {f : Nat → State → State} (hf : ∀ k t, t.Quiet → (f k t).Quiet) (h : s.Quiet) (n : Nat) :
    (repeatN n f s).Quiet := repeatN_inv State.Quiet n f hf s h

theorem quiet_hostReply (h : s.Quiet) (q : HostReq) (st : Nat) (data : List Byte) : (s.hostReply q st data).Quiet := by
  unfold State.hostReply
  split <;> exact h

theorem quiet_msixSend (h : s.Quiet) (vec : Nat) : (s.msixSend vec).Quiet := by
  unfold State.msixSend
  split <;> exact h

theorem quiet_msixUnmask (h : s.Quiet) (lo hi : Nat) : (s.msixUnmask lo hi).Quiet :=
  quiet_repeatN (fun k t h => by dsimp only; split <;> exact h) h _

theorem quiet_sendIrq (h : s.Quiet) (vec : Nat) : (s.sendIrq vec).Quiet := by
  unfold State.sendIrq
  split
  · exact quiet_msixSend h vec
  · split <;> exact h

theorem quiet_numFlood (h : s.Quiet) (but : Option Nat) (uid num src hops : Nat) :
    (s.numFlood but uid num src hops).Quiet :=
  quiet_repeatN (fun k t h => by split <;> exact h) h _

theorem quiet_setLock (h : s.Quiet) (v : Bool) : (s.setLock v).Quiet := by
  unfold State.setLock
  dsimp only
  split <;> exact h

/-- Exchanges given up leave a state quiet. -/
theorem quiet_sync (h : s.Quiet) (x : Sync) : ({ s with sync := x } : State).Quiet := quiet_of_eq h rfl rfl

theorem quiet_quartzTree (h : s.Quiet) : s.quartzTree.Quiet := by
  unfold State.quartzTree
  split
  · exact h
  · extract_lets u
    have hu : u.Quiet := quiet_setFld h ..
    clear_value u
    split
    · exact quiet_setLock (quiet_sync (quiet_setFld (quiet_setFld hu ..) ..) _) _
    · cases u.gdnUpstream with
      | none => exact quiet_setLock (quiet_sync (quiet_setFld (quiet_setFld hu ..) ..) _) _
      | some p =>
        dsimp only
        split
        · exact quiet_setLock (quiet_sync (quiet_setFld (quiet_setFld hu ..) ..) _) _
        · exact hu

theorem quiet_gdnRefresh (h : s.Quiet) : s.gdnRefresh.Quiet := by
  unfold State.gdnRefresh
  have hr := quiet_repeatN (fun p t ht => quiet_setFld ht F.GDN_STAT_ROLE p (((List.range 4).map s.gdnRole).getD p 0))
    (quiet_setFld h F.HIF_STAT_ROOT 0 (b2n s.isRoot)) 4
  dsimp only
  split
  · exact quiet_quartzTree (quiet_setPair hr ..)
  · exact quiet_quartzTree hr

theorem quiet_configWord (h : s.Quiet) (k : Nat) : (s.configWord k).2.Quiet := by
  unfold State.configWord
  split
  · exact h
  · split <;> exact h

theorem quiet_configRead (h : s.Quiet) (off n : Nat) : (s.configRead off n).2.Quiet :=
  repeatN_inv (fun x : List Byte × State => x.2.Quiet) _ _ (fun _ _ h => quiet_configWord h _) _ h

theorem quiet_postNote (h : s.Quiet) (m : Nat) : (s.postNote m).Quiet := by
  unfold State.postNote
  split <;> exact h

theorem quiet_postUnder (h : s.Quiet) (m : Nat) (p : Posted) : (s.postUnder m p).Quiet := by
  unfold State.postUnder
  dsimp only
  split <;> exact h

/-! Bytes and fields. -/

@[simp] theorem length_leBytes (n v : Nat) : (leBytes n v).length = n := by
  induction n generalizing v with
  | zero => rfl
  | succ n ih => simp [leBytes, ih]

/-- A field of another register stands. -/
theorem fld_setFld_ne {f g : Fld} {i j : Nat} (v : Nat) (h : g.reg.key j ≠ f.reg.key i) : (s.setFld f i v).fld g j = s.fld g j := by
  unfold State.fld State.regN
  rw [show (s.setFld f i v).reg g.reg j = s.reg g.reg j from reg_setReg_ne s _ h]

theorem setBits_shiftRight (lo w v n : Nat) : setBits lo w v n >>> (lo + w) = n >>> (lo + w) := by
  have hlow : (v % 2 ^ w) <<< lo + n % 2 ^ lo < 2 ^ (lo + w) := by
    have hv : v % 2 ^ w < 2 ^ w := Nat.mod_lt _ (by positivity)
    have hn : n % 2 ^ lo < 2 ^ lo := Nat.mod_lt _ (by positivity)
    have hm := Nat.mul_le_mul_right (2 ^ lo) hv
    rw [Nat.succ_mul] at hm
    rw [Nat.shiftLeft_eq, Nat.add_comm lo w, Nat.pow_add]
    omega
  unfold setBits
  rw [Nat.add_assoc, Nat.shiftLeft_eq _ (lo + w), Nat.shiftRight_eq_div_pow _ (lo + w), Nat.mul_comm,
    Nat.mul_add_div (by positivity), Nat.div_eq_of_lt hlow, Nat.add_zero, Nat.shiftRight_eq_div_pow]

/-- A field above the one replaced stands. -/
theorem bits_setBits_above {lo w lo' : Nat} (hi v n : Nat) (h : lo + w ≤ lo') : bits hi lo' (setBits lo w v n) = bits hi lo' n := by
  obtain ⟨d, rfl⟩ := Nat.exists_eq_add_of_le h
  unfold bits
  rw [Nat.shiftRight_add, setBits_shiftRight, ← Nat.shiftRight_add]

/-- A field that lies in the low k bits is a field of those bits. -/
theorem bits_mod_two_pow {hi k : Nat} (lo n : Nat) (h : hi < k) : bits hi lo (n % 2 ^ k) = bits hi lo n := by
  unfold bits
  refine Nat.eq_of_testBit_eq fun j => ?_
  simp only [Nat.testBit_mod_two_pow, Nat.testBit_shiftRight]
  by_cases hj : j < hi + 1 - lo
  · have hk : lo + j < k := by omega
    simp [hj, hk]
  · simp [hj]

/-- A field above another one of the same register stands when that one is written. -/
theorem fld_setFld_above {f g : Fld} (i v : Nat) (hr : g.reg = f.reg) (h : f.lo + f.width ≤ g.lo) (hg : g.lo + g.width ≤ 32) :
    (s.setFld f i v).fld g i = s.fld g i := by
  unfold State.fld State.setFld State.setRegN State.regN
  rw [hr, reg_setReg, BitVec.toNat_ofNat, bits_mod_two_pow _ _ (by omega), bits_setBits_above _ _ _ h]

end Sys2Proof.Laws
end

section
/-! SUPPORT. The host link (R478 to R488): where an access leads, what each of its parts comes to, and the operations of SPI, MSI-X,
mailboxes, device numbers and alarms. -/

namespace Sys2Proof.Laws
open Sys2Proof.Machine

variable {s t : State}

/-! Where a host access leads (R481). -/

/-- The device that a place of host space leads to, and in its remote view and its own map the address reached (R481, R483, R579). -/
def placeView : HostPlace → Option (Nat × Nat × Nat)
  | .region d o => some (d, 0x1C00E0000 + o, 0x4000E0000 + o)
  | .aperture d o => (viewAddr o).map (fun a => (d, o, a))
  | .nowhere => none

theorem hostPlace_own {h : Nat} (hh : h < 0x10000) : s.hostPlace h = .region s.devNum h := if_pos hh

/-- BAR2 reaches 64 devices in 16 MiB each: the host region, a gap, and the aperture (R481). -/
theorem hostPlace_bar2 {x : Nat} (hx : x < 0x40000000) : s.hostPlace (0x40000000 + x) =
    if x % 0x1000000 < 0x10000 then .region (x / 0x1000000) (x % 0x1000000)
    else if x % 0x1000000 < 0x800000 then .nowhere
    else .aperture (x / 0x1000000) (s.fld F.HIF_APER_BASE (x / 0x1000000) * 0x800000 + (x % 0x1000000 - 0x800000)) := by
  have hm : (0x40000000 + x) % 0x1000000 = x % 0x1000000 := by omega
  have hd : (0x40000000 + x - 0x40000000) / 0x1000000 = x / 0x1000000 := by omega
  unfold State.hostPlace
  rw [if_neg (by omega), if_neg (by omega)]
  simp only [hm, hd]

theorem hostRoom_own {h : Nat} (hh : h < 0x10000) : hostRoom h = 0x10000 - h := if_pos hh

theorem hostRoom_bar2 (x : Nat) : hostRoom (0x40000000 + x) =
    if x % 0x1000000 < 0x10000 then 0x10000 - x % 0x1000000
    else if x % 0x1000000 < 0x800000 then 0x800000 - x % 0x1000000
    else 0x1000000 - x % 0x1000000 := by
  have hm : (0x40000000 + x) % 0x1000000 = x % 0x1000000 := by omega
  unfold hostRoom
  rw [if_neg (by omega), if_neg (by omega), hm]

section
variable {x : Nat}

theorem hostPlace_device_region (hx : x < 0x40000000) (ho : x % 0x1000000 < 0x10000) :
    s.hostPlace (0x40000000 + x) = .region (x / 0x1000000) (x % 0x1000000) := by
  rw [hostPlace_bar2 hx, if_pos ho]

theorem hostPlace_device_gap (hx : x < 0x40000000) (h1 : 0x10000 ≤ x % 0x1000000) (h2 : x % 0x1000000 < 0x800000) :
    s.hostPlace (0x40000000 + x) = .nowhere := by
  rw [hostPlace_bar2 hx, if_neg (by omega), if_pos h2]

theorem hostPlace_device_aperture (hx : x < 0x40000000) (ho : 0x800000 ≤ x % 0x1000000) : s.hostPlace (0x40000000 + x) =
    .aperture (x / 0x1000000) (s.fld F.HIF_APER_BASE (x / 0x1000000) * 0x800000 + (x % 0x1000000 - 0x800000)) := by
  rw [hostPlace_bar2 hx, if_neg (by omega), if_neg (by omega)]

theorem hostRoom_device_region (ho : x % 0x1000000 < 0x10000) : hostRoom (0x40000000 + x) = 0x10000 - x % 0x1000000 := by
  rw [hostRoom_bar2, if_pos ho]

theorem hostRoom_device_aperture (ho : 0x800000 ≤ x % 0x1000000) : hostRoom (0x40000000 + x) = 0x1000000 - x % 0x1000000 := by
  rw [hostRoom_bar2, if_neg (by omega), if_neg (by omega)]

end

theorem hostParts_one {h n : Nat} (hn : n ≠ 0) (hr : n ≤ hostRoom h) : hostParts h n = [(h, n)] := by
  simp [hostParts, hn, hr]

theorem hostParts_two {h n : Nat} (hn : n ≠ 0) (hr : hostRoom h < n) :
    hostParts h n = [(h, hostRoom h), (h + hostRoom h, n - hostRoom h)] := by
  simp [hostParts, hn, Nat.not_le.mpr hr]

/-- Every access of some bytes begins with a part at its own address. -/
theorem hostParts_cons {n : Nat} (h : Nat) (hn : n ≠ 0) : ∃ m l, hostParts h n = (h, m) :: l := by
  rcases Nat.lt_or_ge (hostRoom h) n with hr | hr
  · exact ⟨_, _, hostParts_two hn hr⟩
  · exact ⟨_, _, hostParts_one hn hr⟩

/-! Reads by the host. -/

@[simp] theorem greqDrop_none (s : State) : s.greqDrop none = s := by
  have h : s.greqs.filter (fun x => some x != none) = s.greqs := by simp
  unfold State.greqDrop
  rw [h]

theorem greqDrop_some (s : State) (q : Greq) : s.greqDrop (some q) = { s with greqs := s.greqs.filter (fun x => x != q) } := rfl

section
variable {q : HostReq} {h n d v a st' : Nat} {b : List Byte} {old : Option Greq}

/-- A part that leads nowhere refuses the read. -/
theorem hostNext_nowhere (hp : placeView (s.hostPlace h) = none) (st : Nat) (acc : List Byte) (l : List (Nat × Nat)) :
    s.hostNext old q st acc ((h, n) :: l) = (s.greqDrop old).hostRefuse q := by
  unfold State.hostNext
  cases hc : s.hostPlace h with
  | region d o => simp [hc, placeView] at hp
  | aperture d o =>
    have hv : viewAddr o = none := by simpa [hc, placeView] using hp
    simp only [hv]
  | nowhere => rfl

/-- A part on this device is read there, and a refused one refuses the read. -/
theorem hostNext_here (hp : placeView (s.hostPlace h) = some (s.devNum, v, a)) (hs : s.spanPoison .host a n = ((st', b), t))
    (st : Nat) (acc : List Byte) (l : List (Nat × Nat)) :
    s.hostNext old q st acc ((h, n) :: l) =
      if st' = 1 then (t.greqDrop old).hostRefuse q else t.hostNext old q (max st st') (acc ++ b) l := by
  conv_lhs => unfold State.hostNext
  cases hc : s.hostPlace h with
  | region d o =>
    obtain ⟨rfl, -, rfl⟩ : d = s.devNum ∧ _ ∧ 0x4000E0000 + o = a := by simpa [hc, placeView] using hp
    simp only [if_true, hs]
  | aperture d o =>
    obtain ⟨a', hv, rfl, -, rfl⟩ : ∃ a', viewAddr o = some a' ∧ d = s.devNum ∧ o = v ∧ a' = a := by simpa [hc, placeView] using hp
    simp only [hv, if_true, hs]
  | nowhere => simp [hc, placeView] at hp

/-- A part on another device in the tree is asked for. -/
theorem hostNext_asks (hp : placeView (s.hostPlace h) = some (d, v, a)) (hd : d ≠ s.devNum) (hg : s.gdnHas d = true)
    (st : Nat) (acc : List Byte) (l : List (Nat × Nat)) :
    s.hostNext old q st acc ((h, n) :: l) = s.hostAsk old q ⟨st, acc, l⟩ h d v n := by
  unfold State.hostNext
  cases hc : s.hostPlace h with
  | region d' o =>
    obtain ⟨rfl, rfl, -⟩ : d' = d ∧ 0x1C00E0000 + o = v ∧ _ := by simpa [hc, placeView] using hp
    simp only [hd, hg, if_false, Bool.not_true, Bool.false_eq_true]
  | aperture d' o =>
    obtain ⟨a', hv, rfl, rfl, -⟩ : ∃ a', viewAddr o = some a' ∧ d' = d ∧ o = v ∧ a' = a := by simpa [hc, placeView] using hp
    simp only [hv, hd, hg, if_false, Bool.not_true, Bool.false_eq_true]
  | nowhere => simp [hc, placeView] at hp

/-- A part on an absent device's host region reads as R488 gives it. -/
theorem hostNext_absent_region {o : Nat} (hp : s.hostPlace h = .region d o) (hd : d ≠ s.devNum) (hg : s.gdnHas d = false)
    (st : Nat) (acc : List Byte) (l : List (Nat × Nat)) :
    s.hostNext old q st acc ((h, n) :: l) = (s.setFld F.HIF_STAT_ABSENTRD 0 1).hostNext old q st (acc ++ absentBytes o n) l := by
  conv_lhs => unfold State.hostNext
  simp only [hp, hd, hg, if_false, Bool.not_false, if_true]

/-- A part on an absent device's aperture ends the read as unsupported (R488). -/
theorem hostNext_absent_aperture {o : Nat} (hp : s.hostPlace h = .aperture d o) (hv : viewAddr o = some a) (hd : d ≠ s.devNum)
    (hg : s.gdnHas d = false) (st : Nat) (acc : List Byte) (l : List (Nat × Nat)) :
    s.hostNext old q st acc ((h, n) :: l) = ((s.setFld F.HIF_STAT_ABSENTRD 0 1).greqDrop old).hostReply q 1 [] := by
  unfold State.hostNext
  simp only [hp, hv, hd, hg, if_false, Bool.not_false, if_true]

@[simp] theorem gdnSend_gtag (s : State) (type d tag : Nat) (pl : List Byte) : (s.gdnSend type d tag pl).gtag = s.gtag := by
  unfold State.gdnSend
  split <;> rfl

@[simp] theorem gdnSend_greqs (s : State) (type d tag : Nat) (pl : List Byte) : (s.gdnSend type d tag pl).greqs = s.greqs := by
  unfold State.gdnSend
  split <;> rfl

/-- The first request of a host read to a device: its frame leaves, and it awaits its completion for 32 µs (R482). -/
theorem hostAsk_first (s : State) (q : HostReq) (h d v n : Nat) : s.hostAsk none q ⟨0, [], []⟩ h d v n =
    { s.gdnSend 0x10 d s.gtag (viewBytes v ++ leBytes 2 (min n 248)) with
      gtag := (s.gtag + 1) % 65536,
      greqs := s.greqs ++ [⟨s.gtag, .host, d, min n 248, q.addr, s.now + 40000,
        some (q, ⟨0, [], if 248 < n then [(h + 248, n - 248)] else []⟩)⟩] } := by
  have hrest : (if min n remoteMost < n then [(h + min n remoteMost, n - min n remoteMost)] else []) =
      if 248 < n then [(h + 248, n - 248)] else [] := by
    unfold remoteMost
    split <;> split
    · rw [Nat.min_eq_right (by omega)]
    · omega
    · omega
    · rfl
  unfold State.hostAsk
  simp only [gdnSend_gtag, gdnSend_greqs, hrest]
  rfl

variable {spi : Bool}

/-- A read that begins nowhere is refused (R14, R481). -/
theorem hostRead_nowhere (hn : n ≠ 0) (hp : placeView (s.hostPlace h) = none) :
    s.hostRead spi h n = s.hostRefuse ⟨spi, h, n⟩ := by
  obtain ⟨m, l, hl⟩ := hostParts_cons h hn
  unfold State.hostRead
  rw [hl, hostNext_nowhere hp, greqDrop_none]

/-- A read of one part on this device. -/
theorem hostRead_here (hn : n ≠ 0) (hr : n ≤ hostRoom h) (hp : placeView (s.hostPlace h) = some (s.devNum, v, a))
    (hs : s.spanPoison .host a n = ((st', b), t)) :
    s.hostRead spi h n = if st' = 1 then t.hostRefuse ⟨spi, h, n⟩ else t.hostReply ⟨spi, h, n⟩ st' b := by
  unfold State.hostRead
  rw [hostParts_one hn hr, hostNext_here hp hs, greqDrop_none, Nat.zero_max, List.nil_append]
  unfold State.hostNext
  rw [greqDrop_none]

/-- A read that runs past this device's host region is refused, whatever its first part finds (R481). -/
theorem hostRead_past (hh : h < 0x10000) (hn : 0x10000 < h + n)
    (hs : s.spanPoison .host (0x4000E0000 + h) (0x10000 - h) = ((st', b), t)) :
    s.hostRead spi h n = t.hostRefuse ⟨spi, h, n⟩ := by
  have hp : placeView (s.hostPlace h) = some (s.devNum, 0x1C00E0000 + h, 0x4000E0000 + h) := by rw [hostPlace_own hh]; rfl
  have hend : placeView (t.hostPlace (h + (0x10000 - h))) = none := by
    rw [show h + (0x10000 - h) = 0x10000 by omega]; rfl
  have hroom := hostRoom_own hh
  unfold State.hostRead
  rw [hostParts_two (by omega) (by omega), hroom, hostNext_here hp hs, hostNext_nowhere hend, greqDrop_none, ite_self]

/-- A read of one part on another device in the tree is asked for. -/
theorem hostRead_asks (hn : n ≠ 0) (hr : n ≤ hostRoom h) (hp : placeView (s.hostPlace h) = some (d, v, a)) (hd : d ≠ s.devNum)
    (hg : s.gdnHas d = true) : s.hostRead spi h n = s.hostAsk none ⟨spi, h, n⟩ ⟨0, [], []⟩ h d v n := by
  unfold State.hostRead
  rw [hostParts_one hn hr, hostNext_asks hp hd hg]

theorem hostRead_absent_region {o : Nat} (hn : n ≠ 0) (hr : n ≤ hostRoom h) (hp : s.hostPlace h = .region d o) (hd : d ≠ s.devNum)
    (hg : s.gdnHas d = false) :
    s.hostRead spi h n = (s.setFld F.HIF_STAT_ABSENTRD 0 1).hostReply ⟨spi, h, n⟩ 0 (absentBytes o n) := by
  unfold State.hostRead
  rw [hostParts_one hn hr, hostNext_absent_region hp hd hg, List.nil_append]
  unfold State.hostNext
  rw [greqDrop_none]

theorem hostRead_absent_aperture {o : Nat} (hn : n ≠ 0) (hr : n ≤ hostRoom h) (hp : s.hostPlace h = .aperture d o)
    (hv : viewAddr o = some a) (hd : d ≠ s.devNum) (hg : s.gdnHas d = false) :
    s.hostRead spi h n = (s.setFld F.HIF_STAT_ABSENTRD 0 1).hostReply ⟨spi, h, n⟩ 1 [] := by
  unfold State.hostRead
  rw [hostParts_one hn hr, hostNext_absent_aperture hp hv hd hg, greqDrop_none]

/-! Writes by the host. -/

variable {l : List Byte}

/-- A write reaches its places when each of them leads to a device. -/
theorem hostReaches_iff (s : State) (parts : List (Nat × Nat)) :
    s.hostReaches parts = true ↔ ∀ p ∈ parts, placeView (s.hostPlace p.1) ≠ none := by
  unfold State.hostReaches
  rw [List.all_eq_true]
  refine forall₂_congr fun p _ => ?_
  cases s.hostPlace p.1 with
  | region d o => simp [placeView]
  | aperture d o => simp [placeView, Option.isSome_iff_ne_none]
  | nowhere => simp [placeView]

/-- A write of which a part leads nowhere is discarded and logged (R14, R481). -/
theorem hostWrite_unreached {p : Nat × Nat} (hm : p ∈ hostParts h l.length) (hp : placeView (s.hostPlace p.1) = none) :
    s.hostWrite h l = s.hostLog h F.HIF_STAT_REFUSED := by
  have hr : s.hostReaches (hostParts h l.length) = false :=
    Bool.eq_false_iff.mpr fun hr => (hostReaches_iff s _).mp hr p hm hp
  unfold State.hostWrite
  simp only [hr, Bool.not_false, if_true]

theorem hostWrite_nowhere (hl : l.length ≠ 0) (hp : placeView (s.hostPlace h) = none) :
    s.hostWrite h l = s.hostLog h F.HIF_STAT_REFUSED := by
  obtain ⟨m, r, hr⟩ := hostParts_cons h hl
  exact hostWrite_unreached (p := (h, m)) (by rw [hr]; exact List.mem_cons_self) hp

/-- A write that runs past this device's host region is refused whole (R481). -/
theorem hostWrite_past (hh : h < 0x10000) (hr : 0x10000 < h + l.length) : s.hostWrite h l = s.hostLog h F.HIF_STAT_REFUSED := by
  have hroom := hostRoom_own hh
  have hparts := hostParts_two (h := h) (n := l.length) (by omega) (by omega)
  refine hostWrite_unreached (p := (h + hostRoom h, l.length - hostRoom h)) (by rw [hparts]; simp) ?_
  rw [hroom, show h + (0x10000 - h) = 0x10000 by omega]
  rfl

/-- A write of one part comes to that part. -/
theorem hostWrite_one (hl : l.length ≠ 0) (hr : l.length ≤ hostRoom h) (hp : placeView (s.hostPlace h) ≠ none) :
    s.hostWrite h l =
      if (s.partsPut [(h, l.length)] l).1 then (s.partsPut [(h, l.length)] l).2.hostLog h F.HIF_STAT_REFUSED
      else (s.partsPut [(h, l.length)] l).2 := by
  have hreach : s.hostReaches [(h, l.length)] = true := (hostReaches_iff s _).mpr (by simpa using hp)
  unfold State.hostWrite
  simp only [hostParts_one hl hr, hreach, Bool.not_true, Bool.false_eq_true, if_false]

/-- A write of one part on this device, refused where its span is. -/
theorem hostWrite_here {e : Option BusErr} (hl : l.length ≠ 0) (hr : l.length ≤ hostRoom h)
    (hp : placeView (s.hostPlace h) = some (s.devNum, v, a)) (hs : s.spanWrite .host a l = (e, t)) :
    s.hostWrite h l = if e.isSome then t.hostLog h F.HIF_STAT_REFUSED else t := by
  have hput : s.partsPut [(h, l.length)] l = (e.isSome, t) := by
    unfold State.partsPut
    cases hc : s.hostPlace h with
    | region d o =>
      obtain ⟨rfl, -, rfl⟩ : d = s.devNum ∧ _ ∧ 0x4000E0000 + o = a := by simpa [hc, placeView] using hp
      simp only [if_true, List.take_length, hs, State.partsPut, Bool.or_false]
    | aperture d o =>
      obtain ⟨a', hv, rfl, -, rfl⟩ : ∃ a', viewAddr o = some a' ∧ d = s.devNum ∧ o = v ∧ a' = a := by simpa [hc, placeView] using hp
      simp only [if_true, List.take_length, hv, Option.getD_some, hs, State.partsPut, Bool.or_false]
    | nowhere => simp [hc, placeView] at hp
  rw [hostWrite_one hl hr (by rw [hp]; exact Option.some_ne_none _), hput]

/-- A write of one part on another device leaves as WR frames (R492). -/
theorem hostWrite_elsewhere (hl : l.length ≠ 0) (hr : l.length ≤ hostRoom h) (hp : placeView (s.hostPlace h) = some (d, v, a))
    (hd : d ≠ s.devNum) : s.hostWrite h l = s.remotePut d v l := by
  have hput : s.partsPut [(h, l.length)] l = (false, s.remotePut d v l) := by
    unfold State.partsPut
    cases hc : s.hostPlace h with
    | region d' o =>
      obtain ⟨rfl, rfl, -⟩ : d' = d ∧ 0x1C00E0000 + o = v ∧ _ := by simpa [hc, placeView] using hp
      simp only [hd, if_false, List.take_length, State.partsPut, Bool.or_false]
    | aperture d' o =>
      obtain ⟨a', -, rfl, rfl, -⟩ : ∃ a', viewAddr o = some a' ∧ d' = d ∧ o = v ∧ a' = a := by simpa [hc, placeView] using hp
      simp only [hd, if_false, List.take_length, State.partsPut, Bool.or_false]
    | nowhere => simp [hc, placeView] at hp
  rw [hostWrite_one hl hr (by rw [hp]; exact Option.some_ne_none _), hput]
  rfl

/-- A write to an absent device is discarded (R488). -/
theorem remotePut_absent (hg : s.gdnHas d = false) (o : Nat) (l : List Byte) : s.remotePut d o l = s := by
  unfold State.remotePut
  rw [hg]; rfl

end

/-! PCI Express (R478, R482). -/

theorem pcieOn_false (h : s.alive 18 = false ∨ s.flag F.HIF_STAT_LINKUP 0 = false ∨ s.flag F.HIF_CTL_PCIEEN 0 = false) :
    s.pcieOn = false := by
  unfold State.pcieOn
  rcases h with h | h | h <;> simp [h]

theorem pcieRead_off (h : s.pcieOn = false) (bar off n : Nat) : s.pcieRead bar off n = s := by
  unfold State.pcieRead
  rw [h]; rfl

theorem pcieWrite_off (h : s.pcieOn = false) (bar off : Nat) (l : List Byte) : s.pcieWrite bar off l = s := by
  unfold State.pcieWrite
  rw [h]; rfl

section
variable (h : s.pcieOn = true) (off n : Nat) (l : List Byte)
include h

theorem pcieRead_region : s.pcieRead 0 off n = s.hostRead false (off % 0x10000) n := by
  unfold State.pcieRead
  rw [h]; rfl

theorem pcieRead_devices : s.pcieRead 1 off n = s.hostRead false (0x40000000 + off % 0x40000000) n := by
  unfold State.pcieRead
  rw [h]; rfl

theorem pcieRead_msix : s.pcieRead 2 off n = s.hostReply ⟨false, off, n⟩ 0 (s.bytes (msixBase + off % 0x10000) n) := by
  unfold State.pcieRead
  rw [h]; rfl

theorem pcieRead_config : s.pcieRead 3 off n =
    (s.configRead (off % 0x1000) n).2.hostReply ⟨false, off % 0x1000, n⟩ 0 (s.configRead (off % 0x1000) n).1 := by
  unfold State.pcieRead
  rw [h]; rfl

theorem pcieWrite_region : s.pcieWrite 0 off l = s.hostWrite (off % 0x10000) l := by
  unfold State.pcieWrite
  rw [h]; rfl

theorem pcieWrite_devices : s.pcieWrite 1 off l = s.hostWrite (0x40000000 + off % 0x40000000) l := by
  unfold State.pcieWrite
  rw [h]; rfl

/-- The pending-bit array takes no write. -/
theorem pcieWrite_pending (ho : 0x8000 ≤ off % 0x10000) : s.pcieWrite 2 off l = s := by
  simp [State.pcieWrite, h, Nat.not_lt.mpr ho]

/-- A write of the vector table sends what it no longer masks. -/
theorem pcieWrite_table (ho : off % 0x10000 < 0x8000) : s.pcieWrite 2 off l =
    (s.setBytes (msixBase + off % 0x10000) (l.take (0x8000 - off % 0x10000))).msixUnmask (off % 0x10000 / 16)
      ((off % 0x10000 + (l.take (0x8000 - off % 0x10000)).length - 1) / 16) := by
  simp [State.pcieWrite, h, ho]

end

/-! MSI-X vectors (R478). -/

theorem msixSend_unmasked {v : Nat} (h : s.msixMasked v = false) : s.msixSend v = { s with msix := some v } := by
  unfold State.msixSend
  rw [h]; rfl

theorem msixSend_masked {v : Nat} (h : s.msixMasked v = true) : s.msixSend v = s.setMsixPend v 1 := by
  unfold State.msixSend
  rw [h]; rfl

/-- One table entry written: its vector is sent where it is pending and not masked. -/
theorem msixUnmask_one (s : State) (v : Nat) : s.msixUnmask v v =
    if bit (v % 8) (s.byte (msixBase + 0x8000 + v / 8)).toNat && !s.msixMasked v then { s.setMsixPend v 0 with msix := some v }
    else s := by
  unfold State.msixUnmask
  rw [Nat.add_sub_cancel_left]
  rfl

/-! Writes to other devices (R491). -/

/-- A write of at most 248 bytes leaves in one frame. -/
theorem remotePut_one_frame {d : Nat} {l : List Byte} (hg : s.gdnHas d = true) (hl : l ≠ []) (hn : l.length ≤ 248) (o : Nat) :
    s.remotePut d o l = s.gdnSend 0x12 d 0 (viewBytes o ++ l) := by
  have h0 := List.length_pos_iff.mpr hl
  have hc : (l.length + remoteMost - 1) / remoteMost = 1 := by unfold remoteMost; omega
  have ht : l.take remoteMost = l := List.take_of_length_le hn
  unfold State.remotePut
  rw [hg, hc]
  simp [repeatN, ht]

/-- A longer one of at most 496 bytes leaves in two. -/
theorem remotePut_two_frames {d : Nat} {l : List Byte} (hg : s.gdnHas d = true) (h1 : 248 < l.length) (h2 : l.length ≤ 496) (o : Nat) :
    s.remotePut d o l = (s.gdnSend 0x12 d 0 (viewBytes o ++ l.take 248)).gdnSend 0x12 d 0 (viewBytes (o + 248) ++ l.drop 248) := by
  have hc : (l.length + remoteMost - 1) / remoteMost = 2 := by unfold remoteMost; omega
  have ht : (l.drop 248).take 248 = l.drop 248 := List.take_of_length_le (by rw [List.length_drop]; omega)
  unfold State.remotePut
  rw [hg, hc]
  simp [repeatN, List.range_succ, remoteMost, ht]

/-! SPI (R479, R480). -/

theorem spiRead_off (h : s.alive 18 = false ∨ s.flag F.HIF_CTL_SPIEN 0 = false) (cmd addr n : Nat) : s.spiRead cmd addr n = s := by
  unfold State.spiRead
  rcases h with h | h <;> simp [h]

theorem spiWrite_off (h : s.alive 18 = false ∨ s.flag F.HIF_CTL_SPIEN 0 = false) (addr : Nat) (l : List Byte) : s.spiWrite addr l = s := by
  unfold State.spiWrite
  rcases h with h | h <;> simp [h]

theorem spiRead_write_command (s : State) (addr n : Nat) : s.spiRead 2 addr n = s := by
  simp [State.spiRead]

section
variable (ha : s.alive 18 = true) (he : s.flag F.HIF_CTL_SPIEN 0 = true) {cmd addr : Nat} (n : Nat) (l : List Byte)
include ha he

theorem spiRead_malformed (hc : cmd ≠ 2) (h : cmd ≠ 0x0B ∨ addr % 4 ≠ 0) : s.spiRead cmd addr n = s.spiErr := by
  simp [State.spiRead, ha, he, hc, h]

theorem spiRead_valid (h : addr % 4 = 0) : s.spiRead 0x0B addr n =
    (if n % 4 = 0 then s else s.spiErr).spiValid.hostRead true addr (n / 4 * 4) := by
  simp [State.spiRead, ha, he, h]

theorem spiWrite_malformed (h : addr % 4 ≠ 0) : s.spiWrite addr l = s.spiErr := by
  simp [State.spiWrite, ha, he, h]

theorem spiWrite_valid (h : addr % 4 = 0) : s.spiWrite addr l =
    (if l.length % 4 = 0 then s else s.spiErr).spiValid.hostWrite addr (l.take (l.length / 4 * 4)) := by
  simp [State.spiWrite, ha, he, h]

end

/-! Remote reads that no device answers (R482, R483). -/

theorem readTimeout_idle (h : s.greqs = []) : s.readTimeout = s := by
  unfold State.readTimeout
  rw [h]

theorem readTimeout_initiator {q : Greq} {rest : List Greq} (h : s.greqs = q :: rest) (hq : q.host = none) : s.readTimeout =
    ({ s.reach q.due with greqs := s.greqs.filter (fun x => x != q) } : State).setGot q.by_ (some (q.addr, 1, 0)) := by
  unfold State.readTimeout State.remoteEnd
  rw [h]
  simp only [hq, reach_greqs, h, List.take_nil, ofLeBytes]

theorem readTimeout_host {q : Greq} {rest : List Greq} {r : HostReq} {x : HostDone} (h : s.greqs = q :: rest) (hq : q.host = some (r, x)) :
    s.readTimeout = ((({ s.reach q.due with greqs := s.greqs.filter (fun x => x != q) } : State).hostReply r 1 []).hostLog r.addr
      F.HIF_STAT_TIMEOUT) := by
  unfold State.readTimeout
  rw [h]
  simp only [hq, greqDrop_some, reach_greqs, h]

/-! Register writes that have an effect of their own (R27, R485, R501). -/

theorem placed_of_find {r : Reg} {p : RegPlace} {i : Nat} (h : regPlaces.find? (fun p => p.reg == r) = some p) (hi : i < p.count) :
    placed r i = true := by
  unfold placed
  rw [h]
  exact decide_eq_true hi

theorem placed_MBX_POST {i : Nat} (hi : i < 256) : placed .MBX_POST i = true :=
  placed_of_find (p := ⟨.MBX_POST, 0x4000E8004, 0x10, 256⟩) (by decide +kernel) hi

theorem placed_QTZ_ALMC {i : Nat} (hi : i < 8) : placed .QTZ_ALMC i = true :=
  placed_of_find (p := ⟨.QTZ_ALMC, 0x400000048, 0x10, 8⟩) (by decide +kernel) hi

theorem placed_HIF_NUMCMD : placed .HIF_NUMCMD 0 = true := by decide +kernel

/-- A register that takes a write of an initiator is written. -/
theorem writeBy_takes {who : Initiator} {r : Reg} {i : Nat} (h : s.Takes who r i) (hp : placed r i = true) (hk : r ≠ .EVC_CTL) (v : Nat) :
    s.writeBy who r i v = s.regWrite who.agent r i v s.now := writeBy_may v hp h.answers h.may (.inl hk)

theorem keyBlock_key {i : Nat} (r : Reg) (hi : i < 65536) : keyBlock (r.key i) = blockOf regRuns r.ctorIdx := by
  have hk : r.key i / 65536 = r.ctorIdx := by unfold Reg.key; omega
  unfold keyBlock
  rw [hk]

theorem regWrite_MBX_POST {i : Nat} (hi : i < 65536) (a : Agent) (v u : Nat) : s.regWrite a .MBX_POST i v u = s.mbxPost i (v % 64) := by
  have hb : keyBlock (Reg.MBX_POST.key i) = 14 := keyBlock_key _ hi
  unfold State.regWrite
  rw [hb]; rfl

theorem regWrite_HIF_NUMCMD (a : Agent) (v u : Nat) : s.regWrite a .HIF_NUMCMD 0 v u = if bit 6 v then s.numCmd (v % 64) else s := by
  have hb : keyBlock (Reg.HIF_NUMCMD.key 0) = 14 := keyBlock_key _ (by decide)
  unfold State.regWrite
  rw [hb]; rfl

theorem regWrite_QTZ_ALMC {i : Nat} (hi : i < 65536) (a : Agent) (v u : Nat) : s.regWrite a .QTZ_ALMC i v u = s.almCtl i v := by
  have hb : keyBlock (Reg.QTZ_ALMC.key i) = 0 := keyBlock_key _ hi
  unfold State.regWrite
  rw [hb]; rfl

theorem key_ne {r r' : Reg} {i j : Nat} (hr : r.ctorIdx ≠ r'.ctorIdx) (hi : i < 65536) (hj : j < 65536) : r.key i ≠ r'.key j :=
  fun h => hr ((key_inj hi hj).mp h).1

/-- Fields are read from the registers alone. -/
theorem fld_of_regs (h : t.regs = s.regs) (f : Fld) (i : Nat) : t.fld f i = s.fld f i := by
  unfold State.fld State.regN State.reg
  rw [h]

theorem pair_setRegN_ne {lo hi r : Reg} {i j : Nat} (v : Nat) (hl : lo.key j ≠ r.key i) (hh : hi.key j ≠ r.key i) :
    (s.setRegN r i v).pair lo hi j = s.pair lo hi j := by
  unfold State.pair State.regN State.setRegN
  rw [reg_setReg_ne s _ hl, reg_setReg_ne s _ hh]

/-! Mailboxes (R484 to R487). -/

/-- Bytes written leave whatever each byte written leaves. -/
theorem setBytes_keeps {α : Type} {f : State → α} (hf : ∀ s a v, f (s.setByte a v) = f s) (l : List Byte) :
    ∀ (s : State) (a : Nat), f (s.setBytes a l) = f s := by
  induction l with
  | nil => exact fun _ _ => rfl
  | cons b l ih => exact fun s a => (ih (s.setByte a b) (a + 1)).trans (hf s a b)

@[simp] theorem setBytes_regs (s : State) (a : Nat) (l : List Byte) : (s.setBytes a l).regs = s.regs :=
  setBytes_keeps setByte_regs l s a
@[simp] theorem setBytes_now (s : State) (a : Nat) (l : List Byte) : (s.setBytes a l).now = s.now :=
  setBytes_keeps setByte_now l s a
@[simp] theorem setBytes_staged (s : State) (a : Nat) (l : List Byte) : (s.setBytes a l).staged = s.staged :=
  setBytes_keeps setByte_staged l s a

/-- A post noted is a change of `posts` alone. -/
@[simp] theorem postNote_regs (s : State) (m : Nat) : (s.postNote m).regs = s.regs := by
  unfold State.postNote
  split <;> rfl

@[simp] theorem postNote_mem (s : State) (m : Nat) : (s.postNote m).mem = s.mem := by
  unfold State.postNote
  split <;> rfl

theorem postNote_of_some {m : Nat} (h : (s.postNow m).isSome = true) : s.postNote m = s := by
  unfold State.postNote
  exact if_pos h

/-- The first post of an ec keeps the page and OVW before it (R487). -/
theorem postNow_postNote {m : Nat} (h : s.postNow m = none) :
    ((s.postNote m).postNow m).map (fun p => (p.at_, p.page, p.ovw)) =
      some (s.now, s.mbxLive m (s.flag F.MBX_STAT_READY m), s.flag F.MBX_STAT_OVW m) := by
  have hs : (s.postNow m).isSome = false := by rw [h]; rfl
  unfold State.postNote
  rw [hs]
  simp [State.postNow]

theorem stagedOld_of_staged {m v : Nat} {l : List Byte} (h : Tab.look (fun _ => none) s.staged m = some (v, l)) (hv : v = s.now) :
    s.stagedOld m = l := by
  unfold State.stagedOld
  rw [h]
  exact if_pos hv

/-- A write of the staging area leaves what a post of its ec publishes (R485). -/
theorem stagedOld_stage (s : State) (m a v : Nat) : (s.stage m a v).stagedOld m = s.stagedOld m :=
  stagedOld_of_staged (v := s.now) (by simp [State.stage, State.poke]) (by simp [State.stage, State.poke])

/-- The read view of a mailbox as a post leaves it (R485): the payload that stood in the staging area before this ec, LEN, and in the header
whether a result was overwritten. -/
def publishedView (s : State) (m len : Nat) : State :=
  (((s.postNote m).setBytes (mbxAddr m + 8) (s.stagedOld m)).setByte (mbxAddr m + 4) (BitVec.ofNat 8 (min len 56))).setByte (mbxAddr m + 2)
    (BitVec.ofNat 8 (b2n (s.flag F.MBX_STAT_READY m)))

/-- What a post leaves, but for its interrupt (R485): its payload published, SEQ counted, READY set and CONSUMED clear, and OVW where a
result was overwritten. -/
def published (s : State) (m len : Nat) : State :=
  let r := (((publishedView s m len).setFld F.MBX_STAT_SEQ m (s.fld F.MBX_STAT_SEQ m + 1)).setFld F.MBX_STAT_READY m 1).setFld F.MBX_STAT_CONSUMED m 0
  if s.flag F.MBX_STAT_READY m then r.setFld F.MBX_STAT_OVW m 1 else r

theorem publishedView_regs (s : State) (m len : Nat) : (publishedView s m len).regs = s.regs := by
  simp [publishedView]

theorem quiet_publishedView (h : s.Quiet) (m len : Nat) : (publishedView s m len).Quiet :=
  quiet_setByte (quiet_setByte (quiet_setBytes _ (quiet_postNote h m) _) ..) ..

theorem quiet_published (h : s.Quiet) (m len : Nat) : (published s m len).Quiet := by
  have hr (k : Nat) : ((((publishedView s m len).setFld F.MBX_STAT_SEQ m k).setFld F.MBX_STAT_READY m 1).setFld F.MBX_STAT_CONSUMED m 0).Quiet :=
    quiet_setFld (quiet_setFld (quiet_setFld (quiet_publishedView h m len) ..) ..) ..
  unfold published
  split
  · exact quiet_setFld (hr _) ..
  · exact hr _

/-- A post leaves every field outside the mailbox's STAT. -/
theorem published_fld {g : Fld} {m j : Nat} (h : g.reg.key j ≠ Reg.MBX_STAT.key m) (len : Nat) : (published s m len).fld g j = s.fld g j := by
  have hset (t : State) (f : Fld) (v : Nat) (hf : f.reg = .MBX_STAT) : (t.setFld f m v).fld g j = t.fld g j :=
    fld_setFld_ne v (by rw [hf]; exact h)
  have hv : (publishedView s m len).fld g j = s.fld g j := fld_of_regs (publishedView_regs s m len) g j
  unfold published
  extract_lets r
  have hr : r.fld g j = s.fld g j := by
    rw [hset _ _ _ rfl, hset _ _ _ rfl, hset _ _ _ rfl, hv]
  split
  · rw [hset _ _ _ rfl, hr]
  · exact hr

/-- A post publishes, and interrupts the host where its mailbox asks for it. -/
theorem mbxPost_eq {m : Nat} (hm : m < 65536) (s : State) (len : Nat) : s.mbxPost m len =
    if s.flag F.MBX_CTL_IRQ m && !s.flag F.MBX_CTL_DIR m then (published s m len).sendIrq (s.devNum * 32 + s.fld F.MBX_CTL_VEC m)
    else published s m len := by
  have hmodel : s.mbxPost m len =
      if (published s m len).flag F.MBX_CTL_IRQ m && !(published s m len).flag F.MBX_CTL_DIR m then
        (published s m len).sendIrq ((published s m len).devNum * 32 + (published s m len).fld F.MBX_CTL_VEC m)
      else published s m len := by
    have hseq : (publishedView s m len).fld F.MBX_STAT_SEQ m = s.fld F.MBX_STAT_SEQ m := fld_of_regs (publishedView_regs s m len) _ _
    unfold published
    rw [← hseq]
    rfl
  have hctl : Reg.MBX_CTL.key m ≠ Reg.MBX_STAT.key m := key_ne (by decide) hm hm
  have hnum : Reg.GDN_NUM.key 0 ≠ Reg.MBX_STAT.key m := key_ne (by decide) (by omega) hm
  rw [hmodel]
  unfold State.flag State.devNum
  rw [published_fld (g := F.MBX_CTL_IRQ) hctl, published_fld (g := F.MBX_CTL_DIR) hctl, published_fld (g := F.MBX_CTL_VEC) hctl,
    published_fld (g := F.GDN_NUM_NUM) hnum]

theorem mbxPost_quietly {m : Nat} (hm : m < 65536) (h : s.flag F.MBX_CTL_IRQ m = false ∨ s.flag F.MBX_CTL_DIR m = true) (len : Nat) :
    s.mbxPost m len = published s m len := by
  rw [mbxPost_eq hm, if_neg]
  rcases h with h | h <;> simp [h]

theorem mbxPost_interrupts {m : Nat} (hm : m < 65536) (hi : s.flag F.MBX_CTL_IRQ m = true) (hd : s.flag F.MBX_CTL_DIR m = false) (len : Nat) :
    s.mbxPost m len = (published s m len).sendIrq (s.devNum * 32 + s.fld F.MBX_CTL_VEC m) := by
  rw [mbxPost_eq hm, hi, hd]
  rfl

/-- Who may not read a mailbox takes no snapshot (R499). -/
theorem snapshotBy_stranger {a : Agent} {m : Nat} (h : s.alive 18 = false ∨ s.mbxReader a m = false) : s.snapshotBy a m = s := by
  unfold State.snapshotBy
  rcases h with h | h <;> simp [h]

theorem snapshotBy_reader {a : Agent} {m : Nat} (ha : s.alive 18 = true) (hr : s.mbxReader a m = true) : s.snapshotBy a m = s.mbxSnap a m := by
  unfold State.snapshotBy
  rw [ha, hr]
  rfl

/-- The latch of an initiator takes the 64 bytes of a mailbox (R486). -/
def latched (s : State) (a : Agent) (m : Nat) (l : List Byte) : State :=
  { s with snaps := Tab.put (fun _ => none) s.snaps a.key (some (m, l)) }

theorem quiet_latched (h : s.Quiet) (a : Agent) (m : Nat) (l : List Byte) : (latched s a m l).Quiet := quiet_of_eq h rfl rfl

/-- A snapshot in the ec of a post takes the state before it (R487). -/
theorem mbxSnap_posted {m : Nat} {p : Posted} (h : s.postNow m = some p) (a : Agent) :
    s.mbxSnap a m = latched (s.postUnder m p) a m p.page := by
  unfold State.mbxSnap
  rw [h]
  rfl

/-- A snapshot latches, and consumes a result that is READY (R486). -/
theorem mbxSnap_consumes {m : Nat} (h : s.postNow m = none) (hr : s.flag F.MBX_STAT_READY m = true) (a : Agent) : s.mbxSnap a m =
    ((latched s a m (s.mbxLive m (s.flag F.MBX_STAT_READY m))).setFld F.MBX_STAT_READY m 0).setFld F.MBX_STAT_CONSUMED m 1 := by
  unfold State.mbxSnap
  rw [h]
  exact if_pos hr

theorem mbxSnap_latches {m : Nat} (h : s.postNow m = none) (hr : s.flag F.MBX_STAT_READY m = false) (a : Agent) : s.mbxSnap a m =
    latched s a m (s.mbxLive m (s.flag F.MBX_STAT_READY m)) := by
  unfold State.mbxSnap
  rw [h]
  exact if_neg (by rw [hr]; decide)

/-! The number of a device (R495, R501). -/

/-- NUMCMD is written where its domain is alive. -/
theorem alive_of_takes_NUMCMD {who : Initiator} (h : s.Takes who .HIF_NUMCMD 0) : s.alive 18 = true := by
  have ha := h.answers
  unfold State.answers at ha
  rw [show addrDomain (Reg.HIF_NUMCMD.addr 0) = 18 by decide +kernel, Bool.and_eq_true] at ha
  exact ha.1

theorem numCmd_own (ha : s.alive 18 = true) (hu : s.pair .HIF_UIDL .HIF_UIDH 0 = Config.deviceUid) (num : Nat) :
    s.numCmd num = s.takeNum num := by
  simp [State.numCmd, ha, hu]

theorem numCmd_other (ha : s.alive 18 = true) (hu : s.pair .HIF_UIDL .HIF_UIDH 0 ≠ Config.deviceUid) (num : Nat) :
    s.numCmd num = s.numFlood none (s.pair .HIF_UIDL .HIF_UIDH 0) num s.devNum 0 := by
  simp [State.numCmd, ha, hu]

/-- The six bits of a number stand below GO. -/
theorem numcmd_bits (num : BitVec 6) : bit 6 (num.toNat + 2 ^ 6) = true ∧ (num.toNat + 2 ^ 6) % 64 = num.toNat := by
  have hn := num.isLt
  refine ⟨?_, by omega⟩
  unfold bit
  rw [Nat.add_comm, Nat.testBit_two_pow_add_eq, Nat.testBit_lt_two_pow hn]
  rfl

/-! The root (R480). -/

theorem pcieLink_dead (h : s.alive 18 = false) (up : Bool) : s.pcieLink up = s := by
  unfold State.pcieLink
  rw [h]; rfl

theorem pcieLink_alive (h : s.alive 18 = true) (up : Bool) :
    s.pcieLink up = (s.setFld F.HIF_STAT_LINKUP 0 (b2n (up && s.flag F.HIF_CTL_PCIEEN 0))).gdnRefresh := by
  unfold State.pcieLink
  rw [h]; rfl

theorem spiLapse_none (h : s.spiAt = none) : s.spiLapse = s := by
  unfold State.spiLapse
  rw [h]

theorem spiLapse_some {u : Nat} (h : s.spiAt = some u) : s.spiLapse = ({ s.reach (u + 1250000000) with spiAt := none } : State).gdnRefresh := by
  unfold State.spiLapse
  rw [h]

/-! Alarms (R26, R27). -/

/-- ALMxC as a write leaves it: its flags cleared where the write has a 1, its other fields as written (R28). -/
def almCtlWritten (s : State) (a v : Nat) : State :=
  s.setRegN .QTZ_ALMC a (v % 4 + (bits 4 2 (s.regN .QTZ_ALMC a) - (bits 4 2 (s.regN .QTZ_ALMC a) &&& bits 4 2 v)) * 4 + bits 31 8 v * 2 ^ 8)

theorem almCtl_disarms {a v : Nat} (h : bit 0 v = false) : s.almCtl a v = (almCtlWritten s a v).setAlmLate a 0 := by
  unfold State.almCtl
  rw [h]; rfl

/-- A write leaves an alarm's target. -/
theorem almTarget_almCtlWritten {a : Nat} (ha : a < 65536) (s : State) (v : Nat) :
    (almCtlWritten s a v).almTarget a = s.pair .QTZ_ALML .QTZ_ALMH a :=
  pair_setRegN_ne _ (key_ne (by decide) ha ha) (key_ne (by decide) ha ha)

/-- An alarm armed at a target that has passed fires in the next ec (R27). -/
theorem almCtl_arms_late {a v : Nat} (ha : a < 65536) (h : bit 0 v = true) (hold : bit 0 (s.regN .QTZ_ALMC a) = false)
    (hpast : s.pair .QTZ_ALML .QTZ_ALMH a ≤ s.now) : s.almCtl a v = (almCtlWritten s a v).setAlmLate a (s.now + 1) := by
  rw [← almTarget_almCtlWritten ha s v] at hpast
  have hc : (!bit 0 (s.regN .QTZ_ALMC a) && decide ((almCtlWritten s a v).almTarget a ≤ s.now)) = true := by simp [hold, hpast]
  unfold State.almCtl
  rw [h]
  exact if_pos hc

/-- An alarm that stays armed, or is armed before its target, keeps the tick at which it fires. -/
theorem almCtl_keeps_time {a v : Nat} (ha : a < 65536) (h : bit 0 v = true)
    (hold : bit 0 (s.regN .QTZ_ALMC a) = true ∨ s.now < s.pair .QTZ_ALML .QTZ_ALMH a) : s.almCtl a v = almCtlWritten s a v := by
  rw [← almTarget_almCtlWritten ha s v] at hold
  have hc : (!bit 0 (s.regN .QTZ_ALMC a) && decide ((almCtlWritten s a v).almTarget a ≤ s.now)) = false := by
    rcases hold with h | h <;> simp [h]
  unfold State.almCtl
  rw [h]
  exact if_neg (Bool.eq_false_iff.mp hc)

/-- The tick at which an armed alarm fires: that of its target, or the one fixed for an alarm that is late (R27). -/
def almTick (s : State) (a : Nat) : Nat :=
  if Tab.look (fun _ => 0) s.almLate a = 0 then s.pair .QTZ_ALML .QTZ_ALMH a else Tab.look (fun _ => 0) s.almLate a

/-- Quartz at the tick of an alarm, with FIRED and, where it is late, LATE set (R27). -/
def almFired (s : State) (a : Nat) : State :=
  let u := ((s.reach (almTick s a)).setAlmLate a 0).setFld F.QTZ_ALMC_FIRED a 1
  if Tab.look (fun _ => 0) s.almLate a = 0 then u else u.setFld F.QTZ_ALMC_LATE a 1

/-- The flags of an alarm lie below its period. -/
theorem almFired_period (s : State) (a : Nat) : (almFired s a).fld F.QTZ_ALMC_PERIOD a = s.fld F.QTZ_ALMC_PERIOD a := by
  have hset (t : State) (f : Fld) (hr : f.reg = .QTZ_ALMC) (hf : f.lo + f.width ≤ 8) :
      (t.setFld f a 1).fld F.QTZ_ALMC_PERIOD a = t.fld F.QTZ_ALMC_PERIOD a :=
    fld_setFld_above (g := F.QTZ_ALMC_PERIOD) a 1 hr.symm hf (by decide)
  have htime : ((s.reach (almTick s a)).setAlmLate a 0).fld F.QTZ_ALMC_PERIOD a = s.fld F.QTZ_ALMC_PERIOD a := fld_of_regs rfl _ _
  unfold almFired
  extract_lets u
  have hu : u.fld F.QTZ_ALMC_PERIOD a = s.fld F.QTZ_ALMC_PERIOD a := by rw [hset _ _ rfl (by decide), htime]
  split
  · exact hu
  · rw [hset _ _ rfl (by decide), hu]

theorem almFire_idle {a : Nat} (h : s.alive 2 = false ∨ s.flag F.QTZ_ALMC_ARM a = false) : s.almFire a = s := by
  unfold State.almFire
  rcases h with h | h <;> simp [h]

/-- An alarm without a period disarms as it fires (R26). -/
theorem almFire_once {a : Nat} (h2 : s.alive 2 = true) (harm : s.flag F.QTZ_ALMC_ARM a = true) (hp : s.fld F.QTZ_ALMC_PERIOD a = 0) :
    s.almFire a = ((almFired s a).setFld F.QTZ_ALMC_ARM a 0).emit (1 + a) (almTick s a) 2 none := by
  rw [← almFired_period] at hp
  unfold State.almFire
  simp only [h2, harm, Bool.not_true, Bool.or_self, Bool.false_eq_true, if_false]
  exact congrArg (fun u : State => u.emit (1 + a) (almTick s a) 2 none) (if_pos hp)

/-- An alarm with a period steps its target by whole periods past the tick at which it fires (R26, R27). -/
theorem almFire_periodic {a : Nat} (h2 : s.alive 2 = true) (harm : s.flag F.QTZ_ALMC_ARM a = true) (hp : s.fld F.QTZ_ALMC_PERIOD a ≠ 0) :
    s.almFire a = ((almFired s a).setPair .QTZ_ALML .QTZ_ALMH a (s.pair .QTZ_ALML .QTZ_ALMH a +
      ((almTick s a - s.pair .QTZ_ALML .QTZ_ALMH a) / max (s.fld F.QTZ_ALMC_PERIOD a) 64 + 1) * max (s.fld F.QTZ_ALMC_PERIOD a) 64)).emit
      (1 + a) (almTick s a) 2 none := by
  rw [← almFired_period] at hp ⊢
  unfold State.almFire
  simp only [h2, harm, Bool.not_true, Bool.or_self, Bool.false_eq_true, if_false]
  exact congrArg (fun u : State => u.emit (1 + a) (almTick s a) 2 none) (if_neg hp)

/-! The engine clock (R18). -/

theorem clocked_stands (h : s.engClock = false) (t : State) : s.clocked t = s := by
  unfold State.clocked
  rw [h]; rfl

theorem clocked_runs (h : s.engClock = true) (t : State) : s.clocked t = t := by
  unfold State.clocked
  rw [h]; rfl

/-! Each host command is its operation on the state, with what every command ends with. -/

theorem exec_hostRead (s : State) (bar : Fin 4) (off : BitVec 32) (n : Fin 513) :
    exec (.hostRead bar off n) s = (s.pcieRead bar.val off.toNat n.val).ends := rfl
theorem exec_hostWrite (s : State) (bar : Fin 3) (off : BitVec 32) (n : Fin 257) (data : BitVec 2048) :
    exec (.hostWrite bar off n data) s = (s.pcieWrite bar.val off.toNat (leBytes n.val data.toNat)).ends := rfl
theorem exec_spiRead (s : State) (cmd : BitVec 8) (addr : BitVec 32) (n : Fin 257) :
    exec (.spiRead cmd addr n) s = (s.spiRead cmd.toNat addr.toNat n.val).ends := rfl
theorem exec_spiWrite (s : State) (addr : BitVec 32) (n : Fin 257) (data : BitVec 2048) :
    exec (.spiWrite addr n data) s = (s.spiWrite addr.toNat (leBytes n.val data.toNat)).ends := rfl
theorem exec_hostReadTimeout (s : State) : exec .hostReadTimeout s = s.readTimeout.ends := rfl
theorem exec_snapshot (s : State) (who : Initiator) (m : BitVec 8) : exec (.snapshot who m) s = (s.snapshotBy who.agent m.toNat).ends := rfl
theorem exec_pcieLinkChange (s : State) (up : Bool) : exec (.pcieLinkChange up) s = (s.pcieLink up).ends := rfl
theorem exec_spiRootLapse (s : State) : exec .spiRootLapse s = s.spiLapse.ends := rfl
theorem exec_alarmFire (s : State) (a : Fin 8) : exec (.alarmFire a) s = (s.clocked (s.almFire a.val)).ends := rfl

section
variable (h : s.pcieOn = true) (off : BitVec 32) (n : Fin 513) (k : Fin 257) (data : BitVec 2048)
include h

theorem exec_hostRead_region : exec (.hostRead 0 off n) s = (s.hostRead false (off.toNat % 0x10000) n.val).ends :=
  congrArg State.ends (pcieRead_region h ..)

theorem exec_hostRead_devices : exec (.hostRead 1 off n) s = (s.hostRead false (0x40000000 + off.toNat % 0x40000000) n.val).ends :=
  congrArg State.ends (pcieRead_devices h ..)

theorem exec_hostWrite_region : exec (.hostWrite 0 off k data) s =
    (s.hostWrite (off.toNat % 0x10000) (leBytes k.val data.toNat)).ends :=
  congrArg State.ends (pcieWrite_region h ..)

theorem exec_hostWrite_devices : exec (.hostWrite 1 off k data) s =
    (s.hostWrite (0x40000000 + off.toNat % 0x40000000) (leBytes k.val data.toNat)).ends :=
  congrArg State.ends (pcieWrite_devices h ..)

theorem exec_hostRead_msix : exec (.hostRead 2 off n) s =
    (s.hostReply ⟨false, off.toNat, n.val⟩ 0 (s.bytes (msixBase + off.toNat % 0x10000) n.val)).ends :=
  congrArg State.ends (pcieRead_msix h ..)

theorem exec_hostRead_config : exec (.hostRead 3 off n) s =
    ((s.configRead (off.toNat % 0x1000) n.val).2.hostReply ⟨false, off.toNat % 0x1000, n.val⟩ 0
      (s.configRead (off.toNat % 0x1000) n.val).1).ends :=
  congrArg State.ends (pcieRead_config h ..)

end

/-- A post that the mailbox's register takes (R485). -/
theorem exec_post {who : Initiator} {m : BitVec 8} (h : s.Takes who .MBX_POST m.toNat) (len : BitVec 6) :
    exec (.post who m len) s = (s.mbxPost m.toNat len.toNat).ends := by
  have hm := m.isLt
  have hl := len.isLt
  show (s.writeBy who .MBX_POST m.toNat len.toNat).ends = _
  rw [writeBy_takes h (placed_MBX_POST (by omega)) (by decide), regWrite_MBX_POST (by omega), Nat.mod_eq_of_lt (by omega)]

theorem exec_numcmd {who : Initiator} (h : s.Takes who .HIF_NUMCMD 0) (num : BitVec 6) :
    exec (.numcmd who num) s = (s.numCmd num.toNat).ends := by
  obtain ⟨hgo, hnum⟩ := numcmd_bits num
  show (s.writeBy who .HIF_NUMCMD 0 (num.toNat + 2 ^ 6)).ends = _
  rw [writeBy_takes h placed_HIF_NUMCMD (by decide), regWrite_HIF_NUMCMD, if_pos hgo, hnum]

theorem exec_almxc {a : Fin 8} {who : Initiator} (h : s.Takes who .QTZ_ALMC a.val) (v : Word) :
    exec (.almxc who a v) s = (s.almCtl a.val v.toNat).ends := by
  have ha := a.isLt
  show (s.writeBy who .QTZ_ALMC a.val v.toNat).ends = _
  rw [writeBy_takes h (placed_QTZ_ALMC ha) (by decide), regWrite_QTZ_ALMC (by omega)]

end Sys2Proof.Laws
end

section
/-! PROOF. Host accesses, mailboxes and alarms (R26, R27, R478 to R488, R501). -/

namespace Sys2Proof.Proofs
open Sys2Proof.Machine Sys2Proof.Laws

/-- Settles O55: every command of the host link and of Quartz's alarms comes to the state that its clause gives. -/
theorem hostAndAlarms : Obligations.HostAndAlarms := by
  intro s hq
  refine ⟨?reply, ?off, ?windows, ?vectors, ?region, ?gap, ?remoteRegion, ?aperture, ?frames, ?spi, ?timeout, ?post, ?snapshot, ?staging,
    ?number, ?root, ?almxc, ?fire, ?stands⟩
  case reply =>
    intro h n st data
    exact ⟨rfl, rfl, fun f => rfl, fun spi => rfl⟩
  case off =>
    intro bar wbar off n k data h
    have hoff := pcieOn_false h
    rw [exec_hostRead, exec_hostWrite]
    exact ⟨ends_of_eq (pcieRead_off hoff ..) hq, ends_of_eq (pcieWrite_off hoff ..) hq⟩
  case windows =>
    intro off n k data o a l cfg hon
    rw [exec_hostRead_msix hon, exec_hostRead_config hon, exec_hostWrite]
    exact ⟨ends_of_quiet (quiet_hostReply hq ..),
      fun ho => ends_of_eq (pcieWrite_pending hon _ _ ho) hq,
      fun ho => ends_of_eq (pcieWrite_table hon _ _ ho) (quiet_msixUnmask (quiet_setBytes _ hq _) ..),
      ends_of_quiet (quiet_hostReply (quiet_configRead hq ..) ..), rfl⟩
  case vectors =>
    intro v b p _
    have hone : s.msixUnmask v v = if bit (v % 8) (s.byte p).toNat && !bit 0 b then { s.setMsixPend v 0 with msix := some v } else s :=
      msixUnmask_one s v
    refine ⟨msixSend_unmasked, msixSend_masked, fun hb hp => ?_, fun h => ?_⟩
    · rw [hone, hb, hp]; rfl
    · rw [hone, if_neg]
      rcases h with h | h <;> simp [h]
  case region =>
    intro off n k data h a l q hon hn hk
    have hh : h < 0x10000 := Nat.mod_lt _ (by decide)
    have hroom := hostRoom_own hh
    have hl : l.length = k.val := length_leBytes ..
    have hplace : placeView (s.hostPlace h) = some (s.devNum, 0x1C00E0000 + h, a) := by rw [hostPlace_own hh]; rfl
    have hread : exec (.hostRead 0 off n) s = (s.hostRead false h n.val).ends := exec_hostRead_region hon ..
    have hwrite : exec (.hostWrite 0 off k data) s = (s.hostWrite h l).ends := exec_hostWrite_region hon ..
    rw [hread, hwrite]
    refine ⟨fun st b t hr hs => ?_, fun st b t hr hs => ?_, fun hr => ?_, fun t hr hs => ?_, fun e t hr hs => ?_⟩
    · rw [hostRead_here hn (by omega) hplace hs]
    · rw [hostRead_past hh hr hs]
    · rw [hostWrite_past hh (by omega)]
    · exact congrArg State.ends (hostWrite_here (by omega) (by omega) hplace hs)
    · exact congrArg State.ends (hostWrite_here (by omega) (by omega) hplace hs)
  case gap =>
    intro off n k data h d o q l log hon h1 h2 hn hk
    have hx : off.toNat % 0x40000000 < 0x40000000 := Nat.mod_lt _ (by decide)
    have hplace : placeView (s.hostPlace h) = none := by rw [hostPlace_device_gap hx (by omega) (by omega)]; rfl
    have hl : l.length ≠ 0 := by rw [length_leBytes]; exact hk
    rw [exec_hostRead_devices hon, exec_hostWrite_devices hon]
    exact ⟨congrArg State.ends (hostRead_nowhere hn hplace), congrArg State.ends (hostWrite_nowhere hl hplace)⟩
  case remoteRegion =>
    intro off n k data h d o q l log ask hon hd hon' hok hn hk
    have hx : off.toNat % 0x40000000 < 0x40000000 := Nat.mod_lt _ (by decide)
    have ho : off.toNat % 0x40000000 % 0x1000000 = o := by omega
    have hplace : s.hostPlace h = .region d o := by rw [hostPlace_device_region hx (by omega), ho]
    have hview : placeView (s.hostPlace h) = some (d, 0x1C00E0000 + o, 0x4000E0000 + o) := by rw [hplace]; rfl
    have hroom : hostRoom h = 0x10000 - o := by rw [hostRoom_device_region (by omega), ho]
    have hl : l.length = k.val := length_leBytes ..
    have hread : exec (.hostRead 1 off n) s = (s.hostRead false h n.val).ends := exec_hostRead_devices hon ..
    have hwrite : exec (.hostWrite 1 off k data) s = (s.hostWrite h l).ends := exec_hostWrite_devices hon ..
    rw [hread, hwrite, hostWrite_elsewhere (by omega) (by omega) hview hd]
    refine ⟨fun hg => ⟨?_, ends_of_eq (remotePut_absent hg ..) hq⟩, fun hg => ⟨?_, rfl⟩⟩
    · exact congrArg State.ends (hostRead_absent_region hn (by omega) hplace hd hg)
    · rw [hostRead_asks hn (by omega) hview hd hg, hostAsk_first]
  case aperture =>
    intro off n k data h d o q l log v ask hon h1 hon' hok hn hk
    have hx : off.toNat % 0x40000000 < 0x40000000 := Nat.mod_lt _ (by decide)
    have ho : off.toNat % 0x40000000 % 0x1000000 = o := by omega
    have hplace : s.hostPlace h = .aperture d v := by rw [hostPlace_device_aperture hx (by omega), ho]
    have hview : placeView (s.hostPlace h) = (viewAddr v).map (fun a => (d, v, a)) := by rw [hplace]; rfl
    have hroom : hostRoom h = 0x1000000 - o := by rw [hostRoom_device_aperture (by omega), ho]
    have hl : l.length = k.val := length_leBytes ..
    have hread : exec (.hostRead 1 off n) s = (s.hostRead false h n.val).ends := exec_hostRead_devices hon ..
    have hwrite : exec (.hostWrite 1 off k data) s = (s.hostWrite h l).ends := exec_hostWrite_devices hon ..
    rw [hread, hwrite]
    refine ⟨fun hv => ?_, fun a hv => ?_⟩ <;> rw [hv] at hview
    · exact ⟨congrArg State.ends (hostRead_nowhere hn hview), congrArg State.ends (hostWrite_nowhere (by omega) hview)⟩
    · have helse (hd : d ≠ s.devNum) : s.hostWrite h l = s.remotePut d v l := hostWrite_elsewhere (by omega) (by omega) hview hd
      have hhere {e : Option BusErr} {t : State} (hd : d = s.devNum) (hs : s.spanWrite .host a l = (e, t)) :
          s.hostWrite h l = if e.isSome then t.hostLog h F.HIF_STAT_REFUSED else t :=
        hostWrite_here (by omega) (by omega) (hd ▸ hview) hs
      refine ⟨fun hd hg => ⟨?_, ?_⟩, fun hd hg => ⟨?_, ?_⟩, fun st b t hd hs => ?_, fun t hd hs => ?_, fun e t hd hs => ?_⟩
      · rw [hostRead_asks hn (by omega) hview hd hg, hostAsk_first]
      · rw [helse hd]
      · rw [hostRead_absent_aperture hn (by omega) hplace hv hd hg]
      · exact ends_of_eq ((helse hd).trans (remotePut_absent hg ..)) hq
      · rw [hostRead_here hn (by omega) (hd ▸ hview) hs]
      · exact congrArg State.ends (hhere hd hs)
      · exact congrArg State.ends (hhere hd hs)
  case frames =>
    intro d o l send hg hl
    exact ⟨fun hn => remotePut_one_frame hg hl hn o, fun h1 h2 => remotePut_two_frames hg h1 h2 o⟩
  case spi =>
    intro cmd addr n data err u r m
    have hl : (leBytes n.val data.toNat).length = n.val := length_leBytes ..
    have herr : s.spiErr.Quiet := quiet_setFld hq ..
    rw [exec_spiRead, exec_spiRead, exec_spiWrite]
    refine ⟨fun h => ⟨ends_of_eq (spiRead_off h ..) hq, ends_of_eq (spiWrite_off h ..) hq⟩, fun ha he => ⟨fun hc => ?_, fun h2 hB => ?_,
      fun hm => ?_, fun hm => ?_⟩⟩
    · exact ends_of_eq (hc ▸ spiRead_write_command s ..) hq
    · have h2' : cmd.toNat ≠ 2 := fun h => h2 (BitVec.eq_of_toNat_eq h)
      have hB' : cmd.toNat ≠ 0x0B := fun h => hB (BitVec.eq_of_toNat_eq h)
      exact ends_of_eq (spiRead_malformed ha he _ h2' (.inl hB')) herr
    · exact ⟨ends_of_eq (spiRead_malformed ha he _ (by decide) (.inr hm)) herr, ends_of_eq (spiWrite_malformed ha he _ hm) herr⟩
    · rw [spiWrite_valid ha he _ hm, hl]
      exact ⟨congrArg State.ends (spiRead_valid ha he _ hm), rfl⟩
  case timeout =>
    rw [exec_hostReadTimeout]
    refine ⟨fun h => ends_of_eq (readTimeout_idle h) hq, fun q rest h => ?_⟩
    cases hh : q.host with
    | none => rw [readTimeout_initiator h hh]
    | some x => rw [readTimeout_host h hh]
  case post =>
    intro who m len i p q r t ht
    have hi : i < 65536 := by have := m.isLt; omega
    have hpub := quiet_published hq i len.toNat
    rw [exec_post ht]
    exact ⟨fun h => ends_of_eq (mbxPost_quietly hi h _) hpub, fun h hd => ends_of_eq (mbxPost_interrupts hi h hd _) (quiet_sendIrq hpub _)⟩
  case snapshot =>
    intro who m i l latch t
    rw [exec_snapshot]
    refine ⟨fun h => ends_of_eq (snapshotBy_stranger h) hq, fun ha hr hp hf => ?_, fun ha hr hp hf => ?_, fun p ha hr hp => ?_⟩
    · exact ends_of_eq ((snapshotBy_reader ha hr).trans (mbxSnap_latches hp hf _)) (quiet_latched hq ..)
    · exact ends_of_eq ((snapshotBy_reader ha hr).trans (mbxSnap_consumes hp hf _)) (quiet_setFld (quiet_setFld (quiet_latched hq ..) ..) ..)
    · exact ends_of_eq ((snapshotBy_reader ha hr).trans (mbxSnap_posted hp _)) (quiet_latched (quiet_postUnder hq ..) ..)
  case staging =>
    intro i ready t
    exact ⟨postNote_of_some, fun h => ⟨postNow_postNote h, postNote_regs s i, postNote_mem s i⟩,
      fun v old h hv => stagedOld_of_staged h hv, fun a v => stagedOld_stage s i a v⟩
  case number =>
    intro who num uid ht
    have ha := alive_of_takes_NUMCMD ht
    rw [exec_numcmd ht]
    exact ⟨fun hu => ends_of_eq (numCmd_own ha hu _) (quiet_gdnRefresh (quiet_setFld (quiet_setFld hq ..) ..)),
      fun hu => ends_of_eq (numCmd_other ha hu _) (quiet_numFlood hq ..)⟩
  case root =>
    intro up
    rw [exec_pcieLinkChange, exec_spiRootLapse]
    exact ⟨fun h => ends_of_eq (pcieLink_dead h _) hq, fun h => ends_of_eq (pcieLink_alive h _) (quiet_gdnRefresh (quiet_setFld hq ..)),
      fun h => ends_of_eq (spiLapse_none h) hq, fun t h => ends_of_eq (spiLapse_some h) (quiet_gdnRefresh (quiet_of_eq hq rfl rfl))⟩
  case almxc =>
    intro a who v old kept u ht
    have ha : a.val < 65536 := by omega
    have hu : u.Quiet := quiet_setRegN hq ..
    rw [exec_almxc ht]
    exact ⟨fun h => ends_of_eq (almCtl_disarms h) (quiet_setAlmLate hu ..),
      fun h hold hpast => ends_of_eq (almCtl_arms_late ha h hold hpast) (quiet_setAlmLate hu ..),
      fun h hold => ends_of_eq (almCtl_keeps_time ha h hold) hu⟩
  case fire =>
    intro a late target t per u v hk
    rw [exec_alarmFire, clocked_runs hk]
    refine ⟨fun h => ends_of_eq (almFire_idle h) hq, fun h2 harm hp => ?_, fun h2 harm hp => ?_⟩
    · exact congrArg State.ends (almFire_once h2 harm hp)
    · exact congrArg State.ends (almFire_periodic h2 harm hp)
  case stands =>
    intro h a
    exact ends_of_eq (clocked_stands h _) hq

end Sys2Proof.Proofs
end

section
/-! SUPPORT. Gedan ports and rack time (R29 to R32, R489 to R497): what a write of a field leaves of others, the upstream port, what
follows it, and the operations of frames, ports and exchanges. -/

namespace Sys2Proof.Laws
open Sys2Proof.Machine

variable {s t : State}

/-! Fields after a write of a field. -/

/-- A field below the one replaced stands. -/
theorem bits_setBits_below {hi lo' lo : Nat} (w v n : Nat) (h : hi < lo) : bits hi lo' (setBits lo w v n) = bits hi lo' n := by
  have hlow : setBits lo w v n % 2 ^ lo = n % 2 ^ lo := by
    unfold setBits
    rw [Nat.shiftLeft_eq, Nat.shiftLeft_eq, Nat.pow_add, Nat.mul_comm (2 ^ lo), ← Nat.mul_assoc, ← Nat.add_mul, Nat.mul_add_mod_self_right,
      Nat.mod_mod]
  rw [← bits_mod_two_pow lo' _ h, hlow, bits_mod_two_pow lo' _ h]

/-- A field replaced holds its new value. -/
theorem bits_setBits_same {lo w : Nat} (v n : Nat) (hw : 0 < w) : bits (lo + w - 1) lo (setBits lo w v n) = v % 2 ^ w := by
  have hn : n % 2 ^ lo < 2 ^ lo := Nat.mod_lt _ (by positivity)
  have hwidth : lo + w - 1 + 1 - lo = w := by omega
  have hsplit : setBits lo w v n = 2 ^ lo * (2 ^ w * (n >>> (lo + w)) + v % 2 ^ w) + n % 2 ^ lo := by
    unfold setBits
    rw [Nat.shiftLeft_eq, Nat.shiftLeft_eq, Nat.pow_add]
    ring
  unfold bits
  rw [hwidth, hsplit, Nat.shiftRight_eq_div_pow, Nat.mul_add_div (by positivity), Nat.div_eq_of_lt hn, Nat.add_zero, Nat.mul_add_mod,
    Nat.mod_mod]

/-- A field shares no bit with another one, at any place: they are of different registers, or apart in one. -/
abbrev Clear (f g : Fld) : Prop :=
  g.reg.ctorIdx ≠ f.reg.ctorIdx ∨ g.lo + g.width ≤ 32 ∧ 0 < g.width ∧ (f.lo + f.width ≤ g.lo ∨ g.lo + g.width ≤ f.lo)

/-- A write of a field leaves those that are clear of it. -/
theorem fld_setFld_clear {f g : Fld} {i j : Nat} (v : Nat) (h : Clear f g) (hi : i < 65536) (hj : j < 65536) :
    (s.setFld f i v).fld g j = s.fld g j := by
  rcases h with h | ⟨h32, hw, h⟩
  · exact fld_setFld_ne v (key_ne h hj hi)
  · by_cases hk : g.reg.key j = f.reg.key i
    · have hreg (u : State) : u.reg g.reg j = u.reg f.reg i := congrArg (Tab.look regDefault u.regs) hk
      unfold State.fld State.setFld State.setRegN State.regN
      rw [hreg, hreg, reg_setReg, BitVec.toNat_ofNat, bits_mod_two_pow _ _ (by omega)]
      rcases h with h | h
      · exact bits_setBits_above _ _ _ h
      · exact bits_setBits_below _ _ _ (by omega)
    · exact fld_setFld_ne v hk

/-- A field written holds what fits of its new value. -/
theorem fld_setFld_same {f : Fld} (i v : Nat) (hw : 0 < f.width) (hf : f.lo + f.width ≤ 32) :
    (s.setFld f i v).fld f i = v % 2 ^ f.width := by
  unfold State.fld State.setFld State.setRegN State.regN
  rw [reg_setReg, BitVec.toNat_ofNat, bits_mod_two_pow _ _ (by omega), bits_setBits_same _ _ hw]

theorem flag_of_fld {f : Fld} {i j : Nat} (h : t.fld f i = s.fld f j) : t.flag f i = s.flag f j := by
  unfold State.flag
  rw [h]

/-- A flag written holds its new value. -/
theorem flag_setFld_same {f : Fld} (i : Nat) (b : Bool) (hw : f.width = 1) (hf : f.lo < 32) : (s.setFld f i (b2n b)).flag f i = b := by
  unfold State.flag
  rw [fld_setFld_same i _ (by omega) (by omega), hw]
  cases b <;> rfl

/-- An event counted leaves every field clear of its counter. -/
theorem fld_bump_clear {cnt sat g : Fld} {i j : Nat} (hc : Clear cnt g) (hs : Clear sat g) (hi : i < 65536) (hj : j < 65536) :
    (s.bump cnt sat i).fld g j = s.fld g j := by
  unfold State.bump
  extract_lets u
  split
  · exact fld_setFld_clear _ hs hi hj
  · exact fld_setFld_clear _ hc hi hj

theorem regN_setRegN_ne {r r' : Reg} {i j : Nat} (v : Nat) (h : r'.key j ≠ r.key i) : (s.setRegN r i v).regN r' j = s.regN r' j :=
  congrArg BitVec.toNat (reg_setReg_ne s _ h)

/-- A whole register written leaves the fields of every other one. -/
theorem fld_setRegN_ne {r : Reg} {g : Fld} {i j : Nat} (v : Nat) (h : g.reg.ctorIdx ≠ r.ctorIdx) (hi : i < 65536) (hj : j < 65536) :
    (s.setRegN r i v).fld g j = s.fld g j :=
  congrArg (bits (g.lo + g.width - 1) g.lo) (regN_setRegN_ne v (key_ne h hj hi))

/-- Two registers hold the low 64 bits of what is written to both. -/
theorem pair_setPair {lo hi : Reg} {i : Nat} (v : Nat) (h : lo.key i ≠ hi.key i) : (s.setPair lo hi i v).pair lo hi i = v % 2 ^ 64 := by
  have hlo : (s.setPair lo hi i v).regN lo i = v % 2 ^ 32 :=
    (regN_setRegN_ne _ h).trans (regN_setRegN _ _ _ _ (Nat.mod_lt _ (by decide)))
  have hhi : (s.setPair lo hi i v).regN hi i = v / 2 ^ 32 % 2 ^ 32 := by
    show ((s.setRegN lo i (v % 2 ^ 32)).setRegN hi i (v / 2 ^ 32)).regN hi i = _
    simp [State.setRegN, State.regN]
  unfold State.pair
  rw [hlo, hhi]
  omega

/-! The ports of a device, kept as a table. -/

/-- Of two changes of a port both stand. -/
theorem modGport_modGport (s : State) (p : Nat) (f g : Gport → Gport) : (s.modGport p f).modGport p g = s.modGport p (fun x => g (f x)) := by
  simp [State.modGport, State.setGport, State.gport]

/-! The upstream port (R493). -/

/-- The nearer of two ports, the one before in a tie. -/
def nearer (s : State) (m : Option Nat) (p : Nat) : Option Nat :=
  match m with
  | none => some p
  | some q => if s.fld F.GDN_NBR_DIST p < s.fld F.GDN_NBR_DIST q then some p else some q

/-- The ports whose neighbours report a way to the root. -/
def rootward (s : State) : List Nat := (List.range 4).filter (fun p => s.gdnHeard p && decide (s.fld F.GDN_NBR_DIST p < 0xFF))

theorem gdnUpstream_eq (s : State) : s.gdnUpstream = if s.isRoot then none else (rootward s).foldl (nearer s) none := rfl

theorem mem_rootward {p : Nat} : p ∈ rootward s ↔ p < 4 ∧ s.gdnHeard p = true ∧ s.fld F.GDN_NBR_DIST p < 0xFF := by
  simp [rootward]

/-- What a port chosen of some ports is to them: the one with the lowest DIST, and of those with it the lowest number. -/
def Nearest (s : State) (l : List Nat) : Option Nat → Prop
  | none => l = []
  | some p => p ∈ l ∧ ∀ q ∈ l, s.fld F.GDN_NBR_DIST p ≤ s.fld F.GDN_NBR_DIST q ∧ (s.fld F.GDN_NBR_DIST q = s.fld F.GDN_NBR_DIST p → p ≤ q)

theorem nearest_nearer {l : List Nat} {m : Option Nat} {p : Nat} (h : Nearest s l m) (hp : ∀ q ∈ l, q < p) :
    Nearest s (l ++ [p]) (nearer s m p) := by
  cases m with
  | none =>
    have hl : l = [] := h
    simp [hl, nearer, Nearest]
  | some q =>
    obtain ⟨hq, hmin⟩ := h
    have hlt := hp q hq
    unfold nearer
    dsimp only
    split
    · refine ⟨by simp, fun r hr => ?_⟩
      rcases List.mem_append.mp hr with hr | hr
      · have := hmin r hr
        omega
      · rw [List.mem_singleton.mp hr]
        omega
    · refine ⟨List.mem_append_left _ hq, fun r hr => ?_⟩
      rcases List.mem_append.mp hr with hr | hr
      · exact hmin r hr
      · rw [List.mem_singleton.mp hr]
        omega

/-- The fold of the model chooses the nearest of the ports, taken in rising order. -/
theorem nearest_foldl (s : State) (l : List Nat) (hl : l.Pairwise (· < ·)) : Nearest s l (l.foldl (nearer s) none) := by
  induction l using List.reverseRecOn with
  | nil => rfl
  | append_singleton l p ih =>
    obtain ⟨hl, -, hp⟩ := List.pairwise_append.mp hl
    rw [List.foldl_append]
    exact nearest_nearer (ih hl) (fun q hq => hp q hq p (by simp))

/-- Only one port is the nearest. -/
theorem nearest_unique {l : List Nat} {m n : Option Nat} (hm : Nearest s l m) (hn : Nearest s l n) : m = n := by
  cases m with
  | none =>
    have hl : l = [] := hm
    cases n with
    | none => rfl
    | some q => exact absurd hn.1 (by simp [hl])
  | some p =>
    cases n with
    | none =>
      have hl : l = [] := hn
      exact absurd hm.1 (by simp [hl])
    | some q =>
      have hpq := hm.2 q hn.1
      have hqp := hn.2 p hm.1
      exact congrArg some (by omega)

theorem nearest_upstream (hr : s.isRoot = false) : Nearest s (rootward s) s.gdnUpstream := by
  rw [gdnUpstream_eq, hr]
  exact nearest_foldl s _ (List.Pairwise.filter _ List.pairwise_lt_range)

/-- A root has no upstream port (R480). -/
theorem gdnUpstream_root (h : s.isRoot = true) : s.gdnUpstream = none := by
  rw [gdnUpstream_eq, h]
  rfl

theorem isRoot_of_upstream {p : Nat} (h : s.gdnUpstream = some p) : s.isRoot = false := by
  cases hr : s.isRoot with
  | false => rfl
  | true => rw [gdnUpstream_root hr] at h; cases h

/-- The upstream port leads to the root, and no other port leads there by fewer devices (R493). -/
theorem upstream_nearest {p : Nat} (h : s.gdnUpstream = some p) : (p < 4 ∧ s.gdnHeard p = true ∧ s.fld F.GDN_NBR_DIST p < 0xFF) ∧
    ∀ q ∈ rootward s, s.fld F.GDN_NBR_DIST p ≤ s.fld F.GDN_NBR_DIST q ∧ (s.fld F.GDN_NBR_DIST q = s.fld F.GDN_NBR_DIST p → p ≤ q) := by
  have hn := nearest_upstream (isRoot_of_upstream h)
  rw [h] at hn
  exact ⟨mem_rootward.mp hn.1, hn.2⟩

theorem gdnUp_of_heard {p : Nat} (h : s.gdnHeard p = true) : s.gdnUp p = true := by
  unfold State.gdnHeard at h
  simp only [Bool.and_eq_true] at h
  exact h.1.1

/-- What follows the upstream port: DIST, its role and TREE (R493). -/
theorem gdnDist_upstream {p : Nat} (h : s.gdnUpstream = some p) : s.gdnDist = s.fld F.GDN_NBR_DIST p + 1 := by
  simp [State.gdnDist, isRoot_of_upstream h, h]

theorem gdnRole_upstream {p : Nat} (h : s.gdnUpstream = some p) : s.gdnRole p = 1 := by
  obtain ⟨⟨-, hheard, -⟩, -⟩ := upstream_nearest h
  simp [State.gdnRole, gdnUp_of_heard hheard, h]

theorem gdnTree_upstream {p : Nat} (h : s.gdnUpstream = some p) : s.gdnTree = (s.gport p).tree := by
  simp [State.gdnTree, isRoot_of_upstream h, h]

theorem gdnRole_lt (s : State) (p : Nat) : s.gdnRole p < 4 := by
  unfold State.gdnRole
  split_ifs <;> decide

/-! What decides the way to the root, and Quartz's state with it. -/

/-- The fields that the way to the root, the engine clock and Quartz's own state are read from. -/
def linkFlds : List Fld := [F.HIF_STAT_LINKUP, F.GDN_STAT_STATE, F.GDN_STAT_DISCONLY, F.GDN_NBR_VALID, F.GDN_NBR_DIST, F.CLK_STAT_ENGLOCK,
  F.PMU_MODE_CUR, F.QTZ_STATUS_STATE, F.QTZ_STATUS_LOCK]

/-- Two states agree on the way to the root, on the engine clock, on the domains and on Quartz's state. -/
structure SameLinks (s t : State) : Prop where
  spiAt : t.spiAt = s.spiAt
  doms  : t.regN .PMU_DOMSTAT 0 = s.regN .PMU_DOMSTAT 0
  flds  : ∀ g ∈ linkFlds, ∀ j < 65536, t.fld g j = s.fld g j

theorem SameLinks.refl (s : State) : SameLinks s s := ⟨rfl, rfl, fun _ _ _ _ => rfl⟩

/-- A write of a field that is clear of those read keeps the links. -/
theorem SameLinks.setFld (h : SameLinks s t) (f : Fld) {i : Nat} (v : Nat) (hi : i < 65536) (hd : f.reg.ctorIdx ≠ Reg.PMU_DOMSTAT.ctorIdx)
    (hf : ∀ g ∈ linkFlds, Clear f g) : SameLinks s (t.setFld f i v) where
  spiAt := h.spiAt
  doms := (regN_setRegN_ne _ (key_ne (Ne.symm hd) (by decide) hi)).trans h.doms
  flds g hg j hj := (fld_setFld_clear v (hf g hg) hi hj).trans (h.flds g hg j hj)

/-- So does a write of a whole register that none of them is in. -/
theorem SameLinks.setRegN (h : SameLinks s t) {r : Reg} {i : Nat} (v : Nat) (hi : i < 65536) (hd : r.ctorIdx ≠ Reg.PMU_DOMSTAT.ctorIdx)
    (hr : ∀ g ∈ linkFlds, g.reg.ctorIdx ≠ r.ctorIdx) : SameLinks s (t.setRegN r i v) where
  spiAt := h.spiAt
  doms := (regN_setRegN_ne _ (key_ne (Ne.symm hd) (by decide) hi)).trans h.doms
  flds g hg j hj := (fld_setRegN_ne v (hr g hg) hi hj).trans (h.flds g hg j hj)

section
variable (h : SameLinks s t)
include h

theorem SameLinks.isRoot : t.isRoot = s.isRoot := by
  unfold State.isRoot
  rw [flag_of_fld (h.flds F.HIF_STAT_LINKUP (by decide) 0 (by decide)), h.spiAt]

theorem SameLinks.alive (d : Nat) : t.alive d = s.alive d := by
  have hm : t.mode = s.mode := h.flds F.PMU_MODE_CUR (by decide) 0 (by decide)
  unfold State.alive
  rw [h.doms, hm]

theorem SameLinks.engClock : t.engClock = s.engClock := flag_of_fld (h.flds F.CLK_STAT_ENGLOCK (by decide) 0 (by decide))

theorem SameLinks.gdnHeard {p : Nat} (hp : p < 65536) : t.gdnHeard p = s.gdnHeard p := by
  unfold State.gdnHeard State.gdnUp
  rw [h.alive, h.flds F.GDN_STAT_STATE (by decide) p hp, flag_of_fld (h.flds F.GDN_NBR_VALID (by decide) p hp),
    flag_of_fld (h.flds F.GDN_STAT_DISCONLY (by decide) p hp)]

theorem SameLinks.dist {p : Nat} (hp : p < 65536) : t.fld F.GDN_NBR_DIST p = s.fld F.GDN_NBR_DIST p :=
  h.flds F.GDN_NBR_DIST (by decide) p hp

theorem SameLinks.rootward : rootward t = rootward s := by
  refine List.filter_congr fun p hp => ?_
  have hp := List.mem_range.mp hp
  rw [h.gdnHeard (by omega), h.dist (by omega)]

/-- The nearest port of one is the nearest of the other. -/
theorem SameLinks.nearest {m : Option Nat} (hn : Nearest t (Laws.rootward t) m) : Nearest s (Laws.rootward s) m := by
  have hdist {q : Nat} (hq : q ∈ Laws.rootward s) : t.fld F.GDN_NBR_DIST q = s.fld F.GDN_NBR_DIST q := by
    obtain ⟨hlt, -, -⟩ := mem_rootward.mp hq
    exact h.dist (by omega)
  rw [h.rootward] at hn
  cases m with
  | none => exact hn
  | some p =>
    obtain ⟨hp, hmin⟩ := hn
    refine ⟨hp, fun q hq => ?_⟩
    rw [← hdist hp, ← hdist hq]
    exact hmin q hq

theorem SameLinks.gdnUpstream : t.gdnUpstream = s.gdnUpstream := by
  cases hr : s.isRoot with
  | true => rw [gdnUpstream_root hr, gdnUpstream_root (h.isRoot.trans hr)]
  | false => exact nearest_unique (h.nearest (nearest_upstream (h.isRoot.trans hr))) (nearest_upstream hr)

end

/-! Quartz's state under the root and the upstream port (R29, R32). -/

theorem flag_setLock (s : State) (v : Bool) : (s.setLock v).flag F.QTZ_STATUS_LOCK 0 = v := flag_setFld_same 0 v (by decide) (by decide)

theorem fld_setLock_clear {g : Fld} (v : Bool) (hl : Clear F.QTZ_STATUS_LOCK g) (hx : Clear F.QTZ_STATUS_LOSTLOCK g) :
    (s.setLock v).fld g 0 = s.fld g 0 := by
  unfold State.setLock
  extract_lets u
  have hu : u.fld g 0 = s.fld g 0 := by
    unfold u
    split
    · exact fld_setFld_clear 1 hx (by decide) (by decide)
    · rfl
  exact (fld_setFld_clear _ hl (by decide) (by decide)).trans hu

/-- LOCK that falls sets LOSTLOCK. -/
theorem lostLock_of_setLock (h : s.flag F.QTZ_STATUS_LOCK 0 = true) : (s.setLock false).flag F.QTZ_STATUS_LOSTLOCK 0 = true := by
  unfold State.setLock
  rw [h]
  exact (flag_of_fld (fld_setFld_clear (g := F.QTZ_STATUS_LOSTLOCK) _ (by decide) (by decide) (by decide))).trans
    (flag_setFld_same 0 true (by decide) (by decide))

/-- No exchange is under way, and none has been good, missed or judged. -/
def restarted (s : State) : State := { s with sync := { s.sync with cur := none, good := 0, missed := 0, judged := false } }

theorem fld_restarted (s : State) (g : Fld) (j : Nat) : (restarted s).fld g j = s.fld g j := rfl

/-- Quartz shows whether its device is the root. -/
def rootShown (s : State) : State := s.setFld F.QTZ_STATUS_ROOT 0 (b2n s.isRoot)

theorem sameLinks_rootShown (s : State) : SameLinks s (rootShown s) :=
  (SameLinks.refl s).setFld _ _ (by decide) (by decide) (by decide)

/-- Quartz as it is under no upstream port: free, with its exchanges to begin anew. -/
def freed (s : State) : State := restarted (((rootShown s).qtzState 0).setFld F.QTZ_STATUS_UPPORT 0 0)

theorem fld_freed (s : State) (g : Fld) (j : Nat) :
    (freed s).fld g j = (((rootShown s).setFld F.QTZ_STATUS_STATE 0 0).setFld F.QTZ_STATUS_UPPORT 0 0).fld g j := by
  unfold freed
  exact fld_restarted ..

theorem freed_STATE (s : State) : (freed s).fld F.QTZ_STATUS_STATE 0 = 0 := by
  rw [fld_freed, fld_setFld_clear _ (by decide) (by decide) (by decide), fld_setFld_same _ _ (by decide) (by decide), Nat.zero_mod]

theorem freed_UPPORT (s : State) : (freed s).fld F.QTZ_STATUS_UPPORT 0 = 0 := by
  rw [fld_freed, fld_setFld_same _ _ (by decide) (by decide), Nat.zero_mod]

theorem freed_LOCK (s : State) : (freed s).flag F.QTZ_STATUS_LOCK 0 = s.flag F.QTZ_STATUS_LOCK 0 := by
  refine flag_of_fld ?_
  rw [fld_freed, fld_setFld_clear _ (by decide) (by decide) (by decide), fld_setFld_clear _ (by decide) (by decide) (by decide)]
  exact (sameLinks_rootShown s).flds F.QTZ_STATUS_LOCK (by decide) 0 (by decide)

theorem quartzTree_root (h2 : s.alive 2 = true) (hr : s.isRoot = true) :
    s.quartzTree = (freed s).setLock s.engClock := by
  have hroot := (sameLinks_rootShown s).isRoot.trans hr
  unfold State.quartzTree
  rw [h2, ← (sameLinks_rootShown s).engClock]
  exact if_pos hroot

theorem quartzTree_alone (h2 : s.alive 2 = true) (hr : s.isRoot = false) (hu : s.gdnUpstream = none) :
    s.quartzTree = (freed s).setLock false := by
  have hroot := (sameLinks_rootShown s).isRoot.trans hr
  have hup := (sameLinks_rootShown s).gdnUpstream.trans hu
  unfold rootShown at hroot hup
  unfold State.quartzTree
  simp only [h2, hroot, hup]
  rfl

/-- Under an upstream port Quartz that was free begins to follow it. -/
theorem quartzTree_upstream {p : Nat} (h2 : s.alive 2 = true) (hu : s.gdnUpstream = some p) : s.quartzTree =
    if s.fld F.QTZ_STATUS_STATE 0 = 0 then (restarted (((rootShown s).setFld F.QTZ_STATUS_UPPORT 0 p).qtzState 1)).setLock false
    else (rootShown s).setFld F.QTZ_STATUS_UPPORT 0 p := by
  have hroot := (sameLinks_rootShown s).isRoot.trans (isRoot_of_upstream hu)
  have hup := (sameLinks_rootShown s).gdnUpstream.trans hu
  have hstate : ((rootShown s).setFld F.QTZ_STATUS_UPPORT 0 p).fld F.QTZ_STATUS_STATE 0 = s.fld F.QTZ_STATUS_STATE 0 :=
    (fld_setFld_clear _ (by decide) (by decide) (by decide)).trans ((sameLinks_rootShown s).flds F.QTZ_STATUS_STATE (by decide) 0 (by decide))
  rw [← hstate]
  unfold rootShown at hroot hup ⊢
  unfold State.quartzTree
  simp only [h2, hroot, hup]
  rfl

/-- UPPORT names the upstream port, and Quartz that was free follows it. -/
theorem flds_quartzTree_upstream {p : Nat} (h2 : s.alive 2 = true) (hu : s.gdnUpstream = some p) :
    s.quartzTree.fld F.QTZ_STATUS_UPPORT 0 = p % 4 ∧ (s.fld F.QTZ_STATUS_STATE 0 = 0 → s.quartzTree.fld F.QTZ_STATUS_STATE 0 = 1) := by
  have hport : ((rootShown s).setFld F.QTZ_STATUS_UPPORT 0 p).fld F.QTZ_STATUS_UPPORT 0 = p % 4 :=
    fld_setFld_same 0 p (by decide) (by decide)
  rw [quartzTree_upstream h2 hu]
  split
  · refine ⟨?_, fun _ => ?_⟩
    · rw [fld_setLock_clear _ (by decide) (by decide), fld_restarted, State.qtzState, fld_setFld_clear _ (by decide) (by decide) (by decide), hport]
    · rw [fld_setLock_clear _ (by decide) (by decide), fld_restarted, State.qtzState, fld_setFld_same _ _ (by decide) (by decide)]
      rfl
  · exact ⟨hport, fun h => absurd h ‹_›⟩

/-- Quartz's state is in STATUS and its exchanges alone. -/
theorem quartzTree_keeps {α : Type} {φ : State → α} (hf : ∀ t f v, f.reg = .QTZ_STATUS → φ (t.setFld f 0 v) = φ t)
    (hs : ∀ t, φ (restarted t) = φ t) (s : State) : φ s.quartzTree = φ s := by
  have hlock (t : State) (v : Bool) : φ (t.setLock v) = φ t := by
    unfold State.setLock
    dsimp only
    split
    · rw [hf _ _ _ rfl, hf _ _ _ rfl]
    · exact hf _ _ _ rfl
  have hroot : φ (rootShown s) = φ s := hf _ _ _ rfl
  have hfree : φ (freed s) = φ s := by
    rw [freed, hs, hf _ _ _ rfl]
    exact (hf _ _ _ rfl).trans hroot
  cases h2 : s.alive 2 with
  | false => simp [State.quartzTree, h2]
  | true =>
    cases hr : s.isRoot with
    | true => rw [quartzTree_root h2 hr, hlock, hfree]
    | false =>
      cases hu : s.gdnUpstream with
      | none => rw [quartzTree_alone h2 hr hu, hlock, hfree]
      | some p =>
        have hport : φ ((rootShown s).setFld F.QTZ_STATUS_UPPORT 0 p) = φ s := (hf _ _ _ rfl).trans hroot
        rw [quartzTree_upstream h2 hu]
        split
        · rw [hlock, hs]
          exact (hf _ _ _ rfl).trans hport
        · exact hport

theorem quartzTree_regN {r : Reg} {j : Nat} (hr : r.ctorIdx ≠ Reg.QTZ_STATUS.ctorIdx) (hj : j < 65536) (s : State) :
    s.quartzTree.regN r j = s.regN r j :=
  quartzTree_keeps (φ := fun t => t.regN r j)
    (fun _ f _ hf => regN_setRegN_ne _ (key_ne (by rw [hf]; exact hr) hj (by decide))) (fun _ => rfl) s

theorem quartzTree_fld {g : Fld} {j : Nat} (hg : g.reg.ctorIdx ≠ Reg.QTZ_STATUS.ctorIdx) (hj : j < 65536) (s : State) :
    s.quartzTree.fld g j = s.fld g j :=
  congrArg (bits (g.lo + g.width - 1) g.lo) (quartzTree_regN hg hj s)

/-! What follows the ports (R480, R493, R494). -/

/-- ROOT and the roles of the first n ports shown. -/
def rolesShown (s : State) (n : Nat) : State :=
  repeatN n (fun p t => t.setFld F.GDN_STAT_ROLE p (s.gdnRole p)) (s.setFld F.HIF_STAT_ROOT 0 (b2n s.isRoot))

theorem rolesShown_succ (s : State) (n : Nat) : rolesShown s (n + 1) = (rolesShown s n).setFld F.GDN_STAT_ROLE n (s.gdnRole n) := by
  unfold rolesShown repeatN
  rw [List.range_succ, List.foldl_append]
  rfl

theorem sameLinks_rolesShown (s : State) {n : Nat} (hn : n ≤ 4) : SameLinks s (rolesShown s n) := by
  induction n with
  | zero => exact (SameLinks.refl s).setFld _ _ (by decide) (by decide) (by decide)
  | succ n ih =>
    rw [rolesShown_succ]
    exact (ih (by omega)).setFld _ _ (by omega) (by decide) (by decide)

theorem fld_rolesShown (s : State) {n p : Nat} (hn : n ≤ 4) (hp : p < n) : (rolesShown s n).fld F.GDN_STAT_ROLE p = s.gdnRole p := by
  induction n with
  | zero => omega
  | succ n ih =>
    rw [rolesShown_succ]
    by_cases h : p = n
    · rw [h, fld_setFld_same _ _ (by decide) (by decide)]
      exact Nat.mod_eq_of_lt (gdnRole_lt s n)
    · rw [fld_setFld_ne _ (fun hk => h ((key_inj (by omega) (by omega)).mp hk).2), ih (by omega) (by omega)]

theorem flag_rolesShown (s : State) {n : Nat} (hn : n ≤ 4) : (rolesShown s n).flag F.HIF_STAT_ROOT 0 = s.isRoot := by
  induction n with
  | zero => exact flag_setFld_same 0 _ (by decide) (by decide)
  | succ n ih =>
    rw [rolesShown_succ, flag_of_fld (fld_setFld_clear (g := F.HIF_STAT_ROOT) _ (by decide) (by omega) (by decide)), ih (by omega)]

/-- The roles and TREE shown. -/
def treeShown (s : State) : State := (rolesShown s 4).setPair .GDN_TREEL .GDN_TREEH 0 s.gdnTree

theorem gdnRefresh_alive (h : s.alive 18 = true) : s.gdnRefresh = (treeShown s).quartzTree := by
  have hroles : (rolesShown s 4).alive 18 = true := ((sameLinks_rolesShown s (le_refl 4)).alive 18).trans h
  have hmodel : s.gdnRefresh = (if (rolesShown s 4).alive 18 then treeShown s else rolesShown s 4).quartzTree := rfl
  rw [hmodel, if_pos hroles]

theorem sameLinks_treeShown (s : State) : SameLinks s (treeShown s) :=
  ((sameLinks_rolesShown s (le_refl 4)).setRegN _ (by decide) (by decide) (by decide)).setRegN _ (by decide) (by decide) (by decide)

theorem fld_treeShown {g : Fld} {j : Nat} (hl : g.reg.ctorIdx ≠ Reg.GDN_TREEL.ctorIdx) (hh : g.reg.ctorIdx ≠ Reg.GDN_TREEH.ctorIdx)
    (hj : j < 65536) (s : State) : (treeShown s).fld g j = (rolesShown s 4).fld g j :=
  (fld_setRegN_ne _ hh (by decide) hj).trans (fld_setRegN_ne _ hl (by decide) hj)

section
variable (h : s.alive 18 = true)
include h

theorem gdnRefresh_root : s.gdnRefresh.flag F.HIF_STAT_ROOT 0 = s.isRoot := by
  rw [gdnRefresh_alive h, flag_of_fld (quartzTree_fld (g := F.HIF_STAT_ROOT) (by decide) (by decide) _),
    flag_of_fld (fld_treeShown (g := F.HIF_STAT_ROOT) (by decide) (by decide) (by decide) s), flag_rolesShown s (le_refl 4)]

theorem gdnRefresh_role (p : Fin 4) : s.gdnRefresh.fld F.GDN_STAT_ROLE p.val = s.gdnRole p.val := by
  rw [gdnRefresh_alive h, quartzTree_fld (by decide) (by omega), fld_treeShown (by decide) (by decide) (by omega),
    fld_rolesShown s (le_refl 4) p.isLt]

theorem gdnRefresh_tree : s.gdnRefresh.pair .GDN_TREEL .GDN_TREEH 0 = s.gdnTree % 2 ^ 64 := by
  have hpair (t : State) : t.quartzTree.pair .GDN_TREEL .GDN_TREEH 0 = t.pair .GDN_TREEL .GDN_TREEH 0 := by
    unfold State.pair
    rw [quartzTree_regN (by decide) (by decide), quartzTree_regN (by decide) (by decide)]
  rw [gdnRefresh_alive h, hpair]
  exact pair_setPair _ (key_ne (by decide) (by decide) (by decide))

variable (h2 : s.alive 2 = true)
include h2

theorem gdnRefresh_quartz_root (hr : s.isRoot = true) : s.gdnRefresh.fld F.QTZ_STATUS_STATE 0 = 0 ∧
    s.gdnRefresh.fld F.QTZ_STATUS_UPPORT 0 = 0 ∧ s.gdnRefresh.flag F.QTZ_STATUS_LOCK 0 = s.engClock := by
  have hl := sameLinks_treeShown s
  rw [gdnRefresh_alive h, quartzTree_root ((hl.alive 2).trans h2) (hl.isRoot.trans hr), hl.engClock]
  exact ⟨(fld_setLock_clear _ (by decide) (by decide)).trans (freed_STATE _), (fld_setLock_clear _ (by decide) (by decide)).trans (freed_UPPORT _),
    flag_setLock ..⟩

theorem gdnRefresh_quartz_alone (hr : s.isRoot = false) (hu : s.gdnUpstream = none) : s.gdnRefresh.fld F.QTZ_STATUS_STATE 0 = 0 ∧
    s.gdnRefresh.flag F.QTZ_STATUS_LOCK 0 = false ∧
    (s.flag F.QTZ_STATUS_LOCK 0 = true → s.gdnRefresh.flag F.QTZ_STATUS_LOSTLOCK 0 = true) := by
  have hl := sameLinks_treeShown s
  have hlock := flag_of_fld (hl.flds F.QTZ_STATUS_LOCK (by decide) 0 (by decide))
  rw [gdnRefresh_alive h, quartzTree_alone ((hl.alive 2).trans h2) (hl.isRoot.trans hr) (hl.gdnUpstream.trans hu)]
  exact ⟨(fld_setLock_clear _ (by decide) (by decide)).trans (freed_STATE _), flag_setLock ..,
    fun hs => lostLock_of_setLock ((freed_LOCK _).trans (hlock.trans hs))⟩

theorem gdnRefresh_quartz_upstream {p : Nat} (hu : s.gdnUpstream = some p) : s.gdnRefresh.fld F.QTZ_STATUS_UPPORT 0 = p % 4 ∧
    (s.fld F.QTZ_STATUS_STATE 0 = 0 → s.gdnRefresh.fld F.QTZ_STATUS_STATE 0 = 1) := by
  have hl := sameLinks_treeShown s
  rw [gdnRefresh_alive h, ← hl.flds F.QTZ_STATUS_STATE (by decide) 0 (by decide)]
  exact flds_quartzTree_upstream ((hl.alive 2).trans h2) (hl.gdnUpstream.trans hu)

end

/-! Operations that leave nothing to be acted on. -/

theorem quiet_modGport (h : s.Quiet) (p : Nat) (f : Gport → Gport) : (s.modGport p f).Quiet := h
theorem quiet_reach (h : s.Quiet) (u : Nat) : (s.reach u).Quiet := h

theorem quiet_bump (h : s.Quiet) (cnt sat : Fld) (i : Nat) : (s.bump cnt sat i).Quiet :=
  quiet_of_eq h (bump_raised ..) (bump_notes ..)

theorem quiet_gdnDiscard (h : s.Quiet) (p : Nat) : (s.gdnDiscard p).Quiet := by
  unfold State.gdnDiscard
  split
  · exact h
  · exact quiet_bump h ..

theorem quiet_gdnSend (h : s.Quiet) (type d tag : Nat) (pl : List Byte) : (s.gdnSend type d tag pl).Quiet := by
  unfold State.gdnSend
  split <;> exact h

theorem quiet_gdnForward (h : s.Quiet) (p type dst src hops tag : Nat) (pl : List Byte) : (s.gdnForward p type dst src hops tag pl).Quiet := by
  unfold State.gdnForward
  split
  · exact quiet_gdnDiscard h p
  · split <;> exact h

theorem quiet_gdnLost (h : s.Quiet) (p : Nat) : (s.gdnLost p).Quiet :=
  quiet_gdnRefresh (quiet_setFld (quiet_setFld (quiet_setFld (quiet_modGport h ..) ..) ..) ..)

theorem quiet_gdnForget (h : s.Quiet) (p : Nat) : (s.gdnForget p).Quiet := by
  unfold State.gdnForget
  exact h

theorem quiet_setMode (h : s.Quiet) (m : Nat) : (s.setMode m).Quiet := h

theorem quiet_refreshDegr (h : s.Quiet) : s.refreshDegr.Quiet := by
  unfold State.refreshDegr
  dsimp only
  split
  · exact quiet_setMode (quiet_setFld h ..) _
  · split
    · exact quiet_setMode (quiet_setFld h ..) _
    · exact quiet_setFld h ..

theorem quiet_stepQuartz (h : s.Quiet) (d : Int) : (s.stepQuartz d).Quiet := by
  unfold State.stepQuartz
  extract_lets old new u
  have hu : u.Quiet := quiet_of_eq h rfl rfl
  clear_value u
  refine quiet_repeatN (fun k t ht => ?_) hu 8
  dsimp only
  split
  · exact quiet_of_eq ht rfl rfl
  · exact ht

theorem quiet_qtzTrim (h : s.Quiet) : s.qtzTrim.Quiet := by
  unfold State.qtzTrim
  split <;> exact h

theorem quiet_qtzState (h : s.Quiet) (v : Nat) : (s.qtzState v).Quiet := h

/-! Frames (R491, R492). -/

/-- A port that has received a valid frame now. -/
def received (s : State) (p : Nat) : State := s.modGport p (fun x => { x with rx := s.now })

theorem quiet_received (h : s.Quiet) (p : Nat) : (received s p).Quiet := h

theorem gdnDiscard_up {p : Nat} (h : s.gdnUp p = true) : s.gdnDiscard p = s.bump F.GDN_ERRCNT_FCRC F.GDN_ERRCNT_FCRCSAT p := by
  simp [State.gdnDiscard, h]

theorem gdnDiscard_down {p : Nat} (h : s.gdnUp p = false) : s.gdnDiscard p = s := by
  simp [State.gdnDiscard, h]

theorem gdnPasses_iff {p : Nat} : s.gdnPasses p = true ↔ s.gdnUp p = true ∧ s.flag F.GDN_STAT_DISCONLY p = false ∧ s.gdnRole p ≠ 3 := by
  simp [State.gdnPasses, and_assoc]

section
variable {p type dst src hops tag : Nat} {pl : List Byte} {act : State → State}

theorem gdnTake_refused (h : s.gdnPasses p = false) : s.gdnTake p type dst src hops tag pl act = s := by
  simp [State.gdnTake, h]

/-- A frame for this device acts. -/
theorem gdnTake_own (h : s.gdnPasses p = true) (hd : dst = s.devNum ∨ dst = 0xFF) :
    s.gdnTake p type dst src hops tag pl act = act (received s p) := by
  unfold State.gdnTake
  rw [h]
  exact if_pos hd

theorem gdnTake_other (h : s.gdnPasses p = true) (hd : ¬(dst = s.devNum ∨ dst = 0xFF)) :
    s.gdnTake p type dst src hops tag pl act = (received s p).gdnForward p type dst src hops tag pl := by
  unfold State.gdnTake
  rw [h]
  exact if_neg hd

theorem gdnForward_last (h : 64 ≤ hops + 1) : s.gdnForward p type dst src hops tag pl = s.gdnDiscard p := if_pos h

theorem gdnForward_leaves {q : Nat} (h : hops + 1 < 64) (hq : s.gdnPortTo dst = some q) :
    s.gdnForward p type dst src hops tag pl = s.gdnOut q (gdnFrame type dst src (hops + 1) tag pl) := by
  unfold State.gdnForward
  rw [if_neg (by omega), hq]

theorem gdnForward_nowhere (h : hops + 1 < 64) (hq : s.gdnPortTo dst = none) : s.gdnForward p type dst src hops tag pl = s := by
  unfold State.gdnForward
  rw [if_neg (by omega), hq]

end

/-! HELLO, and ports that come and go (R490, R493 to R495). -/

section
variable {p : Nat}

theorem helloSend_down (h : s.gdnUp p = false) : s.helloSend p = s := by
  simp [State.helloSend, h]

theorem helloSend_up (h : s.gdnUp p = true) : s.helloSend p = s.modGport p (fun x => { x with
    hello := s.now
    wire := (servingBytes (gdnFrame 1 0xFF s.devNum 0 0 (s.helloPayload p)) 0, servingBytes (gdnFrame 1 0xFF s.devNum 0 0 (s.helloPayload p)) 1) }) := by
  have hmodel : s.helloSend p =
      (s.gdnOut p (gdnFrame 1 0xFF s.devNum 0 0 (s.helloPayload p))).modGport p (fun x => { x with hello := s.now }) := by
    unfold State.helloSend
    rw [h]
    rfl
  rw [hmodel]
  exact modGport_modGport ..

theorem gdnTimeout_down (h : s.gdnUp p = false) : s.gdnTimeout p = s := by
  simp [State.gdnTimeout, h]

theorem gdnTimeout_up (h : s.gdnUp p = true) : s.gdnTimeout p = (s.reach ((s.gport p).rx + 2500)).gdnLost p := by
  simp [State.gdnTimeout, h]

theorem gdnLaneFail_down (h : s.gdnUp p = false) (lane : Bool) : s.gdnLaneFail p lane = s := by
  simp [State.gdnLaneFail, h]

/-- A failure counted changes neither the port nor what it is allowed. -/
theorem gdnLaneFail_up (h : s.gdnUp p = true) (hp : p < 65536) (lane : Bool) : s.gdnLaneFail p lane =
    if (s.gport p).lane || !s.flag F.GDN_CTL_SPAREEN p then (s.bump F.GDN_ERRCNT_LANEERR F.GDN_ERRCNT_LANESAT p).gdnLost p
    else (((s.bump F.GDN_ERRCNT_LANEERR F.GDN_ERRCNT_LANESAT p).modGport p (fun x => { x with lane := true })).setFld F.GDN_STAT_SPARE p
      (1 + b2n lane)).refreshDegr := by
  have hport : (s.bump F.GDN_ERRCNT_LANEERR F.GDN_ERRCNT_LANESAT p).gport p = s.gport p :=
    congrArg (fun l => Tab.look (fun _ => Gport.init) l p) (bump_gports ..)
  have hspare : (s.bump F.GDN_ERRCNT_LANEERR F.GDN_ERRCNT_LANESAT p).flag F.GDN_CTL_SPAREEN p = s.flag F.GDN_CTL_SPAREEN p :=
    flag_of_fld (fld_bump_clear (by decide) (by decide) hp hp)
  rw [← hport, ← hspare]
  unfold State.gdnLaneFail
  rw [h]
  rfl

theorem gdnPortUp_stays (h : s.alive 18 = false ∨ s.flag F.GDN_CTL_EN p = false ∨ s.gdnUp p = true) : s.gdnPortUp p = s := by
  unfold State.gdnPortUp
  rcases h with h | h | h <;> simp [h]

theorem gdnPortUp_trained (ha : s.alive 18 = true) (he : s.flag F.GDN_CTL_EN p = true) (hu : s.gdnUp p = false) : s.gdnPortUp p =
    (((((s.gdnForget p).setFld F.GDN_STAT_STATE p 2).setFld F.GDN_STAT_SPARE p 0).setFld F.GDN_STAT_DISCONLY p 0).modGport p
      (fun x => { x with rx := s.now, hello := s.now, lane := false })).gdnRefresh.refreshDegr := by
  unfold State.gdnPortUp
  rw [ha, he, hu]
  rfl

/-- Whether a neighbour's number is refused (R495): the one refused before, or one that TREE holds outside the SUBTREE of the port. -/
def refusesNum (s : State) (p num : Nat) : Bool :=
  s.flag F.GDN_STAT_DISCONLY p && num == s.fld F.GDN_NBR_NUM p ||
    bit num s.gdnTree && !bit num (s.gport p).sub && !(s.gdnUpstream == some p)

/-- What a HELLO tells of the neighbour, recorded (R493). -/
def neighbourHeard (s : State) (p num dist port flags sub tree : Nat) (claims : Bool) : State :=
  (s.modGport p (fun x => { x with
    rx := s.now, sub := if refusesNum s p num then 0 else sub, tree := tree, claim := claims && !refusesNum s p num, heard := true })).setRegN
    .GDN_NBR p (num + dist * 2 ^ 6 + port * 2 ^ 14 + flags % 4 * 2 ^ 16 + 2 ^ 18)

/-- A port that refuses its neighbour's number (R495). -/
def refusing (s : State) (p : Nat) : State := (s.setFld F.GDN_STAT_DISCONLY p 1).setFld F.GDN_STAT_CONFLICT p 1

theorem quiet_refusing (h : s.Quiet) (p : Nat) : (refusing s p).Quiet := h

section
variable {num dist port flags sub tree : Nat} {claims : Bool}

theorem quiet_neighbourHeard (h : s.Quiet) : (neighbourHeard s p num dist port flags sub tree claims).Quiet :=
  quiet_setRegN (quiet_modGport h ..) ..

theorem hello_down (h : s.gdnUp p = false) : s.hello p num dist port flags sub tree claims = s := by
  simp [State.hello, h]

theorem hello_free (h : s.gdnUp p = true) (hr : refusesNum s p num = false) : s.hello p num dist port flags sub tree claims =
    (if bit 2 flags then ((neighbourHeard s p num dist port flags sub tree claims).setFld F.GDN_STAT_DISCONLY p 0).setFld F.GDN_STAT_CONFLICT p 1
      else (neighbourHeard s p num dist port flags sub tree claims).setFld F.GDN_STAT_DISCONLY p 0).gdnRefresh := by
  unfold neighbourHeard
  rw [hr]
  unfold refusesNum at hr
  unfold State.hello
  simp only [h, hr, Bool.not_true, Bool.not_false, Bool.and_true, Bool.false_eq_true, if_false]

/-- Neither a HELLO recorded nor a number refused changes the number of this device. -/
theorem devNum_refusing (hp : p < 65536) : (refusing (neighbourHeard s p num dist port flags sub tree claims) p).devNum = s.devNum := by
  unfold State.devNum refusing neighbourHeard
  rw [fld_setFld_clear _ (by decide) hp (by decide), fld_setFld_clear _ (by decide) hp (by decide), fld_setRegN_ne _ (by decide) hp (by decide)]
  rfl

/-- A number refused is reported to its holder, unless that is this device or the port refused it before. -/
theorem hello_refused (h : s.gdnUp p = true) (hr : refusesNum s p num = true) (hp : p < 65536) :
    s.hello p num dist port flags sub tree claims =
    (if num = s.devNum || s.flag F.GDN_STAT_DISCONLY p then refusing (neighbourHeard s p num dist port flags sub tree claims) p
      else (refusing (neighbourHeard s p num dist port flags sub tree claims) p).gdnSend 0x54 num 0 (leBytes 1 num)).gdnRefresh := by
  rw [← devNum_refusing (s := s) (num := num) (dist := dist) (port := port) (flags := flags) (sub := sub) (tree := tree) (claims := claims) hp]
  unfold neighbourHeard refusing
  rw [hr]
  unfold refusesNum at hr
  unfold State.hello
  simp only [h, hr, Bool.not_true, Bool.and_false, Bool.false_eq_true, if_false, if_true]

end
end

/-! Numbers and WAKE (R495, R496). -/

section
variable {p src hops uid num : Nat}

theorem numPasses_iff : s.numPasses p = true ↔ s.gdnUp p = true ∧ (s.flag F.GDN_STAT_DISCONLY p = true ∨ s.gdnRole p ≠ 3) := by
  simp [State.numPasses]

theorem numSet_refused (h : s.numPasses p = false) : s.numSet p src hops uid num = s := by
  simp [State.numSet, h]

theorem numSet_own (h : s.numPasses p = true) (hu : uid = Config.deviceUid) : s.numSet p src hops uid num = (received s p).takeNum num := by
  unfold State.numSet
  rw [h]
  exact if_pos hu

theorem numSet_last (h : s.numPasses p = true) (hu : uid ≠ Config.deviceUid) (hh : 64 ≤ hops + 1) :
    s.numSet p src hops uid num = (received s p).gdnDiscard p := by
  unfold State.numSet
  rw [h]
  exact (if_neg hu).trans (if_pos hh)

theorem numSet_on (h : s.numPasses p = true) (hu : uid ≠ Config.deviceUid) (hh : hops + 1 < 64) :
    s.numSet p src hops uid num = (received s p).numFlood (some p) uid num src (hops + 1) := by
  unfold State.numSet
  rw [h]
  exact (if_neg hu).trans (if_neg (by omega))

end

/-- The neighbour that a WAKE names, asleep behind a port that is not UP (R496). -/
def sleeper (s : State) (p dst : Nat) : Option Nat :=
  (List.range 4).find? (fun q => q != p && !s.gdnUp q && s.flag F.GDN_CTL_EN q && (s.gport q).heard && s.fld F.GDN_NBR_NUM q == dst)

section
variable {p dst src hops : Nat}

theorem wakeFrame_wakes {q : Nat} (h : s.gdnPasses p = true) (hd : dst ≠ s.devNum) (hq : sleeper (received s p) p dst = some q) :
    s.wakeFrame p dst src hops = (received s p).modGport q (fun x => { x with burst := some (s.now + 25000) }) := by
  unfold sleeper received at hq
  unfold State.wakeFrame
  simp only [h, beq_eq_false_iff_ne.mpr hd, hq]
  rfl

theorem wakeFrame_on (h : s.gdnPasses p = true) (hd : dst ≠ s.devNum) (hq : sleeper (received s p) p dst = none) :
    s.wakeFrame p dst src hops = (received s p).gdnForward p 0x41 dst src hops 0 [] := by
  unfold sleeper received at hq
  unfold State.wakeFrame
  simp only [h, beq_eq_false_iff_ne.mpr hd, hq]
  rfl

end

/-! Exchanges (R30 to R32, R497). -/

theorem syncMissed_none (h : s.sync.cur = none) : s.syncMissed = s := by
  unfold State.syncMissed
  rw [h]

/-- An exchange given up as missed, at its end. -/
def missed (s : State) (t1 : Nat) : State :=
  let w := (s.reach (t1 / 128 + 2500)).bump F.QTZ_MISSCNT_COUNT F.QTZ_MISSCNT_SAT 0
  { w with sync := { w.sync with cur := none, missed := w.sync.missed + 1, good := 0 } }

theorem quiet_missed (h : s.Quiet) (t1 : Nat) : (missed s t1).Quiet := quiet_sync (quiet_bump (quiet_reach h _) ..) _

/-- The fourth exchange missed in a row loses LOCK (R32). -/
theorem syncMissed_some {n t1 : Nat} (h : s.sync.cur = some (n, t1)) : s.syncMissed =
    if (missed s t1).sync.missed = 4 then ((missed s t1).setLock false).qtzState 3 else missed s t1 := by
  unfold State.syncMissed
  rw [h]
  rfl

theorem quiet_syncMissed (h : s.Quiet) : s.syncMissed.Quiet := by
  cases hc : s.sync.cur with
  | none => rwa [syncMissed_none hc]
  | some x =>
    rw [syncMissed_some hc]
    split
    · exact quiet_qtzState (quiet_setLock (quiet_missed h _) _) _
    · exact quiet_missed h _

theorem syncExchange_none (h : s.alive 2 = false ∨ s.gdnUpstream = none) (lag : Nat) : s.syncExchange lag = s := by
  unfold State.syncExchange
  rcases h with h | h
  · rw [h]; rfl
  · simp only [h, ite_self]

/-- An exchange begun by the state v, its SYNCREQ sent upstream (R497). -/
def exchangeBegun (v : State) (p lag : Nat) : State :=
  { v.gdnOut p (gdnFrame 0x30 0xFF v.devNum 0 0 (leBytes 2 v.sync.next)) with
    sync := { v.sync with cur := some (v.sync.next, v.now * 128 + lag), next := (v.sync.next + 1) % 65536 } }

theorem quiet_exchangeBegun (h : s.Quiet) (p lag : Nat) : (exchangeBegun s p lag).Quiet := quiet_of_eq h rfl rfl

theorem syncExchange_some {p : Nat} (hu : s.gdnUpstream = some p) (h2 : s.alive 2 = true) (lag : Nat) : s.syncExchange lag =
    exchangeBegun (s.syncMissed.reach ((s.syncMissed.now + 9999) / 10000 * 10000)) p lag := by
  unfold State.syncExchange
  simp only [h2, hu]
  rfl

/-- A port that has received the frame of an exchange whose time stamp is a (R497). -/
def stamped (s : State) (p a : Nat) : State := (s.reach (a / 128)).modGport p (fun x => { x with rx := max s.now (a / 128) })

theorem quiet_stamped (h : s.Quiet) (p a : Nat) : (stamped s p a).Quiet := h

/-- A time stamp is not passed whether Quartz reaches it or stands. -/
theorem max_reach_now (s : State) (u : Nat) : max (s.reach u).now u = max s.now u := by
  unfold State.reach
  cases s.engClock
  · rfl
  · simp

theorem stamped_eq (s : State) (p a : Nat) :
    (s.reach (a / 128)).modGport p (fun x => { x with rx := max (s.reach (a / 128)).now (a / 128) }) = stamped s p a := by
  rw [max_reach_now]
  rfl

/-- The payload of a SYNCRESP to exchange num received at a and left at b (R497). -/
def responsePayload (s : State) (num a b : Nat) : List Byte :=
  leBytes 2 num ++ leBytes 8 (a / 128) ++ leBytes 1 (a % 128) ++ leBytes 8 (b / 128) ++ leBytes 1 (b % 128) ++
    leBytes 4 (if s.isRoot then 0 else s.regN .QTZ_OFFSET 0) ++ leBytes 1 (b2n (s.isRoot || s.flag F.QTZ_STATUS_LOCK 0))

theorem syncReq_answered {p : Nat} (hu : s.gdnUp p = true) (h2 : s.alive 2 = true) (num a turn : Nat) : s.syncReq p num a turn =
    (stamped s p a).gdnOut p (gdnFrame 0x31 0xFF s.devNum 0 0 (responsePayload s num a (a + min turn 160000))) := by
  unfold State.syncReq
  rw [hu, h2]
  rfl

section
variable {p num t1 t2 t3 t4 : Nat} {roff : BitVec 32} {rlock : Bool}

/-- A SYNCRESP answers the exchange under way, in time or too late. -/
theorem syncResp_answers (hu : s.gdnUp p = true) (h2 : s.alive 2 = true) (hc : (stamped s p t4).sync.cur = some (num, t1))
    (hp : (stamped s p t4).gdnUpstream = some p) : s.syncResp p num t2 t3 t4 roff rlock =
    if t1 + 320000 < t4 then (stamped s p t4).syncMissed
    else (({ stamped s p t4 with sync := { (stamped s p t4).sync with cur := none, missed := 0 } } : State).setRegN .QTZ_OFFSET 0
      (wrapTo 32 (clampI (-0x7FFFFFFF) 0x7FFFFFFF ((((t1 : Int) - t2) + ((t4 : Int) - t3)).tdiv 2 + roff.toInt)))).syncJudge
      ((((t1 : Int) - t2) + ((t4 : Int) - t3)).tdiv 2 + roff.toInt) rlock := by
  have hmodel : (s.reach (t4 / 128)).modGport p (fun x => { x with rx := max s.now (t4 / 128) }) = stamped s p t4 := rfl
  unfold State.syncResp
  simp only [hu, h2, Bool.not_true, Bool.or_self, Bool.false_eq_true, if_false, hmodel]
  generalize stamped s p t4 = u at hc hp ⊢
  have hno : ¬(num ≠ num ∨ u.gdnUpstream ≠ some p) := by simp [hp]
  simp only [hc, if_neg hno]

end

/-! Offsets judged (R30, R32). -/

/-- An offset has been judged. -/
def judged (s : State) : State := { s with sync := { s.sync with judged := true } }

/-- How many exchanges have been good in a row. -/
def goodRun (s : State) (g : Nat) : State := { s with sync := { s.sync with good := g } }

theorem quiet_judged (h : s.Quiet) : (judged s).Quiet := quiet_sync h _
theorem quiet_goodRun (h : s.Quiet) (g : Nat) : (goodRun s g).Quiet := quiet_sync h _

theorem goodRun_of_sync {x : Sync} (h : s.sync = x) (g : Nat) : goodRun s g = { s with sync := { x with good := g } } := by
  subst h
  rfl

@[simp] theorem setLock_sync (s : State) (v : Bool) : (s.setLock v).sync = s.sync := by
  unfold State.setLock
  dsimp only
  split <;> rfl

/-- Quartz that had lost the exchanges follows again (R32). -/
def regained (s : State) : State := if s.fld F.QTZ_STATUS_STATE 0 = 3 then s.qtzState 1 else s

/-- LOCK given up where an offset is too large for it (R32). -/
def lockKept (s : State) (a : Nat) : State :=
  if s.flag F.QTZ_STATUS_LOCK 0 && decide (40 < a) then (s.setLock false).qtzState 1 else s

/-- An exchange counted as good or bad by its offset and the neighbour's LOCK (R32). -/
def weighed (s : State) (a : Nat) (rlock : Bool) : State :=
  if !rlock || decide (32 < a) then goodRun s 0
  else if s.sync.good + 1 = 16 then ((goodRun s (s.sync.good + 1)).setLock true).qtzState 2 else goodRun s (s.sync.good + 1)

/-- Whether the first offset is one that Quartz steps by (R30). -/
def stepsBy (s : State) (off : Int) : Bool :=
  !s.sync.judged && (regained (judged s)).fld F.QTZ_STATUS_STATE 0 == 1 && !(regained (judged s)).inRun &&
    (regained (judged s)).flag F.QTZ_CTL_STEPEN 0 && decide (160000 < off.natAbs)

/-- Quartz stepped by an offset, in whole ticks (R30). -/
def stepped (s : State) (off : Int) : State :=
  { (s.stepQuartz (-(off.tdiv 128))).setFld F.QTZ_STATUS_STEPPED 0 1 with sync := { s.sync with good := 0 } }

theorem quiet_stepped (h : s.Quiet) (off : Int) : (stepped s off).Quiet := quiet_sync (quiet_setFld (quiet_stepQuartz h _) ..) _

/-- An offset steps Quartz, or is weighed. -/
theorem syncJudge_eq (s : State) (off : Int) (rlock : Bool) : s.syncJudge off rlock =
    if stepsBy s off then stepped (regained (judged s)) off
    else weighed (lockKept (regained (judged s)).qtzTrim off.natAbs) off.natAbs rlock := by
  unfold State.syncJudge stepsBy weighed lockKept regained judged goodRun stepped
  rfl

theorem quiet_regained (h : s.Quiet) : (regained s).Quiet := by
  unfold regained
  split <;> exact h

theorem quiet_lockKept (h : s.Quiet) (a : Nat) : (lockKept s a).Quiet := by
  unfold lockKept
  split
  · exact quiet_qtzState (quiet_setLock h _) _
  · exact h

theorem quiet_weighed (h : s.Quiet) (a : Nat) (rlock : Bool) : (weighed s a rlock).Quiet := by
  unfold weighed
  split
  · exact quiet_goodRun h _
  · split
    · exact quiet_qtzState (quiet_setLock (quiet_goodRun h _) _) _
    · exact quiet_goodRun h _

theorem quiet_syncJudge (h : s.Quiet) (off : Int) (rlock : Bool) : (s.syncJudge off rlock).Quiet := by
  have hr : (regained (judged s)).Quiet := quiet_regained (quiet_judged h)
  rw [syncJudge_eq]
  split
  · exact quiet_stepped hr off
  · exact quiet_weighed (quiet_lockKept (quiet_qtzTrim hr) _) _ _

section
variable {off : Int} {rlock : Bool} (h3 : s.fld F.QTZ_STATUS_STATE 0 ≠ 3)
include h3

theorem regained_judged : regained (judged s) = judged s := if_neg h3

theorem syncJudge_steps (hj : s.sync.judged = false) (h1 : s.fld F.QTZ_STATUS_STATE 0 = 1) (hr : s.inRun = false)
    (he : s.flag F.QTZ_CTL_STEPEN 0 = true) (ho : 160000 < off.natAbs) : s.syncJudge off rlock = stepped (judged s) off := by
  have hs : stepsBy s off = true := by
    have h1' : (judged s).fld F.QTZ_STATUS_STATE 0 = 1 := h1
    have hr' : (judged s).inRun = false := hr
    have he' : (judged s).flag F.QTZ_CTL_STEPEN 0 = true := he
    unfold stepsBy
    rw [regained_judged h3]
    simp [hj, h1', hr', he', ho]
  rw [syncJudge_eq, if_pos hs, regained_judged h3]

/-- Every offset after the first one is weighed, where no discipline trims Quartz. -/
theorem syncJudge_weighs (hd : s.flag F.QTZ_CTL_DISC 0 = false) (hj : s.sync.judged = true) :
    s.syncJudge off rlock = weighed (lockKept (judged s) off.natAbs) off.natAbs rlock := by
  have hs : ¬stepsBy s off = true := by simp [stepsBy, hj]
  have htrim : (judged s).qtzTrim = judged s := by
    have hd' : (judged s).flag F.QTZ_CTL_DISC 0 = false := hd
    simp [State.qtzTrim, hd']
  rw [syncJudge_eq, if_neg hs, regained_judged h3, htrim]

end

section
variable {a : Nat} {rlock : Bool}

theorem lockKept_large (hl : s.flag F.QTZ_STATUS_LOCK 0 = true) (ha : 40 < a) : lockKept s a = (s.setLock false).qtzState 1 := by
  simp [lockKept, hl, ha]

theorem lockKept_small (h : a ≤ 40 ∨ s.flag F.QTZ_STATUS_LOCK 0 = false) : lockKept s a = s := by
  unfold lockKept
  rcases h with h | h
  · rw [decide_eq_false (by omega), Bool.and_false]; rfl
  · rw [h]; rfl

theorem weighed_bad (ha : 32 < a) : weighed s a rlock = goodRun s 0 := by
  simp [weighed, ha]

theorem weighed_good (hr : rlock = true) (ha : a ≤ 32) : weighed s a rlock =
    if s.sync.good + 1 = 16 then ((goodRun s (s.sync.good + 1)).setLock true).qtzState 2 else goodRun s (s.sync.good + 1) := by
  unfold weighed
  rw [hr, decide_eq_false (by omega)]
  rfl

end

/-! Each command of the ports and of rack time is its operation on the state, with what every command ends with. -/

section
variable (s : State) (p : Fin 4) (dst hops st : BitVec 8) (src num6 : BitVec 6) (tag vec num : BitVec 16) (off : BitVec 40) (n : Fin 257)
  (data : BitVec 2048)

theorem exec_rdreq : exec (.rdreq p dst src hops tag off n) s = (s.gdnTake p.val 0x10 dst.toNat src.toNat hops.toNat tag.toNat
    (leBytes 5 off.toNat ++ leBytes 2 n.val) (fun s => s.readReq src.toNat tag.toNat off.toNat n.val)).ends := rfl
theorem exec_rdcpl : exec (.rdcpl p dst src hops tag st n data) s = (s.gdnTake p.val 0x11 dst.toNat src.toNat hops.toNat tag.toNat
    (st :: leBytes n.val data.toNat) (fun s => s.readCpl src.toNat tag.toNat st.toNat (leBytes n.val data.toNat))).ends := rfl
theorem exec_wr : exec (.wr p dst src hops tag off n data) s = (s.gdnTake p.val 0x12 dst.toNat src.toNat hops.toNat tag.toNat
    (leBytes 5 off.toNat ++ leBytes n.val data.toNat) (fun s => s.remoteWrite src.toNat off.toNat (leBytes n.val data.toNat))).ends := rfl
theorem exec_irq : exec (.irq p dst src hops tag vec) s = (s.gdnTake p.val 0x21 dst.toNat src.toNat hops.toNat tag.toNat
    (leBytes 2 vec.toNat) (fun s => s.passIrq p.val src.toNat hops.toNat vec.toNat)).ends := rfl
theorem exec_reset : exec (.reset p dst src hops tag) s = (s.gdnTake p.val 0x40 dst.toNat src.toNat hops.toNat tag.toNat []
    (fun s => s.remoteReset)).ends := rfl
theorem exec_conflict : exec (.conflict p dst src hops tag num6) s = (s.gdnTake p.val 0x54 dst.toNat src.toNat hops.toNat tag.toNat
    (leBytes 1 num6.toNat) (fun s => s.conflict p.val num6.toNat)).ends := rfl

theorem exec_gedanFrameDiscard : exec (.gedanFrameDiscard p) s = (s.gdnDiscard p.val).ends := rfl
theorem exec_helloSend : exec (.helloSend p) s = (s.helloSend p.val).ends := rfl
theorem exec_portTimeout : exec (.portTimeout p) s = (s.gdnTimeout p.val).ends := rfl
theorem exec_hello (dist port flags : BitVec 8) (sub tree : BitVec 64) (claims : Bool) :
    exec (.hello p num6 dist port flags sub tree claims) s =
      (s.hello p.val num6.toNat dist.toNat port.toNat flags.toNat sub.toNat tree.toNat claims).ends := rfl
theorem exec_laneFailure (lane : Bool) : exec (.laneFailure p lane) s = (s.gdnLaneFail p.val lane).ends := rfl
theorem exec_gedanPortUp : exec (.gedanPortUp p) s = (s.gdnPortUp p.val).ends := rfl
theorem exec_numset (uid : BitVec 64) :
    exec (.numset p src hops uid num6) s = (s.numSet p.val src.toNat hops.toNat uid.toNat num6.toNat).ends := rfl
theorem exec_wake : exec (.wake p dst src hops) s = (s.wakeFrame p.val dst.toNat src.toNat hops.toNat).ends := rfl
theorem exec_syncExchange (lag : BitVec 16) : exec (.syncExchange lag) s = (s.syncExchange lag.toNat).ends := rfl
theorem exec_exchangeMissed : exec .exchangeMissed s = s.syncMissed.ends := rfl
theorem exec_syncreq (t2 : BitVec 71) (turn : Nat) : exec (.syncreq p num t2 turn) s = (s.syncReq p.val num.toNat t2.toNat turn).ends := rfl
theorem exec_syncresp (t2 t3 t4 : BitVec 71) (roff : BitVec 32) (rlock : Bool) : exec (.syncresp p num t2 t3 t4 roff rlock) s =
    (s.syncResp p.val num.toNat t2.toNat t3.toNat t4.toNat roff rlock).ends := rfl

end

end Sys2Proof.Laws
end

section
/-! PROOF. Gedan frames, discovery, ports and rack time (R29 to R32, R490 to R497, R503). -/

namespace Sys2Proof.Proofs
open Sys2Proof.Machine Sys2Proof.Laws

/-- Settles O56: every command of the Gedan ports and of rack time comes to the state that its clause gives. -/
theorem gedanAndRackTime : Obligations.GedanAndRackTime := by
  intro s hq
  refine ⟨?frame, ?own, ?pass, ?refused, ?forward, ?port, ?hello, ?upstream, ?refresh, ?lanes, ?numset, ?wake, ?exchange, ?request,
    ?response, ?judge⟩
  case frame =>
    intro type dst src hops tag pl l
    exact ⟨rfl, by decide +kernel⟩
  case own =>
    intro p dst hops src tag off n data vec num st l u me own on pass takes htakes hme
    have hp := gdnPasses_iff.mpr htakes
    simp only [own, List.forall_mem_cons, List.not_mem_nil, false_imp_iff, implies_true, and_true]
    rw [exec_rdreq, exec_rdcpl, exec_wr, exec_irq, exec_reset, exec_conflict]
    refine ⟨?_, ?_, ?_, ?_, ?_, ?_⟩ <;> exact congrArg State.ends (gdnTake_own hp hme)
  case pass =>
    intro p dst hops src tag off n data vec num st l u me own on pass takes htakes hme
    have hp := gdnPasses_iff.mpr htakes
    have hon (t : Nat) (pl : List Byte) : (on t pl).Quiet := quiet_gdnForward (quiet_received hq p.val) ..
    simp only [pass, List.forall_mem_cons, List.not_mem_nil, false_imp_iff, implies_true, and_true]
    rw [exec_rdreq, exec_rdcpl, exec_wr, exec_irq, exec_reset, exec_conflict]
    refine ⟨?_, ?_, ?_, ?_, ?_, ?_⟩ <;> exact ends_of_eq (gdnTake_other hp hme) (hon ..)
  case refused =>
    intro p dst hops src tag off n data vec num st l u me own on pass takes htakes
    have hp : s.gdnPasses p.val = false := Bool.eq_false_iff.mpr fun h => htakes (gdnPasses_iff.mp h)
    simp only [own, List.forall_mem_cons, List.not_mem_nil, false_imp_iff, implies_true, and_true]
    rw [exec_rdreq, exec_rdcpl, exec_wr, exec_irq, exec_reset, exec_conflict]
    refine ⟨?_, ?_, ?_, ?_, ?_, ?_⟩ <;> exact ends_of_eq (gdnTake_refused hp) hq
  case forward =>
    intro p type dst src hops tag pl go f
    exact ⟨gdnForward_last, fun q hto hh => gdnForward_leaves hh hto, gdnForward_nowhere⟩
  case port =>
    intro p hp f
    rw [exec_gedanFrameDiscard, exec_helloSend, exec_portTimeout]
    refine ⟨fun h => ?_, fun h => ?_⟩
    · exact ⟨ends_of_eq (gdnDiscard_down h) hq, ends_of_eq (helloSend_down h) hq, ends_of_eq (gdnTimeout_down h) hq⟩
    · exact ⟨ends_of_eq (gdnDiscard_up h) (quiet_bump hq ..), ends_of_eq (gdnTimeout_up h) (quiet_gdnLost (quiet_reach hq _) _),
        ends_of_eq (helloSend_up h) (quiet_modGport hq ..)⟩
  case hello =>
    intro p num dist port flags sub tree claims i taken u v w
    have htaken : refusesNum s i num.toNat = decide taken := Bool.eq_iff_iff.mpr (by simp [refusesNum, taken, and_assoc])
    have hu : neighbourHeard s i num.toNat dist.toNat port.toNat flags.toNat sub.toNat tree.toNat claims = u := by
      simp only [neighbourHeard, htaken, decide_eq_true_eq, u]
    have huq : u.Quiet := hu ▸ quiet_neighbourHeard hq
    clear_value u
    rw [exec_hello]
    refine ⟨fun h => ?_, fun h ht => ?_, fun h ht hn => ?_, fun h ht hn hd => ?_⟩
    · exact ends_of_eq (hello_down h) hq
    · have hwq : w.Quiet := quiet_setFld huq ..
      have hw : (if bit 2 flags.toNat then w.setFld F.GDN_STAT_CONFLICT i 1 else w).Quiet := by
        split
        · exact quiet_setFld hwq ..
        · exact hwq
      refine ends_of_eq ((hello_free h (htaken.trans (decide_eq_false ht))).trans ?_) (quiet_gdnRefresh hw)
      rw [hu]
    · refine ends_of_eq ((hello_refused h (htaken.trans (decide_eq_true ht)) (by omega)).trans ?_) (quiet_gdnRefresh (quiet_refusing huq i))
      rw [hu, if_pos (by rcases hn with h | h <;> simp [h])]
      rfl
    · refine ends_of_eq ((hello_refused h (htaken.trans (decide_eq_true ht)) (by omega)).trans ?_)
        (quiet_gdnRefresh (quiet_gdnSend (quiet_refusing huq i) ..))
      rw [hu, if_neg (by simp [hn, hd])]
      rfl
  case upstream =>
    intro p q hp hheard hdist
    obtain ⟨⟨-, hheard', hdist'⟩, hmin⟩ := upstream_nearest hp
    obtain ⟨hle, htie⟩ := hmin q.val (mem_rootward.mpr ⟨q.isLt, hheard, hdist⟩)
    exact ⟨isRoot_of_upstream hp, hheard', hdist', hle, htie, gdnDist_upstream hp, gdnRole_upstream hp, gdnTree_upstream hp⟩
  case refresh =>
    intro t h
    exact ⟨gdnRefresh_root h, gdnRefresh_role h, gdnRefresh_tree h, fun h2 hr => gdnRefresh_quartz_root h h2 hr,
      fun h2 hr hu => gdnRefresh_quartz_alone h h2 hr hu, fun p hu h2 => gdnRefresh_quartz_upstream h h2 hu⟩
  case lanes =>
    intro p lane i u w
    have hu : u.Quiet := quiet_bump hq ..
    have hw : w.Quiet := quiet_setFld (quiet_setFld (quiet_setFld (quiet_gdnForget hq i) ..) ..) ..
    have hfail (h : s.gdnUp i = true) := gdnLaneFail_up h (show i < 65536 by omega) lane
    rw [exec_laneFailure, exec_gedanPortUp]
    refine ⟨fun h => ?_, fun h hl => ?_, fun h hl hs => ?_, fun h => ?_, fun ha he h => ?_, rfl⟩
    · exact ends_of_eq (gdnLaneFail_down h _) hq
    · refine ends_of_eq ((hfail h).trans (if_pos ?_)) (quiet_gdnLost hu _)
      rcases hl with h | h <;> simp [h]
    · exact ends_of_eq ((hfail h).trans (if_neg (by simp [hl, hs]))) (quiet_refreshDegr (quiet_setFld (quiet_modGport hu ..) ..))
    · exact ends_of_eq (gdnPortUp_stays h) hq
    · exact ends_of_eq (gdnPortUp_trained ha he h) (quiet_refreshDegr (quiet_gdnRefresh (quiet_modGport hw ..)))
  case numset =>
    intro p src num hops uid u passes
    have hu : u.Quiet := quiet_received hq p.val
    rw [exec_numset]
    refine ⟨fun h => ?_, fun h hown => ?_, fun h hno hh => ?_, fun h hno hh => ?_⟩
    · exact ends_of_eq (numSet_refused (Bool.eq_false_iff.mpr fun hn => h (numPasses_iff.mp hn))) hq
    · exact ends_of_eq (numSet_own (numPasses_iff.mpr h) hown) (quiet_gdnRefresh (quiet_setFld (quiet_setFld hu ..) ..))
    · exact ends_of_eq (numSet_last (numPasses_iff.mpr h) hno (by omega)) (quiet_gdnDiscard hu _)
    · exact ends_of_eq (numSet_on (numPasses_iff.mpr h) hno (by omega)) (quiet_numFlood hu ..)
  case wake =>
    intro p dst hops src u hup hd hr hne
    have hp := gdnPasses_iff.mpr ⟨hup, hd, hr⟩
    have hu : u.Quiet := quiet_received hq p.val
    rw [exec_wake]
    exact ⟨fun q hs => ends_of_eq (wakeFrame_wakes hp hne hs) (quiet_modGport hu ..),
      fun hs => ends_of_eq (wakeFrame_on hp hne hs) (quiet_gdnForward hu ..)⟩
  case exchange =>
    intro lag u v f
    have hv : v.Quiet := quiet_reach (quiet_syncMissed hq) _
    rw [exec_syncExchange, exec_exchangeMissed]
    refine ⟨fun h => ?_, fun p hp h2 => ?_, fun h => ?_, fun n t1 h => ⟨fun hm => ?_, fun hm => ?_⟩⟩
    · exact ends_of_eq (syncExchange_none h _) hq
    · exact ends_of_eq (syncExchange_some hp h2 _) (quiet_exchangeBegun hv ..)
    · exact ends_of_eq (syncMissed_none h) hq
    · exact ends_of_eq ((syncMissed_some h).trans (if_neg hm)) (quiet_missed hq _)
    · exact ends_of_eq ((syncMissed_some h).trans (if_pos hm)) (quiet_qtzState (quiet_setLock (quiet_missed hq _) _) _)
  case request =>
    intro p num t2 turn a u t3 r pl f hup h2
    have hu : u = stamped s p.val a := stamped_eq ..
    rw [exec_syncreq, hu]
    exact ends_of_eq (syncReq_answered hup h2 ..) (quiet_modGport (quiet_stamped hq ..) ..)
  case response =>
    intro p num t2 t3 t4 roff rlock t1 u off v w hup h2 hc hp
    have hu : u = stamped s p.val t4.toNat := stamped_eq ..
    have huq : u.Quiet := hu ▸ quiet_stamped hq ..
    have hwq : w.Quiet := quiet_setRegN (quiet_sync huq _) ..
    have hanswer : s.syncResp p.val num.toNat t2.toNat t3.toNat t4.toNat roff rlock =
        if t1 + 320000 < t4.toNat then u.syncMissed else w.syncJudge off rlock := by
      rw [syncResp_answers hup h2 (hu ▸ hc) (hu ▸ hp), ← hu]
    rw [exec_syncresp]
    exact ⟨fun h => ends_of_eq (hanswer.trans (if_pos h)) (quiet_syncMissed huq),
      fun h => ends_of_eq (hanswer.trans (if_neg (by omega))) (quiet_syncJudge hwq ..)⟩
  case judge =>
    intro off rlock j g h3 hd
    refine ⟨syncJudge_steps h3, fun hj hl ha => ?_, fun hj ha hl => ?_, fun hj hr ha hg => ?_, fun hj hr ha hg => ?_⟩ <;>
      rw [syncJudge_weighs h3 hd hj]
    · rw [lockKept_large (s := judged s) hl ha, weighed_bad (by omega)]
      exact goodRun_of_sync (s := ((judged s).setLock false).qtzState 1) (setLock_sync (judged s) false) 0
    · rw [lockKept_small (s := judged s) hl, weighed_bad ha]
      rfl
    · rw [lockKept_small (.inl (by omega)), weighed_good hr ha]
      exact if_neg hg
    · rw [lockKept_small (.inl (by omega)), weighed_good hr ha]
      exact if_pos hg

end Sys2Proof.Proofs
end

section
/-! SUPPORT. Instructions of a lane engine: what one that goes on leaves (R56), how a command of the lane profile is run (R59), and which
register an instruction of R60 to R63 writes. -/

namespace Sys2Proof.Laws
open Sys2Proof.Machine

variable {s t : State}

/-! What the operations of a lane instruction leave of the state. -/

/-- A ready instruction that writes a w register and goes on. -/
theorem laneRun_sets {e cnt : Nat} (h : s.LaneReady e cnt) (f : State → LRes) {rd : BitVec 5} {v : Word}
    (hf : f (s.laneAt e cnt) = .seq ((s.laneAt e cnt).setW e rd v)) :
    (s.laneRun e cnt f).ends = s.laneDone e cnt ((s.laneAt e cnt).setW e rd v) :=
  laneRun_seq h f hf (quiet_of_eq h.quiet rfl rfl)

/-- The engine after an instruction's count is spent. -/
theorem engine_laneAdvance (s : State) (e cnt pc : Nat) : (s.laneAdvance e cnt pc).engine e =
    { s.engine e with used := (s.engine e).used + cnt, pc := pc, old := ageOld (s.engine e).old } :=
  engine_setEng ..

theorem engine_laneAdvance_ne (s : State) {e e' : Nat} (cnt pc : Nat) (h : e' ≠ e) :
    (s.laneAdvance e cnt pc).engine e' = s.engine e' :=
  engine_setEng_ne _ _ h

@[simp] theorem w_laneAdvance (s : State) (e cnt pc : Nat) (r : BitVec 5) : (s.laneAdvance e cnt pc).w e r = s.w e r := by
  simp only [State.w, Eng.getW, engine_laneAdvance]

@[simp] theorem acc_laneAdvance (s : State) (e cnt pc : Nat) (n : BitVec 2) : (s.laneAdvance e cnt pc).acc e n = s.acc e n := by
  simp only [State.acc, Eng.getAcc, engine_laneAdvance]

@[simp] theorem acc_setAcc (s : State) (e : Nat) (n : BitVec 2) (v : Dword) : (s.setAcc e n v).acc e n = v := by
  simp [State.setAcc, State.acc, Eng.putAcc, Eng.getAcc]

theorem acc_setAcc_ne (s : State) (e : Nat) {n n' : BitVec 2} (v : Dword) (h : n' ≠ n) : (s.setAcc e n v).acc e n' = s.acc e n' := by
  simp only [State.setAcc, State.acc, engine_setEng, Eng.putAcc, Eng.getAcc]
  exact Tab_look_put_ne _ _ _ (fun hn => h (BitVec.eq_of_toNat_eq hn))

@[simp] theorem w_setAcc (s : State) (e : Nat) (n : BitVec 2) (v : Dword) (r : BitVec 5) : (s.setAcc e n v).w e r = s.w e r := by
  simp [State.setAcc, State.w, Eng.putAcc, Eng.getW]

@[simp] theorem acc_setW (s : State) (e : Nat) (r : BitVec 5) (v : Word) (n : BitVec 2) : (s.setW e r v).acc e n = s.acc e n := by
  simp [State.setW, State.acc, Eng.putW, Eng.getAcc]

/-! How a command of the lane profile is run. -/

/-- A command whose instruction may be the body of REP is run with its count (R59): by its body's meaning, but for a load or
store of 64 bits, which no lane engine has; a Lode instruction after what its budget cuts off (R101). -/
theorem exec_body {i : Instr} {e : Fin 512} {cnt : Nat} {f : State → LRes} (hc : i.core = some (.lane e))
    (hb : laneBodyOf e.val i = some (cnt, f)) :
    (∃ f', (laneDest i ≠ none → f' = f) ∧ lodeOp i = none ∧ ∀ s, exec i s = (s.laneRun e.val cnt f').ends) ∨
      ∃ x, laneDest i = none ∧ lodeOp i = some x ∧ x.count = cnt ∧ ∀ s, exec i s = ((s.lodeCut e.val x).laneRun e.val cnt f).ends := by
  cases i
  case ldw | stw => cases hc; cases hb; exact .inl ⟨_, fun h => absurd rfl h, rfl, fun _ => rfl⟩
  case look | interp2 | interp3 | walk => cases hc; cases hb; exact .inr ⟨_, rfl, rfl, rfl, fun _ => rfl⟩
  all_goals cases hb
  all_goals
    cases hc
    exact .inl ⟨_, fun _ => rfl, rfl, fun _ => rfl⟩

/-! What an instruction of R60 to R63 writes. -/

/-- t is s with a destination written, and nothing else. -/
inductive Writes (s : State) (e : Nat) : LaneDest → State → Prop where
  | w (rd : BitVec 5) (v : Word) : Writes s e (.w rd) (s.setW e rd v)
  | acc (n : BitVec 2) (v : Dword) : Writes s e (.acc n) (s.setAcc e n v)
  | nothing : Writes s e .nothing s

/-- An instruction of a destination goes on with that destination written. -/
theorem body_writes {i : Instr} {e : Nat} {d : LaneDest} {cnt : Nat} {f : State → LRes}
    (hd : laneDest i = some d) (hb : laneBodyOf e i = some (cnt, f)) (s : State) :
    ∃ t, f s = .seq t ∧ Writes s e d t := by
  cases i
  all_goals cases hd
  all_goals
    cases hb
    exact ⟨_, rfl, by constructor⟩

section Written
variable {e : Nat} {d : LaneDest} (h : Writes s e d t)
include h

/-- A destination written changes the engines alone. -/
theorem Writes.engines : ∃ eng, t = { s with eng := eng } := by
  cases h with
  | w rd v => exact ⟨_, rfl⟩
  | acc n v => exact ⟨_, rfl⟩
  | nothing => exact ⟨_, rfl⟩

/-- An engine whose destination is written keeps all but its w registers and accumulators. -/
theorem Writes.engine : ∃ w acc, t.engine e = { s.engine e with w := w, acc := acc } := by
  cases h with
  | w rd v => exact ⟨_, _, engine_setEng ..⟩
  | acc n v => exact ⟨_, _, engine_setEng ..⟩
  | nothing => exact ⟨_, _, rfl⟩

theorem Writes.engine_ne {e' : Nat} (he : e' ≠ e) : t.engine e' = s.engine e' := by
  cases h with
  | w rd v => exact engine_setEng_ne _ _ he
  | acc n v => exact engine_setEng_ne _ _ he
  | nothing => rfl

theorem Writes.w_ne {r : BitVec 5} (hr : d ≠ .w r) : t.w e r = s.w e r := by
  cases h with
  | w rd v => exact w_setW_ne _ _ _ (fun x => hr (x ▸ rfl))
  | acc n v => exact w_setAcc ..
  | nothing => rfl

theorem Writes.acc_ne {n : BitVec 2} (hn : d ≠ .acc n) : t.acc e n = s.acc e n := by
  cases h with
  | w rd v => exact acc_setW ..
  | acc m v => exact acc_setAcc_ne _ _ _ (fun x => hn (x ▸ rfl))
  | nothing => rfl

theorem Writes.quiet (hq : s.Quiet) : t.Quiet := by
  obtain ⟨eng, rfl⟩ := h.engines
  exact hq

end Written

end Sys2Proof.Laws
end

section
/-! PROOF. Register instructions of a lane engine: the floating-point group (R42, R59, R63), what they leave unchanged (R34, R59 to R63),
and budget stops and aborts (R55, R58, R132). -/

namespace Sys2Proof.Proofs
open Sys2Proof.Machine Sys2Proof.Laws

/-- Settles O9: each is an instruction that writes w[rd] and goes on. -/
theorem laneFloat : Obligations.LaneFloat := by
  unfold Obligations.LaneFloat
  intro s e rd ra rb rc a b c gives
  refine ⟨fun h => ?_, fun h => ?_, fun h => ?_, fun h => ?_, fun h => ?_⟩
  · exact ⟨laneRun_sets h (laneFadd e rd ra rb) rfl, laneRun_sets h (laneFsub e rd ra rb) rfl, laneRun_sets h (laneFmul e rd ra rb) rfl,
      laneRun_sets h (laneFcvtif e rd ra) rfl, laneRun_sets h (laneFcvtfi e rd ra) rfl, laneRun_sets h (laneFcvtqf e rd ra) rfl,
      laneRun_sets h (laneFcvtfq e rd ra) rfl⟩
  · exact ⟨laneRun_sets h (laneFma e rd ra rb rc) rfl, laneRun_sets h (laneFms e rd ra rb rc) rfl⟩
  · exact laneRun_sets h (laneFdiv e rd ra rb) rfl
  · exact laneRun_sets h (laneFsqrt e rd ra) rfl
  · exact ⟨laneRun_sets h (laneFmin e rd ra rb) rfl, laneRun_sets h (laneFmax e rd ra rb) rfl, laneRun_sets h (laneFabs e rd ra) rfl,
      laneRun_sets h (laneFneg e rd ra) rfl⟩

/-- Settles O22: such an instruction goes on with its destination written, in the state of its last ec, which differs in Quartz alone. -/
theorem laneRegisterFrame : Obligations.LaneRegisterFrame := by
  unfold Obligations.LaneRegisterFrame
  intro i e d cnt f s t hc hd hb _ h ht
  obtain ⟨u, hf, hu⟩ := body_writes hd hb (s.laneAt e.val cnt)
  have hrun : exec i s = s.laneDone e.val cnt u := by
    rcases exec_body hc hb with ⟨f', hsame, -, hx⟩ | ⟨x, hnone, -⟩
    · rw [hx, hsame (by simp [hd])]
      exact laneRun_seq h f hf (hu.quiet h.quiet)
    · rw [hnone] at hd
      cases hd
  obtain rfl : t = u.laneAdvance e.val cnt ((s.engine e.val).pc + 1) := by
    rw [hrun] at ht
    exact (Host.Outcome.next.inj ht).symm
  obtain ⟨eng, hrest⟩ := hu.engines
  obtain ⟨w, acc, hg⟩ := hu.engine
  refine ⟨fun r hr => (w_laneAdvance ..).trans (hu.w_ne hr), fun n hn => (acc_laneAdvance ..).trans (hu.acc_ne hn), ?_⟩
  rw [engine_laneAdvance, hg]
  refine ⟨fun k => ?_, rfl, rfl, rfl, rfl, rfl, fun e' he => (engine_laneAdvance_ne _ _ _ he).trans (hu.engine_ne he), ?_⟩
  · simp only [State.lcap, Eng.getCap, engine_laneAdvance, hg]
    rfl
  · rw [hrest]
    exact ⟨fun _ => rfl, fun _ => rfl, fun _ => rfl, fun _ _ => rfl, fun _ => rfl, fun _ => rfl, rfl, rfl, rfl, rfl⟩

end Sys2Proof.Proofs
end

section
/-! SUPPORT. Instructions of a lane engine that do not come to their effect (R55, R58), and the abort record of a square (R132). -/

namespace Sys2Proof.Laws
open Sys2Proof.Machine

/-! Budget stops, failed fetches and illegal words (R55, R58). -/

section
variable {s : State} {e cnt : Nat} (hk : s.engClock = true) (hr : (s.engine e).running = true)
  (hb : (s.engine e).used + 1 ≤ (s.engine e).budget) (f : State → LRes)
include hk hr hb

/-- A fetch that fails its check aborts. -/
theorem laneRun_unchecked (h : (s.laneNext e).1 = true) :
    s.laneRun e cnt f = (s.laneNext e).2.2.laneAbort e 7 (s.engine e).pc (s.laneFirst e) := by
  have hnot : ¬ (s.engine e).budget < (s.engine e).used + 1 := by omega
  unfold State.laneNext State.laneFirst at *
  unfold State.laneRun
  simp only [hk, hr, Bool.not_true, Bool.or_self, Bool.false_eq_true, if_false, hnot, h, if_true]

/-- A word that is no instruction aborts, unless the count of the operation that it selects passes the budget. -/
theorem laneRun_illegal (h : (s.laneNext e).1 = false) (hl : legalWord e (s.laneNext e).2.1 = false) :
    s.laneRun e cnt f = if (s.engine e).budget < (s.engine e).used + wordCount (s.laneNext e).2.1 then
        (s.laneNext e).2.2.budgetStop e (s.engine e).pc
      else (s.laneNext e).2.2.laneAbort e 1 (s.engine e).pc (s.laneFirst e) := by
  have hnot : ¬ (s.engine e).budget < (s.engine e).used + 1 := by omega
  unfold State.laneNext State.laneFirst at *
  unfold State.laneRun
  simp only [hk, hr, Bool.not_true, Bool.not_false, Bool.or_self, Bool.false_eq_true, if_false, hnot, h, hl, if_true]

/-- An instruction whose last ec passes the budget stops the task once its word is fetched. -/
theorem laneRun_late (h : (s.laneNext e).1 = false) (hl : legalWord e (s.laneNext e).2.1 = true)
    (hc : (s.engine e).budget < (s.engine e).used + cnt) : s.laneRun e cnt f = (s.laneNext e).2.2.budgetStop e (s.engine e).pc := by
  have hnot : ¬ (s.engine e).budget < (s.engine e).used + 1 := by omega
  unfold State.laneNext State.laneFirst at *
  unfold State.laneRun
  simp only [hk, hr, Bool.not_true, Bool.or_self, Bool.false_eq_true, if_false, hnot, h, hl, if_true, hc]

end

/-- A Lode instruction within its budget, or one that is not run, cuts no request off. -/
theorem lodeCut_none {s : State} {e : Nat} {x : LodeOp}
    (h : s.engClock = false ∨ (s.engine e).running = false ∨ (s.engine e).used + x.count ≤ (s.engine e).budget) : s.lodeCut e x = s := by
  unfold State.lodeCut
  refine if_neg fun hx => ?_
  simp only [Bool.and_eq_true, decide_eq_true_eq] at hx
  obtain ⟨⟨⟨⟨hk, hr⟩, hc⟩, -⟩, -⟩ := hx
  rcases h with h | h | h
  · simp [hk] at h
  · simp [hr] at h
  · omega

/-! Registers that an event counted and an abort recorded leave. -/

section
variable {s t : State}

/-- An event counted leaves every register but its counter's. -/
theorem reg_bump_ne {cnt sat : Fld} {r : Reg} {i j : Nat} (hc : r.ctorIdx ≠ cnt.reg.ctorIdx) (hs : r.ctorIdx ≠ sat.reg.ctorIdx)
    (hi : i < 65536) (hj : j < 65536) : (s.bump cnt sat i).reg r j = s.reg r j := by
  unfold State.bump
  extract_lets u
  split
  · exact reg_setReg_ne u _ (key_ne hs hj hi)
  · exact reg_setReg_ne u _ (key_ne hc hj hi)

/-- An event counted below the counter's greatest value adds one. -/
theorem fld_bump_one {cnt sat : Fld} {i : Nat} (h : s.fld cnt i < 2 ^ cnt.width - 1) (hw : 0 < cnt.width) (hf : cnt.lo + cnt.width ≤ 32) :
    (s.bump cnt sat i).fld cnt i = s.fld cnt i + 1 := by
  have hfld : (s.remark cnt sat i).fld cnt i = s.fld cnt i := rfl
  unfold State.bump
  dsimp only
  rw [hfld, if_neg (by omega), fld_setFld_same i _ hw hf, Nat.mod_eq_of_lt (by omega)]

/-- Whether a domain is alive shows in two registers. -/
theorem alive_of_regs (hd : t.reg .PMU_DOMSTAT 0 = s.reg .PMU_DOMSTAT 0) (hm : t.reg .PMU_MODE 0 = s.reg .PMU_MODE 0) (d : Nat) :
    t.alive d = s.alive d := by
  have hmode : t.mode = s.mode := by
    unfold State.mode State.fld State.regN
    rw [show F.PMU_MODE_CUR.reg = .PMU_MODE from rfl, hm]
  unfold State.alive State.regN
  rw [hd, hmode]

end

/-! The abort record (R132). -/

section
variable {s : State} {e : Nat} (cause pc tick : Nat)

/-- What an abort writes to the record of its square. -/
def abortWord (s : State) (e cause pc : Nat) : Nat :=
  cause + e % 8 * 2 ^ 8 + s.physOf e * 2 ^ 11 + 2 ^ 15 + pc % 2 ^ 12 * 2 ^ 16 + b2n ((s.engine e).role != .single) * 2 ^ 28

/-- An abort that finds the record free fills it. -/
theorem recordAbort_fills (h : s.flag F.SQ_ABORT_VALID (e / 8) = false) :
    s.recordAbort e cause pc tick =
      (s.setRegN .SQ_ABORT (e / 8) (abortWord s e cause pc)).setPair .SQ_ABORTL .SQ_ABORTH (e / 8) tick := by
  unfold State.recordAbort State.recordAbortAs abortWord
  simp only [h, Bool.false_eq_true, if_false]

/-- An abort that finds the record in use is counted. -/
theorem recordAbort_counts (h : s.flag F.SQ_ABORT_VALID (e / 8) = true) :
    s.recordAbort e cause pc tick = s.bump F.SQ_ABORTCNT_COUNT F.SQ_ABORTCNT_SAT (e / 8) := by
  unfold State.recordAbort State.recordAbortAs
  simp only [h, if_true]

/-- The registers that an abort recorded writes. -/
def abortRegs : List Reg := [.SQ_ABORT, .SQ_ABORTL, .SQ_ABORTH, .SQ_ABORTCNT]

/-- An abort recorded leaves every other register. -/
theorem reg_recordAbort_ne {r : Reg} {j : Nat} (hr : ∀ x ∈ abortRegs, r.ctorIdx ≠ x.ctorIdx) (he : e < 512) (hj : j < 65536) :
    (s.recordAbort e cause pc tick).reg r j = s.reg r j := by
  have hi : e / 8 < 65536 := by omega
  have hkey (x : Reg) (hx : x ∈ abortRegs) : r.key j ≠ x.key (e / 8) := key_ne (hr x hx) hj hi
  cases h : s.flag F.SQ_ABORT_VALID (e / 8) with
  | true =>
    rw [recordAbort_counts _ _ _ h]
    exact reg_bump_ne (hr .SQ_ABORTCNT (by decide)) (hr .SQ_ABORTCNT (by decide)) hi hj
  | false =>
    rw [recordAbort_fills _ _ _ h]
    exact (reg_setReg_ne _ _ (hkey .SQ_ABORTH (by decide))).trans
      ((reg_setReg_ne _ _ (hkey .SQ_ABORTL (by decide))).trans (reg_setReg_ne _ _ (hkey .SQ_ABORT (by decide))))

@[simp] theorem recordAbort_eng : (s.recordAbort e cause pc tick).eng = s.eng := by
  cases h : s.flag F.SQ_ABORT_VALID (e / 8) with
  | true => rw [recordAbort_counts _ _ _ h, bump_eng]
  | false => rw [recordAbort_fills _ _ _ h, setPair_eng, setRegN_eng]

@[simp] theorem recordAbort_raised : (s.recordAbort e cause pc tick).raised = s.raised := by
  cases h : s.flag F.SQ_ABORT_VALID (e / 8) with
  | true => rw [recordAbort_counts _ _ _ h, bump_raised]
  | false => rw [recordAbort_fills _ _ _ h, setPair_raised, setRegN_raised]

@[simp] theorem engine_recordAbort (k : Nat) : (s.recordAbort e cause pc tick).engine k = s.engine k :=
  congrArg (Tab.look (fun _ => Eng.init) · k) (recordAbort_eng ..)

theorem alive_recordAbort (he : e < 512) (d : Nat) : (s.recordAbort e cause pc tick).alive d = s.alive d :=
  alive_of_regs (reg_recordAbort_ne _ _ _ (by decide) he (by decide)) (reg_recordAbort_ne _ _ _ (by decide) he (by decide)) d

/-- The fields of a record just filled. -/
theorem abortWord_fields (s : State) (e cause pc : Nat) (hc : cause < 2 ^ 7) (hpc : pc < 4096) (hp : s.physOf e < 16) :
    let v := abortWord s e cause pc % 2 ^ 32
    bits 15 15 v = 1 ∧ bits 7 0 v = cause ∧ bits 10 8 v = e % 8 ∧ bits 27 16 v = pc := by
  have hb : b2n ((s.engine e).role != .single) ≤ 1 := by
    unfold b2n
    split <;> omega
  simp only [bits, abortWord, Nat.shiftRight_eq_div_pow]
  refine ⟨?_, ?_, ?_, ?_⟩ <;> omega

/-- The word and the tick that a record just filled holds. -/
theorem recordAbort_regs (h : s.flag F.SQ_ABORT_VALID (e / 8) = false) (he : e < 512) :
    (s.recordAbort e cause pc tick).regN .SQ_ABORT (e / 8) = abortWord s e cause pc % 2 ^ 32 ∧
      (s.recordAbort e cause pc tick).regN .SQ_ABORTL (e / 8) = tick % 2 ^ 32 := by
  have hi : e / 8 < 65536 := by omega
  have hkey {r x : Reg} (hx : r.ctorIdx ≠ x.ctorIdx) : r.key (e / 8) ≠ x.key (e / 8) := key_ne hx hi hi
  rw [recordAbort_fills _ _ _ h]
  constructor
  · refine (regN_setRegN_ne _ (hkey (by decide))).trans ((regN_setRegN_ne _ (hkey (by decide))).trans ?_)
    exact (congrArg BitVec.toNat (reg_setReg ..)).trans (BitVec.toNat_ofNat ..)
  · exact (regN_setRegN_ne _ (hkey (by decide))).trans (regN_setRegN _ _ _ _ (Nat.mod_lt _ (by decide)))

/-- An abort of a task leaves the engine stopped, and the event of its square raised (R55). -/
theorem engine_laneAbort : (s.laneAbort e cause pc tick).engine e = (s.engine e).endTask cause := by
  unfold State.laneAbort
  simp

theorem reg_laneAbort (r : Reg) (j : Nat) : (s.laneAbort e cause pc tick).reg r j = (s.recordAbort e cause pc tick).reg r j := by
  unfold State.laneAbort
  simp

theorem raised_laneAbort (he : e < 512) (h : s.alive (sqDom (e / 8)) = true) :
    (s.laneAbort e cause pc tick).raised = s.raised ++ [(4, e / 8)] := by
  simp [State.laneAbort, State.raiseEv, alive_recordAbort _ _ _ he, h]

@[simp] theorem endTask_running (g : Eng) (cause : Nat) : (g.endTask cause).running = false := rfl

end

end Sys2Proof.Laws
end

section
/-! PROOF. Budget stops and abort records of a lane engine (R55, R58, R125, R132). -/

namespace Sys2Proof.Proofs
open Sys2Proof.Machine Sys2Proof.Laws

/-- Every instruction that may be a body stops, aborts or does nothing as R55 and R58 say. -/
theorem body_stops {i : Instr} {e : Fin 512} {cnt : Nat} {f : State → LRes} {s : State} (hc : i.core = some (.lane e))
    (hb : laneBodyOf e.val i = some (cnt, f)) (h : lodeOp i = none ∨
      s.engClock = false ∨ (s.engine e.val).running = false ∨ (s.engine e.val).used + cnt ≤ (s.engine e.val).budget) :
    ∃ f', exec i s = (s.laneRun e.val cnt f').ends := by
  rcases exec_body hc hb with ⟨f', -, -, hx⟩ | ⟨x, -, hl, rfl, hx⟩
  · exact ⟨f', hx s⟩
  · refine ⟨f, ?_⟩
    rw [hx, lodeCut_none (h.resolve_left (by simp [hl]))]

/-- Settles O23: the stops by what `laneRun` comes to before the meaning of the instruction is asked for, and the record by the two
cases of `recordAbort`. -/
theorem laneStops : Obligations.LaneStops := by
  unfold Obligations.LaneStops
  constructor
  · intro i e cnt f s hc hb g t0 u x
    have hone (hcnt : 0 < cnt) (hin : g.used + cnt ≤ g.budget) : g.used + 1 ≤ g.budget := (Nat.add_le_add_left hcnt _).trans hin
    refine ⟨fun hk hr hlow hl => ?_, fun hk hr hfirst hlow hl hfetch hu hlegal => ?_, fun hk hr hin hcnt hbad => ?_,
      fun hk hr hin hcnt hfetch hlegal => ?_, fun hidle => ?_⟩
    · obtain ⟨f', hx⟩ := body_stops (s := s) hc hb (.inl hl)
      rw [hx, laneRun_budget hk hr hlow]
    · obtain ⟨f', hx⟩ := body_stops (s := s) hc hb (.inl hl)
      rw [hx, laneRun_late hk hr hfirst f' hfetch hlegal hlow]
      exact congrArg (fun v => (v.budgetStop e.val g.pc).ends) hu
    · obtain ⟨f', hx⟩ := body_stops hc hb (.inr (.inr (.inr hin)))
      rw [hx, laneRun_unchecked hk hr (hone hcnt hin) f' hbad]
    · obtain ⟨f', hx⟩ := body_stops hc hb (.inr (.inr (.inr hin)))
      rw [hx, laneRun_illegal hk hr (hone hcnt hin) f' hfetch hlegal]
    · obtain ⟨f', hx⟩ := body_stops hc hb (.inr (by tauto))
      rcases hidle with hr | hk
      · rw [hx, laneRun_idle hr]
      · rw [hx, laneRun_stands hk]
  · intro s e cause pc tick he hcause hpc hrole hphys t
    have hi : e / 8 < 65536 := by omega
    have hfld (f : Fld) (j : Nat) : t.fld f j = (s.recordAbort e cause pc tick).fld f j := by
      unfold State.fld State.regN
      rw [reg_laneAbort]
    refine ⟨?_, raised_laneAbort _ _ _ he, fun hv hmax => ?_, fun hv => ?_⟩
    · rw [engine_laneAbort, endTask_running]
    · rw [hfld, reg_laneAbort, recordAbort_counts _ _ _ hv]
      exact ⟨fld_bump_one hmax (by decide) (by decide), reg_bump_ne (by decide) (by decide) hi hi⟩
    · obtain ⟨hword, htick⟩ := recordAbort_regs cause pc tick hv he
      obtain ⟨hvalid, hc, hn, hp⟩ := abortWord_fields s e cause pc hcause hpc hphys
      have habort (f : Fld) (hf : f.reg = .SQ_ABORT) : t.fld f (e / 8) = bits (f.lo + f.width - 1) f.lo (abortWord s e cause pc % 2 ^ 32) := by
        rw [hfld, State.fld, hf, hword]
      refine ⟨?_, ?_, ?_, ?_, ?_⟩
      · rw [State.flag, habort _ rfl]
        exact beq_iff_eq.mpr hvalid
      · exact (habort F.SQ_ABORT_CAUSE rfl).trans hc
      · exact (habort F.SQ_ABORT_ENGINE rfl).trans hn
      · exact (habort F.SQ_ABORT_PC rfl).trans hp
      · rw [State.regN, reg_laneAbort]
        exact htick

end Sys2Proof.Proofs
end

section
/-! PROOF. Branches of a supervisor core (R362, R367): the frame of a branch names a register by a place past the last of its own. -/

namespace Sys2Proof.Proofs
open Sys2Proof.Machine Sys2Proof.Laws

/-- Core 0 of a device in RUN, before a BEQ at the start of shared SRAM, with nothing in its branch target buffer. -/
def beforeBranch : State :=
  { State.reset with
    regs := [(Reg.key .PMU_MODE 0, 6), (Reg.key .PMU_DOMSTAT 0, 0xFFFFF)]
    mem := [(0x20000003, 0x2C)]
    chk := [(0x4000000, .valid)]
    sup := [(0, { Sup.init with pc := 0x20000000 })]
    boot := .done }

/-- The word that core 0 fetches there is an instruction. -/
theorem beforeBranch_fetch :
    beforeBranch.supFetch 0 (beforeBranch.core 0).pc = (.ok (0x2C000000, false), beforeBranch) ∧ legalSup 0x2C000000 = true := by
  decide +kernel

theorem beforeBranch_ready : beforeBranch.SupReady 0 where
  quiet := ⟨rfl, rfl⟩
  runs := by decide +kernel
  fetch := ⟨_, beforeBranch_fetch⟩

/-- A register at a place past its last has the key of a later register: places of one register reach up to 65,535. -/
theorem reg_alias (s : State) (r : Reg) (i : Nat) : s.reg .QTZ_ALMC (r.key i) = s.reg r i := by
  have hkey : Reg.QTZ_ALMC.key (r.key i) = r.key i := by simp [Reg.key, Reg.ctorIdx]
  unfold State.reg
  rw [hkey]

/-- A branch taken that no entry predicts counts in BPMISS (R367). -/
theorem beforeBranch_counts :
    (beforeBranch.bpBranch 0 0x20000000 true).reg .SUP_BPMISS 0 ≠ beforeBranch.reg .SUP_BPMISS 0 := by
  decide +kernel

/-- Refutes O29: its frame says that every register other than BPMISS stays at every place `j : Nat`, and at place `key SUP_BPMISS 0`
the key of QTZ_ALMC, which has eight instances, is that of BPMISS of core 0, which counts a branch taken that no entry predicts. The
frame lacks a bound on `j`, such as j < 65536. -/
theorem not_supBranch : ¬ Obligations.SupBranch := by
  unfold Obligations.SupBranch
  intro h
  have hall := h beforeBranch 0 0 0 0 0 0 0 beforeBranch_ready
  obtain ⟨-, -, -, -, -, -, -, -, -, -, -, -, -, -, -, -, -, -, -, -, -, -, -, hframe, -⟩ := hall
  obtain ⟨-, -, -, -, hreg⟩ := hframe 0 true
  have hsame := hreg .QTZ_ALMC (Reg.key .SUP_BPMISS 0) (by decide)
  rw [reg_alias, reg_alias] at hsame
  exact beforeBranch_counts hsame

end Sys2Proof.Proofs
end

section
/-! PROOF. The corners of binary32 (R42, R47, R63): what a word stands for by its exponent and fraction, and what the operations make of
NaNs, infinities and zeros. -/

namespace Sys2Proof.Laws
open Sys2Proof.Machine

/-! What a word stands for. -/

/-- The exponent field of a binary32 word. -/
def fExp (x : Word) : Nat := x.toNat / 2 ^ 23 % 256

/-- The sign of a binary32 word. -/
def fSign (x : Word) : Bool := bit 31 x.toNat

/-- A number is a NaN or an infinity, a zero or a subnormal, or a normal number by its exponent field alone. -/
theorem fDecode_eq (x : Word) : fDecode x =
    if fExp x = 255 then (if x.toNat % 2 ^ 23 = 0 then .inf (fSign x) else .nan)
    else if fExp x = 0 then .fin (fSign x) 0 0
    else .fin (fSign x) (2 ^ 23 + x.toNat % 2 ^ 23) ((fExp x : Int) - 150) := by
  simp only [fDecode, fExp, fSign, bits, Nat.shiftRight_eq_div_pow]
  norm_num

theorem fDecode_nan_iff {x : Word} : fDecode x = .nan ↔ fExp x = 255 ∧ x.toNat % 2 ^ 23 ≠ 0 := by
  rw [fDecode_eq]
  split
  · split <;> simp_all
  · split <;> simp_all

theorem fDecode_small {x : Word} (h : fExp x = 0) : fDecode x = .fin (fSign x) 0 0 := by
  rw [fDecode_eq, if_neg (by omega), if_pos h]

theorem fDecode_inf {x : Word} (h : x.toNat % 2 ^ 31 = 255 * 2 ^ 23) : fDecode x = .inf (fSign x) := by
  have hexp : fExp x = 255 := by unfold fExp; omega
  rw [fDecode_eq, if_pos hexp, if_pos (by omega)]

/-- A normal number has a significand. -/
theorem fDecode_normal {x : Word} (h0 : fExp x ≠ 0) (h255 : fExp x ≠ 255) :
    fDecode x = .fin (fSign x) (2 ^ 23 + x.toNat % 2 ^ 23) ((fExp x : Int) - 150) := by
  rw [fDecode_eq, if_neg h255, if_neg h0]

theorem fIsNaN_iff {x : Word} : fIsNaN x = true ↔ fDecode x = .nan := beq_iff_eq

/-- A word with no significand is a zero or a subnormal. -/
theorem fExp_of_zero {x : Word} {neg : Bool} {e : Int} (h : fDecode x = .fin neg 0 e) : fExp x = 0 := by
  rw [fDecode_eq] at h
  split at h
  · split at h <;> cases h
  · by_contra hx
    rw [if_neg hx] at h
    injection h with _ hm
    omega

/-- A word that is no zero and no subnormal stands as it is. -/
theorem fFlush_of_exp {x : Word} (h : fExp x ≠ 0) : fFlush x = x := by
  unfold fFlush
  split
  · next hz => exact absurd (fExp_of_zero hz) h
  · rfl

theorem fFlush_small {x : Word} (h : fExp x = 0) : fFlush x = fZero (fSign x) := by
  simp only [fFlush, fDecode_small h]

theorem fIsNaN_small {x : Word} (h : fExp x = 0) : fIsNaN x = false := by
  rw [Bool.eq_false_iff, ne_eq, fIsNaN_iff, fDecode_small h]
  nofun

theorem fSign_eq (x : Word) : fSign x = decide (2 ^ 31 ≤ x.toNat) := by
  unfold fSign bit
  rw [Nat.testBit_eq_decide_div_mod_eq]
  have := x.isLt
  congr 1
  apply propext
  omega

/-- The sign of a product or quotient as a number. -/
theorem b2n_sign_xor (a b : Word) : b2n (fSign a ^^ fSign b) = (a.toNat / 2 ^ 31 + b.toNat / 2 ^ 31) % 2 := by
  have ha := a.isLt
  have hb := b.isLt
  have hsign (x : Word) : x.toNat / 2 ^ 31 = b2n (fSign x) := by
    have hx := x.isLt
    rw [fSign_eq]
    by_cases h : 2 ^ 31 ≤ x.toNat
    · rw [decide_eq_true h, show b2n true = 1 from rfl]
      omega
    · rw [decide_eq_false h, show b2n false = 0 from rfl]
      omega
  rw [hsign, hsign]
  cases fSign a <;> cases fSign b <;> rfl

/-! Operations on a NaN (R42): each answers the one NaN, a comparison is false, and a conversion answers 0. -/

section
variable {a b c : Word}

theorem fAdd_nan (neg : Bool) (h : fDecode a = .nan ∨ fDecode b = .nan) : fAdd neg a b = fNaN := by
  unfold fAdd
  rcases h with h | h
  · rw [h]
  · rw [h]; cases fDecode a <;> rfl

theorem fMul_nan (h : fDecode a = .nan ∨ fDecode b = .nan) : fMul a b = fNaN := by
  unfold fMul
  rcases h with h | h
  · rw [h]
  · rw [h]; cases fDecode a <;> rfl

theorem fDiv_nan (h : fDecode a = .nan ∨ fDecode b = .nan) : fDiv a b = fNaN := by
  unfold fDiv
  rcases h with h | h
  · rw [h]
  · rw [h]; cases fDecode a <;> rfl

theorem fFma_nan (neg : Bool) (h : fDecode a = .nan ∨ fDecode b = .nan ∨ fDecode c = .nan) : fFma neg a b c = fNaN := by
  unfold fFma
  rcases h with h | h | h
  · rw [h]
  · rw [h]; cases fDecode a <;> rfl
  · rw [h]; cases fDecode a <;> cases fDecode b <;> rfl

theorem fLt_nan (h : fDecode a = .nan ∨ fDecode b = .nan) : fLt a b = false := by
  rcases h with h | h <;> simp [fLt, fIsNaN, h]

theorem fGe_nan (h : fDecode a = .nan ∨ fDecode b = .nan) : fGe a b = false := by
  rcases h with h | h <;> simp [fGe, fIsNaN, h]

theorem fSqrt_nan (h : fDecode a = .nan) : fSqrt a = fNaN := by
  unfold fSqrt
  rw [h]

theorem fToInt_nan (k : Int) (h : fDecode a = .nan) : fToInt k a = 0 := by
  unfold fToInt
  rw [h]

/-! Division by zero and of infinities (R63). -/

theorem fDiv_zero (ha0 : fExp a ≠ 0) (ha1 : fExp a ≠ 255) (hb : fExp b = 0) : fDiv a b = fInf (fSign a ^^ fSign b) := by
  have hm : (2 ^ 23 + a.toNat % 2 ^ 23) ≠ 0 := by omega
  unfold fDiv
  rw [fDecode_normal ha0 ha1, fDecode_small hb]
  simp only [if_true, hm, if_false]

theorem fDiv_zeros (ha : fExp a = 0) (hb : fExp b = 0) : fDiv a b = fNaN := by
  unfold fDiv
  rw [fDecode_small ha, fDecode_small hb]
  rfl

theorem fDiv_infs (ha : a.toNat % 2 ^ 31 = 255 * 2 ^ 23) (hb : b.toNat % 2 ^ 31 = 255 * 2 ^ 23) : fDiv a b = fNaN := by
  unfold fDiv
  rw [fDecode_inf ha, fDecode_inf hb]

/-! Minimum and maximum with one NaN, and of the sign alone (R63). -/

theorem fMin_nan_left (ha : fIsNaN a = true) (hb : fIsNaN b = false) (h : fExp b ≠ 0) :
    fMin a b = b ∧ fMax a b = b ∧ fMin b a = b ∧ fMax b a = b := by
  simp [fMin, fMax, ha, hb, fFlush_of_exp h]

theorem fMin_nans (ha : fIsNaN a = true) (hb : fIsNaN b = true) : fMin a b = fNaN ∧ fMax a b = fNaN := by
  simp [fMin, fMax, ha, hb]

theorem fAbs_small (h : fExp a = 0) : fAbs a = 0 := by
  unfold fAbs
  rw [fIsNaN_small h, fFlush_small h]
  cases fSign a <;> decide

theorem fNeg_small (h : fExp a = 0) : fNeg a = if a.toNat < 2 ^ 31 then 0x80000000#32 else 0 := by
  unfold fNeg
  rw [fIsNaN_small h, fFlush_small h, fSign_eq]
  by_cases hs : a.toNat < 2 ^ 31
  · rw [decide_eq_false (by omega), if_pos hs]; decide
  · rw [decide_eq_true (by omega), if_neg hs]; decide

end

end Sys2Proof.Laws

namespace Sys2Proof.Proofs
open Sys2Proof.Machine Sys2Proof.Laws

/-- Settles O10, corner by corner from what `fDecode` makes of the operands. -/
theorem floatCorners : Obligations.FloatCorners := by
  unfold Obligations.FloatCorners
  intro a b c nan inf small q
  have hnan (x : Word) : nan x → fDecode x = .nan := fDecode_nan_iff.mpr
  have hnot (x : Word) (h : ¬ nan x) : fIsNaN x = false := Bool.eq_false_iff.mpr fun hx => h (fDecode_nan_iff.mp (fIsNaN_iff.mp hx))
  refine ⟨fun h => ?_, fun h => ?_, fun h => ?_, fun ⟨ha, hb⟩ => ?_, fun ⟨ha, hb, hs⟩ => ?_, fun ⟨hb, ha, hi, hs⟩ => ?_, fun h => ?_,
    by decide, by decide, by decide, fun h => ⟨fAbs_small h, fNeg_small h⟩, fun ⟨ha, hs⟩ => ?_, by decide, by decide, by decide, by decide⟩
  · have h := h.imp (hnan a) (hnan b)
    exact ⟨fAdd_nan _ h, fAdd_nan _ h, fMul_nan h, fDiv_nan h, fLt_nan h, fGe_nan h⟩
  · have h := h.imp (hnan a) (Or.imp (hnan b) (hnan c))
    exact ⟨fFma_nan _ h, fFma_nan _ h⟩
  · have h := hnan a h
    have hx := fIsNaN_iff.mpr h
    exact ⟨fSqrt_nan h, if_pos hx, if_pos hx, fToInt_nan _ h, fToInt_nan _ h⟩
  · exact fMin_nans (fIsNaN_iff.mpr (hnan a ha)) (fIsNaN_iff.mpr (hnan b hb))
  · exact fMin_nan_left (fIsNaN_iff.mpr (hnan a ha)) (hnot b hb) hs
  · have hexp : fExp a ≠ 255 := fun h => by
      by_cases hz : a.toNat % 2 ^ 23 = 0
      · refine hi (show a.toNat % 2 ^ 31 = 255 * 2 ^ 23 from ?_)
        unfold fExp at h
        omega
      · exact ha ⟨h, hz⟩
    rw [fDiv_zero hs hexp hb, fInf, b2n_sign_xor]
  · exact h.elim (fun h => fDiv_zeros h.1 h.2) (fun h => fDiv_infs h.1 h.2)
  · have hf := fFlush_of_exp hs
    exact ⟨by rw [fAbs, hnot a ha, hf]; rfl, by rw [fNeg, hnot a ha, hf]; rfl⟩

end Sys2Proof.Proofs
end

section
/-! SUPPORT. Loads and stores of a lane engine in its own and in shared memory (R37, R38, R67, R68, R90 to R98). -/

namespace Sys2Proof.Laws
open Sys2Proof.Machine

/-! Faults of an access (R37, R38). -/

theorem own_holds {a : Nat} : Region.own.holds a = true ↔ a < 0x4000 ∨ 0x10000 ≤ a ∧ a < 0x18000 := by
  simp [Region.holds]

theorem shared_holds {a : Nat} : Region.shared.holds a = true ↔ 0x40000 ≤ a ∧ a < 0x80000 := by
  simp [Region.holds]

theorem fault_outside {r : Region} {a n : Nat} (h : ¬ r.holds a = true) : r.fault a n = some 2 := by
  simp [Region.fault, h]

theorem fault_misaligned {r : Region} {a n : Nat} (h : r.holds a = true) (hn : a % n ≠ 0) : r.fault a n = some 3 := by
  simp [Region.fault, h, hn]

theorem fault_none {r : Region} {a n : Nat} (h : r.holds a = true) (hn : a % n = 0) : r.fault a n = none := by
  simp [Region.fault, h, hn]

/-! The ec of a read (R95, R97, R98). -/

/-- An engine's own memories answer in the second ec. -/
theorem readEc_own {e t a : Nat} (h : a < 0x40000) : readEc e t 0 a = t + 1 := if_pos h

/-- An engine is read-connected to a bank in an ec where the two agree modulo 4. -/
theorem readBanks_contains {e u b : Nat} (hb : b < 8) : (readBanks e u).contains b = decide ((e + u) % 4 = b % 4) := by
  rw [Bool.eq_iff_iff, decide_eq_true_eq]
  simp only [readBanks, List.contains_iff_mem, List.mem_cons, List.not_mem_nil, or_false]
  omega

/-- Shared memory answers in the one of the first four ecs in which the engine is read-connected to the bank. -/
theorem readEc_shared {e t k u a : Nat} (h : 0x40000 ≤ a) (hlow : t ≤ u) (hhigh : u < t + 4) (hu : (e + u) % 4 = a / 8 % 4) :
    readEc e t k a = u := by
  have hbank (v : Nat) : (readBanks e v).contains (a / 8 % 8) = decide ((e + v) % 4 = a / 8 % 4) := by
    rw [readBanks_contains (Nat.mod_lt _ (by decide)), Nat.mod_mod_of_dvd _ (by decide)]
  obtain ⟨i, rfl⟩ := Nat.exists_eq_add_of_le hlow
  have hfind : (List.range 4).find? ((fun v => (readBanks e v).contains (a / 8 % 8)) ∘ fun i => t + i) = some i := by
    rw [List.find?_range_eq_some]
    simp only [Function.comp_apply, hbank, hu, decide_true, List.mem_range, Bool.not_eq_true', decide_eq_false_iff_not]
    exact ⟨trivial, by omega, fun j hj => by omega⟩
  unfold readEc
  rw [if_neg (by omega), List.find?_map, hfind]
  rfl

/-! The value of a load (R46). -/

/-- The low w bits of a number as a signed integer. -/
theorem sext_eq_toInt {w : Nat} (hw : 0 < w) (v : Nat) : sext w v = (BitVec.ofNat w v).toInt := by
  have hpow := Nat.two_pow_pred_add_two_pow_pred hw
  rw [BitVec.toInt_eq_toNat_cond, BitVec.toNat_ofNat]
  unfold sext
  dsimp only
  split <;> split <;> omega

theorem extend_signed {n : Nat} (hn : 0 < n) (v : Nat) : extend n true v = (BitVec.ofNat (8 * n) v).signExtend 32 := by
  unfold extend
  rw [if_pos rfl, sext_eq_toInt (by omega)]
  rfl

theorem extend_unsigned (n v : Nat) : extend n false v = BitVec.ofNat 32 v := rfl

/-- A word needs no extension. -/
theorem extend_word (v : Nat) : extend 4 true v = BitVec.ofNat 32 v := by
  rw [extend_signed (by decide), BitVec.signExtend_eq]

/-! Loads (R67, R69). -/

section
variable {s : State} {e : Nat} {r : Region} {n : Nat} {signed : Bool} {rd ra : BitVec 5} {simm : BitVec 13}

theorem laneLoad_faults {c : Nat} (h : r.fault (s.laneEA e ra simm) n = some c) :
    s.laneLoad e r n signed rd ra simm = .abort s c := by
  simp [State.laneLoad, h]

/-- A load whose word passes its check writes what the engine sees in the ec of its read. -/
theorem laneLoad_reads {u : Nat} (h : r.fault (s.laneEA e ra simm) n = none)
    (hu : readEc e (s.laneFirst e) 0 (s.laneEA e ra simm) = u)
    (hchk : s.chkWhen (MemWrite.from_ u) (s.laneAddr e (s.laneEA e ra simm)) = .valid) :
    s.laneLoad e r n signed rd ra simm = .seq (s.setW e rd (extend n signed (s.laneBytesAt e u (s.laneEA e ra simm) n))) := by
  have hcheck (v : Nat) (a : Nat) : s.checkAt v .valid a 0 = (false, s) := by
    unfold State.checkAt
    split <;> rfl
  unfold State.laneFirst at hu
  simp only [State.laneLoad, h, hu, State.laneCheckAt, hchk, hcheck, Bool.false_eq_true, if_false]

end

end Sys2Proof.Laws
end

section
/-! PROOF. Loads of a lane engine from its own and from shared memory (R37, R38, R46, R67, R69, R95 to R98). -/

namespace Sys2Proof.Proofs
open Sys2Proof.Machine Sys2Proof.Laws

/-- The effective address of a load or store of an engine (R38). -/
def effAddr (s : State) (e : Nat) (ra : BitVec 5) (simm : BitVec 13) : Nat :=
  ((((s.w e ra).toNat : Int) + simm.toInt) % 4294967296).toNat

theorem laneEA_laneAt (s : State) (e cnt : Nat) (ra : BitVec 5) (simm : BitVec 13) :
    (s.laneAt e cnt).laneEA e ra simm = effAddr s e ra simm := rfl

/-- The ec of a read is in the one way or the other. -/
theorem readEc_eq {e t a u : Nat} (hown : a < 0x40000 → u = t + 1)
    (hshared : 0x40000 ≤ a → t ≤ u ∧ u < t + 4 ∧ (e + u) % 4 = a / 8 % 4) : readEc e t 0 a = u := by
  by_cases h : a < 0x40000
  · rw [readEc_own h, hown h]
  · obtain ⟨hlow, hhigh, hu⟩ := hshared (by omega)
    exact readEc_shared (by omega) hlow hhigh hu

/-- A ready load reads, or aborts by its address. -/
theorem load_ready {s : State} {e cnt n : Nat} {r : Region} {signed : Bool} {rd ra : BitVec 5} {simm : BitVec 13} {x : Instr}
    {f : Nat → Word} {holds : Prop} {a : Nat} (ha : effAddr s e ra simm = a)
    (hx : exec x s = (s.laneRun e cnt (fun s => s.laneLoad e r n signed rd ra simm)).ends)
    (hholds : r.holds a = true ↔ holds) (hf : ∀ v, extend n signed v = f v) (h : s.LaneReady e cnt) :
    let t0 := s.laneFirst e
    (∀ u, (a < 0x40000 → u = t0 + 1) → (0x40000 ≤ a → t0 ≤ u ∧ u < t0 + 4 ∧ (e + u) % 4 = a / 8 % 4) →
        holds → a % n = 0 → s.chkWhen (MemWrite.from_ u) (s.laneAddr e a) = .valid →
        exec x s = s.laneDone e cnt ((s.laneAt e cnt).setW e rd (f (s.laneBytesAt e u a n)))) ∧
      (¬ holds → exec x s = s.laneAborts e cnt 2) ∧
      (holds → a % n ≠ 0 → exec x s = s.laneAborts e cnt 3) := by
  subst ha
  refine ⟨fun u hown hshared hin hal hchk => ?_, fun hout => ?_, fun hin hal => ?_⟩
  · rw [hx, ← hf]
    exact laneRun_sets h _ (laneLoad_reads (fault_none (hholds.mpr hin) hal) (readEc_eq hown hshared) hchk)
  · rw [hx]
    exact laneRun_aborts h _ (laneLoad_faults (fault_outside fun hin => hout (hholds.mp hin)))
  · rw [hx]
    exact laneRun_aborts h _ (laneLoad_faults (fault_misaligned (hholds.mpr hin) hal))

/-- Settles O14: each load is one of `laneLoad`, with its count, region, size and extension. -/
theorem laneLoad : Obligations.LaneLoad := by
  unfold Obligations.LaneLoad
  intro s e rd ra simm a t0 loads own shared
  have ha : effAddr s e.val ra simm = a := rfl
  clear_value a
  have hown (n : Nat) (signed : Bool) {f : Nat → Word} {x : Instr}
      (hx : exec x s = (s.laneRun e.val 2 (fun s => s.laneLoad e.val .own n signed rd ra simm)).ends)
      (hf : ∀ v, extend n signed v = f v) : own n f x := load_ready ha hx own_holds hf
  have hshared (n : Nat) (signed : Bool) {f : Nat → Word} {x : Instr}
      (hx : exec x s = (s.laneRun e.val 4 (fun s => s.laneLoad e.val .shared n signed rd ra simm)).ends)
      (hf : ∀ v, extend n signed v = f v) : shared n f x := load_ready ha hx shared_holds hf
  clear_value own shared
  refine ⟨?_, ?_, ?_, ?_, ?_, ?_, ?_, ?_, ?_, ?_, fun h => laneRun_aborts h _ rfl⟩
  · exact hown 4 true rfl extend_word
  · exact hown 2 true rfl (extend_signed Nat.two_pos)
  · exact hown 2 false rfl (extend_unsigned 2)
  · exact hown 1 true rfl (extend_signed Nat.one_pos)
  · exact hown 1 false rfl (extend_unsigned 1)
  · exact hshared 4 true rfl extend_word
  · exact hshared 2 true rfl (extend_signed Nat.two_pos)
  · exact hshared 2 false rfl (extend_unsigned 2)
  · exact hshared 1 true rfl (extend_signed Nat.one_pos)
  · exact hshared 1 false rfl (extend_unsigned 1)

end Sys2Proof.Proofs
end

section
/-! SUPPORT. Bytes of memory: a number written and read back, and what a store waiting in a buffer shows (R1, R69). -/

namespace Sys2Proof.Laws
open Sys2Proof.Machine

variable {s : State}

/-! Numbers as bytes (R1). -/

theorem leBytes_eq_map (n v : Nat) : leBytes n v = (List.range n).map (fun k => BitVec.ofNat 8 (v >>> (8 * k))) := by
  induction n generalizing v with
  | zero => rfl
  | succ n ih =>
    rw [leBytes, ih, List.range_succ_eq_map, List.map_cons, List.map_map]
    refine congrArg _ (List.map_congr_left fun k _ => ?_)
    have hdiv : v / 256 = v >>> 8 := (Nat.shiftRight_eq_div_pow v 8).symm
    rw [hdiv, ← Nat.shiftRight_add, Function.comp_apply, Nat.mul_succ, Nat.add_comm]

theorem ofLeBytes_leBytes (n v : Nat) : ofLeBytes (leBytes n v) = v % 2 ^ (8 * n) := by
  induction n generalizing v with
  | zero => exact (Nat.mod_one v).symm
  | succ n ih =>
    rw [leBytes, ofLeBytes, ih, BitVec.toNat_ofNat, Nat.mul_succ, Nat.add_comm (8 * n) 8, Nat.pow_add, Nat.mod_mul]

/-- The bytes of a number spell as much of it as they hold. -/
theorem ofLeBytes_map (n v : Nat) : ofLeBytes ((List.range n).map (fun k => BitVec.ofNat 8 (v >>> (8 * k)))) = v % 2 ^ (8 * n) := by
  rw [← leBytes_eq_map, ofLeBytes_leBytes]

/-! A number written and read back. -/

theorem byte_setBytes_below (l : List Byte) : ∀ (s : State) {a b : Nat}, b < a → (s.setBytes a l).byte b = s.byte b := by
  induction l with
  | nil => exact fun _ _ _ _ => rfl
  | cons x l ih => exact fun s a b h => (ih _ (by omega)).trans (byte_setByte_ne s x (by omega))

theorem byte_setBytes_above (l : List Byte) : ∀ (s : State) {a b : Nat}, a + l.length ≤ b → (s.setBytes a l).byte b = s.byte b := by
  induction l with
  | nil => exact fun _ _ _ _ => rfl
  | cons x l ih =>
    intro s a b h
    rw [List.length_cons] at h
    exact (ih _ (by omega)).trans (byte_setByte_ne s x (by omega))

theorem bytes_setBytes (l : List Byte) : ∀ (s : State) (a : Nat), (s.setBytes a l).bytes a l.length = l := by
  induction l with
  | nil => exact fun _ _ => rfl
  | cons x l ih =>
    intro s a
    have hrest : (List.range l.length).map (fun k => (s.setBytes a (x :: l)).byte (a + (k + 1))) = l := by
      refine Eq.trans (List.map_congr_left fun k _ => ?_) (ih (s.setByte a x) (a + 1))
      exact congrArg _ (by omega)
    rw [State.bytes, List.length_cons, List.range_succ_eq_map, List.map_cons, List.map_map]
    refine congrArg₂ List.cons ?_ hrest
    exact (byte_setBytes_below l _ (by omega)).trans (byte_setByte s a x)

/-- A number written reads back as what fits of it. -/
theorem peek_poke_same (s : State) (a n v : Nat) : (s.poke a n v).peek a n = v % 2 ^ (8 * n) := by
  have h := bytes_setBytes (leBytes n v) s a
  rw [length_leBytes] at h
  rw [State.peek, State.poke, h, ofLeBytes_leBytes]

/-- Bytes apart from a number written stand. -/
theorem peek_poke_apart (s : State) {a n b m : Nat} (v : Nat) (h : b + m ≤ a ∨ a + n ≤ b) : (s.poke a n v).peek b m = s.peek b m := by
  refine congrArg ofLeBytes (List.map_congr_left fun k hk => ?_)
  have hk := List.mem_range.mp hk
  rcases h with h | h
  · exact byte_setBytes_below _ s (by omega)
  · exact byte_setBytes_above _ s (by rw [length_leBytes]; omega)

/-! A store that waits in a buffer (R69, R90). -/

/-- The entry that a store of n bytes of v at a local address leaves, in an ec and with a slot. -/
def storeEntry (a n v t phys : Nat) : SbEntry :=
  ⟨a / 8 * 8, (2 ^ n - 1) <<< (a % 8), v <<< (8 * (a % 8)), false, t, phys⟩

/-- Each byte of the store shows through the entry. -/
theorem bufByte_storeEntry {a n v t phys k : Nat} (b : Byte) (hn : a % 8 + n ≤ 8) (hk : k < n) :
    bufByte [storeEntry a n v t phys] (a + k) b = BitVec.ofNat 8 (v >>> (8 * k)) := by
  have hoff : a + k - a / 8 * 8 = a % 8 + k := by omega
  have hen : bit (a % 8 + k) ((2 ^ n - 1) <<< (a % 8)) = true := by
    simp [bit, Nat.testBit_shiftLeft, Nat.testBit_two_pow_sub_one, hk]
  have hdata : v <<< (8 * (a % 8)) >>> (8 * (a % 8 + k)) = v >>> (8 * k) := by
    rw [Nat.mul_add, Nat.shiftRight_add, Nat.shiftLeft_shiftRight]
  have hin : decide (a / 8 * 8 ≤ a + k) = true ∧ decide (a + k < a / 8 * 8 + 8) = true := by
    simp only [decide_eq_true_eq]
    omega
  simp only [bufByte, storeEntry, List.foldl_cons, List.foldl_nil, hoff, hen, hdata, hin, Bool.and_self, if_true]

/-- An engine with that one local entry reads its own store back. -/
theorem laneBytes_storeEntry {e a n v t phys : Nat} (ha : a < 0x18000) (hn : a % 8 + n ≤ 8)
    (h : (s.engine e).local_ = [storeEntry a n v t phys]) : s.laneBytes e a n = v % 2 ^ (8 * n) := by
  rw [State.laneBytes, ← ofLeBytes_map]
  refine congrArg ofLeBytes (List.map_congr_left fun k hk => ?_)
  have hk := List.mem_range.mp hk
  rw [State.laneByte, Eng.overlay, if_pos (by omega), h, bufByte_storeEntry _ hn hk]

end Sys2Proof.Laws
end

section
/-! SUPPORT. Stores of a lane engine: what enters the local and the shared part of its store buffer (R67, R68, R90, R93). -/

namespace Sys2Proof.Laws
open Sys2Proof.Machine

variable {s : State} {e n : Nat} {rs ra : BitVec 5} {simm : BitVec 13}

theorem laneStore_faults {t c : Nat} (h : Region.own.fault (s.laneEA e ra simm) n = some c) :
    s.laneStore e n rs ra simm t = .abort s c := by
  simp [State.laneStore, h]

theorem laneSts_faults {c : Nat} (h : Region.shared.fault (s.laneEA e ra simm) n = some c) :
    laneSts e n rs ra simm s = .abort s c := by
  simp [laneSts, h]

/-- The value that a store of n bytes carries. -/
def storeValue (s : State) (e n : Nat) (rs : BitVec 5) : Nat := (s.w e rs).toNat % 2 ^ (8 * n)

/-- A local entry enters an empty buffer. -/
theorem placeLocal_empty {t a en v : Nat} (h : (s.engine e).local_ = []) :
    s.placeLocal e t a en v false = s.setEng e { s.engine e with local_ := [⟨a, en, v, false, t, s.physOf e⟩] } := by
  simp [State.placeLocal, State.drainLocalBefore, h, repeatN, unmark]

/-- A store of a single task to data memory leaves its entry. -/
theorem laneStore_enters {t : Nat} (hf : Region.own.fault (s.laneEA e ra simm) n = none) (ha : 0x4000 ≤ s.laneEA e ra simm)
    (hr : (s.engine e).role = .single) (hl : (s.engine e).local_ = []) :
    s.laneStore e n rs ra simm t = .seq (s.setEng e { s.engine e with
      local_ := [storeEntry (s.laneEA e ra simm) n (storeValue s e n rs) t (s.physOf e)] }) := by
  have hown : ¬ s.laneEA e ra simm < 0x4000 := by omega
  have hsigned : ¬ ((s.engine e).role ≠ .single ∧ s.inWindow e (s.laneEA e ra simm) n = true) := fun h => h.1 hr
  unfold State.laneStore
  simp only [hf, hown, if_false, if_neg hsigned]
  rw [placeLocal_empty (by rw [engine_setEng]; exact hl), setEng_setEng, engine_setEng, setEng_physOf_read]
  rfl

/-- A shared entry enters an empty buffer. -/
theorem placeSts_empty {phys t a v : Nat} (h : (s.engine e).shared = []) :
    s.placeSts e phys t a n v = s.setEng e { s.engine e with shared := [storeEntry a n (v % 2 ^ (8 * n)) t phys] } := by
  simp [State.placeSts, State.drainSharedBefore, h, repeatN, unmark, placeShared, storeEntry]

/-- A store of a single task to shared memory leaves its entry. -/
theorem laneSts_enters (hf : Region.shared.fault (s.laneEA e ra simm) n = none) (hr : (s.engine e).role = .single)
    (hl : (s.engine e).shared = []) :
    laneSts e n rs ra simm s = .seq (s.setEng e { s.engine e with
      shared := [storeEntry (s.laneEA e ra simm) n (storeValue s e n rs) (s.laneFirst e) (s.physOf e)] }) := by
  unfold laneSts
  simp only [hf]
  rw [State.laneOut, if_pos hr]
  simp only [State.issue]
  rw [placeSts_empty hl, Nat.mod_mod]
  rfl

end Sys2Proof.Laws
end

section
/-! PROOF. Stores of a lane engine to its own and to shared memory (R37, R38, R59, R67, R68, R90 to R93). -/

namespace Sys2Proof.Proofs
open Sys2Proof.Machine Sys2Proof.Laws

/-- An aligned access of 1, 2, 4 or 8 bytes stays in its 64-bit word. -/
theorem aligned_in_word {a n : Nat} (hn : n ∣ 8) (ha : a % n = 0) : a % 8 + n ≤ 8 := by
  obtain ⟨c, hc⟩ := hn
  have hdiv : n ∣ a % 8 := (Nat.dvd_mod_iff ⟨c, hc⟩).mpr (Nat.dvd_of_mod_eq_zero ha)
  obtain ⟨q, hq⟩ := hdiv
  have hlt : n * q < n * c := by rw [← hq, ← hc]; exact Nat.mod_lt _ (by decide)
  have hqc : q + 1 ≤ c := Nat.lt_of_mul_lt_mul_left hlt
  calc a % 8 + n = n * (q + 1) := by rw [hq, Nat.mul_succ]
    _ ≤ n * c := Nat.mul_le_mul_left n hqc
    _ = 8 := hc.symm

section
variable {s : State} {e n a : Nat} {rs ra : BitVec 5} {simm : BitVec 13} {x : Instr} (h : s.LaneReady e 1)
  (ha : effAddr s e ra simm = a)
include h ha

/-- A ready store to the engine's own memories enters the store buffer, or aborts by its address. -/
theorem store_ready (hn : n ∣ 8) (hx : exec x s = (s.laneRun e 1 (fun s => s.laneStore e n rs ra simm (s.laneLast e 1))).ends) :
    let g := s.engine e
    (0x10000 ≤ a → a < 0x18000 → a % n = 0 → g.role = .single → g.local_ = [] →
        ∃ t, exec x s = .next t ∧
          (t.engine e).local_ = [⟨a / 8 * 8, (2 ^ n - 1) * 2 ^ (a % 8), (s.w e rs).toNat % 2 ^ (8 * n) * 2 ^ (8 * (a % 8)), false,
            s.laneFirst e, s.physOf e⟩] ∧
          t.laneBytes e a n = (s.w e rs).toNat % 2 ^ (8 * n) ∧
          (∀ b, t.byte b = s.byte b) ∧ (∀ r, t.w e r = s.w e r) ∧ (t.engine e).shared = g.shared ∧
          (t.engine e).pc = g.pc + 1 ∧ (t.engine e).used = g.used + 1) ∧
      (¬ (a < 0x4000 ∨ 0x10000 ≤ a ∧ a < 0x18000) → exec x s = s.laneAborts e 1 2) ∧
      ((a < 0x4000 ∨ 0x10000 ≤ a ∧ a < 0x18000) → a % n ≠ 0 → exec x s = s.laneAborts e 1 3) := by
  subst ha
  refine ⟨fun hlow hhigh hal hr hl => ?_, fun hout => ?_, fun hin hal => ?_⟩
  · have henters := laneStore_enters (s := s.laneAt e 1) (n := n) (rs := rs) (t := (s.laneAt e 1).laneLast e 1)
      (fault_none (own_holds.mpr (.inr ⟨hlow, hhigh⟩)) hal) ((by decide : 0x4000 ≤ 0x10000).trans hlow) hr hl
    refine ⟨_, hx.trans (laneRun_seq h _ henters (quiet_of_eq h.quiet rfl rfl)), ?_⟩
    have hg := engine_laneAdvance ((s.laneAt e 1).setEng e { s.engine e with
      local_ := [storeEntry (effAddr s e ra simm) n (storeValue s e n rs) (s.laneFirst e) (s.physOf e)] }) e 1 ((s.engine e).pc + 1)
    rw [engine_setEng] at hg
    refine ⟨(congrArg Eng.local_ hg).trans ?_, ?_, fun _ => rfl, fun r => ?_, (congrArg Eng.shared hg).trans rfl, congrArg Eng.pc hg,
      congrArg Eng.used hg⟩
    · simp only [storeEntry, storeValue, Nat.shiftLeft_eq]
    · exact (laneBytes_storeEntry hhigh (aligned_in_word hn hal) (congrArg Eng.local_ hg)).trans (Nat.mod_mod ..)
    · exact (congrArg (Eng.getW · r.toNat) hg).trans rfl
  · rw [hx]
    exact laneRun_aborts h _ (laneStore_faults (fault_outside fun hin => hout (own_holds.mp hin)))
  · rw [hx]
    exact laneRun_aborts h _ (laneStore_faults (fault_misaligned (own_holds.mpr hin) hal))

/-- A ready store to shared memory enters the store buffer, or aborts by its address. -/
theorem sts_ready (hx : exec x s = (s.laneRun e 1 (laneSts e n rs ra simm)).ends) :
    let g := s.engine e
    (0x40000 ≤ a → a < 0x80000 → a % n = 0 → g.role = .single → g.shared = [] →
        exec x s = s.laneDone e 1 ((s.laneAt e 1).setEng e { g with shared :=
          [⟨a / 8 * 8, (2 ^ n - 1) <<< (a % 8), ((s.w e rs).toNat % 2 ^ (8 * n)) <<< (8 * (a % 8)), false, s.laneFirst e,
            s.physOf e⟩] })) ∧
      (¬ (0x40000 ≤ a ∧ a < 0x80000) → exec x s = s.laneAborts e 1 2) ∧
      (0x40000 ≤ a → a < 0x80000 → a % n ≠ 0 → exec x s = s.laneAborts e 1 3) := by
  subst ha
  refine ⟨fun hlow hhigh hal hr hl => ?_, fun hout => ?_, fun hlow hhigh hal => ?_⟩
  · rw [hx]
    exact laneRun_seq h _ (laneSts_enters (fault_none (shared_holds.mpr ⟨hlow, hhigh⟩) hal) hr hl) (quiet_of_eq h.quiet rfl rfl)
  · rw [hx]
    exact laneRun_aborts h _ (laneSts_faults (fault_outside fun hin => hout (shared_holds.mp hin)))
  · rw [hx]
    exact laneRun_aborts h _ (laneSts_faults (fault_misaligned (shared_holds.mpr ⟨hlow, hhigh⟩) hal))

end

/-- Settles O15: each store is one of `laneStore` or `laneSts`, with its size. -/
theorem laneStore : Obligations.LaneStore := by
  unfold Obligations.LaneStore
  intro s e rs ra simm h a g stores shares
  have ha : effAddr s e.val ra simm = a := rfl
  clear_value a
  have hstores (n : Nat) (hn : n ∣ 8) {x : Instr}
      (hx : exec x s = (s.laneRun e.val 1 (fun s => s.laneStore e.val n rs ra simm (s.laneLast e.val 1))).ends) : stores n x :=
    store_ready h ha hn hx
  have hshares (n : Nat) {x : Instr} (hx : exec x s = (s.laneRun e.val 1 (laneSts e.val n rs ra simm)).ends) : shares n x :=
    sts_ready h ha hx
  clear_value stores shares
  exact ⟨hstores 4 (by decide) rfl, hstores 2 (by decide) rfl, hstores 1 (by decide) rfl, laneRun_aborts h _ rfl, hshares 4 rfl,
    hshares 2 rfl, hshares 1 rfl⟩

end Sys2Proof.Proofs
end

section
/-! SUPPORT. The stages of REP on a lane engine (R52, R53, R58). -/

namespace Sys2Proof.Laws
open Sys2Proof.Machine

/-- A count field that is 0 without RSRC is legal. -/
theorem countField_legal {rsrc : Bool} {cnt : BitVec 5} (h : rsrc = false → cnt = 0) : (!rsrc && cnt != 0) = false := by
  cases rsrc with
  | true => rfl
  | false => simp [h rfl]

/-- The state in which a ready REP fetches its body: its own ec spent, the task at the next index. -/
def repState (s : State) (e : Nat) : State := (s.reach (s.laneFirst e)).laneAdvance e 1 ((s.engine e).pc + 1)

section
variable {s : State} {e : Nat} (h : s.LaneReady e 1) {rsrc advRb advRa advRd : Bool} {cnt : BitVec 5} {nm1 : BitVec 6}
include h

/-- A count field without RSRC aborts at REP. -/
theorem laneRep_counted (hr : rsrc = false) (hc : cnt ≠ 0) :
    s.laneRep e rsrc advRb advRa advRd false cnt nm1 = (s.reach (s.laneFirst e)).laneAbort e 1 (s.engine e).pc (s.laneFirst e) := by
  obtain ⟨h1, h2⟩ := h.valid
  have h3 := h.legal
  have hb : ¬ (s.engine e).budget < (s.engine e).used + 1 := by have := h.budget; omega
  have hcnt : (cnt != 0) = true := bne_iff_ne.mpr hc
  unfold State.laneNext State.laneFirst at *
  unfold State.laneRep
  simp only [h.running, h.clock, hb, h1, h2, h3, hr, hcnt, Bool.not_true, Bool.not_false, Bool.or_self, Bool.and_true, Bool.or_true,
    Bool.true_or, Bool.false_eq_true, if_false, if_true]

variable (hc : rsrc = false → cnt = 0) {word : Nat}
include hc

/-- A body that is prohibited by its opcode aborts at REP. -/
theorem laneRep_prohibited (hf : (repState s e).laneFetch e ((s.engine e).pc + 1) = (false, word, repState s e))
    (ho : repOpcode false (wf 26 6 word) = true) :
    s.laneRep e rsrc advRb advRa advRd false cnt nm1 = (repState s e).laneAbort e 1 (s.engine e).pc (s.laneFirst e) := by
  obtain ⟨h1, h2⟩ := h.valid
  have h3 := h.legal
  have hb : ¬ (s.engine e).budget < (s.engine e).used + 1 := by have := h.budget; omega
  have hp : (s.engine e).pc ≠ 4095 := by have := h.below; omega
  have hcnt := countField_legal hc
  unfold repState State.laneNext State.laneFirst at *
  unfold State.laneRep
  simp only [h.running, h.clock, hb, h1, h2, h3, hcnt, hp, hf, ho, Bool.not_true, Bool.or_self, Bool.false_and, Bool.true_or,
    Bool.false_eq_true, if_false, if_true]

/-- A body whose fetch fails its check past the budget stops the task at its index. -/
theorem laneRep_late {v : State} (hf : (repState s e).laneFetch e ((s.engine e).pc + 1) = (true, word, v))
    (hl : (s.engine e).budget < (s.engine e).used + 2) :
    s.laneRep e rsrc advRb advRa advRd false cnt nm1 = v.budgetStop e ((s.engine e).pc + 1) := by
  obtain ⟨h1, h2⟩ := h.valid
  have h3 := h.legal
  have hb : ¬ (s.engine e).budget < (s.engine e).used + 1 := by have := h.budget; omega
  have hp : (s.engine e).pc ≠ 4095 := by have := h.below; omega
  have hcnt := countField_legal hc
  unfold repState State.laneNext State.laneFirst at *
  unfold State.laneRep
  simp only [h.running, h.clock, hb, h1, h2, h3, hcnt, hp, hf, hl, Bool.not_true, Bool.or_self, Bool.false_and,
    Bool.false_eq_true, if_false, if_true]

/-- A body that is decoded is repeated. -/
theorem laneRep_repeats {p i : Instr} {count : Nat} {f : State → LRes}
    (hf : (repState s e).laneFetch e ((s.engine e).pc + 1) = (false, word, repState s e)) (ho : repOpcode false (wf 26 6 word) = false)
    (hp : decodeLane (.lane (Fin.ofNat 512 e)) (BitVec.ofNat 32 (plain word)) = some p)
    (hp' : repRefused advRb advRa advRd word nm1.toNat p = false)
    (hi : decodeLane (.lane (Fin.ofNat 512 e)) (BitVec.ofNat 32 (bodyWord advRb advRa advRd 0 word)) = some i)
    (hi' : laneBodyOf e i = some (count, f)) :
    s.laneRep e rsrc advRb advRa advRd false cnt nm1 = (repState s e).laneRepeat e ((s.engine e).pc + 1) count
      (if rsrc then min (s.w e cnt).toNat (nm1.toNat + 1) else nm1.toNat + 1) (nm1.toNat + 1) false word
      (fun i => decodeLane (.lane (Fin.ofNat 512 e)) (BitVec.ofNat 32 (bodyWord advRb advRa advRd i word))) := by
  obtain ⟨h1, h2⟩ := h.valid
  have h3 := h.legal
  have hb : ¬ (s.engine e).budget < (s.engine e).used + 1 := by have := h.budget; omega
  have hp0 : (s.engine e).pc ≠ 4095 := by have := h.below; omega
  have hcnt := countField_legal hc
  unfold repState State.laneNext State.laneFirst at *
  unfold State.laneRep
  simp only [h.running, h.clock, hb, h1, h2, h3, hcnt, hp0, hf, ho, hp, hp', hi, Option.bind_some, hi', Bool.not_true, Bool.or_self,
    Bool.false_and, Bool.false_eq_true, if_false]
  rfl

end

end Sys2Proof.Laws
end

section
/-! SUPPORT. The word of a multiply-accumulate body, and of its repetitions (R43, R52). -/

namespace Sys2Proof.Laws
open Sys2Proof.Machine

/-- The word of MAC (R43). -/
def macWord (n : BitVec 2) (ra rb : BitVec 5) : Nat := packA 0 ra.toNat rb.toNat 0 n.toNat 0

section
variable (n : BitVec 2) (ra rb : BitVec 5)

/-- The word of MAC as a sum of its fields. -/
theorem macWord_eq : macWord n ra rb = 3 * 2 ^ 26 + ra.toNat * 2 ^ 16 + rb.toNat * 2 ^ 11 + n.toNat * 2 ^ 4 := by
  simp [macWord, packA, packR]

theorem macWord_lt : macWord n ra rb < 2 ^ 32 := by
  have := ra.isLt; have := rb.isLt; have := n.isLt
  rw [macWord_eq]
  omega

/-- The fields of the word of MAC. -/
theorem wf_macWord : wf 26 6 (macWord n ra rb) = 3 ∧ wf 21 5 (macWord n ra rb) = 0 ∧ wf 16 5 (macWord n ra rb) = ra.toNat ∧
    wf 11 5 (macWord n ra rb) = rb.toNat ∧ wf 6 5 (macWord n ra rb) = 0 ∧ wf 4 2 (macWord n ra rb) = n.toNat ∧
    wf 0 4 (macWord n ra rb) = 0 := by
  have := ra.isLt; have := rb.isLt; have := n.isLt
  rw [macWord_eq]
  unfold wf
  omega

/-- The word of MAC spells MAC. -/
theorem decodeLane_macWord (c : Core) : decodeLane c (BitVec.ofNat 32 (macWord n ra rb)) = some (.mac c n ra rb) := by
  obtain ⟨hop, hrd, hra, hrb, hsh, hacc, hfunc⟩ := wf_macWord n ra rb
  unfold decodeLane
  rw [BitVec.toNat_ofNat, Nat.mod_eq_of_lt (macWord_lt n ra rb)]
  simp [hop, decodeAcc, hfunc, op5, hrd, hra, hrb, hsh, hacc, legal]

/-- The word that selects MAC with every operand 0 (R44). -/
theorem plain_macWord : plain (macWord n ra rb) = macWord 0 0 0 := by
  obtain ⟨hop, -, -, -, -, -, hfunc⟩ := wf_macWord n ra rb
  have h0 : macWord 0 0 0 = 3 * 2 ^ 26 := rfl
  rw [h0]
  simp [plain, hop, hfunc]

/-- The ra field of MAC advances modulo 32. -/
theorem advance_ra_macWord (b : Bool) (i : Nat) :
    advance b 16 i (macWord n ra rb) = macWord n (if b then ra + BitVec.ofNat 5 i else ra) rb := by
  cases b with
  | false => rfl
  | true =>
    obtain ⟨-, -, hra, -⟩ := wf_macWord n ra rb
    have := ra.isLt; have := rb.isLt; have := n.isLt
    simp only [advance, setBits, hra, if_true, Nat.shiftRight_eq_div_pow, Nat.shiftLeft_eq]
    simp only [macWord_eq, BitVec.toNat_add, BitVec.toNat_ofNat]
    omega

/-- The rb field of MAC advances modulo 32. -/
theorem advance_rb_macWord (b : Bool) (i : Nat) :
    advance b 11 i (macWord n ra rb) = macWord n ra (if b then rb + BitVec.ofNat 5 i else rb) := by
  cases b with
  | false => rfl
  | true =>
    obtain ⟨-, -, -, hrb, -⟩ := wf_macWord n ra rb
    have := ra.isLt; have := rb.isLt; have := n.isLt
    simp only [advance, setBits, hrb, if_true, Nat.shiftRight_eq_div_pow, Nat.shiftLeft_eq]
    simp only [macWord_eq, BitVec.toNat_add, BitVec.toNat_ofNat]
    omega

/-- Repetition i of MAC is MAC of the advanced registers. -/
theorem bodyWord_macWord (advRb advRa : Bool) (i : Nat) : bodyWord advRb advRa false i (macWord n ra rb) =
    macWord n (if advRa then ra + BitVec.ofNat 5 i else ra) (if advRb then rb + BitVec.ofNat 5 i else rb) := by
  unfold bodyWord
  rw [advance_rb_macWord, advance_ra_macWord]
  rfl

/-- A word that MAC encodes to. -/
theorem eq_macWord {c : Core} {word : Nat} (h : encodeLane (.mac c n ra rb) = some (BitVec.ofNat 32 word)) (hw : word < 2 ^ 32) :
    word = macWord n ra rb := by
  have hnat : (BitVec.ofNat 32 (macWord n ra rb)).toNat = _ := congrArg BitVec.toNat (Option.some.inj h)
  rwa [BitVec.toNat_ofNat, BitVec.toNat_ofNat, Nat.mod_eq_of_lt hw, Nat.mod_eq_of_lt (macWord_lt n ra rb), eq_comm] at hnat

end
end Sys2Proof.Laws
end

section
/-! SUPPORT. What the repetitions of a multiply-accumulate body leave (R52, R54, R85). -/

namespace Sys2Proof.Laws
open Sys2Proof.Machine

/-- t follows s on engine e by repetitions of MAC: their products are summed to acc[n], 2 ec are spent for each, and besides these the
index, the old forms and Quartz alone may differ. -/
structure Summed (s t : State) (e : Nat) (n : BitVec 2) (reps : Nat) (sum : Int) : Prop where
  acc    : t.acc e n = BitVec.ofInt 64 ((s.acc e n).toInt + sum)
  accs   : ∀ k, k ≠ n → t.acc e k = s.acc e k
  engine : ∃ acc old pc, t.engine e = { s.engine e with acc := acc, old := old, pc := pc, used := (s.engine e).used + 2 * reps }
  others : ∀ e', e' ≠ e → t.engine e' = s.engine e'
  rest   : ∃ eng now, t = { s with eng := eng, now := now }

section
variable {s t u : State} {e idx : Nat} {n : BitVec 2}

theorem Summed.w {reps : Nat} {x : Int} (h : Summed s t e n reps x) (r : BitVec 5) : t.w e r = s.w e r := by
  obtain ⟨acc, old, pc, hg⟩ := h.engine
  exact (congrArg (Eng.getW · r.toNat) hg).trans rfl

theorem Summed.refl (s : State) (e : Nat) (n : BitVec 2) : Summed s s e n 0 0 where
  acc := by rw [add_zero, BitVec.ofInt_toInt]
  accs _ _ := rfl
  engine := ⟨_, _, _, rfl⟩
  others _ _ := rfl
  rest := ⟨_, _, rfl⟩

theorem Summed.trans {a b : Nat} {x y : Int} (h : Summed s t e n a x) (h' : Summed t u e n b y) :
    Summed s u e n (a + b) (x + y) where
  acc := by
    rw [h'.acc, h.acc, BitVec.ofInt_add, BitVec.ofInt_toInt, ← BitVec.ofInt_add, add_assoc]
  accs k hk := (h'.accs k hk).trans (h.accs k hk)
  engine := by
    obtain ⟨_, _, _, hg⟩ := h.engine
    obtain ⟨acc, old, pc, hg'⟩ := h'.engine
    refine ⟨acc, old, pc, hg'.trans ?_⟩
    rw [hg, Nat.mul_add, ← Nat.add_assoc]
  others e' he := (h'.others e' he).trans (h.others e' he)
  rest := by
    obtain ⟨_, _, rfl⟩ := h.rest
    obtain ⟨eng, now, rfl⟩ := h'.rest
    exact ⟨eng, now, rfl⟩

/-- The index is none of what repetitions are said to leave. -/
theorem Summed.setPc {reps : Nat} {x : Int} (h : Summed s t e n reps x) (pc : Nat) :
    Summed s (t.setEng e { t.engine e with pc := pc }) e n reps x where
  acc := (congrArg (Eng.getAcc · n.toNat) (engine_setEng ..)).trans h.acc
  accs k hk := (congrArg (Eng.getAcc · k.toNat) (engine_setEng ..)).trans (h.accs k hk)
  engine := by
    obtain ⟨acc, old, _, hg⟩ := h.engine
    rw [engine_setEng, hg]
    exact ⟨acc, old, pc, rfl⟩
  others e' he := (engine_setEng_ne _ _ he).trans (h.others e' he)
  rest := by
    obtain ⟨_, now, rfl⟩ := h.rest
    exact ⟨_, now, rfl⟩

/-- A repetition within the budget whose body goes on. -/
theorem laneOnce_seq {cnt : Nat} {cut after : State → State} {f : State → LRes}
    (hb : (s.engine e).used + cnt ≤ (s.engine e).budget) (hf : f (s.reach (s.laneFirst e + cnt - 1)) = .seq u) :
    s.laneOnce e idx cnt cut f after = (true, (after u).laneAdvance e cnt idx) := by
  unfold State.laneFirst at hf
  unfold State.laneOnce
  dsimp only
  rw [if_neg (Nat.not_lt.mpr hb), hf]

/-- A repetition that is no operation adds nothing. -/
theorem summed_idle (s : State) (e : Nat) (n : BitVec 2) (tick idx : Nat) : Summed s ((s.reach tick).laneAdvance e 2 idx) e n 1 0 where
  acc := by rw [acc_laneAdvance, add_zero, BitVec.ofInt_toInt]; rfl
  accs _ _ := acc_laneAdvance ..
  engine := ⟨_, _, _, engine_laneAdvance ..⟩
  others _ he := engine_laneAdvance_ne _ _ _ he
  rest := ⟨_, _, rfl⟩

/-- A repetition of MAC adds its product. -/
theorem summed_mac (s : State) (e : Nat) (n : BitVec 2) (ra rb : BitVec 5) (tick idx : Nat) :
    Summed s (((s.reach tick).setAcc e n (macAcc false false (s.acc e n) (s.w e ra) (s.w e rb))).laneAdvance e 2 idx) e n 1
      ((s.w e ra).toInt * (s.w e rb).toInt) where
  acc := by rw [acc_laneAdvance, acc_setAcc]; rfl
  accs k hk := (acc_laneAdvance ..).trans (acc_setAcc_ne _ _ _ hk)
  engine := by
    rw [engine_laneAdvance]
    unfold State.setAcc
    rw [engine_setEng]
    exact ⟨_, _, _, rfl⟩
  others e' he := (engine_laneAdvance_ne _ _ _ he).trans (engine_setEng_ne _ _ he)
  rest := ⟨_, _, rfl⟩

/-- The product of repetition i of MAC, 0 where it is no operation. -/
def macTerm (s : State) (e m : Nat) (ra rb : Nat → BitVec 5) (i : Nat) : Int :=
  if i < m then (s.w e (ra i)).toInt * (s.w e (rb i)).toInt else 0

variable {m : Nat} {ra rb : Nat → BitVec 5} {body : Nat → State → LRes} (cut : Nat → State → State)
  (hbody : ∀ i, body i = laneMac e n (ra i) (rb i))
include hbody

/-- A repetition within the budget adds its product. -/
theorem laneOnce_mac (i : Nat) (hb : (s.engine e).used + 2 ≤ (s.engine e).budget) :
    ∃ t, s.laneOnce e idx 2 (if i < m then cut i else id) (if i < m then body i else .seq) (if i < m then id else id) = (true, t) ∧
      Summed s t e n 1 (macTerm s e m ra rb i) := by
  by_cases hi : i < m
  · simp only [macTerm, if_pos hi]
    exact ⟨_, laneOnce_seq hb (congrFun (hbody i) _), summed_mac ..⟩
  · simp only [macTerm, if_neg hi]
    exact ⟨_, laneOnce_seq hb rfl, summed_idle ..⟩

/-- The repetitions left, within the budget, add their products. -/
theorem laneReps_mac (left i : Nat) (hb : (s.engine e).used + 2 * left ≤ (s.engine e).budget) :
    ∃ t, laneReps e idx 2 m cut body id left i s = (true, t) ∧
      Summed s t e n left ((List.range left).map (fun j => macTerm s e m ra rb (i + j))).sum := by
  induction left generalizing s i with
  | zero => exact ⟨s, rfl, .refl s e n⟩
  | succ k ih =>
    obtain ⟨u, hu, hsum⟩ := laneOnce_mac (s := s) (idx := idx) (m := m) cut hbody i (by omega)
    obtain ⟨acc, old, pc, hg⟩ := hsum.engine
    have hused : (u.engine e).used = (s.engine e).used + 2 := congrArg Eng.used hg
    have hbudget : (u.engine e).budget = (s.engine e).budget := (congrArg Eng.budget hg).trans rfl
    obtain ⟨t, ht, hrest⟩ := ih (s := u) (i + 1) (by omega)
    have hterm (j : Nat) : macTerm u e m ra rb (i + 1 + j) = macTerm s e m ra rb (i + (j + 1)) := by
      simp only [macTerm, hsum.w, Nat.add_comm j 1, Nat.add_assoc]
    refine ⟨t, ?_, ?_⟩
    · rw [laneReps, hu]
      exact ht
    · rw [List.range_succ_eq_map, List.map_cons, List.map_map, List.sum_cons, Nat.add_comm k 1]
      refine hsum.trans ?_
      simpa only [hterm, Function.comp_def, Nat.succ_eq_add_one] using hrest

end

/-- A sum whose terms from m on are 0. -/
theorem sum_range_active (f : Nat → Int) {m size : Nat} (h : m ≤ size) :
    ((List.range size).map (fun i => if i < m then f i else 0)).sum = ((List.range m).map f).sum := by
  induction size, h using Nat.le_induction with
  | base => exact congrArg List.sum (List.map_congr_left fun i hi => if_pos (List.mem_range.mp hi))
  | succ k hk ih => rw [List.range_succ, List.map_append, List.sum_append, ih, List.map_singleton, List.sum_singleton,
      if_neg (Nat.not_lt.mpr hk), add_zero]

/-- The repetitions of a MAC body within the budget, after which the task goes on (R54). -/
theorem laneRepeat_mac {s : State} {e idx m size word : Nat} {n : BitVec 2} {c : Core} {ra rb : Nat → BitVec 5}
    {decode : Nat → Option Instr} (hd : ∀ i, decode i = some (.mac c n (ra i) (rb i))) (hidx : idx ≠ 4095) (hm : m ≤ size)
    (hb : (s.engine e).used + 2 * size ≤ (s.engine e).budget) :
    ∃ t, s.laneRepeat e idx 2 m size false word decode = t ∧ (t.engine e).pc = idx + 1 ∧
      Summed s t e n size ((List.range m).map (fun i => (s.w e (ra i)).toInt * (s.w e (rb i)).toInt)).sum := by
  obtain rfl : decode = fun i => some (.mac c n (ra i) (rb i)) := funext hd
  obtain ⟨t, ht, hsum⟩ := laneReps_mac (idx := idx) (m := m) (fun _ s => s) (fun i => rfl) size 0 hb
  simp only [Nat.zero_add, macTerm] at hsum
  rw [sum_range_active _ hm] at hsum
  refine ⟨_, ?_, congrArg Eng.pc (engine_setEng (s := t) e { t.engine e with pc := idx + 1 }), hsum.setPc (idx + 1)⟩
  unfold State.laneRepeat
  dsimp only
  split
  next hreps => cases hreps.symm.trans ht
  next hreps =>
    cases hreps.symm.trans ht
    exact if_neg hidx

end Sys2Proof.Laws
end

section
/-! PROOF. REP on a lane engine over a multiply-accumulate body (R52 to R54, R58, R59, R85). -/

namespace Sys2Proof.Proofs
open Sys2Proof.Machine Sys2Proof.Laws

/-- An opcode that R53 prohibits in every body. -/
theorem repOpcode_prohibited {word : Nat} (h : word / 2 ^ 26 ∈ [0x0B, 0x0C, 0x0D, 0x0E, 0x15, 0x1A, 0x1B]) (hw : word < 2 ^ 32) :
    repOpcode false (wf 26 6 word) = true := by
  have hop : wf 26 6 word = word / 2 ^ 26 := Nat.mod_eq_of_lt (by omega)
  rw [hop]
  generalize word / 2 ^ 26 = op at h
  revert h op
  decide

/-- A ready instruction of a count is ready for a smaller one. -/
theorem LaneReady_one {s : State} {e k : Nat} (h : s.LaneReady e (1 + k)) : s.LaneReady e 1 :=
  { h with some_ := Nat.one_pos, budget := by have := h.budget; omega }

/-- REP with a MAC body within the budget repeats it, each time with its advanced registers. -/
theorem laneRep_mac {s : State} {e : Nat} {rsrc advRb advRa : Bool} {cnt ra rb : BitVec 5} {n : BitVec 2} {nm1 : BitVec 6}
    (h : s.LaneReady e (1 + 2 * (nm1.toNat + 1))) (hpc : (s.engine e).pc + 1 < 4095)
    (hf : (repState s e).laneFetch e ((s.engine e).pc + 1) = (false, macWord n ra rb, repState s e)) (hc : rsrc = false → cnt = 0) :
    let m := if rsrc then min (s.w e cnt).toNat (nm1.toNat + 1) else nm1.toNat + 1
    ∃ t, s.laneRep e rsrc advRb advRa false false cnt nm1 = t ∧ (t.engine e).pc = (s.engine e).pc + 2 ∧
      Summed (repState s e) t e n (nm1.toNat + 1) ((List.range m).map (fun i =>
        ((repState s e).w e (if advRa then ra + BitVec.ofNat 5 i else ra)).toInt *
          ((repState s e).w e (if advRb then rb + BitVec.ofNat 5 i else rb)).toInt)).sum := by
  intro m
  obtain ⟨hop, -⟩ := wf_macWord n ra rb
  have hplain : decodeLane (.lane (Fin.ofNat 512 e)) (BitVec.ofNat 32 (plain (macWord n ra rb))) =
      some (.mac (.lane (Fin.ofNat 512 e)) 0 0 0) := by
    rw [plain_macWord, decodeLane_macWord]
  have hrefused : repRefused advRb advRa false (macWord n ra rb) nm1.toNat (.mac (.lane (Fin.ofNat 512 e)) 0 0 0) = false := by
    cases advRa <;> cases advRb <;> rfl
  have hbody (i : Nat) : decodeLane (.lane (Fin.ofNat 512 e)) (BitVec.ofNat 32 (bodyWord advRb advRa false i (macWord n ra rb))) =
      some (.mac (.lane (Fin.ofNat 512 e)) n (if advRa then ra + BitVec.ofNat 5 i else ra)
        (if advRb then rb + BitVec.ofNat 5 i else rb)) := by
    rw [bodyWord_macWord, decodeLane_macWord]
  have hm : m ≤ nm1.toNat + 1 := by
    simp only [m]
    split <;> omega
  have hg : (repState s e).engine e = _ := engine_laneAdvance (s.reach (s.laneFirst e)) e 1 ((s.engine e).pc + 1)
  have hbudget : ((repState s e).engine e).used + 2 * (nm1.toNat + 1) ≤ ((repState s e).engine e).budget := by
    have := h.budget
    rw [hg]
    exact (Nat.add_assoc ..).trans_le this
  obtain ⟨t, ht, hend, hsum⟩ := laneRepeat_mac (word := macWord n ra rb) hbody hpc.ne hm hbudget
  refine ⟨t, ?_, hend, hsum⟩
  rw [laneRep_repeats (LaneReady_one h) hc hf (by rw [hop]; rfl) hplain hrefused (hbody 0) rfl]
  exact ht

/-- Settles O24: each repetition is MAC of the registers advanced to it, and the stages of REP stop or abort as R52, R53 and R58
say. -/
theorem laneRep : Obligations.LaneRep := by
  unfold Obligations.LaneRep
  intro s e rsrc advRb advRa cnt ra rb n nm1 g reps m u at_ total rep
  have hrep (advRd : Bool) : rep advRd = (s.laneRep e.val rsrc advRb advRa advRd false cnt nm1).ends := rfl
  refine ⟨fun word h hpc hf henc hw hc => ?_, fun h hr hc => ?_, fun word h hpc hf hc ho hw => ?_, fun word h hpc hc hb v hf => ?_⟩
  · obtain rfl := eq_macWord n ra rb henc hw
    obtain ⟨t, ht, hend, hsum⟩ := laneRep_mac (advRb := advRb) (advRa := advRa) h hpc hf hc
    obtain ⟨acc, old, pc, hg⟩ := hsum.engine
    obtain ⟨eng, now, hrest⟩ := hsum.rest
    have hstart : (repState s e.val).engine e.val = _ :=
      engine_laneAdvance (s.reach (s.laneFirst e.val)) e.val 1 ((s.engine e.val).pc + 1)
    have hquiet : t.Quiet := by
      rw [hrest]
      exact h.quiet
    have hw (r : BitVec 5) : (repState s e.val).w e.val r = s.w e.val r := w_laneAdvance ..
    have hacc (k : BitVec 2) : (repState s e.val).acc e.val k = s.acc e.val k := acc_laneAdvance ..
    have hused : (t.engine e.val).used = ((repState s e.val).engine e.val).used + 2 * reps := congrArg Eng.used hg
    refine ⟨t, ?_, ?_, fun k hk => (hsum.accs k hk).trans (hacc k), fun r => (hsum.w r).trans (hw r), hend, ?_, fun e' he => ?_, ?_, ?_⟩
    · rw [hrep, ht]
      exact congrArg Host.Outcome.next (finish_of_quiet hquiet)
    · have hsum' := hsum.acc
      simp only [hw, hacc] at hsum'
      exact hsum'
    · rw [hused, hstart]
      rfl
    · exact (hsum.others e' he).trans (engine_laneAdvance_ne _ _ _ he)
    · rw [hrest]; rfl
    · rw [hrest]; rfl
  · have ha := congrArg State.ends (laneRep_counted h (advRb := advRb) (advRa := advRa) (advRd := false) (nm1 := nm1) hr hc)
    exact ⟨ha, congrArg State.ends (laneRep_counted h hr hc)⟩
  · exact congrArg State.ends (laneRep_prohibited h hc hf (repOpcode_prohibited ho hw))
  · exact congrArg State.ends (laneRep_late h hc hf (by have : (s.engine e.val).budget = (s.engine e.val).used + 1 := hb; omega))

end Sys2Proof.Proofs
end

section
/-! SUPPORT. The task inputs captured at the start of a task (R118 to R120, R123). -/

namespace Sys2Proof.Laws
open Sys2Proof.Machine

/-- What holds of each index at its own round, and stays at every other one. -/
theorem repeatN_at {σ : Type} {before after : Nat → σ → Prop} {n : Nat} {f : Nat → σ → σ}
    (hat : ∀ i < n, ∀ s, before i s → after i (f i s))
    (hbefore : ∀ i < n, ∀ k < n, i ≠ k → ∀ s, before i s → before i (f k s))
    (hafter : ∀ i < n, ∀ k < n, i ≠ k → ∀ s, after i s → after i (f k s)) {s : σ} (h : ∀ i < n, before i s) :
    ∀ i < n, after i (repeatN n f s) := by
  have hstep : ∀ k ≤ n, ∀ i < n, (i < k → after i (repeatN k f s)) ∧ (k ≤ i → before i (repeatN k f s)) := by
    intro k
    induction k with
    | zero => exact fun _ i hi => ⟨fun hk => absurd hk (Nat.not_lt_zero i), fun _ => h i hi⟩
    | succ k ih =>
      intro hk i hi
      have hsucc : repeatN (k + 1) f s = f k (repeatN k f s) := by
        simp [repeatN, List.range_succ]
      obtain ⟨hlt, hle⟩ := ih (by omega) i hi
      rw [hsucc]
      refine ⟨fun hik => ?_, fun hik => hbefore i hi k hk (by omega) _ (hle (by omega))⟩
      rcases Nat.lt_or_eq_of_le (Nat.lt_succ_iff.mp hik) with hlt' | rfl
      · exact hafter i hi k hk (by omega) _ (hlt hlt')
      · exact hat i hi _ (hle le_rfl)
  exact fun i hi => (hstep n le_rfl i hi).1 hi

/-- Bytes written change memory alone. -/
theorem setBytes_mem (l : List Byte) : ∀ (s : State) (a : Nat), ∃ mem, s.setBytes a l = { s with mem := mem } := by
  induction l with
  | nil => exact fun _ _ => ⟨_, rfl⟩
  | cons x l ih =>
    intro s a
    obtain ⟨mem, h⟩ := ih (s.setByte a x) (a + 1)
    exact ⟨mem, h⟩

/-- What is read of memory follows from memory. -/
theorem peek_of_mem {s t : State} (h : t.mem = s.mem) (a n : Nat) : t.peek a n = s.peek a n := by
  unfold State.peek State.bytes State.byte
  rw [h]

/-- The events of ec t that have reached a task input, and the lowest of their channels (R123). -/
def inputEvents (s : State) (b e t n : Nat) : Nat × Nat :=
  match Tab.look (fun _ => none) s.tinEc (tinKey b e n) with
  | some r => if r.at_ = t then (r.count, r.chan) else (0, 0)
  | none => (0, 0)

/-- The snapshot of a task input taken in ec t (R120). -/
def inputSnap (s : State) (b e t n : Nat) : Nat :=
  (s.inputBefore b e n t).1 % 2 ^ 18 +
    (if bits 2 0 (s.inputBefore b e n t).1 = 0 then 0 else min (t - (s.inputBefore b e n t).2) 0x3FFF) * 2 ^ 18

/-- A task input once it is captured and cleared in ec t: it counts the events of that ec (R123). -/
def inputCleared (s : State) (b e t n : Nat) : Nat :=
  if (inputEvents s b e t n).1 = 0 then 0 else inputWord 0 (inputEvents s b e t n).1 (inputEvents s b e t n).2

/-- Task input n captured in ec t and cleared. -/
def captureInput (b e t n : Nat) (s : State) : State :=
  (s.poke (tinAddr b e n + 0x20) 4 (inputSnap s b e t n)).putInput b e n 0 0 (inputEvents s b e t n).1 (inputEvents s b e t n).2 t

theorem captureInputs_eq (s : State) (b e t : Nat) : s.captureInputs b e t = repeatN 8 (captureInput b e t) s := rfl

/-- t holds a task input and its snapshot as s does. -/
structure InputKept (s t : State) (b e n : Nat) : Prop where
  ec    : Tab.look (fun _ => none) t.tinEc (tinKey b e n) = Tab.look (fun _ => none) s.tinEc (tinKey b e n)
  first : Tab.look (fun _ => 0) t.tinAt (tinKey b e n) = Tab.look (fun _ => 0) s.tinAt (tinKey b e n)
  word  : t.peek (tinAddr b e n) 4 = s.peek (tinAddr b e n) 4
  snap  : t.peek (tinAddr b e n + 0x20) 4 = s.peek (tinAddr b e n + 0x20) 4

/-- t holds the snapshot of a task input of s, and the input cleared, in ec t. -/
structure InputCaptured (s u : State) (b e t n : Nat) : Prop where
  word : u.peek (tinAddr b e n) 4 = inputCleared s b e t n % 2 ^ 32
  snap : u.peek (tinAddr b e n + 0x20) 4 = inputSnap s b e t n % 2 ^ 32

section
variable {s u v : State} {b e t n k : Nat}

theorem InputKept.refl (s : State) (b e n : Nat) : InputKept s s b e n := ⟨rfl, rfl, rfl, rfl⟩

theorem InputKept.trans (h : InputKept s u b e n) (h' : InputKept u v b e n) : InputKept s v b e n :=
  ⟨h'.ec.trans h.ec, h'.first.trans h.first, h'.word.trans h.word, h'.snap.trans h.snap⟩

theorem InputKept.inputBefore (h : InputKept s u b e n) : u.inputBefore b e n t = s.inputBefore b e n t := by
  unfold State.inputBefore
  rw [h.ec, h.first, h.word]

theorem InputKept.inputEvents (h : InputKept s u b e n) : inputEvents u b e t n = inputEvents s b e t n := by
  unfold Laws.inputEvents
  rw [h.ec]

/-- What a capture writes to a task input follows from what the input was. -/
theorem InputKept.captured (h : InputKept s u b e n) (h' : InputCaptured u v b e t n) : InputCaptured s v b e t n where
  word := h'.word.trans (by unfold inputCleared; rw [h.inputEvents])
  snap := h'.snap.trans (by unfold inputSnap; rw [h.inputBefore])

theorem InputCaptured.kept (h : InputCaptured s u b e t n) (h' : InputKept u v b e n) : InputCaptured s v b e t n :=
  ⟨h'.word.trans h.word, h'.snap.trans h.snap⟩

/-- The first tick and the events that a capture leaves known of its own task input. -/
theorem captureInput_tables (s : State) (b e t n : Nat) :
    (captureInput b e t n s).tinAt =
        Tab.put (fun _ => 0) s.tinAt (tinKey b e n) (if bits 2 0 0 = 0 ∧ (inputEvents s b e t n).1 ≠ 0 then t else 0) ∧
      (captureInput b e t n s).tinEc = Tab.put (fun _ => none) s.tinEc (tinKey b e n)
        (some ⟨t, 0, 0, (inputEvents s b e t n).1, (inputEvents s b e t n).2⟩) := by
  have hat (s : State) (a v : Nat) : (s.poke a 4 v).tinAt = s.tinAt := setBytes_keeps (fun _ _ _ => rfl) ..
  have hec (s : State) (a v : Nat) : (s.poke a 4 v).tinEc = s.tinEc := setBytes_keeps (fun _ _ _ => rfl) ..
  constructor
  · rw [← hat s (tinAddr b e n + 0x20) (inputSnap s b e t n)]
    rfl
  · rw [← hec s (tinAddr b e n + 0x20) (inputSnap s b e t n)]
    rfl

/-- The memory that a capture leaves. -/
theorem peek_captureInput (s : State) (b e t n a m : Nat) : (captureInput b e t n s).peek a m =
    ((s.poke (tinAddr b e n + 0x20) 4 (inputSnap s b e t n)).poke (tinAddr b e n) 4 (inputCleared s b e t n)).peek a m :=
  peek_of_mem (by unfold captureInput State.putInput inputCleared; rfl) a m

/-- A capture leaves every other task input of the engine. -/
theorem captureInput_keeps (hn : n < 8) (hk : k < 8) (hne : n ≠ k) : InputKept s (captureInput b e t k s) b e n := by
  have hkey : tinKey b e n ≠ tinKey b e k := by unfold tinKey; omega
  have hword : tinAddr b e n + 4 ≤ tinAddr b e k ∨ tinAddr b e k + 4 ≤ tinAddr b e n := by unfold tinAddr; omega
  have hsnap (i j : Nat) (hi : i < 8) (hj : j < 8) : tinAddr b e i + 4 ≤ tinAddr b e j + 0x20 := by unfold tinAddr; omega
  obtain ⟨hfirst, hr⟩ := captureInput_tables s b e t k
  refine ⟨?_, ?_, ?_, ?_⟩
  · rw [hr, Tab_look_put_ne _ _ _ hkey]
  · rw [hfirst, Tab_look_put_ne _ _ _ hkey]
  · rw [peek_captureInput, peek_poke_apart _ _ hword, peek_poke_apart _ _ (.inl (hsnap n k hn hk))]
  · rw [peek_captureInput, peek_poke_apart _ _ (.inr (hsnap k n hk hn)), peek_poke_apart _ _ (by omega)]

/-- A capture takes the snapshot of its task input and clears the input. -/
theorem captureInput_captures : InputCaptured s (captureInput b e t n s) b e t n where
  word := by rw [peek_captureInput, peek_poke_same]
  snap := by rw [peek_captureInput, peek_poke_apart _ _ (.inr (by unfold tinAddr; omega)), peek_poke_same]

/-- Every task input of an engine is captured. -/
theorem captureInputs_captures (hn : n < 8) : InputCaptured s (s.captureInputs b e t) b e t n := by
  rw [captureInputs_eq]
  refine repeatN_at (before := fun n u => InputKept s u b e n) (after := fun n u => InputCaptured s u b e t n)
    (fun n _ u h => h.captured captureInput_captures)
    (fun n hn k hk hne u h => h.trans (captureInput_keeps hn hk hne))
    (fun n hn k hk hne u h => h.kept (captureInput_keeps hn hk hne)) (fun n _ => InputKept.refl s b e n) n hn

/-- A capture changes memory and what is known of the task inputs, and nothing else. -/
theorem captureInputs_rest (s : State) (b e t : Nat) :
    ∃ mem tinAt tinEc, s.captureInputs b e t = { s with mem := mem, tinAt := tinAt, tinEc := tinEc } := by
  rw [captureInputs_eq]
  refine repeatN_inv (fun u => ∃ mem tinAt tinEc, u = { s with mem := mem, tinAt := tinAt, tinEc := tinEc }) _ _ ?_ s ⟨_, _, _, rfl⟩
  rintro k u ⟨mem, tinAt, tinEc, hu⟩
  obtain ⟨mem', h⟩ := setBytes_mem (leBytes 4 (inputSnap u b e t k)) u (tinAddr b e k + 0x20)
  obtain ⟨mem'', h'⟩ := setBytes_mem (leBytes 4 (inputCleared u b e t k)) { u with mem := mem' } (tinAddr b e k)
  unfold captureInput State.putInput State.poke
  unfold inputCleared at h'
  rw [h, h', hu]
  exact ⟨_, _, _, rfl⟩

/-- A snapshot has 32 bits. -/
theorem inputSnap_lt (s : State) (b e t n : Nat) : inputSnap s b e t n < 2 ^ 32 := by
  have hword : (s.inputBefore b e n t).1 % 2 ^ 18 < 2 ^ 18 := Nat.mod_lt _ (by decide)
  unfold inputSnap
  split <;> omega

/-- The count of a cleared task input (R123). -/
theorem inputCleared_count (s : State) (b e t n : Nat) : inputCleared s b e t n % 8 = min 7 (inputEvents s b e t n).1 := by
  unfold inputCleared
  split
  next h => rw [h]; rfl
  next h =>
    simp only [inputWord, show bits 2 0 0 = 0 from rfl, Nat.zero_add, if_true]
    omega

end

end Sys2Proof.Laws
end

section
/-! SUPPORT. Wake leads, starts and budget stops of tasks (R58, R88, R117, R118, R121, R126, R130). -/

namespace Sys2Proof.Laws
open Sys2Proof.Machine

variable {s : State}

/-- Only a peripheral-setup entry is passed over, and only after frame 0 (R124). -/
theorem setup_not_passed {x f : Nat} (h : slotPsetup x = true → f = 0) : (slotPsetup x && f != 0) = false := by
  cases hx : slotPsetup x with
  | false => rfl
  | true => rw [h hx]; rfl

/-! The wake lead (R35, R117). -/

section
variable {b e entry start : Nat}

/-- The engine that a wake lead leaves: its start state (R35). -/
theorem engine_wakeEngine : ∃ caps, (s.wakeEngine b e entry start).engine e =
      { s.engine e with
        w := Tab.put (fun _ => 0) [] 0 (BitVec.ofNat 32 start), acc := [], stack := [], cap := caps, pc := entry, old := [], woken := true } ∧
    ∀ k < 8, Tab.look (fun _ => Cap.none) caps k = s.bankCap b e k := by
  refine ⟨_, engine_setEng .., ?_⟩
  exact repeatN_at (before := fun _ _ => True) (after := fun k t => Tab.look (fun _ => Cap.none) t k = s.bankCap b e k)
    (fun k _ t _ => Tab_look_put_same ..) (fun _ _ _ _ _ _ _ => trivial)
    (fun i _ k _ hne t h => (Tab_look_put_ne _ _ _ hne).trans h) (fun _ _ => trivial)

/-- The wake lead of an entry that starts one engine, in a bank that runs and none is to follow. -/
theorem wakeLead_wakes {sq idx f : Nat} (hp : s.sched.pend = .none) (hon : s.bankOn = true) (ha : s.alive (sqDom sq) = true)
    (hr : s.slotReached s.bank sq idx = true) (hf : slotPsetup (s.slot s.bank sq idx) = true → f = 0) (hh : s.sqHold sq = false)
    (hd : slotDup (s.slot s.bank sq idx) = false) (hi : (s.engine (8 * sq + slotEngine (s.slot s.bank sq idx))).running = false)
    (he : s.sched.origin + (f * s.frameLen s.bank + slotStart (s.slot s.bank sq idx)) * 64 = start) (h4 : 4 ≤ start) :
    s.wakeLead sq idx f = (s.reach (start - 4)).wakeEngine s.bank (8 * sq + slotEngine (s.slot s.bank sq idx))
      (slotEntry (s.slot s.bank sq idx)) start := by
  have hfirst := setup_not_passed hf
  have hlt : ¬ start < 4 := Nat.not_lt.mpr h4
  unfold State.wakeLead State.wakeBank
  simp only [hp, hon, if_true, slotEngines, hd, ha, hr, hfirst, hh, he, hlt, List.any_cons, List.any_nil, hi, Bool.not_true, Bool.or_self,
    Bool.false_eq_true, if_false, decide_false, List.foldl_cons, List.foldl_nil]

end

/-! The start of a task (R118, R130). -/

/-- The first ec of the start slot of an entry of the active bank (R118). -/
def startEc (s : State) (sq idx f : Nat) : Nat := s.sched.origin + (f * s.frameLen s.bank + slotStart (s.slot s.bank sq idx)) * 64

/-- The start of an entry is due and its engines wait for it. -/
structure StartDue (s : State) (sq idx f : Nat) : Prop where
  on      : s.bankOn = true
  run     : s.inRun = true
  alive   : s.alive (sqDom sq) = true
  reached : s.slotReached s.bank sq idx = true
  setup   : slotPsetup (s.slot s.bank sq idx) = true → f = 0
  waits   : ∀ e ∈ slotEngines sq (s.slot s.bank sq idx), (s.engine e).woken = true ∧ (s.engine e).running = false

section
variable {sq idx f : Nat} (h : StartDue s sq idx f)
include h

theorem StartDue.not_passed : (slotPsetup (s.slot s.bank sq idx) && f != 0) = false := setup_not_passed h.setup

theorem StartDue.all_wait :
    (slotEngines sq (s.slot s.bank sq idx)).any (fun e => !(s.engine e).woken || (s.engine e).running) = false :=
  List.any_eq_false.mpr fun e he => by
    obtain ⟨hw, hr⟩ := h.waits e he
    simp [hw, hr]

/-- A due start is judged by its square, its engines and its gating input, in this order. -/
theorem taskStart_due : s.taskStart sq idx f =
    let x := s.slot s.bank sq idx
    let es := slotEngines sq x
    let u := s.reach (startEc s sq idx f)
    if s.sqHold sq then u.sleepEngines es
    else if s.missed s.bank sq idx es then
      ((u.bump F.SQ_SLOTSTAT_MISSED F.SQ_SLOTSTAT_MISSSAT sq).raiseEv (sqDom sq) 5 sq).sleepEngines es
    else if slotEvg x && bits 2 0 (s.inputBefore s.bank (8 * sq + slotEngine x) (slotGate x) (startEc s sq idx f)).1 == 0 then
      (u.bump F.SQ_SLOTSTAT_SKIPPED F.SQ_SLOTSTAT_SKIPSAT sq).sleepEngines es
    else if slotDup x then
      (u.startTask s.bank idx x (startEc s sq idx f) (8 * sq + slotEngine x) (.engine (8 * sq + slotPartner x))).startTask s.bank idx x
        (startEc s sq idx f) (8 * sq + slotPartner x) (.partner (8 * sq + slotEngine x))
    else u.startTask s.bank idx x (startEc s sq idx f) (8 * sq + slotEngine x) .single := by
  unfold State.taskStart
  simp only [h.on, h.run, h.alive, h.reached, h.not_passed, h.all_wait, Bool.not_true, Bool.or_self, Bool.false_eq_true, if_false]
  rfl

/-- A start in a square in SAFE HOLD closes its clocks. -/
theorem taskStart_held (hh : s.sqHold sq = true) :
    s.taskStart sq idx f = (s.reach (startEc s sq idx f)).sleepEngines (slotEngines sq (s.slot s.bank sq idx)) :=
  (taskStart_due h).trans (if_pos hh)

section
variable (hh : s.sqHold sq = false)
include hh

/-- A start that cannot run is missed. -/
theorem taskStart_missed (hm : s.missed s.bank sq idx (slotEngines sq (s.slot s.bank sq idx)) = true) :
    s.taskStart sq idx f = (((s.reach (startEc s sq idx f)).bump F.SQ_SLOTSTAT_MISSED F.SQ_SLOTSTAT_MISSSAT sq).raiseEv (sqDom sq) 5 sq).sleepEngines
      (slotEngines sq (s.slot s.bank sq idx)) := by
  rw [taskStart_due h]
  simp only [hh, hm, Bool.false_eq_true, if_false, if_true]

variable (hm : s.missed s.bank sq idx (slotEngines sq (s.slot s.bank sq idx)) = false)
include hm

/-- A start whose gating input has had no event is skipped. -/
theorem taskStart_skipped (hg : (slotEvg (s.slot s.bank sq idx) &&
      bits 2 0 (s.inputBefore s.bank (8 * sq + slotEngine (s.slot s.bank sq idx)) (slotGate (s.slot s.bank sq idx)) (startEc s sq idx f)).1 == 0) = true) :
    s.taskStart sq idx f = ((s.reach (startEc s sq idx f)).bump F.SQ_SLOTSTAT_SKIPPED F.SQ_SLOTSTAT_SKIPSAT sq).sleepEngines
      (slotEngines sq (s.slot s.bank sq idx)) := by
  rw [taskStart_due h]
  simp only [hh, hm, hg, Bool.false_eq_true, if_false, if_true]

variable (hg : (slotEvg (s.slot s.bank sq idx) &&
      bits 2 0 (s.inputBefore s.bank (8 * sq + slotEngine (s.slot s.bank sq idx)) (slotGate (s.slot s.bank sq idx)) (startEc s sq idx f)).1 == 0) = false)
include hg

/-- Any other start runs its task on its engines. -/
theorem taskStart_starts : s.taskStart sq idx f =
    let x := s.slot s.bank sq idx
    let start := startEc s sq idx f
    if slotDup x then
      ((s.reach start).startTask s.bank idx x start (8 * sq + slotEngine x) (.engine (8 * sq + slotPartner x))).startTask s.bank idx x start
        (8 * sq + slotPartner x) (.partner (8 * sq + slotEngine x))
    else (s.reach start).startTask s.bank idx x start (8 * sq + slotEngine x) .single := by
  rw [taskStart_due h]
  simp only [hh, hm, hg, Bool.false_eq_true, if_false]

end
end

/-- Whether a start on one engine is missed (R130). -/
theorem missed_single {b sq idx e : Nat} : s.missed b sq idx [e] = false ↔
    s.stale sq = false ∧ s.serving e = true ∧ (s.chkAt (slotAddr b sq idx)).bad = false := by
  simp [State.missed, and_assoc]

/-- Whether a start on two engines is missed (R126, R130). -/
theorem missed_pair {b sq idx e p : Nat} : s.missed b sq idx [e, p] = false ↔
    s.stale sq = false ∧ (s.serving e = true ∧ s.serving p = true) ∧ (s.chkAt (slotAddr b sq idx)).bad = false := by
  simp [State.missed, and_assoc]

/-- An engine whose task starts (R118). -/
def startedEng (g : Eng) (idx x start : Nat) (role : DupRole) : Eng :=
  { g with
    running := true, slot := idx, start := start, used := 0, budget := slotBudget x, role := role, compared := role == .single, hold := [],
    overflow := false, sig := 0xFFFFFFFF#32, latch := none, before := if g.ran then some g.start else none, ran := true }

section
variable (b idx x start e : Nat) (role : DupRole)

theorem engine_captureInputs (k : Nat) : (s.captureInputs b e start).engine k = s.engine k := by
  obtain ⟨mem, tinAt, tinEc, h⟩ := captureInputs_rest s b e start
  rw [h]
  rfl

theorem engine_startTask : (s.startTask b idx x start e role).engine e = startedEng (s.engine e) idx x start role := by
  unfold State.startTask
  dsimp only
  rw [engine_setEng, engine_captureInputs]
  rfl

theorem engine_startTask_ne {k : Nat} (hk : k ≠ e) : (s.startTask b idx x start e role).engine k = s.engine k :=
  (engine_setEng_ne _ _ hk).trans (engine_captureInputs ..)

/-- The start of a task changes its engine, memory and what is known of the task inputs. -/
theorem startTask_rest : ∃ mem tinAt tinEc eng,
    s.startTask b idx x start e role = { s with mem := mem, tinAt := tinAt, tinEc := tinEc, eng := eng } := by
  obtain ⟨mem, tinAt, tinEc, h⟩ := captureInputs_rest s b e start
  unfold State.startTask
  rw [h]
  exact ⟨_, _, _, _, rfl⟩

/-- The task inputs that the start of a task leaves. -/
theorem startTask_captures {n : Nat} (hn : n < 8) : InputCaptured s (s.startTask b idx x start e role) b e start n := by
  have hmem : (s.startTask b idx x start e role).mem = (s.captureInputs b e start).mem := by
    unfold State.startTask
    exact setEng_mem ..
  obtain ⟨hword, hsnap⟩ := captureInputs_captures (s := s) (b := b) (e := e) (t := start) hn
  exact ⟨(peek_of_mem hmem ..).trans hword, (peek_of_mem hmem ..).trans hsnap⟩

end

/-! Budget stops (R58). -/

@[simp] theorem recordAbort_fltWas (s : State) (e cause pc tick : Nat) : (s.recordAbort e cause pc tick).fltWas = s.fltWas := by
  cases h : s.flag F.SQ_ABORT_VALID (e / 8) with
  | true => rw [recordAbort_counts _ _ _ h, bump_fltWas]
  | false => rw [recordAbort_fills _ _ _ h, setPair_fltWas, setRegN_fltWas]

/-- A source that is not routed asserts on no net (R240). -/
theorem fltAssert_unrouted {src t : Nat} (h : s.flag F.FLT_SRCE_EN src = false) (hw : Tab.look (fun _ => none) s.fltWas src = none) :
    s.fltAssert src t = s := by
  have hen : (bits 0 0 (s.regN .FLT_SRCE src) == 1) = false := h
  have hbit : bit 0 (s.regN .FLT_SRCE src) = false := by
    simpa [bits, bit, Nat.testBit_zero] using hen
  have hroute (t : Nat) : s.srcRoute src t = none := by
    unfold State.srcRoute State.fltSet
    simp [hw, hbit]
  have hfresh : s.fltFresh src t = false := by
    unfold State.fltFresh
    rw [hw]
  unfold State.fltAssert
  simp only [hroute, hfresh, Bool.false_and, Bool.false_eq_true, ite_self]

end Sys2Proof.Laws
end

section
/-! PROOF. Wake leads, starts and budget stops of tasks (R18, R35, R58, R88, R117, R118, R120, R123, R126, R130). -/

namespace Sys2Proof.Proofs
open Sys2Proof.Machine Sys2Proof.Laws

/-- A command of the engine clock that leaves nothing to be acted on. -/
theorem finish_clocked {s t : State} (hk : s.engClock = true) (hq : t.Quiet) : (s.clocked t).finish = t := by
  rw [clocked_runs hk, finish_of_quiet hq]

/-- While the engine clock stands such a command does nothing. -/
theorem finish_idle {s : State} (hk : s.engClock = false) (hq : s.Quiet) (t : State) : (s.clocked t).finish = s := by
  rw [clocked_stands hk, finish_of_quiet hq]

/-- A budget stop of a single task whose Flint source is not routed. -/
theorem budgetStop_unrouted {s : State} {e pc : Nat} (he : e < 512) (hr : (s.engine e).role = .single)
    (hen : s.flag F.FLT_SRCE_EN (320 + e / 8) = false) (hw : Tab.look (fun _ => none) s.fltWas (320 + e / 8) = none) :
    let t := (s.engine e).start + (s.engine e).budget
    s.budgetStop e pc = ((((s.reach t).recordAbort e 9 pc t).bump F.SQ_SLOTSTAT_OVERRUN F.SQ_SLOTSTAT_OVRSAT (e / 8)).raiseEv
      (sqDom (e / 8)) 4 (e / 8)).setEng e { s.engine e with running := false, woken := false } := by
  intro t
  have hsrc : 320 + e / 8 < 65536 := by omega
  generalize hu : (((s.reach t).recordAbort e 9 pc t).bump F.SQ_SLOTSTAT_OVERRUN F.SQ_SLOTSTAT_OVRSAT (e / 8)).raiseEv (sqDom (e / 8)) 4 (e / 8) = u
  have hreg : u.reg .FLT_SRCE (320 + e / 8) = s.reg .FLT_SRCE (320 + e / 8) := by
    rw [← hu, raiseEv_reg_read, reg_bump_ne (by decide) (by decide) (by omega) hsrc, reg_recordAbort_ne _ _ _ (by decide) he hsrc]
    rfl
  have hen' : u.flag F.FLT_SRCE_EN (320 + e / 8) = false := by
    unfold State.flag State.fld State.regN at hen ⊢
    rw [show F.FLT_SRCE_EN.reg = .FLT_SRCE from rfl] at hen ⊢
    rw [hreg, hen]
  have hwas : u.fltWas = s.fltWas := by
    rw [← hu, raiseEv_fltWas, bump_fltWas, recordAbort_fltWas]
    rfl
  have hg : u.engine e = s.engine e := by
    rw [← hu, raiseEv_engine_read, bump_engine_read, engine_recordAbort]
    rfl
  have hpulse : u.fltPulse (320 + e / 8) = u := fltAssert_unrouted hen' (by rw [hwas, hw])
  unfold State.budgetStop
  dsimp only
  rw [hu, hpulse, hg]
  unfold Eng.endTask
  rw [if_pos hr]

/-- The low three bits of a number. -/
theorem bits_two_zero (n : Nat) : bits 2 0 n = n % 8 := rfl

section
variable {s : State} {sq idx f : Nat} (hq : s.Quiet) (hk : s.engClock = true)
  (hd : slotDup (s.slot s.bank sq idx) = false)
include hq hk hd

/-- A due wake lead loads the start state of its engine (R35, R117). -/
theorem wake_loads (hp : s.sched.pend = .none) (hon : s.bankOn = true) (ha : s.alive (sqDom sq) = true)
    (hr : s.slotReached s.bank sq idx = true) (hf : slotPsetup (s.slot s.bank sq idx) = true → f = 0) (hh : s.sqHold sq = false)
    (hi : (s.engine (8 * sq + slotEngine (s.slot s.bank sq idx))).running = false) (h4 : 4 ≤ startEc s sq idx f) :
    let x := s.slot s.bank sq idx
    let e := 8 * sq + slotEngine x
    let g := s.engine e
    let start := startEc s sq idx f
    let t := (s.clocked (s.wakeLead sq idx f)).finish
    t.now = (s.reach (start - 4)).now ∧ (t.engine e).pc = slotEntry x ∧ (t.engine e).woken = true ∧
      (t.engine e).stack = [] ∧ t.w e 0 = BitVec.ofNat 32 start ∧ (∀ r, r ≠ 0 → t.w e r = 0) ∧ (∀ n, t.acc e n = 0) ∧
      (∀ k < 8, (t.engine e).getCap k = s.bankCap s.bank e k) ∧ (t.engine e).local_ = g.local_ ∧ (t.engine e).shared = g.shared ∧
      (∀ e', e' ≠ e → t.engine e' = s.engine e') ∧ t.mem = s.mem ∧ t.regs = s.regs := by
  intro x e g start t
  have ht : t = (s.reach (start - 4)).wakeEngine s.bank e (slotEntry x) start := by
    have hwake := wakeLead_wakes hp hon ha hr hf hh hd hi rfl h4
    have hquiet : (s.wakeLead sq idx f).Quiet := by
      rw [hwake]
      exact hq
    exact (finish_clocked hk hquiet).trans hwake
  obtain ⟨caps, hg, hcaps⟩ := engine_wakeEngine (s := s.reach (start - 4)) (b := s.bank) (e := e) (entry := slotEntry x) (start := start)
  rw [← ht] at hg
  have hw (r : BitVec 5) : t.w e r = Tab.look (fun _ => 0) (Tab.put (fun _ => 0) [] 0 (BitVec.ofNat 32 start)) r.toNat := by
    unfold State.w Eng.getW
    rw [hg]
  have hacc (n : BitVec 2) : t.acc e n = 0 := by
    unfold State.acc Eng.getAcc
    rw [hg]
    rfl
  have hcap (k : Nat) (hk : k < 8) : (t.engine e).getCap k = s.bankCap s.bank e k := by
    unfold Eng.getCap
    rw [hg]
    exact hcaps k hk
  refine ⟨by rw [ht]; rfl, by rw [hg], by rw [hg], by rw [hg], ?_, fun r hne => ?_, hacc, hcap, by rw [hg]; rfl, by rw [hg]; rfl,
    fun e' he => ?_, by rw [ht]; rfl, by rw [ht]; rfl⟩
  · exact (hw 0).trans (Tab_look_put_same ..)
  · exact (hw r).trans (Tab_look_put_ne _ _ _ fun h0 => hne (BitVec.eq_of_toNat_eq h0))
  · rw [ht]
    exact engine_setEng_ne _ _ he

end

/-- A gated start waits for an event of its input. -/
theorem gated_iff {x n : Nat} : (slotEvg x && bits 2 0 n == 0) = true ↔ slotEvg x = true ∧ n % 8 = 0 := by
  rw [bits_two_zero]
  simp

theorem slotEngines_single {sq x : Nat} (hd : slotDup x = false) : slotEngines sq x = [8 * sq + slotEngine x] := by
  simp [slotEngines, hd]

theorem slotEngines_pair {sq x : Nat} (hd : slotDup x = true) : slotEngines sq x = [8 * sq + slotEngine x, 8 * sq + slotPartner x] := by
  simp [slotEngines, hd]

section
variable {s : State} {sq idx f : Nat} (h : StartDue s sq idx f) (hq : s.Quiet) (hk : s.engClock = true) (hh : s.sqHold sq = false)
  (hm : s.missed s.bank sq idx (slotEngines sq (s.slot s.bank sq idx)) = false)
  (hg : ¬ (slotEvg (s.slot s.bank sq idx) = true ∧ (s.inputBefore s.bank (8 * sq + slotEngine (s.slot s.bank sq idx))
    (slotGate (s.slot s.bank sq idx)) (startEc s sq idx f)).1 % 8 = 0))
include h hq hk hh hm hg

/-- A due start of one engine runs the task, its inputs captured as they stood before any event of its ec (R118, R120, R123). -/
theorem start_runs (hd : slotDup (s.slot s.bank sq idx) = false) :
    let x := s.slot s.bank sq idx
    let e := 8 * sq + slotEngine x
    let start := startEc s sq idx f
    let t := (s.clocked (s.taskStart sq idx f)).finish
    t.now = (s.reach start).now ∧ t.engine e = startedEng (s.engine e) idx x start .single ∧
      (∀ n < 8, InputCaptured s t s.bank e start n) ∧ (∀ e', e' ≠ e → t.engine e' = s.engine e') ∧ t.regs = s.regs ∧ t.chk = s.chk := by
  intro x e start t
  have hstarts := taskStart_starts h hh hm (Bool.eq_false_iff.mpr (mt gated_iff.mp hg))
  simp only [hd, Bool.false_eq_true, if_false] at hstarts
  obtain ⟨mem, tinAt, tinEc, eng, hrest⟩ := startTask_rest (s := s.reach start) s.bank idx x start e .single
  have ht : t = (s.reach start).startTask s.bank idx x start e .single := by
    refine (finish_clocked hk ?_).trans hstarts
    rw [hstarts, hrest]
    exact hq
  refine ⟨by rw [ht, hrest], ?_, fun n hn => ?_, fun e' he => ?_, by rw [ht, hrest]; rfl, by rw [ht, hrest]; rfl⟩
  · rw [ht]
    exact engine_startTask ..
  · have hcap := startTask_captures (s := s.reach start) s.bank idx x start e .single hn
    rw [ht]
    exact ⟨hcap.word, hcap.snap⟩
  · rw [ht]
    exact engine_startTask_ne _ _ _ _ _ _ he

/-- A due start of a duplicated task runs it on both engines (R126). -/
theorem start_runs_both (hd : slotDup (s.slot s.bank sq idx) = true)
    (hne : 8 * sq + slotEngine (s.slot s.bank sq idx) ≠ 8 * sq + slotPartner (s.slot s.bank sq idx)) :
    let x := s.slot s.bank sq idx
    let e := 8 * sq + slotEngine x
    let p := 8 * sq + slotPartner x
    let start := startEc s sq idx f
    let t := (s.clocked (s.taskStart sq idx f)).finish
    t.engine e = startedEng (s.engine e) idx x start (.engine p) ∧ t.engine p = startedEng (s.engine p) idx x start (.partner e) := by
  intro x e p start t
  have hstarts := taskStart_starts h hh hm (Bool.eq_false_iff.mpr (mt gated_iff.mp hg))
  simp only [hd, if_true] at hstarts
  obtain ⟨_, _, _, _, hfirst⟩ := startTask_rest (s := s.reach start) s.bank idx x start e (.engine p)
  obtain ⟨_, _, _, _, hsecond⟩ :=
    startTask_rest (s := (s.reach start).startTask s.bank idx x start e (.engine p)) s.bank idx x start p (.partner e)
  have ht : t = ((s.reach start).startTask s.bank idx x start e (.engine p)).startTask s.bank idx x start p (.partner e) := by
    refine (finish_clocked hk ?_).trans hstarts
    rw [hstarts, hsecond, hfirst]
    exact hq
  rw [ht]
  constructor
  · exact (engine_startTask_ne _ _ _ _ _ _ hne).trans (engine_startTask ..)
  · rw [engine_startTask, engine_startTask_ne _ _ _ _ _ _ (Ne.symm hne)]
    rfl

end

/-- Engines of an entry of one engine that start no task: it sleeps. -/
theorem sleepEngines_single {s u : State} {sq x : Nat} (hd : slotDup x = false)
    (hu : u.engine (8 * sq + slotEngine x) = s.engine (8 * sq + slotEngine x)) :
    u.sleepEngines (slotEngines sq x) = u.setEng (8 * sq + slotEngine x) { s.engine (8 * sq + slotEngine x) with woken := false } := by
  rw [slotEngines_single hd, State.sleepEngines, List.foldl_cons, List.foldl_nil, hu]

/-- Settles O40: each command is judged by the state that it finds, and its effect is that of one operation of the engines. -/
theorem slotTasks : Obligations.SlotTasks := by
  unfold Obligations.SlotTasks
  refine ⟨fun s hq hk => ⟨fun _ _ _ => congrArg Host.Outcome.next (finish_idle hk hq _), fun _ _ _ => congrArg Host.Outcome.next (finish_idle hk hq _),
    fun _ => congrArg Host.Outcome.next (finish_idle hk hq _)⟩, ?_⟩
  intro s sq idx f hq hk b x e p start g reached due fits input since came gated ready
  have hwaits (hrun : s.inRun = true) (hreached : reached) (hes : ∀ e ∈ slotEngines sq.val x, (s.engine e).woken = true ∧ (s.engine e).running = false) :
      StartDue s sq.val idx.val f := by
    obtain ⟨hon, ha, hr, hf⟩ := hreached
    exact ⟨hon, hrun, ha, hr, hf, hes⟩
  have hone (hd : slotDup x = false) (hw : g.woken = true) (hi : g.running = false) :
      ∀ e ∈ slotEngines sq.val x, (s.engine e).woken = true ∧ (s.engine e).running = false := by
    rw [slotEngines_single hd, List.forall_mem_singleton]
    exact ⟨hw, hi⟩
  have hsingle (hd : slotDup x = false) : s.missed b sq.val idx.val (slotEngines sq.val x) = false ↔ fits := by
    rw [slotEngines_single hd]
    exact missed_single
  refine ⟨fun hdue hp hd hi h4 => ?_, fun hready hd hfits hg => ?_, fun hready hd hfits hg => ?_, fun hreached hrun hw hi hd hh => ?_,
    fun hready hd hfits => ?_, fun hready hd hne hw hi hfits hs hg => ?_, fun e' => ⟨fun hi => ?_, fun hr hrole hen hwas => ?_⟩⟩
  · obtain ⟨⟨hon, ha, hr, hf⟩, hh⟩ := hdue
    exact ⟨_, rfl, wake_loads hq hk hd hp hon ha hr hf hh hi h4⟩
  · obtain ⟨⟨hreached, hh⟩, hrun, hw, hi⟩ := hready
    have h := hwaits hrun hreached (hone hd hw hi)
    obtain ⟨hnow, heng, hcap, hrest⟩ := start_runs h hq hk hh ((hsingle hd).mpr hfits) hg hd
    refine ⟨_, rfl, hnow, heng, fun n hn => ?_, hrest⟩
    obtain ⟨hword, hsnap⟩ := hcap n hn
    have hcame : came n = (inputEvents s b e start n).1 := by
      simp only [came, inputEvents]
      cases Tab.look (fun _ => none) s.tinEc (tinKey b e n) with
      | none => rfl
      | some r => exact (apply_ite Prod.fst (r.at_ = start) (r.count, r.chan) (0, 0)).symm
    refine ⟨?_, fun h0 => ?_, ?_⟩
    · rw [hcame, ← inputCleared_count]
      exact (congrArg (· % 8) hword).trans (Nat.mod_mod_of_dvd _ (by decide))
    · have hcleared : inputCleared s b e start n = 0 := if_pos (hcame.symm.trans h0)
      exact hword.trans (congrArg (· % 2 ^ 32) hcleared)
    · exact hsnap.trans (Nat.mod_eq_of_lt (inputSnap_lt ..))
  · obtain ⟨⟨hreached, hh⟩, hrun, hw, hi⟩ := hready
    have h := hwaits hrun hreached (hone hd hw hi)
    have hskip := (taskStart_skipped h hh ((hsingle hd).mpr hfits) (gated_iff.mpr hg)).trans (sleepEngines_single hd (bump_engine_read ..))
    exact congrArg Host.Outcome.next ((congrArg (fun t => (s.clocked t).finish) hskip).trans
      (finish_clocked hk (quiet_of_eq hq (bump_raised ..) (bump_notes ..))))
  · have h := hwaits hrun hreached (hone hd hw hi)
    have hheld := (taskStart_held h hh).trans (sleepEngines_single hd rfl)
    exact congrArg Host.Outcome.next ((congrArg (fun t => (s.clocked t).finish) hheld).trans (finish_clocked hk hq))
  · obtain ⟨⟨hreached, hh⟩, hrun, hw, hi⟩ := hready
    have h := hwaits hrun hreached (hone hd hw hi)
    have hmissed := (taskStart_missed h hh (Bool.eq_true_of_not_eq_false (mt (hsingle hd).mp hfits))).trans
      (sleepEngines_single hd ((raiseEv_engine_read ..).trans (bump_engine_read ..)))
    exact congrArg (fun t => Host.Outcome.next (State.finish t)) ((clocked_runs hk _).trans hmissed)
  · obtain ⟨⟨hreached, hh⟩, hrun, hew, hei⟩ := hready
    obtain ⟨hstale, hserve, hchk⟩ := hfits
    have h := hwaits hrun hreached (by
      rw [slotEngines_pair hd, List.forall_mem_cons, List.forall_mem_singleton]
      exact ⟨⟨hew, hei⟩, hw, hi⟩)
    have hm : s.missed b sq.val idx.val (slotEngines sq.val x) = false := by
      rw [slotEngines_pair hd]
      exact missed_pair.mpr ⟨hstale, ⟨hserve, hs⟩, hchk⟩
    obtain ⟨he, hp⟩ := start_runs_both h hq hk hh hm hg hd hne
    have hstart : startEc s sq.val idx.val f = start := rfl
    exact ⟨_, rfl, congrArg Eng.running he, congrArg Eng.running hp, congrArg Eng.role he, congrArg Eng.role hp,
      (congrArg Eng.start he).trans hstart, (congrArg Eng.start hp).trans hstart, (congrArg Eng.budget hp).trans rfl⟩
  · have hexp : s.budgetExpiry e' = s := if_neg (by rw [hi]; exact Bool.false_ne_true)
    exact congrArg Host.Outcome.next ((congrArg (fun t => (s.clocked t).finish) hexp).trans (finish_clocked hk hq))
  · have hexp : s.budgetExpiry e' = s.budgetStop e' (s.engine e').pc := if_pos hr
    have hstop := hexp.trans (budgetStop_unrouted e'.isLt hrole hen hwas)
    exact congrArg (fun t => Host.Outcome.next (State.finish t)) ((clocked_runs hk _).trans hstop)

end Sys2Proof.Proofs
end

section
/-! SUPPORT. The arithmetic of R60 to R62 in plain terms, at the width of a lane engine and of a supervisor core: what is saturated
(R41), leading zeros, and the flags C and V (R361). -/

namespace Sys2Proof.Laws
open Sys2Proof.Machine

variable {w : Nat}

/-! Saturation and the Q formats (R41). -/

theorem clampI_eq {lo hi : Int} (h : lo ≤ hi) (z : Int) : clampI lo hi z = max lo (min hi z) := by
  unfold clampI
  split
  · omega
  · split <;> omega

theorem satS_16 (z : Int) : satS 16 z = max (-32768) (min 32767 z) := clampI_eq (by decide) z
theorem satS_32 (z : Int) : satS 32 z = max (-2147483648) (min 2147483647 z) := clampI_eq (by decide) z
theorem satS_64 (z : Int) : satS 64 z = max (-9223372036854775808) (min 9223372036854775807 z) := clampI_eq (by decide) z

theorem q15_eq (a : BitVec w) : q15 a = (a.setWidth 16).toInt := by
  unfold q15
  rw [sext_eq_toInt (by decide), BitVec.ofNat_toNat]

theorem sext_32_eq (a : BitVec w) : sext 32 a.toNat = (a.setWidth 32).toInt := by
  rw [sext_eq_toInt (by decide), BitVec.ofNat_toNat]

theorem addS15_eq (a b : BitVec w) :
    addS15 a b = BitVec.ofInt w (max (-32768) (min 32767 ((a.setWidth 16).toInt + (b.setWidth 16).toInt))) := by
  rw [addS15, satS_16, q15_eq, q15_eq]

theorem subS15_eq (a b : BitVec w) :
    subS15 a b = BitVec.ofInt w (max (-32768) (min 32767 ((a.setWidth 16).toInt - (b.setWidth 16).toInt))) := by
  rw [subS15, satS_16, q15_eq, q15_eq]

theorem sat15_eq (a : BitVec w) : sat15 a = BitVec.ofInt w (max (-32768) (min 32767 a.toInt)) := by
  rw [sat15, satS_16]

theorem qMul15_eq (a b : BitVec w) : qMul15 a b =
    BitVec.ofInt w (max (-32768) (min 32767 (((a.setWidth 16).toInt * (b.setWidth 16).toInt + 0x4000) / 32768))) := by
  rw [qMul15, satS_16, q15_eq, q15_eq]
  rfl

theorem qMul31_eq (a b : BitVec w) : qMul31 a b =
    BitVec.ofInt w (max (-2147483648) (min 2147483647 (((a.setWidth 32).toInt * (b.setWidth 32).toInt + 1073741824) / 2147483648))) := by
  rw [qMul31, satS_32, sext_32_eq, sext_32_eq]
  rfl

/-- A value in range is not saturated. -/
theorem satS_of_mem {z : Int} (hlo : -2 ^ (w - 1) ≤ z) (hhi : z < 2 ^ (w - 1)) : satS w z = z := by
  unfold satS
  push_cast
  rw [clampI_eq (by omega)]
  omega

theorem satS_of_high {z : Int} (h : 2 ^ (w - 1) ≤ z) : satS w z = 2 ^ (w - 1) - 1 := by
  have hpos : (0 : Int) < 2 ^ (w - 1) := by positivity
  unfold satS
  push_cast
  rw [clampI_eq (by omega)]
  omega

/-- The absolute value, saturated: the least integer has none in its width. -/
theorem absS_eq (hw : 0 < w) (a : BitVec w) :
    absS a = if a = BitVec.intMin w then BitVec.intMax w else if a.toInt < 0 then -a else a := by
  have hmin : (BitVec.intMin w).toInt = -2 ^ (w - 1) := by
    rw [BitVec.toInt_intMin, Nat.mod_eq_of_lt (Nat.pow_lt_pow_right (by decide) (by omega))]
    push_cast
    rfl
  have hlo := BitVec.le_toInt a
  have hhi := BitVec.toInt_lt (x := a)
  unfold absS
  split_ifs with ha hneg
  · rw [satS_of_high (by rw [ha, hmin]; omega), ← BitVec.toInt_intMax, BitVec.ofInt_toInt]
  · have hne : a.toInt ≠ -2 ^ (w - 1) := fun h => ha (BitVec.eq_of_toInt_eq (h.trans hmin.symm))
    rw [Int.ofNat_natAbs_of_nonpos hneg.le, satS_of_mem (by omega) (by omega), BitVec.ofInt_neg, BitVec.ofInt_toInt]
  · rw [Int.natAbs_of_nonneg (by omega), satS_of_mem hlo hhi, BitVec.ofInt_toInt]

/-! Accumulators (R61). -/

theorem macAcc_sat (sub : Bool) (x : Dword) (a b : Word) : macAcc sub true x a b = BitVec.ofInt 64 (max (-9223372036854775808)
    (min 9223372036854775807 (if sub then x.toInt - a.toInt * b.toInt else x.toInt + a.toInt * b.toInt))) :=
  congrArg (BitVec.ofInt 64) (satS_64 _)

theorem aldAcc_eq (a : Word) (sh : Nat) : aldAcc a sh = a.signExtend 64 <<< sh := by
  have hpow : BitVec.ofInt 64 ((2 ^ sh : Nat) : Int) = BitVec.twoPow 64 sh := by
    refine BitVec.eq_of_toNat_eq ?_
    rw [BitVec.ofInt_natCast, BitVec.toNat_ofNat, BitVec.toNat_twoPow]
  rw [aldAcc, BitVec.ofInt_mul, hpow, ← BitVec.shiftLeft_eq_mul_twoPow]
  rfl

theorem ardVal_eq (x : Dword) (sh : BitVec 5) : ardVal x sh.toNat = BitVec.ofInt 32 (max (-2147483648) (min 2147483647
    (if sh = 0 then x.toInt else (x.toInt + ((2 ^ (sh.toNat - 1) : Nat) : Int)) / ((2 ^ sh.toNat : Nat) : Int)))) := by
  have hz : sh.toNat = 0 ↔ sh = 0 := BitVec.toNat_inj (y := 0#5)
  simp only [ardVal, satS_32, hz]

/-! Leading zeros (R60). -/

/-- The number of leading zeros says between which powers of 2 a value lies. -/
theorem clz_eq {a : BitVec w} {n : Nat} (h : a = 0 ∧ n = w ∨ n < w ∧ 2 ^ (w - 1 - n) ≤ a.toNat ∧ a.toNat < 2 ^ (w - n)) :
    clz a = n := by
  unfold clz
  rcases h with ⟨rfl, rfl⟩ | ⟨hn, hlo, hhi⟩
  · exact if_pos (BitVec.toNat_zero ..)
  · have hpos : 0 < a.toNat := Nat.lt_of_lt_of_le (Nat.two_pow_pos _) hlo
    have hlog : Nat.log2 a.toNat = w - 1 - n := by
      rw [Nat.log2_eq_iff hpos.ne']
      exact ⟨hlo, by rwa [show w - 1 - n + 1 = w - n by omega]⟩
    rw [if_neg hpos.ne', hlog]
    omega

/-! Flags (R361). -/

/-- A result leaves the signed range of 64 bits exactly where the register holds another one. -/
theorem ne_toInt_ofInt_iff (z : Int) : z ≠ (BitVec.ofInt 64 z).toInt ↔ z < -9223372036854775808 ∨ 9223372036854775807 < z := by
  rw [BitVec.toInt_ofInt, Int.bmod_def]
  norm_num
  omega

theorem addFlags_eq (a b : Dword) : addFlags a b = ⟨(a + b).msb, decide (a + b = 0), decide (2 ^ 64 ≤ a.toNat + b.toNat),
    decide (a.toInt + b.toInt < -9223372036854775808 ∨ 9223372036854775807 < a.toInt + b.toInt)⟩ := by
  have hsum : a + b = BitVec.ofInt 64 (a.toInt + b.toInt) := by rw [BitVec.ofInt_add, BitVec.ofInt_toInt, BitVec.ofInt_toInt]
  have hover := ne_toInt_ofInt_iff (a.toInt + b.toInt)
  rw [← hsum] at hover
  exact congrArg (Flags.mk _ _ _) (decide_eq_decide.mpr hover)

theorem subFlags_eq (a b : Dword) : subFlags a b = ⟨(a - b).msb, decide (a - b = 0), decide (b.toNat ≤ a.toNat),
    decide (a.toInt - b.toInt < -9223372036854775808 ∨ 9223372036854775807 < a.toInt - b.toInt)⟩ := by
  have hdiff : a - b = BitVec.ofInt 64 (a.toInt - b.toInt) := by
    rw [Int.sub_eq_add_neg, BitVec.ofInt_add, BitVec.ofInt_neg, BitVec.ofInt_toInt, BitVec.ofInt_toInt, BitVec.sub_eq_add_neg]
  have hover := ne_toInt_ofInt_iff (a.toInt - b.toInt)
  rw [← hdiff] at hover
  exact congrArg (Flags.mk _ _ _) (decide_eq_decide.mpr hover)

end Sys2Proof.Laws
end

section
/-! SUPPORT. Jumps of a lane engine and its return stack (R48, R50, R51, R66). -/

namespace Sys2Proof.Laws
open Sys2Proof.Machine

variable {s t : State} {e : Nat}

/-- A ready instruction that jumps quietly. -/
theorem laneRun_jump {cnt k : Nat} (h : s.LaneReady e cnt) (f : State → LRes) (hf : f (s.laneAt e cnt) = .jump t k) (hq : t.Quiet) :
    (s.laneRun e cnt f).ends = .next (t.laneAdvance e cnt k) := by
  rw [laneRun_ready h, hf]
  exact ends_of_quiet (quiet_of_eq hq rfl rfl)

/-! Pushes (R51): an entry has room for the index of every instruction that has a next one. -/

section
variable {ret : Nat} (hret : ret < 4096)
include hret

theorem lanePush_room (h : (s.engine e).stack.length < 8) :
    s.lanePush e ret = some (s.setEng e { s.engine e with stack := ret :: (s.engine e).stack }) := by
  simp only [State.lanePush, h, if_true, Nat.mod_eq_of_lt hret]

theorem lanePush_overwrites (h : 8 ≤ (s.engine e).stack.length) (ht : s.trapMode e = false) :
    s.lanePush e ret = some (s.setEng e { s.engine e with stack := ret :: (s.engine e).stack.take 7 }) := by
  simp only [State.lanePush, Nat.not_lt.mpr h, ht, if_false, Bool.false_eq_true, Nat.mod_eq_of_lt hret]

end

theorem lanePush_traps (ret : Nat) (h : 8 ≤ (s.engine e).stack.length) (ht : s.trapMode e = true) : s.lanePush e ret = none := by
  simp only [State.lanePush, Nat.not_lt.mpr h, ht, if_false, if_true]

/-! Register jumps (R48, R66). -/

theorem jumpFault_outside {a : Word} (h : 0x3FFF < a.toNat) : jumpFault a = some 2 := if_pos h

theorem jumpFault_misaligned {a : Word} (h : a.toNat ≤ 0x3FFF) (ha : a.toNat % 4 ≠ 0) : jumpFault a = some 3 := by
  simp only [jumpFault, Nat.not_lt.mpr h, ha, if_false, ne_eq, not_false_eq_true, if_true]

theorem jumpFault_none {a : Word} (h : a.toNat ≤ 0x3FFF) (ha : a.toNat % 4 = 0) : jumpFault a = none := by
  simp only [jumpFault, Nat.not_lt.mpr h, ha, if_false, ne_eq, not_true_eq_false]

end Sys2Proof.Laws
end

section
/-! PROOF. The integer, fixed-point, multiply, accumulator and immediate instructions of a lane engine (R44, R59 to R62), its branches and
calls (R47, R48, R50, R51, R64, R66). -/

namespace Sys2Proof.Proofs
open Sys2Proof.Machine Sys2Proof.Laws

/-- A shift by an immediate (R60): the word has no room for 32 or more, and such a field is illegal (R44). -/
theorem shift_ready {s : State} {e : Nat} {rd : BitVec 5} {sh : BitVec 6} {v : Word} {x : Instr} {f : State → LRes} (h : s.LaneReady e 1)
    (hx : exec x s = (s.laneRun e 1 f).ends)
    (hf : f (s.laneAt e 1) = if 32 ≤ sh.toNat then .abort (s.laneAt e 1) 1 else .seq ((s.laneAt e 1).setW e rd v)) :
    (sh.toNat < 32 → exec x s = s.laneDone e 1 ((s.laneAt e 1).setW e rd v)) ∧ (32 ≤ sh.toNat → exec x s = s.laneAborts e 1 1) := by
  rw [hx]
  refine ⟨fun hlow => laneRun_sets h f ?_, fun hhigh => laneRun_aborts h f ?_⟩
  · rw [hf, if_neg (by omega)]
  · rw [hf, if_pos hhigh]

/-- Settles O7: each instruction writes w[rd] by `laneRun_sets`, and the laws of arithmetic say its value in the words of R60. -/
theorem laneInteger : Obligations.LaneInteger := by
  unfold Obligations.LaneInteger
  intro s e rd ra rb a b
  refine ⟨fun h => ?_, fun h => ?_⟩ <;> intro gives
  · have hsets {f : State → LRes} {v v' : Word} (hf : f (s.laneAt e.val 1) = .seq ((s.laneAt e.val 1).setW e.val rd v)) (hv : v = v') :
        (s.laneRun e.val 1 f).ends = gives v' := hv ▸ laneRun_sets h f hf
    have hshift (sh : BitVec 6) := And.intro
      (And.intro (shift_ready (sh := sh) h (x := .shli (.lane e) rd ra sh) rfl rfl) (shift_ready (sh := sh) h (x := .shri (.lane e) rd ra sh) rfl rfl))
      (And.intro (shift_ready (sh := sh) h (x := .sari (.lane e) rd ra sh) rfl rfl) (shift_ready (sh := sh) h (x := .rori (.lane e) rd ra sh) rfl rfl))
    refine ⟨hsets (f := laneAdd e rd ra rb) rfl rfl, hsets (f := laneSub e rd ra rb) rfl rfl, hsets (f := laneAnd e rd ra rb) rfl rfl,
      hsets (f := laneOr e rd ra rb) rfl rfl, hsets (f := laneXor e rd ra rb) rfl rfl, hsets (f := laneAndn e rd ra rb) rfl rfl,
      hsets (f := laneMov e rd ra) rfl rfl, hsets (f := laneShl e rd ra rb) rfl rfl, hsets (f := laneShr e rd ra rb) rfl rfl,
      hsets (f := laneSar e rd ra rb) rfl rfl, hsets (f := laneRor e rd ra rb) rfl rfl, hsets (f := laneMin e rd ra rb) rfl rfl,
      hsets (f := laneMax e rd ra rb) rfl rfl, hsets (f := laneMinu e rd ra rb) rfl rfl, hsets (f := laneMaxu e rd ra rb) rfl rfl,
      hsets (f := laneAbs e rd ra) rfl (absS_eq (by decide) a), hsets (f := laneNeg e rd ra) rfl rfl,
      hsets (f := laneAdds e rd ra rb) rfl (congrArg _ (satS_32 _)), hsets (f := laneSubs e rd ra rb) rfl (congrArg _ (satS_32 _)),
      hsets (f := laneAdds15 e rd ra rb) rfl (addS15_eq a b), hsets (f := laneSubs15 e rd ra rb) rfl (subS15_eq a b),
      hsets (f := laneSat15 e rd ra) rfl (sat15_eq a), fun n hn => hsets (f := laneClz e rd ra) rfl (congrArg _ (clz_eq hn)),
      fun sh hlow => ?_, fun sh hhigh => ?_, laneRun_seq h .seq rfl h.quiet⟩
    · obtain ⟨⟨hshl, hshr⟩, hsar, hror⟩ := hshift sh
      exact ⟨hshl.1 hlow, hshr.1 hlow, hsar.1 hlow, hror.1 hlow⟩
    · obtain ⟨⟨hshl, hshr⟩, hsar, hror⟩ := hshift sh
      exact ⟨hshl.2 hhigh, hshr.2 hhigh, hsar.2 hhigh, hror.2 hhigh⟩
  · have hsets {f : State → LRes} {v v' : Word} (hf : f (s.laneAt e.val 2) = .seq ((s.laneAt e.val 2).setW e.val rd v)) (hv : v = v') :
        (s.laneRun e.val 2 f).ends = gives v' := hv ▸ laneRun_sets h f hf
    exact ⟨hsets (f := laneMul e rd ra rb) rfl rfl, hsets (f := laneMulh e rd ra rb) rfl rfl, hsets (f := laneMulhu e rd ra rb) rfl rfl,
      hsets (f := laneQmul15 e rd ra rb) rfl (qMul15_eq a b),
      hsets (f := laneQmul31 e rd ra rb) rfl ((qMul31_eq a b).trans (by simp only [BitVec.setWidth_eq]))⟩

/-- A ready instruction that writes an accumulator and goes on. -/
theorem acc_ready {s : State} {e cnt : Nat} {n : BitVec 2} {v v' : Dword} (h : s.LaneReady e cnt) {f : State → LRes}
    (hf : f (s.laneAt e cnt) = .seq ((s.laneAt e cnt).setAcc e n v)) (hv : v = v') :
    (s.laneRun e cnt f).ends = s.laneDone e cnt ((s.laneAt e cnt).setAcc e n v') :=
  hv ▸ laneRun_seq h f hf (quiet_of_eq h.quiet rfl rfl)

/-- Settles O8: each instruction writes the accumulator or w[rd], with the value of R61. -/
theorem laneAccumulate : Obligations.LaneAccumulate := by
  unfold Obligations.LaneAccumulate
  intro s e n rd ra rb sh a b x p sat accum gives
  refine ⟨fun h => ?_, fun h => ?_⟩
  · exact ⟨acc_ready h (f := laneMac e n ra rb) rfl rfl, acc_ready h (f := laneMsu e n ra rb) rfl rfl,
      acc_ready h (f := laneMacs e n ra rb) rfl (macAcc_sat false x a b), acc_ready h (f := laneMsus e n ra rb) rfl (macAcc_sat true x a b),
      (laneRun_sets h (laneArd e rd n sh) rfl).trans (congrArg (gives 2) (ardVal_eq x sh))⟩
  · exact ⟨acc_ready h (f := laneAclr e n) rfl rfl, acc_ready h (f := laneAld e n ra sh) rfl (aldAcc_eq a sh.toNat),
      laneRun_sets h (laneArdl e rd n sh) rfl, laneRun_sets h (laneArdh e rd n) rfl⟩

/-- Bits put after others. -/
theorem toNat_append_eq {m n : Nat} (x : BitVec m) (y : BitVec n) : (x ++ y).toNat = x.toNat * 2 ^ n + y.toNat := by
  rw [BitVec.toNat_append, ← Nat.shiftLeft_add_eq_or_of_lt y.isLt, Nat.shiftLeft_eq]

/-- The opcode and the ra field of a word of format I (R43). -/
theorem wf_formatI (op : BitVec 6) (rd ra : BitVec 5) (imm : BitVec 16) :
    wf 26 6 (op ++ rd ++ ra ++ imm).toNat = op.toNat ∧ wf 16 5 (op ++ rd ++ ra ++ imm).toNat = ra.toNat := by
  have := op.isLt; have := rd.isLt; have := ra.isLt; have := imm.isLt
  simp only [toNat_append_eq, wf]
  omega

/-- A word of MOVI or MOVHI with a non-zero ra field is no instruction (R44, R62). -/
theorem decodeLane_movi_none (c : Core) {op : BitVec 6} (hop : op.toNat = 9 ∨ op.toNat = 10) (rd ra : BitVec 5) (imm : BitVec 16)
    (hra : ra ≠ 0) : decodeLane c (op ++ rd ++ ra ++ imm) = none := by
  obtain ⟨hwop, hwra⟩ := wf_formatI op rd ra imm
  have hfield : (op5 16 (op ++ rd ++ ra ++ imm).toNat == 0) = false := by
    rw [op5, hwra, BitVec.ofNat_toNat, BitVec.setWidth_eq]
    exact beq_false_of_ne hra
  rcases hop with hop | hop
  all_goals
    rw [hop] at hwop
    simp only [decodeLane, hwop, hfield, legal, Bool.false_eq_true, if_false]

/-- Settles O11: each instruction writes w[rd]; a word with a field that its format does not have decodes to nothing. -/
theorem laneImmediate : Obligations.LaneImmediate := by
  unfold Obligations.LaneImmediate
  refine ⟨fun s e rd ra imm h => ?_, fun c rd ra imm hra => ?_⟩
  · exact ⟨laneRun_sets h (laneAddi e rd ra imm) rfl, laneRun_sets h (laneAndi e rd ra imm) rfl, laneRun_sets h (laneOri e rd ra imm) rfl,
      laneRun_sets h (laneXori e rd ra imm) rfl, laneRun_sets h (laneMovi e rd imm) rfl, laneRun_sets h (laneMovhi e rd imm) rfl⟩
  · exact ⟨decodeLane_movi_none c (.inl rfl) rd ra imm hra, decodeLane_movi_none c (.inr rfl) rd ra imm hra⟩

/-- A compare-and-branch, by its target and by whether it is taken (R64). -/
theorem branch_ready {s : State} {e : Nat} {off : BitVec 13} {x : Instr} {cond : State → Bool} {taken : Prop} (h : s.LaneReady e 2)
    (hx : exec x s = (s.laneRun e 2 (fun s => s.laneBranch e off (cond s))).ends) (hcond : cond (s.laneAt e 2) = true ↔ taken) :
    let target : Int := ((s.engine e).pc : Int) + off.toInt
    (target < 0 ∨ 4095 < target → exec x s = s.laneAborts e 2 2) ∧
      (0 ≤ target ∧ target ≤ 4095 → taken → exec x s = .next ((s.laneAt e 2).laneAdvance e 2 target.toNat)) ∧
      (0 ≤ target ∧ target ≤ 4095 → ¬ taken → exec x s = s.laneDone e 2 (s.laneAt e 2)) := by
  intro target
  have hbranch (b : Bool) (hin : 0 ≤ target ∧ target ≤ 4095) : (s.laneAt e 2).laneBranch e off b =
      if b then .jump (s.laneAt e 2) target.toNat else .seq (s.laneAt e 2) := if_neg (show ¬ (target < 0 ∨ 4095 < target) by omega)
  rw [hx]
  refine ⟨fun hout => laneRun_aborts h _ (if_pos hout), fun hin htaken => ?_, fun hin hnot => ?_⟩
  · refine laneRun_jump h _ ?_ h.quiet
    rw [hbranch _ hin, if_pos (hcond.mpr htaken)]
  · refine laneRun_seq h _ ?_ h.quiet
    rw [hbranch _ hin, if_neg (fun hb => hnot (hcond.mp hb))]

/-- Settles O12: the comparison of each branch is the one that R47 gives, and `branch_ready` says what it comes to. -/
theorem laneBranch : Obligations.LaneBranch := by
  unfold Obligations.LaneBranch
  intro s e ra rb simm off h a b i target does
  have hslt {x y : Word} : BitVec.slt x y = true ↔ x.toInt < y.toInt := BitVec.slt_iff_toInt_lt
  have hult {x y : Word} : BitVec.ult x y = true ↔ x.toNat < y.toNat := BitVec.ult_iff_toNat_lt
  have hnslt {x y : Word} : (!BitVec.slt x y) = true ↔ y.toInt ≤ x.toInt := by
    rw [Bool.not_eq_true', ← Bool.not_eq_true, hslt, Int.not_lt]
  have hnult {x y : Word} : (!BitVec.ult x y) = true ↔ y.toNat ≤ x.toNat := by
    rw [Bool.not_eq_true', ← Bool.not_eq_true, hult, Nat.not_lt]
  exact ⟨branch_ready h (cond := fun s => condEq (s.w e.val ra) (s.w e.val rb)) rfl beq_iff_eq,
    branch_ready h (cond := fun s => condNe (s.w e.val ra) (s.w e.val rb)) rfl bne_iff_ne,
    branch_ready h (cond := fun s => condLt (s.w e.val ra) (s.w e.val rb)) rfl hslt,
    branch_ready h (cond := fun s => condGe (s.w e.val ra) (s.w e.val rb)) rfl hnslt,
    branch_ready h (cond := fun s => condLtu (s.w e.val ra) (s.w e.val rb)) rfl hult,
    branch_ready h (cond := fun s => condGeu (s.w e.val ra) (s.w e.val rb)) rfl hnult,
    branch_ready h (cond := fun s => fLt (s.w e.val ra) (s.w e.val rb)) rfl Iff.rfl,
    branch_ready h (cond := fun s => fGe (s.w e.val ra) (s.w e.val rb)) rfl Iff.rfl,
    branch_ready h (cond := fun s => condEq (s.w e.val ra) (simm.signExtend 32)) rfl beq_iff_eq,
    branch_ready h (cond := fun s => condNe (s.w e.val ra) (simm.signExtend 32)) rfl bne_iff_ne,
    branch_ready h (cond := fun s => condLt (s.w e.val ra) (simm.signExtend 32)) rfl hslt,
    branch_ready h (cond := fun s => condGe (s.w e.val ra) (simm.signExtend 32)) rfl hnslt,
    branch_ready h (cond := fun s => condLtu (s.w e.val ra) (simm.signExtend 32)) rfl hult,
    branch_ready h (cond := fun s => condGeu (s.w e.val ra) (simm.signExtend 32)) rfl hnult⟩

/-- The target of a register jump is checked before anything else (R66). -/
theorem registerJump_faults {s : State} {e cnt : Nat} {ra : BitVec 5} {x : Instr} {f : State → LRes} (h : s.LaneReady e cnt)
    (hx : exec x s = (s.laneRun e cnt f).ends)
    (hf : ∀ c, jumpFault (s.w e ra) = some c → f (s.laneAt e cnt) = .abort (s.laneAt e cnt) c) :
    (0x3FFF < (s.w e ra).toNat → exec x s = s.laneAborts e cnt 2) ∧
      ((s.w e ra).toNat ≤ 0x3FFF → (s.w e ra).toNat % 4 ≠ 0 → exec x s = s.laneAborts e cnt 3) := by
  rw [hx]
  exact ⟨fun hout => laneRun_aborts h f (hf 2 (jumpFault_outside hout)),
    fun hin hal => laneRun_aborts h f (hf 3 (jumpFault_misaligned hin hal))⟩

/-- A call pushes the index of the next instruction as the return stack takes it, or traps (R51, R66). -/
theorem call_ready {s : State} {e k : Nat} {x : Instr} {f : State → LRes} (h : s.LaneReady e 3) (hx : exec x s = (s.laneRun e 3 f).ends)
    (hf : f (s.laneAt e 3) = match (s.laneAt e 3).lanePush e ((s.engine e).pc + 1) with
      | some t => .jump t k
      | none => .abort (s.laneAt e 3) 5) :
    let g := s.engine e
    let pushed (l : List Nat) := (s.laneAt e 3).setEng e { g with stack := (g.pc + 1) :: l }
    (g.stack.length < 8 → exec x s = .next ((pushed g.stack).laneAdvance e 3 k)) ∧
      (8 ≤ g.stack.length → s.trapMode e = false → exec x s = .next ((pushed (g.stack.take 7)).laneAdvance e 3 k)) ∧
      (8 ≤ g.stack.length → s.trapMode e = true → exec x s = s.laneAborts e 3 5) := by
  intro g pushed
  have hret : g.pc + 1 < 4096 := Nat.succ_lt_succ h.below
  have hq (l : List Nat) : (pushed l).Quiet := quiet_of_eq h.quiet rfl rfl
  rw [hx]
  refine ⟨fun hroom => laneRun_jump h f ?_ (hq _), fun hfull htrap => laneRun_jump h f ?_ (hq _), fun hfull htrap => laneRun_aborts h f ?_⟩
  · rw [hf, lanePush_room (s := s.laneAt e 3) hret hroom]
    rfl
  · rw [hf, lanePush_overwrites (s := s.laneAt e 3) hret hfull htrap]
    rfl
  · rw [hf, lanePush_traps (s := s.laneAt e 3) _ hfull htrap]

/-- Settles O13: a call is a check of its target, then a push; RET pops, and JR only checks. -/
theorem laneCalls : Obligations.LaneCalls := by
  unfold Obligations.LaneCalls
  intro s e ra target g a pushed calls
  refine ⟨fun h => ?_, fun h => ?_⟩
  · obtain ⟨hout, hmis⟩ := registerJump_faults (ra := ra) h (x := .callr (.lane e) ra) rfl (fun c hc => by
      simp only [laneCallr, laneAt_w, hc])
    refine ⟨call_ready h rfl rfl, fun hin hal => call_ready h rfl ?_, hout, hmis, fun hnil => laneRun_aborts h _ ?_, fun t rest hcons =>
      laneRun_jump h _ ?_ (quiet_of_eq h.quiet rfl rfl)⟩
    · simp only [laneCallr, laneAt_w, jumpFault_none hin hal]
      rfl
    · simp only [laneRet, laneAt_engine, show (s.engine e.val).stack = [] from hnil]
    · simp only [laneRet, laneAt_engine, show (s.engine e.val).stack = t :: rest from hcons]
      rfl
  · obtain ⟨hout, hmis⟩ := registerJump_faults (ra := ra) h (x := .jr (.lane e) ra) rfl (fun c hc => by
      simp only [laneJr, laneAt_w, hc])
    refine ⟨fun hin hal => laneRun_jump h _ ?_ (quiet_of_eq h.quiet rfl rfl), hout, hmis⟩
    simp only [laneJr, laneAt_w, jumpFault_none hin hal]
    rfl

end Sys2Proof.Proofs
end

section
/-! SUPPORT. Accesses of a supervisor core to its TCM and to shared SRAM, and room in its store buffer (R364 to R366, R370, R384). -/

namespace Sys2Proof.Laws
open Sys2Proof.Machine

variable {s : State} {k a n : Nat}

/-! Memory as it stands: what is read before no write at all (R96). -/

theorem byteWhen_none {p : MemWrite → Bool} (h : ∀ x, p x = false) (s : State) (a : Nat) : s.byteWhen p a = s.byte a := by
  unfold State.byteWhen
  simp only [h, Bool.false_and, Bool.false_eq_true, if_false]
  exact List.foldl_fixed _

theorem chkWhen_none {p : MemWrite → Bool} (h : ∀ x, p x = false) (s : State) (a : Nat) : s.chkWhen p a = s.chkAt a := by
  unfold State.chkWhen
  simp only [h, Bool.false_and, Bool.false_eq_true, if_false]
  exact List.foldl_fixed _

/-- Where no engine writes, a read through a supervisor port finds memory as it stands (R96). -/
theorem now_untimed (h : isTimed a = false) (now : Nat) (x : MemWrite) : MemWrite.now_ now a x = false := by
  simp only [MemWrite.now_, h, Bool.false_and]

/-! Shared SRAM and TCM (R579). -/

theorem coreRam_range (h : isCoreRam a = true) : 0x10200000 ≤ a ∧ a < 0x100000000 := by
  simp only [isCoreRam, Bool.or_eq_true, Bool.and_eq_true, decide_eq_true_eq] at h
  omega

/-- A granule lies in one memory. -/
theorem coreRam_add_eight (h : isCoreRam a = true) (ha : a % 16 = 0) : isCoreRam (a + 8) = true := by
  simp only [isCoreRam, Bool.or_eq_true, Bool.and_eq_true, decide_eq_true_eq] at h ⊢
  omega

theorem coreRam_isMemory (h : isCoreRam a = true) : isMemory a = true := by
  simp only [isMemory, isSram, h, Bool.true_or]

theorem coreRam_untimed (h : isCoreRam a = true) : isTimed a = false := by
  obtain ⟨-, hhigh⟩ := coreRam_range h
  simp only [isTimed, sqSpace]
  have h1 : ¬ 0x100000000 ≤ a := by omega
  have h2 : ¬ 0x200000000 ≤ a := by omega
  simp only [h1, h2, decide_false, Bool.false_and, Bool.or_false]

/-- Words that pass their checks are read with nothing logged (R433). -/
theorem portCheck_valid {m : Nat} (init : Nat) (h : ∀ i < m, isCoreRam (a + 8 * i) = true ∧ s.chkAt (a + 8 * i) = .valid) :
    s.portCheck a init m = (false, s) := by
  induction m generalizing a with
  | zero => rfl
  | succ m ih =>
    obtain ⟨hram, hchk⟩ : isCoreRam a = true ∧ s.chkAt a = .valid := h 0 (Nat.succ_pos m)
    rw [State.portCheck, chkWhen_none (now_untimed (coreRam_untimed hram) _), hchk, checkAs_valid]
    dsimp only
    rw [ih fun i hi => by simpa only [Nat.add_assoc, Nat.mul_succ, Nat.add_comm 8] using h (i + 1) (Nat.succ_lt_succ hi)]
    rfl

/-- A read of shared SRAM or of a TCM by a core whose words pass their checks. -/
theorem busRead_coreRam (hp : s.alive 4 = true) (hw : s.underWipe a = false)
    (h : ∀ i < (n + 7) / 8, isCoreRam (a + 8 * i) = true ∧ s.chkAt (a + 8 * i) = .valid) (hram : isCoreRam a = true) (who : Agent) :
    s.busRead who a n = (.ok (s.peek a n, false), s) := by
  obtain ⟨hlow, hhigh⟩ := coreRam_range hram
  have hremote : a < remoteBase := by unfold remoteBase; omega
  have hdom : memDomain a = 4 := by
    unfold memDomain sqSpace
    rw [if_neg (by omega), if_neg (by omega)]
  have hbytes : (List.range n).map (fun j => s.byteWhen (MemWrite.now_ s.now a) (a + j)) = s.bytes a n :=
    List.map_congr_left fun j _ => byteWhen_none (now_untimed (coreRam_untimed hram) _) s _
  have hport : s.portRead a n who.init = (false, s.peek a n, s) := by
    rw [State.portRead, portCheck_valid _ h, hbytes]
    rfl
  rw [State.busRead, if_pos hremote, State.localRead, if_neg (by omega), if_pos (coreRam_isMemory hram), State.memRead, hdom, hp, hw, hport]
  rfl

/-! Faults of an access (R366, R384). -/

theorem accFault_refused {c : Sup} {acc : Acc} (n : Nat) (h : 2 ^ 40 ≤ a ∨ c.allowed a acc = false) : c.accFault a n acc = some 3 := if_pos h

theorem accFault_none {c : Sup} {acc : Acc} (ha : a < 2 ^ 40) (hm : c.allowed a acc = true) (hn : a % n = 0) : c.accFault a n acc = none := by
  simp only [Sup.accFault, Nat.not_le.mpr ha, hm, hn, Bool.true_eq_false, or_self, if_false, ne_eq, not_true_eq_false]

/-- A read that its core refuses takes its exception. -/
theorem supRead_faults {v : Nat} (h : (s.core k).accFault a n .read = some v) (f : Nat → Bool → State → SRes) :
    s.supRead k a n f = .exc s v 0 a false := by
  unfold State.supRead
  rw [h]

/-- A read that no waiting store holds up goes on with what its bus gives (R365, R370). -/
theorem supRead_ok {v : Nat} {doubt : Bool} (hf : (s.core k).accFault a n .read = none) (ho : (s.core k).overlaps a n = false)
    (hd : (s.core k).device a = false ∨ (s.core k).sb = []) (hb : s.busRead (.sup k) a n = (.ok (v, doubt), s))
    (f : Nat → Bool → State → SRes) : s.supRead k a n f = f v doubt s := by
  have hwait : ((s.core k).overlaps a n || ((s.core k).device a && !(s.core k).sb.isEmpty)) = false := by
    rcases hd with hd | hd <;> simp [ho, hd]
  unfold State.supRead
  simp only [hf, hwait, hb, Bool.false_eq_true, if_false]

/-! The store buffer (R370). -/

/-- A core that has only changed its registers has not left for an entry. -/
theorem supLeft_self (h : s.fld F.SUP_STAT_STATE k = 0) : s.supLeft s k = false := by
  simp [State.supLeft, h]

/-- A store enters a buffer that has room for it. -/
theorem supBuffer_room {x : SupStore} (hst : s.fld F.SUP_STAT_STATE k = 0) (h : (s.core k).sbUsed + x.entries ≤ 8) (f : State → SRes) :
    s.supBuffer k x f = f (s.setCore k { s.core k with sb := (s.core k).sb ++ [x] }) := by
  unfold State.supBuffer
  extract_lets t
  have ht : t = s := by
    refine repeatN_inv (· = s) _ _ (fun _ u hu => ?_) s rfl
    subst hu
    exact if_neg (by simp only [Nat.not_lt.mpr h, decide_false, Bool.false_and, Bool.false_eq_true, not_false_eq_true])
  clear_value t
  subst ht
  exact if_neg (by rw [supLeft_self hst]; exact Bool.false_ne_true)

/-- A core that issues instructions is powered and neither waits nor stands (R392). -/
theorem coreRuns_state (h : s.coreRuns k = true) : s.alive 4 = true ∧ s.fld F.SUP_STAT_STATE k = 0 := by
  simp only [State.coreRuns, Bool.and_eq_true, beq_iff_eq] at h
  tauto

/-! Rings (R363). -/

theorem needRing_allowed {r : Nat} (h : (s.core k).ring ≤ r) (f : State → SRes) : s.needRing k r f = f s := if_neg (Nat.not_lt.mpr h)

theorem needRing_refused {r : Nat} (h : r < (s.core k).ring) (f : State → SRes) : s.needRing k r f = .exc s 1 0 0 false := if_pos h

end Sys2Proof.Laws
end

section
/-! SUPPORT. Capabilities narrowed and masked (R73). -/

namespace Sys2Proof.Laws
open Sys2Proof.Machine

variable {c : Cap}

theorem capPerm_tagged (h : c.tag = true) (mask : Nat) : capPerm c mask = some (c.withBits 80 8 (c.perms &&& (mask % 256))) := by
  simp only [capPerm, h, Bool.not_true, Bool.false_eq_true, if_false]

theorem capPerm_untagged (h : c.tag = false) (mask : Nat) : capPerm c mask = none := by
  simp only [capPerm, h, Bool.not_false, if_true]

theorem capNarrow_within {off len : Nat} (h : c.tag = true) (hlen : off + len ≤ c.len) :
    capNarrow c off len = some ((c.withBits 0 40 (c.base + off)).withBits 40 40 len) := by
  simp only [capNarrow, h, Nat.not_lt.mpr hlen, Bool.not_true, decide_false, Bool.or_self, Bool.false_eq_true, if_false]

theorem capNarrow_refused {off len : Nat} (h : c.tag = false ∨ c.len < off + len) : capNarrow c off len = none := by
  refine if_pos ?_
  rcases h with h | h <;> simp only [h, Bool.not_false, decide_true, Bool.true_or, Bool.or_true]

end Sys2Proof.Laws
end

section
/-! PROOF. Integer, fixed-point, multiply, immediate and capability instructions of a supervisor core (R60, R62, R73, R361, R362, R383, R384). -/

namespace Sys2Proof.Proofs
open Sys2Proof.Machine Sys2Proof.Laws

/-- A ready instruction that writes a register with its flags and goes on. -/
theorem supSet_ready {s : State} {k : Nat} {rd : BitVec 5} {v v' : Dword} {fl fl' : FlagSet} (h : s.SupReady k) {f : State → SRes}
    (hf : f s = s.supSet k rd v fl) (hv : v = v') (hfl : fl = fl') :
    (s.supRun k f).ends = s.supDone k (((s.core k).putS rd.toNat v').setFlags fl') := by
  subst hv hfl
  exact supRun_done h f hf

/-- The flags of a saturated sum: C and V of the exact one (R361). -/
theorem satAdd_flags (a b : Dword) : withResult (addFlags a b) (satAdd a b) = ⟨(satAdd a b).msb, decide (satAdd a b = 0),
    decide (2 ^ 64 ≤ a.toNat + b.toNat), decide (a.toInt + b.toInt < -9223372036854775808 ∨ 9223372036854775807 < a.toInt + b.toInt)⟩ := by
  rw [addFlags_eq]
  rfl

/-- The flags of a saturated difference: C and V of the exact one (R361). -/
theorem satSub_flags (a b : Dword) : withResult (subFlags a b) (satSub a b) = ⟨(satSub a b).msb, decide (satSub a b = 0),
    decide (b.toNat ≤ a.toNat), decide (a.toInt - b.toInt < -9223372036854775808 ∨ 9223372036854775807 < a.toInt - b.toInt)⟩ := by
  rw [subFlags_eq]
  rfl

/-- Settles O25: each instruction writes s[rd] and its flags, and the laws of arithmetic say both in the words of R60 and R361. -/
theorem supInteger : Obligations.SupInteger := by
  unfold Obligations.SupInteger
  intro s k rd ra rb h a b gives same nz addf subf
  have hsets {f : State → SRes} {v v' : Dword} {fl fl' : FlagSet} (hf : f s = s.supSet k rd v fl) (hv : v = v') (hfl : fl = fl') :
    (s.supRun k f).ends = gives v' fl' := supSet_ready h hf hv hfl
  have hsum : satAdd a b = BitVec.ofInt 64 (max (-9223372036854775808) (min 9223372036854775807 (a.toInt + b.toInt))) :=
    congrArg _ (satS_64 _)
  have hdiff : satSub a b = BitVec.ofInt 64 (max (-9223372036854775808) (min 9223372036854775807 (a.toInt - b.toInt))) :=
    congrArg _ (satS_64 _)
  exact ⟨hsets (f := supAdd k rd ra rb) rfl rfl (congrArg _ (addFlags_eq a b)), hsets (f := supSub k rd ra rb) rfl rfl (congrArg _ (subFlags_eq a b)),
    hsets (f := supAnd k rd ra rb) rfl rfl rfl, hsets (f := supOr k rd ra rb) rfl rfl rfl, hsets (f := supXor k rd ra rb) rfl rfl rfl,
    hsets (f := supAndn k rd ra rb) rfl rfl rfl, hsets (f := supShl k rd ra rb) rfl rfl rfl, hsets (f := supShr k rd ra rb) rfl rfl rfl,
    hsets (f := supSar k rd ra rb) rfl rfl rfl, hsets (f := supRor k rd ra rb) rfl rfl rfl,
    hsets (f := supAdds k rd ra rb) rfl hsum (hsum ▸ congrArg _ (satAdd_flags a b)), hsets (f := supSubs k rd ra rb) rfl hdiff (hdiff ▸ congrArg _ (satSub_flags a b)),
    hsets (f := supMin k rd ra rb) rfl rfl rfl, hsets (f := supMax k rd ra rb) rfl rfl rfl, hsets (f := supMinu k rd ra rb) rfl rfl rfl,
    hsets (f := supMaxu k rd ra rb) rfl rfl rfl, hsets (f := supAdds15 k rd ra rb) rfl (addS15_eq a b) rfl,
    hsets (f := supSubs15 k rd ra rb) rfl (subS15_eq a b) rfl, hsets (f := supMul k rd ra rb) rfl rfl rfl,
    hsets (f := supMulh k rd ra rb) rfl rfl rfl, hsets (f := supMulhu k rd ra rb) rfl rfl rfl,
    hsets (f := supQmul15 k rd ra rb) rfl (qMul15_eq a b) rfl, hsets (f := supQmul31 k rd ra rb) rfl (qMul31_eq a b) rfl,
    hsets (f := supMov k rd ra) rfl rfl rfl, hsets (f := supNeg k rd ra) rfl rfl rfl,
    hsets (f := supAbs k rd ra) rfl (absS_eq (by decide) a) rfl, hsets (f := supSat15 k rd ra) rfl (sat15_eq a) rfl,
    fun n hn => hsets (f := supClz k rd ra) rfl (congrArg _ (clz_eq hn)) rfl, fun sh => ⟨hsets (f := supShli k rd ra sh) rfl rfl rfl,
    hsets (f := supShri k rd ra sh) rfl rfl rfl, hsets (f := supSari k rd ra sh) rfl rfl rfl, hsets (f := supRori k rd ra sh) rfl rfl rfl⟩,
    supRun_seq h supNop rfl h.quiet⟩

/-- A halfword of a number as a field of it. -/
theorem halfword_eq (j n : Nat) : n / 2 ^ (16 * j) % 2 ^ 16 = bits (16 * j + 15) (16 * j) n := by
  unfold bits
  rw [Nat.shiftRight_eq_div_pow, show 16 * j + 15 + 1 - 16 * j = 16 by omega]

/-- Settles O28: each instruction writes s[rd], MOVK one of its four halfwords. -/
theorem supImmediate : Obligations.SupImmediate := by
  unfold Obligations.SupImmediate
  intro s k rd ra imm hw h a i gives
  refine ⟨supSet_ready h (f := supAddi k rd ra imm) rfl rfl (congrArg _ (addFlags_eq a i)), supSet_ready h (f := supAndi k rd ra imm) rfl rfl rfl,
    supSet_ready h (f := supOri k rd ra imm) rfl rfl rfl, supSet_ready h (f := supXori k rd ra imm) rfl rfl rfl,
    supSet_ready h (f := supMovi k rd imm) rfl rfl rfl, supSet_ready h (f := supMovhi k rd imm) rfl rfl rfl,
    _, supSet_ready h (f := supMovk k rd imm hw) rfl rfl rfl, ?_, fun j hj hne => ?_⟩
  all_goals
    have hhw := hw.isLt
    rw [BitVec.toNat_ofNat, halfword_eq, bits_mod_two_pow _ _ (by omega)]
  · exact (bits_setBits_same (w := 16) _ _ (by decide)).trans (Nat.mod_eq_of_lt imm.isLt)
  · rw [halfword_eq]
    rcases Nat.lt_or_gt_of_ne hne with hbelow | habove
    · exact bits_setBits_below _ _ _ (by omega)
    · exact bits_setBits_above _ _ _ (by omega)

/-- A ready instruction that makes a capability writes it, or takes the capability fault (R384). -/
theorem supCap_ready {s : State} {k : Nat} {cd : BitVec 3} {o : Option Cap} {x : Instr} {f : State → SRes} (h : s.SupReady k)
    (hx : exec x s = (s.supRun k f).ends) (hf : f s = s.supCap k cd o) :
    (∀ v, o = some v → exec x s = s.supDone k ((s.core k).putC cd.toNat v)) ∧ (o = none → exec x s = s.supTraps k 9 0 0) := by
  rw [hx]
  refine ⟨fun v hv => supRun_done h f ?_, fun hv => supRun_traps h f ?_⟩
  · rw [hf, hv]
    rfl
  · rw [hf, hv]
    rfl

/-- Settles O32: the registers by `supCap_ready`, the granules by the accesses of a core and its store buffer. -/
theorem supCapability : Obligations.SupCapability := by
  unfold Obligations.SupCapability
  intro s k cd cs ra rb h g c a b near gives made
  obtain ⟨hp, hst⟩ := coreRuns_state h.runs
  obtain ⟨hperm, hnoPerm⟩ := supCap_ready (x := .cperm (.sup k) cd cs ra) (o := capPerm c a) h rfl rfl
  obtain ⟨hnarrow, hnoNarrow⟩ := supCap_ready (x := .cnarrow (.sup k) cd cs ra rb) (o := capNarrow c a b) h rfl rfl
  refine ⟨supRun_done h (supCmov k cd cs) rfl, supRun_done h (supCclr k cd) rfl, fun ht => hperm _ (capPerm_tagged ht a),
    fun ht => hnoPerm (capPerm_untagged ht a), fun ht hlen => hnarrow _ (capNarrow_within ht hlen),
    fun hbad => hnoNarrow (capNarrow_refused hbad),
    fun ⟨hram, hd⟩ hm hal ho hw hv hv' => ?_, fun ha hm hal ht hroom => ?_, fun hbad => ?_, fun hbad => ?_, fun hring hres => ?_, fun hring hres => ?_,
    fun hring => ?_⟩
  · have hlt : a < 2 ^ 40 := (coreRam_range hram).2.trans (by decide)
    have hwords : ∀ i < (16 + 7) / 8, isCoreRam (a + 8 * i) = true ∧ s.chkAt (a + 8 * i) = .valid := fun i hi => by
      rcases (by omega : i = 0 ∨ i = 1) with rfl | rfl
      · exact ⟨hram, hv⟩
      · exact ⟨coreRam_add_eight hram hal, hv'⟩
    refine supRun_done h (supCld k cd ra) ((supRead_ok (accFault_none hlt hm hal) ho hd (busRead_coreRam hp hw hwords hram _) _).trans ?_)
    rw [coreRam_isMemory hram, Bool.and_true]
    rfl
  · have hf : (s.core k.val).accFault a 16 .write = none := accFault_none ha hm hal
    refine supRun_done h (supCst k cs ra) (Eq.trans ?_ (supBuffer_room (x := ⟨a, 16, c.val.toNat, g.pc, some c⟩) hst hroom .seq))
    simp only [supCst, a] at hf ⊢
    rw [hf, ht]
    rfl
  · exact supRun_traps h (supCld k cd ra) (supRead_faults (accFault_refused 16 hbad) _)
  · have hf : (s.core k.val).accFault a 16 .write = some 3 := accFault_refused 16 hbad
    refine supRun_traps h (supCst k cs ra) ?_
    simp only [supCst, a] at hf ⊢
    rw [hf]
  · refine supRun_done h (supCmint k cd ra rb) ((needRing_allowed hring.le _).trans ?_)
    exact congrArg (fun t => SRes.seq (s.setCore k.val (g.putC cd.toNat { made with tag := !t }))) hres
  · refine supRun_done h (supCmint k cd ra rb) ((needRing_allowed hring.le _).trans ?_)
    exact congrArg (fun t => SRes.seq (s.setCore k.val (g.putC cd.toNat { made with tag := !t }))) hres
  · exact supRun_traps h (supCmint k cd ra rb) (needRing_refused (Nat.pos_of_ne_zero hring) _)

end Sys2Proof.Proofs
end

section
/-! SUPPORT. Old forms of instructions (R72): the forms that a store into an engine's own instructions leaves, and the fetches after it. -/

namespace Sys2Proof.Laws
open Sys2Proof.Machine

variable {s : State} {e : Nat}

/-- What no register and no raised event tells of a state, the log of a word leaves (R433 to R435). -/
theorem logUEAt_keeps {α : Type} {φ : State → α} (hr : ∀ t r i v, φ (State.setReg t r i v) = φ t)
    (hb : ∀ t x y i, φ (State.bump t x y i) = φ t) (hv : ∀ t dm c u, φ (State.raiseEv t dm c u) = φ t) (s : State) (t : Nat) (c : Chk) (a init : Nat) (event : Bool) :
    φ (s.logUEAt t c a init event) = φ s := by
  have hlog (u : State) (v w : Nat) : φ (if u.flag F.MEM_ELOG_VALID 0 = true then u else
      (u.setRegN .MEM_ELOG 0 v).setPair .MEM_ELOGL .MEM_ELOGH 0 w) = φ u := by
    split
    · rfl
    · exact (hr ..).trans ((hr ..).trans (hr ..))
  have hraise (u : State) (cls : Nat) : φ (if event = true then u.raiseEv 4 8 cls else u) = φ u := by
    split
    · exact hv ..
    · rfl
  unfold State.logUEAt
  exact (hraise _ _).trans ((hlog _ _ _).trans ((hr ..).trans (hb ..)))

/-- The check of a word leaves the engines alone. -/
@[simp] theorem checkRead_engine (a init e' : Nat) : (s.checkRead a init).2.engine e' = s.engine e' := by
  have heng : (s.checkRead a init).2.eng = s.eng := by
    unfold State.checkRead State.checkAs State.checkAt
    split
    · rfl
    · split
      · rfl
      · simp [State.logCE]
      · exact logUEAt_keeps (fun _ _ _ _ => rfl) (fun _ _ _ _ => bump_eng ..) (fun _ _ _ _ => raiseEv_eng ..) ..
  exact congrArg (fun t => Tab.look _ t e') heng

/-- A fetch takes the form that the fetch stage holds. -/
theorem laneFetch_held {idx : Nat} {o : OldForm} (h : (s.engine e).old.find? (fun o => o.idx == idx) = some o) :
    (s.laneFetch e idx).2.1 = o.word := by
  unfold State.laneFetch
  rw [h]

/-- A fetch of an engine that holds no old form takes what the engine reads. -/
theorem laneFetch_current {idx : Nat} (h : (s.engine e).old = []) :
    (s.laneFetch e idx).2.1 = (s.checkRead (s.laneAddr e (4 * idx)) 0).2.laneBytes e (4 * idx) 4 := by
  unfold State.laneFetch
  rw [h]
  rfl

/-- The forms of both instructions of the word that a store finds (R72). -/
def foundForms (s : State) (e a left : Nat) : List OldForm :=
  (List.range 2).map (fun i => s.formAt (s.engine e) (s.laneAddr e 0) (a / 8 * 2 + i) left)

theorem ageOld_foundForms (a left : Nat) : ageOld (foundForms s e a (left + 2)) = foundForms s e a (left + 1) := rfl

/-- A store of a single task into instruction memory leaves its entry and the forms that it found. -/
theorem laneStore_old {t n : Nat} {rs ra : BitVec 5} {simm : BitVec 13} (hf : Region.own.fault (s.laneEA e ra simm) n = none)
    (ha : s.laneEA e ra simm < 0x4000) (hr : (s.engine e).role = .single) (hl : (s.engine e).local_ = []) (ho : (s.engine e).old = []) :
    s.laneStore e n rs ra simm t = .seq (s.setEng e { s.engine e with
      old := foundForms s e (s.laneEA e ra simm) 3
      local_ := [storeEntry (s.laneEA e ra simm) n (storeValue s e n rs) t (s.physOf e)] }) := by
  unfold State.laneStore
  simp only [hf, ha, if_true, hr, ne_eq, not_true_eq_false, false_and, if_false, ho, List.nil_append]
  rw [placeLocal_empty (by rw [engine_setEng]; exact hl), setEng_setEng, engine_setEng, setEng_physOf_read]
  rfl

/-- The form of an instruction holds the word as the engine reads it. -/
theorem formAt_word {idx left : Nat} (hi : idx < 0x1000) (hl : (s.engine e).local_ = []) :
    (s.formAt (s.engine e) (s.laneAddr e 0) idx left).word = s.laneBytes e (4 * idx) 4 := by
  refine congrArg ofLeBytes (List.map_congr_left fun k hk => ?_)
  have hk := List.mem_range.mp hk
  have haddr : s.laneAddr e (4 * idx + k) = s.laneAddr e 0 + 4 * idx + k := by
    unfold State.laneAddr
    rw [if_pos (by omega), if_pos (by omega)]
    omega
  rw [State.laneByte, Eng.overlay, if_pos (by omega), hl, haddr]

end Sys2Proof.Laws
end

section
/-! SUPPORT. Granules of a lane engine (R40, R48): their faults, their reads, and a CST into an empty store buffer (R73, R90, R93). -/

namespace Sys2Proof.Laws
open Sys2Proof.Machine

variable {s : State} {e a : Nat}

/-! Faults (R48). -/

/-- Where CLD and CST reach: data memory and shared memory (R48). -/
def InGranules (a : Nat) : Prop := 0x10000 ≤ a ∧ a < 0x18000 ∨ 0x40000 ≤ a ∧ a < 0x80000

theorem inGranules_iff : ((decide (0x10000 ≤ a) && decide (a < 0x18000)) || (decide (0x40000 ≤ a) && decide (a < 0x80000))) = true ↔
    InGranules a := by
  simp [InGranules]

theorem granuleFault_outside (h : ¬ InGranules a) : granuleFault a = some 2 := by
  rw [← inGranules_iff, Bool.not_eq_true] at h
  rw [granuleFault, h]
  rfl

theorem granuleFault_misaligned (h : InGranules a) (ha : a % 16 ≠ 0) : granuleFault a = some 3 := by
  rw [granuleFault, inGranules_iff.mpr h, if_pos ha]
  rfl

theorem granuleFault_none (h : InGranules a) (ha : a % 16 = 0) : granuleFault a = none := by
  rw [granuleFault, inGranules_iff.mpr h, if_neg (not_not_intro ha)]
  rfl

/-! Reads (R95, R98). -/

/-- The second word of a granule is read in the third ec from an engine's own memories. -/
theorem readEc_own_second {t : Nat} (h : a < 0x40000) : readEc e t 1 a = t + 2 := if_pos h

/-- A word that passes its check in the ec of its read logs nothing (R71). -/
theorem laneCheckAt_valid {u : Nat} (h : s.chkWhen (MemWrite.from_ u) (s.laneAddr e a) = .valid) : s.laneCheckAt e u a = (false, s) := by
  rw [State.laneCheckAt, h]
  unfold State.checkAt
  split <;> rfl

/-- A CLD whose words pass their checks writes what they hold, with the tag of the granule. -/
theorem laneCld_reads {cd : BitVec 3} {ra : BitVec 5} {u v : Nat} (ha : (s.w e ra).toNat = a) (hf : granuleFault a = none)
    (hu : readEc e (s.laneFirst e) 0 a = u) (hv : readEc e (s.laneFirst e) 1 (a + 8) = v)
    (hcu : s.chkWhen (MemWrite.from_ u) (s.laneAddr e a) = .valid) (hcv : s.chkWhen (MemWrite.from_ v) (s.laneAddr e (a + 8)) = .valid) :
    laneCld e cd ra s = .seq (s.setLcap e cd
      ⟨s.laneTag e (max u v) a, BitVec.ofNat 128 (s.laneBytesAt e u a 8 + 2 ^ 64 * s.laneBytesAt e v (a + 8) 8)⟩) := by
  unfold State.laneFirst at hu hv
  simp only [laneCld, ha, hf, hu, hv, laneCheckAt_valid hcu, laneCheckAt_valid hcv, Bool.or_self, Bool.false_eq_true, if_false]

/-! Stores (R90, R93). -/

/-- The entries of a CST (R40). -/
def granuleEntries (a v t phys : Nat) : List SbEntry :=
  [⟨a, 255, v % 2 ^ 64, true, t, phys⟩, ⟨a + 8, 255, v / 2 ^ 64, true, t, phys⟩]

/-- Both words of a granule enter an empty local part in one ec. -/
theorem placeLocal_granule {t v : Nat} (h : (s.engine e).local_ = []) :
    (s.placeLocal e t a 255 (v % 2 ^ 64) true).placeLocal e t (a + 8) 255 (v / 2 ^ 64) true =
      s.setEng e { s.engine e with local_ := granuleEntries a v t (s.physOf e) } := by
  have hfirst : s.placeLocal e t a 255 (v % 2 ^ 64) true =
      s.setEng e { s.engine e with local_ := [⟨a, 255, v % 2 ^ 64, true, t, s.physOf e⟩] } := by
    simp [State.placeLocal, State.drainLocalBefore, h, repeatN]
  rw [hfirst]
  simp [State.placeLocal, State.drainLocalBefore, repeatN, granuleEntries]

/-- Both words of a granule enter an empty shared part. -/
theorem placeCst_granule {phys t : Nat} {c : Cap} (h : (s.engine e).shared = []) :
    s.placeCst e phys t a c = s.setEng e { s.engine e with shared := granuleEntries a c.val.toNat t phys } := by
  have hhigh : c.val.toNat / 2 ^ (64 * 1) % 2 ^ 64 = c.val.toNat / 2 ^ 64 := Nat.mod_eq_of_lt (Nat.div_lt_of_lt_mul c.val.isLt)
  have hlow : c.val.toNat / 2 ^ (64 * 0) % 2 ^ 64 = c.val.toNat % 2 ^ 64 := by rw [Nat.mul_zero, Nat.pow_zero, Nat.div_one]
  simp only [State.placeCst, State.drainSharedBefore, hhigh, hlow]
  simp [h, repeatN, placeShared, granuleEntries]

/-! The capability group (R73). -/

section
variable {cd cs : BitVec 3} {ra rb : BitVec 5}

theorem laneCperm_tagged (h : (s.lcap e cs).tag = true) : laneCperm e cd cs ra s =
    .seq (s.setLcap e cd ((s.lcap e cs).withBits 80 8 ((s.lcap e cs).perms &&& ((s.w e ra).toNat % 256)))) := by
  simp only [laneCperm, capPerm_tagged h]

theorem laneCperm_untagged (h : (s.lcap e cs).tag = false) : laneCperm e cd cs ra s = .abort s 4 := by
  simp only [laneCperm, capPerm_untagged h]

theorem laneCnarrow_within (h : (s.lcap e cs).tag = true) (hlen : (s.w e ra).toNat + (s.w e rb).toNat ≤ (s.lcap e cs).len) :
    laneCnarrow e cd cs ra rb s =
      .seq (s.setLcap e cd (((s.lcap e cs).withBits 0 40 ((s.lcap e cs).base + (s.w e ra).toNat)).withBits 40 40 (s.w e rb).toNat)) := by
  simp only [laneCnarrow, capNarrow_within h hlen]

theorem laneCnarrow_refused (h : (s.lcap e cs).tag = false ∨ (s.lcap e cs).len < (s.w e ra).toNat + (s.w e rb).toNat) :
    laneCnarrow e cd cs ra rb s = .abort s 4 := by
  simp only [laneCnarrow, capNarrow_refused h]

theorem laneCld_faults {c : Nat} (h : granuleFault (s.w e ra).toNat = some c) : laneCld e cd ra s = .abort s c := by
  simp only [laneCld, h]

theorem laneCst_faults {c : Nat} (h : granuleFault (s.w e ra).toNat = some c) : laneCst e cs ra s = .abort s c := by
  simp only [laneCst, h]

theorem laneCst_untagged (h : granuleFault (s.w e ra).toNat = none) (ht : (s.lcap e cs).tag = false) : laneCst e cs ra s = .abort s 4 := by
  simp only [laneCst, h, ht, Bool.not_false, if_true]

/-- A CST to data memory enters the local part. -/
theorem laneCst_local (h : granuleFault (s.w e ra).toNat = none) (ht : (s.lcap e cs).tag = true) (ha : (s.w e ra).toNat < 0x40000)
    (hl : (s.engine e).local_ = []) : laneCst e cs ra s = .seq (s.setEng e { s.engine e with
      local_ := granuleEntries (s.w e ra).toNat (s.lcap e cs).val.toNat (s.laneLast e 2) (s.physOf e) }) := by
  simp only [laneCst, h, ht, ha, Bool.not_true, Bool.false_eq_true, if_false, if_true]
  rw [placeLocal_granule hl]

/-- A CST of a single task to shared memory enters the shared part. -/
theorem laneCst_shared (h : granuleFault (s.w e ra).toNat = none) (ht : (s.lcap e cs).tag = true) (ha : 0x40000 ≤ (s.w e ra).toNat)
    (hr : (s.engine e).role = .single) (hl : (s.engine e).shared = []) : laneCst e cs ra s = .seq (s.setEng e { s.engine e with
      shared := granuleEntries (s.w e ra).toNat (s.lcap e cs).val.toNat (s.laneLast e 2) (s.physOf e) }) := by
  simp only [laneCst, h, ht, Nat.not_lt.mpr ha, Bool.not_true, Bool.false_eq_true, if_false]
  rw [State.laneOut, if_pos hr]
  simp only [State.issue, placeCst_granule hl]

end

end Sys2Proof.Laws
end

section
/-! PROOF. A store of a lane engine into its own instructions (R69, R72), and its capability group (R40, R48, R73, R95, R98). -/

namespace Sys2Proof.Proofs
open Sys2Proof.Machine Sys2Proof.Laws

/-- While an engine holds the forms that a store found, it executes both instructions of that word as they were. -/
theorem laneFetch_foundForms {s t : State} {e a left i : Nat} (ha : a < 0x4000) (hl : (s.engine e).local_ = [])
    (ho : (t.engine e).old = foundForms s e a left) (hi : i / 2 = a / 8) : (t.laneFetch e i).2.1 = s.laneBytes e (4 * i) 4 := by
  have hfind : (t.engine e).old.find? (fun o => o.idx == i) = some (s.formAt (s.engine e) (s.laneAddr e 0) i left) := by
    rw [ho]
    rcases (by omega : i = a / 8 * 2 + 0 ∨ i = a / 8 * 2 + 1) with rfl | rfl
    · simp [foundForms, State.formAt, List.range_succ]
    · simp [foundForms, State.formAt, List.range_succ]
  rw [laneFetch_held hfind, formAt_word (by omega) hl]

/-- Settles O16: the engine holds the forms that its store found for two instructions more, and then reads the store. -/
theorem laneOldForm : Obligations.LaneOldForm := by
  unfold Obligations.LaneOldForm
  intro s e rs ra simm h a g hlow hal hr hl ho
  have ha : effAddr s e.val ra simm = a := rfl
  have hstore := laneStore_old (s := s.laneAt e.val 1) (e := e.val) (n := 4) (rs := rs) (ra := ra) (simm := simm)
    (t := (s.laneAt e.val 1).laneLast e.val 1) (fault_none (own_holds.mpr (.inl hlow)) hal) hlow hr hl ho
  rw [laneEA_laneAt, ha] at hstore
  refine ⟨_, laneRun_seq h _ hstore (quiet_of_eq h.quiet rfl rfl), ?_⟩
  generalize ht : State.laneAdvance _ e.val 1 ((s.engine e.val).pc + 1) = t
  have hg : t.engine e.val = _ := ht ▸ engine_laneAdvance _ _ _ _
  rw [engine_setEng] at hg
  have ho1 : (t.engine e.val).old = foundForms s e.val a 2 := congrArg Eng.old hg
  have hl1 : (t.engine e.val).local_ = [storeEntry a 4 (storeValue s e.val 4 rs) (s.laneFirst e.val) (s.physOf e.val)] := congrArg Eng.local_ hg
  have hg2 := engine_laneAdvance t e.val 1 0
  have ho2 : ((t.laneAdvance e.val 1 0).engine e.val).old = foundForms s e.val a 1 := by
    rw [hg2, ho1]
    rfl
  have hg3 := engine_laneAdvance (t.laneAdvance e.val 1 0) e.val 1 0
  have ho3 : (((t.laneAdvance e.val 1 0).laneAdvance e.val 1 0).engine e.val).old = [] := by
    rw [hg3, ho2]
    rfl
  have hl3 : (((t.laneAdvance e.val 1 0).laneAdvance e.val 1 0).engine e.val).local_ =
      [storeEntry a 4 (storeValue s e.val 4 rs) (s.laneFirst e.val) (s.physOf e.val)] :=
    (congrArg Eng.local_ hg3).trans ((congrArg Eng.local_ hg2).trans hl1)
  have hword (i : Nat) (hi : i / 2 = a / 8) : (t.laneFetch e.val i).2.1 = s.laneBytes e.val (4 * i) 4 ∧
      ((t.laneAdvance e.val 1 0).laneFetch e.val i).2.1 = s.laneBytes e.val (4 * i) 4 :=
    ⟨laneFetch_foundForms hlow hl ho1 hi, laneFetch_foundForms hlow hl ho2 hi⟩
  have hidx : 4 * (a / 4) = a := by omega
  obtain ⟨hw1, hw2⟩ := hword (a / 4) (by omega)
  rw [hidx] at hw1 hw2
  refine ⟨hw1, hw2, hword _ (by omega), ?_⟩
  rw [laneFetch_current ho3, hidx, laneBytes_storeEntry (by omega) (by omega) ((congrArg Eng.local_ (checkRead_engine ..)).trans hl3)]
  exact Nat.mod_eq_of_lt (Nat.mod_lt _ (by decide)) |>.trans (Nat.mod_eq_of_lt (s.w e.val rs).isLt)

/-- A ready CLD or CST whose address is at fault (R48). -/
theorem granule_faults {s : State} {e cnt a : Nat} {x : Instr} {f : State → LRes} (h : s.LaneReady e cnt)
    (hx : exec x s = (s.laneRun e cnt f).ends) (hf : ∀ {c}, granuleFault a = some c → f (s.laneAt e cnt) = .abort (s.laneAt e cnt) c) :
    (¬ InGranules a → exec x s = s.laneAborts e cnt 2) ∧ (InGranules a → a % 16 ≠ 0 → exec x s = s.laneAborts e cnt 3) :=
  ⟨fun hout => hx.trans (laneRun_aborts h f (hf (granuleFault_outside hout))),
    fun hin hal => hx.trans (laneRun_aborts h f (hf (granuleFault_misaligned hin hal)))⟩

/-- Settles O18: registers by the laws of the capability group, granules by where their words are read and stored. -/
theorem laneCapability : Obligations.LaneCapability := by
  unfold Obligations.LaneCapability
  intro s e cd cs ra rb c a b g gives granule t0
  have hcap {cnt : Nat} {f : State → LRes} {v : Cap} (h : s.LaneReady e.val cnt)
      (hf : f (s.laneAt e.val cnt) = .seq ((s.laneAt e.val cnt).setLcap e.val cd v)) : (s.laneRun e.val cnt f).ends = gives cnt v :=
    laneRun_seq h f hf (quiet_of_eq h.quiet rfl rfl)
  refine ⟨fun h => ?_, fun h => ?_, fun h => ?_⟩
  · exact ⟨hcap h (f := laneCmov e cd cs) rfl, hcap h (f := laneCclr e cd) rfl, fun ht => hcap h (laneCperm_tagged ht),
      fun ht => laneRun_aborts h _ (laneCperm_untagged ht)⟩
  · obtain ⟨hout, hmis⟩ := granule_faults (a := a) (x := .cst (.lane e) cs ra) h rfl (laneCst_faults (s := s.laneAt e.val 2))
    refine ⟨fun ht hlen => hcap h (laneCnarrow_within ht hlen), fun hbad => laneRun_aborts h _ (laneCnarrow_refused hbad),
      fun hlow hhigh hal ht hl => ?_, fun hlow hhigh hal ht hl hr => ?_,
      fun hin hal ht => laneRun_aborts h _ (laneCst_untagged (granuleFault_none hin hal) ht), hout, hmis⟩
    · have hin : InGranules a := .inl ⟨hlow, hhigh⟩
      exact laneRun_seq h _ (laneCst_local (s := s.laneAt e.val 2) (granuleFault_none hin hal) ht (hhigh.trans (by decide)) hl) (quiet_of_eq h.quiet rfl rfl)
    · have hin : InGranules a := .inr ⟨hlow, hhigh⟩
      have hword : c.val.toNat / 2 ^ 64 % 2 ^ 64 = c.val.toNat / 2 ^ 64 := Nat.mod_eq_of_lt (Nat.div_lt_of_lt_mul c.val.isLt)
      rw [hword]
      exact laneRun_seq h _ (laneCst_shared (s := s.laneAt e.val 2) (granuleFault_none hin hal) ht hlow hr hl) (quiet_of_eq h.quiet rfl rfl)
  · obtain ⟨hout, hmis⟩ := granule_faults (a := a) (x := .cld (.lane e) cd ra) h rfl (laneCld_faults (s := s.laneAt e.val 5))
    refine ⟨fun u v hown hshared hin hal hcu hcv => ?_, hout, hmis⟩
    have hu : readEc e.val t0 0 a = u := readEc_eq (fun hlow => (hown hlow).1) fun hhigh =>
      have ⟨hlow, hlast, hbank, _⟩ := hshared hhigh
      ⟨hlow, hlast, hbank⟩
    have hv : readEc e.val t0 1 (a + 8) = v := by
      rcases hin with ⟨-, hhigh⟩ | ⟨hlow, -⟩
      · rw [readEc_own_second (by omega), (hown (by omega)).2]
      · obtain ⟨-, -, -, hfirst, hlast, hbank⟩ := hshared hlow
        exact readEc_shared (by omega) hfirst hlast (by omega)
    exact hcap h (laneCld_reads (s := s.laneAt e.val 5) rfl (granuleFault_none hin hal) hu hv hcu hcv)

end Sys2Proof.Proofs
end

section
/-! SUPPORT. Output effects of a lane engine (R75, R78, R82, R614): how a single task issues one, and what its operands come to. -/

namespace Sys2Proof.Laws
open Sys2Proof.Machine

variable {s t : State} {e : Nat}

/-- A ready instruction whose access its resource refuses in an ec (R614). -/
theorem laneRun_refused {cnt at_ : Nat} (h : s.LaneReady e cnt) (f : State → LRes) (hf : f (s.laneAt e cnt) = .refuse t at_) :
    (s.laneRun e cnt f).ends = (t.laneAbort e 4 (s.engine e).pc at_).ends := by
  rw [laneRun_ready h, hf]
  rfl

/-! Issue (R396, R614). -/

section
variable {cnt : Nat} {x : Effect} (hr : (s.engine e).role = .single) (records : List (List Byte))
include hr

/-- An output of a single task that its resource takes. -/
theorem laneOut_takes (hi : s.issue e (s.physOf e) (s.engine e).pc (s.laneLast e cnt) (some (s.engine e).start) false x = (false, t)) :
    s.laneOut e cnt x records = .seq t := by
  rw [State.laneOut, if_pos hr, hi]

/-- An output of a single task that its resource refuses at once. -/
theorem laneOut_refused (hi : s.issue e (s.physOf e) (s.engine e).pc (s.laneLast e cnt) (some (s.engine e).start) false x = (true, t)) :
    s.laneOut e cnt x records = .refuse t (t.laneLast e cnt) := by
  rw [State.laneOut, if_pos hr, hi]

end

/-! EDGE (R75, R161). -/

section
variable {cap : BitVec 3} {index rs rt : BitVec 5} {field : BitVec 8}

/-- The field codes of EDGE (R161). -/
def EdgeListed (f : Nat) : Prop := f ≤ 5 ∨ f = 0x10 ∨ 0x20 ≤ f ∧ f ≤ 0x23

theorem edgeCode_listed {f : Nat} (h : EdgeListed f) : edgeCode f = some (decide (5 < f)) := by
  unfold edgeCode
  split_ifs with hv ht
  · rw [decide_eq_false (Nat.not_lt.mpr hv)]
  · rw [decide_eq_true (Nat.not_le.mp hv)]
  · exact absurd (h.resolve_left hv) ht

theorem edgeCode_unlisted {f : Nat} (h : ¬ EdgeListed f) : edgeCode f = none := by
  rw [edgeCode, if_neg fun hv => h (.inl hv), if_neg fun ht => h (.inr ht)]

theorem laneEdge_unlisted (h : ¬ EdgeListed field.toNat) : laneEdge e cap index field rs rt s = .abort s 1 := by
  simp only [laneEdge, edgeCode_unlisted h]

/-- A value field takes no rt (R75). -/
theorem laneEdge_extra (h : field.toNat ≤ 5) (hrt : rt ≠ 0) : laneEdge e cap index field rs rt s = .abort s 1 := by
  simp only [laneEdge, edgeCode_listed (.inl h), Nat.not_lt.mpr h, hrt, decide_false, Bool.not_false, ne_eq, not_false_eq_true, and_self, if_true]

theorem edge_fields {f : Nat} (h : 5 < f ∨ rt = 0) : ¬ ((!decide (5 < f)) = true ∧ rt ≠ 0) := by
  rintro ⟨hf, hrt⟩
  rw [Bool.not_eq_true', decide_eq_false_iff_not] at hf
  exact hrt (h.resolve_left hf)

section
variable (h : EdgeListed field.toNat) (hrt : 5 < field.toNat ∨ rt = 0)
include h hrt

/-- A capability that does not give the pair aborts. -/
theorem laneEdge_refused (hc : s.capFor (s.lcap e cap) 2 2 = false ∨ (s.lcap e cap).len ≤ index.toNat) :
    laneEdge e cap index field rs rt s = .abort s 4 := by
  have hfields := edge_fields hrt
  have hcap : (!s.capFor (s.lcap e cap) 2 2 || decide ((s.lcap e cap).len < index.toNat + 1)) = true := by
    simpa [Nat.lt_succ_iff] using hc
  simp only [laneEdge, edgeCode_listed h, if_neg hfields, hcap, if_true]

/-- An EDGE of a single task whose pair takes it. -/
theorem laneEdge_takes (hc : s.capFor (s.lcap e cap) 2 2 = true) (hi : index.toNat < (s.lcap e cap).len) (hr : (s.engine e).role = .single)
    (heff : s.edgeEffect e (s.physOf e) (s.laneLast e 3) ((s.lcap e cap).base + index.toNat) field.toNat (s.w e rs).toNat
      (if field.toNat ≤ 5 then 0 else (s.w e rt).toNat % 128) = (false, t)) : laneEdge e cap index field rs rt s = .seq t := by
  have hfields := edge_fields hrt
  have hcap : ¬ (!s.capFor (s.lcap e cap) 2 2 || decide ((s.lcap e cap).len < index.toNat + 1)) = true := by
    simpa [hc, Nat.lt_succ_iff] using hi
  have hfine : (if decide (5 < field.toNat) = true then (s.w e rt).toNat % 128 else 0) =
      if field.toNat ≤ 5 then 0 else (s.w e rt).toNat % 128 := by
    by_cases h5 : field.toNat ≤ 5
    · simp [h5]
    · simp [h5, Nat.not_le.mp h5]
  simp only [laneEdge, edgeCode_listed h, if_neg hfields, if_neg hcap, hfine]
  exact laneOut_takes hr _ heff

end

end

/-! SEND (R82, R106). -/

section
variable {reg : BitVec 5} {route : BitVec 8}

theorem laneSend_sends (hv : routeValid (s.peek (routeAddr s.bank e route.toNat) 8) = true)
    (ho : routeIn (s.peek (routeAddr s.bank e route.toNat) 8) = false) (hr : (s.engine e).role = .single) :
    laneSend e reg route s = .seq (s.sendMsg e (s.physOf e) (s.laneLast e 2) route.toNat (s.w e reg).toNat false) := by
  simp only [laneSend, hv, ho, Bool.not_true, Bool.or_self, Bool.and_false, Bool.false_eq_true, if_false]
  exact laneOut_takes hr _ rfl

theorem laneSend_aborts (hc : (s.chkAt (routeAddr s.bank e route.toNat)).bad = false)
    (h : routeValid (s.peek (routeAddr s.bank e route.toNat) 8) = false ∨ routeIn (s.peek (routeAddr s.bank e route.toNat) 8) = true) :
    laneSend e reg route s = .abort s 0xA := by
  refine if_pos ?_
  rcases h with h | h <;> simp only [hc, h, Bool.not_false, Bool.true_or, Bool.or_true, Bool.and_self]

end

/-! SIG (R78, R325). -/

section
variable {cap : BitVec 3}

theorem laneSig_unnamed (h : s.namesChannel (s.lcap e cap) = false) : laneSig e cap s = .abort s 4 := by
  simp only [laneSig, h, Bool.not_false, if_true]

theorem laneSig_presents (h : s.namesChannel (s.lcap e cap) = true) (ho : s.planOwns 8 (s.lcap e cap).base = true)
    (hr : (s.engine e).role = .single) :
    laneSig e cap s = .seq (s.presentSig e (s.physOf e) (s.lcap e cap).base (s.laneLast e 2) false) := by
  simp only [laneSig, h, Bool.not_true, Bool.false_eq_true, if_false]
  refine laneOut_takes hr _ (if_neg ?_)
  simp only [ho, Bool.not_true, Bool.and_false, Bool.false_eq_true, not_false_eq_true]

theorem laneSig_refused (h : s.namesChannel (s.lcap e cap) = true) (ho : s.planOwns 8 (s.lcap e cap).base = false)
    (hr : (s.engine e).role = .single) (he : s.slotInEpoch (e / 8) (s.physOf e) = true) :
    laneSig e cap s = .refuse s (s.laneLast e 2) := by
  simp only [laneSig, h, Bool.not_true, Bool.false_eq_true, if_false]
  refine laneOut_refused hr _ (if_pos ?_)
  simp only [ho, he, Bool.not_false, Bool.and_self]

end

/-! RECV (R82). -/

section
variable {reg : BitVec 5} {route : BitVec 8}

theorem laneRecv_aborts (h : routeValid (s.peek (routeAddr s.bank e route.toNat) 8) = false ∨
    routeIn (s.peek (routeAddr s.bank e route.toNat) 8) = false) : laneRecv e reg route s = .abort s 0xA := by
  refine if_pos ?_
  rcases h with h | h <;> simp only [h, Bool.not_false, Bool.true_or, Bool.or_true]

/-- A message that came before the ec of a RECV is there for it. -/
theorem Rx_seen_before {r : Rx} {n : Nat} (h : r.came = none ∨ ∃ u v f a, r.came = some (u, v, f, a) ∧ u < n) :
    r.seen n = (r.value, r.fresh, r.any) ∧ r.taken n = { r with fresh := false } := by
  rcases h with h | ⟨u, v, f, a, h, hu⟩
  · simp only [Rx.seen, Rx.taken, h, and_self]
  · simp only [Rx.seen, Rx.taken, h, Nat.not_le.mpr hu, if_false, and_self]

/-- A message of that ec or a later one is not: the one before it is. -/
theorem Rx_seen_after {r : Rx} {n u v : Nat} {f a : Bool} (h : r.came = some (u, v, f, a)) (hu : n ≤ u) :
    r.seen n = (v, f, a) ∧ r.taken n = { r with came := some (u, v, false, a) } := by
  simp only [Rx.seen, Rx.taken, h, hu, if_true, and_self]

/-- What a RECV leaves (R82): a receive miss is counted and raises a safety event. -/
theorem laneRecv_takes {v : Nat} {fresh any : Bool} {r : Rx} (hv : routeValid (s.peek (routeAddr s.bank e route.toNat) 8) = true)
    (hi : routeIn (s.peek (routeAddr s.bank e route.toNat) 8) = true)
    (hseen : (s.rxAt s.bank e route.toNat).seen (s.laneFirst e) = (v, fresh, any))
    (htaken : (s.rxAt s.bank e route.toNat).taken (s.laneFirst e) = r) :
    laneRecv e reg route s = .seq (((if fresh then s else (s.bump F.SQ_ROUTESTAT_RXMISS F.SQ_ROUTESTAT_RXSAT (e / 8)).raiseEv (sqDom (e / 8)) 7
      (e / 8)).setRx s.bank e route.toNat r).setW e reg (BitVec.ofNat 32 (if any then v else 0))) := by
  unfold State.laneFirst at hseen htaken
  simp only [laneRecv, hv, hi, hseen, htaken, Bool.not_true, Bool.or_self, Bool.false_eq_true, if_false]
  rfl

end

end Sys2Proof.Laws
end

section
/-! PROOF. EDGE, SEND, RECV and SIG on a lane engine (R59, R75, R78, R82, R161, R325, R614). -/

namespace Sys2Proof.Proofs
open Sys2Proof.Machine Sys2Proof.Laws

/-- Settles O20: each output is one that its resource takes or refuses at once, and a RECV finds what its route holds before its ec. -/
theorem laneOutputs : Obligations.LaneOutputs := by
  unfold Obligations.LaneOutputs
  intro s e cap index rs rt reg field route g c x r edge takes listed
  refine ⟨fun h => ?_, fun h => ?_, fun h => ?_⟩
  · refine ⟨fun hno => laneRun_aborts h _ (laneEdge_unlisted hno), fun hval hrt => laneRun_aborts h _ (laneEdge_extra hval hrt),
      fun hyes hrt hc => laneRun_aborts h _ (laneEdge_refused hyes hrt hc),
      fun hyes hrt hc hi hr t ht => laneRun_ends h _ (laneEdge_takes hyes hrt hc hi hr ht)⟩
  · exact ⟨fun hv ho hr => laneRun_ends h _ (laneSend_sends hv ho hr), fun hc hbad => laneRun_aborts h _ (laneSend_aborts hc hbad),
      fun hn ho hr => laneRun_ends h _ (laneSig_presents hn ho hr), fun hn ho hr he => laneRun_refused h _ (laneSig_refused hn ho hr he),
      fun hn => laneRun_aborts h _ (laneSig_unnamed hn)⟩
  · have hrecv {v : Nat} {fresh any : Bool} {r' : Rx} (hv : routeValid x = true) (hi : routeIn x = true)
        (hseen : r.seen (s.laneFirst e.val) = (v, fresh, any)) (htaken : r.taken (s.laneFirst e.val) = r') : takes v fresh any r' := by
      have hdoes := laneRecv_takes (s := s.laneAt e.val 1) (e := e.val) (reg := reg) (route := route) hv hi hseen htaken
      refine ⟨fun hf => ?_, fun hf => ?_⟩
      · subst hf
        exact laneRun_seq h _ hdoes (quiet_of_eq h.quiet rfl rfl)
      · subst hf
        exact laneRun_ends h _ hdoes
    refine ⟨fun hv hi => ⟨fun hbefore => ?_, fun u v f a hcame hu => ?_⟩, fun hbad => laneRun_aborts h _ (laneRecv_aborts hbad)⟩
    · obtain ⟨hseen, htaken⟩ := Rx_seen_before (r := r) hbefore
      exact hrecv hv hi hseen htaken
    · obtain ⟨hseen, htaken⟩ := Rx_seen_after (r := r) hcame hu
      exact hrecv hv hi hseen htaken

end Sys2Proof.Proofs
end

section
/-! SUPPORT. The Lode instructions of a lane engine (R79 to R81, R86, R100, R101, R298, R614): their requests, their result, and what
they come to before any request. -/

namespace Sys2Proof.Laws
open Sys2Proof.Machine

variable {s : State} {e : Nat} {x : LodeOp}

/-! Requests and results. -/

/-- What a Lode instruction comes to with its first ec at t0, before its requests go out. -/
def lodeFound (s : State) (e : Nat) (x : LodeOp) : LodRes × State := s.lodeRun e x (s.laneFirst e) (s.lodeLost e)

/-- The ecs of the requests that it sends (R100). -/
def lodeSentAt (s : State) (e : Nat) (x : LodeOp) : List Nat := (lodeRequests x.m x.depth (s.laneFirst e)).take (lodeFound s e x).1.2

/-- Its requests sent. -/
def lodeSent (s : State) (e : Nat) (x : LodeOp) : Bool × State :=
  (lodeFound s e x).2.lodeSend e x.rd.toNat (s.laneFirst e + x.count) (lodeSentAt s e x)

/-- A Lode instruction that reads its table writes its value, or 0 where a request was not served (R101). -/
theorem laneLode_ok {v : Word} (h : (lodeFound s e x).1.1 = .ok v) :
    laneLode e x s = .seq ((lodeSent s e x).2.setW e x.rd (if (lodeSent s e x).1 then v else 0)) := by
  show (match (lodeFound s e x).1.1 with
    | .error c => _
    | .ok val => LRes.seq ((lodeSent s e x).2.setW e x.rd (if (lodeSent s e x).1 then val else 0))) = _
  rw [h]

/-- One that comes to a code aborts under it; a table that the plan does not own refuses the first request in its ec (R307, R614). -/
theorem laneLode_error {code : Nat} (h : (lodeFound s e x).1.1 = .error code) : laneLode e x s =
    if code = 4 ∧ (lodeFound s e x).1.2 = 1 then .refuse (lodeSent s e x).2 (s.laneFirst e + 2) else .abort (lodeSent s e x).2 code := by
  show (match (lodeFound s e x).1.1 with
    | .error c => if c = 4 ∧ (lodeFound s e x).1.2 = 1 then LRes.refuse (lodeSent s e x).2 (s.laneFirst e + 2) else .abort (lodeSent s e x).2 c
    | .ok val => _) = _
  rw [h]

/-- A request of an engine is lost in an ec in which a lower engine of its square sends one (R101). -/
theorem lodeLost_iff (s : State) (e u : Nat) :
    s.lodeLost e u = true ↔ ∃ j < 8, e / 8 * 8 + j < e ∧ s.lodeBusy (e / 8 * 8 + j) u = true := by
  simp only [State.lodeLost, List.any_eq_true, List.mem_range, Bool.and_eq_true, decide_eq_true_eq, Nat.mul_comm 8]

/-- Every request is served where none is lost. -/
theorem lodeSend_served (s : State) (e rd next : Nat) (ts : List Nat) :
    (s.lodeSend e rd next ts).1 = false ↔ ∃ u ∈ ts, s.lodeLost e u = true := by
  simp only [State.lodeSend, List.all_map, Bool.eq_false_iff, ne_eq, List.all_eq_true, Function.comp_apply, Bool.not_eq_true']
  push Not
  simp

/-- The budget of a ready Lode instruction cuts off none of its requests (R58). -/
theorem lodeCut_ready (h : s.LaneReady e x.count) : s.lodeCut e x = s := by
  have hb : decide ((s.engine e).budget < (s.engine e).used + x.count) = false := decide_eq_false (Nat.not_lt.mpr h.budget)
  unfold State.lodeCut
  simp only [hb, Bool.and_false, Bool.false_and, Bool.false_eq_true, if_false]

/-! What comes to an abort (R79, R80, R86, R298). -/

section
variable {t : Nat} {lost : Nat → Bool}

/-- Coordinates past w31, and a depth out of its range (R79). -/
theorem lodeRun_operands (h : 31 < x.ra.toNat + x.n - 1 ∨ x.m = 0 ∧ (x.depth = 0 ∨ 24 < x.depth)) :
    s.lodeRun e x t lost = ((.error 1, 0), s) := if_pos h

section
variable (h : ¬ (31 < x.ra.toNat + x.n - 1 ∨ x.m = 0 ∧ (x.depth = 0 ∨ 24 < x.depth)))
include h

theorem lodeRun_capability (hc : s.capFor (s.lcap e x.cap) 7 0 = false) : s.lodeRun e x t lost = ((.error 4, 0), s) := by
  unfold State.lodeRun
  simp only [if_neg h, hc, Bool.not_false, if_true]

/-- A descriptor of another kind than the instruction's (R298). -/
theorem lodeRun_kind (hc : s.capFor (s.lcap e x.cap) 7 0 = true)
    (hk : s.fld F.LOD_W0_KIND (s.lcap e x.cap).base ≠ if x.m = 0 then 4 else x.m) : (s.lodeRun e x t lost).1 = (.error 0x0B, 0) := by
  have hrun : (if x.m = 0 then s.lodWalk (s.lcap e x.cap).base x.n x.depth ((s.engine e).lodeArgs x.n x.ra) t lost
      else s.lodMap (s.lcap e x.cap).base x.m ((s.engine e).lodeArgs x.n x.ra) t lost) = ((.error 0x0B, 0), s) := by
    split
    next hm =>
      rw [if_pos hm] at hk
      simp only [State.lodWalk, bne_iff_ne.mpr hk, Bool.or_true, Bool.true_or, if_true]
    next hm =>
      rw [if_neg hm] at hk
      simp only [State.lodMap, bne_iff_ne.mpr hk, Bool.or_true, if_true]
  unfold State.lodeRun
  simp only [if_neg h, hc, hrun, Bool.not_true, bne_self_eq_false, Bool.and_false, Bool.false_eq_true, if_false]

end

/-- A table that the plan does not own refuses the first request, if it comes to one (R307). -/
theorem lodeRun_unowned (ho : s.planOwns 7 (s.lcap e x.cap).base = false) (hn : (s.lodeRun e x t lost).1.2 ≠ 0) :
    (s.lodeRun e x t lost).1 = (.error 4, 1) := by
  unfold State.lodeRun at hn ⊢
  extract_lets at hn ⊢
  split_ifs at hn ⊢ with hop hcap howns
  · exact absurd rfl hn
  · exact absurd rfl hn
  · rfl
  · rw [ho, Bool.not_false, Bool.true_and, bne_iff_ne] at howns
    exact absurd hn howns

end

end Sys2Proof.Laws
end

section
/-! PROOF. LOOK, INTERP2, INTERP3 and WALK on a lane engine (R59, R79 to R81, R86, R100, R101, R298, R307, R614). -/

namespace Sys2Proof.Proofs
open Sys2Proof.Machine Sys2Proof.Laws

/-- A ready Lode instruction sends its requests, and then writes what it found, 0 where one of them is lost, or aborts. -/
theorem lode_ready {s : State} {e : Nat} {x : LodeOp} {i : Instr} (h : s.LaneReady e x.count)
    (hi : exec i s = ((s.lodeCut e x).laneRun e x.count (laneLode e x)).ends) :
    let u := s.laneAt e x.count
    let r := lodeFound u e x
    let sent := lodeSent u e x
    let lost := ∃ t ∈ lodeSentAt u e x, ∃ j < 8, e / 8 * 8 + j < e ∧ r.2.lodeBusy (e / 8 * 8 + j) t = true
    (∀ v, r.1.1 = .ok v → lost → exec i s = s.laneEnds e x.count (sent.2.setW e x.rd 0)) ∧
      (∀ v, r.1.1 = .ok v → ¬ lost → exec i s = s.laneEnds e x.count (sent.2.setW e x.rd v)) ∧
      (∀ code, r.1.1 = .error code → exec i s = (sent.2.laneAbort e code (s.engine e).pc
        (if code = 4 ∧ r.1.2 = 1 then s.laneFirst e + 2 else s.laneFirst e)).ends) := by
  intro u r sent lost
  have hlost : sent.1 = false ↔ lost := by
    simp only [sent, lost, lodeSent, lodeSend_served, lodeLost_iff]
    rfl
  rw [hi, lodeCut_ready h]
  refine ⟨fun v hv hl => laneRun_ends h _ ?_, fun v hv hl => laneRun_ends h _ ?_, fun code hcode => ?_⟩
  · rw [laneLode_ok hv, show (lodeSent u e x).1 = false from hlost.mpr hl]
    rfl
  · rw [laneLode_ok hv, show (lodeSent u e x).1 = true from Bool.eq_true_of_not_eq_false fun hf => hl (hlost.mp hf)]
    rfl
  · rw [laneRun_ready h, laneLode_error hcode]
    split_ifs with hrefused
    · rw [hrefused.1]
      rfl
    · rfl

/-- Settles O21: the four instructions are one operation, whose requests and result are those of `lode_ready` and whose aborts are
those of `lodeRun`. -/
theorem laneLode : Obligations.LaneLode := by
  unfold Obligations.LaneLode
  intro s e rd ra cap nm1 depth c t0 runs
  have hruns {x : LodeOp} {i : Instr} (hcap : x.cap = cap)
      (hi : exec i s = ((s.lodeCut e x).laneRun e x.count (Machine.laneLode e x)).ends) : runs x i := by
    subst hcap
    intro h at_ r asks sent lost
    obtain ⟨hzero, hvalue, hcode⟩ := lode_ready h hi
    refine ⟨hzero, hvalue, hcode, fun ho hn => lodeRun_unowned ho hn, fun hra => congrArg Prod.fst (lodeRun_operands (.inl hra)),
      fun _ hd => congrArg Prod.fst (lodeRun_operands (.inr hd)), fun hra hd => ?_⟩
    have hlegal : ¬ (31 < x.ra.toNat + x.n - 1 ∨ x.m = 0 ∧ (x.depth = 0 ∨ 24 < x.depth)) := by
      rintro (hbad | ⟨hm, hbad⟩)
      · omega
      · have := hd hm
        omega
    exact ⟨fun hc => congrArg Prod.fst (lodeRun_capability (s := at_) hlegal hc), fun hc hk => lodeRun_kind (s := at_) hlegal hc hk⟩
  clear_value runs
  exact ⟨hruns rfl rfl, hruns rfl rfl, hruns rfl rfl, hruns rfl rfl⟩

end Sys2Proof.Proofs
end
section
/-! SUPPORT. Messages on the board network: losses, and the network of one and of two messages (R104, R105). -/

namespace Sys2Proof.Laws
open Sys2Proof.Machine

variable {s : State} {m o : Msg}

theorem raiseEv_withMsgs (l : List Msg) (d c u : Nat) :
    ({ s with msgs := l } : State).raiseEv d c u = { s.raiseEv d c u with msgs := l } := by
  have ha : ({ s with msgs := l } : State).alive d = s.alive d := rfl
  unfold State.raiseEv
  rw [ha]
  split <;> rfl

theorem bump_withMsgs (l : List Msg) (c x : Fld) (i : Nat) :
    ({ s with msgs := l } : State).bump c x i = { s.bump c x i with msgs := l } := by
  have hf : (({ s with msgs := l } : State).remark c x i).fld c i = (s.remark c x i).fld c i := rfl
  unfold State.bump
  dsimp only
  rw [hf]
  split <;> rfl

/-- A loss is counted and reported whatever else is on the network (R105). -/
theorem lostMsg_withMsgs (l : List Msg) : ({ s with msgs := l } : State).lostMsg m = { s.lostMsg m with msgs := l } := by
  unfold State.lostMsg
  dsimp only
  rw [bump_withMsgs, raiseEv_withMsgs]

@[simp] theorem lostMsg_msgs : (s.lostMsg m).msgs = s.msgs := by
  unfold State.lostMsg
  simp

/-- The only message lost leaves the network empty. -/
theorem dropMsgs_only (h : s.msgs = [m]) : s.dropMsgs [0] = ({ s with msgs := [] } : State).lostMsg m := by
  rw [lostMsg_withMsgs]
  unfold State.dropMsgs State.countLost State.removeMsgs
  simp [h]

/-- The second of two messages lost leaves the first. -/
theorem dropMsgs_second (h : s.msgs = [m, o]) : s.dropMsgs [1] = { s.lostMsg o with msgs := [m] } := by
  unfold State.dropMsgs State.countLost State.removeMsgs
  simp [h, List.range_succ]

/-- A message alone meets no other. -/
theorem otherMsgs_only (h : s.msgs = [m]) (p : Nat → Msg → Bool) : s.otherMsgs 0 p = [] := by
  simp [State.otherMsgs, h]

/-- The first of two messages can meet the second alone. -/
theorem otherMsgs_first (h : s.msgs = [m, o]) (p : Nat → Msg → Bool) : s.otherMsgs 0 p = if p 1 o = true then [1] else [] := by
  unfold State.otherMsgs
  rw [h]
  simp [List.range_succ, List.filter_cons]

/-- Of two messages that meet, the first proceeds where its engine is the lower, or is the same and a match does not release the second
alone (R105, R400). -/
theorem wins_first (h : m.src < o.src ∨ m.src = o.src ∧ (m.rel = o.rel ∨ m.rel = true)) :
    m.wins 0 o 1 = true ∧ o.wins 1 m 0 = false := by
  unfold Msg.wins
  obtain hlt | ⟨heq, hrel⟩ := h
  · simp [hlt, show ¬ o.src < m.src by omega, show o.src ≠ m.src by omega]
  · cases hm : m.rel <;> cases ho : o.rel <;> simp_all

/-! Crossings of a link (R104, R105). -/

section
variable {k q dir t : Nat} (hk : s.msgs[k]? = some m) (hl : m.link (m.crossed + 1) = some (q, dir, t))
include hk hl

theorem crossLink_off (hn : stepTo q dir = none) : s.crossLink k = (s.reach t).dropMsgs [k] := by
  simp only [State.crossLink, hk, hl, hn]

theorem crossLink_unpowered {nxt : Nat} (hn : stepTo q dir = some nxt) (ha : s.alive (sqDom nxt) = false) :
    s.crossLink k = (s.reach t).dropMsgs [k] := by
  have hr : (s.reach t).alive (sqDom nxt) = false := ha
  simp only [State.crossLink, hk, hl, hn, hr, Bool.not_false, if_true]

end

/-- Whether a message crosses a link direction in an ec (R105). -/
def msgCrosses (o : Msg) (q dir t : Nat) : Bool := (List.range (o.hops + 1)).any (fun j => o.link j == some (q, dir, t))

/-- A message that meets none which proceeds before it crosses, and those that it meets are lost. -/
theorem crossLink_crosses {k q dir t nxt : Nat} (hk : s.msgs[k]? = some m) (hl : m.link (m.crossed + 1) = some (q, dir, t))
    (hn : stepTo q dir = some nxt) (ha : s.alive (sqDom nxt) = true)
    (hw : (s.reach t).otherMsgs k (fun j o => msgCrosses o q dir t && o.wins j m k) = []) :
    s.crossLink k = ({ s.reach t with msgs := s.msgs.set k { m with crossed := m.crossed + 1 } } : State).dropMsgs
      ((s.reach t).otherMsgs k (fun j o => msgCrosses o q dir t && m.wins k o j)) := by
  have hr : (s.reach t).alive (sqDom nxt) = true := ha
  unfold msgCrosses at hw ⊢
  simp only [State.crossLink, hk, hl, hn, hr, hw, Bool.not_true, Bool.false_eq_true, if_false, List.isEmpty_nil, reach_msgs]

/-- No loss leaves the network as it is. -/
theorem dropMsgs_none (h : s.msgs = [m]) : s.dropMsgs [] = s := by
  have hr : (List.range s.msgs.length).filterMap (fun j => if [].contains j then none else s.msgs[j]?) = s.msgs := by simp [h]
  unfold State.dropMsgs State.countLost State.removeMsgs
  rw [List.foldl_nil, hr]

/-- A message alone crosses a link to a powered square. -/
theorem crossLink_only {q dir t nxt : Nat} (h : s.msgs = [m]) (hl : m.link (m.crossed + 1) = some (q, dir, t))
    (hn : stepTo q dir = some nxt) (ha : s.alive (sqDom nxt) = true) :
    s.crossLink 0 = { s.reach t with msgs := [{ m with crossed := m.crossed + 1 }] } := by
  have hk : s.msgs[0]? = some m := by rw [h]; rfl
  have hr : (s.reach t).msgs = [m] := h
  rw [crossLink_crosses hk hl hn ha (otherMsgs_only hr _), otherMsgs_only hr, h]
  exact dropMsgs_none rfl

/-- The first of two messages that meet crosses, and the second is lost. -/
theorem crossLink_first {q dir t nxt j : Nat} (h : s.msgs = [m, o]) (hl : m.link (m.crossed + 1) = some (q, dir, t))
    (hn : stepTo q dir = some nxt) (ha : s.alive (sqDom nxt) = true)
    (hw : m.src < o.src ∨ m.src = o.src ∧ (m.rel = o.rel ∨ m.rel = true)) (hj : j ≤ o.hops) (hm : o.link j = some (q, dir, t)) :
    s.crossLink 0 = { ({ s.reach t with msgs := [{ m with crossed := m.crossed + 1 }, o] } : State).lostMsg o with
      msgs := [{ m with crossed := m.crossed + 1 }] } := by
  have hk : s.msgs[0]? = some m := by rw [h]; rfl
  have hc : msgCrosses o q dir t = true := List.any_eq_true.mpr ⟨j, List.mem_range.mpr (by omega), by simp [hm]⟩
  obtain ⟨hwin, hlose⟩ := wins_first hw
  have hr : (s.reach t).msgs = [m, o] := h
  rw [crossLink_crosses hk hl hn ha (by rw [otherMsgs_first hr]; simp [hlose]), otherMsgs_first hr]
  simp only [hc, hwin, Bool.and_self, if_true, h]
  exact dropMsgs_second rfl

/-! Arrivals of a message alone (R83, R104 to R106). -/

/-- Whether the inbound entry x names a message (R105). -/
def MsgNamed (m : Msg) (x : Nat) : Prop :=
  routeValid x = true ∧ routeIn x = true ∧ bits 42 37 x = m.src / 8 ∧ bits 45 43 x = m.src % 8 ∧ bits 53 46 x = m.route

theorem named_iff (x : Nat) : (routeValid x && routeIn x && bits 42 37 x == m.src / 8 && bits 45 43 x == m.src % 8 && bits 53 46 x == m.route)
    = true ↔ MsgNamed m x := by
  simp [MsgNamed, and_assoc]

/-- The only message taken off the network. -/
theorem removeMsgs_only (h : s.msgs = [m]) : s.removeMsgs [0] = { s with msgs := [] } := by
  simp [State.removeMsgs, h]

section
variable (h : s.msgs = [m])
include h

theorem arrive_waits (hc : m.crossed < m.hops) : s.arrive 0 = s := by
  simp [State.arrive, h, hc]

variable (hc : m.hops ≤ m.crossed)
include hc

theorem arrive_fenced (he : m.epoch ≠ s.sqEpoch (m.src / 8)) :
    s.arrive 0 = ({ s.reach (m.sent + 4 + m.hops) with msgs := [] } : State).fence (m.src / 8) := by
  simp [State.arrive, h, Nat.not_lt.mpr hc, he]

variable (he : m.epoch = s.sqEpoch (m.src / 8))
include he

theorem arrive_unpowered (ha : s.alive (sqDom m.dstSq) = false) :
    s.arrive 0 = (s.reach (m.sent + 4 + m.hops)).dropMsgs [0] := by
  simp [State.arrive, h, Nat.not_lt.mpr hc, he, ha]

variable (ha : s.alive (sqDom m.dstSq) = true)
include ha

theorem arrive_named (hx : MsgNamed m (s.peek (routeAddr m.bank (8 * m.dstSq + m.dstEng) m.peer) 8)) :
    s.arrive 0 = ({ s.reach (m.sent + 4 + m.hops) with msgs := [] } : State).setRx m.bank (8 * m.dstSq + m.dstEng) m.peer
      (let r := s.rxAt m.bank (8 * m.dstSq + m.dstEng) m.peer
       ⟨m.value, true, true, some (m.sent + 4 + m.hops, r.value, r.fresh, r.any)⟩) := by
  have hh : (s.reach (m.sent + 4 + m.hops)).msgs = [m] := h
  have hp := (named_iff _).mpr hx
  simp only [State.arrive, h, List.getElem?_cons_zero, Nat.not_lt.mpr hc, if_false, reach_sqEpoch_read, reach_alive_read, reach_peek_read,
    he, beq_self_eq_true, Bool.not_true, Bool.false_eq_true, ha, otherMsgs_only hh, List.isEmpty_nil, State.countLost, List.foldl_nil,
    removeMsgs_only hh, hp, if_true]
  rfl

theorem arrive_unnamed (hx : ¬ MsgNamed m (s.peek (routeAddr m.bank (8 * m.dstSq + m.dstEng) m.peer) 8)) :
    s.arrive 0 = (({ s.reach (m.sent + 4 + m.hops) with msgs := [] } : State).bump F.SQ_ROUTESTAT_UNBOUND F.SQ_ROUTESTAT_UNBSAT
      m.dstSq).raiseEv (sqDom m.dstSq) 7 m.dstSq := by
  have hh : (s.reach (m.sent + 4 + m.hops)).msgs = [m] := h
  have hp := eq_false_of_ne_true (mt (named_iff _).mp hx)
  simp only [State.arrive, h, List.getElem?_cons_zero, Nat.not_lt.mpr hc, if_false, reach_sqEpoch_read, reach_alive_read, reach_peek_read,
    he, beq_self_eq_true, Bool.not_true, Bool.false_eq_true, ha, otherMsgs_only hh, List.isEmpty_nil, State.countLost, List.foldl_nil,
    removeMsgs_only hh, hp]

end

end Sys2Proof.Laws
end

section
/-! PROOF. Messages on the board network (R18, R82, R83, R104 to R106). -/

namespace Sys2Proof.Proofs
open Sys2Proof.Machine Sys2Proof.Laws

/-- A command of the engine clock has its effect while that clock runs. -/
theorem clocked_ends {s t u : State} (hk : s.engClock = true) (h : t = u) : .next (s.clocked t).finish = u.ends := by
  rw [clocked_runs hk, h, State.ends]

/-- Such a command that comes to a quiet state ends there. -/
theorem clocked_next {s t u : State} (hk : s.engClock = true) (h : t = u) (hq : u.Quiet) :
    (.next (s.clocked t).finish : Host.Outcome State Fault Refusal) = .next u := by
  rw [clocked_ends hk h, ends_of_quiet hq]

/-- Settles O42: a message alone meets none, and of two the one that proceeds is decided by their engines, then by what a match releases. -/
theorem boardMessages : Obligations.BoardMessages := by
  unfold Obligations.BoardMessages
  refine ⟨fun s hq hk => ⟨fun _ => congrArg Host.Outcome.next (finish_idle hk hq _), fun _ => congrArg Host.Outcome.next (finish_idle hk hq _)⟩,
    ?_, ?_⟩
  · intro s k m hq hk hm hlen src dst lost u x r named
    obtain ⟨o, ho⟩ := List.length_eq_one_iff.mp hlen
    obtain ⟨hk0, hom⟩ := List.getElem?_eq_some_iff.mp hm
    obtain rfl : k = 0 := by omega
    obtain rfl : o = m := by simpa [ho] using hom
    refine ⟨fun q dir t hl => ⟨fun nxt hn ha => ?_, fun nxt hn ha => ?_, fun hn => ?_⟩, fun hc => ?_, fun hc => ⟨fun he => ?_, fun he ha => ?_,
      fun he ha => ⟨fun hx => ?_, fun hx => ?_⟩⟩⟩
    · exact clocked_next hk (crossLink_only ho hl hn ha) hq
    · exact clocked_ends hk ((crossLink_unpowered hm hl hn ha).trans (dropMsgs_only ho))
    · exact clocked_ends hk ((crossLink_off hm hl hn).trans (dropMsgs_only ho))
    · exact clocked_next hk (arrive_waits ho hc) hq
    · exact clocked_next hk (arrive_fenced ho hc he) (quiet_of_eq hq (bump_raised ..) (bump_notes ..))
    · exact clocked_ends hk ((arrive_unpowered ho hc he ha).trans (dropMsgs_only ho))
    · exact clocked_next hk (arrive_named ho hc he ha hx) hq
    · exact clocked_ends hk (arrive_unnamed ho hc he ha hx)
  · intro s m o q dir t nxt hq hk h hw hl ⟨j, _, hj, hm⟩ hn ha
    exact clocked_ends hk (crossLink_first h hl hn ha hw hj hm)

end Sys2Proof.Proofs
end
section
/-! SUPPORT. Words stored under byte enables, and what a store buffer's entry and a window store come to (R71, R83, R91, R92, R94, R111). -/

namespace Sys2Proof.Laws
open Sys2Proof.Machine

variable {s t : State} {a en v : Nat}

/-! Bytes under a mask (R71). -/

/-- Bytes put under a mask change memory alone. -/
theorem pokeMask_mem (s : State) (a en v : Nat) : ∃ mem, s.pokeMask a en v = { s with mem := mem } := by
  refine repeatN_inv (fun t => ∃ mem, t = { s with mem := mem }) 8 _ (fun k t ht => ?_) s ⟨s.mem, rfl⟩
  obtain ⟨mem, rfl⟩ := ht
  split
  · exact ⟨_, rfl⟩
  · exact ⟨_, rfl⟩

theorem byte_pokeMask_on (s : State) (v : Nat) {i : Nat} (hi : i < 8) (h : bit i en = true) :
    (s.pokeMask a en v).byte (a + i) = BitVec.ofNat 8 (v >>> (8 * i)) := by
  refine repeatN_at (before := fun _ _ => True) (after := fun i (t : State) => bit i en = true → t.byte (a + i) = BitVec.ofNat 8 (v >>> (8 * i)))
    (fun i _ t _ hb => ?_) (fun _ _ _ _ _ _ _ => trivial) (fun i _ k _ hne t ht hb => ?_) (fun _ _ => trivial) i hi h
  · rw [if_pos hb, byte_setByte]
  · split
    · rw [byte_setByte_ne _ _ (by omega), ht hb]
    · exact ht hb

theorem byte_pokeMask_off (s : State) (v : Nat) {b : Nat} (h : ∀ i < 8, bit i en = true → b ≠ a + i) :
    (s.pokeMask a en v).byte b = s.byte b := by
  refine List.foldlRecOn (motive := fun t : State => t.byte b = s.byte b) (List.range 8) _ rfl fun t ht k hk => ?_
  beta_reduce
  split
  next hb => rw [byte_setByte_ne _ _ (h k (List.mem_range.mp hk) hb), ht]
  next => exact ht

/-- A whole word is written as under a full mask. -/
theorem poke_eq_pokeMask (s : State) (a v : Nat) : s.poke a 8 v = s.pokeMask a 255 v := by
  rw [State.poke, leBytes_eq_map]
  rfl

theorem putMask_full (hs : isSram a = true) (init : Nat) :
    s.putMask a 255 v init = ((s.setTag a false).pokeMask a 255 v).setChk a .valid := by
  simp only [State.putMask, hs, if_true, Bool.not_true, Bool.false_eq_true, if_false, poke_eq_pokeMask]

theorem putMask_part (hs : isSram a = true) (hc : s.chkAt a = .valid) (he : en ≠ 255) (init : Nat) :
    s.putMask a en v init = (s.setTag a false).pokeMask a en v := by
  simp only [State.putMask, hs, if_true, Bool.not_true, Bool.false_eq_true, if_false, he, setTag_chkAt_read, hc]

/-- A write remembered changes what is remembered alone. -/
theorem remember_hist (s t : State) (u : Nat) (eng : Option Nat) (win : Bool) (w en : Nat) :
    ∃ hist, s.remember t u eng win w en = { t with hist := hist } := by
  unfold State.remember
  split
  · exact ⟨_, rfl⟩
  · exact ⟨_, rfl⟩

theorem chkAt_setChk (s : State) (a : Nat) : (s.setChk a .valid).chkAt a = .valid := by
  unfold State.chkAt State.setChk
  simp

theorem tagAt_setTag (s : State) (a : Nat) (b : Bool) : (s.setTag a b).tagAt a = b := Tab_look_put_same ..

/-- What a word stored under byte enables in SRAM leaves: the bytes that they select, the granule's tag cleared, and nothing to be acted
on (R40, R71). -/
structure Stored (s t : State) (a en v : Nat) : Prop where
  now : t.now = s.now
  regs : t.regs = s.regs
  eng : t.eng = s.eng
  raised : t.raised = s.raised
  notes : t.notes = s.notes
  on : ∀ i < 8, bit i en = true → t.byte (a + i) = BitVec.ofNat 8 (v / 2 ^ (8 * i))
  off : ∀ b, (∀ i < 8, bit i en = true → b ≠ a + i) → t.byte b = s.byte b
  tag : t.tagAt a = false
  chk : t.chkAt a = .valid

theorem stored_pokeMask (s : State) (hc : s.chkAt a = .valid) : Stored s ((s.setTag a false).pokeMask a en v) a en v := by
  have hon := fun i hi h => byte_pokeMask_on (a := a) (en := en) (s.setTag a false) v (i := i) hi h
  have hoff := fun b h => byte_pokeMask_off (a := a) (en := en) (s.setTag a false) v (b := b) h
  obtain ⟨mem, hm⟩ := pokeMask_mem (s.setTag a false) a en v
  rw [hm] at hon hoff ⊢
  exact ⟨rfl, rfl, rfl, rfl, rfl, fun i hi h => by rw [hon i hi h, Nat.shiftRight_eq_div_pow], hoff, tagAt_setTag s a false, hc⟩

theorem Stored.valid (h : Stored s t a en v) : Stored s (t.setChk a .valid) a en v :=
  ⟨h.now, h.regs, h.eng, h.raised, h.notes, h.on, h.off, h.tag, chkAt_setChk t a⟩

theorem Stored.remembered (h : Stored s t a en v) (hist : List MemWrite) : Stored s { t with hist := hist } a en v :=
  ⟨h.now, h.regs, h.eng, h.raised, h.notes, h.on, h.off, h.tag, h.chk⟩

theorem stored_putMask (s : State) (hs : isSram a = true) (hc : s.chkAt a = .valid) (init : Nat) :
    Stored s (s.putMask a en v init) a en v := by
  have h := stored_pokeMask (en := en) (v := v) s hc
  by_cases he : en = 255
  · rw [he] at h ⊢
    rw [putMask_full hs]
    exact h.valid
  · rw [putMask_part hs hc he]
    exact h

/-- An entry of an engine's store buffer written in SRAM. -/
theorem stored_writeMaskAt (s : State) (u e init : Nat) (hs : isSram a = true) (hc : s.chkAt a = .valid) (he : en ≠ 0)
    (hr : routeBits a v = v) : Stored s (s.writeMaskAt u (some e) false a en v init) a en v := by
  have h := stored_putMask (en := en) (v := v) s hs hc init
  obtain ⟨hist, hh⟩ := remember_hist s (s.putMask a en v init) u (some e) false a en
  have hw : s.writeMaskAt u (some e) false a en v init = { s.putMask a en v init with hist := hist } := by
    simp only [State.writeMaskAt, Option.isSome_some, if_true, he, if_false, hr, hh]
  rw [hw]
  exact h.remembered hist

/-! Where the entries of an engine lie (R579, R581). -/

/-- Where an entry for a physical engine's own memories or for the shared memory of its square lies. -/
def entryAddr (sq phys a : Nat) : Nat :=
  if a < 0x4000 then sqBase sq + phys * 0x10000 + a
  else if a < 0x40000 then sqBase sq + phys * 0x10000 + 0x4000 + (a - 0x10000)
  else sqBase sq + 0xC0000 + (a - 0x40000)

theorem entryAddr_own (sq phys : Nat) (hlo : 0x10000 ≤ a) (hhi : a < 0x18000) :
    entryAddr sq phys a = sqBase sq + phys * 0x10000 + 0x4000 + (a - 0x10000) := by
  unfold entryAddr
  rw [if_neg (by omega), if_pos (by omega)]

theorem entryAddr_shared (sq phys : Nat) (hlo : 0x40000 ≤ a) : entryAddr sq phys a = sqBase sq + 0xC0000 + (a - 0x40000) := by
  unfold entryAddr
  rw [if_neg (by omega), if_neg (by omega)]

theorem sqBase_eq (sq : Nat) : sqBase sq = 0x200000000 + sq * 0x100000 := rfl

/-- An address of a square in the data memory of an engine or in the shared memory is in SRAM. -/
theorem isSram_square {sq o : Nat} (hq : sq < 64) (ho : o < 0x100000) (h : o < 0x90000 ∧ o % 0x10000 < 0xC000 ∨ 0xC0000 ≤ o) :
    isSram (sqBase sq + o) = true := by
  have hmod : (sqBase sq + o) % 0x100000 = o := by rw [sqBase_eq]; omega
  have hmod' : (sqBase sq + o) % 0x10000 = o % 0x10000 := by rw [sqBase_eq]; omega
  have hlo : sqSpace ≤ sqBase sq + o := by rw [sqBase_eq, sqSpace]; omega
  have hhi : sqBase sq + o < sqSpace + 0x4000000 := by rw [sqBase_eq, sqSpace]; omega
  unfold isSram
  rw [hmod, hmod', decide_eq_true hlo, decide_eq_true hhi]
  obtain ⟨h1, h2⟩ | h := h
  · simp [h1, h2]
  · simp [h]

/-- An address of a square outside its route tables holds every bit. -/
theorem routeBits_square {sq o : Nat} (ho : o < 0x100000) (h : o < 0xB0000 ∨ 0xB8000 ≤ o) (v : Nat) : routeBits (sqBase sq + o) v = v := by
  have hmod : (sqBase sq + o) % 0x100000 = o := by rw [sqBase_eq]; omega
  refine if_neg fun hc => ?_
  rw [hmod] at hc
  simp only [Bool.and_eq_true, decide_eq_true_eq] at hc
  omega

/-- A word of data memory or of shared memory that an entry names is in SRAM, and holds every bit. -/
theorem entryAddr_sram {sq phys : Nat} (hq : sq < 64) (h : (0x10000 ≤ a ∧ a < 0x18000) ∧ phys < 9 ∨ 0x40000 ≤ a ∧ a < 0x80000) :
    isSram (entryAddr sq phys a) = true ∧ ∀ v, routeBits (entryAddr sq phys a) v = v := by
  obtain ⟨⟨hlo, hhi⟩, hp⟩ | ⟨hlo, hhi⟩ := h
  · have he : entryAddr sq phys a = sqBase sq + (phys * 0x10000 + 0x4000 + (a - 0x10000)) := by rw [entryAddr_own sq phys hlo hhi]; omega
    rw [he]
    exact ⟨isSram_square hq (by omega) (by omega), routeBits_square (by omega) (by omega)⟩
  · have he : entryAddr sq phys a = sqBase sq + (0xC0000 + (a - 0x40000)) := by rw [entryAddr_shared sq phys hlo]; omega
    rw [he]
    exact ⟨isSram_square hq (by omega) (by omega), routeBits_square (by omega) (by omega)⟩

/-! Drains (R83, R91, R92). -/

section
variable {e u : Nat} {x : SbEntry} {rest : List SbEntry}

theorem drainEntry_stale (h : s.slotInEpoch (e / 8) x.phys = false) : s.drainEntry e u x rest = s.fence (e / 8) := by
  simp [State.drainEntry, h]

/-- Of an entry in epoch that no CST left, the word is written where the entry lies. -/
theorem drainEntry_stores (h : s.slotInEpoch (e / 8) x.phys = true) (hc : x.cst = false) :
    s.drainEntry e u x rest = s.writeMaskAt u (some e) false (entryAddr (e / 8) x.phys x.addr) x.en x.data 0 := by
  unfold State.drainEntry entryAddr
  extract_lets sq b a
  rw [h, hc]
  rfl

theorem drainLocal_cons (h : (s.engine e).local_ = x :: rest) :
    s.drainLocal e = ((s.reach (x.at_ + 1)).setEng e { s.engine e with local_ := rest }).drainEntry e (x.at_ + 1) x rest := by
  simp only [State.drainLocal, h]

theorem drainShared_due {i : Nat} (hn : (s.engine e).nextShared e = some (i, u)) (hx : (s.engine e).shared[i]? = some x) :
    s.drainShared e = ((s.reach u).setEng e { s.engine e with shared := (s.engine e).shared.eraseIdx i, drained := u }).drainEntry e u x
      ((s.engine e).shared.eraseIdx i) := by
  simp only [State.drainShared, hn, hx]

end

/-! Window stores (R83, R111, R614). -/

section
variable {k : Nat} {w : WStore} (hk : s.wstores[k]? = some w)
include hk

theorem windowEffect_stale (he : w.epoch ≠ s.sqEpoch (w.eng / 8)) :
    s.windowEffect k = ({ s with wstores := s.wstores.eraseIdx k }.reach w.due).fence (w.eng / 8) := by
  simp only [State.windowEffect, hk]
  exact if_pos (bne_iff_ne.mpr he)

variable (he : w.epoch = s.sqEpoch (w.eng / 8))
include he

theorem windowEffect_taken (h : ({ s with wstores := s.wstores.eraseIdx k }.reach w.due).winWrite w.eng w.cap w.offset w.size w.value w.due
    = (none, t)) : s.windowEffect k = t := by
  simp only [State.windowEffect, hk]
  exact (if_neg fun hne => bne_iff_ne.mp hne he).trans (by rw [h])

theorem windowEffect_refused {err : BusErr}
    (h : ({ s with wstores := s.wstores.eraseIdx k }.reach w.due).winWrite w.eng w.cap w.offset w.size w.value w.due = (some err, t)) :
    s.windowEffect k = t.refuseEngine w.eng w.phys w.pc w.due w.task w.dup := by
  simp only [State.windowEffect, hk]
  exact (if_neg fun hne => bne_iff_ne.mp hne he).trans (by rw [h])

end

theorem refuseEngine_runs {e phys pc u : Nat} {dup : Bool} (h : (s.engine e).running = true) :
    s.refuseEngine e phys pc u (some (s.engine e).start) dup = s.laneAbort e 4 pc u := by
  simp [State.refuseEngine, h]

theorem refuseEngine_ended {e phys pc u : Nat} {task : Option Nat} {dup : Bool} (h : (s.engine e).running = false) :
    s.refuseEngine e phys pc u task dup = (s.recordAbortAs e phys 4 pc u dup).raiseEv (sqDom (e / 8)) 4 (e / 8) := by
  simp [State.refuseEngine, h]

end Sys2Proof.Laws
end

section
/-! PROOF. Store-buffer drains and window stores (R18, R83, R91, R92, R94, R111). -/

namespace Sys2Proof.Proofs
open Sys2Proof.Machine Sys2Proof.Laws

/-- A drain of an entry in epoch takes it off its buffer, stores the bytes that it selects, and ends there. -/
theorem drain_stores {s u : State} {e a n : Nat} {x : SbEntry} {rest : List SbEntry} {g : Eng} (hk : s.engClock = true) (hq : s.Quiet)
    (hd : u = ((s.reach n).setEng e g).drainEntry e n x rest) (hsq : e / 8 < 64)
    (hr : (0x10000 ≤ x.addr ∧ x.addr < 0x18000) ∧ x.phys < 9 ∨ 0x40000 ≤ x.addr ∧ x.addr < 0x80000)
    (ha : entryAddr (e / 8) x.phys x.addr = a) (hen : x.en ≠ 0) (hcst : x.cst = false) (hchk : s.chkAt a = .valid)
    (hin : s.slotInEpoch (e / 8) x.phys = true) :
    ∃ t, (.next (s.clocked u).finish : Host.Outcome State Fault Refusal) = .next t ∧ t.engine e = g ∧ t.now = (s.reach n).now ∧
      t.regs = s.regs ∧ (∀ i < 8, bit i x.en = true → t.byte (a + i) = BitVec.ofNat 8 (x.data / 2 ^ (8 * i))) ∧
      (∀ b, (∀ i < 8, bit i x.en = true → b ≠ a + i) → t.byte b = s.byte b) ∧ t.tagAt a = false ∧ t.chkAt a = .valid := by
  obtain ⟨hs, hb⟩ := entryAddr_sram (phys := x.phys) hsq hr
  rw [ha] at hs hb
  have hw := hd.trans (drainEntry_stores (s := (s.reach n).setEng e g) hin hcst)
  rw [ha] at hw
  have h := stored_writeMaskAt ((s.reach n).setEng e g) n e 0 hs hchk hen (hb x.data)
  have hg : (((s.reach n).setEng e g).writeMaskAt n (some e) false a x.en x.data 0).engine e = g := by
    unfold State.engine
    rw [h.eng]
    exact engine_setEng (s := s.reach n) e g
  exact ⟨_, clocked_next hk hw (quiet_of_eq hq h.raised h.notes), hg, h.now, h.regs, h.on, h.off, h.tag, h.chk⟩

/-- Settles O41: an entry in epoch lies in SRAM, where its drain stores the bytes that it selects; a stale one is counted alone. -/
theorem bufferedEffects : Obligations.BufferedEffects := by
  unfold Obligations.BufferedEffects
  refine ⟨fun s hq hk => ⟨fun _ => congrArg Host.Outcome.next (finish_idle hk hq _), fun _ => congrArg Host.Outcome.next (finish_idle hk hq _),
    fun _ => congrArg Host.Outcome.next (finish_idle hk hq _)⟩, ?_⟩
  intro s e x rest k hq hk g sq own shared wrote
  have hsq : e.val / 8 < 64 := by omega
  refine ⟨fun hl hen hlo hhi _ hp hcst hchk => ⟨fun hin => ?_, fun hout => ?_⟩,
    fun i u hn hx hen hlo hhi _ hcst hchk => ⟨fun hin => ?_, fun hout => ?_⟩, fun w hw => ?_⟩
  · exact drain_stores hk hq (drainLocal_cons hl) hsq (.inl ⟨⟨hlo, hhi⟩, hp⟩) (entryAddr_own _ _ hlo hhi) hen hcst hchk hin
  · exact clocked_next hk ((drainLocal_cons hl).trans (drainEntry_stale hout)) (quiet_of_eq hq (bump_raised ..) (bump_notes ..))
  · exact drain_stores hk hq (drainShared_due hn hx) hsq (.inr ⟨hlo, hhi⟩) (entryAddr_shared _ _ hlo) hen hcst hchk hin
  · exact clocked_next hk ((drainShared_due hn hx).trans (drainEntry_stale hout)) (quiet_of_eq hq (bump_raised ..) (bump_notes ..))
  · refine ⟨fun he => ?_, fun he t => ⟨fun h => ?_, fun err h hr ht => ?_, fun err h hr => ?_⟩⟩
    · exact clocked_next hk (windowEffect_stale hw he) (quiet_of_eq hq (bump_raised ..) (bump_notes ..))
    · exact clocked_ends hk (windowEffect_taken hw he h)
    · refine clocked_ends hk ((windowEffect_refused hw he h).trans ?_)
      rw [ht]
      exact refuseEngine_runs hr
    · exact clocked_ends hk ((windowEffect_refused hw he h).trans (refuseEngine_ended hr))

end Sys2Proof.Proofs
end

section
/-! SUPPORT. Withdrawal of a pending start or switch (R137): what CANCEL comes to, and the engines whose clocks a wake lead of the
withdrawn start has opened (R117). -/

namespace Sys2Proof.Laws
open Sys2Proof.Machine

variable {s : State}

/-! Engines put to sleep (R117). -/

/-- Clocks that close change engines alone. -/
theorem sleepEngines_eng (es : List Nat) : ∀ s : State, ∃ eng, s.sleepEngines es = { s with eng := eng } := by
  induction es with
  | nil => exact fun s => ⟨s.eng, rfl⟩
  | cons e es ih => exact fun s => ih (s.setEng e { s.engine e with woken := false })

/-- No clock opens as clocks close, and those named are closed. -/
theorem sleepEngines_woken (es : List Nat) : ∀ {s : State} {e : Nat}, ((s.sleepEngines es).engine e).woken = true →
    e ∉ es ∧ (s.engine e).woken = true := by
  induction es with
  | nil => exact fun h => ⟨List.not_mem_nil, h⟩
  | cons k es ih =>
    intro s e h
    obtain ⟨hes, hw⟩ := ih (s := s.setEng k { s.engine k with woken := false }) h
    by_cases he : e = k
    · subst he
      rw [engine_setEng] at hw
      cases hw
    · rw [engine_setEng_ne _ _ he] at hw
      exact ⟨by simp [he, hes], hw⟩

/-- The engines whose clocks stand open for a wake lead. -/
def wokenEngines (s : State) : List Nat := (s.eng.map (fun (p : Nat × Eng) => p.1)).filter (fun e => (s.engine e).woken)

/-- A table holds every key at which it differs from what it shows elsewhere. -/
theorem Tab_mem_of_look_ne {α : Type} {d : Nat → α} {t : Tab α} {k : Nat} (h : Tab.look d t k ≠ d k) : k ∈ t.map (fun p => p.1) := by
  induction t with
  | nil => exact absurd rfl h
  | cons p t ih =>
    obtain ⟨k', v⟩ := p
    by_cases hk : k = k'
    · simp [hk]
    · simp only [Tab.look, hk, if_false] at h
      exact List.mem_cons_of_mem _ (ih h)

theorem mem_wokenEngines {e : Nat} (h : (s.engine e).woken = true) : e ∈ wokenEngines s := by
  refine List.mem_filter.mpr ⟨Tab_mem_of_look_ne (d := fun _ => Eng.init) fun hinit => ?_, h⟩
  have hlook : s.engine e = Eng.init := hinit
  rw [hlook] at h
  cases h

/-! CANCEL (R137). -/

theorem placed_SCH_CTL : placed .SCH_CTL 0 = true := by decide +kernel

theorem regWrite_SCH_CTL (a : Agent) (v u : Nat) : s.regWrite a .SCH_CTL 0 v u = s.schCtl v := by
  have hb : keyBlock (Reg.SCH_CTL.key 0) = 1 := keyBlock_key _ (by decide)
  unfold State.regWrite
  rw [hb]; rfl

/-- CANCEL is taken before what else the write holds is looked at (R137). -/
theorem schCtl_cancel (h : s.alive 4 = true) : s.schCtl 8 = s.schCancel := by
  unfold State.schCtl
  rw [h]; rfl

theorem exec_cancel {who : Initiator} (h : s.Takes who .SCH_CTL 0) (h4 : s.alive 4 = true) : exec (.cancel who) s = s.schCancel.ends := by
  show (s.writeBy who .SCH_CTL 0 8).ends = _
  rw [writeBy_takes h placed_SCH_CTL (by decide), regWrite_SCH_CTL, schCtl_cancel h4]

section
variable {b o : Nat} (hp : s.schPending = true) (hs : s.sched.pend = .start b o)
include hs

theorem schCancel_start (ho : s.now + 4 < o) : s.schCancel = s.schWithdraw := by
  unfold State.schCancel
  rw [hs]
  exact if_pos ho

include hp

/-- A start withdrawn closes the clocks that stand open, beside what every withdrawal does (R117, R137). -/
theorem schWithdraw_start : s.schWithdraw = ((s.sleepEngines (wokenEngines s)).schPend .none).setFld F.SCH_STATUS_CANCELLED 0 1 := by
  unfold State.schWithdraw
  rw [hp, hs]; rfl

theorem quiet_schWithdraw_start (hq : s.Quiet) : s.schWithdraw.Quiet := by
  obtain ⟨eng, heng⟩ := sleepEngines_eng (wokenEngines s) s
  rw [schWithdraw_start hp hs, heng]
  exact hq

/-- No engine's clock stands open for a wake lead once a start is withdrawn (R117). -/
theorem schWithdraw_start_sleeps (e : Nat) : (s.schWithdraw.engine e).woken = false := by
  rw [schWithdraw_start hp hs]
  refine Bool.eq_false_iff.mpr fun h => ?_
  obtain ⟨hout, hw⟩ := sleepEngines_woken (wokenEngines s) h
  exact hout (mem_wokenEngines hw)

end

/-- CANCEL in time withdraws a pending start, and leaves no clock open for its wake leads (R117, R137). -/
theorem exec_cancel_start {who : Initiator} {b o : Nat} (ht : s.Takes who .SCH_CTL 0) (h4 : s.alive 4 = true) (hp : s.schPending = true)
    (hs : s.sched.pend = .start b o) (ho : s.now + 4 < o) :
    ∃ t, exec (.cancel who) s = .next t ∧ ∀ e, (t.engine e).woken = false := by
  refine ⟨s.schWithdraw, ?_, schWithdraw_start_sleeps hp hs⟩
  rw [exec_cancel ht h4]
  exact ends_of_eq (schCancel_start hs ho) (quiet_schWithdraw_start hp hs ht.quiet)

end Sys2Proof.Laws
end

section
/-! PROOF. Plans and the board-image loader (R117, R137): a start is withdrawn after a wake lead of it, which R30 lets happen. -/

namespace Sys2Proof.Proofs
open Sys2Proof.Machine Sys2Proof.Laws

/-- A device in STANDBY with every domain powered, its engine clock running, bank 1 VALID with a task of engine 0 in slot 0, and origin
2,000. -/
def standby : State :=
  ({ State.reset with
    regs := [(Reg.key .SCH_ORIGINL 0, 2000), (Reg.key .SCH_BANKB 0, 0x10000), (Reg.key .PMU_MODE 0, 5), (Reg.key .PMU_DOMSTAT 0, 0xFFFFF),
      (Reg.key .CLK_STAT 0, 2)]
    boot := .done } : State).poke (slotAddr 1 0 0) 8 (2 ^ 63 + 100 * 2 ^ 28)

/-- The same once START is accepted, the wake lead of slot 0 has opened the clock of engine 0 in ec 1,996 (R136), and Quartz has stepped
back by 1,500 ticks, as R30 lets it in STANDBY. -/
def beforeCancel : State := ((standby.schStart 1).wakeLead 0 0 0).stepQuartz (-1500)

theorem beforeCancel_takes : beforeCancel.Takes (.sup 0) .SCH_CTL 0 where
  quiet := by unfold State.Quiet; decide +kernel
  answers := by decide +kernel
  may := by decide +kernel

/-- The start pends, CANCEL is in time, and the clock of engine 0 is open. -/
theorem beforeCancel_pends : beforeCancel.alive 4 = true ∧ beforeCancel.schPending = true ∧ beforeCancel.sched.pend = .start 1 2000 ∧
    beforeCancel.now + 4 < 2000 ∧ (beforeCancel.engine 0).woken = true := by
  decide +kernel

/-- Refutes O46: its clause for CANCEL of a pending start gives a state in which every engine is as before, and `schWithdraw` closes the
clocks that a wake lead of the start has opened (R117). Such a clock is open before ec origin − 4 where Quartz has stepped back over that
ec (R30). The clause lacks the engines put to sleep, or a premise that none is woken. -/
theorem not_planFlow : ¬ Obligations.PlanFlow := by
  unfold Obligations.PlanFlow
  intro h
  have ht := beforeCancel_takes
  obtain ⟨h4, hp, hs, ho, hw⟩ := beforeCancel_pends
  generalize beforeCancel = s at ht h4 hp hs ho hw
  obtain ⟨-, -, -, hcancel, -⟩ := h s ht.quiet
  obtain ⟨hgone, -⟩ := hcancel (.sup 0) 1 2000 0 ht h4 hp
  obtain ⟨t, hexec, hsleeps⟩ := exec_cancel_start ht h4 hp hs ho
  have hsame := Host.Outcome.next.inj (hexec.symm.trans (hgone hs ho))
  have hopen : (t.engine 0).woken = true := by
    rw [hsame]
    exact hw
  rw [hsleeps 0] at hopen
  cases hopen

end Sys2Proof.Proofs
end

section
/-! SUPPORT. Edge pairs (R159 to R193): their table, the fields and pairs that an update leaves, and what leaves a state quiet. -/

namespace Sys2Proof.Laws
open Sys2Proof.Machine

variable {s t : State} {p : Nat}

/-! The pairs, kept as a table. -/

@[simp] theorem ep_setEp (s : State) (p : Nat) (x : Pair) : (s.setEp p x).ep p = x := Tab_look_put_same ..
@[simp] theorem ep_modEp (s : State) (p : Nat) (f : Pair → Pair) : (s.modEp p f).ep p = f (s.ep p) := Tab_look_put_same ..

theorem ep_modEp_ne {q : Nat} (f : Pair → Pair) (h : q ≠ p) : (s.modEp p f).ep q = s.ep q := Tab_look_put_ne _ _ _ h

@[simp] theorem ep_setFld (f : Fld) (i v q : Nat) : (s.setFld f i v).ep q = s.ep q := rfl
@[simp] theorem ep_setRegN (r : Reg) (i v q : Nat) : (s.setRegN r i v).ep q = s.ep q := rfl
@[simp] theorem ep_reach (u q : Nat) : (s.reach u).ep q = s.ep q := rfl
@[simp] theorem ep_epQstat (q : Nat) : (s.epQstat p).ep q = s.ep q := rfl

/-! Fields and registers that an update leaves. -/

@[simp] theorem flag_modEp (f : Pair → Pair) (g : Fld) (i : Nat) : (s.modEp p f).flag g i = s.flag g i := rfl
@[simp] theorem fld_modEp (f : Pair → Pair) (g : Fld) (i : Nat) : (s.modEp p f).fld g i = s.fld g i := rfl
@[simp] theorem regN_modEp (f : Pair → Pair) (r : Reg) (i : Nat) : (s.modEp p f).regN r i = s.regN r i := rfl

theorem flag_setFld_clear {f g : Fld} {i j : Nat} (v : Nat) (h : Clear f g) (hi : i < 65536) (hj : j < 65536) :
    (s.setFld f i v).flag g j = s.flag g j := flag_of_fld (fld_setFld_clear v h hi hj)

theorem flag_setRegN_ne {r : Reg} {g : Fld} {i j : Nat} (v : Nat) (h : g.reg.ctorIdx ≠ r.ctorIdx) (hi : i < 65536) (hj : j < 65536) :
    (s.setRegN r i v).flag g j = s.flag g j := flag_of_fld (fld_setRegN_ne v h hi hj)

theorem key_ne_of_inst {r r' : Reg} {i j : Nat} (h : i ≠ j) (hi : i < 65536) (hj : j < 65536) : r.key i ≠ r'.key j :=
  fun hk => h ((key_inj hi hj).mp hk).2

theorem flag_setFld_inst {f g : Fld} {i j : Nat} (v : Nat) (h : i ≠ j) (hi : i < 65536) (hj : j < 65536) :
    (s.setFld f i v).flag g j = s.flag g j := flag_of_fld (fld_setFld_ne v (key_ne_of_inst h.symm hj hi))

/-- A flag is read from its own register alone. -/
theorem flag_of_reg {f : Fld} {i : Nat} (h : t.reg f.reg i = s.reg f.reg i) : t.flag f i = s.flag f i := by
  unfold State.flag State.fld State.regN
  rw [h]

/-- QSTAT written leaves every flag of another register. -/
theorem flag_epQstat {g : Fld} {j : Nat} (h : g.reg.ctorIdx ≠ Reg.EP_QSTAT.ctorIdx) (hp : p < 65536) (hj : j < 65536) :
    (s.epQstat p).flag g j = s.flag g j := by
  unfold State.epQstat
  rw [flag_setFld_clear _ (.inl h) hp hj, flag_setFld_clear _ (.inl h) hp hj]

/-! What leaves a state quiet. -/

theorem quiet_modEp (h : s.Quiet) (p : Nat) (f : Pair → Pair) : (s.modEp p f).Quiet := h
theorem quiet_epQstat (h : s.Quiet) (p : Nat) : (s.epQstat p).Quiet := h

end Sys2Proof.Laws
end

section
/-! SUPPORT. What happens at the instants of an edge pair (R166, R168 to R170, R173 to R176, R178, R180, R183, R185, R417): each operation
where it is due and where it is not. -/

namespace Sys2Proof.Laws
open Sys2Proof.Machine

variable {s : State} {p at_ : Nat} {b : Bool}

/-! Notes of the logical pair served (R160, R345). -/

/-- What a pair tells of the logical pair that it serves, where it has anything to tell; nothing where it serves none. -/
def noted (c : Bool) (s : State) (p : Nat) (f : Nat → Note) : State :=
  match s.epLogical p with
  | some n => if c then s.note (f n) else s
  | none => s

theorem noted_some {n : Nat} (h : s.epLogical p = some n) (f : Nat → Note) : noted true s p f = s.note (f n) := by
  unfold noted
  rw [h]; rfl

theorem noted_none (h : s.epLogical p = none) (c : Bool) (f : Nat → Note) : noted c s p f = s := by
  unfold noted
  rw [h]

theorem noted_false (s : State) (p : Nat) (f : Nat → Note) : noted false s p f = s := by
  unfold noted
  cases s.epLogical p <;> rfl

/-! Load points (R168 to R170). -/

theorem epLoad_idle (h : s.epNextLoad p = none ∨ s.flag F.EP_CTL_ENABLE p = false) : s.epLoad p = s := by
  unfold State.epLoad
  cases hn : s.epNextLoad p with
  | none => rfl
  | some u =>
    have he : s.flag F.EP_CTL_ENABLE p = false := h.resolve_left (by simp [hn])
    simp only [he]; rfl

/-- The period that starts at an instant, with the values that it takes (R170). -/
def periodStarted (s : State) (p at_ : Nat) : State :=
  let per := s.epTaken p .EP_PERIOD 2 at_
  let u := (s.reach (at_ / 128)).epTakeDuties p at_ true
  let v := if per < 16 then u.setFld F.EP_STAT_CLAMP p 1 else u
  v.modEp p (fun x => { x with
    pstart := at_, per := max 16 per, rise := s.epTaken p .EP_DTRISE 3 at_, fall := s.epTaken p .EP_DTFALL 4 at_, peak := false, term := false,
    set := true, a := { x.a with phase := 0 }, b := { x.b with phase := 0 } })

/-- The outputs at a period start: from rest at the carrier start and after a release, else they follow their references (R166, R178). -/
def periodOutputs (s w : State) (p at_ : Nat) : State :=
  let x := w.ep p
  let sa := decide (0 < compareAt x.dutyA x.per)
  let sb := decide (0 < compareAt x.dutyB x.per)
  let z := w.setFld F.EP_STAT_STARTED p 1
  if !s.flag F.EP_STAT_STARTED p || (x.wait && !z.flag F.EP_STAT_TRIPPED p && !z.flag F.EP_STAT_RBFAULT p) then z.epFromRest p sa sb at_
  else (z.epRef p false sa at_).epRef p true sb at_

theorem epLoad_due (hn : s.epNextLoad p = some at_) (he : s.flag F.EP_CTL_ENABLE p = true) : s.epLoad p =
    noted true ((periodOutputs s (periodStarted s p at_) p at_).epEvent p 0 (at_ / 128)) p (fun n => .load n at_) := by
  unfold State.epLoad
  simp only [hn, he]
  rfl

theorem epPeak_idle (h : s.epNextPeak p = none) : s.epPeak p = s := by
  unfold State.epPeak
  rw [h]

theorem epPeak_due (h : s.epNextPeak p = some at_) :
    s.epPeak p = ((s.reach (at_ / 128)).epTakeDuties p at_ false).modEp p (fun x => { x with peak := true }) := by
  unfold State.epPeak
  rw [h]

/-! Compare positions (R169, R179). -/

theorem epCompare_idle (h : s.epNextCompare p b = none) : s.epCompare p b = s := by
  unfold State.epCompare
  rw [h]

/-- A pair whose output is in a phase of the period. -/
def compared (s : State) (p : Nat) (b : Bool) (at_ ph : Nat) : State :=
  (s.reach (at_ / 128)).modEp p (fun x => x.setOutp b { x.outp b with phase := ph })

theorem term_compared (s : State) (p : Nat) (b : Bool) (at_ ph : Nat) : ((compared s p b at_ ph).ep p).term = (s.ep p).term := by
  unfold compared Pair.setOutp
  rw [ep_modEp]
  cases b <;> rfl

theorem epCompare_due {lvl : Bool} {ph : Nat} (h : s.epNextCompare p b = some (at_, lvl, ph)) : s.epCompare p b =
    if lvl && !b && (s.ep p).term then compared s p b at_ ph else (compared s p b at_ ph).epRef p b lvl at_ := by
  unfold State.epCompare
  rw [h, ← term_compared s p b at_ ph]
  rfl

/-- In up mode, before its compare position has passed, output A's reference falls there, and the next period starts at the end of
this one (R168, R169). -/
theorem epNext_up (hs : s.flag F.EP_STAT_STARTED p = true) (hu : s.flag F.EP_CTL_UPDN p = false) (hph : (s.ep p).a.phase = 0)
    (h0 : 0 < compareAt (s.ep p).dutyA (s.ep p).per) (h1 : compareAt (s.ep p).dutyA (s.ep p).per < (s.ep p).per * 128) :
    s.epNextCompare p false = some ((s.ep p).pstart + compareAt (s.ep p).dutyA (s.ep p).per, false, 1) ∧
      s.epNextLoad p = some ((s.ep p).pstart + (s.ep p).per * 128) := by
  constructor
  · simp [State.epNextCompare, Pair.outp, hs, hu, hph, h0, h1]
  · simp [State.epNextLoad, State.epLen, hs, hu]

/-! The edge timetable (R176, R179, R180, R247). -/

theorem epQueueEdge_idle (h : ((s.ep p).outp b).queue = [] ∨ s.flag F.EP_CTL_TT p = false) : s.epQueueEdge p b = s := by
  have hq : (if s.flag F.EP_CTL_TT p then ((s.ep p).outp b).queue else []) = [] := by
    rcases h with h | h <;> simp [h]
  unfold State.epQueueEdge
  rw [hq]

/-- A pair without the first queued edge of an output, at the instant of that edge. -/
def unqueued (s : State) (p : Nat) (b : Bool) (q : QEdge) (rest : List QEdge) : State :=
  ((s.reach (q.at_ / 128)).modEp p (fun x => { x.setOutp b { x.outp b with queue := rest, last := some q.at_ } with
    wait := if s.flag F.EP_STAT_TRIPPED p || s.flag F.EP_STAT_RBFAULT p then x.wait else false })).epQstat p

/-- A pair that has ended the effect of a termination where the edge is one of output A to active, and kept its outputs (R247). -/
def rearmed (u : State) (p : Nat) (b : Bool) (q : QEdge) : State :=
  if q.lvl && !b then u.modEp p (fun x => { x with term := false, aonAt := q.at_ / 128 + 1, aonA := x.a, aonB := x.b }) else u

/-- The outputs take an edge: they follow it where the on-time limit ended the output that it starts, else the reference changes (R180). -/
def edgeTaken (s v : State) (p : Nat) (b : Bool) (q : QEdge) : State :=
  let x := v.ep p
  if (x.outp b).ref == q.lvl && (if s.flag F.EP_CTL_COMPL p then (x.outp (!q.lvl)).maxed else q.lvl && (x.outp b).maxed) then
    v.epFollow p b q.lvl q.at_
  else v.epRef p b q.lvl q.at_

theorem termAt_unqueued (q : QEdge) (rest : List QEdge) : ((unqueued s p b q rest).ep p).termAt = (s.ep p).termAt := by
  unfold unqueued Pair.setOutp
  rw [ep_epQstat, ep_modEp]
  cases b <;> rfl

theorem flag_rearmed (u : State) (q : QEdge) (g : Fld) (i : Nat) : (rearmed u p b q).flag g i = u.flag g i := by
  unfold rearmed
  split <;> rfl

theorem compl_unqueued (hp : p < 65536) (q : QEdge) (rest : List QEdge) :
    (rearmed (unqueued s p b q rest) p b q).flag F.EP_CTL_COMPL p = s.flag F.EP_CTL_COMPL p := by
  rw [flag_rearmed]
  exact flag_epQstat (by decide) hp hp

section
variable {q : QEdge} {rest : List QEdge} (ht : s.flag F.EP_CTL_TT p = true) (hq : ((s.ep p).outp b).queue = q :: rest)
include ht hq

theorem epQueueEdge_terminated (hl : q.lvl = true) (hb : b = false) (hterm : (s.ep p).termAt = q.at_ / 128 + 1) :
    s.epQueueEdge p b = unqueued s p b q rest := by
  have h : (if s.flag F.EP_CTL_TT p then ((s.ep p).outp b).queue else []) = q :: rest := by rw [ht, hq]; rfl
  have hgone : (q.lvl && !b && ((unqueued s p b q rest).ep p).termAt == q.at_ / 128 + 1) = true := by
    rw [termAt_unqueued, hl, hb, hterm]; simp
  unfold State.epQueueEdge
  rw [h]
  exact if_pos hgone

/-- An edge that no termination takes back (R247) reaches the outputs, and one of output A to active is noted for the links. -/
theorem epQueueEdge_made (hp : p < 65536) (h : q.lvl = false ∨ b = true ∨ (s.ep p).termAt ≠ q.at_ / 128 + 1) :
    s.epQueueEdge p b =
      noted (q.lvl && !b) (edgeTaken s (rearmed (unqueued s p b q rest) p b q) p b q) p (fun n => .load n q.at_) := by
  have hfirst : (if s.flag F.EP_CTL_TT p then ((s.ep p).outp b).queue else []) = q :: rest := by rw [ht, hq]; rfl
  have hstays : ¬ (q.lvl && !b && ((unqueued s p b q rest).ep p).termAt == q.at_ / 128 + 1) = true := by
    rw [termAt_unqueued]
    rcases h with h | h | h <;> simp [h]
  have hmade (v : State) (hv : v.flag F.EP_CTL_COMPL p = s.flag F.EP_CTL_COMPL p) : edgeTaken s v p b q = edgeTaken v v p b q := by
    unfold edgeTaken
    rw [hv]
  rw [hmade _ (compl_unqueued hp q rest)]
  unfold State.epQueueEdge
  rw [hfirst]
  exact if_neg hstays

end

/-! Dead time (R173, R174). -/

theorem epDeadEnd_idle (h : ((s.ep p).outp b).dt = none) : s.epDeadEnd p b = s := by
  unfold State.epDeadEnd
  rw [h]

theorem epDeadEnd_suppressed {r : Nat} (h : ((s.ep p).outp b).dt = some at_) (hr : s.epNextRef p = some r) (hle : r ≤ at_) :
    s.epDeadEnd p b = s := by
  unfold State.epDeadEnd
  rw [h, hr]
  exact if_pos (decide_eq_true hle)

theorem epDeadEnd_ends (h : ((s.ep p).outp b).dt = some at_) (hr : ∀ r, s.epNextRef p = some r → at_ < r) : s.epDeadEnd p b =
    ((s.reach (at_ / 128)).modEp p (fun x => x.setOutp b { x.outp b with dt := none })).epSetOut p b true at_ := by
  unfold State.epDeadEnd
  rw [h]
  cases hn : s.epNextRef p with
  | none => rfl
  | some r => exact if_neg (by simpa using hr r hn)

/-! The on-time limit (R180). -/

theorem epLimit_written {on : Nat} (h : (s.ep p).maxAt * 128 ≤ on) :
    s.epLimit p on = if s.regN .EP_MAXON p = 0 then none else some (on + s.regN .EP_MAXON p * 128) := by
  unfold State.epLimit
  rw [if_neg (by omega), max_eq_left (by omega)]

theorem epMaxon_idle (h : ((s.ep p).outp b).out = false ∨ s.epLimit p ((s.ep p).outp b).on = none) : s.epMaxon p b = s := by
  have hn : (if ((s.ep p).outp b).out then s.epLimit p ((s.ep p).outp b).on else none) = none := by
    rcases h with h | h <;> simp [h]
  unfold State.epMaxon
  simp only [hn]

/-- An output that the on-time limit has ended, and the safety event for it. -/
def limited (s : State) (p : Nat) (b : Bool) (at_ : Nat) : State :=
  ((((s.reach (at_ / 128)).epSetOut p b false at_).modEp p (fun x => x.setOutp b { x.outp b with maxed := true })).setFld F.EP_STAT_MAXON p 1).raiseEv
    16 10 p

theorem epMaxon_due (ho : ((s.ep p).outp b).out = true) (hl : s.epLimit p ((s.ep p).outp b).on = some at_) :
    s.epMaxon p b = noted true (limited s p b at_) p (fun n => .flush n at_) := by
  have h : (if ((s.ep p).outp b).out then s.epLimit p ((s.ep p).outp b).on else none) = some at_ := by rw [ho, hl]; rfl
  unfold State.epMaxon
  simp only [h]
  rfl

/-! Readback (R183, R417). -/

theorem steerAuto_sound (h : s.flag F.EP_STAT_RBFAULT p = false) : s.steerAuto p = s := by
  unfold State.steerAuto
  rw [h]
  exact if_pos (by simp)

theorem readbackBad_idle (hf : s.flag F.EP_STAT_RBFAULT p = false)
    (h : s.flag F.EP_CTL_RBEN p = false ∨ s.epLevels p = false ∨ s.now < (s.ep p).cmd / 128 + 32) : s.readbackBad p = s := by
  have hr : s.epReadback p = s := by
    unfold State.epReadback
    refine if_pos ?_
    rcases h with h | h | h <;> simp [h]
  unfold State.readbackBad
  rw [hr, steerAuto_sound hf]

theorem readbackBad_faults (hf : s.flag F.EP_STAT_RBFAULT p = false) (hen : s.flag F.EP_CTL_RBEN p = true) (hl : s.epLevels p = true)
    (hc : (s.ep p).cmd / 128 + 32 ≤ s.now) : s.readbackBad p =
    ((((s.modEp p Pair.rest).setFld F.EP_STAT_RBFAULT p 1).raiseEv 16 10 p).epRefresh p).steerAuto p := by
  have hr : s.epReadback p = (((s.modEp p Pair.rest).setFld F.EP_STAT_RBFAULT p 1).raiseEv 16 10 p).epRefresh p := by
    unfold State.epReadback
    refine if_neg ?_
    simp [hf, hen, hl, hc]
  unfold State.readbackBad
  rw [hr]

/-! A steering's copy (R185). -/

theorem epSteerDone_idle {g : Nat} (h : s.flag F.EP_STEER_BUSY g = false) : s.epSteerDone g = s := by
  unfold State.epSteerDone
  rw [h]; rfl

/-- A pair's registers copied to its reserve (R185). -/
def copiedRegs (s : State) (p r : Nat) : State := epCopied.foldl (fun s x => s.setReg x r (s.reg x p)) s

/-- A reserve with the registers of the pair that it relieves, and with its carrier's STARTED and the logical pair's TRIPPED (R185). -/
def relieving (s : State) (p r : Nat) : State :=
  let u := copiedRegs s p r
  (u.setFld F.EP_STAT_STARTED r (u.fld F.EP_STAT_STARTED p)).setFld F.EP_STAT_TRIPPED r (u.fld F.EP_STAT_TRIPPED p)

/-- A reserve with the carrier and outputs of a pair and empty queues, held where the pair has faulted (R185). -/
def relieved (v : State) (faulted : Bool) (p r g : Nat) : State :=
  let x := v.ep p
  ((v.setEp r { x with holdBy := if faulted then some p else none, driven := false, lanes := [], a := { x.a with queue := [] },
                       b := { x.b with queue := [] } }).epQstat r).setFld F.EP_STEER_BUSY g 0

/-- What is written to one pair leaves the registers of another. -/
theorem reg_foldl_setReg_ne {x : Reg} {r : Nat} (h : p ≠ r) (hp : p < 65536) (hr : r < 65536) (l : List Reg) :
    ∀ s : State, (l.foldl (fun s x => s.setReg x r (s.reg x p)) s).reg x p = s.reg x p := by
  induction l with
  | nil => exact fun _ => rfl
  | cons y l ih => exact fun s => (ih _).trans (reg_setReg_ne s _ (key_ne_of_inst h hp hr))

theorem flag_relieving {r : Nat} (h : p ≠ r) (hp : p < 65536) (hr : r < 65536) :
    (relieving s p r).flag F.EP_STAT_RBFAULT p = s.flag F.EP_STAT_RBFAULT p := by
  unfold relieving
  rw [flag_setFld_inst _ h.symm hr hp, flag_setFld_inst _ h.symm hr hp]
  exact flag_of_reg (reg_foldl_setReg_ne h hp hr _ s)

theorem epSteerDone_due {g q : Nat} (hg : g < 12) (h : s.flag F.EP_STEER_BUSY g = true) (hq : q = 16 * g + s.fld F.EP_STEER_MEMBER g) :
    s.epSteerDone g =
      ((((relieved (relieving s q (192 + g)) (s.flag F.EP_STAT_RBFAULT q) q (192 + g) g).epStop q).setFld F.EP_CTL_ENABLE q 0).setFld
        F.EP_STAT_TRIPPED q 0 |>.epRefresh q).epRefresh (192 + g) := by
  have hm : s.fld F.EP_STEER_MEMBER g < 16 := Nat.mod_lt _ (by decide)
  rw [← flag_relieving (s := s) (p := q) (r := 192 + g) (by omega) (by omega) (by omega)]
  subst hq
  unfold State.epSteerDone
  exact if_neg (by simp [h])

end Sys2Proof.Laws
end

section
/-! PROOF. What happens at the instants of an edge pair (R18, R166, R168 to R170, R173 to R176, R178 to R180, R183, R185, R247, R417). -/

namespace Sys2Proof.Proofs
open Sys2Proof.Machine Sys2Proof.Laws

section
variable {s : State} {p : Fin 204} {b : Bool} {at_ : Nat}

theorem pair_inst (p : Fin 204) : p.val < 65536 := by omega

theorem loadPoint_due (hk : s.engClock = true) (hn : s.epNextLoad p.val = some at_) (he : s.flag F.EP_CTL_ENABLE p.val = true) :
    exec (.loadPoint p) s =
      (noted true ((periodOutputs s (periodStarted s p.val at_) p.val at_).epEvent p.val 0 (at_ / 128)) p.val (fun n => .load n at_)).ends :=
  clocked_ends hk (epLoad_due hn he)

theorem compareMatch_due (hk : s.engClock = true) (hq : s.Quiet) {lvl : Bool} {ph : Nat}
    (h : s.epNextCompare p.val b = some (at_, lvl, ph)) :
    (lvl = true → b = false → (s.ep p.val).term = true → exec (.compareMatch p b) s = .next (compared s p.val b at_ ph)) ∧
    (lvl = false ∨ b = true ∨ (s.ep p.val).term = false →
      exec (.compareMatch p b) s = ((compared s p.val b at_ ph).epRef p.val b lvl at_).ends) := by
  refine ⟨fun hl hb ht => ?_, fun hno => ?_⟩
  · exact clocked_next hk ((epCompare_due h).trans (if_pos (by simp [hl, hb, ht]))) hq
  · refine clocked_ends hk ((epCompare_due h).trans (if_neg ?_))
    rcases hno with hl | hb | ht
    · simp [hl]
    · simp [hb]
    · simp [ht]

end

theorem timetableEdge_due {s : State} {p : Fin 204} {b : Bool} {q : QEdge} {rest : List QEdge} (hk : s.engClock = true) (hquiet : s.Quiet)
    (ht : s.flag F.EP_CTL_TT p.val = true) (hq : ((s.ep p.val).outp b).queue = q :: rest) :
    let t := q.at_ / 128
    let u := unqueued s p.val b q rest
    let made := edgeTaken s (rearmed u p.val b q) p.val b q
    (q.lvl = true → b = false → (s.ep p.val).termAt = t + 1 → exec (.timetableEdge p b) s = .next u) ∧
    (q.lvl = false ∨ b = true → exec (.timetableEdge p b) s = made.ends) ∧
    (q.lvl = true → b = false → (s.ep p.val).termAt ≠ t + 1 →
      (∀ n, made.epLogical p.val = some n → exec (.timetableEdge p b) s = (made.note (.load n q.at_)).ends) ∧
      (made.epLogical p.val = none → exec (.timetableEdge p b) s = made.ends)) := by
  intro t u made
  have hmade (h : q.lvl = false ∨ b = true ∨ (s.ep p.val).termAt ≠ t + 1) :
      exec (.timetableEdge p b) s = (noted (q.lvl && !b) made p.val (fun n => .load n q.at_)).ends :=
    clocked_ends hk (epQueueEdge_made ht hq (pair_inst p) h)
  refine ⟨fun hl hb hterm => ?_, fun h => ?_, fun hl hb hterm => ⟨fun n hn => ?_, fun hn => ?_⟩⟩
  · exact clocked_next hk (epQueueEdge_terminated ht hq hl hb hterm) hquiet
  · have hc : (q.lvl && !b) = false := by rcases h with h | h <;> simp [h]
    rw [hmade (h.elim .inl fun h => .inr (.inl h)), hc, noted_false]
  · rw [hmade (.inr (.inr hterm)), hl, hb]
    exact congrArg State.ends (noted_some hn _)
  · rw [hmade (.inr (.inr hterm)), noted_none hn]

theorem maxonExpiry_due {s : State} {p : Fin 204} {b : Bool} {at_ : Nat} (hk : s.engClock = true) (ho : ((s.ep p.val).outp b).out = true)
    (hl : s.epLimit p.val ((s.ep p.val).outp b).on = some at_) :
    exec (.maxonExpiry p b) s = (noted true (limited s p.val b at_) p.val (fun n => .flush n at_)).ends :=
  clocked_ends hk (epMaxon_due ho hl)

/-- Settles O48: each instant is taken where it is due, and one that is not due leaves the block as it is. -/
theorem edgeTimes : Obligations.EdgeTimes := by
  unfold Obligations.EdgeTimes
  intro s hq
  have idle {t : State} (hk : s.engClock = true) (h : t = s) : (.next (s.clocked t).finish : Host.Outcome State Fault Refusal) = .next s :=
    clocked_next hk h hq
  have stands (hk : s.engClock = false) (t : State) : (.next (s.clocked t).finish : Host.Outcome State Fault Refusal) = .next s :=
    congrArg Host.Outcome.next (finish_idle hk hq t)
  refine ⟨?_, ?_, ?_, ?_, ?_, ?_, ?_, ?_⟩
  · intro p at_ first per rise fall u v w x sa sb z out sent hk hn he
    exact ⟨fun n hl => (loadPoint_due hk hn he).trans (congrArg State.ends (noted_some hl _)),
      fun hl => (loadPoint_due hk hn he).trans (congrArg State.ends (noted_none hl _ _))⟩
  · intro p b hk
    exact ⟨fun h => idle hk (epLoad_idle h), fun h => idle hk (epPeak_idle h), fun at_ h => clocked_next hk (epPeak_due h) hq,
      fun h => idle hk (epCompare_idle h), fun at_ lvl ph h => compareMatch_due hk hq h⟩
  · intro p x half c hs hu hph h0 h1
    exact epNext_up hs hu hph h0 h1
  · intro p b q rest t held u v x ended made hk ht hqueue
    exact timetableEdge_due hk hq ht hqueue
  · intro p b o m hk
    refine ⟨fun h => idle hk (epQueueEdge_idle h), fun h => idle hk (epDeadEnd_idle h),
      fun at_ r h hr hle => idle hk (epDeadEnd_suppressed h hr hle),
      fun at_ h hr => clocked_ends hk (epDeadEnd_ends h hr), fun h => epLimit_written h, fun h => idle hk (epMaxon_idle h), ?_⟩
    intro at_ ho hl u v
    exact ⟨fun n hn => (maxonExpiry_due hk ho hl).trans (congrArg State.ends (noted_some hn _)),
      fun hn => (maxonExpiry_due hk ho hl).trans (congrArg State.ends (noted_none hn _ _))⟩
  · intro p
    exact ⟨fun hen hl hf hc => congrArg State.ends (readbackBad_faults hf hen hl hc),
      fun h hf => ends_of_eq (readbackBad_idle hf h) hq⟩
  · intro g p r u v x w
    exact ⟨fun h => ends_of_eq (epSteerDone_idle h) hq, fun h => congrArg State.ends (epSteerDone_due g.isLt h rfl)⟩
  · exact fun hk => ⟨fun _ => stands hk _, fun _ => stands hk _, fun _ _ => stands hk _, fun _ _ => stands hk _, fun _ _ => stands hk _,
      fun _ _ => stands hk _⟩

end Sys2Proof.Proofs
end

section
/-! SUPPORT. Writes of an edge pair (R4, R14, R161 to R167, R171, R175, R183 to R186, R190): how a write reaches its pair, how far ahead of an
instant it must fall, how it meets the other lane writes of its ec, and what it comes to. -/

namespace Sys2Proof.Laws
open Sys2Proof.Machine

variable {s u : State} {p t : Nat} {lane : Option Nat}

/-! Bits of a number. -/

theorem bit_eq_decide (k n : Nat) : bit k n = decide (n / 2 ^ k % 2 = 1) := Nat.testBit_eq_decide_div_mod_eq

/-! How a write reaches its pair (R4, R14, R165). -/

/-- The lane engine that an initiator is, if any. -/
def laneOf : Initiator → Option Nat
  | .lane e => some e.val
  | _ => none

theorem regWrite_EP {r : Reg} {i : Nat} (hb : blockOf regRuns r.ctorIdx = 0x17) (hi : i < 65536) (who : Initiator) (v u : Nat) :
    s.regWrite who.agent r i v u = s.writeEp r i v u (laneOf who) := by
  have hk : keyBlock (r.key i) = 0x17 := (keyBlock_key r hi).trans hb
  unfold State.regWrite
  rw [hk]
  cases who <;> rfl

theorem writeBy_EP {who : Initiator} {r : Reg} {i : Nat} (h : s.Takes who r i) (hp : placed r i = true)
    (hb : blockOf regRuns r.ctorIdx = 0x17) (hi : i < 65536) (v : Nat) :
    s.writeBy who r i v = s.writeEp r i v s.now (laneOf who) := by
  have hk : r ≠ .EVC_CTL := by
    rintro rfl
    exact absurd hb (by decide)
  rw [writeBy_takes h hp hk, regWrite_EP hb hi]

theorem placed_of_count {r : Reg} {i n : Nat} (h : (regPlaces.find? (fun p => p.reg == r)).map (fun p => p.count) = some n) (hi : i < n) :
    placed r i = true := by
  obtain ⟨x, hx, rfl⟩ := Option.map_eq_some_iff.mp h
  exact placed_of_find hx hi

/-- The registers of an edge pair whose writes act on it at once or record them (R160 to R191). -/
def pairRegs : List Reg := [.EP_CTL, .EP_PERIOD, .EP_DUTYA, .EP_DUTYB, .EP_DTRISE, .EP_DTFALL, .EP_MAXON, .EP_ORIGINL, .EP_ORIGINH,
  .EP_ORIGINF, .EP_QPUSH, .EP_STAT]

theorem pairRegs_placed {r : Reg} (hr : r ∈ pairRegs) :
    (regPlaces.find? (fun p => p.reg == r)).map (fun p => p.count) = some 204 ∧ blockOf regRuns r.ctorIdx = 0x17 := by
  revert r
  decide +kernel

theorem writeBy_pair {who : Initiator} {r : Reg} {i : Nat} (h : s.Takes who r i) (hr : r ∈ pairRegs) (hi : i < 204) (v : Nat) :
    s.writeBy who r i v = s.writeEp r i v s.now (laneOf who) :=
  writeBy_EP h (placed_of_count (pairRegs_placed hr).1 hi) (pairRegs_placed hr).2 (by omega) v

/-! How far ahead of an instant a write must fall (R160, R171, R343). -/

/-- The registers that decide which pairs are steered, and which links carry them. -/
def leadRegs : List Reg := [.EP_STEER, .DLK_CTL, .DLK_STAT, .DLK_CABLE]

/-- Two states agree in what decides how far ahead a write must fall. -/
structure SameLead (s u : State) : Prop where
  regs : ∀ r ∈ leadRegs, ∀ i < 65536, u.reg r i = s.reg r i

theorem sameLead_setRegN {r : Reg} {i : Nat} (v : Nat) (hi : i < 65536) (hr : ∀ x ∈ leadRegs, x.ctorIdx ≠ r.ctorIdx) :
    SameLead s (s.setRegN r i v) := ⟨fun x hx _ hj => reg_setReg_ne s _ (key_ne (hr x hx) hj hi)⟩

section
variable (h : SameLead s u)
include h

theorem SameLead.fld {f : Fld} {i : Nat} (hf : f.reg ∈ leadRegs) (hi : i < 65536) : u.fld f i = s.fld f i := by
  unfold State.fld State.regN
  rw [h.regs f.reg hf i hi]

theorem SameLead.flag {f : Fld} {i : Nat} (hf : f.reg ∈ leadRegs) (hi : i < 65536) : u.flag f i = s.flag f i := flag_of_fld (h.fld hf hi)

theorem SameLead.epSteered {g : Nat} (hg : g < 65536) (m : Nat) : u.epSteered g m = s.epSteered g m := by
  unfold State.epSteered
  rw [h.flag (by decide) hg, h.flag (by decide) hg, h.fld (by decide) hg]

theorem SameLead.epLogical (hp : p < 65536) : u.epLogical p = s.epLogical p := by
  have hg : p - 192 < 65536 := by omega
  unfold State.epLogical State.epPhys
  simp only [h.epSteered (show p / 16 < 65536 by omega), h.epSteered hg, h.fld (f := F.EP_STEER_MEMBER) (by decide) hg]

theorem SameLead.epLink (n : Nat) : u.epLink n = s.epLink n := by
  refine List.find?_congr fun d hd => ?_
  have hd : d < 65536 := by have := List.mem_range.mp hd; omega
  rw [h.flag (by decide) hd, h.fld (by decide) hd, h.fld (by decide) hd]

/-- The link that carries the pair, and its LEAD. -/
theorem SameLead.cable (hp : p < 65536) : (u.epLogical p).bind u.epLink = (s.epLogical p).bind s.epLink ∧
    ∀ d, (s.epLogical p).bind s.epLink = some d → u.fld F.DLK_CABLE_LEAD d = s.fld F.DLK_CABLE_LEAD d := by
  refine ⟨by rw [h.epLogical hp, funext h.epLink], fun d hd => ?_⟩
  obtain ⟨n, -, hn⟩ := Option.bind_eq_some_iff.mp hd
  have hlt : d < 64 := List.mem_range.mp (List.mem_of_find?_eq_some hn)
  exact h.fld (by decide) (by omega)

theorem SameLead.epLead (hp : p < 65536) : u.epLead p = s.epLead p := by
  obtain ⟨hb, hl⟩ := h.cable hp
  unfold State.epLead
  rw [hb]
  cases hd : (s.epLogical p).bind s.epLink with
  | none => rfl
  | some d => exact hl d hd

theorem SameLead.epEarliest (hp : p < 65536) (t : Nat) : u.epEarliest p t = s.epEarliest p t := by
  obtain ⟨hb, hl⟩ := h.cable hp
  unfold State.epEarliest
  rw [hb]
  cases hd : (s.epLogical p).bind s.epLink with
  | none => rfl
  | some d => exact congrArg (fun x => (t + x) * 128) (hl d hd)

end

/-! How a write meets the other lane writes of its ec (R165). -/

/-- No lane write of ec t reaches what a write under a key reaches. -/
def Unmet (s : State) (p key t : Nat) : Prop := (s.ep p).lanes.filter (fun x => raceMeets x.1 key && x.2.at_ == t) = []

section
variable {key : Nat}

theorem epRace_unmet (h : Unmet s p key t) (lane : Option Nat) : s.epRace p key t lane = .first := by
  cases lane with
  | none => rfl
  | some e =>
    unfold State.epRace
    simp only [show (s.ep p).lanes.filter (fun x => raceMeets x.1 key && x.2.at_ == t) = [] from h]
    rfl

theorem epRaced_unmet (h : Unmet s p key t) (lane : Option Nat) (act : State → State) :
    s.epRaced p key t lane act = (act s).epRecord s p key t lane := by
  unfold State.epRaced
  rw [epRace_unmet h]

theorem epToldLate_unmet (h : Unmet s p key t) (lane : Option Nat) : s.epToldLate p key t lane = false := by
  unfold State.epToldLate
  rw [epRace_unmet h]

variable (hk : key < 0x20 ∨ 0x28 ≤ key)
include hk

/-- Under a key of no queue, writes of one key meet. -/
theorem raceMeets_register (j : Nat) : raceMeets j key = (j == key) := by
  have he : (decide (0x20 ≤ key) && decide (key < 0x28)) = false := by
    rcases hk with h | h
    · simp [Nat.not_le.mpr h]
    · simp [Nat.not_lt.mpr h]
  unfold raceMeets
  simp [he]

theorem unmet_register (h : (s.ep p).lanes.find? (fun x => x.1 == key && x.2.at_ == t) = none) : Unmet s p key t := by
  unfold Unmet
  simp only [raceMeets_register hk]
  exact List.filter_eq_nil_iff.mpr (List.find?_eq_none.mp h)

/-- A write that meets one of a lower engine loses. -/
theorem epRaced_loses {e : Nat} {x : Nat × LaneWrite} (h : (s.ep p).lanes.find? (fun x => x.1 == key && x.2.at_ == t) = some x)
    (he : x.2.eng < e) (act : State → State) : s.epRaced p key t (some e) act = s.epDrop p := by
  have hlow : ((s.ep p).lanes.filter (fun x => raceMeets x.1 key && x.2.at_ == t)).any (fun x => decide (x.2.eng < e)) = true := by
    simp only [raceMeets_register hk]
    have hx := List.find?_some (p := fun x : Nat × LaneWrite => x.1 == key && x.2.at_ == t) h
    exact List.any_eq_true.mpr ⟨x, List.mem_filter.mpr ⟨List.mem_of_find?_eq_some h, hx⟩, decide_eq_true he⟩
  have hrace : s.epRace p key t (some e) = .loses := if_pos hlow
  unfold State.epRaced
  rw [hrace]

end

/-! What leaves a state quiet. -/

theorem quiet_epRecord (h : s.Quiet) (u : State) (p key ec : Nat) (lane : Option Nat) : (s.epRecord u p key ec lane).Quiet := by
  cases lane <;> exact h

theorem quiet_epHoldMax (h : s.Quiet) (p t : Nat) : (s.epHoldMax p t).Quiet := by
  unfold State.epHoldMax
  split <;> exact h

theorem quiet_epHoldDead (h : s.Quiet) (p t : Nat) : (s.epHoldDead p t).Quiet := by
  unfold State.epHoldDead
  split <;> exact h

end Sys2Proof.Laws
end

section
/-! SUPPORT. Value writes of an edge pair (R161, R164, R169, R171, R173, R180). -/

namespace Sys2Proof.Laws
open Sys2Proof.Machine

variable {s u : State} {p t : Nat} {lane : Option Nat}

theorem writeEp_value {code : Nat} (h : code < 6) (v : Nat) : s.writeEp (epValueReg code) p v t lane = s.epValue p code v t lane := by
  interval_cases code <;> rfl

section
variable {code v : Nat}

theorem epValue_modeErr (hc : code < 3) (ht : s.flag F.EP_CTL_TT p = true) : s.epValue p code v t lane = s.epModeErr p := if_pos ⟨hc, ht⟩

/-- The value that a register takes, of the word written. -/
def valueWord (code v : Nat) : Nat := if code = 3 ∨ code = 4 then v % 2 ^ 20 else v

/-- A negative duty sets CLAMP (R169). -/
def clampMarked (s : State) (p code w : Nat) : State := if code < 2 ∧ 2 ^ 31 ≤ w then s.setFld F.EP_STAT_CLAMP p 1 else s

theorem quiet_clampMarked (h : s.Quiet) (p code w : Nat) : (clampMarked s p code w).Quiet := by
  unfold clampMarked
  split <;> exact h

theorem ep_clampMarked (w q : Nat) : (clampMarked s p code w).ep q = s.ep q := by
  unfold clampMarked
  split <;> rfl

theorem flag_clampMarked {g : Fld} (hg : Clear F.EP_STAT_CLAMP g) (hp : p < 65536) (w : Nat) :
    (clampMarked s p code w).flag g p = s.flag g p := by
  unfold clampMarked
  split
  · exact flag_setFld_clear _ hg hp hp
  · rfl

theorem sameLead_clampMarked (hp : p < 65536) (w : Nat) : SameLead s (clampMarked s p code w) := by
  unfold clampMarked
  split
  · exact sameLead_setRegN _ hp (by decide)
  · exact ⟨fun _ _ _ _ => rfl⟩

/-- What a value write keeps of before it: the on-time limit for its ec, and in timetable mode the dead times (R173, R180). -/
def valueKept (u : State) (p code t : Nat) : State :=
  if code = 5 then u.epHoldMax p t else if (code = 3 ∨ code = 4) ∧ u.flag F.EP_CTL_TT p = true then u.epHoldDead p t else u

/-- A pair that keeps an earlier value for the load points before a tick, which a carrier write in ec t comes too late for (R171). -/
def shadowHeld (u : State) (p code t by_ : Nat) (old : Word) : State :=
  u.modEp p (fun x => { x with held := x.held.filter (fun y => t < y.2.1) ++ [(code, by_, old)] })

/-- The shadow of a carrier write, late where the write comes too late for the next load point that takes it; `told` where one of its ec
has told the lateness already (R165, R171). -/
def valueHeld (u : State) (p code t : Nat) (old : Word) (told : Bool) : State :=
  if code < 5 ∧ u.flag F.EP_CTL_TT p = false then
    let x := shadowHeld u p code t (t + u.epLead p) old
    match x.epLambda p code with
    | some l => if t < l && decide (l < t + u.epLead p) && !told then x.epLate p t false else x
    | none => x
  else u

/-- A value write that meets no other one. -/
theorem epValue_unmet (h : Unmet s p code t) (hm : s.flag F.EP_CTL_TT p = true → 3 ≤ code) : s.epValue p code v t lane =
    ((valueHeld (valueKept (clampMarked s p code (valueWord code v)) p code t) p code t (s.reg (epValueReg code) p) false).setRegN
      (epValueReg code) p (valueWord code v)).epRecord s p code t lane := by
  have hmode : ¬ (code < 3 ∧ s.flag F.EP_CTL_TT p = true) := fun hc => by have := hm hc.2; omega
  unfold State.epValue
  dsimp only
  rw [if_neg hmode, epRaced_unmet h, epToldLate_unmet h]
  rfl

theorem epValue_loses {e : Nat} {x : Nat × LaneWrite} (hc : code < 6) (hm : s.flag F.EP_CTL_TT p = true → 3 ≤ code)
    (h : (s.ep p).lanes.find? (fun x => x.1 == code && x.2.at_ == t) = some x) (he : x.2.eng < e) :
    s.epValue p code v t (some e) = s.epDrop p := by
  have hmode : ¬ (code < 3 ∧ s.flag F.EP_CTL_TT p = true) := fun hc => by have := hm hc.2; omega
  unfold State.epValue
  dsimp only
  rw [if_neg hmode, epRaced_loses (.inl (by omega)) h he]

theorem flag_epHoldDead (g : Fld) (i : Nat) : (s.epHoldDead p t).flag g i = s.flag g i := by
  unfold State.epHoldDead
  split <;> rfl

theorem valueHeld_timetable (h : code = 5 ∨ u.flag F.EP_CTL_TT p = true) (old : Word) (told : Bool) : valueHeld u p code t old told = u :=
  if_neg (by rcases h with h | h <;> simp [h])

/-- MAXON in either mode, and a dead time in timetable mode. -/
theorem epValue_kept (h : Unmet s p code t) (hc : code = 5 ∨ s.flag F.EP_CTL_TT p = true ∧ 3 ≤ code) (hlt : code < 6) :
    s.epValue p code v t lane =
      ((if code = 5 then (clampMarked s p code (valueWord code v)).epHoldMax p t
        else (clampMarked s p code (valueWord code v)).epHoldDead p t).setRegN (epValueReg code) p (valueWord code v)).epRecord s p code t lane := by
  have hmark : clampMarked s p code (valueWord code v) = s := if_neg (by omega)
  rw [epValue_unmet h (by omega), hmark]
  by_cases h5 : code = 5
  · rw [valueHeld_timetable (.inl h5), valueKept, if_pos h5, if_pos h5]
  · obtain ⟨ht, h3⟩ := hc.resolve_left h5
    have hkept : valueKept s p code t = s.epHoldDead p t := by rw [valueKept, if_neg h5, if_pos ⟨by omega, ht⟩]
    rw [hkept, valueHeld_timetable (.inr ((flag_epHoldDead ..).trans ht)), if_neg h5]

/-- The load point that a carrier write aims at is that of before it. -/
theorem epLambda_shadowHeld (hp : p < 65536) (w by_ : Nat) (old : Word) (c : Nat) :
    (shadowHeld (clampMarked s p code w) p code t by_ old).epLambda p c = s.epLambda p c := by
  unfold State.epLambda State.epNextPeak State.epNextLoad State.epLen shadowHeld
  simp only [ep_modEp, flag_modEp, ep_clampMarked, flag_clampMarked (g := F.EP_STAT_STARTED) (by decide) hp,
    flag_clampMarked (g := F.EP_CTL_UPDN) (by decide) hp, flag_clampMarked (g := F.EP_CTL_LOADPK) (by decide) hp]

section
variable (hp : p < 65536) (ht : s.flag F.EP_CTL_TT p = false) (hc : code < 5)
include hp ht hc

theorem valueKept_carrier (w : Nat) : valueKept (clampMarked s p code w) p code t = clampMarked s p code w := by
  have h5 : ¬ code = 5 := by omega
  have htt : (clampMarked s p code w).flag F.EP_CTL_TT p = false := (flag_clampMarked (by decide) hp w).trans ht
  rw [valueKept, if_neg h5, if_neg (by simp [htt])]

theorem valueHeld_timely (h : ∀ l, s.epLambda p code = some l → t + s.epLead p ≤ l ∨ l ≤ t) (w : Nat) (old : Word) (told : Bool) :
    valueHeld (clampMarked s p code w) p code t old told = shadowHeld (clampMarked s p code w) p code t (t + s.epLead p) old := by
  have htt : (clampMarked s p code w).flag F.EP_CTL_TT p = false := (flag_clampMarked (by decide) hp w).trans ht
  unfold valueHeld
  rw [if_pos ⟨hc, htt⟩, (sameLead_clampMarked hp w).epLead hp]
  dsimp only
  rw [epLambda_shadowHeld hp]
  cases hl : s.epLambda p code with
  | none => rfl
  | some l => exact if_neg (by rcases h l hl with h | h <;> simp <;> omega)

theorem valueHeld_late {l : Nat} (hl : s.epLambda p code = some l) (h0 : t < l) (h1 : l < t + s.epLead p) (w : Nat) (old : Word) :
    valueHeld (clampMarked s p code w) p code t old false =
      (shadowHeld (clampMarked s p code w) p code t (t + s.epLead p) old).epLate p t false := by
  have htt : (clampMarked s p code w).flag F.EP_CTL_TT p = false := (flag_clampMarked (by decide) hp w).trans ht
  unfold valueHeld
  rw [if_pos ⟨hc, htt⟩, (sameLead_clampMarked hp w).epLead hp]
  dsimp only
  rw [epLambda_shadowHeld hp, hl]
  exact if_pos (by simp [h0, h1])

variable (h : Unmet s p code t)
include h

theorem epValue_timely (hl : ∀ l, s.epLambda p code = some l → t + s.epLead p ≤ l ∨ l ≤ t) : s.epValue p code v t lane =
    ((shadowHeld (clampMarked s p code (valueWord code v)) p code t (t + s.epLead p) (s.reg (epValueReg code) p)).setRegN
      (epValueReg code) p (valueWord code v)).epRecord s p code t lane := by
  rw [epValue_unmet h (by simp [ht]), valueKept_carrier hp ht hc, valueHeld_timely hp ht hc hl]

theorem epValue_late {l : Nat} (hl : s.epLambda p code = some l) (h0 : t < l) (h1 : l < t + s.epLead p) : s.epValue p code v t lane =
    (((shadowHeld (clampMarked s p code (valueWord code v)) p code t (t + s.epLead p) (s.reg (epValueReg code) p)).epLate p t false).setRegN
      (epValueReg code) p (valueWord code v)).epRecord s p code t lane := by
  rw [epValue_unmet h (by simp [ht]), valueKept_carrier hp ht hc, valueHeld_late hp ht hc hl h0 h1]

end

/-- The value that a load point takes: the oldest of those kept for it, else the register (R171). -/
theorem epTaken_register {r : Reg} {at_ : Nat} (h : (s.ep p).held.filter (fun y => y.1 == code && decide (at_ / 128 < y.2.1)) = []) :
    s.epTaken p r code at_ = s.regN r p := by
  unfold State.epTaken
  rw [← List.head?_filter, h]
  rfl

theorem epTaken_held {r : Reg} {at_ : Nat} {x : Nat × Nat × Word} {rest : List (Nat × Nat × Word)}
    (h : (s.ep p).held.filter (fun y => y.1 == code && decide (at_ / 128 < y.2.1)) = x :: rest) :
    s.epTaken p r code at_ = x.2.2.toNat := by
  unfold State.epTaken
  rw [← List.head?_filter, h]
  rfl

end

end Sys2Proof.Laws
end

section
/-! SUPPORT. Origin and timetable writes of an edge pair (R161, R164, R166, R167, R171, R175, R177). -/

namespace Sys2Proof.Laws
open Sys2Proof.Machine

variable {s u : State} {p t : Nat} {lane : Option Nat}

/-! Origin writes (R166, R167). -/

theorem epOrigin_modeErr {regs : List (Reg × Nat)} {arms : Bool} (h : s.flag F.EP_STAT_STARTED p = true ∨ s.flag F.EP_CTL_TT p = true) :
    s.epOrigin p t regs arms lane = s.epModeErr p :=
  if_pos (by rcases h with h | h <;> simp [h])

/-- A carrier with its origin armed at an instant. -/
def armedAt (s : State) (p o : Nat) : State := s.modEp p (fun x => { x with armed := true, origin := o })

section
variable (h : Unmet s p 0x10 t) (hs : s.flag F.EP_STAT_STARTED p = false) (ht : s.flag F.EP_CTL_TT p = false)
include h hs ht

theorem epOrigin_part (r : Reg) (v : Nat) : s.epOrigin p t [(r, v)] false lane = (s.setRegN r p v).epRecord s p 0x10 t lane := by
  unfold State.epOrigin
  rw [if_neg (by simp [hs, ht]), epRaced_unmet h]
  rfl

/-- A write of the fine field arms the origin that the registers hold with it. -/
theorem epOrigin_arms (hp : p < 65536) (v : Nat) : s.epOrigin p t [(.EP_ORIGINF, v % 2 ^ 7)] true lane =
    ((armedAt (s.setRegN .EP_ORIGINF p (v % 2 ^ 7)) p (s.pair .EP_ORIGINL .EP_ORIGINH p * 128 + v % 128)).epSchedule p t).epRecord s p 0x10 t
      lane := by
  have hf : (s.setRegN .EP_ORIGINF p (v % 2 ^ 7)).fld F.EP_ORIGINF_FINE p = v % 128 := by
    unfold State.fld
    rw [show F.EP_ORIGINF_FINE.reg = .EP_ORIGINF from rfl, regN_setRegN _ _ _ _ (by omega)]
    exact Nat.mod_mod ..
  have hpair : (s.setRegN .EP_ORIGINF p (v % 2 ^ 7)).pair .EP_ORIGINL .EP_ORIGINH p = s.pair .EP_ORIGINL .EP_ORIGINH p :=
    pair_setRegN_ne _ (key_ne (by decide) hp hp) (key_ne (by decide) hp hp)
  unfold State.epOrigin
  rw [if_neg (by simp [hs, ht]), epRaced_unmet h]
  dsimp only [List.foldl]
  rw [hf, hpair]
  rfl

end

/-- The late writes of the shadows that a carrier start comes too early for, and the start that is fixed (R166, R171). -/
def startFixed (u : State) (p t start : Nat) : State :=
  (repeatN ((u.ep p).held.countP (fun x => decide (start / 128 < x.2.1))) (fun _ x => x.epLate p t false) u).modEp p
    (fun x => { x with set := true, start := start })

theorem epSchedule_disabled (h : s.flag F.EP_CTL_ENABLE p = false) : s.epSchedule p t = s := if_pos (by simp [h])

section
variable (he : u.flag F.EP_CTL_ENABLE p = true) (ht : u.flag F.EP_CTL_TT p = false) (ha : (u.ep p).armed = true)
  (hs : u.flag F.EP_STAT_STARTED p = false)
include he ht ha hs

theorem epSchedule_origin (h : u.epEarliest p t ≤ (u.ep p).origin) : u.epSchedule p t = startFixed u p t (u.ep p).origin := by
  unfold State.epSchedule
  rw [if_neg (by simp [he, ht, ha, hs])]
  simp only [if_neg (Nat.not_lt.mpr h)]
  rfl

theorem epSchedule_late (h : (u.ep p).origin < u.epEarliest p t) : u.epSchedule p t =
    let len := u.epLen p (max 16 (u.regN .EP_PERIOD p))
    (startFixed u p t ((u.ep p).origin + (u.epEarliest p t - (u.ep p).origin + len - 1) / len * len)).setFld F.EP_STAT_LATE p 1 := by
  unfold State.epSchedule
  rw [if_neg (by simp [he, ht, ha, hs])]
  simp only [if_pos h]
  rfl

end

/-! Timetable writes (R164, R175, R177). -/

/-- The key under which a timetable write is on record (R165). -/
def edgeKey (b push : Bool) : Nat := (if b then 0x22 else 0x20) + if push then 4 else 0

theorem edgeKey_eq (b push : Bool) : 0x20 + 2 * b2n b + 4 * b2n push = edgeKey b push := by cases b <;> cases push <;> rfl

section
variable {b lvl push : Bool} {at_ : Nat}

theorem epEdge_modeErr (h : s.flag F.EP_CTL_TT p = false ∨ (b = true ∧ s.flag F.EP_CTL_COMPL p = true)) :
    s.epEdge p b lvl at_ t lane push = s.epModeErr p :=
  if_pos (by rcases h with h | ⟨hb, h⟩ <;> simp [*])

/-- The instant of the last edge written to an output or made by it, if any (R175). -/
def lastEdge (o : Outp) : Option Nat :=
  match o.queue.getLast? with
  | some q => some q.at_
  | none => o.last

/-- A pair with an edge joined to the queue of an output. -/
def joined (s : State) (p : Nat) (b lvl : Bool) (t i : Nat) : State :=
  s.modEp p (fun x => x.setOutp b { x.outp b with queue := ((s.ep p).outp b).queue ++ [⟨i, lvl, t⟩] })

/-- What a timetable write that meets no other one comes to (R175, R177). -/
def edgeWritten (s : State) (p : Nat) (b lvl : Bool) (at_ t : Nat) : State :=
  let o := (s.ep p).outp b
  if s.flag F.EP_STAT_TRIPPED p || (s.ep p).relAt == t + 1 then s.epDrop p
  else if 16 ≤ o.queue.length then s.setFld F.EP_STAT_QFULL p 1
  else if (match lastEdge o with | some q => decide (at_ < q + 512) | none => false) then s.setFld F.EP_STAT_ORDER p 1
  else
    let late := o.queue.isEmpty && decide (at_ < s.epEarliest p t)
    let x := joined s p b lvl t (if late then s.epEarliest p t else at_)
    (if late then x.epLate p t false else x).epQstat p

theorem epEdge_unmet (h : Unmet s p (edgeKey b push) t) (ht : s.flag F.EP_CTL_TT p = true) (hc : b = false ∨ s.flag F.EP_CTL_COMPL p = false) :
    s.epEdge p b lvl at_ t lane push = (edgeWritten s p b lvl at_ t).epRecord s p (edgeKey b push) t lane := by
  have hmode : ¬ (!s.flag F.EP_CTL_TT p || (b && s.flag F.EP_CTL_COMPL p)) = true := by rcases hc with h | h <;> simp [h, ht]
  unfold State.epEdge
  dsimp only
  rw [if_neg hmode, edgeKey_eq, epRaced_unmet h, epToldLate_unmet h]
  rfl

theorem edgeWritten_dropped (h : s.flag F.EP_STAT_TRIPPED p = true ∨ (s.ep p).relAt = t + 1) :
    edgeWritten s p b lvl at_ t = s.epDrop p := if_pos (by rcases h with h | h <;> simp [h])

section
variable (hr : s.flag F.EP_STAT_TRIPPED p = false) (hrel : (s.ep p).relAt ≠ t + 1)
include hr hrel

theorem edgeWritten_full (h : 16 ≤ ((s.ep p).outp b).queue.length) : edgeWritten s p b lvl at_ t = s.setFld F.EP_STAT_QFULL p 1 := by
  unfold edgeWritten
  rw [if_neg (by simp [hr, hrel])]
  exact if_pos h

variable (hroom : ((s.ep p).outp b).queue.length < 16)
include hroom

theorem edgeWritten_unordered (h : ¬ ∀ q, lastEdge ((s.ep p).outp b) = some q → q + 512 ≤ at_) :
    edgeWritten s p b lvl at_ t = s.setFld F.EP_STAT_ORDER p 1 := by
  unfold edgeWritten
  rw [if_neg (by simp [hr, hrel])]
  refine (if_neg (Nat.not_le.mpr hroom)).trans (if_pos ?_)
  cases hl : lastEdge ((s.ep p).outp b) with
  | none => exact absurd (fun q hq => by rw [hl] at hq; cases hq) h
  | some q => simpa [hl] using h

theorem edgeWritten_joins (h : ∀ q, lastEdge ((s.ep p).outp b) = some q → q + 512 ≤ at_) : edgeWritten s p b lvl at_ t =
    let late := ((s.ep p).outp b).queue.isEmpty && decide (at_ < s.epEarliest p t)
    let x := joined s p b lvl t (if late then s.epEarliest p t else at_)
    (if late then x.epLate p t false else x).epQstat p := by
  unfold edgeWritten
  rw [if_neg (by simp [hr, hrel])]
  refine (if_neg (Nat.not_le.mpr hroom)).trans (if_neg ?_)
  cases hl : lastEdge ((s.ep p).outp b) with
  | none => simp
  | some q => simpa using h q hl

end
end

/-- A bit of a field is a bit of its register. -/
theorem bit_bits {hi lo k : Nat} (n : Nat) (h : lo + k ≤ hi) : bit k (bits hi lo n) = bit (lo + k) n := by
  unfold bit bits
  rw [Nat.testBit_mod_two_pow, Nat.testBit_shiftRight]
  simp [show k < hi + 1 - lo by omega]

/-- QPUSH queues an edge at QTIME plus FINE, of the output and level that KIND names (R175, R191). -/
theorem epQpush_eq (s : State) (p v t : Nat) (lane : Option Nat) : s.epQpush p v t lane =
    s.epEdge p (bit 9 v) (!bit 8 v) (expandShort t (s.regN .EP_QTIME p) * 128 + v % 128) t lane true := by
  unfold State.epQpush
  dsimp only
  rw [bit_bits _ (by omega), bit_bits _ (by omega)]
  rfl

/-- The four timetable fields of EDGE: A and B, to active and to inactive (R161). -/
theorem edgeWrite_timetable {field : Nat} (h : field < 4) (v fine e : Nat) : s.edgeWrite p (0x20 + field) v fine t e =
    s.epEdge p (decide (2 ≤ field)) (decide (field % 2 = 0)) (expandShort t v * 128 + fine) t (some e) := by
  interval_cases field <;> rfl

theorem edgeBy_takes {e n f v fine : Nat} (hep : s.slotInEpoch (e / 8) (s.physOf e) = true)
    (ha : s.answers (0x400170000 + s.epPhys n * 0x100) = true) (ho : s.planOwns 2 n = true) :
    s.edgeBy e n f v fine = s.edgeWrite (s.epPhys n) f v fine s.now e := by
  have h : s.edgeEffect e (s.physOf e) s.now n f v fine = (false, s.edgeWrite (s.epPhys n) f v fine s.now e) := by
    unfold State.edgeEffect
    simp [hep, ha, ho]
  unfold State.edgeBy
  rw [h]

theorem edgeBy_fenced {e n f v fine : Nat} (hep : s.slotInEpoch (e / 8) (s.physOf e) = false) :
    s.edgeBy e n f v fine = s.fence (e / 8) := by
  have h : s.edgeEffect e (s.physOf e) s.now n f v fine = (false, s.fence (e / 8)) := by
    unfold State.edgeEffect
    simp [hep]
  unfold State.edgeBy
  rw [h]

end Sys2Proof.Laws
end

section
/-! SUPPORT. Writes of CTL, STAT and STEER of an edge pair (R176, R178, R183, R184, R186, R190, R241). -/

namespace Sys2Proof.Laws
open Sys2Proof.Machine

variable {s u : State} {p t : Nat} {lane : Option Nat}

/-! Writes of CTL (R176, R183, R190). -/

/-- A write of CTL that changes a safe level to low or high. -/
abbrev SafeMoves (old n : Nat) : Prop :=
  bits 8 7 old ≠ bits 8 7 n ∧ bits 8 7 n < 2 ∨ bits 10 9 old ≠ bits 10 9 n ∧ bits 10 9 n < 2

/-- A change of a safe level that shows at a ball is a commanded change (R183). -/
def safeMoved (y : State) (p t old n : Nat) : State :=
  if y.epDrives p = false ∧ SafeMoves old n then y.modEp p (fun z => { z with cmd := 128 * t }) else y

/-- With COMPL = 1 the queue of output B is not used (R176). -/
def queueBUnused (y : State) (p : Nat) : State :=
  if bit 3 (y.regN .EP_CTL p) then (y.modEp p (fun z => { z with b := { z.b with queue := [] } })).epQstat p else y

/-- A pair whose CTL holds ENABLE = 1 runs, and an armed carrier whose start is not set yet starts. -/
def ctlRuns (set : Bool) (y : State) (p t : Nat) : State :=
  let z := (queueBUnused y p).modEp p (fun z => { z with on := true })
  (if set then z else z.epSchedule p t).epRefresh p

theorem set_queueBUnused (y : State) : ((queueBUnused y p).ep p).set = (y.ep p).set := by
  unfold queueBUnused
  split
  · rw [ep_epQstat, ep_modEp]
  · rfl

theorem regN_safeMoved (y : State) (q old n : Nat) (r : Reg) (i : Nat) : (safeMoved y q t old n).regN r i = y.regN r i := by
  unfold safeMoved
  split <;> rfl

theorem set_safeMoved (y : State) (q old n : Nat) : ((safeMoved y q t old n).ep q).set = (y.ep q).set := by
  unfold safeMoved
  split
  · rw [ep_modEp]
  · rfl

/-- Whether a write of CTL would change a mode bit while ENABLE is 1, so that the six mode bits stay (R190). -/
def ctlKeeps (s : State) (p x : Nat) : Bool := bit 0 (s.regN .EP_CTL p) && bits 6 1 (s.regN .EP_CTL p) != bits 6 1 x

theorem ctlKeeps_false {x : Nat} (h : bit 0 (s.regN .EP_CTL p) = false ∨ bits 6 1 (s.regN .EP_CTL p) = bits 6 1 x) :
    ctlKeeps s p x = false := by
  unfold ctlKeeps
  rcases h with h | h <;> simp [h]

theorem ctlKeeps_true {x : Nat} (h0 : bit 0 (s.regN .EP_CTL p) = true) (h : bits 6 1 (s.regN .EP_CTL p) ≠ bits 6 1 x) :
    ctlKeeps s p x = true := by
  unfold ctlKeeps
  simp [h0, h]

/-- CTL after a write. -/
def ctlWord (s : State) (p x : Nat) (keeps : Bool) : Nat := (if keeps then setBits 1 6 (bits 6 1 (s.regN .EP_CTL p)) x else x) % 2 ^ 14

theorem bit_zero_of_bits {m n : Nat} (h : bits 0 0 m = bits 0 0 n) : bit 0 m = bit 0 n := by
  have h : m % 2 = n % 2 := h
  rw [bit_eq_decide, bit_eq_decide]
  simp [h]

/-- A write of CTL puts every field but the six mode bits. -/
theorem bits_ctlWord {hi lo : Nat} (x : Nat) (keeps : Bool) (hhi : hi < 14) (h : hi < 1 ∨ 7 ≤ lo) :
    bits hi lo (ctlWord s p x keeps) = bits hi lo x := by
  unfold ctlWord
  rw [bits_mod_two_pow _ _ hhi]
  cases keeps with
  | false => rfl
  | true =>
    rcases h with h | h
    · exact bits_setBits_below _ _ _ h
    · exact bits_setBits_above _ _ _ h

/-- CTL written, before the pair acts on it: a write that the mode bits refuse sets MODEERR (R190). -/
def ctlTaken (s : State) (p x t : Nat) (keeps : Bool) : State :=
  safeMoved ((if keeps then s.epModeErr p else s).setRegN .EP_CTL p (ctlWord s p x keeps)) p t (s.regN .EP_CTL p) x

theorem safeMoved_eq (y : State) (old n : Nat) :
    (if !y.epDrives p && ((bits 8 7 old != bits 8 7 n && decide (bits 8 7 n < 2)) || (bits 10 9 old != bits 10 9 n && decide (bits 10 9 n < 2))) then
      y.modEp p (fun z => { z with cmd := 128 * t }) else y) = safeMoved y p t old n :=
  if_congr (by simp [SafeMoves]) rfl rfl

theorem safeMoved_congr (y : State) (old : Nat) {n x : Nat} (ha : bits 8 7 n = bits 8 7 x) (hb : bits 10 9 n = bits 10 9 x) :
    safeMoved y p t old n = safeMoved y p t old x :=
  if_congr (by rw [SafeMoves, SafeMoves, ha, hb]) rfl rfl

theorem regN_ctlTaken (keeps : Bool) (x : Nat) : (ctlTaken s p x t keeps).regN .EP_CTL p = ctlWord s p x keeps := by
  have hlt : ctlWord s p x keeps < 2 ^ 14 := Nat.mod_lt _ (by decide)
  unfold ctlTaken
  rw [regN_safeMoved, regN_setRegN _ _ _ _ (by omega)]

theorem set_ctlTaken (x : Nat) (keeps : Bool) : ((ctlTaken s p x t keeps).ep p).set = (s.ep p).set := by
  unfold ctlTaken
  rw [set_safeMoved]
  cases keeps <;> rfl

/-- A write of CTL starts the pair, or stops it (R190). -/
theorem epCtl_eq (s : State) (p x t : Nat) : s.epCtl p x t =
    if bit 0 x then ctlRuns (s.ep p).set (ctlTaken s p x t (ctlKeeps s p x)) p t else ((ctlTaken s p x t (ctlKeeps s p x)).epStop p).epRefresh p := by
  generalize hk : ctlKeeps s p x = keeps
  have h0 : bit 0 (ctlWord s p x keeps) = bit 0 x := bit_zero_of_bits (bits_ctlWord x keeps (by decide) (by decide))
  have ha : bits 8 7 (ctlWord s p x keeps) = bits 8 7 x := bits_ctlWord x keeps (by decide) (by decide)
  have hb : bits 10 9 (ctlWord s p x keeps) = bits 10 9 x := bits_ctlWord x keeps (by decide) (by decide)
  have htaken : safeMoved ((if keeps then s.epModeErr p else s).setRegN .EP_CTL p (ctlWord s p x keeps)) p t (s.regN .EP_CTL p)
      (ctlWord s p x keeps) = ctlTaken s p x t keeps := safeMoved_congr _ _ ha hb
  have hkeeps : (bit 0 (s.regN .EP_CTL p) && bits 6 1 (s.regN .EP_CTL p) != bits 6 1 x) = keeps := hk
  have hword : (if keeps then setBits 1 6 (bits 6 1 (s.regN .EP_CTL p)) x else x) % 2 ^ 14 = ctlWord s p x keeps := rfl
  unfold State.epCtl
  dsimp only
  rw [hkeeps, hword, safeMoved_eq, htaken, h0]
  have hset : (((queueBUnused (ctlTaken s p x t keeps) p).modEp p (fun z => { z with on := true })).ep p).set = (s.ep p).set := by
    rw [ep_modEp, set_queueBUnused, set_ctlTaken]
  unfold ctlRuns
  rw [← hset]
  unfold queueBUnused
  rw [regN_ctlTaken]
  cases bit 0 x <;> rfl

/-! Writes of STAT (R178, R183). -/

theorem holdBy_modEp {f : Pair → Pair} (hf : ∀ x, (f x).holdBy = x.holdBy) (p q : Nat) : ((s.modEp p f).ep q).holdBy = (s.ep q).holdBy := by
  by_cases h : q = p
  · subst h
    rw [ep_modEp, hf]
  · rw [ep_modEp_ne _ h]

theorem holdBy_epRefresh (p q : Nat) : ((s.epRefresh p).ep q).holdBy = (s.ep q).holdBy := by
  have hdriven (d : Bool) (c : Nat) : ((s.modEp p (fun x => { x with driven := d, cmd := c })).ep q).holdBy = (s.ep q).holdBy :=
    holdBy_modEp (by exact fun _ => rfl) p q
  unfold State.epRefresh
  dsimp only
  split
  · rfl
  · split
    · exact hdriven _ _
    · exact hdriven _ _

theorem holdBy_epFlush (p q : Nat) : ((s.epFlush p).ep q).holdBy = (s.ep q).holdBy := by
  unfold State.epFlush
  rw [ep_epQstat]
  exact holdBy_modEp (by exact fun _ => rfl) p q

theorem holdBy_epResume (p q : Nat) : ((s.epResume p).ep q).holdBy = (s.ep q).holdBy := by
  unfold State.epResume
  dsimp only
  rw [holdBy_epRefresh]
  split
  · rw [holdBy_modEp (by exact fun _ => rfl), holdBy_epFlush]
    exact holdBy_modEp (by exact fun _ => rfl) p q
  · exact holdBy_modEp (by exact fun _ => rfl) p q

theorem repeatN_fixed {σ : Type} {f : Nat → σ → σ} {x : σ} {n : Nat} (h : ∀ k < n, f k x = x) : repeatN n f x = x := by
  have hl : ∀ l : List Nat, (∀ k ∈ l, f k x = x) → l.foldl (fun y k => f k y) x = x := by
    intro l
    induction l with
    | nil => exact fun _ => rfl
    | cons k l ih =>
      intro hl
      rw [List.foldl_cons, hl k List.mem_cons_self]
      exact ih fun j hj => hl j (List.mem_cons_of_mem _ hj)
  exact hl _ fun k hk => h k (List.mem_range.mp hk)

/-- The release of a pair that no reserve is held for. -/
theorem epRbRelease_alone (h : s.flag F.EP_STAT_RBFAULT p = true) (ha : ∀ g < 12, (s.ep (192 + g)).holdBy ≠ some p) :
    s.epRbRelease p = (s.setFld F.EP_STAT_RBFAULT p 0).epResume p := by
  unfold State.epRbRelease
  rw [if_neg (by simp [h])]
  refine repeatN_fixed fun g hg => if_neg ?_
  rw [holdBy_epResume]
  exact ha g hg

theorem epRbRelease_none (h : s.flag F.EP_STAT_RBFAULT p = false) : s.epRbRelease p = s := if_pos (by simp [h])

/-! Steering (R184, R186, R241). -/

section
variable {g m : Nat}

/-- MEMBER, ACTIVE and ERR of a word of STEER with ACTIVE = 1, and of one with ACTIVE = 0. -/
theorem steerWord_bits (hm : m < 16) : bits 3 0 (m + 16) = m ∧ bit 4 (m + 16) = true ∧ bit 6 (m + 16) = false := by
  have hmod : (m + 16) % 16 = m := by omega
  exact ⟨hmod, by rw [bit_eq_decide]; simp; omega, by rw [bit_eq_decide]; simp; omega⟩

theorem unsteerWord_bits (hm : m < 16) : bits 3 0 m = m ∧ bit 4 m = false ∧ bit 6 m = false := by
  have hmod : m % 16 = m := by omega
  exact ⟨hmod, by rw [bit_eq_decide]; simp; omega, by rw [bit_eq_decide]; simp; omega⟩

/-- A steering is accepted where the reserve is free and neither pair drives the balls (R184). -/
def SteerFree (s : State) (g m : Nat) : Prop :=
  s.flag F.EP_STEER_ACTIVE g = false ∧ s.epDrives (s.epPhys (16 * g + m)) = false ∧ s.flag F.EP_CTL_ENABLE (192 + g) = false

/-- A write with ACTIVE = 1 steers the reserve, or sets ERR. -/
theorem fltSteer_active (hm : m < 16) : s.fltSteer g (m + 16) =
    if s.flag F.EP_STEER_ACTIVE g || s.epDrives (s.epPhys (16 * g + m)) || s.flag F.EP_CTL_ENABLE (192 + g) then s.setFld F.EP_STEER_ERR g 1
    else (((s.setFld F.EP_STEER_MEMBER g m).setFld F.EP_STEER_ACTIVE g 1).setFld F.EP_STEER_BUSY g 1).note .degr := by
  obtain ⟨hmem, h4, h6⟩ := steerWord_bits hm
  unfold State.fltSteer State.epSteer
  dsimp only
  rw [hmem, h4, h6]
  rfl

theorem fltSteer_accepted (hm : m < 16) (h : SteerFree s g m) : s.fltSteer g (m + 16) =
    (((s.setFld F.EP_STEER_MEMBER g m).setFld F.EP_STEER_ACTIVE g 1).setFld F.EP_STEER_BUSY g 1).note .degr := by
  obtain ⟨ha, hd, he⟩ := h
  exact (fltSteer_active hm).trans (if_neg (by simp [ha, hd, he]))

theorem fltSteer_refused (hm : m < 16) (h : ¬ SteerFree s g m) : s.fltSteer g (m + 16) = s.setFld F.EP_STEER_ERR g 1 := by
  refine (fltSteer_active hm).trans (if_pos ?_)
  by_contra hno
  simp only [Bool.or_eq_true, not_or, Bool.not_eq_true] at hno
  exact h ⟨hno.1.1, hno.1.2, hno.2⟩

theorem fltSteer_kept (hm : m < 16) (h : s.inRun = true) : s.fltSteer g m = s.setFld F.EP_STEER_ERR g 1 := by
  obtain ⟨-, h4, h6⟩ := unsteerWord_bits hm
  have hs : s.epSteer g m = s.setFld F.EP_STEER_ERR g 1 := by
    unfold State.epSteer
    dsimp only
    rw [h4, h6]
    exact if_pos h
  unfold State.fltSteer
  rw [hs]
  exact if_pos (by simp [h])

/-- A reserve unsteered: stopped and disabled (R186). -/
def unsteered (s : State) (g m : Nat) : State :=
  ((((((s.setFld F.EP_STEER_MEMBER g m).setFld F.EP_STEER_ACTIVE g 0).setFld F.EP_STEER_BUSY g 0).epStop (192 + g)).setFld F.EP_CTL_ENABLE
    (192 + g) 0).epRefresh (192 + g)).note .degr

/-- Unsteering gives the balls back to the pair that was steered away, which its nets may hold tripped (R186, R241). -/
theorem fltSteer_unsteers (hm : m < 16) (h : s.inRun = false) : s.fltSteer g m =
    (unsteered s g m).fltPair (16 * g + s.fld F.EP_STEER_MEMBER g) (unsteered s g m).now := by
  obtain ⟨hmem, h4, h6⟩ := unsteerWord_bits hm
  have hs : s.epSteer g m = unsteered s g m := by
    unfold State.epSteer
    dsimp only
    rw [hmem, h4, h6]
    exact if_neg (ne_true_of_eq_false h)
  unfold State.fltSteer
  rw [hs]
  exact if_neg (by simp [h4, h])

end

end Sys2Proof.Laws
end

section
/-! PROOF. Writes of an edge pair (R161, R164 to R167, R171, R175, R183, R184, R186, R190, R191). -/

namespace Sys2Proof.Proofs
open Sys2Proof.Machine Sys2Proof.Laws

/-! Each command is the write of its register. -/

section
variable {s : State} {who : Initiator} {p : Fin 204}

theorem exec_epValueWrite {code : Fin 6} (h : s.Takes who (epValueReg code.val) p.val) (v : Word) :
    exec (.epValueWrite who p code v) s = (s.epValue p.val code.val v.toNat s.now (laneOf who)).ends := by
  have hr : ∀ c : Fin 6, epValueReg c.val ∈ pairRegs := by decide
  show (s.writeBy who (epValueReg code.val) p.val v.toNat).ends = _
  rw [writeBy_pair h (hr code) p.isLt, writeEp_value code.isLt]

theorem exec_originLow (h : s.Takes who .EP_ORIGINL p.val) (v : Word) : exec (.epOriginWrite who p 0 v) s =
    (s.epOrigin p.val s.now [(.EP_ORIGINL, v.toNat)] false (laneOf who)).ends :=
  congrArg State.ends (writeBy_pair h (by decide) p.isLt v.toNat)

theorem exec_originHigh (h : s.Takes who .EP_ORIGINH p.val) (v : Word) : exec (.epOriginWrite who p 1 v) s =
    (s.epOrigin p.val s.now [(.EP_ORIGINH, v.toNat)] false (laneOf who)).ends :=
  congrArg State.ends (writeBy_pair h (by decide) p.isLt v.toNat)

theorem exec_originFine (h : s.Takes who .EP_ORIGINF p.val) (v : Word) : exec (.epOriginWrite who p 2 v) s =
    (s.epOrigin p.val s.now [(.EP_ORIGINF, v.toNat % 2 ^ 7)] true (laneOf who)).ends :=
  congrArg State.ends (writeBy_pair h (by decide) p.isLt v.toNat)

theorem exec_qpush (h : s.Takes who .EP_QPUSH p.val) (v : Word) : exec (.qpush who p v) s =
    (s.epEdge p.val (bit 9 v.toNat) (!bit 8 v.toNat) (expandShort s.now (s.regN .EP_QTIME p.val) * 128 + v.toNat % 128) s.now (laneOf who)
      true).ends :=
  congrArg State.ends ((writeBy_pair h (by decide) p.isLt v.toNat).trans (epQpush_eq ..))

theorem exec_epCtlWrite (h : s.Takes who .EP_CTL p.val) (v : Word) : exec (.epCtlWrite who p v) s =
    (s.epRaced p.val 0x30 s.now (laneOf who) (fun s' => s'.epCtl p.val v.toNat s.now)).ends :=
  congrArg State.ends (writeBy_pair h (by decide) p.isLt v.toNat)

theorem exec_rbfaultRelease (h : s.Takes who .EP_STAT p.val) : exec (.rbfaultRelease who p) s =
    (s.epRaced p.val 0x31 s.now (laneOf who) (fun s' => (s'.epRbRelease p.val).regPlain .EP_STAT p.val 0x80)).ends :=
  congrArg State.ends (writeBy_pair h (by decide) p.isLt 0x80)

theorem writeBy_EP_STEER {g : Fin 12} (h : s.Takes who .EP_STEER g.val) (v : Nat) : s.writeBy who .EP_STEER g.val v = s.fltSteer g.val v :=
  writeBy_EP h (placed_of_count (n := 12) (by decide +kernel) g.isLt) (by decide +kernel) (by omega) v

end

/-! Value writes. -/

theorem valueWrite {s : State} (hq : s.Quiet) (who : Initiator) (p : Fin 204) (code : Fin 6) (v : Word) :
    let lane := laneOf who
    let r := epValueReg code.val
    let w := valueWord code.val v.toNat
    let u := clampMarked s p.val code.val w
    let kept := if code.val = 5 then u.epHoldMax p.val s.now else u.epHoldDead p.val s.now
    let by_ := s.now + s.epLead p.val
    let shadow := shadowHeld u p.val code.val s.now by_ (s.reg r p.val)
    let done (x : State) := (x.setRegN r p.val w).epRecord s p.val code.val s.now lane
    s.Takes who r p.val → (s.ep p.val).lanes.find? (fun x => x.1 == code.val && x.2.at_ == s.now) = none →
      (s.flag F.EP_CTL_TT p.val = true → code.val < 3 →
        exec (.epValueWrite who p code v) s = .next (s.setFld F.EP_STAT_MODEERR p.val 1)) ∧
      (code.val = 5 ∨ s.flag F.EP_CTL_TT p.val = true ∧ 3 ≤ code.val → exec (.epValueWrite who p code v) s = .next (done kept)) ∧
      (s.flag F.EP_CTL_TT p.val = false → code.val < 5 → (∀ l, s.epLambda p.val code.val = some l → by_ ≤ l ∨ l ≤ s.now) →
        exec (.epValueWrite who p code v) s = .next (done shadow)) ∧
      (∀ l, s.flag F.EP_CTL_TT p.val = false → code.val < 5 → s.epLambda p.val code.val = some l → s.now < l → l < by_ →
        exec (.epValueWrite who p code v) s = (done (shadow.epLate p.val s.now false)).ends) := by
  intro lane r w u kept by_ shadow done ht hfind
  have hlt := code.isLt
  have hfree : Unmet s p.val code.val s.now := unmet_register (.inl (by omega)) hfind
  have hu : u.Quiet := quiet_clampMarked hq ..
  have hdone {x : State} (hx : x.Quiet) : (done x).Quiet := quiet_epRecord (quiet_setRegN hx ..) ..
  have hkept : kept.Quiet := by
    by_cases h5 : code.val = 5
    · rw [show kept = _ from if_pos h5]
      exact quiet_epHoldMax hu ..
    · rw [show kept = _ from if_neg h5]
      exact quiet_epHoldDead hu ..
  rw [exec_epValueWrite ht]
  refine ⟨fun htt hc => ?_, fun hc => ?_, fun htt hc hl => ?_, fun l htt hc hl h0 h1 => ?_⟩
  · exact ends_of_eq (epValue_modeErr hc htt) hq
  · exact ends_of_eq (epValue_kept hfree hc hlt) (hdone hkept)
  · exact ends_of_eq (epValue_timely (pair_inst p) htt hc hfree hl) (hdone (quiet_modEp hu ..))
  · exact congrArg State.ends (epValue_late (pair_inst p) htt hc hfree hl h0 h1)

theorem valueWrite_loses {s : State} (hq : s.Quiet) {e : Fin 512} {p : Fin 204} {code : Fin 6} {v : Word}
    (ht : s.Takes (.lane e) (epValueReg code.val) p.val) (hm : s.flag F.EP_CTL_TT p.val = true → 3 ≤ code.val) {x : Nat × LaneWrite}
    (hx : (s.ep p.val).lanes.find? (fun x => x.1 == code.val && x.2.at_ == s.now) = some x) (he : x.2.eng < e.val) :
    exec (.epValueWrite (.lane e) p code v) s = .next (s.bump F.EP_COUNT_DROPCNT F.EP_COUNT_DROPSAT p.val) := by
  rw [exec_epValueWrite ht]
  exact ends_of_eq (epValue_loses code.isLt hm hx he) (quiet_bump hq ..)

/-! Origin writes. -/

section
variable {s : State} {who : Initiator} {p : Fin 204} {v : Word}

/-- The carrier armed at the origin that its registers hold with a fine field. -/
def originArmed (s : State) (p v : Nat) : State :=
  armedAt (s.setRegN .EP_ORIGINF p (v % 2 ^ 7)) p (s.pair .EP_ORIGINL .EP_ORIGINH p * 128 + v % 128)

/-- The carrier start fixed at an instant, with the shadow writes that it comes too early for late (R166, R171). -/
def startAt (s u : State) (p start : Nat) : State :=
  (repeatN ((s.ep p).held.countP (fun x => decide (start / 128 < x.2.1))) (fun _ x => x.epLate p s.now false) u).modEp p
    (fun x => { x with set := true, start := start })

section
variable (he : s.flag F.EP_CTL_ENABLE p.val = true) (ht : s.flag F.EP_CTL_TT p.val = false) (hs : s.flag F.EP_STAT_STARTED p.val = false)
include he ht hs

/-- An armed origin starts the carrier of an enabled pair at the origin, or where that is too early whole periods after it (R166). -/
theorem epSchedule_originArmed (v : Nat) :
    let o := s.pair .EP_ORIGINL .EP_ORIGINH p.val * 128 + v % 128
    let early := s.epEarliest p.val s.now
    let len := s.epLen p.val (max 16 (s.regN .EP_PERIOD p.val))
    let u := originArmed s p.val v
    (early ≤ o → u.epSchedule p.val s.now = startAt s u p.val o) ∧
    (o < early → u.epSchedule p.val s.now =
      (startAt s u p.val (o + (early - o + len - 1) / len * len)).setFld F.EP_STAT_LATE p.val 1) := by
  intro o early len u
  have hp := pair_inst p
  have hflag (g : Fld) (hg : g.reg.ctorIdx ≠ Reg.EP_ORIGINF.ctorIdx) : u.flag g p.val = s.flag g p.val := flag_setRegN_ne _ hg hp hp
  have hep : u.ep p.val = { s.ep p.val with armed := true, origin := o } := ep_modEp ..
  have hearly : u.epEarliest p.val s.now = early :=
    SameLead.epEarliest ⟨(sameLead_setRegN (s := s) (v % 2 ^ 7) hp (by decide)).regs⟩ hp s.now
  have hper : u.regN .EP_PERIOD p.val = s.regN .EP_PERIOD p.val := regN_setRegN_ne _ (key_ne (by decide) hp hp)
  have hlen : u.epLen p.val (max 16 (u.regN .EP_PERIOD p.val)) = len := by
    unfold State.epLen
    rw [hper, hflag _ (by decide)]
    rfl
  have ho : (u.ep p.val).origin = o := by rw [hep]
  have hstart (start : Nat) : startFixed u p.val s.now start = startAt s u p.val start := by
    unfold startFixed
    rw [hep]
    rfl
  have he' : u.flag F.EP_CTL_ENABLE p.val = true := (hflag _ (by decide)).trans he
  have ht' : u.flag F.EP_CTL_TT p.val = false := (hflag _ (by decide)).trans ht
  have hs' : u.flag F.EP_STAT_STARTED p.val = false := (hflag _ (by decide)).trans hs
  have ha : (u.ep p.val).armed = true := by rw [hep]
  refine ⟨fun h => ?_, fun h => ?_⟩
  · rw [epSchedule_origin he' ht' ha hs' (by rw [hearly, ho]; exact h), ho, hstart]
  · rw [epSchedule_late he' ht' ha hs' (by rw [hearly, ho]; exact h)]
    dsimp only
    rw [hlen, hearly, ho, hstart]

end

theorem originWrite (hq : s.Quiet) (who : Initiator) (p : Fin 204) (v : Word) :
    let o := s.pair .EP_ORIGINL .EP_ORIGINH p.val * 128 + v.toNat % 128
    let u := originArmed s p.val v.toNat
    let early := s.epEarliest p.val s.now
    let len := s.epLen p.val (max 16 (s.regN .EP_PERIOD p.val))
    let done (x : State) := x.epRecord s p.val 0x10 s.now (laneOf who)
    s.Takes who .EP_ORIGINF p.val → (s.ep p.val).lanes.find? (fun x => x.1 == 0x10 && x.2.at_ == s.now) = none →
      s.flag F.EP_STAT_STARTED p.val = false → s.flag F.EP_CTL_TT p.val = false →
      (s.flag F.EP_CTL_ENABLE p.val = false → exec (.epOriginWrite who p 2 v) s = .next (done u)) ∧
      (s.flag F.EP_CTL_ENABLE p.val = true → early ≤ o → exec (.epOriginWrite who p 2 v) s = (done (startAt s u p.val o)).ends) ∧
      (s.flag F.EP_CTL_ENABLE p.val = true → o < early → exec (.epOriginWrite who p 2 v) s =
        (done ((startAt s u p.val (o + (early - o + len - 1) / len * len)).setFld F.EP_STAT_LATE p.val 1)).ends) := by
  intro o u early len done ht hfind hs htt
  have hp := pair_inst p
  have harms : exec (.epOriginWrite who p 2 v) s = (done (u.epSchedule p.val s.now)).ends :=
    (exec_originFine ht v).trans (congrArg State.ends (epOrigin_arms (unmet_register (.inl (by decide)) hfind) hs htt hp v.toNat))
  rw [harms]
  refine ⟨fun he => ?_, fun he ho => ?_, fun he ho => ?_⟩
  · have hoff : u.flag F.EP_CTL_ENABLE p.val = false := (flag_setRegN_ne _ (by decide) hp hp).trans he
    have hu : u.Quiet := quiet_modEp (quiet_setRegN hq ..) ..
    rw [epSchedule_disabled hoff]
    exact ends_of_quiet (quiet_epRecord hu ..)
  · rw [(epSchedule_originArmed he htt hs v.toNat).1 ho]
  · rw [(epSchedule_originArmed he htt hs v.toNat).2 ho]

theorem originWrite_modeErr (hq : s.Quiet) (hl : s.Takes who .EP_ORIGINL p.val) (hh : s.Takes who .EP_ORIGINH p.val)
    (hf : s.Takes who .EP_ORIGINF p.val) (h : s.flag F.EP_STAT_STARTED p.val = true ∨ s.flag F.EP_CTL_TT p.val = true) (part : Fin 3) :
    exec (.epOriginWrite who p part v) s = .next (s.setFld F.EP_STAT_MODEERR p.val 1) := by
  match part with
  | 0 => exact (exec_originLow hl v).trans (ends_of_eq (epOrigin_modeErr h) hq)
  | 1 => exact (exec_originHigh hh v).trans (ends_of_eq (epOrigin_modeErr h) hq)
  | 2 => exact (exec_originFine hf v).trans (ends_of_eq (epOrigin_modeErr h) hq)

/-- The register of a part of the origin. -/
def originReg (part : Fin 3) : Reg := if part.val = 0 then .EP_ORIGINL else if part.val = 1 then .EP_ORIGINH else .EP_ORIGINF

theorem originWrite_part (hq : s.Quiet) (hl : s.Takes who .EP_ORIGINL p.val) (hh : s.Takes who .EP_ORIGINH p.val)
    (hfind : (s.ep p.val).lanes.find? (fun x => x.1 == 0x10 && x.2.at_ == s.now) = none) (hs : s.flag F.EP_STAT_STARTED p.val = false)
    (htt : s.flag F.EP_CTL_TT p.val = false) (part : Fin 3) (h : part.val < 2) :
    exec (.epOriginWrite who p part v) s =
      .next ((s.setRegN (originReg part) p.val v.toNat).epRecord s p.val 0x10 s.now (laneOf who)) := by
  have hfree : Unmet s p.val 0x10 s.now := unmet_register (.inl (by decide)) hfind
  have hquiet (r : Reg) : ((s.setRegN r p.val v.toNat).epRecord s p.val 0x10 s.now (laneOf who)).Quiet :=
    quiet_epRecord (quiet_setRegN hq ..) ..
  match part with
  | 0 => exact (exec_originLow hl v).trans (ends_of_eq (epOrigin_part hfree hs htt ..) (hquiet _))
  | 1 => exact (exec_originHigh hh v).trans (ends_of_eq (epOrigin_part hfree hs htt ..) (hquiet _))

end

/-! Timetable writes. -/

theorem timetableWrite {s : State} {e : Fin 512} {n : Fin 192} {field : Fin 4} {v : Word} {fine : Fin 128}
    (hep : s.slotInEpoch (e.val / 8) (s.physOf e.val) = true) (ha : s.answers (0x400170000 + s.epPhys n.val * 0x100) = true)
    (ho : s.planOwns 2 n.val = true) : exec (.epTimetableWrite e n field v fine) s =
      (s.epEdge (s.epPhys n.val) (decide (2 ≤ field.val)) (decide (field.val % 2 = 0)) (expandShort s.now v.toNat * 128 + fine.val) s.now
        (some e.val)).ends :=
  congrArg State.ends ((edgeBy_takes hep ha ho).trans (edgeWrite_timetable field.isLt ..))

theorem timetableWrite_fenced {s : State} (hq : s.Quiet) {e : Fin 512} {n : Fin 192} {field : Fin 4} {v : Word} {fine : Fin 128}
    (hep : s.slotInEpoch (e.val / 8) (s.physOf e.val) = false) :
    exec (.epTimetableWrite e n field v fine) s = .next (s.bump F.SQ_FENCED_COUNT F.SQ_FENCED_SAT (e.val / 8)) :=
  ends_of_eq (edgeBy_fenced hep) (quiet_bump hq ..)

theorem edgeWrite_cases (s : State) (p : Fin 204) (b lvl push : Bool) (at_ : Nat) (lane : Option Nat) :
    let x := s.ep p.val
    let o := x.outp b
    let early := s.epEarliest p.val s.now
    let done (y : State) := y.epRecord s p.val (edgeKey b push) s.now lane
    let put (i : Nat) := joined s p.val b lvl s.now i
    let open_ := s.flag F.EP_STAT_TRIPPED p.val = false ∧ x.relAt ≠ s.now + 1 ∧ o.queue.length < 16
    let inOrder := ∀ q, lastEdge o = some q → q + 512 ≤ at_
    Unmet s p.val (edgeKey b push) s.now → s.flag F.EP_CTL_TT p.val = true → b = false ∨ s.flag F.EP_CTL_COMPL p.val = false →
      (s.flag F.EP_STAT_TRIPPED p.val = true ∨ x.relAt = s.now + 1 →
        s.epEdge p.val b lvl at_ s.now lane push = done (s.bump F.EP_COUNT_DROPCNT F.EP_COUNT_DROPSAT p.val)) ∧
      (s.flag F.EP_STAT_TRIPPED p.val = false → x.relAt ≠ s.now + 1 → 16 ≤ o.queue.length →
        s.epEdge p.val b lvl at_ s.now lane push = done (s.setFld F.EP_STAT_QFULL p.val 1)) ∧
      (open_ → ¬ inOrder → s.epEdge p.val b lvl at_ s.now lane push = done (s.setFld F.EP_STAT_ORDER p.val 1)) ∧
      (open_ → inOrder → o.queue ≠ [] ∨ early ≤ at_ → s.epEdge p.val b lvl at_ s.now lane push = done ((put at_).epQstat p.val)) ∧
      (open_ → inOrder → o.queue = [] → at_ < early →
        s.epEdge p.val b lvl at_ s.now lane push = done ((((put early).epLate p.val s.now false)).epQstat p.val)) := by
  intro x o early done put open_ inOrder hfree htt hc
  have hdone : s.epEdge p.val b lvl at_ s.now lane push = done (edgeWritten s p.val b lvl at_ s.now) := epEdge_unmet hfree htt hc
  rw [hdone]
  refine ⟨fun h => ?_, fun hr hrel hfull => ?_, fun ⟨hr, hrel, hroom⟩ hord => ?_, fun ⟨hr, hrel, hroom⟩ hord hon => ?_,
    fun ⟨hr, hrel, hroom⟩ hord hempty hlate => ?_⟩
  · exact congrArg done (edgeWritten_dropped h)
  · exact congrArg done (edgeWritten_full hr hrel hfull)
  · exact congrArg done (edgeWritten_unordered hr hrel hroom hord)
  · have htimely : (o.queue.isEmpty && decide (at_ < early)) = false := by
      rcases hon with h | h
      · simp [h]
      · simp [Nat.not_lt.mpr h]
    rw [edgeWritten_joins hr hrel hroom hord]
    dsimp only
    rw [htimely]
    rfl
  · have hlate : (o.queue.isEmpty && decide (at_ < early)) = true := by simp [hempty, hlate]
    rw [edgeWritten_joins hr hrel hroom hord]
    dsimp only
    rw [hlate]
    rfl

/-! Writes of CTL and STAT. -/

theorem ctlWrite {s : State} {who : Initiator} {p : Fin 204} {v : Word} (ht : s.Takes who .EP_CTL p.val)
    (hfind : (s.ep p.val).lanes.find? (fun x => x.1 == 0x30 && x.2.at_ == s.now) = none) :
    let taken := ctlTaken s p.val v.toNat s.now (ctlKeeps s p.val v.toNat)
    let done (y : State) := y.epRecord s p.val 0x30 s.now (laneOf who)
    (bit 0 v.toNat = true → exec (.epCtlWrite who p v) s = (done (ctlRuns (s.ep p.val).set taken p.val s.now)).ends) ∧
    (bit 0 v.toNat = false → exec (.epCtlWrite who p v) s = (done ((taken.epStop p.val).epRefresh p.val)).ends) := by
  intro taken done
  have hexec : exec (.epCtlWrite who p v) s = (done (s.epCtl p.val v.toNat s.now)).ends :=
    (exec_epCtlWrite ht v).trans (congrArg State.ends (epRaced_unmet (unmet_register (.inr (by decide)) hfind) _ _))
  rw [hexec, epCtl_eq]
  exact ⟨fun h => by rw [h]; rfl, fun h => by rw [h]; rfl⟩

theorem releaseWrite {s : State} (hq : s.Quiet) {who : Initiator} {p : Fin 204} (ht : s.Takes who .EP_STAT p.val)
    (hfind : (s.ep p.val).lanes.find? (fun x => x.1 == 0x31 && x.2.at_ == s.now) = none) :
    let done (y : State) := y.epRecord s p.val 0x31 s.now (laneOf who)
    (s.flag F.EP_STAT_RBFAULT p.val = true → (∀ g : Fin 12, (s.ep (192 + g.val)).holdBy ≠ some p.val) → exec (.rbfaultRelease who p) s =
      (done ((((s.setFld F.EP_STAT_RBFAULT p.val 0).epResume p.val).regPlain .EP_STAT p.val 0x80))).ends) ∧
    (s.flag F.EP_STAT_RBFAULT p.val = false → exec (.rbfaultRelease who p) s = .next (done (s.regPlain .EP_STAT p.val 0x80))) := by
  intro done
  have hexec : exec (.rbfaultRelease who p) s = (done ((s.epRbRelease p.val).regPlain .EP_STAT p.val 0x80)).ends :=
    (exec_rbfaultRelease ht).trans (congrArg State.ends (epRaced_unmet (unmet_register (.inr (by decide)) hfind) _ _))
  rw [hexec]
  refine ⟨fun h ha => ?_, fun h => ?_⟩
  · rw [epRbRelease_alone h fun g hg => ha ⟨g, hg⟩]
  · rw [epRbRelease_none h]
    exact ends_of_quiet (quiet_epRecord (quiet_setRegN hq ..) ..)

/-! Writes of STEER. -/

theorem steerWrite {s : State} (hq : s.Quiet) {who : Initiator} {g : Fin 12} (ht : s.Takes who .EP_STEER g.val) (m : BitVec 4) :
    (SteerFree s g.val m.toNat → exec (.steer who g m) s =
      ((((s.setFld F.EP_STEER_MEMBER g.val m.toNat).setFld F.EP_STEER_ACTIVE g.val 1).setFld F.EP_STEER_BUSY g.val 1).note .degr).ends) ∧
    (¬ SteerFree s g.val m.toNat → exec (.steer who g m) s = .next (s.setFld F.EP_STEER_ERR g.val 1)) := by
  have hexec : exec (.steer who g m) s = (s.fltSteer g.val (m.toNat + 16)).ends := congrArg State.ends (writeBy_EP_STEER ht _)
  rw [hexec]
  exact ⟨fun h => congrArg State.ends (fltSteer_accepted m.isLt h), fun h => ends_of_eq (fltSteer_refused m.isLt h) hq⟩

theorem unsteerWrite {s : State} (hq : s.Quiet) {who : Initiator} {g : Fin 12} (ht : s.Takes who .EP_STEER g.val) :
    let k := s.fld F.EP_STEER_MEMBER g.val
    let v := unsteered s g.val k
    (s.inRun = true → exec (.unsteer who g) s = .next (s.setFld F.EP_STEER_ERR g.val 1)) ∧
    (s.inRun = false → exec (.unsteer who g) s = (v.fltPair (16 * g.val + k) v.now).ends) := by
  intro k v
  have hk : k < 16 := Nat.mod_lt _ (by decide)
  have hexec : exec (.unsteer who g) s = (s.fltSteer g.val k).ends := congrArg State.ends (writeBy_EP_STEER ht _)
  rw [hexec]
  exact ⟨fun h => ends_of_eq (fltSteer_kept hk h) hq, fun h => congrArg State.ends (fltSteer_unsteers hk h)⟩

/-- Settles O47: each write is the write of its register, which the pair takes by its mode, its instant and its queue. -/
theorem edgeWrites : Obligations.EdgeWrites := by
  unfold Obligations.EdgeWrites
  intro s hq
  refine ⟨?_, ?_, ?_, ?_, ?_, ?_, ?_, ?_, ?_, ?_, ?_, ?_, ?_⟩
  · intro who p code v
    exact valueWrite hq who p code v
  · intro p code at_ x rest
    exact ⟨epTaken_register, epTaken_held⟩
  · intro e p code v ht hm ⟨x, hx, he⟩
    exact valueWrite_loses hq ht hm hx he
  · intro who p v
    exact originWrite hq who p v
  · intro who p part v lane r ⟨hl, hh, hf⟩ hfind
    exact ⟨fun h => originWrite_modeErr hq hl hh hf h part, fun hs htt h => originWrite_part hq hl hh hfind hs htt part h⟩
  · intro e n field v fine p hep ha ho
    exact timetableWrite hep ha ho
  · intro e n field v fine hep
    exact timetableWrite_fenced hq hep
  · intro who p v lane ht
    exact exec_qpush ht v
  · intro p b lvl push at_ lane x o key early done put open_ inOrder hfree
    exact ⟨epEdge_modeErr, edgeWrite_cases s p b lvl push at_ lane hfree⟩
  · intro who p v lane x old kx took u k start done ht hfind
    obtain ⟨hruns, hstops⟩ := ctlWrite ht hfind (v := v)
    refine ⟨fun hno => ?_, fun h0 hm => ?_⟩
    · rw [ctlKeeps_false hno] at hruns hstops
      exact ⟨hruns, hstops⟩
    · rw [ctlKeeps_true h0 hm] at hruns hstops
      exact ⟨hruns, hstops⟩
  · intro who p lane done ht hfind
    exact releaseWrite hq ht hfind
  · intro who g m free ht
    exact steerWrite hq ht m
  · intro who g k r u v ht
    exact unsteerWrite hq ht

end Sys2Proof.Proofs
end

section
/-! SUPPORT. Flint (R239 to R249, R258, R259): settings in an ec, sources that assert, nets that trip and release, the pairs that follow them,
and the routing table. -/

namespace Sys2Proof.Laws
open Sys2Proof.Machine

variable {s : State} {k n src t : Nat}

/-! Settings in an ec (R244). -/

section
variable {i : Nat} {r : Reg}

theorem fltSet_unwritten (h : Tab.look (fun _ => none) s.fltWas i = none) : s.fltSet i t r n = s.regN r n := by
  unfold State.fltSet
  rw [h]

theorem fltSet_after {at_ : Nat} {old : Word} (h : Tab.look (fun _ => none) s.fltWas i = some (at_, old)) (ht : at_ < t) :
    s.fltSet i t r n = s.regN r n := by
  unfold State.fltSet
  rw [h]
  exact if_neg (by omega)

theorem fltSet_before {at_ : Nat} {old : Word} (h : Tab.look (fun _ => none) s.fltWas i = some (at_, old)) (ht : t ≤ at_) :
    s.fltSet i t r n = old.toNat := by
  unfold State.fltSet
  rw [h]
  exact if_pos ht

/-- An entry is held for a write of this ec. -/
theorem fltHold_was (s : State) (i : Nat) (r : Reg) (n : Nat) :
    ∃ old, Tab.look (fun _ => none) (s.fltHold i r n).fltWas i = some (s.now, old) := by
  unfold State.fltHold
  split
  · next hfresh =>
    unfold State.fltFresh at hfresh
    split at hfresh
    · next at_ old h =>
      have hnow : at_ = s.now := beq_iff_eq.mp hfresh
      exact ⟨old, hnow ▸ h⟩
    · cases hfresh
  · refine ⟨s.reg r n, ?_⟩
    dsimp only
    exact Tab_look_put_same ..

/-- What is written to an entry so held holds from the next ec on. -/
theorem fltSet_held {u : State} (h : u.fltWas = (s.fltHold i r n).fltWas) (r' : Reg) (m : Nat) :
    u.fltSet i (s.now + 1) r' m = u.regN r' m := by
  obtain ⟨old, hwas⟩ := fltHold_was s i r n
  rw [← h] at hwas
  exact fltSet_after hwas (Nat.lt_succ_self _)

end

/-- A source is routed to one of the 64 nets (R259). -/
theorem srcRoute_lt (h : s.srcRoute src t = some k) : k < 64 := by
  unfold State.srcRoute at h
  dsimp only at h
  split at h
  · rw [← Option.some.inj h]
    exact Nat.mod_lt _ (by decide)
  · cases h

/-! Sources (R239, R240, R244). -/

/-- A source asserted in ec t on the net that it is routed to then, if any. -/
def routeAsserted (s : State) (src t : Nat) : State :=
  match s.srcRoute src t with
  | some k => s.netAssert k src t
  | none => s

/-- The net that a level source asserts on in the ec after ec t, in which its entry was written (R244). -/
def lateRoute (s : State) (src t : Nat) : Option Nat :=
  if s.fltFresh src t && s.flag F.FLT_SRCE_ACTIVE src then s.srcRoute src (t + 1) else none

theorem routeAsserted_none (h : s.srcRoute src t = none) : routeAsserted s src t = s := by
  unfold routeAsserted
  rw [h]

theorem routeAsserted_some (h : s.srcRoute src t = some k) : routeAsserted s src t = s.netAssert k src t := by
  unfold routeAsserted
  rw [h]

theorem lateRoute_lt (h : lateRoute s src t = some k) : k < 64 := by
  unfold lateRoute at h
  split at h
  · exact srcRoute_lt h
  · cases h

theorem fltAssert_dead (h : s.alive 16 = false) : s.fltAssert src t = s := by
  unfold State.fltAssert
  rw [h]
  rfl

section
variable (h : s.alive 16 = true)
include h

theorem fltAssert_prompt (hl : lateRoute s src t = none) : s.fltAssert src t = routeAsserted s src t := by
  unfold lateRoute at hl
  unfold State.fltAssert
  dsimp only
  rw [h, hl]
  rfl

theorem fltAssert_late (hl : lateRoute s src t = some k) :
    s.fltAssert src t = ((routeAsserted s src t).reach (t + 1)).netAssert k src (t + 1) := by
  unfold lateRoute at hl
  unfold State.fltAssert
  dsimp only
  rw [h, hl]
  rfl

end

/-- A source asserts as its happening names it: a pulse source, or a level source whose condition holds. -/
def SourceAsserts (s : State) (src : Nat) : Prop := (320 ≤ src ∧ src < 384) ∨ src = 386 ∨ s.flag F.FLT_SRCE_ACTIVE src = true

theorem netTrip_asserts (h : SourceAsserts s src) : s.netTrip src = s.fltAssert src s.now := if_pos h
theorem netTrip_idle (h : ¬ SourceAsserts s src) : s.netTrip src = s := if_neg h

/-! Nets (R240, R245 to R247, R249). -/

/-- The first trip is recorded: while the record is free, or before another trip of its ec (R249). -/
theorem fltFirst_taken (h : s.flag F.FLT_FIRST_VALID 0 = false ∨ s.pair .FLT_FIRSTL .FLT_FIRSTH 0 = t ∧
      (k < s.fld F.FLT_FIRST_NET 0 ∨ k = s.fld F.FLT_FIRST_NET 0 ∧ src < s.fld F.FLT_FIRST_SRC 0)) :
    s.fltFirst k src t = (s.setRegN .FLT_FIRST 0 (src + k * 2 ^ 10 + 2 ^ 16)).setPair .FLT_FIRSTL .FLT_FIRSTH 0 t := by
  unfold State.fltFirst
  dsimp only
  cases hv : s.flag F.FLT_FIRST_VALID 0 with
  | false => rfl
  | true =>
    obtain ⟨hat, hbefore⟩ := h.resolve_left (by simp [hv])
    exact (if_pos hat).trans (if_pos hbefore)

theorem fltFirst_kept (hv : s.flag F.FLT_FIRST_VALID 0 = true) (h : s.pair .FLT_FIRSTL .FLT_FIRSTH 0 ≠ t ∨
      ¬ (k < s.fld F.FLT_FIRST_NET 0 ∨ k = s.fld F.FLT_FIRST_NET 0 ∧ src < s.fld F.FLT_FIRST_SRC 0)) : s.fltFirst k src t = s := by
  unfold State.fltFirst
  dsimp only
  rw [hv]
  by_cases hat : s.pair .FLT_FIRSTL .FLT_FIRSTH 0 = t
  · exact (if_pos hat).trans (if_neg (h.resolve_left (not_not_intro hat)))
  · exact if_neg hat

section
variable (h : s.flag F.FLT_NETE_TRIPPED k = false)
include h

theorem netAssert_trips (hf : (s.net k).freed ≠ t + 1) : s.netAssert k src t = s.netTrips k src t := by
  unfold State.netAssert
  dsimp only
  rw [h]
  exact if_neg hf

theorem netAssert_kept (hf : (s.net k).freed = t + 1) : s.netAssert k src t = s.netKept k t := by
  unfold State.netAssert
  dsimp only
  rw [h]
  exact if_pos hf

end

/-- A source that asserts on a tripped net: the trip of its ec is named after the lowest source (R246, R249). -/
theorem netAssert_tripped (h : s.flag F.FLT_NETE_TRIPPED k = true) :
    let u := s.setNet k { s.net k with last := max (s.net k).last (t + 1) }
    s.netAssert k src t = if (s.net k).trip = t + 1 then
      (if src < s.fld F.FLT_NETE_FIRST k then u.setFld F.FLT_NETE_FIRST k src else u).fltFirst k src t else u := by
  intro u
  unfold State.netAssert
  dsimp only
  rw [h]
  rfl

/-- A net that its settings, its state or the engine clock keep from a release (R240, R245). -/
theorem netRelease_none (h : bit 0 (s.netSet k s.now) = true ∨ s.flag F.FLT_NETE_TRIPPED k = false ∨ s.engClock = false) :
    s.netRelease k = s := by
  unfold State.netRelease
  exact if_pos (by rcases h with h | h | h <;> simp [h])

section
variable (hl : bit 0 (s.netSet k s.now) = false) (ht : s.flag F.FLT_NETE_TRIPPED k = true) (hk : s.engClock = true)
include hl ht hk

theorem netRelease_refused (h : s.netAsserted k = true ∨ (s.net k).last = s.now + 1) : s.netRelease k = s.setFld F.FLT_STAT_RELERR 0 1 := by
  unfold State.netRelease
  rw [hl, ht, hk]
  exact (if_neg (by decide)).trans (if_pos (by rcases h with h | h <;> simp [h]))

theorem netRelease_frees (ha : s.netAsserted k = false) (h : (s.net k).last ≠ s.now + 1) : s.netRelease k = s.netFree k s.now := by
  unfold State.netRelease
  rw [hl, ht, hk]
  exact (if_neg (by decide)).trans (if_neg (by simp [ha, h]))

end

theorem netFollow_none (h : bit 0 (s.netSet k s.now) = false ∨ s.flag F.FLT_NETE_TRIPPED k = false ∨ s.netAsserted k = true ∨
    s.engClock = false) : s.netFollow k = s := by
  unfold State.netFollow
  exact if_pos (by rcases h with h | h | h | h <;> simp [h])

theorem netFollow_frees (hf : bit 0 (s.netSet k s.now) = true) (ht : s.flag F.FLT_NETE_TRIPPED k = true) (ha : s.netAsserted k = false)
    (hk : s.engClock = true) :
    let t := max ((s.net k).last + s.netHold k) (s.netSince k)
    s.netFollow k = (s.reach t).netFree k t := by
  unfold State.netFollow
  rw [hf, ht, ha, hk]
  rfl

/-! Pairs (R241, R244). -/

/-- A logical pair is tripped in ec t while one of its enabled nets is. -/
theorem fltTripped_iff : s.fltTripped n t = true ↔
    (bit 0 (s.pairSet n t) = true ∧ s.flag F.FLT_NETE_TRIPPED (bits 6 1 (s.pairSet n t)) = true) ∨
      (bit 7 (s.pairSet n t) = true ∧ s.flag F.FLT_NETE_TRIPPED (bits 13 8 (s.pairSet n t)) = true) := by
  unfold State.fltTripped
  simp

theorem fltPairAt_trips (h : s.fltTripped n t = true) (hp : s.flag F.EP_STAT_TRIPPED (s.epPhys n) = false) :
    s.fltPairAt n t = (s.reach t).epTrip (s.epPhys n) := by
  have hreach : (s.reach t).fltTripped n t = true := h
  unfold State.fltPairAt
  dsimp only
  rw [h, hp, hreach]
  rfl

theorem fltPairAt_untrips (h : s.fltTripped n t = false) (hp : s.flag F.EP_STAT_TRIPPED (s.epPhys n) = true) :
    s.fltPairAt n t = (s.reach t).epUntrip (s.epPhys n) := by
  have hreach : (s.reach t).fltTripped n t = false := h
  unfold State.fltPairAt
  dsimp only
  rw [h, hp, hreach]
  rfl

theorem fltPairAt_follows (h : s.fltTripped n t = s.flag F.EP_STAT_TRIPPED (s.epPhys n)) : s.fltPairAt n t = s :=
  if_pos (beq_iff_eq.mpr h)

theorem fltPair_settled (h : s.fltFresh (512 + n) t = false) : s.fltPair n t = s.fltPairAt n t := if_neg (by simp [h])
theorem fltPair_fresh (h : s.fltFresh (512 + n) t = true) : s.fltPair n t = (s.fltPairAt n t).fltPairAt n (t + 1) := if_pos h

/-! Writes of Flint's registers (R245, R258). -/

section
variable {r : Reg} {i : Nat}

theorem regWrite_FLT (hb : blockOf regRuns r.ctorIdx = 4) (hi : i < 65536) (a : Agent) (v u : Nat) :
    s.regWrite a r i v u = s.writeFlt r i v := by
  have hk : keyBlock (r.key i) = 4 := (keyBlock_key r hi).trans hb
  unfold State.regWrite
  rw [hk]
  rfl

theorem writeBy_FLT {who : Initiator} (h : s.Takes who r 0) (hp : placed r 0 = true) (hb : blockOf regRuns r.ctorIdx = 4) (v : Nat) :
    s.writeBy who r 0 v = s.writeFlt r 0 v := by
  have hr : r ≠ .EVC_CTL := by
    rintro rfl
    exact absurd hb (by decide)
  rw [writeBy_takes h hp hr, regWrite_FLT hb (by decide)]

end

/-- Rounds of which one alone changes what it is given. -/
theorem repeatN_one {σ : Type} {f : Nat → σ → σ} {n k : Nat} (hk : k < n) (h : ∀ j < n, j ≠ k → ∀ x, f j x = x) (x : σ) :
    repeatN n f x = f k x := by
  induction n with
  | zero => exact absurd hk (Nat.not_lt_zero k)
  | succ n ih =>
    have hsucc : repeatN (n + 1) f x = f n (repeatN n f x) := by
      simp [repeatN, List.range_succ]
    rw [hsucc]
    rcases Nat.lt_or_eq_of_le (Nat.lt_succ_iff.mp hk) with hlt | rfl
    · rw [h n (Nat.lt_succ_self n) (by omega), ih hlt fun j hj => h j (by omega)]
    · rw [repeatN_fixed fun j hj => h j (by omega) (by omega) x]

theorem bit_two_pow (j m : Nat) : bit j (2 ^ m) = decide (m = j) := Nat.testBit_two_pow

/-- A write of one bit of RELL or RELH releases its net alone. -/
theorem writeFlt_release (hk : k < 64) :
    s.writeFlt (if k < 32 then .FLT_RELL else .FLT_RELH) 0 (2 ^ (k % 32)) = s.netRelease k := by
  have hone (f : Nat → Nat) : repeatN 32 (fun j u => if bit j (2 ^ (k % 32)) then u.netRelease (f j) else u) s = s.netRelease (f (k % 32)) := by
    refine (repeatN_one (Nat.mod_lt k (by decide)) (fun j _ hj u => ?_) s).trans ?_
    · exact if_neg (by simp [bit_two_pow, Ne.symm hj])
    · exact if_pos (by simp [bit_two_pow])
  by_cases hlow : k < 32
  · rw [if_pos hlow]
    refine (hone id).trans ?_
    rw [Nat.mod_eq_of_lt hlow]
    rfl
  · rw [if_neg hlow]
    refine (hone (32 + ·)).trans ?_
    rw [show 32 + k % 32 = k by omega]

/-! The routing table (R243, R244, R259). -/

theorem fltEntry_source (h : n < 388) : fltEntry n = some (.FLT_SRCE, n) := if_pos h

theorem fltEntry_pair (h : 512 ≤ n) (h' : n < 704) : fltEntry n = some (.FLT_PAIRE, n - 512) :=
  (if_neg (by omega)).trans (if_pos ⟨h, h'⟩)

theorem fltEntry_net (h : 704 ≤ n) (h' : n < 768) : fltEntry n = some (.FLT_NETE, n - 704) :=
  (if_neg (by omega)).trans ((if_neg (by omega)).trans (if_pos ⟨h, h'⟩))

theorem fltEntry_reserved (h : (388 ≤ n ∧ n < 512) ∨ 768 ≤ n) : fltEntry n = none :=
  (if_neg (by omega)).trans ((if_neg (by omega)).trans (if_neg (by omega)))

section
variable {who : Initiator} {v : Nat} (ha : s.answers 0x400040004 = true)
include ha

/-- A write of an entry that an initiator may write. -/
theorem tdataBy_may {r : Reg} {j : Nat} (he : fltEntry n = some (r, j)) (hm : s.regMay who.agent r j = true) :
    s.tdataBy who n v = s.fltWrite n v := by
  have hwrite (hb : blockOf regRuns r.ctorIdx = 4) (hl : (List.range 8).find? (fun k => lodWord k == r) = none) (hc : (r == .EVC_CTL) = false)
      (hj : j < 65536) : s.tdataBy who n v = s.writeFlt r j v := by
    have hk : s.regKept r j v = false := by
      unfold State.regKept
      rw [hl, hc]
      rfl
    unfold State.tdataBy State.writeSel
    rw [he]
    dsimp only
    rw [ha, hm, hk, regWrite_FLT hb hj]
    rfl
  unfold fltEntry at he
  split at he
  · cases he
    exact hwrite (by decide) (by decide) (by decide) (by omega)
  · split at he
    · next hn =>
      cases he
      rw [hwrite (by decide) (by decide) (by decide) (by omega)]
      show s.fltWrite (512 + (n - 512)) v = _
      rw [Nat.add_sub_cancel' hn.1]
    · split at he
      · next hn =>
        cases he
        rw [hwrite (by decide) (by decide) (by decide) (by omega)]
        show s.fltWrite (704 + (n - 704)) v = _
        rw [Nat.add_sub_cancel' hn.1]
      · cases he

theorem tdataBy_reserved (he : fltEntry n = none) (ho : who.agent.owner false = true) : s.tdataBy who n v = s.fltWrite n v := by
  unfold State.tdataBy
  rw [he]
  dsimp only
  rw [ha, ho]
  rfl

end

theorem fltWrite_running {v : Nat} (h : s.inRun = true) : s.fltWrite n v = s.setFld F.FLT_STAT_WERR 0 1 := if_pos h

section
variable {v : Nat} (hr : s.inRun = false)
include hr

theorem fltWrite_reserved (he : fltEntry n = none) : s.fltWrite n v = s := by
  unfold State.fltWrite
  rw [hr, he]
  rfl

theorem fltWrite_net (h : 704 ≤ n) (h' : n < 768) : s.fltWrite n v =
    (s.fltHold n .FLT_NETE (n - 704)).setRegN .FLT_NETE (n - 704)
      (setBits 0 14 (v % 2 ^ 14) ((s.fltHold n .FLT_NETE (n - 704)).regN .FLT_NETE (n - 704))) := by
  unfold State.fltWrite
  rw [hr, fltEntry_net h h']
  rfl

theorem fltWrite_pair (h : 512 ≤ n) (h' : n < 704) : s.fltWrite n v =
    if 255 < bits 23 15 v then s.setFld F.FLT_STAT_WERR 0 1
    else ((s.fltHold n .FLT_PAIRE (n - 512)).setRegN .FLT_PAIRE (n - 512) (v % 2 ^ 24)).fltPairAt (n - 512) (s.now + 1) := by
  have hnow : (s.fltHold n .FLT_PAIRE (n - 512)).now = s.now := by
    unfold State.fltHold
    split <;> rfl
  unfold State.fltWrite
  rw [hr, fltEntry_pair h h']
  rfl

end

/-! A source's entry (R244, R246). -/

/-- EN and NET of a source's entry as a write gives them, and ACTIVE as it is. -/
def sourceStored (u : State) (n v : Nat) : State := u.setRegN .FLT_SRCE n (v % 2 ^ 7 + u.fld F.FLT_SRCE_ACTIVE n * 2 ^ 7)

/-- A source's entry written: an asserted source that it enables trips its net in the next ec. -/
def sourceWritten (u : State) (n v : Nat) : State :=
  let w := sourceStored u n v
  match (if w.flag F.FLT_SRCE_ACTIVE n && w.alive 16 then w.srcRoute n (w.now + 1) else none) with
  | some k => (w.reach (w.now + 1)).netAssert k n (w.now + 1)
  | none => w

theorem fltWrite_source {v : Nat} (hr : s.inRun = false) (h : n < 388) :
    let u := s.fltHold n .FLT_SRCE n
    s.fltWrite n v = sourceWritten (if u.flag F.FLT_SRCE_ACTIVE n then u.netLast n u.now else u) n v := by
  unfold State.fltWrite
  rw [hr, fltEntry_source h]
  rfl

theorem sourceWord_bits {a : Nat} (v : Nat) (ha : a < 2) :
    bit 0 (v % 2 ^ 7 + a * 2 ^ 7) = bit 0 v ∧ bits 6 1 (v % 2 ^ 7 + a * 2 ^ 7) = bits 6 1 v ∧ bits 7 7 (v % 2 ^ 7 + a * 2 ^ 7) = a ∧
      v % 2 ^ 7 + a * 2 ^ 7 < 2 ^ 32 := by
  refine ⟨?_, ?_, ?_, by omega⟩
  · rw [bit_eq_decide, bit_eq_decide]
    exact decide_eq_decide.mpr (by omega)
  · simp only [bits, Nat.shiftRight_eq_div_pow]
    omega
  · simp only [bits, Nat.shiftRight_eq_div_pow]
    omega

section
variable {u : State} {v : Nat}

theorem fld_ACTIVE_lt (u : State) (n : Nat) : u.fld F.FLT_SRCE_ACTIVE n < 2 := Nat.mod_lt _ (by decide)

theorem regN_sourceStored (u : State) (n v : Nat) : (sourceStored u n v).regN .FLT_SRCE n = v % 2 ^ 7 + u.fld F.FLT_SRCE_ACTIVE n * 2 ^ 7 := by
  obtain ⟨-, -, -, hlt⟩ := sourceWord_bits v (fld_ACTIVE_lt u n)
  exact regN_setRegN _ _ _ _ hlt

theorem active_sourceStored (u : State) (n v : Nat) : (sourceStored u n v).flag F.FLT_SRCE_ACTIVE n = u.flag F.FLT_SRCE_ACTIVE n := by
  obtain ⟨-, -, hact, -⟩ := sourceWord_bits v (fld_ACTIVE_lt u n)
  refine flag_of_fld ((congrArg (bits 7 7) (regN_sourceStored u n v)).trans hact)

/-- A source that is not asserted trips nothing. -/
theorem sourceWritten_idle (h : u.flag F.FLT_SRCE_ACTIVE n = false) : sourceWritten u n v = sourceStored u n v := by
  unfold sourceWritten
  dsimp only
  rw [active_sourceStored, h]
  rfl

variable (hwas : u.fltWas = (s.fltHold n .FLT_SRCE n).fltWas) (hnow : u.now = s.now)
include hwas hnow

/-- The route that is written holds in the next ec. -/
theorem srcRoute_sourceStored : (sourceStored u n v).srcRoute n (u.now + 1) = if bit 0 v then some (bits 6 1 v) else none := by
  have hset : (sourceStored u n v).fltSet n (u.now + 1) .FLT_SRCE n = v % 2 ^ 7 + u.fld F.FLT_SRCE_ACTIVE n * 2 ^ 7 := by
    rw [hnow, fltSet_held (show (sourceStored u n v).fltWas = _ from hwas), regN_sourceStored]
  obtain ⟨hen, hnet, -, -⟩ := sourceWord_bits v (fld_ACTIVE_lt u n)
  unfold State.srcRoute
  rw [hset]
  dsimp only
  rw [hen, hnet]

theorem sourceWritten_unrouted (h0 : bit 0 v = false) : sourceWritten u n v = sourceStored u n v := by
  have hroute := srcRoute_sourceStored hwas hnow (v := v)
  rw [h0] at hroute
  unfold sourceWritten
  dsimp only
  rw [show (sourceStored u n v).srcRoute n ((sourceStored u n v).now + 1) = none from hroute, ite_self]

theorem sourceWritten_asserts (ha : u.flag F.FLT_SRCE_ACTIVE n = true) (h16 : u.alive 16 = true) (hn : n < 65536) (h0 : bit 0 v = true) :
    sourceWritten u n v = ((sourceStored u n v).reach (s.now + 1)).netAssert (bits 6 1 v) n (s.now + 1) := by
  have hroute := srcRoute_sourceStored hwas hnow (v := v)
  have halive : (sourceStored u n v).alive 16 = true :=
    (alive_of_regs (reg_setReg_ne _ _ (key_ne (by decide) (by decide) hn)) (reg_setReg_ne _ _ (key_ne (by decide) (by decide) hn)) 16).trans h16
  rw [h0] at hroute
  unfold sourceWritten
  dsimp only
  rw [active_sourceStored, ha, halive, show (sourceStored u n v).srcRoute n ((sourceStored u n v).now + 1) = some (bits 6 1 v) from hroute,
    ← hnow]
  rfl

end

@[simp] theorem fltHold_regs (s : State) (i : Nat) (r : Reg) (n : Nat) : (s.fltHold i r n).regs = s.regs := by
  unfold State.fltHold
  split <;> rfl

@[simp] theorem fltHold_now (s : State) (i : Nat) (r : Reg) (n : Nat) : (s.fltHold i r n).now = s.now := by
  unfold State.fltHold
  split <;> rfl

theorem quiet_fltHold (h : s.Quiet) (i : Nat) (r : Reg) (n : Nat) : (s.fltHold i r n).Quiet := by
  unfold State.fltHold
  split <;> exact h

@[simp] theorem netLast_regs (s : State) (src t : Nat) : (s.netLast src t).regs = s.regs := by
  unfold State.netLast
  split <;> rfl

@[simp] theorem netLast_now (s : State) (src t : Nat) : (s.netLast src t).now = s.now := by
  unfold State.netLast
  split <;> rfl

@[simp] theorem netLast_fltWas (s : State) (src t : Nat) : (s.netLast src t).fltWas = s.fltWas := by
  unfold State.netLast
  split <;> rfl

theorem quiet_netLast (h : s.Quiet) (src t : Nat) : (s.netLast src t).Quiet := by
  unfold State.netLast
  split <;> exact h

/-- A write of a source's entry in three cases: the source is not asserted, it is and the write does not route it, or it is and does. -/
theorem fltWrite_source_cases (hr : s.inRun = false) (hn : n < 388) (h16 : s.alive 16 = true) (v : Nat) :
    let u := s.fltHold n .FLT_SRCE n
    let put (x : State) := x.setRegN .FLT_SRCE n (v % 2 ^ 7 + s.fld F.FLT_SRCE_ACTIVE n * 2 ^ 7)
    (s.flag F.FLT_SRCE_ACTIVE n = false → s.fltWrite n v = put u) ∧
    (s.flag F.FLT_SRCE_ACTIVE n = true → bit 0 v = false → s.fltWrite n v = put (u.netLast n s.now)) ∧
    (s.flag F.FLT_SRCE_ACTIVE n = true → bit 0 v = true →
      s.fltWrite n v = ((put (u.netLast n s.now)).reach (s.now + 1)).netAssert (bits 6 1 v) n (s.now + 1)) := by
  intro u put
  have hu : u.regs = s.regs := fltHold_regs ..
  have hw : (u.netLast n s.now).regs = s.regs := (netLast_regs ..).trans hu
  have hflag {x : State} (h : x.regs = s.regs) : x.flag F.FLT_SRCE_ACTIVE n = s.flag F.FLT_SRCE_ACTIVE n := flag_of_fld (fld_of_regs h ..)
  have hput {x : State} (h : x.regs = s.regs) : sourceStored x n v = put x := by
    unfold sourceStored
    rw [fld_of_regs h]
  have hwrite := fltWrite_source (v := v) hr hn
  dsimp only at hwrite
  rw [hflag hu, fltHold_now] at hwrite
  refine ⟨fun ha => ?_, fun ha h0 => ?_, fun ha h0 => ?_⟩
  · rw [hwrite, ha, ← hput hu]
    exact sourceWritten_idle ((hflag hu).trans ha)
  · rw [hwrite, ha, ← hput hw]
    exact sourceWritten_unrouted (netLast_fltWas ..) ((netLast_now ..).trans (fltHold_now ..)) h0
  · have halive : (u.netLast n s.now).alive 16 = true := by
      refine (alive_of_regs ?_ ?_ 16).trans h16 <;> exact congrArg (Tab.look regDefault · _) hw
    rw [hwrite, ha, ← hput hw]
    exact sourceWritten_asserts (netLast_fltWas ..) ((netLast_now ..).trans (fltHold_now ..)) ((hflag hw).trans ha) halive (by omega) h0

end Sys2Proof.Laws
end

section
/-! SUPPORT. The steering of comparator reserves (R236 to R238): the operations of event channels, edge pairs and Flint leave it as it is, and
with it which logical comparator each physical one serves (R227, R237). -/

namespace Sys2Proof.Laws
open Sys2Proof.Machine

variable {s t u : State} {r : Reg} {i k : Nat}

/-- Two states agree in the steering of every comparator reserve. -/
structure SameSteer (s u : State) : Prop where
  reg : ∀ g < 12, u.reg .CMP_STEER g = s.reg .CMP_STEER g

/-- A register's place is that of no reserve's STEER. -/
structure OffSteer (r : Reg) (i : Nat) : Prop where
  key_ne : ∀ g < 12, Reg.CMP_STEER.key g ≠ r.key i

theorem offSteer_of_ne (hr : Reg.CMP_STEER.ctorIdx ≠ r.ctorIdx) (hi : i < 65536) : OffSteer r i :=
  ⟨fun _ hg => key_ne hr (by omega) hi⟩

/-- Channels have their places past those of comparators, whatever number a flight gives its channel. -/
theorem offSteer_EVC_STAT (i : Nat) : OffSteer .EVC_STAT i := by
  refine ⟨fun g hg hk => ?_⟩
  have hc : Reg.CMP_STEER.ctorIdx = 75 := rfl
  have he : Reg.EVC_STAT.ctorIdx = 131 := rfl
  unfold Reg.key at hk
  omega

theorem SameSteer.refl (s : State) : SameSteer s s := ⟨fun _ _ => rfl⟩

theorem SameSteer.trans (h : SameSteer s t) (h' : SameSteer t u) : SameSteer s u :=
  ⟨fun g hg => (h'.reg g hg).trans (h.reg g hg)⟩

theorem sameSteer_of_regs (h : u.regs = s.regs) : SameSteer s u :=
  ⟨fun g _ => congrArg (Tab.look regDefault · (Reg.CMP_STEER.key g)) h⟩

/-- What a change of no register adds keeps the steering. -/
theorem SameSteer.regs (h : SameSteer s t) (hr : u.regs = t.regs) : SameSteer s u := h.trans (sameSteer_of_regs hr)

theorem sameSteer_setReg (h : OffSteer r i) (v : Word) : SameSteer s (s.setReg r i v) :=
  ⟨fun g hg => reg_setReg_ne s v (h.key_ne g hg)⟩

theorem sameSteer_setFld {f : Fld} (h : OffSteer f.reg i) (v : Nat) : SameSteer s (s.setFld f i v) := sameSteer_setReg h _

theorem sameSteer_setPair {lo hi : Reg} (hl : OffSteer lo i) (hh : OffSteer hi i) (v : Nat) : SameSteer s (s.setPair lo hi i v) :=
  (sameSteer_setReg hl _).trans (sameSteer_setReg hh _)

theorem sameSteer_bump {cnt sat : Fld} (hc : OffSteer cnt.reg i) (hs : OffSteer sat.reg i) : SameSteer s (s.bump cnt sat i) := by
  have hremark : SameSteer s (s.remark cnt sat i) := sameSteer_of_regs rfl
  unfold State.bump
  dsimp only
  split
  · exact hremark.trans (sameSteer_setFld hs _)
  · exact hremark.trans (sameSteer_setFld hc _)

theorem sameSteer_raiseEv (dom cls unit : Nat) : SameSteer s (s.raiseEv dom cls unit) := sameSteer_of_regs (raiseEv_regs ..)

/-- What keeps the steering at every element of a list keeps it over the list. -/
theorem sameSteer_foldl {α : Type} {f : State → α → State} {l : List α} (h : ∀ x ∈ l, ∀ u, SameSteer u (f u x)) (s : State) :
    SameSteer s (l.foldl f s) := by
  induction l generalizing s with
  | nil => exact .refl s
  | cons x l ih => exact (h x List.mem_cons_self s).trans (ih (fun y hy => h y (List.mem_cons_of_mem _ hy)) _)

theorem sameSteer_repeatN {n : Nat} {f : Nat → State → State} (h : ∀ k < n, ∀ u, SameSteer u (f k u)) (s : State) :
    SameSteer s (repeatN n f s) := sameSteer_foldl (fun k hk => h k (List.mem_range.mp hk)) s

/-- The logical comparator that a physical one serves follows from the steering. -/
theorem SameSteer.cmpLogical (h : SameSteer s u) {c : Nat} (hc : c < 204) : u.cmpLogical c = s.cmpLogical c := by
  have hfld {f : Fld} (hf : f.reg = .CMP_STEER) {g : Nat} (hg : g < 12) : u.fld f g = s.fld f g := by
    unfold State.fld State.regN
    rw [hf, h.reg g hg]
  have hsteered {g : Nat} (hg : g < 12) (m : Nat) : u.cmpSteered g m = s.cmpSteered g m := by
    unfold State.cmpSteered State.flag
    rw [hfld (by rfl) hg, hfld (by rfl) hg, hfld (by rfl) hg]
  unfold State.cmpLogical
  by_cases hlow : c < 192
  · have hphys : u.cmpPhys c = s.cmpPhys c := by
      unfold State.cmpPhys
      rw [hsteered (by omega)]
    rw [if_pos hlow, if_pos hlow, hphys]
  · have hg : c - 192 < 12 := by omega
    rw [if_neg hlow, if_neg hlow, hfld (by rfl) hg]
    dsimp only
    rw [hsteered hg]

/-! Event channels (R314, R318). -/

theorem sameSteer_carry (f : Flight) (again : Bool) : SameSteer s (s.carry f again) := by
  have hstat (g : Fld) (hg : g.reg = .EVC_STAT) (v : Nat) (u : State) : SameSteer u (u.setFld g f.chan v) :=
    sameSteer_setFld (by rw [hg]; exact offSteer_EVC_STAT _) v
  unfold State.carry
  extract_lets k g u w
  have hu : SameSteer s u := by
    show SameSteer s (if _ then _ else s)
    split
    · exact hstat F.EVC_STAT_AGAIN rfl 1 s
    · exact .refl s
  have hw : SameSteer u w :=
    ((hstat F.EVC_STAT_FLAG rfl 1 u).trans (hstat F.EVC_STAT_ORIG rfl f.lin.orig _)).trans (hstat F.EVC_STAT_HOP rfl f.lin.hop _)
  exact (hu.trans hw).regs rfl

theorem sameSteer_collide (k : Nat) : SameSteer s (s.collide k) :=
  ((sameSteer_setFld (offSteer_EVC_STAT _) _).trans
    (sameSteer_bump (offSteer_of_ne (by decide) (by decide)) (offSteer_of_ne (by decide) (by decide)))).trans (sameSteer_raiseEv ..)

theorem sameSteer_beat (f : Flight) : SameSteer s (s.beat f) := sameSteer_of_regs rfl

/-- An event that a channel takes, drops or lets pass (R313, R318). -/
theorem sameSteer_go (k t clk dom rank : Nat) (lin : Lineage) : SameSteer s (State.present.go s k t clk dom rank lin) := by
  have hdis (u : State) : SameSteer u (u.setFld F.EVC_STAT_DIS k 1) := sameSteer_setFld (offSteer_EVC_STAT _) _
  unfold State.present.go
  dsimp only
  split
  · split
    · exact (sameSteer_beat _).trans (hdis _)
    · exact hdis s
  · split
    · exact sameSteer_carry _ _
    · next x _ =>
      have hcollide : SameSteer s (s.collide k) := sameSteer_collide k
      split
      · refine (hcollide.trans ?_).trans (sameSteer_carry _ _)
        split <;> exact sameSteer_of_regs rfl
      · split
        · exact hcollide.trans (sameSteer_beat _)
        · exact hcollide

theorem sameSteer_emit (src t dom : Nat) : SameSteer s (s.emit src t dom none) := by
  unfold State.emit
  split
  · exact .refl s
  · refine sameSteer_repeatN (fun k _ u => ?_) s
    split
    · exact sameSteer_go ..
    · exact .refl u

theorem sameSteer_unpresent (f : Flight) : SameSteer s (s.unpresent f) := by
  unfold State.unpresent
  extract_lets l u v w
  have hv : SameSteer s v := SameSteer.trans (t := u) (sameSteer_of_regs rfl) (sameSteer_setReg (offSteer_EVC_STAT _) _)
  have hw : SameSteer v w := by
    show SameSteer v (if _ then v else _)
    split
    · exact .refl v
    · exact sameSteer_setFld (offSteer_of_ne (by decide) (by decide)) _
  exact (hv.trans hw).trans (sameSteer_foldl (fun g _ u => sameSteer_go ..) w)

theorem sameSteer_retract (src t : Nat) : SameSteer s (s.retract src t) :=
  (sameSteer_foldl (fun f _ _ => sameSteer_unpresent f) s).trans
    (sameSteer_foldl (fun _ _ _ => sameSteer_setFld (offSteer_EVC_STAT _) _) _)

/-! Edge pairs (R177, R178, R241). -/

section
variable {p : Nat} (hp : p < 65536)

theorem sameSteer_epRefresh (p : Nat) : SameSteer s (s.epRefresh p) := by
  unfold State.epRefresh
  dsimp only
  split
  · exact .refl s
  · split <;> exact sameSteer_of_regs rfl

include hp

theorem sameSteer_epFlush : SameSteer s (s.epFlush p) := by
  have hqstat : OffSteer .EP_QSTAT p := offSteer_of_ne (by decide) hp
  exact (sameSteer_of_regs rfl : SameSteer s (s.modEp p _)).trans ((sameSteer_setFld hqstat _).trans (sameSteer_setFld hqstat _))

theorem sameSteer_epTrip : SameSteer s (s.epTrip p) := by
  have hcount : OffSteer .EP_COUNT p := offSteer_of_ne (by decide) hp
  unfold State.epTrip
  extract_lets x u
  have hu : SameSteer s u := sameSteer_repeatN (fun _ _ _ => sameSteer_bump hcount hcount) s
  have hrest : SameSteer s ((u.epFlush p).modEp p Pair.rest) := (hu.trans (sameSteer_epFlush hp)).regs rfl
  exact (hrest.trans (sameSteer_setFld (offSteer_of_ne (by decide) hp) 1)).trans (sameSteer_epRefresh p)

theorem sameSteer_epResume : SameSteer s (s.epResume p) := by
  unfold State.epResume
  extract_lets u w
  have hu : SameSteer s u := sameSteer_of_regs rfl
  have hw : SameSteer u w := by
    show SameSteer u (if _ then _ else u)
    split
    · exact (sameSteer_epFlush hp).regs rfl
    · exact .refl u
  exact (hu.trans hw).trans (sameSteer_epRefresh p)

theorem sameSteer_epUntrip : SameSteer s (s.epUntrip p) :=
  (sameSteer_setFld (offSteer_of_ne (by decide) hp) 0).trans (sameSteer_epResume hp)

end

/-! Flint (R239 to R249). -/

theorem sameSteer_fltPairAt {n : Nat} (hn : n < 192) (t : Nat) : SameSteer s (s.fltPairAt n t) := by
  have hp : s.epPhys n < 65536 := by
    unfold State.epPhys
    split <;> omega
  have hreach : SameSteer s (s.reach t) := sameSteer_of_regs rfl
  unfold State.fltPairAt
  dsimp only
  split
  · exact .refl s
  · split
    · exact hreach.trans (sameSteer_epTrip hp)
    · exact hreach.trans (sameSteer_epUntrip hp)

theorem sameSteer_fltPair {n : Nat} (hn : n < 192) (t : Nat) : SameSteer s (s.fltPair n t) := by
  unfold State.fltPair
  dsimp only
  split
  · exact (sameSteer_fltPairAt hn t).trans (sameSteer_fltPairAt hn (t + 1))
  · exact sameSteer_fltPairAt hn t

theorem sameSteer_fltPairs (k t : Nat) : SameSteer s (s.fltPairs k t) := by
  refine sameSteer_repeatN (fun n hn u => ?_) s
  split
  · exact sameSteer_fltPair hn t
  · exact .refl u

theorem sameSteer_fltShow : SameSteer s s.fltShow :=
  (sameSteer_setPair (offSteer_of_ne (by decide) (by decide)) (offSteer_of_ne (by decide) (by decide)) _).trans
    (sameSteer_setFld (offSteer_of_ne (by decide) (by decide)) _)

theorem sameSteer_fltFirst (k src t : Nat) : SameSteer s (s.fltFirst k src t) := by
  have hput : SameSteer s ((s.setRegN .FLT_FIRST 0 (src + k * 2 ^ 10 + 2 ^ 16)).setPair .FLT_FIRSTL .FLT_FIRSTH 0 t) :=
    (sameSteer_setReg (offSteer_of_ne (by decide) (by decide)) _).trans
      (sameSteer_setPair (offSteer_of_ne (by decide) (by decide)) (offSteer_of_ne (by decide) (by decide)) _)
  unfold State.fltFirst
  dsimp only
  split
  · exact hput
  · split
    · split
      · exact hput
      · exact .refl s
    · exact .refl s

section
variable (hk : k < 65536)
include hk

theorem sameSteer_netEntry {f : Fld} (hf : f.reg = .FLT_NETE) (v : Nat) : SameSteer s (s.setFld f k v) :=
  sameSteer_setFld (by rw [hf]; exact offSteer_of_ne (by decide) hk) v

theorem sameSteer_netTrips (src t : Nat) : SameSteer s (s.netTrips k src t) := by
  have hentry : OffSteer .FLT_NETE k := offSteer_of_ne (by decide) hk
  have hcount : OffSteer .FLT_TRIPCNT 0 := offSteer_of_ne (by decide) (by decide)
  unfold State.netTrips
  dsimp only
  refine SameSteer.trans ?_ ((sameSteer_fltPairs k t).trans sameSteer_fltShow)
  refine SameSteer.trans ?_ (show SameSteer _ (ite _ _ _) from by
    split
    · exact sameSteer_raiseEv ..
    · exact .refl _)
  refine SameSteer.trans ?_ (((sameSteer_bump hcount hcount).trans (sameSteer_fltFirst k src t)).trans (sameSteer_emit ..))
  refine SameSteer.trans ?_ (((sameSteer_netEntry hk rfl _).trans (sameSteer_netEntry hk rfl _)).trans (sameSteer_bump hentry hentry))
  exact sameSteer_of_regs rfl

theorem sameSteer_netKept (t : Nat) : SameSteer s (s.netKept k t) := by
  have hstat : OffSteer .FLT_STAT 0 := offSteer_of_ne (by decide) (by decide)
  unfold State.netKept
  dsimp only
  refine SameSteer.trans ?_ ((sameSteer_fltPairs k t).trans sameSteer_fltShow)
  refine SameSteer.trans ?_ ((sameSteer_netEntry hk rfl _).trans (sameSteer_setFld hstat _))
  exact (sameSteer_of_regs rfl : SameSteer s (s.setNet k _)).trans (sameSteer_retract ..)

theorem sameSteer_netAssert (src t : Nat) : SameSteer s (s.netAssert k src t) := by
  have hlast (x : Net) : SameSteer s (s.setNet k x) := sameSteer_of_regs rfl
  unfold State.netAssert
  dsimp only
  split
  · split
    · refine SameSteer.trans ?_ (sameSteer_fltFirst k src t)
      split
      · exact (hlast _).trans (sameSteer_netEntry hk rfl _)
      · exact hlast _
    · exact hlast _
  · split
    · exact sameSteer_netKept hk t
    · exact sameSteer_netTrips hk src t

end

theorem sameSteer_fltAssert (src t : Nat) : SameSteer s (s.fltAssert src t) := by
  have hnow : SameSteer s (routeAsserted s src t) := by
    cases hr : s.srcRoute src t with
    | none => rw [routeAsserted_none hr]; exact .refl s
    | some k => rw [routeAsserted_some hr]; exact sameSteer_netAssert (lt_trans (srcRoute_lt hr) (by decide)) src t
  cases ha : s.alive 16 with
  | false => rw [fltAssert_dead ha]; exact .refl s
  | true =>
    cases hl : lateRoute s src t with
    | none => rw [fltAssert_prompt ha hl]; exact hnow
    | some k =>
      rw [fltAssert_late ha hl]
      exact (hnow.regs (u := (routeAsserted s src t).reach (t + 1)) rfl).trans
        (sameSteer_netAssert (lt_trans (lateRoute_lt hl) (by decide)) src (t + 1))

theorem sameSteer_netLast (src t : Nat) : SameSteer s (s.netLast src t) := by
  unfold State.netLast
  split
  · exact sameSteer_of_regs rfl
  · exact .refl s

/-- A level source rises or falls. -/
theorem sameSteer_fltLevel {src : Nat} (h : src < 65536) (lvl : Bool) (t : Nat) : SameSteer s (s.fltLevel src lvl t) := by
  unfold State.fltLevel
  split
  · exact .refl s
  · extract_lets u
    have hu : SameSteer s u := sameSteer_setFld (offSteer_of_ne (by decide) h) (b2n lvl)
    split
    · exact hu.trans (sameSteer_fltAssert src t)
    · split
      · exact hu
      · exact hu.trans (sameSteer_netLast src (t - 1))

end Sys2Proof.Laws
end

section
/-! SUPPORT. Comparators (R228 to R238): what they sense, when the raw output asserts and releases, what the outputs show, and the steering of
reserves. -/

namespace Sys2Proof.Laws
open Sys2Proof.Machine

variable {s : State} {c t : Nat}

/-! Inputs and thresholds (R228 to R230). -/

/-- What a comparator senses of a pin's voltage (R228). -/
def sensed (s : State) (c : Nat) (v : Word) : Int := v.toInt + (if s.flag F.CMP_CTL_BIAS c then 2048 * 2 ^ 16 else 0)

theorem cmpSees_setAin_same {d : Nat} (h : s.cmpPin d = s.cmpPin c) (v : Word) : (s.setAin c v).cmpSees d = sensed s d v := by
  have hlook : Tab.look (fun _ => 0) (Tab.put (fun _ => 0) s.ain (s.cmpPin c) v) (s.cmpPin d) = v := by
    rw [h, Tab_look_put_same]
  exact congrArg (fun w : Word => w.toInt + (if s.flag F.CMP_CTL_BIAS d then 2048 * 2 ^ 16 else 0)) hlook

theorem cmpSees_setAin_ne {d : Nat} (h : s.cmpPin d ≠ s.cmpPin c) (v : Word) : (s.setAin c v).cmpSees d = s.cmpSees d :=
  congrArg (fun w : Word => w.toInt + (if s.flag F.CMP_CTL_BIAS d then 2048 * 2 ^ 16 else 0)) (Tab_look_put_ne _ _ _ h)

theorem cmpOrder_iff : s.cmpOrder c t = true ↔ 2 ≤ s.fld F.CMP_CTL_MODE c ∧ s.cmpHi c t ≤ (s.cmp c).loIn t := by
  unfold State.cmpOrder
  simp

theorem cmpMode_lt (s : State) (c : Nat) : s.fld F.CMP_CTL_MODE c < 4 := Nat.mod_lt _ (by decide)

/-- An input lies beyond the thresholds of a mode, in 2^-16 of a code (R229). -/
def Beyond (mode : Nat) (hi lo x : Int) : Prop :=
  (mode = 0 ∧ hi < x) ∨ (mode = 1 ∧ x < lo) ∨ (mode = 2 ∧ (hi < x ∨ x < lo)) ∨ (mode = 3 ∧ lo < x ∧ x < hi)

/-- A threshold code in 2^-16 of a code. -/
def level (k : Nat) : Int := k * 2 ^ 16

/-- An input has moved back past the hysteresis of a mode (R229). -/
def Back (mode hi lo h : Nat) (x : Int) : Prop :=
  (mode = 0 ∧ x < level (hi - h)) ∨ (mode = 1 ∧ level (min 4095 (lo + h)) < x) ∨
    (mode = 2 ∧ x < level (hi - h) ∧ level (min 4095 (lo + h)) < x) ∨
    (mode = 3 ∧ (level (min 4095 (hi + h)) ≤ x ∨ x ≤ level (lo - h)))

theorem cmpAsserts_iff : s.cmpAsserts c t = true ↔ s.cmpOrder c t = true ∨
    Beyond (s.fld F.CMP_CTL_MODE c) (level (s.cmpHi c t)) (level ((s.cmp c).loIn t)) (s.cmpSees c) := by
  have hm := cmpMode_lt s c
  unfold State.cmpAsserts Beyond level
  generalize s.fld F.CMP_CTL_MODE c = m at hm
  match m, hm with
  | 0, _ => simp
  | 1, _ => simp
  | 2, _ => simp
  | 3, _ => simp

theorem cmpReleases_iff : s.cmpReleases c t = true ↔ s.cmpOrder c t = false ∧
    Back (s.fld F.CMP_CTL_MODE c) (s.cmpHi c t) ((s.cmp c).loIn t) (s.fld F.CMP_HYST_HYST c) (s.cmpSees c) := by
  have hm := cmpMode_lt s c
  unfold State.cmpReleases Back level
  generalize s.fld F.CMP_CTL_MODE c = m at hm
  match m, hm with
  | 0, _ => simp
  | 1, _ => simp
  | 2, _ => simp
  | 3, _ => simp

theorem cmpNote_order (he : s.flag F.CMP_CTL_EN c = true) (h : s.cmpOrder c t = true) : s.cmpNote c t = s.setFld F.CMP_STAT_ORDER c 1 :=
  if_pos (by simp [he, h])

theorem cmpNote_none (h : s.cmpOrder c t = false) : s.cmpNote c t = s := if_neg (by simp [h])

theorem cmpAssert_off (h : s.alive (cmpDom c) = false ∨ s.flag F.CMP_CTL_EN c = false) : s.cmpAssert c = s :=
  if_pos (by rcases h with h | h <;> simp [h])

theorem cmpAssert_within (h : s.cmpAsserts c s.now = false) : s.cmpAssert c = s := if_pos (by simp [h])

/-- A running comparator asserts its raw output, and sets ORDER where its thresholds are out of order (R229, R230). -/
theorem cmpAssert_asserts (ha : s.alive (cmpDom c) = true) (he : s.flag F.CMP_CTL_EN c = true) (h : s.cmpAsserts c s.now = true) :
    s.cmpAssert c = if s.flag F.CMP_STAT_RAW c then s.cmpNote c s.now else (s.cmpNote c s.now).cmpRaw c s.now true :=
  if_neg (by simp [ha, he, h])

theorem cmpRelease_off (h : s.alive (cmpDom c) = false ∨ s.flag F.CMP_STAT_RAW c = false) : s.cmpRelease c = s :=
  if_pos (by rcases h with h | h <;> simp [h])

theorem cmpRelease_within (h : s.cmpReleases c s.now = false) : s.cmpRelease c = s := if_pos (by simp [h])

theorem cmpRelease_releases (ha : s.alive (cmpDom c) = true) (hr : s.flag F.CMP_STAT_RAW c = true) (h : s.cmpReleases c s.now = true) :
    s.cmpRelease c = s.cmpRaw c s.now false := if_neg (by simp [ha, hr, h])

theorem cmpBlankEnd_none (h : (s.cmp c).blank = none) : s.cmpBlankEnd c = s := by
  unfold State.cmpBlankEnd
  rw [h]

theorem cmpBlankEnd_some (h : (s.cmp c).blank = some t) :
    s.cmpBlankEnd c = ((s.reach t).setCmp c { s.cmp c with blank := none }).cmpShow c t := by
  unfold State.cmpBlankEnd
  rw [h]

/-! Outputs outside a blanking window (R234). -/

/-- STAT of a comparator whose raw output takes a level outside a blanking window. -/
def outputShown (s : State) (c : Nat) (lvl : Bool) : State :=
  ((s.setFld F.CMP_STAT_RAW c (b2n lvl)).setFld F.CMP_STAT_OUT c (b2n lvl)).setFld F.CMP_STAT_BLANKING c 0

/-- The trip level of a comparator that serves a logical one follows the raw output (R234, R239). -/
def tripShown (u : State) (c t : Nat) (lvl : Bool) : State :=
  match u.cmpLogical c with
  | some n => u.fltLevel n (lvl || !u.alive (cmpDom c)) t
  | none => u

/-- The event of a change of the blanked output (R234). -/
def changeTold (u : State) (c t : Nat) (was : Bool) : State :=
  match u.cmpLogical c with
  | some n => u.emit (0x400 + 2 * n + b2n was) t (cmpDom c) none
  | none => u

section
variable {u : State} {n : Nat}

theorem tripShown_served (h : u.cmpLogical c = some n) (lvl : Bool) : tripShown u c t lvl = u.fltLevel n (lvl || !u.alive (cmpDom c)) t := by
  unfold tripShown
  rw [h]

theorem tripShown_unserved (h : u.cmpLogical c = none) (lvl : Bool) : tripShown u c t lvl = u := by
  unfold tripShown
  rw [h]

theorem changeTold_served (h : u.cmpLogical c = some n) (was : Bool) :
    changeTold u c t was = u.emit (0x400 + 2 * n + b2n was) t (cmpDom c) none := by
  unfold changeTold
  rw [h]

theorem changeTold_unserved (h : u.cmpLogical c = none) (was : Bool) : changeTold u c t was = u := by
  unfold changeTold
  rw [h]

theorem cmpTerminate_unserved (h : u.cmpLogical c = none) : u.cmpTerminate c t = u := by
  unfold State.cmpTerminate
  rw [h]

end

section
variable (hc : c < 204) (lvl : Bool)
include hc

theorem sameSteer_outputShown : SameSteer s (outputShown s c lvl) := by
  have hstat : OffSteer .CMP_STAT c := offSteer_of_ne (by decide) (by omega)
  exact ((sameSteer_setFld hstat _).trans (sameSteer_setFld hstat _)).trans (sameSteer_setFld hstat _)

theorem alive_outputShown (d : Nat) : (outputShown s c lvl).alive d = s.alive d := by
  have hreg {r : Reg} (hr : r.ctorIdx ≠ Reg.CMP_STAT.ctorIdx) : (outputShown s c lvl).reg r 0 = s.reg r 0 := by
    have hk : r.key 0 ≠ Reg.CMP_STAT.key c := key_ne hr (by decide) (by omega)
    exact ((reg_setReg_ne _ _ hk).trans (reg_setReg_ne _ _ hk)).trans (reg_setReg_ne _ _ hk)
  exact alive_of_regs (hreg (by decide)) (hreg (by decide)) d

variable (he : s.flag F.CMP_CTL_EN c = true) (hb : (s.cmp c).blank = none) (t : Nat)
include he hb

/-- Both outputs follow the raw output; a change of the blanked one is an event, and its assertion is counted and terminates. -/
theorem cmpRaw_unblanked :
    let was := s.flag F.CMP_STAT_OUT c
    let f := tripShown (outputShown s c lvl) c t lvl
    let e := changeTold f c t was
    s.cmpRaw c t lvl =
      if lvl == was then f else if lvl then (e.bump F.CMP_COUNT_ASSERTCNT F.CMP_COUNT_SAT c).cmpTerminate c t else e := by
  intro was f e
  have hi : c < 65536 := by omega
  have hraw : (s.setFld F.CMP_STAT_RAW c (b2n lvl)).flag F.CMP_STAT_RAW c = lvl := flag_setFld_same c lvl rfl (by decide)
  have hen : (s.setFld F.CMP_STAT_RAW c (b2n lvl)).flag F.CMP_CTL_EN c = true := (flag_setFld_clear _ (by decide) hi hi).trans he
  have hout : (s.setFld F.CMP_STAT_RAW c (b2n lvl)).flag F.CMP_STAT_OUT c = was := flag_setFld_clear _ (by decide) hi hi
  have hblank : ((s.setFld F.CMP_STAT_RAW c (b2n lvl)).cmp c).blank = none := hb
  unfold State.cmpRaw State.cmpShow
  dsimp only
  rw [hraw, hen, hout, hblank]
  simp only [Option.isSome_none, Bool.and_true, Bool.not_false, Bool.false_and]
  rfl

theorem cmpRaw_unserved (hl : s.cmpLogical c = none) : s.cmpRaw c t lvl =
    if lvl && !s.flag F.CMP_STAT_OUT c then (outputShown s c lvl).bump F.CMP_COUNT_ASSERTCNT F.CMP_COUNT_SAT c else outputShown s c lvl := by
  have hcount : OffSteer .CMP_COUNT c := offSteer_of_ne (by decide) (by omega)
  have hshown : (outputShown s c lvl).cmpLogical c = none := ((sameSteer_outputShown hc lvl).cmpLogical hc).trans hl
  have hbumped : ((outputShown s c lvl).bump F.CMP_COUNT_ASSERTCNT F.CMP_COUNT_SAT c).cmpLogical c = none :=
    ((sameSteer_bump hcount hcount).cmpLogical hc).trans hshown
  rw [cmpRaw_unblanked hc lvl he hb t, tripShown_unserved hshown, changeTold_unserved hshown, cmpTerminate_unserved hbumped]
  cases lvl <;> cases s.flag F.CMP_STAT_OUT c <;> simp

theorem cmpRaw_served {n : Nat} (hl : s.cmpLogical c = some n) (hn : n < 65536) :
    let was := s.flag F.CMP_STAT_OUT c
    let f := (outputShown s c lvl).fltLevel n (lvl || !s.alive (cmpDom c)) t
    let e := f.emit (0x400 + 2 * n + b2n was) t (cmpDom c) none
    s.cmpRaw c t lvl =
      if lvl == was then f else if lvl then (e.bump F.CMP_COUNT_ASSERTCNT F.CMP_COUNT_SAT c).cmpTerminate c t else e := by
  intro was f e
  have hshown : (outputShown s c lvl).cmpLogical c = some n := ((sameSteer_outputShown hc lvl).cmpLogical hc).trans hl
  have htrip : tripShown (outputShown s c lvl) c t lvl = f := by
    rw [tripShown_served hshown, alive_outputShown hc]
  have hf : f.cmpLogical c = some n := ((sameSteer_fltLevel hn _ t).cmpLogical hc).trans hshown
  rw [cmpRaw_unblanked hc lvl he hb t, htrip, changeTold_served hf]

end

/-- A physical comparator serves a logical one of 192. -/
theorem cmpLogical_lt {n : Nat} (hc : c < 204) (h : s.cmpLogical c = some n) : n < 192 := by
  unfold State.cmpLogical at h
  dsimp only at h
  split at h
  · split at h
    · cases h
      assumption
    · cases h
  · have hm : s.fld F.CMP_STEER_MEMBER (c - 192) < 16 := Nat.mod_lt _ (by decide)
    split at h
    · rw [← Option.some.inj h]
      omega
    · cases h

/-! Reserves (R236 to R238). -/

theorem writeBy_CMP_STEER {who : Initiator} {g : Fin 12} (h : s.Takes who .CMP_STEER g.val) (v : Nat) :
    s.writeBy who .CMP_STEER g.val v = s.cmpSteer g.val v := by
  have hk : keyBlock (Reg.CMP_STEER.key g.val) = 0x16 := keyBlock_key _ (by omega)
  rw [writeBy_takes h (placed_of_count (n := 12) (by decide +kernel) g.isLt) (by decide)]
  unfold State.regWrite
  rw [hk]
  rfl

section
variable {g m : Nat}

theorem now_setCmp (s : State) (r : Nat) (x : Cmpr) : (s.setCmp r x).now = s.now := rfl

theorem now_foldl_setReg (l : List Reg) (r c : Nat) : ∀ s : State, (l.foldl (fun s x => s.setReg x r (s.reg x c)) s).now = s.now := by
  induction l with
  | nil => exact fun _ => rfl
  | cons x l ih => exact fun s => ih (s.setReg x r (s.reg x c))

/-- A reserve runs on the settings of the comparator that it is to serve, and forms its outputs (R237). -/
def reserveRuns (s : State) (r c : Nat) : State :=
  let copy := cmpCopied.foldl (fun s x => s.setReg x r (s.reg x c)) s
  let u := copy.setCmp r (copy.cmp c)
  let raw := u.flag F.CMP_CTL_EN r && (u.cmpAsserts r s.now || (u.flag F.CMP_STAT_RAW c && !u.cmpReleases r s.now))
  ((u.setFld F.CMP_STAT_RAW r (b2n raw)).cmpNote r s.now).cmpShow r s.now

/-- A write with ACTIVE = 1 steers the reserve, or sets ERR (R236). -/
theorem cmpSteer_active (hm : m < 16) : s.cmpSteer g (m + 16) =
    if s.flag F.CMP_STEER_ACTIVE g || s.flag F.CMP_CTL_EN (192 + g) then s.setFld F.CMP_STEER_ERR g 1
    else ((((reserveRuns s (192 + g) (16 * g + m)).setFld F.CMP_STEER_MEMBER g m).setFld F.CMP_STEER_ACTIVE g 1).setFld F.CMP_STEER_BUSY g
      1).note .degr := by
  obtain ⟨hmem, h4, h6⟩ := steerWord_bits hm
  unfold State.cmpSteer
  rw [hmem, h4, h6]
  simp only [Bool.false_eq_true, if_false, if_true, setFld_now, now_setCmp, now_foldl_setReg]
  rfl

/-- A reserve unsteered: its EN, RAW and OUT clear (R238). -/
def reserveStops (s : State) (g m : Nat) : State :=
  let u := ((s.setFld F.CMP_STEER_MEMBER g m).setFld F.CMP_STEER_ACTIVE g 0).setFld F.CMP_STEER_BUSY g 0
  ((u.setFld F.CMP_CTL_EN (192 + g) 0).setFld F.CMP_STAT_RAW (192 + g) 0).setFld F.CMP_STAT_OUT (192 + g) 0

theorem quiet_reserveStops (h : s.Quiet) (g m : Nat) : (reserveStops s g m).Quiet := by
  unfold reserveStops
  exact quiet_setFld (quiet_setFld (quiet_setFld (quiet_setFld (quiet_setFld (quiet_setFld h ..) ..) ..) ..) ..) ..

/-- A write with ACTIVE = 0 that keeps MEMBER: an unsteered comparator shows its outputs again (R238). -/
theorem cmpSteer_inactive :
    let k := s.fld F.CMP_STEER_MEMBER g
    s.cmpSteer g k = if s.inRun then s.setFld F.CMP_STEER_ERR g 1
      else if s.flag F.CMP_STEER_ACTIVE g then ((reserveStops s g k).cmpShow (16 * g + k) s.now).note .degr else reserveStops s g k := by
  intro k
  obtain ⟨hmem, h4, h6⟩ := unsteerWord_bits (m := k) (Nat.mod_lt _ (by decide))
  unfold State.cmpSteer
  rw [hmem, h4, h6]
  simp only [Bool.false_eq_true, if_false, setFld_now]
  rfl

theorem cmpSteerDone_none (h : s.flag F.CMP_STEER_BUSY g = false) : s.cmpSteerDone g = s := if_pos (by simp [h])

theorem cmpSteerDone_passes (h : s.flag F.CMP_STEER_BUSY g = true) :
    let c := 16 * g + s.fld F.CMP_STEER_MEMBER g
    s.cmpSteerDone g = ((((s.setFld F.CMP_STEER_BUSY g 0).setFld F.CMP_CTL_EN c 0).setFld F.CMP_STAT_RAW c 0).setFld F.CMP_STAT_OUT c
      0).cmpShow (192 + g) s.now := by
  unfold State.cmpSteerDone
  rw [h]
  simp only [Bool.not_true, Bool.false_eq_true, if_false, setFld_now]

end

end Sys2Proof.Laws
end

section
/-! PROOF. Comparators and the trip network (R18, R228 to R230, R233, R234, R236 to R241, R244 to R247, R249, R259). -/

namespace Sys2Proof.Proofs
open Sys2Proof.Machine Sys2Proof.Laws

variable {s : State}

/-! Comparators (R228 to R234). -/

section
variable {c : Fin 204} {v : Word}

theorem comparatorAssert_within (hq : s.Quiet) (h : s.alive (cmpDom c.val) = false ∨ s.flag F.CMP_CTL_EN c.val = false ∨
    (s.setAin c.val v).cmpAsserts c.val s.now = false) : exec (.comparatorAssert c v) s = .next (s.setAin c.val v) := by
  refine ends_of_eq ?_ hq
  rcases h with h | h | h
  · exact cmpAssert_off (.inl h)
  · exact cmpAssert_off (.inr h)
  · exact cmpAssert_within h

theorem comparatorRelease_within (hq : s.Quiet) (h : s.alive (cmpDom c.val) = false ∨ s.flag F.CMP_STAT_RAW c.val = false ∨
    (s.setAin c.val v).cmpReleases c.val s.now = false) : exec (.comparatorRelease c v) s = .next (s.setAin c.val v) := by
  refine ends_of_eq ?_ hq
  rcases h with h | h | h
  · exact cmpRelease_off (.inl h)
  · exact cmpRelease_off (.inr h)
  · exact cmpRelease_within h

theorem comparatorRelease_releases (ha : s.alive (cmpDom c.val) = true) (hr : s.flag F.CMP_STAT_RAW c.val = true)
    (h : (s.setAin c.val v).cmpReleases c.val s.now = true) :
    exec (.comparatorRelease c v) s = ((s.setAin c.val v).cmpRaw c.val s.now false).ends :=
  congrArg State.ends (cmpRelease_releases ha hr h)

/-- An order of thresholds shows in 2^-16 of a code as it does in codes. -/
theorem level_le {a b : Nat} : level a ≤ level b ↔ a ≤ b := by
  unfold level
  omega

/-- A comparator takes an input that asserts its raw output or not (R229, R230). -/
theorem comparatorAssert_running (hq : s.Quiet) (ha : s.alive (cmpDom c.val) = true) (he : s.flag F.CMP_CTL_EN c.val = true) :
    let u := s.setAin c.val v
    let mode := s.fld F.CMP_CTL_MODE c.val
    let hi := level (s.cmpHi c.val s.now)
    let lo := level ((s.cmp c.val).loIn s.now)
    let order := 2 ≤ mode ∧ hi ≤ lo
    let beyond := Beyond mode hi lo (sensed s c.val v)
    (order → s.flag F.CMP_STAT_RAW c.val = false →
      exec (.comparatorAssert c v) s = ((u.setFld F.CMP_STAT_ORDER c.val 1).cmpRaw c.val s.now true).ends) ∧
    (order → s.flag F.CMP_STAT_RAW c.val = true → exec (.comparatorAssert c v) s = .next (u.setFld F.CMP_STAT_ORDER c.val 1)) ∧
    (¬ order → beyond → s.flag F.CMP_STAT_RAW c.val = false → exec (.comparatorAssert c v) s = (u.cmpRaw c.val s.now true).ends) ∧
    (¬ order → ¬ beyond ∨ s.flag F.CMP_STAT_RAW c.val = true → exec (.comparatorAssert c v) s = .next u) := by
  intro u mode hi lo order beyond
  have horder : u.cmpOrder c.val s.now = true ↔ order := cmpOrder_iff.trans (and_congr_right fun _ => level_le.symm)
  have hasserts : u.cmpAsserts c.val s.now = true ↔ order ∨ beyond := by
    rw [cmpAsserts_iff, horder, cmpSees_setAin_same rfl]
    rfl
  have hexec (h : order ∨ beyond) : exec (.comparatorAssert c v) s = (if s.flag F.CMP_STAT_RAW c.val then u.cmpNote c.val s.now
      else (u.cmpNote c.val s.now).cmpRaw c.val s.now true).ends :=
    congrArg State.ends (cmpAssert_asserts (s := u) ha he (hasserts.mpr h))
  have hnote (h : order) : u.cmpNote c.val s.now = u.setFld F.CMP_STAT_ORDER c.val 1 := cmpNote_order he (horder.mpr h)
  have hnone (h : ¬ order) : u.cmpNote c.val s.now = u := cmpNote_none (Bool.not_eq_true _ ▸ mt horder.mp h)
  refine ⟨fun ho hr => ?_, fun ho hr => ?_, fun ho hb hr => ?_, fun ho hb => ?_⟩
  · rw [hexec (.inl ho), hr, hnote ho]
    rfl
  · rw [hexec (.inl ho), hr, hnote ho]
    exact ends_of_quiet hq
  · rw [hexec (.inr hb), hr, hnone ho]
    rfl
  · by_cases hbeyond : beyond
    · rw [hexec (.inr hbeyond), hb.resolve_left (not_not_intro hbeyond), hnone ho]
      exact ends_of_quiet hq
    · have hno : u.cmpAsserts c.val s.now = false := Bool.not_eq_true _ ▸ mt hasserts.mp (not_or.mpr ⟨ho, hbeyond⟩)
      exact comparatorAssert_within hq (.inr (.inr hno))

/-- An asserted comparator takes an input that releases its raw output or not (R229, R230). -/
theorem comparatorRelease_asserted (hq : s.Quiet) (ha : s.alive (cmpDom c.val) = true) (hr : s.flag F.CMP_STAT_RAW c.val = true) :
    let mode := s.fld F.CMP_CTL_MODE c.val
    let hi := s.cmpHi c.val s.now
    let lo := (s.cmp c.val).loIn s.now
    let order := 2 ≤ mode ∧ hi ≤ lo
    let back := Back mode hi lo (s.fld F.CMP_HYST_HYST c.val) (sensed s c.val v)
    (¬ order → back → exec (.comparatorRelease c v) s = ((s.setAin c.val v).cmpRaw c.val s.now false).ends) ∧
    (order ∨ ¬ back → exec (.comparatorRelease c v) s = .next (s.setAin c.val v)) := by
  intro mode hi lo order back
  have hreleases : (s.setAin c.val v).cmpReleases c.val s.now = true ↔ ¬ order ∧ back := by
    rw [cmpReleases_iff, cmpSees_setAin_same rfl, ← Bool.not_eq_true, cmpOrder_iff]
    rfl
  refine ⟨fun ho hb => comparatorRelease_releases ha hr (hreleases.mpr ⟨ho, hb⟩), fun h => ?_⟩
  have hno : ¬ (¬ order ∧ back) := fun ⟨ho, hb⟩ => h.elim ho (· hb)
  exact comparatorRelease_within hq (.inr (.inr (Bool.not_eq_true _ ▸ mt hreleases.mp hno)))

end

/-- What a raw output's level comes to outside a blanking window (R234). -/
theorem cmpRaw_outputs {c : Fin 204} (t : Nat) (lvl : Bool) (he : s.flag F.CMP_CTL_EN c.val = true) (hb : (s.cmp c.val).blank = none) :
    let v := outputShown s c.val lvl
    (s.cmpLogical c.val = none →
      (s.flag F.CMP_STAT_OUT c.val = lvl ∨ lvl = false → s.cmpRaw c.val t lvl = v) ∧
      (s.flag F.CMP_STAT_OUT c.val = false → lvl = true → s.cmpRaw c.val t lvl = v.bump F.CMP_COUNT_ASSERTCNT F.CMP_COUNT_SAT c.val)) ∧
    (∀ n, s.cmpLogical c.val = some n →
      let f := v.fltLevel n (lvl || !s.alive (cmpDom c.val)) t
      (s.flag F.CMP_STAT_OUT c.val = lvl → s.cmpRaw c.val t lvl = f) ∧
      (s.flag F.CMP_STAT_OUT c.val = true → lvl = false → s.cmpRaw c.val t lvl = f.emit (0x401 + 2 * n) t (cmpDom c.val) none) ∧
      (s.flag F.CMP_STAT_OUT c.val = false → lvl = true → s.cmpRaw c.val t lvl =
        ((f.emit (0x400 + 2 * n) t (cmpDom c.val) none).bump F.CMP_COUNT_ASSERTCNT F.CMP_COUNT_SAT c.val).cmpTerminate c.val t)) := by
  intro v
  refine ⟨fun hl => ?_, fun n hl => ?_⟩
  · rw [cmpRaw_unserved c.isLt lvl he hb t hl]
    refine ⟨fun h => if_neg ?_, fun ho hlvl => if_pos (by simp [ho, hlvl])⟩
    rcases h with h | h <;> simp [h]
  · intro f
    have hraw := cmpRaw_served c.isLt lvl he hb t hl (lt_trans (cmpLogical_lt c.isLt hl) (by decide))
    have hrel : 0x400 + 2 * n + b2n true = 0x401 + 2 * n := by
      rw [b2n, if_pos rfl]
      omega
    refine ⟨fun ho => hraw.trans (if_pos (by simp [ho])), fun ho hlvl => ?_, fun ho hlvl => ?_⟩
    · refine (hraw.trans (if_neg (by simp [ho, hlvl]))).trans ((if_neg (by simp [hlvl])).trans ?_)
      rw [ho, hrel]
    · refine (hraw.trans (if_neg (by simp [ho, hlvl]))).trans ((if_pos hlvl).trans ?_)
      rw [ho]
      rfl

/-! Comparator reserves (R236 to R238). -/

section
variable {who : Initiator} {g : Fin 12}

theorem exec_cmpSteer (h : s.Takes who .CMP_STEER g.val) (m : BitVec 4) :
    exec (.cmpSteer who g m) s = (s.cmpSteer g.val (m.toNat + 16)).ends := congrArg State.ends (writeBy_CMP_STEER h _)

theorem exec_cmpUnsteer (h : s.Takes who .CMP_STEER g.val) :
    exec (.cmpUnsteer who g) s = (s.cmpSteer g.val (s.fld F.CMP_STEER_MEMBER g.val)).ends := congrArg State.ends (writeBy_CMP_STEER h _)

theorem cmpSteerWrite (h : s.Takes who .CMP_STEER g.val) (m : BitVec 4) :
    (s.flag F.CMP_STEER_ACTIVE g.val = false → s.flag F.CMP_CTL_EN (192 + g.val) = false → exec (.cmpSteer who g m) s =
      (((((reserveRuns s (192 + g.val) (16 * g.val + m.toNat)).setFld F.CMP_STEER_MEMBER g.val m.toNat).setFld F.CMP_STEER_ACTIVE g.val
        1).setFld F.CMP_STEER_BUSY g.val 1).note .degr).ends) ∧
    (s.flag F.CMP_STEER_ACTIVE g.val = true ∨ s.flag F.CMP_CTL_EN (192 + g.val) = true →
      exec (.cmpSteer who g m) s = .next (s.setFld F.CMP_STEER_ERR g.val 1)) := by
  rw [exec_cmpSteer h]
  refine ⟨fun ha he => congrArg State.ends ((cmpSteer_active m.isLt).trans (if_neg (by simp [ha, he]))), fun hno => ?_⟩
  exact ends_of_eq ((cmpSteer_active m.isLt).trans (if_pos (by rcases hno with hno | hno <;> simp [hno]))) h.quiet

theorem cmpUnsteerWrite (h : s.Takes who .CMP_STEER g.val) :
    let k := s.fld F.CMP_STEER_MEMBER g.val
    let v := reserveStops s g.val k
    (s.inRun = true → exec (.cmpUnsteer who g) s = .next (s.setFld F.CMP_STEER_ERR g.val 1)) ∧
    (s.inRun = false → s.flag F.CMP_STEER_ACTIVE g.val = false → exec (.cmpUnsteer who g) s = .next v) ∧
    (s.inRun = false → s.flag F.CMP_STEER_ACTIVE g.val = true →
      exec (.cmpUnsteer who g) s = ((v.cmpShow (16 * g.val + k) s.now).note .degr).ends) := by
  intro k v
  have hv : v.Quiet := quiet_reserveStops h.quiet g.val k
  have hexec : exec (.cmpUnsteer who g) s = (s.cmpSteer g.val k).ends := exec_cmpUnsteer h
  have hsteer := cmpSteer_inactive (s := s) (g := g.val)
  refine ⟨fun hr => hexec.trans (ends_of_eq (hsteer.trans (if_pos hr)) h.quiet), fun hr ha => ?_, fun hr ha => ?_⟩
  · exact hexec.trans (ends_of_eq (hsteer.trans ((if_neg (by simp [hr])).trans (if_neg (by simp [ha])))) hv)
  · exact hexec.trans (congrArg State.ends (hsteer.trans ((if_neg (by simp [hr])).trans (if_pos ha))))

end

/-! Sources and nets (R239, R240, R244 to R247). -/

theorem exec_netTrip_asserts {src : Fin 388} (h : SourceAsserts s src.val) : exec (.netTrip src) s = (s.fltAssert src.val s.now).ends :=
  congrArg State.ends (netTrip_asserts h)

/-- A happening of a source: it asserts nothing, on its net, on a route that takes effect in the next ec, or on both (R240, R244). -/
theorem netTripped (hq : s.Quiet) (src : Fin 388) :
    let now_ := s.srcRoute src.val s.now
    let late := lateRoute s src.val s.now
    (¬ SourceAsserts s src.val ∨ s.alive 16 = false → exec (.netTrip src) s = .next s) ∧
    (SourceAsserts s src.val → s.alive 16 = true → late = none → now_ = none → exec (.netTrip src) s = .next s) ∧
    (∀ k, SourceAsserts s src.val → s.alive 16 = true → late = none → now_ = some k →
      exec (.netTrip src) s = (s.netAssert k src.val s.now).ends) ∧
    (∀ k, SourceAsserts s src.val → s.alive 16 = true → late = some k → now_ = none →
      exec (.netTrip src) s = ((s.reach (s.now + 1)).netAssert k src.val (s.now + 1)).ends) ∧
    (∀ k j, SourceAsserts s src.val → s.alive 16 = true → late = some k → now_ = some j →
      exec (.netTrip src) s = (((s.netAssert j src.val s.now).reach (s.now + 1)).netAssert k src.val (s.now + 1)).ends) := by
  intro now_ late
  refine ⟨fun h => ?_, fun h ha hl hn => ?_, fun k h ha hl hn => ?_, fun k h ha hl hn => ?_, fun k j h ha hl hn => ?_⟩
  · by_cases hs : SourceAsserts s src.val
    · exact (exec_netTrip_asserts hs).trans (ends_of_eq (fltAssert_dead (h.resolve_left (not_not_intro hs))) hq)
    · exact ends_of_eq (netTrip_idle hs) hq
  · rw [exec_netTrip_asserts h, fltAssert_prompt ha hl, routeAsserted_none hn]
    exact ends_of_quiet hq
  · rw [exec_netTrip_asserts h, fltAssert_prompt ha hl, routeAsserted_some hn]
  · rw [exec_netTrip_asserts h, fltAssert_late ha hl, routeAsserted_none hn]
  · rw [exec_netTrip_asserts h, fltAssert_late ha hl, routeAsserted_some hn]

theorem exec_swtrip {who : Initiator} (h : s.Takes who .FLT_SWTRIP 0) : exec (.swtrip who) s = (s.fltAssert 386 s.now).ends :=
  congrArg State.ends (writeBy_FLT h (by decide +kernel) (by decide +kernel) 1)

theorem exec_netRelease {who : Initiator} {k : Fin 64} (h : s.Takes who (if k.val < 32 then .FLT_RELL else .FLT_RELH) 0) :
    exec (.netRelease who k) s = (s.netRelease k.val).ends := by
  refine congrArg State.ends (Eq.trans ?_ (writeFlt_release k.isLt))
  by_cases hk : k.val < 32
  · rw [if_pos hk] at h ⊢
    exact writeBy_FLT h (by decide +kernel) (by decide +kernel) _
  · rw [if_neg hk] at h ⊢
    exact writeBy_FLT h (by decide +kernel) (by decide +kernel) _

/-! The routing table (R244, R259). -/

section
variable {who : Initiator} {i : BitVec 10} {v : Word} (ha : s.answers 0x400040004 = true)
include ha

theorem exec_tdata_may {r : Reg} {j : Nat} (he : fltEntry i.toNat = some (r, j)) (hm : s.regMay who.agent r j = true) :
    exec (.tdata who i v) s = (s.fltWrite i.toNat v.toNat).ends := congrArg State.ends (tdataBy_may ha he hm)

theorem exec_tdata_reserved (he : fltEntry i.toNat = none) (ho : who.agent.owner false = true) :
    exec (.tdata who i v) s = (s.fltWrite i.toNat v.toNat).ends := congrArg State.ends (tdataBy_reserved ha he ho)

theorem tdata_running (hq : s.Quiet) (hr : s.inRun = true) (hm : ∀ r j, fltEntry i.toNat = some (r, j) → s.regMay who.agent r j = true)
    (h : fltEntry i.toNat ≠ none ∨ who.agent.owner false = true) :
    exec (.tdata who i v) s = .next (s.setFld F.FLT_STAT_WERR 0 1) := by
  have hexec : exec (.tdata who i v) s = (s.fltWrite i.toNat v.toNat).ends := by
    cases he : fltEntry i.toNat with
    | some e => exact exec_tdata_may ha he (hm _ _ he)
    | none => exact exec_tdata_reserved ha he (h.resolve_left (not_not_intro he))
  rw [hexec]
  exact ends_of_eq (fltWrite_running hr) hq

variable (hq : s.Quiet) (hr : s.inRun = false)
include hq hr

theorem tdata_source (hn : i.toNat < 388) (h16 : s.alive 16 = true) (hm : s.regMay who.agent .FLT_SRCE i.toNat = true) :
    let n := i.toNat
    let u := s.fltHold n .FLT_SRCE n
    let put (x : State) := x.setRegN .FLT_SRCE n (v.toNat % 2 ^ 7 + s.fld F.FLT_SRCE_ACTIVE n * 2 ^ 7)
    (s.flag F.FLT_SRCE_ACTIVE n = false → exec (.tdata who i v) s = .next (put u)) ∧
    (s.flag F.FLT_SRCE_ACTIVE n = true → bit 0 v.toNat = false → exec (.tdata who i v) s = .next (put (u.netLast n s.now))) ∧
    (s.flag F.FLT_SRCE_ACTIVE n = true → bit 0 v.toNat = true →
      exec (.tdata who i v) s = (((put (u.netLast n s.now)).reach (s.now + 1)).netAssert (bits 6 1 v.toNat) n (s.now + 1)).ends) := by
  intro n u put
  have hu : u.Quiet := quiet_fltHold hq ..
  obtain ⟨hidle, hunrouted, hasserts⟩ := fltWrite_source_cases hr hn h16 v.toNat
  rw [exec_tdata_may ha (fltEntry_source hn) hm]
  exact ⟨fun h => ends_of_eq (hidle h) (quiet_setRegN hu ..),
    fun h h0 => ends_of_eq (hunrouted h h0) (quiet_setRegN (quiet_netLast hu ..) ..), fun h h0 => congrArg State.ends (hasserts h h0)⟩

theorem tdata_pair (h : 512 ≤ i.toNat) (h' : i.toNat < 704) (hm : s.regMay who.agent .FLT_PAIRE (i.toNat - 512) = true) :
    let n := i.toNat - 512
    (bits 23 15 v.toNat < 256 → exec (.tdata who i v) s =
      (((s.fltHold i.toNat .FLT_PAIRE n).setRegN .FLT_PAIRE n (v.toNat % 2 ^ 24)).fltPairAt n (s.now + 1)).ends) ∧
    (256 ≤ bits 23 15 v.toNat → exec (.tdata who i v) s = .next (s.setFld F.FLT_STAT_WERR 0 1)) := by
  intro n
  rw [exec_tdata_may ha (fltEntry_pair h h') hm, fltWrite_pair hr h h']
  refine ⟨fun hb => ?_, fun hb => ends_of_eq (if_pos hb) hq⟩
  rw [if_neg (by omega)]

theorem tdata_net (h : 704 ≤ i.toNat) (h' : i.toNat < 768) (hm : s.regMay who.agent .FLT_NETE (i.toNat - 704) = true) :
    let k := i.toNat - 704
    exec (.tdata who i v) s =
      .next ((s.fltHold i.toNat .FLT_NETE k).setRegN .FLT_NETE k (setBits 0 14 (v.toNat % 2 ^ 14) (s.regN .FLT_NETE k))) := by
  intro k
  have hold : (s.fltHold i.toNat .FLT_NETE k).regN .FLT_NETE k = s.regN .FLT_NETE k :=
    congrArg (fun l => (Tab.look regDefault l (Reg.FLT_NETE.key k)).toNat) (fltHold_regs ..)
  rw [exec_tdata_may ha (fltEntry_net h h') hm, fltWrite_net hr h h', hold]
  exact ends_of_quiet (quiet_setRegN (quiet_fltHold hq ..) ..)

end

/-- Settles O50: a comparator's outputs follow its input, a net its sources, and a pair its nets; each write is that of its register. -/
theorem trips : Obligations.Trips := by
  unfold Obligations.Trips
  intro s hq now_ late
  refine ⟨?_, ?_, ?_, ?_, ?_, ?_, ?_, ?_, ?_, ?_, ?_, ?_, ?_, ?_, ?_, ?_, ?_, ?_⟩
  · intro c d v pin
    exact ⟨fun h => cmpSees_setAin_same h v, fun h => cmpSees_setAin_ne h v⟩
  · intro c v u x mode hi lo order beyond ha he
    exact comparatorAssert_running hq ha he
  · intro c v u x mode h hi lo order lv back ha hr
    exact comparatorRelease_asserted hq ha hr
  · intro c v u hk
    exact ⟨fun h => comparatorAssert_within hq (h.imp_right .inl), fun h => comparatorRelease_within hq (h.imp_right .inl),
      fun h => clocked_next hk (cmpBlankEnd_none h) hq, fun t h => clocked_ends hk (cmpBlankEnd_some h)⟩
  · intro c t lvl u v he hb
    exact cmpRaw_outputs t lvl he hb
  · intro who g m r c copy u raw v ht
    exact cmpSteerWrite ht m
  · intro who g k r u v ht
    exact cmpUnsteerWrite ht
  · intro g c u
    exact ⟨fun h => ends_of_eq (cmpSteerDone_none h) hq, fun h => congrArg State.ends (cmpSteerDone_passes h)⟩
  · intro src asserts
    exact netTripped hq src
  · intro i t r n was
    exact ⟨fltSet_unwritten, fun _ _ => fltSet_after, fun _ _ => fltSet_before⟩
  · intro k src t x last tripped u v w kept
    refine ⟨fun h hf => netAssert_trips (Bool.not_eq_true _ ▸ h) hf, fun h hf => netAssert_kept (Bool.not_eq_true _ ▸ h) hf,
      fun h ht => (netAssert_tripped h).trans (if_neg ht), fun h ht hs => ?_, fun h ht hs => ?_⟩
    · exact (netAssert_tripped h).trans ((if_pos ht).trans (congrArg (State.fltFirst · k src t) (if_neg (Nat.not_lt.mpr hs))))
    · exact (netAssert_tripped h).trans ((if_pos ht).trans (congrArg (State.fltFirst · k src t) (if_pos hs)))
  · intro k src t put at_ k0 before
    exact ⟨fltFirst_taken, fltFirst_kept⟩
  · intro n t p v on is_
    exact ⟨fun h hp => fltPairAt_trips (fltTripped_iff.mpr h) (Bool.not_eq_true _ ▸ hp),
      fun h hp => fltPairAt_untrips (Bool.not_eq_true _ ▸ mt fltTripped_iff.mp h) hp,
      fun h => fltPairAt_follows (Bool.eq_iff_iff.mpr (fltTripped_iff.trans h)), fltPair_settled, fltPair_fresh⟩
  · intro who k follow u ht
    rw [exec_netRelease ht]
    exact ⟨fun h => ends_of_eq (netRelease_none h) hq, fun hf htr hk =>
      ⟨fun h => ends_of_eq (netRelease_refused hf htr hk h) hq, fun ha h => congrArg State.ends (netRelease_frees hf htr hk ha h)⟩⟩
  · intro k v t u hk
    exact ⟨fun h => clocked_next hk (netFollow_none h) hq, fun hf htr ha _ => clocked_ends hk (netFollow_frees hf htr ha hk)⟩
  · intro who ht ha hl
    rw [exec_swtrip ht, fltAssert_prompt ha hl]
    exact ⟨fun h => ends_of_eq (routeAsserted_none h) hq, fun k h => congrArg State.ends (routeAsserted_some h)⟩
  · intro who i v x n a held src left set_ ha h16
    refine ⟨fun hr hm h => tdata_running ha hq hr hm h, fun hr hn hm => tdata_source ha hq hr hn h16 hm,
      fun hr h h' hm => tdata_pair ha hq hr h h' hm, fun hr h h' hm => tdata_net ha hq hr h h' hm, fun h ho hr => ?_⟩
    exact (exec_tdata_reserved ha (fltEntry_reserved h) ho).trans (ends_of_eq (fltWrite_reserved hr (fltEntry_reserved h)) hq)
  · intro hk
    exact ⟨fun _ => congrArg Host.Outcome.next (finish_idle hk hq _), fun _ => congrArg Host.Outcome.next (finish_idle hk hq _)⟩

end Sys2Proof.Proofs
end

section
/-! SUPPORT. Where an event and an end of pulses reach one channel and no pair (R248, R314). -/

namespace Sys2Proof.Laws
open Sys2Proof.Machine

variable {s : State}

/-- Of rounds the first comes before the others. -/
theorem repeatN_first {σ : Type} (n : Nat) (f : Nat → σ → σ) (x : σ) : repeatN (n + 1) f x = repeatN n (fun k => f (k + 1)) (f 0 x) := by
  simp [repeatN, List.range_succ_eq_map, List.foldl_map]

/-- An event of a source that channel 0 alone names is presented there (R314). -/
theorem emit_first {src t dom : Nat} {cause : Option Lineage} (ha : s.alive dom = true) (h0 : s.fld F.EVC_CTL_SRC 0 = src)
    (h : ∀ k < 1023, (s.present 0 t (srcClk src) dom 0 cause).fld F.EVC_CTL_SRC (k + 1) ≠ src) :
    s.emit src t dom cause = s.present 0 t (srcClk src) dom 0 cause := by
  have hgo : ¬ (!s.alive dom) = true := by simp [ha]
  unfold State.emit
  rw [if_neg hgo, repeatN_first 1023, if_pos h0]
  exact repeatN_fixed (fun k hk => if_neg (h k hk))

/-- Where no pair's settings let a source terminate its pulses, none does (R248). -/
theorem fltTerminate_none {t : Nat} (h : ∀ n < 192, bit 14 (s.pairSet n t) = false) (src : Nat) : s.fltTerminate src t = s :=
  repeatN_fixed (fun n hn => if_neg (by simp [h n hn]))

end Sys2Proof.Laws
end

section
/-! PROOF. Bitstream inputs (R244, R248, R267): a fast trip in the ec in which the Flint entry of its source is written. -/

namespace Sys2Proof.Proofs
open Sys2Proof.Machine Sys2Proof.Laws

/-- A device in STANDBY with every domain powered, in ec 1,000: net 0 is tripped, bitstream input 0 has run since ec 0 with FTEN, FHIEN and
a filter of 4 samples, of which 4 ones trip, and channel 0 is enabled on the input's fast-trip event. -/
def sampling : State :=
  { State.reset with
    regs := [(Reg.key .FLT_NETE 0, 0x4102), (Reg.key .SDI_CTL 0, 0x800FD), (Reg.key .SDI_FTRIP 0, 0x40104), (Reg.key .SDI_CLK 0, 0x87D),
      (Reg.key .EVC_CTL 0, 0x682001), (Reg.key .PMU_MODE 0, 5), (Reg.key .PMU_DOMSTAT 0, 0xFFFFF), (Reg.key .CLK_STAT 0, 2)]
    now := 1000
    boot := .done }

/-- The same once TDATA has enabled the filter's source 192 on net 0 in that ec: it is routed from ec 1,001 (R244). -/
def beforeTrip : State := sampling.fltWrite 192 1

theorem beforeTrip_quiet : beforeTrip.Quiet := by unfold State.Quiet; decide +kernel

/-- A command of supervisor core 0 leads to that state. -/
theorem exec_tdata_sampling : exec (.tdata (.sup 0) 192 1) sampling = .next beforeTrip :=
  (exec_tdata_may (by decide +kernel) (fltEntry_source (by decide)) (by decide +kernel)).trans (ends_of_quiet beforeTrip_quiet)

/-- The last 32 samples, all ones. -/
def allOnes : BitVec 32 := 0xFFFFFFFF

/-- The input samples, its filter is enabled and not tripped, and it has taken 4 samples. -/
theorem beforeTrip_samples : beforeTrip.sdiSamples 0 beforeTrip.now = true ∧ beforeTrip.flag F.SDI_CTL_FTEN 0 = true ∧
    beforeTrip.flag F.SDI_STAT_FT 0 = false ∧ (beforeTrip.sdi 0).ftAt + beforeTrip.ftLen 0 ≤ beforeTrip.sdiTaken 0 (beforeTrip.now - 1) := by
  decide +kernel

theorem beforeTrip_holds : beforeTrip.flag F.SDI_FTRIP_FHIEN 0 = true ∧
    beforeTrip.fld F.SDI_FTRIP_FHI 0 ≤ (List.range (beforeTrip.ftLen 0)).countP (fun k => allOnes.getLsbD k) := by
  decide +kernel

/-- The filter's output is set and counted. -/
def tripped : State := (beforeTrip.ftSet 0 true).bump F.SDI_COUNT_FTCNT F.SDI_COUNT_FTSAT 0

/-- The source asserts on its new route in the next ec, and that carries Quartz there. -/
theorem tripped_now : beforeTrip.now = 1000 ∧ tripped.now = 1001 := by decide +kernel

/-- The filter's event is presented in the ec that Quartz has been carried to. -/
theorem ftAssert_beforeTrip : beforeTrip.ftAssert 0 allOnes = (tripped.emit 0x682 tripped.now 17 none).fltTerminate 192 tripped.now :=
  if_neg (by decide +kernel)

/-- The ecs in which the events in flight were presented. -/
def presentedAt : Host.Outcome State Fault Refusal → List Nat
  | .next t => t.flights.map (fun f => f.at_)
  | _ => []

/-- What channel 0 carries of the filter's event. -/
def carried (t : Nat) : State := tripped.present 0 t 1 17 0 none

theorem tripped_names : tripped.alive 17 = true ∧ tripped.fld F.EVC_CTL_SRC 0 = 0x682 := by decide +kernel

/-- No other channel names the event. -/
theorem carried_alone : ∀ t ∈ [1000, 1001], ∀ k < 1023, (carried t).fld F.EVC_CTL_SRC (k + 1) ≠ 0x682 := by decide +kernel

/-- No pair's settings let a source terminate its pulses. -/
theorem carried_pairs : ∀ t ∈ [1000, 1001], ∀ n < 192, bit 14 ((carried t).pairSet n t) = false := by decide +kernel

theorem presentedAt_carried : ∀ t ∈ [1000, 1001], presentedAt (carried t).ends = [t] := by decide +kernel

/-- In either ec the event is in flight as of the ec in which it was presented. -/
theorem presentedAt_tripped {t : Nat} (ht : t ∈ [1000, 1001]) : presentedAt ((tripped.emit 0x682 t 17 none).fltTerminate 192 t).ends = [t] := by
  have hemit : tripped.emit 0x682 t 17 none = carried t := emit_first tripped_names.1 tripped_names.2 (carried_alone t ht)
  rw [hemit, fltTerminate_none (carried_pairs t ht), presentedAt_carried t ht]

/-- Refutes O51: its clause for FAST_TRIP_ASSERT presents the filter's event, and terminates pulses, in the ec of the command. Where the
Flint entry of the filter's source is written in that same ec, the source asserts on its new route in the next one (R244), `ftSet` carries
Quartz there, and `ftAssert` does both at Quartz as it then stands. The clause lacks a premise that the entry is not written in this ec. -/
theorem not_sensing : ¬ Obligations.Sensing := by
  unfold Obligations.Sensing
  intro h
  obtain ⟨hsamples, hen, hft, htaken⟩ := beforeTrip_samples
  obtain ⟨hnow, hlate⟩ := tripped_now
  obtain ⟨-, hinput, -⟩ := h beforeTrip beforeTrip_quiet
  obtain ⟨-, -, hassert, -⟩ := hinput 0 true allOnes
  have hclaimed : exec (.fastTripAssert 0 allOnes) beforeTrip =
      ((tripped.emit 0x682 beforeTrip.now 17 none).fltTerminate 192 beforeTrip.now).ends :=
    hassert hsamples hen hft (.inl beforeTrip_holds) htaken
  have hdone : exec (.fastTripAssert 0 allOnes) beforeTrip =
      ((tripped.emit 0x682 tripped.now 17 none).fltTerminate 192 tripped.now).ends :=
    congrArg State.ends ftAssert_beforeTrip
  rw [hnow] at hclaimed
  rw [hlate] at hdone
  have hsame : [1000] = [1001] := by
    rw [← presentedAt_tripped (t := 1000) (by decide), ← hclaimed, hdone, presentedAt_tripped (by decide)]
  exact absurd hsame (by decide)

end Sys2Proof.Proofs
end

section
/-! SUPPORT. Driver links (R331, R332, R336 to R348, R352): a link read back, and what each of its operations comes to. -/

namespace Sys2Proof.Laws
open Sys2Proof.Machine

variable {s : State} {d : Nat}

/-! A link read back, and what an update of it leaves. -/

@[simp] theorem dlk_modDlk (f : Dlk → Dlk) : (s.modDlk d f).dlk d = f (s.dlk d) := Tab_look_put_same ..

theorem modDlk_congr {f g : Dlk → Dlk} (h : f (s.dlk d) = g (s.dlk d)) : s.modDlk d f = s.modDlk d g := congrArg (s.setDlk d) h

theorem quiet_modDlk (h : s.Quiet) (d : Nat) (f : Dlk → Dlk) : (s.modDlk d f).Quiet := h

theorem quiet_dlkSend (h : s.Quiet) (d kind t ready arg : Nat) (fields : List Byte) (flags : Nat) :
    (s.dlkSend d kind t ready arg fields flags).Quiet := h

/-- A link changes its state code, and Flint's source 256 + d follows (R337, R348). -/
theorem dlkGo_eq (s : State) (d st : Nat) : s.dlkGo d st =
    ((if s.dlkSt d = 3 ∨ st = 0 then s.modDlk d Dlk.clear else s).setFld F.DLK_STAT_STATE d st).dlkFlint d := rfl

/-! Writes of CTL (R337, R342, R352). -/

/-- A write of CTL that is discarded: it would change a link in RUN, name no pair, or bind a pair that another link is bound to. -/
def CtlKept (s : State) (d n : Nat) : Prop :=
  (s.inRun = true ∧ s.regN .DLK_CTL d &&& 0xF7FF ≠ n &&& 0xF7FF) ∨ 191 < bits 9 2 n ∨
    (bit 1 n = true ∧ s.dlkBound d (bits 9 2 n) = true)

/-- CTL given the bits of a write that it holds. -/
def ctlPut (s : State) (d n : Nat) : State := s.setRegN .DLK_CTL d (n &&& 0x1F7FF)

theorem dlkSt_ctlPut (hd : d < 65536) (n : Nat) : (ctlPut s d n).dlkSt d = s.dlkSt d := fld_setRegN_ne _ (by decide) hd hd

theorem dlkCtl_kept {n : Nat} (h : CtlKept s d n) : s.dlkCtl d n = s.setFld F.DLK_STAT_WERR d 1 := by
  unfold State.dlkCtl
  dsimp only
  rcases h with ⟨hr, hne⟩ | h
  · rw [if_pos (by simp [hr, hne])]
  · rw [if_pos h]
    exact ite_self _

section
variable {n : Nat} (h : ¬ CtlKept s d n)
include h

theorem dlkCtl_taken : s.dlkCtl d n =
    if !bit 0 n then (if bit 0 (s.regN .DLK_CTL d) then (ctlPut s d n).dlkGo d 0 else ctlPut s d n)
    else if !bit 0 (s.regN .DLK_CTL d) then (ctlPut s d n).dlkTrain d
    else if bit 11 n && (ctlPut s d n).dlkSt d != 0 then ((ctlPut s d n).setFld F.DLK_STAT_LCAUSE d 5).dlkTrain d
    else ctlPut s d n := by
  obtain ⟨hrun, hpair⟩ := not_or.mp h
  have hsame : (s.inRun && decide (s.regN .DLK_CTL d &&& 0xF7FF ≠ n &&& 0xF7FF)) = false := by simpa using hrun
  unfold State.dlkCtl
  dsimp only
  rw [hsame, if_neg Bool.false_ne_true, if_neg hpair]
  rfl

theorem dlkCtl_enables (h0 : bit 0 n = true) (hold : bit 0 (s.regN .DLK_CTL d) = false) : s.dlkCtl d n = (ctlPut s d n).dlkTrain d := by
  rw [dlkCtl_taken h, h0, hold]
  rfl

theorem dlkCtl_disables (h0 : bit 0 n = false) (hold : bit 0 (s.regN .DLK_CTL d) = true) : s.dlkCtl d n = (ctlPut s d n).dlkGo d 0 := by
  rw [dlkCtl_taken h, h0, hold]
  rfl

theorem dlkCtl_disabled (h0 : bit 0 n = false) (hold : bit 0 (s.regN .DLK_CTL d) = false) : s.dlkCtl d n = ctlPut s d n := by
  rw [dlkCtl_taken h, h0, hold]
  rfl

theorem dlkCtl_retrains (hd : d < 65536) (h0 : bit 0 n = true) (hold : bit 0 (s.regN .DLK_CTL d) = true) (h11 : bit 11 n = true)
    (hs : s.dlkSt d ≠ 0) : s.dlkCtl d n = ((ctlPut s d n).setFld F.DLK_STAT_LCAUSE d 5).dlkTrain d := by
  rw [dlkCtl_taken h, h0, hold, h11, dlkSt_ctlPut hd, bne_iff_ne.mpr hs]
  rfl

theorem dlkCtl_enabled (hd : d < 65536) (h0 : bit 0 n = true) (hold : bit 0 (s.regN .DLK_CTL d) = true)
    (hno : bit 11 n = false ∨ s.dlkSt d = 0) : s.dlkCtl d n = ctlPut s d n := by
  have hstays : (bit 11 n && s.dlkSt d != 0) = false := by rcases hno with hno | hno <;> simp [hno]
  rw [dlkCtl_taken h, h0, hold, dlkSt_ctlPut hd, hstays]
  rfl

end

theorem writeBy_DLK_CTL {who : Initiator} {d : Fin 64} (h : s.Takes who .DLK_CTL d.val) (v : Nat) :
    s.writeBy who .DLK_CTL d.val v = s.dlkCtl d.val v := by
  have hb : keyBlock (Reg.DLK_CTL.key d.val) = 0x11 := keyBlock_key _ (by omega)
  rw [writeBy_takes h (placed_of_count (n := 64) (by decide +kernel) d.isLt) (by decide)]
  unfold State.regWrite
  rw [hb]
  rfl

/-- A bit of a number is its field of width 1. -/
theorem bit_eq_bits (k n : Nat) : bit k n = decide (bits k k n = 1) := by
  rw [bit_eq_decide, bits, Nat.shiftRight_eq_div_pow, Nat.add_sub_cancel_left, pow_one]

theorem bit_setBits_same (k v n : Nat) : bit k (setBits k 1 v n) = decide (v % 2 = 1) := by
  rw [bit_eq_bits, show bits k k (setBits k 1 v n) = v % 2 ^ 1 from bits_setBits_same v n Nat.one_pos, pow_one]

theorem bit_setBits_below {k lo : Nat} (w v n : Nat) (h : k < lo) : bit k (setBits lo w v n) = bit k n := by
  rw [bit_eq_bits, bits_setBits_below w v n h, ← bit_eq_bits]

/-! Training, and its end (R337, R347). -/

theorem dlkSymbols_trains (ha : s.alive 17 = true) (h : s.dlkSt d = 1) : s.dlkSymbols d = s.modDlk d (fun x => { x with dreq := true }) := by
  simp [State.dlkSymbols, ha, h]

theorem dlkSymbols_retrains (ha : s.alive 17 = true) (h : s.dlkSt d = 4) (hauto : s.flag F.DLK_CTL_AUTO d = true) :
    s.dlkSymbols d = s.dlkTrain d := by
  simp [State.dlkSymbols, ha, h, hauto]

theorem dlkSymbols_none (h : s.dlkSt d = 0 ∨ s.dlkSt d = 2 ∨ s.dlkSt d = 3) : s.dlkSymbols d = s := by
  unfold State.dlkSymbols
  rcases h with h | h | h <;> simp [h]

theorem dlkTrainTimeout_due (h : s.dlkSt d = 1 ∨ s.dlkSt d = 2) :
    s.dlkTrainTimeout d = (s.reach ((s.dlk d).train + 2500000)).dlkLost d 1 := if_pos h

theorem dlkTrainTimeout_none (h : s.dlkSt d = 0 ∨ s.dlkSt d = 3 ∨ s.dlkSt d = 4) : s.dlkTrainTimeout d = s := if_neg (by omega)

theorem dlkRxTimeout_due (h : s.dlkSt d = 2 ∨ s.dlkSt d = 3) :
    s.dlkRxTimeout d = ((s.reach ((s.dlk d).rx + s.rxTo d)).dlkLost d 2).raiseEv 17 3 d := if_pos h

theorem dlkRxTimeout_none (h : s.dlkSt d = 0 ∨ s.dlkSt d = 1 ∨ s.dlkSt d = 4) : s.dlkRxTimeout d = s := if_neg (by omega)

/-! Frames received (R332, R338 to R340, R348). -/

theorem dlkDiscard_off (h : s.dlkSt d = 0) : s.dlkDiscard d = s := if_pos (by simp [h])

theorem dlkStatus_off (h : s.dlkSt d = 0) (tag stat turn t2 : Nat) : s.dlkStatus d tag stat turn t2 = s := if_pos (by simp [h])

theorem dlkDesc_off (h : s.dlkSt d = 0) (v : BitVec 256) : s.dlkDesc d v = s := if_pos (by simp [h])

/-- What the STAT byte of a STATUS frame leaves: PLATE set, or FAULTACT clear. -/
def statusHeard (s : State) (d stat : Nat) : State :=
  let u := s.modDlk d (fun x => { x with rx := s.now })
  let v := if bit 2 stat then u.setFld F.DLK_STAT_PLATE d 1 else u
  if bit 0 stat then v else (v.setFld F.DLK_STAT_FAULTACT d 0).dlkFlint d

/-- What a descriptor leaves in its registers (R356). -/
def descStored (s : State) (d : Nat) (v : BitVec 256) : State :=
  repeatN 8 (fun i t => t.setRegN (descRegs.getD i .DLK_DESCA) d (descField v (4 * i) 4)) (s.modDlk d (fun x => { x with rx := s.now }))

theorem descReg_ne_stat (i : Nat) : Reg.DLK_STAT.ctorIdx ≠ (descRegs.getD i .DLK_DESCA).ctorIdx := by
  have hall : ∀ r ∈ descRegs, Reg.DLK_STAT.ctorIdx ≠ r.ctorIdx := by decide
  by_cases hi : i < descRegs.length
  · rw [List.getD_eq_getElem _ _ hi]
    exact hall _ (List.getElem_mem hi)
  · rw [List.getD_eq_default _ _ (Nat.not_lt.mp hi)]
    decide

theorem dlkSt_descStored (hd : d < 65536) (v : BitVec 256) : (descStored s d v).dlkSt d = s.dlkSt d :=
  repeatN_inv (fun t : State => t.dlkSt d = s.dlkSt d) 8 _ (fun i _ h => (fld_setRegN_ne _ (descReg_ne_stat i) hd hd).trans h) _ rfl

theorem now_descStored (v : BitVec 256) : (descStored s d v).now = s.now := repeatN_inv (fun t : State => t.now = s.now) 8 _ (fun _ _ h => h) _ rfl

theorem quiet_descStored (h : s.Quiet) (d : Nat) (v : BitVec 256) : (descStored s d v).Quiet :=
  quiet_repeatN (fun _ _ ht => quiet_setRegN ht ..) (quiet_modDlk h ..) 8

/-- A fault counted, its source active (R348). -/
def faultCounted (s : State) (d : Nat) : State :=
  ((s.modDlk d (fun x => { x with rx := s.now })).setFld F.DLK_STAT_FAULTACT d 1).bump F.DLK_FCOUNT_COUNT F.DLK_FCOUNT_SAT d

theorem now_faultCounted : (faultCounted s d).now = s.now := by
  unfold faultCounted
  rw [bump_now, setFld_now]
  rfl

/-- The first fault since VALID was cleared recorded, with its instant expanded (R348). -/
def faultRecorded (s : State) (d code chan tick fine : Nat) : State :=
  ((faultCounted s d).setRegN .DLK_FAULT d (code + chan * 2 ^ 8 + 2 ^ 10 + fine * 2 ^ 11)).setPair .DLK_FTIMEL .DLK_FTIMEH d
    (expandFault (faultCounted s d).now tick)

theorem faultRecorded_eq (code chan tick fine : Nat) : faultRecorded s d code chan tick fine =
    ((faultCounted s d).setRegN .DLK_FAULT d (code + chan * 2 ^ 8 + 2 ^ 10 + fine * 2 ^ 11)).setPair .DLK_FTIMEL .DLK_FTIMEH d
      (expandFault s.now tick) := by
  unfold faultRecorded
  rw [now_faultCounted]

/-- What a FAULT frame leaves in a link's registers (R348). -/
def faultLogged (s : State) (d code chan tick fine : Nat) : State :=
  if (faultCounted s d).flag F.DLK_FAULT_VALID d then faultCounted s d else faultRecorded s d code chan tick fine

theorem now_faultLogged (code chan tick fine : Nat) : (faultLogged s d code chan tick fine).now = s.now := by
  unfold faultLogged
  split
  · exact now_faultCounted
  · unfold faultRecorded
    rw [setPair_now, setRegN_now, now_faultCounted]

section
variable (ha : s.alive 17 = true) (hs : s.dlkSt d ≠ 0)
include ha hs

theorem dlkDiscard_counts : s.dlkDiscard d = (s.setFld F.DLK_STAT_FERR d 1).bump F.DLK_COUNT_FERRCNT F.DLK_COUNT_FERRSAT d :=
  if_neg (by simp [ha, hs])

theorem dlkStatus_heard (tag stat turn t2 : Nat) : s.dlkStatus d tag stat turn t2 =
    if tag = 0 then statusHeard s d stat else (statusHeard s d stat).dlkEcho d tag turn t2 := if_neg (by simp [ha, hs])

theorem dlkFaultFrame_heard (code chan tick fine : Nat) :
    s.dlkFaultFrame d code chan tick fine = ((faultLogged s d code chan tick fine).dlkEvent d 0 s.now).dlkFlint d := by
  have h : s.dlkFaultFrame d code chan tick fine =
      ((faultLogged s d code chan tick fine).dlkEvent d 0 (faultLogged s d code chan tick fine).now).dlkFlint d := if_neg (by simp [ha, hs])
  rw [h, now_faultLogged]

theorem dlkDesc_heard (v : BitVec 256) : s.dlkDesc d v =
    let u := descStored s d v
    if u.dlkSt d ≠ 1 then u
    else if u.dlkAccepts d v then (u.modDlk d (fun x => { x with dreq := false, hbLast := u.now / u.hbPer d * u.hbPer d })).dlkGo d 2
    else u.dlkLost d 3 := if_neg (by simp [ha, hs])

end

/-- A fault's instant is the latest one, not after now, with its low 24 bits (R348). -/
theorem expandFault_latest {now_ low : Nat} (hl : low < 2 ^ 24) (hn : 2 ^ 24 ≤ now_) :
    expandFault now_ low ≤ now_ ∧ now_ < expandFault now_ low + 2 ^ 24 ∧ expandFault now_ low % 2 ^ 24 = low := by
  unfold expandFault
  omega

end Sys2Proof.Laws
end

section
/-! SUPPORT. Driver links (R331 to R333, R335, R336, R339 to R341, R344 to R346): echoes, heartbeats, and the frames that a link sends. -/

namespace Sys2Proof.Laws
open Sys2Proof.Machine

variable {s : State} {d : Nat}

/-! Echoes (R339, R340). -/

/-- The HB of a TAG is no longer awaited. -/
def echoTaken (s : State) (d tag : Nat) : State := s.modDlk d (fun x => { x with echo := x.echo.filter (fun y => y.1 != tag) })

/-- The last measurements, with one more. -/
def lastMeas (s : State) (d : Nat) (m : Int) : List Int := (m :: (s.dlk d).meas).take 16

/-- A measurement kept. -/
def echoKept (s : State) (d tag : Nat) (m : Int) : State := (echoTaken s d tag).modDlk d (fun x => { x with meas := lastMeas s d m })

theorem meas_echoKept (tag : Nat) (m : Int) : ((echoKept s d tag m).dlk d).meas = lastMeas s d m := congrArg Dlk.meas (dlk_modDlk _)

/-- The average of measurements put in CABLE.C. -/
def averaged (v : State) (d : Nat) (l : List Int) : State := (v.dlkAverage l).2.setFld F.DLK_CABLE_C d (v.dlkAverage l).1

theorem dlkSt_averaged (hd : d < 65536) (v : State) (l : List Int) : (averaged v d l).dlkSt d = v.dlkSt d :=
  fld_setFld_clear _ (by decide) hd hd

/-- What a link makes of its measurements: nothing before there are 16. -/
def measured (v : State) (d : Nat) : State :=
  let l := (v.dlk d).meas
  let c := (v.dlkAverage l).1
  let w := averaged v d l
  if l.length < 16 then v
  else if w.dlkSt d = 2 then (if 20480 < c then w.dlkLost d 4 else w.dlkUp d)
  else if w.dlkSt d = 3 ∧ w.fld F.DLK_CABLE_LEAD d < leadFor c then (w.setFld F.DLK_STAT_DRIFT d 1).raiseEv 17 3 d
  else w

section
variable {v : State} {l : List Int} (hm : (v.dlk d).meas = l)
include hm

theorem measured_few (hl : l.length < 16) : measured v d = v := if_pos (hm ▸ hl)

section
variable (hd : d < 65536) (hl : l.length = 16)
include hd hl

theorem measured_measuring (hs : v.dlkSt d = 2) :
    measured v d = if 20480 < (v.dlkAverage l).1 then (averaged v d l).dlkLost d 4 else (averaged v d l).dlkUp d := by
  subst hm
  exact (if_neg (by omega)).trans (if_pos ((dlkSt_averaged hd ..).trans hs))

theorem measured_drifts (hs : v.dlkSt d = 3) (hlead : (averaged v d l).fld F.DLK_CABLE_LEAD d < leadFor (v.dlkAverage l).1) :
    measured v d = ((averaged v d l).setFld F.DLK_STAT_DRIFT d 1).raiseEv 17 3 d := by
  subst hm
  have hst : (averaged v d (v.dlk d).meas).dlkSt d = 3 := (dlkSt_averaged hd ..).trans hs
  exact (if_neg (by omega)).trans ((if_neg (by omega)).trans (if_pos ⟨hst, hlead⟩))

end
end

section
variable {tag t1 turn t2 : Nat} (h : (s.dlk d).echo.find? (fun y => y.1 == tag) = some (tag, t1))
include h

theorem dlkEcho_late (ht : t1 + 160000 < t2) : s.dlkEcho d tag turn t2 = echoTaken s d tag := by
  unfold State.dlkEcho
  rw [h]
  exact if_pos ht

theorem dlkEcho_timely (ht : t2 ≤ t1 + 160000) :
    s.dlkEcho d tag turn t2 = measured (echoKept s d tag ((t2 : Int) - t1 - turn)) d := by
  have hkept : (echoTaken s d tag).modDlk d (fun x => { x with meas := (((t2 : Int) - t1 - turn) :: x.meas).take 16 }) =
      echoKept s d tag ((t2 : Int) - t1 - turn) := modDlk_congr (by simp [echoTaken, lastMeas])
  unfold State.dlkEcho
  rw [h, ← hkept]
  exact if_neg (by omega)

end

/-! Heartbeats (R341). -/

/-- The tick of the next multiple of HBPER. -/
def hbTick (s : State) (d : Nat) : Nat := (max (s.dlk d).hbLast (s.now - 1) / s.hbPer d + 1) * s.hbPer d

/-- An HB under way is not complete at a tick. -/
def hbUnder (x : Dlk) (t : Nat) : Bool :=
  match x.tx with
  | some f => f.kind == 5 && decide (t < f.stop)
  | none => false

theorem hbUnder_iff {x : Dlk} {t : Nat} : hbUnder x t = true ↔ ∃ f, x.tx = some f ∧ f.kind = 5 ∧ t < f.stop := by
  unfold hbUnder
  cases x.tx <;> simp

/-- An HB made ready, after the cut of one under way. -/
def hbMade (s : State) (d : Nat) (under : Bool) : State :=
  (s.reach (hbTick s d)).modDlk d (fun x =>
    { (if under then x.cut (hbTick s d) else x) with hb := some (hbTick s d), hbLast := hbTick s d, tag := x.tag })

/-- An HB dropped. -/
def hbDropped (y : State) (d : Nat) : State :=
  ((y.setFld F.DLK_STAT_HBDROP d 1).bump F.DLK_COUNT_HBDCNT F.DLK_COUNT_HBDSAT d).raiseEv 17 3 d

theorem dlkHbReady_off (h : s.dlkSt d < 2) : s.dlkHbReady d = s := if_pos (by simp [h])

section
variable (ha : s.alive 17 = true)
include ha

theorem dlkHbReady_lost (h : s.dlkSt d = 4) : s.dlkHbReady d =
    (s.reach (hbTick s d)).modDlk d (fun x => { x with hbLast := hbTick s d, trips := x.trips ++ [(true, hbTick s d)] }) :=
  (if_neg (by simp [ha, h])).trans (if_pos h)

theorem dlkHbReady_sending (h : s.dlkSt d = 2 ∨ s.dlkSt d = 3) : s.dlkHbReady d =
    if (s.dlk d).hb.isSome || hbUnder (s.dlk d) (hbTick s d) then hbDropped (hbMade s d (hbUnder (s.dlk d) (hbTick s d))) d
    else hbMade s d (hbUnder (s.dlk d) (hbTick s d)) :=
  (if_neg (by simp only [ha]; rcases h with h | h <;> simp [h])).trans (if_neg (by omega))

end

/-! Frames sent (R331 to R333, R335, R336). -/

theorem dlk_dlkSend (s : State) (d kind t ready arg : Nat) (fields : List Byte) (flags : Nat) :
    (s.dlkSend d kind t ready arg fields flags).dlk d = { (s.dlk d).cut t with
      tx := some ⟨kind, t + 5 * frameSymbols kind, ready, arg⟩, wire := frameBytes (BitVec.ofNat 8 (16 * kind + flags) :: fields) } :=
  dlk_modDlk _

/-- Between frames a link sends K28.5 at even boundaries and D16.2 at odd ones. -/
theorem dlkSymbol_idle (ha : s.alive 17 = true) (hs : s.dlkSt d ≠ 0) (hx : (s.dlk d).tx = none) (t : Nat) :
    s.dlkSymbol d t = some (if t / 5 % 2 = 0 then .k 0xBC else .d 0x50) := by
  unfold State.dlkSymbol
  rw [hx]
  exact if_neg (by simp [ha, hs])

/-- A frame takes an edge, and only the edges of each output after the last one taken stay pending. -/
theorem mem_pend_take {x : Dlk} {e f : LinkEdge} :
    f ∈ (x.take e).pend ↔ f ∈ x.pend ∧ (if f.key % 2 = 1 then (x.take e).sentB else (x.take e).sent) < f.key := by
  have hpend : (x.take e).pend = x.pend.filter (x.take e).unsent := by
    unfold Dlk.take
    dsimp only
    split <;> rfl
  rw [hpend, List.mem_filter]
  unfold Dlk.unsent
  rw [decide_eq_true_iff, bit_eq_decide, pow_zero, Nat.div_one]
  simp only [decide_eq_true_eq]

theorem sent_take_A {x : Dlk} {e : LinkEdge} (h : e.key % 2 = 0) : (x.take e).sent = e.key ∧ (x.take e).sentB = x.sentB := by
  have hbit : bit 0 e.key = false := by simp [bit_eq_decide, h]
  unfold Dlk.take
  rw [hbit]
  exact ⟨rfl, rfl⟩

theorem sent_take_B {x : Dlk} {e : LinkEdge} (h : e.key % 2 = 1) : (x.take e).sentB = e.key ∧ (x.take e).sent = x.sent := by
  have hbit : bit 0 e.key = true := by simp [bit_eq_decide, h]
  unfold Dlk.take
  rw [hbit]
  exact ⟨rfl, rfl⟩

theorem dlkSafe_linked {n : Nat} (h : s.epLink n = some d) (at_ : Nat) (trip : Bool) :
    (s.dlkSafe n at_ trip).dlk d =
      let x := (s.dlk d).cut (symbolBoundary (at_ / 128))
      { x.sweep at_ with
        trips := x.trips ++ [(trip, at_ / 128)]
        flush := if trip then x.flush.filter (fun f => f.2 / 128 != at_ / 128) else x.flush } := by
  unfold State.dlkSafe
  rw [h]
  exact dlk_modDlk _

/-! Which frame departs (R335, R336, R344 to R346). -/

theorem dlkEdgeFrame_none (h : s.nextEdgeFrame d = none ∨ s.dlkSt d ≠ 3) : s.dlkEdgeFrame d = s := by
  unfold State.dlkEdgeFrame
  rcases h with h | h
  · rw [h]
    exact ite_self _
  · exact if_pos (by simp [h])

/-- The last edge of an EDGE frame. -/
def frameLast (e : LinkEdge) (second : Option LinkEdge) : LinkEdge :=
  match second with | some f => f | none => e

/-- An EDGE frame sent, and its edges taken (R335, R344). -/
def edgeSent (s : State) (d t : Nat) (e : LinkEdge) (second : Option LinkEdge) : State :=
  let inst := e.key / 2
  let gap := match second with | some f => f.key / 2 - inst | none => 0
  let flags := (e.key % 2) * 8 + b2n e.lvl * 4 + b2n second.isSome * 2 + (match second with | some f => f.key % 2 | none => 0)
  let lvl2 := match second with | some f => b2n f.lvl | none => 0
  (s.dlkSend d 1 t (e.ready + 2) 0 (leBytes 2 (inst / 128) ++ leBytes 1 (inst % 128) ++ leBytes 3 (gap + lvl2 * 2 ^ 20)) flags).modDlk d
    (fun x => { (x.take e).take (frameLast e second) with
      flight := ((frameLast e second).key / 2) :: x.flight.filter (fun i => decide (128 * t < i)) })

/-- A late edge marked, counted and reported (R344). -/
def edgeLate (v : State) (d t : Nat) : State :=
  ((v.setFld F.DLK_STAT_LATE d 1).bump F.DLK_COUNT_LATECNT F.DLK_COUNT_LATESAT d).dlkEvent d 3 t

theorem quiet_edgeSent (h : s.Quiet) (d t : Nat) (e : LinkEdge) (second : Option LinkEdge) : (edgeSent s d t e second).Quiet :=
  quiet_modDlk (quiet_dlkSend h ..) ..

section
variable {t : Nat} {e : LinkEdge} {second : Option LinkEdge} (hn : s.nextEdgeFrame d = some (t, e, second))
include hn

theorem dlkEdgeFrame_urgent (hu : s.dlkUrgent d t = true) : s.dlkEdgeFrame d = s := by
  unfold State.dlkEdgeFrame
  rw [hn]
  dsimp only
  rw [if_pos hu, ite_self]

theorem dlkEdgeFrame_sends (ha : s.alive 17 = true) (hs : s.dlkSt d = 3) (hu : s.dlkUrgent d t = false) :
    let v := edgeSent s d t e second
    s.dlkEdgeFrame d =
      if e.key / 2 < (t + 64) * 128 + v.fld F.DLK_CABLE_C d then
        (if (edgeLate v d t).flag F.DLK_CTL_LATESAFE d then (edgeLate v d t).raiseEv 17 3 d else edgeLate v d t)
      else v := by
  unfold State.dlkEdgeFrame
  rw [if_neg (by simp [ha, hs]), hn]
  exact if_neg (by simp [hu])

end

theorem dlkFlushFrame_none (h : (s.dlk d).flush = [] ∨ s.dlkSt d ≠ 3) : s.dlkFlushFrame d = s := by
  unfold State.dlkFlushFrame
  rcases h with h | h
  · rw [h]
  · cases (s.dlk d).flush with
    | nil => rfl
    | cons f rest => exact if_pos (by simp [h])

section
variable {lv r : Nat} {rest : List (Nat × Nat)} (hf : (s.dlk d).flush = (lv, r) :: rest)
include hf

theorem dlkFlushFrame_waits (ht : (s.dlk d).trips.any (fun y => decide (y.2 ≤ s.dlkSlot d 2 (r / 128))) = true) :
    s.dlkFlushFrame d = s := by
  unfold State.dlkFlushFrame
  rw [hf]
  exact if_pos (by rw [ht, Bool.or_true])

theorem dlkFlushFrame_sends (ha : s.alive 17 = true) (hs : s.dlkSt d = 3)
    (ht : (s.dlk d).trips.any (fun y => decide (y.2 ≤ s.dlkSlot d 2 (r / 128))) = false) :
    s.dlkFlushFrame d =
      (s.dlkSend d 2 (s.dlkSlot d 2 (r / 128)) r lv (leBytes 1 lv) 0).modDlk d (fun x => { x with flush := rest, flight := [] }) := by
  unfold State.dlkFlushFrame
  rw [hf]
  exact if_neg (by rw [ht, ha, hs]; decide)

end

theorem dlkTripFrame_none (h : (s.dlk d).trips = []) (trip : Bool) : s.dlkTripFrame d trip = s := by
  unfold State.dlkTripFrame
  rw [h]

section
variable {k : Bool} {r : Nat} {rest : List (Bool × Nat)} (h : (s.dlk d).trips = (k, r) :: rest)
include h

theorem dlkTripFrame_other {trip : Bool} (hk : k ≠ trip) : s.dlkTripFrame d trip = s := by
  unfold State.dlkTripFrame
  rw [h]
  exact if_pos (by simp [hk])

theorem dlkTripFrame_sends (ha : s.alive 17 = true) (hs : 3 ≤ s.dlkSt d) : s.dlkTripFrame d k =
    (s.dlkSend d (if k then 3 else 4) (s.dlkSlot d 3 r) r 0 [] 0).modDlk d (fun x => { x with trips := rest, flight := [] }) := by
  unfold State.dlkTripFrame
  rw [h]
  exact if_neg (by simp [ha, hs])

end

theorem dlkHbFrame_none (h : (s.dlk d).hb = none) : s.dlkHbFrame d = s := by
  unfold State.dlkHbFrame
  rw [h]

section
variable {r : Nat} (h : (s.dlk d).hb = some r)
include h

theorem dlkHbFrame_waits (hw : s.dlkUrgent d (s.dlkSlot d 5 r) = true ∨ s.dlkEdgeDue d (s.dlkSlot d 5 r) = true) : s.dlkHbFrame d = s := by
  unfold State.dlkHbFrame
  rw [h]
  exact if_pos (by rcases hw with hw | hw <;> simp [hw])

/-- An HB sent, and its echo awaited (R333, R339). -/
theorem dlkHbFrame_sends (ha : s.alive 17 = true) (hs : s.dlkSt d = 2 ∨ s.dlkSt d = 3)
    (hu : s.dlkUrgent d (s.dlkSlot d 5 r) = false) (he : s.dlkEdgeDue d (s.dlkSlot d 5 r) = false) :
    let t := s.dlkSlot d 5 r
    let tag := (s.dlk d).tag % 255 + 1
    let fields := leBytes 1 tag ++ leBytes 8 t ++ leBytes 2 (s.fld F.DLK_CABLE_C d) ++ leBytes 2 (s.hbPer d)
    s.dlkHbFrame d = (s.dlkSend d 5 t r tag fields 0).modDlk d (fun x =>
      { x with hb := none, tag := tag, echo := (tag, (t + 85) * 128) :: x.echo.filter (fun y => y.1 != tag) }) := by
  unfold State.dlkHbFrame
  rw [h]
  exact if_neg (by rcases hs with hs | hs <;> simp [ha, hs, hu, he])

end

theorem dlkDreqFrame_none (h : s.dlkSt d ≠ 1 ∨ (s.dlk d).dreq = false) : s.dlkDreqFrame d = s :=
  if_pos (by rcases h with h | h <;> simp [h])

theorem dlkDreqFrame_sends (ha : s.alive 17 = true) (hs : s.dlkSt d = 1) (h : (s.dlk d).dreq = true) : s.dlkDreqFrame d =
    (s.dlkSend d 6 (s.dlkSlot d 6 s.now) s.now 0 [] 0).modDlk d (fun x => { x with dreq := false }) := if_neg (by simp [ha, hs, h])

end Sys2Proof.Laws
end

section
/-! PROOF. Driver links (R18, R331, R332, R336 to R341, R344, R345, R347, R348). -/

namespace Sys2Proof.Proofs
open Sys2Proof.Machine Sys2Proof.Laws

variable {s : State} {d : Fin 64}

theorem link_inst (d : Fin 64) : d.val < 65536 := by omega

/-- LINK_ENABLE, LINK_DISABLE and RETRAIN are writes of CTL with EN set or clear, and for RETRAIN with that bit set too (R337). -/
theorem linkCtlWrites {who : Initiator} (ht : s.Takes who .DLK_CTL d.val) (v : Word) :
    exec (.linkEnable who d v) s = (s.dlkCtl d.val (setBits 0 1 1 v.toNat)).ends ∧
    exec (.linkDisable who d v) s = (s.dlkCtl d.val (setBits 0 1 0 v.toNat)).ends ∧
    exec (.retrain who d v) s = (s.dlkCtl d.val (setBits 11 1 1 (setBits 0 1 1 v.toNat))).ends :=
  ⟨congrArg State.ends (writeBy_DLK_CTL ht _), congrArg State.ends (writeBy_DLK_CTL ht _), congrArg State.ends (writeBy_DLK_CTL ht _)⟩

/-! Frames received (R338 to R340, R348). -/

theorem statusHeard_echo (ha : s.alive 17 = true) (hs : s.dlkSt d.val ≠ 0) (tag stat : BitVec 8) (turn : BitVec 16) (t2 : Nat) :
    (tag = 0 → exec (.status d tag stat turn t2) s = (statusHeard s d.val stat.toNat).ends) ∧
    (tag ≠ 0 → exec (.status d tag stat turn t2) s = ((statusHeard s d.val stat.toNat).dlkEcho d.val tag.toNat turn.toNat t2).ends) := by
  have hheard := dlkStatus_heard ha hs tag.toNat stat.toNat turn.toNat t2
  refine ⟨fun h => congrArg State.ends (hheard.trans (if_pos (congrArg BitVec.toNat h))), fun h => ?_⟩
  exact congrArg State.ends (hheard.trans (if_neg fun h0 => h (BitVec.eq_of_toNat_eq h0)))

theorem echo_measured (d : Fin 64) {tag t1 turn t2 : Nat} (hf : (s.dlk d.val).echo.find? (fun y => y.1 == tag) = some (tag, t1)) :
    let l := lastMeas s d.val ((t2 : Int) - t1 - turn)
    let v := echoKept s d.val tag ((t2 : Int) - t1 - turn)
    let c := (v.dlkAverage l).1
    let w := averaged v d.val l
    (t1 + 160000 < t2 → s.dlkEcho d.val tag turn t2 = echoTaken s d.val tag) ∧
    (t2 ≤ t1 + 160000 → l.length < 16 → s.dlkEcho d.val tag turn t2 = v) ∧
    (t2 ≤ t1 + 160000 → l.length = 16 → s.dlkSt d.val = 2 → 20480 < c → s.dlkEcho d.val tag turn t2 = w.dlkLost d.val 4) ∧
    (t2 ≤ t1 + 160000 → l.length = 16 → s.dlkSt d.val = 2 → c ≤ 20480 → s.dlkEcho d.val tag turn t2 = w.dlkUp d.val) ∧
    (t2 ≤ t1 + 160000 → l.length = 16 → s.dlkSt d.val = 3 → w.fld F.DLK_CABLE_LEAD d.val < leadFor c →
      s.dlkEcho d.val tag turn t2 = (w.setFld F.DLK_STAT_DRIFT d.val 1).raiseEv 17 3 d.val) := by
  intro l v c w
  have hd := link_inst d
  have hm : (v.dlk d.val).meas = l := meas_echoKept tag _
  exact ⟨dlkEcho_late hf, fun ht hl => (dlkEcho_timely hf ht).trans (measured_few hm hl),
    fun ht hl hs hc => (dlkEcho_timely hf ht).trans ((measured_measuring hm hd hl hs).trans (if_pos hc)),
    fun ht hl hs hc => (dlkEcho_timely hf ht).trans ((measured_measuring hm hd hl hs).trans (if_neg (Nat.not_lt.mpr hc))),
    fun ht hl hs hlead => (dlkEcho_timely hf ht).trans (measured_drifts hm hd hl hs hlead)⟩

theorem faultHeard (ha : s.alive 17 = true) (hs : s.dlkSt d.val ≠ 0) (code : BitVec 6) (chan : BitVec 2) (tick : BitVec 24) (fine : BitVec 7) :
    let u := faultCounted s d.val
    let v := faultRecorded s d.val code.toNat chan.toNat tick.toNat fine.toNat
    (u.flag F.DLK_FAULT_VALID d.val = false →
      exec (.fault d code chan tick fine) s = ((v.dlkEvent d.val 0 s.now).dlkFlint d.val).ends) ∧
    (u.flag F.DLK_FAULT_VALID d.val = true →
      exec (.fault d code chan tick fine) s = ((u.dlkEvent d.val 0 s.now).dlkFlint d.val).ends) := by
  intro u v
  have hexec : exec (.fault d code chan tick fine) s =
      (((if u.flag F.DLK_FAULT_VALID d.val then u else v).dlkEvent d.val 0 s.now).dlkFlint d.val).ends :=
    congrArg State.ends (dlkFaultFrame_heard ha hs ..)
  refine ⟨fun h => ?_, fun h => ?_⟩
  · rw [hexec, if_neg (by simp [h])]
  · rw [hexec, if_pos h]

theorem descHeard (hq : s.Quiet) (ha : s.alive 17 = true) (v : BitVec 256) :
    let u := descStored s d.val v
    (s.dlkSt d.val = 0 → exec (.desc d v) s = .next s) ∧
    (s.dlkSt d.val ≠ 0 → s.dlkSt d.val ≠ 1 → exec (.desc d v) s = .next u) ∧
    (s.dlkSt d.val = 1 → u.dlkAccepts d.val v = true → exec (.desc d v) s =
      ((u.modDlk d.val (fun x => { x with dreq := false, hbLast := s.now / u.hbPer d.val * u.hbPer d.val })).dlkGo d.val 2).ends) ∧
    (s.dlkSt d.val = 1 → u.dlkAccepts d.val v = false → exec (.desc d v) s = (u.dlkLost d.val 3).ends) := by
  intro u
  have hst : u.dlkSt d.val = s.dlkSt d.val := dlkSt_descStored (link_inst d) v
  have hnow : u.now = s.now := now_descStored v
  have htrain (h : s.dlkSt d.val = 1) : s.dlkDesc d.val v =
      if u.dlkAccepts d.val v then (u.modDlk d.val (fun x => { x with dreq := false, hbLast := s.now / u.hbPer d.val * u.hbPer d.val })).dlkGo
        d.val 2 else u.dlkLost d.val 3 := by
    rw [← hnow]
    exact (dlkDesc_heard ha (by omega) v).trans (if_neg (not_not_intro (hst.trans h)))
  refine ⟨fun h => ends_of_eq (dlkDesc_off h v) hq, fun h0 h1 => ?_, fun h hacc => ?_, fun h hacc => ?_⟩
  · exact ends_of_eq ((dlkDesc_heard ha h0 v).trans (if_pos (hst.trans_ne h1))) (quiet_descStored hq d.val v)
  · exact congrArg State.ends ((htrain h).trans (if_pos hacc))
  · exact congrArg State.ends ((htrain h).trans (if_neg (by simp [hacc])))

/-! Heartbeats (R341). -/

theorem heartbeatReady (hq : s.Quiet) (ha : s.alive 17 = true) :
    let x := s.dlk d.val
    let t := hbTick s d.val
    (s.dlkSt d.val < 2 → exec (.hbReady d) s = .next s) ∧
    (s.dlkSt d.val = 4 → exec (.hbReady d) s =
      .next ((s.reach t).modDlk d.val (fun x => { x with hbLast := t, trips := x.trips ++ [(true, t)] }))) ∧
    (s.dlkSt d.val = 2 ∨ s.dlkSt d.val = 3 → hbUnder x t = false → x.hb = none → exec (.hbReady d) s = .next (hbMade s d.val false)) ∧
    (s.dlkSt d.val = 2 ∨ s.dlkSt d.val = 3 → hbUnder x t = false → x.hb ≠ none →
      exec (.hbReady d) s = (hbDropped (hbMade s d.val false) d.val).ends) ∧
    (s.dlkSt d.val = 2 ∨ s.dlkSt d.val = 3 → hbUnder x t = true → exec (.hbReady d) s = (hbDropped (hbMade s d.val true) d.val).ends) := by
  intro x t
  refine ⟨fun h => ends_of_eq (dlkHbReady_off h) hq, fun h => ends_of_eq (dlkHbReady_lost ha h) hq, fun h hu hb => ?_, fun h hu hb => ?_,
    fun h hu => ?_⟩
  · refine ends_of_eq ((dlkHbReady_sending ha h).trans ?_) (quiet_modDlk (quiet_reach hq _) ..)
    rw [hu, hb]
    rfl
  · refine congrArg State.ends ((dlkHbReady_sending ha h).trans ?_)
    rw [hu]
    exact if_pos (by simpa [Option.isSome_iff_ne_none] using hb)
  · refine congrArg State.ends ((dlkHbReady_sending ha h).trans ?_)
    rw [hu]
    exact if_pos (Bool.or_true _)

/-! Frames sent (R336, R344, R345). -/

theorem edgeFrameSent (hq : s.Quiet) (hk : s.engClock = true) (ha : s.alive 17 = true) (hs : s.dlkSt d.val = 3) {t : Nat} {e : LinkEdge}
    {second : Option LinkEdge} (hn : s.nextEdgeFrame d.val = some (t, e, second)) :
    let v := edgeSent s d.val t e second
    let w := edgeLate v d.val t
    let limit := (t + 64) * 128 + v.fld F.DLK_CABLE_C d.val
    (s.dlkUrgent d.val t = true → exec (.edgeFrame d) s = .next s) ∧
    (s.dlkUrgent d.val t = false → limit ≤ e.key / 2 → exec (.edgeFrame d) s = .next v) ∧
    (s.dlkUrgent d.val t = false → e.key / 2 < limit → w.flag F.DLK_CTL_LATESAFE d.val = false → exec (.edgeFrame d) s = w.ends) ∧
    (s.dlkUrgent d.val t = false → e.key / 2 < limit → w.flag F.DLK_CTL_LATESAFE d.val = true →
      exec (.edgeFrame d) s = (w.raiseEv 17 3 d.val).ends) := by
  intro v w limit
  have hsends := dlkEdgeFrame_sends hn ha hs
  exact ⟨fun hu => clocked_next hk (dlkEdgeFrame_urgent hn hu) hq,
    fun hu hl => clocked_next hk ((hsends hu).trans (if_neg (Nat.not_lt.mpr hl))) (quiet_edgeSent hq d.val t e second),
    fun hu hl hsafe => clocked_ends hk ((hsends hu).trans ((if_pos hl).trans (if_neg (Bool.eq_false_iff.mp hsafe)))),
    fun hu hl hsafe => clocked_ends hk ((hsends hu).trans ((if_pos hl).trans (if_pos hsafe)))⟩

theorem tripFrameSent (hq : s.Quiet) (hk : s.engClock = true) (ha : s.alive 17 = true) (hs : 3 ≤ s.dlkSt d.val) {k : Bool} {r : Nat}
    {rest : List (Bool × Nat)} (hf : (s.dlk d.val).trips = (k, r) :: rest) :
    let sent (kind : Nat) := (s.dlkSend d.val kind (s.dlkSlot d.val 3 r) r 0 [] 0).modDlk d.val (fun x => { x with trips := rest, flight := [] })
    (k = true → exec (.trip d) s = .next (sent 3) ∧ exec (.release d) s = .next s) ∧
    (k = false → exec (.release d) s = .next (sent 4) ∧ exec (.trip d) s = .next s) := by
  intro sent
  have hsends := dlkTripFrame_sends hf ha hs
  refine ⟨?_, ?_⟩
  · rintro rfl
    exact ⟨clocked_next hk hsends hq, clocked_next hk (dlkTripFrame_other hf (by decide)) hq⟩
  · rintro rfl
    exact ⟨clocked_next hk hsends hq, clocked_next hk (dlkTripFrame_other hf (by decide)) hq⟩

/-- Settles O52: each operation of a link comes to what the law for its case says, and what the engine clock times does so while it runs. -/
theorem driverLinks : Obligations.DriverLinks := by
  unfold Obligations.DriverLinks
  intro s hq
  refine ⟨?_, ?_, ?_, ?_, ?_, ?_, ?_, ?_, ?_, ?_, ?_, ?_, ?_, ?_, ?_, ?_, ?_, ?_, ?_, ?_⟩
  · intro who d v old w x y st put kept werr ht
    have hd := link_inst d
    have hw : bit 0 w = true := bit_setBits_same 0 1 _
    have hx : bit 0 x = false := bit_setBits_same 0 0 _
    have hy : bit 0 y = true := (bit_setBits_below 1 1 _ (by decide)).trans hw
    have hy11 : bit 11 y = true := bit_setBits_same 11 1 _
    obtain ⟨henable, hdisable, hretrain⟩ := linkCtlWrites ht v
    rw [henable, hdisable, hretrain]
    exact ⟨fun h => ends_of_eq (dlkCtl_kept h) hq, fun h => ends_of_eq (dlkCtl_kept h) hq, fun h => ends_of_eq (dlkCtl_kept h) hq,
      fun h hold => congrArg State.ends (dlkCtl_enables h hw hold), fun h hold hno => ends_of_eq (dlkCtl_enabled h hd hw hold hno) hq,
      fun h hold => congrArg State.ends (dlkCtl_disables h hx hold), fun h hold => ends_of_eq (dlkCtl_disabled h hx hold) hq,
      fun h hold hst => congrArg State.ends (dlkCtl_retrains h hd hy hold hy11 hst)⟩
  · intro d st t c _
    exact ⟨rfl, dlkGo_eq ..⟩
  · intro d st ha
    exact ⟨fun h => ends_of_eq (dlkSymbols_trains ha h) hq, fun h hauto => congrArg State.ends (dlkSymbols_retrains ha h hauto),
      fun h => ends_of_eq (dlkSymbols_none h) hq, fun h => congrArg State.ends (dlkTrainTimeout_due h),
      fun h => ends_of_eq (dlkTrainTimeout_none h) hq, fun h => congrArg State.ends (dlkRxTimeout_due h),
      fun h => ends_of_eq (dlkRxTimeout_none h) hq⟩
  · intro d tag stat turn t2 st u v w ha hs
    exact statusHeard_echo ha hs tag stat turn t2
  · intro d tag turn t2 t1 x u l v c w st hf
    exact echo_measured d hf
  · intro d code chan tick fine u v ha hs
    have hv : v = faultRecorded s d.val code.toNat chan.toNat tick.toNat fine.toNat := (faultRecorded_eq ..).symm
    rw [hv]
    exact faultHeard ha hs code chan tick fine
  · intro now_ low x hl hn
    exact expandFault_latest hl hn
  · intro d v st u ha
    exact descHeard hq ha v
  · intro d st x t u under v cut drop ha
    obtain ⟨hoff, hlost, hmade, hdrops, hcuts⟩ := heartbeatReady (d := d) hq ha
    exact ⟨hoff, hlost, fun h hu hb => hmade h (Bool.eq_false_iff.mpr (mt hbUnder_iff.mp hu)) hb,
      fun h hu hb => hdrops h (Bool.eq_false_iff.mpr (mt hbUnder_iff.mp hu)) hb, fun h hu => hcuts h (hbUnder_iff.mpr hu)⟩
  · intro d t e second inst gap last flags lvl2 u v w limit hk ha hs hn
    exact edgeFrameSent hq hk ha hs hn
  · intro d hk
    exact ⟨fun h => clocked_next hk (dlkEdgeFrame_none h) hq, fun h => clocked_next hk (dlkFlushFrame_none h) hq,
      fun h => clocked_next hk (dlkHbFrame_none h) hq,
      fun h => ⟨clocked_next hk (dlkTripFrame_none h true) hq, clocked_next hk (dlkTripFrame_none h false) hq⟩⟩
  · intro d kind t ready arg flags fields x
    exact ⟨dlk_dlkSend .., by decide⟩
  · intro d t ha hs hx
    rw [dlkSymbol_idle ha hs hx]
    exact ⟨fun h => by rw [if_pos (by omega)], fun h => by rw [if_neg (by omega)]⟩
  · intro n at_ d trip x hl
    exact dlkSafe_linked hl at_ trip
  · intro x e y
    exact ⟨sent_take_A, sent_take_B, fun f => mem_pend_take⟩
  · intro d lv r rest t hk hf ha hs
    exact ⟨fun ht => clocked_next hk (dlkFlushFrame_sends hf ha hs ht) hq, fun ht => clocked_next hk (dlkFlushFrame_waits hf ht) hq⟩
  · intro d r k rest t hk hf ha hs
    exact tripFrameSent hq hk ha hs hf
  · intro d r t tag fields hk hr ha hs
    exact ⟨fun hu he => clocked_next hk (dlkHbFrame_sends hr ha hs hu he) hq, fun hw => clocked_next hk (dlkHbFrame_waits hr hw) hq⟩
  · intro d t ha
    exact ⟨fun hs h => ends_of_eq (dlkDreqFrame_sends ha hs h) hq, fun h => ends_of_eq (dlkDreqFrame_none h) hq,
      fun hs => ends_of_eq (dlkDiscard_counts ha hs) (quiet_bump (quiet_setFld hq ..) ..),
      fun hs => ⟨ends_of_eq (dlkDiscard_off hs) hq, fun tag stat turn t2 => ends_of_eq (dlkStatus_off hs ..) hq⟩⟩
  · intro hk
    have stands (t : State) : (.next (s.clocked t).finish : Host.Outcome State Fault Refusal) = .next s :=
      congrArg Host.Outcome.next (finish_idle hk hq t)
    exact ⟨fun _ => stands _, fun _ => stands _, fun _ => stands _, fun _ => stands _, fun _ => stands _⟩

end Sys2Proof.Proofs
end

section
/-! SUPPORT. Words that a supervisor core writes in shared SRAM and in TCMs (R40, R375, R432, R442, R579). -/

namespace Sys2Proof.Laws
open Sys2Proof.Machine

variable {s t u : State} {a b v : Nat}

/-! A word of a core's RAM written. -/

/-- A 64-bit word stored with good check bits, as every supervisor port stores it (R40, R432, R442). -/
def wordPut (s : State) (a v : Nat) : State := (((s.setTag a false).poke a 8 v).setChk a .valid).inject a

theorem coreRam_isSram (h : isCoreRam a = true) : isSram a = true := by
  rw [isSram, h, Bool.true_or, Bool.true_or]

/-- A core's RAM keeps no history, holds no instructions of an engine and no routes. -/
theorem writeMask_coreRam (h : isCoreRam a = true) (v init : Nat) : s.writeMask a 255 v init = wordPut s a v := by
  obtain ⟨hlow, hhigh⟩ := coreRam_range h
  have hsq : ¬ sqSpace ≤ a := by unfold sqSpace; omega
  have hport : s.portMask s.now a 255 = 255 := by rw [State.portMask, coreRam_untimed h]; rfl
  have hfetch : s.holdFetch s.now a 255 = s := by
    unfold State.holdFetch
    simp only [hsq, decide_false, Bool.false_and, Bool.false_eq_true, if_false]
  have hroute : routeBits a v = v := by
    unfold routeBits
    simp only [hsq, decide_false, Bool.false_and, Bool.false_eq_true, if_false]
  have hput : s.putMask a 255 v init = ((s.setTag a false).poke a 8 v).setChk a .valid := by
    rw [putMask_full (coreRam_isSram h), poke_eq_pokeMask]
  unfold State.writeMask State.writeMaskAt
  simp only [Option.isSome_none, Bool.false_eq_true, if_false, hport, hfetch, hroute, hput]
  rw [if_neg (by decide), State.remember, coreRam_untimed h]
  rfl

/-- What a supervisor core writes in its RAM leaves everything but memory with its tags and check states, and, of an armed injection,
registers (R442). -/
structure RamOnly (s t : State) : Prop where
  sup : t.sup = s.sup
  raised : t.raised = s.raised
  notes : t.notes = s.notes
  regs : s.flag F.MEM_INJ_ARM 0 = false → t.regs = s.regs

theorem RamOnly.refl (s : State) : RamOnly s s := ⟨rfl, rfl, rfl, fun _ => rfl⟩

theorem flag_of_regs (h : t.regs = s.regs) (f : Fld) (i : Nat) : t.flag f i = s.flag f i := by
  simp only [State.flag, State.fld, State.regN, State.reg, h]

theorem RamOnly.trans (h : RamOnly s t) (h' : RamOnly t u) : RamOnly s u where
  sup := h'.sup.trans h.sup
  raised := h'.raised.trans h.raised
  notes := h'.notes.trans h.notes
  regs hi := (h'.regs ((flag_of_regs (h.regs hi) _ _).trans hi)).trans (h.regs hi)

theorem RamOnly.core (h : RamOnly s t) (k : Nat) : t.core k = s.core k := congrArg (fun x => Tab.look _ x k) h.sup

theorem RamOnly.quiet (h : RamOnly s t) (hq : s.Quiet) : t.Quiet := quiet_of_eq hq h.raised h.notes

/-- An armed injection strikes registers and check states alone; one that is not armed strikes nothing (R442). -/
theorem inject_writes (s : State) (a : Nat) : ∃ regs chk, s.inject a = { s with regs := regs, chk := chk } ∧
    (s.flag F.MEM_INJ_ARM 0 = false → regs = s.regs ∧ chk = s.chk) := by
  unfold State.inject
  extract_lets mode u
  split
  next => exact ⟨_, _, rfl, fun _ => ⟨rfl, rfl⟩⟩
  next harm =>
    have hno : s.flag F.MEM_INJ_ARM 0 ≠ false := fun hf => harm (by rw [hf]; simp)
    split
    · exact ⟨_, _, rfl, fun hf => absurd hf hno⟩
    · split
      · exact ⟨_, _, rfl, fun hf => absurd hf hno⟩
      · split
        · exact ⟨_, _, rfl, fun hf => absurd hf hno⟩
        · exact ⟨_, _, rfl, fun hf => absurd hf hno⟩

/-- A word put changes memory, tags and check states, and, of an armed injection, registers. -/
theorem wordPut_writes (s : State) (a v : Nat) : ∃ regs chk, wordPut s a v =
      { s with regs := regs, chk := chk, mem := ((s.setTag a false).poke a 8 v).mem, tags := (s.setTag a false).tags } ∧
    (s.flag F.MEM_INJ_ARM 0 = false → regs = s.regs ∧ chk = (s.setChk a .valid).chk) := by
  obtain ⟨mem, hmem⟩ := setBytes_mem (leBytes 8 v) (s.setTag a false) a
  obtain ⟨regs, chk, h, hidle⟩ := inject_writes (((s.setTag a false).poke a 8 v).setChk a .valid) a
  rw [wordPut, h]
  rw [show (s.setTag a false).poke a 8 v = _ from hmem] at hidle ⊢
  exact ⟨regs, chk, rfl, hidle⟩

theorem ramOnly_wordPut (s : State) (a v : Nat) : RamOnly s (wordPut s a v) := by
  obtain ⟨regs, chk, h, hidle⟩ := wordPut_writes s a v
  rw [h]
  exact ⟨rfl, rfl, rfl, fun hf => (hidle hf).1⟩

theorem ramOnly_setTag (s : State) (a : Nat) (b : Bool) : RamOnly s (s.setTag a b) := ⟨rfl, rfl, rfl, fun _ => rfl⟩

theorem peek_wordPut_same (s : State) (a v : Nat) : (wordPut s a v).peek a 8 = v % 2 ^ 64 := by
  obtain ⟨regs, chk, h, -⟩ := wordPut_writes s a v
  rw [h]
  exact peek_poke_same (s.setTag a false) a 8 v

theorem byte_wordPut_apart (v : Nat) (h : b < a ∨ a + 8 ≤ b) : (wordPut s a v).byte b = s.byte b := by
  obtain ⟨regs, chk, he, -⟩ := wordPut_writes s a v
  rw [he]
  rcases h with h | h
  · exact byte_setBytes_below _ (s.setTag a false) h
  · exact byte_setBytes_above _ (s.setTag a false) (by rw [length_leBytes]; exact h)

/-- A number of bytes is the same where each byte is. -/
theorem peek_congr {n : Nat} (h : ∀ j < n, t.byte (b + j) = s.byte (b + j)) : t.peek b n = s.peek b n :=
  congrArg ofLeBytes (List.map_congr_left fun j hj => h j (List.mem_range.mp hj))

theorem peek_wordPut_apart {n : Nat} (v : Nat) (h : b + n ≤ a ∨ a + 8 ≤ b) : (wordPut s a v).peek b n = s.peek b n :=
  peek_congr fun j hj => byte_wordPut_apart v (by omega)

theorem tagAt_wordPut_apart (v : Nat) (h : b / 16 ≠ a / 16) : (wordPut s a v).tagAt b = s.tagAt b := by
  obtain ⟨regs, chk, he, -⟩ := wordPut_writes s a v
  rw [he]
  exact Tab_look_put_ne (fun _ => false) s.tags false h

theorem tagAt_setTag_apart (c : Bool) (h : b / 16 ≠ a / 16) : (s.setTag a c).tagAt b = s.tagAt b := Tab_look_put_ne _ _ _ h

/-- The low bytes of a number, then the rest of it. -/
theorem peek_add (s : State) (a m n : Nat) : s.peek a (m + n) = s.peek a m + 2 ^ (8 * m) * s.peek (a + m) n := by
  induction m generalizing a with
  | zero => simp [State.peek, State.bytes, ofLeBytes]
  | succ m ih =>
    have hcons (k : Nat) : s.peek a (k + 1) = (s.byte a).toNat + 256 * s.peek (a + 1) k := by
      simp [State.peek, State.bytes, List.range_succ_eq_map, ofLeBytes, Function.comp_def, Nat.add_right_comm, Nat.add_assoc]
    rw [Nat.add_right_comm, hcons, hcons, ih, show a + 1 + m = a + (m + 1) by omega, Nat.mul_succ, Nat.pow_add]
    ring

/-! Rounds. -/

theorem repeatN_congr {σ : Type} {f g : Nat → σ → σ} {n : Nat} (h : ∀ k < n, ∀ x, f k x = g k x) (x : σ) : repeatN n f x = repeatN n g x :=
  List.foldl_ext _ _ x fun y k hk => h k (List.mem_range.mp hk) y

/-- What holds before and through each of n rounds holds after them. -/
theorem repeatN_keeps {σ : Type} {P : σ → Prop} {f : Nat → σ → σ} {n : Nat} (h : ∀ k < n, ∀ x, P x → P (f k x)) {x : σ} (hx : P x) :
    P (repeatN n f x) :=
  List.foldlRecOn (motive := P) (List.range n) _ hx fun y hy k hk => h k (List.mem_range.mp hk) y hy

/-! The places of a TSB (R375). -/

/-- A TSB lies in one memory. -/
theorem tsb_coreRam {i : Nat} (h : isCoreRam a = true) (ha : a % 512 = 0) (hi : i < 512) : isCoreRam (a + i) = true := by
  simp only [isCoreRam, Bool.or_eq_true, Bool.and_eq_true, decide_eq_true_eq] at h ⊢
  omega

/-- The s registers of a core put in the TSB at an address. -/
def tsbRegs (c : Sup) (a : Nat) (s : State) : State := repeatN 32 (fun r s => wordPut s (a + 8 * r) (c.getS r).toNat) s

/-- PC, PST, CAUSE and FADDR put in the TSB at an address, and 0 in its reserved words. -/
def tsbStatus (c : Sup) (a pc cause faddr : Nat) (s : State) : State :=
  let head := wordPut (wordPut (wordPut (wordPut s (a + 0x100) pc) (a + 0x108) c.pst) (a + 0x110) cause) (a + 0x118) faddr
  wordPut (wordPut (wordPut head (a + 0x128) 0) (a + 0x130) 0) (a + 0x138) 0

/-- A capability of a core put in the TSB at an address, with its tag. -/
def tsbCap (c : Sup) (a r : Nat) (s : State) : State :=
  (wordPut (wordPut s (a + (0x140 + 16 * r)) ((c.getC r).val.toNat % 2 ^ 64)) (a + (0x148 + 16 * r)) ((c.getC r).val.toNat / 2 ^ 64)).setTag
    (a + 0x140 + 16 * r) (c.getC r).tag

theorem saveTsb_eq (h : isCoreRam a = true) (ha : a % 512 = 0) (k pc cause faddr : Nat) :
    s.saveTsb k a pc cause faddr = repeatN 8 (tsbCap (s.core k) a) (tsbStatus (s.core k) a pc cause faddr (tsbRegs (s.core k) a s)) := by
  have hput (t : State) (i w : Nat) (hi : i < 512) : t.writeMask (a + i) 255 w 1 = wordPut t (a + i) w :=
    writeMask_coreRam (tsb_coreRam h ha hi) w 1
  have hregs : repeatN 32 (fun r s' => s'.writeMask (a + 8 * r) 255 ((s.core k).getS r).toNat 1) s = tsbRegs (s.core k) a s :=
    repeatN_congr (fun r hr t => hput t _ _ (by omega)) s
  unfold State.saveTsb
  dsimp only
  rw [hregs, hput _ 0x100 _ (by decide), hput _ 0x108 _ (by decide), hput _ 0x110 _ (by decide), hput _ 0x118 _ (by decide),
    hput _ 0x128 _ (by decide), hput _ 0x130 _ (by decide), hput _ 0x138 _ (by decide)]
  refine repeatN_congr (fun r hr t => ?_) _
  rw [hput _ _ _ (by omega), hput _ _ _ (by omega)]
  rfl

theorem tsbRegs_peek (c : Sup) (s : State) (a : Nat) {r : Nat} (hr : r < 32) : (tsbRegs c a s).peek (a + 8 * r) 8 = (c.getS r).toNat := by
  refine repeatN_at (before := fun _ _ => True) (after := fun r (t : State) => t.peek (a + 8 * r) 8 = (c.getS r).toNat)
    (fun r _ t _ => ?_) (fun _ _ _ _ _ _ _ => trivial) (fun r _ k _ hne t ht => ?_) (fun _ _ => trivial) r hr
  · rw [peek_wordPut_same, Nat.mod_eq_of_lt (c.getS r).isLt]
  · rw [peek_wordPut_apart _ (by omega), ht]

theorem tsbRegs_byte (c : Sup) (s : State) (h : b < a ∨ a + 0x100 ≤ b) : (tsbRegs c a s).byte b = s.byte b :=
  repeatN_keeps (P := fun t : State => t.byte b = s.byte b) (fun r hr t ht => (byte_wordPut_apart _ (by omega)).trans ht) rfl

theorem ramOnly_tsbRegs (c : Sup) (a : Nat) (s : State) : RamOnly s (tsbRegs c a s) :=
  repeatN_keeps (P := RamOnly s) (fun _ _ t ht => ht.trans (ramOnly_wordPut t _ _)) (RamOnly.refl s)

theorem tsbStatus_byte (c : Sup) (s : State) (pc cause faddr : Nat) (h : b < a + 0x100 ∨ a + 0x140 ≤ b ∨ a + 0x120 ≤ b ∧ b < a + 0x128) :
    (tsbStatus c a pc cause faddr s).byte b = s.byte b := by
  unfold tsbStatus
  simp (disch := omega) only [byte_wordPut_apart]

theorem tsbStatus_peek (c : Sup) (s : State) (a pc cause faddr : Nat) :
    (tsbStatus c a pc cause faddr s).peek (a + 0x100) 8 = pc % 2 ^ 64 ∧ (tsbStatus c a pc cause faddr s).peek (a + 0x108) 8 = c.pst % 2 ^ 64 ∧
    (tsbStatus c a pc cause faddr s).peek (a + 0x110) 8 = cause % 2 ^ 64 ∧
    (tsbStatus c a pc cause faddr s).peek (a + 0x118) 8 = faddr % 2 ^ 64 := by
  unfold tsbStatus
  simp (disch := omega) only [peek_wordPut_apart, peek_wordPut_same, and_self]

theorem ramOnly_tsbStatus (c : Sup) (a pc cause faddr : Nat) (s : State) : RamOnly s (tsbStatus c a pc cause faddr s) :=
  (((((((ramOnly_wordPut s _ _).trans (ramOnly_wordPut _ _ _)).trans (ramOnly_wordPut _ _ _)).trans (ramOnly_wordPut _ _ _)).trans
    (ramOnly_wordPut _ _ _)).trans (ramOnly_wordPut _ _ _)).trans (ramOnly_wordPut _ _ _))

theorem ramOnly_tsbCap (c : Sup) (a r : Nat) (s : State) : RamOnly s (tsbCap c a r s) :=
  ((ramOnly_wordPut s _ _).trans (ramOnly_wordPut _ _ _)).trans (ramOnly_setTag _ _ _)

theorem tsbCap_byte (c : Sup) (s : State) {r : Nat} (h : b < a + 0x140 + 16 * r ∨ a + 0x150 + 16 * r ≤ b) :
    (tsbCap c a r s).byte b = s.byte b := by
  unfold tsbCap
  simp (disch := omega) only [setTag_byte_read, byte_wordPut_apart]

theorem tsbCap_peek (c : Sup) (s : State) (a r : Nat) : (tsbCap c a r s).peek (a + 0x140 + 16 * r) 16 = (c.getC r).val.toNat := by
  have hlo : (tsbCap c a r s).peek (a + 0x140 + 16 * r) 8 = (c.getC r).val.toNat % 2 ^ 64 := by
    rw [Nat.add_assoc a, tsbCap, setTag_peek_read, peek_wordPut_apart _ (by omega), peek_wordPut_same, Nat.mod_mod]
  have hhi : (tsbCap c a r s).peek (a + 0x140 + 16 * r + 8) 8 = (c.getC r).val.toNat / 2 ^ 64 := by
    have := (c.getC r).val.isLt
    rw [show a + 0x140 + 16 * r + 8 = a + (0x148 + 16 * r) by omega, tsbCap, setTag_peek_read, peek_wordPut_same, Nat.mod_eq_of_lt (by omega)]
  rw [peek_add _ _ 8 8, hlo, hhi, Nat.mod_add_div]

/-- The capabilities of a core in the TSB at an address, with their tags. -/
theorem tsbCaps_saved (c : Sup) (s : State) (ha : a % 512 = 0) {r : Nat} (hr : r < 8) :
    (repeatN 8 (tsbCap c a) s).peek (a + 0x140 + 16 * r) 16 = (c.getC r).val.toNat ∧
    (repeatN 8 (tsbCap c a) s).tagAt (a + 0x140 + 16 * r) = (c.getC r).tag := by
  refine repeatN_at (before := fun _ _ => True)
    (after := fun r (t : State) => t.peek (a + 0x140 + 16 * r) 16 = (c.getC r).val.toNat ∧ t.tagAt (a + 0x140 + 16 * r) = (c.getC r).tag)
    (fun r _ t _ => ⟨tsbCap_peek c t a r, tagAt_setTag ..⟩) (fun _ _ _ _ _ _ _ => trivial) (fun r _ k _ hne t ⟨hp, ht⟩ => ⟨?_, ?_⟩)
    (fun _ _ => trivial) r hr
  · rw [peek_congr fun j hj => tsbCap_byte c t (by omega), hp]
  · rw [tsbCap, tagAt_setTag_apart _ (by omega), tagAt_wordPut_apart _ (by omega), tagAt_wordPut_apart _ (by omega), ht]

theorem tsbCaps_byte (c : Sup) (s : State) (h : b < a + 0x140 ∨ a + 0x1C0 ≤ b) : (repeatN 8 (tsbCap c a) s).byte b = s.byte b :=
  repeatN_keeps (P := fun t : State => t.byte b = s.byte b) (fun r hr t ht => (tsbCap_byte c t (by omega)).trans ht) rfl

theorem ramOnly_tsbCaps (c : Sup) (a : Nat) (s : State) : RamOnly s (repeatN 8 (tsbCap c a) s) :=
  repeatN_keeps (P := RamOnly s) (fun _ _ t ht => ht.trans (ramOnly_tsbCap c a _ t)) (RamOnly.refl s)

/-- A memory holds a core, with the PC, cause and address that an entry saves, in the TSB at an address (R375). -/
structure HoldsTsb (t : State) (c : Sup) (a pc cause faddr : Nat) : Prop where
  regs : ∀ r < 32, t.peek (a + 8 * r) 8 = (c.getS r).toNat
  pc : t.peek (a + 0x100) 8 = pc % 2 ^ 64
  pst : t.peek (a + 0x108) 8 = c.pst % 2 ^ 64
  cause : t.peek (a + 0x110) 8 = cause % 2 ^ 64
  faddr : t.peek (a + 0x118) 8 = faddr % 2 ^ 64
  caps : ∀ r < 8, t.peek (a + 0x140 + 16 * r) 16 = (c.getC r).val.toNat ∧ t.tagAt (a + 0x140 + 16 * r) = (c.getC r).tag

/-- A core saved in a TSB is held there (R375, R378). -/
theorem saveTsb_holds (h : isCoreRam a = true) (ha : a % 512 = 0) (k pc cause faddr : Nat) :
    HoldsTsb (s.saveTsb k a pc cause faddr) (s.core k) a pc cause faddr := by
  rw [saveTsb_eq h ha]
  obtain ⟨hpc, hpst, hcause, hfaddr⟩ := tsbStatus_peek (s.core k) (tsbRegs (s.core k) a s) a pc cause faddr
  have hlow {i n : Nat} (hi : i + n ≤ 0x140) (u : State) : (repeatN 8 (tsbCap (s.core k) a) u).peek (a + i) n = u.peek (a + i) n :=
    peek_congr fun j hj => tsbCaps_byte _ u (by omega)
  refine ⟨fun r hr => ?_, ?_, ?_, ?_, ?_, fun r hr => tsbCaps_saved _ _ ha hr⟩
  · rw [hlow (by omega), peek_congr fun j hj => tsbStatus_byte _ _ pc cause faddr (by omega), tsbRegs_peek _ _ _ hr]
  · rw [hlow (by decide), hpc]
  · rw [hlow (by decide), hpst]
  · rw [hlow (by decide), hcause]
  · rw [hlow (by decide), hfaddr]

theorem saveTsb_byte (h : isCoreRam a = true) (ha : a % 512 = 0) (k pc cause faddr : Nat) (hb : b < a ∨ a + 0x1C0 ≤ b) :
    (s.saveTsb k a pc cause faddr).byte b = s.byte b := by
  rw [saveTsb_eq h ha, tsbCaps_byte _ _ (by omega), tsbStatus_byte _ _ _ _ _ (by omega), tsbRegs_byte _ _ (by omega)]

theorem ramOnly_saveTsb (h : isCoreRam a = true) (ha : a % 512 = 0) (k pc cause faddr : Nat) : RamOnly s (s.saveTsb k a pc cause faddr) := by
  rw [saveTsb_eq h ha]
  exact ((ramOnly_tsbRegs _ a s).trans (ramOnly_tsbStatus ..)).trans (ramOnly_tsbCaps ..)

end Sys2Proof.Laws
end

section
/-! SUPPORT. Entries of a supervisor core (R375, R376, R378). -/

namespace Sys2Proof.Laws
open Sys2Proof.Machine

variable {s t : State} {k a b v w0 w1 pc cause faddr ring : Nat} {c : Sup}

/-! A TSB that holds a core goes on holding it when the back link of another, or of the same, is written. -/

theorem HoldsTsb.backLink (h : HoldsTsb t c a pc cause faddr) (ha : a % 512 = 0) (hb : b % 512 = 0) (v : Nat) :
    HoldsTsb (wordPut t (b + 0x120) v) c a pc cause faddr where
  regs r hr := (peek_wordPut_apart v (by omega)).trans (h.regs r hr)
  pc := (peek_wordPut_apart v (by omega)).trans h.pc
  pst := (peek_wordPut_apart v (by omega)).trans h.pst
  cause := (peek_wordPut_apart v (by omega)).trans h.cause
  faddr := (peek_wordPut_apart v (by omega)).trans h.faddr
  caps r hr := ⟨(peek_wordPut_apart v (by omega)).trans (h.caps r hr).1, (tagAt_wordPut_apart v (by omega)).trans (h.caps r hr).2⟩

/-! Where a TSB may be written. -/

theorem memDomain_coreRam (h : isCoreRam a = true) : memDomain a = 4 := by
  obtain ⟨-, hhigh⟩ := coreRam_range h
  unfold memDomain sqSpace
  rw [if_neg (by omega), if_neg (by omega)]

/-- The writes of an entry succeed at an aligned place in core RAM that the ring may write and no wipe covers (R375). -/
theorem tsbFails_eq_false (hp : s.alive 4 = true) : s.tsbFails k ring a = false ↔
    a % 512 = 0 ∧ isCoreRam a = true ∧ (s.core k).mayAt ring a .write = true ∧ s.underWipe a = false := by
  cases hram : isCoreRam a with
  | false => simp [State.tsbFails, tsbOk, hram]
  | true =>
    simp only [State.tsbFails, tsbOk, hram, memDomain_coreRam hram, hp, Bool.and_true, Bool.not_true, Bool.or_false, Bool.or_eq_false_iff,
      Bool.not_eq_false', beq_iff_eq, true_and, and_assoc]

/-! The entry. -/

/-- TARGET, HANDLER and RING of an entry as their bits lie in its words (R376). -/
theorem entry_fields (w0 w1 : Nat) : bits 39 2 w0 * 4 = w0 / 4 % 2 ^ 38 * 4 ∧ bits 39 9 w1 * 512 = w1 / 512 % 2 ^ 31 * 512 ∧
    bits 41 40 w0 = w0 / 2 ^ 40 % 4 := by
  simp only [bits, Nat.shiftRight_eq_div_pow]
  exact ⟨trivial, trivial, rfl⟩

/-- A core that has entered through a vector or gate, with its priority level kept (R378). -/
def enteredCore (c : Sup) (ring handler target : Nat) : Sup :=
  { c.newKey with xring := c.ring :: c.xring, tsbr := handler, pst := setBits 8 1 0 (setBits 0 2 ring c.pst), pc := target }

/-- An entry changes the ring and clears IE; the level stays (R361, R378). -/
theorem entered_pst (c : Sup) (handler target : Nat) (hr : ring < 4) :
    (enteredCore c ring handler target).ring = ring ∧ bit 8 (enteredCore c ring handler target).pst = false ∧
    (enteredCore c ring handler target).plvl = c.plvl := by
  refine ⟨?_, bit_setBits_same 8 0 _, ?_⟩
  · refine (bits_setBits_below 1 0 _ (by decide)).trans ((bits_setBits_same (lo := 0) (w := 2) ring c.pst (by decide)).trans ?_)
    exact Nat.mod_eq_of_lt hr
  · show bits 16 12 (setBits 8 1 0 (setBits 0 2 ring c.pst)) = bits 16 12 c.pst
    rw [bits_setBits_above _ _ _ (by decide), bits_setBits_above _ _ _ (by decide)]

/-- An entry that its checks let pass saves the core, links the handler's TSB back to it and goes on in the handler (R378). -/
theorem supEnterWith_enters {gateRing : Bool} {handler : Nat} (hh : bits 39 9 w1 * 512 = handler)
    (hr : (if gateRing then bits 41 40 w0 else min (bits 41 40 w0) (s.core k).ring) = ring)
    (hroom : (s.core k).xring.length < 8) (hsave : s.tsbFails k ring (s.core k).tsbr = false) (hlink : s.tsbFails k ring handler = false)
    (saved info vector faddr : Nat) :
    ∃ u : State, s.supEnterWith k w0 w1 saved info vector faddr none gateRing = u.setCore k (enteredCore (s.core k) ring handler (bits 39 2 w0 * 4)) ∧
      HoldsTsb u (s.core k) (s.core k).tsbr saved (vector + info * 2 ^ 8) faddr ∧ u.peek (handler + 0x120) 8 = (s.core k).tsbr % 2 ^ 64 ∧
      (∀ b, (b < (s.core k).tsbr ∨ (s.core k).tsbr + 0x1C0 ≤ b) → (b < handler + 0x120 ∨ handler + 0x128 ≤ b) → u.byte b = s.byte b) ∧
      RamOnly s u := by
  have hat {x : Nat} (hx : s.tsbFails k ring x = false) : x % 512 = 0 ∧ isCoreRam x = true := by
    simp only [State.tsbFails, tsbOk, Bool.or_eq_false_iff, Bool.not_eq_false', Bool.and_eq_true, beq_iff_eq] at hx
    exact hx.1.1.1
  obtain ⟨hal, hram⟩ := hat hsave
  obtain ⟨hal', hram'⟩ := hat hlink
  have hput (t : State) : t.writeMask (handler + 0x120) 255 (s.core k).tsbr 1 = wordPut t (handler + 0x120) (s.core k).tsbr :=
    writeMask_coreRam (tsb_coreRam hram' hal' (by decide)) _ 1
  refine ⟨wordPut (s.saveTsb k (s.core k).tsbr saved (vector + info * 2 ^ 8) faddr) (handler + 0x120) (s.core k).tsbr, ?_,
    (saveTsb_holds hram hal k _ _ _).backLink hal hal' _, peek_wordPut_same .., fun b hb hb' => ?_,
    (ramOnly_saveTsb hram hal k _ _ _).trans (ramOnly_wordPut ..)⟩
  · unfold State.supEnterWith
    simp only [hh, hr, Nat.not_le.mpr hroom, hsave, hlink, decide_false, Bool.or_self, Bool.false_eq_true, if_false, hput]
    rfl
  · rw [byte_wordPut_apart _ (by omega), saveTsb_byte hram hal k _ _ _ hb]

/-- An entry that a check refuses is a double fault (R379). -/
theorem supEnterWith_fails {gateRing : Bool} {handler : Nat} (hh : bits 39 9 w1 * 512 = handler)
    (hr : (if gateRing then bits 41 40 w0 else min (bits 41 40 w0) (s.core k).ring) = ring)
    (h : ¬ ((s.core k).xring.length < 8 ∧ s.tsbFails k ring (s.core k).tsbr = false ∧ s.tsbFails k ring handler = false))
    (saved info vector faddr : Nat) (level : Option Nat) :
    s.supEnterWith k w0 w1 saved info vector faddr level gateRing = s.doubleFault k := by
  unfold State.supEnterWith
  simp only [hh, hr]
  refine if_pos ?_
  simp only [Bool.or_eq_true, decide_eq_true_eq]
  by_contra hno
  simp only [not_or, Bool.not_eq_true, Nat.not_le] at hno
  exact h ⟨hno.1.1, hno.1.2, hno.2⟩

/-! The words of an entry. -/

/-- The words of an entry in core RAM that pass their checks are read as they lie. -/
theorem entryWords_coreRam (hp : s.alive 4 = true) (ha : isCoreRam a = true) (hw : s.underWipe a = false) (hv : s.chkAt a = .valid)
    (ha' : isCoreRam (a + 8) = true) (hw' : s.underWipe (a + 8) = false) (hv' : s.chkAt (a + 8) = .valid) :
    s.entryWords k a = (some (s.peek a 8, s.peek (a + 8) 8), s) := by
  have hread {x : Nat} (hx : isCoreRam x = true) (hwx : s.underWipe x = false) (hvx : s.chkAt x = .valid) :
      s.busRead (.sup k) x 8 = (.ok (s.peek x 8, false), s) :=
    busRead_coreRam hp hwx (fun i hi => by
      obtain rfl : i = 0 := by omega
      exact ⟨hx, hvx⟩) hx _
  unfold State.entryWords
  rw [hread ha hw hv]
  simp only [hread ha' hw' hv']

theorem core_retires (s : State) (k : Nat) : (s.retires k).core k = { s.core k with retired := s.nextCount k } := core_setCore ..

end Sys2Proof.Laws
end

section
/-! PROOF. Exception entries of a supervisor core (R375, R376, R378, R379). -/

namespace Sys2Proof.Proofs
open Sys2Proof.Machine Sys2Proof.Laws

/-- A ready TRAP is counted and takes its exception with the PC after it (R363, R384). -/
theorem trap_ready {s : State} {k : Fin 10} (h : s.SupReady k.val) (n : BitVec 15) :
    exec (.trap k n) s = ((s.retires k.val).supException k.val 0x0C n.toNat ((s.core k.val).pc + 4) 0 none).ends := by
  show (s.supRun k.val (supTrap n)).ends = _
  rw [supRun_ready h]
  rfl

/-- Settles O37: an entry is the save of the core, the back link and the new core state, of which `supEnterWith_enters` says what each
leaves. -/
theorem supEntry : Obligations.SupEntry := by
  unfold Obligations.SupEntry
  intro s k n h c done entry near
  have hp : done.alive 4 = true := (coreRuns_state h.runs).1
  have hcore : done.core k.val = { c with retired := s.nextCount k.val } := core_retires s k.val
  have htrap : exec (.trap k n) s = (done.supEnter k.val entry (c.pc + 4) n.toNat 0x0C 0 none).ends := by
    rw [trap_ready h, State.supException, hcore]
  refine ⟨fun hal ⟨hram, hw, hv⟩ ⟨hram', hw', hv'⟩ => entryWords_coreRam hp hram hw hv hram' hw' hv', fun u hu => ?_, ?_⟩
  · rw [htrap, State.supEnter, hu]
  intro w0 w1 hwords handler ring held sound
  obtain ⟨htarget, hhandler, hring⟩ := entry_fields w0 w1
  have henter : exec (.trap k n) s = (done.supEnterWith k.val w0 w1 (c.pc + 4) n.toNat 0x0C 0 none false).ends := by
    rw [htrap, State.supEnter, hwords]
  have hheld (a : Nat) : done.tsbFails k.val ring a = false ↔ held a := by
    rw [tsbFails_eq_false hp, hcore]
    rfl
  have hringEq : (if false = true then bits 41 40 w0 else min (bits 41 40 w0) (done.core k.val).ring) = ring := by
    rw [hring, hcore]
    rfl
  have htsbr : (done.core k.val).tsbr = c.tsbr := by rw [hcore]
  have hxring : (done.core k.val).xring = c.xring := by rw [hcore]
  refine ⟨fun ⟨hroom, hsave, hlink⟩ => ?_, fun hno => ?_⟩
  · obtain ⟨u, hu, htsb, hback, hbytes, hkeeps⟩ := supEnterWith_enters hhandler hringEq (hxring ▸ hroom)
      (htsbr ▸ (hheld _).mpr hsave) ((hheld handler).mpr hlink) (c.pc + 4) n.toNat 0x0C 0
    have hquiet : u.Quiet := hkeeps.quiet (quiet_of_eq h.quiet rfl rfl)
    rw [htarget, hcore] at hu
    rw [hcore] at htsb hback hbytes
    obtain ⟨hnewRing, hie, hlevel⟩ := entered_pst { c with retired := s.nextCount k.val } handler (w0 / 4 % 2 ^ 38 * 4) (ring := ring) (by omega)
    refine ⟨u.setCore k.val (enteredCore { c with retired := s.nextCount k.val } ring handler (w0 / 4 % 2 ^ 38 * 4)), ?_, htsb.regs, htsb.pc, htsb.pst, htsb.cause.trans ?_, htsb.faddr, htsb.caps, hback, hbytes, ?_, fun j hj => ?_, fun hi r i => ?_⟩
    · rw [henter, hu]
      exact ends_of_quiet (quiet_of_eq hquiet rfl rfl)
    · have := n.isLt
      omega
    · rw [core_setCore]
      exact ⟨rfl, rfl, rfl, hnewRing, hie, hlevel, rfl, fun _ => rfl, fun _ => rfl, rfl⟩
    · rw [core_setCore_ne _ _ hj, hkeeps.core]
      exact core_setCore_ne _ _ hj
    · exact congrArg (fun x => Tab.look _ x _) (hkeeps.regs hi)
  · rw [henter, supEnterWith_fails hhandler hringEq]
    rw [hxring, htsbr, hheld, hheld]
    exact hno

end Sys2Proof.Proofs
end

section
/-! SUPPORT. The words of a TSB as RETX reads them, and the core that it restores (R375, R380). -/

namespace Sys2Proof.Laws
open Sys2Proof.Machine

variable {s : State} {k a : Nat} {c : Sup}

/-! Bytes and words. -/

theorem ofLeBytes_lt (l : List Byte) : ofLeBytes l < 2 ^ (8 * l.length) := by
  induction l with
  | nil => exact Nat.one_pos
  | cons b t ih =>
    have hb := b.isLt
    rw [ofLeBytes, List.length_cons, Nat.mul_succ, Nat.pow_add]
    omega

theorem peek_lt (s : State) (a n : Nat) : s.peek a n < 2 ^ (8 * n) := by
  have h := ofLeBytes_lt (s.bytes a n)
  rwa [State.bytes, List.length_map, List.length_range] at h

/-! An empty store buffer. -/

/-- With nothing buffered nothing drains (R370). -/
theorem supDrainAll_empty (h : (s.core k).sb = []) : s.supDrainAll k = s := by
  unfold State.supDrainAll
  rw [h]
  rfl

/-- With nothing buffered nothing waits (R370). -/
theorem supDrained_empty (h : (s.core k).sb = []) (hst : s.fld F.SUP_STAT_STATE k = 0) (f : State → SRes) : s.supDrained k f = f s := by
  unfold State.supDrained
  simp only [supDrainAll_empty h, supLeft_self hst, Bool.false_eq_true, if_false]

/-- An aligned word of core RAM that a core may read and that passes its check, with nothing buffered. -/
theorem supRead_word (hp : s.alive 4 = true) (hsb : (s.core k).sb = []) (hram : isCoreRam a = true) (ha : a % 8 = 0)
    (hm : (s.core k).allowed a .read = true) (hw : s.underWipe a = false) (hv : s.chkAt a = .valid) (f : Nat → Bool → State → SRes) :
    s.supRead k a 8 f = f (s.peek a 8) false s := by
  refine supRead_ok (accFault_none ((coreRam_range hram).2.trans (by decide)) hm ha) ?_ (.inr hsb) (busRead_coreRam hp hw (fun i hi => ?_) hram _) f
  · rw [Sup.overlaps, hsb]
    rfl
  · obtain rfl : i = 0 := by omega
    exact ⟨hram, hv⟩

/-- Words that can all be read are read in turn. -/
theorem supWords_reads {l : List Nat} (h : ∀ a ∈ l, ∀ f, s.supRead k a 8 f = f (s.peek a 8) false s) (got : List Nat)
    (f : List Nat → State → SRes) : s.supWords k l got f = f (got.reverse ++ l.map (fun a => s.peek a 8)) s := by
  induction l generalizing got with
  | nil => simp [State.supWords]
  | cons a l ih =>
    rw [State.supWords, h a List.mem_cons_self, ih fun b hb => h b (List.mem_cons_of_mem a hb)]
    simp

/-! The words that RETX restores. -/

/-- They lie in the TSB, aligned. -/
theorem mem_tsbWords {b : Nat} (h : b ∈ tsbWords a) : ∃ i < 512, i % 8 = 0 ∧ b = a + i := by
  simp only [tsbWords, List.mem_append, List.mem_map, List.mem_range, List.mem_cons, List.not_mem_nil, or_false] at h
  obtain (⟨r, hr, rfl⟩ | rfl | rfl) | ⟨r, hr, rfl⟩ := h
  · exact ⟨8 * (r + 1), by omega, by omega, rfl⟩
  · exact ⟨0x100, by decide, by decide, rfl⟩
  · exact ⟨0x108, by decide, by decide, rfl⟩
  · exact ⟨0x140 + 8 * r, by omega, by omega, by omega⟩

/-- The word of s[r] is the one before place r. -/
theorem tsbWords_reg (f : Nat → Nat) {r : Nat} (h0 : 1 ≤ r) (hr : r < 32) : ((tsbWords a).map f).getD (r - 1) 0 = f (a + 8 * r) := by
  have hlt : r - 1 < 31 := by omega
  simp [tsbWords, List.getD, List.getElem?_append, hlt, Nat.sub_add_cancel h0]

theorem tsbWords_pc (f : Nat → Nat) : ((tsbWords a).map f).getD 31 0 = f (a + 0x100) := rfl

theorem tsbWords_pst (f : Nat → Nat) : ((tsbWords a).map f).getD 32 0 = f (a + 0x108) := rfl

/-- The words of the capabilities come last. -/
theorem tsbWords_cap (f : Nat → Nat) {j : Nat} (hj : j < 16) : ((tsbWords a).map f).getD (33 + j) 0 = f (a + 0x140 + 8 * j) := by
  simp [tsbWords, List.getD, List.getElem?_append, hj, show ¬ 33 + j < 31 by omega, show 33 + j - 31 = j + 2 by omega]

/-- The s registers of a list of words. -/
def restoredRegs (l : List Nat) : Tab Dword :=
  repeatN 32 (fun r t => if r = 0 then t else Tab.put (fun _ => 0) t r (BitVec.ofNat 64 (l.getD (r - 1) 0))) []

/-- The capabilities of a list of words, with the tags of the TSB. -/
def restoredCaps (s : State) (back : Nat) (l : List Nat) : Tab Cap :=
  repeatN 8 (fun r t => Tab.put (fun _ => Cap.none) t r
    ⟨s.tagAt (back + 0x140 + 16 * r), BitVec.ofNat 128 (l.getD (33 + 2 * r) 0 + l.getD (34 + 2 * r) 0 * 2 ^ 64)⟩) []

theorem restoredRegs_look (l : List Nat) {r : Nat} (h0 : r ≠ 0) (hr : r < 32) :
    Tab.look (fun _ => 0) (restoredRegs l) r = BitVec.ofNat 64 (l.getD (r - 1) 0) := by
  refine repeatN_at (before := fun _ _ => True)
    (after := fun r (t : Tab Dword) => r ≠ 0 → Tab.look (fun _ => 0) t r = BitVec.ofNat 64 (l.getD (r - 1) 0))
    (fun r _ t _ h0 => ?_) (fun _ _ _ _ _ _ _ => trivial) (fun r _ j _ hne t ht h0 => ?_) (fun _ _ => trivial) r hr h0
  · rw [if_neg h0]
    exact Tab_look_put_same ..
  · split
    · exact ht h0
    · exact (Tab_look_put_ne _ _ _ hne).trans (ht h0)

theorem restoredCaps_look (s : State) (back : Nat) (l : List Nat) {r : Nat} (hr : r < 8) :
    Tab.look (fun _ => Cap.none) (restoredCaps s back l) r =
      ⟨s.tagAt (back + 0x140 + 16 * r), BitVec.ofNat 128 (l.getD (33 + 2 * r) 0 + l.getD (34 + 2 * r) 0 * 2 ^ 64)⟩ := by
  refine repeatN_at (before := fun _ _ => True) (after := fun r (t : Tab Cap) => Tab.look (fun _ => Cap.none) t r =
      ⟨s.tagAt (back + 0x140 + 16 * r), BitVec.ofNat 128 (l.getD (33 + 2 * r) 0 + l.getD (34 + 2 * r) 0 * 2 ^ 64)⟩)
    (fun r _ t _ => Tab_look_put_same ..) (fun _ _ _ _ _ _ _ => trivial) (fun r _ j _ hne t ht => (Tab_look_put_ne _ _ _ hne).trans ht)
    (fun _ _ => trivial) r hr

/-- The words of the TSB that a core goes back to. -/
def savedWords (s : State) (back : Nat) : List Nat := (tsbWords back).map (fun a => s.peek a 8)

/-- The core as RETX restores it, before its PC (R380). -/
def restored (s : State) (k back : Nat) (rest : List Nat) : Sup :=
  { (s.core k).newKey with
    s := restoredRegs (savedWords s back)
    cap := restoredCaps s back (savedWords s back)
    pst := pstOf (s.peek (back + 0x108) 8)
    tsbr := back
    xring := rest }

/-- What RETX restores, and the buffer that it leaves (R380). -/
theorem restored_core (s : State) (k back : Nat) (rest : List Nat) : ∃ g, g = restored s k back rest ∧
    g.s = restoredRegs (savedWords s back) ∧ g.cap = restoredCaps s back (savedWords s back) ∧ g.pst = pstOf (s.peek (back + 0x108) 8) ∧
    g.tsbr = back ∧ g.xring = rest ∧ g.key = (s.core k).key + 1 ∧ g.sb = (s.core k).sb := by
  refine ⟨_, rfl, ?_⟩
  simp only [restored, Sup.newKey, and_self]

theorem getS_of_restored {back : Nat} (h : c.s = restoredRegs (savedWords s back)) {r : Nat} (h0 : 1 ≤ r) (hr : r < 32) :
    (c.getS r).toNat = s.peek (back + 8 * r) 8 := by
  have hne : r ≠ 0 := Nat.one_le_iff_ne_zero.mp h0
  have hget : c.getS r = BitVec.ofNat 64 (s.peek (back + 8 * r) 8) := by
    rw [Sup.getS, if_neg hne, h, restoredRegs_look _ hne hr, savedWords, tsbWords_reg _ h0 hr]
  rw [hget, BitVec.toNat_ofNat, Nat.mod_eq_of_lt (peek_lt s _ 8)]

theorem getC_of_restored {back : Nat} (h : c.cap = restoredCaps s back (savedWords s back)) {r : Nat} (hr : r < 8) :
    c.getC r = ⟨s.tagAt (back + 0x140 + 16 * r), BitVec.ofNat 128 (s.peek (back + 0x140 + 16 * r) 16)⟩ := by
  rw [Sup.getC, h, restoredCaps_look s back _ hr, savedWords, tsbWords_cap _ (by omega), show 34 + 2 * r = 33 + (2 * r + 1) by omega,
    tsbWords_cap _ (by omega), peek_add s _ 8 8, Nat.mul_comm (2 ^ (8 * 8)), show back + 0x140 + 8 * (2 * r) = back + 0x140 + 16 * r by omega,
    show back + 0x140 + 8 * (2 * r + 1) = back + 0x140 + 16 * r + 8 by omega]

/-! GATE and RETX. -/

/-- A gate whose entry is read refuses the core or lets it in (R377). -/
theorem supGate_entry {n w0 w1 : Nat} (hlim : n < (s.core k).gtlim) (hwords : s.entryWords k ((s.core k).gtbr + 16 * n) = (some (w0, w1), s)) :
    s.supGate k n =
      if bit 44 w0 = false ∨ w0 / 2 ^ 42 % 4 < (s.core k).ring ∨ (s.core k).ring < w0 / 2 ^ 40 % 4 then .exc s 0x0A n 0 false
      else .gone (s.supEnterWith k w0 w1 ((s.core k).pc + 4) n 0 0 none true) := by
  have hmost : bits 43 42 w0 = w0 / 2 ^ 42 % 4 := by
    rw [bits, Nat.shiftRight_eq_div_pow]
    rfl
  obtain ⟨-, -, hring⟩ := entry_fields w0 w1
  unfold State.supGate
  dsimp only
  rw [if_neg (Nat.not_le.mpr hlim), hwords, ← hmost, ← hring]

/-- The old TSB, once its back link is read (R380). -/
theorem supRetx_back (hst : s.fld F.SUP_STAT_STATE k = 0) (hsb : (s.core k).sb = []) (hok : tsbOk (s.core k).tsbr = true) :
    s.supRetx k = s.supRead k ((s.core k).tsbr + 0x120) 8 (fun b _ t =>
      if tsbOk (b % 2 ^ 40) then t.supWords k (tsbWords (b % 2 ^ 40)) [] (fun l u =>
        match (s.core k).xring with
        | [] => .exc u 0 0 0 false
        | top :: rest =>
          if bits 1 0 (l.getD 32 0) < top then .exc u 0x0B 0 0 false
          else .jump (u.setCore k { (u.core k).newKey with
            s := restoredRegs l, cap := restoredCaps u (b % 2 ^ 40) l, pst := pstOf (l.getD 32 0), tsbr := b % 2 ^ 40, xring := rest }) (pcOf (l.getD 31 0)))
      else .stay (t.doubleFault k)) := by
  unfold State.supRetx
  rw [supDrained_empty hsb hst]
  simp only [hok, Bool.not_true, Bool.false_eq_true, if_false]
  congr 1
  funext b _ t
  cases tsbOk (b % 2 ^ 40) <;> rfl

/-- A core whose own TSB is misplaced cannot go back (R375, R379). -/
theorem supRetx_misplaced (hst : s.fld F.SUP_STAT_STATE k = 0) (hsb : (s.core k).sb = []) (hok : tsbOk (s.core k).tsbr = false) :
    s.supRetx k = .stay (s.doubleFault k) := by
  unfold State.supRetx
  rw [supDrained_empty hsb hst]
  simp only [hok, Bool.not_false, if_true]

/-- What RETX comes to once every word is read (R380, R384). -/
theorem supRetx_restores {back : Nat} (hback : s.peek ((s.core k).tsbr + 0x120) 8 % 2 ^ 40 = back)
    (hst : s.fld F.SUP_STAT_STATE k = 0) (hsb : (s.core k).sb = []) (hok : tsbOk (s.core k).tsbr = true) (hok' : tsbOk back = true)
    (hlink : ∀ f, s.supRead k ((s.core k).tsbr + 0x120) 8 f = f (s.peek ((s.core k).tsbr + 0x120) 8) false s)
    (hwords : ∀ a ∈ tsbWords back, ∀ f, s.supRead k a 8 f = f (s.peek a 8) false s) :
    s.supRetx k = match (s.core k).xring with
      | [] => .exc s 0 0 0 false
      | top :: rest => if s.peek (back + 0x108) 8 % 4 < top then .exc s 0x0B 0 0 false
        else .jump (s.setCore k (restored s k back rest)) (pcOf (s.peek (back + 0x100) 8)) := by
  rw [supRetx_back hst hsb hok, hlink, hback, if_pos hok', supWords_reads hwords]
  rfl

end Sys2Proof.Laws
end

section
/-! PROOF. GATE and RETX (R377, R380, R384). -/

namespace Sys2Proof.Proofs
open Sys2Proof.Machine Sys2Proof.Laws

/-- Settles O38: a gate that lets the core through is an entry, and RETX reads the words that `supRetx_restores` names. -/
theorem supGateReturn : Obligations.SupGateReturn := by
  unfold Obligations.SupGateReturn
  intro s k n h c g back pst
  obtain ⟨hp, hst⟩ := coreRuns_state h.runs
  have hgate : exec (.gate k n) s = (supOutcome s k.val (s.supGate k.val n.toNat)).ends := congrArg State.ends (supRun_ready h (supGate k.val n))
  have hretx (hring : c.ring ≤ 1) : exec (.retx k) s = (supOutcome s k.val (s.supRetx k.val)).ends := by
    refine congrArg State.ends ((supRun_ready h (supRetx k.val)).trans (congrArg _ ?_))
    exact needRing_allowed hring _
  have hword {a i : Nat} (hsb : c.sb = []) (hok : tsbOk a = true) (hi : i < 512) (hal : i % 8 = 0) (hm : c.allowed (a + i) .read = true)
      (hw : s.underWipe (a + i) = false) (hv : s.chkAt (a + i) = .valid) (f : Nat → Bool → State → SRes) :
      s.supRead k.val (a + i) 8 f = f (s.peek (a + i) 8) false s := by
    obtain ⟨halign, hram⟩ : a % 512 = 0 ∧ isCoreRam a = true := by simpa [tsbOk] using hok
    exact supRead_word hp hsb (tsb_coreRam hram halign hi) (by omega) hm hw hv f
  refine ⟨fun hlim => supRun_traps h (supGate k.val n) (if_pos hlim), fun hlim => ?_, ?_⟩
  · intro w0 w1 hwords handler refused
    obtain ⟨htarget, hhandler, hring⟩ := entry_fields w0 w1
    have hgates : s.supGate k.val n.toNat = if refused then .exc s 0x0A n.toNat 0 false
        else .gone (s.supEnterWith k.val w0 w1 (c.pc + 4) n.toNat 0 0 none true) := supGate_entry hlim hwords
    refine ⟨fun href => supRun_traps h (supGate k.val n) (hgates.trans (if_pos href)), fun hpass hroom hsave hlink => ?_⟩
    obtain ⟨u, hu, htsb, -, -, hkeeps⟩ := supEnterWith_enters (gateRing := true) hhandler hring hroom hsave hlink (c.pc + 4) n.toNat 0 0
    have hquiet : u.Quiet := hkeeps.quiet h.quiet
    refine ⟨(u.setCore k.val (enteredCore c (w0 / 2 ^ 40 % 4) handler (bits 39 2 w0 * 4))).retires k.val, ?_, htsb.pc, htsb.cause.trans ?_, ?_⟩
    · rw [hgate, hgates, if_neg hpass, hu]
      exact ends_of_quiet (quiet_of_eq hquiet rfl rfl)
    · have := n.isLt
      omega
    · rw [core_retires, core_setCore, htarget]
      exact ⟨(entered_pst c handler (w0 / 4 % 2 ^ 38 * 4) (by omega)).1, rfl, rfl, rfl, fun _ => rfl⟩
  · have htrap {v info faddr : Nat} (hring : c.ring ≤ 1) (hx : s.supRetx k.val = .exc s v info faddr false) :
        exec (.retx k) s = s.supTraps k.val v info faddr := (hretx hring).trans (by rw [hx]; rfl)
    have hstay {t : State} (hring : c.ring ≤ 1) (hx : s.supRetx k.val = .stay t) : exec (.retx k) s = t.ends :=
      (hretx hring).trans (by rw [hx]; rfl)
    refine ⟨fun hring => supRun_traps h (supRetx k.val) (needRing_refused hring _), fun hring hsb => ?_, fun hring hsb hok hlink hok' hall => ?_⟩
    · refine ⟨fun hok => hstay hring (supRetx_misplaced hst hsb hok), fun hok hm => htrap hring ?_, fun hok ⟨hm, hw, hv⟩ hok' => hstay hring ?_,
        fun hok ⟨hm, hw, hv⟩ hok' hm' => htrap hring ?_⟩
      · rw [supRetx_back hst hsb hok, supRead_faults (accFault_refused 8 (.inr hm))]
      · rw [supRetx_back hst hsb hok, hword hsb hok (by decide) (by decide) hm hw hv]
        exact if_neg (Bool.eq_false_iff.mp hok')
      · rw [supRetx_back hst hsb hok, hword hsb hok (by decide) (by decide) hm hw hv]
        exact (if_pos hok').trans (supRead_faults (accFault_refused 8 (.inr hm')) _)
    · have hrestores := supRetx_restores (back := back) rfl hst hsb hok hok' (hword hsb hok (by decide) (by decide) hlink.1 hlink.2.1 hlink.2.2)
        (fun a ha => by
          obtain ⟨i, hi, hal, rfl⟩ := mem_tsbWords ha
          obtain ⟨hm, hw, hv⟩ := hall _ ha
          exact hword hsb hok' hi hal hm hw hv)
      refine ⟨fun hnil => htrap hring ?_, fun top rest hcons => ⟨fun hlow => htrap hring ?_, fun hhigh => ?_⟩⟩
      · rw [hrestores, show (s.core k.val).xring = [] from hnil]
      · rw [hrestores, show (s.core k.val).xring = top :: rest from hcons]
        exact if_pos hlow
      · have hgo : s.supRetx k.val = .jump (s.setCore k.val (restored s k.val back rest)) (pcOf (s.peek (back + 0x100) 8)) := by
          rw [hrestores, show (s.core k.val).xring = top :: rest from hcons]
          exact if_neg (Nat.not_lt.mpr hhigh)
        obtain ⟨g, hg, hs, hcap, hpst, htsbr, hxring, hkey, hsb'⟩ := restored_core s k.val back rest
        refine ⟨{ g with pc := pcOf (s.peek (back + 0x100) 8), retired := if s.sigWindow ≤ g.retired then 1 else g.retired + 1 }, ?_, rfl,
          fun r h0 hr => getS_of_restored hs h0 hr, fun r hr => getC_of_restored hcap hr, hpst, rfl, htsbr, hxring, hkey, hsb'⟩
        rw [hretx hring, hgo, ← hg, supOutcome, State.retires, core_setCore, core_setCore, setCore_setCore, setCore_setCore]
        exact ends_of_quiet (quiet_of_eq h.quiet rfl rfl)

end Sys2Proof.Proofs
end

section
/-! SUPPORT. The flags in PST, the s registers, and the system registers of a supervisor core (R359 to R361). -/

namespace Sys2Proof.Laws
open Sys2Proof.Machine

variable {s : State} {k : Nat}

/-! Bits of a word with a field set. -/

theorem setBits_eq (lo w v n : Nat) : setBits lo w v n = 2 ^ lo * (2 ^ w * (n / 2 ^ (lo + w)) + v % 2 ^ w) + n % 2 ^ lo := by
  simp only [setBits, Nat.shiftRight_eq_div_pow, Nat.shiftLeft_eq, Nat.pow_add]
  ring

/-- The field holds the value, and the bits outside it stay. -/
theorem bit_setBits (i lo w v n : Nat) :
    bit i (setBits lo w v n) = if i < lo then bit i n else if i < lo + w then bit (i - lo) v else bit i n := by
  rw [setBits_eq]
  unfold bit
  rw [Nat.testBit_two_pow_mul_add _ (Nat.mod_lt _ (Nat.two_pow_pos lo)), Nat.testBit_two_pow_mul_add _ (Nat.mod_lt _ (Nat.two_pow_pos w)),
    Nat.testBit_mod_two_pow, Nat.testBit_mod_two_pow, Nat.testBit_div_two_pow]
  split
  next h => simp [h]
  next h =>
    by_cases hw : i < lo + w
    · simp [hw, show i - lo < w by omega]
    · simp only [hw, show ¬ i - lo < w by omega, if_false]
      congr 1
      omega

/-- The bits of a flag result as an instruction writes them (R361). -/
theorem flags_bits (n z c v : Bool) : let x := b2n n + 2 * b2n z + 4 * b2n c + 8 * b2n v
    bit 0 x = n ∧ bit 1 x = z ∧ bit 2 x = c ∧ bit 3 x = v := by
  revert n z c v
  decide

/-! The s registers (R359). -/

theorem getS_putS (c : Sup) {r : Nat} (v : Dword) (h : r ≠ 0) : (c.putS r v).getS r = v := by
  rw [Sup.putS, if_neg h, Sup.getS, if_neg h]
  exact Tab_look_put_same ..

theorem getS_putS_ne (c : Sup) {r q : Nat} (v : Dword) (h : q ≠ r) : (c.putS r v).getS q = c.getS q := by
  by_cases hr : r = 0
  · rw [Sup.putS, if_pos hr]
  · rw [Sup.putS, if_neg hr]
    simp only [Sup.getS, Tab_look_put_ne _ _ _ h]

/-! The system registers (R360). -/

theorem sysRead_base {n : Nat} (h : n < 16) : s.sysRead k (16 + n) = some (Tab.look (fun _ => 0) (s.core k).rgnb n).toNat := by
  unfold State.sysRead
  split
  case h_9 => rw [if_pos (by omega), Nat.add_sub_cancel_left]
  all_goals omega

theorem sysRead_limit {n : Nat} (h : n < 16) : s.sysRead k (32 + n) = some (Tab.look (fun _ => 0) (s.core k).rgnl n).toNat := by
  unfold State.sysRead
  split
  case h_9 => rw [if_neg (by omega), if_pos (by omega), Nat.add_sub_cancel_left]
  all_goals omega

theorem sysRead_none {n : Nat} (h : 8 ≤ n ∧ n ≤ 15 ∨ 48 ≤ n) : s.sysRead k n = none := by
  unfold State.sysRead
  split
  case h_9 => rw [if_neg (by omega), if_neg (by omega)]
  all_goals omega

/-- The fields of a region register that a write takes (R366). -/
theorem region_words (n : Nat) : bits 8 0 n + bits 39 12 n * 2 ^ 12 = n % 512 + n / 4096 % 2 ^ 28 * 4096 ∧
    bits 39 12 n * 2 ^ 12 = n / 4096 % 2 ^ 28 * 4096 := by
  simp only [bits, Nat.shiftRight_eq_div_pow, pow_zero, Nat.div_one, Nat.reducePow, Nat.reduceAdd, Nat.reduceSub, and_self]

theorem sysWrite_base (c : Sup) {n : Nat} (v : Dword) (h : n < 16) : c.sysWrite (16 + n) v =
    some { c with rgnb := Tab.put (fun _ => 0) c.rgnb n (BitVec.ofNat 64 (v.toNat % 512 + v.toNat / 4096 % 2 ^ 28 * 4096)) } := by
  unfold Sup.sysWrite
  split
  case h_6 => rw [if_pos (by omega), Nat.add_sub_cancel_left, (region_words _).1]
  all_goals omega

theorem sysWrite_limit (c : Sup) {n : Nat} (v : Dword) (h : n < 16) : c.sysWrite (32 + n) v =
    some { c with rgnl := Tab.put (fun _ => 0) c.rgnl n (BitVec.ofNat 64 (v.toNat / 4096 % 2 ^ 28 * 4096)) } := by
  unfold Sup.sysWrite
  split
  case h_6 => rw [if_neg (by omega), if_pos (by omega), Nat.add_sub_cancel_left, (region_words _).2]
  all_goals omega

theorem sysWrite_none (c : Sup) {n : Nat} (v : Dword) (h : 5 ≤ n ∧ n ≤ 15 ∨ 48 ≤ n) : c.sysWrite n v = none := by
  unfold Sup.sysWrite
  split
  case h_6 => rw [if_neg (by omega), if_neg (by omega)]
  all_goals omega

/-- A write of PST leaves RING and the s registers (R361). -/
theorem sysWrite_pst (c : Sup) (v : Dword) : ∃ d, c.sysWrite 0 v = some d ∧ d.ring = c.ring ∧ d.s = c.s := by
  refine ⟨_, rfl, ?_, rfl⟩
  show bits 1 0 (setBits 4 5 _ (setBits 12 5 _ c.pst)) = bits 1 0 c.pst
  rw [bits_setBits_below _ _ _ (by decide), bits_setBits_below _ _ _ (by decide)]

end Sys2Proof.Laws
end

section
/-! PROOF. Flags, floating point, system registers, refused instructions and the frame of a supervisor core (R42, R359 to R364, R367, R372, R384). -/

namespace Sys2Proof.Proofs
open Sys2Proof.Machine Sys2Proof.Laws

/-- Settles O26: `bit_setBits` for the flags, and the register file. -/
theorem supFlagsAndZero : Obligations.SupFlagsAndZero := by
  unfold Obligations.SupFlagsAndZero
  refine ⟨fun c n z cc v _ => ?_, fun c r q v => ⟨rfl, rfl, getS_putS c v, getS_putS_ne c v⟩, sysWrite_pst⟩
  obtain ⟨hn, hz, hc, hv⟩ := flags_bits n z cc v
  obtain ⟨hn', hz', -⟩ := flags_bits n z false false
  simp only [Sup.setFlags, bit_setBits]
  refine ⟨hn, hz, hc, hv, fun i hi => ?_, hn', hz', fun i hi => ?_, trivial⟩
  · rcases hi with hi | hi
    · exact if_pos hi
    · rw [if_neg (by omega), if_neg (by omega)]
  · rcases hi with hi | hi
    · exact if_pos hi
    · rw [if_neg (by omega), if_neg (by omega)]

/-- Settles O27: each instruction writes the result of its operation on the low words, and no flag. -/
theorem supFloat : Obligations.SupFloat := by
  unfold Obligations.SupFloat
  intro s k rd ra rb rc h a b gives x y z low
  have hlow {f : State → SRes} {v : Word} (hf : f s = s.supSet k rd (v.setWidth 64) .keep) : (s.supRun k f).ends = low v :=
    supSet_ready h hf rfl rfl
  exact ⟨hlow (f := supFadd k rd ra rb) rfl, hlow (f := supFsub k rd ra rb) rfl, hlow (f := supFmul k rd ra rb) rfl,
    hlow (f := supFdiv k rd ra rb) rfl, hlow (f := supFmin k rd ra rb) rfl, hlow (f := supFmax k rd ra rb) rfl, hlow (f := supFsqrt k rd ra) rfl,
    hlow (f := supFabs k rd ra) rfl, hlow (f := supFneg k rd ra) rfl, hlow (f := supFcvtif k rd ra) rfl, hlow (f := supFcvtfi k rd ra) rfl,
    hlow (f := supFcvtqf k rd ra) rfl, hlow (f := supFcvtfq k rd ra) rfl, hlow (f := supFma k rd ra rb rc) rfl, hlow (f := supFms k rd ra rb rc) rfl⟩

/-- Settles O39: the core is set, and nothing else. -/
theorem supFrame : Obligations.SupFrame := by
  unfold Obligations.SupFrame
  intro s k c t h
  obtain rfl : (s.setCore k { c with pc := ((s.core k).pc + 4) % 2 ^ 40 }).retires k = t := by
    simpa only [State.supDone, Host.Outcome.next.injEq] using h
  refine ⟨?_, fun j hj => ?_, fun _ => rfl, fun _ => rfl, fun _ => rfl, fun _ _ => rfl, fun _ => rfl, fun _ => rfl, rfl, rfl, rfl, rfl, rfl⟩
  · rw [State.retires, core_setCore, core_setCore]
    rfl
  · exact (core_setCore_ne _ _ hj).trans (core_setCore_ne _ _ hj)

/-- An RDSR of a number that R360 gives reads it in rings 0 and 1. -/
theorem rdsr_reads {s : State} {k : Fin 10} {r : BitVec 5} {sr : BitVec 10} {n x : Nat} (h : s.SupReady k.val) (hx : s.sysRead k.val n = some x)
    (hn : sr.toNat = n) :
    ((s.core k.val).ring ≤ 1 → exec (.rdsr k r sr) s = s.supDone k.val ((s.core k.val).putS r.toNat (BitVec.ofNat 64 x))) ∧
    (1 < (s.core k.val).ring → exec (.rdsr k r sr) s = s.supTraps k.val 1 0 0) := by
  have hread : supRdsr k.val r sr s = s.needRing k.val 1 (fun s => s.supSet k.val r (BitVec.ofNat 64 x) .keep) := by
    rw [supRdsr, hn, hx]
  exact ⟨fun hring => supRun_done h (supRdsr k.val r sr) (hread.trans (needRing_allowed hring _)),
    fun hring => supRun_traps h (supRdsr k.val r sr) (hread.trans (needRing_refused hring _))⟩

/-- A WRSR of a number that R360 gives writes it in ring 0. -/
theorem wrsr_writes {s : State} {k : Fin 10} {r : BitVec 5} {sr : BitVec 10} {n : Nat} {d : Sup} (h : s.SupReady k.val)
    (hd : (s.core k.val).sysWrite n (s.sreg k.val r) = some d) (hn : sr.toNat = n) :
    ((s.core k.val).ring = 0 → exec (.wrsr k r sr) s = s.supDone k.val d) ∧
    ((s.core k.val).ring ≠ 0 → exec (.wrsr k r sr) s = s.supTraps k.val 1 0 0) := by
  have hwrite : supWrsr k.val r sr s = s.needRing k.val 0 (fun s => .seq (s.setCore k.val d)) := by
    rw [supWrsr, hn, hd]
  exact ⟨fun hring => supRun_done h (supWrsr k.val r sr) (hwrite.trans (needRing_allowed hring.le _)),
    fun hring => supRun_traps h (supWrsr k.val r sr) (hwrite.trans (needRing_refused (Nat.pos_of_ne_zero hring) _))⟩

/-- Settles O33: RDSR and WRSR by `rdsr_reads` and `wrsr_writes`, the barriers by an empty store buffer. -/
theorem supSystem : Obligations.SupSystem := by
  unfold Obligations.SupSystem
  intro s k r sr h c v rgn reads writes
  obtain ⟨-, hst⟩ := coreRuns_state h.runs
  have hreads {n x : Nat} (hx : s.sysRead k.val n = some x) : reads n x := rdsr_reads h hx
  have hwrites {n : Nat} {d : Sup} (hd : c.sysWrite n (s.sreg k.val r) = some d) : writes n d := wrsr_writes h hd
  refine ⟨hreads rfl, hreads rfl, hreads rfl, hreads rfl, hreads rfl, fun i hi => ⟨hreads (sysRead_base hi), hreads (sysRead_limit hi)⟩,
    fun hnil => hreads ?_, fun top rest hcons => hreads ?_, fun lg hlg => hreads ?_, hwrites rfl, hwrites rfl, hwrites rfl, hwrites rfl,
    fun i hi => ⟨hwrites (sysWrite_base c _ hi), hwrites (sysWrite_limit c _ hi)⟩, fun hn => supRun_traps h (supWrsr k.val r sr) ?_,
    fun hn => supRun_traps h (supRdsr k.val r sr) ?_, supRun_done h (supTime k.val r) rfl,
    fun hring => supRun_seq h (supWait k.val) (needRing_allowed hring _) (quiet_of_eq h.quiet rfl rfl),
    fun hring => supRun_traps h (supWait k.val) (needRing_refused hring _), fun hsb => ?_⟩
  · show some ((s.core k.val).xring.headD 0 + (s.core k.val).xring.length * 4) = _
    rw [show (s.core k.val).xring = [] from hnil]
    rfl
  · show some ((s.core k.val).xring.headD 0 + (s.core k.val).xring.length * 4) = _
    rw [Nat.mul_comm, show (s.core k.val).xring = top :: rest from hcons]
    rfl
  · show some (k.val + (s.logicalCore k.val).getD 0 * 2 ^ 4 + b2n (s.pairMode ((s.logicalCore k.val).getD 0 / 2) == 0) * 2 ^ 7) = _
    rw [hlg, Option.getD_some, Nat.mul_comm lg]
    by_cases hmode : s.pairMode (lg / 2) = 0 <;> simp [hmode, b2n]
  · rw [supWrsr, sysWrite_none _ _ hn]
    rfl
  · rw [supRdsr, sysRead_none hn]
    rfl
  · have hgoes : s.supDrained k.val .seq = .seq s := supDrained_empty hsb hst _
    exact ⟨supRun_seq h (supSync k.val) hgoes h.quiet, supRun_seq h (supIsync k.val) hgoes h.quiet⟩

/-- Settles O34: what a core does not have is `supIllegal`, and TRAP is `trap_ready`. -/
theorem supIllegal : Obligations.SupIllegal := by
  unfold Obligations.SupIllegal
  intro s k i h
  have hillegal : (s.supRun k.val Machine.supIllegal).ends = s.supTraps k.val 0 0 0 := supRun_traps h Machine.supIllegal rfl
  refine ⟨?_, fun rd ra rb upTo hbad => ?_, trap_ready h⟩
  · rintro - (hi | ⟨n, ra, rb, rfl | rfl | rfl | rfl⟩ | ⟨n, ra, sh, rfl | rfl | rfl | rfl | rfl⟩ |
      ⟨rd, ra, simm, rfl | rfl | rfl | rfl | rfl | rfl | rfl | rfl | rfl | rfl | rfl | rfl | rfl | rfl | rfl | rfl⟩ | ⟨target, rfl⟩ | ⟨rd, port, rfl⟩ |
      ⟨cap, x, f, rs, rt, rfl⟩ | ⟨rd, ra, cap, n, d, rfl | rfl | rfl | rfl⟩ | ⟨r, x, rfl | rfl⟩ | ⟨rd, n, rfl⟩ | ⟨cap, rfl⟩)
    case inl =>
      rcases List.mem_pair.mp hi with rfl | rfl <;> exact hillegal
    all_goals exact hillegal
  · have hrefused (x : SRes) : (if blockLegal rd ra rb = true then x else Machine.supIllegal s) = .exc s 0 0 0 false :=
      if_neg (Bool.eq_false_iff.mp hbad)
    exact ⟨supRun_traps h (supCopyb k.val rd ra rb upTo) (hrefused _), supRun_traps h (supFillb k.val rd ra rb upTo) (hrefused _),
      supRun_traps h (supCrcb k.val rd ra rb upTo) (hrefused _)⟩

end Sys2Proof.Proofs
end

section
/-! PROOF. Calls, returns, loads and stores of a supervisor core (R362, R364, R366, R367, R370, R384). -/

namespace Sys2Proof.Proofs
open Sys2Proof.Machine Sys2Proof.Laws

/-- Refutes O30: the frame of a wrong return says that every register other than BPMISS stays at every place `j : Nat`, and at place
`key SUP_BPMISS 0` the key of QTZ_ALMC is that of BPMISS of core 0, which the same clause says to count (as for O29). The frame lacks a
bound on `j`, such as j < 65536. -/
theorem not_supCalls : ¬ Obligations.SupCalls := by
  unfold Obligations.SupCalls
  intro h
  obtain ⟨-, -, -, hret, -⟩ := h beforeBranch 0 0 0 beforeBranch_ready
  have hback : (beforeBranch.sreg 0 31).toNat % 4 = 0 := by decide +kernel
  have hras : (beforeBranch.core 0).ras.head? ≠ some ((beforeBranch.sreg 0 31).toNat % 2 ^ 40) := by decide +kernel
  obtain ⟨t, -, -, -, -, hcounts, -, -, hreg⟩ := (hret hback).2 hras
  have hsame := hreg .QTZ_ALMC (Reg.key .SUP_BPMISS 0) (by decide)
  rw [reg_alias, reg_alias] at hsame
  have hfld : t.fld F.SUP_BPMISS_COUNT 0 = beforeBranch.fld F.SUP_BPMISS_COUNT 0 := congrArg (fun v : Word => bits 15 0 v.toNat) hsame
  have hzero : beforeBranch.fld F.SUP_BPMISS_COUNT 0 = 0 := by decide +kernel
  have hone := hcounts.symm.trans hfld
  rw [show beforeBranch.fld F.SUP_BPMISS_COUNT (0 : Fin 10).val = 0 from hzero, hzero] at hone
  exact absurd hone (by decide)

section
variable {s : State} {k : Fin 10} {r ra : BitVec 5} {simm : BitVec 13} {n : Nat} {x : Instr}

/-- A misaligned access that its core allows (R384). -/
theorem accFault_misaligned {c : Sup} {a : Nat} {acc : Acc} (ha : a < 2 ^ 40) (hm : c.allowed a acc = true) (hn : a % n ≠ 0) :
    c.accFault a n acc = some 4 := by
  simp only [Sup.accFault, Nat.not_le.mpr ha, hm, hn, Bool.true_eq_false, or_self, if_false, ne_eq, not_false_eq_true, if_true]

/-- A ready load: its faults, and the value that it writes. -/
theorem supLoad_ready {signed : Bool} {f : Nat → Dword} (h : s.SupReady k.val) (hn : (n + 7) / 8 = 1)
    (hx : exec x s = (s.supRun k.val (fun s => s.supLoad k.val n signed r ra simm)).ends)
    (hf : ∀ v, (if signed then BitVec.ofInt 64 (sext (8 * n) v) else BitVec.ofNat 64 v) = f v) :
    let c := s.core k.val
    let a := (((s.sreg k.val ra).toNat + simm.toInt) % 2 ^ 64).toNat
    ((2 ^ 40 ≤ a ∨ c.allowed a .read = false → exec x s = s.supTraps k.val 3 0 a) ∧
      (a < 2 ^ 40 → c.allowed a .read = true → a % n ≠ 0 → exec x s = s.supTraps k.val 4 0 a)) ∧
    (isCoreRam a = true ∧ (c.device a = false ∨ c.sb = []) → c.allowed a .read = true → a % n = 0 → c.overlaps a n = false →
      s.underWipe a = false → s.chkAt a = .valid → exec x s = s.supDone k.val (c.putS r.toNat (f (s.peek a n)))) := by
  intro c a
  have hfault {v : Nat} (hv : c.accFault a n .read = some v) : exec x s = s.supTraps k.val v 0 a := by
    rw [hx]
    exact supRun_traps h _ (supRead_faults hv _)
  refine ⟨⟨fun hbad => hfault (accFault_refused n hbad), fun ha hm hal => hfault (accFault_misaligned ha hm hal)⟩, fun ⟨hram, hd⟩ hm hal ho hw hv => ?_⟩
  have hlt : a < 2 ^ 40 := (coreRam_range hram).2.trans (by decide)
  have hwords : ∀ i < (n + 7) / 8, isCoreRam (a + 8 * i) = true ∧ s.chkAt (a + 8 * i) = .valid := fun i hi => by
    obtain rfl : i = 0 := by omega
    exact ⟨hram, hv⟩
  rw [hx, ← hf]
  exact supRun_done h _ (supRead_ok (accFault_none hlt hm hal) ho hd (busRead_coreRam (coreRuns_state h.runs).1 hw hwords hram _) _)

/-- A ready store: its faults, and its entry in the store buffer. -/
theorem supStore_ready (h : s.SupReady k.val) (hx : exec x s = (s.supRun k.val (fun s => s.supStore k.val n r ra simm)).ends) :
    let c := s.core k.val
    let a := (((s.sreg k.val ra).toNat + simm.toInt) % 2 ^ 64).toNat
    ((2 ^ 40 ≤ a ∨ c.allowed a .write = false → exec x s = s.supTraps k.val 3 0 a) ∧
      (a < 2 ^ 40 → c.allowed a .write = true → a % n ≠ 0 → exec x s = s.supTraps k.val 4 0 a)) ∧
    (a < 2 ^ 40 → c.allowed a .write = true → a % n = 0 → c.sbUsed + 1 ≤ 8 →
      exec x s = s.supDone k.val { c with sb := c.sb ++ [⟨a, n, (s.sreg k.val r).toNat % 2 ^ (8 * n), c.pc, none⟩] }) := by
  intro c a
  have hwrite : s.supStore k.val n r ra simm = match c.accFault a n .write with
      | some v => .exc s v 0 a false
      | none => s.supBuffer k.val ⟨a, n, (s.sreg k.val r).toNat % 2 ^ (8 * n), c.pc, none⟩ .seq := rfl
  have hfault {v : Nat} (hv : c.accFault a n .write = some v) : exec x s = s.supTraps k.val v 0 a := by
    rw [hx]
    refine supRun_traps h _ (hwrite.trans ?_)
    rw [hv]
  refine ⟨⟨fun hbad => hfault (accFault_refused n hbad), fun ha hm hal => hfault (accFault_misaligned ha hm hal)⟩, fun ha hm hal hroom => ?_⟩
  rw [hx]
  refine supRun_done h _ (hwrite.trans ?_)
  rw [accFault_none ha hm hal]
  exact supBuffer_room (x := ⟨a, n, (s.sreg k.val r).toNat % 2 ^ (8 * n), c.pc, none⟩) (coreRuns_state h.runs).2 hroom .seq

/-- A signed load extends its value (R362). -/
theorem sext_signExtend {w : Nat} (hw : 0 < w) (v : Nat) : BitVec.ofInt 64 (sext w v) = (BitVec.ofNat w v).signExtend 64 := by
  rw [sext_eq_toInt hw]
  rfl

end

/-- Settles O31: loads by `supLoad_ready`, stores by `supStore_ready`. -/
theorem supMemory : Obligations.SupMemory := by
  unfold Obligations.SupMemory
  intro s k r ra simm h c a near faults loads stores
  have hload {n : Nat} {signed : Bool} {x : Instr} {f : Nat → Dword} (hn : (n + 7) / 8 = 1)
      (hx : exec x s = (s.supRun k.val (fun s => s.supLoad k.val n signed r ra simm)).ends)
      (hf : ∀ v, (if signed then BitVec.ofInt 64 (sext (8 * n) v) else BitVec.ofNat 64 v) = f v) : loads n f x := supLoad_ready h hn hx hf
  have hwide (v : Nat) : BitVec.ofInt 64 (sext 64 v) = BitVec.ofNat 64 v := (sext_signExtend (by decide) v).trans (BitVec.signExtend_eq _)
  exact ⟨hload (n := 8) (signed := true) (x := .ldw (.sup k) true r ra simm) rfl rfl hwide,
    hload (n := 4) (signed := true) (x := .ldw (.sup k) false r ra simm) (f := fun v => (BitVec.ofNat 32 v).signExtend 64)
      rfl rfl (sext_signExtend (w := 32) (by decide)),
    hload (n := 2) (signed := true) (x := .ldh (.sup k) r ra simm) (f := fun v => (BitVec.ofNat 16 v).signExtend 64)
      rfl rfl (sext_signExtend (w := 16) (by decide)),
    hload (n := 2) (signed := false) (x := .ldhu (.sup k) r ra simm) rfl rfl fun _ => rfl,
    hload (n := 1) (signed := true) (x := .ldb (.sup k) r ra simm) (f := fun v => (BitVec.ofNat 8 v).signExtend 64)
      rfl rfl (sext_signExtend (w := 8) (by decide)),
    hload (n := 1) (signed := false) (x := .ldbu (.sup k) r ra simm) rfl rfl fun _ => rfl,
    supStore_ready h rfl, supStore_ready h rfl, supStore_ready h rfl, supStore_ready h rfl⟩

end Sys2Proof.Proofs
end

section
/-! PROOF. Block instructions (R372): the elements of CRCB and their sum write the same registers, in tables that differ where the table
before was not in order. -/

namespace Sys2Proof.Proofs
open Sys2Proof.Machine Sys2Proof.Laws

/-- Core 0 as in `beforeBranch`, with registers whose table is not in the order of their numbers, and two bytes at s5 to read. -/
def unordered : State :=
  { beforeBranch with
    chk := [(0x4000000, .valid), (0x4000001, .valid)]
    sup := [(0, { Sup.init with pc := 0x20000000, s := [(1, 1), (5, 0x20000008), (2, 7), (3, 1), (9, 2)] })] }

theorem unordered_ready : unordered.SupReady 0 where
  quiet := ⟨rfl, rfl⟩
  runs := by decide +kernel
  fetch := by
    have hfetch : unordered.supFetch 0 (unordered.core 0).pc = (.ok (0x2C000000, false), unordered) ∧ legalSup 0x2C000000 = true := by
      decide +kernel
    exact ⟨_, hfetch⟩

/-- The table of the s registers of core 0 that an instruction leaves. -/
def regsLeft : Host.Outcome State Fault Refusal → Tab Dword
  | .next t => (t.core 0).s
  | _ => []

/-- Two elements of CRCB move s2 behind s3, which their sum does not. -/
theorem unordered_crcb : regsLeft (exec (.crcb 0 3 5 9 2) unordered) = [(1, 1), (2, 7), (3, 0x191B3141), (5, 0x2000000A)] := by
  decide +kernel

/-- Refutes O35: the clause of CRCB gives the state after it as one write each of the three registers, and on a core whose register
table is not in order the two elements of a CRCB leave the same registers in a table of another order. The clause should name what the
registers read. -/
theorem not_supBlock : ¬ Obligations.SupBlock := by
  unfold Obligations.SupBlock
  intro h
  obtain ⟨hlegal, -⟩ := h unordered 0 3 5 9 2 unordered_ready
  obtain ⟨-, hcrc, -⟩ := hlegal (by decide)
  have hdone := hcrc (by decide +kernel) (by decide +kernel) (by decide +kernel)
  have hregs := (congrArg regsLeft hdone).symm.trans unordered_crcb
  revert hregs
  decide +kernel

end Sys2Proof.Proofs
end

section
/-! SUPPORT. Bodies of repeat prefixes that write one register, and their repetitions (R373, R374). -/

namespace Sys2Proof.Laws
open Sys2Proof.Machine

variable {s : State} {k n : Nat} {c d e : Sup} {i : Instr}

/-! What repetitions leave of a core. -/

/-- A core state keeps, of another, the registers that are kept and everything but flags and counters. -/
structure SupKeeps (keep : Nat → Prop) (c d : Sup) : Prop where
  regs : ∀ r, keep r → d.getS r = c.getS r
  pc : d.pc = c.pc
  cap : d.cap = c.cap
  sb : d.sb = c.sb
  ring : d.ring = c.ring

theorem SupKeeps.refl (keep : Nat → Prop) (c : Sup) : SupKeeps keep c c := ⟨fun _ _ => rfl, rfl, rfl, rfl, rfl⟩

theorem SupKeeps.trans {keep : Nat → Prop} (h : SupKeeps keep c d) (h' : SupKeeps keep d e) : SupKeeps keep c e where
  regs r hr := (h'.regs r hr).trans (h.regs r hr)
  pc := h'.pc.trans h.pc
  cap := h'.cap.trans h.cap
  sb := h'.sb.trans h.sb
  ring := h'.ring.trans h.ring

theorem SupKeeps.mono {keep keep' : Nat → Prop} (h : SupKeeps keep c d) (hk : ∀ r, keep' r → keep r) : SupKeeps keep' c d where
  regs r hr := h.regs r (hk r hr)
  pc := h.pc
  cap := h.cap
  sb := h.sb
  ring := h.ring

theorem supKeeps_putS (c : Sup) (r : Nat) (v : Dword) : SupKeeps (· ≠ r) c (c.putS r v) := by
  by_cases hr : r = 0
  · rw [Sup.putS, if_pos hr]
    exact .refl ..
  · refine ⟨fun q hq => getS_putS_ne c v hq, ?_, ?_, ?_, ?_⟩
    all_goals rw [Sup.putS, if_neg hr]
    rfl

theorem supKeeps_setFlags (keep : Nat → Prop) (c : Sup) (f : FlagSet) : SupKeeps keep c (c.setFlags f) := by
  cases f with
  | keep => exact .refl ..
  | nz n z => exact ⟨fun _ _ => rfl, rfl, rfl, rfl, bits_setBits_below _ _ _ (by decide)⟩
  | nzcv f => exact ⟨fun _ _ => rfl, rfl, rfl, rfl, bits_setBits_below _ _ _ (by decide)⟩

/-! The body that a word decodes to. -/

/-- A body that is no load or store does nothing, or writes the register of the rd field of its word with flags. -/
def RegBody (k n : Nat) (i : Instr) : Prop :=
  supBase i = none → ∀ f, supBodyOf k i = some f → (∀ s, f s = .seq s) ∨ ∀ s, ∃ v fl, f s = s.supSet k (op5 21 n) v fl

theorem forall_legal {P : Instr → Prop} {b : Bool} {i j : Instr} (hi : P i) (h : legal b i = some j) : P j := by
  unfold legal at h
  split at h
  · obtain rfl : i = j := Option.some.inj h
    exact hi
  · exact absurd h (by simp)

/-- The meaning of such a body, once the instruction is known. -/
theorem regBody_of {f : State → SRes} (hi : supBodyOf k i = some f) (hf : ∀ s, ∃ v fl, f s = s.supSet k (op5 21 n) v fl) : RegBody k n i := by
  intro _ g hg
  obtain rfl : f = g := Option.some.inj (hi.symm.trans hg)
  exact .inr hf

theorem regBody_nop (hi : supBodyOf k i = some supNop) : RegBody k n i := by
  intro _ g hg
  obtain rfl : supNop = g := Option.some.inj (hi.symm.trans hg)
  exact .inl fun _ => rfl

theorem regBody_access {x : BitVec 5 × Nat} (hi : supBase i = some x) : RegBody k n i := fun hno =>
  absurd (hi.symm.trans hno) (Option.some_ne_none x)

theorem decodeAlu_regBody {co : Core} (h : decodeAlu co n = some i) : RegBody k n i := by
  unfold decodeAlu at h
  dsimp only at h
  split at h
  case h_24 => exact forall_legal (regBody_nop rfl) h
  case h_29 => exact absurd h (by simp)
  all_goals exact forall_legal (regBody_of rfl fun s => ⟨_, _, rfl⟩) h

theorem decodeMul_regBody {co : Core} (h : decodeMul co n = some i) : RegBody k n i := by
  unfold decodeMul at h
  dsimp only at h
  split at h
  case h_6 => exact absurd h (by simp)
  all_goals exact forall_legal (regBody_of rfl fun s => ⟨_, _, rfl⟩) h

theorem decodeFp_regBody {co : Core} (h : decodeFp co n = some i) : RegBody k n i := by
  unfold decodeFp at h
  dsimp only at h
  split at h
  case h_7 => exact Option.some.inj h ▸ regBody_of rfl fun s => ⟨_, _, rfl⟩
  case h_8 => exact Option.some.inj h ▸ regBody_of rfl fun s => ⟨_, _, rfl⟩
  case h_16 => exact absurd h (by simp)
  all_goals exact forall_legal (regBody_of rfl fun s => ⟨_, _, rfl⟩) h

theorem decodeLd_regBody {co : Core} (h : decodeLd co n = some i) : RegBody k n i := by
  unfold decodeLd at h
  dsimp only at h
  split at h
  case h_6 => exact absurd h (by simp)
  all_goals exact Option.some.inj h ▸ regBody_access rfl

theorem decodeSt_regBody {co : Core} (h : decodeSt co n = some i) : RegBody k n i := by
  unfold decodeSt at h
  dsimp only at h
  split at h
  case h_4 => exact absurd h (by simp)
  all_goals exact Option.some.inj h ▸ regBody_access rfl

/-- Every body that the decoder knows. -/
theorem decodeSupBody_regBody {co : Core} (h : decodeSupBody co n = some i) : RegBody k n i := by
  unfold decodeSupBody at h
  split at h
  case h_1 =>
    dsimp only at h
    split at h
    · split at h
      · exact absurd h (by simp)
      · split at h
        all_goals exact Option.some.inj h ▸ regBody_of rfl fun s => ⟨_, _, rfl⟩
    · exact decodeAlu_regBody h
  case h_2 => exact decodeMul_regBody h
  case h_3 => exact decodeFp_regBody h
  case h_8 => exact forall_legal (regBody_of rfl fun s => ⟨_, _, rfl⟩) h
  case h_9 => exact forall_legal (regBody_of rfl fun s => ⟨_, _, rfl⟩) h
  case h_10 =>
    split at h
    · exact Option.some.inj h ▸ regBody_access rfl
    · exact decodeLd_regBody h
  case h_11 =>
    split at h
    · exact Option.some.inj h ▸ regBody_access rfl
    · exact decodeSt_regBody h
  case h_12 => exact absurd h (by simp)
  all_goals exact Option.some.inj h ▸ regBody_of rfl fun s => ⟨_, _, rfl⟩

/-- A repetition of such a body on a core (R373). -/
theorem RegBody.step (h : RegBody k n i) {f : State → SRes} (hb : supBase i = none) (hf : supBodyOf k i = some f) (s : State) (d : Sup) :
    ∃ e, f (s.setCore k d) = .seq (s.setCore k e) ∧ SupKeeps (· ≠ n / 2 ^ 21 % 32) d e := by
  have hrd : (op5 21 n).toNat = n / 2 ^ 21 % 32 := by
    rw [op5, BitVec.toNat_ofNat, wf, Nat.mod_mod]
    rfl
  rcases h hb f hf with hid | hset
  · exact ⟨d, hid _, .refl ..⟩
  · obtain ⟨v, fl, he⟩ := hset (s.setCore k d)
    refine ⟨(d.putS (op5 21 n).toNat v).setFlags fl, ?_, hrd ▸ (supKeeps_putS d _ v).trans (supKeeps_setFlags ..)⟩
    rw [he, State.supSet, core_setCore, setCore_setCore]

/-! Repetitions (R373, R374). -/

section
variable {x : Nat → State} {body : State → SRes} {inc : Option (BitVec 5 × Nat)} {m : Nat}

/-- Repetitions that all run to their effect, in the states x, under REPN. -/
theorem supRepeat_repn (hrun : ∀ j < m, ∃ v, body (x j) = .seq v ∧ v.supLeft (v.supDrainAll k) k = false ∧
      x (j + 1) = (v.supDrainAll k).supAfter k inc none) (done : Nat) :
    supRepeat k inc none body done m (x 0) = .jump (x m) ((((x m).core k).pc + 8) % 2 ^ 40) := by
  induction m generalizing x done with
  | zero => rfl
  | succ m ih =>
    obtain ⟨v, hv, hleft, hnext⟩ := hrun 0 (Nat.succ_pos m)
    rw [supRepeat, hv]
    simp only [Option.any_none, hleft, Bool.false_eq_true, if_false, ← hnext]
    exact ih (x := fun j => x (j + 1)) (fun j hj => hrun (j + 1) (Nat.succ_lt_succ hj)) (done + 1)

/-- Repetitions that all run to their effect, in the states x, under REPI: they end with the count register. -/
theorem supRepeat_repi {cnt : BitVec 5} (hrun : ∀ j < m, ∃ v, body (x j) = .seq v ∧ v.supLeft (v.supDrainAll k) k = false ∧
      x (j + 1) = (v.supDrainAll k).supAfter k inc (some cnt)) (hcount : ∀ j < m, (x j).sreg k cnt ≠ 0) (hend : (x m).sreg k cnt = 0)
    {upTo : Nat} (hm : m ≤ upTo) (done : Nat) :
    supRepeat k inc (some cnt) body done upTo (x 0) = .jump (x m) ((((x m).core k).pc + 8) % 2 ^ 40) := by
  induction m generalizing x done upTo with
  | zero =>
    cases upTo with
    | zero => exact if_pos hend
    | succ upTo => exact if_pos (beq_iff_eq.mpr hend)
  | succ m ih =>
    obtain ⟨upTo, rfl⟩ : ∃ t, upTo = t + 1 := ⟨upTo - 1, by omega⟩
    obtain ⟨v, hv, hleft, hnext⟩ := hrun 0 (Nat.succ_pos m)
    have hgo : (some cnt).any (fun r => (x 0).sreg k r == 0) = false := beq_false_of_ne (hcount 0 (Nat.succ_pos m))
    rw [supRepeat, hv]
    simp only [hgo, hleft, Bool.false_eq_true, if_false, ← hnext]
    exact ih (x := fun j => x (j + 1)) (fun j hj => hrun (j + 1) (Nat.succ_lt_succ hj)) (fun j hj => hcount (j + 1) (Nat.succ_lt_succ hj)) hend
      (Nat.le_of_succ_le_succ hm) (done + 1)

end

section
variable {P : Nat → Sup → Prop} {body : State → SRes}

/-- REPN over a body that changes its core alone: what each repetition keeps holds after them. -/
theorem supRepeat_core (hst : s.fld F.SUP_STAT_STATE k = 0) (hsb : ∀ j d, P j d → d.sb = [])
    (hstep : ∀ j d, P j d → ∃ e, body (s.setCore k d) = .seq (s.setCore k e) ∧ P (j + 1) e) (m : Nat) {j : Nat} (hd : P j d) (done : Nat) :
    ∃ e, supRepeat k none none body done m (s.setCore k d) = .jump (s.setCore k e) ((e.pc + 8) % 2 ^ 40) ∧ P (j + m) e := by
  induction m generalizing j d done with
  | zero =>
    refine ⟨d, ?_, hd⟩
    rw [supRepeat, core_setCore]
  | succ m ih =>
    obtain ⟨e, he, hP⟩ := hstep j d hd
    have hdrain : (s.setCore k e).supDrainAll k = s.setCore k e := supDrainAll_empty (by rw [core_setCore, hsb _ _ hP])
    have hleft : (s.setCore k e).supLeft (s.setCore k e) k = false := supLeft_self hst
    obtain ⟨g, hg, hPg⟩ := ih hP (done + 1)
    refine ⟨g, ?_, by rwa [Nat.add_right_comm, Nat.add_assoc] at hPg⟩
    rw [supRepeat, he]
    simp only [Option.any_none, hdrain, hleft, Bool.false_eq_true, if_false]
    exact hg

/-- A core whose count register has gone down by one. -/
def counted (cnt : BitVec 5) (d : Sup) : Sup := d.putS cnt.toNat (d.getS cnt.toNat + BitVec.ofInt 64 (-1))

/-- REPI over a body that changes its core alone and leaves the count register: it counts that down to 0. -/
theorem supRepeat_counts {cnt : BitVec 5} (hst : s.fld F.SUP_STAT_STATE k = 0)
    (hstep : ∀ j d, P j d → ∃ e, body (s.setCore k d) = .seq (s.setCore k e) ∧ e.sb = [] ∧ e.getS cnt.toNat = d.getS cnt.toNat ∧ P (j + 1) (counted cnt e))
    {m upTo j : Nat} (hd : P j d) (hm : (d.getS cnt.toNat).toNat = m) (hup : m ≤ upTo) (done : Nat) :
    ∃ e, supRepeat k none (some cnt) body done upTo (s.setCore k d) = .jump (s.setCore k e) ((e.pc + 8) % 2 ^ 40) ∧ e.getS cnt.toNat = 0 ∧
      P (j + m) e := by
  have hread (d : Sup) : (s.setCore k d).sreg k cnt = d.getS cnt.toNat := by rw [State.sreg, core_setCore]
  induction m generalizing j d done upTo with
  | zero =>
    have hzero : d.getS cnt.toNat = 0 := BitVec.eq_of_toNat_eq hm
    refine ⟨d, ?_, hzero, hd⟩
    cases upTo with
    | zero => rw [supRepeat, hread, hzero, core_setCore, if_pos rfl]
    | succ upTo => rw [supRepeat, Option.any_some, hread, hzero, core_setCore, if_pos (beq_self_eq_true _)]
  | succ m ih =>
    obtain ⟨upTo, rfl⟩ : ∃ t, upTo = t + 1 := ⟨upTo - 1, by omega⟩
    have hne : d.getS cnt.toNat ≠ 0 := fun h0 => by
      rw [h0] at hm
      exact absurd hm (Nat.succ_ne_zero m).symm
    have hcnt : cnt.toNat ≠ 0 := fun h0 => hne (by rw [h0]; rfl)
    obtain ⟨e, he, hes, hkeep, hP⟩ := hstep j d hd
    have hdrain : (s.setCore k e).supDrainAll k = s.setCore k e := supDrainAll_empty (by rw [core_setCore, hes])
    have hleft : (s.setCore k e).supLeft (s.setCore k e) k = false := supLeft_self hst
    have hdown : ((counted cnt e).getS cnt.toNat).toNat = m := by
      rw [counted, getS_putS _ _ hcnt, hkeep, BitVec.toNat_add, hm]
      have := (d.getS cnt.toNat).isLt
      rw [show (BitVec.ofInt 64 (-1)).toNat = 2 ^ 64 - 1 from rfl]
      omega
    have hafter : (s.setCore k e).supAfter k none (some cnt) = s.setCore k (counted cnt e) := by
      simp only [State.supAfter, State.supStep, State.setSreg, hread, core_setCore, setCore_setCore, counted]
    obtain ⟨g, hg, hzero, hPg⟩ := ih hP hdown (Nat.le_of_succ_le_succ hup) (done + 1)
    refine ⟨g, ?_, hzero, by rwa [Nat.add_right_comm, Nat.add_assoc] at hPg⟩
    rw [supRepeat, he]
    simp only [Option.any_some, hread, beq_false_of_ne hne, hdrain, hleft, hafter, Bool.false_eq_true, if_false]
    exact hg

end

end Sys2Proof.Laws
end

section
/-! PROOF. Repeat prefixes of a supervisor core (R373, R374). -/

namespace Sys2Proof.Proofs
open Sys2Proof.Machine Sys2Proof.Laws

section
variable {s : State} {k : Fin 10} {word : Nat}

/-- What a ready REPN or REPI meets: no repetition pending, nothing buffered, and the word of its body. -/
structure RepReady (s : State) (k : Fin 10) (word : Nat) : Prop where
  ready : s.SupReady k.val
  rep : (s.core k.val).rep = 0
  sb : (s.core k.val).sb = []
  fetch : (s.setCore k.val (s.core k.val)).supFetch k.val (((s.core k.val).pc + 4) % 2 ^ 40) = (.ok (word, false), s.setCore k.val (s.core k.val))

theorem rep_zero {c : Sup} (h : c.rep = 0) : { c with rep := 0 } = c := by
  cases c
  cases h
  rfl

/-- A REPN or REPI whose body is an instruction repeats it (R373). -/
theorem RepReady.supRep_body (h : RepReady s k word) {i : Instr} {f : State → SRes} (hi : decodeSupBody (.sup k) word = some i)
    (hf : supBodyOf k.val i = some f) (ainc : Bool) (dec : Option (BitVec 5)) (n : Nat) :
    s.supRep k.val ainc dec n = supRepeat k.val (if ainc then supBase i else none) dec f 0 n (s.setCore k.val (s.core k.val)) := by
  have hk : Fin.ofNat 10 k.val = k := Fin.ofNat_val_eq_self k
  unfold State.supRep
  simp only [rep_zero h.rep, h.rep, h.fetch, hk, hi, hf, State.doubtAfter, Bool.false_and, Bool.not_false, if_true, Nat.zero_sub, Nat.sub_zero]

/-- A REPN or REPI whose body is none is illegal (R373). -/
theorem RepReady.supRep_illegal (h : RepReady s k word) (hi : decodeSupBody (.sup k) word = none) (ainc : Bool) (dec : Option (BitVec 5)) (n : Nat) :
    s.supRep k.val ainc dec n = .exc (s.setCore k.val (s.core k.val)) 0 0 0 false := by
  have hk : Fin.ofNat 10 k.val = k := Fin.ofNat_val_eq_self k
  unfold State.supRep
  simp only [rep_zero h.rep, h.fetch, hk, hi]
  rfl

theorem RepReady.repi (h : RepReady s k word) (ainc : Bool) (cnt : BitVec 5) (upTo : Nat) :
    exec (.repi k ainc cnt upTo) s = (supOutcome s k.val (s.supRep k.val ainc (some cnt) upTo)).ends :=
  congrArg State.ends (supRun_ready h.ready (supRepi k.val ainc cnt upTo))

theorem RepReady.repn (h : RepReady s k word) (rsrc ainc : Bool) (cnt : BitVec 5) (nm1 : BitVec 6) :
    exec (.repn k rsrc ainc cnt nm1) s = (supOutcome s k.val (s.supRep k.val ainc none
      (if rsrc then min (s.sreg k.val cnt).toNat (nm1.toNat + 1) else nm1.toNat + 1))).ends :=
  congrArg State.ends (supRun_ready h.ready (supRepn k.val rsrc ainc cnt nm1))

/-- A REPN or REPI that goes on after its body, with its core alone changed. -/
theorem jump_core (hq : s.Quiet) (e : Sup) (a : Nat) : ∃ g, (supOutcome s k.val (.jump (s.setCore k.val e) a)).ends = .next (s.setCore k.val g) ∧
    g.pc = a ∧ (∀ r, g.getS r = e.getS r) ∧ g.cap = e.cap ∧ g.sb = e.sb ∧ g.ring = e.ring := by
  refine ⟨{ e with pc := a, retired := if s.sigWindow ≤ e.retired then 1 else e.retired + 1 }, ?_, rfl, fun _ => rfl, rfl, rfl, rfl⟩
  refine ends_of_eq ?_ (quiet_of_eq hq rfl rfl)
  simp only [supOutcome, State.retires, core_setCore, setCore_setCore]
  rfl

/-- REPN over a body that changes its core alone. -/
theorem RepReady.repn_core (h : RepReady s k word) {i : Instr} {f : State → SRes} (hi : decodeSupBody (.sup k) word = some i)
    (hf : supBodyOf k.val i = some f) (hb : supBase i = none) {P : Nat → Sup → Prop} {keep : Nat → Prop} (h0 : P 0 (s.core k.val))
    (hkeep : ∀ j d, P j d → SupKeeps keep (s.core k.val) d)
    (hstep : ∀ j d, P j d → ∃ e, f (s.setCore k.val d) = .seq (s.setCore k.val e) ∧ P (j + 1) e)
    (rsrc ainc : Bool) (cnt : BitVec 5) (nm1 : BitVec 6) :
    let c := s.core k.val
    ∃ e g, exec (.repn k rsrc ainc cnt nm1) s = .next (s.setCore k.val g) ∧ g.pc = (c.pc + 8) % 2 ^ 40 ∧
      P (if rsrc then min (s.sreg k.val cnt).toNat (nm1.toNat + 1) else nm1.toNat + 1) e ∧ (∀ r, g.getS r = e.getS r) ∧
      (∀ r, keep r → g.getS r = c.getS r) ∧ g.cap = c.cap ∧ g.sb = c.sb ∧ g.ring = c.ring := by
  intro c
  obtain ⟨e, he, hP⟩ := supRepeat_core (coreRuns_state h.ready.runs).2 (fun j d hd => (hkeep j d hd).sb.trans h.sb) hstep
    (if rsrc then min (s.sreg k.val cnt).toNat (nm1.toNat + 1) else nm1.toNat + 1) h0 0
  obtain ⟨g, hg, hpc, hregs, hcap, hsb, hring⟩ := jump_core (k := k) h.ready.quiet e ((e.pc + 8) % 2 ^ 40)
  have hk := hkeep _ _ hP
  have hinc : (if ainc then supBase i else none) = none := by
    rw [hb]
    exact ite_self _
  refine ⟨e, g, ?_, hpc.trans (by rw [hk.pc]), by rwa [Nat.zero_add] at hP, hregs, fun r hr => (hregs r).trans (hk.regs r hr), hcap.trans hk.cap,
    hsb.trans hk.sb, hring.trans hk.ring⟩
  rw [h.repn, h.supRep_body hi hf, hinc, he, hg]

/-- REPI over a body that changes its core alone and leaves the count register. -/
theorem RepReady.repi_core (h : RepReady s k word) {i : Instr} {f : State → SRes} (hi : decodeSupBody (.sup k) word = some i)
    (hf : supBodyOf k.val i = some f) (hb : supBase i = none) {P : Nat → Sup → Prop} {keep : Nat → Prop} {cnt : BitVec 5} (h0 : P 0 (s.core k.val))
    (hkeep : ∀ j d, P j d → SupKeeps keep (s.core k.val) d)
    (hstep : ∀ j d, P j d → ∃ e, f (s.setCore k.val d) = .seq (s.setCore k.val e) ∧ e.sb = [] ∧ e.getS cnt.toNat = d.getS cnt.toNat ∧
      P (j + 1) (counted cnt e))
    (ainc : Bool) {upTo : Nat} (hup : (s.sreg k.val cnt).toNat ≤ upTo) :
    let c := s.core k.val
    ∃ e g, exec (.repi k ainc cnt upTo) s = .next (s.setCore k.val g) ∧ g.pc = (c.pc + 8) % 2 ^ 40 ∧ g.getS cnt.toNat = 0 ∧
      P (s.sreg k.val cnt).toNat e ∧ (∀ r, g.getS r = e.getS r) ∧
      (∀ r, keep r → g.getS r = c.getS r) ∧ g.cap = c.cap ∧ g.sb = c.sb ∧ g.ring = c.ring := by
  intro c
  obtain ⟨e, he, hzero, hP⟩ := supRepeat_counts (coreRuns_state h.ready.runs).2 hstep h0 rfl hup 0
  obtain ⟨g, hg, hpc, hregs, hcap, hsb, hring⟩ := jump_core (k := k) h.ready.quiet e ((e.pc + 8) % 2 ^ 40)
  have hk := hkeep _ _ hP
  have hinc : (if ainc then supBase i else none) = none := by
    rw [hb]
    exact ite_self _
  refine ⟨e, g, ?_, hpc.trans (by rw [hk.pc]), (hregs _).trans hzero, by rwa [Nat.zero_add] at hP, hregs, fun r hr => (hregs r).trans (hk.regs r hr),
    hcap.trans hk.cap, hsb.trans hk.sb, hring.trans hk.ring⟩
  rw [h.repi, h.supRep_body hi hf, hinc, he, hg]

/-- A step of REPI keeps what its body and its count register leave. -/
theorem supKeeps_counted {keep : Nat → Prop} {cnt : BitVec 5} {c d e : Sup} {rd : Nat} (h : SupKeeps keep c d) (he : SupKeeps (· ≠ rd) d e)
    (hrd : ∀ r, keep r → r ≠ rd) (hcnt : ∀ r, keep r → r ≠ cnt.toNat) : SupKeeps keep c (counted cnt e) :=
  (h.trans (he.mono hrd)).trans ((supKeeps_putS e _ _).mono hcnt)

end

/-- The word of an ADDI as the decoder of bodies reads it. -/
theorem decodeSupBody_addi {co : Core} {word : Nat} {rd ra : BitVec 5} {imm : BitVec 16} (hw : BitVec.ofNat 32 word = 5#6 ++ rd ++ ra ++ imm)
    (hlt : word < 2 ^ 32) : decodeSupBody co word = some (.addi co rd ra imm) := by
  have hval : word = (5#6 ++ rd ++ ra ++ imm).toNat := by
    rw [← hw, BitVec.toNat_ofNat, Nat.mod_eq_of_lt hlt]
  have hrd := rd.isLt
  have hra := ra.isLt
  have himm := imm.isLt
  have hop : wf 26 6 word = 5 ∧ wf 21 5 word = rd.toNat ∧ wf 16 5 word = ra.toNat ∧ wf 0 16 word = imm.toNat := by
    rw [hval]
    simp only [toNat_append_eq, wf]
    rw [show (5#6).toNat = 5 from rfl]
    omega
  obtain ⟨hop, hrd, hra, himm⟩ := hop
  unfold decodeSupBody
  simp only [hop, op5, hrd, hra, himm, BitVec.ofNat_toNat, BitVec.setWidth_eq]

/-- The opcodes that no body has (R373). -/
theorem decodeSupBody_none {co : Core} {word : Nat} (hop : word / 2 ^ 26 ∈ [0x0B, 0x0C, 0x0D, 0x0E, 0x15, 0x1A, 0x1B, 0x20, 0x21, 0x22, 0x23])
    (hlt : word < 2 ^ 32) : decodeSupBody co word = none := by
  have hwf : wf 26 6 word = word / 2 ^ 26 := Nat.mod_eq_of_lt (by omega)
  unfold decodeSupBody
  rw [hwf]
  simp only [List.mem_cons, List.not_mem_nil, or_false] at hop
  rcases hop with h | h | h | h | h | h | h | h | h | h | h
  all_goals
    rw [h]
    rfl

/-- One repetition of ADDI rd, rd, imm on a core. -/
theorem supAddi_step (s : State) (k : Nat) (d : Sup) {rd : BitVec 5} (imm : BitVec 16) (hrd : rd ≠ 0) :
    ∃ e, supAddi k rd rd imm (s.setCore k d) = .seq (s.setCore k e) ∧ SupKeeps (· ≠ rd.toNat) d e ∧
      e.getS rd.toNat = d.getS rd.toNat + imm.signExtend 64 := by
  have hne : rd.toNat ≠ 0 := fun h => hrd (BitVec.eq_of_toNat_eq h)
  refine ⟨(d.putS rd.toNat (d.getS rd.toNat + imm.signExtend 64)).setFlags (.nzcv (addFlags (d.getS rd.toNat) (imm.signExtend 64))), ?_,
    (supKeeps_putS d _ _).trans (supKeeps_setFlags ..), ?_⟩
  · simp only [supAddi, State.supSet, State.sreg, core_setCore, setCore_setCore]
  · exact getS_putS d _ hne

/-- One more term of a sum. -/
theorem sum_succ (a x : Dword) (j : Nat) : a + BitVec.ofNat 64 j * x + x = a + BitVec.ofNat 64 (j + 1) * x := by
  rw [BitVec.ofNat_add, show BitVec.ofNat 64 1 = (1 : Dword) from rfl]
  ring

/-- Settles O36: any run of a body by `supRepeat_repn` and `supRepeat_repi`, register bodies and ADDI by `repn_core` and `repi_core`. -/
theorem supRepeat : Obligations.SupRepeat := by
  unfold Obligations.SupRepeat
  intro s k rd cnt imm rsrc nm1 upTo word h c body u n sum goes hrep hsb hfetch
  have hr : RepReady s k word := ⟨h, hrep, hsb, hfetch⟩
  have hstart : c.getS rd.toNat = sum 0 := by
    show _ = s.sreg k.val rd + 0#64 * imm.signExtend 64
    rw [BitVec.zero_mul, BitVec.add_zero]
    rfl
  refine ⟨fun ainc i f hi hf => ⟨fun hb => ⟨?_, fun hne hup => ?_⟩, fun x m dec h0 hrun => ⟨fun hdec hm => ?_, fun hdec hnz hz hup => ?_⟩⟩,
    fun hw hlt hrd => ⟨?_, fun hne hcnt hup => ?_⟩, fun hop hlt => ?_⟩
  · obtain ⟨e, g, hx, hpc, -, -, hregs, hcap, hsb', hring⟩ := hr.repn_core hi hf hb (P := fun _ d => SupKeeps (· ≠ word / 2 ^ 21 % 32) c d) (.refl ..)
      (fun _ _ hd => hd) (fun _ d hd => by
        obtain ⟨e, he, hk⟩ := (decodeSupBody_regBody hi).step hb hf s d
        exact ⟨e, he, hd.trans hk⟩) rsrc ainc cnt nm1
    exact ⟨g, hx, hpc, hregs, hcap, hsb', hring⟩
  · obtain ⟨e, g, hx, hpc, hzero, -, -, hregs, hcap, hsb', hring⟩ := hr.repi_core hi hf hb
      (P := fun _ d => SupKeeps (fun r => r ≠ word / 2 ^ 21 % 32 ∧ r ≠ cnt.toNat) c d) (.refl ..)
      (fun _ _ hd => hd) (fun _ d hd => by
        obtain ⟨e, he, hk⟩ := (decodeSupBody_regBody hi).step hb hf s d
        exact ⟨e, he, hk.sb.trans (hd.sb.trans hsb), hk.regs _ hne, supKeeps_counted hd hk (fun _ hr => hr.1) (fun _ hr => hr.2)⟩) ainc hup
    exact ⟨g, hx, hpc, hzero, fun r h1 h2 => hregs r ⟨h1, h2⟩, hcap, hsb', hring⟩
  · subst hdec
    rw [hr.repn, hr.supRep_body hi hf, show s.setCore k.val (s.core k.val) = x 0 from h0.symm]
    rw [show (if rsrc then min (s.sreg k.val cnt).toNat (nm1.toNat + 1) else nm1.toNat + 1) = m from hm.symm, supRepeat_repn hrun]
    rfl
  · subst hdec
    rw [hr.repi, hr.supRep_body hi hf, show s.setCore k.val (s.core k.val) = x 0 from h0.symm, supRepeat_repi hrun hnz hz hup]
    rfl
  · obtain ⟨e, g, hx, hpc, ⟨-, hsum⟩, hsame, hregs, hcap, hsb', hring⟩ := hr.repn_core (decodeSupBody_addi hw hlt) rfl rfl
      (P := fun j d => SupKeeps (· ≠ rd.toNat) c d ∧ d.getS rd.toNat = sum j) ⟨.refl .., hstart⟩ (fun _ _ hd => hd.1) (fun j d hd => by
        obtain ⟨e, he, hk, hadd⟩ := supAddi_step s k d imm hrd
        exact ⟨e, he, hd.1.trans hk, by rw [hadd, hd.2, sum_succ]⟩) rsrc false cnt nm1
    exact ⟨g, hx, hpc, (hsame _).trans hsum, hregs, hcap, hsb', hring⟩
  · have hapart : rd.toNat ≠ cnt.toNat := fun he => hne (BitVec.eq_of_toNat_eq he.symm)
    obtain ⟨e, g, hx, hpc, hzero, ⟨-, hsum⟩, hsame, hregs, hcap, hsb', hring⟩ := hr.repi_core (decodeSupBody_addi hw hlt) rfl rfl
      (P := fun j d => SupKeeps (fun r => r ≠ rd.toNat ∧ r ≠ cnt.toNat) c d ∧ d.getS rd.toNat = sum j) ⟨.refl .., hstart⟩ (fun _ _ hd => hd.1)
      (fun j d hd => by
        obtain ⟨e, he, hk, hadd⟩ := supAddi_step s k d imm hrd
        refine ⟨e, he, hk.sb.trans (hd.1.sb.trans hsb), hk.regs _ hapart.symm, supKeeps_counted hd.1 hk (fun _ hr => hr.1) (fun _ hr => hr.2), ?_⟩
        rw [counted, getS_putS_ne _ _ hapart, hadd, hd.2, sum_succ]) false hup
    exact ⟨g, hx, hpc, (hsame _).trans hsum, hzero, fun r h1 h2 => hregs r ⟨h1, h2⟩, hcap, hsb', hring⟩
  · have hnone := decodeSupBody_none (co := .sup k) hop hlt
    have hpc : (u.core k.val).pc = c.pc := by rw [core_setCore]
    have htraps : (supOutcome s k.val (.exc u 0 0 0 false)).ends = u.supTraps k.val 0 0 0 := by
      rw [State.supTraps, hpc]
      rfl
    exact ⟨(hr.repn ..).trans (by rw [hr.supRep_illegal hnone, htraps]), (hr.repi ..).trans (by rw [hr.supRep_illegal hnone, htraps])⟩

end Sys2Proof.Proofs
end

section
/-! SUPPORT. Interrupts, store drains and the wipe of the core complex (R370, R385, R429, R430). -/

namespace Sys2Proof.Laws
open Sys2Proof.Machine

variable {s t : State} {k a : Nat}

/-! The interrupt that a core takes (R385). -/

/-- One source of a search for the highest level, lowest number among equals. -/
def irqStep (ok : Nat → Bool) (lev : Nat → Nat) (acc : Option (Nat × Nat)) (n : Nat) : Option (Nat × Nat) :=
  if ok n then
    match acc with
    | some (_, l) => if l < lev n then some (n, lev n) else acc
    | none => some (n, lev n)
  else acc

/-- What a search of the sources below N has found: nothing where none is ready, else the best. -/
def IrqBest (ok : Nat → Bool) (lev : Nat → Nat) (N : Nat) : Option (Nat × Nat) → Prop
  | none => ∀ m < N, ok m = false
  | some (n, l) => n < N ∧ ok n = true ∧ l = lev n ∧ (∀ m < N, ok m = true → lev m ≤ l) ∧ ∀ m < n, ok m = true → lev m < l

theorem IrqBest.step {ok : Nat → Bool} {lev : Nat → Nat} {N : Nat} {acc : Option (Nat × Nat)} (h : IrqBest ok lev N acc) :
    IrqBest ok lev (N + 1) (irqStep ok lev acc N) := by
  unfold irqStep
  cases hok : ok N with
  | false =>
    rw [if_neg Bool.false_ne_true]
    match acc, h with
    | none, h =>
      intro m hm
      rcases Nat.lt_succ_iff_lt_or_eq.mp hm with hm | rfl
      · exact h m hm
      · exact hok
    | some (n, l), ⟨hn, hrn, hl, hmax, hfirst⟩ =>
      refine ⟨hn.trans (Nat.lt_succ_self N), hrn, hl, fun m hm hr => ?_, hfirst⟩
      rcases Nat.lt_succ_iff_lt_or_eq.mp hm with hm | rfl
      · exact hmax m hm hr
      · exact absurd hr (by simp [hok])
  | true =>
    rw [if_pos rfl]
    match acc, h with
    | none, h =>
      refine ⟨Nat.lt_succ_self N, hok, rfl, fun m hm hr => ?_, fun m hm hr => absurd hr (by simp [h m hm])⟩
      rcases Nat.lt_succ_iff_lt_or_eq.mp hm with hm | rfl
      · exact absurd hr (by simp [h m hm])
      · exact Nat.le_refl _
    | some (n, l), ⟨hn, hrn, hl, hmax, hfirst⟩ =>
      dsimp only
      split
      next hlt =>
        refine ⟨Nat.lt_succ_self N, hok, rfl, fun m hm hr => ?_, fun m hm hr => (hmax m hm hr).trans_lt hlt⟩
        rcases Nat.lt_succ_iff_lt_or_eq.mp hm with hm | rfl
        · exact (hmax m hm hr).trans hlt.le
        · exact Nat.le_refl _
      next hge =>
        refine ⟨hn.trans (Nat.lt_succ_self N), hrn, hl, fun m hm hr => ?_, hfirst⟩
        rcases Nat.lt_succ_iff_lt_or_eq.mp hm with hm | rfl
        · exact hmax m hm hr
        · exact Nat.not_lt.mp hge

theorem irqBest_range (ok : Nat → Bool) (lev : Nat → Nat) (N : Nat) : IrqBest ok lev N ((List.range N).foldl (irqStep ok lev) none) := by
  induction N with
  | zero => exact fun m hm => absurd hm (Nat.not_lt_zero m)
  | succ N ih =>
    rw [List.range_succ, List.foldl_append]
    exact ih.step

theorem irqBest_found {ok : Nat → Bool} {lev : Nat → Nat} {N n l : Nat} (h : (List.range N).foldl (irqStep ok lev) none = some (n, l)) :
    n < N ∧ ok n = true ∧ l = lev n ∧ (∀ m < N, ok m = true → lev m ≤ l) ∧ ∀ m < n, ok m = true → lev m < l := by
  have hbest := irqBest_range ok lev N
  rw [h] at hbest
  exact hbest

/-- Whether a core may take an interrupt source (R385). -/
def irqReady (s : State) (k n : Nat) : Bool :=
  s.flag F.SUP_IDATA_EN n && s.irqPending n && s.irqReaches n k && decide ((s.core k).plvl < s.fld F.SUP_IDATA_LEVEL n + 1) &&
    (bit 8 (s.core k).pst || s.fld F.SUP_IDATA_LEVEL n == 15)

theorem irqReady_iff (s : State) (k n : Nat) : irqReady s k n = true ↔ s.flag F.SUP_IDATA_EN n = true ∧ s.irqPending n = true ∧
    s.irqReaches n k = true ∧ (s.core k).plvl < s.fld F.SUP_IDATA_LEVEL n + 1 ∧ (bit 8 (s.core k).pst = true ∨ s.fld F.SUP_IDATA_LEVEL n = 15) := by
  simp only [irqReady, Bool.and_eq_true, Bool.or_eq_true, decide_eq_true_eq, beq_iff_eq, and_assoc]

theorem irqChoice_eq (s : State) (k : Nat) :
    s.irqChoice k = (List.range 1024).foldl (irqStep (irqReady s k) (s.fld F.SUP_IDATA_LEVEL)) none := by
  unfold State.irqChoice
  dsimp only
  congr 1

theorem irqChoice_best {n l : Nat} (h : s.irqChoice k = some (n, l)) : n < 1024 ∧ irqReady s k n = true ∧ l = s.fld F.SUP_IDATA_LEVEL n ∧
    (∀ m < 1024, irqReady s k m = true → s.fld F.SUP_IDATA_LEVEL m ≤ l) ∧ ∀ m < n, irqReady s k m = true → s.fld F.SUP_IDATA_LEVEL m < l :=
  irqBest_found ((irqChoice_eq s k).symm.trans h)

/-- When a core with software takes no interrupt (R385). -/
theorem supInterrupt_stays (h : s.boot ≠ .done ∨ s.irqChoice k = none ∨ 2 ≤ s.fld F.SUP_STAT_STATE k ∨ s.flag F.MEM_STAT_WIPING 0 = true ∨
    (s.core k).rep ≠ 0) : s.supInterrupt k = s := by
  unfold State.supInterrupt
  split
  next => rfl
  next hno =>
    simp only [Bool.or_eq_true, decide_eq_true_eq, bne_iff_ne, not_or, ne_eq, not_not] at hno
    obtain ⟨⟨⟨⟨⟨-, hb⟩, -⟩, hst⟩, hw⟩, hr⟩ := hno
    rcases h with h | h | h | h | h
    · exact absurd hb h
    · rw [h]
    · exact absurd h hst
    · exact absurd h hw
    · exact absurd hr h

/-- A core that may be interrupted enters the interrupt that it would take. -/
theorem supInterrupt_enters {n l : Nat} (hp : s.alive 4 = true) (hb : s.boot = .done) (hl : (s.logicalCore k).isSome = true)
    (hc : s.irqChoice k = some (n, l)) (hst : s.fld F.SUP_STAT_STATE k < 2) (hw : s.flag F.MEM_STAT_WIPING 0 = false) (hr : (s.core k).rep = 0) :
    s.supInterrupt k = (s.setFld F.SUP_STAT_STATE k 0).supException k (0x10 + l) n (s.core k).pc 0 (some l) := by
  obtain ⟨g, hg⟩ := Option.isSome_iff_exists.mp hl
  have hgo : (!s.alive 4 || s.boot != .done || (s.logicalCore k).isNone || decide (2 ≤ s.fld F.SUP_STAT_STATE k) || s.flag F.MEM_STAT_WIPING 0 ||
      (s.core k).rep != 0) = false := by
    simp [hp, hb, hg, hst, hw, hr]
  unfold State.supInterrupt
  rw [hgo, hc]
  rfl

/-! Store drains (R370, R384). -/

theorem supDrain_empty (h : (s.core k).sb = []) : s.supDrain k = s := by
  unfold State.supDrain
  dsimp only
  rw [h]

theorem supDrain_cons {x : SupStore} {rest : List SupStore} (h : (s.core k).sb = x :: rest) :
    s.supDrain k = match (s.setCore k { s.core k with sb := rest }).supStoreNow k x with
      | (none, t) => t
      | (some _, t) => t.supException k 5 0 x.pc x.addr none := by
  unfold State.supDrain
  dsimp only
  rw [h]
  dsimp only
  rcases (s.setCore k { s.core k with sb := rest }).supStoreNow k x with ⟨_ | e, t⟩ <;> rfl

/-- An aligned word written by a core in its RAM, where no wipe is under way. -/
theorem busWrite_coreRam (hp : s.alive 4 = true) (hw : s.underWipe a = false) (hram : isCoreRam a = true) (ha : a % 8 = 0) (who : Agent)
    (v : Nat) (pc : Option Nat) : s.busWrite who a 8 v pc = (none, wordPut s a v) := by
  obtain ⟨hlow, hhigh⟩ := coreRam_range hram
  have hremote : a < remoteBase := by unfold remoteBase; omega
  have hsq : ¬ sqSpace ≤ a := by unfold sqSpace; omega
  have hlode : ¬ 0x100000000 ≤ a := by omega
  have hput : s.writeMem a 8 v who.init = wordPut s a v := by
    rw [State.writeMem, State.writeMemAt, show a / 8 * 8 = a by omega, ha]
    exact writeMask_coreRam hram v _
  have hkept : s.memKept who a 8 = false := by
    simp only [State.memKept, hsq, hlode, decide_false, Bool.false_and, Bool.or_self]
  have hplan : planReadOnly a = false := by
    simp only [planReadOnly, hsq, decide_false, Bool.false_and]
  rw [State.busWrite, if_pos hremote, State.localWrite, if_neg (by omega), if_pos (coreRam_isMemory hram), State.memWrite, memDomain_coreRam hram,
    hp, hw, hkept, hplan, hput]
  rfl

/-- What a stored word leaves with no injection armed (R432). -/
theorem wordPut_idle (hi : s.flag F.MEM_INJ_ARM 0 = false) (v : Nat) : (wordPut s a v).regs = s.regs ∧ (wordPut s a v).chkAt a = .valid ∧
    (wordPut s a v).tagAt a = false := by
  obtain ⟨regs, chk, h, hidle⟩ := wordPut_writes s a v
  obtain ⟨hregs, hchk⟩ := hidle hi
  rw [h]
  refine ⟨hregs, ?_, tagAt_setTag s a false⟩
  rw [hchk]
  exact chkAt_setChk s a

/-! The wipe (R429). -/

/-- A table without the entries that a test refuses. -/
theorem look_filter {α : Type} (d : Nat → α) (keep : Nat → Bool) (l : Tab α) (k : Nat) :
    Tab.look d (l.filter (fun p => keep p.1)) k = if keep k then Tab.look d l k else d k := by
  induction l with
  | nil => exact (ite_self _).symm
  | cons p l ih =>
    obtain ⟨j, v⟩ := p
    rw [List.filter_cons]
    by_cases hk : k = j
    · subst hk
      cases hkeep : keep k with
      | true => simp [Tab.look]
      | false => simpa [hkeep] using ih
    · split
      · simpa [Tab.look, hk] using ih
      · simpa [Tab.look, hk] using ih

end Sys2Proof.Laws
end

section
/-! SUPPORT. Wipes and remap tables (R429, R430, R437), and the registers of cores, DMA channels and memory integrity (R387, R389, R442). -/

namespace Sys2Proof.Laws
open Sys2Proof.Machine

variable {s t : State} {a m x i : Nat} {doms : List Nat} {keep : Bool}

/-! The wipe (R429). -/

/-- A square of the domains loses its snapshots, and no slot table of it is one that a load has emptied (R152, R421). -/
def wipeSquare (doms : List Nat) (q : Nat) (s : State) : State :=
  if doms.contains (sqDom q) then (s.setRegN .SQ_SNAPST q 0).setSquare q { s.square q with clear := 0 } else s

theorem wipeSquare_memory (doms : List Nat) (q : Nat) (s : State) :
    (wipeSquare doms q s).mem = s.mem ∧ (wipeSquare doms q s).chk = s.chk ∧ (wipeSquare doms q s).tags = s.tags := by
  unfold wipeSquare
  split <;> exact ⟨rfl, rfl, rfl⟩

theorem wipeFiles_memory (s : State) (doms : List Nat) :
    (s.wipeFiles doms).mem = s.mem ∧ (s.wipeFiles doms).chk = s.chk ∧ (s.wipeFiles doms).tags = s.tags := by
  refine repeatN_keeps (f := wipeSquare doms) (P := fun t : State => t.mem = s.mem ∧ t.chk = s.chk ∧ t.tags = s.tags)
    (fun q _ t ⟨hm, hc, ht⟩ => ?_) ⟨rfl, rfl, rfl⟩
  obtain ⟨hm', hc', ht'⟩ := wipeSquare_memory doms q t
  exact ⟨hm'.trans hm, hc'.trans hc, ht'.trans ht⟩

theorem wipeFiles_clear (s : State) {q : Nat} (hq : q < 64) (hd : doms.contains (sqDom q) = true) : ((s.wipeFiles doms).square q).clear = 0 := by
  refine repeatN_at (f := wipeSquare doms) (before := fun _ _ => True)
    (after := fun q (t : State) => doms.contains (sqDom q) = true → (t.square q).clear = 0)
    (fun q _ t _ hd => ?_) (fun _ _ _ _ _ _ _ => trivial) (fun q _ j _ hne t ht hd => ?_) (fun _ _ => trivial) q hq hd
  · rw [wipeSquare, if_pos hd]
    exact congrArg Square.clear (Tab_look_put_same ..)
  · rw [wipeSquare]
    split
    · exact (congrArg Square.clear (Tab_look_put_ne _ _ _ hne)).trans (ht hd)
    · exact ht hd

theorem endWipe_some (h : s.wipe = some (doms, keep)) :
    s.endWipe = { (s.wipeSram doms keep).wipeFiles doms with wipe := none }.setFld F.MEM_STAT_WIPING 0 0 := by
  unfold State.endWipe
  rw [h]

/-- Memories begin and end at granules. -/
theorem isSram_aligned (a : Nat) {n : Nat} (hn : n ∈ [8, 16]) : isSram (n * (a / n)) = isSram a := by
  rw [Bool.eq_iff_iff]
  simp only [isSram, isCoreRam, Bool.or_eq_true, Bool.and_eq_true, decide_eq_true_eq]
  simp only [List.mem_cons, List.not_mem_nil, or_false] at hn
  unfold sqSpace
  rcases hn with rfl | rfl <;> omega

/-- A wipe reaches memory by words and by granules. -/
theorem wiped_aligned (doms : List Nat) (keep : Bool) (a : Nat) {n : Nat} (hn : n ∈ [8, 16]) : wiped doms keep (n * (a / n)) = wiped doms keep a := by
  have hsram := isSram_aligned a hn
  simp only [List.mem_cons, List.not_mem_nil, or_false] at hn
  have hsq : sqSpace ≤ n * (a / n) ↔ sqSpace ≤ a := by
    unfold sqSpace
    rcases hn with rfl | rfl <;> omega
  have hlode : 0x100000000 ≤ n * (a / n) ↔ 0x100000000 ≤ a := by rcases hn with rfl | rfl <;> omega
  have hdom : sqSpace ≤ a → (n * (a / n) - sqSpace) / 0x100000 = (a - sqSpace) / 0x100000 := by
    unfold sqSpace
    rcases hn with rfl | rfl <;> omega
  have htcm : inTcm0 (n * (a / n)) = inTcm0 a := by
    rw [Bool.eq_iff_iff]
    simp only [inTcm0, Bool.and_eq_true, decide_eq_true_eq]
    rcases hn with rfl | rfl <;> omega
  have hplace : sramDom (n * (a / n)) = sramDom a := by
    unfold sramDom
    rw [hsram]
    simp only [hsq, hlode]
    split
    · rfl
    · split
      next h => rw [hdom h]
      next => rfl
  rw [wiped, wiped, hplace, htcm]

/-- What a wipe reaches lies in SRAM, and reads 0 where nothing has written it (R10, R429). -/
theorem wiped_sram (h : wiped doms keep a = true) : isSram a = true ∧ memDefault a = 0 := by
  have hs : isSram a = true := by
    unfold wiped sramDom at h
    cases hs : isSram a with
    | true => rfl
    | false => simp [hs] at h
  refine ⟨hs, ?_⟩
  simp only [isSram, isCoreRam, Bool.or_eq_true, Bool.and_eq_true, decide_eq_true_eq] at hs
  unfold sqSpace at hs
  unfold memDefault
  rw [if_neg (by omega), if_neg (by
    simp only [Bool.and_eq_true, decide_eq_true_eq]
    omega)]

/-- A square in SRAM that a wipe reaches is of one of its domains. -/
theorem wiped_square (h : wiped doms keep a = true) (hsq : sqSpace ≤ a) : doms.contains (sqDom ((a - sqSpace) / 0x100000)) = true := by
  have hs := (wiped_sram h).1
  unfold wiped sramDom at h
  simp only [hs, hsq, Bool.not_true, Bool.false_eq_true, if_false, if_true, Bool.and_eq_true] at h
  exact h.1

/-- The memories of its domains after a wipe. -/
theorem endWipe_wiped (h : s.wipe = some (doms, keep)) (ha : wiped doms keep a = true) :
    s.endWipe.byte a = 0 ∧ s.endWipe.tagAt a = false ∧ s.endWipe.chkAt a = .poison := by
  obtain ⟨hmem, hchk, htags⟩ := wipeFiles_memory (s.wipeSram doms keep) doms
  obtain ⟨hsram, hdefault⟩ := wiped_sram ha
  rw [endWipe_some h]
  refine ⟨?_, ?_, ?_⟩
  · refine (congrArg (fun l => Tab.look memDefault l a) hmem).trans ((look_filter _ (fun b => !(wiped doms keep b || (sqCleared b && doms.contains (sqDom ((b - sqSpace) / 0x100000))))) _ _).trans ?_)
    rw [ha, Bool.true_or, if_neg (by decide), hdefault]
  · refine (congrArg (fun l => Tab.look (fun _ => false) l (a / 16)) htags).trans ((look_filter _ (fun b => !wiped doms keep (16 * b)) _ _).trans ?_)
    rw [wiped_aligned doms keep a (by decide), ha, if_neg (by decide)]
  · have hlook : Tab.look chkDefault ((s.wipeSram doms keep).wipeFiles doms).chk (a / 8) = .poison := by
      rw [hchk]
      refine (look_filter _ (fun b => !wiped doms keep (8 * b)) _ _).trans ?_
      rw [wiped_aligned doms keep a (by decide), ha, if_neg (by decide), chkDefault, isSram_aligned a (by decide), hsram, if_pos rfl]
    have hslot : ((s.wipeSram doms keep).wipeFiles doms).slotClear a = false := by
      unfold State.slotClear
      by_cases hin : sqSpace ≤ a ∧ a < sqSpace + 0x4000000
      · have hclear : (((s.wipeSram doms keep).wipeFiles doms).square ((a - sqSpace) / 0x100000)).clear = 0 :=
          wipeFiles_clear _ (by omega) (wiped_square ha hin.1)
        rw [show (Tab.look (fun _ => Square.init) ((s.wipeSram doms keep).wipeFiles doms).sq ((a - sqSpace) / 0x100000)).clear = 0 from hclear]
        simp [bit]
      · have hout : (decide (sqSpace ≤ a) && decide (a < sqSpace + 0x4000000)) = false := by
          rw [← Bool.decide_and]
          exact decide_eq_false hin
        rw [hout]
        rfl
    show (match Tab.look chkDefault ((s.wipeSram doms keep).wipeFiles doms).chk (a / 8) with
      | .poison => if ((s.wipeSram doms keep).wipeFiles doms).slotClear a then Chk.valid else .poison
      | c => c) = .poison
    rw [hlook, hslot]
    rfl

/-- What a wipe does not reach. -/
theorem endWipe_kept (h : s.wipe = some (doms, keep)) (ha : wiped doms keep a = false) (hs : sqCleared a = false) : s.endWipe.byte a = s.byte a := by
  obtain ⟨hmem, -, -⟩ := wipeFiles_memory (s.wipeSram doms keep) doms
  rw [endWipe_some h]
  refine (congrArg (fun l => Tab.look memDefault l a) hmem).trans
    ((look_filter _ (fun b => !(wiped doms keep b || (sqCleared b && doms.contains (sqDom ((b - sqSpace) / 0x100000))))) _ _).trans ?_)
  rw [ha, hs]
  rfl

/-! Remap tables (R437). -/

theorem leBytes_ofLeBytes (l : List Byte) : leBytes l.length (ofLeBytes l) = l := by
  induction l with
  | nil => rfl
  | cons b l ih =>
    have hb := b.isLt
    rw [List.length_cons, leBytes, ofLeBytes, show (b.toNat + 256 * ofLeBytes l) / 256 = ofLeBytes l by omega, ih]
    congr 1
    refine BitVec.eq_of_toNat_eq ?_
    rw [BitVec.toNat_ofNat]
    omega

/-- Bytes written where they stand change nothing. -/
theorem byte_poke_peek (h : ∀ b, t.byte b = s.byte b) (a n b : Nat) : (t.poke a n (s.peek a n)).byte b = s.byte b := by
  have hlen : (s.bytes a n).length = n := by rw [State.bytes, List.length_map, List.length_range]
  have hput : t.poke a n (s.peek a n) = t.setBytes a (s.bytes a n) := by
    have hle := leBytes_ofLeBytes (s.bytes a n)
    rw [hlen] at hle
    rw [State.poke, State.peek, hle]
  rw [hput]
  rcases Nat.lt_or_ge b a with hlow | hlow
  · rw [byte_setBytes_below _ _ hlow, h]
  rcases Nat.lt_or_ge b (a + n) with hin | hhigh
  · obtain ⟨j, rfl⟩ := Nat.exists_eq_add_of_le hlow
    have hbytes := bytes_setBytes (s.bytes a n) t a
    rw [hlen] at hbytes
    have hj : j < n := by omega
    have hget := congrArg (fun l : List Byte => l[j]?) hbytes
    simpa [State.bytes, hj] using hget
  · rw [byte_setBytes_above _ _ (by omega), h]

/-- A word of a row is its bytes, whatever its check state and tag. -/
theorem byte_rowWord (t : State) (a v : Nat) (c : Chk) (tag : Bool) (b : Nat) :
    (if a % 16 = 0 then ((t.poke a 8 v).setChk a c).setTag a tag else (t.poke a 8 v).setChk a c).byte b = (t.poke a 8 v).byte b := by
  split <;> rfl

/-- A row written with the words that it holds, whatever their check states, changes no byte. -/
theorem byte_rowPut {row : Nat} (f : Nat × Chk × Bool → Nat × Chk × Bool) (hf : ∀ y, (f y).1 = y.1) (h : ∀ b, t.byte b = s.byte b) (b : Nat) :
    (t.rowPut m row ((s.rowGet m row).map f)).byte b = s.byte b := by
  unfold State.rowPut
  refine repeatN_keeps (P := fun t : State => ∀ b, t.byte b = s.byte b) (fun i hi t ht => ?_) h b
  have hget : ((s.rowGet m row).map f)[i]? = some (f (s.peek (macroAddr m (8 * row + i)) 8, s.chkAt (macroAddr m (8 * row + i)),
      s.tagAt (macroAddr m (8 * row + i)))) := by
    simp [State.rowGet, hi]
  rw [hget]
  intro b
  refine (byte_rowWord t _ _ _ _ b).trans ?_
  rw [hf]
  exact byte_poke_peek ht _ 8 b

end Sys2Proof.Laws
end

section
/-! SUPPORT. A remap entry that completes, and the registers of cores, DMA channels and memory integrity (R387, R389, R437, R442). -/

namespace Sys2Proof.Laws
open Sys2Proof.Machine

variable {s t : State} {m x i : Nat}

/-! Rounds with a count. -/

/-- What one round brings from each count to the next holds after all of them. -/
theorem repeatN_counts {σ : Type} {P : Nat → σ → Prop} {f : Nat → σ → σ} {n : Nat} (h : ∀ k < n, ∀ x, P k x → P (k + 1) (f k x)) {x : σ}
    (h0 : P 0 x) : P n (repeatN n f x) := by
  induction n with
  | zero => exact h0
  | succ n ih =>
    have hsucc : repeatN (n + 1) f x = f n (repeatN n f x) := by
      simp [repeatN, List.range_succ]
    rw [hsucc]
    exact h n (Nat.lt_succ_self n) _ (ih fun k hk => h k (Nat.lt_succ_of_lt hk))

/-! Remap tables (R437). -/

theorem rowSwap_invalid (h : s.flag F.MEM_RDATA_VALID (remapEntry m x) = false) : s.rowSwap m x = s := by
  unfold State.rowSwap
  dsimp only
  rw [h, Bool.false_and, Bool.false_and, if_neg Bool.false_ne_true]

theorem unserve_invalid (h : ∀ y < 8, s.flag F.MEM_RDATA_VALID (remapEntry m y) = false) : s.unserve m = s :=
  repeatN_fixed fun y hy => rowSwap_invalid (h y hy)

theorem regs_rowPut (s : State) (m row : Nat) (l : List (Nat × Chk × Bool)) :
    (s.rowPut m row l).regs = s.regs ∧ (s.rowPut m row l).raised = s.raised ∧ (s.rowPut m row l).notes = s.notes := by
  unfold State.rowPut
  refine repeatN_keeps (P := fun t : State => t.regs = s.regs ∧ t.raised = s.raised ∧ t.notes = s.notes) (fun i hi t ht => ?_) ⟨rfl, rfl, rfl⟩
  split
  next v c tag _ =>
    obtain ⟨mem, hmem⟩ := setBytes_mem (leBytes 8 v) t (macroAddr m (8 * row + i))
    have hpoke : t.poke (macroAddr m (8 * row + i)) 8 v = { t with mem := mem } := hmem
    dsimp only
    rw [hpoke]
    split <;> exact ht
  next => exact ht

theorem spareRow_free (s : State) (m x : Nat) : ∃ n, (s.spareRow m x).2 = { s with free := n } := by
  unfold State.spareRow
  split
  · exact ⟨_, rfl⟩
  · exact ⟨s.free, rfl⟩

/-- Rows that change places change no register, and raise nothing. -/
theorem rowSwap_regs (s : State) (m x : Nat) :
    (s.rowSwap m x).regs = s.regs ∧ (s.rowSwap m x).raised = s.raised ∧ (s.rowSwap m x).notes = s.notes := by
  obtain ⟨n, hn⟩ := spareRow_free s m x
  unfold State.rowSwap
  dsimp only
  split
  · have hput := regs_rowPut (s.spareRow m x).2 m (s.fld F.MEM_RDATA_ROW (remapEntry m x)) (s.spareRow m x).1
    rw [hn] at hput ⊢
    exact hput
  · exact ⟨rfl, rfl, rfl⟩

theorem quiet_rowSwap (h : s.Quiet) (m x : Nat) : (s.rowSwap m x).Quiet :=
  quiet_of_eq h (rowSwap_regs s m x).2.1 (rowSwap_regs s m x).2.2

theorem quiet_retable (h : s.Quiet) (m : Nat) {f : State → State} (hf : ∀ t : State, t.Quiet → (f t).Quiet) : (s.retable m f).Quiet :=
  repeatN_keeps (P := State.Quiet) (fun _ _ _ ht => quiet_rowSwap ht m _) (hf _ (repeatN_keeps (P := State.Quiet) (fun _ _ _ ht => quiet_rowSwap ht m _) h))

/-- A memory whose one entry in effect holds a copy of the row that it serves. -/
structure OneCopy (s t : State) (m x : Nat) (f : Nat × Chk × Bool → Nat × Chk × Bool) : Prop where
  others : ∀ y < 8, y ≠ x → t.flag F.MEM_RDATA_VALID (remapEntry m y) = false
  bytes : ∀ a, t.byte a = s.byte a
  copy : Tab.look (fun _ => []) t.spares (remapEntry m x) = (s.rowGet m (t.fld F.MEM_RDATA_ROW (remapEntry m x))).map f

/-- Served from the copy, no byte and no register changes. -/
theorem serve_oneCopy {f : Nat × Chk × Bool → Nat × Chk × Bool} (hf : ∀ y, (f y).1 = y.1) (hx : x < 8) (h : OneCopy s t m x f) :
    (t.serve m).regs = t.regs ∧ ∀ a, (t.serve m).byte a = s.byte a := by
  obtain ⟨-, hregs, hbytes⟩ := repeatN_counts (n := 8) (f := fun y s => s.rowSwap m (7 - y)) (x := t)
    (P := fun k (u : State) => (k ≤ 7 - x → u = t) ∧ u.regs = t.regs ∧ ∀ a, u.byte a = s.byte a) (fun k hk u ⟨hsame, hregs, hbytes⟩ => by
      by_cases hkx : 7 - k = x
      · obtain rfl := hsame (by omega)
        refine ⟨fun hle => by omega, (rowSwap_regs u m _).1, fun a => ?_⟩
        rw [hkx]
        have hspare : u.spareRow m x = ((s.rowGet m (u.fld F.MEM_RDATA_ROW (remapEntry m x))).map f, u) := by
          unfold State.spareRow
          rw [h.copy]
          rfl
        unfold State.rowSwap
        dsimp only
        rw [hspare]
        split
        · exact byte_rowPut f hf h.bytes a
        · exact h.bytes a
      · have hno : u.flag F.MEM_RDATA_VALID (remapEntry m (7 - k)) = false :=
          (flag_of_regs hregs _ _).trans (h.others _ (by omega) hkx)
        rw [rowSwap_invalid hno]
        exact ⟨fun hle => hsame (by omega), hregs, hbytes⟩) ⟨fun _ => rfl, rfl, h.bytes⟩
  exact ⟨hregs, hbytes⟩

/-! Writes of registers (R14, R385, R389, R437, R442). -/

theorem writeBy_SUP_DOORBELL {who : Initiator} {k : Fin 10} (h : s.Takes who .SUP_DOORBELL k.val) (v : Nat) :
    s.writeBy who .SUP_DOORBELL k.val v =
      if bit 1 v then s.setFld F.SUP_DOORBELL_RING k.val 0 else if bit 0 v then s.setFld F.SUP_DOORBELL_RING k.val 1 else s := by
  have hb : keyBlock (Reg.SUP_DOORBELL.key k.val) = 15 := keyBlock_key _ (by omega)
  rw [writeBy_takes h (placed_of_count (n := 10) (by decide +kernel) k.isLt) (by decide)]
  unfold State.regWrite
  rw [hb]
  rfl

theorem writeBy_DMA_CTL {who : Initiator} {m : Fin 32} (h : s.Takes who .DMA_CTL m.val) (v : Nat) :
    s.writeBy who .DMA_CTL m.val v = s.dmaWrite .DMA_CTL m.val v := by
  have hb : keyBlock (Reg.DMA_CTL.key m.val) = 0x10 := keyBlock_key _ (by omega)
  rw [writeBy_takes h (placed_of_count (n := 32) (by decide +kernel) m.isLt) (by decide)]
  unfold State.regWrite State.writeOther
  rw [hb]
  rfl

theorem writeBy_MEM_INJ {who : Initiator} (h : s.Takes who .MEM_INJ 0) (v : Nat) : s.writeBy who .MEM_INJ 0 v = s.writeInj v := by
  have hb : keyBlock (Reg.MEM_INJ.key 0) = 6 := keyBlock_key _ (by omega)
  rw [writeBy_takes h (by decide +kernel) (by decide)]
  unfold State.regWrite
  rw [hb]
  rfl

theorem writeSel_MEM_RDATA {who : Initiator} (hi : i < 65536) (ha : s.answers 0x400060020 = true) (hm : s.regMay who.agent .MEM_RDATA i = true)
    (v : Nat) : s.writeSel who 0x400060020 .MEM_RDATA i v = s.writeRdata v := by
  have hb : keyBlock (Reg.MEM_RDATA.key i) = 6 := keyBlock_key _ hi
  have hkept : s.regKept .MEM_RDATA i v = false := by
    unfold State.regKept
    rw [List.find?_eq_none.mpr (by decide)]
    rfl
  have hwrite : s.regWrite who.agent .MEM_RDATA i v s.now = s.writeRdata v := by
    unfold State.regWrite
    rw [hb]
    rfl
  unfold State.writeSel
  rw [ha, hm, hkept, hwrite]
  rfl

/-- GO leaves every other bit of CTL (R389). -/
theorem go_and (n : Nat) : setBits 1 1 1 n &&& 0xFD = n &&& 0xFD := by
  refine Nat.eq_of_testBit_eq fun j => ?_
  rw [Nat.testBit_and, Nat.testBit_and]
  have hbit := bit_setBits j 1 1 1 n
  unfold bit at hbit
  rw [hbit]
  rcases Nat.lt_trichotomy j 1 with hj | rfl | hj
  · rw [if_pos hj]
  · rw [show Nat.testBit 253 1 = false from rfl, Bool.and_false, Bool.and_false]
  · rw [if_neg (by omega), if_neg (by omega)]

/-- The lowest bit of a number whose bits under an odd mask are put back. -/
theorem testBit_zero_restored (n : Nat) : (n - (n &&& 0xFD) ||| (n &&& 0xFD)).testBit 0 = n.testBit 0 := by
  have hle : n &&& 0xFD ≤ n := Nat.and_le_left
  have hlow : (n &&& 0xFD).testBit 0 = n.testBit 0 := by
    rw [Nat.testBit_and]
    exact Bool.and_true _
  rw [Nat.testBit_or, hlow]
  simp only [Nat.testBit_zero] at hlow ⊢
  by_cases hn : n % 2 = 1
  · simp [hn]
  · have hx : ¬ (n &&& 0xFD) % 2 = 1 := of_decide_eq_false (hlow.trans (decide_eq_false hn))
    simp [hn, show ¬ (n - (n &&& 0xFD)) % 2 = 1 by omega]

theorem regPlain_go (s : State) (m : Nat) : s.regPlain .DMA_CTL m (setBits 1 1 1 (s.regN .DMA_CTL m)) =
    s.setRegN .DMA_CTL m (s.regN .DMA_CTL m - (s.regN .DMA_CTL m &&& 0xFD) ||| (s.regN .DMA_CTL m &&& 0xFD)) := by
  unfold State.regPlain
  have hspec : (Reg.spec .DMA_CTL).rw = 0xFD ∧ (Reg.spec .DMA_CTL).w1c = 0 ∧ (Reg.spec .DMA_CTL).w1s = 0 := by decide
  obtain ⟨hrw, hc, hs⟩ := hspec
  simp only [hrw, hc, hs, Nat.zero_and, Nat.and_zero, Nat.or_zero, go_and]

/-- Setting GO leaves EN. -/
theorem flag_EN_go (s : State) (m : Nat) :
    (s.regPlain .DMA_CTL m (setBits 1 1 1 (s.regN .DMA_CTL m))).flag F.DMA_CTL_EN m = s.flag F.DMA_CTL_EN m := by
  have hflag (t : State) : t.flag F.DMA_CTL_EN m = bit 0 (t.regN .DMA_CTL m) := (bit_eq_bits 0 _).symm
  have hn : s.regN .DMA_CTL m < 2 ^ 32 := (s.reg .DMA_CTL m).isLt
  have hw : s.regN .DMA_CTL m - (s.regN .DMA_CTL m &&& 0xFD) ||| (s.regN .DMA_CTL m &&& 0xFD) < 2 ^ 32 :=
    Nat.or_lt_two_pow ((Nat.sub_le ..).trans_lt hn) (Nat.and_le_left.trans_lt hn)
  rw [regPlain_go, hflag, hflag, regN_setRegN _ _ _ _ hw]
  exact testBit_zero_restored _

/-- GO of a busy channel only overruns it (R387, R389). -/
theorem dmaWrite_go_busy (hb : s.flag F.DMA_STAT_BUSY m = true) :
    s.dmaWrite .DMA_CTL m (setBits 1 1 1 (s.regN .DMA_CTL m)) = if s.flag F.DMA_STAT_ERR m then s else s.setFld F.DMA_STAT_OVR m 1 := by
  have hbit : bit 1 (setBits 1 1 1 (s.regN .DMA_CTL m)) = true := bit_setBits_same 1 1 _
  unfold State.dmaWrite
  simp only [hb, hbit, go_and, beq_self_eq_true, Bool.and_self, Bool.true_and, if_true]
  cases he : s.flag F.DMA_STAT_ERR m with
  | true => rfl
  | false =>
    unfold State.dmaStart
    simp only [hb, Bool.not_false, if_true, Bool.false_eq_true, if_false]

/-- GO of an idle channel starts it where it is enabled (R387). -/
theorem dmaWrite_go_idle (hm : m < 65536) (hb : s.flag F.DMA_STAT_BUSY m = false) :
    s.dmaWrite .DMA_CTL m (setBits 1 1 1 (s.regN .DMA_CTL m)) =
      if s.flag F.DMA_STAT_ERR m || !s.flag F.DMA_CTL_EN m then s.regPlain .DMA_CTL m (setBits 1 1 1 (s.regN .DMA_CTL m))
      else
        let u := s.regPlain .DMA_CTL m (setBits 1 1 1 (s.regN .DMA_CTL m))
        let v : State := { u.setFld F.DMA_STAT_BUSY m 1 with dma := Tab.put (fun _ => (⟨none⟩ : Dma)) s.dma m ⟨none⟩ }
        if s.fld F.DMA_LEN_LEN m = 0 then v.dmaFinish m else v := by
  have hbit : bit 1 (setBits 1 1 1 (s.regN .DMA_CTL m)) = true := bit_setBits_same 1 1 _
  have hfld (g : Fld) (hg : g.reg.ctorIdx ≠ Reg.DMA_CTL.ctorIdx) :
      (s.regPlain .DMA_CTL m (setBits 1 1 1 (s.regN .DMA_CTL m))).fld g m = s.fld g m := by
    rw [regPlain_go]
    exact fld_setRegN_ne _ hg hm hm
  have hen := flag_EN_go s m
  have hdma : (s.regPlain .DMA_CTL m (setBits 1 1 1 (s.regN .DMA_CTL m))).dma = s.dma := by
    rw [regPlain_go]
    rfl
  unfold State.dmaWrite
  simp only [hb, hbit, Bool.false_eq_true, if_false, Bool.true_and]
  generalize s.regPlain .DMA_CTL m (setBits 1 1 1 (s.regN .DMA_CTL m)) = u at hfld hen hdma ⊢
  have herr : u.flag F.DMA_STAT_ERR m = s.flag F.DMA_STAT_ERR m := flag_of_fld (hfld F.DMA_STAT_ERR (by decide))
  have hbusy : u.flag F.DMA_STAT_BUSY m = false := (flag_of_fld (hfld F.DMA_STAT_BUSY (by decide))).trans hb
  have hlen (x : Tab Dma) : ({ u.setFld F.DMA_STAT_BUSY m 1 with dma := x } : State).fld F.DMA_LEN_LEN m = s.fld F.DMA_LEN_LEN m :=
    (fld_of_regs (s := u.setFld F.DMA_STAT_BUSY m 1) rfl _ _).trans ((fld_setFld_clear 1 (.inl (by decide)) hm hm).trans (hfld F.DMA_LEN_LEN (by decide)))
  rw [herr]
  cases he : s.flag F.DMA_STAT_ERR m with
  | true => rfl
  | false =>
    unfold State.dmaStart
    simp only [hbusy, hen, hlen, Bool.not_false, Bool.false_eq_true, if_false, if_true, Bool.false_or]
    split
    · rfl
    · rw [← hdma]

end Sys2Proof.Laws
end

section
/-! PROOF. Interrupt entries, store drains, doorbells, DMA and memory integrity (R370, R384 to R393, R429, R437 to R442). -/

namespace Sys2Proof.Laws
open Sys2Proof.Machine

variable {s : State} {m : Nat}

/-! Doorbells (R385). -/

theorem doorbell_bits (ring ack : Bool) : bit 1 (b2n ring + b2n ack * 2) = ack ∧ bit 0 (b2n ring + b2n ack * 2) = ring := by
  revert ring ack
  decide

/-! The end of a wipe (R429). -/

theorem wipeFiles_boot (s : State) (doms : List Nat) :
    (s.wipeFiles doms).boot = s.boot ∧ (s.wipeFiles doms).mode = s.mode ∧ (s.wipeFiles doms).raised = s.raised ∧ (s.wipeFiles doms).notes = s.notes := by
  refine repeatN_keeps (f := wipeSquare doms) (P := fun t : State => t.boot = s.boot ∧ t.mode = s.mode ∧ t.raised = s.raised ∧ t.notes = s.notes)
    (fun q hq t ht => ?_) ⟨rfl, rfl, rfl, rfl⟩
  obtain ⟨hboot, hmode, hraised, hnotes⟩ := ht
  unfold wipeSquare
  split
  · exact ⟨hboot, (fld_setRegN_ne (s := t) 0 (by decide) (by omega) (by decide)).trans hmode, hraised, hnotes⟩
  · exact ⟨hboot, hmode, hraised, hnotes⟩

theorem endWipe_boot (s : State) : s.endWipe.boot = s.boot ∧ s.endWipe.mode = s.mode := by
  cases h : s.wipe with
  | none =>
    unfold State.endWipe
    rw [h]
    exact ⟨rfl, rfl⟩
  | some x =>
    obtain ⟨doms, keep⟩ := x
    obtain ⟨hboot, hmode, -, -⟩ := wipeFiles_boot (s.wipeSram doms keep) doms
    rw [endWipe_some h]
    exact ⟨hboot, (fld_setFld_clear (s := { (s.wipeSram doms keep).wipeFiles doms with wipe := none }) 0 (.inl (by decide)) (by decide)
      (by decide)).trans hmode⟩

theorem wipeDone_some (h : s.wipe ≠ none) : s.wipeDone =
    if s.boot = .wipe then { s.endWipe.wipeBlocks.rstMsr.domSettle with boot := .verify }
    else if s.mode = 11 then s.endWipe.wipeBlocks.rstMem.rstMsr.domSettle else s.endWipe := by
  obtain ⟨hboot, hmode⟩ := endWipe_boot s
  unfold State.wipeDone
  rw [if_neg (by simpa using h)]
  dsimp only
  rw [hboot, hmode]

/-! The scrubber (R439 to R441). -/

/-- Whether the scrubber works in a memory (R439). -/
def ScrubAwake (s : State) (m : Nat) : Prop :=
  s.flag F.MEM_CTL_SCRUBEN 0 = true ∧ s.flag F.MEM_STAT_WIPING 0 = false ∧ s.alive 4 = true ∧ s.alive (macroDom m) = true

theorem scrubVisit_rests (h : 2004 ≤ m ∨ ¬ ScrubAwake s m) : s.scrubVisit m = s := by
  refine if_pos ?_
  simp only [ScrubAwake] at h
  simp only [Bool.or_eq_true, decide_eq_true_eq, Bool.not_eq_true']
  by_contra hno
  simp only [not_or, Bool.not_eq_false, Bool.not_eq_true] at hno
  obtain ⟨⟨⟨⟨hm, he⟩, hw⟩, hp⟩, hd⟩ := hno
  exact h.elim hm fun h => h ⟨he, hw, hp, hd⟩

/-- What a check state of the word at its place makes of a scrubber and its state (R433 to R437, R440). -/
def scrubbed (s : State) (m : Nat) (c : Chk) : State × Scrub :=
  let x := s.scrub m
  let a := macroAddr m x.pos
  match c with
  | .corr =>
    let t := s.logCE.setChk a .valid
    (if t.flag F.MEM_CTL_AUTOREMAP 0 && x.prev.contains x.pos then t.autoRemap m (x.pos / 8) else t, { x with fixed := x.pos :: x.fixed })
  | .uncorr => ((s.logUE a 3 true).setFld F.MEM_STAT_SCRUBUE 0 1, x)
  | .poison => ((s.logUE a 3 false).setFld F.MEM_STAT_SCRUBUE 0 1, x)
  | .valid => (s, x)

theorem scrubVisit_awake {c : Chk} (hm : m < 2004) (h : ScrubAwake s m) (hc : s.chkAt (macroAddr m (s.scrub m).pos) = c) : s.scrubVisit m =
    let (t, x) := scrubbed s m c
    let start := (s.scrub m).start.getD s.now
    if x.pos + 1 < macroWords m then t.setScrub m { x with pos := x.pos + 1, start := some start }
    else { t.setScrub m ⟨0, some t.now, [], x.fixed⟩ with laps := Tab.put (fun _ => none) t.laps m (some ((t.now - start) / 1250000)) } := by
  obtain ⟨he, hw, hp, hd⟩ := h
  have hgo : (decide (2004 ≤ m) || !s.flag F.MEM_CTL_SCRUBEN 0 || s.flag F.MEM_STAT_WIPING 0 || !s.alive 4 || !s.alive (macroDom m)) = false := by
    simp [he, hw, hp, hd, hm]
  unfold State.scrubVisit
  rw [hgo]
  dsimp only
  rw [hc]
  cases c <;> rfl

/-! DMA elements (R387, R388). -/

theorem quiet_dmaHalt (h : s.Quiet) (m code : Nat) : (s.dmaHalt m code).Quiet :=
  quiet_setFld (quiet_setFld (quiet_setFld (quiet_setFld h ..) ..) ..) ..

theorem dmaElement_idle (h : s.alive 4 = false ∨ s.flag F.DMA_STAT_BUSY m = false) : s.dmaElement m = s := by
  unfold State.dmaElement
  rcases h with h | h <;> simp [h]

section
variable (hp : s.alive 4 = true) (hb : s.flag F.DMA_STAT_BUSY m = true)
include hp hb

theorem dmaElement_busy : s.dmaElement m =
    let w := 2 ^ s.fld F.DMA_CTL_WIDTH m
    match s.dmaPlace (s.dmaCapOf m false) (s.regN .DMA_SRCOFF m) w false, s.dmaPlace (s.dmaCapOf m true) (s.regN .DMA_DSTOFF m) w true with
    | some p, some q =>
      match s.dmaRead m w p with
      | (.error .wait, t) => t
      | (.error e, t) => (if p.single w || p.plain then t else s).dmaHalt m e.dmaCode
      | (.ok (v, doubt), t) =>
        match t.dmaPut m w q v with
        | (none, t) => t.dmaAdvance m w doubt
        | (some .wait, _) => s
        | (some e, u) =>
          let b := if p.plain then t else s
          (if q.single w then (b.dmaPut m w q v).2 else b.recorded u).dmaHalt m e.dmaCode
    | _, _ => s.dmaHalt m 1 := by
  unfold State.dmaElement
  rw [hp, hb]
  rfl

end

end Sys2Proof.Laws

namespace Sys2Proof.Proofs
open Sys2Proof.Machine Sys2Proof.Laws

section
variable {s : State} (hq : s.Quiet)
include hq

/-- INTERRUPT_ENTRY (R385). -/
theorem interruptEntry_clauses (k : Fin 10) :
    (s.alive 4 = true → s.boot = .done → (s.logicalCore k.val).isSome = true →
      (s.irqChoice k.val = none ∨ 2 ≤ s.fld F.SUP_STAT_STATE k.val ∨ s.flag F.MEM_STAT_WIPING 0 = true ∨ (s.core k.val).rep ≠ 0 →
        exec (.interruptEntry k) s = .next s) ∧
      (∀ n l : Nat, s.irqChoice k.val = some (n, l) → s.fld F.SUP_STAT_STATE k.val < 2 → s.flag F.MEM_STAT_WIPING 0 = false → (s.core k.val).rep = 0 →
        exec (.interruptEntry k) s = ((s.setFld F.SUP_STAT_STATE k.val 0).supException k.val (0x10 + l) n (s.core k.val).pc 0 (some l)).ends)) ∧
    (s.boot ≠ .done → exec (.interruptEntry k) s = .next s) :=
  ⟨fun hp hb hl => ⟨fun h => ends_of_eq (supInterrupt_stays (.inr h)) hq,
    fun _ _ hc hst hw hr => congrArg State.ends (supInterrupt_enters hp hb hl hc hst hw hr)⟩, fun hb => ends_of_eq (supInterrupt_stays (.inl hb)) hq⟩

/-- DMA_ELEMENT (R387, R388). -/
theorem dmaElement_clauses (m : Fin 32) :
    let w := 2 ^ s.fld F.DMA_CTL_WIDTH m.val
    let src := s.dmaPlace (s.dmaCapOf m.val false) (s.regN .DMA_SRCOFF m.val) w false
    let dst := s.dmaPlace (s.dmaCapOf m.val true) (s.regN .DMA_DSTOFF m.val) w true
    (s.alive 4 = false ∨ s.flag F.DMA_STAT_BUSY m.val = false → exec (.dmaElement m) s = .next s) ∧
    (s.alive 4 = true → s.flag F.DMA_STAT_BUSY m.val = true → src = none ∨ dst = none → exec (.dmaElement m) s = .next (s.dmaHalt m.val 1)) ∧
    (∀ p q, s.alive 4 = true → s.flag F.DMA_STAT_BUSY m.val = true → src = some p → dst = some q →
      (∀ t, s.dmaRead m.val w p = (.error .wait, t) → exec (.dmaElement m) s = t.ends) ∧
      (∀ e t, s.dmaRead m.val w p = (.error e, t) → e ≠ .wait →
        exec (.dmaElement m) s = ((if p.single w || p.plain then t else s).dmaHalt m.val e.dmaCode).ends) ∧
      (∀ v doubt t, s.dmaRead m.val w p = (.ok (v, doubt), t) →
        (∀ x, t.dmaPut m.val w q v = (none, x) → exec (.dmaElement m) s = (x.dmaAdvance m.val w doubt).ends) ∧
        (∀ x, t.dmaPut m.val w q v = (some .wait, x) → exec (.dmaElement m) s = .next s) ∧
        (∀ e x, t.dmaPut m.val w q v = (some e, x) → e ≠ .wait →
          let b := if p.plain then t else s
          exec (.dmaElement m) s = ((if q.single w then (b.dmaPut m.val w q v).2 else b.recorded x).dmaHalt m.val e.dmaCode).ends))) := by
  intro w src dst
  have hexec {t : State} (h : s.dmaElement m.val = t) : exec (.dmaElement m) s = t.ends := congrArg State.ends h
  refine ⟨fun h => ends_of_eq (dmaElement_idle h) hq, fun hp hb h => (hexec ?_).trans (ends_of_quiet (quiet_dmaHalt hq m.val 1)),
    fun p q hp hb hs hd => ?_⟩
  · rw [dmaElement_busy hp hb]
    rcases h with h | h
    · simp only [show s.dmaPlace (s.dmaCapOf m.val false) (s.regN .DMA_SRCOFF m.val) (2 ^ s.fld F.DMA_CTL_WIDTH m.val) false = none from h]
    · simp only [show s.dmaPlace (s.dmaCapOf m.val true) (s.regN .DMA_DSTOFF m.val) (2 ^ s.fld F.DMA_CTL_WIDTH m.val) true = none from h]
      cases s.dmaPlace (s.dmaCapOf m.val false) (s.regN .DMA_SRCOFF m.val) (2 ^ s.fld F.DMA_CTL_WIDTH m.val) false <;> rfl
  · have hmove : s.dmaElement m.val = match s.dmaRead m.val w p with
        | (.error .wait, t) => t
        | (.error e, t) => (if p.single w || p.plain then t else s).dmaHalt m.val e.dmaCode
        | (.ok (v, doubt), t) =>
          match t.dmaPut m.val w q v with
          | (none, t) => t.dmaAdvance m.val w doubt
          | (some .wait, _) => s
          | (some e, u) =>
            let b := if p.plain then t else s
            (if q.single w then (b.dmaPut m.val w q v).2 else b.recorded u).dmaHalt m.val e.dmaCode := by
      rw [dmaElement_busy hp hb]
      simp only [show s.dmaPlace (s.dmaCapOf m.val false) (s.regN .DMA_SRCOFF m.val) (2 ^ s.fld F.DMA_CTL_WIDTH m.val) false = some p from hs,
        show s.dmaPlace (s.dmaCapOf m.val true) (s.regN .DMA_DSTOFF m.val) (2 ^ s.fld F.DMA_CTL_WIDTH m.val) true = some q from hd]
      rfl
    refine ⟨fun t ht => hexec ?_, fun e t ht he => hexec ?_, fun v doubt t ht => ⟨fun x hx => hexec ?_, fun x hx => ends_of_eq ?_ hq,
      fun e x hx he => hexec ?_⟩⟩
    · rw [hmove, ht]
    · rw [hmove, ht]
      cases e
      case wait => exact absurd rfl he
      all_goals rfl
    · rw [hmove, ht]
      simp only [hx]
    · rw [hmove, ht]
      simp only [hx]
    · rw [hmove, ht]
      simp only [hx]

/-- DOORBELL (R385). -/
theorem doorbell_clauses {who : Initiator} {k : Fin 10} (ht : s.Takes who .SUP_DOORBELL k.val) (ring ack : Bool) :
    (ack = true → exec (.doorbell who k ring ack) s = .next (s.setFld F.SUP_DOORBELL_RING k.val 0)) ∧
    (ack = false → ring = true → exec (.doorbell who k ring ack) s = .next (s.setFld F.SUP_DOORBELL_RING k.val 1)) ∧
    (ack = false → ring = false → exec (.doorbell who k ring ack) s = .next s) := by
  have hexec : exec (.doorbell who k ring ack) s = (if bit 1 (b2n ring + b2n ack * 2) then s.setFld F.SUP_DOORBELL_RING k.val 0
      else if bit 0 (b2n ring + b2n ack * 2) then s.setFld F.SUP_DOORBELL_RING k.val 1 else s).ends :=
    congrArg State.ends (writeBy_SUP_DOORBELL ht _)
  obtain ⟨hack, hring⟩ := doorbell_bits ring ack
  rw [hack, hring] at hexec
  refine ⟨?_, ?_, ?_⟩
  · rintro rfl
    exact hexec.trans (ends_of_quiet (quiet_setFld hq ..))
  · rintro rfl rfl
    exact hexec.trans (ends_of_quiet (quiet_setFld hq ..))
  · rintro rfl rfl
    exact hexec.trans (ends_of_quiet hq)

/-- DMA_GO (R387, R389). -/
theorem dmaGo_clauses {who : Initiator} {m : Fin 32} (ht : s.Takes who .DMA_CTL m.val) :
    let u := s.regPlain .DMA_CTL m.val (setBits 1 1 1 (s.regN .DMA_CTL m.val))
    let v : State := { u.setFld F.DMA_STAT_BUSY m.val 1 with dma := Tab.put (fun _ => (⟨none⟩ : Dma)) s.dma m.val ⟨none⟩ }
    (s.flag F.DMA_STAT_BUSY m.val = true → s.flag F.DMA_STAT_ERR m.val = false → exec (.dmaGo who m) s = .next (s.setFld F.DMA_STAT_OVR m.val 1)) ∧
    (s.flag F.DMA_STAT_BUSY m.val = true → s.flag F.DMA_STAT_ERR m.val = true → exec (.dmaGo who m) s = .next s) ∧
    (s.flag F.DMA_STAT_BUSY m.val = false → s.flag F.DMA_STAT_ERR m.val = true ∨ s.flag F.DMA_CTL_EN m.val = false → exec (.dmaGo who m) s = .next u) ∧
    (s.flag F.DMA_STAT_BUSY m.val = false → s.flag F.DMA_STAT_ERR m.val = false → s.flag F.DMA_CTL_EN m.val = true →
      (s.fld F.DMA_LEN_LEN m.val ≠ 0 → exec (.dmaGo who m) s = .next v) ∧
      (s.fld F.DMA_LEN_LEN m.val = 0 → exec (.dmaGo who m) s =
        (((v.setFld F.DMA_STAT_BUSY m.val 0).setFld F.DMA_STAT_DONE m.val 1).emit (0x9C0 + m.val) s.now 4 none).ends)) := by
  intro u v
  have hexec : exec (.dmaGo who m) s = (s.dmaWrite .DMA_CTL m.val (setBits 1 1 1 (s.regN .DMA_CTL m.val))).ends :=
    congrArg State.ends (writeBy_DMA_CTL ht _)
  have hu : u.Quiet := quiet_of_eq hq rfl rfl
  have hv : v.Quiet := quiet_of_eq hu rfl rfl
  refine ⟨fun hb he => ?_, fun hb he => ?_, fun hb h => ?_, fun hb he hen => ⟨fun hl => ?_, fun hl => ?_⟩⟩
  · rw [hexec, dmaWrite_go_busy hb, he]
    exact ends_of_quiet (quiet_setFld hq ..)
  · rw [hexec, dmaWrite_go_busy hb, he]
    exact ends_of_quiet hq
  · rw [hexec, dmaWrite_go_idle (by omega) hb, if_pos (by rcases h with h | h <;> simp [h])]
    exact ends_of_quiet hu
  · rw [hexec, dmaWrite_go_idle (by omega) hb, if_neg (by simp [he, hen])]
    dsimp only
    rw [if_neg hl]
    exact ends_of_quiet hv
  · rw [hexec, dmaWrite_go_idle (by omega) hb, if_neg (by simp [he, hen])]
    dsimp only
    rw [if_pos hl, State.dmaFinish]
    have hlin : (Tab.look (fun _ => (⟨none⟩ : Dma)) v.dma m.val).lin = none := congrArg Dma.lin (Tab_look_put_same _ s.dma m.val ⟨none⟩)
    show (((v.setFld F.DMA_STAT_BUSY m.val 0).setFld F.DMA_STAT_DONE m.val 1).emit (0x9C0 + m.val) s.now 4
      (Tab.look (fun _ => (⟨none⟩ : Dma)) v.dma m.val).lin).ends = _
    rw [hlin]

/-- WIPE (R429). -/
theorem wipe_clauses :
    (s.wipe = none → exec .wipe s = .next s) ∧
    (s.wipe ≠ none → s.boot = .wipe → exec .wipe s = ({ s.endWipe.wipeBlocks.rstMsr.domSettle with boot := .verify } : State).ends) ∧
    (s.wipe ≠ none → s.boot ≠ .wipe → s.mode = 11 → exec .wipe s = (s.endWipe.wipeBlocks.rstMem.rstMsr.domSettle).ends) ∧
    (s.wipe ≠ none → s.boot ≠ .wipe → s.mode ≠ 11 → exec .wipe s = (s.endWipe).ends) := by
  have hexec {t : State} (h : s.wipeDone = t) : exec .wipe s = t.ends := congrArg State.ends h
  refine ⟨fun hw => (hexec ?_).trans (ends_of_quiet hq), fun hw hb => hexec ?_, fun hw hb hm => hexec ?_, fun hw hb hm => hexec ?_⟩
  · exact if_pos (by rw [hw]; rfl)
  · rw [wipeDone_some hw, if_pos hb]
  · rw [wipeDone_some hw, if_neg hb, if_pos hm]
  · rw [wipeDone_some hw, if_neg hb, if_neg hm]

/-- SCRUB_VISIT (R439 to R441). -/
theorem scrubVisit_clauses (m : Fin 2048) :
    let x := s.scrub m.val
    let a := macroAddr m.val x.pos
    let go (t : State) := t.setScrub m.val { x with pos := x.pos + 1, start := some (x.start.getD s.now) }
    (2004 ≤ m.val ∨ ¬ ScrubAwake s m.val → exec (.scrubVisit m) s = .next s) ∧
    (m.val < 2004 → ScrubAwake s m.val → x.pos + 1 < macroWords m.val →
      (s.chkAt a = .valid → exec (.scrubVisit m) s = .next (go s)) ∧
      (s.chkAt a = .uncorr → exec (.scrubVisit m) s = (go ((s.logUE a 3 true).setFld F.MEM_STAT_SCRUBUE 0 1)).ends) ∧
      (s.chkAt a = .poison → exec (.scrubVisit m) s = (go ((s.logUE a 3 false).setFld F.MEM_STAT_SCRUBUE 0 1)).ends) ∧
      (s.chkAt a = .corr → s.flag F.MEM_CTL_AUTOREMAP 0 = false → exec (.scrubVisit m) s = (((s.logCE.setChk a .valid).setScrub m.val
        { x with pos := x.pos + 1, start := some (x.start.getD s.now), fixed := x.pos :: x.fixed })).ends)) ∧
    (m.val < 2004 → ScrubAwake s m.val → macroWords m.val ≤ x.pos + 1 → s.chkAt a = .valid → exec (.scrubVisit m) s = .next
      { s.setScrub m.val ⟨0, some s.now, [], x.fixed⟩ with laps := Tab.put (fun _ => none) s.laps m.val (some ((s.now - x.start.getD s.now) / 1250000)) }) := by
  intro x a go
  have hexec {t : State} (h : s.scrubVisit m.val = t) : exec (.scrubVisit m) s = t.ends := congrArg State.ends h
  refine ⟨fun h => (hexec (scrubVisit_rests h)).trans (ends_of_quiet hq), fun hm hw hpos => ⟨fun hc => ?_, fun hc => hexec ?_, fun hc => hexec ?_,
    fun hc hauto => hexec ?_⟩, fun hm hw hlast hc => ?_⟩
  · refine (hexec (t := go s) ?_).trans (ends_of_quiet (quiet_of_eq hq rfl rfl))
    rw [scrubVisit_awake hm hw hc]
    exact if_pos hpos
  · rw [scrubVisit_awake hm hw hc]
    exact if_pos hpos
  · rw [scrubVisit_awake hm hw hc]
    exact if_pos hpos
  · have hflag : (s.logCE.setChk a .valid).flag F.MEM_CTL_AUTOREMAP 0 = false :=
      (flag_of_fld ((fld_setFld_clear 1 (.inl (by decide)) (by decide) (by decide)).trans
        (fld_bump_clear (.inl (by decide)) (.inl (by decide)) (by decide) (by decide)))).trans hauto
    rw [scrubVisit_awake hm hw hc]
    simp only [scrubbed]
    rw [hflag]
    exact if_pos hpos
  · refine (hexec ?_).trans (ends_of_quiet (quiet_of_eq hq rfl rfl))
    rw [scrubVisit_awake hm hw hc]
    exact if_neg (Nat.not_lt.mpr hlast)

end

end Sys2Proof.Proofs
end

section
/-! PROOF. Remap tables and injection (R437, R442), and the statement on the core complex. -/

namespace Sys2Proof.Laws
open Sys2Proof.Machine

variable {s : State} {m x : Nat}

/-- A row in its check states, corrected words valid (R437). -/
def corrected (y : Nat × Chk × Bool) : Nat × Chk × Bool := (y.1, if y.2.1 = .corr then Chk.valid else y.2.1, y.2.2)

/-- A remap entry that takes effect with a copy of the row that it names (R437). -/
def remapTaken (s : State) (m x : Nat) : State :=
  (s.setFld F.MEM_STAT_REMAP 0 1).retable m (fun t => { (t.setFld F.MEM_RDATA_BUSY (remapEntry m x) 0).setFld F.MEM_RDATA_VALID (remapEntry m x) 1 with
    spares := Tab.put (fun _ => []) t.spares (remapEntry m x) ((s.rowGet m (s.fld F.MEM_RDATA_ROW (remapEntry m x))).map corrected) })

theorem remapDone_idle (h : s.flag F.MEM_RDATA_BUSY (remapEntry m x) = false) : s.remapDone m x = s := by
  unfold State.remapDone
  rw [h]
  rfl

theorem remapDone_busy (h : s.flag F.MEM_RDATA_BUSY (remapEntry m x) = true) (hp : s.alive 4 = true) : s.remapDone m x = remapTaken s m x := by
  unfold State.remapDone
  rw [h, hp]
  rfl

/-- In a table with no other entry in effect, what completes changes no byte. -/
theorem remapTaken_reads (hm : m < 2004) (hx : x < 8) (hv : ∀ y < 8, s.flag F.MEM_RDATA_VALID (remapEntry m y) = false) :
    (∀ a, (remapTaken s m x).byte a = s.byte a) ∧ (remapTaken s m x).flag F.MEM_RDATA_BUSY (remapEntry m x) = false ∧
    (remapTaken s m x).flag F.MEM_RDATA_VALID (remapEntry m x) = true ∧ (remapTaken s m x).flag F.MEM_STAT_REMAP 0 = true := by
  have hi {y : Nat} (hy : y < 8) : remapEntry m y < 65536 := by
    unfold remapEntry
    omega
  have hserved : (s.setFld F.MEM_STAT_REMAP 0 1).unserve m = s.setFld F.MEM_STAT_REMAP 0 1 :=
    unserve_invalid fun y hy => (flag_setFld_clear 1 (.inl (by decide)) (by decide) (hi hy)).trans (hv y hy)
  let r := (s.setFld F.MEM_STAT_REMAP 0 1).setFld F.MEM_RDATA_BUSY (remapEntry m x) 0
  let t : State := { r.setFld F.MEM_RDATA_VALID (remapEntry m x) 1 with
    spares := Tab.put (fun _ => []) s.spares (remapEntry m x) ((s.rowGet m (s.fld F.MEM_RDATA_ROW (remapEntry m x))).map corrected) }
  have htaken : remapTaken s m x = t.serve m := by
    unfold remapTaken State.retable
    rw [hserved]
    rfl
  have hflags (f : Fld) (i : Nat) : t.fld f i = (r.setFld F.MEM_RDATA_VALID (remapEntry m x) 1).fld f i :=
    fld_of_regs (s := r.setFld F.MEM_RDATA_VALID (remapEntry m x) 1) rfl f i
  have hcopy : OneCopy s t m x corrected := by
    refine ⟨fun y hy hne => ?_, fun _ => rfl, ?_⟩
    · have hapart : remapEntry m x ≠ remapEntry m y := by
        unfold remapEntry
        omega
      refine (flag_of_fld (hflags _ _)).trans ((flag_setFld_inst 1 hapart (hi hx) (hi hy)).trans ?_)
      refine (flag_setFld_inst 0 hapart (hi hx) (hi hy)).trans ?_
      exact (flag_setFld_clear 1 (.inl (by decide)) (by decide) (hi hy)).trans (hv y hy)
    · have hrow : t.fld F.MEM_RDATA_ROW (remapEntry m x) = s.fld F.MEM_RDATA_ROW (remapEntry m x) := by
        refine (hflags _ _).trans ((fld_setFld_clear 1 (by decide) (hi hx) (hi hx)).trans ?_)
        refine (fld_setFld_clear 0 (by decide) (hi hx) (hi hx)).trans ?_
        exact fld_setFld_clear 1 (.inl (by decide)) (by decide) (hi hx)
      rw [hrow]
      have hspares : t.spares = Tab.put (fun _ => []) s.spares (remapEntry m x) ((s.rowGet m (s.fld F.MEM_RDATA_ROW (remapEntry m x))).map corrected) := rfl
      rw [hspares]
      exact Tab_look_put_same ..
  obtain ⟨hregs, hbytes⟩ := serve_oneCopy (f := corrected) (fun _ => rfl) hx hcopy
  rw [htaken]
  refine ⟨hbytes, ?_, ?_, ?_⟩
  · refine (flag_of_regs hregs _ _).trans ((flag_of_fld (hflags _ _)).trans ((flag_setFld_clear 1 (by decide) (hi hx) (hi hx)).trans ?_))
    exact flag_setFld_same _ false (by decide) (by decide)
  · exact (flag_of_regs hregs _ _).trans ((flag_of_fld (hflags _ _)).trans (flag_setFld_same _ true (by decide) (by decide)))
  · refine (flag_of_regs hregs _ _).trans ((flag_of_fld (hflags _ _)).trans ((flag_setFld_clear 1 (.inl (by decide)) (hi hx) (by decide)).trans ?_))
    exact (flag_setFld_clear 0 (.inl (by decide)) (hi hx) (by decide)).trans (flag_setFld_same _ true (by decide) (by decide))

/-- A write of RDATA with VALID and a row (R437). -/
theorem rdata_bits (row : BitVec 12) : bit 12 (row.toNat + 2 ^ 12) = true ∧ bits 11 0 (row.toNat + 2 ^ 12) = row.toNat := by
  have hrow := row.isLt
  refine ⟨?_, ?_⟩
  · rw [bit_eq_bits, bits, Nat.shiftRight_eq_div_pow, decide_eq_true_eq]
    omega
  · rw [bits, Nat.shiftRight_eq_div_pow]
    omega

end Sys2Proof.Laws

namespace Sys2Proof.Proofs
open Sys2Proof.Machine Sys2Proof.Laws

section
variable {s : State} (hq : s.Quiet)
include hq

/-- VALID (R437, R444). -/
theorem valid_clauses {who : Initiator} (row : BitVec 12) :
    let m := s.fld F.MEM_RSEL_MACRO 0
    let i := remapEntry m (s.fld F.MEM_RSEL_ENTRY 0)
    s.answers 0x400060020 = true → s.regMay who.agent .MEM_RDATA i = true →
      (m < 2004 → s.flag F.MEM_RDATA_BUSY i = false →
        exec (.valid who row) s = .next (s.retable m (fun t => (t.setFld F.MEM_RDATA_ROW i row.toNat).setFld F.MEM_RDATA_BUSY i 1))) ∧
      (2004 ≤ m ∨ s.flag F.MEM_RDATA_BUSY i = true → exec (.valid who row) s = .next (s.setFld F.MEM_STAT_WERR 0 1)) := by
  intro m i ha hmay
  have hm : m < 2 ^ 11 := Nat.mod_lt _ (by decide)
  have hx : s.fld F.MEM_RSEL_ENTRY 0 < 2 ^ 3 := Nat.mod_lt _ (by decide)
  have hi : i < 65536 := by
    show 8 * m + _ < _
    omega
  have hexec : exec (.valid who row) s = (s.writeRdata (row.toNat + 2 ^ 12)).ends := congrArg State.ends (writeSel_MEM_RDATA hi ha hmay _)
  obtain ⟨hvalid, hrow⟩ := rdata_bits row
  refine ⟨fun hm hb => ?_, fun h => ?_⟩
  · have hwrite : s.writeRdata (row.toNat + 2 ^ 12) = s.retable m (fun t => t.remapBegin m (s.fld F.MEM_RSEL_ENTRY 0) row.toNat) := by
      unfold State.writeRdata
      rw [hvalid, hrow]
      exact if_neg (by simp only [Bool.or_eq_true, decide_eq_true_eq, not_or, Nat.not_le, Bool.not_eq_true]; exact ⟨hm, hb⟩)
    rw [hexec, hwrite]
    exact ends_of_quiet (quiet_retable hq _ fun t ht => quiet_setFld (quiet_setFld ht ..) ..)
  · rw [hexec, State.writeRdata, if_pos (by simp only [Bool.or_eq_true, decide_eq_true_eq]; exact h)]
    exact ends_of_quiet (quiet_setFld hq ..)

/-- INJ (R442). -/
theorem inj_clauses {who : Initiator} (ht : s.Takes who .MEM_INJ 0) (v : Word) :
    (bit 13 v.toNat = true → s.mode ≠ 9 → exec (.inj who v) s = .next (s.setFld F.MEM_STAT_WERR 0 1)) ∧
    (bit 13 v.toNat = false ∨ s.mode = 9 → exec (.inj who v) s = .next (s.setRegN .MEM_INJ 0 (v.toNat % 2 ^ 14))) := by
  have hexec : exec (.inj who v) s = (s.writeInj v.toNat).ends := congrArg State.ends (writeBy_MEM_INJ ht _)
  refine ⟨fun hb hm => ?_, fun h => ?_⟩
  · rw [hexec, State.writeInj, if_pos (by simp [hb, hm])]
    exact ends_of_quiet (quiet_setFld hq ..)
  · rw [hexec, State.writeInj, if_neg (by rcases h with h | h <;> simp [h])]
    exact ends_of_quiet (quiet_of_eq hq rfl rfl)

end

/-- A store of 64 bits into shared SRAM, as a drain writes it (R370, R432). -/
theorem storeNow_sram {s : State} {k : Nat} {x : SupStore} (hcap : x.cap = none) (hsize : x.size = 8) (hlow : 0x20000000 ≤ x.addr)
    (hhigh : x.addr < 0x21000000) (hal : x.addr % 8 = 0) (hp : s.alive 4 = true) (hw : s.underWipe x.addr = false) :
    s.supStoreNow k x = (none, wordPut s x.addr x.value) := by
  have hram : isCoreRam x.addr = true := by
    simp only [isCoreRam, Bool.or_eq_true, Bool.and_eq_true, decide_eq_true_eq]
    omega
  unfold State.supStoreNow
  rw [hcap, hsize]
  exact busWrite_coreRam hp hw hram hal _ _ _

/-- What a drained store of 64 bits leaves of memory where no injection is armed. -/
theorem drainNow_sram {s : State} {k : Nat} {x : SupStore} {c : Sup} (hcap : x.cap = none) (hsize : x.size = 8) (hlow : 0x20000000 ≤ x.addr)
    (hhigh : x.addr < 0x21000000) (hal : x.addr % 8 = 0) (hp : s.alive 4 = true) (hw : s.underWipe x.addr = false)
    (hi : s.flag F.MEM_INJ_ARM 0 = false) :
    let t := ((s.setCore k c).supStoreNow k x).2
    ((s.setCore k c).supStoreNow k x).1 = none ∧ t.peek x.addr 8 = x.value % 2 ^ 64 ∧ t.chkAt x.addr = .valid ∧ t.tagAt x.addr = false ∧
      (∀ b, b < x.addr ∨ x.addr + 8 ≤ b → t.byte b = s.byte b) ∧ t.regs = s.regs := by
  dsimp only
  rw [storeNow_sram (s := s.setCore k c) hcap hsize hlow hhigh hal hp hw]
  obtain ⟨hregs, hchk, htag⟩ := wordPut_idle (s := s.setCore k c) (a := x.addr) hi x.value
  exact ⟨rfl, peek_wordPut_same .., hchk, htag, fun b hb => (byte_wordPut_apart x.value hb).trans rfl, hregs⟩

/-- Settles O53: each command by the lemma on it, the drain of a store by `supDrain_cons`. -/
theorem coreComplex : Obligations.CoreComplex := by
  unfold Obligations.CoreComplex
  intro s hq
  refine ⟨fun k => (interruptEntry_clauses hq k).1, fun k => (interruptEntry_clauses hq k).2, fun k n l => ?_, fun k x rest => ?_, fun k x => ?_,
    fun who k ring ack => ?_, fun who m => ?_, fun m => dmaElement_clauses hq m, wipe_clauses hq, fun doms keep => ?_,
    fun m => scrubVisit_clauses hq m, fun who row => valid_clauses hq row, fun m x => ?_, fun who v ht => inj_clauses hq ht v⟩
  · intro c ready hc
    obtain ⟨hn, hready, hl, hmax, hfirst⟩ := irqChoice_best hc
    exact ⟨hn, (irqReady_iff s k.val n).mp hready, hl, fun m hm hr => hmax m hm ((irqReady_iff s k.val m).mpr hr),
      fun m hm hr => hfirst m hm ((irqReady_iff s k.val m).mpr hr)⟩
  · intro c u hsb
    refine ⟨fun t ht => congrArg State.ends ((supDrain_cons hsb).trans ?_), fun e t ht => congrArg State.ends ((supDrain_cons hsb).trans ?_)⟩
    · rw [ht]
    · rw [ht]
  · intro u t hcap hsize hlow hhigh hal hp hw hi
    exact drainNow_sram hcap hsize hlow hhigh hal hp hw hi
  · intro ht
    obtain ⟨hack, hring, hnone⟩ := doorbell_clauses hq ht ring ack
    exact ⟨hack, hring, hnone, fun hsb => ends_of_eq (supDrain_empty hsb) hq⟩
  · intro u v ht
    exact dmaGo_clauses hq ht
  · intro t hw
    refine ⟨?_, ?_, fun a ha => endWipe_wiped hw ha, fun a ha hs => endWipe_kept hw ha hs⟩
    · exact congrArg State.wipe (endWipe_some hw)
    · exact (congrArg (fun r : State => r.flag F.MEM_STAT_WIPING 0) (endWipe_some hw)).trans (flag_setFld_same 0 false (by decide) (by decide))
  · intro i row copy u
    exact ⟨fun h => ends_of_eq (remapDone_idle h) hq, fun h hp => congrArg State.ends (remapDone_busy h hp),
      fun h hp hm hv => remapTaken_reads hm x.isLt hv⟩

end Sys2Proof.Proofs
end

section
/-! SUPPORT. Safety events and their consequences (R527, R558 to R564), and the registers of the safety controller (R575). -/

namespace Sys2Proof.Laws
open Sys2Proof.Machine

variable {s : State}

/-! Events (R558, R564). -/

/-- One event raised is counted, pends, is recorded and acts by its class alone. -/
theorem safEvents_one {z : State} {c u : Nat} (h : z.raised = [(c, u)]) : z.safEvents =
    ((({ z with raised := [] } : State).safCount c).safFirst c u).safAct (z.actOf c) := by
  unfold State.safEvents
  rw [h]
  have hmax : max 0 (({ z with raised := [] } : State).actOf c) = z.actOf c := Nat.zero_max _
  exact congrArg (State.safAct _) hmax

theorem takeNotes_none {z : State} (h : z.notes = []) : z.takeNotes = z := by
  obtain ⟨_⟩ := z
  subst h
  rfl

theorem settleOnce_raised {z : State} {x : Nat × Nat} {l : List (Nat × Nat)} (h : z.raised = x :: l) (hn : z.notes = []) :
    z.settleOnce = z.safEvents.epRefreshAll.msrWatch := by
  unfold State.settleOnce
  rw [if_neg (by simp [h]), takeNotes_none hn]

theorem lowestEvent_none {l : List (Nat × Nat)} (h : lowestEvent l = none) : l = [] := by
  cases l with
  | nil => rfl
  | cons x t =>
    unfold lowestEvent at h
    split at h
    next => split at h <;> cases h
    next => cases h

/-- The event found is of the lowest class, and the first of its class. -/
theorem lowestEvent_some (l : List (Nat × Nat)) : ∀ {x : Nat × Nat}, lowestEvent l = some x →
    x ∈ l ∧ (∀ y ∈ l, x.1 ≤ y.1) ∧ l.find? (fun y => y.1 == x.1) = some x := by
  induction l with
  | nil => exact fun h => nomatch h
  | cons z t ih =>
    intro x h
    have hhead : x = z → (∀ y ∈ t, z.1 ≤ y.1) →
        x ∈ z :: t ∧ (∀ y ∈ z :: t, x.1 ≤ y.1) ∧ (z :: t).find? (fun y => y.1 == x.1) = some x := by
      rintro rfl hmin
      exact ⟨List.mem_cons_self, List.forall_mem_cons.mpr ⟨Nat.le_refl _, hmin⟩, List.find?_cons_of_pos (beq_self_eq_true _)⟩
    unfold lowestEvent at h
    split at h
    next y hy =>
      obtain ⟨hmem, hmin, hfirst⟩ := ih hy
      split at h
      next hlt =>
        cases h
        refine ⟨List.mem_cons_of_mem _ hmem, List.forall_mem_cons.mpr ⟨hlt.le, hmin⟩, ?_⟩
        rw [List.find?_cons_of_neg (by simpa using hlt.ne'), hfirst]
      next hge => exact hhead (Option.some.inj h).symm fun w hw => (Nat.not_lt.mp hge).trans (hmin w hw)
    next hnone =>
      obtain rfl := lowestEvent_none hnone
      exact hhead (Option.some.inj h).symm fun w hw => nomatch hw

/-! The first-event record and the action (R560, R564). -/

theorem safFirst_free {c u : Nat} (h : s.flag F.SAF_FIRST_VALID 0 = false ∨ s.pair .SAF_FIRSTL .SAF_FIRSTH 0 = s.now ∧ c < s.fld F.SAF_FIRST_CLASS 0) :
    s.safFirst c u = (s.setRegN .SAF_FIRST 0 (c + u % 256 * 2 ^ 4 + 2 ^ 12)).setPair .SAF_FIRSTL .SAF_FIRSTH 0 s.now :=
  if_pos (by simpa using h)

theorem safFirst_taken {c u : Nat} (h : ¬ (s.flag F.SAF_FIRST_VALID 0 = false ∨ s.pair .SAF_FIRSTL .SAF_FIRSTH 0 = s.now ∧ c < s.fld F.SAF_FIRST_CLASS 0)) :
    s.safFirst c u = s :=
  if_neg (by simpa using h)

/-! The mode after an escalation (R527, R562). -/

/-- An escalation with no transition under way and no request pending. -/
theorem escalate_free (ht : s.trans = none) (hr : s.modeReq = none) : s.escalate =
    let e : State := { s with escAt := s.now + 1 }
    match s.mode with
    | 2 => ({ e with trans := some 8 } : State).warmExit
    | 5 => (e.enterMode 8).reqBeaten
    | 6 => e.enterMode 8
    | 7 => e.enterMode 8
    | 8 => e.reqBeaten
    | 9 => (e.enterMode 8).reqBeaten
    | 10 => (e.enterMode 8).reqBeaten
    | _ => e := by
  have htrans : ({ s with escAt := s.now + 1 } : State).dropTrans = { s with escAt := s.now + 1 } := if_neg (by simp [ht])
  have hreq : ({ s with escAt := s.now + 1 } : State).dropReq = { s with escAt := s.now + 1 } := if_neg (by simp [hr])
  unfold State.escalate
  dsimp only
  rw [htrans, hreq, if_neg (by simp [ht])]
  rfl

/-! Writes of SAF (R563, R575, R577). -/

theorem writeBy_SAF {who : Initiator} {r : Reg} (hr : r ∈ [Reg.SAF_ACK, .SAF_SWEV, .SAF_ACT]) (h : s.Takes who r 0) (v : Nat) :
    s.writeBy who r 0 v = s.writeSaf r 0 v (s.agentRing who.agent) := by
  have hplaced : ∀ q ∈ [Reg.SAF_ACK, .SAF_SWEV, .SAF_ACT], placed q 0 = true ∧ q ≠ .EVC_CTL ∧ blockOf regRuns q.ctorIdx = 8 := by
    decide +kernel
  obtain ⟨hp, hne, hblock⟩ := hplaced r hr
  have hb : keyBlock (r.key 0) = 8 := (keyBlock_key r (by decide)).trans hblock
  rw [writeBy_takes h hp hne]
  unfold State.regWrite
  rw [hb]
  rfl

theorem ackOk_iff : s.ackOk = true ↔ s.safen = true ∧ ∀ c : Fin 16, bit c.val (s.regN .SAF_PEND 0) = false ∨ s.actOf c.val < 2 := by
  simp only [State.ackOk, Bool.and_eq_true, List.all_eq_true, List.mem_range, Bool.or_eq_true, Bool.not_eq_true', decide_eq_true_eq]
  exact and_congr_right fun _ => ⟨fun h c => h c c.isLt, fun h c hc => h ⟨c, hc⟩⟩

theorem safActWrite_unlocked (h : s.flag F.SAF_CTL_LOCK 0 = false) (v : Nat) : s.safActWrite v = s.setRegN .SAF_ACT 0 v := by
  unfold State.safActWrite
  rw [h]
  rfl

end Sys2Proof.Laws

namespace Sys2Proof.Proofs
open Sys2Proof.Machine Sys2Proof.Laws

variable {s : State}

/-- The actions (R560). -/
theorem safAct_clauses (s : State) (a : Nat) :
    let u := s.setFld F.SAF_STAT_ACTLVL 0 (max a (s.fld F.SAF_STAT_ACTLVL 0))
    let v := ((u.setFld F.SAF_STAT_ESC 0 1).fltLevel 387 true s.now).escalate
    (a < 2 → s.safAct a = u) ∧ (a = 2 → s.safAct a = v) ∧ (a = 3 → s.safAct a = { v with escDue := v.escDue ++ [v.now + 1250] }) := by
  refine ⟨fun h => if_pos h, ?_, ?_⟩
  · rintro rfl
    rfl
  · rintro rfl
    rfl

/-- The modes (R527, R562). -/
theorem escalate_clauses (s : State) (m : Nat) :
    let t := s.escalate
    let e : State := { s with escAt := s.now + 1 }
    s.mode = m → s.trans = none → s.modeReq = none →
      (m = 6 ∨ m = 7 → t = e.enterMode 8) ∧ (m = 9 ∨ m = 10 ∨ m = 5 → t = (e.enterMode 8).reqBeaten) ∧
      (m = 2 → t = ({ e with trans := some 8 } : State).warmExit) ∧ (m = 8 → t = e.reqBeaten) ∧
      (m = 0 ∨ m = 1 ∨ m = 3 ∨ m = 4 ∨ m = 11 → t = e) := by
  intro t e hm ht hr
  have hfree := escalate_free ht hr
  rw [hm] at hfree
  refine ⟨?_, ?_, ?_, ?_, ?_⟩
  · rintro (rfl | rfl) <;> exact hfree
  · rintro (rfl | rfl | rfl) <;> exact hfree
  · rintro rfl
    exact hfree
  · rintro rfl
    exact hfree
  · rintro (rfl | rfl | rfl | rfl | rfl) <;> exact hfree

section
variable (hq : s.Quiet)
include hq

/-- ACK and SWEV (R563, R577). -/
theorem ack_clauses {who : Initiator} (ha : s.Takes who .SAF_ACK 0) (hw : s.Takes who .SAF_SWEV 0) :
    let ok := s.safen = true ∧ ∀ c : Fin 16, bit c.val (s.regN .SAF_PEND 0) = false ∨ s.actOf c.val < 2
    (s.agentRing who.agent ≠ 0 → exec (.ack who) s = .next s ∧ exec (.swev who) s = .next s) ∧
    (s.agentRing who.agent = 0 →
      (ok → exec (.ack who) s = (((s.setFld F.SAF_STAT_ESC 0 0).setFld F.SAF_STAT_ACTLVL 0 0).fltLevel 387 false s.now).ends) ∧
      (¬ ok → exec (.ack who) s = .next (s.setFld F.SAF_STAT_ACKERR 0 1)) ∧ exec (.swev who) s = (s.raiseEv 0 15 0).ends) := by
  intro ok
  have hack : exec (.ack who) s = (s.writeSaf .SAF_ACK 0 1 (s.agentRing who.agent)).ends :=
    congrArg State.ends (writeBy_SAF (by decide) ha 1)
  have hswev : exec (.swev who) s = (s.writeSaf .SAF_SWEV 0 1 (s.agentRing who.agent)).ends :=
    congrArg State.ends (writeBy_SAF (by decide) hw 1)
  refine ⟨fun hr => ⟨hack.trans (ends_of_eq (if_pos hr) hq), hswev.trans (ends_of_eq (if_pos hr) hq)⟩, fun hr => ?_⟩
  rw [hr] at hack hswev
  have hack' : exec (.ack who) s = (if !s.ackOk then s.setFld F.SAF_STAT_ACKERR 0 1
      else ((s.setFld F.SAF_STAT_ESC 0 0).setFld F.SAF_STAT_ACTLVL 0 0).fltLevel 387 false s.now).ends := hack
  refine ⟨fun h => ?_, fun h => ?_, hswev⟩
  · rw [hack', ackOk_iff.mpr h]
    rfl
  · rw [hack', Bool.eq_false_iff.mpr fun h' => h (ackOk_iff.mp h')]
    exact ends_of_quiet (quiet_setFld hq ..)

/-- SAFEN_EDGE and SAFEN_LOW (R565). -/
theorem safen_clauses (lvl : Bool) :
    let u : State := { s with safen := lvl }
    let d := if s.flag F.CLK_STAT_ENGLOCK 0 then 8 else 625
    (s.safen = lvl → exec (.safenEdge lvl) s = .next s) ∧ (s.safen ≠ lvl → s.boot = .hold → exec (.safenEdge lvl) s = .next u) ∧
    (s.safen ≠ lvl → s.boot ≠ .hold → exec (.safenEdge lvl) s =
      .next { u.setFld F.SAF_STAT_SAFENLOW 0 (b2n (!lvl)) with safenAt := if lvl then none else some s.now }) ∧
    (s.safenAt = none → exec .safenLow s = .next s) ∧
    (∀ t, s.safenAt = some t → exec .safenLow s = (({ s.reach (t + d) with safenAt := none } : State).raiseEv 0 14 0).ends) := by
  intro u d
  have hu : u.Quiet := quiet_of_eq hq rfl rfl
  refine ⟨fun h => ends_of_eq (if_pos (beq_iff_eq.mpr h)) hq, fun h hb => ends_of_eq ?_ hu, fun h hb => ends_of_eq ?_ (quiet_of_eq (quiet_setFld hu F.SAF_STAT_SAFENLOW 0 (b2n (!lvl))) rfl rfl),
    fun h => ends_of_eq ?_ hq, fun t h => congrArg State.ends ?_⟩
  · exact (if_neg (by simpa using h)).trans (if_pos hb)
  · exact (if_neg (by simpa using h)).trans (if_neg hb)
  · unfold State.safenLow
    rw [h]
  · unfold State.safenLow
    rw [h]
    rfl

end

end Sys2Proof.Proofs
end

section
/-! SUPPORT. The general ports (R498, R595). -/

namespace Sys2Proof.Laws
open Sys2Proof.Machine

variable {s : State} {q : Nat}

/-! What the operations of a port leave quiet. -/

theorem quiet_setPort (h : s.Quiet) (q : Nat) (x : Port) : (s.setPort q x).Quiet := quiet_of_eq h rfl rfl

theorem quiet_portShow (h : s.Quiet) (q : Nat) : (s.portShow q).Quiet := by
  unfold State.portShow
  dsimp only
  split
  · exact quiet_setFld h ..
  · split
    · exact quiet_setFld h ..
    · exact quiet_setFld (quiet_setFld h ..) ..

theorem quiet_portOvr (h : s.Quiet) (q : Nat) : (s.portOvr q).Quiet := by
  unfold State.portOvr
  split
  · exact quiet_setFld h ..
  · split <;> exact quiet_setFld h ..

theorem quiet_ite_setFld (h : s.Quiet) (c : Bool) (f : Fld) (i : Nat) : (if c then s.setFld f i 1 else s).Quiet := by
  cases c
  · exact h
  · exact quiet_setFld h ..

/-! The errors of a byte. -/

theorem portErr_pmb (hq : q < 4) (e : Nat) : s.portErr q e =
    let set (f : Fld) (i : Nat) (c : Bool) (t : State) : State := if c then t.setFld f i 1 else t
    set F.PMB_STAT_PECERR q (bit 2 e && s.flag F.PMB_CTL_PEC q) (set F.PMB_STAT_ARBLOST q (bit 1 e && !s.flag F.PMB_CTL_TGT q)
      (set F.PMB_STAT_NACK q (bit 0 e) s)) := by
  unfold State.portErr
  dsimp only
  rw [if_pos hq, Bool.and_true]

theorem portErr_spi (h : 4 ≤ q) (hq : q < 8) (e : Nat) : s.portErr q e = s := by
  unfold State.portErr
  dsimp only
  rw [if_neg (by omega), if_pos hq]

theorem portErr_uart (h : 8 ≤ q) (e : Nat) : s.portErr q e =
    let set (f : Fld) (i : Nat) (c : Bool) (t : State) : State := if c then t.setFld f i 1 else t
    let p := s.fld F.UART_CTL_PARITY (q - 8)
    set F.UART_STAT_FRAMEERR (q - 8) (bit 1 e) (set F.UART_STAT_PARERR (q - 8) (bit 0 e && (p == 1 || p == 2)) s) := by
  unfold State.portErr
  dsimp only
  rw [if_neg (by omega), if_neg (by omega), Bool.and_true]

theorem quiet_portErr (h : s.Quiet) (q e : Nat) : (s.portErr q e).Quiet := by
  rcases Nat.lt_or_ge q 4 with h4 | h4
  · rw [portErr_pmb h4]
    exact quiet_ite_setFld (quiet_ite_setFld (quiet_ite_setFld h ..) ..) ..
  · rcases Nat.lt_or_ge q 8 with h8 | h8
    · rwa [portErr_spi h4 h8]
    · rw [portErr_uart h8]
      exact quiet_ite_setFld (quiet_ite_setFld h ..) ..

/-! A byte of a port. -/

/-- A port's SMBALERT# as it is seen. -/
def portAlerted (s : State) (q : Nat) (alert : Bool) : State := if q < 4 then s.setFld F.PMB_STAT_ALERT q (b2n alert) else s

/-- A port whose oldest transmit byte, if one is sent, leaves its queue. -/
def portSent (s : State) (q : Nat) (sent : Bool) : State :=
  let x := s.port q
  let b := s.setPort q { x with tx := x.tx.tail }
  if sent = true ∧ x.tx ≠ [] then (if q < 4 then b.setFld F.PMB_STAT_DONE q 1 else if q < 8 then b.setFld F.SPI_STAT_DONE (q - 4) 1 else b) else s

/-- A port that a byte has reached, or none. -/
def portGot (s : State) (q : Nat) (got : Option Nat) : State :=
  match got with
  | some b => if 16 ≤ (s.port q).rx.length then s.portOvr q else s.setPort q { s.port q with rx := (s.port q).rx ++ [b % 256] }
  | none => s

theorem alive_setFld {f : Fld} {i : Nat} (v : Nat) (hd : f.reg.ctorIdx ≠ Reg.PMU_DOMSTAT.ctorIdx) (hm : f.reg.ctorIdx ≠ Reg.PMU_MODE.ctorIdx)
    (hi : i < 65536) (d : Nat) : (s.setFld f i v).alive d = s.alive d :=
  alive_of_regs (reg_setReg_ne s _ (key_ne hd.symm (by decide) hi)) (reg_setReg_ne s _ (key_ne hm.symm (by decide) hi)) d

section
variable (hq : q < 10) (alert : Bool)
include hq

/-- ALERT reaches a PMB port's status alone. -/
theorem portAlerted_keeps : (portAlerted s q alert).alive 19 = s.alive 19 ∧ (portAlerted s q alert).portOn q = s.portOn q ∧
    (portAlerted s q alert).port q = s.port q ∧ (q < 4 → (portAlerted s q alert).flag F.PMB_CTL_TGT q = s.flag F.PMB_CTL_TGT q) := by
  unfold portAlerted
  split
  next h4 =>
    refine ⟨alive_setFld _ (by decide) (by decide) (by omega) 19, ?_, rfl, fun _ => flag_setFld_clear _ (.inl (by decide)) (by omega) (by omega)⟩
    unfold State.portOn
    rw [if_pos h4, if_pos h4]
    exact flag_setFld_clear _ (.inl (by decide)) (by omega) (by omega)
  next => exact ⟨rfl, rfl, rfl, fun _ => rfl⟩

theorem portTakes_alerted (sent : Bool) : (portAlerted s q alert).portTakes q sent = s.portTakes q sent := by
  obtain ⟨-, -, hport, htgt⟩ := portAlerted_keeps (s := s) hq alert
  unfold State.portTakes
  rw [hport]
  rcases Nat.lt_or_ge q 4 with h4 | h4
  · rw [htgt h4]
  · simp only [Nat.not_lt.mpr h4, if_false]

end

/-- A byte, in its steps. -/
theorem portByte_eq (hq : q < 10) (hp : s.alive 19 = true) (sent : Bool) (got : Option Nat) (e : Nat) (alert : Bool) :
    s.portByte q sent got e alert = if s.portOn q then
      (portGot ((portSent (portAlerted s q alert) q sent).portErr q e) q (if s.portTakes q sent then got else none)).portShow q
    else portAlerted s q alert := by
  obtain ⟨halive, hon, -, -⟩ := portAlerted_keeps (s := s) hq alert
  have halert : (if q < 4 ∧ s.alive 19 = true then s.setFld F.PMB_STAT_ALERT q (b2n alert) else s) = portAlerted s q alert := by
    simp only [hp, and_true]
    rfl
  have hsent (t : State) : (if sent && !(t.port q).tx.isEmpty then
      (if q < 4 then (t.setPort q { t.port q with tx := (t.port q).tx.tail }).setFld F.PMB_STAT_DONE q 1
       else if q < 8 then (t.setPort q { t.port q with tx := (t.port q).tx.tail }).setFld F.SPI_STAT_DONE (q - 4) 1
       else t.setPort q { t.port q with tx := (t.port q).tx.tail }) else t) = portSent t q sent := by
    unfold portSent
    dsimp only
    exact if_congr (by simp) rfl rfl
  unfold State.portByte
  dsimp only
  rw [halert, halive, hp, hon, portTakes_alerted hq alert sent, hsent]
  cases s.portOn q with
  | false => rfl
  | true => rfl

/-- Whether a byte is taken, by what the port has queued. -/
theorem portTakes_iff (hq : q < 10) (sent : Bool) : s.portTakes q sent = true ↔ match (s.port q).tx with
    | v :: _ => (q < 4 ∧ (s.flag F.PMB_CTL_TGT q = true ∨ (sent = true ∧ bit 10 v = true))) ∨ (4 ≤ q ∧ q < 8 ∧ sent = true) ∨ 8 ≤ q
    | [] => (q < 4 ∧ s.flag F.PMB_CTL_TGT q = true) ∨ 8 ≤ q := by
  unfold State.portTakes
  cases (s.port q).tx with
  | nil =>
    dsimp only
    split
    next h4 => simp [h4, show ¬ 8 ≤ q by omega]
    next h4 => simp [h4]
  | cons v l =>
    dsimp only
    split
    next h4 => simp [h4, show ¬ 4 ≤ q by omega, show ¬ 8 ≤ q by omega]
    next h4 =>
      split
      next h8 => simp [h4, h8, show 4 ≤ q by omega, show ¬ 8 ≤ q by omega]
      next h8 => simp [h4, h8, Nat.not_lt.mp h8]

theorem quiet_portAlerted (h : s.Quiet) (q : Nat) (alert : Bool) : (portAlerted s q alert).Quiet := by
  unfold portAlerted
  split
  · exact quiet_setFld h ..
  · exact h

theorem quiet_portSent (h : s.Quiet) (q : Nat) (sent : Bool) : (portSent s q sent).Quiet := by
  unfold portSent
  dsimp only
  split
  · split
    · exact quiet_setFld (quiet_setPort h ..) ..
    · split
      · exact quiet_setFld (quiet_setPort h ..) ..
      · exact quiet_setPort h ..
  · exact h

/-! Writes of TXDATA (R595). -/

theorem writeBy_TXDATA {who : Initiator} (hq : q < 10) (h : s.Takes who (txReg q).1 (txReg q).2) (v : Nat) :
    s.writeBy who (txReg q).1 (txReg q).2 v = s.portTx q v := by
  have hwrite {r : Reg} {i : Nat} (ht : s.Takes who r i) (hp : placed r i = true) (hr : r ≠ .EVC_CTL) (hi : i < 65536)
      (hb : blockOf regRuns r.ctorIdx ∈ [25, 26, 27]) : s.writeBy who r i v = s.writeOther r i v := by
    have hkey : keyBlock (r.key i) ∈ [25, 26, 27] := by rwa [keyBlock_key r hi]
    rw [writeBy_takes ht hp hr]
    unfold State.regWrite
    generalize keyBlock (r.key i) = b at hkey
    simp only [List.mem_cons, List.not_mem_nil, or_false] at hkey
    rcases hkey with rfl | rfl | rfl <;> rfl
  unfold txReg at h ⊢
  split at h
  next h4 =>
    rw [if_pos h4, hwrite (r := .PMB_TXDATA) (i := q) h (placed_of_count (n := 4) (by decide +kernel) h4) (by decide) (by omega) (by decide +kernel)]
    rfl
  next h4 =>
    rw [if_neg h4]
    split at h
    next h8 =>
      rw [if_pos h8, hwrite (r := .SPI_TXDATA) (i := q - 4) h (placed_of_count (n := 4) (by decide +kernel) (by omega)) (by decide) (by omega) (by decide +kernel)]
      exact congrArg (s.portTx · v) (show 4 + (q - 4) = q by omega)
    next h8 =>
      rw [if_neg h8, hwrite (r := .UART_TXDATA) (i := q - 8) h (placed_of_count (n := 2) (by decide +kernel) (by omega)) (by decide) (by omega) (by decide +kernel)]
      exact congrArg (s.portTx · v) (show 8 + (q - 8) = q by omega)

theorem portTx_full (hp : s.alive 19 = true) (h : 16 ≤ (s.port q).tx.length) (v : Nat) : s.portTx q v = s.portOvr q := by
  unfold State.portTx
  rw [hp]
  exact if_pos h

theorem portTx_room (hp : s.alive 19 = true) (h : (s.port q).tx.length < 16) (v : Nat) : s.portTx q v =
    (s.setPort q { s.port q with tx := (s.port q).tx ++ [v % 2 ^ if q < 4 then 12 else if q < 8 then 9 else 8] }).portShow q := by
  unfold State.portTx
  rw [hp]
  exact if_neg (show ¬ 16 ≤ (s.port q).tx.length by omega)

end Sys2Proof.Laws
end

section
/-! SUPPORT. GPIO (R595, R600). -/

namespace Sys2Proof.Laws
open Sys2Proof.Machine

variable {s t : State} {r : Reg} {x : Nat}

/-- The register that holds the levels taken from outside the pins of a letter. -/
abbrev gpioInReg (l : Nat) : Reg := (gpioRegs l).2.2.1
/-- The register of the interrupt flags of a letter. -/
abbrev gpioFlagReg (l : Nat) : Reg := (gpioRegs l).2.2.2.2

/-- The registers that decide what a pin drives, and its condition. -/
def gpioSources : List Reg := [.SPI_CTL, .UART_CTL, .GPIO_DIRA, .GPIO_DIRB, .GPIO_DIRC, .GPIO_OUTA, .GPIO_OUTB, .GPIO_OUTC,
  .GPIO_ODA, .GPIO_ODB, .GPIO_ODC, .GPIO_IMODEA, .GPIO_IMODEB, .GPIO_IMODEC, .GPIO_IMODED, .GPIO_IMODEE, .GPIO_IMODEF]

theorem gpioRegs_sources (l : Nat) : (gpioRegs l).1 ∈ gpioSources ∧ (gpioRegs l).2.1 ∈ gpioSources ∧ (gpioRegs l).2.2.2.1 ∈ gpioSources := by
  unfold gpioRegs
  split <;> decide

theorem gpioInReg_apart (l : Nat) : ∀ g ∈ gpioSources, g.ctorIdx ≠ (gpioInReg l).ctorIdx := by
  unfold gpioInReg gpioRegs
  split <;> decide

theorem gpioFlagReg_apart (l : Nat) : (∀ g ∈ gpioSources, g.ctorIdx ≠ (gpioFlagReg l).ctorIdx) ∧
    ∀ l', (gpioInReg l').ctorIdx ≠ (gpioFlagReg l).ctorIdx := by
  have hin (l' : Nat) : gpioInReg l' ∈ [Reg.GPIO_INA, .GPIO_INB, .GPIO_INC] := by
    unfold gpioInReg gpioRegs
    split <;> decide
  have hflag : (∀ g ∈ gpioSources, g.ctorIdx ≠ (gpioFlagReg l).ctorIdx) ∧
      ∀ g ∈ [Reg.GPIO_INA, .GPIO_INB, .GPIO_INC], g.ctorIdx ≠ (gpioFlagReg l).ctorIdx := by
    unfold gpioFlagReg gpioRegs
    split <;> decide
  exact ⟨hflag.1, fun l' => hflag.2 _ (hin l')⟩

section
variable (hr : ∀ g ∈ gpioSources, g.ctorIdx ≠ r.ctorIdx) (v : Nat)
include hr

theorem regN_source {g : Reg} {i : Nat} (hg : g ∈ gpioSources) (hi : i < 65536) : (s.setRegN r 0 v).regN g i = s.regN g i :=
  regN_setRegN_ne v (key_ne (hr g hg) hi (by decide))

theorem gpioDrives_setRegN (hx : x < 96) : (s.setRegN r 0 v).gpioDrives x = s.gpioDrives x := by
  obtain ⟨hdir, hout, hod⟩ := gpioRegs_sources (x / 32)
  have hspi : (s.setRegN r 0 v).flag F.SPI_CTL_EN (x / 3) = s.flag F.SPI_CTL_EN (x / 3) :=
    flag_setRegN_ne v (hr _ (by decide)) (by decide) (by omega)
  have huart (f : Fld) (hf : f.reg = .UART_CTL) : (s.setRegN r 0 v).flag f ((x - 12) / 2) = s.flag f ((x - 12) / 2) :=
    flag_setRegN_ne v (hr _ (by rw [hf]; decide)) (by decide) (by omega)
  have halt : (s.setRegN r 0 v).gpioAlt x = s.gpioAlt x := by
    unfold State.gpioAlt
    rw [hspi, huart _ rfl, huart _ rfl]
  unfold State.gpioDrives
  rw [halt]
  dsimp only
  rw [regN_source hr v hdir (by decide), regN_source hr v hout (by decide), regN_source hr v hod (by decide)]

theorem gpioMode_setRegN : (s.setRegN r 0 v).gpioMode x = s.gpioMode x := by
  unfold State.gpioMode
  dsimp only
  rw [regN_source hr v (by split <;> decide) (by decide)]

theorem gpioLevel_setRegN (hin : ∀ l, (gpioInReg l).ctorIdx ≠ r.ctorIdx) (hx : x < 96) : (s.setRegN r 0 v).gpioLevel x = s.gpioLevel x := by
  unfold State.gpioLevel
  rw [gpioDrives_setRegN hr v hx, regN_setRegN_ne v (key_ne (hin _) (by decide) (by decide))]

end

/-- A bit of a register set: it holds the value, and the others stay. -/
theorem bit_setRegN {i k j : Nat} (hj : j < 32) (v : Nat) :
    bit j ((s.setRegN r i (setBits k 1 v (s.regN r i))).regN r i) = if j = k then decide (v % 2 = 1) else bit j (s.regN r i) := by
  have hreg : (s.setRegN r i (setBits k 1 v (s.regN r i))).regN r i = setBits k 1 v (s.regN r i) % 2 ^ 32 := by
    unfold State.setRegN State.regN
    rw [reg_setReg, BitVec.toNat_ofNat]
  have hlow : bit j (setBits k 1 v (s.regN r i) % 2 ^ 32) = bit j (setBits k 1 v (s.regN r i)) := by
    unfold bit
    rw [Nat.testBit_mod_two_pow, decide_eq_true hj, Bool.true_and]
  rw [hreg, hlow]
  split
  next h => rw [h, bit_setBits_same]
  next h =>
    rw [bit_setBits]
    split
    next => rfl
    next => exact if_neg (by omega)

/-- The level at a ball that GPIO drives, and at one that it does not drive. -/
theorem gpioLevel_driven {o : Bool} (h : s.gpioDrives x = some o) : s.gpioLevel x = o := by
  unfold State.gpioLevel
  rw [h]

theorem gpioLevel_open (h : s.gpioDrives x = none) : s.gpioLevel x = bit (x % 32) (s.regN (gpioInReg (x / 32)) 0) := by
  unfold State.gpioLevel
  rw [h]

/-- Whether a change from an old level meets the condition of a pin (R595). -/
def GpioMet (s : State) (x : Nat) (old : Bool) : Prop :=
  (s.gpioMode x = 1 ∧ old = false ∧ s.gpioLevel x = true) ∨ (s.gpioMode x = 2 ∧ old = true ∧ s.gpioLevel x = false) ∨
    (s.gpioMode x = 3 ∧ s.gpioLevel x = false)

/-- The flag of a pin sets. -/
def gpioFlagged (s : State) (x : Nat) : State :=
  s.setRegN (gpioFlagReg (x / 32)) 0 (setBits (x % 32) 1 1 (s.regN (gpioFlagReg (x / 32)) 0))

theorem gpioJudge_met {old : Bool} (h : GpioMet s x old) : s.gpioJudge x old = gpioFlagged s x := by
  unfold State.gpioJudge
  dsimp only
  rcases h with ⟨hm, rfl, hn⟩ | ⟨hm, rfl, hn⟩ | ⟨hm, hn⟩
  · rw [hm, hn]
    rfl
  · rw [hm, hn]
    rfl
  · rw [hm, hn]
    rfl

theorem gpioJudge_unmet {old : Bool} (h : ¬ GpioMet s x old) : s.gpioJudge x old = s := by
  unfold GpioMet at h
  unfold State.gpioJudge
  dsimp only
  refine if_neg ?_
  split
  next hm => simpa [hm] using h
  next hm => simpa [hm] using h
  next hm => simpa [hm] using h
  next => exact Bool.false_ne_true

theorem quiet_gpioFlagged (h : s.Quiet) (x : Nat) : (gpioFlagged s x).Quiet := quiet_setRegN h ..

/-- A flag set leaves what the pins carry and what they ask for. -/
theorem gpioFlagged_keeps (k : Nat) {y : Nat} (hy : y < 96) :
    (gpioFlagged s k).gpioMode y = s.gpioMode y ∧ (gpioFlagged s k).gpioLevel y = s.gpioLevel y :=
  ⟨gpioMode_setRegN (gpioFlagReg_apart _).1 _, gpioLevel_setRegN (gpioFlagReg_apart _).1 _ (gpioFlagReg_apart _).2 hy⟩

/-- The flag of a pin. -/
def gpioFlag (s : State) (x : Nat) : Bool := bit (x % 32) (s.regN (gpioFlagReg (x / 32)) 0)

theorem gpioFlag_flagged_same (s : State) (x : Nat) : gpioFlag (gpioFlagged s x) x = true :=
  (bit_setRegN (Nat.mod_lt _ (by decide)) 1).trans (if_pos rfl)

theorem gpioFlag_flagged {k y : Nat} (h : gpioFlag s y = true) : gpioFlag (gpioFlagged s k) y = true := by
  unfold gpioFlag gpioFlagged
  by_cases hkey : (gpioFlagReg (y / 32)).key 0 = (gpioFlagReg (k / 32)).key 0
  · have hsame (t : State) : t.regN (gpioFlagReg (y / 32)) 0 = t.regN (gpioFlagReg (k / 32)) 0 := by
      unfold State.regN State.reg
      rw [hkey]
    rw [hsame, bit_setRegN (Nat.mod_lt _ (by decide))]
    split
    next => rfl
    next => exact (congrArg (bit (y % 32)) (hsame s)).symm.trans h
  · rw [regN_setRegN_ne _ hkey]
    exact h

/-- A look at a pin for a low level. -/
def gpioLook (x : Nat) (s : State) : State := if s.gpioMode x = 3 then s.gpioJudge x (s.gpioLevel x) else s

theorem gpioLook_low (hm : s.gpioMode x = 3) (hl : s.gpioLevel x = false) : gpioLook x s = gpioFlagged s x :=
  (if_pos hm).trans (gpioJudge_met (.inr (.inr ⟨hm, hl⟩)))

theorem gpioLook_cases (s : State) (x : Nat) : gpioLook x s = gpioFlagged s x ∨ gpioLook x s = s := by
  unfold gpioLook
  split
  next => exact (Classical.em (GpioMet s x (s.gpioLevel x))).imp gpioJudge_met gpioJudge_unmet
  next => exact .inr rfl

/-- A pin that asks for a low level and sees it is flagged (R498, R595). -/
theorem gpioLevels_low (hx : x < 96) (hm : s.gpioMode x = 3) (hl : s.gpioLevel x = false) : gpioFlag s.gpioLevels x = true := by
  have hrounds := repeatN_counts (n := 96) (f := gpioLook) (x := s)
    (P := fun k (t : State) => (t.gpioMode x = s.gpioMode x ∧ t.gpioLevel x = s.gpioLevel x) ∧ (x < k → gpioFlag t x = true))
    (fun k _ t ⟨hkeep, hset⟩ => ?_) ⟨⟨rfl, rfl⟩, fun h => absurd h (Nat.not_lt_zero x)⟩
  · exact hrounds.2 hx
  obtain ⟨hmode, hlevel⟩ := hkeep
  obtain ⟨hmode', hlevel'⟩ := gpioFlagged_keeps (s := t) k hx
  have hlook : k = x → gpioLook k t = gpioFlagged t x := by
    rintro rfl
    exact gpioLook_low (hmode.trans hm) (hlevel.trans hl)
  refine ⟨?_, fun hk => ?_⟩
  · rcases gpioLook_cases t k with h | h
    · rw [h]
      exact ⟨hmode'.trans hmode, hlevel'.trans hlevel⟩
    · rw [h]
      exact ⟨hmode, hlevel⟩
  · rcases Nat.lt_succ_iff_lt_or_eq.mp hk with hlt | heq
    · rcases gpioLook_cases t k with h | h
      · rw [h]
        exact gpioFlag_flagged (hset hlt)
      · rw [h]
        exact hset hlt
    · rw [hlook heq.symm]
      exact gpioFlag_flagged_same t x

end Sys2Proof.Laws
end

section
/-! PROOF. Ports, pins, register writes and the debug port (R384, R555, R595, R605), and the statement on safety events and general parts. -/

namespace Sys2Proof.Laws
open Sys2Proof.Machine

variable {s : State}

/-! The debug port (R384, R392, R555). -/

theorem debugOk_iff : s.debugOk = true ↔ s.alive 19 = true ∧ (s.lcState = 0 ∨ s.lcState = 1 ∨ s.lcState = 3) := by
  simp [State.debugOk]

/-- Whether the debug port may halt a core. -/
def DebugCan (s : State) (k : Nat) : Prop :=
  (s.alive 19 = true ∧ (s.lcState = 0 ∨ s.lcState = 1 ∨ s.lcState = 3)) ∧ s.alive 4 = true ∧ (s.logicalCore k).isSome = true ∧
    s.fld F.SUP_STAT_STATE k < 2 ∧ s.flag F.MEM_STAT_WIPING 0 = false

theorem debugCan_iff (s : State) (k : Nat) : DebugCan s k ↔
    (!s.debugOk || !s.alive 4 || (s.logicalCore k).isNone || decide (2 ≤ s.fld F.SUP_STAT_STATE k) || s.flag F.MEM_STAT_WIPING 0) = false := by
  simp only [DebugCan, Bool.or_eq_false_iff, Bool.not_eq_false', debugOk_iff, decide_eq_false_iff_not, Nat.not_le, and_assoc,
    Option.isNone_eq_false_iff]

theorem debugHalt_refused {k : Nat} (h : ¬ DebugCan s k) : s.debugHalt k = s := by
  unfold State.debugHalt
  rw [Bool.of_not_eq_false fun h' => h ((debugCan_iff s k).mpr h')]
  exact if_pos rfl

theorem debugHalt_takes {k : Nat} (h : DebugCan s k) : s.debugHalt k =
    let t := (s.setFld F.DBG_STAT_ATTACHED 0 1).supException k 0x0D 0 (s.core k).pc 0 none
    if t.fld F.SUP_STAT_STATE k = 3 then t else t.setFld F.SUP_STAT_STATE k 2 := by
  unfold State.debugHalt
  rw [(debugCan_iff s k).mp h]
  exact if_neg Bool.false_ne_true

/-- What an access is answered once the debug port has its word. -/
def debugAnswer (n : Nat) : Except BusErr (Nat × Bool) × State → State
  | (.ok (x, _), t) => t.debugReply 0 (leBytes n x)
  | (.error .check, t) => t.debugReply 0 (leBytes n 0)
  | (.error .wait, t) => t
  | (.error _, t) => t.debugReply 1 []

section
variable {a n : Nat} (v : Nat)

theorem debugAccess_refused (h : s.debugOk = false) (write : Bool) (a n : Nat) : s.debugAccess write a n v = s := by
  unfold State.debugAccess
  rw [h]
  rfl

variable (hk : s.debugOk = true)
include hk

theorem debugAccess_misaligned (h : a % n ≠ 0) (write : Bool) : s.debugAccess write a n v = (s.setFld F.DBG_STAT_ATTACHED 0 1).debugReply 1 [] := by
  unfold State.debugAccess
  dsimp only
  rw [hk, if_pos h]
  rfl

theorem debugAccess_write (h : a % n = 0) {e : Option BusErr} {t : State}
    (hb : (s.setFld F.DBG_STAT_ATTACHED 0 1).busWrite .debug a n v none = (e, t)) : s.debugAccess true a n v = t.debugReply (b2n e.isSome) [] := by
  unfold State.debugAccess
  dsimp only
  rw [hk, if_neg (not_not.mpr h), hb]
  cases e <;> rfl

theorem debugAccess_read (h : a % n = 0) : s.debugAccess false a n v =
    debugAnswer n ((s.setFld F.DBG_STAT_ATTACHED 0 1).busRead .debug a n) := by
  unfold State.debugAccess
  dsimp only
  rw [hk, if_neg (not_not.mpr h)]
  generalize (s.setFld F.DBG_STAT_ATTACHED 0 1).busRead .debug a n = r
  obtain ⟨e | x, t⟩ := r
  · cases e <;> rfl
  · rfl

end

end Sys2Proof.Laws

namespace Sys2Proof.Proofs
open Sys2Proof.Machine Sys2Proof.Laws

variable {s : State} (hq : s.Quiet)
include hq

/-- TXDATA (R595). -/
theorem txdata_clauses {who : Initiator} {port : Fin 10} (v : Word) (ht : s.Takes who (txReg port.val).1 (txReg port.val).2) (hp : s.alive 19 = true) :
    let q := port.val
    let x := s.port q
    let w := if q < 4 then 12 else if q < 8 then 9 else 8
    (16 ≤ x.tx.length → exec (.txdata who port v) s = .next (s.portOvr q)) ∧
    (x.tx.length < 16 → exec (.txdata who port v) s = .next ((s.setPort q { x with tx := x.tx ++ [v.toNat % 2 ^ w] }).portShow q)) := by
  intro q x w
  have hexec : exec (.txdata who port v) s = (s.portTx q v.toNat).ends := congrArg State.ends (writeBy_TXDATA port.isLt ht v.toNat)
  refine ⟨fun h => hexec.trans (ends_of_eq (portTx_full hp h _) (quiet_portOvr hq q)),
    fun h => hexec.trans (ends_of_eq (portTx_room hp h _) (quiet_portShow (quiet_setPort hq ..) q))⟩

/-- BYTE_DONE (R498, R595). -/
theorem byteDone_clauses {port : Fin 10} (sent : Bool) (byte : Option (BitVec 8)) (errs : BitVec 3) (alert : Bool) (hp : s.alive 19 = true) :
    let q := port.val
    let d := (portSent (portAlerted s q alert) q sent).portErr q errs.toNat
    (s.portOn q = false → exec (.byteDone port sent byte errs alert) s = .next (portAlerted s q alert)) ∧
    (s.portOn q = true → byte = none ∨ s.portTakes q sent = false → exec (.byteDone port sent byte errs alert) s = .next (d.portShow q)) ∧
    (∀ g, byte = some g → s.portOn q = true → s.portTakes q sent = true → 16 ≤ (d.port q).rx.length →
      exec (.byteDone port sent byte errs alert) s = .next ((d.portOvr q).portShow q)) ∧
    (∀ g, byte = some g → s.portOn q = true → s.portTakes q sent = true → (d.port q).rx.length < 16 →
      exec (.byteDone port sent byte errs alert) s = .next ((d.setPort q { d.port q with rx := (d.port q).rx ++ [g.toNat] }).portShow q)) := by
  intro q d
  have ha : (portAlerted s q alert).Quiet := quiet_portAlerted hq q alert
  have hd : d.Quiet := quiet_portErr (quiet_portSent ha q sent) q errs.toNat
  have hexec : exec (.byteDone port sent byte errs alert) s = (if s.portOn q then
      (portGot d q (if s.portTakes q sent then byte.map (fun b => b.toNat) else none)).portShow q else portAlerted s q alert).ends :=
    congrArg State.ends (portByte_eq port.isLt hp sent _ errs.toNat alert)
  clear_value d
  refine ⟨fun ho => ?_, fun ho hn => ?_, fun g hg ho htk hfull => ?_, fun g hg ho htk hroom => ?_⟩
  · rw [hexec, ho]
    exact ends_of_quiet ha
  · have hnone : (if s.portTakes q sent then byte.map (fun b => b.toNat) else none) = none := by
      rcases hn with rfl | hn
      · exact ite_self _
      · rw [hn]
        rfl
    rw [hexec, ho, hnone]
    exact ends_of_quiet (quiet_portShow hd q)
  · rw [hexec, ho, htk, hg]
    exact ends_of_eq (congrArg (fun t : State => t.portShow q) (if_pos hfull)) (quiet_portShow (quiet_portOvr hd q) q)
  · have hbyte : g.toNat % 256 = g.toNat := Nat.mod_eq_of_lt g.isLt
    have hgot : portGot d q (some g.toNat) = d.setPort q { d.port q with rx := (d.port q).rx ++ [g.toNat] } := by
      unfold portGot
      dsimp only
      rw [if_neg (Nat.not_le.mpr hroom), hbyte]
    rw [hexec, ho, htk, hg]
    exact ends_of_eq (congrArg (fun t : State => t.portShow q) hgot) (quiet_portShow (quiet_setPort hd ..) q)

/-- GPIO_INTERRUPT (R595). -/
theorem gpioInterrupt_clauses (pin : Fin 96) (level : Bool) :
    let x := pin.val
    let r := (gpioRegs (x / 32)).2.2.1
    let u := s.setRegN r 0 (setBits (x % 32) 1 (b2n level) (s.regN r 0))
    (s.alive 19 = false → exec (.gpioInterrupt pin level) s = .next s) ∧
    (s.alive 19 = true → ¬ GpioMet u x (s.gpioLevel x) → exec (.gpioInterrupt pin level) s = .next u) ∧
    (s.alive 19 = true → GpioMet u x (s.gpioLevel x) → exec (.gpioInterrupt pin level) s = .next (gpioFlagged u x)) ∧
    (s.gpioDrives x = none → u.gpioLevel x = level) ∧ (∀ o, s.gpioDrives x = some o → u.gpioLevel x = o ∧ s.gpioLevel x = o) := by
  intro x r u
  have hu : u.Quiet := quiet_setRegN hq ..
  have hdrives : u.gpioDrives x = s.gpioDrives x := gpioDrives_setRegN (gpioInReg_apart _) _ pin.isLt
  have hexec (hp : s.alive 19 = true) : exec (.gpioInterrupt pin level) s = (u.gpioJudge x (s.gpioLevel x)).ends :=
    congrArg State.ends (if_neg (by simp [hp]))
  refine ⟨fun hp => ends_of_eq (if_pos (by simp [hp])) hq, fun hp h => (hexec hp).trans (ends_of_eq (gpioJudge_unmet h) hu),
    fun hp h => (hexec hp).trans (ends_of_eq (gpioJudge_met h) (quiet_gpioFlagged hu x)), fun h => ?_, fun o h => ?_⟩
  · rw [gpioLevel_open (hdrives.trans h)]
    refine (bit_setRegN (Nat.mod_lt _ (by decide)) _).trans ((if_pos rfl).trans ?_)
    cases level <;> rfl
  · exact ⟨gpioLevel_driven (hdrives.trans h), gpioLevel_driven h⟩

/-- EXTEST (R605). -/
theorem extest_clauses (on : Bool) :
    let ok := s.mode = 9 ∨ s.flag F.RST_BOOTSTAT_HELD 0 = true
    (s.alive 19 = false → exec (.extest on) s = .next s) ∧
    (s.alive 19 = true → on = false → exec (.extest on) s = .next { s with extest := false }) ∧
    (s.alive 19 = true → on = true → ok → exec (.extest on) s = .next { s.setFld F.DBG_STAT_ATTACHED 0 1 with extest := true }) ∧
    (s.alive 19 = true → on = true → ¬ ok → exec (.extest on) s = .next s) := by
  intro ok
  have hok : s.scanOk = true ↔ ok := by simp [State.scanOk, ok]
  have hexec : exec (.extest on) s = (s.setExtest on).ends := rfl
  unfold State.setExtest at hexec
  refine ⟨fun hp => ?_, fun hp ho => ?_, fun hp ho h => ?_, fun hp ho h => ?_⟩
  · rw [hexec, hp]
    exact ends_of_quiet hq
  · rw [hexec, hp, ho]
    exact ends_of_quiet (quiet_of_eq hq rfl rfl)
  · rw [hexec, hp, ho, hok.mpr h]
    exact ends_of_quiet (quiet_of_eq (quiet_setFld hq F.DBG_STAT_ATTACHED 0 1) rfl rfl)
  · rw [hexec, hp, ho, Bool.eq_false_iff.mpr fun h' => h (hok.mp h')]
    exact ends_of_quiet hq

/-- REGISTER_WRITE (R4, R580). -/
theorem registerWrite_clauses (who : Initiator) (addr : BitVec 40) (v : Word) :
    let a := addr.toNat
    (isRegs a = false ∨ a % 4 ≠ 0 → exec (.registerWrite who addr v) s = .next s) ∧
    (∀ t, s.wordWrite who.agent a v.toNat = (none, t) → isRegs a = true → a % 4 = 0 → exec (.registerWrite who addr v) s = t.ends) ∧
    (∀ e t, s.wordWrite who.agent a v.toNat = (some e, t) → isRegs a = true → a % 4 = 0 →
      exec (.registerWrite who addr v) s = (t.told who a e).ends) ∧
    (s.Takes who .SAF_ACT 0 → s.agentRing who.agent = 0 → s.flag F.SAF_CTL_LOCK 0 = false →
      exec (.registerWrite who 0x400080008 v) s = .next (s.setRegN .SAF_ACT 0 v.toNat)) := by
  intro a
  have hreg (hr : isRegs a = true) (h4 : a % 4 = 0) :
      exec (.registerWrite who addr v) s = (State.tell who a (s.wordWrite who.agent a v.toNat)).ends :=
    congrArg State.ends (if_pos (by rw [Bool.and_eq_true, beq_iff_eq]; exact ⟨hr, h4⟩))
  refine ⟨fun h => ends_of_eq (if_neg ?_) hq, fun t ht hr h4 => ?_, fun e t ht hr h4 => ?_, fun ht hring hlock => ?_⟩
  · rcases h with h | h <;> simp [a, h]
  · rw [hreg hr h4, ht]
    rfl
  · rw [hreg hr h4, ht]
    rfl
  · have haddr : (0x400080008#40).toNat = Reg.SAF_ACT.addr 0 := by decide +kernel
    have hwrite : s.registerWrite who (0x400080008#40).toNat v.toNat = s.setRegN .SAF_ACT 0 v.toNat := by
      refine (if_pos (by decide +kernel)).trans ?_
      rw [haddr]
      refine (writeBy_SAF (by decide) ht v.toNat).trans ?_
      rw [hring]
      exact safActWrite_unlocked hlock v.toNat
    exact ends_of_eq hwrite (quiet_setRegN hq ..)

/-- DEBUG_HALT (R384, R392, R555). -/
theorem debugHalt_clauses (k : Fin 10) :
    let t := (s.setFld F.DBG_STAT_ATTACHED 0 1).supException k.val 0x0D 0 (s.core k.val).pc 0 none
    (¬ DebugCan s k.val → exec (.debugHalt k) s = .next s) ∧
    (DebugCan s k.val → t.fld F.SUP_STAT_STATE k.val ≠ 3 → exec (.debugHalt k) s = (t.setFld F.SUP_STAT_STATE k.val 2).ends) ∧
    (DebugCan s k.val → t.fld F.SUP_STAT_STATE k.val = 3 → exec (.debugHalt k) s = t.ends) := by
  intro t
  have hexec : exec (.debugHalt k) s = (s.debugHalt k.val).ends := rfl
  refine ⟨fun h => hexec.trans (ends_of_eq (debugHalt_refused h) hq), fun h hs => ?_, fun h hs => ?_⟩
  · rw [hexec, debugHalt_takes h, if_neg hs]
  · rw [hexec, debugHalt_takes h, if_pos hs]

/-- DEBUG_ACCESS (R434, R452, R555). -/
theorem debugAccess_clauses (write : Bool) (addr : BitVec 40) (size : Fin 4) (data : BitVec 64) :
    let ok := s.alive 19 = true ∧ (s.lcState = 0 ∨ s.lcState = 1 ∨ s.lcState = 3)
    let u := s.setFld F.DBG_STAT_ATTACHED 0 1
    let n := 2 ^ size.val
    let a := addr.toNat
    (¬ ok → exec (.debugAccess write addr size data) s = .next s) ∧
    (ok → a % n ≠ 0 → exec (.debugAccess write addr size data) s = .next (u.debugReply 1 [])) ∧
    (∀ e t, u.busWrite .debug a n data.toNat none = (e, t) → ok → a % n = 0 → write = true →
      exec (.debugAccess write addr size data) s = (t.debugReply (b2n e.isSome) []).ends) ∧
    (∀ x d t, u.busRead .debug a n = (.ok (x, d), t) → ok → a % n = 0 → write = false →
      exec (.debugAccess write addr size data) s = (t.debugReply 0 (leBytes n x)).ends) ∧
    (∀ e t, u.busRead .debug a n = (.error e, t) → ok → a % n = 0 → write = false →
      (e = .check → exec (.debugAccess write addr size data) s = (t.debugReply 0 (leBytes n 0)).ends) ∧
      (e = .wait → exec (.debugAccess write addr size data) s = t.ends) ∧
      (e ≠ .check → e ≠ .wait → exec (.debugAccess write addr size data) s = (t.debugReply 1 []).ends)) := by
  intro ok u n a
  have hexec : exec (.debugAccess write addr size data) s = (s.debugAccess write a n data.toNat).ends := rfl
  have hok : ok → s.debugOk = true := debugOk_iff.mpr
  clear_value n
  rw [hexec]
  refine ⟨fun h => ?_, fun h h0 => ?_, fun e t ht h h0 hw => ?_, fun x d t ht h h0 hw => ?_, fun e t ht h h0 hw => ?_⟩
  · exact ends_of_eq (debugAccess_refused _ (Bool.eq_false_iff.mpr fun h' => h (debugOk_iff.mp h')) write a n) hq
  · exact ends_of_eq (debugAccess_misaligned _ (hok h) h0 write) (quiet_of_eq (quiet_setFld hq F.DBG_STAT_ATTACHED 0 1) rfl rfl)
  · rw [hw, debugAccess_write _ (hok h) h0 ht]
  · rw [hw, debugAccess_read _ (hok h) h0, ht]
    rfl
  · rw [hw, debugAccess_read _ (hok h) h0, ht]
    refine ⟨?_, ?_, fun hc hwait => ?_⟩
    · rintro rfl
      rfl
    · rintro rfl
      rfl
    · cases e with
      | refused => rfl
      | bus => rfl
      | check => exact absurd rfl hc
      | wait => exact absurd rfl hwait

end Sys2Proof.Proofs
end

section
/-! PROOF. The statement on safety events and general parts. -/

namespace Sys2Proof.Proofs
open Sys2Proof.Machine Sys2Proof.Laws

/-- Settles O60: each command by the lemma on it. -/
theorem safetyAndGeneral : Obligations.SafetyAndGeneral := by
  unfold Obligations.SafetyAndGeneral
  intro s hq
  refine ⟨fun z c u => ?_, fun l x => lowestEvent_some l, fun c u => ⟨safFirst_free, safFirst_taken⟩, safAct_clauses s, escalate_clauses s,
    fun who => ?_, safen_clauses hq, fun who port v => ?_, fun port sent byte errs alert => ?_, fun q e => ?_, fun pin level => ?_,
    extest_clauses hq, registerWrite_clauses hq, debugHalt_clauses hq, debugAccess_clauses hq⟩
  · intro a y hz hn _
    exact ⟨safEvents_one hz, settleOnce_raised hz hn⟩
  · intro ok ha hw
    exact ack_clauses hq ha hw
  · intro q x w r i ht hp
    exact txdata_clauses hq v ht hp
  · intro q a x go b c d y tgt takes hp
    obtain ⟨hoff, hnone, hfull, hroom⟩ := byteDone_clauses hq sent byte errs alert hp
    obtain ⟨-, -, hport, -⟩ := portAlerted_keeps (s := s) port.isLt alert
    have hsent : portSent (portAlerted s q alert) q sent = c := by
      unfold portSent
      rw [hport]
      rfl
    have htakes : s.portTakes q sent = true ↔ takes := portTakes_iff port.isLt sent
    rw [hsent] at hnone hfull hroom
    refine ⟨hoff, fun ho hn => hnone ho (hn.imp_right fun h => Bool.eq_false_iff.mpr fun h' => h (htakes.mp h')),
      fun g hg ho htk => hfull g hg ho (htakes.mpr htk), fun g hg ho htk => hroom g hg ho (htakes.mpr htk)⟩
  · intro put p
    exact ⟨fun h => portErr_pmb h e.toNat, fun h h' => portErr_spi h h' e.toNat, fun h => portErr_uart h e.toNat⟩
  · intro x r f u old new met
    obtain ⟨hoff, hunmet, hmet, hopen, hdriven⟩ := gpioInterrupt_clauses hq pin level
    exact ⟨hoff, hunmet, hmet, hopen, hdriven, gpioLevels_low pin.isLt⟩

end Sys2Proof.Proofs
end
